-- ==== Sys2Proof/Word.lean ====
section
/-! DEFINITION. The word types of the model and their plainest arithmetic. -/
namespace Sys2Proof

/-- One byte. -/
abbrev Byte := BitVec 8
/-- A 64-bit register (R484). -/
abbrev Reg := BitVec 64
/-- The 64 data bytes of one line, byte 0 least significant. -/
abbrev LineData := BitVec 512
/-- A sparse table: keys strictly rising, no entry equal to the table's default. -/
abbrev Tab (α : Type) := List (Nat × α)

/-- A count of `w` bits that stops at its largest value (R487). -/
def satAdd (w a b : Nat) : Nat := min (2 ^ w - 1) (a + b)

end Sys2Proof
end

