-- ==== Sys2Proof/Syntax.lean ====
section
/-! DEFINITION. The commands of the block: one constructor of `Instr` per row of spec/opcode_table.json, in the
table's order. Operands carry what the row's outside party supplies (a pin's pulse, a request, a frame, a sensed
line, a register access) or name the object that one of the device's engines acts on. -/
namespace Sys2Proof

abbrev Rank := Fin 64
abbrev LinkNo := Fin 1152
abbrev DieNo := Fin 17
abbrev PipeNo := Fin 32768
abbrev CoreNo := Fin 18
abbrev ZoneNo := Fin 16
/-- A block stripe number bs (R119). -/
abbrev StripeNo := Fin 5242880

inductive HostResetKind | hot | flr | cxl
  deriving DecidableEq, Repr

/-- What a sense of one line image brought (R288, R97, R98): an intact or correctable image with the number of bit
errors, a line-code failure, a miscorrection into another code word (R289), or an erasure. -/
inductive Sensed
  | bits (errors : Nat)
  | wrongWord (ident line : Nat) (stamp : Nat) (corrected : Nat)
  | erasure (linkCheck : Bool)
  deriving DecidableEq, Repr

/-- The work a decoded line belongs to (R175). -/
inductive DecodeTarget
  | read (tag : Nat)
  | fill (page line : Nat)
  | leaf (seg leafLine : Nat)
  | firing (rank : Rank) (page line : Nat)
  deriving DecidableEq, Repr

/-- The primitive a work unit names (R33, R89): a sense names its reference set, a verify its kind (glaze word line,
bisque line, blank check), a report what it asks for (verify counts, completion masks, a descriptor chunk, or a cone mask, UP for 0), a data load
its position in the program buffer and the line image (R88). -/
inductive Prim
  | sense (set : Fin 32) | slotSense (set : Fin 32) | program (first : Bool) | verify (kind : Fin 3) | blank | destroy
  | refload (set : Fin 32) | report (sel : Fin 4) (chunk : Fin 94) | cone (set : Fin 32)
  | dataLoad (pos : Fin 12) (image : BitVec 704)
  deriving DecidableEq, Repr

/-- A firmware work unit (R33) with its class of R31. -/
structure WorkUnit where
  core : Nat
  cls : Nat
  rank : Nat
  positions : BitVec 18
  die : Nat
  block : Nat
  wl : Nat
  line : Nat
  prim : Prim
  deriving DecidableEq, Repr

/-- The 1,536 bits of an upstream frame as received, the scrambler removed (R84, R85): the header with its first bit
sent at bit 95, and each slot's 88-byte body with its slot check. -/
structure RawFrame where
  header : BitVec 96
  body0 : List Byte := []
  check0 : BitVec 16 := 0
  body1 : List Byte := []
  check1 : BitVec 16 := 0
  deriving DecidableEq, Repr

/-- What the attempts of one management-bus transaction brought, in order; none is an attempt without an acknowledgement
(R105). -/
abbrev BusTries (α : Type) := List (Option α)

/-- What a startup step found outside the device's own state (R633 to R636, R542, R382). -/
structure StepReport where
  /-- physical SRAM channels that fail the test of step 3 -/
  badChannels : List Nat := []
  /-- keep-store parts found, log2 of the size, 0 when absent (R571) -/
  priSize : Nat := 24
  mirSize : Nat := 24
  /-- dummy cycles of the quad fast read that each part's SFDP gives (R572) -/
  priDummy : Nat := 6
  mirDummy : Nat := 6
  /-- both index copies of the part fail though it is not blank (R583) -/
  indexFails : Bool := false
  /-- keys of which two valid records carry one SEQ, with whether their payloads differ (R580) -/
  keepDuplicates : List (Nat × Bool) := []
  /-- domains whose stored keys fail to unwrap (R350) -/
  unwrapFails : BitVec 16 := 0
  /-- INDEX of saggar-line records whose two copies both fail (R544) -/
  lostLines : List Nat := []
  /-- a record of another kind is lost (R544) -/
  lostOther : Bool := false
  /-- every directory entry of the n lines was read (R546) -/
  dirComplete : Bool := false
  /-- WLS sensed for stripes that were OPEN (R227) -/
  openWls : List (Nat × Nat) := []
  /-- kt probed for each such stripe (R284) -/
  openKt : List (Nat × Nat) := []
  /-- the recomputed root equals the stored one (R382, R384) -/
  rootMatches : Bool := true
  /-- UCIe modules that train, and lanes repaired (module, tx) at training (R393, R394) -/
  modulesUp : BitVec 4 := 0xF
  lanesRepaired : List (Nat × Bool × Nat) := []
  deriving DecidableEq, Repr

/-- One housekeeping round's readings (R549 to R553); temperatures in 1/16 degree. -/
structure Readings where
  /-- remote channels 0-31 then on-die sensors 32-47; none is a failed conversion or self-check -/
  temps : List (Nat × Option Int) := []
  /-- rails core, SRAM, UCIe PHY, media PHY, I/O, always-on, mV -/
  rails : List Nat := [750, 700, 750, 850, 1800, 800]
  holdup : Nat := 12000
  vbat : Nat := 3000
  deriving DecidableEq, Repr

/-- The place of an SRAM word in error (R314). -/
inductive SramPlace
  | mapCache (seg line : Nat)
  | saggar (page line : Nat) (bothCopies : Bool)
  | stripeTable (bs : StripeNo)
  | guard (rank : Rank) (purpose : Fin 4) (bothCopies : Bool)
  | tree (node : Nat)
  | stampSlot (home : Nat)
  | arena (byteOffset : Nat)
  | telemetry (byteOffset : Nat)
  | firmware (core : CoreNo)
  deriving DecidableEq, Repr

inductive SramFault | noSpareRow | manyRepairs | portError
  deriving DecidableEq, Repr

inductive EraseKind | secureErase | sanitize | keyInstall (domain : Fin 16)
  deriving DecidableEq, Repr

inductive RetrainCause | retryExhausted | hostRequest | laneRepair (module : Fin 4) (tx : Bool) (lane : Fin 64)
  deriving DecidableEq, Repr

/-- What an HDM decoder is programmed with at its commit (R405). -/
structure HdmSetup where
  hpaBase : BitVec 64
  size : BitVec 64
  ways : Nat
  gran : Nat
  pos : Nat
  skip : BitVec 64
  lock : Bool
  deriving DecidableEq, Repr

inductive WakeSource | hostLink | wakePin | pwrfail | thermal | consort
  deriving DecidableEq, Repr

inductive BreathTrigger | pwrfail | gpf | mute5 (zones : BitVec 16) | deepSleep
  deriving DecidableEq, Repr

/-- One quarter of a member's status set, given whole (R618). -/
structure PeerStatus where
  compat : BitVec 32 := 1
  digest : BitVec 64 := 0
  epoch : BitVec 64 := 0
  want : Nat := 0
  level : Nat := 0
  unbroken : Bool := true
  /-- the peer's calendar count in beats, hop delay removed -/
  count : Int := 0
  /-- the peer's host-time offset and its valid flag (R623; their place in the frame is the model's, log 40) -/
  offset : Int := 0
  tvalid : Bool := false
  deriving DecidableEq, Repr

inductive ConsortKind | configuration | power (state : Nat)
  deriving DecidableEq, Repr

inductive TapInstr | idcode | bypass | extest (pins : BitVec 64) | sample | fuseRead | status | haltRelease
  | regRead (off : Nat) | regWrite (off : Nat) (v : Reg)
  deriving DecidableEq, Repr

/-- The commands of the block: rows of spec/opcode_table.json. -/
inductive Instr
  | powerOn (pos : Fin 4) (bootHalt : Bool)
  | resetNAssert (ns : Nat)
  | resetNRelease
  | brownOut (rail : Fin 3)
  | suppliesUpUnreset (inRange : Bool)
  | startupStepEnd (r : StepReport)
  | pwrfailNAssert
  | pwrfailNDeassert
  | wakeAssert (us : Nat)
  | referenceFailure (k : Fin 4)
  | hostReset (kind : HostResetKind)
  | ondieThermtrip (sensor : Fin 16) (temp16 : Int)
  | offEntry
  | backupSupplyLow (mv : Nat)
  | oscillatorStop (us : Nat)
  | crystalStop
  | crystalResume (edges : Nat)
  | calendarTick
  | trimApply
  | beatBoundary
  | frameStart (l : LinkNo)
  | upstreamFrame (l : LinkNo) (f : RawFrame)
  | lossOfSignal (l : LinkNo)
  | workUnitSubmit (w : WorkUnit)
  | lineDecodeDone (t : DecodeTarget) (o : Sensed) (others : List (Nat × Sensed))
  | dataResponse (tag : Nat) (cycle : Nat)
  | memRd (hpa : BitVec 64) (tag : Nat) (cycle : Nat)
  | memSpecRd (hpa : BitVec 64) (tag : Nat)
  | memInv (tag : Nat)
  | memWr (hpa : BitVec 64) (tag : Nat) (cycle : Nat) (be : BitVec 64) (data : LineData) (poison : Bool)
  | memWrPtl (hpa : BitVec 64) (tag : Nat) (cycle : Nat) (be : BitVec 64) (data : LineData) (poison : Bool)
  | cxlMemUnsupported (isRead : Bool) (tag : Nat) (opcode : Nat)
  | fillComplete (page line : Nat) (o : Sensed) (others : List (Nat × Sensed))
  | fillRetry (page line : Nat)
  | drainStart (page : Nat) (group : Fin 4)
  | drainVerified (page : Nat) (group : Fin 4)
  | writeDiscardHoldEnd (r : Rank)
  | mapWriteBackVerified (leafLine : Nat) (replica : Fin 2)
  | mapCleaningVisit (set : Fin 131072)
  | gapMove (r : Rank) (tree : Bool)
  | gapMoveVerified (r : Rank) (tree : Bool)
  | mapStripeSwap (r : Rank) (src dst : Nat) (verified : Bool)
  | heatEpochAdvance
  | budgetAdjust (r : Rank)
  | fireQueueWalk (r : Rank) (slot : Nat)
  | fireWaitExpiry (r : Rank)
  | firingStart (r : Rank) (purpose : Fin 4)
  | wordLineVerified (r : Rank) (purpose : Fin 4) (pulses : List (Nat × Nat))
  | guardVerifyPass (r : Rank) (purpose : Fin 4) (group : Fin 64) (failing : List (Nat × Nat))
  | guardPassComplete (r : Rank) (purpose : Fin 4) (group : Fin 64)
  | blankingStart (r : Rank)
  | blankingComplete (bs : StripeNo)
  | reclaimStart (r : Rank)
  | reclaimMoveVerified (r : Rank)
  | victimRelease (bs : StripeNo)
  | levellingCheck (r : Rank)
  | bisqueRelocation (page : Nat)
  | restamp (page : Nat)
  | refresh (page : Nat)
  | secureSweep
  | packageAlertDetails (l : LinkNo) (details : BusTries (Option DieNo))
  | rebuildStripeDone (l : LinkNo) (die : Option (Fin 16)) (bs : StripeNo)
  | sramEccError (channel : Fin 128) (row : Nat) (uncorrectable : Bool) (place : SramPlace)
  | sramRowRepair (channel : Fin 128) (row : Nat)
  | sramChannelFail (channel : Fin 128) (why : SramFault)
  | sramChannelCopyDone (die : Fin 8)
  | coreHeartbeatTimeout (c : CoreNo)
  | coreFailoverDone (c : CoreNo)
  | driftTick
  | driftStateSave
  | coneCapture (r : Rank)
  | coneMasks (l : LinkNo) (die : DieNo) (up down : BitVec 64)
  | stripeSweep (bs : StripeNo) (sums : List (Nat × Nat × Int))
  | scrubPassStart (r : Rank) (bisque : Bool)
  | scrubVisit (r : Rank) (bisque : Bool) (slot : Nat) (found : List (Nat × Nat × Sensed))
  | scrubOverrun (r : Rank) (bisque : Bool)
  | treeNodeWrite (node : Nat)
  | nodeWriteVerified (node : Nat)
  | bImageWrite (b : Nat)
  | stampSlotWriteBack (home : Nat)
  | stampCeilDurable
  | eraseStart (kind : EraseKind)
  | eraseComplete
  | ucieRetrain (cause : RetrainCause)
  | ucieRetrainDone
  | linkDown
  | linkTrainRetry (comesUp : Bool)
  | gpfPhase1
  | gpfPhase2
  | memEnableSet
  | hdmDecoderCommit (n : Fin 4) (setup : HdmSetup)
  | msixUnmask (v : Fin 2048)
  | doeCdat (handle : Nat)
  | spdmRequest (code : Nat) (nonce : Nat)
  | ideKmKeyProg (stream : Fin 2)
  | ideKmKSetGo (stream : Fin 2)
  | ideKmKSetStop (stream : Fin 2)
  | ideIntegrityFailure (stream : Fin 2)
  | cxlGetEventRecords (log : Fin 4) (count : Nat)
  | cxlClearEventRecords (log : Fin 4) (clearAll : Bool) (count : Nat)
  | cxlGetEventInterruptPolicy
  | cxlSetEventInterruptPolicy (settings : List Nat)
  | cxlGetFwInfo
  | cxlGetTimestamp
  | cxlSetTimestamp (ts : BitVec 64)
  | cxlGetSupportedLogs
  | cxlGetLog (log : Nat) (offset length : Nat)
  | cxlIdentifyMemoryDevice
  | cxlGetHealthInfo
  | cxlGetAlertConfig
  | cxlSetAlertConfig (lifeUsed temp corrected : Nat)
  | cxlGetShutdownState
  | cxlSetShutdownState (v : Byte)
  | cxlGetPoisonList (dpa : Nat) (length : Nat)
  | cxlInjectPoison (dpa : Nat)
  | cxlClearPoison (dpa : Nat) (data : LineData)
  | cxlGetScanMediaCaps (dpa : Nat) (length : Nat)
  | cxlScanMedia (dpa : Nat) (length : Nat)
  | cxlGetScanMediaResults
  | cxlSanitize
  | cxlSecureErase
  | cxlMailboxUnsupported (opcode : Nat)
  | pipeMouthWrite (p : PipeNo) (word : Reg) (size : Nat)
  | mouthpieceTake (p : PipeNo) (c : CoreNo)
  | pipeBellRead (p : PipeNo) (size : Nat)
  | pipeBellRing (p : PipeNo) (c : CoreNo)
  | heldCompletionRing (p : PipeNo)
  | pbndLockSet
  | pbndEntryWrite (p : PipeNo) (entryB : Bool) (v : Reg)
  | backgroundCommandStart (p : PipeNo)
  | identify (p : PipeNo)
  | getLog (p : PipeNo)
  | configCommit (p : PipeNo)
  | commitLive
  | configDiscard (p : PipeNo)
  | regionDefine (p : PipeNo)
  | regionInvalidate (p : PipeNo)
  | regionSplit (p : PipeNo)
  | regionMerge (p : PipeNo)
  | discard (p : PipeNo)
  | discardSecure (p : PipeNo)
  | zero (p : PipeNo)
  | copy (p : PipeNo)
  | hintHot (p : PipeNo)
  | hintCold (p : PipeNo)
  | hintPin (p : PipeNo)
  | hintUnpin (p : PipeNo)
  | budget (p : PipeNo)
  | scan (p : PipeNo)
  | keepRead (p : PipeNo)
  | keepWrite (p : PipeNo)
  | keepProtect (p : PipeNo)
  | keyGenerate (p : PipeNo)
  | keyInstall (p : PipeNo) (unwraps : Bool)
  | keyStage (p : PipeNo) (unwraps : Bool)
  | keyWindowClose (p : PipeNo)
  | keyInfo (p : PipeNo)
  | secureErase (p : PipeNo)
  | sanitize (p : PipeNo)
  | timeSet (p : PipeNo)
  | timeGet (p : PipeNo)
  | counterProgram (p : PipeNo)
  | dumpSet (p : PipeNo)
  | sampleSet (p : PipeNo)
  | captureSources (p : PipeNo)
  | captureFlush (q : Fin 8)
  | captureMark (p : PipeNo)
  | captureRewind (p : PipeNo)
  | captureRelease (p : PipeNo)
  | eventFreeze (p : PipeNo)
  | eventThaw (p : PipeNo)
  | eventRate (p : PipeNo)
  | powerPolicy (p : PipeNo)
  | throttle (p : PipeNo)
  | powerEnter (p : PipeNo)
  | consortJoin (p : PipeNo)
  | consortLeave (p : PipeNo)
  | prepareRemove (p : PipeNo)
  | online (p : PipeNo)
  | acceptFreshness (p : PipeNo)
  | spareStatus (p : PipeNo)
  | capacitySet (p : PipeNo)
  | unknownOpcode (p : PipeNo)
  | bclkHalfRead (master : Byte) (reg : Fin 3) (upper : Bool)
  | semaTakeRead (master : Byte) (n : Fin 64) (upperOnly : Bool)
  | semaTakeWrite (master : Byte) (n : Fin 64)
  | evntRdselWrite (seq : BitVec 63)
  | monSelWrite (m : Fin 67) (n : Fin 8) (v : Reg)
  | hkepSenseBClear (bits : BitVec 48)
  | shadowWrite (off : Nat) (size : Nat) (v : Reg)
  | registerWrite (master : Byte) (bar : Nat) (off : Nat) (size : Nat) (v : LineData)
  | idleEntry
  | sleepEntry
  | sleepWake (src : WakeSource)
  | deepSleepEntry
  | deepSleepWake (src : WakeSource) (badBanks : BitVec 8)
  | lastBreathStart (t : BreathTrigger)
  | breathSeal (beats : Nat)
  | housekeepingRound (x : Readings)
  | muteLevelLive
  | tempHistorySave
  | keepAppend (key : Nat) (payload : List Byte) (okPrimary okMirror : Bool)
  | keepCompaction
  | keepPartFail (mirror : Bool)
  | eventRaise (code : Nat) (source : Nat) (p0 p1 p2 p3 : Nat)
  | tokenRefill (code : Nat)
  | freezeTimeout
  | packetCloseTimeout (q : Fin 8)
  | packetOpen (q : Fin 8)
  | counterSnapshot
  | bandwidthWindow (m : Fin 67)
  | alertNExpire
  | linkDetectPoll (l : LinkNo) (signal : Bool)
  | trainingStepDone (l : LinkNo) (roundTrip ffe eyeV eyeH : Nat)
  | trainingTimeout (l : LinkNo)
  | packageInventoryDone (l : LinkNo) (linkCopy : List Byte) (busCopy : BusTries (List Byte))
  | eqEvaluation (l : LinkNo) (ffe eyeV eyeH : Nat)
  | linkRemovable (l : LinkNo)
  | migrationRecordDurable (m : Fin 4)
  | leafConvertStart (m : Fin 4)
  | leafSwitchBeat (m : Fin 4) (leaf : Nat)
  | leafConvertDone (m : Fin 4) (leaf : Nat)
  | budgetMigrationStripe (r : Rank)
  | briterStatus (origin : Fin 4) (st : PeerStatus)
  | briterStatusSend
  | briterPrepare (origin : Fin 4) (n : BitVec 64) (kind : ConsortKind)
  | briterAck (origin : Fin 4) (n : BitVec 64) (digest : BitVec 64)
  | briterNack (origin : Fin 4) (n : BitVec 64) (reason : Nat)
  | briterGo (origin : Fin 4) (n : BitVec 64)
  | briterAbort (origin : Fin 4) (n : BitVec 64)
  | briterWake (origin : Fin 4)
  | briterReg (origin : Fin 4) (n : Fin 64) (write : Bool)
  | briterJoin (origin : Fin 4) (serial : BitVec 64) (st : PeerStatus)
  | briterCrcFail (frame : BitVec 64)
  | agreementAckTimeout
  | goMissed
  | memberLost (p : Fin 4)
  | beatAlign (ahead : Bool)
  | timeSlew
  | powerPropose
  | referenceReturn (k : Fin 4)
  | aonSupplyDip (mv : Nat)
  | ucieFlitCrcFail
  | registerRead (master : Byte) (bar : Nat) (off : Nat) (size : Nat)
  | keepResyncDone (mirror : Bool)
  | blockStripeRecordWrite (bs : StripeNo)
  | tapInstruction (i : TapInstr)
  | rangeActionPoint (p : PipeNo) (page : Nat)
  deriving DecidableEq, Repr

end Sys2Proof
end

