-- ==== Sys2Proof/Config.lean ====
section
/-! DEFINITION. What one device's fuses, keys and the named outside standards fix, and the free values of the
spec: constants without a body, so nothing can be proved of a value of theirs. -/
namespace Sys2Proof.Config

/-- AES-256 of a 128-bit block (the standard the spec names, R346, R356); free here (log 5). -/
opaque aes256 (key : BitVec 256) (block : BitVec 128) : BitVec 128
/-- K_E of a domain at one key version (R346, R349, R353); free (log 6). -/
opaque keyE (domain version : Nat) : BitVec 256
/-- K_A of a domain at one key version (R346, R349, R353); free (log 6). -/
opaque keyA (domain version : Nat) : BitVec 256
/-- K_SE, derived from FK and SYSKEY_GEN (R346, R347); free (log 6). -/
opaque keySE (sysGen : Nat) : BitVec 256
/-- K_SA, derived from FK and SYSKEY_GEN (R346, R347); free (log 6). -/
opaque keySA (sysGen : Nat) : BitVec 256
/-- K_R, derived from FK and SYSKEY_GEN (R346, R347); free (log 6). -/
opaque keyR (sysGen : Nat) : BitVec 256
/-- WNONCE drawn at the n-th opening of the key window (R353); free (log 6). -/
opaque wnonce (n : Nat) : BitVec 256
/-- The configuration digest, low 64 bits of SHA-384 over PWRS_POLICY_A, PWRS_POLICY_B and CNSR_CTRL (R620);
SHA-384 is an outside standard (log 5). -/
opaque digest (policyA policyB cnsr : BitVec 64) : BitVec 64
/-- One measurement of R390 as its SHA-384 value; free (log 5). -/
opaque measurement (index : Nat) (state : List Nat) : BitVec 384
/-- The signature over an SPDM challenge (R390); free (log 5). -/
opaque spdmReply (code : Nat) (nonce : Nat) : BitVec 384
/-- A domain's keys of one version, wrapped under K_W (R350, R354); free (log 6). -/
opaque wrappedKeys (domain version : Nat) : BitVec 576
/-- AES-CMAC of a password under K_W (R585, PROTECT); free (log 5). -/
opaque passwordMac (password : BitVec 128) : BitVec 128
/-- Controller die serial number, from fuses (IDENTIFY data). -/
opaque dieSerial : BitVec 64
/-- The fuse image that FUSE_READ shifts out (R665). -/
opaque fuseImage : BitVec 64
/-- Dvorelkel's PCI-SIG vendor identifier (R400). -/
opaque vendorId : BitVec 16
/-- Dvorelkel's JEP106 code of IDCODE (R665), 11 bits. -/
opaque jep106 : BitVec 11
/-- For R129: does this read of a line of a discard-pending page return the old line (true) or zeros? -/
opaque discardReadsOld (draw : Nat) : Bool
/-- For R654: does an assertion of 1 to 10 microseconds reset the device? -/
opaque shortResetTakes (draw : Nat) : Bool
/-- For R673: which of the outcomes that the rule names does an out-of-range start have (0 stops in fuse load,
1 limited start, 2 starts with links lost)? -/
opaque badStart (draw : Nat) : Nat
/-- The links an out-of-range start loses (R673). -/
opaque badStartLost (draw link : Nat) : Bool
/-- Is a page that waits for its drop taken up at this boundary? The spec gives no time for it. -/
opaque dropsNow (draw page : Nat) : Bool
/-- Had a primitive that a cut interrupted begun on this line or group (R57, R222, R223)? -/
opaque cutTakes (draw item : Nat) : Bool
/-- The completion masks of the last 16 frames as a REPORT's 8 bytes give them, by frames ago (R89, R92). -/
opaque completionMask (masks : BitVec 64) (age : Nat) : BitVec 22
/-- A value the spec does not state, drawn afresh. -/
opaque freeWord (draw : Nat) : BitVec 64
/-- What a line position reads whose cells an interrupted primitive left undefined (R57). -/
opaque undefinedImage (slot line : Nat) : BitVec 704
/-- Does a link resume from electrical idle without a retrain (R519, R559)? -/
opaque linkResumes (draw link : Nat) : Bool
/-- What a signed 16-bit rate field shows for a rate of rise that it cannot hold (R552, R562). -/
opaque rateField (rate : Int) : BitVec 16

end Sys2Proof.Config
end

