-- ==== Sys2Proof/Machine/State.lean ====
section
/-! DEFINITION. The state of the device as plain data: one structure per block of the part. A sparse table's
default is named beside its field; registers that the spec composes of fields are computed from these fields by the
register file (Machine/RegFile.lean). -/
namespace Sys2Proof.Machine

/-! ### Map and medium -/

/-- Page states (R128). -/
inductive PageState | unmapped | glaze | split | bisqueWhole | poisonedWhole | discardPending
  deriving DecidableEq, Repr

/-- "No slot" (R119). -/
def none40 : Nat := 0xFFFFFFFFFF

/-- The map entry of a page (R127), with the reset column as default. -/
structure MapEntry where
  state : PageState := .unmapped
  mask : BitVec 64 := 0
  stamp : Nat := 0
  bisqueHome : Nat := none40
  glazeHome : Nat := none40
  domain : Nat := 0
  tally : Nat := 0
  heatEpoch : Nat := 0
  heatCount : Nat := 0
  poisonRest : Bool := false
  pin : Bool := false
  regime : Bool := false
  secure : Bool := false
  refresh : Bool := false
  deriving DecidableEq, Repr

/-- A cached segment of 8 entries with a dirty bit per map line (R142, R148, R149). -/
structure CacheSeg where
  entries : List MapEntry := []
  dirty : BitVec 4 := 0
  lru : Nat := 0
  exempt : Bool := false
  evicting : Bool := false
  /-- map lines whose HEAT alone changed since they were clean (R149) -/
  heat : BitVec 4 := 0
  /-- the way of its set that holds it (R142, R143) -/
  way : Nat := 0
  deriving DecidableEq, Repr

/-- One replica of a leaf line on media: its two entries and its line stamp (R131, R132). -/
structure LeafLine where
  e0 : MapEntry := {}
  e1 : MapEntry := {}
  stamp : Nat := 0
  deriving DecidableEq, Repr

/-- A line as stored on media (R121, R122): the plaintext it decodes to and the metadata it carries. -/
structure LineRec where
  data : LineData := 0
  stamp : Nat := 0
  ident : Nat := 0
  line : Nat := 0
  domain : Nat := 0
  keyVer : Nat := 0
  poison : Bool := false
  mapdata : Bool := false
  bisque : Bool := false
  regime : Bool := false
  deriving DecidableEq, Repr

/-- The content of a line position of the medium. -/
inductive Img
  | blank
  | line (r : LineRec)
  /-- removed by a destroy pulse -/
  | destroyed
  /-- left undefined by an interrupted primitive; with the old line, where the stripe still decodes it (R57, R222) -/
  | torn (old : Option LineRec)
  deriving DecidableEq, Repr

/-- A region (R118). -/
structure Region where
  valid : Bool := false
  base : Nat := 0
  size : Nat := 0
  ready : Bool := false
  migrating : Bool := false
  policy : Nat := 0
  tree : Bool := false
  domain : Nat := 0
  regime : Bool := false
  deriving DecidableEq, Repr

/-- A migration slot (R501, R502, XLAT_MIG_A/B/C). -/
structure MigSlot where
  valid : Bool := false
  kind : Nat := 0
  target : Bool := false
  region : Nat := 0
  oldTree : Bool := false
  oldDomain : Nat := 0
  base : Nat := 0
  size : Nat := 0
  /-- leaves converted from the start of the range, in this pass and in the passes before it -/
  doneLeaves : Nat := 0
  passBase : Nat := 0
  total : Nat := 0
  durable : Bool := false
  /-- leaves in progress, and those past their switch beat -/
  active : List Nat := []
  switched : List Nat := []
  /-- firings held to the switch beat: page, new glaze home, entry taken, saggar lines taken with their GEN -/
  held : List (Nat × Nat × MapEntry × List (Nat × Nat)) := []
  /-- pages on the saggar route (R505) -/
  sagRoute : List Nat := []
  /-- id of the command that waits for it -/
  cmd : Option Nat := none
  ranks : List Nat := []
  /-- the regions before the command, which a reset restores while the record is not durable (R503, R509) -/
  before : Tab Region := []
  deriving DecidableEq, Repr

/-- Rotation and swaps of one rank's map region (XMAP), and of its tree area (INTG_TROT). -/
structure Rot where
  start : Nat := 0
  gap : Nat := 0
  moves : Nat := 0
  writes : Nat := 0
  copying : Bool := false
  tstart : Nat := 0
  tgap : Nat := 0
  tmoves : Nat := 0
  twrites : Nat := 0
  tcopying : Bool := false
  /-- (FROM, TO) in order of use, at most 8 -/
  swaps : List (Nat × Nat) := []
  swapping : Option (Nat × Nat) := none
  /-- word lines of the running swap that are copied (R140) -/
  swapWls : Nat := 0
  deriving DecidableEq, Repr

/-- XLAT, XMAP, the map cache and the map on media. -/
structure MapSt where
  capGib : Nat := 0
  mapNr : Nat := 0
  mapN : Nat := 0
  mapBlks : Nat := 0
  treeN : Nat := 0
  treeBlks : Nat := 0
  dirtyMax : Nat := 0
  pop : List Nat := []
  mapRanks : List Nat := []
  /-- default {} -/
  regions : Tab Region := []
  mig : Tab MigSlot := []
  rot : Tab Rot := []
  /-- default none: not cached -/
  cache : Tab (Option CacheSeg) := []
  lruClock : Nat := 0
  /-- segments whose fill is in flight -/
  fills : List Nat := []
  /-- segments whose lines have returned and whose fill waits for a way (R148) -/
  wayWaits : List Nat := []
  /-- cleaning runs as class-3 work (R150) -/
  cleaning : Bool := false
  /-- replica rewrites that wait, for a gap move or for a write-back of the line in flight: leaf line × 2 + replica -/
  rewrites : List Nat := []
  /-- leaf line × 2 + replica; default none: blank -/
  leaves : Tab (Option LeafLine) := []
  /-- write-backs in flight: (leaf line, replicas still to verify, image) -/
  writeBacks : List (Nat × List Nat × LeafLine) := []
  /-- slot × 64 + line; default blank -/
  media : Tab Img := []
  /-- stripe × 64 + group of the glaze groups whose cones are programmed: auxiliary cell c to level c mod 8 (R63) -/
  cones : List Nat := []
  /-- column groups (slot × 4 + u) whose parity is out of step (R223) -/
  parityStale : List Nat := []
  /-- (CAP_GIB, map rank set) recorded for the next reset (R342) -/
  pendingCap : Option (Nat × List Nat) := none
  deriving DecidableEq, Repr

/-! ### Saggar and host requests -/

/-- A saggar directory entry with its line (R191). -/
structure SagLine where
  page : Nat := 0
  line : Nat := 0
  mask : BitVec 64 := 0
  data : LineData := 0
  domain : Nat := 0
  rank : Nat := 63
  pooled : Bool := true
  norank : Bool := true
  fill : Bool := false
  filled : Bool := false
  /-- the fill ended in the transient outcome and is to be issued again (R206) -/
  retry : Bool := false
  poison : Bool := false
  gen : Nat := 0
  drain : Bool := false
  internal : Bool := false
  /-- admission beat of the latest write; the directory holds its low 16 bits -/
  last : Nat := 0
  /-- GEN that a drain or firing holding the line recorded (R200) -/
  held : Option Nat := none
  /-- SRAM lines after the base of copy A and of copy B at which the line lies (R39, R191) -/
  idx : Nat := 0
  deriving DecidableEq, Repr

/-- A drain in progress (R211). -/
structure Drain where
  page : Nat := 0
  group : Nat := 0
  /-- line, GEN at the start, stamp assigned, image programmed -/
  lines : List (Nat × Nat × Nat × LineRec) := []
  slot : Nat := 0
  newSlot : Bool := false
  fromEntry : MapEntry := {}
  deriving DecidableEq, Repr

structure SagSt where
  /-- page × 64 + line; default none -/
  lines : Tab (Option SagLine) := []
  dirtyLimit : Nat := 0
  poolCut : Nat := 0
  episodes : Nat := 0
  withheldBeats : Nat := 0
  withheld : Bool := false
  drains : List Drain := []
  /-- rank ↦ start beat of the hold period, or the beat it ended with discards allowed (R215) -/
  holdStart : Tab (Option Nat) := []
  holdOver : Tab Bool := []
  discarded : Tab Nat := []
  lastDiscardEvent : Tab Nat := []
  /-- map entries' slots reserved for pages whose first drain has not verified (R212) -/
  slotOf : Tab Nat := []
  /-- poison markers that wait for the internal reserve: page, line, domain (R193, R307) -/
  markers : List (Nat × Nat × Nat) := []
  deriving DecidableEq, Repr

inductive ReqKind
  | read
  | write (be : BitVec 64) (data : LineData) (poison : Bool)
  deriving DecidableEq, Repr

/-- A host request received and not admitted (R162). -/
structure HostReq where
  hpa : BitVec 64
  tag : Nat
  arrival : Nat
  kind : ReqKind
  deriving DecidableEq, Repr

/-- How far a read has come (R168 to R178). -/
inductive RdStage
  | done (data : LineData) (poison : Bool)
  /-- what the saggar line held for the read at its admission: written bytes, data, POISON (R166, R168) -/
  | waitFill (mask : BitVec 64) (data : LineData) (bad : Bool)
  | miss (seg : Nat)
  | sense (slot : Nat) (bisque : Bool)
  | cones (bs : Nat)
  /-- with the outcome of the first attempt; none for a direct erasure read -/
  | escalate (slot : Nat) (bisque : Bool) (first : Option Sensed)
  deriving DecidableEq, Repr

/-- An admitted read (R158). -/
structure Rd where
  tag : Nat := 0
  page : Nat := 0
  line : Nat := 0
  dpa : Nat := 0
  tree : Bool := false
  arrival : Nat := 0
  beat : Nat := 0
  stage : RdStage := .done 0 true
  path : BitVec 8 := 0
  rank : Nat := 255
  sample : Option Nat := none
  /-- what it took at its lookup: the map entry, the line image that the entry led to, and the stamp that tree mode expects
  of the line (R28, R166, R176) -/
  taken : MapEntry := {}
  img : Img := .blank
  expect : Option Nat := none
  /-- the page's stamp slot could not be had (R381) -/
  stale : Bool := false
  /-- link positions whose escalation return failed (R180) -/
  lost : List Nat := []
  deriving DecidableEq, Repr

/-- A response of CXL.mem (R399). -/
inductive Resp
  | memData (tag : Nat) (data : LineData) (poison : Bool)
  | cmp (tag : Nat)
  deriving DecidableEq, Repr

/-- A withheld credit: a read's or a write's, and what returns it (R165, R198, R557). -/
inductive Hold
  /-- until the read has completed, at most 64 a zone and beat (R557) -/
  | readDone (tag : Nat) (zone : Nat) (completed : Bool)
  | readEntry (tag : Nat)
  /-- until the host link is active and no read waits too long (R165) -/
  | readLink
  | writeRoom
  | writeRelease (key : Nat)
  | writeEntry (key : Nat)
  deriving DecidableEq, Repr

structure HostMemSt where
  queue : List HostReq := []
  reads : List Rd := []
  /-- responses waiting in egress, and those sent since the last boundary -/
  egress : List Resp := []
  sent : List Resp := []
  rdCredits : Nat := 0
  wrCredits : Nat := 0
  holds : List Hold := []
  creditsOn : Bool := false
  samplePeriod : Nat := 0
  sampleTypes : BitVec 8 := 0
  sampleQueue : Nat := 0
  sampleCount : Nat := 0
  sampleNext : Option (Nat × Nat × Nat) := none
  deriving DecidableEq, Repr

/-! ### Block stripes and placement -/

/-- Block-stripe states (R225). -/
inductive BsState | blank | dirty | blanking | open | full | bisque | victim | released | system | retired
  deriving DecidableEq, Repr

/-- A block-stripe record with its lag byte, its bisque-use byte and its line-write count (R224, R264, R317, R319). -/
structure BsRec where
  fired : Nat := 0
  valid : Nat := 0
  cycles : Nat := 0
  wls : Nat := 0
  state : BsState := .dirty
  bisque : Bool := false
  degraded : Bool := false
  unswept : Bool := false
  lag : Nat := 0
  buses : Nat := 0
  lineWrites : Nat := 0
  /-- changed since its last media write (R226) -/
  changed : Bool := false
  /-- excluded from victim choice until VALID is recounted (R314) -/
  noVictim : Bool := false
  deriving DecidableEq, Repr

/-- A guard set of an open stripe (R247): the group and the word lines added. -/
structure GuardSet where
  group : Nat := 0
  added : List Nat := []
  /-- word lines rebuilt by the verify pass, whose pages are still to be mapped elsewhere -/
  rebuilt : List Nat := []
  /-- both copies are bad (R314), or the parity is not there (R259) -/
  lost : Bool := false
  deriving DecidableEq, Repr

/-- An open glaze stripe (R242). -/
structure OpenSt where
  bs : Nat := 0
  g0 : GuardSet := {}
  g1 : GuardSet := {}
  /-- groups whose verify pass has completed -/
  passed : List Nat := []
  closing : Bool := false
  /-- LAG measured at startup, which stands instead of the open span (R284) -/
  keptLag : Option Nat := none
  deriving DecidableEq, Repr

/-- A firing or a reclaim move in progress (R239, R254): pages with the entry taken and the lines assembled. -/
structure FirePage where
  page : Nat := 0
  slot : Nat := 0
  taken : MapEntry := {}
  gens : List (Nat × Nat) := []
  stamp : Nat := 0
  domain : Nat := 0
  lines : List LineRec := []
  isCopy : Bool := false
  void : Bool := false
  conversion : Option Nat := none
  deriving DecidableEq, Repr

structure Firing where
  bs : Nat := 0
  wl : Nat := 0
  purpose : Nat := 0
  pages : List FirePage := []
  deriving DecidableEq, Repr

/-- Placement state of a rank. -/
structure RankPl where
  budget : Nat := 0
  alloc : Option Nat := none
  opens : List (Nat × OpenSt) := []
  fireQueue : List Nat := []
  /-- beat since which the queue has held fewer than three pages -/
  shortSince : Option Nat := none
  coldPassed : Nat := 0
  /-- FIRED, stripe and word line that the walk looked at last (R237) -/
  walkAt : Option (Nat × Nat × Nat) := none
  firings : List Firing := []
  victim : Option Nat := none
  reclaiming : Bool := false
  /-- pages waiting for the refresh stripe -/
  refreshQueue : List Nat := []
  /-- stripes that a failed program closed: they are evacuated into the refresh stripe (R242, R250) -/
  evacs : List Nat := []
  meanCycles : Nat := 0
  reclaimed : Nat := 0
  blankingBs : Option Nat := none
  deriving DecidableEq, Repr

/-- A secure discard in progress (R260): the page, the step reached and its command. -/
structure Secure where
  page : Nat := 0
  step : Nat := 1
  admittedBefore : Nat := 0
  cmd : Nat := 0
  deriving DecidableEq, Repr

structure PlaceSt where
  /-- default {} (R224's reset column) -/
  stripes : Tab BsRec := []
  /-- the media copy of the block-stripe table (R226), default {} -/
  copy : Tab BsRec := []
  /-- default {} -/
  ranks : Tab RankPl := []
  heatEpoch : Nat := 0
  secure : List Secure := []
  dropsDue : List Nat := []
  relocating : List Nat := []
  restamps : List Nat := []
  refreshes : List Nat := []
  deriving DecidableEq, Repr

/-! ### Drift -/

structure DieGroup where
  v : List Int := List.replicate 16 (256 * 2 ^ 32)
  nut : List Int := []
  intc : List Int := List.replicate 7 0
  acc : List Int := List.replicate 7 0
  cnt : List Nat := List.replicate 7 0
  ksum : List Nat := List.replicate 7 0
  atLimit : List Nat := List.replicate 7 0
  tc : List Nat := List.replicate 39 0
  deriving DecidableEq, Repr

structure DieTune where
  tgt : List Int := []
  step : Nat := 0
  wls : Nat := 0
  pulseSum : Nat := 0
  captures : Nat := 0
  /-- DL per capture, newest first, at most 256 -/
  dl : List (List Nat) := []
  deriving DecidableEq, Repr

/-- A cone capture in flight (R276): stripe, group, and whether it feeds the program-target loop. -/
structure Capture where
  rank : Nat := 0
  bs : Nat := 0
  group : Nat := 0
  target : Bool := false
  /-- links whose masks have been used -/
  seen : List Nat := []
  deriving DecidableEq, Repr

structure DriftSt where
  sweepActive : Bool := false
  swept : Nat := 0
  total : Nat := 0
  captures : Nat := 0
  coefChanges : Nat := 0
  targetChanges : Nat := 0
  groups : Tab DieGroup := []
  dies : Tab DieTune := []
  inFlight : List Capture := []
  /-- per rank: last (bs, group) captured -/
  walk : Tab (Nat × Nat) := []
  sweepFront : Tab (List Nat) := []
  /-- reference-set reloads: link, code, pairs already sent (R274) -/
  reloads : List (Nat × Nat × Nat) := []
  /-- rungs, coefficients and targets as last written to media (R270) -/
  savedGroups : Tab DieGroup := []
  savedDies : Tab DieTune := []
  /-- calendar second of that write (R269) -/
  savedAt : Nat := 0
  lastUpdate : Nat := 0
  deriving DecidableEq, Repr

/-! ### Codes, scrub, poison -/

structure RankEcc where
  level : Nat := 0
  ovfCount : Nat := 0
  corrected : Nat := 0
  uncorrectable : Nat := 0
  escalations : Nat := 0
  deriving DecidableEq, Repr

/-- A scrub pass (R301, R302). -/
structure Pass where
  running : Bool := false
  total : Nat := 0
  visited : Nat := 0
  step : Nat := 0
  start : Nat := 0
  /-- the bisque pass of R304 -/
  dirty : Bool := false
  /-- one more than the slot last visited -/
  next : Nat := 0
  deriving DecidableEq, Repr

inductive PoisonSource | internal | external | injected
  deriving DecidableEq, Repr

structure PoisonRec where
  dpa : Nat := 0
  lines : Nat := 1
  source : PoisonSource := .internal
  deriving DecidableEq, Repr

structure SramCh where
  ue : Nat := 0
  ce : Nat := 0
  lastRow : Nat := 0
  rowsUsed : Nat := 0
  /-- rows due for repair -/
  due : List Nat := []
  repairs : List Nat := []
  /-- (row, beats of corrected words) -/
  corrRows : List (Nat × Nat) := []
  remapped : List Nat := []
  failed : Bool := false
  copying : Bool := false
  deriving DecidableEq, Repr

structure EccSt where
  ovf : BitVec 64 := 0
  overruns : Nat := 0
  ranks : Tab RankEcc := []
  /-- rank × 2, plus 1 for the bisque pass; default {} -/
  passes : Tab Pass := []
  /-- ranks that owe the bisque pass of R304 -/
  dirtyDue : List Nat := []
  poison : List PoisonRec := []
  poisonOvf : Bool := false
  poisonOvfTime : Nat := 0
  sram : Tab SramCh := []
  deriving DecidableEq, Repr

/-! ### Wear, cores -/

structure LinkWear where
  subst : Bool := false
  substDie : Nat := 0
  substAt : Nat := 0
  rebuilt : Bool := false
  rebuilding : Bool := false
  rebuiltAt : Nat := 0
  /-- rebuilt stripes of the link target and of the die target -/
  linkBits : List Nat := []
  dieBits : List Nat := []
  /-- stripes that need no rebuild (R326, R111) -/
  allBits : Bool := false
  dieActive : Bool := false
  /-- grown retired blocks (die, block) -/
  grown : List (Nat × Nat) := []
  /-- erased die positions without substitute (R72) -/
  erased : List Nat := []
  /-- stripes changed while the link was out (R111) -/
  changedOut : List Nat := []
  deriving DecidableEq, Repr

structure WearSt where
  spareBs0 : Nat := 0
  /-- spare kinds used up: 0 stripes, 1 cores, 2 SRAM channels, 3 SRAM rows, 4 mirror flash, 5 UCIe lanes, 6 sensors,
  7 dies -/
  exhausted : List Nat := []
  failovers : Nat := 0
  failed : BitVec 18 := 0
  sparesLeft : Nat := 2
  /-- role (R34, by its boot core) held by each live core -/
  roles : List (Nat × Nat) := (List.range 16).map fun c => (c, c)
  /-- failed roles waiting for the named core (R335) -/
  failing : List (Nat × Nat) := []
  rowsUsed : Nat := 0
  chUsed : BitVec 8 := 0
  links : Tab LinkWear := []
  deriving DecidableEq, Repr

/-! ### Integrity -/

structure DomainKey where
  generation : Nat := 0
  source : Nat := 0
  staged : Option Nat := none
  stagedSource : Nat := 0
  present : Bool := false
  keyVer : Nat := 0
  deriving DecidableEq, Repr

/-- A cached stamp slot (R374, R375). -/
structure StampSlot where
  /-- the page whose slot it is -/
  page : Nat := 0
  stamps : List Nat := []
  dirty : Bool := false
  lru : Nat := 0
  /-- the way of its set that holds it (R375) -/
  way : Nat := 0
  deriving DecidableEq, Repr

inductive EraseScope | all (sanitize : Bool) | domain (d : Nat)
  deriving DecidableEq, Repr

structure IntegSt where
  sysGen : Nat := 0
  rootState : Nat := 0
  ideActive : BitVec 2 := 0
  ideProgrammed : BitVec 2 := 0
  ideStop : Bool := false
  ideEnded : Bool := false
  erasing : Option EraseScope := none
  eraseMailbox : Bool := false
  eraseCmd : Option Nat := none
  erasesQueued : List (Nat × Option Nat) := []
  keyWindow : Bool := false
  windows : Nat := 0
  keyDraws : Nat := 0
  tagFail : Nat := 0
  freshFail : Nat := 0
  stampCeil : Nat := 0
  ceilPending : Bool := false
  domains : Tab DomainKey := []
  /-- level-A node stamps N_a, pinned as level B (default 0) -/
  levelB : Tab Nat := []
  /-- leaf stamps S_L held or written (default 0) -/
  leafStamps : Tab Nat := []
  /-- version of C_b: advances with each recomputation -/
  levelC : Tab Nat := []
  dirtyB : List Nat := []
  heldNodes : List Nat := []
  nodesDue : List Nat := []
  rootVer : Nat := 0
  slots : Tab (Option StampSlot) := []
  /-- stamp slots on media, by home (default none) -/
  mediaSlots : Tab (Option (List Nat)) := []
  /-- PAGE_STAMP under which the lines of a slot on media are tagged, by home (R374) -/
  slotTags : Tab Nat := []
  deriving DecidableEq, Repr

/-! ### Media links -/

/-- Link states (R106). -/
inductive LinkState | empty | training | inventory | refused | active | rebuilding | draining | removable | lost | retrain
  deriving DecidableEq, Repr

/-- The descriptor fields the device uses of an accepted package (R79). -/
structure Pkg where
  serial : Nat := 0
  maker : Nat := 0
  part : Nat := 0
  dieGood : BitVec 17 := 0x1FFFF
  bblCount : Nat := 0
  bbl : List (Nat × Nat) := []
  /-- array-phase times T_SENSE, T_READY, T_PROG, T_VERIFY, T_BLANK and T_DESTROY, fabric cycles -/
  times : List Nat := []
  disturbReach : Nat := 0
  maxPulsing : Nat := 16
  glazePulsesMax : Nat := 96
  bisquePulsesMax : Nat := 4
  blankPulses : Nat := 3
  blankPulsesMax : Nat := 5
  stepStart : Nat := 0
  stepSize : Nat := 1
  codePerDecade : Nat := 160
  refBisque : Nat := 100
  refDefault : List Nat := []
  nu : List Nat := []
  accel : Nat := 16
  tempCrit : Nat := 85
  deriving DecidableEq, Repr

/-- A downstream frame (R84, R86): its header and the 88-byte bodies of line slots 0 and 1. -/
structure DownFrame where
  header : BitVec 96 := 0
  body0 : List Byte := []
  body1 : List Byte := []
  deriving DecidableEq, Repr

/-- The fields of an upstream frame, with the outcome of its three checks (R85, R93). -/
structure UpFrame where
  hdrOk : Bool
  btag : Nat
  telValue : BitVec 32 := 0
  telIndex : Nat := 0
  alert : Bool := false
  done : BitVec 22 := 0
  rxerr : BitVec 3 := 0
  kind0 : Nat := 0
  kind1 : Nat := 0
  slot0Ok : Bool := true
  slot1Ok : Bool := true
  body1 : List Byte := []
  deriving DecidableEq, Repr

/-- What a sense on media is for, in the order in which READ fields go to senses (R172). -/
inductive SenseKind | leaf | node | erasure | data
  deriving DecidableEq, Repr

/-- A sense that a host read or a fill needs of one link (R145, R169, R172, R177, R205). -/
structure Sense where
  kind : SenseKind := .data
  slot : Nat := 0
  /-- LINE of the READ field (R87) -/
  line : Nat := 0
  /-- all lines of the slot are wanted (R145) -/
  whole : Bool := false
  /-- it travels as a SENSE entry only (R145) -/
  batchOnly : Bool := false
  /-- the first frame that it may enter -/
  due : Nat := 0
  /-- admission beat of the read, its age (R173) -/
  age : Nat := 0
  /-- tag of the read it was made for; none for a fill -/
  tag : Option Nat := none
  deriving DecidableEq, Repr

/-- A work entry of a batch with the return offset given to it (R89, R94, R95). -/
inductive Entry
  | unit (u : WorkUnit) (ret : Nat)
  | sense (x : Sense) (ret : Nat)
  /-- REFLOAD_A (part false) or REFLOAD_B of a plane's set (R274) -/
  | refload (part : Bool) (die plane set : Nat)
  /-- EQ: a package transmitter tap takes a value (R102) -/
  | eq (tap value : Nat)
  /-- REPORT of the completion masks, asked for by the device itself (R92) -/
  | masks (ret : Nat)
  /-- the place of an entry that the package discarded (R89) -/
  | gone
  deriving DecidableEq, Repr

structure LinkRec where
  state : LinkState := .empty
  cause : Nat := 0
  roundTrip : Nat := 0
  hdrFail : Nat := 0
  slotFail : Nat := 0
  replays : Nat := 0
  retrains : Nat := 0
  ffe : Nat := 0
  eyeV : Nat := 0
  eyeH : Nat := 0
  /-- EYE_H of the latest evaluation (R102) -/
  eyePrev : Option Nat := none
  /-- package transmitter taps as last set; the tap that the latest evaluation changed with its old value; the package's eye
  (telemetry word 18) and the device taps of then; EQ entries still to send (R102) -/
  pkgTaps : Tab Nat := []
  eqTap : Option (Nat × Nat) := none
  telEye : Option Nat := none
  ffePrev : Option Nat := none
  eqDue : List (Nat × Nat) := []
  hotDie : Nat := 0
  maxTemp : Int := 0
  tel : Tab (BitVec 32) := []
  /-- highest die temperatures received in the present sampling window (R552), default none -/
  peak : Tab (Option Int) := []
  /-- 0 Detect, 1 Equalise, 2 Align, 3 Check, 4 Inventory -/
  step : Nat := 0
  /-- beat at which the training step began (R101) -/
  stepAt : Nat := 0
  attempts : Nat := 0
  inService : Bool := false
  wasRebuilding : Bool := false
  consecHdr : Nat := 0
  consecTag : Nat := 0
  /-- beats of header and slot check failures, newest first, at most 17 (R103) -/
  fails : List Nat := []
  nak : Bool := false
  /-- the READ return that failed and waits for its replay (R96, R97) -/
  awaiting : Option Sense := none
  /-- a package fault waits for its details (R105) -/
  alert : Bool := false
  signal : Bool := false
  lostAt : Nat := 0
  /-- beat at which Check last ended (R111) -/
  trainedAt : Nat := 0
  lostSignal : Bool := false
  pkg : Option Pkg := none
  recordedSerial : Option Nat := none
  /-- work entries executed in the previous frame, executing in this one, sent in this one, and planned -/
  executed : List Entry := []
  executing : List Entry := []
  batched : List Entry := []
  planned : List Entry := []
  /-- data loads sent in the previous frame, sent in this one, and planned (R88) -/
  loadsBefore : List WorkUnit := []
  loadsSent : List WorkUnit := []
  loadsPlanned : List WorkUnit := []
  /-- entries of `executing` and of `executed` that the package refused for a map fetch (R91, R171) -/
  pressed : List Nat := []
  pressedBefore : List Nat := []
  /-- entries whose completion masks were lost, with the frame they executed in, and whether a REPORT asks for them (R92) -/
  unsure : List (Nat × List Entry) := []
  asked : Bool := false
  frame : DownFrame := {}
  /-- the frame that carried `executing`, or `executed`, was answered by no good header, so RXERR did not tell whether the
  batch arrived (R92, R98) -/
  blind : Bool := false
  blindBefore : Bool := false
  /-- beat of the frame last started (R17, R18) -/
  frameAt : Option Nat := none
  /-- senses that wait for a READ field or a SENSE entry (R172, R173) -/
  waiting : List Sense := []
  /-- the sense in the READ field of this frame and of the one before (R98) -/
  readNow : Option Sense := none
  readBefore : Option Sense := none
  /-- returns due: frame and sense in upstream slot 0; frame and entry in upstream slot 1 (R94, R95) -/
  due0 : List (Nat × Sense) := []
  due1 : List (Nat × Entry) := []
  deriving DecidableEq, Repr

/-- A program or blanking sequence on a plane (R59, R60, R62). -/
structure Seq where
  block : Nat := 0
  wl : Nat := 0
  line : Nat := 0
  pulses : Nat := 0
  failedOnce : Bool := false
  /-- the buffer's images by which the first pulse set the inhibit latches (R54, R89) -/
  latches : List (Nat × BitVec 704) := []
  deriving DecidableEq, Repr

/-- A report to a core (R33, R61, R94): the link, whether the unit's entry completed, whether the link was lost, and what
a sense or a REPORT returned. -/
structure CoreReport where
  core : Nat
  link : Nat
  passed : Bool
  lost : Bool
  data : List Byte := []
  deriving DecidableEq, Repr

structure LinkSt where
  links : Tab LinkRec := []
  /-- (link × 17 + die) × 4 + plane -/
  seqs : Tab Seq := []
  /-- the same for blanking sequences (R62), and program buffers by that key × 16 + position (R88) -/
  blanks : Tab Seq := []
  buffers : Tab (BitVec 704) := []
  /-- cone registers by that plane key: UP and DOWN of the latest capture (R275) -/
  coneRegs : Tab (BitVec 64 × BitVec 64) := []
  /-- link × 17 + die: first frame in which the die may take a pulse again (R556) -/
  restUntil : Tab Nat := []
  /-- latest transaction of each management bus: target address, offset, bytes, attempts (R104, R105) -/
  buses : Tab (Option (Nat × Nat × Nat × Nat)) := []
  /-- work units queued per rank with the beat of submission (R33) -/
  work : List (Nat × WorkUnit) := []
  /-- completion queues of the cores -/
  complQ : List CoreReport := []
  /-- links in removal, and links going online, with the ids of the commands that wait -/
  removing : List (Nat × Nat) := []
  onlining : List (Nat × Nat) := []
  chartGen : Nat := 0
  deriving DecidableEq, Repr

/-! ### Host link and mailbox -/

inductive HlState | down | training | active | retraining | lowPower
  deriving DecidableEq, Repr

structure ModRec where
  rxUsed : Nat := 0
  txUsed : Nat := 0
  lastRx : Nat := 0
  lastTx : Nat := 0
  failed : Bool := false
  deriving DecidableEq, Repr

structure Hdm where
  committed : Bool := false
  notCommitted : Bool := false
  locked : Bool := false
  hpaBase : Nat := 0
  size : Nat := 0
  ways : Nat := 1
  gran : Nat := 256
  pos : Nat := 0
  skip : Nat := 0
  dpaBase : Nat := 0
  deriving DecidableEq, Repr

structure Msix where
  masked : Bool := true
  pending : Bool := false
  addr : Reg := 0
  data : Nat := 0
  sent : Nat := 0
  deriving DecidableEq, Repr

/-- A mailbox reply: opcode, return code (0 success, 1 background, 2 invalid input, 3 unsupported, 6 busy), payload. -/
structure MboxReply where
  opcode : Nat := 0
  code : Nat := 0
  payload : List Byte := []
  deriving DecidableEq, Repr

/-- A 32-byte event record (R590). -/
structure EvRec where
  code : Nat := 0
  cls : Nat := 0
  gap : Bool := false
  source : Nat := 0
  suppressed : Nat := 0
  time : Reg := 0
  p0 : Nat := 0
  p1 : Nat := 0
  p2 : Nat := 0
  p3 : Nat := 0
  deriving DecidableEq, Repr

inductive CxlKind | media | module | vendor
  deriving DecidableEq, Repr

structure CxlRec where
  kind : CxlKind := .vendor
  event : EvRec := {}
  time : Nat := 0
  deriving DecidableEq, Repr

structure CxlLog where
  recs : List CxlRec := []
  overflow : Bool := false
  overflowCount : Nat := 0
  overflowTime : Nat := 0
  deriving DecidableEq, Repr

/-- The request that an error log names: its BAR, offset and size, and whether it reads (R415). -/
structure ReqHead where
  bar : Nat := 0
  off : Nat := 0
  size : Nat := 0
  isRead : Bool := false
  deriving DecidableEq, Repr

structure HostLinkSt where
  state : HlState := .down
  modUp : BitVec 4 := 0
  retrains : Nat := 0
  linkDowns : Nat := 0
  replays : Nat := 0
  mods : Tab ModRec := []
  leftActive : Option Nat := none
  memEnable : Bool := false
  hdm : Tab Hdm := []
  hdmPending : List (Nat × Hdm) := []
  msix : Tab Msix := []
  aerCorrected : BitVec 16 := 0
  aerUncorrectable : BitVec 32 := 0
  advisory : Nat := 0
  rasCorrectable : Nat := 0
  rasUncorrectable : BitVec 32 := 0
  /-- the TLP header that AER logged last (R415) -/
  aerHead : Option ReqHead := none
  /-- the flit header that the CXL RAS capability logged last: read type, tag and opcode (R415) -/
  rasHead : Option (Bool × Nat × Nat) := none
  completerAbort : Bool := false
  poisonedTlp : Bool := false
  /-- what the latest read returned, low byte first -/
  rdData : LineData := 0
  mboxReady : Bool := false
  /-- Subsystem Vendor ID and Subsystem ID of configuration space (R400) -/
  subsys : Nat := 0
  doorbell : Bool := false
  mboxBusy : Option Nat := none
  reply : MboxReply := {}
  logs : Tab CxlLog := []
  evPolicy : List Nat := [1, 1, 1, 1]
  alertLife : Nat := 0
  alertTemp : Nat := 0
  alertCorr : Nat := 0
  alerted : BitVec 3 := 0
  scanRange : Option (Nat × Nat) := none
  scanFound : List Nat := []
  scanDone : Bool := false
  scanPages : List Nat := []
  gpfWaiting : Bool := false
  gpfDone : Bool := false
  gpf1Done : Bool := false
  doeReply : List Byte := []
  spdm : Option (Nat × BitVec 384) := none
  tapOut : Reg := 0
  /-- pin values that EXTEST drives -/
  extest : Option (BitVec 64) := none
  deriving DecidableEq, Repr

/-! ### Pipes and commands -/

structure Completion where
  pipe : Nat := 0
  /-- command role that took the command -/
  role : Nat := 0
  status : Nat := 0
  detail : Nat := 0
  opcode : Nat := 0
  desc : Nat := 0
  tag : Nat := 0
  token : Reg := 0
  resA : Reg := 0
  resB : Reg := 0
  /-- refused once for a full bell, so held (R424) -/
  held : Bool := false
  aborted : Bool := false
  deriving DecidableEq, Repr

structure Pipe where
  mouth : Option (Nat × Nat) := none
  bell : Option (Nat × Nat × Nat × Nat × Nat) := none
  rejCount : Nat := 0
  rejCause : Nat := 0
  rejected : Bool := false
  en : Bool := false
  seq : Nat := 0
  tokens : List (Reg × Reg × Reg) := []
  key : Nat := 0
  valid : Bool := false
  vector : Nat := 16
  group : Nat := 0
  pages : Nat := 0
  base : Nat := 0
  deriving DecidableEq, Repr

inductive CmdPhase | taken | queued | running
  deriving DecidableEq, Repr

/-- A command taken and not completed (R441). -/
structure Cmd where
  id : Nat := 0
  pipe : Nat := 0
  role : Nat := 0
  desc : Nat := 0
  tag : Nat := 0
  d : BitVec 1024 := 0
  phase : CmdPhase := .taken
  takenAt : Nat := 0
  /-- pages still to act on, and counts kept for the results -/
  todo : List Nat := []
  /-- the whole range, first page and page count (R442) -/
  range : Nat × Nat := (0, 0)
  donePages : Nat := 0
  found : List Nat := []
  waiting : List Nat := []
  superseded : Bool := false
  effectDone : Bool := false
  deriving DecidableEq, Repr

/-- What the single pending commit does at its beat (R451). -/
inductive Change
  | config
  | region (op n other policy : Nat) (tree : Bool) (domain base size split : Nat)
  | budget (ranks : BitVec 64) (floor : Nat)
  | policy (a b : Reg)
  deriving DecidableEq, Repr

structure Commit where
  beat : Nat := 0
  change : Change := .config
  cmd : Option Nat := none
  /-- a consort member's view: applied only with GO (R624) -/
  needsGo : Bool := false
  go : Bool := false
  deriving DecidableEq, Repr

structure PipeSt where
  /-- default: the reset column (pipe 0 bound) -/
  pipes : Tab Pipe := []
  lock : Bool := false
  badPipe : Nat := 0
  cmds : List Cmd := []
  nextId : Nat := 0
  comps : List Completion := []
  epoch : Nat := 0
  commit : Option Commit := none
  /-- SRAM bytes of the arena and telemetry partition; default 0 -/
  sram : Tab Byte := []
  /-- bytes whose SRAM word is uncorrectable (R314) -/
  badBytes : List Nat := []
  sema : Tab (Option Byte) := []
  busErrors : Nat := 0
  deriving DecidableEq, Repr

/-! ### Clocks, power, thermal, keep store -/

structure ClkSt where
  beat : Nat := 0
  inSecond : Nat := 0
  edge : Bool := false
  switchCount : Nat := 0
  /-- reference clocks the board supplies within tolerance, whatever the device has locked (R19, R650) -/
  refPresent : BitVec 4 := 0xF
  refLock : BitVec 4 := 0
  refFault : BitVec 4 := 0
  fabricRef : Nat := 0
  phyRef : List Nat := [0, 1, 2, 3]
  latches : List (Nat × Nat × Nat) := []
  seconds : Nat := 0
  subsec : Nat := 0
  trim : Int := 0
  trimTicks : Nat := 0
  holdTicks : Nat := 0
  cont : Bool := false
  xtalFault : Bool := false
  subst : Bool := false
  fabricAcc : Nat := 0
  losses : Nat := 0
  offset : Int := 0
  tvalid : Bool := false
  root : Nat := 0
  rootGood : Bool := false
  wakeLatch : Bool := false
  savedBeat : Nat := 0
  savedTicks : Nat := 0
  adjust : Int := 0
  lastAdjust : Nat := 0
  deriving DecidableEq, Repr

inductive PowerState | run | idle | sleep | deepSleep | off
  deriving DecidableEq, Repr

/-- A last breath in progress (R535 to R540). -/
structure Breath where
  trigger : Nat := 0
  zones : BitVec 16 := 0
  start : Nat := 0
  lines : List SagLine := []
  oneRank : Bool := false
  pwrfail : Bool := false
  merged : List Nat := []
  deriving DecidableEq, Repr

/-- What a sealed breath saved, for replay (R543). -/
structure BreathImage where
  lines : List SagLine := []
  cache : Tab (Option CacheSeg) := []
  slots : Tab (Option StampSlot) := []
  heldNodes : List Nat := []
  dirtyB : List Nat := []
  stripes : Tab BsRec := []
  ranks : Tab RankPl := []
  rot : Tab Rot := []
  poison : List PoisonRec := []
  poisonOvf : Bool := false
  mig : Tab MigSlot := []
  groups : Tab DieGroup := []
  dies : Tab DieTune := []
  wearLinks : Tab LinkWear := []
  oneRank : Bool := false
  /-- trigger code and calendar second in the seal (R540) -/
  cause : Nat := 0
  savedAt : Nat := 0
  deriving DecidableEq, Repr

structure PwrSt where
  supplies : Bool := true
  inReset : Bool := true
  pwrfail : Bool := false
  alertUntil : Option Nat := none
  tripLevel5 : Bool := false
  tripOnDie : Bool := false
  strapPos : Nat := 0
  strapHalt : Bool := false
  halted : Bool := false
  brownOut : BitVec 3 := 0
  /-- startup step being run, 1 to 11; 0 before it, 12 after it -/
  step : Nat := 0
  limited : Bool := false
  stopped : Bool := false
  firstStart : Bool := false
  /-- step 7 of this start found continuity lost (R637) -/
  contLost : Bool := false
  cleanStart : Bool := false
  consumedWritten : Bool := false
  disabled : Bool := false
  state : PowerState := .run
  wakes : Nat := 0
  wakeSrc : Nat := 0
  quietSince : Nat := 0
  idleSince : Nat := 0
  sleepSince : Nat := 0
  asked : Option Nat := none
  askedCmd : Option Nat := none
  entering : Bool := false
  bankFail : BitVec 8 := 0
  aonDip : Bool := false
  bseq : Nat := 0
  nextBseq : Nat := 1
  cause : Nat := 0
  standing : Bool := false
  beats : Nat := 0
  breath : Option Breath := none
  /-- highest sealed BSEQ on media with its image, highest BSEQ of any other record, CONSUMED -/
  sealed : Nat := 0
  image : BreathImage := {}
  others : Nat := 0
  consumed : Nat := 0
  cutLines : List SagLine := []
  /-- breath-area and table stripes replaced at a clean start: old, new (R548) -/
  breathRepl : List (Nat × Nat) := []
  mediaIdle : Bool := false
  tAv : Nat := 0
  vStart : Nat := 0
  measured : Bool := false
  vLast : Nat := 0
  vTaken : Option Nat := none
  batteryLow : Bool := false
  lastStart : Nat := 0
  dirtyCount : Nat := 0
  report : List Byte := []
  deriving DecidableEq, Repr

structure Zone where
  level : Nat := 0
  next : Nat := 0
  floor : Nat := 0
  floorNext : Nat := 0
  temp : Int := 0
  rate : Int := 0
  fastPrev : Bool := false
  good : Nat := 0
  hotSrc : Nat := 0
  bins : List Nat := List.replicate 26 0
  maxT : Int := 0
  maxRate : Int := 0
  trips : Nat := 0
  maxTAt : Nat := 0
  maxRateAt : Nat := 0
  deriving DecidableEq, Repr

structure Chan where
  broken : Bool := false
  rounds : Nat := 0
  retired : Bool := false
  probation : Bool := false
  deriving DecidableEq, Repr

structure ThermSt where
  zones : Tab Zone := []
  chans : Tab Chan := []
  uv : BitVec 6 := 0
  vbat : Nat := 0
  holdup : Nat := 0
  rounds : Nat := 0
  /-- what the round's window sampled, until its levels become live (R549) -/
  sampled : Option Readings := none
  parked : List Nat := []
  parkPending : List Nat := []
  /-- ranks whose links retrain after a park: the hold period waits for them (R559) -/
  unparking : List Nat := []
  deriving DecidableEq, Repr

structure KeepRec where
  seq : Nat := 0
  carried : Bool := false
  payload : List Byte := []
  sector : Nat := 0
  unit : Nat := 0
  deriving DecidableEq, Repr

/-- State of a keep-store part (KEEP_FLASH). -/
inductive PartState | absent | serving | failed | resyncing
  deriving DecidableEq, Repr

/-- A command of the keep port: the part, the opcode, the address it names, and the dummy cycles of a fast read (R572). -/
structure KeepOp where
  mirror : Bool
  opcode : Nat
  addr : Option Nat := none
  dummy : Nat := 0
  deriving DecidableEq, Repr

structure KeepSt where
  pri : PartState := .absent
  mir : PartState := .absent
  priSize : Nat := 0
  mirSize : Nat := 0
  /-- dummy cycles of each part's fast read, and its quad-enable bit, as SFDP has them (R572) -/
  priDummy : Nat := 0
  mirDummy : Nat := 0
  priQuad : Bool := false
  mirQuad : Bool := false
  /-- commands that the keep port issued for the latest access (R572) -/
  port : List KeepOp := []
  /-- generation and SEQ at which a part left service -/
  priLeft : Option (Nat × Nat) := none
  mirLeft : Option (Nat × Nat) := none
  formatted : Bool := false
  recs : Tab (Option KeepRec) := []
  seq : Nat := 0
  gen : Nat := 0
  head : Nat := 2
  /-- units used in the head sector, its header included -/
  units : Nat := 1
  opens : Nat := 0
  erases : Tab Nat := []
  indexSeq : Nat := 0
  opensSince : Nat := 0
  compacting : Bool := false
  pendingAppends : List (Nat × List Byte) := []
  mode : Nat := 0
  pwSet : Bool := false
  pwMac : BitVec 128 := 0
  fails : Nat := 0
  locked : Bool := false
  /-- CRITS as kept with the critical records (R601) -/
  crits : Nat := 0
  deriving DecidableEq, Repr

/-! ### Events, capture queues, monitors -/

structure Bucket where
  rate : Nat := 16
  burst : Nat := 64
  tokens : Nat := 64
  last : Nat := 0
  suppressed : Nat := 0
  deriving DecidableEq, Repr

structure CapQ where
  prod : Nat := 0
  rel : Nat := 0
  mark : Option Nat := none
  timeout : Nat := 20
  classes : BitVec 5 := 0
  lost : Nat := 0
  lostBefore : Nat := 0
  opened : Bool := true
  count : Nat := 0
  first : Nat := 0
  thisBeat : Nat := 0
  deriving DecidableEq, Repr

structure Mon where
  /-- per counter: CODE, QUAL, COUNT -/
  sel : List (Nat × Nat) := List.replicate 8 (0, 0xFF)
  next : List (Nat × Option (Nat × Nat) × Bool) := []
  cnt : List Nat := List.replicate 8 0
  ovf : BitVec 8 := 0
  user : Bool := false
  window : Nat := 0
  windowAt : Nat := 0
  ports : List Nat := [0, 0, 0, 0]
  bw : List Nat := [0, 0, 0, 0]
  deriving DecidableEq, Repr

structure EvSt where
  /-- beats in Run or Idle since reset: MON_BEAT of every monitor (R608) -/
  runBeats : Nat := 0
  head : Nat := 0
  floor : Nat := 0
  frozen : Bool := false
  frozenCount : Nat := 0
  freezeAt : Nat := 0
  suppressed : Nat := 0
  dropped : Nat := 0
  ring : Tab (Option EvRec) := []
  rdsel : Nat := 0
  held : Bool := false
  words : List Reg := [0, 0, 0, 0]
  crits : Nat := 0
  /-- critical records waiting for a seal (R601) -/
  critWait : List EvRec := []
  buckets : Tab Bucket := []
  intake : List EvRec := []
  /-- events of a boundary's fabric cycle, in the order they will be written; none outside a boundary (R27, R591) -/
  inCycle : Option (List EvRec) := none
  thisBeat : Nat := 0
  gap : Bool := false
  queues : Tab CapQ := []
  mons : Tab Mon := []
  dumpOn : Bool := false
  dumpK : Nat := 10
  dumpNext : Option (Nat × Bool) := none
  dumps : Nat := 0
  lastDump : Option Nat := none
  wakePending : Option Nat := none
  deriving DecidableEq, Repr

/-! ### Consort -/

structure Agreement where
  origin : Nat := 0
  n : Nat := 0
  kind : ConsortKind := .configuration
  preparedAt : Nat := 0
  acks : List Nat := []
  go : Bool := false
  cmd : Option Nat := none
  deriving DecidableEq, Repr

inductive BriterFrame
  | status (st : PeerStatus)
  | prepare (n : Nat) (kind : ConsortKind)
  | ack (n : Nat) (digest : BitVec 64)
  | nack (n : Nat) (reason : Nat)
  | go (n : Nat)
  | abort (n : Nat)
  | wake
  | reg (n : Nat) (holder : Nat)
  | join (pos : Nat) (serial : BitVec 64)
  deriving DecidableEq, Repr

structure ConsortSt where
  joined : Bool := false
  joinReq : Bool := false
  pos : Nat := 0
  members : BitVec 4 := 0
  beatLeader : Nat := 0
  timeLeader : Nat := 0
  unbroken : Bool := false
  refused : Nat := 0
  faults : Nat := 0
  crcAt : List Nat := []
  trains : Bool := true
  delta : Int := 0
  slew : Int := 0
  peers : Tab (Option PeerStatus) := []
  serials : Tab (BitVec 64) := []
  heard : Tab Nat := []
  agreement : Option Agreement := none
  /-- power state that the members have agreed to enter (R625) -/
  agreed : Option Nat := none
  want : Nat := 0
  lastSlew : Nat := 0
  /-- frames this device has sent, newest first -/
  sent : List BriterFrame := []
  /-- other members' frames that this member has forwarded, with their origin, newest first (R618) -/
  relayed : List (Nat × BriterFrame) := []
  retrainAt : Option Nat := none
  deriving DecidableEq, Repr

/-! ### The device -/

/-- The whole device. -/
structure State where
  clk : ClkSt := {}
  pwr : PwrSt := {}
  mp : MapSt := {}
  sag : SagSt := {}
  hq : HostMemSt := {}
  pl : PlaceSt := {}
  dr : DriftSt := {}
  ecc : EccSt := {}
  wr : WearSt := {}
  ig : IntegSt := {}
  ln : LinkSt := {}
  hl : HostLinkSt := {}
  pp : PipeSt := {}
  th : ThermSt := {}
  kp : KeepSt := {}
  ev : EvSt := {}
  cn : ConsortSt := {}
  /-- live and shadow copies of the configuration registers, by register id (R489) -/
  live : Tab Reg := []
  shadow : Tab Reg := []
  /-- the model's own: free values read so far (log 8) -/
  freeCtr : Nat := 0
  /-- commands waiting, first in, first out -/
  pending : List Instr := []
  deriving DecidableEq, Repr

/-- Why a step can stop with a fault. The device itself never stops, so no meaning raises one. -/
inductive Fault
  /-- Raised by no meaning; present because the interface names a fault type. Safe. -/
  | none
  deriving DecidableEq, Repr

/-- Why a step can be refused. -/
inductive Refusal
  /-- An arm of exec that has no meaning yet; no arm of the finished model answers it. Safe. -/
  | notModelled (mnemonic : String)
  deriving DecidableEq, Repr

/-- The device with its supplies up and RESET_N still asserted, a blank keep store and a blank medium (log 2):
every register at its reset column. -/
def State.reset : State := {}

end Sys2Proof.Machine
end

