-- ==== Sys2Proof/Machine/Ops.lean ====
section
/-! DEFINITION. The named operations over the tables and the parts of the state. -/
namespace Sys2Proof.Machine

/-! ### Sparse tables -/

/-- The entry of key `k`, or the table's default. -/
def tget {α : Type} (d : α) : Tab α → Nat → α
  | [], _ => d
  | (j, v) :: t, k => if k < j then d else if k = j then v else tget d t k

/-- Set key `k`; an entry equal to the default is removed, so the form stays canonical. -/
def tset {α : Type} [DecidableEq α] (d : α) : Tab α → Nat → α → Tab α
  | [], k, v => if v = d then [] else [(k, v)]
  | (j, w) :: t, k, v =>
    if k < j then (if v = d then (j, w) :: t else (k, v) :: (j, w) :: t)
    else if k = j then (if v = d then t else (k, v) :: t)
    else (j, w) :: tset d t k v

/-- Change key `k` by `f`. -/
def tupd {α : Type} [DecidableEq α] (d : α) (t : Tab α) (k : Nat) (f : α → α) : Tab α :=
  tset d t k (f (tget d t k))

/-- Keys strictly rising and no default entry: the canonical form. -/
def Tab.wf {α : Type} [DecidableEq α] (d : α) : Tab α → Bool
  | [] => true
  | (j, v) :: t => decide (v ≠ d) && t.all (fun x => j < x.1) && Tab.wf d t

/-- The arena and telemetry bytes are in canonical form. -/
def Memory.wf (m : Tab Byte) : Bool := Tab.wf (0 : Byte) m

/-- Replace element `i` of a list. -/
def lset {α : Type} (l : List α) (i : Nat) (v : α) : List α := l.set i v

/-- Element `i` of a list of numbers, 0 past its end. -/
def nth (l : List Nat) (i : Nat) : Nat := l.getD i 0

/-- Add a member to a duplicate-free list. -/
def addNew (l : List Nat) (x : Nat) : List Nat := if x ∈ l then l else l ++ [x]

/-- Insert an element before the first one that it does not follow. -/
def insertBy {α : Type} (le : α → α → Bool) (x : α) : List α → List α
  | [] => [x]
  | y :: l => if le x y then x :: y :: l else y :: insertBy le x l

/-- A list in ascending order; equal elements keep their order. -/
def sortBy {α : Type} (le : α → α → Bool) (l : List α) : List α := l.foldr (insertBy le) []

/-! ### Bytes -/

/-- The `n` little-endian bytes of a number (R10). -/
def leBytes (n : Nat) (v : Nat) : List Byte := (List.range n).map fun i => BitVec.ofNat 8 (v / 256 ^ i)

/-- The number that little-endian bytes spell (R10). -/
def leNat (l : List Byte) : Nat := l.foldr (fun b acc => b.toNat + 256 * acc) 0

/-- Read one SRAM byte of the arena and telemetry partitions. -/
def readByte (s : State) (a : Nat) : Byte := tget 0 s.pp.sram a

/-- Read `n` SRAM bytes. -/
def readBytes (s : State) (a n : Nat) : List Byte := (List.range n).map fun i => readByte s (a + i)

/-- Store bytes into the SRAM byte table. -/
def storeBytes (m : Tab Byte) (a : Nat) : List Byte → Tab Byte
  | [] => m
  | b :: bs => storeBytes (tset 0 m a b) (a + 1) bs

/-- Write bytes at an SRAM offset. -/
def writeBytes (s : State) (a : Nat) (bs : List Byte) : State :=
  { s with pp := { s.pp with
    sram := storeBytes s.pp.sram a bs
    badBytes := s.pp.badBytes.filter fun x => x < a || a + bs.length ≤ x } }

/-! ### Reading and changing one member of a block -/

def link (s : State) (n : Nat) : LinkRec := tget {} s.ln.links n
def updLink (s : State) (n : Nat) (f : LinkRec → LinkRec) : State :=
  { s with ln := { s.ln with links := tupd {} s.ln.links n f } }

def rankPl (s : State) (r : Nat) : RankPl := tget {} s.pl.ranks r
def updRank (s : State) (r : Nat) (f : RankPl → RankPl) : State :=
  { s with pl := { s.pl with ranks := tupd {} s.pl.ranks r f } }

def stripe (s : State) (bs : Nat) : BsRec := tget {} s.pl.stripes bs
/-- Change a block-stripe record and mark it for its media write (R226). -/
def updStripe (s : State) (bs : Nat) (f : BsRec → BsRec) : State :=
  { s with pl := { s.pl with stripes := tupd {} s.pl.stripes bs fun r => { f r with changed := true } } }

def rankEcc (s : State) (r : Nat) : RankEcc := tget {} s.ecc.ranks r
def updEcc (s : State) (r : Nat) (f : RankEcc → RankEcc) : State :=
  { s with ecc := { s.ecc with ranks := tupd {} s.ecc.ranks r f } }

def rot (s : State) (r : Nat) : Rot := tget {} s.mp.rot r
def updRot (s : State) (r : Nat) (f : Rot → Rot) : State :=
  { s with mp := { s.mp with rot := tupd {} s.mp.rot r f } }

def region (s : State) (n : Nat) : Region := tget {} s.mp.regions n
def updRegion (s : State) (n : Nat) (f : Region → Region) : State :=
  { s with mp := { s.mp with regions := tupd {} s.mp.regions n f } }

def migSlot (s : State) (m : Nat) : MigSlot := tget {} s.mp.mig m
def updMig (s : State) (m : Nat) (f : MigSlot → MigSlot) : State :=
  { s with mp := { s.mp with mig := tupd {} s.mp.mig m f } }

def zone (s : State) (z : Nat) : Zone := tget {} s.th.zones z
def updZone (s : State) (z : Nat) (f : Zone → Zone) : State :=
  { s with th := { s.th with zones := tupd {} s.th.zones z f } }

def domainKey (s : State) (d : Nat) : DomainKey := tget {} s.ig.domains d
def updDomain (s : State) (d : Nat) (f : DomainKey → DomainKey) : State :=
  { s with ig := { s.ig with domains := tupd {} s.ig.domains d f } }

def linkWear (s : State) (n : Nat) : LinkWear := tget {} s.wr.links n
def updLinkWear (s : State) (n : Nat) (f : LinkWear → LinkWear) : State :=
  { s with wr := { s.wr with links := tupd {} s.wr.links n f } }

def capQ (s : State) (q : Nat) : CapQ := tget {} s.ev.queues q
def updCapQ (s : State) (q : Nat) (f : CapQ → CapQ) : State :=
  { s with ev := { s.ev with queues := tupd {} s.ev.queues q f } }

def mon (s : State) (m : Nat) : Mon := tget {} s.ev.mons m
def updMon (s : State) (m : Nat) (f : Mon → Mon) : State :=
  { s with ev := { s.ev with mons := tupd {} s.ev.mons m f } }

/-- The reset column of a pipe: pipe 0 is bound with key 0 to group 0, vector 16, pages 0-15 (R428, R430). -/
def pipeReset (p : Nat) : Pipe := if p = 0 then { valid := true, pages := 16 } else {}
def pipe (s : State) (p : Nat) : Pipe := tget (pipeReset p) s.pp.pipes p
def updPipe (s : State) (p : Nat) (f : Pipe → Pipe) : State :=
  { s with pp := { s.pp with pipes := tupd (pipeReset p) s.pp.pipes p f } }

def sagLine (s : State) (page line : Nat) : Option SagLine := tget none s.sag.lines (page * 64 + line)
def setSagLine (s : State) (page line : Nat) (v : Option SagLine) : State :=
  { s with sag := { s.sag with lines := tset none s.sag.lines (page * 64 + line) v } }

def mediaImg (s : State) (slot line : Nat) : Img := tget .blank s.mp.media (slot * 64 + line)
def setMedia (s : State) (slot line : Nat) (i : Img) : State :=
  { s with mp := { s.mp with media := tset .blank s.mp.media (slot * 64 + line) i } }

/-! ### Configuration registers (R489) -/

/-- Reset value of a configuration register, by its id: 0 SAGR_CTRL, 1 PLCE_CTRL, 2 PLCE_RECL, 3 DRFT_CTRL,
4 ECC_CTRL, 5 WEAR_CTRL, 6-9 HKEP_RANKZONE, 10-41 HKEP_CH, 42-57 HKEP_ZONE, 58 PWRS_POLICY_A, 59 PWRS_POLICY_B,
60 CNSR_CTRL. -/
def cfgReset (id : Nat) : Reg :=
  if id = 0 then 0x100#64
  else if id = 1 then 0x001E002002140418#64
  else if id = 2 then 0x4000001000400060#64
  else if id = 3 then 0x70A#64
  else if id = 4 then 0x00000E0704042400#64
  else if id = 5 then 0x00000A0807D00011#64
  else if id < 10 then
    BitVec.ofNat 64 ((List.range 16).foldl (fun acc j => acc + (4 * (id - 6) + j / 4) * 16 ^ j) 0)
  else if id < 42 then BitVec.ofNat 64 (0x3E8 * 2 ^ 32 + (id - 10) / 2 * 2 ^ 16 + 0x1020)
  else if id < 58 then 0x001403695F5A5550#64
  else if id = 58 then 0x00186A0000003E80#64
  else if id = 59 then 0x09896800#64
  else 3#64

def cfg (s : State) (id : Nat) : Reg := tget (cfgReset id) s.live id
def cfgShadow (s : State) (id : Nat) : Reg := tget (cfgReset id) s.shadow id
def setLive (s : State) (id : Nat) (v : Reg) : State :=
  { s with live := tset (cfgReset id) s.live id v }
def setShadow (s : State) (id : Nat) (v : Reg) : State :=
  { s with shadow := tset (cfgReset id) s.shadow id v }

/-- Bits [lo + w - 1 : lo] of a register, as a number (R9). -/
def fld (v : Reg) (lo w : Nat) : Nat := v.toNat / 2 ^ lo % 2 ^ w

def residency (s : State) : Nat := fld (cfg s 0) 0 16
def heatShift (s : State) : Nat := fld (cfg s 1) 48 8
def fireCold (s : State) : Nat := fld (cfg s 1) 36 12
def budgetMin (s : State) : Nat := fld (cfg s 1) 24 8
def budgetMax (s : State) : Nat := fld (cfg s 1) 16 8
def blankAhead (s : State) : Nat := fld (cfg s 1) 8 8
def fireWaitShift (s : State) : Nat := fld (cfg s 1) 0 8
def bisqueCompact (s : State) : Nat := fld (cfg s 2) 48 16
def reclaimMin (s : State) : Nat := fld (cfg s 2) 32 16
def reclaimLow (s : State) : Nat := fld (cfg s 2) 16 16
def reclaimHigh (s : State) : Nat := fld (cfg s 2) 0 16
def thermEn (s : State) : Bool := fld (cfg s 3) 10 1 = 1
def targetLoopEn (s : State) : Bool := fld (cfg s 3) 9 1 = 1
def driftLoopEn (s : State) : Bool := fld (cfg s 3) 8 1 = 1
def coneShift (s : State) : Nat := fld (cfg s 3) 0 8
def scrubGlazeDays (s : State) : Nat := fld (cfg s 4) 40 8
def scrubBisqueDays (s : State) : Nat := fld (cfg s 4) 32 8
def tallyMax (s : State) : Nat := fld (cfg s 4) 24 8
def corrBits (s : State) : Nat := fld (cfg s 4) 16 4
def scrubEn (s : State) : Bool := fld (cfg s 4) 13 1 = 1
def bucketCap (s : State) : Nat := fld (cfg s 4) 0 11
def spareWarn (s : State) : Nat := fld (cfg s 5) 40 8
def rebuildShare (s : State) : Nat := fld (cfg s 5) 32 4
def wearSpread (s : State) : Nat := fld (cfg s 5) 16 16
def relocShift (s : State) : Nat := fld (cfg s 5) 0 8
def sleepTimer (s : State) : Nat := fld (cfg s 58) 32 32
def idleTimer (s : State) : Nat := fld (cfg s 58) 0 32
def deepEn (s : State) : Bool := fld (cfg s 59) 33 1 = 1
def sleepEn (s : State) : Bool := fld (cfg s 59) 32 1 = 1
def deepTimer (s : State) : Nat := fld (cfg s 59) 0 32
def alertCap (s : State) : Nat := fld (cfg s 60) 0 3

/-- The zone of rank `r` (HKEP_RANKZONE_k, R551). -/
def zoneOf (s : State) (r : Nat) : Nat := fld (cfg s (6 + r / 16)) (4 * (r % 16)) 4

/-! ### Links and ranks -/

/-- ACTIVE and REBUILDING links serve; a link in any other state is a lost link of its rank (R106). -/
def LinkState.serves : LinkState → Bool
  | .active => true
  | .rebuilding => true
  | _ => false

/-- The links of a rank (R81). -/
def rankLinks (r : Nat) : List Nat := (List.range 18).map fun p => 18 * r + p

/-- Lost links of a rank (R106, R108). -/
def lostLinks (s : State) (r : Nat) : Nat :=
  ((rankLinks r).filter fun n => !(link s n).state.serves).length

/-- Populated ranks in ascending order (R635). -/
def pop (s : State) : List Nat := s.mp.pop

/-- A rank whose zone mute level 5 has parked it (R558). -/
def parked (s : State) (r : Nat) : Bool := r ∈ s.th.parked

/-- A replica's rank is absent: absent at startup, three lost links, or parked (R151). -/
def rankAbsent (s : State) (r : Nat) : Bool :=
  r ∉ s.mp.pop || 3 ≤ lostLinks s r || parked s r

/-- The mute level of the rank's zone (R556). -/
def rankLevel (s : State) (r : Nat) : Nat := (zone s (zoneOf s r)).level

/-- Link code of R106. -/
def LinkState.code : LinkState → Nat
  | .empty => 0 | .training => 1 | .inventory => 2 | .refused => 3 | .active => 4 | .rebuilding => 5
  | .draining => 6 | .removable => 7 | .lost => 8 | .retrain => 9

/-! ### Time -/

/-- BCLK_STAMP: the calendar second and the beat within it (R24). -/
def stampNow (s : State) : Nat := s.clk.seconds * 2 ^ 24 + s.clk.inSecond

/-- TIME of an event: the device's own count plus its applied slew (R590, R622). -/
def eventTime (s : State) : Nat :=
  if s.cn.slew = 0 then stampNow s
  else
    let t := ((s.clk.seconds * 16000000 + s.clk.inSecond : Nat) + s.cn.slew).toNat
    t / 16000000 * 2 ^ 24 + t % 16000000

/-- The CXL timestamp of the present beat, or 0 while TVALID is 0 (R569). -/
def hostTime (s : State) : Int :=
  if s.clk.tvalid then
    (s.clk.seconds : Int) * 10 ^ 9 + ((s.clk.subsec * 1953125 / 64 : Nat) : Int) + s.clk.offset
  else 0

/-- Run or Idle with the clocks going: the states in which the data path works (R514). -/
def awake (s : State) : Bool :=
  s.pwr.supplies && !s.pwr.inReset && (s.pwr.state = .run || s.pwr.state = .idle)

/-- Startup has ended step 11 and media are up (R641). -/
def ready (s : State) : Bool := s.pwr.step = 12 && !s.pwr.disabled && awake s

/-- The medium may be written: ready, no last breath running, not idle after one (R258, R535). -/
def mediaUp (s : State) : Bool := ready s && s.pwr.breath.isNone && !s.pwr.mediaIdle

/-- Engines other than drains may run: the device is not entering Deep sleep either (R258, R514, R522). -/
def mediaRuns (s : State) : Bool := mediaUp s && !s.pwr.entering

/-- The live core that holds a role (R34, R35, R335, R338). -/
def roleCore (s : State) (role : Nat) : Option Nat := (s.wr.roles.find? fun x => x.1 = role).map (·.2)

/-- A free value drawn afresh (log 8). -/
def draw (s : State) : Nat × State := (s.freeCtr, { s with freeCtr := s.freeCtr + 1 })

end Sys2Proof.Machine
end

