-- ==== Sys2Proof/Machine/Codec.lean ====
section
/-! DEFINITION. Checks over bytes and the layouts of link words, bit for bit (R10, R75, R84 to R89, R574). -/
namespace Sys2Proof.Machine

/-- One bit of a CRC-16 with generator 0x1021 (R85). -/
def crc16Bit (c : BitVec 16) (b : Bool) : BitVec 16 :=
  if c.getLsbD 15 != b then (c <<< 1) ^^^ 0x1021#16 else c <<< 1

/-- CRC-16 with initial value 0xFFFF over bits in transmission order (R85). -/
def crc16 (bits : List Bool) : BitVec 16 := bits.foldl crc16Bit 0xFFFF#16

/-- One byte of CRC-32C: reflected, polynomial 0x1EDC6F41. -/
def crc32cByte (c : BitVec 32) (b : Byte) : BitVec 32 :=
  (List.range 8).foldl (fun c _ => if c.getLsbD 0 then (c >>> 1) ^^^ 0x82F63B78#32 else c >>> 1) (c ^^^ b.setWidth 32)

/-- CRC-32C of bytes (R73, R75, R526, R574). -/
def crc32c (l : List Byte) : BitVec 32 := (l.foldl crc32cByte 0xFFFFFFFF#32) ^^^ 0xFFFFFFFF#32

/-- The low `w` bits of a number, most significant first. -/
def bitsMsb (v w : Nat) : List Bool := (List.range w).map fun i => v.testBit (w - 1 - i)

/-- A byte's bits in the order a line slot sends them (R84). -/
def byteBits (b : Byte) : List Bool := (List.range 8).map b.getLsbD

/-- The slot check of a body (R84, R85). -/
def slotCheck (body : List Byte) : BitVec 16 := crc16 ((body.map byteBits).flatten)

/-- The READ field (R87): OP, DIE, BLOCK, WL, LINE, REFSET. -/
def readField (op die block wl line refset : Nat) : Nat :=
  op % 4 * 2 ^ 43 + die % 32 * 2 ^ 38 + block % 8192 * 2 ^ 25 + wl % 65536 * 2 ^ 9 + line % 16 * 2 ^ 5 + refset % 32

/-- A LOAD field (R88): DIE, PLANE, POS; position 15 discards. -/
def loadField (die plane pos : Nat) : Nat := die % 32 * 64 + plane % 4 * 16 + pos % 16

/-- The downstream header (R86). -/
def downHeader (nak : Bool) (btag : Nat) (kind0 kind1 : Bool) (read load0 load1 : Nat) : BitVec 96 :=
  let hi := (if nak then 3 * 2 ^ 78 else 0) + btag % 32 * 2 ^ 73 + (if kind0 then 2 ^ 72 else 0) + (if kind1 then 2 ^ 71 else 0) +
    read % 2 ^ 45 * 2 ^ 26 + load0 % 2 ^ 11 * 2 ^ 15 + load1 % 2 ^ 11 * 2 ^ 4
  BitVec.ofNat 96 (hi * 65536 + (crc16 (bitsMsb hi 80)).toNat)

/-- A batch entry (R89): OP, DIE, BLOCK, WL, LINE, ARG. -/
def batchEntry (op die block wl line arg : Nat) : BitVec 64 :=
  BitVec.ofNat 64 (op % 16 * 2 ^ 60 + die % 32 * 2 ^ 55 + block % 8192 * 2 ^ 42 + wl % 65536 * 2 ^ 26 + line % 16 * 2 ^ 22 + arg % 2 ^ 22)

/-- REFLOAD_A (part false) or REFLOAD_B (part true): plane, set and boundary codes, code 0 highest (R89). -/
def refloadEntry (part : Bool) (die plane set : Nat) (codes : List Nat) : BitVec 64 :=
  BitVec.ofNat 64 ((if part then 7 else 6) * 2 ^ 60 + die % 32 * 2 ^ 55 + plane % 4 * 2 ^ 53 + set % 32 * 2 ^ 48 +
    ((List.range 4).map fun i => (codes.getD i 0) % 1024 * 2 ^ (38 - 10 * i)).sum)

/-- The two words of an EQ and of a REPORT entry (R89). -/
def eqEntry (die tap value : Nat) : BitVec 64 := batchEntry 9 die 0 0 0 (value % 256 * 16 + tap % 16)

/-- The 88 bytes of a line image (R84, R88). -/
def imageBytes (x : BitVec 704) : List Byte := (List.range 88).map fun i => BitVec.ofNat 8 (x.toNat / 256 ^ i)

/-- The body of a batch slot: 11 entries of 8 bytes, NOP after the last one (R89). -/
def batchBody (l : List (BitVec 64)) : List Byte :=
  ((List.range 11).map fun i => leBytes 8 (l.getD i 0).toNat).flatten

/-- The bits of a line slot in transmission order: body, then the slot check, bit 15 first (R84). -/
def slotBits (body : List Byte) : List Bool :=
  (body.map byteBits).flatten ++ bitsMsb (slotCheck body).toNat 16

/-- The 1,536 bits of a downstream frame in transmission order (R84). -/
def frameBits (f : DownFrame) : List Bool := bitsMsb f.header.toNat 96 ++ slotBits f.body0 ++ slotBits f.body1

/-- Bits [hi:lo] of an upstream header. -/
def upField (h : BitVec 96) (hi lo : Nat) : Nat := h.toNat / 2 ^ lo % 2 ^ (hi + 1 - lo)

/-- The fields and checks of an upstream frame (R84, R85, R93). -/
def readUp (f : RawFrame) : UpFrame :=
  { hdrOk := (crc16 (bitsMsb (f.header.toNat / 65536) 80)).toNat = upField f.header 15 0
    btag := upField f.header 95 91
    telValue := BitVec.ofNat 32 (upField f.header 90 59)
    telIndex := upField f.header 58 49
    alert := upField f.header 48 48 = 1
    done := BitVec.ofNat 22 (upField f.header 47 26)
    rxerr := BitVec.ofNat 3 (upField f.header 22 20)
    kind0 := upField f.header 19 18
    kind1 := upField f.header 17 16
    slot0Ok := slotCheck f.body0 = f.check0
    slot1Ok := slotCheck f.body1 = f.check1
    body1 := f.body1 }

end Sys2Proof.Machine
end

