-- ==== Sys2Proof/Machine/Keep.lean ====
section
/-! DEFINITION. The keep store: records, the ring of sectors, compaction and resynchronisation, and the commands on the keep port (R571 to R589). -/
namespace Sys2Proof.Machine

/-- A part that holds the store: in service, or being rewritten from the part in service (R584). -/
def PartState.holds : PartState → Bool
  | .serving => true
  | .resyncing => true
  | _ => false

/-- A part serves (R577, R584). -/
def keepUp (s : State) : Bool := s.kp.pri = .serving || s.kp.mir = .serving

/-- Both parts have failed (R584). -/
def keepDead (s : State) : Bool := s.kp.pri = .failed && s.kp.mir = .failed

/-- log2 of the store's size: that of the smaller part when both hold it (R571). -/
def KeepSt.size (k : KeepSt) : Nat :=
  if k.pri.holds && k.mir.holds then min k.priSize k.mirSize
  else if k.pri.holds then k.priSize
  else if k.mir.holds then k.mirSize
  else 0

/-- The sectors of the store, N (R573). -/
def KeepSt.sectors (k : KeepSt) : Nat := 2 ^ k.size / 4096

/-- Ring order: sector 2 follows sector N - 1 (R578). -/
def KeepSt.after (k : KeepSt) (x : Nat) : Nat := if x + 1 < k.sectors then x + 1 else 2

/-- Units that a record takes: its header and its padded payload (R576). -/
def recUnits (len : Nat) : Nat := 1 + (len + 15) / 16

/-- Units of a sector (R573). -/
def sectorUnits : Nat := 227

/-! ### The keep port (R572) -/

/-- A part above 128 Mbit takes 4-byte addresses. -/
def KeepSt.wide (k : KeepSt) (mirror : Bool) : Bool := 24 < if mirror then k.mirSize else k.priSize

/-- A command with an address, in the form of the part's size. -/
def KeepSt.at' (k : KeepSt) (mirror : Bool) (op3 op4 addr : Nat) : KeepOp :=
  { mirror := mirror, opcode := if k.wide mirror then op4 else op3, addr := some addr }

/-- Write Enable, a program or erase, and its busy poll. -/
def KeepSt.change (k : KeepSt) (mirror : Bool) (op3 op4 addr : Nat) : List KeepOp :=
  [{ mirror := mirror, opcode := 0x06 }, k.at' mirror op3 op4 addr, { mirror := mirror, opcode := 0x05 }]

/-- A quad fast read. -/
def KeepSt.fastRead (k : KeepSt) (mirror : Bool) (addr : Nat) : KeepOp :=
  { k.at' mirror 0xEB 0xEC addr with dummy := if mirror then k.mirDummy else k.priDummy }

/-- The port does the same on each part that holds the store, the primary first (R577). -/
def KeepSt.issue (k : KeepSt) (ops : Bool → List KeepOp) : KeepSt :=
  { k with port := k.port ++ (if k.pri.holds then ops false else []) ++ if k.mir.holds then ops true else [] }

/-- Units are programmed page by page, pages being 256 bytes, and read back (R571, R577). -/
def KeepSt.program (k : KeepSt) (sector unit units : Nat) : KeepSt :=
  let a := sector * 4096 + unit * 18
  let e := a + units * 18
  let starts := a :: ((List.range (e / 256 + 1 - a / 256)).map fun i => (a / 256 + i) * 256).filter fun x => a < x && x < e
  k.issue fun m => starts.flatMap (k.change m 0x02 0x12) ++ [k.fastRead m a]

/-- A sector is erased. -/
def KeepSt.erase (k : KeepSt) (sector : Nat) : KeepSt := k.issue fun m => k.change m 0x20 0x21 (sector * 4096)

/-- Reset and discovery of a part at startup (R571, R572, R583). -/
def discoverOps (mirror : Bool) : List KeepOp := [0x66, 0x99, 0x9F, 0x5A].map fun op => { mirror := mirror, opcode := op }

/-! ### Records and sectors -/

/-- Place a record at the first free unit of the head sector (R577). -/
def KeepSt.place (k : KeepSt) (key : Nat) (r : KeepRec) : KeepSt :=
  { k.program k.head k.units (recUnits r.payload.length) with
    recs := tset none k.recs key (some { r with sector := k.head, unit := k.units })
    units := k.units + recUnits r.payload.length }

/-- Live records of a sector in offset order (R578). -/
def KeepSt.liveIn (k : KeepSt) (sector : Nat) : List (Nat × KeepRec) :=
  sortBy (fun a b => a.2.unit ≤ b.2.unit)
    (k.recs.filterMap fun x => x.2.bind fun r => if r.sector = sector then some (x.1, r) else none)

/-- Copy the live records of a sector into the head with SEQ unchanged and FLAGS[0] set (R578). -/
def KeepSt.carry (k : KeepSt) (sector : Nat) : KeepSt :=
  (k.liveIn sector).foldl (fun k x => k.place x.1 { x.2 with carried := true }) k

/-- Rewrite the older index copy: that of INDEX_SEQ n lies in sector (n + 1) mod 2 (R573, R582). -/
def KeepSt.writeIndex (k : KeepSt) : KeepSt :=
  let sector := k.indexSeq % 2
  { (k.erase sector).program sector 0 (2 + (k.recs.length + 1) / 2) with indexSeq := k.indexSeq + 1, opensSince := 0 }

/-- Make `x` the head: its header takes the next OPEN and one more erasure (R575, R578). -/
def KeepSt.header (k : KeepSt) (x open' : Nat) : KeepSt :=
  { k.program x 0 1 with head := x, units := 1, opens := open', erases := tset 0 k.erases x (tget 0 k.erases x + 1) }

/-- Open the next sector: header, then the following sector's live records, then that sector is erased (R578); the
index is rewritten after every 64 openings (R582). -/
def KeepSt.openNext (k : KeepSt) : KeepSt :=
  let k := k.header (k.after k.head) (k.opens + 1)
  let k := (k.carry (k.after k.head)).erase (k.after k.head)
  if 64 ≤ k.opensSince + 1 then k.writeIndex else { k with opensSince := k.opensSince + 1 }

/-- Open sectors until a record of `n` units fits the head; `fuel` bounds the turns of the ring. -/
def KeepSt.room : Nat → Nat → KeepSt → KeepSt
  | 0, _, k => k
  | fuel + 1, n, k => if k.units + n ≤ sectorUnits then k else KeepSt.room fuel n k.openNext

/-- One append under the next SEQ (R577); SEQ 0xFFFF_FFFF is followed by compaction (R581). -/
def KeepSt.append (k : KeepSt) (key : Nat) (payload : List Byte) : KeepSt :=
  let k := { k with seq := k.seq + 1 }
  let k := (k.room k.sectors (recUnits payload.length)).place key { seq := k.seq, payload := payload }
  if k.seq = 0xFFFFFFFF then { k with compacting := true } else k

/-- Sectors that hold no live record, in ring order from the head (R581). -/
def KeepSt.fresh (k : KeepSt) : List Nat :=
  let n := k.sectors - 2
  ((List.range (n - 1)).map fun i => 2 + (k.head - 2 + 1 + i) % n).filter fun x => (k.liveIn x).isEmpty

/-- Sectors needed to append records of the given unit counts, `used` units being taken in the present one. -/
def sectorsFor : List Nat → Nat → Nat
  | [], _ => 1
  | n :: ns, used => if used + n ≤ sectorUnits then sectorsFor ns (used + n) else 1 + sectorsFor ns (1 + n)

/-- Carry further following sectors into the head while it has room (R581 step 1). -/
def KeepSt.carryMore : Nat → Nat → KeepSt → KeepSt
  | 0, _, k => k
  | fuel + 1, x, k =>
    let n := ((k.liveIn x).map fun e => recUnits e.2.payload.length).sum
    if x = k.head || sectorUnits < k.units + n then k else KeepSt.carryMore fuel (k.after x) ((k.carry x).erase x)

/-- Pack the ring until `need` sectors hold no live record (R581 step 1). -/
def KeepSt.pack : Nat → Nat → KeepSt → KeepSt
  | 0, _, k => k
  | fuel + 1, need, k =>
    if need ≤ k.fresh.length then k
    else
      let k := k.openNext
      KeepSt.pack fuel need (k.carryMore k.sectors (k.after (k.after k.head)))

/-- Append records into fresh sectors in turn (R581 steps 2 and 3). -/
def KeepSt.refill : List (Nat × KeepRec) → List Nat → KeepSt → KeepSt
  | [], _, k => k
  | (key, r) :: rs, fs, k =>
    let k := { k with seq := k.seq + 1 }
    if k.units + recUnits r.payload.length ≤ sectorUnits then
      KeepSt.refill rs fs (k.place key { r with seq := k.seq })
    else match fs with
      | [] => k
      | f :: fs => KeepSt.refill rs fs (((k.erase f).header f (k.opens + 1)).place key { r with seq := k.seq })

/-- The records that compaction writes, GEN_MARK last (R581 steps 2 and 3). -/
def KeepSt.compactSet (k : KeepSt) : List (Nat × KeepRec) :=
  let live := k.recs.filterMap fun x => if x.1 = 0 then none else x.2.map fun r => (x.1, { r with carried := true })
  live ++ [(0, { payload := leBytes 4 (k.gen + 1) })]

/-- The ring packed until the sectors that compaction needs hold no live record (R581 step 1). -/
def KeepSt.packed (k : KeepSt) : KeepSt :=
  k.pack k.sectors (sectorsFor (k.compactSet.map fun e => recUnits e.2.payload.length) 1)

/-- Compaction under GEN + 1 with OPEN from 0 and SEQ from 1, ended by GEN_MARK and the index (R581). -/
def KeepSt.compact (k : KeepSt) : KeepSt :=
  match k.packed.fresh with
  | [] => k.packed
  | f :: fs =>
    let x := ({ k.packed with gen := k.packed.gen + 1, seq := 0 }.erase f).header f 0
    { (KeepSt.refill k.compactSet fs x).writeIndex with compacting := false }

/-- An append in the order taken (R589): it waits while the store compacts (R581) and is held in firmware working
memory while no part serves (R584). -/
def keepPut (s : State) (key : Nat) (payload : List Byte) : State :=
  { s with kp :=
    if keepUp s && !s.kp.compacting then { s.kp with port := [] }.append key payload
    else { s.kp with pendingAppends := s.kp.pendingAppends ++ [(key, payload)] } }

/-- Make the appends that waited, in the order taken. -/
def keepFlush (s : State) : State :=
  if keepUp s && !s.kp.compacting then
    s.kp.pendingAppends.foldl (fun s x => keepPut s x.1 x.2) { s with kp := { s.kp with pendingAppends := [] } }
  else s

/-- The payload that counts for a key (R579); an append not yet made counts as made for the device itself. -/
def keepGet (s : State) (key : Nat) : Option (List Byte) :=
  match (s.kp.pendingAppends.filter fun x => x.1 = key).getLast? with
  | some x => some x.2
  | none => (tget none s.kp.recs key).map (·.payload)

/-- The keep-store number under a key, 0 when absent. -/
def keepNat (s : State) (key : Nat) : Nat := ((keepGet s key).map leNat).getD 0

/-- Highest ERASES among ring sectors, 18 bits (KEEP_FLASH). -/
def KeepSt.maxErase (k : KeepSt) : Nat := min (2 ^ 18 - 1) (k.erases.foldl (fun m x => max m x.2) 0)

/-- Keys with a live record, 0 to 448 (KEEP_STORE). -/
def KeepSt.live (k : KeepSt) : Nat := k.recs.length

/-- A blank store formatted: sectors 0 to 3 erased, both index copies written, sector 2 opened with GEN 1 (R583). -/
def KeepSt.format (k : KeepSt) : KeepSt :=
  let k := [0, 1, 2, 3].foldl KeepSt.erase { k with formatted := true, recs := [], seq := 0, gen := 1 }
  { (k.program 0 0 2).program 1 0 2 with indexSeq := 2, opensSince := 0 }.header 2 0

end Sys2Proof.Machine
end

