-- ==== Sys2Proof/Machine/Flags.lean ====
section
/-! DEFINITION. Status and event reporting: MSI-X vectors, CXL event logs, the event recorder with its rate limits,
the capture queues, ALERT_N, and the monitors' counts (R409, R411, R414, R590 to R610, R657, R670). -/
namespace Sys2Proof.Machine

/-! ### MSI-X (R414) -/

/-- Signal a vector: a masked vector records its pending bit, an unmasked one sends its message. -/
def signalVector (s : State) (v : Nat) : State :=
  { s with hl := { s.hl with msix := tupd {} s.hl.msix v fun m =>
      if m.masked then { m with pending := true } else { m with sent := m.sent + 1 } } }

/-! ### Capture queues (R602 to R605) -/

/-- SRAM offset of bank `b` of queue `q` (R602). -/
def capBase (q b : Nat) : Nat := 0x3C200000 + (2 * q + b) * 0x40000

/-- PROD: the line of the next record (CAPQ_PROD). -/
def capProd (c : CapQ) : Nat := c.prod + c.count / 2

/-- Close the open packet: padding, trailer, notice, then PROD (R603, R604). The next packet opens at once when its
bank is free (R605). -/
def packetClose (s : State) (q reason : Nat) : State :=
  let c := capQ s q
  if c.count = 0 then s
  else
    let k := c.prod / 4096
    let base := capBase q (k % 2)
    let s := if c.count % 2 = 1 then writeBytes s (base + c.count / 2 * 64 + 32) (List.replicate 32 0xFF) else s
    let s := writeBytes s (base + 4095 * 64)
      (leBytes 8 k ++ leBytes 4 (32 * c.count) ++ leBytes 4 c.lostBefore ++ leBytes 8 c.first ++
        leBytes 8 s.clk.beat ++ leBytes 1 reason ++ List.replicate 31 0)
    let s := signalVector s (4 + q)
    updCapQ s q fun c =>
      { c with prod := 4096 * (k + 1), count := 0, lostBefore := 0, opened := decide (4096 * k ≤ c.rel) }

/-- Open the queue's next packet when its bank is free (R605). -/
def packetOpen (s : State) (q : Nat) : State :=
  updCapQ s q fun c => if c.prod / 4096 ≤ 1 ∨ 4096 * (c.prod / 4096 - 1) ≤ c.rel then { c with opened := true } else c

/-- A record arrives at a queue: at most 8 a beat, lost while no packet is open; the 8,190th closes its packet
(R603 to R605). -/
def capPut (s : State) (q : Nat) (bytes : List Byte) : State :=
  let c := capQ s q
  if 8 ≤ c.thisBeat || !c.opened then
    updCapQ s q fun c => { c with lost := satAdd 32 c.lost 1, lostBefore := c.lostBefore + 1, thisBeat := c.thisBeat + 1 }
  else
    let s := writeBytes s (capBase q (c.prod / 4096 % 2) + c.count / 2 * 64 + c.count % 2 * 32) bytes
    let s := updCapQ s q fun c =>
      { c with count := c.count + 1, thisBeat := c.thisBeat + 1, first := if c.count = 0 then s.clk.beat else c.first }
    if c.count + 1 = 8190 then packetClose s q 0 else s

/-! ### CXL event logs (R411) -/

/-- Put a record into a log, 0 Informational to 3 Fatal; a full log sets its overflow fields and drops it. -/
def cxlLogPut (s : State) (log : Nat) (k : CxlKind) (e : EvRec) : State :=
  let t := (hostTime s).toNat
  let s := { s with hl := { s.hl with logs := tupd {} s.hl.logs log fun l =>
      if 1024 ≤ l.recs.length then
        { l with overflow := true, overflowCount := l.overflowCount + 1, overflowTime := t }
      else { l with recs := l.recs ++ [{ kind := k, event := e, time := t }] } } }
  if nth s.hl.evPolicy log = 1 then signalVector s (if log ≤ 1 then 1 else 2) else s

/-! ### Event codes (R593) -/

/-- Class of a code: 0 I, 1 M, 2 P, 3 E, 4 C; none for a code that is not in the table. -/
def evClass (code : Nat) : Option Nat :=
  if code ∈ [0x0013, 0x0014, 0x0025, 0x0035, 0x0036, 0x003A, 0x003B, 0x0041, 0x0042, 0x0054, 0x0055, 0x0061, 0x0068,
      0x0069, 0x006A, 0x0073] then some 4
  else if code ∈ [0x0032, 0x0050, 0x0051, 0x0052, 0x0053, 0x0074] then some 3
  else if code = 0x0034 then some 2
  else if code ∈ [0x0037, 0x0038] then some 1
  else if code ∈ [0x0001, 0x0002, 0x0003, 0x0004, 0x0005, 0x0010, 0x0011, 0x0012, 0x0015, 0x0016, 0x0020, 0x0021,
      0x0022, 0x0023, 0x0024, 0x0030, 0x0031, 0x0033, 0x0039, 0x0040, 0x0043, 0x0060, 0x0062, 0x0063, 0x0064, 0x0065,
      0x0066, 0x0067, 0x0070, 0x0071, 0x0072, 0x0080, 0x0081, 0x0082, 0x00F0] then some 0
  else none

/-- The 32 bytes of an event record (R590). -/
def EvRec.bytes (r : EvRec) : List Byte :=
  leBytes 2 r.code ++ leBytes 1 (r.cls + if r.gap then 8 else 0) ++ leBytes 1 r.source ++ leBytes 4 r.suppressed ++
    leBytes 8 r.time.toNat ++ leBytes 4 r.p0 ++ leBytes 4 r.p1 ++ leBytes 4 r.p2 ++ leBytes 4 r.p3

/-- The critical number and the keep-store append of a class C record (R601). -/
def critAppend (s : State) (r : EvRec) : State :=
  let c := s.ev.crits
  let s := { s with ev := { s.ev with crits := c + 1 }, kp := { s.kp with crits := c + 1 } }
  keepPut s (0x300 + c % 64) r.bytes

/-- The destinations of a class besides ring and capture queues (R594); a critical record raised while last breath
runs waits for the seal (R601). -/
def routeClass (s : State) (r : EvRec) : State :=
  if r.cls = 4 then
    let s := signalVector (cxlLogPut s 3 .vendor r) 3
    if s.pwr.breath.isSome then { s with ev := { s.ev with critWait := s.ev.critWait ++ [r] } } else critAppend s r
  else if r.cls = 3 then signalVector (cxlLogPut s 0 .vendor r) 3
  else if r.cls = 2 then cxlLogPut s 2 .media r
  else if r.cls = 1 then cxlLogPut s 1 .module r
  else cxlLogPut s 0 .vendor r

/-- Write a record to the ring; a frozen ring counts it instead (R597, R599). -/
def ringPut (s : State) (r : EvRec) : State :=
  if s.ev.frozen then { s with ev := { s.ev with frozenCount := satAdd 32 s.ev.frozenCount 1 } }
  else { s with ev := { s.ev with
    ring := tset none s.ev.ring (s.ev.head % 65536) (some r), head := s.ev.head + 1, gap := false } }

/-- The recorder writes one record: ring, the queues that select its class, and its class's destinations
(R594, R597, R606). The first record after a loss carries GAP. -/
def writeRecord (s : State) (r : EvRec) : State :=
  let r := { r with gap := s.ev.gap && !s.ev.frozen }
  let s := ringPut s r
  let s := (List.range 8).foldl (fun s q => if (capQ s q).classes.getLsbD r.cls then capPut s q r.bytes else s) s
  routeClass { s with ev := { s.ev with thisBeat := s.ev.thisBeat + 1 } } r

/-- Class C and bucket-overflow records are never dropped (R596). -/
def keptPlace (r : EvRec) : Bool := r.cls = 4 || r.code = 0x32

/-- A record reaches the recorder: 16 a beat, then the intake of 1,024 with 64 places kept (R596). -/
def intakePut (s : State) (r : EvRec) : State :=
  if s.ev.intake.isEmpty && s.ev.thisBeat < 16 then writeRecord s r
  else if keptPlace r || (decide ((s.ev.intake.filter fun x => !keptPlace x).length < 960) && s.ev.intake.length < 1024) then
    { s with ev := { s.ev with intake := s.ev.intake ++ [r] } }
  else { s with ev := { s.ev with dropped := satAdd 32 s.ev.dropped 1, gap := true } }

/-- At a boundary the recorder takes up to 16 waiting records (R596). -/
def intakeDrain (s : State) : State :=
  let now := s.ev.intake.take 16
  let s := { s with ev := { s.ev with thisBeat := 0, intake := s.ev.intake.drop 16 } }
  now.foldl writeRecord s

/-- A place among the events of one fabric cycle: ascending SOURCE, then ascending CODE (R591). -/
def cycleOrder (r : EvRec) : List EvRec → List EvRec
  | [] => [r]
  | x :: l => if r.source < x.source || (r.source = x.source && r.code < x.code) then r :: x :: l else x :: cycleOrder r l

/-- An event reaches the recorder at once, or with the others of a boundary's cycle (R27, R591). -/
def arrive (s : State) (r : EvRec) : State :=
  match s.ev.inCycle with
  | none => intakePut s r
  | some l => { s with ev := { s.ev with inCycle := some (cycleOrder r l) } }

/-- A boundary's cycle begins, and ends with its events in order. -/
def cycleStart (s : State) : State := { s with ev := { s.ev with inCycle := some [] } }
def cycleEnd (s : State) : State :=
  (s.ev.inCycle.getD []).foldl intakePut { s with ev := { s.ev with inCycle := none } }

/-- ALERT_N is asserted for 16,384 beats from a class C or E event (R657). -/
def alertPulse (s : State) : State := { s with pwr := { s.pwr with alertUntil := some (s.clk.beat + 16384) } }

def bucket (s : State) (code : Nat) : Bucket := tget {} s.ev.buckets code
def updBucket (s : State) (code : Nat) (f : Bucket → Bucket) : State :=
  { s with ev := { s.ev with buckets := tupd {} s.ev.buckets code f } }

/-- Raise an event (R590 to R596): TIME is the beat of the raise; a class other than C, bucket-overflow apart, spends
a token or is suppressed. -/
def raise (s : State) (code source p0 p1 p2 p3 : Nat) : State :=
  match evClass code with
  | none => s
  | some cls =>
    let b := bucket s code
    let limited := cls ≠ 4 && code ≠ 0x32
    if limited && b.tokens = 0 then
      let s := updBucket s code fun b => { b with suppressed := satAdd 32 b.suppressed 1 }
      { s with ev := { s.ev with suppressed := satAdd 32 s.ev.suppressed 1 } }
    else
      let s := if limited then updBucket s code fun b => { b with tokens := b.tokens - 1, suppressed := 0 } else s
      let s := if cls = 4 || cls = 3 then alertPulse s else s
      arrive s
        { code := code, cls := cls, source := source % 256, suppressed := if limited then b.suppressed else 0
          time := BitVec.ofNat 64 (eventTime s), p0 := p0 % 2 ^ 32, p1 := p1 % 2 ^ 32, p2 := p2 % 2 ^ 32
          p3 := p3 % 2 ^ 32 }

/-- An event whose first parameter is a DPA or page, low word first (R592). -/
def raiseAddr (s : State) (code source addr p2 : Nat) : State :=
  raise s code source (addr % 2 ^ 32) (addr / 2 ^ 32) p2 0

/-- Source numbers (R590). -/
def srcHost : Nat := 0x40
def srcDevice : Nat := 0x41
def srcKeep : Nat := 0x42
def srcConsort : Nat := 0x43
def srcCore (c : Nat) : Nat := 0x50 + c
def srcZone (z : Nat) : Nat := 0x70 + z

/-- The rate-limit reset: every bucket full (R595). -/
def fillBuckets (s : State) : State :=
  { s with ev := { s.ev with buckets := s.ev.buckets.foldl (fun t b => tset {} t b.1 { b.2 with tokens := b.2.burst }) [] } }

/-! ### Media Status and ALERT_N (R642, R657) -/

/-- 0 Not Ready, 1 Ready, 2 Error, 3 Disabled. -/
def mediaStatus (s : State) : Nat :=
  if s.pwr.disabled then 3 else if s.pwr.limited then 2 else if s.pwr.step = 12 then 1 else 0

/-- ALERT_N is asserted: an event's interval runs, or a held cause stands. -/
def alertN (s : State) : Bool :=
  s.pwr.state != .off &&
  (s.pwr.alertUntil.isSome || 2 ≤ mediaStatus s || keepDead s ||
    (List.range 16).any fun z => 4 ≤ (zone s z).level)

/-- THERMTRIP_N is asserted: a level-5 park or an on-die trip (R658). -/
def thermtripN (s : State) : Bool := s.pwr.tripLevel5 || s.pwr.tripOnDie

/-! ### Monitors (R608 to R610) -/

/-- The counters of monitor `m` that select `code` (with the qualifier, 0xFF meaning all) add `n`, wrapping modulo
2^48 with a sticky overflow bit. -/
def Mon.add (m : Mon) (code qual n : Nat) : Mon :=
  (List.range 8).foldl (fun m i =>
    let sel := m.sel.getD i (0, 0xFF)
    if sel.1 = code ∧ code ≠ 0 ∧ (sel.2 = 0xFF ∨ sel.2 = qual) then
      let v := nth m.cnt i + n
      { m with cnt := m.cnt.set i (v % 2 ^ 48)
               ovf := if 2 ^ 48 ≤ v then m.ovf ||| (1#8 <<< i) else m.ovf }
    else m) m

/-- Count `n` at a monitor: 0 host, 1 + r rank r, 65 cores, 66 SRAM. -/
def count (s : State) (m code qual n : Nat) : State :=
  if n = 0 then s else updMon s m fun x => x.add code qual n

/-- Add bytes to a monitor's port while its window is on (R612). -/
def portBytes (s : State) (m port n : Nat) : State :=
  updMon s m fun x => if x.window = 0 then x else { x with ports := x.ports.set port (nth x.ports port + n) }

/-- CXL.io payload at the host's ports, 2 in and 3 out (R612, log 130). -/
def ioPayload (s : State) (master : Byte) (port n : Nat) : State := if master = 0 then portBytes s 0 port n else s

/-- The select codes of a monitor kind, with the qualifiers that each takes besides 0xFF (R609). -/
def selectOk (m code qual : Nat) : Bool :=
  let plain := qual = 0xFF
  if code = 0 then plain
  else if m = 0 then decide (1 ≤ code ∧ code ≤ 0xF) && plain
  else if m ≤ 64 then
    if code = 0x109 || code = 0x10A || code = 0x10D then plain || qual < 18
    else decide (0x101 ≤ code ∧ code ≤ 0x10C) && plain
  else if m = 65 then
    if code = 0x201 then plain || qual < 18 else decide (0x202 ≤ code ∧ code ≤ 0x204) && plain
  else if m = 66 then
    if code = 0x301 || code = 0x302 then plain || decide (1 ≤ qual ∧ qual ≤ 3)
    else decide (0x303 ≤ code ∧ code ≤ 0x304) && plain
  else false

end Sys2Proof.Machine
end

