-- ==== Sys2Proof/Machine/Operands.lean ====
section
/-! DEFINITION. The operand forms: how an address, a slot, a leaf or a node is split and found (R113 to R120, R136,
R143, R234, R365, R368, R373, R375, R406). -/
namespace Sys2Proof.Machine

/-! ### The SRAM stack (R36 to R39) -/

def sramCh (s : State) (c : Nat) : SramCh := tget {} s.ecc.sram c
/-- A physical channel's die, and its logical channel while it is not a spare (R36; log 20). -/
def sramDie (c : Nat) : Nat := c / 16
def sramLogical (c : Nat) : Nat := c / 16 * 15 + c % 16
/-- Logical channel and row of an SRAM line (R36). -/
def sramChannel (a : Nat) : Nat := a % 120
def sramRow (a : Nat) : Nat := a / 120
/-- SRAM line of a byte offset, and the bases of the partitions that it uses (R36, R38). -/
def sramLine (off : Nat) : Nat := off / 64
def copyA : Nat := 0x20000000 / 64
def copyB : Nat := 0x24000000 / 64
/-- The logical channel that a physical one serves; a spare serves that of its die's failed channel (R37). -/
def logicalOf (s : State) (c : Nat) : Option Nat :=
  if c % 16 < 15 then (if (sramCh s c).failed then none else some (sramLogical c))
  else ((List.range 15).find? fun k => (sramCh s (c / 16 * 16 + k)).failed).map fun k => sramLogical (c / 16 * 16 + k)
/-- Logical channels that have failed and that no spare has replaced yet (R195, R332). -/
def deadChannels (s : State) : List Nat :=
  (s.ecc.sram.filter fun x => x.2.copying).map fun x => sramLogical x.1
/-- A saggar line has a copy on a failed channel (R195). -/
def onDead (s : State) (idx : Nat) : Bool :=
  (deadChannels s).any fun l => sramChannel (copyA + idx) = l || sramChannel (copyB + idx) = l
/-- The place of a new saggar line: the lowest free one without a copy on a failed channel (R195). -/
def newIdx (s : State) : Nat :=
  let used := s.sag.lines.filterMap fun x => x.2.map fun l => l.idx
  ((List.range (used.length * 120 + 121)).find? fun i => decide (i ∉ used) && !onDead s i).getD 0

/-! ### Addresses (R113) -/

/-- Page number P = DPA[51:12]. -/
def pageOf (dpa : Nat) : Nat := dpa / 4096 % 2 ^ 40
/-- Line index DPA[11:6]. -/
def lineOf (dpa : Nat) : Nat := dpa / 64 % 64
/-- DPA of a page's line. -/
def dpaOf (page line : Nat) : Nat := page * 4096 + line * 64

/-- Decode of one committed HDM decoder (R406): none where the address belongs to no target of this device. -/
def Hdm.dpa? (d : Hdm) (hpa : Nat) : Option Nat :=
  if d.committed && d.hpaBase ≤ hpa && hpa < d.hpaBase + d.size then
    let o := hpa - d.hpaBase
    let chunk := o / d.gran
    if chunk % d.ways = d.pos then some (d.dpaBase + chunk / d.ways * d.gran + o % d.gran) else none
  else none

/-- The first committed decoder whose HPA range contains the address decides (R406). -/
def hdmDecode (s : State) (hpa : Nat) : Option Nat :=
  (((List.range 4).map fun n => tget ({} : Hdm) s.hl.hdm n).find? fun d =>
    d.committed && d.hpaBase ≤ hpa && hpa < d.hpaBase + d.size).bind fun d => d.dpa? hpa

/-- The valid region that holds a DPA below the capacity (R115, R116, R118). -/
def regionOf (s : State) (dpa : Nat) : Option Nat :=
  if dpa / 2 ^ 30 < s.mp.capGib then
    (List.range 64).find? fun n =>
      let r := region s n
      r.valid && r.base ≤ dpa / 2 ^ 30 && dpa / 2 ^ 30 < r.base + r.size
  else none

/-- The region of a page. -/
def pageRegion (s : State) (page : Nat) : Option Nat := regionOf s (page * 4096)

/-! ### Physical slots (R119) -/

def bsNo (rank die block : Nat) : Nat := (rank * 16 + die) * 5120 + block
def slotNo (bs wl slot : Nat) : Nat := bs * 196608 + wl * 3 + slot
def slotBs (slot : Nat) : Nat := slot / 196608
def slotWl (slot : Nat) : Nat := slot / 3 % 65536
def slotPos (slot : Nat) : Nat := slot % 3
def bsRank (bs : Nat) : Nat := bs / 81920
def bsDie (bs : Nat) : Nat := bs / 5120 % 16
def bsBlock (bs : Nat) : Nat := bs % 5120
/-- A block lies on the plane of its number modulo 4 (R42). -/
def bsPlane (bs : Nat) : Nat := bs % 5120 % 4
def slotRank (slot : Nat) : Nat := bsRank (slotBs slot)
/-- Link of link position `q` of a rank. -/
def rankLink (rank q : Nat) : Nat := 18 * rank + q
/-- Data segment of a line (R120). -/
def segmentOf (line : Nat) : Nat := line / 4
/-- LINE of a line in a glaze slot or in bisque (R120). -/
def glazeLine (slot line : Nat) : Nat := slotPos slot * 4 + line % 4
def bisqueLine (line : Nat) : Nat := 12 + line % 4

/-! ### Leaves and nodes (R131, R136, R365, R368) -/

def leafOf (page : Nat) : Nat := page / 128
/-- The map line, numbered over the whole map, that holds a page's entry. -/
def mapLineOf (page : Nat) : Nat := page / 2
/-- The segment of 8 entries that holds a page's entry. -/
def segNo (page : Nat) : Nat := page / 8
def leafOfLine (leafLine : Nat) : Nat := leafLine / 64
def nodeOf (leaf : Nat) : Nat := leaf / 512
/-- NLEAF (R131). -/
def leaves (s : State) : Nat := s.mp.capGib * 2048
/-- NA (R365). -/
def nodesA (s : State) : Nat := min (4 * s.mp.capGib) 16744448
/-- NB (R366). -/
def nodesB (s : State) : Nat := (nodesA s + 511) / 512
def mapBlkFirst (s : State) : Nat := 5120 - s.mp.mapBlks
def treeBlkFirst (s : State) : Nat := mapBlkFirst s - s.mp.treeBlks

/-- The rank of replica `k` of leaf or node `n` (R136). -/
def homeRank (s : State) (n k : Nat) : Nat :=
  nth s.mp.mapRanks ((n + k * (s.mp.mapNr / 2)) % s.mp.mapNr)

/-- Replacement of a map block stripe by the swaps in force, in register order (R136). -/
def applySwaps (swaps : List (Nat × Nat)) (x : Nat) : Nat :=
  swaps.foldl (fun x p => if p.1 = x then p.2 else x) x

/-- A map position's block stripe and word line in its rank, given the first block of the area (R136). -/
def positionHome (swaps : List (Nat × Nat)) (first p : Nat) : Nat × Nat :=
  (applySwaps swaps (p / 65536 % 16 * 5120 + first + p / 65536 / 16), p % 65536)

/-- Position of a local index under a rotation (R136). -/
def rotate (n start gap a : Nat) : Nat :=
  let p := (a + start) % n
  if gap ≤ p then p + 1 else p

/-- Home of replica `k` of leaf `L` (R136): its slot number. -/
def leafHome (s : State) (L k : Nat) : Nat :=
  let r := homeRank s L k
  let t := rot s r
  let x := positionHome t.swaps (mapBlkFirst s) (rotate s.mp.mapN t.start t.gap (2 * (L / s.mp.mapNr) + k))
  slotNo (r * 81920 + x.1) x.2 0

/-- Home of replica `k` of tree node `a` (R368): its slot number. -/
def nodeHome (s : State) (a k : Nat) : Nat :=
  let r := homeRank s a k
  let t := rot s r
  let x := positionHome t.swaps (treeBlkFirst s) (rotate s.mp.treeN t.tstart t.tgap (2 * (a / s.mp.mapNr) + k))
  slotNo (r * 81920 + x.1) x.2 0

/-- Geometry that a capacity and a map rank set give (R131, R135, R365, R366, R368): MAP_N, MAP_BLKS, TREE_N,
TREE_BLKS. -/
def mapGeometry (cap nr : Nat) : Nat × Nat × Nat × Nat :=
  let mapN := 2 * ((cap * 2048 + nr - 1) / nr)
  let na := min (4 * cap) 16744448
  let treeN := 2 * ((na + (na + 511) / 512 + nr - 1) / nr)
  (mapN, (mapN + 1 + 1048575) / 1048576, treeN, (treeN + 1 + 1048575) / 1048576)

/-- Set of a map-cache segment (R143). -/
def mapSet (g : Nat) : Nat := (Nat.xor (Nat.xor g (g / 2 ^ 17)) (g / 2 ^ 34)) % 2 ^ 17

/-! ### Stamp slots (R373, R375) -/

/-- First word line of the stamp slots in a bisque stripe that holds host pages. -/
def stampWl : Nat := 58254
/-- Home of the stamp slot of the page slot at `slot`: its word line and its half-line index k. -/
def stampHome (slot : Nat) : Nat × Nat := (stampWl + slotWl slot / 8, slotWl slot % 8)
/-- Set of a stamp slot (R375), by the bisque home. -/
def stampSet (home : Nat) : Nat :=
  let h := home / 3
  (Nat.xor (Nat.xor h (h / 2 ^ 12)) (h / 2 ^ 24)) % 2 ^ 12

/-! ### Choice of a rank (R234) -/

/-- The rank that a page without a home takes its bisque slot on. -/
def popRank (s : State) (page : Nat) : Nat :=
  let n := s.mp.pop.length
  if n = 0 then 255 else nth s.mp.pop (Nat.xor page (page / 2 ^ 20) % n)

/-! ### Commands taken (R436, R438) -/

/-- SRAM offset of the descriptor arena (R38). -/
def arenaBase : Nat := 0x38000000

/-- The `n` bytes at an offset of a command's descriptor, as a number (R436). -/
def Cmd.fld (c : Cmd) (off n : Nat) : Nat := c.d.toNat / 2 ^ (8 * off) % 2 ^ (8 * n)
def Cmd.op (c : Cmd) : Nat := c.fld 0 2
def Cmd.token (c : Cmd) : Reg := BitVec.ofNat 64 (c.fld 8 8)
def Cmd.beat (c : Cmd) : Nat := c.fld 16 8

/-- The command has ended: its completion waits for its bell (R438). -/
def finishCmd (s : State) (c : Cmd) (status detail : Nat) (a b : Reg) : State :=
  { s with pp := { s.pp with
    cmds := s.pp.cmds.filter fun x => x.id ≠ c.id
    comps := s.pp.comps ++ [{ pipe := c.pipe, role := c.role, status := status, detail := detail, opcode := c.op
                              desc := c.desc, tag := c.tag, token := c.token, resA := a, resB := b }] } }

/-- Complete a command by its id, where it still waits. -/
def finishId (s : State) (id : Option Nat) (status : Nat) (a b : Reg) : State :=
  match id.bind fun i => s.pp.cmds.find? fun c => c.id = i with
  | some c => finishCmd s c status 0 a b
  | none => s

def updCmd (s : State) (id : Nat) (f : Cmd → Cmd) : State :=
  { s with pp := { s.pp with cmds := s.pp.cmds.map fun c => if c.id = id then f c else c } }

end Sys2Proof.Machine
end

