-- ==== Sys2Proof/Machine/Map.lean ====
section
/-! DEFINITION. The map: entries, the map cache, leaf lines and their replicas, stamps and the stamp ceiling, and the
releases that a map change makes (R127 to R157, R228, R359, R361, R369, R374 to R376). -/
namespace Sys2Proof.Machine

/-! ### Entries in the cache -/

def cacheSeg (s : State) (g : Nat) : Option CacheSeg := tget none s.mp.cache g
def setSeg (s : State) (g : Nat) (v : Option CacheSeg) : State :=
  { s with mp := { s.mp with cache := tset none s.mp.cache g v } }

/-- The entry of a page that the cache holds. -/
def entry? (s : State) (page : Nat) : Option MapEntry :=
  (cacheSeg s (segNo page)).bind fun c => c.entries[page % 8]?

/-- A fresh LRU mark (R148). -/
def lruTick (s : State) : State := { s with mp := { s.mp with lruClock := s.mp.lruClock + 1 } }

/-- Write an entry of a cached segment; its map line becomes dirty unless only HEAT changed (R149), and a change
cancels an eviction (R148). -/
def setEntry (s : State) (page : Nat) (e : MapEntry) : State :=
  match cacheSeg s (segNo page) with
  | none => s
  | some c =>
    let old := c.entries.getD (page % 8) {}
    let heatOnly := { old with heatEpoch := e.heatEpoch, heatCount := e.heatCount } = e
    let c := { c with entries := c.entries.set (page % 8) e }
    setSeg s (segNo page) (some
      (if e = old then c
       else if heatOnly then { c with heat := c.heat ||| (1#4 <<< (page % 8 / 2)) }
       else { c with dirty := c.dirty ||| (1#4 <<< (page % 8 / 2)), evicting := false }))

def updEntry (s : State) (page : Nat) (f : MapEntry → MapEntry) : State :=
  match entry? s page with
  | none => s
  | some e => setEntry s page (f e)

/-- Dirty map lines of a segment. -/
def CacheSeg.dirtyLines (c : CacheSeg) : List Nat := (List.range 4).filter fun i => c.dirty.getLsbD i

/-- XLAT_MAPDIRTY.DIRTY: 2 per dirty line. -/
def mapDirty (s : State) : Nat :=
  2 * (s.mp.cache.foldl (fun n x => n + match x.2 with | none => 0 | some c => c.dirtyLines.length) 0)

/-! ### Leaf lines on media (R131 to R134, R146, R151) -/

/-- The replica of a map line on media; none for a blank line. -/
def leafLine? (s : State) (ll k : Nat) : Option LeafLine := tget none s.mp.leaves (ll * 2 + k)
def setLeafLine (s : State) (ll k : Nat) (v : Option LeafLine) : State :=
  { s with mp := { s.mp with leaves := tset none s.mp.leaves (ll * 2 + k) v } }

/-- A replica can be read and written: its rank is not absent (R151). -/
def replicaUp (s : State) (ll k : Nat) : Bool := !rankAbsent s (homeRank s (leafOfLine ll) k)

/-- The line that a fill takes of two replica lines that pass: the one that is not blank, the newer one when both are
written (R146). -/
def newerLine (a b : Option LeafLine) : Option LeafLine :=
  match a, b with
  | none, y => y
  | x, none => x
  | some x, some y => if x.stamp < y.stamp then some y else some x

/-- The line that the readable replicas give, none when blank (R133, R146). -/
def bestLine (s : State) (ll : Nat) : Option LeafLine :=
  newerLine (if replicaUp s ll 0 then leafLine? s ll 0 else none) (if replicaUp s ll 1 then leafLine? s ll 1 else none)

/-- The two entries that a line decodes as. -/
def lineEntries : Option LeafLine → List MapEntry
  | none => [{}, {}]
  | some l => [l.e0, l.e1]

/-- The eight entries of a segment as media hold them. -/
def segEntries (s : State) (g : Nat) : List MapEntry :=
  ((List.range 4).map fun i => lineEntries (bestLine s (g * 4 + i))).flatten

/-- An entry as media hold it. -/
def mediaEntry (s : State) (page : Nat) : MapEntry := (lineEntries (bestLine s (mapLineOf page))).getD (page % 2) {}

/-- The entry of a page: the cache's, or else that of media (R147, R153). -/
def entryNow (s : State) (page : Nat) : MapEntry := (entry? s page).getD (mediaEntry s page)

/-! ### Replacement (R148) -/

/-- Segments cached in a set. -/
def setWays (s : State) (g : Nat) : List (Nat × CacheSeg) :=
  s.mp.cache.filterMap fun x => if mapSet x.1 = mapSet g then x.2.map fun c => (x.1, c) else none

/-- The least recently used of some ways. -/
def lruOf (l : List (Nat × CacheSeg)) : Option Nat :=
  (l.foldl (fun (b : Option (Nat × Nat)) x =>
    match b with
    | none => some (x.1, x.2.lru)
    | some y => if x.2.lru < y.2 then some (x.1, x.2.lru) else some y) none).map (·.1)

/-- The lowest way number that no segment of a set holds. -/
def freeWay (ways : List (Nat × CacheSeg)) : Nat :=
  ((List.range 16).find? fun w => ways.all fun x => x.2.way ≠ w).getD 0

/-- Offset of a cached segment in the map-cache partition (R142, R143). -/
def segOffset (g : Nat) (c : CacheSeg) : Nat := (mapSet g * 16 + c.way) * 256

/-- Choose the dirty way that a waiting segment is to take, unless one of its set is chosen already (R148). -/
def chooseWay (s : State) (g : Nat) : State :=
  let ways := setWays s g
  if ways.any fun x => x.2.evicting then s
  else match lruOf (ways.filter fun x => !x.2.exempt) with
    | some v => setSeg s v ((cacheSeg s v).map fun c => { c with evicting := true })
    | none => s

/-- Put a filled segment into its set: into a free way, else over the least recently used clean way; with only dirty
ways the fill waits and the least recently used of them is chosen for write-back (R148). -/
def putSeg (s : State) (g : Nat) (es : List MapEntry) : State :=
  let s := lruTick s
  let ways := setWays s g
  let new (w : Nat) : CacheSeg := { entries := es, lru := s.mp.lruClock, way := w }
  if ways.length < 16 then setSeg s g (some (new (freeWay ways)))
  else match lruOf (ways.filter fun x => x.2.dirty = 0 && !x.2.exempt) with
    | some v => setSeg (setSeg s v none) g (some (new (((cacheSeg s v).map fun c => c.way).getD 0)))
    | none =>
      chooseWay { s with mp := { s.mp with fills := addNew s.mp.fills g, wayWaits := addNew s.mp.wayWaits g } } g

/-- A look at a cached segment refreshes its LRU mark. -/
def touchSeg (s : State) (g : Nat) : State :=
  match cacheSeg s g with
  | none => s
  | some c => let s := lruTick s; setSeg s g (some { c with lru := s.mp.lruClock })

/-- The entry with which a request proceeds: the cached one, or the line that has returned for a fill that waits for a
way (R148). -/
def entryHere (s : State) (page : Nat) : Option MapEntry :=
  match entry? s page with
  | some e => some e
  | none => if segNo page ∈ s.mp.wayWaits then some (mediaEntry s page) else none

/-- Every change to an entry that is not cached fills it first (R147). -/
def fetchSeg (s : State) (page : Nat) : State :=
  match cacheSeg s (segNo page) with
  | some _ => s
  | none => putSeg s (segNo page) (segEntries s (segNo page))

/-! ### Stamps (R124, R132, R359, R361, R369) -/

/-- The full stamp congruent to STAMP_LO in the window of the page stamp (R124). -/
def fullStamp (lo pageStamp : Nat) : Nat :=
  let base := pageStamp / 2 ^ 40 * 2 ^ 40 + lo
  if pageStamp + 2 ^ 39 ≤ base then base - 2 ^ 40
  else if base + 2 ^ 39 < pageStamp then base + 2 ^ 40 else base

/-- The next stamp may be taken: it stays below STAMP_CEIL - 2^32 (R361). -/
def stampRoom (s : State) (stamp : Nat) : Bool := stamp + 2 ^ 32 < s.ig.stampCeil

/-- Ask for a raise of the ceiling: the record is on its way to the keep store (R361). -/
def askCeiling (s : State) : State :=
  if s.ig.ceilPending then s else { s with ig := { s.ig with ceilPending := true } }

/-- Raise the ceiling by 2^40 and make it durable (R361). -/
def raiseCeiling (s : State) : State :=
  let c := s.ig.stampCeil + 2 ^ 40
  keepPut { s with ig := { s.ig with stampCeil := c, ceilPending := false } } 9 (leBytes 8 c)

def leafStamp (s : State) (L : Nat) : Nat := tget 0 s.ig.leafStamps L
def setLeafStamp (s : State) (L v : Nat) : State :=
  { s with ig := { s.ig with leafStamps := tset 0 s.ig.leafStamps L v } }

/-- A lost entry's treatment: poisoned-whole under the previous stamp ceiling (R308, R361). -/
def lostEntry (ceil : Nat) (e : MapEntry) : MapEntry :=
  { e with state := .poisonedWhole, mask := 0, bisqueHome := none40, glazeHome := none40, stamp := ceil
           poisonRest := false }

/-! ### Released homes (R155, R225, R233) -/

/-- The state that a closed stripe takes for its count of valid slots: RELEASED with none, VICTIM for a bisque stripe below
BISQUE_COMPACT (R235, R254). That a FULL stripe whose last valid slot goes is RELEASED at once, without having been a
victim, is the model's choice (log 103). -/
def settledState (s : State) (st : BsState) (v : Nat) : BsState :=
  if v = 0 ∧ (st = .full ∨ st = .victim ∨ st = .bisque) then .released
  else if st = .bisque ∧ v < bisqueCompact s then .victim else st

/-- VALID falls by one when a home is released, and the stripe's state follows (R235, R254). -/
def releaseSlot (s : State) (slot : Nat) : State :=
  if slot = none40 then s
  else updStripe s (slotBs slot) fun r => { r with valid := r.valid - 1, state := settledState s r.state (r.valid - 1) }

/-- A map entry names a new slot: VALID rises by one. -/
def claimSlot (s : State) (slot : Nat) : State :=
  if slot = none40 then s else updStripe s (slotBs slot) fun r => { r with valid := r.valid + 1 }

/-! ### Stamp slots (R374 to R376) -/

def stampSlot (s : State) (home : Nat) : Option StampSlot := tget none s.ig.slots home
def setStampSlot (s : State) (home : Nat) (v : Option StampSlot) : State :=
  { s with ig := { s.ig with slots := tset none s.ig.slots home v } }

/-- The stamps that the slot of a bisque home holds: the cache's, or else media's (R376: filled first). -/
def slotStamps (s : State) (home : Nat) : List Nat :=
  match stampSlot s home with
  | some x => x.stamps
  | none => (tget none s.ig.mediaSlots home).getD (List.replicate 64 0)

/-- The lines of page entry `e` take their stamps from a stamp slot in tree mode: it has a bisque home (R363, R374). -/
def needsSlot (e : MapEntry) : Bool := e.state ≠ .glaze && e.bisqueHome ≠ none40

/-- The slot of a bisque home can be had: cached, or on media under the entry's PAGE_STAMP (R363, R374). -/
def slotGood (s : State) (e : MapEntry) : Bool :=
  (stampSlot s e.bisqueHome).isSome ||
    ((tget none s.ig.mediaSlots e.bisqueHome).isSome && tget 0 s.ig.slotTags e.bisqueHome = e.stamp)

/-- A slot is written to media, its lines tagged under the PAGE_STAMP current now (R374, R377). -/
def slotToMedia (s : State) (home : Nat) (x : StampSlot) : State :=
  { s with ig := { s.ig with
    mediaSlots := tset none s.ig.mediaSlots home (some x.stamps)
    slotTags := tset 0 s.ig.slotTags home (entryNow s x.page).stamp } }

/-- The cached slots of a home's set (R375). -/
def slotWays (s : State) (home : Nat) : List (Nat × StampSlot) :=
  s.ig.slots.filterMap fun x => if stampSet x.1 = stampSet home then x.2.map fun c => (x.1, c) else none

/-- The way of a home's slot: its own, or the lowest free one of its set (R375). -/
def slotWay (s : State) (home : Nat) : Nat :=
  match stampSlot s home with
  | some x => x.way
  | none => ((List.range 16).find? fun w => (slotWays s home).all fun x => x.2.way ≠ w).getD 0

/-- Offset of a cached slot in the SRAM stack (R375). -/
def slotOffset (home : Nat) (x : StampSlot) : Nat := 0x36000000 + (stampSet home * 16 + x.way) * 512

/-- Make room in the slot's set by write-back of the least recently used way (R375). -/
def slotRoom (s : State) (home : Nat) : State :=
  let ways := slotWays s home
  if (stampSlot s home).isSome || ways.length < 16 then s
  else
    match ways.foldl (fun (b : Option (Nat × StampSlot)) x =>
        match b with | none => some x | some y => if x.2.lru < y.2.lru then some x else some y) none with
    | none => s
    | some v =>
      let s := if v.2.dirty then slotToMedia s v.1 v.2 else s
      setStampSlot s v.1 none

/-- Put the stamps of a page's slot into the cache, dirty (R375, R376). -/
def putStamps (s : State) (home page : Nat) (stamps : List Nat) : State :=
  let s := lruTick (slotRoom s home)
  setStampSlot s home (some { page := page, stamps := stamps, dirty := true, lru := s.mp.lruClock, way := slotWay s home })

/-- A read in tree mode uses the page's slot: it becomes the most recently used, and one that is not cached is filled
(R375, R380). -/
def useSlot (s : State) (page : Nat) (e : MapEntry) (tree : Bool) : State :=
  if !tree || !needsSlot e || !slotGood s e then s
  else
    let x := (stampSlot s e.bisqueHome).getD { page := page, stamps := slotStamps s e.bisqueHome }
    let s := lruTick (slotRoom s e.bisqueHome)
    setStampSlot s e.bisqueHome (some { x with lru := s.mp.lruClock, way := slotWay s e.bisqueHome })

/-- A slot is released with its bisque home (R376). -/
def dropStamps (s : State) (home : Nat) : State :=
  let s := setStampSlot s home none
  { s with ig := { s.ig with
    mediaSlots := tset none s.ig.mediaSlots home none, slotTags := tset 0 s.ig.slotTags home 0 } }

/-! ### The effective regime (R500, R501) -/

/-- The migration whose range holds a page. -/
def migOf (s : State) (page : Nat) : Option (Nat × MigSlot) :=
  s.mp.mig.find? fun x => x.2.valid && x.2.kind ≠ 4 && decide (x.2.base ≤ page / 2 ^ 18) && decide (page / 2 ^ 18 < x.2.base + x.2.size)

/-- A leaf of a migration's range is past its switch beat. -/
def leafSwitched (m : MigSlot) (L : Nat) : Bool :=
  decide (L < m.base * 2048 + (m.doneLeaves - m.passBase)) || L ∈ m.switched

/-- The leaf of a page is being converted: in progress and before its switch beat (R506). -/
def inSwitch (s : State) (page : Nat) : Bool :=
  match migOf s page with
  | some (_, m) => leafOf page ∈ m.active && !leafSwitched m (leafOf page)
  | none => false

/-- The page is converted (R501). -/
def converted (m : MigSlot) (page : Nat) (e : MapEntry) : Bool :=
  if e.state = .unmapped then leafSwitched m (leafOf page) else e.regime = m.target

/-- Integrity mode (true: tree) and key domain under which a page is read and written (R28, R501). -/
def pageAttrs (s : State) (page : Nat) (e : MapEntry) : Bool × Nat :=
  let live := ((pageRegion s page).map fun n => ((region s n).tree, (region s n).domain)).getD (false, 0)
  match migOf s page with
  | some (_, m) => if converted m page e then live else (m.oldTree, m.oldDomain)
  | none => live

/-- REGIME of a page that becomes mapped (R500, R501). -/
def newFlag (s : State) (page : Nat) : Bool :=
  match migOf s page with
  | some (_, m) => if leafSwitched m (leafOf page) then m.target else !m.target
  | none => ((pageRegion s page).map fun n => (region s n).regime).getD false

/-- The page is under tree mode (R363, R501). -/
def pageTree (s : State) (page : Nat) : Bool := (pageAttrs s page (entryNow s page)).1

/-! ### Heat (R228, R229) -/

/-- Decayed heat of an entry in epoch E. -/
def decayedHeat (E : Nat) (e : MapEntry) : Nat :=
  let d := (E + 16 - e.heatEpoch) % 16
  if 12 ≤ d then 0 else e.heatCount / 2 ^ d

def setHeat (E c : Nat) (e : MapEntry) : MapEntry := { e with heatCount := c, heatEpoch := E % 16 }
/-- A drain of n lines (R228). -/
def drainHeat (E n : Nat) (e : MapEntry) : MapEntry := setHeat E (min (decayedHeat E e + n) 4095) e

/-! ### Lines that leave the poison list (R310, R311) -/

/-- A cleared line leaves the list, which may split a record (R310, R311). -/
def poisonLeave (s : State) (dpa : Nat) : State :=
  { s with ecc := { s.ecc with poison := (s.ecc.poison.map fun r =>
      if r.dpa ≤ dpa ∧ dpa < r.dpa + 64 * r.lines then
        let k := (dpa - r.dpa) / 64
        (if k = 0 then [] else [{ r with lines := k }]) ++
          (if k + 1 < r.lines then [{ r with dpa := dpa + 64, lines := r.lines - k - 1 }] else [])
      else [r]).flatten } }

/-- Every line of a page leaves the list. -/
def poisonLeavePage (s : State) (page : Nat) : State :=
  { s with ecc := { s.ecc with poison := s.ecc.poison.filter fun r => pageOf r.dpa ≠ page } }

/-! ### Transitions of an entry that give its homes up (R130) -/

/-- The whole page is left without homes, keeping its stamp (R130, R359). -/
def unmapPage (s : State) (page : Nat) (st : PageState) : State :=
  match entry? s page with
  | none => s
  | some e =>
    let s := setEntry s page { e with
      state := st, mask := 0, bisqueHome := none40, glazeHome := none40, secure := false, poisonRest := false
      refresh := false, tally := 0 }
    let s := if e.bisqueHome = none40 then s else dropStamps s e.bisqueHome
    releaseSlot (releaseSlot s e.bisqueHome) e.glazeHome

/-- A page's plain discard is due its drop, which completes before any write or move of the page (R130, R255); the
poison of lines that no later write holds is cleared (R310). -/
def dropPage (s : State) (page : Nat) : State :=
  match entry? s page with
  | some e =>
    if e.state = .discardPending then
      let s := unmapPage s page .unmapped
      let s := (List.range 64).foldl (fun s i => if (sagLine s page i).isSome then s else poisonLeave s (dpaOf page i)) s
      { s with pl := { s.pl with dropsDue := s.pl.dropsDue.filter (· ≠ page) } }
    else s
  | none => s

end Sys2Proof.Machine
end

