-- ==== Sys2Proof/Machine/Ecc.lean ====
section
/-! DEFINITION. What the two codes, the tag and the freshness chain decide of a sensed line, how corrections are
counted, and how a poisoned line is listed, reported and marked (R126, R175 to R178, R288 to R313, R323, R325, R363). -/
namespace Sys2Proof.Machine

/-! ### Positions in service (R106, R293, R323, R325) -/

/-- A rebuild target's bit for a stripe is set (R325). -/
def rebuiltFor (s : State) (n bs : Nat) : Bool :=
  let w := linkWear s n
  (w.allBits && bs ∉ w.changedOut) || bs ∈ w.linkBits

/-- The die of link n that holds die position d: die 16 when it substitutes there (R324). -/
def dieFor (s : State) (n d : Nat) : Nat :=
  let w := linkWear s n
  if w.subst && w.substDie = d then 16 else d

/-- The block of a stripe on a link is retired: grown, or in the package's factory list (R78, R321). -/
def blockRetired (s : State) (n bs : Nat) : Bool :=
  let b := (dieFor s n (bsDie bs), bsBlock bs)
  b ∈ (linkWear s n).grown || (match (link s n).pkg with | some p => decide (b ∈ p.bbl) | none => false)

/-- The position's segment of a stripe is out of service: a lost link, a REBUILDING link not rebuilt there, a failed
die whose substitute is not rebuilt there, or a retired block (R293). -/
def posOut (s : State) (bs pos : Nat) : Bool :=
  let n := rankLink (bsRank bs) pos
  let w := linkWear s n
  !(link s n).state.serves ||
  ((link s n).state = .rebuilding && !rebuiltFor s n bs) ||
  (bsDie bs ∈ w.erased) ||
  (w.subst && w.substDie = bsDie bs && bs ∉ w.dieBits && w.dieActive) ||
  blockRetired s n bs

/-- Positions of a stripe out of service. -/
def outPositions (s : State) (bs : Nat) : List Nat := (List.range 18).filter (posOut s bs)

/-! ### The first attempt at a line (R126, R175, R288, R289, R362, R363) -/

/-- What the check of one sensed line says. -/
inductive LineCheck
  | good (r : LineRec) (corrected : Nat)
  | lineFail (corrected : Nat)
  | tagFail (fresh : Bool) (corrected : Nat)
  | erased (linkCheck : Bool)
  deriving DecidableEq, Repr

/-- Bits [10u+9:10u] of an identity, u = line index mod 4 (R122, R126). -/
def identPart (ident line : Nat) : Nat := ident / 2 ^ (10 * (line % 4)) % 1024

/-- The stamp that tree mode expects of a line; none in tag mode (R363). -/
def expectStamp (s : State) (e : MapEntry) (tree : Bool) (line : Nat) : Option Nat :=
  if !tree then none
  else if !needsSlot e then some e.stamp
  else some (nth (slotStamps s e.bisqueHome) line)

/-- The stamp slot of a tree-mode page cannot be had under PAGE_STAMP, so none of its lines is fresh (R363, R381). -/
def slotStale (s : State) (e : MapEntry) (tree : Bool) : Bool := tree && needsSlot e && !slotGood s e

/-- Key 18 of a report is the stamp-slot line that was sensed beside the data line and failed after its own escalation: the
page's slot is not had, and every line of the page reads as poison (R380, R381, log 24). -/
def slotLost (s : State) (e : MapEntry) (tree : Bool) (others : List (Nat × Sensed)) : Bool :=
  tree && needsSlot e && (stampSlot s e.bisqueHome).isNone &&
    others.any fun x => x.1 = 18 && (match x.2 with | .bits n => decide (6 < n) | _ => true)

/-- The tag of a host line holds: keys of the line's domain present and current, the line's own identity and index,
and the stamp as R124 rebuilds it (R355, R357, R358, R362). -/
def tagHolds (s : State) (r : LineRec) (page line pageStamp : Nat) : Bool :=
  (domainKey s r.domain).present && r.keyVer = (domainKey s r.domain).keyVer && r.ident = page && r.line = line &&
    fullStamp (r.stamp % 2 ^ 40) pageStamp = r.stamp && !r.mapdata

/-- What a sensed line is held against: the image on media, PAGE_STAMP, and in tree mode the stamp expected. -/
structure Aim where
  img : Img := .blank
  stamp : Nat := 0
  expect : Option Nat := none
  stale : Bool := false

/-- The aim of a line as the map stands now. -/
def aimAt (s : State) (e : MapEntry) (tree : Bool) (slot line : Nat) : Aim :=
  { img := mediaImg s slot line, stamp := e.stamp, expect := expectStamp s e tree line, stale := slotStale s e tree }

/-- The aim that a read took at its lookup (R28, R166, R176). -/
def Rd.aim (r : Rd) : Aim := { img := r.img, stamp := r.taken.stamp, expect := r.expect, stale := r.stale }

/-- The line as an intact image decodes: tag, then freshness. -/
def checkRec (s : State) (a : Aim) (r : LineRec) (page line n : Nat) : LineCheck :=
  if identPart r.ident line ≠ identPart page line ∨ r.line ≠ line then .lineFail n
  else if !tagHolds s r page line a.stamp then .tagFail false n
  else if a.stale then .tagFail true n
  else match a.expect with
    | none => .good r n
    | some x => if r.stamp = x then .good r n else .tagFail true n

/-- The check of line `line` of `page` sensed against an aim. -/
def checkLine (s : State) (a : Aim) (page line : Nat) (o : Sensed) : LineCheck :=
  match o with
  | .erasure lc => .erased lc
  | .wrongWord ident l _ c =>
    if identPart ident line = identPart page line ∧ l = line then .tagFail false c else .lineFail c
  | .bits n =>
    if 6 < n then .lineFail 0
    else match a.img with
      | .line r => checkRec s a r page line n
      | _ => .lineFail 0

/-- The parity of a line's column group is out of step (R223). -/
def parityBad (s : State) (slot line : Nat) : Bool := decide (slot * 4 + line % 4 ∈ s.mp.parityStale)

/-- The line record that an image gives, its stripe's decode counted in: an image left undefined by a cut gives the old
line while the parity of its column group is in step (R222, R223). -/
def imgLine (s : State) (slot line : Nat) (i : Img) : Option LineRec :=
  match i with
  | .line r => some r
  | .torn (some r) => if parityBad s slot line then none else some r
  | _ => none

/-- The line record that a slot's line gives. -/
def mediaLine (s : State) (slot line : Nat) : Option LineRec := imgLine s slot line (mediaImg s slot line)

/-! ### Escalation (R177, R178, R293, R294) -/

/-- Outcomes of an escalation. -/
inductive Escalated
  | good (r : LineRec) (counted : Bool)
  | tagFail (fresh : Bool)
  | fail
  | transient
  deriving DecidableEq, Repr

/-- An image of another position of the group: does it fail, fail for a link check only, or hide an unknown error?
A wrong word at a data position is taken as found by R126 unless its identity part and line agree. -/
def otherFails (page line : Nat) (p : Nat) : Sensed → Bool
  | .erasure _ => true
  | .bits n => decide (6 < n)
  | .wrongWord i l _ _ => p < 16 && !(identPart i line = identPart page line && l % 4 = line % 4)
def otherHides (page line : Nat) (p : Nat) (o : Sensed) : Bool :=
  match o with
  | .wrongWord _ _ _ _ => !otherFails page line p o
  | _ => false
def otherLinkOnly : Sensed → Bool
  | .erasure lc => lc
  | _ => false

/-- Decode of the column group after the target's first attempt `t`, with what the other positions returned
(positions not named returned intact images). Hidden errors are images that decode to a wrong word unnoticed: alone
they are found by step 6 of R294, beside one erasure the decode fails, beside two it yields a line that fails its
tag. A column group whose parity is out of step decodes nothing (R223). -/
def escalate (s : State) (a : Aim) (slot page line : Nat) (t : LineCheck)
    (others : List (Nat × Sensed)) : Escalated :=
  let bs := slotBs slot
  let seg := segmentOf line
  let out := outPositions s bs
  let others := others.filter fun x => x.1 ≠ seg && x.1 ∉ out && x.1 < 18
  let failing := others.filter fun x => otherFails page line x.1 x.2
  let targetFails := match t with | .lineFail _ => true | .erased _ => true | _ => false
  let targetLink := match t with | .erased lc => lc | _ => false
  let extra := if targetFails && seg ∉ out then 1 else 0
  let erasures := out.length + failing.length + extra
  let hard := out.length + (failing.filter fun x => !otherLinkOnly x.2).length + (if targetLink then 0 else extra)
  let content := match (if parityBad s slot line then none else imgLine s slot line a.img) with
    | some r => match checkRec s a r page line 0 with
      | .good r _ => .good r (targetFails && !targetLink || failing.any fun x => !otherLinkOnly x.2)
      | .tagFail f _ => .tagFail f
      | _ => .fail
    | none => .fail
  let targetHides := match t, content with | .tagFail _ _, .good _ _ => 1 | _, _ => 0
  let hidden := (others.filter fun x => otherHides page line x.1 x.2).length + targetHides
  if 2 < erasures then (if hard ≤ 2 && hidden = 0 then .transient else .fail)
  else if erasures = 2 then (if hidden = 0 then content else .tagFail false)
  else if erasures = 1 then (if hidden = 0 then content else .fail)
  else if hidden ≤ 1 then content
  else .fail

/-! ### Counting corrections (R295 to R298) -/

/-- One event in the rank's leaky bucket; a rise of its bit raises one bucket-overflow event (R296, R297). -/
def bucketEvent (s : State) (r : Nat) : State :=
  let s := updEcc s r fun x => { x with corrected := satAdd 32 x.corrected 1 }
  let s := count s (1 + r) 0x105 0xFF 1
  if (rankEcc s r).level < bucketCap s then updEcc s r fun x => { x with level := x.level + 1 }
  else
    let s := updEcc s r fun x => { x with ovfCount := satAdd 16 x.ovfCount 1 }
    if s.ecc.ovf.getLsbD r then s
    else raise { s with ecc := { s.ecc with ovf := s.ecc.ovf ||| (1#64 <<< r) } } 0x32 r 0 0 0 0

/-- A correction event on a line of a page: the bucket, the page's TALLY, and a refresh at TALLY_MAX (R295, R298,
R299). -/
def correctionEvent (s : State) (rank page : Nat) : State :=
  let s := fetchSeg (bucketEvent s rank) page
  match entry? s page with
  | none => s
  | some e =>
    let t := min 255 (e.tally + 1)
    let queue := tallyMax s ≤ t && !e.secure
    let s := setEntry s page { e with tally := t, refresh := e.refresh || queue }
    if queue then { s with pl := { s.pl with refreshes := addNew s.pl.refreshes page } } else s

/-- A page's refresh is queued at once (R303). -/
def queueRefresh (s : State) (page : Nat) : State :=
  let s := updEntry (fetchSeg s page) page fun e => if e.secure then e else { e with refresh := true }
  { s with pl := { s.pl with refreshes := addNew s.pl.refreshes page } }

/-! ### The poison list (R311, R312) -/

def poisonHas (s : State) (dpa : Nat) : Bool := s.ecc.poison.any fun r => r.dpa ≤ dpa && dpa < r.dpa + 64 * r.lines

/-- Enter one line: merged with an adjacent record of its page and source; a full list overflows. -/
def poisonEnter (s : State) (dpa : Nat) (src : PoisonSource) : State :=
  if poisonHas s dpa then s
  else
    let near (r : PoisonRec) : Bool := r.source = src && pageOf r.dpa = pageOf dpa
    let before := s.ecc.poison.find? fun r => near r && r.dpa + 64 * r.lines = dpa
    let after := s.ecc.poison.find? fun r => near r && r.dpa = dpa + 64
    let rest := s.ecc.poison.filter fun r => some r ≠ before && some r ≠ after
    let start := (before.map (·.dpa)).getD dpa
    let n := (before.map (·.lines)).getD 0 + 1 + (after.map (·.lines)).getD 0
    if 16384 ≤ rest.length then
      { s with ecc := { s.ecc with poisonOvf := true, poisonOvfTime := (hostTime s).toNat } }
    else { s with ecc := { s.ecc with poison := rest ++ [{ dpa := start, lines := n, source := src }] } }

/-- The parameters P2 of a poison or tag-failure event: rank, link position, die position, transaction type (R670). -/
def poisonP2 (rank pos die tx : Nat) : Nat := rank % 256 + 256 * (pos % 256) + 65536 * (die % 256) + 16777216 * (tx % 256)

/-- Transaction types of R670. -/
def txRead : Nat := 0
def txFill : Nat := 1
def txScan : Nat := 2
def txInternal : Nat := 3

/-! ### Where a line reads from (R128) -/

inductive LineSource
  | zeros
  | poison
  | media (slot : Nat) (bisque : Bool)
  deriving DecidableEq, Repr

/-- The source of line i by the page's state, homes and mask; `old` chooses for a discard-pending page (R129). -/
def lineSource (e : MapEntry) (i : Nat) (old : Bool) : LineSource :=
  let byHomes : LineSource :=
    if e.mask.getLsbD i then .media e.bisqueHome true
    else if e.glazeHome ≠ none40 then .media e.glazeHome false
    else if e.poisonRest then .poison else .zeros
  match e.state with
  | .unmapped => .zeros
  | .glaze => .media e.glazeHome false
  | .split => if e.mask.getLsbD i then .media e.bisqueHome true else .media e.glazeHome false
  | .bisqueWhole =>
    if e.mask.getLsbD i then .media e.bisqueHome true else if e.poisonRest then .poison else .zeros
  | .poisonedWhole => .poison
  | .discardPending => if old then byHomes else .zeros

/-! ### Marking (R306, R307, R309, R313) -/

/-- Internal lines whose targets are map lines and tree nodes (R191). -/
def engineLines (s : State) : Nat := s.mp.writeBacks.length + 64 * s.ig.heldNodes.length

/-- Internal lines in use (R191 to R193). -/
def internalUsed (s : State) : Nat :=
  (s.sag.lines.filter fun x => match x.2 with | some l => l.internal | none => false).length + engineLines s

/-- Place the poison marker of a line as an internal saggar line, unless a saggar line of it exists; with the reserve full
it waits (R193, R307, R309). -/
def placeMarker (s : State) (page line domain : Nat) : State :=
  match sagLine s page line with
  | some _ => s
  | none =>
    if 16384 ≤ internalUsed s then { s with sag := { s.sag with
      markers := if (page, line, domain) ∈ s.sag.markers then s.sag.markers else s.sag.markers ++ [(page, line, domain)] } }
    else setSagLine s page line (some
      { page := page, line := line, mask := BitVec.allOnes 64, domain := domain, filled := true, poison := true
        internal := true, norank := false, pooled := false, last := s.clk.beat, idx := newIdx s })

/-- Markers that waited for the reserve are placed as it frees (R193). -/
def placeWaiting (s : State) : State :=
  s.sag.markers.foldl (fun s m => placeMarker s m.1 m.2.1 m.2.2) { s with sag := { s.sag with markers := [] } }

/-- A line of a page cannot be read: its image on media gives no line with a good tag, or the line is poison already (R307). -/
def lineUnreadable (s : State) (e : MapEntry) (page line : Nat) : Bool :=
  (sagLine s page line).isNone && match lineSource e line true with
    | .zeros => false
    | .poison => true
    | .media slot _ => match mediaLine s slot line with
      | some r => !tagHolds s r page line e.stamp
      | none => true

/-- No line of a mapped page can be read and no firing holds the page, so the whole-page path of marking applies (R130,
R307). -/
def pageUnreadable (s : State) (page : Nat) : Bool :=
  let e := entryNow s page
  (e.state = .glaze || e.state = .split || e.state = .bisqueWhole) && !e.secure &&
    !(s.pl.ranks.any fun x => x.2.firings.any fun f => f.pages.any fun p => p.page = page) &&
    (List.range 64).all (lineUnreadable s e page)

/-- Whole-page poisoning: poisoned-whole, the homes released (R130, R307). -/
def poisonWhole (s : State) (page : Nat) : State :=
  let s := unmapPage (fetchSeg s page) page .poisonedWhole
  (List.range 64).foldl (fun s i => poisonEnter s (dpaOf page i) .internal) s

/-- A live line is found poisoned from media (R306, R307, R311, R313): the list, the count of its rank, the poison event and
General Media record, and the marker by the mask path, or the whole page where none of its lines can be read. -/
def poisonFromMedia (s : State) (page line slot tx : Nat) : State :=
  if poisonHas s (dpaOf page line) then s
  else
    let r := slotRank slot
    let s := poisonEnter s (dpaOf page line) .internal
    let s := updEcc s r fun x => { x with uncorrectable := satAdd 32 x.uncorrectable 1 }
    let s := raiseAddr s 0x34 r (dpaOf page line) (poisonP2 r (segmentOf line) (bsDie (slotBs slot)) tx)
    if pageUnreadable s page then poisonWhole s page else placeMarker s page line (entryNow s page).domain

/-- A tag that fails after decoding raises the security event of R178; a freshness failure raises its own (R363). -/
def securityEvent (s : State) (page line slot tx : Nat) (fresh : Bool) : State :=
  let r := slotRank slot
  if fresh then
    raiseAddr { s with ig := { s.ig with freshFail := satAdd 32 s.ig.freshFail 1 } } 0x51 r page 0
  else raiseAddr s 0x50 r (dpaOf page line) (poisonP2 r (segmentOf line) (bsDie (slotBs slot)) tx)

/-- The current value of a line as a firing, a move or a refresh reads it, media decoding taken as successful unless
the line holds no good image: data and poison flag (R239 step 2). -/
def currentLine (s : State) (e : MapEntry) (page line : Nat) : LineData × Bool :=
  match lineSource e line true with
  | .zeros => (0, false)
  | .poison => (0, true)
  | .media slot _ =>
    match mediaLine s slot line with
    | some r => if tagHolds s r page line e.stamp then (if r.poison then (0, true) else (r.data, false)) else (0, true)
    | none => (0, true)

end Sys2Proof.Machine
end

