-- ==== Sys2Proof/Machine/Senses.lean ====
section
/-! DEFINITION. The senses that host reads and fills need of the media links, and the order in which a link's READ fields
and SENSE entries go to them (R29, R95, R145, R169 to R173, R177, R179, R205, R379, R380). -/
namespace Sys2Proof.Machine

/-- Two senses bring the same image (R169). -/
def Sense.same (x y : Sense) : Bool := x.kind = y.kind && x.slot = y.slot && x.line = y.line

/-- The sense of an entry that is due to return in slot 1. -/
def Entry.sense? : Entry → Option Sense
  | .sense x _ => some x
  | _ => none

/-- A sense of the same image waits on the link, or its return is due (R169). -/
def senseThere (l : LinkRec) (x : Sense) : Bool :=
  l.waiting.any x.same || (l.due0.any fun d => x.same d.2) ||
    l.due1.any fun d => match d.2.sense? with | some y => x.same y | none => false

/-- A sense joins those that wait on a serving link; one for the same image serves both (R169). -/
def addSense (s : State) (n : Nat) (x : Sense) : State :=
  if (link s n).state.serves && !senseThere (link s n) x then updLink s n fun l => { l with waiting := l.waiting ++ [x] } else s

/-- LINE of the READ field for a line of a slot (R87, R120). -/
def lineName (slot line : Nat) (bisque : Bool) : Nat := if bisque then bisqueLine line else glazeLine slot line

/-- The data read of a line (R170). -/
def senseLine (s : State) (slot line : Nat) (bisque : Bool) (x : Sense) : State :=
  addSense s (rankLink (slotRank slot) (segmentOf line)) { x with slot := slot, line := lineName slot line bisque }

/-- The senses of an escalation or of a direct erasure read: the matching image on every other in-service link (R177,
R179). -/
def senseStripe (s : State) (slot line : Nat) (bisque : Bool) (x : Sense) : State :=
  ((List.range 18).filter fun q => q ≠ segmentOf line && !posOut s (slotBs slot) q).foldl (fun s q =>
    addSense s (rankLink (slotRank slot) q) { x with kind := .erasure, slot := slot, line := lineName slot line bisque }) s

/-- The leaf fetches of a miss, on every replica that can be read, and in tree mode the level-A node's, unless its image is
held (R145, R170, R371, R379). -/
def senseMap (s : State) (page : Nat) : State :=
  let L := leafOf page
  let j := mapLineOf page % 64
  let x : Sense := { due := s.clk.beat, age := s.clk.beat, whole := true }
  let s := ([0, 1].filter (replicaUp s (mapLineOf page))).foldl (fun s k =>
    addSense s (rankLink (homeRank s L k) (segmentOf j)) { x with kind := .leaf, slot := leafHome s L k, line := bisqueLine j }) s
  if !pageTree s page || nodeOf L ∈ s.ig.heldNodes then s
  else
    let i := L % 512 / 8
    ([0, 1].filter fun k => !rankAbsent s (homeRank s (nodeOf L) k)).foldl (fun s k =>
      addSense s (rankLink (homeRank s (nodeOf L) k) (segmentOf i))
        { x with kind := .node, whole := false, slot := nodeHome s (nodeOf L) k, line := bisqueLine i }) s

/-- The stamp-slot line sensed together with a data read whose page's slot is not cached (R373, R380). -/
def senseStamp (s : State) (e : MapEntry) (tree : Bool) (line : Nat) (x : Sense) : State :=
  if !tree || !needsSlot e || (stampSlot s e.bisqueHome).isSome then s
  else
    let h := stampHome e.bisqueHome
    let i := 8 * h.2 + line / 8
    addSense s (rankLink (slotRank e.bisqueHome) (segmentOf i))
      { x with slot := slotNo (slotBs e.bisqueHome) h.1 0, line := bisqueLine i }

/-- Senses of an image leave a link's waiting list: its work has ended. -/
def dropSense (s : State) (n : Nat) (x : Sense) : State :=
  if (link s n).waiting.any x.same then updLink s n fun l => { l with waiting := l.waiting.filter fun y => !x.same y } else s

/-! ### Which sense comes next (R172, R173) -/

/-- The place of a kind in the order of R172. -/
def SenseKind.order : SenseKind → Nat
  | .leaf => 0 | .node => 1 | .erasure => 2 | .data => 3

/-- Map fetches press: they never yield (R171). -/
def SenseKind.presses : SenseKind → Bool
  | .leaf => true
  | .node => true
  | _ => false

/-- Waiting senses in the order in which READ fields go to them: by kind, within a kind the oldest first, within a beat in
order of arrival (R172, R173). -/
def readOrder (l : List Sense) : List Sense :=
  sortBy (fun x y => x.kind.order < y.kind.order || (x.kind.order = y.kind.order && x.age ≤ y.age)) l

/-- The die and plane that a sense addresses on a link. -/
def senseAt (s : State) (n : Nat) (x : Sense) : Nat × Nat := (dieFor s n (bsDie (slotBs x.slot)), bsPlane (slotBs x.slot))

/-- A link holds a data read that was not commanded within one frame of its earliest frame (R165). -/
def lateReads (s : State) : Bool :=
  s.ln.links.any fun l => l.2.waiting.any fun x => x.kind = .data && x.tag.isSome && decide (x.due + 1 < s.clk.beat)

end Sys2Proof.Machine
end

