-- ==== Sys2Proof/Machine/Saggar.lean ====
section
/-! DEFINITION. The saggar: capacity shares, charging, admission of writes, fills, and bisque slots for drains
(R191 to R209, R231 to R235, R318). -/
namespace Sys2Proof.Machine

/-! ### Shares (R192, R195, R196) -/

def guarantee (s : State) : Nat := s.sag.dirtyLimit / 128
def poolLines (s : State) : Nat := s.sag.dirtyLimit - 16384 - s.mp.pop.length * guarantee s - s.sag.poolCut
def highWater (s : State) : Nat := poolLines s - 800

/-- Saggar lines that satisfy a test. -/
def sagCount (s : State) (f : SagLine → Bool) : Nat :=
  (s.sag.lines.filter fun x => match x.2 with | some l => f l | none => false).length

def sagUsed (s : State) : Nat := s.sag.lines.length + engineLines s
def poolUsed (s : State) : Nat := sagCount s fun l => !l.internal && l.pooled
def ownUsed (s : State) (r : Nat) : Nat := sagCount s fun l => !l.internal && !l.pooled && l.rank = r
def pooledOf (s : State) (r : Nat) : Nat := sagCount s fun l => !l.internal && l.pooled && !l.norank && l.rank = r
def poolFree (s : State) : Nat := poolLines s - poolUsed s

/-- The rank that a page's lines are charged to: that of its bisque home, else of its glaze home (R193). -/
def chargeRank (e : MapEntry) : Option Nat :=
  if e.bisqueHome ≠ none40 then some (slotRank e.bisqueHome)
  else if e.glazeHome ≠ none40 then some (slotRank e.glazeHome) else none

/-- Charge a line to a rank: a guaranteed line while any remain, otherwise a pooled one (R193). -/
def charge (s : State) (l : SagLine) (r : Option Nat) : SagLine :=
  match r with
  | none => { l with pooled := true, norank := true, rank := 63 }
  | some r =>
    if ownUsed s r < guarantee s then { l with pooled := false, norank := false, rank := r }
    else { l with pooled := true, norank := false, rank := r }

/-- The entry of a page has arrived: its uncharged lines are charged to the rank that it names (R193). -/
def rechargePage (s : State) (page : Nat) : State :=
  match (entry? s page).bind chargeRank with
  | none => s
  | some r => (List.range 64).foldl (fun s i =>
      match sagLine s page i with
      | some l => if l.norank && !l.internal then setSagLine s page i (some (charge s l (some r))) else s
      | none => s) s

/-! ### Bytes under a mask -/

/-- 8 bits of ones for each enabled byte. -/
def byteMask (be : BitVec 64) : BitVec 512 :=
  (List.range 64).foldl (fun acc i => if be.getLsbD i then acc ||| (0xFF#512 <<< (8 * i)) else acc) 0
/-- Enabled bytes take the new value. -/
def mergeBytes (old new : LineData) (be : BitVec 64) : LineData :=
  (old &&& ~~~ byteMask be) ||| (new &&& byteMask be)

/-- GEN advances by one modulo 4, but never onto the value that a drain or firing holding the line recorded (R200). -/
def genNext (l : SagLine) : Nat :=
  let g := (l.gen + 1) % 4
  if l.held = some g then l.gen else g

/-! ### Fills (R205 to R208) -/

/-- Reads waiting for a line's fill take its value under the bytes that were written before them, or poison (R166, R168). -/
def wakeReads (s : State) (page line : Nat) (v : Option LineData) : State :=
  let wake (r : Rd) : Rd := match r.stage with
    | .waitFill m d bad =>
      if r.page = page && r.line = line then { r with stage := (match v with
        | some x => if bad then .done 0 true else .done (mergeBytes x d m) false
        | none => .done 0 true) }
      else r
    | _ => r
  { s with hq := { s.hq with reads := s.hq.reads.map wake } }

/-- Reads that wait for a line's fill. -/
def fillWaiters (s : State) (page line : Nat) : Nat :=
  (s.hq.reads.filter fun r => match r.stage with
    | .waitFill _ _ _ => r.page = page && r.line = line
    | _ => false).length

/-- A fill ends in a value or, with none, in poison (R205 to R207). -/
def finishFill (s : State) (page line : Nat) (v : Option LineData) : State :=
  match sagLine s page line with
  | none => s
  | some l =>
    let l' : SagLine :=
      if l.mask = BitVec.allOnes 64 then { l with fill := false, retry := false }
      else match v with
        | some d => { l with fill := false, filled := true, retry := false, data := mergeBytes d l.data l.mask }
        | none => { l with fill := false, filled := true, retry := false, poison := true }
    wakeReads (setSagLine s page line (some l')) page line v

/-- A fill ended in the transient outcome: the line waits for the fill to be issued again, or is whole by now; each read
that waited completes with poison and a transient-loss event of its own (R206, R207). -/
def fillTransient (s : State) (page line slot : Nat) : State :=
  match sagLine s page line with
  | none => s
  | some l =>
    let whole := l.mask = BitVec.allOnes 64
    let k := fillWaiters s page line
    let s := (List.range k).foldl (fun s _ =>
      raise s 0x24 (slotRank slot) (rankLink (slotRank slot) (segmentOf line)) 0 0 0) s
    wakeReads (setSagLine s page line (some { l with fill := !whole, retry := !whole })) page line none

/-- Sources of a fill that need no media access, taken from the entry when the cache holds it (R205, R260). -/
def fillFromEntry (s : State) (page line : Nat) : State :=
  match sagLine s page line, entry? s page with
  | some l, some e =>
    if !l.fill then s
    else if e.secure then finishFill s page line (some 0)
    else match lineSource e line false with
      | .zeros => finishFill s page line (some 0)
      | .poison => finishFill s page line none
      | .media _ _ => s
  | _, _ => s

/-- The media read of a fill that is still pending enters the waiting senses, the map lines' before it (R205). -/
def senseFill (s : State) (page line : Nat) : State :=
  match sagLine s page line, entry? s page with
  | some l, some e =>
    (match l.fill, lineSource e line false with
    | true, .media slot b => senseLine s slot line b { due := s.clk.beat, age := s.clk.beat }
    | _, _ => s)
  | some l, none => if l.fill then senseMap s page else s
  | none, _ => s

/-! ### Admission of a write (R187 to R208) -/

/-- What one write leaves in its line's entry (R199, R200, R202, R204, R208). -/
def writeInto (s : State) (l : SagLine) (be : BitVec 64) (data : LineData) (poison : Bool) (domain : Nat) : SagLine :=
  let full := be = BitVec.allOnes 64
  { l with
    data := mergeBytes l.data data be
    mask := l.mask ||| be
    gen := genNext l
    last := s.clk.beat
    domain := domain
    internal := false
    poison := if full then poison else l.poison || poison }

/-- A write reaches its completion point in its admission beat (R188, R194, R199, R204, R205): merged into its line, or
a new line charged by its entry; a partial write that leaves bytes unknown starts the background fill. -/
def saggarWrite (s : State) (page line : Nat) (be : BitVec 64) (data : LineData) (poison : Bool) (domain : Nat) :
    State :=
  if be = 0 && !poison then s
  else
    let rank := (entry? s page).bind chargeRank
    let l := match sagLine s page line with
      | some l => if l.internal then charge s (writeInto s l be data poison domain) rank else writeInto s l be data poison domain
      | none => writeInto s (charge s { page := page, line := line, idx := newIdx s } rank) be data poison domain
    let needs := l.mask ≠ BitVec.allOnes 64 && !l.fill && !l.filled
    let s := setSagLine s page line (some { l with fill := l.fill || needs })
    let s := if poison then poisonEnter s (dpaOf page line) .external else s
    if needs then senseFill (fillFromEntry s page line) page line else s

/-! ### Bisque slots (R231 to R235, R318, R373) -/

/-- Blocks from BZ_FIRST on belong to the breath zone, the table's media copy, the tree and the map (R135, R368,
R536). -/
def bzFirst (s : State) : Nat := 5120 - s.mp.mapBlks - s.mp.treeBlks - 4

/-- The state of a stripe, the system areas counted in (R225). -/
def bsState (s : State) (bs : Nat) : BsState :=
  let r := stripe s bs
  if s.mp.mapN ≠ 0 && bzFirst s ≤ bsBlock bs && r.state ≠ .retired then .system else r.state

/-- Listed stripes of a rank outside the system areas; every other stripe of the rank still has its reset record. -/
def rankStripes (s : State) (r : Nat) : List (Nat × BsRec) :=
  s.pl.stripes.filter fun x => bsRank x.1 = r && bsState s x.1 ≠ .system

/-- Listed stripes of a rank outside the fixed system areas. -/
def hostListed (s : State) (r : Nat) : List (Nat × BsRec) :=
  s.pl.stripes.filter fun x => bsRank x.1 = r && (s.mp.mapN = 0 || decide (bsBlock x.1 < bzFirst s))

/-- Stripes of a rank outside the system areas that still have their reset record (DIRTY, glaze, 0 cycles). -/
def untouched (s : State) (r : Nat) : Nat :=
  (if s.mp.mapN = 0 then 81920 else 16 * bzFirst s) - (hostListed s r).length

/-- The SYSTEM stripes of a rank: those of the fixed areas, and those that replace worn or bad ones (R135, R140, R225). -/
def systemStripes (s : State) (r : Nat) : List Nat :=
  (((List.range 16).map fun d => (List.range (5120 - bzFirst s)).map fun i => bsNo r d (bzFirst s + i)).flatten ++
    (hostListed s r).map (·.1)).filter fun bs => bsState s bs = .system

/-! ### Spares (R340, R341) -/

/-- A kind of spare is used up: the critical event and the health figure, once (R341). -/
def exhaust (s : State) (kind : Nat) : State :=
  if kind ∈ s.wr.exhausted then s
  else raise { s with wr := { s.wr with exhausted := s.wr.exhausted ++ [kind] } } 0x36 srcDevice 0 0 0 0

/-- Stripes on populated ranks that are neither SYSTEM nor RETIRED (R340). -/
def totalStripes (s : State) : Nat :=
  (s.mp.pop.map fun r => 16 * bzFirst s - ((hostListed s r).filter fun x => x.2.state = .retired || x.2.state = .system).length).sum

/-- NEED and RSV of R340. -/
def needStripes (cap : Nat) : Nat := (cap * 4 + 2) / 3
def reservedStripes (s : State) : Nat := s.mp.pop.length * (budgetMin s * 81920 / 100 + 2 * reclaimLow s)

/-- SPARE_BS (R340). -/
def spareBs (s : State) : Int := (totalStripes s : Int) - needStripes s.mp.capGib - reservedStripes s

/-- The count of spare stripes has reached 0 (R341). -/
def checkSpareStripes (s : State) : State := if s.mp.capGib ≠ 0 && spareBs s ≤ 0 then exhaust s 0 else s

/-- A stripe leaves use for good (R245, R322, R339). -/
def retireStripe (s : State) (bs : Nat) : State :=
  checkSpareStripes (updStripe s bs fun b => { b with state := .retired })

/-- The bisque stripes that count against the budget (R231). -/
def bisqueUse (s : State) (r : Nat) : Nat :=
  ((rankStripes s r).filter fun x => x.2.bisque && (x.2.state = .bisque || x.2.state = .open || x.2.state = .victim)).length

/-- The budget in whole stripes (R231). -/
def budgetStripes (s : State) (r : Nat) : Nat := (rankPl s r).budget * 81920 / 100

/-- Free glaze stripes: glaze in BLANK, DIRTY or BLANKING. -/
def freeGlaze (s : State) (r : Nat) : Nat :=
  untouched s r + ((rankStripes s r).filter fun x =>
    !x.2.bisque && (x.2.state = .blank || x.2.state = .dirty || x.2.state = .blanking)).length

/-- The least of a list under a lexicographic key. -/
def leastBy (key : Nat × BsRec → List Nat) (l : List (Nat × BsRec)) : Option (Nat × BsRec) :=
  l.foldl (fun b x => match b with
    | none => some x
    | some y => if (key x) < (key y) then some x else some y) none

/-- A BLANK stripe may serve as allocation stripe (R318). -/
def allocEligible (s : State) (r : BsRec) : Bool :=
  decide ((r.buses + 1) * (2 ^ relocShift s + 1024) ≤ 10000000) && decide (r.buses < 127)

/-- A record is on both replicas of the table's media copy (R226). -/
def recordStripe (s : State) (bs : Nat) : State :=
  let r := { stripe s bs with changed := false }
  { s with pl := { s.pl with stripes := tset {} s.pl.stripes bs r, copy := tset {} s.pl.copy bs r } }

/-- Turn a BLANK stripe of the rank into its allocation stripe when the budget allows, one of MODE 1 first (R233,
R317, R318, R511); its record with MODE 1 is on media before any pulse of a drain (R226). -/
def openAllocation (s : State) (r : Nat) : State :=
  if budgetStripes s r ≤ bisqueUse s r then s
  else match leastBy (fun x => [if x.2.bisque then 0 else 1, x.2.buses, x.2.cycles, x.1])
      ((rankStripes s r).filter fun x => x.2.state = .blank && !x.2.degraded && allocEligible s x.2) with
    | none => s
    | some x =>
      let s := updStripe s x.1 fun b => { b with state := .open, bisque := true, wls := 0, buses := b.buses + 1 }
      updRank (recordStripe s x.1) r fun p => { p with alloc := some x.1 }

/-- Free slots in a rank's allocation stripe (R234, R373). -/
def allocFree (s : State) (r : Nat) : Nat :=
  match (rankPl s r).alloc with
  | none => 0
  | some bs => stampWl - (stripe s bs).wls

/-- A full allocation stripe becomes BISQUE, and goes on as its VALID asks for (R233, R235). -/
def closeAllocation (s : State) (r : Nat) : State :=
  match (rankPl s r).alloc with
  | none => s
  | some bs =>
    if (stripe s bs).wls < stampWl then s
    else updRank (updStripe s bs fun b => { b with state := settledState s .bisque b.valid }) r fun p => { p with alloc := none }

/-- Make the rank's allocation stripe ready for one more slot, if it can be. -/
def readyAllocation (s : State) (r : Nat) : State :=
  let s := closeAllocation s r
  if (rankPl s r).alloc.isSome then s else openAllocation s r

/-- Take the next slot of a rank's allocation stripe, in ascending word line; a stripe whose last host word line is
taken is full (R233, R373). -/
def takeSlot (s : State) (r : Nat) : Option (Nat × State) :=
  match (rankPl s r).alloc with
  | none => none
  | some bs =>
    let w := (stripe s bs).wls
    if w < stampWl then
      some (slotNo bs w 0, closeAllocation (updStripe s bs fun b => { b with wls := w + 1 }) r)
    else none

/-- The rank of a page's new bisque slot: the glaze home's, or that of R234's hash; when it has none free, the rank
with the most free slots, lowest first. -/
def slotRankFor (s : State) (page glazeHome : Nat) : Option Nat :=
  let first := if glazeHome ≠ none40 then slotRank glazeHome else popRank s page
  if 0 < allocFree s first then some first
  else
    let best := s.mp.pop.foldl (fun (b : Nat × Nat) r => if b.2 < allocFree s r then (r, allocFree s r) else b) (0, 0)
    if 0 < best.2 then some best.1 else none

/-- Allocate a bisque slot for a page (R233, R234). -/
def allocBisque (s : State) (page glazeHome : Nat) : Option (Nat × State) :=
  let first := if glazeHome ≠ none40 then slotRank glazeHome else popRank s page
  let s := readyAllocation s first
  match slotRankFor s page glazeHome with
  | none => none
  | some r => takeSlot s r

end Sys2Proof.Machine
end

