-- ==== Sys2Proof/Machine/HostMem.lean ====
section
/-! DEFINITION. CXL.mem: requests, credits, admission, the path of a read to its response, map fills and the fills of
partial writes (R115, R144 to R147, R158 to R186, R196 to R208, R399, R557, R611, R613). -/
namespace Sys2Proof.Machine

/-! ### Responses and credits -/

/-- A response leaves, waits in egress while the link retrains or sleeps, or is lost with a link that is down (R181, R396,
R397). -/
def sendResp (s : State) (r : Resp) : State :=
  if s.hl.state = .active then { s with hq := { s.hq with sent := s.hq.sent ++ [r] } }
  else if s.hl.state = .retraining || s.hl.state = .lowPower then { s with hq := { s.hq with egress := s.hq.egress ++ [r] } }
  else s

/-- The host may send on CXL.mem: the link is active and credits have been granted (R165, R632). -/
def memOpen (s : State) : Bool := s.hl.state = .active && s.hq.creditsOn && !s.ig.ideStop

/-- The zone of a rank holds credits back: mute level 4 or above (R165, R198, R557). -/
def creditHeld (s : State) (rank : Nat) : Bool := rank < 64 && 4 ≤ rankLevel s rank

/-- Write credits are held back whatever the pool: retrain, low power, or a last breath (R198, R535). -/
def writesHeld (s : State) : Bool :=
  s.hl.state ≠ .active || s.pwr.breath.isSome || s.hl.gpfWaiting || s.pwr.state = .sleep || s.pwr.entering || s.pwr.pwrfail

/-- Read credits are held back by the link's state or a power-loss breath (R165, R535). -/
def readsHeld (s : State) : Bool :=
  s.hl.state ≠ .active || s.pwr.state = .sleep || s.pwr.pwrfail

/-- Write credits in the host's hands and those of writes that wait for admission (R196). -/
def writesOut (s : State) : Nat :=
  s.hq.wrCredits + (s.hq.queue.filter fun q => match q.kind with | .read => false | _ => true).length

/-- What becomes of one held credit at a boundary: kept, or returned; `done` counts the returns of each zone. -/
structure Returns where
  rd : Nat := 0
  wr : Nat := 0
  keep : List Hold := []
  zones : List Nat := []

/-- Decide one held credit (R165, R196, R198, R557). -/
def returnHold (s : State) (t : Returns) (h : Hold) : Returns :=
  let wrOk := !writesHeld s && writesOut s + t.wr + 1 ≤ poolFree s
  match h with
  | .readLink => if readsHeld s || lateReads s then { t with keep := t.keep ++ [h] } else { t with rd := t.rd + 1 }
  | .readEntry _ => { t with keep := t.keep ++ [h] }
  | .readDone _ z c =>
    if c && !readsHeld s && (t.zones.filter (· = z)).length < 64 then { t with rd := t.rd + 1, zones := z :: t.zones }
    else { t with keep := t.keep ++ [h] }
  | .writeRoom => if wrOk then { t with wr := t.wr + 1 } else { t with keep := t.keep ++ [h] }
  | .writeEntry k =>
    match sagLine s (k / 64) (k % 64) with
    | some l => if l.norank && (entryHere s (k / 64)).isNone then { t with keep := t.keep ++ [h] }
      else if !l.norank && creditHeld s l.rank then { t with keep := t.keep ++ [.writeRelease k] }
      else if wrOk then { t with wr := t.wr + 1 } else { t with keep := t.keep ++ [.writeRoom] }
    | none => if wrOk then { t with wr := t.wr + 1 } else { t with keep := t.keep ++ [.writeRoom] }
  | .writeRelease k =>
    match sagLine s (k / 64) (k % 64) with
    | some _ => { t with keep := t.keep ++ [h] }
    | none => if wrOk then { t with wr := t.wr + 1 } else { t with keep := t.keep ++ [.writeRoom] }

/-- Return every credit that nothing holds any longer (R165, R196, R198, R557); SAGR_WITHHOLD follows. -/
def returnCredits (s : State) : State :=
  let t := s.hq.holds.foldl (returnHold s) {}
  let held := t.keep.any fun h => match h with | .writeRoom => true | .writeEntry _ => true | .writeRelease _ => true | _ => false
  { s with
    hq := { s.hq with rdCredits := s.hq.rdCredits + t.rd, wrCredits := s.hq.wrCredits + t.wr, holds := t.keep }
    sag := { s.sag with
      withheld := held
      episodes := if held && !s.sag.withheld && decide (poolFree s < 800) then satAdd 32 s.sag.episodes 1 else s.sag.episodes } }

/-- The pools are advertised afresh when CXL.mem is enabled and step 11 has ended (R164, R165, R196, R632, R639). -/
def grantCredits (s : State) : State :=
  if s.hl.memEnable && s.hl.state = .active && s.pwr.step = 12 && !s.pwr.limited && !s.pwr.disabled &&
      !s.hq.creditsOn && !s.ig.ideEnded then
    let w := min 800 (poolFree s)
    { s with hq := { s.hq with
      creditsOn := true, rdCredits := 800, wrCredits := w, holds := List.replicate (800 - w) .writeRoom } }
  else s

/-! ### Sampling (R613) -/

/-- Count an admitted request of a type; every PERIOD-th is sampled into the queue named now. -/
def sampleTake (s : State) (type : Nat) : Option Nat × State :=
  if s.hq.samplePeriod = 0 || !s.hq.sampleTypes.getLsbD type then (none, s)
  else if s.hq.sampleCount + 1 < s.hq.samplePeriod then
    (none, { s with hq := { s.hq with sampleCount := s.hq.sampleCount + 1 } })
  else (some s.hq.sampleQueue, { s with hq := { s.hq with sampleCount := 0 } })

/-- Write a sample record (R613). -/
def samplePut (s : State) (q : Option Nat) (type path tag rank status dpa arrival completion : Nat) : State :=
  match q with
  | none => s
  | some q => capPut s q (leBytes 2 0xF001 ++ leBytes 1 type ++ leBytes 1 path ++ leBytes 2 tag ++ leBytes 1 rank ++
      leBytes 1 status ++ leBytes 8 dpa ++ leBytes 8 arrival ++ leBytes 8 completion)

/-! ### Looking a read up (R168, R179, R185, R186) -/

/-- Where a read stands after its lookup. -/
structure Lookup where
  stage : RdStage := .done 0 true
  path : BitVec 8 := 0
  rank : Nat := 255
  parkedPoison : Bool := false
  /-- the entry taken, and what the line is held against -/
  taken : MapEntry := {}
  aim : Aim := {}

/-- A read of a media slot: poison of a parked or failed rank, a wait for the cones of an unswept stripe, a direct
erasure read, or an ordinary sense (R108, R179, R185, R186). -/
def mediaLookup (s : State) (slot line : Nat) (bisque : Bool) : Lookup :=
  let r := slotRank slot
  if parked s r then { rank := r, parkedPoison := true }
  else if 3 ≤ lostLinks s r then { rank := r }
  else if !bisque && s.dr.sweepActive && (stripe s (slotBs slot)).unswept then
    { stage := .cones (slotBs slot), rank := r, path := 0x80 }
  else if posOut s (slotBs slot) (segmentOf line) then { stage := .escalate slot bisque none, rank := r, path := 0x40 }
  else { stage := .sense slot bisque, rank := r }

/-- Where a line reads from by its map entry (R168 steps 3 and 4); the entry, the image and the stamp expected are taken
(R28, R176). -/
def lookupEntry (s : State) (page line : Nat) (e : MapEntry) (tree : Bool) : Lookup × State :=
  let s := touchSeg s (segNo page)
  if e.secure then ({ stage := .done 0 false, taken := e }, s)
  else
    let (old, s) := if e.state = .discardPending then
        let (n, s) := draw s
        (Config.discardReadsOld n, s)
      else (true, s)
    match lineSource e line old with
    | .zeros => ({ stage := .done 0 false, taken := e }, s)
    | .poison => ({ stage := .done 0 true, taken := e }, s)
    | .media slot b => ({ mediaLookup s slot line b with taken := e, aim := aimAt s e tree slot line }, s)

/-- The source of a line, in the order of R168. -/
def lookup (s : State) (page line : Nat) : Lookup × State :=
  match sagLine s page line with
  | some l =>
    if l.fill then ({ stage := .waitFill l.mask l.data l.poison, path := 0x30, rank := if l.norank then 255 else l.rank }, s)
    else ({ stage := .done (if l.poison then 0 else l.data) l.poison, path := 0x10, rank := if l.norank then 255 else l.rank }, s)
  | none =>
    match entryHere s page with
    | none =>
      ({ stage := .miss (segNo page), path := 1 }, { s with mp := { s.mp with fills := addNew s.mp.fills (segNo page) } })
    | some e => lookupEntry s page line e (pageTree s page)

/-- A read stands where its lookup put it. -/
def Rd.at (r : Rd) (l : Lookup) : Rd :=
  { r with
    stage := l.stage, path := r.path ||| l.path, rank := l.rank, taken := l.taken
    img := l.aim.img, expect := l.aim.expect, stale := l.aim.stale }

/-- A stripe whose cones a read waits for moves ahead of the sweep (R185). -/
def sweepAhead (s : State) (bs : Nat) : State :=
  { s with dr := { s.dr with
    sweepFront := tset [] s.dr.sweepFront (bsRank bs) (addNew (tget [] s.dr.sweepFront (bsRank bs)) bs) } }

/-- The senses that a read needs next join those of their links (R145, R170, R173, R179, R380). -/
def commandRead (s : State) (r : Rd) (due : Nat) : State :=
  let x : Sense := { due := due, age := r.beat, tag := some r.tag }
  match r.stage with
  | .miss _ => senseMap s r.page
  | .sense slot b => senseStamp (senseLine s slot r.line b x) r.taken r.tree r.line x
  | .escalate slot b _ => senseStamp (senseStripe s slot r.line b x) r.taken r.tree r.line x
  | .cones bs => sweepAhead s bs
  | _ => s

/-- Monitor counts and the escalation count that a lookup brings (R344 of ECC_RANK_B, R609). -/
def countLookup (s : State) (l : Lookup) : State :=
  match l.stage with
  | .miss _ => count s 0 0x9 0xFF 1
  | .escalate _ _ _ =>
    let s := updEcc s l.rank fun x => { x with escalations := satAdd 32 x.escalations 1 }
    count (count s (1 + l.rank) 0x104 0xFF 1) 0 0x8 0xFF 1
  | _ => if l.path.getLsbD 4 then count s 0 0xA 0xFF 1 else count s 0 0x8 0xFF 1

/-! ### Admission (R115, R163 to R167, R186, R196 to R201) -/

/-- The credit of an admitted read: it goes back at this boundary unless something holds it (R164, R165). -/
def readCredit (s : State) (tag : Nat) (l : Lookup) : State :=
  let hold (h : Hold) := { s with hq := { s.hq with holds := s.hq.holds ++ [h] } }
  match l.stage with
  | .miss _ => hold (.readEntry tag)
  | .done _ _ => if l.rank < 64 && !l.path.getLsbD 4 && creditHeld s l.rank then hold (.readDone tag (zoneOf s l.rank) false) else hold .readLink
  | _ => if creditHeld s l.rank then hold (.readDone tag (zoneOf s l.rank) false) else hold .readLink

/-- Admit one read; the flag tells whether it completes with poison under R115, R167 or R186 (R611). -/
def admitRead (s : State) (q : HostReq) : State × Bool :=
  let s := count s 0 0x1 0xFF 1
  let (smp, s) := sampleTake s 0
  let base : Rd := { tag := q.tag, arrival := q.arrival, beat := s.clk.beat, sample := smp }
  let poisoned (s : State) (base : Rd) : State × Bool :=
    (readCredit { s with hq := { s.hq with reads := s.hq.reads ++ [{ base with stage := .done 0 true }] } } q.tag {}, true)
  match hdmDecode s q.hpa.toNat with
  | none => poisoned (raiseAddr s 0x15 srcHost q.hpa.toNat 0) base
  | some dpa =>
    let base := { base with dpa := dpa, page := pageOf dpa, line := lineOf dpa }
    match regionOf s dpa with
    | none => poisoned (raiseAddr s 0x15 srcHost dpa 0) base
    | some n =>
      let rg := region s n
      let base := { base with tree := pageTree s (pageOf dpa) }
      if !rg.ready then poisoned (raiseAddr s 0x16 srcHost dpa 0) base
      else
        let (l, s) := lookup s (pageOf dpa) (lineOf dpa)
        let s := countLookup s l
        let r := base.at l
        let s := commandRead { s with hq := { s.hq with reads := s.hq.reads ++ [r] } } r s.clk.beat
        (readCredit s q.tag l, l.parkedPoison)

/-- The credit of an admitted write goes back, or is held: for room in the pool, for its entry, or for its line's
release in a zone at level 4 (R196, R198, R557). -/
def writeCredit (s : State) (page line : Nat) : State :=
  let hold (h : Hold) := { s with hq := { s.hq with holds := s.hq.holds ++ [h] } }
  match sagLine s page line with
  | none => hold .writeRoom
  | some l =>
    if l.norank && (entry? s page).isNone then hold (.writeEntry (page * 64 + line))
    else if !l.norank && creditHeld s l.rank then hold (.writeRelease (page * 64 + line))
    else hold .writeRoom

/-- The first write admitted after a seal cancels it (R541). -/
def cancelSeal (s : State) : State :=
  if s.pwr.standing then
    { s with pwr := { s.pwr with standing := false, others := max s.pwr.others s.pwr.nextBseq, cutLines := [] } }
  else s

/-- Admit one write (R115, R187, R188, R194, R197, R201): its completion leaves once it is in the saggar. -/
def admitWrite (s : State) (q : HostReq) (be : BitVec 64) (data : LineData) (poison : Bool) : State :=
  let type := if be = BitVec.allOnes 64 then 1 else 2
  let s := portBytes (count s 0 (1 + type) 0xFF 1) 0 1 64
  let (smp, s) := sampleTake s type
  let finish (s : State) (dpa rank : Nat) (path : Nat) (p : Bool) : State :=
    let (n, s) := draw s
    sendResp (samplePut s smp type path q.tag rank (if p then 1 else 0) dpa q.arrival
      (s.clk.beat * 64 + (Config.freeWord n).toNat % 64)) (.cmp q.tag)
  let dropped (s : State) (dpa : Nat) : State :=
    finish { s with hq := { s.hq with holds := s.hq.holds ++ [.writeRoom] } } dpa 0xFF 0 false
  match hdmDecode s q.hpa.toNat with
  | none => dropped (raiseAddr s 0x15 srcHost q.hpa.toNat 0) q.hpa.toNat
  | some dpa =>
    match regionOf s dpa with
    | none => dropped (raiseAddr s 0x15 srcHost dpa 0) dpa
    | some n =>
      if !(region s n).ready then dropped (raiseAddr s 0x16 srcHost dpa 0) dpa
      else
        let page := pageOf dpa
        let line := lineOf dpa
        let s := cancelSeal s
        let merged := (sagLine s page line).isSome
        let missed := (entry? s page).isNone
        let s := if missed then { s with mp := { s.mp with fills := addNew s.mp.fills (segNo page) } } else s
        let s := count s 0 (if missed then 0x9 else 0x8) 0xFF 1
        let s := saggarWrite s page line be data poison (pageAttrs s page (entryNow s page)).2
        let s := writeCredit s page line
        let rank := match sagLine s page line with | some l => if l.norank then 255 else l.rank | none => 255
        finish s dpa rank ((if missed then 1 else 0) + (if merged then 16 else 0)) false

/-- Admit everything queued before the boundary, in arrival order (R163, R166); with no write admitted while a
power-loss breath is due (R217). Answers the reads admitted and how many of them were wasted (R611). -/
def admitAll (s : State) : State × Nat × Nat :=
  let q := s.hq.queue
  let s := { s with hq := { s.hq with queue := [] } }
  q.foldl (fun (a : State × Nat × Nat) r => match r.kind with
    | .read => let (s, w) := admitRead a.1 r; (s, a.2.1 + 1, a.2.2 + if w then 1 else 0)
    | .write be d p => (admitWrite a.1 r be d p, a.2)) (s, 0, 0)

/-! ### Map fills (R145, R146, R308) -/

/-- A gap move holds the leaf's write-backs while its copy runs (R138). -/
def gapHolds (s : State) (L : Nat) : Bool :=
  s.mp.mapNr ≠ 0 && ([0, 1].any fun k =>
    let r := homeRank s L k
    let t := rot s r
    let a := 2 * (L / s.mp.mapNr) + k
    let p := rotate s.mp.mapN t.start t.gap a
    t.copying && p = if t.gap = 0 then s.mp.mapN else t.gap - 1)

/-- A write-back of the line is in flight, or a gap move or the internal reserve holds it (R138, R193). -/
def lineBusy (s : State) (ll : Nat) : Bool :=
  gapHolds s (leafOfLine ll) || decide (16384 ≤ internalUsed s) || s.mp.writeBacks.any fun w => w.1 = ll

/-- Rewrite a replica line from a good one, or let the rewrite wait (R138, R146, R300). -/
def rewriteReplica (s : State) (ll k : Nat) : State :=
  match bestLine s ll with
  | none => s
  | some l =>
    if lineBusy s ll then { s with mp := { s.mp with rewrites := addNew s.mp.rewrites (ll * 2 + k) } }
    else { s with mp := { s.mp with writeBacks := s.mp.writeBacks ++ [(ll, [k], l)] } }

/-- A read that missed goes on from its entry: the saggar is not asked again, since a line written after the read was
admitted comes later in order (R166, R170); its data read is commanded from frame B + 3 on, in a frame that starts after
this beat's (R173). -/
def resumeRead (s : State) (r : Rd) (e : MapEntry) : State :=
  let (l, s) := lookupEntry s r.page r.line e r.tree
  let s := countLookup s l
  let credit (h : Hold) : Hold := match h with
    | .readEntry t => if t ≠ r.tag then h else
      match l.stage with
      | .done _ _ => .readLink
      | _ => if creditHeld s l.rank then .readDone r.tag (zoneOf s l.rank) false else .readLink
    | _ => h
  let s := { s with hq := { s.hq with
    reads := s.hq.reads.map fun x => if x = r then r.at l else x
    holds := s.hq.holds.map credit } }
  commandRead s (r.at l) (max (r.beat + 3) (s.clk.beat + 1))

/-- The reads and writes that waited for a segment go on with its entries (R146, R148, R165, R193, R205). -/
def resumeSeg (s : State) (g : Nat) (es : List MapEntry) : State :=
  let pages := (List.range 8).map (g * 8 + ·)
  let s := pages.foldl (fun s p => (List.range 64).foldl (fun s i => senseFill (fillFromEntry s p i) p i) (rechargePage s p)) s
  (s.hq.reads.filter fun r => r.stage = .miss g).foldl (fun s r => resumeRead s r (es.getD (r.page % 8) {})) s

/-- What the sense of a replica line says: a failing image, and one whose corrections count (R146, R295). -/
def senseFails : Sensed → Bool
  | .bits n => decide (6 < n)
  | _ => true
def senseCounts (s : State) : Sensed → Bool
  | .bits n => decide (corrBits s ≤ n ∧ n ≤ 6)
  | _ => false

/-- How the two replicas of map line `i` of a segment came back: their own senses, and their page escalations. Keys of a
report: 4i and 4i + 1 the replicas' senses, 4i + 2 and 4i + 3 their escalations; a line not named came back intact, an
escalation not named failed. -/
def replicaSeen (others : List (Nat × Sensed)) (i k : Nat) : Sensed :=
  ((others.find? fun x => x.1 = 4 * i + k).map (·.2)).getD (if k < 2 then .bits 0 else .bits 7)

/-- The line that the replicas of a map line give: the newer one of those that pass, none when blank; `none` outside when
both fail with their escalations (R146). -/
def replicaLine (s : State) (ll : Nat) (bad0 bad1 : Bool) (late0 late1 : Bool) : Option (Option LeafLine) :=
  if !bad0 && !bad1 then some (bestLine s ll)
  else if !bad0 then some (leafLine? s ll 0)
  else if !bad1 then some (leafLine? s ll 1)
  else if !late0 && !late1 then some (newerLine (leafLine? s ll 0) (leafLine? s ll 1))
  else if !late0 then some (leafLine? s ll 0)
  else if !late1 then some (leafLine? s ll 1)
  else none

/-- The write of an image to replicas of a line, or its wait (R138, R146). -/
def giveReplica (s : State) (ll k : Nat) (v : LeafLine) : State :=
  if lineBusy s ll then { s with mp := { s.mp with rewrites := addNew s.mp.rewrites (ll * 2 + k) } }
  else { s with mp := { s.mp with writeBacks := s.mp.writeBacks ++ [(ll, [k], v)] } }

/-- A leaf line is lost in both replicas: its entries become poisoned-whole under the previous stamp ceiling, both replicas are
rewritten, and the critical event names the leaf (R146, R308, R361). -/
def leafLost (s : State) (ll : Nat) : State × List MapEntry :=
  let e := lostEntry s.ig.stampCeil {}
  let s := raiseCeiling s
  let L := leafOfLine ll
  let s := setLeafStamp s L (leafStamp s L + 1)
  let line : LeafLine := { e0 := e, e1 := e, stamp := leafStamp s L }
  let s := if lineBusy s ll then s else { s with mp := { s.mp with writeBacks := s.mp.writeBacks ++ [(ll, [0, 1].filter (replicaUp s ll), line)] } }
  let mark (s : State) (page : Nat) : State :=
    (List.range 64).foldl (fun s i => poisonEnter s (dpaOf page i) .internal) (poisonLeavePage s page)
  (raiseAddr (mark (mark s (2 * ll)) (2 * ll + 1)) 0x3A (homeRank s L 0) L 0, [e, e])

/-- One map line of a fill: corrections counted, failed, blank or older replicas rewritten, a line lost in both reported
(R146). Answers its two entries and whether they were lost. -/
def takeMapLine (s : State) (ll : Nat) (o0 o1 x0 x1 : Sensed) : State × List MapEntry × Bool :=
  let bad (k : Nat) (o : Sensed) : Bool := senseFails o || !replicaUp s ll k
  let used := replicaLine s ll (bad 0 o0) (bad 1 o1) (bad 0 x0) (bad 1 x1)
  let counted (s : State) (k : Nat) (o : Sensed) : State :=
    if senseCounts s o then rewriteReplica (bucketEvent s (homeRank s (leafOfLine ll) k)) ll k else s
  let s := counted (counted s 0 o0) 1 o1
  match used with
  | none => let x := leafLost s ll; (x.1, x.2, true)
  | some l =>
    let give (s : State) (k : Nat) (o : Sensed) : State := match l with
      | some v => if replicaUp s ll k && (senseFails o || leafLine? s ll k ≠ l) && !senseCounts s o then giveReplica s ll k v else s
      | none => s
    (give (give s 0 o0) 1 o1, lineEntries l, false)

/-- Lines of a cached segment become dirty. -/
def dirtyLines (s : State) (g : Nat) (l : List Nat) : State :=
  match cacheSeg s g with
  | none => s
  | some c => setSeg s g (some { c with dirty := l.foldl (fun d i => d ||| (1#4 <<< i)) c.dirty })

/-- The lines of a segment come back from the replicas (R145, R146). `o` is the sense of replica 0 of the line that holds
the entry; the report gives the rest (`replicaSeen`). A segment that other work has filled meanwhile keeps its entries
(R147). -/
def mapFill (s : State) (g ll : Nat) (o : Sensed) (others : List (Nat × Sensed)) : State :=
  if g ∉ s.mp.fills || ll / 4 ≠ g then s
  else
    let seen (i k : Nat) : Sensed := if k = 0 && i = ll % 4 then o else replicaSeen others i k
    let s := { s with mp := { s.mp with fills := s.mp.fills.filter (· ≠ g), wayWaits := s.mp.wayWaits.filter (· ≠ g) } }
    match cacheSeg s g with
    | some c => resumeSeg s g c.entries
    | none =>
      let x := (List.range 4).foldl (fun (x : State × List MapEntry × List Nat) i =>
        let y := takeMapLine x.1 (4 * g + i) (seen i 0) (seen i 1) (seen i 2) (seen i 3)
        (y.1, x.2.1 ++ y.2.1, if y.2.2 then x.2.2 ++ [i] else x.2.2)) (s, [], [])
      resumeSeg (dirtyLines (putSeg x.1 g x.2.1) g x.2.2) g x.2.1

/-! ### Line decode (R175 to R178, R206, R239, R295) -/

/-- The bits that the line code corrected in a first attempt. -/
def LineCheck.corrected : LineCheck → Nat
  | .good _ n => n
  | .lineFail n => n
  | .tagFail _ n => n
  | .erased _ => 0

/-- What one access to a line on media ends in. -/
inductive Access
  | data (d : LineData) (marker : Bool)
  | poison
  | transient
  deriving DecidableEq, Repr

/-- A failed first attempt counts its tag failure and its escalation (R177, INTG_FAULT, ECC_RANK_B). -/
def startEscalation (s : State) (slot : Nat) (t : LineCheck) : State :=
  let r := slotRank slot
  let s := match t with
    | .tagFail _ _ => { s with ig := { s.ig with tagFail := satAdd 32 s.ig.tagFail 1 } }
    | _ => s
  count (updEcc s r fun x => { x with escalations := satAdd 32 x.escalations 1 }) (1 + r) 0x103 0xFF 1

/-- The end of an escalation: data, or poison with what R178, R206, R306 and R363 call for. -/
def endEscalation (s : State) (page line slot tx : Nat) (t : LineCheck) (x : Escalated) : State × Access :=
  match x with
  | .good r counted =>
    let s := if counted || corrBits s ≤ t.corrected then correctionEvent s (slotRank slot) page else s
    (s, .data (if r.poison then 0 else r.data) r.poison)
  | .tagFail fresh =>
    let s := securityEvent s page line slot tx fresh
    (if fresh then s else poisonFromMedia s page line slot tx, .poison)
  | .fail => (poisonFromMedia s page line slot tx, .poison)
  | .transient => (raise s 0x24 (slotRank slot) (rankLink (slotRank slot) (segmentOf line)) 0 0 0, .transient)

/-- A whole access with its escalation, for engines that wait for both (R206, R239, R303). -/
def accessLine (s : State) (page line slot tx : Nat) (o : Sensed) (others : List (Nat × Sensed)) : State × Access :=
  let e := entryNow s page
  let tree := pageTree s page
  if slotLost s e tree others then (s, .poison) else
  let a := aimAt s e tree slot line
  let t := if posOut s (slotBs slot) (segmentOf line) then .erased false else checkLine s a page line o
  match t with
  | .good r n =>
    let s := if corrBits s ≤ n then correctionEvent s (slotRank slot) page else s
    (s, .data (if r.poison then 0 else r.data) r.poison)
  | t => endEscalation (startEscalation s slot t) page line slot tx t (escalate s a slot page line t others)

/-- Reads that take one line image together: the same line of the same page under the same entry (R169). -/
def Rd.shares (r x : Rd) : Bool :=
  x.page = r.page && x.line = r.line && x.stage = r.stage && x.tree = r.tree && x.taken.stamp = r.taken.stamp && x.img = r.img

/-- Every read that shares a sense with `r` goes to a stage. -/
def setShared (s : State) (r : Rd) (st : RdStage) (path : BitVec 8) : State :=
  { s with hq := { s.hq with reads := s.hq.reads.map fun x => if r.shares x then { x with stage := st, path := x.path ||| path } else x } }

/-- The sense of a read's line still waits for its frame, so nothing has been received (R170). -/
def notSensed (s : State) (r : Rd) (slot : Nat) (b : Bool) : Bool :=
  (link s (rankLink (slotRank slot) (segmentOf r.line))).waiting.any
    ({ slot := slot, line := lineName slot r.line b } : Sense).same

/-- The first attempt of a read (R175): its data, or the start of its escalation, whose senses are commanded from the next
frame on (R177). Reads that share the sense complete from it (R169). -/
def decodeFirst (s : State) (r : Rd) (slot : Nat) (b : Bool) (o : Sensed) : State :=
  match checkLine s r.aim r.page r.line o with
  | .good x n =>
    let s := if corrBits s ≤ n then correctionEvent s (slotRank slot) r.page else s
    useSlot (setShared s r (.done (if x.poison then 0 else x.data) x.poison) 0) r.page r.taken r.tree
  | t =>
    senseStripe (setShared (count (startEscalation s slot t) 0 0xB 0xFF 1) r (.escalate slot b (some o)) 4) slot r.line b
      { due := s.clk.beat + 1, age := r.beat, tag := some r.tag }

/-- The end of a read's escalation or direct erasure read (R178, R179); the returns that were lost on links count as
erasures (R180). -/
def decodeStripe (s : State) (r : Rd) (slot : Nat) (first : Option Sensed) (others : List (Nat × Sensed)) : State :=
  let t := match first with
    | some o => checkLine s r.aim r.page r.line o
    | none => .erased false
  let others := (r.lost.map fun p => (p, Sensed.erasure true)) ++ others.filter fun x => x.1 ∉ r.lost
  let (s, a) := endEscalation s r.page r.line slot txRead t (escalate s r.aim slot r.page r.line t others)
  match a with
  | .data d p => useSlot (setShared s r (.done d p) 0) r.page r.taken r.tree
  | _ => setShared s r (.done 0 true) 0

/-- The line image of a read has been received and checked (R175); a second report brings the escalation's returns
(R177, R178). -/
def decodeRead (s : State) (tag : Nat) (o : Sensed) (others : List (Nat × Sensed)) : State :=
  match s.hq.reads.find? fun r => r.tag = tag with
  | none => s
  | some r =>
    let lost := slotLost s r.taken r.tree others
    match r.stage with
    | .sense slot b =>
      if notSensed s r slot b then s
      else if lost then setShared s r (.done 0 true) 0
      else decodeFirst s r slot b o
    | .escalate slot _ first =>
      if lost then setShared s r (.done 0 true) 0 else decodeStripe s r slot first others
    | _ => s

/-- A background fill's media read ends (R205 to R207), as a read of the line would: with poison on a parked rank or one with
three lost links (R108, R186). That the fill of a discard-pending page takes zeros, R129 leaving the choice, is the model's
choice (log 99). -/
def completeFill (s : State) (page line : Nat) (o : Sensed) (others : List (Nat × Sensed)) : State :=
  match sagLine s page line with
  | none => s
  | some l =>
    if !l.fill || l.retry then s
    else
      let s := fetchSeg s page
      match entry? s page with
      | none => s
      | some e =>
        if e.secure then finishFill s page line (some 0)
        else match lineSource e line false with
          | .zeros => finishFill s page line (some 0)
          | .poison => finishFill s page line none
          | .media slot _ =>
            if parked s (slotRank slot) || 3 ≤ lostLinks s (slotRank slot) then finishFill s page line none else
            match accessLine s page line slot txFill o others with
            | (s, .data d p) => useSlot (finishFill s page line (if p then none else some d)) page e (pageTree s page)
            | (s, .poison) => finishFill s page line none
            | (s, .transient) => fillTransient s page line slot

/-! ### The commands -/

/-- MEM_RD (R158, R162, R164, R399): a read enters the admission queue against a credit. -/
def execMemRd (hpa : BitVec 64) (tag cycle : Nat) (s : State) : Host.Outcome State Fault Refusal :=
  .next (if memOpen s && 0 < s.hq.rdCredits then
    { s with hq := { s.hq with
      rdCredits := s.hq.rdCredits - 1
      queue := s.hq.queue ++ [{ hpa := hpa, tag := tag % 65536, arrival := s.clk.beat * 64 + cycle % 64, kind := .read }] } }
  else s)

/-- MEM_SPEC_RD (R399): accepted without a response and without any media access. -/
def execMemSpecRd (_hpa : BitVec 64) (_tag : Nat) (s : State) : Host.Outcome State Fault Refusal := .next s

/-- MEM_INV (R399): a completion; no data and no state change. -/
def execMemInv (tag : Nat) (s : State) : Host.Outcome State Fault Refusal :=
  .next (if memOpen s then sendResp s (.cmp (tag % 65536)) else s)

/-- A write enters the admission queue against a credit (R187, R196). -/
def queueWrite (s : State) (hpa : BitVec 64) (tag cycle : Nat) (be : BitVec 64) (data : LineData) (poison : Bool) : State :=
  if memOpen s && 0 < s.hq.wrCredits then
    { s with hq := { s.hq with
      wrCredits := s.hq.wrCredits - 1
      queue := s.hq.queue ++ [{ hpa := hpa, tag := tag % 65536, arrival := s.clk.beat * 64 + cycle % 64
                                kind := .write be data poison }] } }
  else s

/-- MEM_WR (R187, R399): a full-line write when all byte enables are set. -/
def execMemWr (hpa : BitVec 64) (tag cycle : Nat) (be : BitVec 64) (data : LineData) (poison : Bool) (s : State) :
    Host.Outcome State Fault Refusal := .next (queueWrite s hpa tag cycle be data poison)

/-- MEM_WR_PTL (R204, R399): a partial write. -/
def execMemWrPtl (hpa : BitVec 64) (tag cycle : Nat) (be : BitVec 64) (data : LineData) (poison : Bool) (s : State) :
    Host.Outcome State Fault Refusal := .next (queueWrite s hpa tag cycle be data poison)

/-- CXL_MEM_UNSUPPORTED (R399, R415): a read type completes with poison, a write type completes and is discarded; the
RAS capability logs an uncorrectable CXL.mem error with the header. -/
def execCxlMemUnsupported (isRead : Bool) (tag opcode : Nat) (s : State) : Host.Outcome State Fault Refusal :=
  .next (if memOpen s then
    let s := { s with hl := { s.hl with
      rasUncorrectable := s.hl.rasUncorrectable ||| 1, rasHead := some (isRead, tag % 65536, opcode) } }
    sendResp s (if isRead then .memData (tag % 65536) 0 true else .cmp (tag % 65536))
  else s)

/-- LINE_DECODE_DONE (R175): a received line image finishes its checks, for the work that it belongs to. -/
def execLineDecodeDone (t : DecodeTarget) (o : Sensed) (others : List (Nat × Sensed)) (s : State) :
    Host.Outcome State Fault Refusal :=
  .next (match t with
    | .read tag => decodeRead s tag o others
    | .fill page line => completeFill s page line o others
    | .leaf g ll => mapFill s g ll o others
    | .firing _ page line =>
      match lineSource (entryNow s page) line true with
      | .media slot _ => (accessLine s page line slot txInternal o others).1
      | _ => s)

/-- DATA_RESPONSE (R158, R181, R557, R613): the response of a decoded read leaves; its held credit may go back. -/
def execDataResponse (tag cycle : Nat) (s : State) : Host.Outcome State Fault Refusal :=
  .next (match s.hq.reads.find? fun r => r.tag = tag with
    | some r =>
      match r.stage with
      | .done d p =>
        if s.hl.state ≠ .active then s
        else
          let t := s.clk.beat * 64 + cycle % 64
          let s := { s with hq := { s.hq with
            reads := s.hq.reads.filter fun x => x.tag ≠ tag
            holds := s.hq.holds.map fun h => match h with
              | .readDone g z _ => if g = tag then .readDone g z true else h
              | _ => h } }
          let s := count (count s 0 0xE 0xFF (t - r.arrival)) 0 0xF 0xFF 1
          let s := portBytes s 0 0 64
          let s := if r.rank < 64 then portBytes s (1 + r.rank) 3 64 else s
          let s := sendResp s (.memData tag (if p then 0 else d) p)
          samplePut s r.sample 0 r.path.toNat tag r.rank (if p then 1 else 0) r.dpa r.arrival t
      | _ => s
    | none => s)

/-- FILL_COMPLETE (R205, R206): a background fill's media read has returned. -/
def execFillComplete (page line : Nat) (o : Sensed) (others : List (Nat × Sensed)) (s : State) :
    Host.Outcome State Fault Refusal := .next (completeFill s page line o others)

/-- FILL_RETRY (R206): a fill that ended in the transient outcome is issued again. -/
def execFillRetry (page line : Nat) (s : State) : Host.Outcome State Fault Refusal :=
  .next (match sagLine s page line with
    | some l => if l.fill && l.retry then senseFill (setSagLine s page line (some { l with retry := false })) page line else s
    | none => s)

end Sys2Proof.Machine
end

