-- ==== Sys2Proof/Machine/Drains.lean ====
section
/-! DEFINITION. Drains of the saggar, write-backs of the map, rotation and swaps of the map region (R125, R137 to
R141, R148 to R151, R193, R203, R209 to R216, R228, R315, R319, R369 to R371, R376, R533). -/
namespace Sys2Proof.Machine

/-! ### Exclusion of work on one page (R213) -/

def inFiring (s : State) (page : Nat) : Bool :=
  s.pl.ranks.any fun x => x.2.firings.any fun f => f.pages.any fun p => p.page = page
def inDrain (s : State) (page : Nat) : Bool := s.sag.drains.any fun d => d.page = page
def inSecure (s : State) (page : Nat) : Bool := s.pl.secure.any fun x => x.page = page
/-- The page takes the saggar route of a migration (R505). -/
def onSagRoute (s : State) (page : Nat) : Bool := s.mp.mig.any fun m => page ∈ m.2.sagRoute

/-- A stripe was programmed, written or blanked while some of its links were out (R111). -/
def noteProgram (s : State) (bs : Nat) : State :=
  ((rankLinks (bsRank bs)).filter fun n => !(link s n).state.serves).foldl
    (fun s n => updLinkWear s n fun w => { w with changedOut := addNew w.changedOut bs }) s

/-! ### Eligibility (R209) -/

/-- A line may drain now, its page apart. -/
def lineEligible (s : State) (l : SagLine) : Bool :=
  !l.fill && !l.drain && !(l.held.isSome && onSagRoute s l.page) &&
  (decide (residency s ≤ s.clk.beat - l.last) || decide (poolLines s / 2 < poolUsed s) ||
    (!l.norank && decide (guarantee s ≤ ownUsed s l.rank)) || s.pwr.entering)

/-- Lines of a column group. -/
def groupIdx (group : Nat) : List Nat := (List.range 16).map fun k => 4 * k + group

/-- The lines of a column group that may drain, ascending (R209, R210). -/
def groupLines (s : State) (page group : Nat) : List (Nat × SagLine) :=
  (groupIdx group).filterMap fun i =>
    (sagLine s page i).bind fun l => if lineEligible s l then some (i, l) else none

/-- The rank that a page's drains target (R215, R234). -/
def targetRank (s : State) (page : Nat) (e : MapEntry) : Nat :=
  (chargeRank e).getD (popRank s page)

/-! ### Starting a drain (R211) -/

/-- The line record that a drain or a firing writes: under its domain's live key, a marker when poisoned (R307,
R355). -/
def newRec (s : State) (page line stamp domain : Nat) (data : LineData) (poison bisque regime : Bool) : LineRec :=
  { data := if poison then 0 else data, stamp := stamp, ident := page, line := line, domain := domain
    keyVer := (domainKey s domain).keyVer, poison := poison, mapdata := false, bisque := bisque, regime := regime }

/-- The highest stamp in use by the page: PAGE_STAMP or that of a drain in progress. -/
def stampTop (s : State) (page : Nat) (e : MapEntry) : Nat :=
  (s.sag.drains.filter fun d => d.page = page).foldl (fun m d => d.lines.foldl (fun m x => max m x.2.2.1) m) e.stamp

/-- The images of a column group that a drain does not write are sensed too: a position is out of service, or an old image
or the parity of a line that it writes does not pass (R211 step 4). -/
def groupSensed (s : State) (e : MapEntry) (group : Nat) (lines : List (Nat × SagLine)) : Bool :=
  !(outPositions s (slotBs e.bisqueHome)).isEmpty || parityBad s e.bisqueHome group ||
    lines.any fun x => match mediaImg s e.bisqueHome x.1 with
      | .line _ => false
      | .blank => e.mask.getLsbD x.1
      | _ => true

/-- Live lines of the column group in the bisque slot that the drain senses and cannot recover: it adds poison markers for
them (R211 step 4). -/
def groupLost (s : State) (e : MapEntry) (page group : Nat) (lines : List (Nat × SagLine)) : List Nat :=
  if !groupSensed s e group lines then []
  else (groupIdx group).filter fun i =>
    !(lines.any fun x => x.1 = i) && e.mask.getLsbD i &&
      match mediaLine s e.bisqueHome i with | some r => r.ident ≠ page || r.line ≠ i | none => true

/-- Give each line its stamp, in ascending line index (R211 step 3). -/
def stampLines (s : State) (page base : Nat) (regime : Bool) : List (Nat × SagLine) → Nat → List (Nat × Nat × Nat × LineRec)
  | [], _ => []
  | (i, l) :: r, k =>
    (i, l.gen, base + k, newRec s page i (base + k) l.domain l.data l.poison true regime) ::
      stampLines s page base regime r (k + 1)

/-- REGIME of the lines that a drain writes: TARGET on the saggar route of a migration (R505), that of a page about to be
mapped (R501), or the entry's. -/
def drainRegime (s : State) (page : Nat) (e : MapEntry) : Bool :=
  if onSagRoute s page then ((migOf s page).map fun m => m.2.target).getD e.regime
  else if e.state = .unmapped then newFlag s page else e.regime

/-- The slot that the page's drains use: its bisque home, the slot already given to a drain in progress, or a new one
(R212, R233). -/
def drainSlot (s : State) (page : Nat) (e : MapEntry) : Option (Nat × Bool × State) :=
  if e.bisqueHome ≠ none40 then some (e.bisqueHome, false, s)
  else
    let kept := tget none40 s.sag.slotOf page
    if kept ≠ none40 then some (kept, true, s)
    else match allocBisque s page e.glazeHome with
      | none => none
      | some (slot, s) => some (slot, true, { s with sag := { s.sag with slotOf := tset none40 s.sag.slotOf page slot } })

/-- Mark the lines as draining with the GEN recorded; lines without a rank are charged to the slot's (R193, R200,
R211 step 1). -/
def holdLines (s : State) (page slot : Nat) (lines : List (Nat × SagLine)) : State :=
  lines.foldl (fun s x =>
    let l := if x.2.norank && !x.2.internal then charge s x.2 (some (slotRank slot)) else x.2
    setSagLine s page x.1 (some { l with drain := true, held := some l.gen })) s

/-- A rank's discards that no event has reported are reported once 2^24 beats have passed since its latest (R215). -/
def reportDiscards (s : State) (rank : Nat) : State :=
  let n := tget 0 s.sag.discarded rank
  if 0 < n ∧ tget 0 s.sag.lastDiscardEvent rank + 2 ^ 24 ≤ s.clk.beat then
    raise { s with sag := { s.sag with
      discarded := tset 0 s.sag.discarded rank 0, lastDiscardEvent := tset 0 s.sag.lastDiscardEvent rank s.clk.beat } }
      0x35 rank n 0 0 0
  else s

/-- The lines that a drain of a failed rank would write are discarded (R215). -/
def discardLines (s : State) (rank page : Nat) (lines : List Nat) : State :=
  let s := lines.foldl (fun s i => setSagLine s page i none) s
  reportDiscards { s with sag := { s.sag with
    discarded := tset 0 s.sag.discarded rank (tget 0 s.sag.discarded rank + lines.length) } } rank

/-- Other work on the page, or on the column group, holds a drain back (R203, R213, R260, R315, R506). -/
def drainHeld (s : State) (page group : Nat) : Bool :=
  (s.sag.drains.any fun d => d.page = page && d.group = group) || inFiring s page || decide (page ∈ s.pl.relocating) ||
    inSecure s page || (inSwitch s page && !onSagRoute s page)

/-- The rank that the page's drains target holds them: parked, or its hold period runs (R186, R215). -/
def rankHolds (s : State) (page : Nat) : Bool :=
  let r := targetRank s page (entryNow s page)
  parked s r || (3 ≤ lostLinks s r && !tget false s.sag.holdOver r)

/-- Lines with a copy on a failed SRAM channel drain before the others (R195). -/
def yieldsToDead (s : State) (lines : List (Nat × SagLine)) : Bool :=
  !(deadChannels s).isEmpty && !(lines.any fun x => onDead s x.2.idx) &&
    s.sag.lines.any fun x => match x.2 with
      | some l => lineEligible s l && onDead s l.idx && !drainHeld s l.page (l.line % 4) && !rankHolds s l.page
      | none => false

/-- Start a drain of the eligible lines of one column group (R195, R203, R209 to R216, R315, R361, R533). -/
def startDrain (s : State) (page group : Nat) : State :=
  if drainHeld s page group || s.mp.dirtyMax + 65536 ≤ mapDirty s || !mediaUp s ||
      yieldsToDead s (groupLines s page group) then s
  else
    let lines := groupLines s page group
    if lines.isEmpty then s
    else
      let s := dropPage (fetchSeg s page) page
      match entry? s page with
      | none => s
      | some e =>
        let rank := targetRank s page e
        let leaves := e.bisqueHome ≠ none40 && (stripe s (slotBs e.bisqueHome)).state = .victim && (stripe s (slotBs e.bisqueHome)).degraded
        if e.secure || parked s rank || leaves then s
        else if 3 ≤ lostLinks s rank then
          if tget false s.sag.holdOver rank then discardLines s rank page (lines.map (·.1)) else s
        else
          let base := stampTop s page e + 1
          let lost := groupLost s e page group lines
          if !stampRoom s (base + lines.length + lost.length) then askCeiling s
          else match drainSlot s page e with
            | none => s
            | some (slot, new, s) =>
              let s := lost.foldl (fun s i => placeMarker (poisonFromMedia s page i e.bisqueHome txInternal) page i e.domain) s
              let lines := sortBy (fun a b => a.1 ≤ b.1) (lines ++ lost.filterMap fun i => (sagLine s page i).map fun l => (i, l))
              let s := holdLines s page slot lines
              let s := setEntry s page (drainHeat s.pl.heatEpoch lines.length e)
              let d : Drain := { page := page, group := group, slot := slot, newSlot := new, fromEntry := e
                                 lines := stampLines s page base (drainRegime s page e) lines 0 }
              count { s with sag := { s.sag with drains := s.sag.drains ++ [d] } } (1 + rank) 0x106 0xFF lines.length

/-! ### The map change of a drain (R211 step 6, R212) -/

/-- Mask bits of some lines. -/
def lineMask (lines : List Nat) : BitVec 64 := lines.foldl (fun m i => m ||| (1#64 <<< i)) 0

/-- The entry after a verified drain, by the table of R212. -/
def drainedEntry (e : MapEntry) (slot : Nat) (bits : BitVec 64) (stamp domain : Nat) : MapEntry :=
  let e' := { e with stamp := max e.stamp stamp }
  match e.state with
  | .glaze => { e' with state := .split, bisqueHome := slot, mask := bits }
  | .split =>
    let m := e.mask ||| bits
    if m = BitVec.allOnes 64 then { e' with state := .bisqueWhole, mask := m, glazeHome := none40 } else { e' with mask := m }
  | .bisqueWhole => { e' with mask := e.mask ||| bits }
  | .poisonedWhole => { e' with state := .bisqueWhole, bisqueHome := slot, mask := bits, poisonRest := true, domain := domain }
  | _ => { e' with state := .bisqueWhole, bisqueHome := slot, mask := bits, poisonRest := false, domain := domain }

/-- The stamp slot follows the map change (R376): a rework gives the glaze lines the previous page stamp. -/
def drainStamps (s : State) (page : Nat) (e : MapEntry) (slot : Nat) (lines : List (Nat × Nat)) : State :=
  let old := if e.bisqueHome ≠ none40 then slotStamps s e.bisqueHome
    else if e.state = .glaze then List.replicate 64 e.stamp else List.replicate 64 0
  putStamps s slot page (lines.foldl (fun l x => l.set x.1 x.2) old)

/-- Release a saggar line whose GEN is unchanged; otherwise it stays and drains again (R200). -/
def releaseLine (s : State) (page line gen : Nat) : State :=
  match sagLine s page line with
  | none => s
  | some l =>
    if onSagRoute s page then setSagLine s page line (some { l with drain := false })
    else if l.gen = gen then setSagLine s page line none
    else setSagLine s page line (some { l with drain := false, held := none })

/-- A page whose stamp crosses a multiple of 2^RELOC_SHIFT is due a relocation (R315, R378), one of 2^38 a restamp
(R125). -/
def stampCrossings (s : State) (page old new : Nat) (bisque : Bool) : State :=
  let k := if pageTree s page then relocShift s - 3 else relocShift s
  let s := if bisque && old / 2 ^ k ≠ new / 2 ^ k then { s with pl := { s.pl with relocating := addNew s.pl.relocating page } } else s
  if old / 2 ^ 38 ≠ new / 2 ^ 38 then { s with pl := { s.pl with restamps := addNew s.pl.restamps page } } else s

/-- The last drain of a bisque-whole page's refresh has verified: REFRESH clears and TALLY returns to 0 (R299). -/
def refreshDone (s : State) (page : Nat) : State :=
  match entry? s page with
  | none => s
  | some e =>
    let waits := (List.range 64).any fun i => match sagLine s page i with | some l => l.internal | none => false
    if e.refresh && e.state = .bisqueWhole && page ∉ s.pl.refreshes && !waits then
      setEntry s page { e with refresh := false, tally := 0 }
    else s

/-- The entry and the slots of a page whose drain `d` has verified, before the lines are released (R212). -/
def settleDrain (s : State) (page : Nat) (d : Drain) (e e' : MapEntry) : State :=
  let s := d.lines.foldl (fun s x => setMedia s d.slot x.1 (.line x.2.2.2)) s
  let s := if pageTree s page then drainStamps s page e d.slot (d.lines.map fun x => (x.1, x.2.2.1)) else s
  let s := if e.bisqueHome = none40 then claimSlot s d.slot else s
  let s := if e'.glazeHome ≠ e.glazeHome then releaseSlot s e.glazeHome else s
  let s := setEntry s page e'
  noteProgram (updStripe s (slotBs d.slot) fun r => { r with fired := s.clk.seconds }) (slotBs d.slot)

/-- The lines of a verified drain leave the saggar, and the poison list where they are whole (R212, R307). -/
def releaseDrained (s : State) (page : Nat) (d : Drain) : State :=
  d.lines.foldl (fun s x => releaseLine (if x.2.2.2.poison then s else poisonLeave s (dpaOf page x.1)) page x.1 x.2.1) s

/-- The drains on a word line end without their lines: a bisque program failed twice, and the lines stay to drain against a new
target (R214, R321, R322). -/
def endDrainsOn (s : State) (bs wl : Nat) : State :=
  let here (slot : Nat) : Bool := slotBs slot = bs && slotWl slot = wl
  let ended := s.sag.drains.filter fun d => here d.slot
  let s := ended.foldl (fun s d => d.lines.foldl (fun s x =>
    match sagLine s d.page x.1 with
    | some l => setSagLine s d.page x.1 (some { l with drain := false, held := none })
    | none => s) s) s
  { s with sag := { s.sag with
    drains := s.sag.drains.filter fun d => !here d.slot
    slotOf := s.sag.slotOf.filter fun x => !here x.2 } }

/-- A line position whose program was cut is undefined; the old line stands behind it for the stripe's decode (R57, R222). -/
def tearLine (s : State) (slot line : Nat) : State :=
  setMedia s slot line (.torn (match mediaImg s slot line with | .line r => some r | .torn o => o | _ => none))

/-- The drains in progress are cut: the lines that were being programmed are undefined, and the parity of the column group may
be out of step; which, the spec leaves open (R57, R222, R223). -/
def tearDrains (s : State) : State :=
  let s := s.sag.drains.foldl (fun s d =>
    let (n, s) := draw s
    let (m, s) := draw s
    let s := (d.lines.filter fun x => Config.cutTakes n x.1).foldl (fun s x => tearLine s d.slot x.1) s
    if Config.cutTakes m d.group then
      { s with mp := { s.mp with parityStale := addNew s.mp.parityStale (d.slot * 4 + d.group) } }
    else s) s
  { s with sag := { s.sag with drains := [], slotOf := [] } }

/-- The programs of a drain have verified. -/
def finishDrain (s : State) (page group : Nat) : State :=
  match s.sag.drains.find? fun d => d.page = page && d.group = group with
  | none => s
  | some d =>
    let s := fetchSeg { s with sag := { s.sag with drains := s.sag.drains.filter (· ≠ d) } } page
    match entry? s page with
    | none => s
    | some e =>
      let top := d.lines.foldl (fun m x => max m x.2.2.1) 0
      let domain := match d.lines with | x :: _ => x.2.2.2.domain | [] => e.domain
      let e := if e.state = .unmapped then { e with regime := newFlag s page } else e
      let e' := drainedEntry e d.slot (lineMask (d.lines.map (·.1))) top domain
      let s := settleDrain s page d e e'
      let s := releaseDrained { s with sag := { s.sag with slotOf := tset none40 s.sag.slotOf page none40 } } page d
      stampCrossings (refreshDone s page) page e.stamp e'.stamp true

/-- DRAIN_START (R211). -/
def execDrainStart (page : Nat) (group : Fin 4) (s : State) : Host.Outcome State Fault Refusal :=
  .next (startDrain s page group.val)

/-- DRAIN_VERIFIED (R212). -/
def execDrainVerified (page : Nat) (group : Fin 4) (s : State) : Host.Outcome State Fault Refusal :=
  .next (returnCredits (finishDrain s page group.val))

/-- Host lines whose drain targets a rank (R215). -/
def linesFor (s : State) (r : Nat) : List (Nat × Nat) :=
  s.sag.lines.filterMap fun x => x.2.bind fun l =>
    if targetRank s l.page (entryNow s l.page) = r then some (l.page, l.line) else none

/-- WRITE_DISCARD_HOLD_END (R215): the period ends with the rank back, or its lines are discarded. -/
def execWriteDiscardHoldEnd (r : Rank) (s : State) : Host.Outcome State Fault Refusal :=
  .next (match tget none s.sag.holdStart r.val with
    | none => s
    | some b =>
      if s.clk.beat < b + 65536 then s
      else
        let s := { s with sag := { s.sag with holdStart := tset none s.sag.holdStart r.val none } }
        if lostLinks s r.val < 3 then s
        else
          let l := linesFor s r.val
          let s := l.foldl (fun s x => setSagLine s x.1 x.2 none) s
          let s := { s with sag := { s.sag with
            holdOver := tset false s.sag.holdOver r.val true
            discarded := tset 0 s.sag.discarded r.val 0
            lastDiscardEvent := tset 0 s.sag.lastDiscardEvent r.val s.clk.beat
            drains := s.sag.drains.filter fun d => slotRank d.slot ≠ r.val } }
          raise s 0x35 r.val l.length 0 0 0)

/-! ### Write-backs of the map (R141, R150, R151, R369 to R371) -/

/-- The leaf belongs to a tree-mode region (R369). -/
def leafTree (s : State) (L : Nat) : Bool := pageTree s (L * 128)

/-- Replicas that a write of a line goes to (R141, R151). -/
def upReplicas (s : State) (ll : Nat) : List Nat := [0, 1].filter (replicaUp s ll)

/-- Start the write-back of one map line with the leaf stamp `S` (R132, R369). -/
def queueWriteBack (s : State) (ll S : Nat) : State :=
  if s.mp.writeBacks.any fun w => w.1 = ll then s
  else
    let img : LeafLine := { e0 := entryNow s (2 * ll), e1 := entryNow s (2 * ll + 1), stamp := S }
    { s with mp := { s.mp with writeBacks := s.mp.writeBacks ++ [(ll, upReplicas s ll, img)] } }

/-- Write a leaf's dirty line back: alone in tag mode, with its whole leaf in tree mode (R369, R370). It waits for a gap move
of the leaf, for a write-back in flight and for the internal reserve (R138, R193). -/
def startWriteBack (s : State) (ll : Nat) : State :=
  let L := leafOfLine ll
  if gapHolds s L || (s.mp.writeBacks.any fun w => leafOfLine w.1 = L && (leafTree s L || w.1 = ll)) ||
      16384 < internalUsed s + (if leafTree s L then 64 else 1) then s
  else
    let S := leafStamp s L + 1
    let s := setLeafStamp s L S
    if leafTree s L then
      let s := (List.range 16).foldl (fun s g => fetchSeg s (L * 128 + 8 * g)) s
      let s := (List.range 16).foldl (fun s g =>
        match cacheSeg s (L * 16 + g) with
        | some c => setSeg s (L * 16 + g) (some { c with exempt := true })
        | none => s) s
      (List.range 64).foldl (fun s i => queueWriteBack s (L * 64 + i) S) s
    else queueWriteBack s ll S

/-- Dirty map lines of a set. -/
def dirtyOfSet (s : State) (set : Nat) : List Nat :=
  (s.mp.cache.filterMap fun x => if mapSet x.1 = set then x.2.map fun c => c.dirtyLines.map (x.1 * 4 + ·) else none).flatten

/-- Same entries but for HEAT (R149). -/
def sameButHeat (a b : MapEntry) : Bool := decide ({ a with heatEpoch := b.heatEpoch, heatCount := b.heatCount } = b)

/-- A fill that waited for the way takes it (R148). -/
def giveWay (s : State) (g : Nat) : State :=
  let s := setSeg s g none
  match s.mp.wayWaits.find? fun f => mapSet f = mapSet g with
  | none => s
  | some f =>
    let es := segEntries s f
    resumeSeg (putSeg { s with mp := { s.mp with
      fills := s.mp.fills.filter (· ≠ f), wayWaits := s.mp.wayWaits.filter (· ≠ f) } } f es) f es

/-- The write-back of a map line is media-durable: the line is clean unless it changed meanwhile, and a way chosen for
eviction that is clean goes (R148, R151). -/
def durableLine (s : State) (ll : Nat) (img : LeafLine) : State :=
  let g := ll / 4
  let i := ll % 4
  match cacheSeg s g with
  | none => s
  | some c =>
    if sameButHeat (c.entries.getD (2 * i) {}) img.e0 && sameButHeat (c.entries.getD (2 * i + 1) {}) img.e1 then
      let off : BitVec 4 := ~~~ (1#4 <<< i)
      let c := { c with dirty := c.dirty &&& off, heat := c.heat &&& off }
      if c.evicting && decide (c.dirty = 0#4) && !(s.mp.writeBacks.any fun w => w.1 / 4 = g) then giveWay s g
      else setSeg s g (some c)
    else s

/-- In-place line writes of a SYSTEM stripe are counted (R319). -/
def systemWrite (s : State) (slot n : Nat) : State :=
  updStripe s (slotBs slot) fun r => { r with lineWrites := r.lineWrites + n }

/-- A line written to a stripe that is being swapped goes to its replacement too where the copy has passed its word line; how
far the copy is the spec leaves open (R140). -/
def swapWrite (s : State) (slot : Nat) : State :=
  let r := slotRank slot
  match (rot s r).swapping with
  | none => s
  | some (src, dst) =>
    if slotBs slot ≠ r * 81920 + src then s
    else
      let (n, s) := draw s
      let s := updRot s r fun t => { t with swapWls := min 65536 (t.swapWls + (Config.freeWord n).toNat) }
      if slotWl slot < (rot s r).swapWls then systemWrite s (slotNo (r * 81920 + dst) (slotWl slot) 0) 1 else s

/-- Both replicas of a written line are durable: its cache line follows, and in tree mode the leaf's node is due once its
last line is (R151, R370). -/
def lineDone (s : State) (ll : Nat) (img : LeafLine) : State :=
  let L := leafOfLine ll
  let s := durableLine s ll img
  if leafTree s L && !(s.mp.writeBacks.any fun w => leafOfLine w.1 = L) then
    { s with ig := { s.ig with nodesDue := addNew s.ig.nodesDue (nodeOf L) } }
  else s

/-- A replica's write of a map line has verified (R141); a link that is out owes the stripe its rebuild (R111). -/
def writeBackDone (s : State) (ll k : Nat) : State :=
  match s.mp.writeBacks.find? fun w => w.1 = ll && k ∈ w.2.1 with
  | none => s
  | some (_, ks, img) =>
    let rest := ks.filter (· ≠ k)
    let s := setLeafLine s ll k (some img)
    let home := leafHome s (leafOfLine ll) k
    let s := noteProgram (systemWrite (updRot s (slotRank home) fun t => { t with writes := t.writes + 1 }) home 1) (slotBs home)
    let s := swapWrite s home
    let s := { s with mp := { s.mp with writeBacks :=
      (s.mp.writeBacks.map fun w => if w = (ll, ks, img) then (ll, rest, img) else w).filter fun w => !w.2.1.isEmpty } }
    if rest.isEmpty then lineDone s ll img else s

/-! ### Upkeep of the map at a boundary (R146, R148 to R151, R193) -/

/-- A write-back no longer waits for a replica whose rank has become absent; with the other written it is durable, with none
written the line stays dirty (R151). -/
def dropAbsent (s : State) (w : Nat × List Nat × LeafLine) : State :=
  let ks := w.2.1.filter (replicaUp s w.1)
  if ks = w.2.1 then s
  else
    let s := { s with mp := { s.mp with writeBacks :=
      (s.mp.writeBacks.map fun x => if x = w then (w.1, ks, w.2.2) else x).filter fun x => !x.2.1.isEmpty } }
    if ks.isEmpty && [0, 1].any fun k => leafLine? s w.1 k = some w.2.2 then lineDone s w.1 w.2.2 else s

/-- The way that a waiting fill has chosen is written back, the lines with changed HEAT beside its dirty ones; one that is
clean by now goes (R148, R149). -/
def forceWay (s : State) (x : Nat × CacheSeg) : State :=
  if !x.2.evicting then s
  else if x.2.dirty = 0#4 then (if s.mp.writeBacks.any fun w => w.1 / 4 = x.1 then s else giveWay s x.1)
  else ((List.range 4).filter fun i => x.2.dirty.getLsbD i || x.2.heat.getLsbD i).foldl (fun s i => startWriteBack s (x.1 * 4 + i)) s

/-- Cached segments. -/
def cachedSegs (s : State) : List (Nat × CacheSeg) := s.mp.cache.filterMap fun x => x.2.map fun c => (x.1, c)

/-- Cleaning runs as class-3 work from DIRTY_MAX until below seven eighths of it; that it then starts the write-back of every
dirty line at each boundary is the model's choice (R150, log 105). -/
def cleanAll (s : State) : State :=
  let on := s.mp.dirtyMax ≤ mapDirty s || (s.mp.cleaning && 7 * s.mp.dirtyMax ≤ 8 * mapDirty s)
  let s := { s with mp := { s.mp with cleaning := on } }
  if on && mediaRuns s && (roleCore s 10).isSome then
    (cachedSegs s).foldl (fun s x => x.2.dirtyLines.foldl (fun s i => startWriteBack s (x.1 * 4 + i)) s) s
  else s

/-- Replica rewrites that waited start once their line is free (R138, R146). -/
def startRewrites (s : State) : State :=
  s.mp.rewrites.foldl (fun s x => rewriteReplica s (x / 2) (x % 2)) { s with mp := { s.mp with rewrites := [] } }

/-- What the map has waiting goes on at a boundary. -/
def mapUpkeep (s : State) : State :=
  if !mediaUp s || s.mp.mapNr = 0 then s
  else
    let s := s.mp.writeBacks.foldl dropAbsent s
    let s := s.mp.wayWaits.foldl chooseWay s
    let s := (cachedSegs s).foldl forceWay s
    placeWaiting (cleanAll (startRewrites s))

/-- Unreported discards of every rank (R215). -/
def discardReports (s : State) : State := s.sag.discarded.foldl (fun s x => reportDiscards s x.1) s

/-- MAP_CLEANING_VISIT (R150): core 10 writes every dirty line of the set back. -/
def execMapCleaningVisit (set : Fin 131072) (s : State) : Host.Outcome State Fault Refusal :=
  .next (if mediaRuns s && (roleCore s 10).isSome then (dirtyOfSet s set.val).foldl startWriteBack s else s)

/-- MAP_WRITE_BACK_VERIFIED (R141, R151). -/
def execMapWriteBackVerified (leafLine : Nat) (replica : Fin 2) (s : State) : Host.Outcome State Fault Refusal :=
  .next (writeBackDone s leafLine replica.val)

/-! ### Rotation and swaps (R137 to R140, R368) -/

/-- A gap move of a node's home runs (R138, R368). -/
def nodeGapHolds (s : State) (a : Nat) : Bool :=
  s.mp.mapNr ≠ 0 && ([0, 1].any fun k =>
    let t := rot s (homeRank s a k)
    t.tcopying && rotate s.mp.treeN t.tstart t.tgap (2 * (a / s.mp.mapNr) + k) = if t.tgap = 0 then s.mp.treeN else t.tgap - 1)

/-- GAP_MOVE (R137): after 64 writes of leaves, or of nodes, the copy of the next position starts; not while a write of what
lies there is in flight (R138). -/
def execGapMove (r : Rank) (tree : Bool) (s : State) : Host.Outcome State Fault Refusal :=
  .next (if !mediaRuns s || r.val ∉ s.mp.mapRanks then s
  else
    let t := rot s r.val
    if tree then
      if t.twrites < 64 || t.tcopying then s
      else
        let s' := updRot s r.val fun t => { t with tcopying := true, twrites := t.twrites - 64 }
        if s.ig.heldNodes.any (nodeGapHolds s') then s else s'
    else if t.writes < 64 || t.copying then s
    else
      let s' := updRot s r.val fun t => { t with copying := true, writes := t.writes - 64 }
      if s.mp.writeBacks.any fun w => gapHolds s' (leafOfLine w.1) then s else s')

/-- The registers after a gap move (R137). -/
def gapStep (n start gap : Nat) : Nat × Nat := if gap = 0 then ((start + 1) % n, n) else (start, gap - 1)

/-- The ROTATION record: START, GAP, TSTART and TGAP per rank (R139, R585). -/
def rotationBytes (s : State) : List Byte :=
  ((List.range 64).map fun r =>
    let t := rot s r
    leBytes 4 t.start ++ leBytes 4 t.gap ++ leBytes 4 t.tstart ++ leBytes 4 t.tgap).flatten

/-- GAP_MOVE_VERIFIED (R138, R139): the registers change; they are saved after every 4,096 moves. -/
def execGapMoveVerified (r : Rank) (tree : Bool) (s : State) : Host.Outcome State Fault Refusal :=
  .next (
    let t := rot s r.val
    if tree then
      if t.tcopying then
        let g := gapStep s.mp.treeN t.tstart t.tgap
        let s := updRot s r.val fun t => { t with tcopying := false, tstart := g.1, tgap := g.2, tmoves := satAdd 32 t.tmoves 1 }
        if (rot s r.val).tmoves % 4096 = 0 then keepPut s 0x23 (rotationBytes s) else s
      else s
    else if t.copying then
      let g := gapStep s.mp.mapN t.start t.gap
      let s := updRot s r.val fun t => { t with copying := false, start := g.1, gap := g.2, moves := satAdd 32 t.moves 1 }
      if (rot s r.val).moves % 4096 = 0 then keepPut s 0x23 (rotationBytes s) else s
    else s)

/-- Blocks of a stripe that are retired, factory bad or grown (R140, R321). -/
def retiredBlocks (s : State) (bs : Nat) : Nat :=
  ((rankLinks (bsRank bs)).filter fun n => blockRetired s n bs).length

/-- A stripe serves the map or tree area of its rank: it lies there or has been swapped in, and has not been swapped out
(R136, R140). -/
def servesMap (s : State) (bs : Nat) : Bool :=
  let t := rot s (bsRank bs)
  (treeBlkFirst s ≤ bsBlock bs || t.swaps.any fun x => x.2 = bs % 81920) && !(t.swaps.any fun x => x.1 = bs % 81920)

/-- A map or tree block stripe is due a swap: two retired blocks, or 2^41 line writes (R140, R319). -/
def swapDue (s : State) (bs : Nat) : Bool :=
  s.mp.mapN ≠ 0 && servesMap s bs && (2 ≤ retiredBlocks s bs || 2 ^ 41 ≤ (stripe s bs).lineWrites)

/-- A stripe can take the place of a map block stripe: BLANK, outside the system areas, and eligible for bisque (R140,
R318). -/
def swapTarget (s : State) (bs : Nat) : Bool :=
  (stripe s bs).state = .blank && bsState s bs ≠ .system && !(stripe s bs).degraded && allocEligible s (stripe s bs)

/-- MAP_STRIPE_SWAP (R140): the copy onto a blank stripe starts, or has verified and sets the swap register; a ninth
swap raises the critical event instead. -/
def execMapStripeSwap (r : Rank) (src dst : Nat) (verified : Bool) (s : State) : Host.Outcome State Fault Refusal :=
  .next (
    let t := rot s r.val
    let from' := r.val * 81920 + src
    let to' := r.val * 81920 + dst
    if verified then
      if t.swapping = some (src, dst) then
        updStripe (updRot s r.val fun t => { t with swapping := none, swaps := t.swaps ++ [(src, dst)] }) from'
          fun b => { b with state := .retired }
      else s
    else if src < 81920 && dst < 81920 && swapDue s from' && t.swapping.isNone then
      if 8 ≤ t.swaps.length then raise s 0x3B r.val src 0 0 0
      else if swapTarget s to' then
        recordStripe (updStripe (updRot s r.val fun t => { t with swapping := some (src, dst), swapWls := 0 }) to'
          fun b => { b with state := .system, bisque := true, buses := b.buses + 1 }) to'
      else s
    else s)

end Sys2Proof.Machine
end

