-- ==== Sys2Proof/Machine/Drift.lean ====
section
/-! DEFINITION. Drift: ages, temperature history, reference sets, cones, the tuning loops and the cone sweep
(R262 to R284, R329). -/
namespace Sys2Proof.Machine

/-! ### Bins (R265, R268) -/

/-- TH[k] (R265). -/
def binStart : List Nat :=
  [1, 2, 4, 6, 10, 18, 32, 57, 100, 178, 317, 563, 1000, 1779, 3163, 5624, 10000, 17783, 31623, 56235] ++
  [100000, 177828, 316228, 562342, 1000000, 1778280, 3162278, 5623414, 10000000, 17782795, 31622777, 56234133,
    100000000, 177827942, 316227767, 562341326, 1000000000, 1778279411, 3162277661]

def th (k : Nat) : Nat := nth binStart k

/-- bin(a), the largest k with TH[k] ≤ a; an age beyond TH[38] stays in bin 38 (R265). -/
def ageBin (a : Nat) : Nat := (binStart.filter fun t => t ≤ a).length - 1

/-- The largest n in 0-20 with ATH[n] ≤ A, where ATH[n] is the least A with A^4 ≥ 256^4 × 10^n (R268). -/
def tempSteps (a : Nat) : Nat := ((List.range 21).filter fun n => 256 ^ 4 * 10 ^ n ≤ a ^ 4).length - 1

/-- FT[x] = floor(256 × (ACCEL/16)^(x/10)): the largest n with n^10 × 16^x ≤ 256^10 × ACCEL^x (R267). -/
def accelFactor (accel x : Nat) : Nat :=
  (List.range 40).foldl (fun n i =>
    let m := n + 2 ^ (39 - i)
    if m ^ 10 * 16 ^ x ≤ 256 ^ 10 * accel ^ x then m else n) 0

/-! ### Die groups and dies -/

/-- The descriptor that counts for a link; a link without an accepted package has none. -/
def pkgOf (s : State) (n : Nat) : Pkg := ((link s n).pkg).getD {}

/-- NUB[b] (R68). -/
def nub (p : Pkg) (b : Nat) : Int := ((nth p.nu b + nth p.nu (b + 1)) / 2 : Nat)

/-- The state of die group (n, q), starting from the descriptor (R273). -/
def dieGroup (s : State) (n q : Nat) : DieGroup :=
  let g := tget {} s.dr.groups (n * 5 + q)
  if g.nut.isEmpty then { g with nut := (List.range 7).map (nub (pkgOf s n)) } else g
def setGroup (s : State) (n q : Nat) (g : DieGroup) : State :=
  { s with dr := { s.dr with groups := tset {} s.dr.groups (n * 5 + q) g } }

/-- The tuning state of a die, starting from the descriptor (R278, R279). -/
def dieTune (s : State) (n d : Nat) : DieTune :=
  let t := tget {} s.dr.dies (n * 17 + d)
  if t.tgt.isEmpty then
    { t with tgt := (List.range 7).map (fun b => ((nth (pkgOf s n).refDefault b + 16 : Nat) : Int)), step := (pkgOf s n).stepStart }
  else t
def setTune (s : State) (n d : Nat) (t : DieTune) : State :=
  { s with dr := { s.dr with dies := tset {} s.dr.dies (n * 17 + d) t } }

/-- Die group of a die position (R266). -/
def groupOfDie (d : Nat) : Nat := if d = 16 then 4 else d / 4

/-! ### Age (R263, R329) -/

/-- T of R329: the second before which a rebuilt position cannot have been fired. -/
def rebuiltSince (s : State) (n d : Nat) : Nat :=
  let w := linkWear s n
  max (if w.rebuilt || w.rebuilding then w.rebuiltAt else 0) (if w.subst && w.substDie = d then w.substAt else 0)

/-- Age ag of a word line of a glaze stripe on a link (R263, R329). -/
def ageOf (s : State) (bs wl n : Nat) : Nat :=
  let r := stripe s bs
  let now := s.clk.seconds
  let t := rebuiltSince s n (bsDie bs)
  let young := decide (r.fired < t)
  let a := max (now - (if young then t else r.fired)) 1
  let span := if young then 0 else if r.state = .open then a else th r.lag
  max (a - span * 1024 * (wl / 1024) / max r.wls 1) 1

/-- TC of a bin (R268); 0 throughout while THERM_EN is 0. -/
def tempCorrection (s : State) (n q k : Nat) : Nat := if thermEn s then nth (dieGroup s n q).tc k else 0

/-- ebin of a word line on a link (R268). -/
def effectiveBin (s : State) (bs wl n : Nat) : Nat :=
  let k := ageBin (ageOf s bs wl n)
  min (k + tempCorrection s n (groupOfDie (dieFor s n (bsDie bs))) k) 38

/-- The reference set of a glaze sense on a link (R272). -/
def refSetOf (s : State) (bs wl n : Nat) : Nat := max (effectiveBin s bs wl n - 7) 2

/-- Boundary code b of a reference set of a die (R271, R273). -/
def refCode (s : State) (n d set b : Nat) : Int :=
  let p := pkgOf s n
  if set = 0 then
    let r : Int := (p.refBisque : Int)
    if b = 0 then r else if b = 1 then r + 24 else if b = 2 then r - 24
    else (min p.refBisque (nth p.refDefault 0) : Int) - 24
  else if set = 1 then (dieTune s n d).tgt.getD b 0
  else
    let g := dieGroup s n (groupOfDie d)
    let h : Int := if set = 2 then 10 else 2 * set + 15
    let code := (nth p.refDefault b : Int) + Int.tdiv (g.nut.getD b 0 * p.codePerDecade * h) 8192 + g.intc.getD b 0
    min (max code 1) 1023

/-! ### Temperature history (R267, R268, R269) -/

/-- A telemetry temperature in 1/16 degree: the low half, signed (R99). -/
def telTemp (s : State) (n d : Nat) : Int := ((tget 0 (link s n).tel d).setWidth 16 : BitVec 16).toInt

/-- Highest die temperature of a group in whole degrees. -/
def groupTemp (s : State) (n q : Nat) : Int :=
  let ds := if q = 4 then [16] else (List.range 4).map (4 * q + ·)
  (ds.foldl (fun m d => max m (telTemp s n d)) (telTemp s n (ds.headD 0))) / 16

/-- FT at the group's present temperature. -/
def groupFactor (s : State) (n q : Nat) : Nat :=
  accelFactor (pkgOf s n).accel (min (max (groupTemp s n q - 25) 0) 100).toNat

/-- The TC table of a group from its rungs (R268). -/
def tcTable (v : List Int) : List Nat :=
  (List.range 39).map fun k => tempSteps ((v.getD (min (k * 53 / 128) 15) 0) / 2 ^ 32).toNat

/-- One tick of the 16 rungs (R267). -/
def tickGroup (f : Nat) (g : DieGroup) : DieGroup :=
  let v := (List.range 16).map fun j => let x := g.v.getD j 0; x + ((f : Int) * 2 ^ 32 - x) / 2 ^ (2 * j)
  { g with v := v, tc := tcTable v }

/-- n missed ticks at the factor fc (R269). -/
def catchUpGroup (n fc : Nat) (g : DieGroup) : DieGroup :=
  let v := (List.range 16).map fun j =>
    let x := g.v.getD j 0
    x - Int.tdiv ((x - (fc : Int) * 2 ^ 32) * (min n (4 ^ j) : Nat)) (4 ^ j)
  { g with v := v, tc := tcTable v }

/-- Links that hold an accepted package. -/
def pkgLinks (s : State) : List Nat := s.ln.links.filterMap fun x => if x.2.pkg.isSome then some x.1 else none

/-- Change every die group of every accepted package. -/
def eachGroup (s : State) (f : State → Nat → Nat → DieGroup → DieGroup) : State :=
  (pkgLinks s).foldl (fun t n => (List.range 5).foldl (fun t q => setGroup t n q (f s n q (dieGroup s n q))) t) s

/-- Catch-up of every group by n ticks at a factor (R269). -/
def catchUp (s : State) (n : Nat) (fc : State → Nat → Nat → Nat) : State :=
  if n = 0 then s else eachGroup s fun s l q g => catchUpGroup n (fc s l q) g

/-- DRIFT_TICK (R267, R268). -/
def execDriftTick (s : State) : Host.Outcome State Fault Refusal :=
  .next (if awake s then
    let s := eachGroup s fun s n q g => tickGroup (groupFactor s n q) g
    { s with dr := { s.dr with lastUpdate := s.clk.beat } }
  else s)

/-- The rungs, coefficients and targets go to media (R270). -/
def saveDrift (s : State) : State := { s with dr := { s.dr with savedGroups := s.dr.groups, savedDies := s.dr.dies, savedAt := s.clk.seconds } }

/-- DRIFT_STATE_SAVE (R270). -/
def execDriftStateSave (s : State) : Host.Outcome State Fault Refusal := .next (if awake s then saveDrift s else s)

/-! ### Captures (R275, R276) -/

/-- Groups of a stripe whose verify pass has completed: all of a closed stripe, those passed of an open one. -/
def passedGroups (s : State) (bs : Nat) : List Nat :=
  let r := stripe s bs
  if r.state = .open then
    (((rankPl s (bsRank bs)).opens.find? fun x => x.2.bs = bs).map fun x => sortBy (· ≤ ·) x.2.passed).getD []
  else if r.wls = 0 then [] else List.range ((r.wls - 1) / 1024 + 1)

/-- Glaze stripes of a rank that the drift loop walks (R276, R283), with their next groups. -/
def capturePoints (s : State) (r : Nat) : List (Nat × Nat) :=
  ((rankStripes s r).filterMap fun x =>
    if !x.2.bisque && (x.2.state = .full || x.2.state = .open) && !x.2.unswept then
      some ((passedGroups s x.1).map fun g => (x.1, g)) else none).flatten

/-- In-service links of a stripe. -/
def inServiceLinks (s : State) (bs : Nat) : List Nat :=
  (rankLinks (bsRank bs)).filter fun n => !posOut s bs (n % 18)

/-- CONE_CAPTURE (R276): the next group of the walk, wrapping at the end. -/
def execConeCapture (r : Rank) (s : State) : Host.Outcome State Fault Refusal :=
  .next (
    let pts := capturePoints s r.val
    let last := tget (0, 0) s.dr.walk r.val
    let after := pts.filter fun x => last.1 < x.1 || (last.1 = x.1 && last.2 < x.2)
    match (if driftLoopEn s && awake s then (after ++ pts).head? else none) with
    | none => s
    | some p => { s with dr := { s.dr with
        walk := tset (0, 0) s.dr.walk r.val p
        inFlight := s.dr.inFlight ++ [{ rank := r.val, bs := p.1, group := p.2 }] } })

/-- The target loop's capture of a released group (R278). -/
def targetCapture (s : State) (bs group : Nat) : State :=
  if targetLoopEn s && !(stripe s bs).unswept then
    { s with dr := { s.dr with inFlight := s.dr.inFlight ++ [{ rank := bsRank bs, bs := bs, group := group, target := true }] } }
  else s

/-! ### The drift loop (R277) -/

/-- The level to which auxiliary cell c of a group's first word line is programmed (R63). -/
def coneLevel (c : Nat) : Nat := c % 8

/-- Auxiliary cell c of a word line: its level in a programmed cone group's first word line, none (blank) elsewhere
(R63). -/
def auxCell (s : State) (bs wl c : Nat) : Option Nat :=
  if wl % 1024 = 0 && decide (bs * 64 + wl / 1024 ∈ s.mp.cones) then some (coneLevel c) else none

/-- Cells of level L in a mask. -/
def levelCount (mask : BitVec 64) (l : Nat) : Nat := ((List.range 64).filter fun c => coneLevel c = l && mask.getLsbD c).length

/-- s of R277 for a boundary. -/
def boundaryBalance (up down : BitVec 64) (b : Nat) : Int := (levelCount up b : Int) - (levelCount down (b + 1) : Int)

/-- Limits of NUT[b] (R273). -/
def nutLow (p : Pkg) (b : Nat) : Int := max (nub p b - 32) 0
def nutHigh (p : Pkg) (b : Nat) : Int := min (nub p b + 32) 160

/-- What one capture does to one boundary: the group, whether a coefficient changed, whether it has been held at a
limit for four consecutive updates. -/
def tuneBoundary (p : Pkg) (k : Nat) (up down : BitVec 64) (x : DieGroup × Nat × List Nat) (b : Nat) :
    DieGroup × Nat × List Nat :=
  let g := x.1
  let acc := g.acc.getD b 0 + boundaryBalance up down b
  let cnt := nth g.cnt b + 1
  let ks := nth g.ksum b + k
  if cnt < 256 then
    ({ g with acc := g.acc.set b acc, cnt := g.cnt.set b cnt, ksum := g.ksum.set b ks }, x.2)
  else
    let d : Int := if 64 < acc then 1 else if acc < -64 then -1 else 0
    let old := 20 ≤ ks / 256
    let nut := g.nut.getD b 0
    let it := g.intc.getD b 0
    let nut' := if old then min (max (nut + d) (nutLow p b)) (nutHigh p b) else nut
    let it' := if old then it else min (max (it + d) (-48)) 48
    let held := d ≠ 0 && nut' = nut && it' = it
    let n := if held then nth g.atLimit b + 1 else 0
    ({ g with acc := g.acc.set b 0, cnt := g.cnt.set b 0, ksum := g.ksum.set b 0, nut := g.nut.set b nut'
              intc := g.intc.set b it', atLimit := g.atLimit.set b n },
      x.2.1 + (if nut' ≠ nut || it' ≠ it then 1 else 0), if n = 4 then x.2.2 ++ [b] else x.2.2)

/-- Queue a reload of a link's sets: code q for sets 2-31 of die group q, 8 + d for set 1 of die d (R274). -/
def queueReload (s : State) (n code : Nat) : State :=
  let rest := s.dr.reloads.filter fun x => !(x.1 = n && x.2.1 = code)
  { s with dr := { s.dr with reloads := rest ++ [(n, code, 0)] } }

/-- Masks of a drift capture (R277). -/
def driftMasks (s : State) (n bs group : Nat) (up down : BitVec 64) : State :=
  let q := groupOfDie (dieFor s n (bsDie bs))
  let k := effectiveBin s bs (1024 * group) n
  let x := (List.range 7).foldl (tuneBoundary (pkgOf s n) k up down) (dieGroup s n q, 0, [])
  let s := setGroup s n q x.1
  let s := if 0 < x.2.1 then
      queueReload { s with dr := { s.dr with coefChanges := satAdd 16 s.dr.coefChanges x.2.1 } } n q else s
  x.2.2.foldl (fun s b => raise s 0x5 (n / 18) n q b 0) s

/-! ### The program-target loop (R278, R279) -/

/-- Sum of the newest captures' DL for a level. -/
def dlSum (dl : List (List Nat)) (l : Nat) : Nat := (dl.map fun x => nth x (l - 1)).sum

/-- Masks of a target capture (R278). With fewer than 256 captures made, "the last 256" are those made so far, so that a target
can fall after the first 64: the model's choice (log 102). -/
def targetMasks (s : State) (n d : Nat) (down : BitVec 64) : State :=
  let t := dieTune s n d
  let dl := ((List.range 7).map fun i => levelCount down (i + 1)) :: t.dl.take 255
  let t := { t with dl := dl, captures := t.captures + 1 }
  if t.captures % 64 ≠ 0 then setTune s n d t
  else
    let next (i : Nat) : Int :=
      let r : Int := (nth (pkgOf s n).refDefault i : Int)
      let v := t.tgt.getD i 0
      let v' := if 16 ≤ dlSum (dl.take 64) (i + 1) then v + 1 else if dlSum dl (i + 1) = 0 then v - 1 else v
      min (max v' (r + 4)) (r + 48)
    let tgt := (List.range 7).map next
    let changed := ((List.range 7).filter fun i => tgt.getD i 0 ≠ t.tgt.getD i 0).length
    let s := setTune s n d { t with tgt := tgt }
    if 0 < changed then
      queueReload { s with dr := { s.dr with targetChanges := satAdd 16 s.dr.targetChanges changed } } n (8 + d)
    else s

/-- CONE_MASKS (R275 to R278): a link's masks for the capture in flight on its die stand in the plane's cone register; a capture whose stripe has left
FULL, OPEN and VICTIM is discarded. -/
def execConeMasks (l : LinkNo) (die : DieNo) (up down : BitVec 64) (s : State) : Host.Outcome State Fault Refusal :=
  .next (
    match s.dr.inFlight.find? fun c => c.rank = l.val / 18 && dieFor s l.val (bsDie c.bs) = die.val && l.val ∉ c.seen with
    | none => s
    | some c =>
      let st := bsState s c.bs
      let drop := { s with dr := { s.dr with inFlight := s.dr.inFlight.erase c } }
      if st ≠ .full && st ≠ .open && st ≠ .victim then drop
      else if l.val ∉ inServiceLinks s c.bs then s
      else
        let c' := { c with seen := c.seen ++ [l.val] }
        let all := (inServiceLinks s c.bs).all fun n => n ∈ c'.seen
        let s := { s with ln := { s.ln with
          coneRegs := tset (0, 0) s.ln.coneRegs ((l.val * 17 + die.val) * 4 + bsPlane c.bs) (up, down) } }
        let s := { s with dr := { s.dr with
          inFlight := if all then s.dr.inFlight.erase c else s.dr.inFlight.map fun x => if x = c then c' else x
          captures := if c.seen.isEmpty then satAdd 32 s.dr.captures 1 else s.dr.captures } }
        if c.target then targetMasks s l.val die.val down else driftMasks s l.val c.bs c.group up down)

/-- Word lines verified on a die feed its start step (R279): the pulse count of one program, while the loop runs
(DRFT_CTRL). -/
def stepUpdate (s : State) (n d pulses : Nat) : State :=
  let t := dieTune s n d
  let t := { t with wls := t.wls + 1, pulseSum := t.pulseSum + pulses }
  if !targetLoopEn s then s
  else if t.wls < 64 then setTune s n d t
  else
    let low := (pkgOf s n).stepStart - 8
    let step := if 88 * 64 < t.pulseSum then min (t.step + 1) 63
      else if t.pulseSum < 64 * 64 then max (t.step - 1) low else t.step
    let s := if step ≠ t.step then { s with dr := { s.dr with targetChanges := satAdd 16 s.dr.targetChanges 1 } } else s
    setTune s n d { t with step := step, wls := 0, pulseSum := 0 }

/-! ### Continuity and the sweep (R280 to R284) -/

/-- The rungs start afresh (R280). -/
def resetRungs (s : State) : State :=
  { s with dr := { s.dr with groups := s.dr.groups.foldl (fun t x =>
      tset {} t x.1 { x.2 with v := List.replicate 16 (256 * 2 ^ 32), tc := List.replicate 39 0 }) [] } }

/-- Largest FIRED of the table. -/
def maxFired (s : State) : Nat := s.pl.stripes.foldl (fun m x => max m x.2.fired) 0

/-- Stripes that await the sweep. -/
def unswept (s : State) (r : Nat) : List Nat :=
  s.pl.stripes.filterMap fun x => if x.2.unswept && bsRank x.1 = r then some x.1 else none

/-- DRFT_READY: bit r of a populated rank without an UNSWEPT stripe (R280). -/
def driftReady (s : State) : Nat := s.mp.pop.foldl (fun m r => if (unswept s r).isEmpty then m + 2 ^ r else m) 0

/-- Loss of continuity (R280): the count is raised, the rungs are reset, FULL glaze stripes become UNSWEPT. -/
def continuityLoss (s : State) : State :=
  let s := { s with clk := { s.clk with seconds := max s.clk.seconds (max (maxFired s + 1) (2 ^ 32)), cont := true } }
  let s := resetRungs s
  let full := s.pl.stripes.filterMap fun x => if x.2.state = .full && !x.2.bisque then some x.1 else none
  full.foldl (fun s bs => updStripe s bs fun r => { r with unswept := true }) s

/-- The binary search of R281 over the sums S(n) reported for a group; a set without a sum counts as 0. -/
def probe (sums : List (Nat × Nat × Int)) (g : Nat) : Nat :=
  let sum (n : Nat) : Int := ((sums.find? fun x => x.1 = g && x.2.1 = n).map fun x => x.2.2).getD 0
  let e := (List.range 5).foldl (fun (b : Nat × Nat) _ =>
    if b.1 < b.2 then
      let mid := (b.1 + b.2) / 2
      if 0 < sum mid then (mid + 1, b.2) else (b.1, mid)
    else b) (2, 31)
  if e.1 = 2 then 5 else e.1 + 7

/-- Reads that waited for a stripe's cones go on from the entry that they took, with their senses; on a parked or failed rank
they end in poison (R108, R176, R185). -/
def resumeCones (s : State) (bs : Nat) : State :=
  (s.hq.reads.filter fun r => r.stage = .cones bs).foldl (fun s r =>
    let l : Lookup := match lineSource r.taken r.line true with
      | .media slot b => mediaLookup s slot r.line b
      | _ => {}
    let r' := { r with stage := l.stage, path := r.path ||| l.path }
    commandRead { s with hq := { s.hq with reads := s.hq.reads.map fun x => if x = r then r' else x } } r' (s.clk.beat + 1)) s

/-- The reads of a rank that wait for cones go on: the rank cannot be swept now (R108, R160, R282). -/
def releaseCones (s : State) (r : Nat) : State := (unswept s r).foldl resumeCones s

/-- The stripe that a rank's sweep takes next: one that a read waits for, else the lowest (R282). -/
def nextSweep (s : State) (r : Nat) : Option Nat :=
  let l := unswept s r
  match (tget [] s.dr.sweepFront r).find? fun b => b ∈ l with
  | some b => some b
  | none => l.foldl (fun m b => match m with | none => some b | some x => some (min x b)) none

/-- The sweep ends, with its event, when no stripe is UNSWEPT any more: one that is blanked leaves it, one of a rank with three
lost links stays in it (R282). -/
def endSweep (s : State) : State :=
  if !s.dr.sweepActive || (s.pl.stripes.any fun x => x.2.unswept) then s
  else raise { s with dr := { s.dr with sweepActive := false } } 0x4 srcDevice 0 0 0 0

/-- STRIPE_SWEEP (R281, R282): a stripe's FIRED, LAG and UNSWEPT are set; when none is left the sweep ends. -/
def execStripeSweep (bs : StripeNo) (sums : List (Nat × Nat × Int)) (s : State) : Host.Outcome State Fault Refusal :=
  .next (
    let r := stripe s bs.val
    if !s.dr.sweepActive || !r.unswept || 3 ≤ lostLinks s (bsRank bs.val) || nextSweep s (bsRank bs.val) ≠ some bs.val then s
    else
      let gt := (r.wls - 1) / 1024
      let kh := probe sums 0
      let kt := probe sums gt
      let s := updStripe s bs.val fun r => { r with
        fired := s.clk.seconds - th kh
        lag := if gt = 0 then 0 else ageBin (max (th kh - th kt) 1)
        unswept := false }
      let s := { s with dr := { s.dr with
        swept := s.dr.swept + 1
        sweepFront := tset [] s.dr.sweepFront (bsRank bs.val) ((tget [] s.dr.sweepFront (bsRank bs.val)).filter (· ≠ bs.val)) } }
      endSweep (resumeCones s bs.val))

end Sys2Proof.Machine
end

