-- ==== Sys2Proof/Machine/Place.lean ====
section
/-! DEFINITION. Placement: open stripes, firing, guard parity, blanking, reclaim, the bisque budget, levelling,
relocation, restamp and refresh (R125, R130, R152 to R155, R228 to R259, R298, R299, R315 to R322, R504). -/
namespace Sys2Proof.Machine

/-! ### Open stripes (R242 to R244, R246, R251) -/

def openOf (s : State) (r p : Nat) : Option OpenSt := ((rankPl s r).opens.find? fun x => x.1 = p).map (·.2)

/-- Set or clear the open stripe of a purpose; entries stay in ascending purpose. -/
def setOpen (s : State) (r p : Nat) (v : Option OpenSt) : State :=
  updRank s r fun x => { x with opens :=
    (x.opens.filter fun y => y.1 < p) ++ (match v with | some o => [(p, o)] | none => []) ++ x.opens.filter fun y => p < y.1 }

def updOpen (s : State) (r p : Nat) (f : OpenSt → OpenSt) : State :=
  match openOf s r p with
  | none => s
  | some o => setOpen s r p (some (f o))

/-- BLANK glaze stripes of a rank. -/
def blankGlaze (s : State) (r : Nat) : List (Nat × BsRec) :=
  (rankStripes s r).filter fun x => x.2.state = .blank && !x.2.bisque

/-- The placement that R243 seeks: one die position with the partner purpose, on another plane, apart from the die
position of the other pair. -/
def placedWell (s : State) (r p bs : Nat) : Bool :=
  let partner := openOf s r (if p % 2 = 0 then p + 1 else p - 1)
  let others := [openOf s r ((p / 2 * 2 + 2) % 4), openOf s r ((p / 2 * 2 + 3) % 4)]
  (match partner with
    | some o => bsDie o.bs = bsDie bs && bsPlane o.bs ≠ bsPlane bs
    | none => true) &&
  others.all fun o => match o with | some o => bsDie o.bs ≠ bsDie bs | none => true

/-- The stripe that a purpose opens next (R243). -/
def chooseOpen (s : State) (r p : Nat) : Option Nat :=
  let c := (blankGlaze s r).filter fun x => !x.2.degraded
  match leastBy (fun x => [x.2.cycles, x.1]) c with
  | none => none
  | some m =>
    match leastBy (fun x => [x.2.cycles, x.1]) (c.filter fun x => x.2.cycles ≤ m.2.cycles + 64 && placedWell s r p x.1) with
    | some x => some x.1
    | none => some m.1

/-- A rank with two or more lost links opens no stripe and fires no page; reclaim still evacuates a DEGRADED victim (R246), which
the model ends at a third lost link, where nothing of it can be decoded (log 115). -/
def rankShut (s : State) (r p : Nat) : Bool :=
  2 ≤ lostLinks s r && !(p = 2 && lostLinks s r < 3 &&
    match (rankPl s r).victim with | some bs => (stripe s bs).degraded | none => false)

/-- Open a stripe for a purpose when none is open. -/
def openStripe (s : State) (r p : Nat) : State :=
  if (openOf s r p).isSome || rankShut s r p then s
  else match chooseOpen s r p with
    | none => s
    | some bs =>
      let s := updStripe s bs fun b => { b with state := .open, wls := 0, valid := 0, lag := 0 }
      setOpen s r p (some { bs := bs })

/-- Groups of an open stripe that hold a verified word line. -/
def stripeGroups (wls : Nat) : List Nat := List.range ((wls + 1023) / 1024)

/-- An open stripe closes: FULL with its lag, RELEASED when no slot of it is valid, though not at startup (R227), BLANK when
nothing was programmed, DIRTY when only a program that failed or was cut touched it (R49, R227, R244, R251, R264, R284). -/
def closeStripe (s : State) (r p : Nat) : State :=
  match openOf s r p with
  | none => s
  | some o =>
    let s := setOpen s r p none
    let touched := s.mp.media.any fun x => slotBs (x.1 / 64) = o.bs
    updStripe s o.bs fun b => { b with
      state := if b.wls = 0 then (if touched then .dirty else .blank) else if b.valid = 0 && o.keptLag.isNone then .released else .full
      lag := if b.wls = 0 then 0 else o.keptLag.getD (ageBin (max (s.clk.seconds - b.fired) 1)) }

/-- The stripe takes no more word lines and closes when its last verify pass ends (R244, R249, R251). -/
def beginClose (s : State) (r p : Nat) : State :=
  match openOf s r p with
  | none => s
  | some o =>
    if (stripe s o.bs).wls = 0 then closeStripe s r p
    else if (stripeGroups (stripe s o.bs).wls).all (· ∈ o.passed) then closeStripe s r p
    else updOpen s r p fun o => { o with closing := true }

/-! ### Guard sets (R247 to R249) -/

def OpenSt.guard (o : OpenSt) (k : Nat) : GuardSet := if k = 0 then o.g0 else o.g1
def OpenSt.setGuard (o : OpenSt) (k : Nat) (g : GuardSet) : OpenSt := if k = 0 then { o with g0 := g } else { o with g1 := g }

/-- Add a verified word line; the first one of a group resets its set (R247). -/
def guardAdd (o : OpenSt) (w : Nat) : OpenSt :=
  let k := w / 1024 % 2
  if w % 1024 = 0 then o.setGuard k { group := w / 1024, added := [w] }
  else o.setGuard k { o.guard k with added := (o.guard k).added ++ [w] }

/-! ### Identities and validity (R152) -/

/-- The identity that one data segment of a slot gives: its written lines all read intact and agree. Where only some of a
bisque segment's four lines are written, those give the identity: the model's choice (log 104). -/
def segmentIdent (s : State) (slot p : Nat) : Option Nat :=
  let imgs := ((List.range 4).map fun u => mediaImg s slot (4 * p + u)).filter (· ≠ .blank)
  let recs := imgs.filterMap fun i => match i with | .line r => if r.mapdata then none else some r.ident | _ => none
  match recs with
  | x :: rest => if rest.length + 1 = imgs.length && rest.all (· = x) then some x else none
  | [] => none

/-- The identity read from a slot, from any in-service data segment of its page stripe that reads intact; `skip` names the
positions that a sense found failing (R152). -/
def identFrom (s : State) (slot : Nat) (skip : Nat → Bool) : Option Nat :=
  (List.range 16).findSome? fun p => if posOut s (slotBs slot) p || skip p then none else segmentIdent s slot p

def slotIdent (s : State) (slot : Nat) : Option Nat := identFrom s slot fun _ => false

/-- The entry of a page names the slot (R152). -/
def namesSlot (s : State) (slot : Nat) (bisque : Bool) (p : Nat) : Bool :=
  let e := entryNow s p
  if bisque then e.bisqueHome = slot
  else e.glazeHome = slot && (e.state = .glaze || e.state = .split || e.state = .discardPending)

/-- A slot is valid: its page's entry names it (R152). -/
def slotValid (s : State) (slot : Nat) (bisque : Bool) : Option Nat :=
  (slotIdent s slot).bind fun p => if namesSlot s slot bisque p then some p else none

/-- The entries of the pages that some slots carry are looked up through the map cache (R147, R153). -/
def fetchSlots (s : State) (slots : List Nat) : State :=
  slots.foldl (fun s x => match slotIdent s x with | some p => touchSeg (fetchSeg s p) (segNo p) | none => s) s

/-- Slots of a stripe with content, ascending. -/
def stripeSlots (s : State) (bs : Nat) : List Nat :=
  (s.mp.media.filterMap fun x => if slotBs (x.1 / 64) = bs then some (x.1 / 64) else none).dedup

/-- Pages of a stripe that still have a home in it, in ascending slot. -/
def validPages (s : State) (bs : Nat) : List (Nat × Nat) :=
  let b := (stripe s bs).bisque
  (stripeSlots s bs).filterMap fun slot => (slotValid s slot b).map fun p => (slot, p)

/-! ### Choosing pages to fire (R236, R237) -/

/-- No saggar line of the page has FILL set (R213, R221, R236). -/
def noFill (s : State) (page : Nat) : Bool :=
  !((List.range 64).any fun i => match sagLine s page i with | some l => l.fill | none => false)

/-- The cold test but for its heat limit (R236). -/
def coldTest (s : State) (page : Nat) (e : MapEntry) : Bool :=
  (e.state = .split || e.state = .bisqueWhole) && !e.pin &&
  (((pageRegion s page).map fun n => (region s n).policy).getD 0) = 0 && !e.secure && noFill s page

/-- Bisque use has reached the budget (R237). -/
def budgetFull (s : State) (r : Nat) : Bool := budgetStripes s r ≤ bisqueUse s r

/-- Set a rank's fire queue and the beat since which it holds fewer than three pages (R238). -/
def setQueue (s : State) (r : Nat) (q : List Nat) : State :=
  updRank s r fun x => { x with
    fireQueue := q
    shortSince := if q.length < 3 && 3 ≤ x.fireQueue.length then some s.clk.beat else x.shortSince }

/-- BISQUE stripes in the order of the walk: ascending FIRED, then bs (R237). -/
def walkStripes (s : State) (r : Nat) : List (Nat × BsRec) :=
  sortBy (fun a b => a.2.fired < b.2.fired || (a.2.fired = b.2.fired && a.1 ≤ b.1))
    ((rankStripes s r).filter fun x => bsState s x.1 = .bisque && 0 < x.2.wls)

/-- The slot that the walk looks at next: the next word line of its stripe, else the first of the next stripe, and round
again (R237). -/
def nextWalk (s : State) (r : Nat) : Option (Nat × Nat × Nat) :=
  let l := walkStripes s r
  let first (x : Nat × BsRec) : Nat × Nat × Nat := (x.2.fired, x.1, 0)
  match (rankPl s r).walkAt with
  | none => l.head?.map first
  | some (f, bs, w) =>
    match l.find? fun x => x.1 = bs && w + 1 < x.2.wls with
    | some _ => some (f, bs, w + 1)
    | none => match l.find? fun x => f < x.2.fired || (f = x.2.fired && bs < x.1) with
      | some x => some (first x)
      | none => l.head?.map first

/-- FIRE_QUEUE_WALK (R237): the next slot of the rank's walk is looked at. -/
def execFireQueueWalk (r : Rank) (slot : Nat) (s : State) : Host.Outcome State Fault Refusal :=
  .next (
    match nextWalk s r.val with
    | none => s
    | some x =>
      if !mediaRuns s || slot ≠ slotNo x.2.1 x.2.2 0 || 3072 ≤ (rankPl s r.val).fireQueue.length then s
      else
        let s := fetchSlots (updRank s r.val fun y => { y with walkAt := some x }) [slot]
        match (slotValid s slot true).bind fun page => (entry? s page).map fun e => (page, e) with
        | none => s
        | some (page, e) =>
          let cold := coldTest s page e && decide (decayedHeat s.pl.heatEpoch e ≤ fireCold s)
          let s := if cold then updRank s r.val fun x => { x with coldPassed := x.coldPassed + 1 } else s
          if (cold || (budgetFull s r.val && coldTest s page e)) && page ∉ (rankPl s r.val).fireQueue then
            setQueue s r.val ((rankPl s r.val).fireQueue ++ [page])
          else s)

/-- Queue order: ascending decayed heat, then page number (R237). -/
def fireOrder (s : State) (q : List Nat) : List Nat :=
  let before (a b : Nat) : Bool :=
    let x := decayedHeat s.pl.heatEpoch (entryNow s a)
    let y := decayedHeat s.pl.heatEpoch (entryNow s b)
    x < y || (x = y && a ≤ b)
  sortBy before q

/-! ### Firing (R238 to R241) -/

/-- Nothing else holds the page (R213); a page being converted is left to its conversion (R506). -/
def pageFree (s : State) (page : Nat) : Bool :=
  !inDrain s page && !inFiring s page && !inSecure s page && !inSwitch s page && page ∉ s.pl.relocating &&
    noFill s page

/-- Live lines of a page whose media image no longer gives their value become poisoned, with their marker in the
saggar (R239 step 2, R306). -/
def poisonLost (s : State) (page : Nat) (e : MapEntry) : State :=
  (List.range 64).foldl (fun s i =>
    if (sagLine s page i).isSome then s
    else match lineSource e i true with
      | .media slot _ =>
        match mediaLine s slot i with
        | some r => if tagHolds s r page i e.stamp then s else poisonFromMedia s page i slot txInternal
        | none => poisonFromMedia s page i slot txInternal
      | _ => s) s

/-- The 64 current lines under a new stamp, with the GEN of every saggar copy taken (R239 steps 2 and 3). -/
def assemble (s : State) (page : Nat) (e : MapEntry) (stamp domain : Nat) (regime : Bool) : List LineRec × List (Nat × Nat) :=
  let one (i : Nat) : LineRec × Option (Nat × Nat) :=
    match sagLine s page i with
    | some l => (newRec s page i stamp domain l.data l.poison false regime, some (i, l.gen))
    | none => let v := currentLine s e page i; (newRec s page i stamp domain v.1 v.2 false regime, none)
  let all := (List.range 64).map one
  (all.map (·.1), all.filterMap (·.2))

/-- The saggar lines that a firing takes record the GEN it took (R200). -/
def holdTaken (s : State) (page : Nat) (gens : List (Nat × Nat)) : State :=
  gens.foldl (fun s x => match sagLine s page x.1 with
    | some l => setSagLine s page x.1 (some { l with held := some l.gen })
    | none => s) s

/-- Take a page for firing (R239 steps 1 to 4); its saggar lines keep the GEN that the firing recorded. -/
def takePage (s : State) (page slot : Nat) (conv : Option (Nat × MigSlot)) : State × Option FirePage :=
  let s := fetchSeg s page
  match entry? s page with
  | none => (s, none)
  | some e =>
    let stamp := stampTop s page e + 1
    if !stampRoom s stamp then (askCeiling s, none)
    else
      let s := poisonLost s page e
      let domain := match conv with
        | some _ => ((pageRegion s page).map fun n => (region s n).domain).getD 0
        | none => e.domain
      let regime := match conv with | some (_, m) => m.target | none => e.regime
      let a := assemble s page e stamp domain regime
      let s := holdTaken s page a.2
      (s, some { page := page, slot := slot, taken := e, gens := a.2, stamp := stamp, domain := domain, lines := a.1
                 conversion := conv.map (·.1) })

/-- A copy of a glaze or discard-pending page: every line of its glaze slot as it is, an undecodable one as a poison
marker (R254 step 3). -/
def copyPage (s : State) (page slot : Nat) : State × Option FirePage :=
  let s := fetchSeg s page
  match entry? s page with
  | none => (s, none)
  | some e =>
    let one (i : Nat) : LineRec :=
      match mediaLine s e.glazeHome i with
      | some r => r
      | none => newRec s page i e.stamp e.domain 0 true false e.regime
    (s, some { page := page, slot := slot, taken := e, stamp := e.stamp, domain := e.domain
               lines := (List.range 64).map one, isCopy := true })

/-- Start a program of the next word line of a purpose's stripe with up to three pages (R238, R239). -/
def startFiring (s : State) (r p : Nat) (pages : List Nat) (copy : Nat → Bool) : State :=
  let s := openStripe s r p
  match openOf s r p with
  | none => s
  | some o =>
    let w := (stripe s o.bs).wls
    if o.closing || 65536 ≤ w || (rankPl s r).firings.any (fun f => f.purpose = p) || pages.isEmpty || rankShut s r p then s
    else
      let x := pages.foldl (fun (x : State × List FirePage) page =>
        let slot := slotNo o.bs w x.2.length
        let conv := if inSwitch x.1 page then migOf x.1 page else none
        let (s, f) := if copy page then copyPage x.1 page slot else takePage x.1 page slot conv
        (s, x.2 ++ f.toList)) (s, [])
      if x.2.isEmpty then x.1
      else updRank x.1 r fun y => { y with firings := y.firings ++ [{ bs := o.bs, wl := w, purpose := p, pages := x.2 }] }

/-- Host firing of the first pages of the queue that are free (R238). -/
def hostFiring (s : State) (r p need : Nat) : State :=
  let q := (rankPl s r).fireQueue
  let fits := q.filter fun g => coldTest s g (entryNow s g)
  let s := setQueue s r fits
  if freeGlaze s r < reclaimMin s then s
  else
    let take := ((fireOrder s fits).filter (pageFree s)).take 3
    if take.length < need then s
    else
      let t := startFiring s r p take fun _ => false
      setQueue t r ((rankPl t r).fireQueue.filter fun g => !(t.pl.ranks.any fun y => y.2.firings.any fun f => f.pages.any fun z => z.page = g))

/-- The victim's next three pages (R254): a page due its drop is dropped, a secure one stays (R255). -/
def victimPages (s : State) (r : Nat) : List Nat :=
  match (rankPl s r).victim with
  | none => []
  | some bs => ((validPages s bs).map (·.2)).filter fun g =>
      pageFree s g && !(entryNow s g).secure && g ∉ s.pl.dropsDue

/-- A page still waits for the refresh stripe. -/
def refreshWaits (s : State) (page : Nat) : Bool :=
  let e := entryNow s page
  (e.state = .glaze || e.state = .split || (inSwitch s page && e.state = .bisqueWhole)) && !e.secure

/-- The stripe of a page's glaze home does not await the sweep (R283). -/
def sweptHome (s : State) (page : Nat) : Bool :=
  let h := (entryNow s page).glazeHome
  h = none40 || !(stripe s (slotBs h)).unswept

/-- The rank's victim was closed by a failed program, so its pages go to the refresh stripe (R242, R250). -/
def evacuates (s : State) (r : Nat) : Bool := match (rankPl s r).victim with | some bs => bs ∈ (rankPl s r).evacs | none => false

/-- The entries of the victim's pages are looked up. -/
def fetchVictim (s : State) (r : Nat) : State :=
  match (rankPl s r).victim with | some bs => fetchSlots s (stripeSlots s bs) | none => s

/-- Reclaim copies a page that is whole in glaze (R254 step 3). -/
def copied (s : State) (g : Nat) : Bool := (entryNow s g).state = .glaze || (entryNow s g).state = .discardPending

/-- FIRING_START (R239): host pages (purposes 0 and 1), the victim's pages (2), the refresh queue's and those of a stripe that
a failed program closed (3). That a split page of a
region pinned to bisque is fired when it lies in a victim, R230 and R254 speaking for either, is the model's choice
(log 101). -/
def execFiringStart (r : Rank) (purpose : Fin 4) (s : State) : Host.Outcome State Fault Refusal :=
  .next (
    if !mediaRuns s || parked s r.val then s
    else if purpose.val < 2 then hostFiring s r.val purpose.val 3
    else if purpose.val = 2 then
      if evacuates s r.val then s
      else
        let s := fetchVictim s r.val
        startFiring s r.val 2 ((victimPages s r.val).take 3) (copied s)
    else
      let s := if evacuates s r.val then fetchVictim s r.val else s
      let q := (rankPl s r.val).refreshQueue.filter (refreshWaits s)
      let s := updRank s r.val fun x => { x with refreshQueue := q }
      let own := q.filter fun g =>
        (inSwitch s g && !inDrain s g && !inFiring s g && noFill s g) || (pageFree s g && sweptHome s g)
      let evac := if evacuates s r.val then (victimPages s r.val).filter (· ∉ q) else []
      let t := startFiring s r.val 3 ((own ++ evac).take 3) fun g => g ∈ evac && copied s g
      updRank t r.val fun x => { x with refreshQueue := x.refreshQueue.filter fun g =>
        !(x.firings.any fun f => f.purpose = 3 && f.pages.any fun z => z.page = g) })

/-- FIRE_WAIT_EXPIRY (R238): the queue has held fewer than three pages for 2^FIRE_WAIT_SHIFT beats. -/
def execFireWaitExpiry (r : Rank) (s : State) : Host.Outcome State Fault Refusal :=
  .next (
    let x := rankPl s r.val
    if mediaRuns s && !parked s r.val && x.fireQueue.length < 3 &&
        decide (x.shortSince.getD 0 + 2 ^ fireWaitShift s ≤ s.clk.beat) then
      hostFiring s r.val (if x.firings.any fun f => f.purpose = 0 then 1 else 0) 1
    else s)

/-- A void slot's line image (R238). -/
def voidRec (line : Nat) : LineRec :=
  { data := BitVec.allOnes 512, ident := 0, line := line, mapdata := true, poison := true }

/-- The line images of a word line stand on media: the pages' and those of the void slots, with the cones of a group's first
word line (R63, R239 step 5). -/
def programWordLine (s : State) (f : Firing) : State :=
  let s := if f.wl % 1024 = 0 then { s with mp := { s.mp with cones := addNew s.mp.cones (f.bs * 64 + f.wl / 1024) } } else s
  (List.range 3).foldl (fun s k =>
    let slot := slotNo f.bs f.wl k
    (List.range 64).foldl (fun s i => setMedia s slot i (.line
      (match f.pages.find? fun p => p.slot = slot with
        | some p => p.lines.getD i (voidRec i)
        | none => voidRec i))) s) s

/-- A page has left every queue: it has a new home in full (R298, R299). -/
def leaveQueues (s : State) (page : Nat) : State :=
  { s with pl := { s.pl with
    refreshes := s.pl.refreshes.filter (· ≠ page)
    restamps := s.pl.restamps.filter (· ≠ page) } }

/-- The firing transition (R130, R239 step 8): new glaze home, bisque home and old glaze home released. -/
def firedPage (s : State) (p : FirePage) : State :=
  let e := entryNow s p.page
  let s := setEntry s p.page { e with
    state := .glaze, mask := 0, stamp := p.stamp, bisqueHome := none40, glazeHome := p.slot, domain := p.domain
    poisonRest := false, refresh := false, tally := 0 }
  let s := claimSlot s p.slot
  let s := if e.bisqueHome = none40 then s else dropStamps s e.bisqueHome
  let s := leaveQueues (releaseSlot (releaseSlot s e.bisqueHome) e.glazeHome) p.page
  let s := p.gens.foldl (fun s x =>
    let bad := match sagLine s p.page x.1 with | some l => l.poison | none => true
    releaseLine (if bad then s else poisonLeave s (dpaOf p.page x.1)) p.page x.1 x.2) s
  stampCrossings s p.page p.taken.stamp p.stamp false

/-- The map change of one page of a verified word line: made only if the homes still are those taken (R239 step 8,
R240, R254 step 4); that of a conversion is held to the switch beat (R504). -/
def mapFired (s : State) (p : FirePage) : State :=
  let s := fetchSeg s p.page
  match entry? s p.page with
  | none => s
  | some e =>
    let same := e.glazeHome = p.taken.glazeHome && !e.secure &&
      (if p.isCopy then e.state = .glaze || e.state = .split || e.state = .discardPending
       else e.bisqueHome = p.taken.bisqueHome && (e.state = .glaze || e.state = .split || e.state = .bisqueWhole))
    match p.conversion with
    | some m =>
      if same then updMig s m fun x => { x with held := x.held ++ [(p.page, p.slot, p.taken, p.gens)] } else s
    | none =>
      if !same then p.gens.foldl (fun s x => match sagLine s p.page x.1 with
        | some l => setSagLine s p.page x.1 (some { l with held := none })
        | none => s) s
      else if p.isCopy then
        let s := setEntry s p.page { e with glazeHome := p.slot, tally := 0, refresh := false }
        leaveQueues (releaseSlot (claimSlot s p.slot) p.taken.glazeHome) p.page
      else firedPage s p

/-- The victim has left VICTIM: reclaim of it has ended (R254 step 5). -/
def settleVictim (s : State) (r : Nat) : State :=
  match (rankPl s r).victim with
  | none => s
  | some bs =>
    if (stripe s bs).state = .victim then s
    else updRank s r fun x => { x with
      victim := none, reclaimed := satAdd 32 x.reclaimed 1, evacs := x.evacs.filter (· ≠ bs) }

/-- A word line verifies on every in-service link (R239 steps 6 to 8, R247, R244). -/
def finishFiring (s : State) (r p : Nat) (pulses : List (Nat × Nat)) : State :=
  match (rankPl s r).firings.find? fun f => f.purpose = p && mediaUp s with
  | none => s
  | some f =>
    let s := updRank s r fun x => { x with firings := x.firings.erase f }
    let s := programWordLine s f
    let s := noteProgram (updStripe s f.bs fun b =>
      { b with wls := f.wl + 1, fired := if f.wl = 0 then s.clk.seconds else b.fired }) f.bs
    let s := pulses.foldl (fun s x => if x.1 ∈ inServiceLinks s f.bs then stepUpdate s x.1 (dieFor s x.1 (bsDie f.bs)) x.2 else s) s
    let s := updOpen s r p fun o => guardAdd o f.wl
    let s := f.pages.foldl mapFired s
    let copies := (f.pages.filter fun x => x.isCopy).length
    let s := if copies < f.pages.length then count s (1 + r) 0x107 0xFF 1 else s
    let s := count s (1 + r) 0x108 0xFF copies
    let s := settleVictim s r
    if f.wl = 65535 then beginClose s r p else s

/-- WORD_LINE_VERIFIED (R239). -/
def execWordLineVerified (r : Rank) (purpose : Fin 4) (pulses : List (Nat × Nat)) (s : State) :
    Host.Outcome State Fault Refusal := .next (finishFiring s r.val purpose.val pulses)

/-- RECLAIM_MOVE_VERIFIED (R254): the same end for a word line of the reclaim stripe. -/
def execReclaimMoveVerified (r : Rank) (s : State) : Host.Outcome State Fault Refusal := .next (finishFiring s r.val 2 [])

/-! ### The verify pass (R249) -/

/-- A group's pass may run: the word line after it has verified, or the stripe closes. -/
def passDue (s : State) (o : OpenSt) (g : Nat) : Bool :=
  let w := (stripe s o.bs).wls
  decide (1024 * g < w) && (decide (1024 * g + 1024 < w) || o.closing || decide (w = 65536)) && g ∉ o.passed

/-- Pages with a home on a word line. -/
def wordLinePages (s : State) (bs wl : Nat) : List Nat :=
  (List.range 3).filterMap fun k => slotValid s (slotNo bs wl k) false

/-- Queue pages for the rank's refresh stripe. -/
def queueRefreshStripe (s : State) (r : Nat) (pages : List Nat) : State :=
  updRank s r fun x => { x with refreshQueue := pages.foldl addNew x.refreshQueue }

/-- A live line of the slot: the map entry says that line i reads from it. -/
def liveIn (e : MapEntry) (slot i : Nat) : Bool :=
  match lineSource e i true with
  | .media h _ => h = slot
  | _ => false

/-- GUARD_VERIFY_PASS (R249): the word lines that failed are rebuilt from the set, at most one a data position, and
their pages go to the refresh stripe; a slot that cannot be rebuilt yields poison markers. -/
def execGuardVerifyPass (r : Rank) (purpose : Fin 4) (group : Fin 64) (failing : List (Nat × Nat)) (s : State) :
    Host.Outcome State Fault Refusal :=
  .next (match openOf s r.val purpose.val with
    | none => s
    | some o =>
      let k := group.val % 2
      if !mediaUp s || !passDue s o group.val then s
      else
        let bad := failing.filter fun x => x.1 < 16 && x.2 / 1024 = group.val && x.2 < (stripe s o.bs).wls
        let guarded := (o.guard k).group = group.val && !(o.guard k).lost && !(o.guard k).added.isEmpty
        let alone (x : Nat × Nat) : Bool := guarded && (bad.filter fun y => y.1 = x.1).dedup.length = 1
        let s := fetchSlots s (bad.flatMap fun x => (List.range 3).map fun k => slotNo o.bs x.2 k)
        let s := bad.foldl (fun s x =>
          if alone x then s
          else (wordLinePages s o.bs x.2).foldl (fun s page =>
            ((List.range 4).filter fun u => liveIn (entryNow s page) (entryNow s page).glazeHome (4 * x.1 + u)).foldl
              (fun s u => poisonFromMedia s page (4 * x.1 + u) (entryNow s page).glazeHome txInternal) s) s) s
        let wls := (bad.map (·.2)).dedup
        let s := wls.foldl (fun s w => queueRefreshStripe s r.val (wordLinePages s o.bs w)) s
        updOpen s r.val purpose.val fun o => o.setGuard k { o.guard k with rebuilt := wls })

/-- GUARD_PASS_COMPLETE (R249, R278): once the rebuilt pages are mapped the set is released; the last pass of a
closing stripe closes it. -/
def execGuardPassComplete (r : Rank) (purpose : Fin 4) (group : Fin 64) (s : State) : Host.Outcome State Fault Refusal :=
  .next (match openOf s r.val purpose.val with
    | none => s
    | some o =>
      let k := group.val % 2
      let g := o.guard k
      if !passDue s o group.val || (g.group = group.val && g.rebuilt.any fun w => !(wordLinePages s o.bs w).isEmpty) then s
      else
        let s := updOpen s r.val purpose.val fun o =>
          let o := { o with passed := addNew o.passed group.val }
          if g.group = group.val then o.setGuard k { group := g.group } else o
        let s := targetCapture s o.bs group.val
        if o.closing || (stripe s o.bs).wls = 65536 then beginClose s r.val purpose.val else s)

/-! ### Failure and closing (R107, R246, R250) -/

/-- A word line whose program failed or was cut is undefined (R57, R59). -/
def tearWordLine (s : State) (bs wl : Nat) : State :=
  (List.range 3).foldl (fun s k => (List.range 64).foldl (fun s i => setMedia s (slotNo bs wl k) i (.torn none)) s) s

/-- A firing that ends before its verify may have begun its program; whether it had, the spec leaves open (R57). -/
def tearFiring (s : State) (f : Firing) : State :=
  let (n, s) := draw s
  if Config.cutTakes n f.wl then tearWordLine s f.bs f.wl else s

/-- Drop a firing without a map change: sources stay, host pages return to the fire queue (R250). -/
def dropFiring (s : State) (r : Nat) (f : Firing) : State :=
  let s := updRank s r fun x => { x with firings := x.firings.erase f }
  let s := f.pages.foldl (fun s p => p.gens.foldl (fun s x => match sagLine s p.page x.1 with
    | some l => setSagLine s p.page x.1 (some { l with held := none })
    | none => s) s) s
  let pages := f.pages.map (·.page)
  if f.purpose < 2 then setQueue s r (pages.foldl addNew (rankPl s r).fireQueue)
  else if f.purpose = 3 then queueRefreshStripe s r pages else s

/-- Close every open glaze stripe of a rank as R251 does, at once. -/
def closeAll (s : State) (r : Nat) : State :=
  let s := (rankPl s r).firings.foldl (fun s f => dropFiring (tearFiring s f) r f) s
  (List.range 4).foldl (fun s p => beginClose s r p) s

/-- One open glaze stripe closes as R251 does, at once. -/
def closeOpen (s : State) (r bs : Nat) : State :=
  match (rankPl s r).opens.find? fun x => x.2.bs = bs with
  | none => s
  | some (p, _) =>
    beginClose (((rankPl s r).firings.filter fun f => f.bs = bs).foldl (fun s f => dropFiring (tearFiring s f) r f) s) r p

/-- A glaze program fails on a link: the stripe closes with WLS = w (R250). -/
def failProgram (s : State) (r bs : Nat) : State :=
  match (rankPl s r).opens.find? fun x => x.2.bs = bs with
  | none => s
  | some (p, _) =>
    let s := match (rankPl s r).firings.find? fun f => f.bs = bs with
      | some f => dropFiring (tearWordLine s f.bs f.wl) r f
      | none => s
    beginClose (updRank s r fun x => { x with evacs := addNew x.evacs bs }) r p

/-! ### Blanking (R48, R245) -/

/-- BLOCK_STRIPE_RECORD_WRITE (R226): a changed record has been written to both replicas. -/
def execBlockStripeRecordWrite (bs : StripeNo) (s : State) : Host.Outcome State Fault Refusal :=
  .next (if mediaUp s && (stripe s bs.val).changed then recordStripe s bs.val else s)

/-- The lowest stripe of a rank that still has its reset record. -/
def firstUntouched (s : State) (r : Nat) : Option Nat :=
  if untouched s r = 0 then none
  else (List.range ((rankStripes s r).length + 1 + 16 * (5120 - bzFirst s))).findSome? fun i =>
    let bs := r * 81920 + i
    if bsState s bs = .dirty && (tget none (s.pl.stripes.map fun x => (x.1, some x.2)) bs).isNone then some bs else none

/-- The DIRTY stripe that is blanked next: lowest CYCLES, then lowest bs (R245). -/
def nextDirty (s : State) (r : Nat) : Option (Nat × BsRec) :=
  let known := leastBy (fun x => [x.2.cycles, x.1]) ((rankStripes s r).filter fun x => x.2.state = .dirty)
  match firstUntouched s r with
  | none => known
  | some bs =>
    match known with
    | some x => if x.2.cycles = 0 && x.1 < bs then some x else some (bs, {})
    | none => some (bs, {})

/-- DIRTY stripes with content are to be blanked before a sweep ends (R261). -/
def sweepWaits (s : State) : Bool := s.pl.secure.any fun x => x.step = 4

/-- BLANKING_START (R245): BLANK_AHEAD BLANK glaze stripes are kept; a stripe with 20,000 cycles is retired. -/
def execBlankingStart (r : Rank) (s : State) : Host.Outcome State Fault Refusal :=
  .next (
    if !mediaRuns s || parked s r.val || r.val ∉ s.mp.pop || (rankPl s r.val).blankingBs.isSome ||
        (blankAhead s ≤ (blankGlaze s r.val).length && !sweepWaits s) then s
    else match nextDirty s r.val with
      | none => s
      | some x =>
        if 20000 ≤ x.2.cycles then retireStripe s x.1
        else
          let s := updStripe s x.1 fun b => { b with state := .blanking, cycles := b.cycles + 1 }
          updRank (recordStripe s x.1) r.val fun y => { y with blankingBs := some x.1 })

/-- A blanked stripe holds nothing; rebuild targets that were present have its current contents (R325). -/
def blanked (s : State) (bs : Nat) : State :=
  let s := { s with
    mp := { s.mp with
      media := s.mp.media.filter fun x => slotBs (x.1 / 64) ≠ bs
      cones := s.mp.cones.filter fun x => x / 64 ≠ bs
      parityStale := s.mp.parityStale.filter fun x => slotBs (x / 4) ≠ bs }
    ig := { s.ig with
      mediaSlots := s.ig.mediaSlots.filter fun x => slotBs x.1 ≠ bs
      slotTags := s.ig.slotTags.filter fun x => slotBs x.1 ≠ bs } }
  (rankLinks (bsRank bs)).foldl (fun s n =>
    let w := linkWear s n
    let s := if w.rebuilding && (link s n).state.serves then
        updLinkWear s n fun w => { w with linkBits := addNew w.linkBits bs } else s
    if w.dieActive && w.substDie = bsDie bs && (link s n).state.serves then updLinkWear s n fun w => { w with dieBits := addNew w.dieBits bs } else s) s

/-- What was being programmed or blanked when the power or a reset cut it is undefined (R57, R222, R223). -/
def tearAll (s : State) : State :=
  let s := tearDrains s
  let s := (s.pl.ranks.flatMap fun x => x.2.firings).foldl tearFiring s
  let (n, s) := draw s
  let blanking (key : Nat) : Bool := (stripe s (slotBs (key / 64))).state = .blanking && Config.cutTakes n key
  { s with mp := { s.mp with media := s.mp.media.map fun x => if blanking x.1 then (x.1, .torn none) else x } }

/-- BLANKING_COMPLETE (R245, R264): the last word line has passed its blank check; MODE is recorded (R48, R226). -/
def execBlankingComplete (bs : StripeNo) (s : State) : Host.Outcome State Fault Refusal :=
  .next (
    if (stripe s bs.val).state ≠ .blanking || !mediaRuns s then s
    else
      let s := noteProgram (blanked s bs.val) bs.val
      let s := updStripe s bs.val fun b => { b with state := .blank, bisque := false, wls := 0, valid := 0, lag := 0, unswept := false }
      endSweep (updRank (recordStripe s bs.val) (bsRank bs.val) fun x =>
        if x.blankingBs = some bs.val then { x with blankingBs := none } else x))

/-! ### Reclaim (R252 to R257, R320, R322) -/

/-- Reclaim score (R253). -/
def reclaimScore (s : State) (r : Nat) (b : BsRec) : Nat :=
  let v := if b.degraded then 0 else b.valid
  let c := b.cycles
  let m := (rankPl s r).meanCycles
  let base := (196608 - v) * (64 + min ((s.clk.seconds - b.fired) / 3600) 255) * 1024 / (v + 256)
  let wf := if c ≤ m then 16 + min ((m - c) / 64) 16 else max (16 - (c - m) / 32) 1
  base * wf / 16

/-- FULL glaze stripes that may be victims (R253, R283, R314). -/
def victimChoices (s : State) (r : Nat) : List (Nat × BsRec) :=
  (rankStripes s r).filter fun x => x.2.state = .full && !x.2.bisque && !x.2.unswept && !x.2.noVictim

/-- The choice with the highest score, lowest bs on ties. -/
def bestVictim (s : State) (r : Nat) (l : List (Nat × BsRec)) : Option (Nat × BsRec) :=
  l.foldl (fun b x => match b with
    | none => some x
    | some y =>
      let p := reclaimScore s r x.2
      let q := reclaimScore s r y.2
      if q < p || (q = p && x.1 < y.1) then some x else some y) none

/-- Make a stripe the rank's victim; one without a valid slot is RELEASED at once (R254). -/
def makeVictim (s : State) (r bs : Nat) : State :=
  let s := updRank (updStripe s bs fun b => { b with state := if b.valid = 0 then .released else .victim }) r
    fun x => { x with victim := some bs }
  settleVictim s r

/-- Reclaim runs on the rank: below RECLAIM_LOW until RECLAIM_HIGH (R252). -/
def reclaimOn (s : State) (r : Nat) : Bool :=
  decide (freeGlaze s r < reclaimLow s) || ((rankPl s r).reclaiming && decide (freeGlaze s r < reclaimHigh s))

/-- RECLAIM_START (R252, R253, R322): DEGRADED stripes are evacuated whatever the thresholds. -/
def execReclaimStart (r : Rank) (s : State) : Host.Outcome State Fault Refusal :=
  .next (
    if !mediaRuns s || parked s r.val || (rankPl s r.val).victim.isSome then s
    else
      let on := reclaimOn s r.val
      let s := updRank s r.val fun x => { x with reclaiming := on }
      let degraded := (victimChoices s r.val).filter fun x => x.2.degraded
      let c := if on && lostLinks s r.val < 2 then victimChoices s r.val else degraded
      match bestVictim s r.val c with
      | none => s
      | some x => makeVictim s r.val x.1)

/-- LEVELLING_CHECK (R320). -/
def execLevellingCheck (r : Rank) (s : State) : Host.Outcome State Fault Refusal :=
  .next (
    if !mediaRuns s || parked s r.val || (rankPl s r.val).victim.isSome then s
    else
      let young := (rankStripes s r.val).filter fun x => !x.2.bisque &&
        (x.2.state = .blank || x.2.state = .dirty || x.2.state = .blanking || x.2.state = .open)
      let full := (rankStripes s r.val).filter fun x => !x.2.bisque && x.2.state = .full
      let top := young.foldl (fun m x => max m x.2.cycles) 0
      match leastBy (fun x => [x.2.cycles, x.1]) full with
      | none => s
      | some x =>
        if x.2.cycles + wearSpread s < top then
          (match leastBy (fun x => [x.2.cycles, x.1]) (full.filter fun x => !x.2.unswept && !x.2.noVictim) with
            | some y => makeVictim s r.val y.1
            | none => s)
        else s)

/-- A map line's last change is media-durable (R151). -/
def lineDurable (s : State) (ll : Nat) : Bool :=
  !(s.mp.writeBacks.any fun w => w.1 = ll) &&
    match cacheSeg s (ll / 4) with | some c => !c.dirty.getLsbD (ll % 4) | none => true

/-- An entry names a slot of the stripe. -/
def entryIn (e : MapEntry) (bs : Nat) : Bool :=
  (e.bisqueHome ≠ none40 && slotBs e.bisqueHome = bs) || (e.glazeHome ≠ none40 && slotBs e.glazeHome = bs)

/-- Map lines on media that still name a slot of the stripe. -/
def linesNaming (s : State) (bs : Nat) : List Nat :=
  (s.mp.leaves.filterMap fun x => if replicaUp s (x.1 / 2) (x.1 % 2) &&
      (match x.2 with | some l => entryIn l.e0 bs || entryIn l.e1 bs | none => false) then some (x.1 / 2) else none).dedup

/-- No map line on media, or on its way there, still names a slot of the stripe, and no read holds a home in it (R151, R155,
R176, R257). -/
def stripeLetGo (s : State) (bs : Nat) : Bool :=
  (linesNaming s bs).isEmpty && !(s.mp.writeBacks.any fun w => entryIn w.2.2.e0 bs || entryIn w.2.2.e1 bs) &&
  !(s.hq.reads.any fun r => match r.stage with
      | .sense slot _ => decide (slotBs slot = bs)
      | .escalate slot _ _ => decide (slotBs slot = bs)
      | .cones b => b = bs
      | _ => false)

/-- VICTIM_RELEASE (R257, R322): a RELEASED stripe becomes DIRTY, a DEGRADED one RETIRED; write-backs that stand in the way are
forced. -/
def execVictimRelease (bs : StripeNo) (s : State) : Host.Outcome State Fault Refusal :=
  .next (
    if !mediaRuns s || (stripe s bs.val).state ≠ .released then s
    else if stripeLetGo s bs.val then
      checkSpareStripes (updStripe s bs.val fun b => { b with
        state := if b.degraded || 20000 ≤ b.cycles then .retired else .dirty, valid := 0, wls := 0 })
    else (linesNaming s bs.val).foldl startWriteBack s)

/-! ### The budget and the heat epoch (R228, R231, R232) -/

/-- Glaze stripes in FULL, OPEN, BLANK, DIRTY and BLANKING with their mean CYCLES (R253). -/
def meanWear (s : State) (r : Nat) : Nat :=
  let l := (rankStripes s r).filter fun x => !x.2.bisque &&
    (x.2.state = .full || x.2.state = .open || x.2.state = .blank || x.2.state = .dirty || x.2.state = .blanking)
  let n := l.length + untouched s r
  if n = 0 then 0 else (l.map fun x => x.2.cycles).sum / n

/-- Stripes whose VALID is in doubt are counted again (R314). -/
def recount (s : State) (r : Nat) : State :=
  ((rankStripes s r).filter fun x => x.2.noVictim).foldl (fun s x =>
    let s := fetchSlots s (stripeSlots s x.1)
    updStripe s x.1 fun b => { b with valid := (validPages s x.1).length, noVictim := false }) s

/-- BUDGET_ADJUST (R232, R253). -/
def execBudgetAdjust (r : Rank) (s : State) : Host.Outcome State Fault Refusal :=
  .next (
    if !awake s || r.val ∉ s.mp.pop then s
    else
      let s := recount s r.val
      let use := bisqueUse s r.val
      let b := budgetStripes s r.val
      let up := decide (15 * b ≤ 16 * use) && decide ((rankPl s r.val).coldPassed < 1024) && decide (2 * reclaimLow s ≤ freeGlaze s r.val)
      let down := decide (2 * use < b)
      updRank s r.val fun x => { x with
        budget := if up then min (x.budget + 1) (budgetMax s) else if down then max (x.budget - 1) (budgetMin s) else x.budget
        coldPassed := 0
        meanCycles := meanWear s r.val })

/-- HEAT_EPOCH_ADVANCE (R228). -/
def execHeatEpochAdvance (s : State) : Host.Outcome State Fault Refusal :=
  .next (if awake s then { s with pl := { s.pl with heatEpoch := (s.pl.heatEpoch + 1) % 2 ^ 64 } } else s)

/-! ### Relocation, restamp, refresh (R125, R130, R235, R299, R315, R316) -/

/-- A new bisque slot from a stripe other than the page's present one (R234, R316). -/
def relocSlot (s : State) (page : Nat) (e : MapEntry) : Option (Nat × State) :=
  let src := slotBs e.bisqueHome
  let other (r : Nat) : Bool := (rankPl s r).alloc ≠ some src && 0 < allocFree s r
  let first := if e.glazeHome ≠ none40 then slotRank e.glazeHome else popRank s page
  let s := readyAllocation s first
  if other first then takeSlot s first
  else
    let best := (s.mp.pop.filter other).foldl (fun (b : Option Nat) r => match b with
      | none => some r
      | some x => if allocFree s x < allocFree s r then some r else b) none
    best.bind (takeSlot s)

/-- BISQUE_RELOCATION (R130, R235, R315, R316): each live line image moves unchanged, an undecodable one as a poison
marker; the stamp does not advance. -/
def execBisqueRelocation (page : Nat) (s : State) : Host.Outcome State Fault Refusal :=
  .next (
    let s' := fetchSeg s page
    match entry? s' page with
    | none => s
    | some e =>
      let due := page ∈ s.pl.relocating || (e.bisqueHome ≠ none40 && (stripe s (slotBs e.bisqueHome)).state = .victim)
      if !mediaRuns s || !due then s
      else if e.bisqueHome = none40 then
        { s with pl := { s.pl with relocating := s.pl.relocating.filter (· ≠ page) } }
      else if inDrain s page || inFiring s page || inSecure s page || inSwitch s page || e.secure then s
      else match relocSlot s' page e with
        | none => s
        | some (slot, s) =>
          let s := (List.range 64).foldl (fun s i =>
            if !e.mask.getLsbD i then s
            else setMedia s slot i (match mediaLine s e.bisqueHome i with
              | some r => .line r
              | none => .line (newRec s page i e.stamp e.domain 0 true true e.regime))) s
          let s := if (stampSlot s e.bisqueHome).isSome || (tget none s.ig.mediaSlots e.bisqueHome).isSome then
              dropStamps (putStamps s slot page (slotStamps s e.bisqueHome)) e.bisqueHome else s
          let s := setEntry s page { e with bisqueHome := slot, tally := 0 }
          let s := releaseSlot (noteProgram (claimSlot s slot) (slotBs slot)) e.bisqueHome
          { s with pl := { s.pl with relocating := s.pl.relocating.filter (· ≠ page) } })

/-- Take lines of a page into internal saggar lines, to drain into its bisque slot (R125, R229, R299). -/
def takeInternal (s : State) (page : Nat) (e : MapEntry) (which : Nat → Bool) : State :=
  let home := if e.bisqueHome ≠ none40 then e.bisqueHome else e.glazeHome
  (List.range 64).foldl (fun s i =>
    if !which i || (sagLine s page i).isSome || 16384 ≤ internalUsed s then s
    else
      let v := currentLine s e page i
      setSagLine s page i (some
        { page := page, line := i, mask := BitVec.allOnes 64, data := v.1, poison := v.2, domain := e.domain, filled := true
          internal := true, norank := false, pooled := false, rank := slotRank home, last := s.clk.beat
          idx := newIdx s })) s

/-- Every line that was to be taken into the saggar is there. -/
def allTaken (s : State) (page : Nat) (which : Nat → Bool) : Bool :=
  (List.range 64).all fun i => !which i || (sagLine s page i).isSome

/-- RESTAMP (R125): lines whose stamp is below the multiple of 2^38 before the last one are rewritten in place, in as many goes
as internal lines allow; a glaze page with such a line is fired again. -/
def execRestamp (page : Nat) (s : State) : Host.Outcome State Fault Refusal :=
  .next (
    let s' := fetchSeg s page
    match entry? s' page with
    | none => s
    | some e =>
      if !mediaRuns s || page ∉ s.pl.restamps || !pageFree s page || e.secure then s
      else
        let low := (e.stamp / 2 ^ 38 - 1) * 2 ^ 38
        let old (home i : Nat) : Bool := liveIn e home i && match mediaLine s home i with | some r => r.stamp < low | none => false
        let inBisque (i : Nat) : Bool := e.bisqueHome ≠ none40 && old e.bisqueHome i
        let s := takeInternal s' page e inBisque
        if !allTaken s page inBisque then s
        else
          let s := { s with pl := { s.pl with restamps := s.pl.restamps.filter (· ≠ page) } }
          if e.glazeHome ≠ none40 && (List.range 64).any (old e.glazeHome) then
            queueRefreshStripe s (slotRank e.glazeHome) [page]
          else s)

/-- A pinned glaze or split page is promoted: its glaze lines drain into bisque (R229). -/
def promotes (e : MapEntry) : Bool := e.pin && (e.state = .glaze || e.state = .split)

/-- REFRESH (R229, R299): a bisque-whole page through internal lines, a glaze or split page through the refresh stripe;
a pinned glaze or split page is promoted; each in as many goes as internal lines allow (R193). -/
def execRefresh (page : Nat) (s : State) : Host.Outcome State Fault Refusal :=
  .next (
    let s' := fetchSeg s page
    match entry? s' page with
    | none => s
    | some e =>
      let leave (s : State) : State := { s with pl := { s.pl with refreshes := s.pl.refreshes.filter (· ≠ page) } }
      if !mediaRuns s || page ∉ s.pl.refreshes || !pageFree s page then s
      else if e.secure then leave s'
      else if promotes e then
        let t := takeInternal s' page e fun i => !e.mask.getLsbD i
        if allTaken t page fun i => !e.mask.getLsbD i then leave t else t
      else if e.state = .bisqueWhole then
        let t := takeInternal (updEntry s' page fun e => { e with refresh := true }) page e fun i => e.mask.getLsbD i
        if allTaken t page fun i => e.mask.getLsbD i then refreshDone (leave t) page else t
      else if e.state = .glaze || e.state = .split then queueRefreshStripe (leave s') (slotRank e.glazeHome) [page]
      else leave s')

end Sys2Proof.Machine
end

