-- ==== Sys2Proof/Machine/Wear.lean ====
section
/-! DEFINITION. Wear and spares: retired blocks, failed dies, rebuild, SRAM rows and channels, spare counts
(R195, R314, R321 to R333, R340, R341). -/
namespace Sys2Proof.Machine

/-! ### Retired blocks and degraded stripes (R321, R322) -/

/-- One of a stripe's blocks is retired: what follows for the stripe's state (R322). -/
def degradeStripe (s : State) (bs : Nat) : State :=
  let st := bsState s bs
  let r := bsRank bs
  let s := updStripe s bs fun b => { b with degraded := true }
  let s := match st with
    | .open =>
      if (rankPl s r).alloc = some bs then
        updRank (updStripe s bs fun b => { b with state := if b.valid = 0 then .released else .victim }) r fun x => { x with alloc := none }
      else failProgram s r bs
    | .bisque => updStripe s bs fun b => { b with state := if b.valid = 0 then .released else .victim }
    | .blank => updStripe s bs fun b => { b with state := .retired }
    | .dirty => updStripe s bs fun b => { b with state := .retired }
    | .blanking =>
      updRank (updStripe s bs fun b => { b with state := .retired }) r fun x =>
        if x.blankingBs = some bs then { x with blankingBs := none } else x
    | _ => s
  checkSpareStripes s

/-- Stripes of a rank on one die position. -/
def dieStripes (r d : Nat) : List Nat := (List.range 5120).map fun b => bsNo r d b

/-! ### Rebuild (R325 to R330) -/

/-- A rebuild of a link or of a substituted die position starts: BLANK stripes without a bit become DIRTY, OPEN glaze
stripes close (R326). -/
def clearForRebuild (s : State) (r : Nat) (covers : Nat → Bool) : State :=
  let s := (rankPl s r).opens.foldl (fun s x => if covers x.2.bs then closeOpen s r x.2.bs else s) s
  ((blankGlaze s r).filter fun x => covers x.1).foldl (fun s x => updStripe s x.1 fun b => { b with state := .dirty }) s

/-- Start the rebuild of a link; one that returns under R111 has every bit but those of the stripes changed while it
was out (R326, R329). -/
def startLinkRebuild (s : State) (n : Nat) (full : Bool) : State :=
  let s := updLinkWear s n fun w =>
    { w with rebuilding := true, linkBits := [], allBits := !full
             rebuilt := w.rebuilt || full
             rebuiltAt := if full then s.clk.seconds else w.rebuiltAt
             changedOut := if full then [] else w.changedOut }
  clearForRebuild s (n / 18) fun bs => !rebuiltFor s n bs

/-- A die position fails on a link: an erasure from this beat, and die 16 takes its place when it is good and unused
(R72, R323, R324). Details that name die 16 while it is unused change nothing: the model's choice (log 94). -/
def failDie (s : State) (n d : Nat) : State :=
  let w := linkWear s n
  let pos := if d = 16 then w.substDie else d
  if pos ∈ w.erased || (d = 16 && !w.subst) then s
  else
    let s := raise s 0x31 (n / 18) n d 0 0
    let p := pkgOf s n
    if d ≠ 16 && !w.subst && p.dieGood.getLsbD 16 then
      let s := updLinkWear s n fun w =>
        { w with subst := true, substDie := d, substAt := s.clk.seconds, dieBits := [], dieActive := true }
      let bad := (p.bbl.filter fun x => x.1 = 16).map (·.2)
      let s := bad.foldl (fun s b => degradeStripe s (bsNo (n / 18) d b)) s
      clearForRebuild s (n / 18) fun bs => bsDie bs = d
    else updLinkWear s n fun w => { w with erased := addNew w.erased pos, dieActive := if d = 16 then false else w.dieActive }

/-- Retire a block of a link: DEGRADED, the grown list, the event; the 64th grown block of a die fails the die
(R321 to R323). -/
def retireBlock (s : State) (n die block : Nat) : State :=
  let w := linkWear s n
  if (die, block) ∈ w.grown then s
  else
    let s := updLinkWear s n fun w => { w with grown := w.grown ++ [(die, block)] }
    let s := raise s 0x30 (n / 18) 0 0 0 0
    let pos := if die = 16 then w.substDie else die
    let s := degradeStripe s (bsNo (n / 18) pos block)
    if 64 ≤ ((linkWear s n).grown.filter fun x => x.1 = die).length then failDie s n die else s

/-- Class of a stripe in the order of a rebuild, none where it is not rebuilt (R326, R327). -/
def rebuildClass (s : State) (bs : Nat) : Option Nat :=
  let b := stripe s bs
  match bsState s bs with
  | .system => some 0
  | .bisque => some 1
  | .open => if b.bisque then some 1 else none
  | .victim => if b.bisque then some 1 else none
  | .full => some 2
  | _ => none

/-- Stripes of a target still to be rebuilt. -/
def rebuildLeft (s : State) (r : Nat) (covers done : Nat → Bool) : List Nat :=
  let listed := (rankStripes s r).map (·.1)
  (systemStripes s r ++ listed).filter fun bs => covers bs && !done bs && (rebuildClass s bs).isSome

/-- The stripe that comes next (R327). -/
def nextRebuild (s : State) (l : List Nat) : Option Nat :=
  let key (bs : Nat) : List Nat :=
    let c := (rebuildClass s bs).getD 3
    [c, if c = 2 then 196608 - (stripe s bs).valid else 0, bs]
  l.foldl (fun b x => match b with | none => some x | some y => if key x < key y then some x else some y) none

/-- What a rebuild target covers and has done: the whole link, or its substituted die position. -/
def targetLeft (s : State) (n : Nat) (die : Bool) : List Nat :=
  let w := linkWear s n
  if die then rebuildLeft s (n / 18) (fun bs => bsDie bs = w.substDie) fun bs => bs ∈ w.dieBits
  else rebuildLeft s (n / 18) (fun _ => true) (rebuiltFor s n)

/-- The last stripe is rebuilt (R330). -/
def endRebuild (s : State) (n : Nat) (die : Bool) : State :=
  let s := if die then updLinkWear s n fun w => { w with dieActive := false }
    else updLink (updLinkWear s n fun w => { w with rebuilding := false, changedOut := [] }) n fun l =>
      if l.state = .rebuilding then { l with state := .active } else l
  raise s 0x23 (n / 18) 0 0 0 0

/-- REBUILD_STRIPE_DONE (R328, R330): a glaze block's blanking counts a cycle; a stripe at 20,000 is evacuated
instead. A glaze stripe with more than two positions to find decodes no word line: the block is blanked twice and then
retired (R294, R321). -/
def execRebuildStripeDone (l : LinkNo) (die : Option (Fin 16)) (bs : StripeNo) (s : State) :
    Host.Outcome State Fault Refusal :=
  .next (
    let n := l.val
    let w := linkWear s n
    let d := die.isSome
    let live := if d then w.dieActive && die.map (·.val) = some w.substDie else w.rebuilding && (link s n).state.serves
    if !mediaRuns s || !live || bsRank bs.val ≠ n / 18 || nextRebuild s (targetLeft s n d) ≠ some bs.val then s
    else
      let b := stripe s bs.val
      let glaze := b.state = .full && !b.bisque
      if glaze && 20000 ≤ b.cycles then
        (if (rankPl s (n / 18)).victim.isNone then makeVictim s (n / 18) bs.val else s)
      else if glaze && 2 < (outPositions s bs.val).length then
        let s := recordStripe (updStripe s bs.val fun b => { b with cycles := b.cycles + 2 }) bs.val
        retireBlock s n (dieFor s n (bsDie bs.val)) (bsBlock bs.val)
      else
        let s := if glaze then recordStripe (updStripe s bs.val fun b => { b with cycles := b.cycles + 1 }) bs.val else s
        let s := updLinkWear s n fun w =>
          if d then { w with dieBits := addNew w.dieBits bs.val } else { w with linkBits := addNew w.linkBits bs.val }
        if (targetLeft s n d).isEmpty then endRebuild s n d else s)

/-- Progress in percent of a target (WEAR_LINK_A, WEAR_LINK_B). -/
def rebuildPct (s : State) (n : Nat) (die : Bool) : Nat :=
  let w := linkWear s n
  let started := if die then w.subst else w.rebuilt || w.rebuilding
  if !started then 0
  else
    let left := (targetLeft s n die).length
    let done := if die then w.dieBits.length else w.linkBits.length
    if (if die then !w.dieActive else !w.rebuilding) || left = 0 then 100 else 100 * done / (done + left)

/-! ### SRAM (R36, R37, R195, R314, R331, R332) -/

/-- SRAM lines below x on a logical channel. -/
def channelLinesBelow (x l : Nat) : Nat := (x + 119 - l) / 120
/-- Saggar lines with a copy on a logical channel (R38, R195). -/
def sagLinesOn (l : Nat) : Nat :=
  let area (base : Nat) : Nat := channelLinesBelow (base + 1048576) l - channelLinesBelow base l
  area (0x20000000 / 64) + area (0x24000000 / 64)

def updSram (s : State) (c : Nat) (f : SramCh → SramCh) : State :=
  { s with ecc := { s.ecc with sram := tupd {} s.ecc.sram c f } }

/-- Count an SRAM error and mark its row for repair: an uncorrectable word, or three corrected ones within 2^30 beats
(R331, ECC_SRAM). -/
def sramError (s : State) (c row : Nat) (bad : Bool) : State :=
  let old := (sramCh s c).corrRows.filter fun x => x.1 = row && s.clk.beat < x.2 + 2 ^ 30
  let due := bad || 2 ≤ old.length
  updSram s c fun x => { x with
    ue := if bad then satAdd 16 x.ue 1 else x.ue
    ce := if bad then x.ce else satAdd 16 x.ce 1
    lastRow := row % 2 ^ 24
    corrRows := if bad then x.corrRows else (row, s.clk.beat) :: x.corrRows.filter fun y => s.clk.beat < y.2 + 2 ^ 30
    due := if due && row ∉ x.remapped then addNew x.due row else x.due }

/-- Both pages of a dirty map line whose word is lost become poisoned-whole under the stamp ceiling (R308, R314,
R361). -/
def mapLineLost (s : State) (ll : Nat) : State :=
  let ceil := s.ig.stampCeil
  let s := raiseCeiling s
  let mark (s : State) (page : Nat) : State :=
    let s := updEntry s page (lostEntry ceil)
    (List.range 64).foldl (fun s i => poisonEnter s (dpaOf page i) .internal) (poisonLeavePage s page)
  let s := mark (mark s (2 * ll)) (2 * ll + 1)
  raise s 0x3A srcDevice (2 * ll % 2 ^ 32) (2 * ll / 2 ^ 32) ((2 * ll + 1) % 2 ^ 32) ((2 * ll + 1) / 2 ^ 32)

/-- SRAM line of a channel's row; none of a channel that serves no logical one (R36, R37). -/
def sramAt (s : State) (channel row : Nat) : Option Nat := (logicalOf s channel).map fun l => row * 120 + l

/-- The SRAM line may hold a word of the place; of a place without a stated address, the line lies in its partition (R38,
R142, R191, R224, R248). -/
def placeOn (s : State) (a : Nat) (p : SramPlace) : Bool :=
  let within (base size : Nat) : Bool := decide (base / 64 ≤ a) && decide (a < (base + size) / 64)
  let bytes (off len : Nat) : Bool := decide (off / 64 ≤ a) && decide (a ≤ (off + len - 1) / 64)
  match p with
  | .mapCache seg line => (match cacheSeg s seg with
    | some c => a = (segOffset seg c) / 64 + line % 4
    | none => false)
  | .saggar page line _ => (match sagLine s page line with
    | some l => a = copyA + l.idx || a = copyB + l.idx
    | none => false)
  | .stripeTable bs => bytes (0x28000000 + 12 * bs.val) 12
  | .guard r p _ =>
    let o := (r.val * 4 + p.val) * 2 * 16 * 1056
    bytes (0x2C000000 + o) 33792 || bytes (0x2D000000 + o) 33792
  | .tree _ => within 0x2E000000 0x8000000
  | .stampSlot home => (match stampSlot s home with
    | some x => bytes (slotOffset home x) 512
    | none => false)
  | .arena off => bytes (arenaBase + off) 8
  | .telemetry off => bytes (0x3C000000 + off) 8
  | .firmware _ => within 0x3E000000 0x2000000

/-- The handling of an uncorrectable word by its partition, but for firmware working memory (R314). -/
def sramWordLost (s : State) (p : SramPlace) : State :=
  match p with
  | .mapCache seg line =>
    (match cacheSeg s seg with
    | none => s
    | some c =>
      if c.dirty.getLsbD (line % 4) then mapLineLost s (seg * 4 + line % 4)
      else if c.dirty = 0#4 then fetchSeg (setSeg s seg none) (seg * 8)
      else
        let fresh := lineEntries (bestLine s (seg * 4 + line % 4))
        setSeg s seg (some { c with
          entries := (c.entries.set (2 * (line % 4)) (fresh.getD 0 {})).set (2 * (line % 4) + 1) (fresh.getD 1 {}) }))
  | .saggar page line both =>
    (match sagLine s page line with
    | none => s
    | some l =>
      if !(both || onDead s l.idx) || l.poison then s
      else
        let s := setSagLine s page line (some { l with poison := true })
        let r := if l.norank then 255 else l.rank
        raise (poisonEnter s (dpaOf page line) .internal) 0x34 (if l.norank then srcDevice else l.rank)
          (dpaOf page line % 2 ^ 32) (dpaOf page line / 2 ^ 32) (poisonP2 r 255 255 255) 0)
  | .stripeTable bs =>
    let r := tget {} s.pl.copy bs.val
    { s with pl := { s.pl with stripes := tset {} s.pl.stripes bs.val { r with noVictim := true, changed := false } } }
  | .guard r purpose both =>
    if both then updOpen s r.val purpose.val fun o => { o with g0 := { o.g0 with lost := true }, g1 := { o.g1 with lost := true } }
    else s
  | .tree _ => s
  | .stampSlot home =>
    (match stampSlot s home with
    | none => s
    | some x =>
      if !x.dirty then setStampSlot s home none
      else
        let stamps := (List.range 64).map fun i => match mediaImg s home i with | .line r => r.stamp | _ => 0
        let s := setStampSlot s home (some { x with stamps := stamps })
        raiseAddr s 0x51 (slotRank home) ((slotIdent s home).getD 0) 0)
  | .arena o => { s with pp := { s.pp with badBytes := (List.range 8).foldl (fun l i => addNew l (o / 8 * 8 + i)) s.pp.badBytes } }
  | .telemetry o => { s with pp := { s.pp with badBytes := (List.range 8).foldl (fun l i => addNew l (o / 8 * 8 + i)) s.pp.badBytes } }
  | .firmware _ => s

/-- SRAM_ROW_REPAIR (R331): the row is remapped to a spare row. -/
def execSramRowRepair (channel : Fin 128) (row : Nat) (s : State) : Host.Outcome State Fault Refusal :=
  .next (
    let c := sramCh s channel.val
    if row ∉ c.due || 64 ≤ c.rowsUsed || c.failed then s
    else
      let s := updSram s channel.val fun c => { c with
        rowsUsed := c.rowsUsed + 1, due := c.due.filter (· ≠ row), remapped := addNew c.remapped row
        repairs := s.clk.beat :: c.repairs.filter fun b => s.clk.beat < b + 2 ^ 30 }
      let s := { s with wr := { s.wr with rowsUsed := s.wr.rowsUsed + 1 } }
      if 8192 ≤ s.wr.rowsUsed then exhaust s 3 else s)

/-- The channel meets a condition of R332. -/
def channelFails (s : State) (c : Nat) (why : SramFault) : Bool :=
  let x := sramCh s c
  !x.failed && (match why with
    | .noSpareRow => decide (64 ≤ x.rowsUsed) && !x.due.isEmpty
    | .manyRepairs => decide (16 ≤ (x.repairs.filter fun b => s.clk.beat < b + 2 ^ 30).length)
    | .portError => true)

/-- The die's spare channel takes a failed channel's logical number; POOL is cut until the copy ends (R195, R332). -/
def useSpareChannel (s : State) (c : Nat) : State :=
  let s := updSram s c fun x => { x with failed := true, copying := true }
  let s := { s with
    wr := { s.wr with chUsed := s.wr.chUsed ||| (1#8 <<< sramDie c) }
    sag := { s.sag with poolCut := s.sag.poolCut + sagLinesOn (sramLogical c) } }
  if s.wr.chUsed = 0xFF#8 then exhaust s 2 else s

/-- SRAM_CHANNEL_COPY_DONE (R332): the copy of the die's failed channel ends. -/
def execSramChannelCopyDone (die : Fin 8) (s : State) : Host.Outcome State Fault Refusal :=
  .next (
    let l := (List.range 16).filter fun k => (sramCh s (16 * die.val + k)).copying
    l.foldl (fun s k =>
      let c := 16 * die.val + k
      updSram { s with sag := { s.sag with poolCut := s.sag.poolCut - sagLinesOn (sramLogical c) } } c
        fun x => { x with copying := false }) s)

/-! ### Management buses (R104, R105) -/

/-- What a transaction of at most four attempts brought, and the attempts made (R105). -/
def busAnswer {α : Type} (t : BusTries α) : Option α := (t.take 4).findSome? id
def busAttempts {α : Type} (t : BusTries α) : Nat := min ((t.takeWhile Option.isNone).length + 1) 4

/-- A transaction with the package on link n: its bus, target address, register offset, bytes and attempts (R104, R105). -/
def busRead (s : State) (n off len attempts : Nat) : State :=
  { s with ln := { s.ln with buses := tset none s.ln.buses (n / 144) (some (0x100 + n % 144, off, len, attempts)) } }

/-- PACKAGE_ALERT_DETAILS (R105, R323): the fault details read over the management bus name a failed die, or none. Where the
details lie in the bus's register space the spec does not say. -/
def execPackageAlertDetails (l : LinkNo) (details : BusTries (Option DieNo)) (s : State) : Host.Outcome State Fault Refusal :=
  .next (
    if !(link s l.val).alert || !(link s l.val).state.serves then s
    else
      let (n, s) := draw s
      let (m, s) := draw s
      let s := busRead s l.val (Config.freeWord n).toNat (Config.freeWord m).toNat (busAttempts details)
      match busAnswer details with
      | some d =>
        let s := updLink s l.val fun l => { l with alert := false }
        (match d with | some d => failDie s l.val d.val | none => s)
      | none => s)

end Sys2Proof.Machine
end

