-- ==== Sys2Proof/Machine/Integrity.lean ====
section
/-! DEFINITION. The integrity tree and the stamp slots on media (R361, R365 to R378). -/
namespace Sys2Proof.Machine

/-- A write of tree nodes counts for the rotation of both homes' ranks and for their stripes' line writes (R319,
R368). -/
def nodeWritten (s : State) (n lines : Nat) : State :=
  if s.mp.mapNr = 0 then s
  else ([0, 1].filter fun k => !rankAbsent s (homeRank s n k)).foldl (fun s k =>
    systemWrite (updRot s (homeRank s n k) fun t => { t with twrites := t.twrites + 1 }) (nodeHome s n k) lines) s

/-- TREE_NODE_WRITE (R370, R371): the node's new image is held while both replicas are written; at most 64 are held. -/
def execTreeNodeWrite (node : Nat) (s : State) : Host.Outcome State Fault Refusal :=
  .next (
    if awake s && node ∈ s.ig.nodesDue && node ∉ s.ig.heldNodes && s.ig.heldNodes.length < 64 then
      { s with ig := { s.ig with heldNodes := s.ig.heldNodes ++ [node], nodesDue := s.ig.nodesDue.filter (· ≠ node) } }
    else s)

/-- Change N_a: level B, C_b and the root follow, and the B image is dirty (R367, R371). -/
def setNode (s : State) (a v : Nat) : State :=
  let b := a / 512
  { s with clk := { s.clk with root := s.ig.rootVer + 1 }, ig := { s.ig with
    levelB := tset 0 s.ig.levelB a v
    levelC := tupd 0 s.ig.levelC b (· + 1)
    rootVer := s.ig.rootVer + 1
    dirtyB := addNew s.ig.dirtyB b } }

/-- The leaves of a node are evictable again once its write has verified (R370 step 4); a leaf that is being converted
keeps its exemption (R504). -/
def liftExempt (s : State) (node : Nat) : State :=
  let keep (g : Nat) : Bool :=
    (s.mp.writeBacks.any fun w => leafOfLine w.1 = g / 16) || s.mp.mig.any fun m => g / 16 ∈ m.2.active
  let lift (x : Nat × Option CacheSeg) : Nat × Option CacheSeg :=
    if nodeOf (x.1 / 16) = node && !keep x.1 then (x.1, x.2.map fun c => { c with exempt := false }) else x
  { s with mp := { s.mp with cache := s.mp.cache.map lift } }

/-- A held node's write has verified in both replicas: N_a + 1 is in force and the image is no longer held (R371). -/
def finishNode (s : State) (node : Nat) : State :=
  let s := { s with ig := { s.ig with heldNodes := s.ig.heldNodes.filter (· ≠ node) } }
  let s := nodeWritten s node 64
  setNode s node (tget 0 s.ig.levelB node + 1)

/-- NODE_WRITE_VERIFIED (R371). -/
def execNodeWriteVerified (node : Nat) (s : State) : Host.Outcome State Fault Refusal :=
  .next (if node ∉ s.ig.heldNodes then s else liftExempt (finishNode s node) node)

/-- B_IMAGE_WRITE (R372): both replicas of a dirty B image are on media. -/
def execBImageWrite (b : Nat) (s : State) : Host.Outcome State Fault Refusal :=
  .next (
    if awake s && b ∈ s.ig.dirtyB then
      nodeWritten { s with ig := { s.ig with dirtyB := s.ig.dirtyB.filter (· ≠ b) } } (nodesA s + b) 64
    else s)

/-- STAMP_SLOT_WRITE_BACK (R377): a dirty slot is on media. -/
def execStampSlotWriteBack (home : Nat) (s : State) : Host.Outcome State Fault Refusal :=
  .next (
    if !awake s then s
    else match stampSlot s home with
      | none => s
      | some x =>
        if x.dirty then
          setStampSlot (slotToMedia s home x) home
            (some { x with dirty := false })
        else s)

/-- STAMP_CEIL_DURABLE (R361): the raised ceiling is in the keep store. -/
def execStampCeilDurable (s : State) : Host.Outcome State Fault Refusal :=
  .next (if s.ig.ceilPending && keepUp s then raiseCeiling s else s)

end Sys2Proof.Machine
end

