-- ==== Sys2Proof/Machine/Scrub.lean ====
section
/-! DEFINITION. The scrubber (R301 to R305). -/
namespace Sys2Proof.Machine

def passKey (r : Nat) (bisque : Bool) : Nat := 2 * r + if bisque then 1 else 0
def scrubPass (s : State) (r : Nat) (bisque : Bool) : Pass := tget {} s.ecc.passes (passKey r bisque)
def updPass (s : State) (r : Nat) (bisque : Bool) (f : Pass → Pass) : State :=
  { s with ecc := { s.ecc with passes := tupd {} s.ecc.passes (passKey r bisque) f } }

/-- A stripe of a breath area, or one that replaces it (R536, R548). -/
def breathStripe (s : State) (bs : Nat) : Bool :=
  let inArea (b : Nat) : Bool := decide (bzFirst s ≤ bsBlock b) && decide (bsBlock b < bzFirst s + 2)
  inArea bs || s.pwr.breathRepl.any fun x => x.2 = bs && inArea x.1

/-- Word lines of a stripe that a pass visits (R301): those allocated in bisque, those programmed in glaze. -/
def scrubLines (s : State) (bisque : Bool) (bs : Nat) : Nat :=
  let b := stripe s bs
  match bsState s bs with
  | .system => if bisque && !breathStripe s bs then 65536 else 0
  | .bisque => if bisque && b.bisque then b.wls else 0
  | .open => if b.bisque = bisque then b.wls else 0
  | .victim => if b.bisque = bisque && !b.unswept then b.wls else 0
  | .full => if !bisque && !b.unswept then b.wls else 0
  | _ => 0

/-- Stamp word lines of a bisque stripe that are in use (R373, R378). -/
def stampWls (s : State) (bs : Nat) : List Nat :=
  ((s.ig.mediaSlots.filter fun x => slotBs x.1 = bs).map fun x => (stampHome x.1).1).dedup

/-- Stamp word lines that a pass visits in a stripe beside its page slots (R378). -/
def scrubStamps (s : State) (bisque : Bool) (bs : Nat) : List Nat :=
  if bisque && bsState s bs ≠ .system && scrubLines s bisque bs ≠ 0 then stampWls s bs else []

/-- Stripes that a pass visits, with their word lines, in ascending bs. -/
def scrubStripes (s : State) (r : Nat) (bisque : Bool) : List (Nat × Nat) :=
  let system := if bisque then systemStripes s r else []
  sortBy (fun a b => a.1 ≤ b.1) ((system ++ (rankStripes s r).map (·.1)).filterMap fun bs =>
    let w := scrubLines s bisque bs
    if 0 < w then some (bs, w) else none)

/-- Slots of a word line: three in glaze, one in bisque. -/
def slotsPerLine (bisque : Bool) : Nat := if bisque then 1 else 3

/-- A pass begins: its slots are counted and its step is set; the pass after a dirty shutdown has step 4 (R302, R304). -/
def startPass (s : State) (r : Nat) (bisque : Bool) : State :=
  let due := bisque && r ∈ s.ecc.dirtyDue
  if !mediaRuns s || r ∉ s.mp.pop || (scrubPass s r bisque).running || (!scrubEn s && !due) then s
  else
    let n := ((scrubStripes s r bisque).map fun x => x.2 * slotsPerLine bisque + (scrubStamps s bisque x.1).length).sum
    let days := if bisque then scrubBisqueDays s else scrubGlazeDays s
    let step := if due then 4 else max (days * 86400 * 16000000 / max n 1) 4
    let s := { s with ecc := { s.ecc with dirtyDue := if due then s.ecc.dirtyDue.filter (· ≠ r) else s.ecc.dirtyDue } }
    updPass s r bisque fun _ => { running := true, total := n, step := step, start := s.clk.beat, dirty := due }

/-- SCRUB_PASS_START (R302, R304). -/
def execScrubPassStart (r : Rank) (bisque : Bool) (s : State) : Host.Outcome State Fault Refusal :=
  .next (startPass s r.val bisque)

/-- What the visit found in one column group (R294, R303): positions that failed, and those whose correction counts. -/
structure GroupFinding where
  failed : List Nat := []
  corrected : List Nat := []
  stale : Bool := false

/-- The first of a finding's entries for a group: image `u` of each position. -/
def groupFinding (s : State) (slot page u : Nat) (found : List (Nat × Nat × Sensed)) : GroupFinding :=
  let out := outPositions s (slotBs slot)
  let mine := found.filter fun x => x.2.1 = u && x.1 < 18 && x.1 ∉ out
  { failed := (mine.filter fun x => otherFails page (4 * x.1 + u) x.1 x.2.2 || otherHides page (4 * x.1 + u) x.1 x.2.2).map (·.1) |>.dedup
    corrected := (mine.filter fun x => match x.2.2 with | .bits n => decide (corrBits s ≤ n ∧ n ≤ 6) | _ => false).map (·.1) |>.dedup
    stale := (slot * 4 + u) ∈ s.mp.parityStale }

/-- In bisque the lines of a column group that decode are rewritten in place (R303). -/
def rewriteGroup (s : State) (slot u : Nat) : State :=
  ((List.range 16).map (4 * · + u)).foldl (fun s i =>
    match mediaLine s slot i with | some r => setMedia s slot i (.line r) | none => s) s

/-- Scrub one column group of a valid slot (the table of R303). With parity out of step a missing data position does not
decode (R223, R294). -/
def scrubGroup (s : State) (slot page : Nat) (bisque : Bool) (found : List (Nat × Nat × Sensed)) (u : Nat) : State :=
  let e := entryNow s page
  let g := groupFinding s slot page u found
  let out := (outPositions s (slotBs slot)).length
  let erased := out + g.failed.length
  let events := (g.failed ++ g.corrected.filter (· ∉ g.failed))
  let gone := (g.failed ++ outPositions s (slotBs slot)).filter (· < 16)
  let lost := gone.filter fun p => liveIn e slot (4 * p + u)
  if 2 < erased || (g.stale && !gone.isEmpty) then lost.foldl (fun s p => poisonFromMedia s page (4 * p + u) slot txInternal) s
  else
    let bad := (List.range 16).filter fun p => liveIn e slot (4 * p + u) && (match mediaLine s slot (4 * p + u) with
      | some r => !tagHolds s r page (4 * p + u) e.stamp
      | none => true)
    let s := bad.foldl (fun s p => poisonFromMedia s page (4 * p + u) slot txInternal) s
    let s := events.foldl (fun s _ => correctionEvent s (slotRank slot) page) s
    let s := if bisque then rewriteGroup s slot u else s
    let s := if g.stale && bisque then
        { s with mp := { s.mp with parityStale := s.mp.parityStale.filter (· ≠ slot * 4 + u) } } else s
    if !bisque && (g.stale || (g.failed.any fun p => 16 ≤ p) || (erased = 2 && out = 0)) then queueRefresh s page else s

/-- The leaf and the replica whose position a slot of the map region holds, none where no leaf lies there (R136). -/
def leafAt (s : State) (slot : Nat) : Option (Nat × Nat) :=
  let r := slotRank slot
  let t := rot s r
  let x := ((t.swaps.find? fun y => y.2 = slotBs slot % 81920).map (·.1)).getD (slotBs slot % 81920)
  let p := ((x % 5120 - mapBlkFirst s) * 16 + x / 5120) * 65536 + slotWl slot
  let a := ((if t.gap < p then p - 1 else p) + s.mp.mapN - t.start) % s.mp.mapN
  let i := s.mp.mapRanks.findIdx (· = r)
  let k := a % 2
  let L := a / 2 * s.mp.mapNr + (i + s.mp.mapNr - k * (s.mp.mapNr / 2)) % s.mp.mapNr
  if L < leaves s ∧ leafHome s L k = slot then some (L, k) else none

/-- What the slot's page decode makes of a line image that failed, with the positions out of service (R294). -/
def afterDecode (s : State) (slot u : Nat) (found : List (Nat × Nat × Sensed)) : Sensed :=
  let out := outPositions s (slotBs slot)
  let bad := found.filter fun x => x.2.1 = u && x.1 ∉ out && senseFails x.2.2
  if out.length + bad.length ≤ 2 then .bits 0 else .bits 7

/-- A map slot is checked line by line against its other replica, which is read too: corrections are counted, and a failed,
corrected or older line is rewritten (R146, R300, R303). -/
def scrubLeaf (s : State) (slot L k : Nat) (found : List (Nat × Nat × Sensed)) : State :=
  let out := outPositions s (slotBs slot)
  let sense (i : Nat) : Sensed :=
    if i / 4 ∈ out then .erasure false
    else ((found.find? fun x => x.1 = i / 4 && x.2.1 = i % 4).map (·.2.2)).getD (.bits 0)
  (List.range 64).foldl (fun s i =>
    let late := afterDecode s slot (i % 4) found
    if k = 0 then (takeMapLine s (64 * L + i) (sense i) (.bits 0) late (.bits 7)).1
    else (takeMapLine s (64 * L + i) (.bits 0) (sense i) (.bits 7) late).1) s

/-- A slot of a system stripe, or a stamp word line: a leaf is held against its other replica; elsewhere a line whose correction counts is counted
in the bucket and rewritten in place (R300, R303, R319). -/
def scrubSystem (s : State) (slot : Nat) (found : List (Nat × Nat × Sensed)) : State :=
  match leafAt s slot with
  | some (L, k) => scrubLeaf s slot L k found
  | none =>
    (found.filter fun x => x.1 ∉ outPositions s (slotBs slot) && (senseFails x.2.2 || senseCounts s x.2.2)).foldl
      (fun s _ => systemWrite (bucketEvent s (slotRank slot)) slot 1) s

/-- The slot is one that the pass visits now: in one of its stripes, beyond the last one visited, and one step after it
(R302, log 110). -/
def passHas (s : State) (r : Nat) (bisque : Bool) (slot : Nat) : Bool :=
  let p := scrubPass s r bisque
  decide (p.start + p.visited * p.step ≤ s.clk.beat) && decide (p.next ≤ slot) && slotRank slot = r &&
    (decide (slotWl slot < scrubLines s bisque (slotBs slot)) || slotWl slot ∈ scrubStamps s bisque (slotBs slot)) && (!bisque || slotPos slot = 0)

/-- No slot of the pass lies beyond this one. -/
def passEnds (s : State) (r : Nat) (bisque : Bool) (slot : Nat) : Bool :=
  (scrubStripes s r bisque).all fun x => decide (slotNo x.1 (x.2 - 1) (slotsPerLine bisque - 1) ≤ slot) &&
    (scrubStamps s bisque x.1).all fun w => decide (slotNo x.1 w 0 ≤ slot)

/-- SCRUB_VISIT (R302, R303): one slot is sensed, decoded and tag-checked; an invalid slot is passed over. -/
def execScrubVisit (r : Rank) (bisque : Bool) (slot : Nat) (found : List (Nat × Nat × Sensed)) (s : State) :
    Host.Outcome State Fault Refusal :=
  .next (
    if !mediaRuns s || !(scrubPass s r.val bisque).running || !passHas s r.val bisque slot then s
    else
      let ends := passEnds s r.val bisque slot
      let s := if bsState s (slotBs slot) = .system || slotWl slot ∈ scrubStamps s bisque (slotBs slot) then scrubSystem s slot found
        else match identFrom s slot fun p => found.any fun x => x.1 = p && (match x.2.2 with | .bits n => decide (6 < n) | _ => true) with
          | none => s
          | some page =>
            let s := touchSeg (fetchSeg s page) (segNo page)
            if namesSlot s slot bisque page then (List.range 4).foldl (fun s u => scrubGroup s slot page bisque found u) s
            else s
      let s := count s (1 + r.val) 0x10B 0xFF 1
      updPass s r.val bisque fun p => { p with
        visited := p.visited + 1, next := slot + 1, running := !ends, dirty := p.dirty && !ends })

/-- SCRUB_OVERRUN (R302): a pass has not ended within its period; the next pass starts at once. -/
def execScrubOverrun (r : Rank) (bisque : Bool) (s : State) : Host.Outcome State Fault Refusal :=
  .next (
    let p := scrubPass s r.val bisque
    let days := if bisque then scrubBisqueDays s else scrubGlazeDays s
    if p.running && !p.dirty && decide (p.start + days * 86400 * 16000000 < s.clk.beat) then
      let s := raise { s with ecc := { s.ecc with overruns := satAdd 16 s.ecc.overruns 1 } } 0x33 r.val 0 0 0 0
      startPass (updPass s r.val bisque fun _ => {}) r.val bisque
    else s)

end Sys2Proof.Machine
end

