-- ==== Sys2Proof/Machine/Links.lean ====
section
/-! DEFINITION. The Gyelo media links: frames, batches, failures, training, inventory and removal (R31 to R33, R50 to
R62, R71 to R112, R250, R279, R321, R668). -/
namespace Sys2Proof.Machine

/-! ### Completion queues and work units (R33, R34) -/

/-- Report a work entry to its core, with what it returned (R33, R94). -/
def completeUnit (s : State) (core n : Nat) (passed lost : Bool) (data : List Byte := []) : State :=
  { s with ln := { s.ln with complQ := s.ln.complQ ++ [{ core := core, link := n, passed := passed, lost := lost, data := data }] } }

/-- The positions that a unit names. -/
def unitTakes (u : WorkUnit) (q : Nat) : Bool := u.positions.getLsbD q

/-- The fields of a unit lie in their ranges, its class below that of host reads (R31, R33, R89). -/
def unitOk (u : WorkUnit) : Bool :=
  u.core < 18 && u.rank < 64 && u.die < 17 && u.block < 5120 && u.wl < 65536 && u.line < 16 && 2 ≤ u.cls && u.cls < 7

/-- A core's roles cover the rank's media: its media role, the map and integrity roles, and the reserve workers (R34). That no
other role submits work is the model's choice (log 106). -/
def coreServes (s : State) (u : WorkUnit) : Bool :=
  [2 + u.rank / 8, 10, 11, 14, 15].any fun r => roleCore s r = some u.core

/-- WORK_UNIT_SUBMIT (R33, R34): a live core's unit joins its rank scheduler's queue; no unit is issued in a last breath
(R539). The cores' monitor counts it (R609). -/
def execWorkUnitSubmit (w : WorkUnit) (s : State) : Host.Outcome State Fault Refusal :=
  .next (
    if unitOk w && awake s && s.pwr.breath.isNone && !s.wr.failed.getLsbD w.core && coreServes s w then
      count { s with ln := { s.ln with work := s.ln.work ++ [(s.clk.beat, w)] } } 65 0x203 0xFF 1
    else s)

/-! ### A link leaves service (R103, R107, R108, R215, R246) -/

/-- A third link of the rank is lost: the rank fails, the reads that wait for its cones end, and its hold period starts with a
count of discards of its own (R108, R160, R215). -/
def rankFails (s : State) (r : Nat) : State :=
  let s := releaseCones s r
  raise { s with sag := { s.sag with
    holdStart := tset none s.sag.holdStart r (some s.clk.beat), holdOver := tset false s.sag.holdOver r false
    discarded := tset 0 s.sag.discarded r 0 } } 0x25 r 0 0 0 0

/-- A rank's lost-link count has risen: open stripes close at two, the rank fails at three; links that retrain after a
park start no period (R559). -/
def lostRose (s : State) (r before : Nat) : State :=
  let now := lostLinks s r
  let s := if before < 2 && 2 ≤ now then closeAll s r else s
  if before < 3 && 3 ≤ now && r ∈ s.mp.pop && r ∉ s.th.unparking then rankFails s r else s

/-- The retraining after a park has ended once no link of the rank retrains; three links still lost start the period
then (R559). -/
def unparkEnds (s : State) (r : Nat) : State :=
  let busy := (rankLinks r).any fun n => (link s n).state = .retrain || (link s n).state = .training
  if r ∈ s.th.unparking && !busy then
    let s := { s with th := { s.th with unparking := s.th.unparking.filter (· ≠ r) } }
    if 3 ≤ lostLinks s r then rankFails s r else s
  else s

/-- A read waits for a sense: the data read of its line, or a return of its escalation (R169, R177). -/
def Rd.wants (r : Rd) (x : Sense) : Bool :=
  match r.stage with
  | .sense slot b => x.kind = .data && x.slot = slot && x.line = lineName slot r.line b
  | .escalate slot b _ => x.kind = .erasure && x.slot = slot && x.line = lineName slot r.line b
  | _ => false

/-- A read whose return is an erasure escalates: the senses of the other links are commanded from the next frame on (R97, R98,
R107, R177). -/
def escalateRead (s : State) (r : Rd) : State :=
  match r.stage with
  | .sense slot b =>
    let turn (x : Rd) : Rd := if x = r then { x with stage := .escalate slot b (some (.erasure true)), path := x.path ||| 4 } else x
    senseStripe { s with hq := { s.hq with reads := s.hq.reads.map turn } } slot r.line b
      { due := s.clk.beat + 1, age := r.beat, tag := some r.tag }
  | _ => s

/-- Reads whose data segment lies on a link are completed by escalation (R98, R107). -/
def escalateReads (s : State) (n : Nat) (which : Rd → Bool) : State :=
  let hit (r : Rd) : Bool := match r.stage with
    | .sense slot _ => rankLink (slotRank slot) (segmentOf r.line) = n && which r
    | _ => false
  let l := s.hq.reads.filter hit
  let s := l.foldl escalateRead s
  if l.isEmpty then s
  else
    let s := updEcc s (n / 18) fun x => { x with escalations := satAdd 32 x.escalations l.length }
    count (count s (1 + n / 18) 0x103 0xFF l.length) 0 0xB 0xFF l.length

/-- The units among some entries. -/
def unitsOf (l : List Entry) : List WorkUnit := l.filterMap fun e => match e with | .unit u _ => some u | _ => none

/-- Every work unit that a link has not ended (R107). -/
def linkUnits (l : LinkRec) : List WorkUnit :=
  unitsOf ((l.unsure.map (·.2)).flatten ++ l.executed ++ l.executing ++ l.batched ++ l.planned) ++
    l.loadsBefore ++ l.loadsSent ++ l.loadsPlanned

/-- A link carries no work any longer. -/
def LinkRec.cleared (l : LinkRec) : LinkRec :=
  { l with
    executed := [], executing := [], batched := [], planned := [], loadsBefore := [], loadsSent := [], loadsPlanned := []
    pressed := [], pressedBefore := [], unsure := [], asked := false, waiting := [], readNow := none, readBefore := none
    due0 := [], due1 := [], eqDue := [], awaiting := none, nak := false, blind := false, blindBefore := false }

/-- A position leaves the queued units of its rank for which `which` holds. -/
def stripUnits (s : State) (n : Nat) (which : WorkUnit → Bool) : State :=
  let strip (x : Nat × WorkUnit) : Nat × WorkUnit :=
    if x.2.rank = n / 18 && which x.2 then
      (x.1, { x.2 with positions := x.2.positions &&& (~~~ (1#18 <<< (n % 18)) : BitVec 18) }) else x
  { s with ln := { s.ln with work := (s.ln.work.map strip).filter fun x => x.2.positions ≠ 0 } }

/-- The work units of a link return to their cores with a link-lost status (R107). -/
def returnWork (s : State) (n : Nat) : State :=
  let mine := linkUnits (link s n) ++ (s.ln.work.filter fun x => x.2.rank = n / 18 && unitTakes x.2 (n % 18)).map (·.2)
  let s := stripUnits (mine.foldl (fun s u => completeUnit s u.core n false true) s) n fun _ => true
  let s := { s with ln := { s.ln with
    seqs := s.ln.seqs.filter fun x => x.1 / 68 ≠ n
    blanks := s.ln.blanks.filter fun x => x.1 / 68 ≠ n
    buffers := s.ln.buffers.filter fun x => x.1 / (68 * 16) ≠ n } }
  updLink s n LinkRec.cleared

/-- Secure discards count the links that are out of service while they run (R513 m). -/
def noteOut (s : State) (n : Nat) : State :=
  { s with pp := { s.pp with cmds := s.pp.cmds.map fun c =>
      if c.op = 0x0200 && c.fld 0x28 1 = 1 && c.phase = .running then { c with found := addNew c.found n } else c } }

/-- A serving link whose work has been returned leaves service for a state and a cause. -/
def outOfService (s : State) (n : Nat) (st : LinkState) (cause : Nat) : State :=
  let before := lostLinks s (n / 18)
  let s := noteOut (escalateReads s n fun _ => true) n
  let s := updLink s n fun l => { l with
    state := st, cause := cause, lostAt := s.clk.beat, lostSignal := decide (cause = 2)
    wasRebuilding := decide (l.state = .rebuilding), consecHdr := 0, consecTag := 0, fails := [] }
  lostRose s (n / 18) before

/-- A serving link leaves service, and its work returns (R107). -/
def leaveService (s : State) (n : Nat) (st : LinkState) (cause : Nat) : State := outOfService (returnWork s n) n st cause

/-- The device declares a link lost (R107): the event names the link and the cause. -/
def linkLost (s : State) (n cause : Nat) : State :=
  unparkEnds (raise (leaveService s n .lost cause) 0x20 (n / 18) n cause 0 0) (n / 18)

/-- A retrain starts in service (R103); it skips Detect and Inventory. -/
def startRetrain (s : State) (n cause : Nat) : State :=
  updLink (leaveService s n .retrain cause) n fun l =>
    { l with step := 1, stepAt := s.clk.beat, attempts := 1, retrains := satAdd 16 l.retrains 1 }

/-- Serving links leave electrical idle; which of them need a retrain the medium decides (R519, R559; the cause code of
such a retrain is that of failing checks, log 31). -/
def resumeLinks (s : State) (which : Nat → Bool) : State :=
  let (d, s) := draw s
  (((List.range 1152).filter fun n => which n && (link s n).state.serves && !Config.linkResumes d n).foldl
    fun s n => startRetrain s n 7) s

/-! ### A link enters service (R110, R111, R325, R326, R636) -/

/-- The rank may have fewer than three lost links again (R215). -/
def rankBack (s : State) (r : Nat) : State :=
  unparkEnds (if lostLinks s r < 3 then { s with sag := { s.sag with holdOver := tset false s.sag.holdOver r false } }
    else s) r

/-- Return to service: with the segments written meanwhile only, when R111 allows, else with a full rebuild. -/
def returnToService (s : State) (n : Nat) (short : Bool) : State :=
  let l := link s n
  let w := linkWear s n
  let s := updLink s n fun l => { l with inService := true, step := 0, attempts := 0, wasRebuilding := false, cause := l.cause }
  let s :=
    if !short then startLinkRebuild (updLink s n fun l => { l with state := .rebuilding }) n true
    else if l.wasRebuilding then
      let s := updLinkWear s n fun w => { w with linkBits := w.linkBits.filter (· ∉ w.changedOut) }
      clearForRebuild (updLink s n fun l => { l with state := .rebuilding }) (n / 18) fun bs => !rebuiltFor s n bs
    else if w.changedOut.isEmpty then updLink s n fun l => { l with state := .active }
    else startLinkRebuild (updLink s n fun l => { l with state := .rebuilding }) n false
  rankBack s (n / 18)

/-- R111 applies: trained again within 65,536 beats of its loss without loss of signal, and the SERIAL matches. -/
def shortAbsence (s : State) (n : Nat) : Bool :=
  let l := link s n
  l.inService && !l.lostSignal && decide (l.trainedAt ≤ l.lostAt + 65536) &&
    (match l.pkg with | some p => l.recordedSerial = some p.serial | none => false)

/-! ### Removal and return by command (R109, R110, R466, R467) -/

/-- The states in which an ONLINE command has settled (R467). -/
def onlineSettled (st : LinkState) : Bool := st.serves || st = .refused || st = .lost || st = .empty

/-- An ONLINE command completes once its link has settled (R467). -/
def settleOnline (s : State) (n : Nat) : State :=
  if onlineSettled (link s n).state then
    (s.ln.onlining.filter fun x => x.1 = n).foldl (fun s x => finishId s (some x.2) 0 (BitVec.ofNat 64 (link s n).state.code) 0)
      { s with ln := { s.ln with onlining := s.ln.onlining.filter fun x => x.1 ≠ n } }
  else s

/-- The link is REMOVABLE: the event, and the commands that waited complete (R109, R466). -/
def enterRemovable (s : State) (n : Nat) : State :=
  let s := unparkEnds (updLink (returnWork s n) n fun l => { l with state := .removable }) (n / 18)
  let s := raise s 0x22 (n / 18) n 0 0 0
  (s.ln.removing.filter fun x => x.1 = n).foldl (fun s x => finishId s (some x.2) 0 7 0)
    { s with ln := { s.ln with removing := s.ln.removing.filter fun x => x.1 ≠ n } }

/-- LINK_REMOVABLE (R109): a draining link's programs have ended. -/
def execLinkRemovable (l : LinkNo) (s : State) : Host.Outcome State Fault Refusal :=
  .next (if awake s && (link s l.val).state = .draining then enterRemovable s l.val else s)

/-- LOSS_OF_SIGNAL (R107): a serving link is lost with cause 2; one that trains or is refused is empty again. -/
def execLossOfSignal (l : LinkNo) (s : State) : Host.Outcome State Fault Refusal :=
  .next (
    let n := l.val
    settleOnline (match (link s n).state with
    | .active => linkLost s n 2
    | .rebuilding => linkLost s n 2
    | .retrain => raise (updLink s n fun l => { l with state := .lost, cause := 2, lostSignal := true }) 0x20 (n / 18) n 2 0 0
    | .lost => updLink s n fun l => { l with lostSignal := true, signal := false }
    | .training => updLink s n fun l => { l with state := .empty, signal := false, lostSignal := true }
    | .inventory => updLink s n fun l => { l with state := .empty, signal := false, pkg := none, lostSignal := true }
    | .refused => updLink s n fun l => { l with state := .empty, signal := false }
    | _ => updLink s n fun l => { l with signal := false }) n)

/-! ### Training (R101, R668) -/

/-- The links train: step 6 of startup has begun and the data path is awake. -/
def linksRun (s : State) : Bool := awake s && 6 ≤ s.pwr.step

/-- LINK_DETECT_POLL (R101, R105, R110, R467): an EMPTY or LOST link with a signal begins to train; a link brought
online starts here, and is EMPTY when there is no signal. -/
def execLinkDetectPoll (l : LinkNo) (signal : Bool) (s : State) : Host.Outcome State Fault Refusal :=
  .next (
    let k := link s l.val
    if !linksRun s then s
    else if signal && (k.state = .empty || k.state = .lost || (k.state = .training && k.step = 0)) then
      updLink s l.val fun k => { k with
        state := .training, signal := true, step := 1, stepAt := s.clk.beat, attempts := 1, retrains := satAdd 16 k.retrains 1 }
    else if !signal && (k.state = .refused || (k.state = .training && k.step = 0)) then
      settleOnline (updLink s l.val fun k => { k with state := .empty, signal := false }) l.val
    else updLink s l.val fun k => { k with signal := signal })

/-- Reference sets of a link are still to be loaded, or on their way (R101, R274). -/
def setsLoading (s : State) (n : Nat) : Bool :=
  let k := link s n
  (s.dr.reloads.any fun x => x.1 = n) || (k.planned ++ k.batched ++ k.executing ++ k.executed).any fun e => match e with
    | .refload _ _ _ _ => true
    | _ => false

/-- The limit of a training step in beats (R101). -/
def stepLimit : Nat → Nat
  | 1 => 1600 | 2 => 160 | 3 => 16384 | _ => 160000

/-- TRAINING_STEP_DONE (R101, R103, R668): Equalise writes the taps and the eye, Align the round trip; Check lasts 16,384
beats, and after it a new link goes to Inventory, a retrained one back into service. -/
def execTrainingStepDone (l : LinkNo) (roundTrip ffe eyeV eyeH : Nat) (s : State) : Host.Outcome State Fault Refusal :=
  .next (
    let n := l.val
    let k := link s n
    if (k.state ≠ .training && k.state ≠ .retrain) || k.step = 0 || !linksRun s then s
    else if k.step = 1 then
      updLink s n fun k => { k with
        step := 2, stepAt := s.clk.beat, ffe := ffe % 2 ^ 15, eyeV := eyeV % 65536, eyeH := eyeH % 65536
        eyePrev := none, telEye := none, eqTap := none, ffePrev := none, eqDue := [] }
    else if k.step = 2 then
      (if 64 < roundTrip then s else updLink s n fun k => { k with step := 3, stepAt := s.clk.beat, roundTrip := roundTrip })
    else if s.clk.beat < k.stepAt + stepLimit 3 then s
    else
      let s := updLink s n fun k => { k with trainedAt := s.clk.beat }
      if k.state = .training then updLink s n fun k => { k with step := 4, stepAt := s.clk.beat, state := .inventory }
      else settleOnline (returnToService s n (shortAbsence s n)) n)

/-- TRAINING_TIMEOUT (R101): a step has not ended within its limit; after 3 attempts the link is lost with cause 4. -/
def execTrainingTimeout (l : LinkNo) (s : State) : Host.Outcome State Fault Refusal :=
  .next (
    let n := l.val
    let k := link s n
    if (k.state ≠ .training && k.state ≠ .retrain && !(k.state = .inventory && (k.step = 4 || setsLoading s n))) || k.step = 0 || !linksRun s ||
        s.clk.beat < k.stepAt + stepLimit k.step then s
    else if k.attempts < 3 then
      updLink { s with dr := { s.dr with reloads := s.dr.reloads.filter fun x => x.1 ≠ n } } n fun k => { k.cleared with
        step := 1, stepAt := s.clk.beat, attempts := k.attempts + 1, retrains := satAdd 16 k.retrains 1
        state := if k.state = .retrain then .retrain else .training }
    else settleOnline (raise (updLink s n fun k => { k with state := .lost, cause := 4 }) 0x20 (n / 18) n 4 0 0) n)

/-- Is a value below an earlier one, if there is one? -/
def below (v : Nat) (p : Option Nat) : Bool := match p with | some x => v < x | none => false

/-- The package's transmitter at an evaluation (R102): a tap whose change narrowed the eye goes back, otherwise one tap takes a
new value by an EQ entry. Which tap and value the spec leaves open. -/
def adjustPackage (s : State) (n eyeH : Nat) : State :=
  let k := link s n
  let (d, s) := draw s
  let w := (Config.freeWord d).toNat
  let old (t : Nat) : Nat := tget 0 k.pkgTaps t
  match (if below eyeH k.eyePrev then k.eqTap else none) with
  | some (t, v) => updLink s n fun k => { k with pkgTaps := tset 0 k.pkgTaps t v, eqTap := none, eqDue := k.eqDue ++ [(t, v)] }
  | none =>
    let t := w % 16
    let v := w / 16 % 256
    updLink s n fun k => { k with pkgTaps := tset 0 k.pkgTaps t v, eqTap := some (t, old t), eqDue := k.eqDue ++ [(t, v)] }

/-- The device's transmitter at an evaluation, from telemetry word 18: a change that narrowed the package's eye goes back,
otherwise the taps take the values given (R102). -/
def adjustDevice (s : State) (n ffe : Nat) : State :=
  updLink s n fun k =>
    let eye := (tget 0 k.tel 18).toNat % 65536
    let k' := { k with telEye := some eye }
    match (if below eye k.telEye then k.ffePrev else none) with
    | some f => { k' with ffe := f, ffePrev := none }
    | none => { k' with ffe := ffe % 2 ^ 15, ffePrev := some k.ffe }

/-- EQ_EVALUATION (R102, R103, R668): every 2^20 beats; an eye below 0.15 UI starts a retrain. -/
def execEqEvaluation (l : LinkNo) (ffe eyeV eyeH : Nat) (s : State) : Host.Outcome State Fault Refusal :=
  .next (
    let n := l.val
    let h := eyeH % 65536
    if !(link s n).state.serves || !awake s then s
    else
      let s := adjustDevice (adjustPackage s n h) n ffe
      let s := updLink s n fun k => { k with eyeV := eyeV % 65536, eyePrev := some h, eyeH := h }
      if h * 100 < 15 * 1024 then startRetrain s n 8 else s)

/-! ### The package descriptor (R73 to R79) -/

/-- A little-endian field of the descriptor. -/
def dfield (d : List Byte) (off n : Nat) : Nat := leNat ((d.drop off).take n)

/-- The fields of R73 in ascending offset: offset, size, and what is accepted. A bad NU[i] is reported at the offset of that
byte, 0x056 + i: the model's choice (log 93). -/
def descFields (d : List Byte) : List (Nat × Bool) :=
  let f (o n : Nat) (p : Nat → Bool) : Nat × Bool := (o, p (dfield d o n))
  let eq (o n v : Nat) : Nat × Bool := f o n fun x => x = v
  let rng (o n a b : Nat) : Nat × Bool := f o n fun x => decide (a ≤ x) && decide (x ≤ b)
  [eq 0x000 4 0x444C5947, eq 0x004 2 1, rng 0x006 2 0 1088, f 0x018 4 fun x => x % 65536 = 65535,
    eq 0x01C 1 17, eq 0x01D 1 4, eq 0x01E 2 1280, eq 0x020 4 65536, eq 0x024 2 2820, eq 0x026 2 64, eq 0x028 2 1024] ++
  [rng 0x02A 1 0 1, rng 0x02B 1 8 16, rng 0x02C 4 20000 (2 ^ 32), rng 0x030 4 10000000 (2 ^ 32), rng 0x034 2 160 65535,
    rng 0x036 2 480 65535, rng 0x038 1 0 60, rng 0x039 1 0 96, rng 0x03A 1 0 60, rng 0x03B 1 0 60, rng 0x03C 1 0 60,
    rng 0x03D 1 0 60, rng 0x03E 1 80 128, rng 0x03F 1 3 8, eq 0x040 1 3, rng 0x041 1 3 5, rng 0x042 1 0 63, rng 0x043 1 1 15] ++
  [rng 0x044 2 64 255, rng 0x046 2 1 1022] ++
  (List.range 8).map (fun i => if i = 0 then rng 0x056 1 0 8 else rng (0x056 + i) 1 0 128) ++
  [rng 0x05E 1 16 64, rng 0x05F 1 85 125, f 0x060 412 fun x => x = 0]

def refDefaultOf (d : List Byte) (b : Nat) : Nat := dfield d (0x048 + 2 * b) 2

/-- Check 4 (R76): the first boundary that does not rise. -/
def refRise (d : List Byte) : Option Nat :=
  ((List.range 6).find? fun b => refDefaultOf d (b + 1) ≤ refDefaultOf d b).map fun b => 0x048 + 2 * (b + 1)

/-- Check 5 (R74): room for ten decades. -/
def refRoom (d : List Byte) : Bool :=
  refDefaultOf d 6 + (dfield d 0x05C 1 + dfield d 0x05D 1) / 2 * dfield d 0x044 2 * 10 / 1024 ≤ 1023

/-- Check 7 (R75): the offset of the first bad entry of the bad-block list. -/
def badEntry (d : List Byte) : Option Nat :=
  let n := dfield d 6 2
  let e (i : Nat) : Nat := dfield d (0x200 + 4 * i) 4
  ((List.range 1919).find? fun i =>
    if n ≤ i then e i ≠ 0xFFFFFFFF
    else
      let die := e i / 65536 % 32
      let ok := decide (die ≤ 16) && decide (e i % 8192 < 5120) && decide (e i = die * 65536 + e i % 8192)
      let rises := i = 0 || decide (e (i - 1) < e i)
      let few := ((List.range (i + 1)).filter fun j => e j / 65536 % 32 = die).length ≤ 64
      !(ok && rises && few)).map fun i => 0x200 + 4 * i

/-- The offset that R77 reports: that of the first check of R76 that fails. -/
def descFault (a b : List Byte) : Option Nat :=
  if a ≠ b || a.length ≠ 8192 then some 0x2000
  else if (crc32c (a.take 0x1FC)).toNat ≠ dfield a 0x1FC 4 then some 0x1FC
  else match (descFields a).find? fun x => !x.2 with
    | some x => some x.1
    | none =>
      match refRise a with
      | some o => some o
      | none =>
        if !refRoom a then some 0x054
        else if (crc32c ((a.drop 0x200).take 0x1DFC)).toNat ≠ dfield a 0x1FFC 4 then some 0x1FFC
        else badEntry a

/-- The fields that the device uses of an accepted descriptor (R79). -/
def parsePkg (d : List Byte) : Pkg :=
  { serial := dfield d 8 8, maker := dfield d 16 4, part := dfield d 20 4, dieGood := BitVec.ofNat 17 (dfield d 24 4)
    bblCount := dfield d 6 2
    times := [0x38, 0x39, 0x3A, 0x3B, 0x3C, 0x3D].map fun o => dfield d o 1
    bbl := (List.range (dfield d 6 2)).map fun i => let e := dfield d (0x200 + 4 * i) 4; (e / 65536 % 32, e % 8192)
    disturbReach := dfield d 0x2A 1, maxPulsing := dfield d 0x2B 1, glazePulsesMax := dfield d 0x3E 1
    bisquePulsesMax := dfield d 0x3F 1, blankPulses := dfield d 0x40 1, blankPulsesMax := dfield d 0x41 1
    stepStart := dfield d 0x42 1, stepSize := dfield d 0x43 1, codePerDecade := dfield d 0x44 2
    refBisque := dfield d 0x46 2, refDefault := (List.range 7).map (refDefaultOf d)
    nu := (List.range 8).map fun i => dfield d (0x56 + i) 1, accel := dfield d 0x5E 1, tempCrit := dfield d 0x5F 1 }

/-- Blocks of the factory list are retired from the start (R78, R322). -/
def factoryBlocks (s : State) (n : Nat) : State :=
  ((pkgOf s n).bbl.filter fun x => x.1 < 16).foldl (fun s x => degradeStripe s (bsNo (n / 18) x.1 x.2)) s

/-- The die groups and dies of a link start again from its descriptor (R270). -/
def resetDieState (s : State) (n : Nat) : State :=
  { s with dr := { s.dr with
    groups := s.dr.groups.filter fun x => x.1 / 5 ≠ n
    dies := s.dr.dies.filter fun x => x.1 / 17 ≠ n } }

/-- All sets of a link are queued for its planes: sets 2 to 31 of the five die groups, sets 1 and 0 of each die (R89, R101,
R274). -/
def loadAllSets (s : State) (n : Nat) : State :=
  ((List.range 5) ++ (List.range 17).map (8 + ·) ++ (List.range 17).map (32 + ·)).foldl (fun s c => queueReload s n c) s

/-- An accepted package of a running device enters service once its reference sets are loaded (R101, R110 to R112): its SERIAL
is recorded; another package than the one recorded starts with its own spare die and lists (R71, R72, R270); a package of a
rank that is not populated waits for the next reset. -/
def acceptPackage (s : State) (n : Nat) : State :=
  if n / 18 ∉ s.mp.pop || s.pwr.step < 12 || (link s n).state ≠ .inventory || (link s n).step ≠ 5 || setsLoading s n then s
  else
    let serial := (pkgOf s n).serial
    let same := (link s n).recordedSerial = some serial
    let short := shortAbsence s n
    let s := if same then s else updLinkWear (resetDieState s n) n fun _ => {}
    let s := updLink s n fun l => { l with recordedSerial := some serial }
    settleOnline (factoryBlocks (returnToService s n short) n) n

/-- A package is refused: the event gives the offset of what failed (R77, R105). -/
def refusePackage (s : State) (n off : Nat) : State :=
  settleOnline (raise (updLink s n fun k => { k with state := .refused, cause := 5, pkg := none }) 0x21 (n / 18) n off 0 0) n

/-- PACKAGE_INVENTORY_DONE (R76, R77, R104, R105, R110): the descriptor as 94 REPORT chunks and over the management bus; the
package is refused, or its reference sets are loaded before it is accepted (R101). -/
def execPackageInventoryDone (l : LinkNo) (linkCopy : List Byte) (busCopy : BusTries (List Byte)) (s : State) :
    Host.Outcome State Fault Refusal :=
  .next (
    let n := l.val
    if (link s n).state ≠ .inventory || (link s n).step ≠ 4 then s
    else
      let s := busRead s n 0 8192 (busAttempts busCopy)
      match busAnswer busCopy with
      | none => refusePackage s n 0x2000
      | some copy => match descFault linkCopy copy with
        | some off => refusePackage s n off
        | none => loadAllSets (updLink s n fun k => { k with pkg := some (parsePkg linkCopy), step := 5 }) n)

end Sys2Proof.Machine
end

