-- ==== Sys2Proof/Machine/Frames.lean ====
section
/-! DEFINITION. The frames of the Gyelo media links: the plan of a frame with its return slots, the downstream frame, and the
upstream frame with what it tells of the frames before it (R29 to R33, R50 to R63, R84 to R100, R165 to R180, R241, R250,
R272 to R275, R279, R321, R556). -/
namespace Sys2Proof.Machine

/-! ### Primitives and entries (R31, R33, R89, R90) -/

def primPulse : Prim → Bool
  | .program _ => true
  | .blank => true
  | .destroy => true
  | _ => false

/-- Array primitives (R90). -/
def primArray : Prim → Bool
  | .sense _ => true
  | .slotSense _ => true
  | .verify _ => true
  | .cone _ => true
  | p => primPulse p

def primData : Prim → Bool
  | .dataLoad _ _ => true
  | _ => false

def unitPlane (u : WorkUnit) : Nat := u.block % 4

/-- Die and plane of an entry's array primitive. -/
def entryPlane (s : State) (n : Nat) : Entry → Option (Nat × Nat)
  | .unit u _ => if primArray u.prim then some (u.die, unitPlane u) else none
  | .sense x _ => some (senseAt s n x)
  | _ => none

/-- Die of an entry's pulse. -/
def entryPulse : Entry → Option Nat
  | .unit u _ => if primPulse u.prim then some u.die else none
  | _ => none

/-! ### Upstream slot 1 (R94, R95) -/

/-- Frames in which an entry's return fills upstream slot 1. -/
def Entry.frames : Entry → Nat
  | .unit u _ => (match u.prim with | .sense _ => 1 | .slotSense _ => 4 | .report _ _ => 1 | _ => 0)
  | .sense x _ => if x.whole then 4 else 1
  | .masks _ => 1
  | _ => 0

/-- The least return offset that an entry may name (R89). -/
def Entry.least : Entry → Nat
  | .unit u _ => (match u.prim with | .report _ _ => 1 | _ => 2)
  | .masks _ => 1
  | _ => 2

/-- An 8-byte report, which may share its slot; a descriptor chunk fills the slot alone (R94). -/
def Entry.packs : Entry → Bool
  | .unit u _ => (match u.prim with | .report sel _ => sel ≠ 2 | _ => false)
  | .masks _ => true
  | _ => false

def Entry.ret : Entry → Nat
  | .unit _ r => r
  | .sense _ r => r
  | .masks r => r
  | _ => 0

def Entry.withRet (r : Nat) : Entry → Entry
  | .unit u _ => .unit u r
  | .sense x _ => .sense x r
  | .masks _ => .masks r
  | e => e

/-- Slot 1 of frame f can take the return of an entry executed in frame x: it is free, or holds reports of that frame only,
fewer than eleven (R94, R95). -/
def slotFree (l : LinkRec) (x f : Nat) (e : Entry) : Bool :=
  let there := l.due1.filter fun d => d.1 = f
  there.isEmpty || (e.packs && (there.all fun d => d.2.packs && x + d.2.ret = f) && there.length < 11)

/-- The return offset that an entry executed in frame x gets: the least one whose slots are free (R95). -/
def retFor (l : LinkRec) (x : Nat) (e : Entry) : Option Nat :=
  if e.frames = 0 then some 0
  else (List.range 16).find? fun o => e.least ≤ o && (List.range e.frames).all fun k => slotFree l x (x + o + k) e

/-- An entry joins the plan with its return slots (R94, R95). -/
def addEntry (l : LinkRec) (x : Nat) (e : Entry) : LinkRec :=
  match retFor l x e with
  | some o => { l with
      planned := l.planned ++ [e.withRet o]
      due1 := l.due1 ++ (List.range e.frames).map fun k => (x + o + k, e.withRet o) }
  | none => l

/-! ### The frame plan (R27, R31 to R33, R52, R53, R89 to R91, R556) -/

/-- Does a class-1 read that waits address this plane of this link in a READ field (R91)? -/
def readWaits (s : State) (n : Nat) (p : Nat × Nat) : Bool :=
  (link s n).waiting.any fun x => !x.batchOnly && x.due ≤ s.clk.beat + 1 && senseAt s n x = p

/-- Pause beats after a pulse, by the mute level of the rank's zone (R556). -/
def pauseBeats (s : State) (n : Nat) : Nat :=
  match rankLevel s (n / 18) with
  | 0 => 0 | 1 => 1 | 2 => 3 | _ => 7

/-- A die of a link may take a pulse in a frame (R556). -/
def mayPulse (s : State) (n die frame : Nat) : Bool := tget 0 s.ln.restUntil (n * 17 + die) ≤ frame

/-- The two slots of a frame hold a batch of `b` entries and `d` data loads (R84, R89). -/
def slotsHold (b d : Nat) : Bool := (b + 10) / 11 + d ≤ 2

/-- A link's plan can take one more entry, which executes in the next frame (R52, R53, R90, R91, R95, R556). -/
def planTakes (s : State) (n : Nat) (e : Entry) : Bool :=
  let l := link s n
  let x := s.clk.beat + 1
  slotsHold (l.planned.length + 1) l.loadsPlanned.length && (retFor l x e).isSome &&
  (match entryPlane s n e with
    | some p => !(l.planned.any fun y => entryPlane s n y = some p) && !readWaits s n p
    | none => true) &&
  (match entryPulse e with
    | some d =>
      let pulsing := (l.planned.filterMap entryPulse).dedup
      d ∉ pulsing && decide (pulsing.length < (pkgOf s n).maxPulsing) && mayPulse s n d x
    | none => true)

/-- An entry joins a link's plan; a pulse starts its die's pause, whose beats the rank's monitor counts (R556, R609). -/
def planEntry (s : State) (n : Nat) (e : Entry) : State :=
  let s := updLink s n fun l => addEntry l (s.clk.beat + 1) e
  match entryPulse e with
  | some d =>
    count { s with ln := { s.ln with restUntil := tset 0 s.ln.restUntil (n * 17 + d) (s.clk.beat + 2 + pauseBeats s n) } }
      (1 + n / 18) 0x10C 0xFF (pauseBeats s n)
  | none => s

/-- The reload pair that a unit names, before its second half (R89, R274). -/
def unitPair (u : WorkUnit) : List Entry :=
  match u.prim with
  | .refload set => [.refload false u.die (unitPlane u) set.val]
  | _ => []

/-- A link's plan can take a unit. -/
def planTakesUnit (s : State) (n : Nat) (u : WorkUnit) : Bool :=
  let l := link s n
  if primData u.prim then slotsHold l.planned.length (l.loadsPlanned.length + 1)
  else planTakes s n (.unit u 0) && slotsHold (l.planned.length + (unitPair u).length + 1) l.loadsPlanned.length

def planUnitOn (s : State) (u : WorkUnit) (n : Nat) : State :=
  if primData u.prim then updLink s n fun l => { l with loadsPlanned := l.loadsPlanned ++ [u] }
  else planEntry ((unitPair u).foldl (fun s e => planEntry s n e) s) n (.unit u 0)

/-- A bisque program in progress goes on to its verify, on a link that is being drained and in a last breath (R109, R539). -/
def goesOn (s : State) (n : Nat) (u : WorkUnit) : Bool :=
  12 ≤ u.line && (match u.prim with | .program first => !first | .verify k => k.val = 1 | _ => false) &&
    (tget {} s.ln.seqs ((n * 17 + u.die) * 4 + unitPlane u)).pulses ≠ 0

/-- A link takes a unit: it serves, or drains and the unit ends a bisque program (R109). -/
def linkTakes (s : State) (u : WorkUnit) (n : Nat) : Bool :=
  (link s n).state.serves || ((link s n).state = .draining && goesOn s n u)

/-- Place a queued unit on all the links that take it, or leave it queued; in a last breath only bisque programs go on (R33,
R539). -/
def planUnit (s : State) (x : Nat × WorkUnit) : State :=
  let u := x.2
  let links := ((List.range 18).filter (unitTakes u)).map fun q => 18 * u.rank + q
  let live := links.filter (linkTakes s u)
  let done := { s with ln := { s.ln with work := s.ln.work.erase x } }
  if s.clk.beat ≤ x.1 || (s.pwr.breath.isSome && !live.all fun n => goesOn s n u) then s
  else if live.isEmpty then links.foldl (fun s n => completeUnit s u.core n false true) done
  else if live.all fun n => planTakesUnit s n u then live.foldl (fun s n => planUnitOn s u n) done
  else s

/-- Place a waiting sense as a SENSE entry (R145, R172, R173). -/
def planSense (s : State) (n : Nat) (x : Sense) : State :=
  let e := Entry.sense x 0
  let s' := updLink s n fun l => { l with waiting := l.waiting.erase x }
  if planTakes s' n e then planEntry s' n e else s

/-- The waiting senses that go as SENSE entries: map fetches that lost their READ field and the lines of a segment that follow
one, and the oldest data read from its second frame on (R145, R172, R173, R379). -/
def planSenses (s : State) (n : Nat) : State :=
  let l := readOrder ((link s n).waiting.filter fun x => x.batchOnly || x.due < s.clk.beat)
  let map := l.filter fun x => x.kind.presses
  let data := (l.filter fun x => x.kind = .data).take 1
  (map ++ data).foldl (fun s x => planSense s n x) s

/-- The REPORT of the completion masks, when the fate of an entry is not known (R92). -/
def planMasks (s : State) (n : Nat) : State :=
  if (link s n).unsure.isEmpty || (link s n).asked || !planTakes s n (.masks 0) then s
  else updLink (planEntry s n (.masks 0)) n fun l => { l with asked := true }

/-- The die, plane and set of the i-th pair of a reload: sets 2-31 of a group's dies, set 1 of one die, or its set 0 (R101,
R274). -/
def reloadPair (code i : Nat) : Option (Nat × Nat × Nat) :=
  if 32 ≤ code then (if i < 4 then some (code - 32, i, 0) else none)
  else if 8 ≤ code then (if i < 4 then some (code - 8, i, 1) else none)
  else
    let die := i / 120
    if code = 4 then (if i < 120 then some (16, i / 30 % 4, 2 + i % 30) else none)
    else if die < 4 then some (4 * code + die, i / 30 % 4, 2 + i % 30) else none

/-- The next pairs of a link's reloads that fit beside its batch; the two entries of a pair travel together (R274). -/
def planReloads (s : State) (n : Nat) : State :=
  let l := link s n
  let room := 11 * (2 - l.loadsPlanned.length) - l.planned.length
  match s.dr.reloads.find? fun x => x.1 = n with
  | none => s
  | some x =>
    let pairs := (List.range (room / 2)).filterMap fun k => reloadPair x.2.1 (x.2.2 + k)
    let next := x.2.2 + pairs.length
    let rest := if (reloadPair x.2.1 next).isNone then s.dr.reloads.erase x
      else s.dr.reloads.map fun y => if y = x then (x.1, x.2.1, next) else y
    updLink { s with dr := { s.dr with reloads := rest } } n fun l => { l with
      planned := l.planned ++ pairs.flatMap fun p => [.refload false p.1 p.2.1 p.2.2, .refload true p.1 p.2.1 p.2.2] }

/-- One EQ entry that waits (R102). -/
def planEq (s : State) (n : Nat) : State :=
  match (link s n).eqDue with
  | [] => s
  | x :: r => if planTakes s n (.eq x.1 x.2) then updLink (planEntry s n (.eq x.1 x.2)) n fun l => { l with eqDue := r } else s

/-- A link whose package's reference sets are being loaded (R101). -/
def loadingSets (l : LinkRec) : Bool := l.state = .inventory && l.step = 5

/-- A link carries frames with work: it serves, ends bisque programs before its removal, or loads its sets. -/
def framed (l : LinkRec) : Bool := l.state.serves || l.state = .draining || loadingSets l

/-- The plan of the new frame is frozen in every rank scheduler (R27 step 5): host reads' and map fetches' senses first, then the
units in class order, the oldest first, then what the device itself adds (R31, R92, R102, R274). -/
def freezePlans (s : State) : State :=
  let on (f : State → Nat → State) (s : State) : State :=
    (s.ln.links.filter fun x => framed x.2).foldl (fun s x => f s x.1) s
  let s := on planMasks (on planSenses s)
  let s := (sortBy (fun a b => a.2.cls ≤ b.2.cls) s.ln.work).foldl planUnit s
  on planReloads (on planEq s)

/-! ### The downstream frame (R84 to R92, R241, R274) -/

def seqKey (n die plane : Nat) : Nat := (n * 17 + die) * 4 + plane
def seqOf (s : State) (n die plane : Nat) : Seq := tget {} s.ln.seqs (seqKey n die plane)
def setSeq (s : State) (n die plane : Nat) (v : Seq) : State :=
  { s with ln := { s.ln with seqs := tset {} s.ln.seqs (seqKey n die plane) v } }
def blankOf (s : State) (n die plane : Nat) : Seq := tget {} s.ln.blanks (seqKey n die plane)
def setBlank (s : State) (n die plane : Nat) (v : Seq) : State :=
  { s with ln := { s.ln with blanks := tset {} s.ln.blanks (seqKey n die plane) v } }

/-- An entry is a program pulse on a plane. -/
def pulsesOn (die plane : Nat) : Entry → Bool
  | .unit u _ => (match u.prim with | .program _ => u.die = die && unitPlane u = plane | _ => false)
  | _ => false

/-- The step of a PROGRAM entry: that of its sequence's k-th pulse, those whose DONE is still to come counted in (R59, R241,
R279). -/
def pulseStep (s : State) (n : Nat) (u : WorkUnit) (first : Bool) : Nat :=
  let l := link s n
  let out := ((l.executed ++ l.executing).filter (pulsesOn u.die (unitPlane u))).length
  let k := if first then 0 else (seqOf s n u.die (unitPlane u)).pulses + out
  min ((dieTune s n u.die).step + k * (pkgOf s n).stepSize) 63

/-- The codes of a set that one half of a reload carries (R271, R274). -/
def reloadCodes (s : State) (n : Nat) (part : Bool) (die set : Nat) : List Nat :=
  (if part then [4, 5, 6] else [0, 1, 2, 3]).map fun b => (refCode s n die set b).toNat

/-- The operation code and argument of a unit's entry; a cone capture is a SENSE with ARG[11] set (R89, R275). -/
def unitEntryOf (s : State) (n : Nat) (u : WorkUnit) (ret : Nat) : Nat × Nat :=
  match u.prim with
  | .sense set => (5, ret * 2 ^ 12 + set.val * 2 ^ 17)
  | .slotSense set => (5, 2 ^ 16 + ret * 2 ^ 12 + set.val * 2 ^ 17)
  | .program first => (1, pulseStep s n u first + if first then 64 else 0)
  | .verify k => (2, k.val + 1)
  | .blank => (3, 0)
  | .destroy => (4, 0)
  | .report sel chunk => (8, ret + sel.val * 16 + chunk.val * 64)
  | .cone set => (5, set.val * 2 ^ 17 + 2 ^ 11)
  | _ => (0, 0)

/-- The reference set of a sense on a link: the bisque set for a bisque line, else the one of the word line's age (R174,
R272). -/
def senseSet (s : State) (n : Nat) (x : Sense) : Nat :=
  if 12 ≤ x.line then 0 else refSetOf s (slotBs x.slot) (slotWl x.slot) n

/-- The word of a batch entry (R89). -/
def entryWord (s : State) (n : Nat) : Entry → BitVec 64
  | .unit u ret => (match u.prim with
    | .refload set => refloadEntry true u.die (unitPlane u) set.val (reloadCodes s n true u.die set.val)
    | _ => batchEntry (unitEntryOf s n u ret).1 u.die u.block u.wl u.line (unitEntryOf s n u ret).2)
  | .sense x ret =>
    batchEntry 5 (senseAt s n x).1 (bsBlock (slotBs x.slot)) (slotWl x.slot) x.line
      (ret * 2 ^ 12 + (if x.whole then 2 ^ 16 else 0) + senseSet s n x * 2 ^ 17)
  | .refload part die plane set => refloadEntry part die plane set (reloadCodes s n part die set)
  | .eq tap value => eqEntry 0 tap value
  | .masks ret => batchEntry 8 0 0 0 0 (ret + 16)
  | .gone => 0

def unitLoad (u : WorkUnit) : Nat :=
  match u.prim with
  | .dataLoad p _ => loadField u.die (unitPlane u) p.val
  | _ => loadField 0 0 15

def unitImage (u : WorkUnit) : BitVec 704 :=
  match u.prim with
  | .dataLoad _ i => i
  | _ => 0

/-- The READ field of a sense: OP 10 for a slot sense, 01 for a line sense (R87). -/
def readFieldOf (s : State) (n : Nat) (whole : Bool) (x : Sense) : Nat :=
  readField (if whole then 2 else 1) (senseAt s n x).1 (bsBlock (slotBs x.slot)) (slotWl x.slot) x.line (senseSet s n x)

/-- The sense that takes the READ field of this frame: the first in order that is due and does not yield to a plane that the
batch executing now holds; map fetches do not yield (R29, R32, R91, R171, R172). -/
def pickRead (s : State) (n : Nat) (busy : List (Nat × Nat)) : Option Sense × List Sense :=
  let l := readOrder ((link s n).waiting.filter fun x => !x.batchOnly && x.due ≤ s.clk.beat)
  let goes (x : Sense) : Bool := x.kind.presses || senseAt s n x ∉ busy
  (l.find? goes, l.takeWhile fun x => !goes x)

/-- The frame that a link sends: header, and in its slots the batch or the line images loaded (R84 to R89). -/
def composeFrame (s : State) (n : Nat) (whole : Bool) (rd : Option Sense) : DownFrame :=
  let l := link s n
  let words := l.batched.map (entryWord s n)
  let idle := loadField 0 0 15
  let loads := l.loadsSent.map unitLoad
  let images := l.loadsSent.map fun u => imageBytes (unitImage u)
  let empty : List Byte := imageBytes 0
  let batch := !words.isEmpty
  { header := downHeader l.nak s.clk.beat batch (11 < words.length) ((rd.map (readFieldOf s n whole)).getD 0)
      (if batch then idle else loads.getD 0 idle) (if batch then loads.getD 0 idle else loads.getD 1 idle)
    body0 := if batch then batchBody (words.take 11) else images.getD 0 empty
    body1 := if 11 < words.length then batchBody (words.drop 11)
      else if batch then images.getD 0 empty else images.getD 1 empty }

/-- The line slots and batch slots of the frame that a link sends, in bytes at the rank's ports 0 and 2 (R612). -/
def sentBytes (s : State) (n : Nat) : State :=
  let l := link s n
  portBytes (portBytes s (1 + n / 18) 0 (88 * l.loadsSent.length)) (1 + n / 18) 2 (88 * ((l.batched.length + 10) / 11))

/-- The frames of a link move on by one: entries whose DONE mask never came are in doubt, and data loads of which RXERR told
nothing are sent again (R88, R92). -/
def LinkRec.shift (l : LinkRec) (b : Nat) : LinkRec :=
  { l with
    unsure := if l.executed.isEmpty then l.unsure else l.unsure ++ [(b - 2, l.executed)]
    executed := l.executing, executing := l.batched, batched := l.planned, planned := []
    pressedBefore := l.pressed, pressed := [], blindBefore := l.blind, blind := false
    loadsBefore := l.loadsSent, loadsSent := (l.loadsBefore ++ l.loadsPlanned).take 2
    loadsPlanned := (l.loadsBefore ++ l.loadsPlanned).drop 2
    readBefore := l.readNow, readNow := none }

/-- The sense of the READ field is on its way: it returns in slot 0 of the frame after next, a slot sense's other lines in slot 1
of three frames; with slot 1 taken they follow in a SENSE entry. The entries on its plane that it presses are refused (R90,
R91, R94, R95, R145, R171). -/
def takeRead (s : State) (n : Nat) (x : Sense) (whole : Bool) : State :=
  let b := s.clk.beat
  let rest : Sense := { x with batchOnly := true }
  updLink s n fun l =>
    let held := (l.executing.zipIdx.filter fun y => entryPlane s n y.1 = some (senseAt s n x)).map (·.2)
    { l with
      waiting := l.waiting.erase x ++ if x.whole && !whole then [rest] else []
      due0 := l.due0 ++ [(b + 2, x)]
      due1 := l.due1 ++ if whole then (List.range 3).map fun k => (b + 2 + k, .sense { rest with whole := false } 0) else []
      pressed := held, readNow := some x }

/-- The waiting reads a test selects are changed. -/
def updReads (s : State) (p : Rd → Bool) (f : Rd → Rd) : State :=
  { s with hq := { s.hq with reads := s.hq.reads.map fun r => if p r then f r else r } }

/-- Reads that wait for a sense are marked on their path. -/
def markReads (s : State) (x : Sense) (bit : BitVec 8) : State :=
  updReads s (fun r => r.wants x) fun r => { r with path := r.path ||| bit }

/-! ### Returns that fail (R96 to R98, R177, R180) -/

/-- A return is lost: the line is an erasure of that link. Its data reads escalate; an escalation goes on without it (R97,
R98, R177). -/
def loseSense (s : State) (n : Nat) (x : Sense) : State :=
  match x.kind with
  | .data => escalateReads s n fun r => r.wants x
  | .erasure => updReads s (fun r => r.wants x) fun r => { r with lost := addNew r.lost (n % 18) }
  | _ => s

/-- Positions of a read's stripe that its decode is without: out of service, lost returns, and a failed first attempt. -/
def readErasures (s : State) (r : Rd) : Nat :=
  match r.stage with
  | .escalate slot _ first =>
    (outPositions s (slotBs slot)).length + r.lost.length +
      if first.isSome && !posOut s (slotBs slot) (segmentOf r.line) then 1 else 0
  | _ => 0

/-- A read waits for the replay of a failed return: it has waited for none yet, and an escalation only where the return would
bring the erasures above two (R180). -/
def waitsReplay (s : State) (r : Rd) : Bool :=
  !r.path.getLsbD 3 && match r.stage with | .escalate _ _ _ => 2 ≤ readErasures s r | _ => true

/-- A return in slot 0 failed, or its header did: a replay is asked for; the reads that do not wait for it go on without the
return (R96, R180). -/
def failSlot0 (s : State) (n : Nat) (x : Sense) : State :=
  let now := s.hq.reads.filter fun r => r.wants x && !waitsReplay s r
  let s := count s 0 0xC 0xFF (s.hq.reads.filter fun r => r.wants x && waitsReplay s r).length
  let s := updReads s (fun r => r.wants x && waitsReplay s r) fun r => { r with path := r.path ||| 8 }
  let s := match x.kind with
    | .data => escalateReads s n fun r => now.contains r
    | .erasure => updReads s (fun r => now.contains r) fun r => { r with lost := addNew r.lost (n % 18) }
    | _ => s
  updLink s n fun l => { l with nak := true, awaiting := some x }

/-- A replay that was awaited has not come intact (R97). -/
def loseAwaited (s : State) (n : Nat) : State :=
  match (link s n).awaiting with
  | some x => loseSense (updLink s n fun l => { l with awaiting := none }) n x
  | none => s

/-- The content of slot 1 was dropped for a displaced return: the device issues it again (R96). -/
def reissue (s : State) (n : Nat) (e : Entry) : State :=
  match e with
  | .unit u _ =>
    let s := updLink s n fun l => { l with due1 := l.due1.filter fun d => d.2 ≠ e }
    { s with ln := { s.ln with work := s.ln.work ++ [(s.clk.beat, { u with positions := 1#18 <<< (n % 18) })] } }
  | .sense x _ =>
    let s := updLink s n fun l => { l with due1 := l.due1.filter fun d => d.2 ≠ e }
    addSense s n { x with whole := x.whole || x.kind = .leaf }
  | .masks _ => updLink s n fun l => { l with asked := false }
  | .refload _ die _ set => queueReload s n (if set = 0 then 32 + die else if set = 1 then 8 + die else groupOfDie die)
  | .eq tap value => updLink s n fun l => { l with eqDue := (tap, value) :: l.eqDue }
  | .gone => s

/-- FRAME_START (R17, R18, R84 to R92, R96): one frame a beat; it leaves with the batch planned, one sense and any NAK; what
the frame before carried executes now. -/
def execFrameStart (l : LinkNo) (s : State) : Host.Outcome State Fault Refusal :=
  .next (
    let n := l.val
    if !framed (link s n) || !awake s || (link s n).frameAt = some s.clk.beat then s
    else
      let b := s.clk.beat
      let old0 := ((link s n).due0.filter fun d => d.1 < b).map (·.2)
      let old1 := ((link s n).due1.filter fun d => d.1 < b).map (·.2)
      let s := updLink s n fun l => { l.shift b with
        due0 := l.due0.filter fun d => b ≤ d.1, due1 := l.due1.filter fun d => b ≤ d.1 }
      let s := old1.foldl (fun s e => reissue s n e) (old0.foldl (fun s x => loseSense s n x) s)
      let k := link s n
      let busy := k.executing.filterMap (entryPlane s n)
      let (rd, late) := pickRead s n busy
      let whole := match rd with
        | some x => x.whole && (List.range 3).all fun j => !(k.due1.any fun d => d.1 = b + 2 + j)
        | none => false
      let f := composeFrame s n whole rd
      let s := late.foldl (fun s x => markReads s x 2) s
      let s := match rd with | some x => takeRead s n x whole | none => s
      let s := count s (1 + n / 18) 0x101 0xFF (if rd.isSome then 1 else 0)
      let s := count s (1 + n / 18) 0x102 0xFF late.length
      let s := if k.nak then count s (1 + n / 18) 0x10D (n % 18) 1 else s
      let s := sentBytes s n
      updLink s n fun l => { l with
        frame := f, frameAt := some b
        replays := if l.nak then satAdd 16 l.replays 1 else l.replays
        nak := false })

/-! ### What the executed batch did (R54, R57 to R62, R93, R241) -/

/-- Stripe of a die's block on a link. -/
def stripeOf (s : State) (n die block : Nat) : Nat :=
  bsNo (n / 18) (if die = 16 then (linkWear s n).substDie else die) block

/-- The program buffer of a plane: its positions and images (R88). -/
def bufferOf (s : State) (n die plane : Nat) : List (Nat × BitVec 704) :=
  (List.range 16).map fun p => (p, tget 0 s.ln.buffers (seqKey n die plane * 16 + p))

/-- A sequence acts on a unit's cells. -/
def Seq.on (q : Seq) (u : WorkUnit) : Bool := q.block = u.block && q.wl = u.wl && (u.line < 12 || q.line = u.line)

/-- A sequence after one more pulse on a unit's cells. -/
def Seq.pulse (q : Seq) (u : WorkUnit) (fresh : Bool) (latches : List (Nat × BitVec 704)) : Seq :=
  { block := u.block, wl := u.wl, line := u.line, failedOnce := q.on u && q.failedOnce
    pulses := if q.on u && !fresh then q.pulses + 1 else 1
    latches := if q.on u && !fresh then q.latches else latches }

/-- A program pulse was applied: its sequence counts it; the first one sets the inhibit latches from the buffer (R54, R59,
R60, R89). -/
def pulseDone (s : State) (n : Nat) (u : WorkUnit) (first : Bool) : State :=
  let p := unitPlane u
  setSeq s n u.die p ((seqOf s n u.die p).pulse u first (bufferOf s n u.die p))

/-- Lines of a word line whose images lie on a link's position: 4 of each of three slots. -/
def positionLines (s : State) (n : Nat) (u : WorkUnit) : List (Nat × Nat) :=
  if 16 ≤ n % 18 then []
  else (List.range 3).flatMap fun k => (List.range 4).map fun j => (slotNo (stripeOf s n u.die u.block) u.wl k, 4 * (n % 18) + j)

/-- A blank pulse was applied: the cells go toward level 0 and hold nothing defined until their verify (R62). -/
def blankPulsed (s : State) (n : Nat) (u : WorkUnit) : State :=
  let p := unitPlane u
  let s := setBlank s n u.die p ((blankOf s n u.die p).pulse u false [])
  (positionLines s n u).foldl (fun s x => if mediaImg s x.1 x.2 = .blank then s else setMedia s x.1 x.2 (.torn none)) s

/-- A word line passed its blank check after its BLANK_PULSES pulses (R62). -/
def blankPassed (s : State) (n : Nat) (u : WorkUnit) : State :=
  let q := blankOf s n u.die (unitPlane u)
  if !q.on u || q.pulses < (pkgOf s n).blankPulses then s
  else (positionLines s n u).foldl (fun s x => setMedia s x.1 x.2 .blank) (setBlank s n u.die (unitPlane u) {})

/-- Destroyed cells: the position's four lines of a glaze slot, or its one bisque line. -/
def destroyedLines (s : State) (n : Nat) (u : WorkUnit) : List (Nat × Nat) :=
  if 16 ≤ n % 18 then []
  else
    let bs := stripeOf s n u.die u.block
    if 12 ≤ u.line then [(slotNo bs u.wl 0, 4 * (n % 18) + (u.line - 12))]
    else (List.range 4).map fun j => (slotNo bs u.wl (u.line / 4), 4 * (n % 18) + j)

/-- A glaze or bisque verify passed: the program that it belongs to has succeeded (R59, R60). -/
def programPassed (s : State) (n : Nat) (u : WorkUnit) : State :=
  if (seqOf s n u.die (unitPlane u)).on u then setSeq s n u.die (unitPlane u) {} else s

/-- A verify found cells short of target: at the pulse limit the program or blanking fails (R59, R60, R62, R214, R250,
R321). -/
def verifyFailed (s : State) (n : Nat) (u : WorkUnit) (k : Nat) : State :=
  let q := seqOf s n u.die (unitPlane u)
  let p := pkgOf s n
  let bs := stripeOf s n u.die u.block
  if k = 2 then
    let q := blankOf s n u.die (unitPlane u)
    if q.on u && p.blankPulsesMax ≤ q.pulses then retireBlock (setBlank s n u.die (unitPlane u) {}) n u.die u.block else s
  else if !q.on u then s
  else if k = 0 then
    if p.glazePulsesMax ≤ q.pulses then
      retireBlock (failProgram (setSeq s n u.die (unitPlane u) {}) (n / 18) bs) n u.die u.block
    else s
  else if p.bisquePulsesMax ≤ q.pulses then
    (if q.failedOnce then retireBlock (endDrainsOn (setSeq s n u.die (unitPlane u) {}) bs u.wl) n u.die u.block
     else setSeq s n u.die (unitPlane u) { q with pulses := 0, failedOnce := true })
  else s

/-- A work unit's entry of the batch executed in the previous frame (R93, WORK_UNIT_COMPLETE). -/
def unitDone (s : State) (n : Nat) (u : WorkUnit) (done : Bool) : State :=
  let s := completeUnit s u.core n done false
  match u.prim with
  | .program first => if done then count (pulseDone s n u first) (1 + n / 18) 0x109 (n % 18) 1 else s
  | .blank => if done then count (blankPulsed s n u) (1 + n / 18) 0x10A (n % 18) 1 else s
  | .destroy => if done then (destroyedLines s n u).foldl (fun s x => setMedia s x.1 x.2 .destroyed) s else s
  | .verify k => if !done then verifyFailed s n u k.val else if k.val = 2 then blankPassed s n u else programPassed s n u
  | _ => s

/-- An entry of the batch executed in the previous frame; one that has not completed returns nothing, and the device issues its
own again (R92, R93). -/
def entryDone (s : State) (n : Nat) (e : Entry) (done : Bool) : State :=
  match e with
  | .unit u _ =>
    unitDone (if done then s else updLink s n fun l => { l with due1 := l.due1.filter fun d => d.2 ≠ e }) n u done
  | .gone => s
  | e => if done then s else reissue s n e

/-- The DONE mask (R93): entry i of the executed batch. Entries that a map fetch pressed go again (R171); where RXERR did not
tell whether the batch arrived, one that shows as not done is in doubt (R92). -/
def doneMask (s : State) (n : Nat) (done : BitVec 22) : State :=
  let l := link s n
  let all := l.executed.zipIdx
  let doubt (x : Entry × Nat) : Bool := l.blindBefore && !done.getLsbD x.2 && x.1 ≠ .gone
  let s := all.foldl (fun s x =>
    if x.2 ∈ l.pressedBefore then reissue s n x.1 else if doubt x then s else entryDone s n x.1 (done.getLsbD x.2)) s
  updLink s n fun k => { k with
    executed := []
    unsure := if all.any doubt then k.unsure ++ [(s.clk.beat - 1, all.map fun x => if doubt x then x.1 else .gone)] else k.unsure }

/-- The completion masks of the last 16 frames settle the entries in doubt; of an older frame nothing is known, and its units
return with a link-lost status (R92). -/
def takeMasks (s : State) (n : Nat) (masks : BitVec 64) : State :=
  let l := link s n
  let s := updLink s n fun l => { l with unsure := [], asked := false }
  l.unsure.foldl (fun s x =>
    let age := s.clk.beat - x.1
    x.2.zipIdx.foldl (fun s y =>
      if age ≤ 16 then entryDone s n y.1 ((Config.completionMask masks age).getLsbD y.2)
      else match y.1 with
        | .unit u _ => completeUnit s u.core n false true
        | e => reissue s n e) s) s

/-! ### The upstream frame (R93 to R100, R103, R107) -/

/-- A telemetry word (R99, R100): GLNK_TEMP follows at the end of the die words. Of two dies with the highest reading the lower
position is given: the model's choice (log 98). -/
def telemetry (s : State) (n i : Nat) (v : BitVec 32) : State :=
  let s := updLink s n fun l => { l with tel := tset 0 l.tel i v }
  let s := if i ≤ 16 && s.clk.beat % 131072 < 65536 then
      updLink s n fun l => { l with peak := tupd none l.peak i fun p => some (max (p.getD (telTemp s n i)) (telTemp s n i)) }
    else s
  if i ≠ 16 then s
  else
    let hot := (List.range 17).foldl (fun b d => if telTemp s n b < telTemp s n d then d else b) 0
    updLink s n fun l => { l with hotDie := hot, maxTemp := telTemp s n hot }

/-- A check failure joins the window; more than 16 within 65,536 beats start a retrain (R103). -/
def checkFailed (s : State) (n : Nat) : State :=
  updLink s n fun l => { l with fails := (s.clk.beat :: l.fails).take 17 }
def windowFull (s : State) (n : Nat) : Bool :=
  16 < ((link s n).fails.filter fun b => s.clk.beat < b + 65536).length

/-- A line image has been loaded into its plane's buffer (R88). -/
def loadDone (s : State) (n : Nat) (u : WorkUnit) : State :=
  match u.prim with
  | .dataLoad p i =>
    let key := seqKey n u.die (unitPlane u) * 16 + p.val
    completeUnit { s with ln := { s.ln with buffers := tset 0 s.ln.buffers key i } } u.core n true false
  | _ => s

/-- An entry goes again, to execute no earlier than the frame after its new frame (R98). -/
def sendAgain (s : State) (n : Nat) (e : Entry) : State :=
  let s := updLink s n fun l => { l with due1 := l.due1.filter fun d => d.2 ≠ e }
  if (retFor (link s n) (s.clk.beat + 2) e).isSome then updLink s n fun l => addEntry l (s.clk.beat + 2) e else reissue s n e

/-- What a good header reports of the frame sent before (R98): batches and data slots that did not arrive go again, a
lost READ escalates. -/
def rxErrors (s : State) (n : Nat) (e : BitVec 3) : State :=
  let l := link s n
  let hdr := e.getLsbD 2
  let bad0 := hdr || e.getLsbD 1
  let bad1 := hdr || e.getLsbD 0
  let lostAt (i : Nat) : Bool := if i < 11 then bad0 else bad1
  let again := (l.executing.zipIdx.filter fun x => lostAt x.2 && x.1 ≠ .gone).map (·.1)
  let loadBad (i : Nat) : Bool := if l.executing.isEmpty && i = 0 then bad0 else bad1
  let loads := l.loadsBefore.zipIdx
  let s := updLink s n fun l => { l with
    executing := l.executing.zipIdx.map fun x => if lostAt x.2 then .gone else x.1
    loadsBefore := [], loadsPlanned := (loads.filter fun x => loadBad x.2).map (·.1) ++ l.loadsPlanned }
  let s := (loads.filter fun x => !loadBad x.2).foldl (fun s x => loadDone s n x.1) s
  let s := again.foldl (fun s x => sendAgain s n x) s
  match (if hdr then l.readBefore else none) with
  | some x =>
    loseSense (updLink s n fun l => { l with
      readBefore := none, due0 := l.due0.filter fun d => d ≠ (s.clk.beat + 1, x) }) n x
  | none => s

/-- What an entry returned in slot 1: the k-th 8 bytes of a slot of reports, else the line image or chunk (R94). -/
def deliver (s : State) (n : Nat) (e : Entry) (k : Nat) (body : List Byte) (ok : Bool) : State :=
  let data := if e.packs then (body.drop (8 * k)).take 8 else body
  match e with
  | .unit u _ => completeUnit s u.core n ok false (if ok then data else [])
  | .sense x _ => if ok then s else loseSense s n x
  | .masks _ => if ok then takeMasks s n (BitVec.ofNat 64 (leNat data)) else updLink s n fun l => { l with asked := false }
  | _ => s

/-- A NAK went out in the frame of this beat (R86, R96). -/
def nakSent (s : State) (l : LinkRec) : Bool := l.frameAt = some s.clk.beat && upField l.frame.header 95 94 = 3

/-- What READ senses and entries send in the frame that arrives now (R94), and a link without them. -/
def sensesNow (s : State) (n : Nat) : List Sense := ((link s n).due0.filter fun d => d.1 = s.clk.beat).map (·.2)
def entriesNow (s : State) (n : Nat) : List Entry := ((link s n).due1.filter fun d => d.1 = s.clk.beat).map (·.2)
def takeDue (s : State) (n : Nat) : State :=
  updLink s n fun l => { l with due0 := l.due0.filter fun d => d.1 ≠ s.clk.beat, due1 := l.due1.filter fun d => d.1 ≠ s.clk.beat }

/-- The returned slots (R94, R96, R97), whose bytes the rank's port 1 counts (R612). A failed check of an idle slot counts nowhere: the model's choice (log 97). -/
def returnedSlots (s : State) (n : Nat) (f : UpFrame) : State :=
  let d0 := sensesNow s n
  let d1 := entriesNow s n
  let s := takeDue s n
  let s :=
    if f.kind0 = 2 then
      -- the replay, with the scheduled slot 0 displaced into slot 1
      let s := if f.slot0Ok then updLink s n fun l => { l with awaiting := none } else loseAwaited s n
      let s := if f.kind1 = 2 && f.slot1Ok then s else d0.foldl (fun s x => loseSense s n x) s
      d1.foldl (fun s e => reissue s n e) s
    else
      let s := loseAwaited s n
      let s := if f.kind0 = 1 && !f.slot0Ok then
          (match d0 with
          | x :: _ => failSlot0 s n x
          | [] => updLink s n fun l => { l with nak := true })
        else if f.kind0 = 1 then s
        else d0.foldl (fun s x => loseSense s n x) s
      d1.zipIdx.foldl (fun s x => deliver s n x.1 x.2 f.body1 (f.kind1 = 1 && f.slot1Ok)) s
  let s := portBytes s (1 + n / 18) 1 (88 * ((if f.kind0 ≠ 0 then 1 else 0) + if f.kind1 ≠ 0 then 1 else 0))
  let bad := (if f.kind0 ≠ 0 && !f.slot0Ok then 1 else 0) + (if f.kind1 ≠ 0 && !f.slot1Ok then 1 else 0)
  let s := updLink s n fun l => { l with slotFail := satAdd 16 l.slotFail bad }
  (List.range bad).foldl (fun s _ => checkFailed s n) s

/-- An upstream header fails its check (R96, R97, R107): the return that was due in slot 0 is asked for again, unless this frame
carried a replay; nothing else of the frame comes back, and neither RXERR nor DONE is known (R92). -/
def headerFailed (s : State) (n : Nat) : State :=
  let replay := nakSent s (link s n)
  let d0 := sensesNow s n
  let d1 := entriesNow s n
  let s := takeDue s n
  let s := loseAwaited s n
  let s :=
    if replay then d1.foldl (fun s e => reissue s n e) (d0.foldl (fun s x => loseSense s n x) s)
    else
      let s := match d0 with
        | x :: _ => failSlot0 s n x
        | [] => updLink s n fun l => { l with nak := true }
      d1.foldl (fun s e => deliver s n e 0 [] false) s
  checkFailed (updLink s n fun l => { l with
    hdrFail := satAdd 16 l.hdrFail 1, consecHdr := l.consecHdr + 1, consecTag := 0, blind := true }) n

/-- A serving link has failed too often: it is lost after two headers in a row, or retrains (R103, R107). -/
def headerLoss (s : State) (n : Nat) : State :=
  if !(link s n).state.serves then s
  else if 2 ≤ (link s n).consecHdr then linkLost s n 1
  else if windowFull s n then startRetrain s n 7
  else s

/-- What a good header of this beat tells, in the order of its fields' use (R93 to R100). -/
def goodFrame (s : State) (n : Nat) (f : UpFrame) : State :=
  let tag := (link s n).consecTag
  let s := updLink s n fun l => { l with consecHdr := 0, consecTag := 0 }
  let s := rxErrors s n f.rxerr
  let s := telemetry s n (f.telIndex % 1024) f.telValue
  let s := if f.alert then updLink s n fun l => { l with alert := true } else s
  let s := returnedSlots s n f
  let s := acceptPackage (doneMask s n f.done) n
  if !(link s n).state.serves then s
  else if windowFull s n then startRetrain s n 7
  else if tag = 1 then startRetrain s n 9
  else s

/-- UPSTREAM_FRAME (R84, R85, R93 to R100, R103, R107). Of a frame with an intact header and a wrong BTAG nothing is used
(log 95); a single mismatch starts its retrain at the next good frame (log 96): the model's choices. -/
def execUpstreamFrame (l : LinkNo) (f : RawFrame) (s : State) : Host.Outcome State Fault Refusal :=
  .next (
    let n := l.val
    let u := readUp f
    if !framed (link s n) || !awake s then s
    else if !u.hdrOk then headerLoss (headerFailed s n) n
    else if u.btag ≠ s.clk.beat % 32 then
      let s := updLink s n fun l => { l with consecHdr := 0, consecTag := l.consecTag + 1 }
      if 2 ≤ (link s n).consecTag && (link s n).state.serves then linkLost s n 3 else s
    else goodFrame s n u)

end Sys2Proof.Machine
end

