-- ==== Sys2Proof/Machine/Pipes.lean ====
section
/-! DEFINITION. Pipes: mouthpieces, bells, completions and the binding table (R34, R35, R416 to R439, R447). -/
namespace Sys2Proof.Machine

/-! ### Who serves what -/

/-- The command role under which a core serves a group (R428). -/
def servedAs (s : State) (group c : Nat) : Option Nat :=
  ((if group = 0 then [0] else if group = 1 then [1] else [0, 1]).find? fun r => roleCore s r = some c)

/-- CXL.io requests reach the device: it runs and its link is active (R396, R397). -/
def ioOpen (s : State) : Bool := awake s && s.hl.state = .active

/-- Activity that keeps the device in Run (R515). -/
def noteActivity (s : State) : State :=
  { s with pwr := { s.pwr with quietSince := s.clk.beat, state := if s.pwr.state = .idle then .run else s.pwr.state } }

/-! ### Descriptors and completions (R436 to R439) -/

/-- SRAM offset of a data buffer (R437). -/
def bufAddr (s : State) (c : Cmd) : Nat := arenaBase + ((pipe s c.pipe).base + c.fld 4 2) * 4096

/-- The 32 bytes of a completion (R438). -/
def compBytes (x : Completion) : List Byte :=
  leBytes 1 x.status ++ leBytes 1 x.detail ++ leBytes 2 x.opcode ++ leBytes 4 (x.desc * 8192 + x.tag) ++
    leBytes 8 x.token.toNat ++ leBytes 8 x.resA.toNat ++ leBytes 8 x.resB.toNat

/-- SRAM offset of a slot of a pipe's completion ring (R422). -/
def ringAddr (p : Pipe) (slot : Nat) : Nat := arenaBase + (p.base + p.pages - 1) * 4096 + slot * 32

/-- Statuses whose token is recorded: SUCCESS, PIN_LIMIT, SUPERSEDED (R447). -/
def recordsToken (x : Completion) : Bool := !x.aborted && x.token ≠ 0 && (x.status = 0 || x.status = 9 || x.status = 15)

/-- Write a completion into its ring slot, then ring the bell (R422, R423, R435, R447). -/
def ringBell (s : State) (x : Completion) : State :=
  let p := pipe s x.pipe
  let slot := p.seq % 128
  let s := { s with pp := { s.pp with comps := s.pp.comps.erase x } }
  let s := if x.aborted then updPipe s x.pipe fun p => { p with bell := some (1, 0, 0, x.desc, x.tag) }
    else updPipe (writeBytes s (ringAddr p slot) (compBytes x)) x.pipe fun p => { p with
      bell := some (0, x.status % 256, slot, x.desc, x.tag)
      seq := (p.seq + 1) % 128
      tokens := if recordsToken x then (x.token, x.resA, x.resB) :: p.tokens.take 63 else p.tokens }
  if p.en then signalVector s p.vector else s

/-! ### The commands -/

/-- PIPE_BELL (R417). -/
def bellWord : Option (Nat × Nat × Nat × Nat × Nat) → Reg
  | none => 0
  | some (kind, status, slot, desc, tag) =>
    BitVec.ofNat 64 (2 ^ 63 + kind * 2 ^ 61 + status * 2 ^ 48 + slot * 2 ^ 32 + desc * 8192 + tag)

/-- Why a mouthpiece write is rejected: the first cause in the order 3, 2, 1, 0 (R425). -/
def mouthCause (p : Pipe) (word : Reg) (size : Nat) : Option Nat :=
  if size ≠ 8 then some 3
  else if !p.valid then some 2
  else if fld word 32 32 ≠ p.key then some 1
  else if p.mouth.isSome then some 0
  else none

/-- An Advisory Non-Fatal Error with the TLP header (R415, R426): bit 13 of the AER correctable status. -/
def advisoryError (s : State) (head : ReqHead) : State :=
  { s with hl := { s.hl with
    advisory := s.hl.advisory + 1, aerCorrected := s.hl.aerCorrected ||| 0x2000, aerHead := some head } }

/-- PIPE_MOUTH_WRITE (R417, R418, R425, R426, R612). -/
def execPipeMouthWrite (p : PipeNo) (word : Reg) (size : Nat) (s : State) : Host.Outcome State Fault Refusal :=
  .next (
    if !ioOpen s then s
    else ioPayload (match mouthCause (pipe s p.val) word size with
      | some cause =>
        advisoryError (updPipe s p.val fun x =>
          { x with rejected := true, rejCount := satAdd 16 x.rejCount 1, rejCause := cause })
          { bar := 2, off := 4096 * p.val, size := size }
      | none => noteActivity (updPipe s p.val fun x => { x with mouth := some (fld word 13 19, fld word 0 13) })) 0 2 size)

/-- PIPE_BELL_READ (R417, R418): an 8-byte read takes the word and empties the bell; its data are payload out (R612). -/
def execPipeBellRead (p : PipeNo) (size : Nat) (s : State) : Host.Outcome State Fault Refusal :=
  .next (
    if !ioOpen s then s
    else ioPayload (
      if size ≠ 8 then { s with hl := { s.hl with rdData := 0 } }
      else
        let w := (bellWord (pipe s p.val).bell).setWidth 512
        updPipe { s with hl := { s.hl with rdData := w } } p.val fun x => { x with bell := none }) 0 3 size)

/-- PIPE_BELL_RING (R423, R424, R427): a core rings the pipe's next completion, or is refused with a bus error; a
completion refused for a full bell is held. -/
def execPipeBellRing (p : PipeNo) (c : CoreNo) (s : State) : Host.Outcome State Fault Refusal :=
  .next (
    match s.pp.comps.find? fun x => x.pipe = p.val && !x.held with
    | none => s
    | some x =>
      let refuse (s : State) : State := { s with pp := { s.pp with busErrors := s.pp.busErrors + 1 } }
      let serves := (servedAs s (pipe s p.val).group c.val).isSome && !s.wr.failed.getLsbD c.val
      if !awake s then s
      else if !(pipe s p.val).valid || !serves then refuse s
      else if (pipe s p.val).bell.isSome || (s.pp.comps.any fun y => y.pipe = p.val && y.held) then
        let s := refuse s
        { s with pp := { s.pp with comps := s.pp.comps.replace x { x with held := true } } }
      else ringBell s x)

/-- HELD_COMPLETION_RING (R424): a held completion is rung when the bell empties, in completion order. -/
def execHeldCompletionRing (p : PipeNo) (s : State) : Host.Outcome State Fault Refusal :=
  .next (
    match s.pp.comps.find? fun x => x.pipe = p.val && x.held with
    | none => s
    | some x =>
      if awake s && (pipe s p.val).valid && (pipe s p.val).bell.isNone && (roleCore s x.role).isSome then ringBell s x
      else s)

/-! ### Binding (R428 to R430) -/

/-- PBND_ENTRY_A and PBND_ENTRY_B. -/
def entryA (p : Pipe) : Reg :=
  BitVec.ofNat 64 (p.key * 2 ^ 32 + (if p.valid then 2 ^ 31 else 0) + p.vector * 2 ^ 16 + p.group)
def entryB (p : Pipe) : Reg := BitVec.ofNat 64 (p.pages * 2 ^ 32 + p.base)

/-- The window rules of R429. -/
def windowOk (p : Pipe) : Bool := decide (2 ≤ p.pages) && decide (p.base + p.pages ≤ 16384)

/-- Every pipe whose entry is not at its reset column, and pipe 0. -/
def listedPipes (s : State) : List Nat := (if s.pp.pipes.any (·.1 = 0) then [] else [0]) ++ s.pp.pipes.map (·.1)

/-- The binding table goes to the keep store: 224 entries a chunk, none for a chunk with none bound (R528, R585). -/
def saveBinding (s : State) : State :=
  let bound := (listedPipes s).filter fun n => (pipe s n).valid
  ((bound.map (· / 224)).dedup).foldl (fun s k =>
    keepPut s (0x100 + k) ((List.range 224).map fun i =>
      leBytes 8 (entryA (pipe s (224 * k + i))).toNat ++ leBytes 8 (entryB (pipe s (224 * k + i))).toNat).flatten) s

/-- LOCK is set: entries that break a window rule lose VALID, and the table is saved (R429, R430, R528). -/
def setLock (s : State) : State :=
  if s.pp.lock then s
  else
    let bad := (listedPipes s).filter fun n => (pipe s n).valid && !windowOk (pipe s n)
    let s := bad.foldl (fun s n => updPipe s n fun p => { p with valid := false }) s
    saveBinding { s with pp := { s.pp with lock := true, badPipe := bad.headD 0 } }

/-- PBND_LOCK_SET (R429, R430, R488). -/
def execPbndLockSet (s : State) : Host.Outcome State Fault Refusal := .next (if awake s then setLock s else s)

/-- A write of a binding entry; VECTOR below 16 and GROUP 3 leave their field (R429). -/
def writeEntry (b : Bool) (v : Reg) (p : Pipe) : Pipe :=
  if b then { p with pages := fld v 32 15, base := fld v 0 14 }
  else { p with
    key := fld v 32 32, valid := v.getLsbD 31
    vector := if fld v 16 11 < 16 then p.vector else fld v 16 11
    group := if fld v 0 2 = 3 then p.group else fld v 0 2 }

/-- PBND_ENTRY_WRITE (R428, R429): ignored once LOCK is set. -/
def execPbndEntryWrite (p : PipeNo) (b : Bool) (v : Reg) (s : State) : Host.Outcome State Fault Refusal :=
  .next (if awake s && !s.pp.lock then updPipe s p.val (writeEntry b v) else s)

end Sys2Proof.Machine
end

