-- ==== Sys2Proof/Machine/Breath.lean ====
section
/-! DEFINITION. Last breath: its start, its seal and what follows it (R217, R258, R535 to R541, R558, R671). -/
namespace Sys2Proof.Machine

/-! ### The links that write records (R536, R538) -/

/-- LIST: in-service links, ascending, with no retired block in the breath area of the next breath (log 21). -/
def breathList (s : State) : List Nat :=
  let block := bzFirst s + s.pwr.nextBseq % 2
  let place (bs : Nat) : Nat := ((s.pwr.breathRepl.find? fun x => x.1 = bs).map (·.2)).getD bs
  (List.range 1152).filter fun n =>
    (link s n).state.serves && !((List.range 16).any fun d => blockRetired s n (place (bsNo (n / 18) d block)))

/-- Every link of a list lies on one rank (R538). -/
def oneRankOnly (l : List Nat) : Bool :=
  match l with
  | [] => false
  | n :: l => l.all fun x => x / 18 = n / 18

/-! ### After the seal (R535, R558) -/

/-- Park the ranks of some zones and assert THERMTRIP_N (R558). -/
def parkZones (s : State) (zones : BitVec 16) : State :=
  let ranks := s.mp.pop.filter fun r => zones.getLsbD (zoneOf s r)
  let s := { s with
    th := { s.th with
      parked := ranks.foldl addNew s.th.parked
      parkPending := s.th.parkPending.filter fun z => !zones.getLsbD z }
    pwr := { s.pwr with tripLevel5 := true } }
  ((List.range 16).filter zones.getLsbD).foldl (fun s z => raise s 0x68 (srcZone z) 0 0 0 0) s

/-- What a trigger asks for once the breath has ended: 0 PWRFAIL_N, 1 Global Persistent Flush, 2 mute level 5, 3 Deep
sleep (R535, R540). -/
def afterBreath (s : State) (zones : BitVec 16) (code : Nat) : State :=
  if code = 0 then { s with pwr := { s.pwr with mediaIdle := s.pwr.pwrfail } }
  else if code = 1 then { s with hl := { s.hl with gpfWaiting := false, gpfDone := true } }
  else if code = 2 then parkZones s zones
  else s

/-! ### Start (R535, R539, R671) -/

/-- A pending commit is abandoned (R451, R535). -/
def abandonCommit (s : State) : State :=
  match s.pp.commit with
  | none => s
  | some c =>
    finishId { s with
      pp := { s.pp with commit := none }
      cn := { s.cn with agreement := if c.needsGo then none else s.cn.agreement } } c.cmd 8 0 0

/-- Start a breath, or merge into the one that runs (R535). With no link in LIST nothing is written and the breath ends
at once (R671). -/
def startBreath (s : State) (code : Nat) (zones : BitVec 16) : State :=
  let s := if code = 0 then abandonCommit s else s
  match s.pwr.breath with
  | some b =>
    let b := { b with merged := addNew b.merged code, zones := b.zones ||| zones, pwrfail := b.pwrfail || code = 0 }
    { s with pwr := { s.pwr with breath := some b } }
  | none =>
    let l := breathList s
    if l.isEmpty then
      afterBreath (raise s 0x6A srcDevice (s.pwr.nextBseq % 2 ^ 32) (s.pwr.nextBseq / 2 ^ 32) 0 0) zones code
    else
      let b : Breath :=
        { trigger := code, zones := zones, start := s.clk.beat, lines := s.sag.lines.filterMap (·.2)
          oneRank := oneRankOnly l, pwrfail := code = 0, merged := [code] }
      { s with
        dr := { s.dr with inFlight := [] }
        pwr := { s.pwr with
          breath := some b, standing := false, mediaIdle := false, others := max s.pwr.others s.pwr.nextBseq } }

/-- Deep-sleep entry has drained the saggar, closed the open glaze stripes and written back what R522 names. -/
def writtenBack (s : State) : Bool :=
  s.sag.lines.isEmpty && decide (mapDirty s = 0) && s.sag.drains.isEmpty && (s.pl.ranks.all fun x => x.2.opens.isEmpty) &&
    s.ig.heldNodes.isEmpty && s.ig.dirtyB.isEmpty && (s.ig.slots.all fun x => ((x.2.map (·.dirty)).getD false) = false) &&
    s.pl.stripes.all fun x => !x.2.changed

/-- The trigger holds: the pin is low, Phase 2 waits, the zones have reached level 5, or Deep-sleep entry has written
everything back (R217, R413, R522, R558). -/
def triggered (s : State) (t : BreathTrigger) : Bool :=
  match t with
  | .pwrfail => s.pwr.pwrfail && !s.pwr.mediaIdle &&
      !(match s.pwr.breath with | some b => b.pwrfail | none => false)
  | .gpf => s.hl.gpfWaiting && !(match s.pwr.breath with | some b => decide (1 ∈ b.merged) | none => false)
  | .mute5 zones => zones ≠ 0 && (List.range 16).all fun z => !zones.getLsbD z || z ∈ s.th.parkPending
  | .deepSleep => s.pwr.entering && writtenBack s && s.pwr.breath.isNone && !(s.pwr.standing && s.pwr.cause = 3)

def BreathTrigger.code : BreathTrigger → Nat
  | .pwrfail => 0
  | .gpf => 1
  | .mute5 _ => 2
  | .deepSleep => 3

/-- LAST_BREATH_START (R535, R638): during startup a breath starts only after CONSUMED is written. -/
def execLastBreathStart (t : BreathTrigger) (s : State) : Host.Outcome State Fault Refusal :=
  .next (
    if awake s && (s.pwr.step = 12 || (8 ≤ s.pwr.step && s.pwr.consumedWritten)) && !s.pwr.limited && triggered s t then
      startBreath s (BreathTrigger.code t) (match t with | .mute5 z => z | _ => 0)
    else s)

/-! ### The seal (R539 to R541, R601) -/

/-- What a sealed breath holds on media (R533, R543). -/
def breathImage (s : State) (b : Breath) : BreathImage :=
  { lines := b.lines, cache := s.mp.cache, slots := s.ig.slots, dirtyB := s.ig.dirtyB
    heldNodes := s.ig.heldNodes ++ s.ig.nodesDue.filter (· ∉ s.ig.heldNodes)
    stripes := s.pl.stripes, ranks := s.pl.ranks, rot := s.mp.rot, poison := s.ecc.poison, poisonOvf := s.ecc.poisonOvf
    mig := s.mp.mig, groups := s.dr.groups, dies := s.dr.dies, wearLinks := s.wr.links, oneRank := b.oneRank
    cause := b.trigger % 4, savedAt := s.clk.seconds }

/-- The breath is sealed: BSEQ advances, PWRS_BREATH follows, the triggers go on, and critical events that waited are
appended (R539, R601). The cause of a breath that no trigger of R540 started is free (log 8). -/
def sealBreath (s : State) (b : Breath) (beats : Nat) : State :=
  let n := s.pwr.nextBseq
  let (d, s) := if b.trigger < 4 then (0, s) else draw s
  let cause := if b.trigger < 4 then b.trigger else (Config.freeWord d).toNat % 4
  let s := { s with pwr := { s.pwr with
    breath := none, bseq := n, sealed := n, nextBseq := n + 1, image := { breathImage s b with cause := cause }, cause := cause
    standing := true, beats := min beats 65535 } }
  let s := b.merged.foldl (fun s c => afterBreath s b.zones c) s
  let wait := s.ev.critWait
  wait.foldl critAppend { s with ev := { s.ev with critWait := [] } }

/-- BREATH_SEAL (R539). -/
def execBreathSeal (beats : Nat) (s : State) : Host.Outcome State Fault Refusal :=
  .next (match s.pwr.breath with
    | some b => if awake s then sealBreath s b beats else s
    | none => s)

/-! ### PWRFAIL_N (R217, R535, R638, R655) -/

/-- PWRFAIL_N_ASSERT (R217, R638, R655): sampled at the next boundary; it stops a startup that has not yet written
CONSUMED. -/
def execPwrfailNAssert (s : State) : Host.Outcome State Fault Refusal :=
  .next (
    if !s.pwr.supplies then s
    else
      let early := !s.pwr.inReset && 1 ≤ s.pwr.step && s.pwr.step < 12 && !s.pwr.consumedWritten && !s.pwr.limited
      { s with pwr := { s.pwr with pwrfail := true, stopped := s.pwr.stopped || early } })

/-- PWRFAIL_N_DEASSERT (R535): a breath that has started finishes; afterwards the device resumes. -/
def execPwrfailNDeassert (s : State) : Host.Outcome State Fault Refusal :=
  .next { s with pwr := { s.pwr with pwrfail := false, mediaIdle := false } }

end Sys2Proof.Machine
end

