-- ==== Sys2Proof/Machine/Cores.lean ====
section
/-! DEFINITION. Failures of SRAM words, channels and control cores, and what their spares take over (R314, R331 to
R338, R431). -/
namespace Sys2Proof.Machine

/-! ### Semaphores (R492, R493) -/

/-- The semaphores that a master holds are released. -/
def releaseSemas (s : State) (master : Byte) : State :=
  { s with pp := { s.pp with sema := s.pp.sema.filter fun x => x.2 ≠ some master } }

/-! ### Mouthpieces of a failed command core (R431) -/

/-- A pipe belongs to the group of a command role (R428). -/
def inGroup (group role : Nat) : Bool := group = role || group = 2

/-- Full mouthpieces of the role's groups are emptied, each with an ABORTED bell queued on its pipe. -/
def abortMouths (s : State) (role : Nat) : State :=
  (listedPipes s).foldl (fun s n =>
    let p := pipe s n
    match p.mouth with
    | some (desc, tag) =>
      if inGroup p.group role then
        let c : Completion := { pipe := n, role := role, desc := desc, tag := tag, aborted := true, held := true }
        let s := updPipe s n fun p => { p with mouth := none }
        { s with pp := { s.pp with comps := s.pp.comps ++ [c] } }
      else s
    | none => s) s

/-! ### Roles (R334, R335, R338) -/

/-- Cores that have not failed. -/
def coreLive (s : State) (c : Nat) : Bool := !s.wr.failed.getLsbD c

/-- A core already runs a role, or waits to take one over. -/
def coreBusy (s : State) (c : Nat) : Bool :=
  (s.wr.roles.any fun x => x.2 = c) || s.wr.failing.any fun x => x.2 = c

/-- The lowest-numbered live spare (R335). -/
def spareCore (s : State) : Option Nat := [16, 17].find? fun c => coreLive s c && !coreBusy s c

/-- Roles whose cores may take a role over when no spare is left, in the order tried (R338): media roles from the next
media role on, the other role of a pair, reserve workers; last of all any role that is still served (log 30). -/
def takers (role : Nat) : List Nat :=
  (if 2 ≤ role && role ≤ 9 then (List.range 7).map fun i => 2 + (role - 2 + 1 + i) % 8
   else [role / 2 * 2 + (role + 1) % 2]) ++ [14, 15] ++ List.range 16

/-- The surviving core to which a role moves (R338). -/
def survivor (s : State) (role : Nat) : Option Nat :=
  ((takers role).filterMap (roleCore s)).find? (coreLive s)

/-- A role loses core `c`: a spare is named for it, or it moves to a surviving core with a critical event that names the core
which held it (R35). -/
def moveRole (s : State) (lost role : Nat) : State :=
  match spareCore s with
  | some c =>
    let s := { s with wr := { s.wr with failing := s.wr.failing ++ [(role, c)], sparesLeft := s.wr.sparesLeft - 1 } }
    if s.wr.sparesLeft = 0 then exhaust s 1 else s
  | none =>
    let s := raise s 0x41 (srcCore lost) 0 0 0 0
    match survivor s role with
    | some c => { s with wr := { s.wr with failing := s.wr.failing ++ [(role, c)] } }
    | none => s

/-- A core fails (R334, R431): it is held in reset, its semaphores are free, its roles move. -/
def coreFail (s : State) (c : Nat) : State :=
  if !coreLive s c then s
  else
    let idle := (c = 16 || c = 17) && !coreBusy s c
    let mine := ((s.wr.roles ++ s.wr.failing).filter fun x => x.2 = c).map (·.1)
    let s := { s with wr := { s.wr with
      failed := s.wr.failed ||| (1#18 <<< c)
      roles := s.wr.roles.filter fun x => x.2 ≠ c
      failing := s.wr.failing.filter fun x => x.2 ≠ c } }
    let s := raise (releaseSemas s (BitVec.ofNat 8 (0x10 + c))) 0x40 (srcCore c) 0 0 0 0
    let s := if idle then
        let s := { s with wr := { s.wr with sparesLeft := s.wr.sparesLeft - 1 } }
        if s.wr.sparesLeft = 0 then exhaust s 1 else s
      else s
    mine.foldl (fun s role => moveRole (if role ≤ 1 then abortMouths s role else s) c role) s

/-- CORE_HEARTBEAT_TIMEOUT (R334). -/
def execCoreHeartbeatTimeout (c : CoreNo) (s : State) : Host.Outcome State Fault Refusal :=
  .next (if awake s then coreFail s c.val else s)

/-- The descriptor of a command that is executed again is read again; where software has changed it meanwhile, each byte is its
old or its new value, which the spec leaves open (R336, R419). -/
def readAgain (s : State) (role : Nat) : State :=
  s.pp.cmds.foldl (fun s c =>
    if c.role ≠ role || c.effectDone then s
    else
      let (a, s) := draw s
      let (b, s) := draw s
      let pick (i : Nat) : Bool := (Config.freeWord (if i < 64 then a else b)).getLsbD (i % 64)
      let byte (i : Nat) : Byte :=
        if pick i then readByte s (arenaBase + c.desc * 128 + i) else BitVec.ofNat 8 (c.fld i 1)
      updCmd s c.id fun c => { c with d := BitVec.ofNat 1024 (leNat ((List.range 128).map byte)) }) s

/-- CORE_FAILOVER_DONE (R335 to R337): the core runs the roles that it takes over; commands in progress are executed
again from their descriptors, so each stands as taken, and their effects hold back nothing. -/
def execCoreFailoverDone (c : CoreNo) (s : State) : Host.Outcome State Fault Refusal :=
  .next (
    let mine := s.wr.failing.filter fun x => x.2 = c.val
    if mine.isEmpty || !coreLive s c.val then s
    else mine.foldl (fun s x => readAgain s x.1) { s with wr := { s.wr with
      roles := s.wr.roles ++ mine
      failing := s.wr.failing.filter fun x => x.2 ≠ c.val
      failovers := satAdd 16 s.wr.failovers mine.length } })

/-! ### SRAM (R314, R331 to R333) -/

/-- SRAM_ECC_ERROR (R314, R331): counted on its channel, its row marked for repair, and an uncorrectable word handled by
its partition. -/
def execSramEccError (channel : Fin 128) (row : Nat) (uncorrectable : Bool) (place : SramPlace) (s : State) :
    Host.Outcome State Fault Refusal :=
  .next (
    if !awake s || (uncorrectable && !((sramAt s channel.val row).any fun a => placeOn s a place)) then s
    else
      let s := count (sramError s channel.val row uncorrectable) 66 (if uncorrectable then 0x304 else 0x303) 0xFF 1
      if !uncorrectable then s
      else match place with
        | .firmware c => coreFail s c.val
        | p => sramWordLost s p)

/-- A channel fails with no spare left on its die (R333): last breath, the critical event, and media disabled until a
reset, of which the RAS capability and AER tell the host (R415). -/
def disableMedia (s : State) : State :=
  let s := startBreath s 4 0
  raise { s with
    pwr := { s.pwr with disabled := true }
    hl := { s.hl with aerUncorrectable := s.hl.aerUncorrectable ||| 0x400000 } } 0x42 srcDevice 0 0 0 0

/-- SRAM_CHANNEL_FAIL (R332, R333). -/
def execSramChannelFail (channel : Fin 128) (why : SramFault) (s : State) : Host.Outcome State Fault Refusal :=
  .next (
    if !awake s || !channelFails s channel.val why then s
    else if s.wr.chUsed.getLsbD (sramDie channel.val) || (sramCh s (16 * sramDie channel.val + 15)).failed then
      disableMedia (updSram s channel.val fun x => { x with failed := true })
    else useSpareChannel s channel.val)

end Sys2Proof.Machine
end

