-- ==== Sys2Proof/Machine/Health.lean ====
section
/-! DEFINITION. The health report, the wear and spares log, the temperature history and the alert thresholds (R344,
R345, R409, R562). -/
namespace Sys2Proof.Machine

def maxOf (l : List Nat) : Nat := l.foldl max 0

/-! ### Wear figures in 0.01% (R345) -/

def glazeWearMax (s : State) : Nat := maxOf (s.pl.stripes.map fun x => x.2.cycles) / 2

/-- Mean over the stripes of populated ranks outside the system areas. -/
def glazeWearMean (s : State) : Nat :=
  let n := s.mp.pop.length * (16 * bzFirst s)
  if n = 0 then 0 else (s.mp.pop.map fun r => ((rankStripes s r).map fun x => x.2.cycles).sum).sum / n / 2

def bisqueWearMax (s : State) : Nat :=
  maxOf (s.pl.stripes.map fun x => x.2.buses) * (2 ^ relocShift s + 1024) / 1000

/-- Life Used (R344). -/
def lifeUsed (s : State) : Nat := (max (glazeWearMax s) (bisqueWearMax s) + 99) / 100

/-- Highest zone temperature in 1/16 degree (R344). -/
def deviceTemp (s : State) : Int :=
  (List.range 16).foldl (fun m z => max m (zone s z).temp) (zone s 0).temp

def correctedVolatile (s : State) : Nat := (s.ecc.sram.map fun x => x.2.ce).sum
def correctedPersistent (s : State) : Nat := (s.ecc.ranks.map fun x => x.2.corrected).sum

/-! ### Spares left -/

def chSpare (s : State) : Nat := 8 - ((List.range 8).filter fun d => s.wr.chUsed.getLsbD d).length
def rowSpare (s : State) : Nat := 8192 - s.wr.rowsUsed
/-- The mirror part stands by. -/
def mirrorSpare (s : State) : Nat := if s.kp.pri = .serving && s.kp.mir = .serving then 1 else 0
/-- Unused redundant lanes, four each way in each of four modules (R394). -/
def laneSpare (s : State) : Nat :=
  ((List.range 4).map fun m => let x : ModRec := tget {} s.hl.mods m; 8 - x.rxUsed - x.txUsed).sum

/-- Each kind of spare with what is left and what there was. -/
def spareKinds (s : State) : List (Nat × Nat) :=
  [((spareBs s).toNat, s.wr.spareBs0), (s.wr.sparesLeft, 2), (chSpare s, 8), (rowSpare s, 8192), (mirrorSpare s, 1),
    (laneSpare s, 32)]

/-- Health Status of R344: bit 0 maintenance, bit 1 performance degraded, bit 2 replacement. -/
def healthStatus (s : State) : Nat :=
  let low := (spareKinds s).any fun x => x.1 * 100 ≤ spareWarn s * x.2
  let worse := s.mp.pop.any fun r => decide (0 < lostLinks s r) ||
    (rankLinks r).any fun n => !(linkWear s n).erased.isEmpty || (linkWear s n).rebuilding || (linkWear s n).dieActive
  (if low then 1 else 0) + (if worse then 2 else 0) + if s.wr.exhausted.isEmpty then 0 else 4

/-! ### The wear and spares log (R345, R562) -/

/-- A 16-bit two's-complement field. -/
def int16 (v : Int) : Nat := (v % 65536).toNat

/-- Zone history record of 128 bytes (R562). -/
def zoneHistory (z : Zone) : List Byte :=
  ((z.bins.map (leBytes 4)).flatten) ++ leBytes 2 (int16 z.maxT) ++ leBytes 2 (Config.rateField z.maxRate).toNat ++
    leBytes 2 (min z.trips 65535) ++ leBytes 2 0 ++ leBytes 8 z.maxTAt ++ leBytes 8 z.maxRateAt

/-- The temperature history, 2,048 bytes (R562). -/
def tempHistory (s : State) : List Byte := ((List.range 16).map fun z => zoneHistory (zone s z)).flatten

/-- A zone with the history of its record (R562). -/
def withHistory (z : Zone) (b : List Byte) : Zone :=
  let n (o k : Nat) : Nat := leNat ((b.drop o).take k)
  { z with
    bins := (List.range 26).map fun k => n (4 * k) 4
    maxT := (BitVec.ofNat 16 (n 0x68 2)).toInt, maxRate := (BitVec.ofNat 16 (n 0x6A 2)).toInt, trips := n 0x6C 2
    maxTAt := n 0x70 8, maxRateAt := n 0x78 8 }

/-- The history comes back from the keep store (R562, R585). -/
def loadHistory (s : State) : State :=
  match keepGet s 0x200 with
  | some b => (List.range 16).foldl (fun s z => updZone s z fun x => withHistory x ((b.drop (128 * z)).take 128)) s
  | none => s

/-- A rank record of the log, 64 bytes. -/
def rankRecord (s : State) (r : Nat) : List Byte :=
  let l := s.pl.stripes.filter fun x => bsRank x.1 = r
  let spare := (rankLinks r).filter fun n => (link s n).pkg.isSome && (pkgOf s n).dieGood.getLsbD 16 && !(linkWear s n).subst
  leBytes 1 spare.length ++ leBytes 1 (if r ∈ s.mp.pop then lostLinks s r else 0) ++
    leBytes 1 (((rankLinks r).map fun n => (linkWear s n).erased.length).sum) ++
    leBytes 1 (((rankLinks r).map fun n =>
      (if (linkWear s n).rebuilding then 1 else 0) + if (linkWear s n).dieActive then 1 else 0).sum) ++
    leBytes 4 (l.filter fun x => x.2.state = .retired).length ++
    leBytes 4 (l.filter fun x => x.2.degraded && x.2.state != .retired).length ++
    leBytes 2 (maxOf (l.map fun x => x.2.cycles)) ++ leBytes 2 (maxOf (l.map fun x => x.2.buses)) ++
    leBytes 8 (rankEcc s r).corrected ++ leBytes 8 (rankEcc s r).uncorrectable ++ List.replicate 32 0

/-- The wear and spares log. -/
def wearLog (s : State) : List Byte :=
  leBytes 8 s.clk.seconds ++ leBytes 4 (spareBs s).toNat ++ leBytes 4 s.wr.spareBs0 ++ leBytes 2 (glazeWearMean s) ++
    leBytes 2 (glazeWearMax s) ++ leBytes 2 (bisqueWearMax s) ++ leBytes 1 s.wr.sparesLeft ++ leBytes 1 (chSpare s) ++
    leBytes 2 (rowSpare s) ++ leBytes 1 (mirrorSpare s) ++ leBytes 1 (laneSpare s) ++ leBytes 4 s.pwr.dirtyCount ++
    ((List.range 16).map fun z => BitVec.ofNat 8 (zone s z).good) ++ List.replicate 16 0 ++
    ((List.range 64).map (rankRecord s)).flatten ++ tempHistory s

/-! ### Alert thresholds (R409, R593) -/

/-- A threshold that is set and reached. -/
def alertHits (s : State) : BitVec 3 :=
  let hit (limit : Nat) (v : Int) : Bool := decide (0 < limit) && decide ((limit : Int) ≤ v)
  BitVec.ofNat 3 ((if hit s.hl.alertLife (lifeUsed s) then 1 else 0) + (if hit s.hl.alertTemp (deviceTemp s / 16) then 2 else 0) +
    if hit s.hl.alertCorr (correctedVolatile s + correctedPersistent s : Nat) then 4 else 0)

/-- One alert-threshold event for each threshold newly reached (R409; thresholds of 0 are off, log 32). -/
def alertCheck (s : State) : State :=
  let now := alertHits s
  let fresh := now &&& ~~~ s.hl.alerted
  let s := { s with hl := { s.hl with alerted := now } }
  ((List.range 3).filter fresh.getLsbD).foldl (fun s _ => raise s 0x37 srcDevice 0 0 0 0) s

end Sys2Proof.Machine
end

