-- ==== Sys2Proof/Machine/Thermal.lean ====
section
/-! DEFINITION. Housekeeping rounds and thermal mutes (R532, R534, R549 to R562). -/
namespace Sys2Proof.Machine

/-! ### Channels (R551, R553, R554) -/

def chan (s : State) (c : Nat) : Chan := tget {} s.th.chans c
def updChan (s : State) (c : Nat) (f : Chan → Chan) : State :=
  { s with th := { s.th with chans := tupd {} s.th.chans c f } }

/-- A channel is in use, and its zone: an on-die sensor feeds the zone of its number, a remote channel the ZONE of
HKEP_CH_c while EN is 1 (R551). -/
def chanZone (s : State) (c : Nat) : Option Nat :=
  if 32 ≤ c then some (c - 32)
  else
    let v := cfg s (10 + c)
    if v.getLsbD 31 then some (fld v 16 4) else none

/-- Channels of a zone that are in use and not retired. -/
def zoneChans (s : State) (z : Nat) : List Nat :=
  (List.range 48).filter fun c => chanZone s c = some z && !(chan s c).retired

/-- Thresholds of a zone: T1 to T5, HYST and RATE_LIM (HKEP_ZONE_z). -/
def zoneT (s : State) (z k : Nat) : Int := (fld (cfg s (42 + z)) (8 * (k - 1)) 8 : Int)
def zoneHyst (s : State) (z : Nat) : Int := (fld (cfg s (42 + z)) 40 4 : Int)
def zoneRateLim (s : State) (z : Nat) : Int := (fld (cfg s (42 + z)) 48 8 : Int)

/-- The reading of a channel in a round; none when it is broken (R553). -/
def chanReading (x : Readings) (c : Nat) : Option Int :=
  ((x.temps.find? fun y => y.1 = c).bind (·.2)).bind fun t => if -640 ≤ t ∧ t ≤ 2400 then some t else none

/-- One channel's round: counted, retired, or well again (R553, R554). -/
def chanRound (x : Readings) (s : State) (c : Nat) : State :=
  let h := chan s c
  match chanZone s c with
  | none => updChan s c fun h => { h with broken := false, rounds := 0 }
  | some z =>
    if h.retired then s
    else match chanReading x c with
      | some _ =>
        let s := updChan s c fun h => { h with broken := false, rounds := 0, probation := false }
        if 0 < h.rounds && h.rounds < 16 then raise s 0x66 (srcZone z) 0 0 0 0 else s
      | none =>
        let last := decide ((zoneChans s z).length ≤ 1)
        let out := (h.probation || 16 ≤ h.rounds + 1) && !last
        let s := updChan s c fun h => { h with broken := true, rounds := min (h.rounds + 1) 16, retired := out }
        if out then raise s 0x65 (srcZone z) 0 0 0 0 else s

/-- Good channels of a zone, and the margin event when their count falls below two (R554). -/
def countGood (s : State) (z : Nat) (first : Bool) : State :=
  let n := (zoneChans s z).length
  let old := (zone s z).good
  let s := updZone s z fun z => { z with good := min n 63 }
  if n < 2 && (first || n < old) then raise s 0x67 (srcZone z) 0 0 0 0 else s

/-! ### Zone temperature and level (R551, R552, R555) -/

/-- The reading that a media die hands its zone: T4 at or above TEMP_CRIT (R80, R551, R552). -/
def dieReading (s : State) (z n d : Nat) : Int :=
  let t := (tget none (link s n).peak d).getD (telTemp s n d)
  if ((pkgOf s n).tempCrit : Int) * 16 ≤ t then 16 * zoneT s z 4 else t

/-- Source numbers and readings of a zone: 0-31 remote, 32-47 on-die, 64 + rank for media. -/
def zoneSources (s : State) (x : Readings) (z : Nat) : List (Nat × Int) :=
  let chans := (zoneChans s z).map fun c => (c, (chanReading x c).getD (16 * zoneT s z 4))
  let ranks := s.mp.pop.filter fun r => zoneOf s r = z
  chans ++ (ranks.map fun r => (((rankLinks r).filter fun n => (link s n).state.serves).map fun n =>
    (List.range 17).map fun d => (64 + r, dieReading s z n d)).flatten).flatten

/-- The hottest of some sources. -/
def hottest (l : List (Nat × Int)) : Option (Nat × Int) :=
  l.foldl (fun b x => match b with | none => some x | some y => if y.2 < x.2 then some x else some y) none

/-- The level that a round computes from L (R555). -/
def nextLevel (t : Nat → Int) (hyst : Int) (level floor : Nat) (temp : Int) (fast : Bool) : Nat :=
  let a := maxOf ((List.range 6).filter fun k => 0 < k && decide (16 * t k ≤ temp))
  let n := max (max level a) floor
  let n := if fast then max n (min (max a level + 1) 4) else n
  if n = level && max a floor < level && decide (temp < 16 * (t level - hyst)) && !fast then level - 1 else n

/-- The history of a zone: extremes at each round, a bin every 128 rounds (R562). -/
def noteHistory (s : State) (temp rate : Int) (z : Zone) : Zone :=
  let z := if z.maxT < temp then { z with maxT := temp, maxTAt := s.clk.seconds } else z
  let z := if z.maxRate < rate then { z with maxRate := rate, maxRateAt := s.clk.seconds } else z
  if s.th.rounds % 128 ≠ 0 then z
  else
    let k := min (temp / 80).toNat 25
    { z with bins := z.bins.set k ((nth z.bins k + 1) % 2 ^ 32) }

/-- The floor that the peers' alerts put under every zone (R626). -/
def peerFloor (s : State) : Nat :=
  if s.cn.joined then
    min (maxOf ((List.range 4).map fun p =>
      if s.cn.members.getLsbD p && p ≠ s.cn.pos then ((tget none s.cn.peers p).map (·.level)).getD 0 else 0)) (alertCap s)
  else 0

/-- A zone's round. -/
def zoneRound (x : Readings) (s : State) (z : Nat) : State :=
  let s := countGood s z false
  match hottest (zoneSources s x z) with
  | none => s
  | some (src, temp) =>
    let old := zone s z
    let rate : Int := if s.th.rounds ≤ 1 then 0 else Int.tdiv ((temp - old.temp) * 15625) 128
    let above := decide (16 * zoneRateLim s z < rate)
    let next := nextLevel (zoneT s z) (zoneHyst s z) old.level (max old.floor (peerFloor s)) temp (above && old.fastPrev)
    updZone s z fun z => noteHistory s temp rate
      { z with temp := temp, rate := rate, fastPrev := above, hotSrc := src, next := next }

/-! ### Supplies and hold-up (R532, R534, R561) -/

/-- Operating minimum of each rail in mV, in the order of HKEP_SUPPLY (R647). -/
def railMin : List Nat := [728, 679, 728, 825, 1710, 776]

/-- Rails below their limit set their bits and raise one event each (R561). -/
def railRound (x : Readings) (s : State) : State :=
  ((List.range 6).filter fun i => decide (nth x.rails i < nth railMin i)).foldl (fun s i =>
    raise { s with th := { s.th with uv := s.th.uv ||| (1#6 <<< i) } } 0x63 srcDevice 0 0 0 0) s

/-- VBAT below 2,200 mV, once per startup (R561). -/
def batteryRound (x : Readings) (s : State) : State :=
  let s := { s with th := { s.th with vbat := min x.vbat 65535 } }
  if x.vbat < 2200 && !s.pwr.batteryLow then
    raise { s with pwr := { s.pwr with batteryLow := true } } 0x64 srcDevice 0 0 0 0
  else s

/-- V is taken once two rounds differ by less than 1% (R532); a round after the start that finds it lower than it was
then raises a hold-up-low event (R534). -/
def holdupRound (x : Readings) (s : State) : State :=
  let v := min x.holdup 65535
  let near := decide (0 < s.th.holdup) && decide (100 * (max v s.th.holdup - min v s.th.holdup) < max v s.th.holdup)
  let s := { s with th := { s.th with holdup := v }, pwr := { s.pwr with vLast := v } }
  match s.pwr.vTaken with
  | none => if near then { s with pwr := { s.pwr with vTaken := some v } } else s
  | some v0 => if v < v0 && s.pwr.step = 12 then raise s 0x62 srcDevice 0 0 0 0 else s

/-- The hold-up budget of R532 and R534: T_AV from V and the HOLDUP record, the dirty limit and the map limit. -/
def holdupParams (s : State) : Option (Nat × Nat × Nat) :=
  (keepGet s 2).map fun b => (leNat (b.take 4), leNat ((b.drop 4).take 4), leNat ((b.drop 8).take 4))

def availableHoldup (s : State) (v : Nat) : Nat :=
  match holdupParams s with
  | none => 2000
  | some (c, vmin, load) =>
    if v ≤ vmin then 0 else if load = 0 then 2000 else min (c * (v * v - vmin * vmin) / (2000 * load)) 2000

def dirtyLimitOf (s : State) (tav : Nat) : Nat :=
  let nl := ((List.range 1152).filter fun n => (link s n).state.serves).length
  let budget := (tav * 3 / 4 - 40) * 8 * nl
  min 1048576 ((budget - s.mp.pop.length * 2112 - 131072) * 2 / 3) / 128 * 128

/-- Take the hold-up measurement: T_AV, V_START and, when they suffice, the dirty and map limits; otherwise the hold-up
event, at the first try only (R534). -/
def measureHoldup (s : State) (v : Nat) (first : Bool) : State :=
  let tav := availableHoldup s v
  let lim := dirtyLimitOf s tav
  let s := { s with pwr := { s.pwr with tAv := tav, vStart := v, measured := (holdupParams s).isSome } }
  if lim < 65536 then (if first then raise s 0x61 srcDevice 0 0 0 0 else s)
  else { s with sag := { s.sag with dirtyLimit := lim }, mp := { s.mp with dirtyMax := lim / 2 } }

/-- An erase covers a domain (R386). -/
def eraseCovers (s : State) (d : Nat) : Bool :=
  match s.ig.erasing with
  | some (.all _) => true
  | some (.domain x) => x = d
  | none => false

/-- READY of a region (R641). -/
def regionReady (s : State) (r : Region) : Bool :=
  r.valid && s.pwr.step = 12 && !s.pwr.limited && decide (65536 ≤ s.sag.dirtyLimit) && (domainKey s r.domain).present &&
    !eraseCovers s r.domain && (!r.tree || s.ig.rootState ≠ 2)

/-- Every READY bit follows its conditions (R641). -/
def refreshReady (s : State) : State :=
  (List.range 64).foldl (fun s n => updRegion s n fun r => { r with ready := regionReady s r }) s

/-- A measurement that was not met is repeated at each round (R534). -/
def holdupRetry (x : Readings) (s : State) : State :=
  if s.pwr.step = 12 && s.sag.dirtyLimit < 65536 && !s.pwr.limited then
    refreshReady (measureHoldup s (min x.holdup 65535) false)
  else s

/-! ### The commands -/

/-- The device's clocks run housekeeping: Run, Idle and Sleep (R550). -/
def keepsHouse (s : State) : Bool :=
  s.pwr.supplies && !s.pwr.inReset && (s.pwr.state = .run || s.pwr.state = .idle || s.pwr.state = .sleep)

/-- HOUSEKEEPING_ROUND (R549, R550, R561): the round begins with what its window samples: rails, VBAT, hold-up, and the
temperatures, whose levels are computed where they become live (log 113). The floors set since the last round apply from this one
(R464). -/
def execHousekeepingRound (x : Readings) (s : State) : Host.Outcome State Fault Refusal :=
  .next (
    if !keepsHouse s then s
    else
      let s := holdupRetry x (holdupRound x (batteryRound x (railRound x s)))
      let s := (List.range 16).foldl (fun s z => updZone s z fun z => { z with floor := z.floorNext }) s
      { s with
        th := { s.th with rounds := s.th.rounds + 1, sampled := some x }
        ln := { s.ln with links := s.ln.links.map fun l => (l.1, { l.2 with peak := [] }) } })

/-- The channels, temperatures and levels of a round, under the settings live at its boundary (R549 to R555); in Sleep a zone that
rises wakes the device (R519, R550). -/
def computeLevels (s : State) (x : Readings) : State :=
  let s := (List.range 48).foldl (chanRound x) s
  let s := alertCheck ((List.range 16).foldl (zoneRound x) s)
  let rises := (List.range 16).any fun z => decide ((zone s z).level < (zone s z).next)
  { s with
    th := { s.th with sampled := none }
    ev := { s.ev with wakePending := if s.pwr.state = .sleep && rises then some 4 else s.ev.wakePending } }

/-- Ranks of zones that fell from level 5 return to service (R559). -/
def unparkRanks (s : State) (zones : List Nat) : State :=
  let back := s.th.parked.filter fun r => zoneOf s r ∈ zones
  if back.isEmpty then s
  else
    let s := { s with th := { s.th with
      parked := s.th.parked.filter (· ∉ back), unparking := back.foldl addNew s.th.unparking } }
    back.foldl unparkEnds (resumeLinks s fun n => n / 18 ∈ back)

/-- The levels of the zones change together; a zone that reaches level 5 waits for its breath (R549, R558, R559). -/
def setLevels (s : State) : State :=
  let up := (List.range 16).filter fun z => (zone s z).next = 5 && (zone s z).level ≠ 5
  let down := (List.range 16).filter fun z => (zone s z).level = 5 && (zone s z).next ≠ 5
  let s := (List.range 16).foldl (fun s z => updZone s z fun x =>
    { x with level := x.next, trips := if z ∈ up then satAdd 16 x.trips 1 else x.trips }) s
  let s := { s with th := { s.th with parkPending := up.foldl addNew (s.th.parkPending.filter fun z => (zone s z).level = 5) } }
  let s := unparkRanks s down
  let hot := (List.range 16).any fun z => (zone s z).level = 5
  { s with pwr := { s.pwr with tripLevel5 := s.pwr.tripLevel5 && hot } }

/-- The levels of the round that was sampled become live (R549, R555, R558, R559). -/
def levelsLive (s : State) : State :=
  match s.th.sampled with
  | none => s
  | some x => setLevels (computeLevels s x)

/-- MUTE_LEVEL_LIVE (R549): at the boundary of beat 131,072k + 65,536 the computed levels become live. -/
def execMuteLevelLive (s : State) : Host.Outcome State Fault Refusal := .next (if keepsHouse s then levelsLive s else s)

/-- TEMP_HISTORY_SAVE (R562). -/
def execTempHistorySave (s : State) : Host.Outcome State Fault Refusal :=
  .next (if awake s then keepPut s 0x200 (tempHistory s) else s)

/-- ONDIE_THERMTRIP (R560): hardware asserts THERMTRIP_N until RESET_N. -/
def execOndieThermtrip (_sensor : Fin 16) (temp16 : Int) (s : State) : Host.Outcome State Fault Refusal :=
  .next (if s.pwr.supplies && !s.pwr.inReset && decide (2000 ≤ temp16) then
    { s with pwr := { s.pwr with tripOnDie := true } } else s)

end Sys2Proof.Machine
end

