-- ==== Sys2Proof/Machine/KeepCmds.lean ====
section
/-! DEFINITION. The keep store's own steps: appends with their read-back, compaction, failing and lagging parts
(R577, R581, R584, R585). -/
namespace Sys2Proof.Machine

/-- Keys of the store (R585). -/
def keepKey (k : Nat) : Bool :=
  decide (1 ≤ k ∧ k ≤ 9) || decide (0x10 ≤ k ∧ k ≤ 0x13) || decide (0x20 ≤ k ∧ k ≤ 0x26) || decide (0x28 ≤ k ∧ k ≤ 0x2B) ||
    decide (0x30 ≤ k ∧ k ≤ 0x7F) || decide (0x100 ≤ k ∧ k ≤ 0x192) || k = 0x200 || decide (0x300 ≤ k ∧ k ≤ 0x33F) ||
    decide (0x10000 ≤ k ∧ k ≤ 0x1FFFF)

/-- A part fails: the event, the other part serves; the mirror as a spare is used up; with neither part left the
critical event (R339, R341, R584). -/
def partFail (s : State) (mirror : Bool) : State :=
  let old := if mirror then s.kp.mir else s.kp.pri
  if !old.holds then s
  else
    let left := if old = .serving then some (s.kp.gen, s.kp.seq) else if mirror then s.kp.mirLeft else s.kp.priLeft
    let s := { s with kp := if mirror then { s.kp with mir := .failed, mirLeft := left }
                            else { s.kp with pri := .failed, priLeft := left } }
    let s := exhaust (raise s 0x72 srcKeep 0 0 0 0) 4
    if keepDead s then raise s 0x73 srcKeep 0 0 0 0 else s

/-- KEEP_APPEND (R576, R577, R584): a firmware record is programmed on the parts in service and read back; a part whose
read-back differs fails. -/
def execKeepAppend (key : Nat) (payload : List Byte) (okPrimary okMirror : Bool) (s : State) :
    Host.Outcome State Fault Refusal :=
  .next (
    if !s.pwr.supplies || s.pwr.inReset || !s.kp.formatted || !keepKey key || payload.isEmpty || 3584 < payload.length then s
    else
      let s := if okPrimary || s.kp.pri ≠ .serving then s else partFail s false
      let s := if okMirror || s.kp.mir ≠ .serving then s else partFail s true
      keepPut s key payload)

/-- KEEP_WRITE commands whose append set the compaction off complete when it ends (R589). -/
def finishKeepWrites (s : State) : State :=
  (s.pp.cmds.filter fun c => c.op = 0x501 && c.effectDone).foldl (fun s c => finishCmd s c 0 0 0 0) s

/-- KEEP_COMPACTION (R581): the store goes over into its next generation; the appends that waited follow. -/
def execKeepCompaction (s : State) : Host.Outcome State Fault Refusal :=
  .next (
    if s.kp.compacting && keepUp s then finishKeepWrites (keepFlush { s with kp := { s.kp with port := [] }.compact }) else s)

/-- KEEP_PART_FAIL (R584): a busy poll beyond 400 ms, a read-back mismatch or a failed discovery. -/
def execKeepPartFail (mirror : Bool) (s : State) : Host.Outcome State Fault Refusal := .next (partFail s mirror)

/-- KEEP_RESYNC_DONE (R584): the part holds every record of the serving part and serves. -/
def execKeepResyncDone (mirror : Bool) (s : State) : Host.Outcome State Fault Refusal :=
  .next (
    if mirror then
      (if s.kp.mir = .resyncing then { s with kp := { s.kp with mir := .serving, mirLeft := none } } else s)
    else (if s.kp.pri = .resyncing then { s with kp := { s.kp with pri := .serving, priLeft := none } } else s))

end Sys2Proof.Machine
end

