-- ==== Sys2Proof/Machine/Events.lean ====
section
/-! DEFINITION. The recorder's timers, the capture queues, snapshots and bandwidth windows, and the pulse of ALERT_N
(R595 to R599, R604 to R607, R610, R612, R614, R657). -/
namespace Sys2Proof.Machine

/-! ### Recorder -/

/-- EVENT_RAISE (R591 to R596): an event reaches the recorder. -/
def execEventRaise (code source p0 p1 p2 p3 : Nat) (s : State) : Host.Outcome State Fault Refusal :=
  .next (if awake s then raise s code source p0 p1 p2 p3 else s)

/-- A code's bucket gains a token after 2^24 div RATE beats, up to BURST (R595). -/
def refill (beat : Nat) (b : Bucket) : Bucket :=
  let p := 2 ^ 24 / b.rate
  if b.rate = 0 || beat < b.last + p then b
  else { b with last := b.last + p, tokens := min b.burst (b.tokens + 1) }

/-- TOKEN_REFILL (R595). -/
def execTokenRefill (code : Nat) (s : State) : Host.Outcome State Fault Refusal :=
  .next (match evClass code with
    | none => s
    | some c => if c = 4 || code = 0x32 then s else updBucket s code (refill s.clk.beat))

/-- Thaw the ring: the count of what was missed returns to 0 and the next record carries GAP (R599). -/
def thaw (s : State) : State :=
  { s with ev := { s.ev with frozen := false, frozenCount := 0, gap := s.ev.gap || s.ev.frozen } }

/-- FREEZE_TIMEOUT (R599): a freeze of 2^28 beats ends by itself with an event-gap record. -/
def execFreezeTimeout (s : State) : Host.Outcome State Fault Refusal :=
  .next (
    if s.ev.frozen && decide (s.ev.freezeAt + 2 ^ 28 ≤ s.clk.beat) then
      let n := s.ev.frozenCount
      writeRecord (thaw s) { code := 0xF0, source := srcDevice, time := BitVec.ofNat 64 (eventTime s), p0 := n % 2 ^ 32 }
    else s)

/-- ALERT_N_EXPIRE (R657): the interval of the pulse ends. -/
def execAlertNExpire (s : State) : Host.Outcome State Fault Refusal :=
  .next (match s.pwr.alertUntil with
    | some b => if b ≤ s.clk.beat then { s with pwr := { s.pwr with alertUntil := none } } else s
    | none => s)

/-! ### Capture queues (R604, R605) -/

/-- PACKET_CLOSE_TIMEOUT (R604): 2^TIMEOUT_SHIFT beats have passed since the packet's first record. -/
def execPacketCloseTimeout (q : Fin 8) (s : State) : Host.Outcome State Fault Refusal :=
  .next (
    let c := capQ s q.val
    if c.count ≠ 0 && c.timeout ≠ 0 && decide (c.first + 2 ^ c.timeout ≤ s.clk.beat) then packetClose s q.val 1 else s)

/-- PACKET_OPEN (R605): the next packet opens once its bank is released. -/
def execPacketOpen (q : Fin 8) (s : State) : Host.Outcome State Fault Refusal := .next (packetOpen s q.val)

/-- CAPTURE_FLUSH (R604): the open packet closes if it holds a record. -/
def execCaptureFlush (q : Fin 8) (s : State) : Host.Outcome State Fault Refusal :=
  .next (if awake s then packetClose s q.val 2 else s)

/-! ### Snapshots (R614) -/

/-- SRAM offset of TELW (R38, R614). -/
def telBase : Nat := 0x3C000000

/-- A monitor's section of 128 bytes. -/
def monSection (s : State) (m : Nat) : List Byte :=
  let x := mon s m
  leBytes 8 s.ev.runBeats ++ ((List.range 8).map fun i => leBytes 8 (nth x.cnt i)).flatten ++ leBytes 8 x.ovf.toNat ++
    ((List.range 4).map fun i => leBytes 8 (nth x.bw i)).flatten ++ List.replicate 16 0

/-- A snapshot buffer of beat `b`; the user copy holds the sections of monitors with USER set. -/
def snapshotBytes (s : State) (n b : Nat) (user : Bool) : List Byte :=
  leBytes 8 n ++ leBytes 8 b ++ leBytes 8 (stampNow s) ++ leBytes 1 s.ev.dumpK ++ leBytes 1 67 ++ List.replicate 30 0 ++
    leBytes 8 n ++ ((List.range 67).map fun m =>
      if user && !(mon s m).user then List.replicate 128 0 else monSection s m).flatten

/-- Boundary `b` is one of the dump settings in force, and still to be taken (R614). -/
def dumpDue (s : State) (b : Nat) : Bool := b % 2 ^ s.ev.dumpK = 0 && s.ev.lastDump != some b

/-- The dump boundary `b`: a new DUMP_SET takes effect (log 33), and with ENABLE 1 the snapshot is taken, numbered from 1,
to buffer n mod 2 with the user copy (R614). -/
def snapshot (s : State) (b : Nat) : State :=
  let (k, on) := s.ev.dumpNext.getD (s.ev.dumpK, s.ev.dumpOn)
  let takes := on && (s.ev.dumpOn || b % 2 ^ k = 0)
  let n := s.ev.dumps + 1
  let s := { s with ev := { s.ev with dumpK := k, dumpOn := on, dumpNext := none, lastDump := some b } }
  if takes then
    let s := writeBytes s (telBase + n % 2 * 0x4000) (snapshotBytes s n b false)
    let s := writeBytes s (telBase + 0x8000 + n % 2 * 0x4000) (snapshotBytes s n b true)
    { s with ev := { s.ev with dumps := n } }
  else s

/-- COUNTER_SNAPSHOT (R27 step 1, R614): the dump boundary that ends the present beat. -/
def execCounterSnapshot (s : State) : Host.Outcome State Fault Refusal :=
  .next (if awake s && dumpDue s (s.clk.beat + 1) then snapshot s (s.clk.beat + 1) else s)

/-! ### Bandwidth windows (R612) -/

/-- The window of a monitor ends at boundary `b`. -/
def windowDue (s : State) (m b : Nat) : Bool :=
  let x := mon s m
  x.window ≠ 0 && decide (x.windowAt + x.window ≤ b)

/-- Latch the port counts and restart them. -/
def latchWindow (s : State) (m b : Nat) : State :=
  updMon s m fun x => { x with bw := x.ports, ports := [0, 0, 0, 0], windowAt := b }

/-- BANDWIDTH_WINDOW (R612): the latch at the boundary that ends the present beat. -/
def execBandwidthWindow (m : Fin 67) (s : State) : Host.Outcome State Fault Refusal :=
  .next (if awake s && windowDue s m.val (s.clk.beat + 1) then latchWindow s m.val (s.clk.beat + 1) else s)

end Sys2Proof.Machine
end

