-- ==== Sys2Proof/Machine/Commit.lean ====
section
/-! DEFINITION. The single pending commit: configuration registers and their ranges, region changes, the bisque budget
and the power policy, checked when taken and again at the named beat (R27, R116, R364, R448, R451 to R454, R458, R489,
R497 to R502, R511, R528, R624). -/
namespace Sys2Proof.Machine

/-! ### Configuration registers (R451, R489, R498) -/

/-- Block type code and register offset of a configuration register. -/
def cfgPlace (id : Nat) : Nat × Nat :=
  if id = 0 then (0x12, 0x18) else if id = 1 then (0x13, 0) else if id = 2 then (0x13, 8) else if id = 3 then (0x14, 0)
  else if id = 4 then (0x15, 0) else if id = 5 then (0x16, 0) else if id < 10 then (0x41, 0x20 + 8 * (id - 6))
  else if id < 42 then (0x41, 0x100 + 8 * (id - 10)) else if id < 58 then (0x41, 0x200 + 16 * (id - 42))
  else if id = 58 then (0x40, 8) else if id = 59 then (0x40, 0x10) else (0x60, 0)

/-- Every configuration register, in ascending block type and offset. -/
def cfgIds : List Nat :=
  [0, 1, 2, 3, 4, 5, 58, 59] ++ (List.range 4).map (6 + ·) ++ (List.range 32).map (10 + ·) ++ (List.range 16).map (42 + ·) ++ [60]

/-- Writable bits of a configuration register; BUDGET_MIN is read-only. -/
def cfgMask (id : Nat) : Reg :=
  if id = 0 then 0xFFFF#64
  else if id = 1 then 0x00FFFFF000FFFFFF#64
  else if id = 2 then 0xFFFFFFFFFFFFFFFF#64
  else if id = 3 then 0x7FF#64
  else if id = 4 then 0x0000FFFFFF0F27FF#64
  else if id = 5 then 0x0000FF0FFFFF00FF#64
  else if id < 10 then 0xFFFFFFFFFFFFFFFF#64
  else if id < 42 then 0x0000FFFF830FFFFF#64
  else if id < 58 then 0x00FF0FFFFFFFFFFF#64
  else if id = 58 then 0xFFFFFFFFFFFFFFFF#64
  else if id = 59 then 0x3FFFFFFFF#64
  else 7#64

/-- A value lies in the ranges of its fields and keeps the constraints among them (R498, HKEP). -/
def cfgInRange (id : Nat) (v : Reg) : Bool :=
  let f := fld v
  let rng (lo w a b : Nat) : Bool := decide (a ≤ f lo w) && decide (f lo w ≤ b)
  if id = 1 then rng 48 8 20 40 && rng 16 8 2 20 && decide (f 24 8 ≤ f 16 8)
  else if id = 2 then decide (f 32 16 ≤ f 16 16) && decide (f 16 16 < f 0 16)
  else if id = 3 then rng 0 8 6 20
  else if id = 4 then rng 40 8 1 255 && rng 32 8 1 255 && rng 24 8 1 255 && rng 16 4 1 6 && rng 0 11 1 2047
  else if id = 5 then rng 32 4 1 15 && rng 0 8 12 20
  else if 10 ≤ id && id < 42 then rng 24 2 0 1
  else if 42 ≤ id && id < 58 then
    decide (f 0 8 < f 8 8) && decide (f 8 8 < f 16 8) && decide (f 16 8 < f 24 8) && decide (f 24 8 < f 32 8)
  else if id = 60 then rng 0 3 0 4
  else true

/-- The first shadow register that a commit would fail on; WEAR_CTRL fails also when it lowers RELOC_SHIFT. -/
def badShadow (s : State) : Option Nat :=
  cfgIds.find? fun id => !cfgInRange id (cfgShadow s id) || (id = 5 && fld (cfgShadow s 5) 0 8 < relocShift s)

/-- RES_A and RES_B of a failed check: block type, instance 0 and register offset (R451). -/
def badShadowResult (id : Nat) : Reg × Reg := (BitVec.ofNat 64 (cfgPlace id).1, BitVec.ofNat 64 (cfgPlace id).2)

/-- The CONFIG record: live values of the blocks of retention class 1 (R528, R585). -/
def saveConfig (s : State) : State :=
  keepPut s 0x40 ((cfgIds.filter fun id => (cfgPlace id).1 ≠ 0x40).map fun id => leBytes 8 (cfg s id).toNat).flatten

/-- What follows a change of live values at once (R235, R499): LEVEL falls to a lowered cap, BUDGET to a lowered ceiling, and a
BISQUE stripe that lies below a raised threshold is compacted. -/
def afterConfig (s : State) : State :=
  let cap := bucketCap s
  let top := budgetMax s
  { s with
    ecc := { s.ecc with ranks := s.ecc.ranks.foldl (fun t x => tset {} t x.1 { x.2 with level := min x.2.level cap }) [] }
    pl := { s.pl with
      ranks := s.pl.ranks.foldl (fun t x => tset {} t x.1 { x.2 with budget := min x.2.budget top }) []
      stripes := s.pl.stripes.map fun x =>
        (x.1, if x.2.state = .bisque then { x.2 with state := settledState s .bisque x.2.valid } else x.2) } }

/-- Every differing shadow becomes live (R27 step 2, R490). -/
def configLive (s : State) : State :=
  saveConfig (afterConfig (cfgIds.foldl (fun s id => setLive s id (cfgShadow s id)) s))

/-! ### Regions (R116, R364, R453, R454, R497, R502) -/

/-- XLAT_REGION_BASE_n and XLAT_REGION_CTRL_n. -/
def regionBase (r : Region) : Reg := BitVec.ofNat 64 ((if r.valid then 2 ^ 63 else 0) + r.size * 2 ^ 23 + r.base)
def regionCtrl (r : Region) : Reg :=
  BitVec.ofNat 64 ((if r.ready then 2 ^ 15 else 0) + (if r.migrating then 2 ^ 14 else 0) + r.policy * 2 ^ 10 +
    (if r.tree then 2 ^ 8 else 0) + r.domain)

/-- The REGIONS record (R118, R585). -/
def saveRegions (s : State) : State :=
  keepPut s 0x21 ((List.range 64).map fun n =>
    leBytes 8 (regionBase (region s n)).toNat ++ leBytes 8 (regionCtrl (region s n)).toNat).flatten

def regionHas (r : Region) (page : Nat) : Bool := r.valid && r.base ≤ page / 2 ^ 18 && page / 2 ^ 18 < r.base + r.size

/-- A page lies in some region of a table. -/
def covered (t : Tab Region) (page : Nat) : Bool := t.any fun x => regionHas x.2 page

/-- Pages whose entries the cache or the media hold. -/
def knownPages (s : State) : List Nat :=
  (s.mp.cache.map fun x => (List.range 8).map (x.1 * 8 + ·)).flatten ++ (s.mp.leaves.map fun x => [x.1 / 2 * 2, x.1 / 2 * 2 + 1]).flatten

/-- A change would take mapped DPA out of every region; at the named beat a saggar line counts as mapped (R453). -/
def uncovers (s : State) (t : Tab Region) (late : Bool) : Bool :=
  let out (p : Nat) : Bool := covered s.mp.regions p && !covered t p
  ((knownPages s).any fun p => out p && (entryNow s p).state != .unmapped) || (late && s.sag.lines.any fun x => out (x.1 / 64))

/-- R116 and R364 over a table of regions. -/
def regionsOk (s : State) (t : Tab Region) : Bool :=
  t.all fun x => !x.2.valid ||
    (decide (1 ≤ x.2.size) && decide (x.2.base + x.2.size ≤ s.mp.capGib) &&
      (!x.2.tree || decide (x.2.base + x.2.size ≤ 4186112)) &&
      t.all fun y => x.1 = y.1 || !y.2.valid || decide (x.2.base + x.2.size ≤ y.2.base) || decide (y.2.base + y.2.size ≤ x.2.base))

/-- Kind of a migration between two attribute pairs: 0 mode, 1 domain, 2 both, 3 relabel. -/
def migKind (oldTree tree : Bool) (oldDomain domain : Nat) : Nat :=
  if oldTree = tree then (if oldDomain = domain then 3 else 1) else if oldDomain = domain then 0 else 2

/-- What a REGION_DEFINE changes: the regions, and the migration that it needs. -/
structure RegionPlan where
  regions : Tab Region := []
  slot : Option MigSlot := none

/-- A migration of range [base, base + size) in GiB under region `n`; `passes` is 2 when a relabel pass will follow. -/
def newSlot (s : State) (n base size : Nat) (target oldTree : Bool) (oldDomain kind passes : Nat) : MigSlot :=
  { valid := true, kind := kind, target := target, region := n, oldTree := oldTree, oldDomain := oldDomain, base := base
    size := size, total := 32 * size * passes, before := s.mp.regions }

/-- The change that REGION_DEFINE names, or the DETAIL of why it fails (R453, R454, R502, R672). -/
def regionPlan (s : State) (late : Bool) (op n m policy : Nat) (tree : Bool) (domain base size split : Nat) :
    Except Nat RegionPlan :=
  let a := region s n
  let b := region s m
  let put (t : Tab Region) (k : Nat) (r : Region) : Tab Region := tset {} t k r
  let check (t : Tab Region) (slot : Option MigSlot) : Except Nat RegionPlan :=
    if !regionsOk s t || uncovers s t late then .error 0x19 else .ok { regions := t, slot := slot }
  let absent := !(domainKey s domain).present
  if op = 0 then
    if absent then .error 0x1D
    else
      let r : Region := { a with valid := true, base := base, size := size, policy := policy, tree := tree, domain := domain }
      let stays := a.valid && decide (max a.base base < min (a.base + a.size) (base + size))
      if stays && (a.tree ≠ tree || a.domain ≠ domain) then
        check (put s.mp.regions n { r with migrating := true, regime := !a.regime })
          (some (newSlot s n base size (!a.regime) a.tree a.domain (migKind a.tree tree a.domain domain) 1))
      else check (put s.mp.regions n r) none
  else if op = 1 then check (put s.mp.regions n { a with valid := false, ready := false }) none
  else if op = 2 then
    if absent then .error 0x1D
    else if b.valid || n = m then .error 0x1A
    else if !a.valid || split ≤ a.base || a.base + a.size ≤ split then .error 0x19
    else
      let up := a.base + a.size - split
      let lower := put s.mp.regions n { a with size := split - a.base }
      let r : Region := { valid := true, base := split, size := up, ready := a.ready, policy := policy, tree := tree, domain := domain
                          regime := a.regime }
      if a.tree ≠ tree || a.domain ≠ domain then
        check (put lower m { r with migrating := true, regime := !a.regime })
          (some (newSlot s m split up (!a.regime) a.tree a.domain (migKind a.tree tree a.domain domain) 1))
      else check (put lower m r) none
  else
    if !b.valid || n = m || !a.valid || b.base ≠ a.base + a.size then .error 0x1A
    else
      let t := put s.mp.regions m { b with valid := false, ready := false }
      let r : Region := { a with size := a.size + b.size }
      if a.tree ≠ b.tree || a.domain ≠ b.domain then
        check (put t n { r with migrating := true })
          (some (newSlot s n b.base b.size (!b.regime) b.tree b.domain (migKind b.tree a.tree b.domain a.domain)
            (if (!b.regime) = a.regime then 1 else 2)))
      else if a.regime ≠ b.regime then
        check (put t n { r with migrating := true }) (some (newSlot s n b.base b.size a.regime b.tree b.domain 3 1))
      else check (put t n r) none

/-- A free migration slot (R454). -/
def freeSlot (s : State) : Option Nat := (List.range 4).find? fun m => !(migSlot s m).valid

/-! ### The bisque budget (R458, R497, R511) -/

/-- Stripes that FLOOR percent of a rank's stripes make (R231). -/
def floorStripes (floor : Nat) : Nat := floor * 81920 / 100

/-- Blank stripes of bisque mode (R511). -/
def blankBisque (s : State) (r : Nat) : Nat := ((rankStripes s r).filter fun x => x.2.state = .blank && x.2.bisque).length

/-- Stripes that a rank still has to prepare to reach a floor. -/
def floorLack (s : State) (floor r : Nat) : Nat := floorStripes floor - (bisqueUse s r + blankBisque s r)

/-- Named ranks, of a mask. -/
def maskRanks (m : BitVec 64) : List Nat := (List.range 64).filter m.getLsbD

/-- A BUDGET needs a migration: it raises BUDGET_MIN above a named rank's bisque use. -/
def budgetMigrates (s : State) (ranks : BitVec 64) (floor : Nat) : Bool :=
  decide (budgetMin s < floor) && (maskRanks ranks).any fun r => decide (bisqueUse s r < floorStripes floor)

/-- BUDGET_MIN changes in the live and the shadow copy; every rank's BUDGET follows (R511). -/
def setFloor (s : State) (floor : Nat) : State :=
  let put (v : Reg) : Reg := (v &&& 0xFFFFFFFF00FFFFFF#64) ||| BitVec.ofNat 64 (floor * 2 ^ 24)
  let s := setShadow (setLive s 1 (put (cfg s 1))) 1 (put (cfgShadow s 1))
  s.mp.pop.foldl (fun s r => updRank s r fun x => { x with budget := max x.budget floor }) s

/-! ### Taking a commit (R448, R451, R624) -/

/-- LEAD_MIN (R448). -/
def leadMin (s : State) : Nat := if s.cn.joined then 1024 else 256

/-- The beat that a command names (R448). -/
def namedBeat (s : State) (c : Cmd) : Nat := if c.beat = 0 then c.takenAt + leadMin s else c.beat

/-- The pending commit is held, on this device or by an agreement (R451, R624). -/
def commitBusy (s : State) : Bool :=
  s.pp.commit.isSome || s.cn.agreement.isSome

/-- In Sleep and Deep sleep the Briter link carries only STATUS and WAKE (R619). -/
def briterCarries (s : State) (f : BriterFrame) : Bool :=
  match f with
  | .status _ => true
  | .wake => true
  | _ => s.pwr.state ≠ .sleep && s.pwr.state ≠ .deepSleep

/-- A frame that this device sends, in both directions (R618, R619). -/
def sendFrame (s : State) (f : BriterFrame) : State :=
  if briterCarries s f then { s with cn := { s.cn with sent := f :: s.cn.sent } } else s

/-- The other members of the consort. -/
def others (s : State) : List Nat := (List.range 4).filter fun p => s.cn.members.getLsbD p && p ≠ s.cn.pos

/-- Every other member has acknowledged: GO goes out in two slots; a POWER_ENTER that waited is accepted (R464, R624 step 3,
R625). -/
def goIfAcked (s : State) : State :=
  match s.cn.agreement with
  | none => s
  | some a =>
    if a.origin = s.cn.pos && !a.go && (others s).all (fun p => p ∈ a.acks) then
      let s := sendFrame (sendFrame s (.go a.n)) (.go a.n)
      let s := { s with cn := { s.cn with agreement := some { a with go := true } } }
      if a.kind = .configuration then
        { s with pp := { s.pp with commit := s.pp.commit.map fun c => { c with go := true } } }
      else finishId { s with pwr := { s.pwr with askedCmd := none } } a.cmd 0 0 0
    else s

/-- Own beat to consort beat, and back (R621). -/
def toConsort (s : State) (b : Nat) : Nat := ((b : Int) + s.cn.delta).toNat
def toOwn (s : State) (n : Nat) : Nat := ((n : Int) - s.cn.delta).toNat

/-- This device opens an agreement: its PREPARE reserves it (R624 step 1, R625). -/
def openAgreement (s : State) (n : Nat) (k : ConsortKind) (cmd : Option Nat) : State :=
  let a : Agreement := { origin := s.cn.pos, n := n, kind := k, preparedAt := s.clk.beat, cmd := cmd }
  goIfAcked (sendFrame { s with cn := { s.cn with agreement := some a } } (.prepare n k))

/-- Hold the pending commit for a command; a consort member reserves it with a PREPARE (R451, R624 step 1). -/
def takeCommit (s : State) (c : Cmd) (x : Change) : State :=
  let b := namedBeat s c
  let s := { s with pp := { s.pp with commit := some { beat := b, change := x, cmd := some c.id, needsGo := s.cn.joined } } }
  if s.cn.joined then openAgreement s (toConsort s b) .configuration (some c.id) else s

/-! ### The named beat (R27 step 2, R451, R453, R502) -/

/-- The change is abandoned everywhere on this device. -/
def commitAborted (s : State) (c : Commit) : State :=
  finishId { s with
    pp := { s.pp with commit := none }
    cn := { s.cn with agreement := if c.needsGo then none else s.cn.agreement } } c.cmd 8 0 0

/-- The change is live: the epoch advances (R451). -/
def commitDone (s : State) (c : Commit) : State :=
  { s with
    pp := { s.pp with commit := none, epoch := s.pp.epoch + 1 }
    cn := { s.cn with agreement := if c.needsGo then none else s.cn.agreement } }

/-- A region change at its beat: atomic, or the start of a migration, whose command waits (R454, R502). -/
def regionLive (s : State) (c : Commit) (p : RegionPlan) : State :=
  let s := { commitDone s c with mp := { s.mp with regions := p.regions } }
  match p.slot, freeSlot s with
  | some x, some m => refreshReady (updMig s m fun _ => { x with cmd := c.cmd })
  | _, _ => finishId (saveRegions (refreshReady s)) c.cmd 0 0 0

/-- A budget change at its beat (R458, R511). -/
def budgetLive (s : State) (c : Commit) (ranks : BitVec 64) (floor : Nat) : State :=
  let slow := budgetMigrates s ranks floor
  let s := saveConfig (setFloor (commitDone s c) floor)
  match slow, freeSlot s with
  | true, some m =>
    updMig s m fun _ =>
      { valid := true, kind := 4, total := ((maskRanks ranks).map (floorLack s floor)).sum, cmd := c.cmd
        ranks := maskRanks ranks, before := s.mp.regions }
  | _, _ => finishId s c.cmd 0 0 0

/-- The pending commit at the boundary of beat `b`: checked again and made live, or abandoned. -/
def commitAt (s : State) (b : Nat) : State :=
  match s.pp.commit with
  | none => s
  | some c =>
    if b < c.beat then s
    else if c.needsGo && !c.go then commitAborted s c
    else match c.change with
      | .config =>
        if (badShadow s).isSome then commitAborted s c
        else
          let s := configLive (commitDone s c)
          finishId s c.cmd 0 (BitVec.ofNat 64 s.pp.epoch) 0
      | .region op n m policy tree domain base size split =>
        match regionPlan s true op n m policy tree domain base size split with
        | .error _ => commitAborted s c
        | .ok p => if p.slot.isSome && (freeSlot s).isNone then commitAborted s c else regionLive s c p
      | .budget ranks floor =>
        if budgetMax s < floor || (budgetMigrates s ranks floor && (freeSlot s).isNone) then commitAborted s c
        else budgetLive s c ranks floor
      | .policy a b =>
        finishId (saveConfig (setShadow (setLive (setShadow (setLive (commitDone s c) 58 a) 58 a) 59 b) 59 b)) c.cmd 0 0 0

/-- COMMIT_LIVE (R27 step 2, R451): the boundary that ends the present beat. -/
def execCommitLive (s : State) : Host.Outcome State Fault Refusal :=
  .next (if awake s then commitAt s (s.clk.beat + 1) else s)

end Sys2Proof.Machine
end

