-- ==== Sys2Proof/Machine/Check.lean ====
section
/-! DEFINITION. The checks of a command, in the order of R440, for every opcode (R230, R342, R352, R420, R430, R436 to
R469, R586 to R588, R643, R672). -/
namespace Sys2Proof.Machine

/-! ### Failures and tables -/

/-- A completion that a failed check gives. -/
structure Fail where
  status : Nat
  detail : Nat := 0
  a : Reg := 0
  b : Reg := 0
  deriving DecidableEq, Repr

/-- INVALID_FIELD naming an offset (R672). -/
def badField (off : Nat) : Option Fail := some { status := 2, detail := off }
def busyFail : Option Fail := some { status := 6 }
/-- The failure of a field that has to satisfy a condition. -/
def need (ok : Bool) (off : Nat) : Option Fail := if ok then none else badField off
/-- BUSY where a conflict stands. -/
def unlessBusy (busy : Bool) : Option Fail := if busy then busyFail else none

/-- The opcodes of R449. -/
def opcodes : List Nat :=
  [0x0001, 0x0002, 0x0100, 0x0101, 0x0110, 0x0200, 0x0210, 0x0211, 0x0300, 0x0301, 0x0400, 0x0500, 0x0501, 0x0502, 0x0600,
    0x0601, 0x0602, 0x0603, 0x0604] ++
  [0x0610, 0x0611, 0x0700, 0x0701, 0x0800, 0x0801, 0x0802, 0x0810, 0x0820, 0x0900, 0x0901, 0x0902, 0x0A00, 0x0B00, 0x0B01,
    0x0C00, 0x0D00, 0x0D01]

/-- Background commands (R449). -/
def background (op : Nat) : Bool :=
  op ∈ [0x0110, 0x0200, 0x0210, 0x0211, 0x0300, 0x0301, 0x0400, 0x0610, 0x0611, 0x0A00]
/-- Token commands (R446, R449). -/
def tokenRule (op : Nat) : Bool := op ∈ [0x0100, 0x0502, 0x0600, 0x0601, 0x0610, 0x0611]
/-- Commands that take a named beat (R448). -/
def namesBeat (op : Nat) : Bool := op ∈ [0x0100, 0x0110, 0x0301, 0x0900]
/-- Commands that the key window admits (R352). -/
def keyCommand (op : Nat) : Bool := op ∈ [0x0600, 0x0601, 0x0602]
/-- Commands of pipe 0 before LOCK, and of any bound pipe until step 11 ends (R430, R449, R643). -/
def earlyCommand (op : Nat) : Bool :=
  op ∈ [0x0001, 0x0002, 0x0500, 0x0501, 0x0502, 0x0600, 0x0601, 0x0602, 0x0603, 0x0604, 0x0700, 0x0701, 0x0800, 0x0801,
    0x0802, 0x0810, 0x0820, 0x0D00]
/-- What pipe 0 runs in a limited start (R634). -/
def limitedCommand (op : Nat) : Bool := op ∈ [0x0001, 0x0002, 0x0701]
/-- Commands with a data buffer (R437). -/
def usesBuffer (op : Nat) : Bool := op ∈ [0x0001, 0x0002, 0x0400, 0x0500, 0x0501, 0x0601, 0x0602, 0x0604, 0x0D00]

/-- Bytes of data buffer that a command needs (R437). -/
def bufferNeed (s : State) (c : Cmd) : Nat :=
  let op := c.op
  if op = 0x0001 || op = 0x0601 || op = 0x0602 || op = 0x0604 then 4096
  else if op = 0x0002 then c.fld 0x28 4
  else if op = 0x0500 then ((keepGet s (c.fld 0x18 4)).map (·.length)).getD 0
  else if op = 0x0501 then (if c.fld 0x1C 4 ≤ 1024 then c.fld 0x1C 4 else 0)
  else if op = 0x0D00 then 8192
  else 0

/-! ### Steps 1 to 4: window, buffer, stage and token (R420, R430, R437, R440, R446, R447, R643) -/

/-- Step 2: the descriptor and the data buffer lie in the pipe's window. -/
def windowFail (s : State) (c : Cmd) : Option Fail :=
  let p := pipe s c.pipe
  if c.desc * 128 < p.base * 4096 || (p.base + p.pages - 1) * 4096 ≤ c.desc * 128 then badField 0
  else if c.fld 6 2 ≠ 0 && p.pages - 1 < c.fld 4 2 + c.fld 6 2 then badField 4
  else if c.fld 6 2 * 4096 < bufferNeed s c || (!usesBuffer c.op && c.fld 6 2 ≠ 0) then badField 6
  else none

/-- Step 3: LOCK, then the startup stage. -/
def stageFail (s : State) (c : Cmd) : Option Fail :=
  if !s.pp.lock && (c.pipe ≠ 0 || !earlyCommand c.op) then badField 0
  else if s.pwr.limited then (if c.pipe = 0 && limitedCommand c.op then none else busyFail)
  else if s.pwr.step < 12 && !earlyCommand c.op then busyFail
  else none

/-- Step 4: the token rule. -/
def tokenFail (s : State) (c : Cmd) : Option Fail :=
  if c.token = 0 then (if tokenRule c.op then badField 8 else none)
  else ((pipe s c.pipe).tokens.find? fun x => x.1 = c.token).map fun x => { status := 0x0B, a := x.2.1, b := x.2.2 }

/-! ### DPA ranges (R445, R449) -/

/-- Pages of a valid region that a range covers. -/
def overlapPages (r : Region) (page n : Nat) : Nat :=
  if r.valid then min (page + n) ((r.base + r.size) * 2 ^ 18) - max page (r.base * 2 ^ 18) else 0

/-- A range is aligned, lies below the capacity and inside valid regions. -/
def rangeOk (s : State) (dpa n : Nat) : Bool :=
  let page := dpa / 4096
  dpa % 4096 = 0 && decide (page + n ≤ s.mp.capGib * 2 ^ 18) &&
    (((List.range 64).map fun k => overlapPages (region s k) page n).sum = n)

/-- Every region that a range touches has READY 1. -/
def rangeReady (s : State) (dpa n : Nat) : Bool :=
  (List.range 64).all fun k => overlapPages (region s k) (dpa / 4096) n = 0 || (region s k).ready

/-- The DPA ranges of a command, as first page and page count (R442). -/
def Cmd.ranges (c : Cmd) : List (Nat × Nat) :=
  let op := c.op
  if op = 0x0200 || op = 0x0210 || op = 0x0300 || op = 0x0400 then [(c.fld 0x18 8 / 4096, c.fld 0x20 8)]
  else if op = 0x0211 then [(c.fld 0x18 8 / 4096, c.fld 0x28 8), (c.fld 0x20 8 / 4096, c.fld 0x28 8)]
  else []

/-- Readiness of the range commands (R445). -/
def rangeFail (s : State) (c : Cmd) : Option Fail :=
  if c.op = 0x0200 && c.fld 0x28 1 = 1 then none
  else if c.ranges.all fun x => rangeReady s (x.1 * 4096) x.2 then none else some { status := 0x0A }

/-! ### Keep store (R460, R585 to R588) -/

def keepReadable (k : Nat) : Bool :=
  decide (1 ≤ k ∧ k ≤ 5) || k = 8 || decide (0x10 ≤ k ∧ k ≤ 0x13) || decide (0x20 ≤ k ∧ k ≤ 0x22) ||
    decide (0x28 ≤ k ∧ k ≤ 0x2B) || k = 0x200 || decide (0x300 ≤ k ∧ k ≤ 0x33F) || decide (0x10000 ≤ k ∧ k ≤ 0x1FFFF)

def keepWritable (s : State) (k : Nat) : Bool :=
  decide (1 ≤ k ∧ k ≤ 3) || (decide (0x10 ≤ k ∧ k ≤ 0x13) && s.ig.keyWindow) || decide (0x10000 ≤ k ∧ k ≤ 0x1FFFF)

/-- Keys and payload bytes of the software records, one key left out. -/
def softwareUse (s : State) (but : Nat) : Nat × Nat :=
  let keys := ((s.kp.recs.map (·.1) ++ s.kp.pendingAppends.map (·.1)).dedup).filter fun k => 0x10000 ≤ k && k ≠ but
  (keys.length, (keys.map fun k => ((keepGet s k).map (·.length)).getD 0).sum)

def wpw (s : State) : Bool := s.kp.mode / 8 % 2 = 1
def rpw (s : State) : Bool := s.kp.mode / 4 % 2 = 1

/-- A password is the current one: with none set, all zeros (R587). -/
def passwordOk (s : State) (p : Nat) : Bool :=
  if s.kp.pwSet then Config.passwordMac (BitVec.ofNat 128 p) = s.kp.pwMac else p = 0

/-- Software keys that BP protects from writes (R587). -/
def bpProtects (s : State) (k : Nat) : Bool :=
  let bp := s.kp.mode % 4
  if bp = 0 then false
  else if bp = 1 then decide (0x1C000 ≤ k ∧ k ≤ 0x1FFFF)
  else if bp = 2 then decide (0x18000 ≤ k ∧ k ≤ 0x1FFFF)
  else true

/-- The keep commands need a part in service (R584). -/
def keepBusy (s : State) : Option Fail := unlessBusy (!keepUp s)

/-- An access that needs the password, and whether it brings the right one (R588). -/
def passwordFail (s : State) (needed : Bool) (p : Nat) : Option Fail :=
  if needed && (s.kp.locked || !passwordOk s p) then some { status := 0x0E } else none

/-! ### Capacity and packages (R342, R466) -/

/-- The map rank set that a capacity command would take: populated ranks with fewer than two lost links. -/
def capacityRanks (s : State) : List Nat := s.mp.pop.filter fun r => decide (lostLinks s r < 2)

/-- SPARE_BS under another capacity (R340, R469). -/
def spareWith (s : State) (cap : Nat) : Int := (totalStripes s : Int) - needStripes cap - reservedStripes s

def capacityOk (s : State) (cap : Nat) : Bool :=
  decide (cap ≤ 4194304) && (s.mp.regions.all fun x => !x.2.valid || decide (x.2.base + x.2.size ≤ cap)) &&
    decide (0 ≤ spareWith s cap) && decide (4 ≤ (capacityRanks s).length)

/-- A rebuild, a migration or an erase runs (R464). -/
def rebuildRuns (s : State) : Bool := s.wr.links.any fun x => x.2.rebuilding || x.2.dieActive
def migrationRuns (s : State) : Bool := s.mp.mig.any fun x => x.2.valid
def eraseRuns (s : State) : Bool := s.ig.erasing.isSome || !s.ig.erasesQueued.isEmpty

/-! ### Steps 5 to 7: parameters in ascending offset, then readiness and conflicts -/

/-- Parameters of a command: offset, size, and the failure of its check. -/
def params (s : State) (c : Cmd) : List (Nat × Nat × Option Fail) :=
  let op := c.op
  let f := c.fld
  let range (dpa n : Nat) (off : Nat) : Option Fail := need (rangeOk s (f dpa 8) (f n 8)) off
  if op = 0x0002 then [(0x18, 4, need (decide (1 ≤ f 0x18 4 ∧ f 0x18 4 ≤ 3)) 0x18), (0x20, 8, none), (0x28, 4, none)]
  else if op = 0x0100 then [(0x18, 8, if f 0x18 8 = s.pp.epoch then none else some { status := 0x0D })]
  else if op = 0x0110 then
    let o := f 0x19 1
    let basic : Bool := decide (f 0x18 1 < 64) && decide (o < 4) && (decide (f 0x1A 1 < 64) || decide (o < 2)) &&
      decide (f 0x1B 1 < 2) && decide (f 0x1C 1 < 2) && decide (f 0x1D 1 < 16)
    let plan : Nat := if !basic then 0 else
      match regionPlan s false o (f 0x18 1) (f 0x1A 1) (f 0x1B 1) (f 0x1C 1 = 1) (f 0x1D 1) (f 0x20 4) (f 0x24 4) (f 0x28 4) with
      | .error d => d
      | .ok _ => 0
    let at' (off : Nat) (ok : Bool) : Nat × Nat × Option Fail := (off, 1, need (ok && plan ≠ off) off)
    [at' 0x18 (f 0x18 1 < 64), at' 0x19 (o < 4), at' 0x1A (f 0x1A 1 < 64 || o < 2), at' 0x1B (f 0x1B 1 < 2),
      at' 0x1C (f 0x1C 1 < 2), at' 0x1D (f 0x1D 1 < 16), (0x20, 4, none), (0x24, 4, none), (0x28, 4, none)]
  else if op = 0x0200 then [(0x18, 8, range 0x18 0x20 0x18), (0x20, 8, none), (0x28, 1, need (f 0x28 1 < 2) 0x28)]
  else if op = 0x0210 || op = 0x0400 then [(0x18, 8, range 0x18 0x20 0x18), (0x20, 8, none)]
  else if op = 0x0211 then [(0x18, 8, range 0x18 0x28 0x18), (0x20, 8, range 0x20 0x28 0x20), (0x28, 8, none)]
  else if op = 0x0300 then [(0x18, 8, range 0x18 0x20 0x18), (0x20, 8, none), (0x28, 1, need (f 0x28 1 < 4) 0x28)]
  else if op = 0x0301 then
    [(0x18, 8, need ((maskRanks (BitVec.ofNat 64 (f 0x18 8))).all fun r => decide (r ∈ s.mp.pop)) 0x18),
      (0x20, 1, need (decide (2 ≤ f 0x20 1 ∧ f 0x20 1 ≤ budgetMax s)) 0x20)]
  else if op = 0x0500 then [(0x18, 4, need (keepReadable (f 0x18 4)) 0x18), (0x20, 16, none)]
  else if op = 0x0501 then
    let k := f 0x18 4
    let n := f 0x1C 4
    let use := softwareUse s k
    [(0x18, 4, need (keepWritable s k && (k < 0x10000 || decide (use.1 < 128))) 0x18),
      (0x1C, 4, need (decide (1 ≤ n ∧ n ≤ 1024) && (k < 0x10000 || decide (use.2 + n ≤ 131072))) 0x1C), (0x20, 16, none)]
  else if op = 0x0502 then
    [(0x18, 1, need (f 0x18 1 < 16) 0x18), (0x20, 16, none),
      (0x30, 16, need (f 0x30 16 ≠ 0 || f 0x18 1 / 4 % 4 = 0) 0x30)]
  else if op = 0x0600 then [(0x18, 1, need (f 0x18 1 < 16) 0x18), (0x19, 1, need (f 0x19 1 < 2) 0x19)]
  else if op = 0x0601 || op = 0x0602 then [(0x18, 1, need (f 0x18 1 < 16) 0x18)]
  else if op = 0x0700 then [(0x18, 8, none)]
  else if op = 0x0800 then
    [(0x18, 1, need (f 0x18 1 < 67) 0x18), (0x19, 1, need (f 0x19 1 < 8) 0x19),
      (0x1C, 4, need (f 0x1C 4 < 2 ^ 24 && selectOk (f 0x18 1) (f 0x1C 2) (f 0x1E 1)) 0x1C), (0x20, 1, need (f 0x20 1 < 2) 0x20)]
  else if op = 0x0801 then [(0x18, 1, need (decide (10 ≤ f 0x18 1 ∧ f 0x18 1 ≤ 30)) 0x18), (0x19, 1, need (f 0x19 1 < 2) 0x19)]
  else if op = 0x0802 then [(0x18, 4, none), (0x1C, 1, need (f 0x1C 1 < 8) 0x1C), (0x1D, 1, need (f 0x1D 1 < 8) 0x1D)]
  else if op = 0x0810 then
    let q := capQ s (f 0x18 1)
    let arg := f 0x20 8
    let t := arg / 2 ^ 32 % 256
    let ok : Bool :=
      if f 0x19 1 = 0 then arg / 32 % 2 ^ 27 = 0 && arg / 2 ^ 40 % 2 ^ 23 = 0 && (t = 0 || decide (10 ≤ t ∧ t ≤ 30))
      else if f 0x19 1 = 1 then arg = 2 ^ 64 - 1 || decide (q.rel ≤ arg ∧ arg ≤ capProd q)
      else true
    [(0x18, 1, need (f 0x18 1 < 8) 0x18), (0x19, 1, need (f 0x19 1 < 4) 0x19), (0x20, 8, need ok 0x20)]
  else if op = 0x0820 then
    let rate := f 0x18 1 = 2
    let limited : Bool := match evClass (f 0x1A 2) with | some k => k ≠ 4 && f 0x1A 2 ≠ 0x32 | none => false
    [(0x18, 1, need (f 0x18 1 < 3) 0x18), (0x1A, 2, need (!rate || limited) 0x1A),
      (0x1C, 4, need (!rate || f 0x1C 4 ≤ 65536) 0x1C), (0x20, 4, need (!rate || decide (1 ≤ f 0x20 4 ∧ f 0x20 4 ≤ 65535)) 0x20)]
  else if op = 0x0900 then [(0x18, 4, none), (0x1C, 4, none), (0x20, 4, none), (0x24, 1, need (f 0x24 1 < 4) 0x24)]
  else if op = 0x0901 then [(0x18, 2, none), (0x1A, 1, need (f 0x1A 1 < 5) 0x1A)]
  else if op = 0x0902 then [(0x18, 1, need (decide (2 ≤ f 0x18 1 ∧ f 0x18 1 ≤ 3)) 0x18)]
  else if op = 0x0A00 then [(0x18, 1, need (f 0x18 1 < 2) 0x18)]
  else if op = 0x0B00 then [(0x18, 2, need (f 0x18 2 < 1152) 0x18), (0x1A, 1, need (f 0x1A 1 < 2) 0x1A)]
  else if op = 0x0B01 then [(0x18, 2, need (f 0x18 2 < 1152) 0x18)]
  else if op = 0x0D01 then [(0x18, 4, need (capacityOk s (f 0x18 4)) 0x18)]
  else []

/-- The first failure among parameters and reserved bytes, in ascending offset (R11, R440 step 6). -/
def scanParams (c : Cmd) (ps : List (Nat × Nat × Option Fail)) : List Nat → Option Fail
  | [] => none
  | o :: os =>
    match ps.find? fun x => x.1 ≤ o && o < x.1 + x.2.1 with
    | some (off, _, some e) => if off = o then some e else scanParams c ps os
    | some (_, _, none) => scanParams c ps os
    | none => if c.fld o 1 ≠ 0 then badField o else scanParams c ps os

/-- The named beat (R448). -/
def beatFail (s : State) (c : Cmd) : Option Fail :=
  if !namesBeat c.op then (if c.beat = 0 then none else badField 0x10)
  else if c.beat = 0 then none
  else if c.beat < c.takenAt + leadMin s then some { status := 7 }
  else if c.takenAt + 2 ^ 32 < c.beat then badField 0x10
  else none

/-- Step 7: readiness and conflicts. -/
def conflictFail (s : State) (c : Cmd) : Option Fail :=
  let op := c.op
  let f := c.fld
  if op = 0x0100 then
    match badShadow s with
    | some id => let r := badShadowResult id; some { status := 2, a := r.1, b := r.2 }
    | none => unlessBusy (commitBusy s)
  else if op = 0x0110 then
    let n := f 0x18 1
    let m := f 0x1A 1
    match regionPlan s false (f 0x19 1) n m (f 0x1B 1) (f 0x1C 1 = 1) (f 0x1D 1) (f 0x20 4) (f 0x24 4) (f 0x28 4) with
    | .error _ => none
    | .ok p =>
      if p.slot.isSome && !((region s n).ready && (f 0x19 1 ≠ 3 || (region s m).ready)) then some { status := 0x0A }
      else unlessBusy (commitBusy s || (region s n).migrating || (2 ≤ f 0x19 1 && (region s m).migrating) ||
        (p.slot.isSome && (freeSlot s).isNone))
  else if op = 0x0211 && (let n := f 0x28 8; decide (f 0x18 8 < f 0x20 8 + 4096 * n) && decide (f 0x20 8 < f 0x18 8 + 4096 * n)) then
    badField 0
  else if op ∈ [0x0200, 0x0210, 0x0211, 0x0300, 0x0400] then rangeFail s c
  else if op = 0x0301 then
    unlessBusy (commitBusy s || (budgetMigrates s (BitVec.ofNat 64 (f 0x18 8)) (f 0x20 1) && (freeSlot s).isNone))
  else if op = 0x0500 then (keepBusy s).or (passwordFail s (rpw s) (f 0x20 16))
  else if op = 0x0501 then
    (keepBusy s).or ((passwordFail s (wpw s) (f 0x20 16)).or (if bpProtects s (f 0x18 4) then some { status := 0x0E } else none))
  else if op = 0x0502 then (keepBusy s).or (passwordFail s true (f 0x20 16))
  else if op = 0x0600 || op = 0x0601 then unlessBusy (s.ig.erasing.isSome && ((f 0x19 1 = 0 && op = 0x0600) || op = 0x0601))
  else if op = 0x0610 || op = 0x0611 then unlessBusy (eraseRuns s)
  else if op = 0x0900 then unlessBusy (commitBusy s)
  else if op = 0x0902 then
    unlessBusy (eraseRuns s || migrationRuns s || rebuildRuns s || (f 0x18 1 = 3 && s.ig.ideActive ≠ 0#2))
  else if op = 0x0B00 then
    let n := f 0x18 2
    if (link s n).state.serves && f 0x1A 1 = 0 && 2 ≤ lostLinks s (n / 18) then some { status := 0x0C } else none
  else none

/-- Steps 5 to 7 of R440. -/
def cmdCheck (s : State) (c : Cmd) : Option Fail :=
  (if keyCommand c.op && !s.ig.keyWindow then some { status := 3 } else none : Option Fail).or
    ((need (c.fld 3 1 = 0) 3).or ((beatFail s c).or
      ((scanParams c (params s c) ((List.range 104).map (0x18 + ·))).or (conflictFail s c))))

/-- Steps 2 to 4, then 5 to 7: everything checked when a command is taken. -/
def takeCheck (s : State) (c : Cmd) : Option Fail :=
  (windowFail s c).or ((stageFail s c).or ((tokenFail s c).or (cmdCheck s c)))

/-- OPCODE and VERSION are recognised (step 1). -/
def knownOpcode (c : Cmd) : Bool := c.op ∈ opcodes && c.fld 2 1 = 1

end Sys2Proof.Machine
end

