-- ==== Sys2Proof/Machine/Take.lean ====
section
/-! DEFINITION. Taking commands from the mouthpieces, the background queue, and what every command shares
(R336, R420, R421, R424, R437, R440 to R445, R588). -/
namespace Sys2Proof.Machine

/-! ### Reading what software wrote (R314, R419, R437) -/

/-- A byte of the arena as firmware reads it: one of an uncorrectable word has no stated value. -/
def arenaByte (s : State) (d a : Nat) : Byte :=
  if a ∈ s.pp.badBytes then BitVec.ofNat 8 ((Config.freeWord d).toNat / 256 ^ (a % 8)) else readByte s a

/-- The descriptor at an arena index. -/
def readDescriptor (s : State) (d desc : Nat) : BitVec 1024 :=
  BitVec.ofNat 1024 (leNat ((List.range 128).map fun i => arenaByte s d (arenaBase + desc * 128 + i)))

/-- Some byte of a span lies in an uncorrectable SRAM word. -/
def spanBad (s : State) (a n : Nat) : Bool := s.pp.badBytes.any fun x => a ≤ x && x < a + n

/-- Bytes of input that a command takes from its data buffer. -/
def inputBytes (c : Cmd) : Nat :=
  if c.op = 0x0501 then c.fld 0x1C 4 else if c.op = 0x0601 || c.op = 0x0602 then 169 else 0

/-- DATA_ERROR of the input data (R314, R439). -/
def inputFail (s : State) (c : Cmd) : Option Fail :=
  if spanBad s (bufAddr s c) (inputBytes c) then some { status := 5 } else none

/-! ### Wrong passwords (R588) -/

/-- A keep-store command that needs the password when its earlier checks have passed. -/
def passwordAsked (s : State) (c : Cmd) : Bool :=
  keepUp s && (c.op = 0x0502 || (c.op = 0x0500 && rpw s) || (c.op = 0x0501 && wpw s))

/-- Consecutive wrong passwords: the eighth locks until reset and raises the lockout event; a right one starts the
count again. -/
def notePassword (s : State) (c : Cmd) : State :=
  if !passwordAsked s c || s.kp.locked then s
  else if passwordOk s (c.fld 0x20 16) then { s with kp := { s.kp with fails := 0 } }
  else
    let s := { s with kp := { s.kp with fails := s.kp.fails + 1 } }
    if 8 ≤ s.kp.fails then raise { s with kp := { s.kp with locked := true } } 0x74 srcKeep 0 0 0 0 else s

/-- The checks that come before the password in R440 have passed. -/
def reachesPassword (s : State) (c : Cmd) : Bool :=
  (windowFail s c).isNone && (stageFail s c).isNone && (tokenFail s c).isNone && (need (c.fld 3 1 = 0) 3).isNone &&
    (beatFail s c).isNone && (scanParams c (params s c) ((List.range 104).map (0x18 + ·))).isNone

/-! ### Taking a command (R420, R424, R440 to R442) -/

/-- Background commands held (R442). -/
def backgroundHeld (s : State) : Nat := (s.pp.cmds.filter fun c => knownOpcode c && background c.op).length

/-- An immediate command of the pipe has not completed (R441). -/
def immediateRuns (s : State) (p : Nat) : Bool := s.pp.cmds.any fun c => c.pipe = p && !(knownOpcode c && background c.op)

/-- Completions that a role holds or still owes (R424, log 34). -/
def roleHolds (s : State) (role : Nat) : Nat :=
  (s.pp.comps.filter fun x => x.role = role).length + (s.pp.cmds.filter fun c => c.role = role).length

/-- The device may be in a state to take commands at all: Run or Idle, with firmware running (R421, R643). -/
def takesCommands (s : State) : Bool := awake s && 10 ≤ s.pwr.step

/-- The checks made when a command is taken: a failed one completes it at once, a background command is queued, an
immediate one is executed next; an opcode that is not recognised has its own row (R440, R441). -/
def takeCommand (s : State) (c : Cmd) (bad : Bool) : State :=
  if bad then finishCmd s c 5 0 0 0
  else if !knownOpcode c then s
  else
    let s := if reachesPassword s c then notePassword s c else s
    match (takeCheck s c).or (inputFail s c) with
    | some e => finishCmd s c e.status e.detail e.a e.b
    | none => updCmd s c.id fun c => { c with phase := if background c.op then .queued else .taken }

/-- MOUTHPIECE_TAKE (R417, R420, R424, R428, R434, R440 to R442). -/
def execMouthpieceTake (p : PipeNo) (c : CoreNo) (s : State) : Host.Outcome State Fault Refusal :=
  .next (
    let x := pipe s p.val
    match x.mouth, servedAs s x.group c.val with
    | some (desc, tag), some role =>
      if !takesCommands s || !x.valid || s.wr.failed.getLsbD c.val || immediateRuns s p.val || 256 ≤ backgroundHeld s ||
          4096 ≤ roleHolds s role then s
      else
        let bad := spanBad s (arenaBase + desc * 128) 128
        let (d, s) := draw s
        let k : Cmd := { id := s.pp.nextId, pipe := p.val, role := role, desc := desc, tag := tag
                         d := readDescriptor s d desc, takenAt := s.clk.beat }
        let s := noteActivity (updPipe s p.val fun x => { x with mouth := none })
        let s := { s with pp := { s.pp with nextId := s.pp.nextId + 1, cmds := s.pp.cmds ++ [k] } }
        let s := count (count s 65 0x202 0xFF 1) 65 0x204 0xFF 1
        takeCommand s k bad
    | _, _ => s)

/-! ### Running a command -/

/-- The first command of a pipe with an opcode that is to be executed now. -/
def nextCmd (s : State) (p : Nat) (which : Cmd → Bool) : Option Cmd :=
  s.pp.cmds.find? fun c => c.pipe = p && knownOpcode c && !c.effectDone && which c &&
    (if c.ranges.isEmpty then (roleCore s c.role).isSome else c.phase = .running)

/-- Execute a pipe's command: its checks of R440 hold in the state that it acts on; a range command had them made when it
was taken and when it started (R440, R441; log 35). -/
def runCmd (s : State) (p : Nat) (which : Cmd → Bool) (act : State → Cmd → State) : State :=
  match nextCmd s p which with
  | none => s
  | some c =>
    if !awake s then s
    else if !c.ranges.isEmpty then act s c
    else match cmdCheck s c with
      | some e => finishCmd s c e.status e.detail e.a e.b
      | none => act s c

/-- The command's effect has begun and its completion waits for something else. -/
def holdCmd (s : State) (c : Cmd) : State := updCmd s c.id fun c => { c with effectDone := true }

/-- SUCCESS with results. -/
def succeed (s : State) (c : Cmd) (a b : Nat) : State := finishCmd s c 0 0 (BitVec.ofNat 64 a) (BitVec.ofNat 64 b)

/-- Write output data into the command's data buffer, as far as it reaches (R437). -/
def outputData (s : State) (c : Cmd) (l : List Byte) : State := writeBytes s (bufAddr s c) (l.take (c.fld 6 2 * 4096))

/-- The input data of a command. -/
def inputData (s : State) (c : Cmd) (n : Nat) : List Byte := readBytes s (bufAddr s c) n

/-- UNKNOWN_OPCODE (R440 step 1, R449). -/
def execUnknownOpcode (p : PipeNo) (s : State) : Host.Outcome State Fault Refusal :=
  .next (match s.pp.cmds.find? fun c => c.pipe = p.val && !knownOpcode c with
    | some c => if awake s && (roleCore s c.role).isSome then finishCmd s c 1 0 0 0 else s
    | none => s)

/-! ### The background queue (R441, R442, R445) -/

/-- Two page ranges share a page. -/
def rangesMeet (a b : Nat × Nat) : Bool := decide (a.1 < b.1 + b.2) && decide (b.1 < a.1 + a.2)

/-- A queued command overlaps one that was taken before it and still runs or waits (R442). -/
def waitsBehind (c : Cmd) (earlier : List Cmd) : Bool :=
  earlier.any fun d => knownOpcode d && background d.op && c.ranges.any fun x => d.ranges.any fun y => rangesMeet x y

/-- The first queued command of a pipe that waits behind none. -/
def startable (p : Nat) : List Cmd → List Cmd → Option Cmd
  | [], _ => none
  | c :: cs, earlier =>
    if c.pipe = p && c.phase = .queued && knownOpcode c && !waitsBehind c earlier then some c else startable p cs (earlier ++ [c])

/-- Pages of a range whose content the device knows of: an entry or a saggar line. -/
def contentPages (s : State) (x : Nat × Nat) : List Nat :=
  sortBy (· ≤ ·) (((knownPages s ++ s.sag.lines.map fun l : Nat × Option SagLine => l.1 / 64).filter fun p => x.1 ≤ p && p < x.1 + x.2).dedup)

/-- The pages that a command has to act on; a page with neither entry nor line is already what DISCARD and ZERO make of
it and holds nothing that SCAN could find. -/
def workPages (s : State) (c : Cmd) : List Nat :=
  match c.ranges with
  | [] => []
  | x :: _ =>
    if c.op = 0x0211 || c.op = 0x0300 then (List.range x.2).map (x.1 + ·) else contentPages s x

/-- Links of populated ranks that are out of service, which a secure discard counts from its start (R513 m). -/
def linksOut (s : State) : List Nat :=
  (s.mp.pop.map fun r => (rankLinks r).filter fun n => !(link s n).state.serves).flatten

/-- An erase that runs covers a domain of the command's range (R444, R513 d). -/
def eraseMeets (s : State) (c : Cmd) : Bool :=
  c.ranges.any fun x => (List.range 64).any fun k =>
    overlapPages (region s k) x.1 x.2 ≠ 0 && eraseCovers s (region s k).domain

/-- BACKGROUND_COMMAND_START (R441, R442, R445). -/
def execBackgroundCommandStart (p : PipeNo) (s : State) : Host.Outcome State Fault Refusal :=
  .next (match startable p.val s.pp.cmds [] with
    | none => s
    | some c =>
      let secure := c.op = 0x0200 && c.fld 0x28 1 = 1
      if !awake s then s
      else match rangeFail s c with
        | some e => finishCmd s c e.status e.detail e.a e.b
        | none =>
          if eraseMeets s c then finishCmd s c 15 0 0 0
          else updCmd s c.id fun c => { c with
            phase := .running, todo := workPages s c, range := c.ranges.headD (0, 0), found := if secure then linksOut s else [] })

end Sys2Proof.Machine
end

