-- ==== Sys2Proof/Machine/Ranges.lean ====
section
/-! DEFINITION. The range commands: discard, zero, copy, hints and scan, page by page (R129, R130, R203, R213, R229,
R230, R260, R305, R310, R443 to R445, R455 to R459). -/
namespace Sys2Proof.Machine

/-! ### What one page's action point does -/

/-- The lines of a page that the saggar holds. -/
def linesOf (s : State) (page : Nat) : List (Nat × SagLine) :=
  (List.range 64).filterMap fun i => (sagLine s page i).map fun l => (i, l)

/-- A drain of the page finishes before an action point (R456), and so does a fill that reads wait for (R443); a
secure discard has the page to itself (R213). -/
def pageWaits (s : State) (page : Nat) : Bool :=
  inDrain s page || inSecure s page || (linesOf s page).any fun x => x.2.fill

/-- The page's saggar lines hold only writes admitted before the action point, and are discarded (R456). -/
def dropLines (s : State) (page : Nat) : State :=
  (linesOf s page).foldl (fun s x => setSagLine s page x.1 none) s

/-- A plain discard's action point (R130, R456). -/
def discardPage (s : State) (page : Nat) : Option State :=
  let s := fetchSeg s page
  match entry? s page with
  | none => none
  | some e =>
    if pageWaits s page then none
    else
      let s := dropLines s page
      match e.state with
      | .unmapped => some (poisonLeavePage s page)
      | .discardPending => some s
      | _ =>
        let s := setEntry s page { e with state := .discardPending }
        some { s with pl := { s.pl with dropsDue := addNew s.pl.dropsDue page } }

/-- ZERO's action point (R310, R456). -/
def zeroPage (s : State) (page : Nat) : Option State :=
  let s := fetchSeg s page
  match entry? s page with
  | none => none
  | some _ =>
    if pageWaits s page then none
    else
      let s := unmapPage (poisonLeavePage (dropLines s page) page) page .unmapped
      some { s with pl := { s.pl with dropsDue := s.pl.dropsDue.filter (· ≠ page) } }

/-- A secure discard starts: SECURE is set (R260 step 1), and a standing seal is cancelled (R541). -/
def securePage (s : State) (page cmd : Nat) : Option State :=
  let s := fetchSeg s page
  match entry? s page with
  | none => none
  | some e =>
    if inDrain s page || inFiring s page || inSecure s page || page ∈ s.pl.relocating then none
    else
      let s := setEntry (cancelSeal s) page { e with secure := true }
      some { s with pl := { s.pl with
        secure := s.pl.secure ++ [{ page := page, step := 1, admittedBefore := s.clk.beat, cmd := cmd }] } }

/-- A line as a host read would return it: data and poison (R168, R456). -/
def hostLine (s : State) (page line : Nat) : (LineData × Bool) × State :=
  match sagLine s page line with
  | some l => (if l.poison then (0, true) else (l.data, false), s)
  | none =>
    let e := entryNow s page
    if e.secure then ((0, false), s)
    else
      let (d, s) := draw s
      if e.state = .discardPending && !Config.discardReadsOld d then ((0, false), s)
      else match lineSource e line true with
        | .zeros => ((0, false), s)
        | .poison => ((0, true), s)
        | .media slot _ =>
          if parked s (slotRank slot) || 3 ≤ lostLinks s (slotRank slot) then ((0, true), s)
          else (currentLine s e page line, s)

/-- COPY's action point for one page, its source and destination at once (R456). -/
def copyPages (s : State) (src dst : Nat) : Option State :=
  let s := fetchSeg (fetchSeg s src) dst
  if (entry? s src).isNone || (entry? s dst).isNone || ((linesOf s src).any fun x => x.2.fill) || poolFree s < 64 then none
  else
    let s := cancelSeal s
    let domain := (pageAttrs s dst (entryNow s dst)).2
    some ((List.range 64).foldl (fun s i =>
      let (v, s) := hostLine s src i
      saggarWrite s dst i (BitVec.allOnes 64) v.1 v.2 domain) s)

/-- The rank whose bisque a page takes or would take (R230, R234). -/
def pinRank (s : State) (page : Nat) : Nat := (chargeRank (entryNow s page)).getD (popRank s page)

/-- Pinned pages on a rank. -/
def pinnedOn (s : State) (r : Nat) : Nat :=
  ((knownPages s).dedup.filter fun p => (entryNow s p).pin && pinRank s p = r).length

/-- The pinned pages of a rank occupy less than half of BUDGET_MAX percent of its block stripes (R230). That a stripe counts for its
usable bisque slots is the model's choice (log 100). -/
def pinRoom (s : State) (r : Nat) : Bool := decide (pinnedOn s r * 200 < budgetMax s * 81920 * stampWl)

/-- A hint on one page (R229): 0 HOT, 1 COLD, 2 PIN, 3 UNPIN; a PIN needs room (R230). -/
def hintPage (s : State) (page kind : Nat) : Option State :=
  let s := fetchSeg s page
  match entry? s page with
  | none => none
  | some e =>
    if kind = 0 then some (setEntry s page (setHeat s.pl.heatEpoch 4095 e))
    else if kind = 1 then some (setEntry s page { e with heatCount := 0 })
    else if kind = 3 then some (setEntry s page { e with pin := false })
    else
      let s := setEntry s page { e with pin := true }
      if e.state = .glaze || e.state = .split then
        some { s with pl := { s.pl with refreshes := addNew s.pl.refreshes page } }
      else some s

/-- The slots of a page. -/
def pageSlots (e : MapEntry) : List (Nat × Bool) :=
  (if e.bisqueHome ≠ none40 then [(e.bisqueHome, true)] else []) ++ if e.glazeHome ≠ none40 then [(e.glazeHome, false)] else []

/-- The checks of R303 on every slot of one page, and its lines found poisoned, which enter the poison list (R305, R306,
R459). A slot of a rank that cannot be read is passed over. -/
def scanPage (s : State) (page : Nat) : State × List Nat :=
  let s := fetchSeg s page
  let s := (pageSlots (entryNow s page)).foldl (fun s h =>
    if parked s (slotRank h.1) || 3 ≤ lostLinks s (slotRank h.1) then s
    else (List.range 4).foldl (fun s u => scrubGroup s h.1 page h.2 [] u) s) s
  let e := entryNow s page
  let bad := (List.range 64).filter fun i => match sagLine s page i with
    | some l => l.poison
    | none => !e.secure && (currentLine s e page i).2
  let dpas := bad.map (dpaOf page)
  (dpas.foldl (fun s d => poisonEnter s d .internal) s, dpas)

/-! ### Acting on the pages of a command -/

/-- A page's action point has passed. -/
def pageDone (s : State) (c : Cmd) (page : Nat) (wait : Bool) (found : List Nat) : State :=
  updCmd s c.id fun c => { c with
    todo := c.todo.filter (· ≠ page), donePages := c.donePages + 1
    waiting := if wait then addNew c.waiting page else c.waiting, found := c.found ++ found }

/-- The command as it stands now. -/
def cmdNow (s : State) (id : Nat) : Option Cmd := s.pp.cmds.find? fun c => c.id = id

/-- A PIN hint has met the limit: the command ends at its first page without room (R457). -/
def pinFull (s : State) (c : Cmd) (page : Nat) : Bool :=
  c.op = 0x0300 && c.fld 0x28 1 = 2 && !(entryNow s page).pin && !pinRoom s (pinRank s page)

/-- Act on one page of a running range command, when it may be acted on now (R443). A PIN takes its pages in order. -/
def actOn (s : State) (c : Cmd) (page : Nat) : State :=
  let op := c.op
  if page ∉ c.todo then s
  else
    let take (t : Option State) (wait : Bool) : State := match t with | some t => pageDone t c page wait [] | none => s
    if op = 0x0200 then
      (if c.fld 0x28 1 = 1 then take (securePage s page c.id) true else take (discardPage s page) false)
    else if op = 0x0210 then take (zeroPage s page) true
    else if op = 0x0211 then take (copyPages s page (page - c.fld 0x18 8 / 4096 + c.fld 0x20 8 / 4096)) false
    else if op = 0x0300 then
      (if c.fld 0x28 1 = 2 && c.todo.head? ≠ some page then s
       else if pinFull s c page then finishCmd s c 9 0 (BitVec.ofNat 64 c.donePages) 0
       else take (hintPage s page (c.fld 0x28 1)) false)
    else if op = 0x0400 then
      let x := scanPage s page
      pageDone x.1 c page false x.2
    else s

/-- What a page's action still waits for: a durable map change (R456), or the end of its secure discard (R260). -/
def stillWaits (s : State) (c : Cmd) (page : Nat) : Bool :=
  if c.op = 0x0200 then inSecure s page else !lineDurable s (mapLineOf page)

/-- The end of a SCAN (R459). -/
def finishScan (s : State) (c : Cmd) : State :=
  let room := c.fld 6 2 * 512
  let n := min c.found.length room
  let s := outputData s c ((c.found.take n).map (leBytes 8)).flatten
  succeed s c c.found.length (n + if room < c.found.length then 2 ^ 63 else 0)

/-- A range command completes when it has acted on every page and nothing is waited for (R456). -/
def settleRange (s : State) (id : Nat) : State :=
  match cmdNow s id with
  | none => s
  | some c =>
    let w := c.waiting.filter (stillWaits s c)
    if !c.todo.isEmpty || !w.isEmpty then updCmd s id fun c => { c with waiting := w }
    else if c.op = 0x0400 then finishScan s c
    else if c.op = 0x0300 then succeed s c 0 0
    else if c.op = 0x0200 && c.fld 0x28 1 = 1 then succeed s c c.range.2 c.found.length
    else succeed s c c.range.2 0

/-- Act on every page of a range command that may be acted on now, then complete it when that was all. -/
def runRange (s : State) (p : Nat) (which : Cmd → Bool) : State :=
  runCmd s p which fun s c =>
    settleRange (c.todo.foldl (fun s page => match cmdNow s c.id with | some c => actOn s c page | none => s) s) c.id

/-! ### The commands -/

/-- DISCARD, plain (R456). -/
def execDiscard (p : PipeNo) (s : State) : Host.Outcome State Fault Refusal :=
  .next (runRange s p.val fun c => c.op = 0x0200 && c.fld 0x28 1 = 0)

/-- DISCARD, secure (R260, R456). -/
def execDiscardSecure (p : PipeNo) (s : State) : Host.Outcome State Fault Refusal :=
  .next (runRange s p.val fun c => c.op = 0x0200 && c.fld 0x28 1 = 1)

/-- ZERO (R456). -/
def execZero (p : PipeNo) (s : State) : Host.Outcome State Fault Refusal := .next (runRange s p.val fun c => c.op = 0x0210)

/-- COPY (R455, R456). -/
def execCopy (p : PipeNo) (s : State) : Host.Outcome State Fault Refusal := .next (runRange s p.val fun c => c.op = 0x0211)

/-- A hint of one kind. -/
def runHint (s : State) (p kind : Nat) : State := runRange s p fun c => c.op = 0x0300 && c.fld 0x28 1 = kind

/-- HINT HOT (R229). -/
def execHintHot (p : PipeNo) (s : State) : Host.Outcome State Fault Refusal := .next (runHint s p.val 0)
/-- HINT COLD (R229). -/
def execHintCold (p : PipeNo) (s : State) : Host.Outcome State Fault Refusal := .next (runHint s p.val 1)
/-- HINT PIN (R229, R230, R457). -/
def execHintPin (p : PipeNo) (s : State) : Host.Outcome State Fault Refusal := .next (runHint s p.val 2)
/-- HINT UNPIN (R229). -/
def execHintUnpin (p : PipeNo) (s : State) : Host.Outcome State Fault Refusal := .next (runHint s p.val 3)

/-- SCAN (R305, R459). -/
def execScan (p : PipeNo) (s : State) : Host.Outcome State Fault Refusal := .next (runRange s p.val fun c => c.op = 0x0400)

/-- A scan of the whole capacity rebuilds the poison list from what it found, each line under the source it was entered
with, and clears the overflow flag (R312). -/
def rebuildPoison (s : State) : State :=
  let old := s.ecc.poison
  let src (d : Nat) : PoisonSource := ((old.find? fun r => r.dpa ≤ d && d < r.dpa + 64 * r.lines).map (·.source)).getD .internal
  let s := { s with ecc := { s.ecc with poison := [], poisonOvf := false, poisonOvfTime := 0 } }
  s.hl.scanFound.foldl (fun s d => poisonEnter s d (src d)) s

/-- The mailbox's background scan has visited its last page (R305, R409, R414). -/
def endScan (s : State) : State :=
  let s := if s.hl.scanRange = some (0, s.mp.capGib * 2 ^ 18) then rebuildPoison s else s
  signalVector { s with hl := { s.hl with scanDone := true, mboxBusy := none, reply := { s.hl.reply with code := 0 } } } 0

/-- One page of a mailbox scan (R305). -/
def mailboxScanPage (s : State) (page : Nat) : State :=
  let x := scanPage s page
  let s := x.1
  let rest := s.hl.scanPages.filter (· ≠ page)
  let s := { s with hl := { s.hl with scanPages := rest, scanFound := s.hl.scanFound ++ x.2 } }
  if rest.isEmpty then endScan s else s

/-- RANGE_ACTION_POINT (R443): one page of a pipe's running range command, or of the mailbox's scan. -/
def execRangeActionPoint (p : PipeNo) (page : Nat) (s : State) : Host.Outcome State Fault Refusal :=
  .next (
    if !awake s then s
    else match nextCmd s p.val fun c => page ∈ c.todo with
      | some c => actOn s c page
      | none => if page ∈ s.hl.scanPages then mailboxScanPage s page else s)

end Sys2Proof.Machine
end

