-- ==== Sys2Proof/Machine/Cmds.lean ====
section
/-! DEFINITION. Identification, logs, configuration, regions, budget, keep store, time, telemetry, power, package and
capacity commands (R342, R343, R345, R385, R449 to R469, R511, R546, R569, R585 to R589, R595 to R614). -/
namespace Sys2Proof.Machine

/-! ### Identify and logs (R345, R449, R450, R601) -/

/-- The populated rank mask. -/
def rankMask (l : List Nat) : Nat := (l.map fun r => 2 ^ r).sum

/-- The 64 bytes of IDENTIFY. -/
def identifyData (s : State) : List Byte :=
  [0x41#8, 0x31#8] ++ leBytes 2 0x0104 ++ leBytes 4 1 ++ leBytes 4 s.mp.capGib ++ leBytes 2 32768 ++ leBytes 1 64 ++ leBytes 1 16 ++
    leBytes 1 67 ++ leBytes 1 s.mp.pop.length ++ leBytes 2 0 ++ leBytes 4 s.pp.epoch ++ leBytes 8 (rankMask s.mp.pop) ++
    leBytes 8 s.clk.beat ++ leBytes 8 Config.dieSerial.toNat ++ List.replicate 16 0

/-- Vendor log 3: CRITS and the 64 critical records, oldest first. -/
def critLog (s : State) : List Byte :=
  leBytes 8 s.kp.crits ++ List.replicate 8 0 ++ ((List.range 64).map fun i =>
    ((keepGet s (0x300 + (s.kp.crits + i) % 64)).getD (List.replicate 32 0))).flatten

/-- A vendor log by its LOG_ID. -/
def vendorLog (s : State) (id : Nat) : List Byte :=
  if id = 1 then wearLog s else if id = 2 then s.pwr.report else critLog s

/-- IDENTIFY (R449). -/
def execIdentify (p : PipeNo) (s : State) : Host.Outcome State Fault Refusal :=
  .next (runCmd s p.val (fun c => c.op = 0x0001) fun s c => succeed (outputData s c (identifyData s)) c s.pp.epoch 0)

/-- `n` bytes of a log from an offset; bytes past its end read as 0 (R449). -/
def logPiece (l : List Byte) (off n : Nat) : List Byte := (List.range n).map fun i => l.getD (off + i) 0

/-- GET_LOG (R449, R450). -/
def execGetLog (p : PipeNo) (s : State) : Host.Outcome State Fault Refusal :=
  .next (runCmd s p.val (fun c => c.op = 0x0002) fun s c =>
    let l := vendorLog s (c.fld 0x18 4)
    let off := c.fld 0x20 8
    let n := c.fld 0x28 4
    succeed (outputData s c (logPiece l off n)) c (min n (l.length - off)) l.length)

/-! ### The commands of the pending commit (R451 to R454, R458, R464) -/

/-- CONFIG_COMMIT (R451). -/
def execConfigCommit (p : PipeNo) (s : State) : Host.Outcome State Fault Refusal :=
  .next (runCmd s p.val (fun c => c.op = 0x0100) fun s c => takeCommit (holdCmd s c) c .config)

/-- CONFIG_DISCARD (R451): every live value goes back into its shadow. -/
def execConfigDiscard (p : PipeNo) (s : State) : Host.Outcome State Fault Refusal :=
  .next (runCmd s p.val (fun c => c.op = 0x0101) fun s c =>
    succeed (cfgIds.foldl (fun s id => setShadow s id (cfg s id)) s) c s.pp.epoch 0)

/-- The region change that a descriptor names (R452). -/
def regionChange (c : Cmd) : Change :=
  .region (c.fld 0x19 1) (c.fld 0x18 1) (c.fld 0x1A 1) (c.fld 0x1B 1) (c.fld 0x1C 1 = 1) (c.fld 0x1D 1) (c.fld 0x20 4)
    (c.fld 0x24 4) (c.fld 0x28 4)

/-- REGION_DEFINE of one operation holds the pending commit until its named beat (R451 to R454). -/
def runRegion (s : State) (p op : Nat) : State :=
  runCmd s p (fun c => c.op = 0x0110 && c.fld 0x19 1 = op) fun s c => takeCommit (holdCmd s c) c (regionChange c)

/-- REGION_DEFINE, define (R453). -/
def execRegionDefine (p : PipeNo) (s : State) : Host.Outcome State Fault Refusal := .next (runRegion s p.val 0)
/-- REGION_DEFINE, invalidate (R453). -/
def execRegionInvalidate (p : PipeNo) (s : State) : Host.Outcome State Fault Refusal := .next (runRegion s p.val 1)
/-- REGION_DEFINE, split (R453). -/
def execRegionSplit (p : PipeNo) (s : State) : Host.Outcome State Fault Refusal := .next (runRegion s p.val 2)
/-- REGION_DEFINE, merge (R453). -/
def execRegionMerge (p : PipeNo) (s : State) : Host.Outcome State Fault Refusal := .next (runRegion s p.val 3)

/-- BUDGET (R458, R511). -/
def execBudget (p : PipeNo) (s : State) : Host.Outcome State Fault Refusal :=
  .next (runCmd s p.val (fun c => c.op = 0x0301) fun s c =>
    takeCommit (holdCmd s c) c (.budget (BitVec.ofNat 64 (c.fld 0x18 8)) (c.fld 0x20 1)))

/-- POWER_POLICY (R464): the timers and enables in the layout of PWRS_POLICY_A and PWRS_POLICY_B. -/
def execPowerPolicy (p : PipeNo) (s : State) : Host.Outcome State Fault Refusal :=
  .next (runCmd s p.val (fun c => c.op = 0x0900) fun s c =>
    let a : Reg := BitVec.ofNat 64 (c.fld 0x1C 4 * 2 ^ 32 + c.fld 0x18 4)
    let b : Reg := BitVec.ofNat 64 (c.fld 0x24 1 * 2 ^ 32 + c.fld 0x20 4)
    takeCommit (holdCmd s c) c (.policy a b))

/-! ### Keep store (R460, R565, R587, R589) -/

/-- KEEP_READ (R460, R589): waits for a compaction that runs; a key without a record has length 0 (log 36). -/
def execKeepRead (p : PipeNo) (s : State) : Host.Outcome State Fault Refusal :=
  .next (runCmd s p.val (fun c => c.op = 0x0500) fun s c =>
    if s.kp.compacting then s
    else match tget none s.kp.recs (c.fld 0x18 4) with
      | some r =>
        let s := { s with kp := { s.kp with port := [s.kp.fastRead (s.kp.pri ≠ .serving) (r.sector * 4096 + r.unit * 18)] } }
        succeed (outputData s c r.payload) c r.payload.length r.seq
      | none => succeed s c 0 0)

/-- KEEP_WRITE (R460, R565, R589): RTC_TRIM is applied when written; the command completes with its append, or with the
compaction that it set off. -/
def execKeepWrite (p : PipeNo) (s : State) : Host.Outcome State Fault Refusal :=
  .next (runCmd s p.val (fun c => c.op = 0x0501) fun s c =>
    let key := c.fld 0x18 4
    let data := inputData s c (c.fld 0x1C 4)
    let s := if key = 3 then { s with clk := { s.clk with trim := (data.headD 0).toInt } } else s
    let s := keepPut s key data
    if s.kp.compacting then holdCmd s c else succeed s c 0 0)

/-- KEEP_PROTECT (R587): the MODE and the password, kept as their record. -/
def execKeepProtect (p : PipeNo) (s : State) : Host.Outcome State Fault Refusal :=
  .next (runCmd s p.val (fun c => c.op = 0x0502) fun s c =>
    let mode := c.fld 0x18 1
    let set := c.fld 0x30 16 ≠ 0
    let mac : BitVec 128 := if set then Config.passwordMac (BitVec.ofNat 128 (c.fld 0x30 16)) else 0
    let s := { s with kp := { s.kp with mode := mode, pwSet := set, pwMac := mac } }
    succeed (keepPut s 7 (leBytes 1 mode ++ leBytes 16 mac.toNat)) c 0 0)

/-! ### Time (R24, R462, R569, R570) -/

/-- The calendar count in beats (R622). -/
def ownCount (s : State) : Int := (s.clk.seconds * 16000000 + s.clk.inSecond : Nat)

/-- D of R622: the time leader's count minus the own count, from its latest status. -/
def leaderDiff (s : State) : Int :=
  match tget none s.cn.peers s.cn.timeLeader with
  | some x => x.count + ((s.clk.beat - tget 0 s.cn.heard s.cn.timeLeader : Nat) : Int) - ownCount s
  | none => 0

/-- This device follows another member's host time (R623). -/
def followsTime (s : State) : Bool := s.cn.joined && s.cn.timeLeader ≠ s.cn.pos

/-- A signed 64-bit value. -/
def wrap64 (x : Int) : Int := (BitVec.ofInt 64 x).toInt

/-- Host time is set from a CXL timestamp (R569); on a follower the leader's OFFSET and TVALID are set, and the own ones
follow them (R623). -/
def setHostTime (s : State) (ts : Nat) : State :=
  let base : Int := (s.clk.seconds : Int) * 10 ^ 9 + ((s.clk.subsec * 1953125 / 64 : Nat) : Int)
  if followsTime s then
    let lead := wrap64 ((ts : Int) - base - Int.tdiv (leaderDiff s * 125) 2)
    let l := s.cn.timeLeader
    { s with
      clk := { s.clk with offset := wrap64 (lead + Int.tdiv (s.cn.slew * 125) 2), tvalid := true }
      cn := { s.cn with peers := tupd none s.cn.peers l fun x => x.map fun x => { x with offset := lead, tvalid := true } } }
  else { s with clk := { s.clk with offset := wrap64 ((ts : Int) - base), tvalid := true } }

/-- TIME_SET (R569). -/
def execTimeSet (p : PipeNo) (s : State) : Host.Outcome State Fault Refusal :=
  .next (runCmd s p.val (fun c => c.op = 0x0700) fun s c => succeed (setHostTime s (c.fld 0x18 8)) c 0 0)

/-- TIME_GET (R569, R570). -/
def execTimeGet (p : PipeNo) (s : State) : Host.Outcome State Fault Refusal :=
  .next (runCmd s p.val (fun c => c.op = 0x0701) fun s c =>
    finishCmd s c 0 0 (BitVec.ofNat 64 (stampNow s + if s.clk.cont then 2 ^ 63 else 0)) (BitVec.ofInt 64 (hostTime s)))

/-! ### Telemetry and events (R463, R595, R599, R606, R610, R613, R614) -/

/-- COUNTER_PROGRAM (R610): the select and the clear wait for the next boundary. -/
def execCounterProgram (p : PipeNo) (s : State) : Host.Outcome State Fault Refusal :=
  .next (runCmd s p.val (fun c => c.op = 0x0800) fun s c =>
    succeed (updMon s (c.fld 0x18 1) fun m => { m with
      next := m.next ++ [(c.fld 0x19 1, some (c.fld 0x1C 2, c.fld 0x1E 1), decide (c.fld 0x20 1 = 1))] }) c 0 0)

/-- DUMP_SET (R614): from the next dump boundary. -/
def execDumpSet (p : PipeNo) (s : State) : Host.Outcome State Fault Refusal :=
  .next (runCmd s p.val (fun c => c.op = 0x0801) fun s c =>
    succeed { s with ev := { s.ev with dumpNext := some (c.fld 0x18 1, c.fld 0x19 1 = 1) } } c 0 0)

/-- SAMPLE_SET (R613): from the next boundary. -/
def execSampleSet (p : PipeNo) (s : State) : Host.Outcome State Fault Refusal :=
  .next (runCmd s p.val (fun c => c.op = 0x0802) fun s c =>
    succeed { s with hq := { s.hq with sampleNext := some (c.fld 0x18 4, c.fld 0x1C 1, c.fld 0x1D 1) } } c 0 0)

/-- CAPTURE_CTRL of one operation. -/
def runCapture (s : State) (p op : Nat) (act : State → Cmd → State) : State :=
  runCmd s p (fun c => c.op = 0x0810 && c.fld 0x19 1 = op) act

/-- CAPTURE_CTRL sources (R606). -/
def execCaptureSources (p : PipeNo) (s : State) : Host.Outcome State Fault Refusal :=
  .next (runCapture s p.val 0 fun s c =>
    let q := c.fld 0x18 1
    let arg := c.fld 0x20 8
    let s := updCapQ s q fun x => { x with classes := BitVec.ofNat 5 arg, timeout := arg / 2 ^ 32 % 256 }
    succeed (if 2 ^ 63 ≤ arg then packetClose s q 2 else s) c 0 0)

/-- CAPTURE_CTRL mark (R606): all ones clears it. -/
def execCaptureMark (p : PipeNo) (s : State) : Host.Outcome State Fault Refusal :=
  .next (runCapture s p.val 1 fun s c =>
    let arg := c.fld 0x20 8
    succeed (updCapQ s (c.fld 0x18 1) fun x => { x with mark := if arg = 2 ^ 64 - 1 then none else some arg }) c 0 0)

/-- CAPTURE_CTRL rewind (R606): the mark, or REL without one; the vector again if a closed packet waits there. -/
def execCaptureRewind (p : PipeNo) (s : State) : Host.Outcome State Fault Refusal :=
  .next (runCapture s p.val 2 fun s c =>
    let q := c.fld 0x18 1
    let at' := (capQ s q).mark.getD (capQ s q).rel
    succeed (if at' < (capQ s q).prod then signalVector s (4 + q) else s) c at' 0)

/-- CAPTURE_CTRL release (R606). -/
def execCaptureRelease (p : PipeNo) (s : State) : Host.Outcome State Fault Refusal :=
  .next (runCapture s p.val 3 fun s c =>
    succeed (updCapQ s (c.fld 0x18 1) fun x =>
      let upTo := min (c.fld 0x20 8) (capProd x)
      let upTo := match x.mark with | some m => min upTo m | none => upTo
      { x with rel := max x.rel upTo }) c 0 0)

/-- EVENT_CTRL of one operation. -/
def runEventCtrl (s : State) (p op : Nat) (act : State → Cmd → State) : State :=
  runCmd s p (fun c => c.op = 0x0820 && c.fld 0x18 1 = op) act

/-- EVENT_CTRL freeze (R599). -/
def execEventFreeze (p : PipeNo) (s : State) : Host.Outcome State Fault Refusal :=
  .next (runEventCtrl s p.val 0 fun s c =>
    succeed (if s.ev.frozen then s else { s with ev := { s.ev with frozen := true, frozenCount := 0, freezeAt := s.clk.beat } })
      c 0 0)

/-- EVENT_CTRL thaw (R463, R599). -/
def execEventThaw (p : PipeNo) (s : State) : Host.Outcome State Fault Refusal :=
  .next (runEventCtrl s p.val 1 fun s c => succeed (thaw s) c (if s.ev.frozen then s.ev.frozenCount else 0) 0)

/-- EVENT_CTRL rate (R595): the bucket is filled to the new BURST. -/
def execEventRate (p : PipeNo) (s : State) : Host.Outcome State Fault Refusal :=
  .next (runEventCtrl s p.val 2 fun s c =>
    let burst := c.fld 0x20 4
    succeed (updBucket s (c.fld 0x1A 2) fun b => { b with
      rate := c.fld 0x1C 4, burst := burst, tokens := burst, last := s.clk.beat }) c 0 0)

/-! ### Power and throttling (R464) -/

/-- THROTTLE (R464): a floor on the level of each zone named, from the next round. -/
def execThrottle (p : PipeNo) (s : State) : Host.Outcome State Fault Refusal :=
  .next (runCmd s p.val (fun c => c.op = 0x0901) fun s c =>
    let zones := BitVec.ofNat 16 (c.fld 0x18 2)
    succeed (((List.range 16).filter zones.getLsbD).foldl (fun s z =>
      updZone s z fun z => { z with floorNext := c.fld 0x1A 1 }) s) c 0 0)

/-- POWER_ENTER (R464, R518, R625): the request is accepted; in a consort the members agree first. -/
def execPowerEnter (p : PipeNo) (s : State) : Host.Outcome State Fault Refusal :=
  .next (runCmd s p.val (fun c => c.op = 0x0902) fun s c =>
    let asked := some (c.fld 0x18 1)
    if s.cn.joined then
      holdCmd { s with pwr := { s.pwr with asked := asked, askedCmd := some c.id } } c
    else succeed { s with pwr := { s.pwr with asked := asked, askedCmd := none } } c 0 0)

/-! ### Packages, freshness, spares and capacity (R109, R110, R342, R385, R466 to R469) -/

/-- The rebuild onto a link stops and its bitmap is discarded (R466). -/
def dropRebuild (s : State) (n : Nat) : State :=
  updLinkWear s n fun w => { w with rebuilding := false, linkBits := [], allBits := false, changedOut := [] }

/-- A pulse or the verify of a bisque program. -/
def bisqueUnit (u : WorkUnit) : Bool :=
  12 ≤ u.line && match u.prim with | .program _ => true | .verify k => k.val = 1 | _ => false

/-- The place of an entry that was sent, when only bisque programs go on. -/
def bisqueOnly : Entry → Entry
  | .unit u r => if bisqueUnit u then .unit u r else .gone
  | _ => .gone

/-- A link that is being removed keeps only its bisque programs in progress, which run to their verify; its other work returns,
glaze programs and blanking with it (R109). -/
def returnOthers (s : State) (n : Nat) : State :=
  let l := link s n
  let sent := (l.unsure.map (·.2)).flatten ++ l.executed ++ l.executing ++ l.batched
  let ended := (unitsOf sent).filter (fun u => !bisqueUnit u) ++ (unitsOf l.planned).filter (fun u => !goesOn s n u) ++
    l.loadsBefore ++ l.loadsSent ++ l.loadsPlanned ++
    (s.ln.work.filter fun x => x.2.rank = n / 18 && unitTakes x.2 (n % 18) && !goesOn s n x.2).map (·.2)
  let s' := stripUnits (ended.foldl (fun s u => completeUnit s u.core n false true) s) n fun u => !goesOn s n u
  let s' := { s' with ln := { s'.ln with
    seqs := s'.ln.seqs.filter fun x => x.1 / 68 ≠ n || 12 ≤ x.2.line
    blanks := s'.ln.blanks.filter fun x => x.1 / 68 ≠ n } }
  updLink s' n fun k => { k.cleared with
    unsure := l.unsure.map fun x => (x.1, x.2.map bisqueOnly)
    executed := l.executed.map bisqueOnly, executing := l.executing.map bisqueOnly, batched := l.batched.map bisqueOnly
    planned := l.planned.filter fun e => match e with | .unit u _ => goesOn s n u | _ => false }

/-- A link goes into removal; it is put into electrical idle, so its package's next return is a full rebuild (log 37). -/
def drainLink (s : State) (n : Nat) : State :=
  if (link s n).state.serves then
    updLink (outOfService (returnOthers s n) n .draining 6) n fun l => { l with wasRebuilding := false, inService := false }
  else updLink s n fun l => { l with state := .draining }

/-- PREPARE_REMOVE (R466). -/
def execPrepareRemove (p : PipeNo) (s : State) : Host.Outcome State Fault Refusal :=
  .next (runCmd s p.val (fun c => c.op = 0x0B00) fun s c =>
    let n := c.fld 0x18 2
    let wait (s : State) : State := holdCmd { s with ln := { s.ln with removing := s.ln.removing ++ [(n, c.id)] } } c
    match (link s n).state with
    | .active => wait (drainLink s n)
    | .rebuilding => wait (drainLink (dropRebuild s n) n)
    | .draining => wait s
    | .removable => succeed s c 7 0
    | .empty => enterRemovable (wait s) n
    | .refused => enterRemovable (wait s) n
    | .lost => enterRemovable (wait s) n
    | .training => wait (drainLink s n)
    | .inventory => wait (drainLink s n)
    | .retrain => wait (drainLink s n))

/-- ONLINE (R110, R467). -/
def execOnline (p : PipeNo) (s : State) : Host.Outcome State Fault Refusal :=
  .next (runCmd s p.val (fun c => c.op = 0x0B01) fun s c =>
    let n := c.fld 0x18 2
    if (link s n).state = .removable then
      let s := updLink s n fun l => { l with state := .training, step := 0, attempts := 0, inService := false }
      holdCmd { s with ln := { s.ln with onlining := s.ln.onlining ++ [(n, c.id)] } } c
    else succeed s c (link s n).state.code 0)

/-- ACCEPT_FRESHNESS (R385, R468). -/
def execAcceptFreshness (p : PipeNo) (s : State) : Host.Outcome State Fault Refusal :=
  .next (runCmd s p.val (fun c => c.op = 0x0C00) fun s c =>
    let s := if s.ig.rootState = 2 then refreshReady { s with ig := { s.ig with rootState := 3 } } else s
    succeed s c s.ig.rootState 0)

/-- WEAR_LINK_B_n. -/
def wearLinkB (s : State) (n : Nat) : Nat :=
  let w := linkWear s n
  (if w.rebuilt then 2 ^ 63 else 0) + (if w.rebuilding then 2 ^ 62 else 0) + rebuildPct s n false * 2 ^ 48 + w.rebuiltAt % 2 ^ 40

/-- Rebuilds in progress, of packages and of die positions. -/
def rebuildCount (s : State) : Nat :=
  ((List.range 1152).map fun n =>
    (if (linkWear s n).rebuilding then 1 else 0) + if (linkWear s n).dieActive then 1 else 0).sum

/-- SPARE_STATUS (R468). -/
def execSpareStatus (p : PipeNo) (s : State) : Host.Outcome State Fault Refusal :=
  .next (runCmd s p.val (fun c => c.op = 0x0D00) fun s c =>
    let links := (List.range 1152).filter fun n => (linkWear s n).rebuilding
    let room := (c.fld 6 2 * 4096 - 0x1040) / 16
    let n := min links.length room
    let data := (wearLog s).take 0x1040 ++ ((links.take n).map fun n => leBytes 8 n ++ leBytes 8 (wearLinkB s n)).flatten
    succeed (outputData s c data) c (spareBs s).toNat
      (rebuildCount s % 2 ^ 32 + n * 2 ^ 32 + if room < links.length then 2 ^ 63 else 0))

/-- The CAPACITY record: values in force and those that wait for a reset, 0 for none (R342, R585). -/
def capacityRecord (s : State) : List Byte :=
  let next := s.mp.pendingCap.getD (0, [])
  leBytes 4 s.mp.capGib ++ leBytes 8 (rankMask s.mp.mapRanks) ++ leBytes 4 next.1 ++ leBytes 8 (rankMask next.2)

/-- CAPACITY_SET (R342, R469). -/
def execCapacitySet (p : PipeNo) (s : State) : Host.Outcome State Fault Refusal :=
  .next (runCmd s p.val (fun c => c.op = 0x0D01) fun s c =>
    let cap := c.fld 0x18 4
    let spare := (spareWith s cap).toNat
    let s := { s with
      mp := { s.mp with pendingCap := some (cap, capacityRanks s) }
      wr := { s.wr with spareBs0 := spare } }
    succeed (keepPut s 0x20 (capacityRecord s)) c spare 0)

end Sys2Proof.Machine
end

