-- ==== Sys2Proof/Machine/Erase.lean ====
section
/-! DEFINITION. Domain keys, the key window, the erases by rekeying, and the sweep that ends secure discards (R260, R261,
R346 to R354, R386, R410, R444, R461, R462, R547, R639). -/
namespace Sys2Proof.Machine

/-! ### Keys (R346 to R354, R461) -/

/-- The DOMAIN_KEY record: wrapped keys, then staged keys (R350, R354, R585). -/
def saveDomain (s : State) (d : Nat) : State :=
  let k := domainKey s d
  let staged : BitVec 576 := match k.staged with | some v => Config.wrappedKeys d v | none => 0
  keepPut s (0x30 + d) (leBytes 72 (Config.wrappedKeys d k.keyVer).toNat ++ leBytes 72 staged.toNat)

/-- Stage new keys for a domain: source 1 generated on-die, 2 provisioned. -/
def stageKeys (s : State) (d source : Nat) : State :=
  let v := s.ig.keyDraws
  let s := updDomain { s with ig := { s.ig with keyDraws := v + 1 } } d fun k => { k with staged := some v, stagedSource := source }
  saveDomain s d

/-- The domain's staged keys, or else keys generated on-die, become its keys; GENERATION advances (R349, R386 step 2). -/
def rekey (s : State) (d : Nat) : State :=
  let s := if (domainKey s d).staged.isSome then s else stageKeys s d 1
  let s := updDomain s d fun k => { k with
    keyVer := k.staged.getD 0, source := k.stagedSource, staged := none, stagedSource := 0, present := true
    generation := (k.generation + 1) % 2 ^ 32 }
  saveDomain s d

/-- Install keys: a domain that has keys is erased first, one without takes them at once (R354, R639; log 38). -/
def installKeys (s : State) (c : Cmd) (d source : Nat) : State :=
  let s := stageKeys s d source
  if (domainKey s d).present then
    holdCmd { s with ig := { s.ig with erasesQueued := s.ig.erasesQueued ++ [(2 + d, some c.id)] } } c
  else succeed (refreshReady (rekey s d)) c 0 0

/-- KEY_GENERATE (R349, R354, R461). -/
def execKeyGenerate (p : PipeNo) (s : State) : Host.Outcome State Fault Refusal :=
  .next (runCmd s p.val (fun c => c.op = 0x0600) fun s c =>
    if c.fld 0x19 1 = 1 then succeed (stageKeys s (c.fld 0x18 1) 1) c 0 0 else installKeys s c (c.fld 0x18 1) 1)

/-- KEY_INSTALL (R353, R354, R461): whether the blob unwraps the outside world decides. -/
def execKeyInstall (p : PipeNo) (unwraps : Bool) (s : State) : Host.Outcome State Fault Refusal :=
  .next (runCmd s p.val (fun c => c.op = 0x0601) fun s c =>
    if unwraps then installKeys s c (c.fld 0x18 1) 2 else finishCmd s c 4 0 0 0)

/-- KEY_STAGE (R353, R354, R461). -/
def execKeyStage (p : PipeNo) (unwraps : Bool) (s : State) : Host.Outcome State Fault Refusal :=
  .next (runCmd s p.val (fun c => c.op = 0x0602) fun s c =>
    if unwraps then succeed (stageKeys s (c.fld 0x18 1) 2) c 0 0 else finishCmd s c 4 0 0 0)

/-- The key window closes; LOCK is set when it is still 0 (R351, R430). -/
def closeWindow (s : State) : State :=
  if s.ig.keyWindow then setLock { s with ig := { s.ig with keyWindow := false } } else s

/-- KEY_WINDOW_CLOSE (R351, R461). -/
def execKeyWindowClose (p : PipeNo) (s : State) : Host.Outcome State Fault Refusal :=
  .next (runCmd s p.val (fun c => c.op = 0x0603) fun s c => succeed (closeWindow s) c 0 0)

/-- INTG_STATUS and INTG_DOMAIN_d. -/
def intgStatus (s : State) : Nat :=
  s.ig.sysGen % 2 ^ 32 * 2 ^ 16 + s.ig.rootState % 4 * 64 + (if s.ig.ideActive ≠ 0#2 then 4 else 0) +
    (if s.ig.erasing.isSome then 2 else 0) + if s.ig.keyWindow then 1 else 0
def intgDomain (s : State) (d : Nat) : Nat :=
  let k := domainKey s d
  k.generation * 2 ^ 32 + k.source % 4 * 4 + (if k.staged.isSome then 2 else 0) + if k.present then 1 else 0

/-- KEY_INFO (R461). -/
def execKeyInfo (p : PipeNo) (s : State) : Host.Outcome State Fault Refusal :=
  .next (runCmd s p.val (fun c => c.op = 0x0604) fun s c =>
    let data := leBytes 32 (Config.wnonce s.ig.windows).toNat ++ ((List.range 16).map fun d => leBytes 8 (intgDomain s d)).flatten
    succeed (outputData s c data) c (intgStatus s) 0)

/-! ### Which pages an erase covers -/

def EraseKind.code : EraseKind → Nat
  | .secureErase => 0
  | .sanitize => 1
  | .keyInstall d => 2 + d.val

/-- An erase of every domain, by its code. -/
def wholeErase (code : Nat) : Bool := code < 2
def scopeOf (code : Nat) : EraseScope := if code < 2 then .all (code = 1) else .domain (code - 2)

def coversDomain (code d : Nat) : Bool := wholeErase code || code = 2 + d
/-- The page is read and written under a covered domain. -/
def coversPage (s : State) (code page : Nat) : Bool := coversDomain code (pageAttrs s page (entryNow s page)).2

/-! ### Steps 1 to 3 of an erase (R386) -/

/-- The homes and stamp slots of a page are released (R386 step 3). -/
def releaseHomes (s : State) (page : Nat) : State :=
  let e := entryNow s page
  let s := if e.bisqueHome = none40 then s else dropStamps s e.bisqueHome
  releaseSlot (releaseSlot s e.bisqueHome) e.glazeHome

/-- A leaf is rewritten as unmapped entries: blank with stamp 0, or whole under its next stamp in tree mode. -/
def eraseLeaf (blank : Bool) (s : State) (L : Nat) : State :=
  let known := ((s.mp.leaves.map fun x => x.1 / 2).filter fun ll => leafOfLine ll = L).dedup
  let lines := if blank then known else (List.range 64).map (L * 64 + ·)
  let S := if blank then 0 else leafStamp s L + 1
  let img : Option LeafLine := if blank then none else some { stamp := S }
  let s := { s with mp := { s.mp with
    cache := s.mp.cache.filter fun x => x.1 / 16 ≠ L
    writeBacks := s.mp.writeBacks.filter fun w => leafOfLine w.1 ≠ L } }
  let s := lines.foldl (fun s ll => setLeafLine (setLeafLine s ll 0 img) ll 1 img) s
  let s := setLeafStamp s L S
  { s with ig := { s.ig with
    levelB := if blank then tset 0 s.ig.levelB (nodeOf L) 0 else s.ig.levelB
    nodesDue := if blank then s.ig.nodesDue else addNew s.ig.nodesDue (nodeOf L) } }

/-- Reads of covered pages that have not reached their data complete with poison, as the reads of a region with READY 0
do (log 39). -/
def eraseReads (s : State) (hit : Nat → Bool) : State :=
  let turn (r : Rd) : Rd := match r.stage with
    | .done _ _ => r
    | _ => if hit r.page then { r with stage := .done 0 true } else r
  { s with hq := { s.hq with reads := s.hq.reads.map turn } }

/-- Running range commands on covered data stop with SUPERSEDED (R444). -/
def supersede (s : State) (code : Nat) : State :=
  (s.pp.cmds.filter fun c => c.phase = .running && !c.ranges.isEmpty && c.ranges.any fun x =>
    (List.range 64).any fun k => overlapPages (region s k) x.1 x.2 ≠ 0 && coversDomain code (region s k).domain).foldl
    (fun s c => finishCmd s c 15 0 (BitVec.ofNat 64 c.donePages) 0) s

/-- What firmware still meant to do to covered pages is void. -/
def forgetPages (s : State) (hit : Nat → Bool) : State :=
  let keep (l : List Nat) : List Nat := l.filter fun p => !hit p
  { s with
    pl := { s.pl with
      secure := s.pl.secure.filter fun x => !hit x.page
      dropsDue := keep s.pl.dropsDue, relocating := keep s.pl.relocating, restamps := keep s.pl.restamps
      refreshes := keep s.pl.refreshes }
    sag := { s.sag with
      lines := s.sag.lines.filter fun x => !hit (x.1 / 64)
      drains := s.sag.drains.filter fun d => !hit d.page
      slotOf := s.sag.slotOf.filter fun x => !hit x.1 }
    ecc := { s.ecc with poison := s.ecc.poison.filter fun r => !hit (pageOf r.dpa) } }

/-- Steps 1 to 3: READY falls, the keys change, and the leaves are rewritten. -/
def startErase (s : State) (code : Nat) : State :=
  let pages := (knownPages s ++ s.sag.lines.map fun x : Nat × Option SagLine => x.1 / 64).dedup.filter (coversPage s code)
  let hit (p : Nat) : Bool := p ∈ pages
  let s := supersede (cancelSeal s) code
  let s := eraseReads s hit
  let tree := pages.filter (pageTree s)
  let s := pages.foldl releaseHomes s
  let s := forgetPages s hit
  let s := ((pages.map leafOf).dedup).foldl (fun s L =>
    eraseLeaf (wholeErase code || !(tree.any fun p => leafOf p = L)) s L) s
  let s := if wholeErase code then
      { s with clk := { s.clk with root := s.ig.rootVer + 1 }, ig := { s.ig with
        sysGen := (s.ig.sysGen + 1) % 2 ^ 32, levelB := [], leafStamps := [], dirtyB := [], nodesDue := [], heldNodes := []
        rootVer := s.ig.rootVer + 1 } }
    else s
  let s := ((List.range 16).filter (coversDomain code)).foldl rekey s
  refreshReady s

/-- ERASE_START (R386 steps 1 to 3, R639): the first waiting erase of its kind begins once step 11 has ended. -/
def execEraseStart (kind : EraseKind) (s : State) : Host.Outcome State Fault Refusal :=
  .next (
    let code := EraseKind.code kind
    match s.ig.erasesQueued.find? fun x => x.1 = code with
    | none => s
    | some x =>
      if !mediaUp s || s.ig.erasing.isSome then s
      else startErase { s with ig := { s.ig with
        erasing := some (scopeOf code), eraseCmd := x.2, eraseMailbox := x.2.isNone, erasesQueued := s.ig.erasesQueued.erase x } } code)

/-! ### Steps 4 to 6 (R386, R547) -/

/-- Stripes that hold host data: neither SYSTEM nor RETIRED, and not blank already. -/
def hostStripes (s : State) : List Nat :=
  (s.pl.stripes.filter fun x => match bsState s x.1 with
    | .system => false | .retired => false | .blank => false | _ => true).map (·.1)

/-- Sanitize blanks a stripe, which counts a cycle; one with 20,000 cycles is retired instead (R226, R245, R386 step 4). -/
def sanitizeStripe (s : State) (bs : Nat) : State :=
  if 20000 ≤ (stripe s bs).cycles then retireStripe s bs
  else endSweep (recordStripe (updStripe (noteProgram (blanked s bs) bs) bs fun b => { b with
    state := .blank, bisque := false, wls := 0, valid := 0, lag := 0, unswept := false, cycles := b.cycles + 1 }) bs)

/-- Nothing is open, in flight or queued for firing on any rank. -/
def clearPlacement (s : State) : State :=
  { s with pl := { s.pl with ranks := s.pl.ranks.map fun x => (x.1, { x.2 with
    alloc := none, opens := [], firings := [], fireQueue := [], refreshQueue := [], victim := none, blankingBs := none, evacs := [] }) } }

/-- Breath-zone copies of covered data are destroyed (R547). -/
def eraseBreath (s : State) (covered : SagLine → Bool) : State :=
  { s with pwr := { s.pwr with image := { s.pwr.image with lines := s.pwr.image.lines.filter fun l => !covered l } } }

/-- The code of the erase that runs. -/
def EraseScope.code : EraseScope → Nat
  | .all z => if z then 1 else 0
  | .domain d => 2 + d

/-- Step 6: the commands complete, those of later installs of the same keys among them (R639), and the mailbox is free. -/
def endErase (s : State) (code : Nat) : State :=
  let ids := s.ig.eraseCmd.toList ++ (s.ig.erasesQueued.filter fun x => x.1 = code).filterMap (·.2)
  let mail := s.ig.eraseMailbox
  let s := { s with ig := { s.ig with
    erasing := none, eraseCmd := none, eraseMailbox := false, erasesQueued := s.ig.erasesQueued.filter fun x => x.1 ≠ code } }
  let s := ids.foldl (fun s id => finishId s (some id) 0 0 0) (refreshReady s)
  if mail then
    let r := { s.hl.reply with code := 0 }
    let busy := s.hl.mboxBusy.filter fun op => op ≠ 0x4400
    signalVector { s with hl := { s.hl with mboxBusy := busy, doorbell := false, reply := r } } 0
  else s

/-- ERASE_COMPLETE (R386 steps 4 to 6). -/
def execEraseComplete (s : State) : Host.Outcome State Fault Refusal :=
  .next (match s.ig.erasing with
    | none => s
    | some scope =>
      if !mediaUp s then s
      else
        let s := match scope with
          | .all true => clearPlacement ((hostStripes s).foldl sanitizeStripe s)
          | _ => s
        let s := eraseBreath s fun l => coversDomain scope.code l.domain
        endErase s scope.code)

/-- SECURE_ERASE (R386, R462): the erase waits for its start. -/
def execSecureErase (p : PipeNo) (s : State) : Host.Outcome State Fault Refusal :=
  .next (runCmd s p.val (fun c => c.op = 0x0610) fun s c =>
    holdCmd { s with ig := { s.ig with erasesQueued := s.ig.erasesQueued ++ [(0, some c.id)] } } c)

/-- SANITIZE (R386, R462). -/
def execSanitize (p : PipeNo) (s : State) : Host.Outcome State Fault Refusal :=
  .next (runCmd s p.val (fun c => c.op = 0x0611) fun s c =>
    holdCmd { s with ig := { s.ig with erasesQueued := s.ig.erasesQueued ++ [(1, some c.id)] } } c)

/-! ### Secure discards (R260, R261, R513 k, m, R547) -/

/-- Destroy every line of a slot; the stripe counts as changed for links that are out of service (R260 step 3, R513 m). -/
def destroySlot (s : State) (slot : Nat) : State :=
  if slot = none40 then s
  else (List.range 64).foldl (fun s i => setMedia s slot i .destroyed) (noteProgram s (slotBs slot))

/-- Steps 2 and 3 of a secure discard, once SECURE is durable. -/
def secureHomes (s : State) (x : Secure) : State :=
  let e := entryNow s x.page
  let s := (linesOf s x.page).foldl (fun s l =>
    if l.2.last ≤ x.admittedBefore then wakeReads (setSagLine s x.page l.1 none) x.page l.1 (some 0) else s) s
  destroySlot (destroySlot s e.glazeHome) e.bisqueHome

/-- A read in flight has taken a slot as its home (R176). -/
def slotRead (s : State) (slot : Nat) : Bool :=
  s.hq.reads.any fun r => match r.stage with
    | .sense x _ => x = slot
    | .escalate x _ _ => x = slot
    | .cones _ => r.taken.glazeHome = slot
    | _ => false

/-- The homes of a page lie on ranks that take destroy pulses now, and no read holds them (R176, R513 k). -/
def homesReach (s : State) (page : Nat) : Bool :=
  (pageSlots (entryNow s page)).all fun h => !parked s (slotRank h.1) && !slotRead s h.1

/-- Slots of the medium whose identity falls in a page, or cannot be read though lines of it were programmed. -/
def staleSlots (s : State) (page : Nat) : List Nat :=
  let slots := (s.mp.media.map fun x => x.1 / 64).dedup
  slots.filter fun slot => match slotIdent s slot with
    | some p => p = page
    | none => !((List.range 64).all fun i => match mediaImg s slot i with
        | .line _ => true | .blank => true | .destroyed => true | .torn _ => false)

/-- The sweep may end: every DIRTY or RELEASED stripe with content has been blanked, and no rank is parked (R261,
R513 k). -/
def sweepEnds (s : State) : Bool :=
  s.th.parked.isEmpty && s.pl.stripes.all fun x =>
    (x.2.state != .dirty && x.2.state != .released) || !(s.mp.media.any fun m => slotBs (m.1 / 64) = x.1)

/-- Steps 4 to 6 of a secure discard that the sweep has served. -/
def secureSwept (s : State) (x : Secure) : State :=
  let s := (staleSlots s x.page).foldl destroySlot s
  let s := eraseBreath s fun l => l.page = x.page && l.last ≤ x.admittedBefore
  let s := unmapPage (fetchSeg s x.page) x.page .unmapped
  (List.range 64).foldl (fun s i => if (sagLine s x.page i).isSome then s else poisonLeave s (dpaOf x.page i)) s

/-- Take one secure discard as far as it may go. -/
def secureStep (ends : Bool) (s : State) (x : Secure) : State :=
  let put (s : State) (y : Option Secure) : State :=
    { s with pl := { s.pl with secure := (s.pl.secure.map fun z => if z = x then y else some z).filterMap id } }
  let durable := lineDurable s (mapLineOf x.page)
  if x.step = 1 then
    (if durable && homesReach s x.page then put (secureHomes s x) (some { x with step := 4 }) else s)
  else if x.step = 4 then
    (if ends && !(staleSlots s x.page).any (slotRead s) && (entry? (fetchSeg s x.page) x.page).isSome then put (secureSwept s x) (some { x with step := 6 }) else s)
  else if durable then put s none
  else s

/-- SECURE_SWEEP (R260, R261): a sweep serves the discards that had reached step 4 before it. -/
def execSecureSweep (s : State) : Host.Outcome State Fault Refusal :=
  .next (if mediaRuns s then s.pl.secure.foldl (secureStep (sweepEnds s)) s else s)

end Sys2Proof.Machine
end

