-- ==== Sys2Proof/Machine/Migrate.lean ====
section
/-! DEFINITION. Migrations: the durable record, the conversion of a leaf, its switch beat and its end, and the stripes
that a budget migration prepares (R387, R454, R500 to R511). -/
namespace Sys2Proof.Machine

/-! ### Registers and record of a slot (R503, R509, XLAT_MIG) -/

/-- Units of 64 leaves, or prepared stripes. -/
def migDone (m : MigSlot) : Nat := if m.kind = 4 then m.doneLeaves else m.doneLeaves / 64

/-- XLAT_MIG_A, XLAT_MIG_B and XLAT_MIG_C. -/
def migA (m : MigSlot) : Nat :=
  (if m.valid then 2 ^ 63 else 0) + m.kind % 8 * 2 ^ 60 + (if m.target then 2 ^ 56 else 0) + m.region % 64 * 2 ^ 48 +
    (if m.oldTree then 2 ^ 44 else 0) + m.oldDomain % 16 * 2 ^ 40
def migB (m : MigSlot) : Nat := m.size % 2 ^ 23 * 2 ^ 23 + m.base % 2 ^ 23
def migC (m : MigSlot) : Nat := migDone m % 2 ^ 32 * 2 ^ 32 + m.total % 2 ^ 32

/-- The MIGRATION record of a slot: its registers; one with VALID 0 stands for none. -/
def saveMigration (s : State) (m : Nat) : State :=
  keepPut s (0x28 + m) (leBytes 8 (migA (migSlot s m)) ++ leBytes 8 (migB (migSlot s m)) ++ leBytes 8 (migC (migSlot s m)))

/-- MIGRATION_RECORD_DURABLE (R503): the record is in the keep store and the converter may begin. -/
def execMigrationRecordDurable (m : Fin 4) (s : State) : Host.Outcome State Fault Refusal :=
  .next (
    let x := migSlot s m.val
    if x.valid && !x.durable && keepUp s && awake s then
      saveRegions (saveMigration (updMig s m.val fun x => { x with durable := true }) m.val)
    else s)

/-! ### Preparing a leaf (R504, R505, R507) -/

/-- Integrity mode and domain that converted pages have. -/
def newAttrs (s : State) (m : MigSlot) : Bool × Nat := ((region s m.region).tree, (region s m.region).domain)

/-- The migration changes the domain. -/
def changesDomain (m : MigSlot) : Bool := m.kind = 1 || m.kind = 2

def leafPages (L : Nat) : List Nat := (List.range 128).map (L * 128 + ·)

/-- Ranks that hold homes of a leaf's pages. -/
def leafRanks (s : State) (L : Nat) : List Nat :=
  (((leafPages L).map fun p => (pageSlots (entryNow s p)).map fun h => slotRank h.1).flatten).dedup

/-- A page is pinned by its region's policy or by its PIN flag. -/
def pinnedPage (s : State) (page : Nat) (e : MapEntry) : Bool :=
  e.pin || (((pageRegion s page).map fun n => (region s n).policy).getD 0) = 1

/-- A page whose domain changes takes the saggar route rather than a firing (R505, R507). -/
def takesSagRoute (s : State) (page : Nat) (e : MapEntry) : Bool :=
  ((e.state = .split || e.state = .bisqueWhole) && pinnedPage s page e) ||
    (pageSlots e).any fun h => decide (2 ≤ lostLinks s (slotRank h.1))

/-- Internal lines that the saggar routes hold (R505). -/
def routeLines (s : State) : Nat :=
  (s.sag.lines.filter fun x => match x.2 with | some l => l.internal && onSagRoute s l.page | none => false).length

/-- Lines of a page that read from media. -/
def liveLine (e : MapEntry) (i : Nat) : Bool := match lineSource e i true with | .media _ _ => true | _ => false

/-- A line of the page's bisque slot is already written under the new domain. -/
def lineMoved (s : State) (e : MapEntry) (domain i : Nat) : Bool :=
  match mediaImg s e.bisqueHome i with
  | .line r => r.domain = domain && r.keyVer = (domainKey s domain).keyVer
  | _ => false

/-- Put a page on the saggar route: its current lines become internal lines under the new domain, while fewer than 8,192
are in use (R505). -/
def routePage (s : State) (m page : Nat) (e : MapEntry) (domain : Nat) : State :=
  let need := ((List.range 64).filter fun i => liveLine e i && (sagLine s page i).isNone &&
    !(e.mask.getLsbD i && lineMoved s e domain i)).length
  if 8192 < routeLines s + need then s
  else
    let s := updMig s m fun x => { x with sagRoute := addNew x.sagRoute page }
    let s := takeInternal s page e fun i => liveLine e i && !(e.mask.getLsbD i && lineMoved s e domain i)
    (linesOf s page).foldl (fun s x => setSagLine s page x.1 (some { x.2 with domain := domain })) s

/-- Prepare one page of a leaf in progress (the table of R504). -/
def preparePage (m : Nat) (s : State) (page : Nat) : State :=
  let x := migSlot s m
  let s := dropPage s page
  match entry? s page with
  | none => s
  | some e =>
    if e.secure || e.regime = x.target || !changesDomain x || inDrain s page || inFiring s page then s
    else if e.state = .glaze || e.state = .split || e.state = .bisqueWhole then
      if page ∈ x.sagRoute || takesSagRoute s page e then
        routePage (updMig s m fun x => { x with held := x.held.filter fun h => h.1 ≠ page }) m page e (newAttrs s x).2
      else if x.held.any fun h => h.1 = page && h.2.2.1.glazeHome = e.glazeHome && h.2.2.1.bisqueHome = e.bisqueHome then s
      else
        let s := updMig s m fun x => { x with held := x.held.filter fun h => h.1 ≠ page }
        queueRefreshStripe s ((chargeRank e).getD 0) [page]
    else s

/-- Prepare every page of a leaf that is not prepared yet. -/
def prepareLeaf (s : State) (m L : Nat) : State := (leafPages L).foldl (preparePage m) s

/-- Fill the leaf's 16 segments and exempt them from replacement (R504 step 1). -/
def holdLeaf (s : State) (L : Nat) : State :=
  let s := (List.range 16).foldl (fun s g => fetchSeg s (L * 128 + 8 * g)) s
  (List.range 16).foldl (fun s g => match cacheSeg s (L * 16 + g) with
    | some c => setSeg s (L * 16 + g) (some { c with exempt := true })
    | none => s) s

/-- Every segment of the leaf is cached. -/
def leafHeld (s : State) (L : Nat) : Bool := (List.range 16).all fun g => (cacheSeg s (L * 16 + g)).isSome

/-- The next leaf that a migration takes, in ascending order. -/
def nextLeaf (m : MigSlot) : Nat := m.base * 2048 + (m.doneLeaves - m.passBase) + m.active.length

/-- LEAF_CONVERT_START (R503, R504, R507). -/
def execLeafConvertStart (m : Fin 4) (s : State) : Host.Outcome State Fault Refusal :=
  .next (
    let x := migSlot s m.val
    let L := nextLeaf x
    if !mediaRuns s || !x.valid || x.kind = 4 || !x.durable || 16 ≤ x.active.length || (x.base + x.size) * 2048 ≤ L ||
        ((leafRanks s L).any fun r => decide (3 ≤ lostLinks s r)) then s
    else
      let s := holdLeaf s L
      if leafHeld s L then prepareLeaf (updMig s m.val fun x => { x with active := x.active ++ [L] }) m.val L else s)

/-! ### The switch beat (R501, R504 step 3, R505) -/

/-- A page of the leaf may switch: nothing is in flight on it and its prepared change still fits. -/
def pageReady (s : State) (x : MigSlot) (page : Nat) : Bool :=
  let e := entryNow s page
  !e.secure && e.state != .discardPending && !inDrain s page && !inFiring s page && !inSecure s page &&
  (e.regime = x.target || !changesDomain x ||
    match e.state with
    | .glaze => fired e
    | .split => fired e
    | .bisqueWhole => fired e || (page ∈ x.sagRoute && (List.range 64).all fun i =>
        !e.mask.getLsbD i || lineMoved s e (newAttrs s x).2 i)
    | _ => true)
where
  /-- The page's firing has verified and its homes are still those taken. -/
  fired (e : MapEntry) : Bool :=
    x.held.any fun h => h.1 = page && h.2.2.1.glazeHome = e.glazeHome && h.2.2.1.bisqueHome = e.bisqueHome

/-- The stamp that a slot's lines carry. -/
def slotStamp (s : State) (slot i : Nat) : Nat := match mediaImg s slot i with | .line r => r.stamp | _ => 0

/-- Stamps of a page's live lines as media hold them (R387). -/
def verifiedStamps (s : State) (e : MapEntry) : List Nat :=
  (List.range 64).map fun i => match lineSource e i true with | .media slot _ => slotStamp s slot i | _ => 0

/-- The stamp slot of a bisque page whose integrity mode changes is built or released (R387, R504). -/
def switchStamps (s : State) (page : Nat) (wasTree tree : Bool) : State :=
  let e := entryNow s page
  if e.bisqueHome = none40 || wasTree = tree then s
  else if tree then putStamps s e.bisqueHome page (verifiedStamps s e)
  else dropStamps s e.bisqueHome

/-- The saggar lines of a page take the new domain; those of its saggar route are released when no write came since
(R504 step 3, R505). -/
def switchLines (s : State) (route : Bool) (page domain : Nat) : State :=
  (linesOf s page).foldl (fun s x =>
    let l := { x.2 with domain := domain }
    if route && l.held = some l.gen then setSagLine s page x.1 none
    else setSagLine s page x.1 (some (if route then { l with held := none } else l))) s

/-- Switch one page. -/
def switchPage (m : Nat) (s : State) (page : Nat) : State :=
  let x := migSlot s m
  let new := newAttrs s x
  let route := decide (page ∈ x.sagRoute)
  let fresh : Bool := decide ((entryNow s page).regime ≠ x.target)
  let s := match (x.held.find? fun h => h.1 = page), fresh with
    | some h, true =>
      firedPage s { page := page, slot := h.2.1, taken := h.2.2.1, gens := h.2.2.2, stamp := slotStamp s h.2.1 0, domain := new.2 }
    | _, _ => s
  let mapped := (entryNow s page).state != .unmapped
  let s := if fresh && mapped then switchStamps s page x.oldTree new.1 else s
  let s := updEntry s page fun e => { e with regime := x.target, domain := if changesDomain x && mapped then new.2 else e.domain }
  if changesDomain x then switchLines s route page new.2 else s

/-- LEAF_SWITCH_BEAT (R504): the leaf switches in one beat when every page is prepared; pages that are not are prepared
again. -/
def execLeafSwitchBeat (m : Fin 4) (leaf : Nat) (s : State) : Host.Outcome State Fault Refusal :=
  .next (
    let x := migSlot s m.val
    if !mediaRuns s || leaf ∉ x.active || leaf ∈ x.switched then s
    else if (leafPages leaf).all (pageReady s x) && leafHeld s leaf then
      let s := (leafPages leaf).foldl (switchPage m.val) s
      let s := updMig s m.val fun x => { x with
        switched := x.switched ++ [leaf]
        held := x.held.filter fun h => leafOf h.1 ≠ leaf
        sagRoute := x.sagRoute.filter fun p => leafOf p ≠ leaf }
      (List.range 64).foldl (fun s i => if lineDurable s (leaf * 64 + i) then s else startWriteBack s (leaf * 64 + i)) s
    else prepareLeaf s m.val leaf)

/-! ### The end of a leaf, of a pass and of a migration (R502, R504 step 4, R508, R509) -/

/-- The migration has ended (R508). -/
def endMigration (s : State) (m : Nat) : State :=
  let x := migSlot s m
  let s := updMig s m fun _ => {}
  let s := if x.kind = 4 then s else updRegion s x.region fun r => { r with migrating := false }
  let s := raise (saveRegions (saveMigration s m)) 0x39 srcDevice x.region 0 0 0
  finishId s x.cmd 0 0 0

/-- The pass has converted every leaf of its range: a relabel pass follows in the same slot, or the migration ends
(R502). -/
def endPass (s : State) (m : Nat) : State :=
  let x := migSlot s m
  let r := region s x.region
  if r.regime ≠ x.target then
    updMig s m fun x => { x with
      kind := 3, target := r.regime, oldTree := r.tree, oldDomain := r.domain, passBase := x.doneLeaves, active := [], switched := [] }
  else endMigration s m

/-- LEAF_CONVERT_DONE (R504, R508, R509): the leaf's write-back is durable. -/
def execLeafConvertDone (m : Fin 4) (leaf : Nat) (s : State) : Host.Outcome State Fault Refusal :=
  .next (
    let x := migSlot s m.val
    if !awake s || leaf ∉ x.switched || x.active.head? ≠ some leaf ||
        !((List.range 64).all fun i => lineDurable s (leaf * 64 + i)) then s
    else
      let s := updMig s m.val fun x => { x with
        active := x.active.drop 1, switched := x.switched.filter (· ≠ leaf), doneLeaves := x.doneLeaves + 1 }
      let s := (List.range 16).foldl (fun s g => match cacheSeg s (leaf * 16 + g) with
        | some c => setSeg s (leaf * 16 + g) (some { c with exempt := false })
        | none => s) s
      let y := migSlot s m.val
      let s := if y.doneLeaves % 64 = 0 then saveMigration s m.val else s
      if y.doneLeaves - y.passBase = y.size * 2048 then endPass s m.val else s)

/-! ### The budget migration (R458, R511) -/

/-- Stripes that a rank of the budget migration still lacks. -/
def budgetLack (s : State) (r : Nat) : Nat := floorLack s (budgetMin s) r

/-- Blank a DIRTY stripe of the rank with MODE 1, or, with none, make room by reclaim (R511). -/
def prepareStripe (s : State) (m r : Nat) : State :=
  match nextDirty s r with
  | some x =>
    if 20000 ≤ x.2.cycles then retireStripe s x.1
    else
      let s := recordStripe (updStripe s x.1 fun b => { b with cycles := b.cycles + 1 }) x.1
      let s := endSweep (updStripe (noteProgram (blanked s x.1) x.1) x.1 fun b => { b with
        state := .blank, bisque := true, wls := 0, valid := 0, lag := 0, unswept := false })
      updMig s m fun x => { x with doneLeaves := x.doneLeaves + 1 }
  | none =>
    if (rankPl s r).victim.isSome then s
    else match bestVictim s r (victimChoices s r) with
      | some x => makeVictim s r x.1
      | none => s

/-- BUDGET_MIGRATION_STRIPE (R511): one stripe for a rank of the migration; it ends when no named rank lacks any. -/
def execBudgetMigrationStripe (r : Rank) (s : State) : Host.Outcome State Fault Refusal :=
  .next (match s.mp.mig.find? fun x => x.2.valid && x.2.kind = 4 && x.2.durable with
    | none => s
    | some (m, x) =>
      if !mediaRuns s || r.val ∉ x.ranks || parked s r.val then s
      else
        let s := if budgetLack s r.val = 0 then s else prepareStripe s m r.val
        if x.ranks.all fun r => budgetLack s r = 0 then endMigration s m else s)

end Sys2Proof.Machine
end

