-- ==== Sys2Proof/Machine/Power.lean ====
section
/-! DEFINITION. Idle, Sleep and the entry to Deep sleep; the backup domain's clock and its supplies (R23, R515 to R526,
R531, R563 to R567, R656). -/
namespace Sys2Proof.Machine

/-! ### Conditions (R515, R517, R521) -/

/-- A command, or a firmware work unit queued or outstanding, keeps the device out of Idle (R515). -/
def workRuns (s : State) : Bool :=
  !s.pp.cmds.isEmpty || !s.ln.work.isEmpty ||
    s.ln.links.any fun x => !x.2.planned.isEmpty || !x.2.batched.isEmpty || !x.2.executing.isEmpty

/-- Work that automatic entry to Sleep waits for (R464, R513 g, R517). -/
def longWork (s : State) : Bool := rebuildRuns s || migrationRuns s || eraseRuns s || !s.pl.secure.isEmpty

/-- The conditions of R517 other than its timer. -/
def sleepFits (s : State) : Bool :=
  s.pwr.step = 12 && !s.pwr.limited && s.hq.reads.isEmpty && s.hq.egress.isEmpty && !longWork s && s.pp.commit.isNone &&
    (match s.cn.agreement with | some a => a.kind ≠ .configuration | none => true) && s.pwr.breath.isNone && !s.pwr.pwrfail

/-- The conditions of R521 other than its timer, besides those of R517. -/
def deepFits (s : State) : Bool :=
  sleepFits s && decide (s.ig.ideActive = 0#2) && s.th.parked.isEmpty &&
    (listedPipes s).all (fun p => (pipe s p).mouth.isNone) && s.pp.cmds.isEmpty && s.pp.comps.isEmpty

/-- SLEEP_EN and SLEEP_TIMER (R517). -/
def sleepTimed (s : State) : Bool :=
  sleepEn s && s.pwr.state = .idle && decide (s.pwr.idleSince + sleepTimer s ≤ s.clk.beat)

/-- DEEP_EN and DEEP_TIMER (R521). -/
def deepTimed (s : State) : Bool :=
  deepEn s && s.pwr.state = .sleep && decide (s.pwr.sleepSince + deepTimer s ≤ s.clk.beat)

/-- POWER_ENTER has asked for a state at least as deep (R464, R517, R521). -/
def askedFor (s : State) (k : Nat) : Bool := (s.pwr.asked.map fun x => decide (k ≤ x)).getD false

/-- The members have agreed to a state at least as deep; a device alone needs no agreement (R517, R625). -/
def agreedFor (s : State) (k : Nat) (alone : Bool) : Bool :=
  if s.cn.joined then (s.cn.agreed.map fun x => decide (k ≤ x)).getD false else alone

/-- WANT of this member: the state whose conditions, timers included, hold (R625). -/
def ownWant (s : State) : Nat :=
  if deepFits s && deepTimed s then 3 else if sleepFits s && (sleepTimed s || s.pwr.state = .sleep) then 2 else 0

/-! ### Wakes (R519, R520, R523, R625) -/

/-- The device leaves Sleep: it is in Run, the UCIe link is active, a media link that cannot resume retrains, and the
drift ticks missed are applied (R103, R269, R519). -/
def wakeFromSleep (s : State) (src : Nat) : State :=
  let missed := (s.clk.beat - s.pwr.sleepSince) / 2 ^ 24
  let s := { s with
    pwr := { s.pwr with
      state := .run, wakes := satAdd 32 s.pwr.wakes 1, wakeSrc := src, asked := none, quietSince := s.clk.beat }
    hl := { s.hl with state := if s.hl.state = .lowPower then .active else s.hl.state, leftActive := none }
    cn := { s.cn with agreed := none }
    ev := { s.ev with wakePending := none } }
  let s := catchUp (resumeLinks s fun _ => true) missed groupFactor
  if s.cn.joined && src ≠ 5 then sendFrame s .wake else s

/-- A wake source ends an entry to Deep sleep that has not completed (R523). -/
def abortEntry (s : State) : State :=
  { s with
    pwr := { s.pwr with entering := false, asked := none, quietSince := s.clk.beat }
    cn := { s.cn with agreed := none }
    ev := { s.ev with wakePending := none } }

/-- A wake source arrives in Sleep or during the entry to Deep sleep; in other states it does nothing. -/
def wakeNow (s : State) (src : Nat) : State :=
  if !s.pwr.supplies || s.pwr.inReset then s
  else if s.pwr.state = .sleep then wakeFromSleep s src
  else if s.pwr.entering then abortEntry s
  else s

def WakeSource.code : WakeSource → Nat
  | .hostLink => 1 | .wakePin => 2 | .pwrfail => 3 | .thermal => 4 | .consort => 5

/-- SLEEP_WAKE (R519, R520): a thermal wake needs a round that raised a level, a power-fail wake the pin. -/
def execSleepWake (src : WakeSource) (s : State) : Host.Outcome State Fault Refusal :=
  .next (
    let holds := match src with
      | .thermal => s.ev.wakePending.isSome
      | .pwrfail => s.pwr.pwrfail
      | _ => true
    if holds then wakeNow s (WakeSource.code src) else s)

/-- WAKE_ASSERT (R519, R531, R656): 1 microsecond wakes the device, 100 are latched in Off; Run and Idle ignore it. In
Deep sleep the wake itself is DEEP_SLEEP_WAKE. -/
def execWakeAssert (us : Nat) (s : State) : Host.Outcome State Fault Refusal :=
  .next (
    if s.pwr.state = .off then
      if 100 ≤ us then { s with clk := { s.clk with wakeLatch := true } } else s
    else if us = 0 then s
    else if s.pwr.state = .deepSleep then { s with ev := { s.ev with wakePending := some 2 } }
    else wakeNow s 2)

/-! ### Entry (R515 to R518, R521, R522) -/

/-- IDLE_ENTRY (R515). -/
def execIdleEntry (s : State) : Host.Outcome State Fault Refusal :=
  .next (
    if awake s && s.pwr.state = .run && s.pwr.step = 12 && !s.pwr.entering && !workRuns s &&
        decide (s.pwr.quietSince + idleTimer s ≤ s.clk.beat) then
      { s with pwr := { s.pwr with state := .idle, idleSince := s.clk.beat } }
    else s)

/-- SLEEP_ENTRY (R517, R518): credits are withheld, the media links go to electrical idle with their alignment held and
the UCIe link to L1; the saggar keeps its lines. -/
def execSleepEntry (s : State) : Host.Outcome State Fault Refusal :=
  .next (
    if awake s && !s.pwr.entering && sleepFits s && agreedFor s 2 (sleepTimed s || askedFor s 2) then
      { s with
        pwr := { s.pwr with state := .sleep, sleepSince := s.clk.beat }
        hl := { s.hl with state := if s.hl.state = .active then .lowPower else s.hl.state } }
    else s)

/-- Every open glaze stripe that has no word line in progress begins to close (R246, R522 step 3). -/
def closeOpens (s : State) : State :=
  s.pl.ranks.foldl (fun s x => x.2.opens.foldl (fun s o =>
    if o.2.closing || x.2.firings.any (fun f => f.purpose = o.1) then s else beginClose s x.1 o.1) s) s

/-- The entry image: HDM decoders, MSI-X table, lane repairs, completion sequences and EN bits stand in their own
fields; its first record names the pipes that have a sequence or EN (R528). -/
def entryImage (s : State) : List Byte :=
  ((List.range 4).map fun n =>
    let d := tget {} s.hl.hdm n
    leBytes 8 d.hpaBase ++ leBytes 8 d.size ++ leBytes 8 d.skip ++ leBytes 8 d.dpaBase).flatten ++
  ((List.range 4).map fun m =>
    let r := tget {} s.hl.mods m
    leBytes 1 r.rxUsed ++ leBytes 1 r.txUsed ++ leBytes 1 r.lastRx ++ leBytes 1 r.lastTx).flatten

/-- Records of a closed packet, of its trailer (R603). -/
def packetRecords (s : State) (q k : Nat) : Nat := leNat (readBytes s (capBase q (k % 2) + 4095 * 64 + 8) 4) / 32

/-- Records of a queue's packets that are not released, the open one included (R607). -/
def unreleased (s : State) (q : Nat) : Nat :=
  let c := capQ s q
  let first := c.rel / 4096
  c.count + ((List.range (c.prod / 4096 - first)).map fun i => packetRecords s q (first + i)).sum

/-- Step 7 of R522 and what it loses (R23, R348, R524, R526): everything that the always-on domain, the backup domain
and the keep store do not hold. -/
def powerGated (s : State) : State :=
  { s with
    pwr := { s.pwr with state := .deepSleep, entering := false, asked := none, askedCmd := none, aonDip := false }
    clk := { s.clk with savedBeat := s.clk.beat, savedTicks := s.clk.seconds * 32768 + s.clk.subsec }
    hl := { s.hl with state := .lowPower, logs := [], doorbell := false, reply := {}, retrains := 0, linkDowns := 0, replays := 0 }
    mp := { s.mp with cache := [], fills := [], lruClock := 0 }
    sag := { s.sag with lines := [], slotOf := [] }
    ig := { s.ig with slots := [] }
    th := { s.th with sampled := none }
    cn := { s.cn with agreed := none }
    ln := { s.ln with links := s.ln.links.map fun x => (x.1, { x.2 with hdrFail := 0, slotFail := 0, replays := 0, retrains := 0 }) }
    pp := { s.pp with
      sram := [], badBytes := [], sema := []
      pipes := s.pp.pipes.map fun x => (x.1, { x.2 with tokens := [] }) }
    ev := { s.ev with
      ring := [], intake := [], wakePending := none
      queues := (List.range 8).foldl (fun t q => tupd {} t q fun c => { c with lostBefore := c.lostBefore + unreleased s q })
        s.ev.queues } }

/-- DEEP_SLEEP_ENTRY (R521, R522). Commanded in Sleep it returns to Run internally with write credits withheld (step 1);
commanded again it closes open stripes (step 3) and, once everything is written back and the empty breath's seal
stands, writes the entry image and the temperature history and gates the power (steps 5 and 7). -/
def execDeepSleepEntry (s : State) : Host.Outcome State Fault Refusal :=
  .next (
    if !s.pwr.supplies || s.pwr.inReset then s
    else if s.pwr.state = .sleep then
      if deepFits s && agreedFor s 3 (deepTimed s || askedFor s 3) then
        let s := { s with
          pwr := { s.pwr with state := .run, entering := true }
          hl := { s.hl with state := if s.hl.state = .lowPower then .active else s.hl.state } }
        resumeLinks s fun _ => true
      else s
    else if !s.pwr.entering then s
    else if !deepFits s then abortEntry s
    else if writtenBack s && s.pwr.standing && s.pwr.cause = 3 then
      powerGated (keepPut (keepPut (saveDrift s) 0x60 (entryImage s)) 0x200 (tempHistory s))
    else closeOpens s)

/-! ### Off and the always-on supply (R526, R531) -/

/-- A breath that runs is cut: its records stay on media without a seal (R545, R546, R654). -/
def cutBreath (s : State) : State :=
  match s.pwr.breath with
  | none => s
  | some b => { s with pwr := { s.pwr with breath := none, cutLines := b.lines } }

/-- OFF_ENTRY (R531): every supply except VBAT is removed. -/
def execOffEntry (s : State) : Host.Outcome State Fault Refusal :=
  .next (
    if !s.pwr.supplies then s
    else
      let s := cutBreath s
      { s with pwr := { s.pwr with supplies := false, state := .off } })

/-- AON_SUPPLY_DIP (R526, R649): a fall of VDD_AON below 776 mV during Deep sleep makes every bank count as failed. -/
def execAonSupplyDip (mv : Nat) (s : State) : Host.Outcome State Fault Refusal :=
  .next (if s.pwr.state = .deepSleep && mv < 776 then { s with pwr := { s.pwr with aonDip := true } } else s)

/-! ### The backup domain (R563 to R567) -/

/-- The beat counter runs: Run, Idle and Sleep (R23). -/
def beatRuns (s : State) : Bool := keepsHouse s

/-- BACKUP_SUPPLY_LOW (R563, R566, R384): below 1.8 V CONT clears and the root is lost; what else the domain then holds is
free (log 8). -/
def execBackupSupplyLow (mv : Nat) (s : State) : Host.Outcome State Fault Refusal :=
  .next (
    if mv < 1800 then
      let (a, s) := draw s
      let (b, s) := draw s
      let w := (Config.freeWord a).toNat
      { s with clk := { s.clk with
        cont := false, rootGood := false, seconds := w % 2 ^ 40, subsec := w / 2 ^ 40 % 2 ^ 15
        wakeLatch := decide (w / 2 ^ 55 % 2 = 1), tvalid := decide (w / 2 ^ 56 % 2 = 1)
        offset := (Config.freeWord b).toInt } }
    else s)

/-- OSCILLATOR_STOP (R566): 2 ms without an edge while the beat counter is not running clears CONT. -/
def execOscillatorStop (us : Nat) (s : State) : Host.Outcome State Fault Refusal :=
  .next (if !beatRuns s && 2000 ≤ us then { s with clk := { s.clk with cont := false } } else s)

/-- CRYSTAL_STOP (R567): while the beat counter runs, ticks come from the fabric. -/
def execCrystalStop (s : State) : Host.Outcome State Fault Refusal :=
  .next (
    if beatRuns s && !s.clk.subst then
      raise { s with clk := { s.clk with xtalFault := true, subst := true, fabricAcc := 0 } } 0x3 srcDevice 0 0 0 0
    else s)

/-- CRYSTAL_RESUME (R567): after 32,768 consecutive edges ticks return to the crystal. -/
def execCrystalResume (edges : Nat) (s : State) : Host.Outcome State Fault Refusal :=
  .next (if s.clk.subst && 32768 ≤ edges then { s with clk := { s.clk with subst := false, fabricAcc := 0 } } else s)

/-- SUBSEC advances, carrying into SECONDS, whose edge clears the beat-within-second count at the next boundary (R24,
R564). -/
def addTicks (c : ClkSt) (n : Nat) : ClkSt :=
  let t := c.subsec + n
  if 32768 ≤ t then { c with subsec := t % 32768, seconds := (c.seconds + t / 32768) % 2 ^ 40, edge := true }
  else { c with subsec := t }

/-- One tick of the calendar (R564, R565): a negative trim holds SUBSEC for as many ticks. -/
def tick (c : ClkSt) : ClkSt :=
  let c := { c with trimTicks := c.trimTicks + 1 }
  if 0 < c.holdTicks then { c with holdTicks := c.holdTicks - 1 } else addTicks c 1

/-- CALENDAR_TICK (R564): the crystal's tick, unless the fabric gives the ticks. -/
def execCalendarTick (s : State) : Host.Outcome State Fault Refusal :=
  .next (if s.clk.subst then s else { s with clk := tick s.clk })

/-- TRIM at the 2^20th tick (R565). -/
def trimTick (c : ClkSt) : ClkSt :=
  if c.trimTicks < 2 ^ 20 then c
  else
    let c := { c with trimTicks := c.trimTicks - 2 ^ 20 }
    if c.trim < 0 then { c with holdTicks := c.holdTicks + (-c.trim).toNat } else addTicks c c.trim.toNat

/-- TRIM_APPLY (R565). -/
def execTrimApply (s : State) : Host.Outcome State Fault Refusal := .next { s with clk := trimTick s.clk }

/-! ### References (R19 to R21) -/

/-- The lowest-numbered reference of a choice that is good. -/
def goodRef (lock : BitVec 4) (l : List Nat) : Option Nat := l.find? fun k => lock.getLsbD k

/-- New references of the fabric and the PHY groups; each move is counted (R21). -/
def setRefs (s : State) (fabric : Nat) (phy : List Nat) : State :=
  let moves := (if fabric = s.clk.fabricRef then 0 else 1) +
    ((List.range 4).filter fun j => nth phy j ≠ nth s.clk.phyRef j).length
  { s with clk := { s.clk with fabricRef := fabric, phyRef := phy, switchCount := satAdd 16 s.clk.switchCount moves } }

/-- The clocks have locked: past fuse load, out of reset (R21). -/
def clocked (s : State) : Bool := s.pwr.supplies && !s.pwr.inReset && 2 ≤ s.pwr.step

/-- REFERENCE_FAILURE (R19 to R21): the bit, the event, and the moves of those that used it. -/
def execReferenceFailure (k : Fin 4) (s : State) : Host.Outcome State Fault Refusal :=
  .next (
    let bit := 1#4 <<< k.val
    let had := s.clk.refLock.getLsbD k.val
    let s := { s with clk := { s.clk with
      refPresent := s.clk.refPresent &&& (~~~ bit : BitVec 4), refLock := s.clk.refLock &&& (~~~ bit : BitVec 4) } }
    if !clocked s || !had then s
    else
      let s := { s with clk := { s.clk with refFault := s.clk.refFault ||| bit } }
      let pick (l : List Nat) (r : Nat) : Nat := if r = k.val then (goodRef s.clk.refLock l).getD r else r
      let s := setRefs s (pick [0, 1, 2, 3] s.clk.fabricRef)
        ((List.range 4).map fun j => pick [j, (j + 1) % 4] (nth s.clk.phyRef j))
      raise s 0x1 srcDevice 0 0 0 0)

/-- REFERENCE_RETURN (R19, R20): the reference is present and within tolerance again; who has no good one takes it. That a
synthesiser on another good reference stays there, R19 reading either way, is the model's choice (log 92). -/
def execReferenceReturn (k : Fin 4) (s : State) : Host.Outcome State Fault Refusal :=
  .next (
    let bit := 1#4 <<< k.val
    let s := { s with clk := { s.clk with refPresent := s.clk.refPresent ||| bit } }
    if !clocked s then s
    else
      let s := { s with clk := { s.clk with refLock := s.clk.refLock ||| bit } }
      let pick (l : List Nat) (r : Nat) : Nat := if s.clk.refLock.getLsbD r then r else (goodRef s.clk.refLock l).getD r
      setRefs s (pick [0, 1, 2, 3] s.clk.fabricRef)
        ((List.range 4).map fun j => pick [j, (j + 1) % 4] (nth s.clk.phyRef j)))

end Sys2Proof.Machine
end

