-- ==== Sys2Proof/Machine/Consort.lean ====
section
/-! DEFINITION. The consort: Briter frames, joining and leaving, two-phase agreement, time and the loss of a member
(R465, R492 to R494, R618 to R629). -/
namespace Sys2Proof.Machine

/-! ### Semaphores (R492, R493) -/

/-- An acquiring read: a free semaphore takes the reader as its holder; the answer is the holder. -/
def semaTake (s : State) (master : Byte) (n : Nat) : State × Byte :=
  match tget none s.pp.sema n with
  | some h => (s, h)
  | none => ({ s with pp := { s.pp with sema := tset none s.pp.sema n (some master) } }, master)

/-- A write: the holder releases; any other master is ignored and named in a semaphore-misuse event. -/
def semaRelease (s : State) (master : Byte) (n : Nat) : State :=
  if tget none s.pp.sema n = some master then { s with pp := { s.pp with sema := tset none s.pp.sema n none } }
  else raise s 0x43 srcDevice n master.toNat 0 0

/-! ### Frames (R618, R629) -/

/-- CRC-8 with polynomial 0x07 over bits [63:8] of a frame, from bit 63; the initial value 0 is the model's (log 41). -/
def crc8 (f : BitVec 64) : Nat :=
  (List.range 56).foldl (fun (c : Nat) i =>
    let b := Nat.xor (c / 128) (if f.getLsbD (63 - i) then 1 else 0)
    Nat.xor (c * 2 % 256) (if b = 1 then 7 else 0)) 0

/-- The Briter link is powered in every state except Off (R619). -/
def briterUp (s : State) : Bool := s.pwr.supplies && !s.pwr.inReset && 2 ≤ s.pwr.step

/-- The link is up and carries a frame now (R619). -/
def briterTakes (s : State) (f : BriterFrame) : Bool := briterUp s && briterCarries s f

/-- The first intact copy of a position's frame has arrived; a member forwards what it did not originate (R618, R628). -/
def heardFrom (s : State) (p : Nat) (f : BriterFrame) : State :=
  { s with cn := { s.cn with
    heard := tset 0 s.cn.heard p s.clk.beat, trains := true, retrainAt := none
    relayed := if s.cn.joined && p ≠ s.cn.pos then (p, f) :: s.cn.relayed else s.cn.relayed } }

/-- Members, in ascending position. -/
def memberList (s : State) : List Nat := (List.range 4).filter s.cn.members.getLsbD

/-- UNBROKEN of a position as this device sees it. -/
def unbrokenAt (s : State) (p : Nat) : Bool :=
  if p = s.cn.pos then s.cn.unbroken else ((tget none s.cn.peers p).map (·.unbroken)).getD false

/-- The beat leader and the time leader of the members (R621, R622). -/
def pickLeaders (s : State) : State :=
  let m := memberList s
  let low := m.headD s.cn.pos
  { s with cn := { s.cn with beatLeader := low, timeLeader := (m.find? (unbrokenAt s)).getD low } }

/-- A follower's host time: leader OFFSET + (A × 125) div 2, and its TVALID (R623). -/
def followTime (s : State) : State :=
  if followsTime s then
    match tget none s.cn.peers s.cn.timeLeader with
    | some x => { s with clk := { s.clk with
        offset := wrap64 (x.offset + Int.tdiv (s.cn.slew * 125) 2), tvalid := x.tvalid } }
    | none => s
  else s

/-- The configuration digest of the live values (R620). -/
def liveDigest (s : State) : BitVec 64 := Config.digest (cfg s 58) (cfg s 59) (cfg s 60)

/-- The digest that the consort-scoped registers would have after a change (R624 step 2). -/
def digestAfter (s : State) : Change → BitVec 64
  | .config => Config.digest (cfgShadow s 58) (cfgShadow s 59) (cfgShadow s 60)
  | .policy a b => Config.digest a b (cfg s 60)
  | .region _ _ _ _ _ _ _ _ _ => liveDigest s
  | .budget _ _ => liveDigest s

/-- The highest mute level of the zones. -/
def topLevel (s : State) : Nat := maxOf ((List.range 16).map fun z => (zone s z).level)

/-- This device's own status set (R618). -/
def ownStatus (s : State) : PeerStatus :=
  { compat := 1, digest := liveDigest s, epoch := BitVec.ofNat 64 s.pp.epoch, want := s.cn.want, level := topLevel s
    unbroken := s.cn.unbroken, count := ownCount s, offset := s.clk.offset, tvalid := s.clk.tvalid }

/-- BRITER_STATUS (R618, R622, R623): the member's view of a peer. -/
def execBriterStatus (origin : Fin 4) (st : PeerStatus) (s : State) : Host.Outcome State Fault Refusal :=
  .next (
    if !briterTakes s (.status st) || origin.val = s.cn.pos then s
    else
      let s := heardFrom s origin.val (.status st)
      let s := { s with cn := { s.cn with peers := tset none s.cn.peers origin.val (some st) } }
      if s.cn.joined then
        let s := pickLeaders s
        if origin.val = s.cn.timeLeader then followTime s else s
      else s)

/-- BRITER_STATUS_SEND (R618, R625): the complete status set, WANT as the conditions give it. -/
def execBriterStatusSend (s : State) : Host.Outcome State Fault Refusal :=
  .next (
    if briterUp s && s.cn.joined then
      let s := { s with cn := { s.cn with want := ownWant s } }
      sendFrame s (.status (ownStatus s))
    else s)

/-! ### Joining and leaving (R465, R620, R621) -/

/-- Positions whose frames have been heard within 64 beats. -/
def present (s : State) : List Nat :=
  (List.range 4).filter fun p => p ≠ s.cn.pos && (tget none s.cn.peers p).isSome && s.clk.beat ≤ tget 0 s.cn.heard p + 64

/-- Why this device may not join (R620); the link first, then the reasons in their order. -/
def joinReason (s : State) : Nat :=
  let st := (present s).filterMap fun p => tget none s.cn.peers p
  if !s.cn.trains then 4
  else if st.any fun x => x.compat ≠ 1#32 then 1
  else if decide (tget 0 s.cn.serials s.cn.pos ≠ 0#64) && decide ((tget 0 s.cn.serials s.cn.pos).toNat < Config.dieSerial.toNat) then 2
  else if st.any fun x => x.digest ≠ liveDigest s then 3
  else 0

/-- The join, or the refusal (R620, R621). DELTA against a consort already there is measured, so free (log 8). -/
def joinConsort (s : State) : State :=
  let r := joinReason s
  if r ≠ 0 then
    raise { s with cn := { s.cn with refused := r } } 0x82 srcConsort r s.cn.pos 0 0
  else
    let there := present s
    let (d, s) := draw s
    let delta : Int := if there.isEmpty then 0 else (Config.freeWord d).toInt
    let mask := there.foldl (fun m p => m ||| (1#4 <<< p)) (1#4 <<< s.cn.pos)
    let s := { s with cn := { s.cn with
      joined := true, joinReq := true, members := mask, delta := delta, slew := 0, lastSlew := s.clk.beat, refused := 0 } }
    followTime (pickLeaders (sendFrame s (.join s.cn.pos Config.dieSerial)))

/-- An agreement ends without its change: its origin sends ABORT, and the command that waits completes (R624, R625). -/
def dropAgreement (s : State) (status : Nat) : State :=
  match s.cn.agreement with
  | none => s
  | some a =>
    let s := { s with cn := { s.cn with agreement := none } }
    let s := if a.origin = s.cn.pos then sendFrame s (.abort a.n) else s
    if a.kind = .configuration then
      match s.pp.commit with
      | some c => if c.needsGo then finishId { s with pp := { s.pp with commit := none } } c.cmd status 0 0 else s
      | none => s
    else if a.origin = s.cn.pos then
      finishId { s with pwr := { s.pwr with asked := none, askedCmd := none } } a.cmd status 0 0
    else s

/-- This device is a member no longer. -/
def leaveConsort (s : State) : State :=
  let s := dropAgreement s 8
  { s with cn := { s.cn with
    joined := false, members := 0, delta := 0, slew := 0, agreed := none, beatLeader := 0, timeLeader := 0 } }

/-- CONSORT_JOIN (R465). -/
def execConsortJoin (p : PipeNo) (s : State) : Host.Outcome State Fault Refusal :=
  .next (runCmd s p.val (fun c => c.op = 0x0A00 && c.fld 0x18 1 = 0) fun s c =>
    if s.cn.joined then succeed s c s.cn.members.toNat 0
    else
      let r := joinReason s
      let s := joinConsort s
      succeed s c s.cn.members.toNat r)

/-- CONSORT_LEAVE (R465). -/
def execConsortLeave (p : PipeNo) (s : State) : Host.Outcome State Fault Refusal :=
  .next (runCmd s p.val (fun c => c.op = 0x0A00 && c.fld 0x18 1 = 1) fun s c =>
    let s := if s.cn.joined then leaveConsort s else s
    let s := { s with cn := { s.cn with joinReq := false } }
    succeed s c s.cn.members.toNat 0)

/-- BRITER_JOIN (R620, R621): a member admits the device or names it in a member-refused event; a member that finds its
own position taken by a lower serial leaves (log 42). -/
def execBriterJoin (origin : Fin 4) (serial : BitVec 64) (st : PeerStatus) (s : State) : Host.Outcome State Fault Refusal :=
  .next (
    if !briterTakes s (.join origin.val serial) then s
    else
      let p := origin.val
      let held := if p = s.cn.pos then (if s.cn.joined then Config.dieSerial else 0) else
        if s.cn.members.getLsbD p then tget 0 s.cn.serials p else 0
      let r := if st.compat ≠ 1#32 then 1 else if held ≠ 0 && held.toNat < serial.toNat then 2
        else if st.digest ≠ liveDigest s then 3 else 0
      let s := heardFrom s p (.join p serial)
      if s.cn.joined && r ≠ 0 then raise s 0x82 srcConsort r p 0 0
      else
        let s := { s with cn := { s.cn with serials := tset 0 s.cn.serials p serial } }
        if p = s.cn.pos then (if s.cn.joined then joinConsort (leaveConsort s) else s)
        else
          let s := { s with cn := { s.cn with peers := tset none s.cn.peers p (some st) } }
          if s.cn.joined then pickLeaders { s with cn := { s.cn with members := s.cn.members ||| (1#4 <<< p) } } else s)

/-! ### Agreement (R624, R625) -/

/-- What a member does with a PREPARE that it can hold: it checks, then acknowledges or refuses. -/
def answerPrepare (s : State) (origin n : Nat) (k : ConsortKind) : State :=
  let a : Agreement := { origin := origin, n := n, kind := k, preparedAt := s.clk.beat }
  let take (s : State) (d : BitVec 64) : State := sendFrame { s with cn := { s.cn with agreement := some a } } (.ack n d)
  match k with
  | .configuration =>
    if (badShadow s).isSome then sendFrame s (.nack n 1)
    else take { s with pp := { s.pp with commit := some { beat := toOwn s n, needsGo := true } } } (digestAfter s .config)
  | .power st =>
    if (if 3 ≤ st then deepFits s else sleepFits s) then take s (liveDigest s) else sendFrame s (.nack n 1)

/-- BRITER_PREPARE (R624 steps 1 and 2, R625): of two reservations in one slot the lower ORIGIN stands. -/
def execBriterPrepare (origin : Fin 4) (n : BitVec 64) (kind : ConsortKind) (s : State) : Host.Outcome State Fault Refusal :=
  .next (
    let p := origin.val
    if !briterTakes s (.prepare n.toNat kind) || !s.cn.joined || p = s.cn.pos || !s.cn.members.getLsbD p then s
    else
      let s := heardFrom s p (.prepare n.toNat kind)
      match s.cn.agreement with
      | some a =>
        if a.preparedAt / 4 = s.clk.beat / 4 && p < a.origin && !a.go then
          answerPrepare (dropAgreement s 6) p n.toNat kind
        else sendFrame s (.nack n.toNat 2)
      | none => if s.pp.commit.isSome then sendFrame s (.nack n.toNat 2) else answerPrepare s p n.toNat kind)

/-- The own agreement that a frame names. -/
def ownAgreement (s : State) (n : Nat) : Option Agreement :=
  s.cn.agreement.filter fun a => a.origin = s.cn.pos && a.n = n && !a.go

/-- The digest of the change that this device has proposed. -/
def proposedDigest (s : State) : BitVec 64 :=
  match s.pp.commit with
  | some c => digestAfter s c.change
  | none => liveDigest s

/-- BRITER_ACK (R624 step 3): a differing digest aborts; the last acknowledgement sends GO. -/
def execBriterAck (origin : Fin 4) (n : BitVec 64) (digest : BitVec 64) (s : State) : Host.Outcome State Fault Refusal :=
  .next (
    if !briterTakes s (.ack n.toNat digest) || !s.cn.joined || origin.val = s.cn.pos then s
    else
      let s := heardFrom s origin.val (.ack n.toNat digest)
      match ownAgreement s n.toNat with
      | none => s
      | some a =>
        if a.kind = .configuration && digest ≠ proposedDigest s then dropAgreement s 8
        else goIfAcked { s with cn := { s.cn with agreement := some { a with acks := addNew a.acks origin.val } } })

/-- BRITER_NACK (R624 step 3). -/
def execBriterNack (origin : Fin 4) (n : BitVec 64) (reason : Nat) (s : State) : Host.Outcome State Fault Refusal :=
  .next (
    if !briterTakes s (.nack n.toNat reason) || !s.cn.joined || origin.val = s.cn.pos then s
    else
      let s := heardFrom s origin.val (.nack n.toNat reason)
      if (ownAgreement s n.toNat).isSome then dropAgreement s 8 else s)

/-- The agreement of another member that a frame names. -/
def peerAgreement (s : State) (p n : Nat) : Option Agreement :=
  s.cn.agreement.filter fun a => a.origin = p && a.n = n && p ≠ s.cn.pos && !a.go

/-- BRITER_GO (R624 steps 3 and 4): the member will apply the change at N. -/
def execBriterGo (origin : Fin 4) (n : BitVec 64) (s : State) : Host.Outcome State Fault Refusal :=
  .next (
    if !briterTakes s (.go n.toNat) || !s.cn.joined then s
    else
      let s := if origin.val = s.cn.pos then s else heardFrom s origin.val (.go n.toNat)
      match peerAgreement s origin.val n.toNat with
      | none => s
      | some a =>
        let s := { s with cn := { s.cn with agreement := some { a with go := true } } }
        if a.kind = .configuration then
          { s with pp := { s.pp with commit := s.pp.commit.map fun c => { c with go := true } } }
        else s)

/-- BRITER_ABORT (R624 step 3). -/
def execBriterAbort (origin : Fin 4) (n : BitVec 64) (s : State) : Host.Outcome State Fault Refusal :=
  .next (
    if !briterTakes s (.abort n.toNat) || !s.cn.joined then s
    else
      let s := if origin.val = s.cn.pos then s else heardFrom s origin.val (.abort n.toNat)
      if (peerAgreement s origin.val n.toNat).isSome then dropAgreement s 8 else s)

/-- AGREEMENT_ACK_TIMEOUT (R624): an ACK is missing 40 beats after the PREPARE. -/
def execAgreementAckTimeout (s : State) : Host.Outcome State Fault Refusal :=
  .next (match s.cn.agreement with
    | some a => if briterUp s && a.origin = s.cn.pos && !a.go && decide (a.preparedAt + 40 ≤ s.clk.beat) then dropAgreement s 8 else s
    | none => s)

/-- A Briter fault: the count, and a retraining within 256 beats (R629). -/
def briterFault (s : State) : State :=
  { s with cn := { s.cn with
    faults := satAdd 4 s.cn.faults 1, crcAt := [], trains := false, retrainAt := some (s.clk.beat + 256) } }

/-- No GO by N − 1: nothing is applied, and the link has a fault (R624). -/
def goMissed (s : State) (beat : Nat) : State :=
  match s.cn.agreement with
  | some a =>
    if a.origin ≠ s.cn.pos && !a.go && decide (a.n ≤ toConsort s beat + 1) then briterFault (dropAgreement s 8) else s
  | none => s

/-- GO_MISSED (R624, R629). -/
def execGoMissed (s : State) : Host.Outcome State Fault Refusal :=
  .next (if briterUp s then goMissed s s.clk.beat else s)

/-- An agreed power state at its beat: the members now enter it as their conditions hold (R625). -/
def powerAgreedAt (s : State) (b : Nat) : State :=
  match s.cn.agreement with
  | some a =>
    match a.kind with
    | .power st =>
      if a.go && decide (toOwn s a.n ≤ b) then { s with cn := { s.cn with agreement := none, agreed := some st } } else s
    | .configuration => s
  | none => s

/-- The state that every member wants. -/
def wantedByAll (s : State) : Nat :=
  (others s).foldl (fun m p => min m (((tget none s.cn.peers p).map (·.want)).getD 0)) s.cn.want

/-- POWER_PROPOSE (R625): POWER_ENTER proposes its own state; otherwise the lowest member proposes what all want. -/
def execPowerPropose (s : State) : Host.Outcome State Fault Refusal :=
  .next (
    if !briterUp s || !s.cn.joined || commitBusy s then s
    else
      let n := toConsort s s.clk.beat + 128
      match s.pwr.askedCmd, s.pwr.asked with
      | some c, some st => openAgreement s n (.power st) (some c)
      | _, _ =>
        let st := wantedByAll s
        if (memberList s).headD s.cn.pos = s.cn.pos && 2 ≤ st then openAgreement s n (.power st) none else s)

/-- BRITER_WAKE (R523, R625): every other member wakes with WAKE_SRC 5. -/
def execBriterWake (origin : Fin 4) (s : State) : Host.Outcome State Fault Refusal :=
  .next (
    if !s.cn.joined || origin.val = s.cn.pos || !s.pwr.supplies || s.pwr.inReset then s
    else
      let s := heardFrom s origin.val .wake
      if s.pwr.state = .deepSleep then { s with ev := { s.ev with wakePending := some 5 } } else wakeNow s 5)

/-! ### Peers' semaphores (R627) -/

/-- BRITER_REG (R492, R493, R627): an access under identity 0x30 + position, and its response. -/
def execBriterReg (origin : Fin 4) (n : Fin 64) (write : Bool) (s : State) : Host.Outcome State Fault Refusal :=
  .next (
    let p := origin.val
    if !briterTakes s (.reg n.val 0) || !s.cn.joined || !s.cn.members.getLsbD p || p = s.cn.pos then s
    else
      let s := heardFrom s p (.reg n.val 0)
      let m := BitVec.ofNat 8 (0x30 + p)
      if write then
        let s := semaRelease s m n.val
        sendFrame s (.reg n.val ((tget none s.pp.sema n.val).getD 0).toNat)
      else
        let (s, h) := semaTake s m n.val
        sendFrame s (.reg n.val h.toNat))

/-! ### Faults and loss (R628, R629) -/

/-- BRITER_CRC_FAIL (R629): eight frames that fail their CRC within 1,024 beats are a fault. -/
def execBriterCrcFail (frame : BitVec 64) (s : State) : Host.Outcome State Fault Refusal :=
  .next (
    if !briterUp s || crc8 frame = fld frame 0 8 then s
    else
      let at' := s.clk.beat :: s.cn.crcAt.filter fun b => s.clk.beat < b + 1024
      let s := { s with cn := { s.cn with crcAt := at' } }
      if 8 ≤ at'.length then briterFault s else s)

/-- A member is lost (R494, R624, R628). -/
def loseMember (s : State) (p : Nat) : State :=
  let s := { s with cn := { s.cn with members := s.cn.members &&& (~~~ (1#4 <<< p) : BitVec 4) } }
  let s := releaseSemas (raise s 0x80 srcConsort p 0 0 0) (BitVec.ofNat 8 (0x30 + p))
  let s := match s.cn.agreement with
    | some a =>
      if !a.go && ((a.origin = s.cn.pos && p ∉ a.acks) || a.origin = p) then dropAgreement s 8 else s
    | none => s
  pickLeaders s

/-- MEMBER_LOST (R628): no intact frame for 64 beats. -/
def execMemberLost (p : Fin 4) (s : State) : Host.Outcome State Fault Refusal :=
  .next (
    if briterUp s && s.cn.joined && s.cn.members.getLsbD p.val && decide (p.val ≠ s.cn.pos) &&
        decide (tget 0 s.cn.heard p.val + 64 ≤ s.clk.beat) then loseMember s p.val
    else s)

/-- The retraining after a fault has ended: positions not heard since are lost (R629). -/
def retrainEnds (s : State) (b : Nat) : State :=
  match s.cn.retrainAt with
  | some e =>
    if e ≤ b then
      let s := { s with cn := { s.cn with retrainAt := none } }
      (others s).foldl (fun s p => if tget 0 s.cn.heard p + 256 ≤ e then loseMember s p else s) s
    else s
  | none => s

/-! ### Beats and time (R621 to R623) -/

/-- BEAT_ALIGN (R621): one beat is longer (`ahead`) or shorter by one fabric cycle, at most once in 1,024 beats. -/
def execBeatAlign (ahead : Bool) (s : State) : Host.Outcome State Fault Refusal :=
  .next (
    if briterUp s && s.cn.joined && decide (s.cn.pos ≠ s.cn.beatLeader) && decide (s.clk.lastAdjust + 1024 ≤ s.clk.beat) then
      { s with clk := { s.clk with adjust := s.clk.adjust + (if ahead then 1 else -1), lastAdjust := s.clk.beat } }
    else s)

/-- TIME_SLEW (R622, R623): A moves toward D by one beat per 1,024 beats, or jumps when they differ by over a second. -/
def execTimeSlew (s : State) : Host.Outcome State Fault Refusal :=
  .next (
    if !briterUp s || !followsTime s || (tget none s.cn.peers s.cn.timeLeader).isNone then s
    else
      let d := leaderDiff s
      let gap := d - s.cn.slew
      if 16000000 < gap.natAbs then
        let u := (BitVec.ofInt 64 gap).toNat
        followTime (raise { s with cn := { s.cn with slew := d, lastSlew := s.clk.beat } } 0x81 srcConsort
          (u % 2 ^ 32) (u / 2 ^ 32) 0 0)
      else if s.cn.lastSlew + 1024 ≤ s.clk.beat && gap ≠ 0 then
        followTime { s with cn := { s.cn with
          slew := s.cn.slew + (if 0 < gap then 1 else -1), lastSlew := s.clk.beat } }
      else s)

end Sys2Proof.Machine
end

