-- ==== Sys2Proof/Machine/HostLink.lean ====
section
/-! DEFINITION. The host link: UCIe retraining and loss, host resets, Global Persistent Flush, Mem_Enable, HDM decoders,
MSI-X unmasking, DOE, SPDM and IDE (R351, R388 to R397, R404 to R407, R412 to R415, R430, R432, R632). -/
namespace Sys2Proof.Machine

/-- Configuration space, mailbox and DOE answer: from the host-link step of startup on, unless the link is down (R408,
R471, R633). -/
def hostOpen (s : State) : Bool := ioOpen s && 10 ≤ s.pwr.step

/-- The identifiers of configuration space: Vendor ID, Device ID, Revision ID, class code, and Subsystem Vendor ID and
Subsystem ID as the keep store held them at the last start (R400). No row of the table reads configuration space. -/
def configIds (s : State) : List Nat :=
  [Config.vendorId.toNat, 0x5C4A, 0x11, 0x050210, s.hl.subsys % 2 ^ 16, s.hl.subsys / 2 ^ 16]

/-- The DVSECs of configuration space, by ID (R401). -/
def dvsecIds : List Nat := [0, 5, 7, 8]

/-! ### Host resets (R432, R494, R632) -/

/-- What every host reset does to pipes, semaphores, requests, credits and IDE. Completions that waited for a bell are
discarded; CXL.mem stays off. -/
def hostResetCore (s : State) : State :=
  let s := releaseSemas s 0
  { s with
    pp := { s.pp with
      pipes := (listedPipes s).foldl (fun t n =>
        tset (pipeReset n) t n { pipe s n with bell := none, rejCount := 0, rejCause := 0, rejected := false, en := false }) s.pp.pipes
      comps := s.pp.comps.filter fun c => !c.held }
    hl := { s.hl with memEnable := false, hdmPending := [] }
    hq := { s.hq with queue := [], creditsOn := false, rdCredits := 0, wrCredits := 0, holds := [] }
    ig := { s.ig with ideEnded := s.ig.ideEnded || s.ig.ideActive ≠ 0#2, ideActive := 0 } }

/-- The CXL component registers and MSI-X of a host reset: a Function Level Reset keeps the HDM decoders (log 43). -/
def hostResetRegs (s : State) (k : HostResetKind) : State :=
  { s with hl := { s.hl with msix := [], hdm := if k = .flr then s.hl.hdm else [] } }

/-- HOST_RESET (R432, R632). -/
def execHostReset (kind : HostResetKind) (s : State) : Host.Outcome State Fault Refusal :=
  .next (if hostOpen s then hostResetRegs (hostResetCore s) kind else s)

/-! ### Retraining, repair and loss (R394 to R397) -/

/-- The link is declared down: requests not admitted and responses not sent are discarded, admitted reads get no
response, and the host side is reset (R182, R397). -/
def declareDown (s : State) : State :=
  let s := hostResetRegs (hostResetCore s) .hot
  let s := { s with
    hl := { s.hl with state := .down, modUp := 0, leftActive := none, linkDowns := satAdd 16 s.hl.linkDowns 1 }
    hq := { s.hq with reads := [], egress := [] } }
  raise s 0x12 srcHost 0 0 0 0

/-- An active link leaves active to retrain: credits are withheld and responses wait (R396). -/
def startHostRetrain (s : State) : State :=
  if s.hl.state ≠ .active then s else
  let s := { s with hl := { s.hl with
    state := .retraining, leftActive := some s.clk.beat, retrains := satAdd 16 s.hl.retrains 1 } }
  raise s 0x11 srcHost 0 0 0 0

/-- The LANE_REPAIR record (R394, R585). -/
def laneRecord (s : State) : List Byte :=
  ((List.range 4).map fun m =>
    let r := tget {} s.hl.mods m
    leBytes 1 r.rxUsed ++ leBytes 1 r.txUsed ++ leBytes 1 r.lastRx ++ leBytes 1 r.lastTx).flatten

/-- A lane is repaired with a redundant one; the fifth repair of a module and direction fails the module (R394, R395,
R415). -/
def repairLane (s : State) (m : Nat) (tx : Bool) (lane : Nat) : State × Bool :=
  let r := tget {} s.hl.mods m
  let used := if tx then r.txUsed else r.rxUsed
  if 4 ≤ used then
    let s := { s with hl := { s.hl with mods := tset {} s.hl.mods m { r with failed := true } } }
    (exhaust (raise s 0x13 srcHost m 0 0 0) 5, false)
  else
    let r := if tx then { r with txUsed := used + 1, lastTx := lane } else { r with rxUsed := used + 1, lastRx := lane }
    let s := { s with hl := { s.hl with mods := tset {} s.hl.mods m r, aerCorrected := s.hl.aerCorrected ||| 0x4000 } }
    (raise (keepPut s 0x22 (laneRecord s)) 0x10 srcHost m lane 0 0, true)

/-- UCIE_RETRAIN (R394 to R396). -/
def execUcieRetrain (cause : RetrainCause) (s : State) : Host.Outcome State Fault Refusal :=
  .next (
    if !ioOpen s then s
    else match cause with
      | .laneRepair m tx lane =>
        let (s, ok) := repairLane s m.val tx lane.val
        if ok then startHostRetrain s else declareDown s
      | _ => startHostRetrain s)

/-- UCIE_RETRAIN_DONE (R181, R396): the responses that waited are sent; credits follow at the boundary. -/
def execUcieRetrainDone (s : State) : Host.Outcome State Fault Refusal :=
  .next (
    if s.hl.state = .retraining then
      { s with
        hl := { s.hl with state := .active, leftActive := none }
        hq := { s.hq with sent := s.hq.sent ++ s.hq.egress, egress := [] } }
    else s)

/-- LINK_DOWN (R397): 16,000 beats after it left active. -/
def execLinkDown (s : State) : Host.Outcome State Fault Refusal :=
  .next (match s.hl.leftActive with
    | some b => if s.hl.state = .retraining && decide (b + 16000 ≤ s.clk.beat) then declareDown s else s
    | none => s)

/-- LINK_TRAIN_RETRY (R393, R395, R397): an attempt brings the link up only when all four modules can train. -/
def execLinkTrainRetry (comesUp : Bool) (s : State) : Host.Outcome State Fault Refusal :=
  .next (
    if !awake s || s.pwr.step < 10 || (s.hl.state ≠ .down && s.hl.state ≠ .training) then s
    else if comesUp && (List.range 4).all (fun m => !(tget ({} : ModRec) s.hl.mods m).failed) then
      { s with hl := { s.hl with state := .active, modUp := 0xF, leftActive := none } }
    else { s with hl := { s.hl with state := .training } })

/-- UCIE_FLIT_CRC_FAIL (R398, R415): a replay is counted, and the CXL RAS correctable status keeps its count. -/
def execUcieFlitCrcFail (s : State) : Host.Outcome State Fault Refusal :=
  .next (
    if s.hl.state = .active then
      { s with hl := { s.hl with replays := satAdd 32 s.hl.replays 1, rasCorrectable := s.hl.rasCorrectable + 1 } }
    else s)

/-! ### Global Persistent Flush (R413) -/

/-- GPF_PHASE1: no host cache is held, so the answer is immediate. -/
def execGpfPhase1 (s : State) : Host.Outcome State Fault Refusal :=
  .next (if hostOpen s then { s with hl := { s.hl with gpf1Done := true } } else s)

/-- GPF_PHASE2: last breath starts at the next boundary and write credits are withheld. Where media are not up there is
nothing to save, and the phase completes at once. -/
def execGpfPhase2 (s : State) : Host.Outcome State Fault Refusal :=
  .next (
    if !hostOpen s then s
    else if ready s && !s.pwr.limited then { s with hl := { s.hl with gpfWaiting := true, gpfDone := false } }
    else { s with hl := { s.hl with gpfDone := true } })

/-! ### Mem_Enable, decoders, vectors (R351, R405, R407, R414, R430, R632, R639) -/

/-- MEM_ENABLE_SET: the key window closes, and LOCK is set if it is not; credits follow at a boundary. -/
def execMemEnableSet (s : State) : Host.Outcome State Fault Refusal :=
  .next (if hostOpen s then closeWindow { s with hl := { s.hl with memEnable := true } } else s)

/-- End of a decoder's DPA range, as its latest commit leaves it. -/
def decoderEnd (s : State) (n : Nat) : Nat :=
  let d : Hdm := ((s.hl.hdmPending.reverse.find? fun x => x.1 = n).map (·.2)).getD (tget {} s.hl.hdm n)
  d.dpaBase + if d.committed then d.size / d.ways else 0

/-- The decoder that a commit gives; a range beyond the capacity, or a setting that R405 does not support, sets Error
Not Committed. -/
def commitDecoder (s : State) (n : Nat) (x : HdmSetup) : Hdm :=
  let base := (if n = 0 then 0 else decoderEnd s (n - 1)) + x.skip.toNat
  let unit := 2 ^ 28 * x.ways
  let ok := x.ways ∈ [1, 2, 4, 8, 16] && x.gran ∈ [256, 512, 1024, 2048, 4096, 8192, 16384] && decide (x.pos < x.ways) &&
    decide (x.hpaBase.toNat % unit = 0) && decide (x.size.toNat % unit = 0) &&
    decide (base + x.size.toNat / x.ways ≤ s.mp.capGib * 2 ^ 30)
  { committed := ok, notCommitted := !ok, locked := x.lock && ok, hpaBase := x.hpaBase.toNat, size := x.size.toNat
    ways := x.ways, gran := x.gran, pos := x.pos, skip := x.skip.toNat, dpaBase := base }

/-- HDM_DECODER_COMMIT (R405, R407): a locked decoder is not changed; with Mem_Enable set the change waits for a boundary. -/
def execHdmDecoderCommit (n : Fin 4) (setup : HdmSetup) (s : State) : Host.Outcome State Fault Refusal :=
  .next (
    if !hostOpen s || (tget ({} : Hdm) s.hl.hdm n.val).locked then s
    else
      let d := commitDecoder s n.val setup
      if s.hl.memEnable then { s with hl := { s.hl with hdmPending := s.hl.hdmPending ++ [(n.val, d)] } }
      else { s with hl := { s.hl with hdm := tset {} s.hl.hdm n.val d } })

/-- Decoder changes that waited take effect (R407). -/
def decodersLive (s : State) : State :=
  { s with hl := { s.hl with hdm := s.hl.hdmPending.foldl (fun t x => tset {} t x.1 x.2) s.hl.hdm, hdmPending := [] } }

/-- Unmask a vector: a recorded pending bit sends one message (R414). -/
def unmaskVector (s : State) (v : Nat) : State :=
  { s with hl := { s.hl with msix := tupd {} s.hl.msix v fun m =>
      { m with masked := false, pending := false, sent := if m.pending then m.sent + 1 else m.sent } } }

/-- MSIX_UNMASK. -/
def execMsixUnmask (v : Fin 2048) (s : State) : Host.Outcome State Fault Refusal :=
  .next (if hostOpen s then unmaskVector s v.val else s)

/-! ### DOE, SPDM and IDE (R388 to R390, R412) -/

/-- The CDAT entries of R412, one structure's contents each; the layout of CDAT is an outside standard (log 5). -/
def cdatEntry (s : State) (h : Nat) : List Byte :=
  if h = 0 then leBytes 1 0 ++ leBytes 1 1 ++ leBytes 8 0 ++ leBytes 8 (s.mp.capGib * 2 ^ 30)
  else if h = 1 then leBytes 1 0 ++ leBytes 8 1000 ++ leBytes 8 250 ++ leBytes 8 1000
  else if h = 2 then leBytes 1 0 ++ leBytes 8 800000 ++ leBytes 8 800000 ++ leBytes 8 800000
  else if h = 3 then leBytes 1 0 ++ leBytes 1 1
  else []

/-- DOE_CDAT (R412): the entry of a handle, entries numbered in the order of the table. -/
def execDoeCdat (handle : Nat) (s : State) : Host.Outcome State Fault Refusal :=
  .next (if hostOpen s then { s with hl := { s.hl with doeReply := cdatEntry s handle } } else s)

/-- What measurement 4 hashes: regions, each domain's SOURCE and GENERATION, SYSKEY_GEN (R390). -/
def measured (s : State) : List Nat :=
  ((List.range 64).map fun n => (regionBase (region s n)).toNat * 2 ^ 64 + (regionCtrl (region s n)).toNat) ++
    ((List.range 16).map fun d => (domainKey s d).source * 2 ^ 32 + (domainKey s d).generation) ++ [s.ig.sysGen]

/-- SPDM_REQUEST (R390, R412): the answer covers the device's measurements; SPDM and its signatures are outside
standards (log 5). -/
def execSpdmRequest (code : Nat) (nonce : Nat) (s : State) : Host.Outcome State Fault Refusal :=
  .next (
    if hostOpen s then
      let m := (Config.measurement 4 (measured s)).toNat
      { s with hl := { s.hl with spdm := some (code, Config.spdmReply code (nonce + 2 ^ 256 * m)) } }
    else s)

/-- IDE_KM_KEY_PROG (R352, R389): keys are accepted only in the key window. -/
def execIdeKmKeyProg (stream : Fin 2) (s : State) : Host.Outcome State Fault Refusal :=
  .next (
    if hostOpen s && s.ig.keyWindow then
      { s with ig := { s.ig with ideProgrammed := s.ig.ideProgrammed ||| (1#2 <<< stream.val) } }
    else s)

/-- IDE_KM_K_SET_GO (R389): a stream with keys becomes active. -/
def execIdeKmKSetGo (stream : Fin 2) (s : State) : Host.Outcome State Fault Refusal :=
  .next (
    if hostOpen s && s.ig.keyWindow && s.ig.ideProgrammed.getLsbD stream.val then
      { s with ig := { s.ig with ideActive := s.ig.ideActive ||| (1#2 <<< stream.val) } }
    else s)

/-- IDE_KM_K_SET_STOP (R389): accepted at any time. -/
def execIdeKmKSetStop (stream : Fin 2) (s : State) : Host.Outcome State Fault Refusal :=
  .next (
    if hostOpen s then
      { s with ig := { s.ig with ideActive := s.ig.ideActive &&& (~~~ (1#2 <<< stream.val) : BitVec 2) } }
    else s)

/-- IDE_INTEGRITY_FAILURE (R389, R415): no further CXL.mem request is admitted until a reset; the error status bits are
those of the outside standards (log 44). -/
def execIdeIntegrityFailure (stream : Fin 2) (s : State) : Host.Outcome State Fault Refusal :=
  .next (
    if s.ig.ideActive.getLsbD stream.val && awake s then
      let s := { s with
        ig := { s.ig with ideStop := true }
        hl := { s.hl with
          rasUncorrectable := if stream.val = 0 then s.hl.rasUncorrectable ||| 0x10000 else s.hl.rasUncorrectable
          aerUncorrectable := if stream.val = 0 then s.hl.aerUncorrectable else s.hl.aerUncorrectable ||| 0x10000000 } }
      raise s 0x14 srcHost 0 0 0 0
    else s)

end Sys2Proof.Machine
end

