-- ==== Sys2Proof/Machine/Mailbox.lean ====
section
/-! DEFINITION. The CXL mailbox commands (R305, R306, R310 to R312, R344, R386, R408 to R411, R634, R643). Payload
layouts belong to the CXL standard, which is outside the spec: a reply holds the values that the spec states, in the
order in which it states them, in a layout of the model's own (log 5). -/
namespace Sys2Proof.Machine

/-! ### Running a command -/

/-- A reply: return code and payload; the doorbell clears and signals vector 0 (R408, R414). -/
def mboxReply (s : State) (op code : Nat) (payload : List Byte) : State :=
  signalVector { s with hl := { s.hl with doorbell := false, reply := { opcode := op, code := code, payload := payload } } } 0

/-- Commands of a limited start (R634): Get Event Records, Get Log, Identify, Get Health Info. -/
def mboxLimited (op : Nat) : Bool := op ∈ [0x0100, 0x0401, 0x4000, 0x4200]
/-- Commands before step 11 ends: Identify, logs, events, timestamps and health (R643). -/
def mboxEarly (op : Nat) : Bool :=
  op ∈ [0x0100, 0x0101, 0x0102, 0x0103, 0x0300, 0x0301, 0x0400, 0x0401, 0x4000, 0x4200, 0x4201, 0x4202]

/-- Run a mailbox command: Busy where the stage does not allow it, and nothing while an earlier one holds the doorbell, or while
no core holds role 0, which serves the mailbox (R34, R335; log 108). -/
def mbox (s : State) (op : Nat) (act : State → State) : State :=
  if !hostOpen s || !s.hl.mboxReady || s.hl.doorbell || (roleCore s 0).isNone then s
  else if s.pwr.limited then (if mboxLimited op then act s else mboxReply s op 6 [])
  else if s.pwr.step < 12 && !mboxEarly op then mboxReply s op 6 []
  else act s

/-! ### Events (R411) -/

def cxlLog (s : State) (n : Nat) : CxlLog := tget {} s.hl.logs n

/-- A record: its kind, its CXL timestamp and the event-recorder record. -/
def CxlRec.bytes (r : CxlRec) : List Byte :=
  leBytes 1 (match r.kind with | .media => 0 | .module => 1 | .vendor => 2) ++ leBytes 8 r.time ++ r.event.bytes

/-- CXL_GET_EVENT_RECORDS: the oldest records of a log and its overflow fields. -/
def execCxlGetEventRecords (log : Fin 4) (count : Nat) (s : State) : Host.Outcome State Fault Refusal :=
  .next (mbox s 0x0100 fun s =>
    let l := cxlLog s log.val
    let n := min count (min l.recs.length 1024)
    mboxReply s 0x0100 0 (leBytes 1 (if l.overflow then 1 else 0) ++ leBytes 2 l.overflowCount ++ leBytes 8 l.overflowTime ++
      leBytes 2 n ++ ((l.recs.take n).map CxlRec.bytes).flatten))

/-- CXL_CLEAR_EVENT_RECORDS: all, or the oldest `count`; more than there are is an invalid input. -/
def execCxlClearEventRecords (log : Fin 4) (clearAll : Bool) (count : Nat) (s : State) : Host.Outcome State Fault Refusal :=
  .next (mbox s 0x0101 fun s =>
    let l := cxlLog s log.val
    if !clearAll && l.recs.length < count then mboxReply s 0x0101 2 []
    else
      let rest := if clearAll then [] else l.recs.drop count
      mboxReply { s with hl := { s.hl with logs := tset {} s.hl.logs log.val { recs := rest } } } 0x0101 0 [])

/-- CXL_GET_EVENT_INTERRUPT_POLICY: one setting per log, 0 none, 1 MSI-X. -/
def execCxlGetEventInterruptPolicy (s : State) : Host.Outcome State Fault Refusal :=
  .next (mbox s 0x0102 fun s => mboxReply s 0x0102 0 (s.hl.evPolicy.map (BitVec.ofNat 8)))

/-- CXL_SET_EVENT_INTERRUPT_POLICY: MSI-X only (R409). -/
def execCxlSetEventInterruptPolicy (settings : List Nat) (s : State) : Host.Outcome State Fault Refusal :=
  .next (mbox s 0x0103 fun s =>
    if settings.length = 4 && settings.all (· ≤ 1) then
      mboxReply { s with hl := { s.hl with evPolicy := settings } } 0x0103 0 []
    else mboxReply s 0x0103 2 [])

/-! ### Firmware, time and logs (R409, R450, R569) -/

/-- CXL_GET_FW_INFO: one slot, active and not changeable; the revision is the ROM revision. -/
def execCxlGetFwInfo (s : State) : Host.Outcome State Fault Refusal :=
  .next (mbox s 0x0200 fun s => mboxReply s 0x0200 0 (leBytes 1 1 ++ leBytes 1 1 ++ leBytes 1 0 ++ leBytes 2 0x0104))

/-- CXL_GET_TIMESTAMP (R569). -/
def execCxlGetTimestamp (s : State) : Host.Outcome State Fault Refusal :=
  .next (mbox s 0x0300 fun s => mboxReply s 0x0300 0 (leBytes 8 (BitVec.ofInt 64 (hostTime s)).toNat))

/-- CXL_SET_TIMESTAMP (R569, R623). -/
def execCxlSetTimestamp (ts : BitVec 64) (s : State) : Host.Outcome State Fault Refusal :=
  .next (mbox s 0x0301 fun s => mboxReply (setHostTime s ts.toNat) 0x0301 0 [])

/-- The opcodes of R409. -/
def mboxOpcodes : List Nat :=
  [0x0100, 0x0101, 0x0102, 0x0103, 0x0200, 0x0300, 0x0301, 0x0400, 0x0401, 0x4000, 0x4200, 0x4201, 0x4202, 0x4203, 0x4204,
    0x4300, 0x4301, 0x4302, 0x4303, 0x4304, 0x4305, 0x4400, 0x4401]

/-- The UUID of a log, its first digit the most significant: the vendor logs 1 to 3 (R450), and for 0 the Command Effects Log,
whose UUID the CXL standard gives (log 5). -/
def logUuid (n : Nat) : Nat :=
  if n = 0 then 0x0da9c0b5bf414b788f7996b1623b3f17 else 0x5e1a70c29b3d4f618a0ed74c22f91a00 + n

/-- A log by its UUID: a vendor log, or the Command Effects Log, whose entries are the opcodes of R409. -/
def cxlLogBytes (s : State) (uuid : Nat) : Option (List Byte) :=
  match (List.range 4).find? fun n => logUuid n = uuid with
  | none => none
  | some 0 => some ((mboxOpcodes.map (leBytes 2)).flatten)
  | some n => some (vendorLog s n)

/-- CXL_GET_SUPPORTED_LOGS: each log's UUID and size. -/
def execCxlGetSupportedLogs (s : State) : Host.Outcome State Fault Refusal :=
  .next (mbox s 0x0400 fun s => mboxReply s 0x0400 0
    (((List.range 4).map fun n => (leBytes 16 (logUuid n)).reverse ++ leBytes 4 ((cxlLogBytes s (logUuid n)).getD []).length).flatten))

/-- CXL_GET_LOG: a log by its UUID, at most the 64 KiB payload (R408, R450). -/
def execCxlGetLog (log : Nat) (offset length : Nat) (s : State) : Host.Outcome State Fault Refusal :=
  .next (mbox s 0x0401 fun s =>
    match cxlLogBytes s log with
    | some l => if 65536 < length then mboxReply s 0x0401 2 [] else mboxReply s 0x0401 0 (logPiece l offset length)
    | none => mboxReply s 0x0401 2 [])

/-! ### Identity, health, shutdown state (R344, R409, R410) -/

/-- The part's identity: silicon revision, ROM revision and compatibility class (R5, R472). -/
def identityBytes : List Byte := [0x41#8, 0x31#8] ++ leBytes 2 0x0104 ++ leBytes 4 1

/-- CXL_IDENTIFY_MEMORY_DEVICE (R5, R409): the identity, in the 16 bytes that the CXL reply gives to revisions (log 109), then
total, volatile and persistent capacity in 256 MiB units, partition alignment, poison list maximum, injection limit. -/
def execCxlIdentifyMemoryDevice (s : State) : Host.Outcome State Fault Refusal :=
  .next (mbox s 0x4000 fun s => mboxReply s 0x4000 0
    (identityBytes ++ leBytes 8 0 ++ leBytes 8 (4 * s.mp.capGib) ++ leBytes 8 0 ++ leBytes 8 (4 * s.mp.capGib) ++ leBytes 8 0 ++ leBytes 3 16384 ++ leBytes 2 64))

/-- Media Status of Get Health Info: 0 normal, 1 not ready, 2 disabled (R344). -/
def healthMedia (s : State) : Nat := if s.pwr.disabled then 2 else if s.pwr.step < 12 then 1 else 0

/-- CXL_GET_HEALTH_INFO (R344). -/
def execCxlGetHealthInfo (s : State) : Host.Outcome State Fault Refusal :=
  .next (mbox s 0x4200 fun s => mboxReply s 0x4200 0
    (leBytes 1 (healthStatus s) ++ leBytes 1 (healthMedia s) ++ leBytes 1 (lifeUsed s) ++ leBytes 2 (int16 (deviceTemp s / 16)) ++
      leBytes 4 s.pwr.dirtyCount ++ leBytes 4 (correctedVolatile s) ++ leBytes 4 (correctedPersistent s)))

/-- CXL_GET_ALERT_CONFIG (R409). -/
def execCxlGetAlertConfig (s : State) : Host.Outcome State Fault Refusal :=
  .next (mbox s 0x4201 fun s => mboxReply s 0x4201 0 (leBytes 1 s.hl.alertLife ++ leBytes 2 s.hl.alertTemp ++ leBytes 4 s.hl.alertCorr))

/-- CXL_SET_ALERT_CONFIG (R409). -/
def execCxlSetAlertConfig (lifeUsed temp corrected : Nat) (s : State) : Host.Outcome State Fault Refusal :=
  .next (mbox s 0x4202 fun s =>
    mboxReply { s with hl := { s.hl with alertLife := lifeUsed, alertTemp := temp, alertCorr := corrected } } 0x4202 0 [])

/-- CXL_GET_SHUTDOWN_STATE (R410): 0 while none was ever set. -/
def execCxlGetShutdownState (s : State) : Host.Outcome State Fault Refusal :=
  .next (mbox s 0x4203 fun s => mboxReply s 0x4203 0 (((keepGet s 4).getD [0]).take 1))

/-- CXL_SET_SHUTDOWN_STATE (R410). -/
def execCxlSetShutdownState (v : Byte) (s : State) : Host.Outcome State Fault Refusal :=
  .next (mbox s 0x4204 fun s => mboxReply (keepPut s 4 [v]) 0x4204 0 [])

/-! ### Poison (R306, R310 to R312) -/

/-- A line of the capacity. -/
def lineDpa (s : State) (dpa : Nat) : Bool := dpa % 64 = 0 && decide (dpa < s.mp.capGib * 2 ^ 30)

/-- A range of whole lines inside the capacity. -/
def lineRange (s : State) (dpa length : Nat) : Bool :=
  dpa % 64 = 0 && decide (0 < length) && decide (dpa + 64 * length ≤ s.mp.capGib * 2 ^ 30)

def PoisonSource.code : PoisonSource → Nat
  | .external => 1 | .internal => 2 | .injected => 3

/-- CXL_GET_POISON_LIST: the records that meet a range of lines; the payload holds 64 KiB. -/
def execCxlGetPoisonList (dpa : Nat) (length : Nat) (s : State) : Host.Outcome State Fault Refusal :=
  .next (mbox s 0x4300 fun s =>
    if !lineRange s dpa length then mboxReply s 0x4300 0xF []
    else
      let l := (s.ecc.poison.filter fun r => r.dpa < dpa + 64 * length && dpa < r.dpa + 64 * r.lines).take 5000
      mboxReply s 0x4300 0 (leBytes 1 (if s.ecc.poisonOvf then 1 else 0) ++ leBytes 8 s.ecc.poisonOvfTime ++ leBytes 2 l.length ++
        (l.map fun r => leBytes 8 r.dpa ++ leBytes 4 r.lines ++ leBytes 1 (PoisonSource.code r.source)).flatten))

/-- Lines that Inject Poison has entered and nothing has cleared. -/
def injectedLines (s : State) : Nat := ((s.ecc.poison.filter fun r => r.source = .injected).map (·.lines)).sum

/-- CXL_INJECT_POISON (R306, R307, R409): the list names the line and its marker goes to media; at most 64 lines. -/
def execCxlInjectPoison (dpa : Nat) (s : State) : Host.Outcome State Fault Refusal :=
  .next (mbox s 0x4301 fun s =>
    if !lineDpa s dpa || (regionOf s dpa).isNone then mboxReply s 0x4301 0xF []
    else if poisonHas s dpa then mboxReply s 0x4301 0 []
    else if 64 ≤ injectedLines s then mboxReply s 0x4301 0x10 []
    else
      let page := pageOf dpa
      let s := placeMarker (poisonEnter s dpa .injected) page (lineOf dpa) (pageAttrs s page (entryNow s page)).2
      mboxReply s 0x4301 0 [])

/-- A full-line write of the device's own, to a line of a host page (R310). -/
def fullLineWrite (s : State) (page line : Nat) (data : LineData) : State :=
  let s := cancelSeal s
  let s := if (entry? s page).isNone then { s with mp := { s.mp with fills := addNew s.mp.fills (segNo page) } } else s
  saggarWrite s page line (BitVec.allOnes 64) data false (pageAttrs s page (entryNow s page)).2

/-- CXL_CLEAR_POISON (R310): a full-line write of the data supplied; its verified drain clears the record (R208). -/
def execCxlClearPoison (dpa : Nat) (data : LineData) (s : State) : Host.Outcome State Fault Refusal :=
  .next (mbox s 0x4302 fun s =>
    if !lineDpa s dpa || (regionOf s dpa).isNone then mboxReply s 0x4302 0xF []
    else mboxReply (fullLineWrite s (pageOf dpa) (lineOf dpa) data) 0x4302 0 [])

/-! ### Scan Media (R305, R312, R409) -/

/-- CXL_GET_SCAN_MEDIA_CAPS: the estimated time of a scan, which the spec does not state (log 8). -/
def execCxlGetScanMediaCaps (dpa : Nat) (length : Nat) (s : State) : Host.Outcome State Fault Refusal :=
  .next (mbox s 0x4303 fun s =>
    if !lineRange s dpa length then mboxReply s 0x4303 0xF []
    else
      let (d, s) := draw s
      mboxReply s 0x4303 0 (leBytes 4 (Config.freeWord d).toNat))

/-- CXL_SCAN_MEDIA: the scan runs in the background, page by page. -/
def execCxlScanMedia (dpa : Nat) (length : Nat) (s : State) : Host.Outcome State Fault Refusal :=
  .next (mbox s 0x4304 fun s =>
    if s.hl.mboxBusy.isSome then mboxReply s 0x4304 6 []
    else if !lineRange s dpa length then mboxReply s 0x4304 0xF []
    else
      let first := pageOf dpa
      let range := (first, pageOf (dpa + 64 * length - 1) - first + 1)
      let pages := contentPages s range
      let s := mboxReply { s with hl := { s.hl with
        mboxBusy := some 0x4304, scanRange := some range, scanPages := pages, scanFound := [], scanDone := false } } 0x4304 1 []
      if pages.isEmpty then endScan s else s)

/-- CXL_GET_SCAN_MEDIA_RESULTS: the lines found poisoned by the scan that has completed. -/
def execCxlGetScanMediaResults (s : State) : Host.Outcome State Fault Refusal :=
  .next (mbox s 0x4305 fun s =>
    if s.hl.mboxBusy = some 0x4304 then mboxReply s 0x4305 6 []
    else mboxReply s 0x4305 0 (leBytes 8 (((s.hl.scanRange.map (·.1)).getD 0) * 4096) ++ leBytes 4 s.hl.scanFound.length ++
      ((s.hl.scanFound.take 8000).map (leBytes 8)).flatten))

/-! ### Erases (R386, R410) -/

/-- CXL_SANITIZE: background; Busy while an erase or another background command runs. -/
def execCxlSanitize (s : State) : Host.Outcome State Fault Refusal :=
  .next (mbox s 0x4400 fun s =>
    if s.hl.mboxBusy.isSome || eraseRuns s then mboxReply s 0x4400 6 []
    else mboxReply { s with
      hl := { s.hl with mboxBusy := some 0x4400 }
      ig := { s.ig with erasesQueued := s.ig.erasesQueued ++ [(1, none)] } } 0x4400 1 [])

/-- CXL_SECURE_ERASE: the doorbell stays set until the erase completes (R410). -/
def execCxlSecureErase (s : State) : Host.Outcome State Fault Refusal :=
  .next (mbox s 0x4401 fun s =>
    if eraseRuns s then mboxReply s 0x4401 6 []
    else { s with
      hl := { s.hl with doorbell := true, reply := { opcode := 0x4401, code := 1 } }
      ig := { s.ig with erasesQueued := s.ig.erasesQueued ++ [(0, none)] } })

/-- CXL_MAILBOX_UNSUPPORTED: every other opcode (R409); an opcode of the table is none of them. -/
def execCxlMailboxUnsupported (opcode : Nat) (s : State) : Host.Outcome State Fault Refusal :=
  .next (
    if opcode ∈ mboxOpcodes then s
    else if !hostOpen s || !s.hl.mboxReady || s.hl.doorbell || (roleCore s 0).isNone then s
    else if s.pwr.limited then mboxReply s opcode 6 [] else mboxReply s opcode 3 [])

end Sys2Proof.Machine
end

