-- ==== Sys2Proof/Machine/RegFile.lean ====
section
/-! DEFINITION. The fingering chart and the register file: where a BAR offset leads, what a read returns and clears, what
a write changes, and who may access (R25, R402, R403, R415, R471 to R496). -/
namespace Sys2Proof.Machine

/-! ### The chart (R471 to R483) -/

/-- A block entry (R474). -/
structure Block where
  type : Nat
  bar : Nat
  base : Nat
  stride : Nat := 0
  length : Nat
  count : Nat := 1
  shadowOff : Nat := 0
  retain : Nat := 0
  wake : Nat := 0
  caps : Nat := 0
  deriving DecidableEq, Repr

/-- The blocks of silicon revision A1, in ascending TYPE (R479). -/
def blocks : List Block :=
  [{ type := 0x01, bar := 0, base := 0x10000, length := 0x1000, retain := 3 },
   { type := 0x02, bar := 0, base := 0x11000, length := 0x1000 },
   { type := 0x03, bar := 0, base := 0x22000, stride := 0x100, length := 0x100, count := 18, wake := 4, caps := 4 },
   { type := 0x10, bar := 0, base := 0x12000, length := 0x1000, retain := 2 },
   { type := 0x11, bar := 0, base := 0x20000, stride := 0x80, length := 0x80, count := 64, retain := 2 },
   { type := 0x12, bar := 0, base := 0x13000, length := 0x1000, shadowOff := 0x800, retain := 1, caps := 1 },
   { type := 0x13, bar := 0, base := 0x14000, length := 0x1000, shadowOff := 0x800, retain := 1, caps := 1 },
   { type := 0x14, bar := 0, base := 0x15000, length := 0x1000, shadowOff := 0x800, retain := 0x11, caps := 1 }] ++
  [{ type := 0x15, bar := 0, base := 0x16000, length := 0x2000, shadowOff := 0xC00, retain := 0x11, caps := 1 },
   { type := 0x16, bar := 0, base := 0x40000, length := 0x6000, shadowOff := 0x800, retain := 0x21, caps := 1 },
   { type := 0x17, bar := 0, base := 0x18000, length := 0x1000, retain := 2 },
   { type := 0x20, bar := 0, base := 0x30000, stride := 0x20, length := 0x20, count := 1152 },
   { type := 0x30, bar := 0, base := 0x19000, length := 0x1000 },
   { type := 0x31, bar := 0, base := 0x100000, length := 0x82000, retain := 0x71, caps := 2 },
   { type := 0x32, bar := 2, base := 0, stride := 0x1000, length := 0x1000, count := 32768, retain := 0x71 },
   { type := 0x33, bar := 0, base := 0x200000, length := 0x10000, retain := 0x61 },
   { type := 0x34, bar := 0, base := 0x210000, length := 0x20000 },
   { type := 0x35, bar := 0, base := 0x240000, stride := 0x10000, length := 0x10000, count := 4, retain := 0x61 },
   { type := 0x36, bar := 0, base := 0x300000, length := 0x8000, retain := 0x61 }] ++
  [{ type := 0x37, bar := 0, base := 0x308000, length := 0x100, retain := 0x61 },
   { type := 0x40, bar := 0, base := 0x1A000, length := 0x1000, shadowOff := 0x800, retain := 3, caps := 1 },
   { type := 0x41, bar := 0, base := 0x1B000, length := 0x1000, shadowOff := 0x800, retain := 0x21, wake := 2, caps := 5 },
   { type := 0x42, bar := 0, base := 0x1C000, length := 0x1000, retain := 2, wake := 12, caps := 4 },
   { type := 0x50, bar := 0, base := 0x1D000, length := 0x1000, retain := 0x31 },
   { type := 0x51, bar := 0, base := 0x1E000, stride := 0x200, length := 0x200, count := 8, retain := 0x31 },
   { type := 0x52, bar := 0, base := 0x24000, stride := 0x100, length := 0x100, count := 67, retain := 0x51 },
   { type := 0x60, bar := 0, base := 0x1F000, length := 0x1000, shadowOff := 0x800, retain := 0x41, caps := 1 },
   { type := 0x70, bar := 4, base := 0, length := 0x4000000 },
   { type := 0x71, bar := 4, base := 0x4000000, length := 0x200000, caps := 8 },
   { type := 0x72, bar := 4, base := 0x5000000, stride := 0x80000, length := 0x80000, count := 8 }]

/-- A block entry's 32 bytes (R474, R479). -/
def Block.bytes (b : Block) : List Byte :=
  leBytes 2 b.type ++ leBytes 1 1 ++ leBytes 1 b.bar ++ leBytes 4 b.count ++ leBytes 4 b.base ++ leBytes 4 b.stride ++
    leBytes 4 b.length ++ leBytes 2 b.shadowOff ++ leBytes 1 b.retain ++ leBytes 1 b.wake ++ leBytes 8 b.caps

/-- The LIMITS record (R480). -/
def limitsBytes : List Byte :=
  leBytes 4 (0xFF018001) ++ leBytes 4 32768 ++ leBytes 1 64 ++ leBytes 1 16 ++ leBytes 1 67 ++ leBytes 1 64 ++ leBytes 2 2048 ++
    leBytes 2 256 ++ leBytes 1 8 ++ leBytes 1 4 ++ leBytes 1 18 ++ leBytes 1 120 ++ leBytes 4 65536 ++ leBytes 4 4194304 ++
    leBytes 4 0

/-- SRAM partitions: base and size in MiB (R38). -/
def partitions : List (Nat × Nat) :=
  [(0, 512), (0x20000000, 64), (0x24000000, 64), (0x28000000, 96), (0x2E000000, 128), (0x36000000, 32), (0x38000000, 64),
   (0x3C000000, 32), (0x3E000000, 32)]

/-- A PARTITION record (R481). -/
def partitionBytes (i : Nat) : List Byte :=
  let p := partitions.getD i (0, 0)
  leBytes 4 0xFF018002 ++ leBytes 1 i ++ leBytes 3 0 ++ leBytes 4 p.1 ++ leBytes 4 (p.2 * 2 ^ 20) ++ leBytes 16 0

/-- A link whose package is accepted: its fields stand in the chart (R77, R106, R483). -/
def packageAccepted (s : State) (n : Nat) : Bool :=
  (link s n).pkg.isSome && ((link s n).state.serves || (link s n).state = .retrain || (link s n).state = .draining)

/-- The POPULATION record (R482). -/
def populationBytes (s : State) : List Byte :=
  leBytes 4 0xFF018003 ++ leBytes 1 s.mp.pop.length ++ leBytes 1 s.mp.mapNr ++ leBytes 2 0 ++ leBytes 8 (rankMask s.mp.pop) ++
    leBytes 8 (rankMask s.mp.mapRanks) ++ leBytes 2 ((List.range 1152).filter (packageAccepted s)).length ++ leBytes 6 0

/-- A PACKAGE record (R483). -/
def packageBytes (s : State) (n : Nat) : List Byte :=
  let ok := packageAccepted s n
  let p := if ok then pkgOf s n else { dieGood := 0 }
  leBytes 4 0xFF018004 ++ leBytes 2 n ++ leBytes 1 ((if ok then 1 else 0) + if (link s n).state = .refused then 2 else 0) ++
    leBytes 1 0 ++ leBytes 8 p.serial ++ leBytes 4 p.maker ++ leBytes 4 p.part ++ leBytes 4 p.dieGood.toNat ++
    leBytes 2 p.bblCount ++ leBytes 2 0

/-- The 64 bytes of the header (R472). -/
def headerBytes (s : State) : List Byte :=
  leBytes 4 0x54484346 ++ leBytes 2 1 ++ leBytes 2 32 ++ leBytes 2 1193 ++ leBytes 2 30 ++ leBytes 4 0 ++ leBytes 8 s.ln.chartGen ++
    [0x41#8, 0x31#8] ++ leBytes 2 0x0104 ++ leBytes 4 1 ++ leBytes 4 65536 ++ leBytes 28 0

/-- Entry `i` of the chart; nothing lies after the last one. -/
def entryBytes (s : State) (i : Nat) : List Byte :=
  match blocks[i]? with
  | some b => b.bytes
  | none =>
    if i = 30 then limitsBytes
    else if i < 40 then partitionBytes (i - 31)
    else if i = 40 then populationBytes s
    else if i < 1193 then packageBytes s (i - 41)
    else List.replicate 32 0

/-- The register of 8 bytes at a chart offset that is a multiple of 8. -/
def chartValue (s : State) (o : Nat) : Nat :=
  let l := if o < 64 then (headerBytes s).drop o else (entryBytes s ((o - 64) / 32)).drop ((o - 64) % 32)
  leNat (l.take 8)

/-! ### Where an offset leads (R403, R474) -/

/-- Block type, instance and offset within it. -/
def locate (bar off : Nat) : Option (Nat × Nat × Nat) :=
  blocks.findSome? fun b =>
    if b.bar ≠ bar || off < b.base then none
    else
      let k := if b.stride = 0 then 0 else (off - b.base) / b.stride
      let o := off - b.base - k * b.stride
      if k < b.count && o < b.length then some (b.type, k, o) else none

/-- The sizes and alignments of R403. -/
def barAccessOk (bar off size : Nat) : Bool :=
  if bar = 4 then decide (1 ≤ size ∧ size ≤ 64) && decide (off % 64 + size ≤ 64)
  else (size = 4 || size = 8) && off % size = 0

/-! ### Values -/

def flag (b : Bool) (i : Nat) : Nat := if b then 2 ^ i else 0

/-- A two's-complement field of `w` bits. -/
def signed (w : Nat) (v : Int) : Nat := (v % 2 ^ w).toNat

/-- A percentage of a pass. -/
def passPct (p : Pass) : Nat := if p.total = 0 then 0 else 100 * p.visited / p.total

/-- HELD and HOLDER of a semaphore. -/
def semaValue (s : State) (n : Nat) : Nat := ((tget none s.pp.sema n).map fun h => 0x8000 + h.toNat).getD 0

/-- Bank `b` of a queue holds a closed packet that is not released (CAPQ_STAT). -/
def bankHeld (c : CapQ) (b : Nat) : Bool :=
  [1, 2].any fun i => i ≤ c.prod / 4096 && (c.prod / 4096 - i) % 2 = b && decide (c.rel < 4096 * (c.prod / 4096 - i + 1))

/-- Codes of states in the registers. -/
def HlState.code : HlState → Nat
  | .down => 0 | .training => 1 | .active => 2 | .retraining => 3 | .lowPower => 4
def PartState.code : PartState → Nat
  | .absent => 0 | .serving => 1 | .failed => 2 | .resyncing => 3

/-- The map and tree block, 0 while no geometry is set. -/
def geomFirst (blks first : Nat) : Nat := if blks = 0 then 0 else first

/-- Startup has loaded the map's geometry, its regions and its rotation: the root step has ended (R118, R138, R342). -/
def mapLoaded (s : State) : Bool := 10 ≤ s.pwr.step && !s.pwr.limited

/-- BCLK, SEMA, XLAT and XMAP; the last two read as reset until startup has loaded them (R118). -/
def regMap (s : State) (t k o : Nat) : Nat :=
  if t = 0x01 then
    if o = 0 then s.clk.beat
    else if o = 8 then stampNow s
    else if o = 0x10 then s.clk.switchCount * 2 ^ 16 + s.clk.refLock.toNat * 2 ^ 8 + s.clk.refFault.toNat * 2 ^ 4 + s.clk.fabricRef
    else 0
  else if t = 0x02 then
    if o = 0 then ((List.range 64).map fun n => flag (tget none s.pp.sema n).isSome n).sum
    else if 0x100 ≤ o && o < 0x300 then semaValue s ((o - 0x100) / 8)
    else if 0x400 ≤ o && o < 0x600 then semaValue s ((o - 0x400) / 8)
    else 0
  else if !mapLoaded s then 0
  else if t = 0x10 then
    if o = 0 then s.mp.capGib
    else if o = 8 then s.mp.mapBlks * 2 ^ 32 + geomFirst s.mp.mapBlks (mapBlkFirst s) * 2 ^ 16 + s.mp.mapNr
    else if o = 0x10 then s.mp.dirtyMax * 2 ^ 32 + mapDirty s
    else if o = 0x18 then s.mp.mapN
    else if 0x100 ≤ o && o < 0x500 then
      let r := region s ((o - 0x100) / 16)
      (if o % 16 = 0 then regionBase r else regionCtrl r).toNat
    else if o = 0x600 then ((List.range 64).map fun n => flag (region s n).regime n).sum
    else if 0x800 ≤ o && o < 0x880 then
      let m := migSlot s ((o - 0x800) / 32)
      if o % 32 = 0 then migA m else if o % 32 = 8 then migB m else if o % 32 = 16 then migC m else 0
    else 0
  else
    let r := rot s k
    if o = 0 then r.gap * 2 ^ 32 + r.start
    else if o = 8 then min r.moves (2 ^ 32 - 1) * 2 ^ 32 + r.writes % 2 ^ 16
    else if 0x40 ≤ o && o < 0x80 then
      match r.swaps[(o - 0x40) / 8]? with
      | some (src, dst) => 2 ^ 63 + dst * 2 ^ 24 + src
      | none => 0
    else 0

/-- SAGR, PLCE, DRFT and ECC. -/
def regMedia (s : State) (t o : Nat) : Nat :=
  if t = 0x12 then
    if o = 0 then s.sag.dirtyLimit * 2 ^ 32 + highWater s
    else if o = 8 then poolLines s * 2 ^ 21 + guarantee s
    else if o = 0x10 then flag s.sag.withheld 63 + internalUsed s * 2 ^ 42 + poolUsed s * 2 ^ 21 + sagUsed s
    else if o = 0x20 then s.sag.episodes * 2 ^ 32 + s.sag.withheldBeats
    else if 0x100 ≤ o && o < 0x300 then pooledOf s ((o - 0x100) / 8) * 2 ^ 21 + ownUsed s ((o - 0x100) / 8)
    else 0
  else if t = 0x13 then
    if o = 0x10 then s.pl.heatEpoch
    else if 0x100 ≤ o && o < 0x500 then
      let n := (o - 0x100) / 16
      if o % 16 = 0 then (rankPl s n).budget * 2 ^ 56 + bisqueUse s n * 2 ^ 20 + freeGlaze s n
      else (rankPl s n).meanCycles * 2 ^ 48 + min (rankPl s n).reclaimed (2 ^ 32 - 1)
    else 0
  else if t = 0x14 then
    if o = 8 then flag s.dr.sweepActive 63 + s.dr.swept * 2 ^ 23 + s.dr.total
    else if o = 0x10 then driftReady s
    else if o = 0x18 then s.dr.captures * 2 ^ 32 + s.dr.coefChanges * 2 ^ 16 + s.dr.targetChanges
    else 0
  else
    if o = 8 then s.ecc.ovf.toNat
    else if o = 0x10 then flag s.ecc.poisonOvf 63 + s.ecc.poison.length
    else if o = 0x18 then flag (s.ecc.passes.any fun p => p.2.running && p.2.dirty) 63 + s.ecc.overruns * 2 ^ 16
    else if 0x100 ≤ o && o < 0x900 then
      let n := (o - 0x100) / 32
      let e := rankEcc s n
      if o % 32 = 0 then e.ovfCount * 2 ^ 48 + e.level * 2 ^ 32 + e.corrected
      else if o % 32 = 8 then e.uncorrectable * 2 ^ 32 + e.escalations
      else if o % 32 = 16 then
        passPct (scrubPass s n false) * 2 ^ 56 + passPct (scrubPass s n true) * 2 ^ 48 + (scrubPass s n false).step % 2 ^ 32
      else 0
    else if 0x1000 ≤ o && o < 0x1400 then
      let c := sramCh s ((o - 0x1000) / 8)
      c.ue * 2 ^ 48 + c.ce * 2 ^ 32 + c.lastRow % 2 ^ 24
    else 0

/-- WEAR, INTG, GLNK and HLNK. -/
def regHealth (s : State) (t k o : Nat) : Nat :=
  if t = 0x16 then
    if o = 8 then flag (!s.wr.exhausted.isEmpty) 63 + (spareBs s).toNat * 2 ^ 28 + s.wr.spareBs0
    else if o = 0x10 then s.wr.failovers * 2 ^ 48 + s.wr.sparesLeft * 2 ^ 32 + s.wr.failed.toNat
    else if o = 0x18 then s.wr.rowsUsed * 2 ^ 32 + s.wr.chUsed.toNat * 2 ^ 8
    else if 0x100 ≤ o && o < 0x300 then
      let l := s.pl.stripes.filter fun x => bsRank x.1 = (o - 0x100) / 8
      maxOf (l.map fun x => x.2.cycles) * 2 ^ 49 + (l.filter fun x => x.2.state = .retired).length * 2 ^ 32 +
        maxOf (l.map fun x => x.2.buses) * 2 ^ 25 + (l.filter fun x => x.2.degraded && x.2.state != .retired).length
    else if 0x1000 ≤ o && o < 0x1000 + 1152 * 16 then
      let n := (o - 0x1000) / 16
      let w := linkWear s n
      if o % 16 = 0 then flag w.subst 63 + w.substDie * 2 ^ 56 + rebuildPct s n true * 2 ^ 48 + w.substAt % 2 ^ 40 else wearLinkB s n
    else 0
  else if t = 0x17 then
    if o = 0 then intgStatus s
    else if o = 8 then
      geomFirst s.mp.treeBlks (treeBlkFirst s) * 2 ^ 51 + s.mp.treeBlks * 2 ^ 43 + nodesB s * 2 ^ 25 + nodesA s
    else if o = 0x10 then s.ig.tagFail * 2 ^ 32 + s.ig.freshFail
    else if 0x100 ≤ o && o < 0x500 then
      if o % 16 = 0 then (rot s ((o - 0x100) / 16)).tgap * 2 ^ 32 + (rot s ((o - 0x100) / 16)).tstart else 0
    else if 0x800 ≤ o && o < 0x880 then intgDomain s ((o - 0x800) / 8)
    else 0
  else if t = 0x20 then
    let l := link s k
    if o = 0 then l.roundTrip * 2 ^ 16 + l.cause * 2 ^ 8 + l.state.code
    else if o = 8 then l.hdrFail * 2 ^ 48 + l.slotFail * 2 ^ 32 + l.replays * 2 ^ 16 + l.retrains
    else if o = 16 then l.ffe * 2 ^ 32 + l.eyeV * 2 ^ 16 + l.eyeH
    else l.hotDie * 2 ^ 16 + signed 16 l.maxTemp
  else
    if o = 0 then s.hl.modUp.toNat * 2 ^ 8 + s.hl.state.code
    else if o = 8 then s.hl.retrains * 2 ^ 48 + s.hl.linkDowns * 2 ^ 32 + s.hl.replays
    else if 0x10 ≤ o && o < 0x30 then
      let m := tget {} s.hl.mods ((o - 0x10) / 8)
      m.rxUsed * 2 ^ 36 + m.txUsed * 2 ^ 32 + m.lastRx * 2 ^ 8 + m.lastTx
    else 0

/-- PBND, PIPE, MSIX and MPBA; a mouthpiece reads 0. The layout of the MSI-X table is PCIe's (log 5). -/
def regPipe (s : State) (t k o : Nat) : Nat :=
  if t = 0x31 then
    if o = 0 then s.pp.badPipe * 2 + flag s.pp.lock 0
    else if 0x1000 ≤ o && o < 0x2000 then
      ((List.range 64).map fun j => flag (pipe s ((o - 0x1000) / 8 * 64 + j)).bell.isSome j).sum
    else if 0x2000 ≤ o then
      let p := pipe s ((o - 0x2000) / 16)
      (if o % 16 = 0 then entryA p else entryB p).toNat
    else 0
  else if t = 0x32 then
    let p := pipe s k
    if o = 8 then (bellWord p.bell).toNat
    else if o = 0x10 then
      p.rejCount * 2 ^ 16 + p.rejCause * 2 ^ 8 + flag p.rejected 3 + flag p.valid 2 + flag p.bell.isSome 1 + flag p.mouth.isSome 0
    else if o = 0x18 then flag p.en 0
    else 0
  else if t = 0x36 then
    let m := tget {} s.hl.msix (o / 16)
    if o % 16 = 0 then m.addr.toNat else m.data % 2 ^ 32 + flag m.masked 32
  else ((List.range 64).map fun j => flag (tget {} s.hl.msix (o / 8 * 64 + j)).pending j).sum

/-- PWRS, HKEP and KEEP. -/
def regPower (s : State) (t o : Nat) : Nat :=
  if t = 0x40 then
    if o = 0 then s.pwr.wakes * 2 ^ 32 + s.pwr.wakeSrc * 2 ^ 8 + (if s.pwr.state = .idle then 1 else 0)
    else if o = 0x18 then s.pwr.bankFail.toNat
    else if o = 0x20 then s.pwr.bseq % 2 ^ 32 * 2 ^ 32 + s.pwr.cause * 2 ^ 28 + flag s.pwr.standing 27 + s.pwr.beats
    else if o = 0x28 then s.pwr.tAv * 2 ^ 32 + s.pwr.vStart * 2 ^ 16 + flag s.pwr.measured 0
    else if o = 0x30 then s.pwr.lastStart * 2 ^ 32 + s.pwr.dirtyCount % 2 ^ 32
    else 0
  else if t = 0x41 then
    if o = 0 then s.th.vbat * 2 ^ 48 + s.th.holdup * 2 ^ 32 + s.th.uv.toNat
    else if o = 8 then ((List.range 48).map fun c => flag (chan s c).broken c).sum
    else if o = 0x10 then ((List.range 48).map fun c => flag (chan s c).retired c).sum
    else if 0x200 ≤ o && o < 0x300 then
      let z := zone s ((o - 0x200) / 16)
      z.level * 2 ^ 61 + z.floor * 2 ^ 58 + z.good * 2 ^ 52 + z.hotSrc * 2 ^ 40 + (Config.rateField z.rate).toNat * 2 ^ 16 +
        signed 16 z.temp
    else 0
  else
    if o = 0 then
      flag s.clk.cont 63 + flag s.clk.tvalid 62 + flag s.clk.xtalFault 61 + flag s.clk.subst 60 + signed 8 s.clk.trim * 2 ^ 48 +
        s.clk.losses * 2 ^ 32 + s.clk.subsec
    else if o = 8 then signed 64 s.clk.offset
    else if o = 0x10 then
      s.kp.mir.code * 2 ^ 58 + s.kp.pri.code * 2 ^ 56 + s.kp.mirSize * 2 ^ 40 + s.kp.priSize * 2 ^ 32 + s.kp.maxErase * 2 ^ 14 +
        (s.kp.sectors - 2)
    else if o = 0x18 then s.kp.seq % 2 ^ 32 * 2 ^ 32 + s.kp.gen % 2 ^ 16 * 2 ^ 16 + s.kp.live
    else if o = 0x20 then s.kp.fails * 16 + s.kp.mode % 16
    else 0

/-- EVNT, CAPQ, MON and CNSR. -/
def regEvent (s : State) (t k o : Nat) : Nat :=
  if t = 0x50 then
    if o = 0 then s.ev.head
    else if o = 8 then flag s.ev.frozen 63 + s.ev.frozenCount
    else if o = 0x10 then s.ev.suppressed * 2 ^ 32 + s.ev.dropped
    else if o = 0x18 then flag s.ev.held 63 + s.ev.rdsel
    else if 0x20 ≤ o && o < 0x40 then (s.ev.words.getD ((o - 0x20) / 8) 0).toNat
    else if o = 0x40 then s.ev.crits % 2 ^ 32
    else if o = 0x48 then 0xFF00
    else 0
  else if t = 0x51 then
    let c := capQ s k
    if o = 0 then capProd c
    else if o = 8 then c.rel
    else if o = 0x10 then (match c.mark with | some m => 2 ^ 63 + m | none => 0)
    else if o = 0x18 then c.timeout * 2 ^ 32 + c.classes.toNat
    else if o = 0x20 then c.lost * 2 ^ 32 + flag (bankHeld c 1) 1 + flag (bankHeld c 0) 0
    else 0
  else if t = 0x52 then
    let m := mon s k
    if o = 0 then s.ev.runBeats
    else if o < 0x48 then
      let x := m.sel.getD ((o - 8) / 8) (0, 0xFF)
      x.2 * 2 ^ 16 + x.1
    else if o < 0x88 then flag (m.ovf.getLsbD ((o - 0x48) / 8)) 63 + nth m.cnt ((o - 0x48) / 8)
    else if o = 0x88 then m.ovf.toNat
    else if o = 0x90 then flag m.user 63 + m.window
    else if o < 0xB8 then nth m.bw ((o - 0x98) / 8)
    else 0
  else
    if o = 8 then
      s.cn.refused * 2 ^ 16 + flag s.cn.joined 15 + flag s.cn.unbroken 14 + s.cn.timeLeader * 2 ^ 12 + s.cn.beatLeader * 2 ^ 10 +
        s.cn.pos * 2 ^ 8 + s.cn.members.toNat * 2 ^ 4 + min s.cn.faults 15
    else if o = 0x10 then signed 32 s.cn.delta * 2 ^ 32 + signed 32 s.cn.slew
    else if o = 0x18 then (if s.pwr.step = 0 then 0 else (liveDigest s).toNat)
    else 0

/-- SHADOW_OFF of a block type (R479, R489). -/
def shadowOff (t : Nat) : Nat := if t = 0x15 then 0xC00 else 0x800

/-- The configuration register at an offset of a block, and whether the offset names its shadow. -/
def cfgAt (t o : Nat) : Option (Nat × Bool) :=
  match cfgIds.find? fun id => cfgPlace id = (t, o) with
  | some id => some (id, false)
  | none => (cfgIds.find? fun id => shadowOff t ≤ o && cfgPlace id = (t, o - shadowOff t)).map (·, true)

/-- The value of the register of 8 bytes at an offset of a block, and of a chart offset under type 0. -/
def regValue (s : State) (t k o : Nat) : Reg :=
  match cfgAt t o with
  | some (id, false) => cfg s id
  | some (id, true) => cfgShadow s id
  | none => BitVec.ofNat 64 (
    if t = 0 then chartValue s o
    else if t ≤ 0x11 then regMap s t k o
    else if t ≤ 0x15 then regMedia s t o
    else if t ≤ 0x30 then regHealth s t k o
    else if t ≤ 0x37 then regPipe s t k o
    else if t ≤ 0x42 then regPower s t o
    else regEvent s t k o)

/-- Blocks whose register contents the spec does not give: CORE, CXLC, CXLM and UCIE. Their reads are free (log 8). -/
def openBlock (t : Nat) : Bool := t = 0x03 || t = 0x33 || t = 0x34 || t = 0x35

/-! ### What a read clears (R484, R486, R487) -/

/-- The RC fields of SAGR, DRFT, ECC, WEAR and INTG that lie wholly inside the bytes read: `lo` bytes [3:0], `hi` bytes
[7:4]. -/
def clearStats (s : State) (t o : Nat) (lo hi : Bool) : State :=
  if t = 0x12 && o = 0x20 then
    let x := if hi then { s.sag with episodes := 0 } else s.sag
    { s with sag := if lo then { x with withheldBeats := 0 } else x }
  else if t = 0x14 && o = 0x18 then
    let x := if hi then { s.dr with captures := 0 } else s.dr
    { s with dr := if lo then { x with coefChanges := 0, targetChanges := 0 } else x }
  else if t = 0x15 && o = 0x18 then (if lo then { s with ecc := { s.ecc with overruns := 0 } } else s)
  else if t = 0x15 && 0x100 ≤ o && o < 0x900 then
    updEcc s ((o - 0x100) / 32) fun e =>
      if o % 32 = 0 then
        let e := if hi then { e with ovfCount := 0 } else e
        if lo then { e with corrected := 0 } else e
      else if o % 32 = 8 then
        let e := if hi then { e with uncorrectable := 0 } else e
        if lo then { e with escalations := 0 } else e
      else e
  else if t = 0x15 && 0x1000 ≤ o && o < 0x1400 then
    (if hi then updSram s ((o - 0x1000) / 8) fun c => { c with ue := 0, ce := 0 } else s)
  else if t = 0x16 && o = 0x10 then (if hi then { s with wr := { s.wr with failovers := 0 } } else s)
  else if t = 0x17 && o = 0x10 then
    let x := if hi then { s.ig with tagFail := 0 } else s.ig
    { s with ig := if lo then { x with freshFail := 0 } else x }
  else s

/-- The RC fields of GLNK, HLNK, PIPE, EVNT and CAPQ. A bell is taken by 8 bytes only (R418). -/
def clearLinks (s : State) (t k o : Nat) (lo hi : Bool) : State :=
  if t = 0x20 && o = 8 then
    updLink s k fun l =>
      let l := if hi then { l with hdrFail := 0, slotFail := 0 } else l
      if lo then { l with replays := 0, retrains := 0 } else l
  else if t = 0x30 && o = 8 then
    let x := if hi then { s.hl with retrains := 0, linkDowns := 0 } else s.hl
    { s with hl := if lo then { x with replays := 0 } else x }
  else if t = 0x32 && o = 8 then (if lo && hi then updPipe s k fun p => { p with bell := none } else s)
  else if t = 0x32 && o = 0x10 then (if lo then updPipe s k fun p => { p with rejCount := 0 } else s)
  else if t = 0x50 && o = 0x10 then
    let x := if hi then { s.ev with suppressed := 0 } else s.ev
    { s with ev := if lo then { x with dropped := 0 } else x }
  else if t = 0x51 && o = 0x20 then (if hi then updCapQ s k fun c => { c with lost := 0 } else s)
  else s

/-! ### Reads -/

/-- The bytes of a register that an access of `size` bytes at offset `o` names: [3:0], [7:4]. -/
def halves (o size : Nat) : Bool × Bool := (o % 8 < 4, size = 8 || 4 ≤ o % 8)

/-- The part of a register that an access reads. -/
def partOf (v : Reg) (o size : Nat) : Nat := v.toNat / 2 ^ (8 * (o % 8)) % 2 ^ (8 * size)

/-- A read's answer. -/
def answer (s : State) (v : Nat) : State :=
  { s with hl := { s.hl with rdData := BitVec.ofNat 512 v, completerAbort := false, poisonedTlp := false } }

/-- BCLK: the low half read fills the master's latch for the register with the high half; the next read of the high half
takes it (R25). -/
def bclkRead (s : State) (master : Nat) (o size : Nat) : State :=
  let reg := o / 8
  let v := regValue s 0x01 0 (reg * 8)
  let rest := s.clk.latches.filter fun x => !(x.1 = master && x.2.1 = reg)
  if size = 8 then answer s v.toNat
  else if o % 8 < 4 then
    answer { s with clk := { s.clk with latches := rest ++ [(master, reg, partOf v 4 4)] } } (partOf v 0 4)
  else
    match s.clk.latches.find? fun x => x.1 = master && x.2.1 = reg with
    | some x => answer { s with clk := { s.clk with latches := rest } } x.2.2
    | none => answer s (partOf v 4 4)

/-- A BAR4 window's SRAM offset (R38, R437, R602, R614). -/
def windowAddr (t k o : Nat) : Nat :=
  if t = 0x70 then arenaBase + o else if t = 0x71 then telBase + o else capBase k 0 + o

/-- A BAR4 read; a word in error is a poisoned completion (R314, R415). -/
def windowRead (s : State) (t k o size : Nat) : State :=
  let a := windowAddr t k o
  let s' := answer s (leNat (readBytes s a size))
  if spanBad s a size then { s' with hl := { s'.hl with poisonedTlp := true } } else s'

/-- A read of `size` bytes that R403 allows, by a master (R25, R418, R484, R486, R489, R492). -/
def readAt (s : State) (master : Byte) (bar off size : Nat) : State :=
  if bar = 0 && off < 65536 then answer s (partOf (regValue s 0 0 (off / 8 * 8)) off size)
  else match locate bar off with
    | none => answer s 0
    | some (t, k, o) =>
      let h := halves o size
      if 0x70 ≤ t then windowRead s t k o size
      else if openBlock t then
        let x := draw s
        answer x.2 (partOf (Config.freeWord x.1) o size)
      else if t = 0x01 && o < 0x18 then bclkRead s master.toNat o size
      else if t = 0x02 && 0x100 ≤ o && o < 0x300 && h.1 then
        let x := semaTake s master ((o - 0x100) / 8)
        answer x.1 (partOf (BitVec.ofNat 64 (0x8000 + x.2.toNat)) o size)
      else if t = 0x32 && o / 8 = 1 && size ≠ 8 then answer s 0
      else
        let v := regValue s t k (o / 8 * 8)
        answer (clearLinks (clearStats s t (o / 8 * 8) h.1 h.2) t k (o / 8 * 8) h.1 h.2) (partOf v o size)

/-! ### Writes (R484, R486, R488, R489) -/

/-- The bytes written, in their place in the register, and the mask of the bits they cover. -/
def placed (o size : Nat) (v : LineData) : Reg := BitVec.ofNat 64 (v.toNat % 2 ^ (8 * size) * 2 ^ (8 * (o % 8)))
def covers (o size : Nat) : Reg := BitVec.ofNat 64 ((2 ^ (8 * size) - 1) * 2 ^ (8 * (o % 8)))

/-- The register after the write of some of its bytes. -/
def merged (old v mask : Reg) : Reg := (old &&& (~~~ mask : Reg)) ||| (v &&& mask)

/-- A write of a configuration register, at either of its addresses, writes the shadow; read-only bits stay (R489). -/
def shadowPut (s : State) (id : Nat) (v mask : Reg) : State := setShadow s id (merged (cfgShadow s id) v (mask &&& cfgMask id))

/-- EVNT_RDSEL: the record that SEQ names is copied if the ring holds it (R598). -/
def selectRecord (s : State) (seq : Nat) : State :=
  let r := if s.ev.floor ≤ seq && seq < s.ev.head && s.ev.head ≤ seq + 65536 then tget none s.ev.ring (seq % 65536) else none
  let words := match r with
    | some r => (List.range 4).map fun i => BitVec.ofNat 64 (leNat ((r.bytes.drop (8 * i)).take 8))
    | none => [0, 0, 0, 0]
  { s with ev := { s.ev with rdsel := seq % 2 ^ 63, held := r.isSome, words := words } }

/-- A write of a monitor select: it waits for the next boundary; a select that its monitor does not take is ignored (R609,
R610). -/
def writeSelect (s : State) (m n : Nat) (v mask : Reg) : State :=
  let x := (mon s m).sel.getD n (0, 0xFF)
  let w := merged (BitVec.ofNat 64 (x.2 * 2 ^ 16 + x.1)) v mask
  if selectOk m (fld w 0 16) (fld w 16 8) then
    updMon s m fun y => { y with next := y.next ++ [(n, some (fld w 0 16, fld w 16 8), (v &&& mask).getLsbD 32)] }
  else s

/-- MON_CTRL: a window of 1 to 15 beats is rejected (R11, R612); a new window runs from the write. -/
def writeMonCtrl (s : State) (m : Nat) (v mask : Reg) : State :=
  let w := merged (BitVec.ofNat 64 (flag (mon s m).user 63 + (mon s m).window)) v mask
  let n := fld w 0 32
  if 1 ≤ n && n < 16 then s
  else updMon s m fun x =>
    let x := { x with user := w.getLsbD 63 }
    if mask.getLsbD 0 then { x with window := n, windowAt := s.clk.beat, ports := [0, 0, 0, 0] } else x

/-- HKEP_SENSE_B: a retired channel returns to use, and is on probation until a round finds it good (R554). -/
def returnChannels (s : State) (bits : Nat) : State :=
  ((List.range 48).filter fun c => bits.testBit c && (chan s c).retired).foldl
    (fun s c => updChan s c fun h => { h with retired := false, probation := true, rounds := 0 }) s

/-- An entry of the MSI-X table: address, data and mask bit; clearing the mask sends what is pending (R414). -/
def writeMsix (s : State) (o : Nat) (v mask : Reg) : State :=
  let n := o / 16
  let m := tget {} s.hl.msix n
  let put (x : Msix) : State := { s with hl := { s.hl with msix := tset {} s.hl.msix n x } }
  if o % 16 < 8 then put { m with addr := merged m.addr v mask }
  else
    let w := merged (BitVec.ofNat 64 (m.data % 2 ^ 32 + flag m.masked 32)) v mask
    let s := put { m with data := fld w 0 32, masked := m.masked || w.getLsbD 32 }
    if m.masked && !w.getLsbD 32 then unmaskVector s n else s

/-- A write of the mouthpiece (R417, R425, R426). -/
def mouthWrite (s : State) (p : Nat) (word : Reg) (size : Nat) : State :=
  match mouthCause (pipe s p) word size with
  | some cause =>
    advisoryError (updPipe s p fun x => { x with rejected := true, rejCount := satAdd 16 x.rejCount 1, rejCause := cause })
      { bar := 2, off := 4096 * p, size := size }
  | none => noteActivity (updPipe s p fun x => { x with mouth := some (fld word 13 19, fld word 0 13) })

/-- A write to the doorbell page or the binding block. -/
def writePipe (s : State) (t k o size : Nat) (v mask : Reg) : State :=
  let w := v &&& mask
  if t = 0x32 then
    if o / 8 = 0 then mouthWrite s k w size
    else if o / 8 = 2 then (if w.getLsbD 3 then updPipe s k fun p => { p with rejected := false } else s)
    else if o / 8 = 3 then (if mask.getLsbD 0 then updPipe s k fun p => { p with en := w.getLsbD 0 } else s)
    else s
  else if o / 8 = 0 then (if w.getLsbD 0 then setLock s else s)
  else if 0x2000 ≤ o && !s.pp.lock then
    let b := decide (8 ≤ o % 16)
    let old := pipe s ((o - 0x2000) / 16)
    updPipe s ((o - 0x2000) / 16) (writeEntry b (merged (if b then entryB old else entryA old) v mask))
  else s

/-- A write to any other register that software may change. -/
def writeOther (s : State) (t k o : Nat) (v mask : Reg) : State :=
  let w := v &&& mask
  if t = 0x01 && o = 0x10 then { s with clk := { s.clk with refFault := s.clk.refFault &&& (~~~ (w.extractLsb' 4 4) : BitVec 4) } }
  else if t = 0x15 && o = 8 then { s with ecc := { s.ecc with ovf := s.ecc.ovf &&& (~~~ w : BitVec 64) } }
  else if t = 0x36 then writeMsix s o v mask
  else if t = 0x40 && o = 0x18 then
    { s with pwr := { s.pwr with bankFail := s.pwr.bankFail &&& (~~~ (w.extractLsb' 0 8) : BitVec 8) } }
  else if t = 0x41 && o = 0 then { s with th := { s.th with uv := s.th.uv &&& (~~~ (w.extractLsb' 0 6) : BitVec 6) } }
  else if t = 0x41 && o = 0x10 then returnChannels s (fld w 0 48)
  else if t = 0x42 && o = 0 then
    (if w.getLsbD 61 then { s with clk := { s.clk with xtalFault := false } } else s)
  else if t = 0x50 && o = 0x18 then selectRecord s (fld (merged (BitVec.ofNat 64 s.ev.rdsel) v mask) 0 63)
  else if t = 0x52 && 8 ≤ o && o < 0x48 then writeSelect s k ((o - 8) / 8) v mask
  else if t = 0x52 && o = 0x88 then updMon s k fun m => { m with ovf := m.ovf &&& (~~~ (w.extractLsb' 0 8) : BitVec 8) }
  else if t = 0x52 && o = 0x90 then writeMonCtrl s k v mask
  else s

/-- A write of `size` bytes that R403 allows, by a master: read-only, unassigned and open registers ignore it (R403, R486);
of the windows only the arena takes it. -/
def writeAt (s : State) (master : Byte) (bar off size : Nat) (v : LineData) : State :=
  if bar = 0 && off < 65536 then s
  else match locate bar off with
    | none => s
    | some (t, k, o) =>
      if t = 0x70 then writeBytes s (arenaBase + o) (leBytes size v.toNat)
      else if 0x70 ≤ t || openBlock t then s
      else if t = 0x02 then
        (if 0x100 ≤ o && o < 0x300 then semaRelease s master ((o - 0x100) / 8) else s)
      else if t = 0x31 || t = 0x32 then writePipe s t k o size (placed o size v) (covers o size)
      else match cfgAt t (o / 8 * 8) with
        | some (id, _) => shadowPut s id (placed o size v) (covers o size)
        | none => writeOther s t k (o / 8 * 8) (placed o size v) (covers o size)

/-! ### Who reaches the registers (R403, R485, R491, R495, R627, R665) -/

/-- An access of this master reaches the registers: the host through its active link from the host-link step on, a live
core, or the test access port. A peer reaches only semaphores, by REG frames; other identities are unused. -/
def masterReaches (s : State) (master : Byte) : Bool :=
  let m := master.toNat
  if m = 0 then hostOpen s
  else if 0x10 ≤ m && m < 0x22 then awake s && coreLive s (m - 0x10)
  else m = 0x40 && s.pwr.supplies && s.pwr.state != .deepSleep

/-- An access in Sleep first wakes the device; in Deep sleep it is the wake source that DEEP_SLEEP_WAKE follows (R495). -/
def accessWakes (s : State) (master : Byte) : State :=
  if master ≠ 0 then s
  else if s.pwr.state = .deepSleep then { s with ev := { s.ev with wakePending := some 1 } }
  else if s.pwr.state = .sleep then wakeNow s 1
  else s

/-- An access that breaks R403: Completer Abort for a read, dropped for a write, logged either way (R415). -/
def badAccess (s : State) (bar off size : Nat) (isRead : Bool) : State :=
  { s with hl := { s.hl with
    aerUncorrectable := s.hl.aerUncorrectable ||| 0x8000, completerAbort := isRead
    aerHead := some { bar := bar, off := off, size := size, isRead := isRead }
    rdData := if isRead then 0 else s.hl.rdData } }

/-- A read by a master; its data are payload out at the host's port (R612). -/
def readReg (s : State) (master : Byte) (bar off size : Nat) : State :=
  let s := accessWakes s master
  if !masterReaches s master then s
  else if barAccessOk bar off size then ioPayload (readAt s master bar off size) master 3 size
  else badAccess s bar off size true

/-- A write by a master; its data are payload in at the host's port, dropped or not (R612). -/
def writeReg (s : State) (master : Byte) (bar off size : Nat) (v : LineData) : State :=
  let s := accessWakes s master
  if !masterReaches s master then s
  else ioPayload (if barAccessOk bar off size then writeAt s master bar off size v else badAccess s bar off size false)
    master 2 size

/-! ### The commands -/

/-- REGISTER_READ (R403, R486, R495). -/
def execRegisterRead (master : Byte) (bar off size : Nat) (s : State) : Host.Outcome State Fault Refusal :=
  .next (readReg s master bar off size)

/-- REGISTER_WRITE (R403, R486, R495). -/
def execRegisterWrite (master : Byte) (bar off size : Nat) (v : LineData) (s : State) : Host.Outcome State Fault Refusal :=
  .next (writeReg s master bar off size v)

/-- BCLK_HALF_READ (R25): 4 bytes of a BCLK register. -/
def execBclkHalfRead (master : Byte) (reg : Fin 3) (upper : Bool) (s : State) : Host.Outcome State Fault Refusal :=
  .next (readReg s master 0 (0x10000 + 8 * reg.val + if upper then 4 else 0) 4)

/-- SEMA_TAKE_READ (R492): a read of bytes [7:4] alone acquires nothing. -/
def execSemaTakeRead (master : Byte) (n : Fin 64) (upperOnly : Bool) (s : State) : Host.Outcome State Fault Refusal :=
  .next (readReg s master 0 (0x11100 + 8 * n.val + if upperOnly then 4 else 0) (if upperOnly then 4 else 8))

/-- SEMA_TAKE_WRITE (R493). -/
def execSemaTakeWrite (master : Byte) (n : Fin 64) (s : State) : Host.Outcome State Fault Refusal :=
  .next (writeReg s master 0 (0x11100 + 8 * n.val) 8 0)

/-- EVNT_RDSEL_WRITE (R598). -/
def execEvntRdselWrite (seq : BitVec 63) (s : State) : Host.Outcome State Fault Refusal :=
  .next (writeReg s 0 0 0x1D018 8 (seq.setWidth 512))

/-- MON_SEL_WRITE (R609, R610). -/
def execMonSelWrite (m : Fin 67) (n : Fin 8) (v : Reg) (s : State) : Host.Outcome State Fault Refusal :=
  .next (writeReg s 0 0 (0x24008 + 0x100 * m.val + 8 * n.val) 8 (v.setWidth 512))

/-- HKEP_SENSE_B_CLEAR (R554). -/
def execHkepSenseBClear (bits : BitVec 48) (s : State) : Host.Outcome State Fault Refusal :=
  .next (writeReg s 0 0 0x1B010 8 (bits.setWidth 512))

/-- SHADOW_WRITE (R489): a BAR0 offset that names no configuration register is left alone. -/
def execShadowWrite (off : Nat) (size : Nat) (v : Reg) (s : State) : Host.Outcome State Fault Refusal :=
  .next (
    match locate 0 off with
    | some (t, _, o) => if (cfgAt t (o / 8 * 8)).isSome then writeReg s 0 0 off size (v.setWidth 512) else s
    | none => s)

end Sys2Proof.Machine
end

