-- ==== Sys2Proof/Machine/Reset.lean ====
section
/-! DEFINITION. Power-on, the pin reset and what survives them (R22, R430, R503, R564, R630, R631, R649, R650, R654, R664,
R673). -/
namespace Sys2Proof.Machine

/-- The backup domain and what the board supplies (R563, R630). -/
def clkAfterReset (c : ClkSt) : ClkSt :=
  { refPresent := c.refPresent, seconds := c.seconds, subsec := c.subsec, trim := c.trim, trimTicks := c.trimTicks
    holdTicks := c.holdTicks, cont := c.cont, offset := c.offset, tvalid := c.tvalid, root := c.root, rootGood := c.rootGood
    wakeLatch := c.wakeLatch }

/-- The breath zone, the dirty-recovery report and the pins (R540, R546, R548, R630). -/
def pwrAfterReset (p : PwrSt) : PwrSt :=
  { supplies := p.supplies, inReset := true, pwrfail := p.pwrfail, strapPos := p.strapPos, strapHalt := p.strapHalt
    brownOut := p.brownOut, sealed := p.sealed, image := p.image, others := p.others, consumed := p.consumed
    cutLines := p.cutLines, breathRepl := p.breathRepl, dirtyCount := p.dirtyCount, report := p.report
    state := if p.supplies then .run else .off }

/-- What the medium and the keep store hold of the map. A migration whose record is not durable has not happened; the region
returns with its old attributes (R503). -/
def mapAfterReset (m : MapSt) : MapSt :=
  let undone := m.mig.filter fun x => !x.2.durable
  let regions := (undone.map fun x => x.2.before).headD m.regions
  { capGib := m.capGib, mapNr := m.mapNr, mapN := m.mapN, mapBlks := m.mapBlks, treeN := m.treeN, treeBlks := m.treeBlks
    mapRanks := m.mapRanks, leaves := m.leaves, media := m.media, cones := m.cones, parityStale := m.parityStale, pendingCap := m.pendingCap
    regions := regions.map fun x => (x.1, { x.2 with ready := false })
    mig := (m.mig.filter fun x => x.2.durable).map fun x => (x.1, { x.2 with
      active := [], switched := [], held := [], sagRoute := [], cmd := none })
    rot := m.rot.map fun x => (x.1, { x.2 with swapping := none, swapWls := 0 }) }

/-- A reset takes effect: everything but the backup domain, the keep store, the media and the pins returns to its reset
column, the beat counter with it; a breath that runs is cut, and so are programs and blankings (R22, R57, R222, R223, R489, R494,
R630, R631, R654). -/
def resetDevice (s : State) : State :=
  let s := tearAll (cutBreath s)
  { pending := s.pending, freeCtr := s.freeCtr
    clk := clkAfterReset s.clk
    pwr := pwrAfterReset s.pwr
    mp := mapAfterReset s.mp
    pl := { copy := s.pl.copy
            ranks := (s.pl.ranks.map fun x => (x.1, ({ budget := x.2.budget } : RankPl))).filter fun x => x.2 ≠ {} }
    dr := { savedGroups := s.dr.savedGroups, savedDies := s.dr.savedDies, savedAt := s.dr.savedAt }
    wr := { links := s.wr.links, spareBs0 := s.wr.spareBs0 }
    ig := { sysGen := s.ig.sysGen, windows := s.ig.windows, keyDraws := s.ig.keyDraws, stampCeil := s.ig.stampCeil
            levelB := s.ig.levelB, leafStamps := s.ig.leafStamps, levelC := s.ig.levelC, rootVer := s.ig.rootVer
            mediaSlots := s.ig.mediaSlots, slotTags := s.ig.slotTags
            domains := s.ig.domains.map fun x => (x.1, { x.2 with present := false }) }
    ln := { links := (s.ln.links.map fun x => (x.1, ({ recordedSerial := x.2.recordedSerial } : LinkRec))).filter fun x => x.2 ≠ {} }
    hl := { mods := s.hl.mods, tapOut := s.hl.tapOut, extest := s.hl.extest }
    kp := { s.kp with pendingAppends := [], fails := 0, locked := false }
    cn := { joinReq := s.cn.joinReq } }

/-- The rising edge of RESET_N: startup begins at fuse load (R633). -/
def releaseReset (s : State) : State :=
  if s.pwr.supplies && s.pwr.inReset then { s with pwr := { s.pwr with inReset := false, step := 1 } } else s

/-- POWER_ON (R22, R630, R650, R664): the supplies rise with RESET_N asserted. -/
def execPowerOn (pos : Fin 4) (bootHalt : Bool) (s : State) : Host.Outcome State Fault Refusal :=
  .next (
    if s.pwr.supplies then s
    else resetDevice { s with pwr := { s.pwr with
      supplies := true, strapPos := pos.val, strapHalt := bootHalt, brownOut := 0 } })

/-- RESET_N_ASSERT (R654): from 10 microseconds it resets, below 1 it does nothing, between them it is free which (log 8). -/
def execResetNAssert (ns : Nat) (s : State) : Host.Outcome State Fault Refusal :=
  .next (
    if !s.pwr.supplies || ns < 1000 then s
    else if 10000 ≤ ns then resetDevice s
    else
      let (d, s) := draw s
      if Config.shortResetTakes d then resetDevice s else s)

/-- RESET_N_RELEASE (R633). -/
def execResetNRelease (s : State) : Host.Outcome State Fault Refusal := .next (releaseReset s)

/-- BROWN_OUT (R649): 0 VDD_CORE, 1 VDD_SRAM, 2 VDD_AON; as an assertion of RESET_N, without a last breath. -/
def execBrownOut (rail : Fin 3) (s : State) : Host.Outcome State Fault Refusal :=
  .next (
    if s.pwr.supplies then
      let s := resetDevice s
      { s with pwr := { s.pwr with brownOut := s.pwr.brownOut ||| (1#3 <<< rail.val) } }
    else s)

/-- SUPPLIES_UP_UNRESET (R673): a start from fuse load; out of range it may stop there, be limited or lose links, and which
is free (log 8). -/
def execSuppliesUpUnreset (inRange : Bool) (s : State) : Host.Outcome State Fault Refusal :=
  .next (
    if s.pwr.supplies then s
    else
      let s := releaseReset (resetDevice { s with pwr := { s.pwr with supplies := true, brownOut := 0 } })
      if inRange then s
      else
        let (d, s) := draw s
        let k := Config.badStart d % 3
        if k = 0 then { s with pwr := { s.pwr with stopped := true } }
        else if k = 1 then { s with pwr := { s.pwr with limited := true } }
        else ((List.range 1152).filter (Config.badStartLost d)).foldl
          (fun s n => updLink s n fun l => { l with state := .lost, cause := 4, lostSignal := true }) s)

end Sys2Proof.Machine
end

