-- ==== Sys2Proof/Machine/Startup.lean ====
section
/-! DEFINITION. The startup sequence, step by step, up to Media Ready, the first start and the limited start; the test
access port (R19, R22, R34, R114, R117, R134, R140, R157, R226, R227, R259, R269, R280, R284, R304, R312, R332, R342,
R343, R349, R350, R353, R361, R382 to R384, R394, R532 to R534, R542 to R548, R554, R566, R582 to R584, R620, R633 to R643,
R664, R665, R669). -/
namespace Sys2Proof.Machine

/-! ### Steps 1 to 3: fuses, ROM, SRAM -/

/-- Step 1 (R19, R21, R664): the synthesisers lock; the straps are sampled. -/
def fuseLoad (s : State) : State :=
  let lock := s.clk.refPresent
  { s with
    clk := { s.clk with
      refLock := lock, fabricRef := (goodRef lock [0, 1, 2, 3]).getD 0
      phyRef := (List.range 4).map fun j => (goodRef lock [j, (j + 1) % 4]).getD j }
    cn := { s.cn with pos := s.pwr.strapPos } }

/-- Step 2 (R34, R531, R554): roles are assigned, housekeeping starts; a latched WAKE becomes WAKE_SRC. -/
def romBoot (s : State) : State :=
  let s := if s.clk.wakeLatch then
      { s with clk := { s.clk with wakeLatch := false }, pwr := { s.pwr with wakeSrc := 6 } }
    else s
  (List.range 16).foldl (fun s z => countGood s z true) s

/-- A channel that fails the test of step 3: its die's spare channel serves, or the media are disabled (R332, R333,
R634). -/
def testChannel (s : State) (c : Nat) : State :=
  if s.wr.chUsed.getLsbD (sramDie c) then
    raise { s with pwr := { s.pwr with disabled := true, stopped := true } } 0x42 srcDevice 0 0 0 0
  else
    let s := updSram s c fun x => { x with failed := true }
    let s := { s with wr := { s.wr with chUsed := s.wr.chUsed ||| (1#8 <<< sramDie c) } }
    if s.wr.chUsed = 0xFF#8 then exhaust s 2 else s

/-! ### Step 4: the keep store (R571, R583, R584) -/

/-- A part is discovered or has failed; one that missed appends is rewritten from the other (R584). -/
def partAfterDiscovery (size : Nat) (behind : Bool) : PartState :=
  if size = 0 then .failed else if behind then .resyncing else .serving

/-- RTC_TRIM, 0 when absent (R565). -/
def trimRecord (s : State) : Int :=
  match keepGet s 3 with
  | some (b :: _) => b.toInt
  | _ => 0

/-- What the search of a store that is not blank reports: both index copies lost (R583), and two valid records of one key
under one SEQ, of which the later one counts (R580, log 23). -/
def keepFindings (s : State) (r : StepReport) : State :=
  let s := if r.indexFails then raise s 0x71 srcKeep 0 0 0 0 else s
  r.keepDuplicates.foldl (fun s x => raise s 0x70 srcKeep x.1 (flag x.2 0) 0 0) s

/-- Step 4: parts with their SFDP, format or index, and the values that the store holds (R571, R572). With both parts failed the start is limited. -/
def keepStart (s : State) (r : StepReport) : State :=
  let behind (l : Option (Nat × Nat)) (other : Option (Nat × Nat)) : Bool := l.isSome && other.isNone
  let lagP := behind s.kp.priLeft s.kp.mirLeft && decide (r.mirSize ≠ 0)
  let lagM := behind s.kp.mirLeft s.kp.priLeft && decide (r.priSize ≠ 0)
  let s := { s with kp := { s.kp with
    pri := partAfterDiscovery r.priSize lagP, mir := partAfterDiscovery r.mirSize lagM
    priSize := r.priSize, mirSize := r.mirSize, priDummy := r.priDummy, mirDummy := r.mirDummy
    priQuad := decide (r.priSize ≠ 0), mirQuad := decide (r.mirSize ≠ 0), port := discoverOps false ++ discoverOps true } }
  let s := if r.priSize = 0 then raise s 0x72 srcKeep 0 0 0 0 else s
  let s := if r.mirSize = 0 then raise s 0x72 srcKeep 0 0 0 0 else s
  if keepDead s then raise { s with pwr := { s.pwr with limited := true } } 0x73 srcKeep 0 0 0 0
  else
    let first := !s.kp.formatted
    let s := if first then { s with kp := s.kp.format, pwr := { s.pwr with firstStart := true } } else keepFindings s r
    loadHistory { s with
      clk := { s.clk with losses := min (keepNat s 8) 65535, trim := trimRecord s }
      pwr := { s.pwr with dirtyCount := keepNat s 5 }
      ev := { s.ev with crits := s.kp.crits } }

/-! ### Step 5: keys (R347 to R353, R640) -/

/-- A first start draws the keys of every domain; a later one unwraps them, and a domain that fails is without keys. -/
def keysReady (s : State) (fails : BitVec 16) : State :=
  (List.range 16).foldl (fun s d =>
    if s.pwr.firstStart then
      let v := s.ig.keyDraws
      saveDomain (updDomain { s with ig := { s.ig with keyDraws := v + 1 } } d fun _ =>
        { keyVer := v, source := 1, present := true }) d
    else if (domainKey s d).source = 0 then s
    else if fails.getLsbD d then raise s 0x55 srcDevice d 0 0 0
    else updDomain s d fun k => { k with present := true }) s

/-- Step 5: SYSKEY_GEN 0 and the ceiling of a first start; WNONCE is drawn and the window opens. -/
def keyStart (s : State) (fails : BitVec 16) : State :=
  let s := keysReady s fails
  let s := if s.pwr.firstStart then
      keepPut { s with ig := { s.ig with sysGen := 0, stampCeil := 2 ^ 40 } } 9 (leBytes 8 (2 ^ 40))
    else s
  { s with ig := { s.ig with windows := s.ig.windows + 1, keyWindow := true } }

/-! ### Step 6: population (R482, R634, R635) -/

/-- A link has a package, accepted or refused. -/
def hasPackage (l : LinkRec) : Bool := l.pkg.isSome || l.state = .refused

/-- Step 6: the populated ranks; with fewer than four the start is limited. -/
def populate (s : State) : State :=
  let pop := (List.range 64).filter fun r => (rankLinks r).any fun n => hasPackage (link s n)
  { s with
    mp := { s.mp with pop := pop }
    ln := { s.ln with chartGen := s.ln.chartGen + 2 }
    pwr := { s.pwr with limited := s.pwr.limited || pop.length < 4 } }

/-! ### Step 7: table, rungs, packages, continuity (R226, R269, R270, R566, R636) -/

/-- The media copy of the table is loaded; a stripe that was being blanked goes on. -/
def loadTable (s : State) : State :=
  let s := { s with pl := { s.pl with stripes := s.pl.copy } }
  (s.pl.stripes.filter fun x => x.2.state = .blanking).foldl
    (fun s x => updRank s (bsRank x.1) fun p => { p with blankingBs := some x.1 }) s

/-- A package accepted in step 6, or later in this start, takes its place once its reference sets are loaded (R101, R636). -/
def comparePackage (s : State) (n : Nat) : State :=
  let l := link s n
  if l.state ≠ .inventory || l.step ≠ 5 || setsLoading s n || n / 18 ∉ s.mp.pop then s
  else
    let serial := (pkgOf s n).serial
    let holds := !s.pwr.firstStart && ((s.pl.stripes.any fun x => bsRank x.1 = n / 18 && x.2.valid ≠ 0) || s.mp.mapN ≠ 0)
    let same := l.recordedSerial = some serial
    let w := linkWear s n
    let s := updLink s n fun l => { l with recordedSerial := some serial, inService := true }
    if same then updLink s n fun l => { l with state := if w.rebuilding then .rebuilding else .active }
    else if holds then
      let s := resetDieState (updLink s n fun l => { l with state := .rebuilding }) n
      factoryBlocks (updLinkWear s n fun _ => { rebuilt := true, rebuilding := true, rebuiltAt := s.clk.seconds }) n
    else
      let s := resetDieState (updLink s n fun l => { l with state := .active }) n
      factoryBlocks (updLinkWear s n fun _ => {}) n

/-- The clock step: a lost continuity is handled in the order of R566, otherwise the rungs catch up with the seconds
that have passed (R269, R280, R568). -/
def clockStep (s : State) (ticks : Nat) (fc : State → Nat → Nat → Nat) : State :=
  if s.clk.cont then catchUp s ticks fc
  else
    let s := continuityLoss s
    let losses := min (s.clk.losses + 1) 65535
    let s := keepPut { s with
      clk := { s.clk with cont := true, tvalid := false, losses := losses }
      cn := { s.cn with unbroken := false }
      pwr := { s.pwr with contLost := true } } 8 (leBytes 4 losses)
    raise s 0x2 srcDevice 0 0 0 0

/-- Step 7. -/
def clockStart (s : State) : State :=
  let s := if s.pwr.firstStart then
      { s with pl := { s.pl with stripes := [], copy := [] }, dr := { s.dr with savedGroups := [], savedDies := [] } }
    else loadTable { s with dr := { s.dr with groups := s.dr.savedGroups, dies := s.dr.savedDies } }
  let s := (s.ln.links.map (·.1)).foldl comparePackage s
  let s := { s with ln := { s.ln with chartGen := s.ln.chartGen + 2 }, cn := { s.cn with unbroken := true } }
  clockStep s ((s.clk.seconds - s.dr.savedAt) * 16000000 / 2 ^ 24) fun _ _ _ => 256

/-! ### Step 8: the breath zone (R157, R227, R284, R304, R312, R542 to R546) -/

/-- The highest sealed breath, that of any other record, and the next number. -/
def breathClean (s : State) : Bool := s.pwr.consumed < s.pwr.sealed && s.pwr.others ≤ s.pwr.sealed

/-- CONSUMED goes to the keep store before any media program (R543, R545). -/
def consume (s : State) (v : Nat) : State :=
  let next := max (max s.pwr.sealed s.pwr.others) s.pwr.consumed + 1
  keepPut { s with pwr := { s.pwr with consumed := v, consumedWritten := true, nextBseq := next } } 6 (leBytes 8 v)

/-- Lines of the breath with those whose records are lost poisoned (R544). -/
def replayLines (s : State) (lost : List Nat) : State :=
  let l := s.pwr.image.lines
  (List.range l.length).foldl (fun s i =>
    match l[i]? with
    | none => s
    | some x =>
      let x := { x with held := none, drain := false, last := 0, retry := false }
      let bad := i ∈ lost
      let s := setSagLine s x.page x.line (some (if bad then { x with poison := true, filled := true, data := 0, mask := BitVec.allOnes 64 } else x))
      if bad then poisonEnter s (dpaOf x.page x.line) .internal else s) s

/-- A saved segment returns with its dirty lines; its clean lines are those of media (R156, R533, R543). -/
def savedSeg (s : State) (g : Nat) (c : CacheSeg) : Option CacheSeg :=
  if c.dirty = 0#4 then none
  else
    let pick (i : Nat) : List MapEntry :=
      if c.dirty.getLsbD i then (c.entries.drop (2 * i)).take 2 else lineEntries (bestLine s (g * 4 + i))
    some { c with entries := (List.range 4).flatMap pick, heat := 0, exempt := false, evicting := false }

/-- A clean replay restores what the breath saved (R543). Work that was under way in SRAM has stopped. -/
def replay (s : State) (lost : List Nat) : State :=
  let i := s.pwr.image
  let s := { s with
    mp := { s.mp with
      cache := i.cache.filterMap fun x => (x.2.bind (savedSeg s x.1)).map fun c => (x.1, some c)
      rot := i.rot.map fun x => (x.1, { x.2 with copying := false, tcopying := false, swapping := none, swapWls := 0 })
      mig := (i.mig.filter fun x => x.2.durable).map fun x => (x.1, { x.2 with
        active := [], switched := [], held := [], sagRoute := [], cmd := none }) }
    pl := { s.pl with
      stripes := i.stripes
      ranks := i.ranks.map fun x => (x.1, { x.2 with firings := [], fireQueue := [], refreshQueue := [], shortSince := none }) }
    dr := { s.dr with groups := if s.pwr.contLost then s.dr.groups else i.groups, dies := i.dies }
    ecc := { s.ecc with poison := i.poison, poisonOvf := i.poisonOvf }
    ig := { s.ig with slots := i.slots, heldNodes := i.heldNodes, dirtyB := i.dirtyB } }
  let s := if s.pwr.contLost then continuityLoss s else s
  replayLines s lost

/-- Slots that the entries on media name (R157). -/
def namedSlots (s : State) : List Nat :=
  ((s.mp.leaves.map fun x => x.1 / 2).dedup.flatMap fun ll => lineEntries (bestLine s ll)).flatMap
    fun e => [e.glazeHome, e.bisqueHome].filter (· ≠ none40)

/-- The first word line from `wl` up that none of the programmed ones is. -/
def firstBlank (programmed : List Nat) : Nat → Nat → Nat
  | 0, wl => wl
  | fuel + 1, wl => if wl ∈ programmed then firstBlank programmed fuel (wl + 1) else wl

/-- WLS of a stripe that was open: the first word line from the recorded one up that reads blank (R227 step 3). -/
def sensedWls (s : State) (bs wls : Nat) : Nat :=
  let l := ((s.mp.media.filter fun x => slotBs (x.1 / 64) = bs && x.2 ≠ .blank).map fun x => slotWl (x.1 / 64)).dedup
  firstBlank l l.length wls

/-- A stripe's record after a dirty shutdown: STATE and VALID from the scan, the rest from the media copy, WLS of an open
stripe as sensed; a stripe that no leaf names is blanked before its next use (R157, R227). -/
def scannedRecord (s : State) (r : StepReport) (live : List Nat) (bs : Nat) (c : BsRec) : BsRec :=
  let mine := live.filter fun x => slotBs x = bs
  let wls := ((r.openWls.find? fun x => x.1 = bs).map (·.2)).getD (sensedWls s bs c.wls)
  let top := (mine.map slotWl).foldl max 0
  let c := { c with valid := mine.length, changed := true, noVictim := false }
  match c.state with
  | .retired => c
  | .open =>
    if c.bisque then
      (if mine.isEmpty && wls ≠ 0 then { c with state := .dirty, wls := 0 } else { c with wls := wls })
    else if wls = 0 then { c with state := .blank, wls := 0 }
    else { c with wls := wls }
  | .blanking => c
  | .system => c
  | _ =>
    if mine.isEmpty then { c with state := .dirty }
    else { c with state := if c.bisque then .bisque else .full, wls := max c.wls (top + 1) }

/-- The table as the scan rebuilds it, with the allocation stripes and the stripes that were open (R227, R259). -/
def rebuildTable (s : State) (r : StepReport) : State :=
  let live := namedSlots s
  let keys := (s.pl.copy.map (·.1) ++ live.map slotBs).dedup
  let table := keys.foldl (fun t bs => tset {} t bs (scannedRecord s r live bs (tget {} s.pl.copy bs))) s.pl.copy
  let s := { s with pl := { s.pl with stripes := table } }
  (table.filter fun x => x.2.state = .open).foldl (fun s x =>
    let rank := bsRank x.1
    if x.2.bisque then updRank s rank fun p => { p with alloc := some x.1 }
    else
      let g := (x.2.wls - 1) / 1024
      let used := (rankPl s rank).opens.map (·.1)
      match ([0, 1, 2, 3] : List Nat).find? fun p => p ∉ used with
      | none => updStripe s x.1 fun b => { b with state := .full }
      | some p => updRank s rank fun y => { y with opens := y.opens ++ [(p,
          { bs := x.1, passed := List.range (g - 1)
            g0 := { group := if g % 2 = 0 then g else g - 1, lost := true }
            g1 := { group := if g % 2 = 1 then g else g - 1, lost := true } })] }) s

/-- Every leaf is scanned: the newest line of each, its stamp the largest of its lines (R157, R383). -/
def scanLeaves (s : State) : State :=
  let lls := (s.mp.leaves.map fun x => x.1 / 2).dedup
  let s := lls.foldl (fun s ll => match bestLine s ll with
    | none => s
    | some l => setLeafLine (setLeafLine s ll 0 (some l)) ll 1 (some l)) s
  let tops := lls.foldl (fun t ll => match bestLine s ll with
    | none => t
    | some l => tupd 0 t (leafOfLine ll) (max l.stamp)) s.ig.leafStamps
  { s with ig := { s.ig with leafStamps := tops } }

/-- A tree-mode page's stamp slot that fails under PAGE_STAMP is rebuilt from the metadata of the page's lines, and
PAGE_STAMP rises to the largest of their stamps: in the map cache, or written back at once where it has no way free (R156,
R383 step 3). -/
def rebuildSlot (s : State) (page : Nat) : State :=
  let e := mediaEntry s page
  if !slotStale s e (pageTree s page) then s
  else match bestLine s (page / 2) with
    | none => s
    | some l =>
      let stamps := verifiedStamps s e
      let e := { e with stamp := stamps.foldl max e.stamp }
      let s := fetchSeg s page
      let l := if page % 2 = 0 then { l with e0 := e } else { l with e1 := e }
      let s := if (entry? s page).isSome then setEntry s page e
        else setLeafLine (setLeafLine s (page / 2) 0 (some l)) (page / 2) 1 (some l)
      putStamps s e.bisqueHome page stamps

/-- The slots of all pages that media map (R383 step 3). -/
def rebuildSlots (s : State) : State :=
  ((s.mp.leaves.map fun x => x.1 / 2).dedup.flatMap fun ll => [2 * ll, 2 * ll + 1]).foldl rebuildSlot s

/-- The dirty-recovery report (R546). -/
def recoveryReport (s : State) (cause : Nat) (complete : Bool) (lines : List (SagLine × Bool)) : List Byte :=
  let unsealed := if cause = 2 then s.pwr.others else 0
  let row (x : SagLine × Bool) : List Byte :=
    leBytes 8 (dpaOf x.1.page x.1.line + flag x.2 2 + flag x.1.poison 1 + flag (x.1.mask ≠ BitVec.allOnes 64) 0)
  leBytes 8 s.clk.seconds ++ leBytes 8 unsealed ++ leBytes 1 cause ++ leBytes 1 (flag complete 0) ++ List.replicate 6 0 ++
    leBytes 8 lines.length ++ (lines.map row).flatten

/-- After a dirty shutdown the gap moves behind the saved values are replayed (R139): those that had changed the registers have
their destinations intact; whether a copy that was cut has, the spec leaves open. -/
def replayMoves (s : State) (r : Nat) : State :=
  let (n, s) := draw s
  let t := rot s r
  let leaf := if t.copying && !Config.cutTakes n 0 then gapStep s.mp.mapN t.start t.gap else (t.start, t.gap)
  let node := if t.tcopying && !Config.cutTakes n 1 then gapStep s.mp.treeN t.tstart t.tgap else (t.tstart, t.tgap)
  updRot s r fun t => { t with
    copying := false, tcopying := false, start := leaf.1, gap := leaf.2, tstart := node.1, tgap := node.2 }

/-- A dirty recovery (R545): the count, the scans, the poison list empty with its flag, a bisque pass owed by every
rank, migration progress as last recorded, and the report; the event names the count (log 91). -/
def dirtyRecovery (s : State) (r : StepReport) : State :=
  let n := min (s.pwr.dirtyCount + 1) (2 ^ 32 - 1)
  let cause := if max s.pwr.sealed s.pwr.consumed < s.pwr.others then 2 else 1
  let told := cause = 2 && r.dirComplete
  let report := recoveryReport s cause told (if told then s.pwr.cutLines.map (·, false) else [])
  let s : State := { s with
    pwr := { s.pwr with dirtyCount := n, lastStart := 2, cutLines := [], report := report }
    mp := { s.mp with mig := s.mp.mig.map fun x => (x.1, { x.2 with
      doneLeaves := if x.2.kind = 4 then x.2.doneLeaves else x.2.doneLeaves / 64 * 64 }) }
    ecc := { s.ecc with
      poison := [], poisonOvf := true, poisonOvfTime := (hostTime s).toNat, dirtyDue := s.mp.pop }
    ig := { s.ig with slots := [], heldNodes := [], dirtyB := [], nodesDue := [] } }
  let s := (s.mp.rot.map (·.1)).foldl replayMoves s
  let s := rebuildTable (rebuildSlots (scanLeaves s)) r
  let s := if s.pwr.contLost then continuityLoss s else s
  raise (keepPut s 5 (leBytes 4 n)) 0x38 srcDevice n 0 0 0

/-- Stripes that were OPEN close: their lag is measured, or they wait for the sweep after a loss of continuity (R259,
R284, R637). -/
def closeStartup (s : State) (r : StepReport) : State :=
  let opens := s.pl.ranks.flatMap fun x => x.2.opens.map fun o => (x.1, o.1, o.2.bs)
  opens.foldl (fun s x =>
    let bs := x.2.2
    let b := stripe s bs
    let kt := ((r.openKt.find? fun y => y.1 = bs).map (·.2)).getD 5
    let lag := if (b.wls - 1) / 1024 = 0 then 0
      else ageBin (max (th (ageBin (s.clk.seconds - b.fired)) - th kt) 1)
    let s := updRank s x.1 fun p => { p with opens := p.opens.map fun o =>
      if o.1 = x.2.1 then (o.1, { o.2 with keptLag := some lag }) else o }
    let s := if s.pwr.contLost && b.wls ≠ 0 then updStripe s bs fun b => { b with unswept := true } else s
    beginClose s x.1 x.2.1) s

/-- A worn or DEGRADED stripe of the breath or table areas gives way to a blank bisque stripe of its rank (R319, R548). -/
def replaceWorn (s : State) : State :=
  let worn := s.pl.stripes.filter fun x =>
    bzFirst s ≤ bsBlock x.1 && bsBlock x.1 < bzFirst s + 4 && x.2.state ≠ .retired && (x.2.degraded || decide (2 ^ 41 ≤ x.2.lineWrites))
  worn.foldl (fun s x =>
    match (rankStripes s (bsRank x.1)).find? fun y => y.2.state = .blank && y.2.bisque && !y.2.degraded with
    | none => s
    | some y =>
      let s := updStripe (updStripe s x.1 fun b => { b with state := .retired }) y.1 fun b => { b with state := .system }
      let repl := s.pwr.breathRepl ++ [(x.1, y.1)]
      keepPut { s with pwr := { s.pwr with breathRepl := repl } } 0x26
        ((repl.map fun z => leBytes 4 z.1 ++ leBytes 4 z.2).flatten)) s

/-- BREATH_USE: positions that the last breath used on each link of LIST (R547). -/
def saveUse (s : State) (k : Nat) : State :=
  keepPut s (0x24 + k) (((List.range 576).map fun i =>
    leBytes 4 (if (link s (576 * k + i)).state.serves then
      1 + (4 * s.pwr.image.lines.length + (breathList s).length) / max (breathList s).length 1 else 0)).flatten)

/-- Step 8 (R542 to R546, R640). -/
def breathStart (s : State) (r : StepReport) : State :=
  let s := { s with pwr := { s.pwr with cleanStart := breathClean s } }
  if s.pwr.firstStart then
    consume { s with pwr := { s.pwr with sealed := 0, others := 0, image := {}, cutLines := [], breathRepl := [] } } 0
  else if breathClean s then
    let i := s.pwr.image
    let oneRank := i.oneRank
    let n := s.pwr.sealed
    let lost := (List.range i.lines.length).filter fun k => k ∈ r.lostLines
    let s := if r.lostOther then replayLines (dirtyRecovery s r) lost
      else
        let s := replay s lost
        if lost.isEmpty then s
        else
          let named := lost.filterMap fun k => (i.lines[k]?).map (·, true)
          { s with pwr := { s.pwr with lastStart := 1, report := recoveryReport s 0 true named } }
    let s := consume { s with pwr := { s.pwr with bseq := n, cause := i.cause } } n
    let s := if oneRank then raise s 0x69 srcDevice (n % 2 ^ 32) (n / 2 ^ 32) 0 0 else s
    closeStartup (saveUse (saveUse (if r.lostOther then s else replaceWorn s) 0) 1) r
  else
    let s := dirtyRecovery s r
    closeStartup (saveUse (saveUse (consume s (max s.pwr.sealed s.pwr.others)) 0) 1) r

/-! ### Step 9: the root, the capacity, the first start (R114, R117, R134, R140, R343, R382 to R384, R640, R669) -/

/-- The root is computed from level B and stored. -/
def storeRoot (s : State) (st : Nat) : State :=
  { s with clk := { s.clk with root := s.ig.rootVer, rootGood := true }, ig := { s.ig with rootState := st } }

/-- Tree-mode regions, as a mask. -/
def treeRegions (s : State) : Nat := ((List.range 64).filter fun n => (region s n).valid && (region s n).tree).foldl (fun m n => m + 2 ^ n) 0

/-- ROOT_STATE (R382 to R384): 2 when the stored root is lost or a clean start finds another one, 1 after a dirty
recovery, else 0. -/
def rootStep (s : State) (matchesRoot : Bool) : State :=
  let dirty := s.pwr.lastStart = 2
  let same := matchesRoot && s.clk.root = s.ig.rootVer
  if s.pwr.firstStart then storeRoot s 0
  else if !s.clk.rootGood || (!dirty && !same) then
    let s := if s.clk.rootGood then raise s 0x54 srcDevice 0 0 0 0 else s
    raise (storeRoot s 2) 0x53 srcDevice 0 0 0 0
  else if dirty then raise (storeRoot s 1) 0x52 srcDevice (treeRegions s % 2 ^ 32) (treeRegions s / 2 ^ 32) 0 0
  else storeRoot s 0

/-- The map and tree areas of a capacity and a map rank set (R135, R368, R669). -/
def layOut (s : State) (cap : Nat) (ranks : List Nat) : State :=
  let g := mapGeometry cap ranks.length
  let rot := ranks.foldl (fun t r => tset ({} : Rot) t r { gap := g.1, tgap := g.2.2.1 }) []
  { s with mp := { s.mp with
    capGib := cap, mapRanks := ranks, mapNr := ranks.length, mapN := g.1, mapBlks := g.2.1, treeN := g.2.2.1
    treeBlks := g.2.2.2, rot := rot } }

/-- Map block stripes of a rank that hold two or more factory bad blocks, as die × 5,120 + block (R140). -/
def badMapStripes (s : State) (r : Nat) : List Nat :=
  let all := ((rankLinks r).flatMap fun n => (pkgOf s n).bbl).filter fun x => x.1 < 16 && mapBlkFirst s ≤ x.2
  ((all.map fun x => x.1 * 5120 + x.2).dedup).filter fun k => 2 ≤ (all.filter fun x => x.1 * 5120 + x.2 = k).length

/-- A DIRTY stripe is blanked for a use, below its rating, and its mode recorded (R48, R66, R226). -/
def blankAs (s : State) (bs : Nat) (st : BsState) (bisque : Bool) : State :=
  recordStripe (updStripe (blanked s bs) bs fun b => { b with
    state := st, bisque := bisque, cycles := b.cycles + 1, wls := 0, valid := 0, lag := 0, unswept := false }) bs

/-- They are swapped, at most eight a rank (R140). -/
def swapBad (s : State) (r : Nat) : State :=
  (badMapStripes s r).foldl (fun s k =>
    if 8 ≤ (rot s r).swaps.length then raise s 0x3B r k 0 0 0
    else match nextDirty s r with
      | none => s
      | some x =>
        if 20000 ≤ x.2.cycles then s
        else updRot (blankAs s x.1 .system true) r fun t => { t with swaps := t.swaps ++ [(k, x.1 % 81920)] }) s

/-- One stripe of a rank is blanked at the first start. -/
def blankOne (s : State) (r : Nat) (bisque : Bool) : State :=
  match nextDirty s r with
  | none => s
  | some x => if 20000 ≤ x.2.cycles then s else blankAs s x.1 .blank bisque

/-- What a first start does at step 9 (R640). -/
def firstLayout (s : State) : State :=
  let cap := 3145728 * s.mp.pop.length / 64
  let s := layOut s cap s.mp.pop
  let s := { s with
    mp := { s.mp with leaves := [], regions := [(0, { valid := true, size := cap })] }
    ig := { s.ig with levelB := [], leafStamps := [], levelC := [], mediaSlots := [], slotTags := [] } }
  let s := s.mp.pop.foldl (fun s r =>
    let s := swapBad (updRank s r fun p => { p with budget := 6 }) r
    let s := (List.range (blankAhead s)).foldl (fun s _ => blankOne s r false) s
    openAllocation (blankOne s r true) r) s
  let s := { s with wr := { s.wr with spareBs0 := (spareBs s).toNat } }
  keepPut (saveRegions s) 0x20 (capacityRecord s)

/-- A pending capacity command takes effect: every leaf below the new capacity keeps its content, pages above it are
dropped and their homes released (R343). -/
def relayout (s : State) : State :=
  match s.mp.pendingCap with
  | none => s
  | some (cap, ranks) =>
    let gone := (s.mp.leaves.map fun x => x.1 / 2).dedup.filter fun ll => cap * 2048 * 64 ≤ ll
    let slots := (gone.flatMap fun ll => lineEntries (bestLine s ll)).flatMap fun e => [e.glazeHome, e.bisqueHome].filter (· ≠ none40)
    let s := slots.foldl releaseSlot s
    let s := { s with mp := { s.mp with
      leaves := s.mp.leaves.filter fun x => x.1 / 2 < cap * 2048 * 64
      cache := s.mp.cache.filter fun x => x.1 * 4 < cap * 2048 * 64, pendingCap := none } }
    let s := layOut s cap ranks
    keepPut (ranks.foldl swapBad s) 0x20 (capacityRecord s)

/-- Step 9; the node writes that the breath held are completed (R382). -/
def rootStart (s : State) (r : StepReport) : State :=
  let s := rootStep s r.rootMatches
  let s := s.ig.heldNodes.foldl finishNode s
  if s.pwr.firstStart then firstLayout s else relayout s

/-! ### Steps 10 and 11 (R118, R393, R394, R408, R471, R534, R620, R637, R641) -/

/-- Step 10: the UCIe link trains, configuration space, chart and mailbox are ready; a stored join request joins. -/
def hostStart (s : State) (r : StepReport) : State :=
  let s := r.lanesRepaired.foldl (fun s x => (repairLane s (x.1 % 4) x.2.1 x.2.2).1) s
  let s := { s with hl := { s.hl with
    modUp := r.modulesUp, state := if r.modulesUp = 0 then .down else .active, mboxReady := true
    subsys := keepNat s 1 % 2 ^ 32 } }
  if s.cn.joinReq && !s.pwr.limited then joinConsort s else s

/-- The sweep of the stripes that await it; with none it ends at once (R282, R637, R640). -/
def startSweep (s : State) : State :=
  let n := (s.pl.stripes.filter fun x => x.2.unswept).length
  if n = 0 && !s.pwr.contLost then s
  else
    let s := { s with dr := { s.dr with sweepActive := true, swept := 0, total := n } }
    if n = 0 then raise { s with dr := { s.dr with sweepActive := false } } 0x4 srcDevice 0 0 0 0 else s

/-- Step 11 ends: limits, READY, Media Status Ready; full rebuilds and the cone sweep begin (R231, R534, R636, R637, R641). -/
def mediaStart (s : State) : State :=
  let v := s.pwr.vTaken.getD s.pwr.vLast
  let s := measureHoldup { s with pwr := { s.pwr with vTaken := some v } } v true
  let s := { s with pwr := { s.pwr with step := 12, quietSince := s.clk.beat } }
  let s := (s.ln.links.map (·.1)).foldl comparePackage s
  let fresh := s.ln.links.filter fun x => x.2.state = .rebuilding && (linkWear s x.1).linkBits.isEmpty && !(linkWear s x.1).allBits
  let s := fresh.foldl (fun s x => clearForRebuild s (x.1 / 18) fun bs => !rebuiltFor s x.1 bs) s
  let s := s.mp.pop.foldl (fun s r => updRank s r fun p => { p with
    budget := max (budgetMin s) (min (budgetMax s) (if p.budget = 0 then 6 else p.budget)) }) s
  startSweep (checkSpareStripes (refreshReady s))

/-! ### STARTUP_STEP_END (R633, R634, R638) -/

/-- The step after one that ends; a limited start skips 5, 7, 8, 9 and 11 (R634). -/
def nextStep (limited : Bool) (k : Nat) : Nat :=
  if limited then (if k < 4 then k + 1 else if k < 6 then 6 else if k < 10 then 10 else 11) else k + 1

/-- The action of the step that ends. -/
def stepAction (s : State) (r : StepReport) : State :=
  match s.pwr.step with
  | 1 => fuseLoad s
  | 2 => romBoot s
  | 3 => (r.badChannels.filter (· < 128)).foldl testChannel s
  | 4 => keepStart s r
  | 5 => keyStart s r.unwrapFails
  | 6 => populate s
  | 7 => clockStart s
  | 8 => breathStart s r
  | 9 => rootStart s r
  | 10 => hostStart s r
  | _ => mediaStart s

/-- STARTUP_STEP_END. A device without a good reference stays in fuse load (R21), one with BOOT_HALT is held at its end
(R664); a start that was stopped goes no further. -/
def execStartupStepEnd (r : StepReport) (s : State) : Host.Outcome State Fault Refusal :=
  .next (
    let k := s.pwr.step
    if !s.pwr.supplies || s.pwr.inReset || s.pwr.stopped || k = 0 || 12 ≤ k || (s.pwr.limited && k = 11) || s.pwr.halted then s
    else if k = 1 && s.clk.refPresent = 0#4 then s
    else if k = 1 && s.pwr.strapHalt then
      let s := fuseLoad s
      { s with pwr := { s.pwr with halted := true } }
    else
      let s := stepAction s r
      if s.pwr.step = 12 || s.pwr.stopped then s
      else { s with pwr := { s.pwr with step := nextStep s.pwr.limited k } })

/-! ### The test access port (R664, R665) -/

/-- IDCODE: version, part and manufacturer fields in the places of IEEE 1149.1 (log 5). -/
def idcode : Nat := 0x1 * 2 ^ 28 + 0x5C4A * 2 ^ 12 + Config.jep106.toNat * 2 + 1

/-- STATUS: startup step, REF_LOCK, REF_FAULT and the brown-out flags; their places are the model's (log 46). -/
def tapStatus (s : State) : Nat :=
  s.pwr.step + s.clk.refLock.toNat * 2 ^ 8 + s.clk.refFault.toNat * 2 ^ 12 + s.pwr.brownOut.toNat * 2 ^ 16

/-- The open-drain and CMOS pins, as SAMPLE sees them (log 46). -/
def pinValues (s : State) : Nat :=
  match s.hl.extest with
  | some v => v.toNat
  | none => flag (alertN s) 0 + flag (thermtripN s) 1 + flag s.pwr.pwrfail 2 + flag s.pwr.inReset 3

/-- TAP_INSTRUCTION (R665): the port runs whenever the supplies are up, in reset too. -/
def execTapInstruction (i : TapInstr) (s : State) : Host.Outcome State Fault Refusal :=
  .next (
    if !s.pwr.supplies then s
    else
      let out (s : State) (v : Nat) : State := { s with hl := { s.hl with tapOut := BitVec.ofNat 64 v } }
      match i with
      | .idcode => out s idcode
      | .bypass => out { s with hl := { s.hl with extest := none } } 0
      | .extest pins => { s with hl := { s.hl with extest := some pins } }
      | .sample => out s (pinValues s)
      | .fuseRead => out s Config.fuseImage.toNat
      | .status => out s (tapStatus s)
      | .haltRelease =>
        if s.pwr.halted then { s with pwr := { s.pwr with halted := false, step := 2 } } else s
      | .regRead off =>
        let s := readReg s 0x40 0 off 8
        { s with hl := { s.hl with tapOut := s.hl.rdData.setWidth 64 } }
      | .regWrite off v => writeReg s 0x40 0 off 8 (v.setWidth 512))

end Sys2Proof.Machine
end

