-- ==== Sys2Proof/Machine/DeepWake.lean ====
section
/-! DEFINITION. The wake from Deep sleep: the beat counter, the retention banks, the ring, the capture queues, clock
continuity, the root and the return to Run (R23, R348, R384, R494, R523 to R530, R566, R568, R595, R600, R607). -/
namespace Sys2Proof.Machine

/-! ### Retention banks (R525 to R527) -/

/-- Configuration registers of a failed bank: firmware writes their committed values back from the keep store, so the
shadows follow them; without a serving part they stay at reset (R527, R528). -/
def rebuildConfig (s : State) (ids : List Nat) : State :=
  ids.foldl (fun s id =>
    let v := if keepUp s then cfg s id else cfgReset id
    setShadow (setLive s id v) id v) s

/-- Bank 0: SAGR and PLCE lose their statistics. -/
def loseBank0 (s : State) : State :=
  { rebuildConfig s [0, 1, 2] with
    sag := { s.sag with episodes := 0, withheldBeats := 0 }
    pl := { s.pl with ranks := s.pl.ranks.foldl (fun t x => tset {} t x.1 { x.2 with reclaimed := 0 }) [] } }

/-- Bank 1: DRFT and ECC lose their statistics and ECC_OVF. -/
def loseBank1 (s : State) : State :=
  { rebuildConfig s [3, 4] with
    dr := { s.dr with captures := 0, coefChanges := 0, targetChanges := 0 }
    ecc := { s.ecc with
      ovf := 0, overruns := 0
      ranks := s.ecc.ranks.foldl (fun t x => tset {} t x.1 ({ level := x.2.level } : RankEcc)) []
      sram := s.ecc.sram.foldl (fun t x => tset {} t x.1 { x.2 with ue := 0, ce := 0, lastRow := 0 }) [] } }

/-- Bank 2: WEAR and HKEP lose their statistics; the zones' history is that of the keep store. -/
def loseBank2 (s : State) : State :=
  loadHistory { rebuildConfig s ((List.range 53).map (· + 5)) with
    wr := { s.wr with failovers := 0 }
    th := { s.th with zones := [], chans := [], uv := 0, vbat := 0, holdup := 0 } }

/-- Bank 3: the recorder's registers are at reset and the queues restart empty; rate limits and capture sources are
rebuilt. -/
def loseBank3 (s : State) : State :=
  { s with ev := { s.ev with
    head := 0, floor := 0, frozen := false, frozenCount := 0, suppressed := 0, dropped := 0, rdsel := 0, held := false
    words := [0, 0, 0, 0], crits := s.kp.crits
    queues := s.ev.queues.foldl (fun t x => tset {} t x.1 ({ timeout := x.2.timeout, classes := x.2.classes } : CapQ)) [] } }

/-- Bank 4: membership is lost and a device that asked to join joins again. -/
def loseBank4 (s : State) : State :=
  let s := rebuildConfig (leaveConsort s) [60]
  if s.cn.joinReq then joinConsort s else s

/-- Bank 5: counter programming and counts are lost. -/
def loseBank5 (s : State) : State := { s with ev := { s.ev with mons := [], runBeats := 0 } }

/-- Bank 6: pending bits, RAS and AER status are lost. -/
def loseBank6 (s : State) : State :=
  { s with hl := { s.hl with
    msix := s.hl.msix.foldl (fun t x => tset {} t x.1 { x.2 with pending := false }) []
    aerCorrected := 0, aerUncorrectable := 0, advisory := 0, rasCorrectable := 0, rasUncorrectable := 0, aerHead := none, rasHead := none
    completerAbort := false, poisonedTlp := false } }

/-- Bank 7: REJECTED, REJ_COUNT and REJ_CAUSE are lost. -/
def loseBank7 (s : State) : State :=
  { s with pp := { s.pp with pipes := s.pp.pipes.foldl (fun t x =>
      tset (pipeReset x.1) t x.1 { x.2 with rejected := false, rejCount := 0, rejCause := 0 }) [] } }

/-- What a bank that fails its check loses. -/
def loseBank (s : State) (k : Nat) : State :=
  match k with
  | 0 => loseBank0 s
  | 1 => loseBank1 s
  | 2 => loseBank2 s
  | 3 => loseBank3 s
  | 4 => loseBank4 s
  | 5 => loseBank5 s
  | 6 => loseBank6 s
  | _ => loseBank7 s

/-- Every bank fails after a dip of the always-on supply (R526). -/
def failedBanks (s : State) (bad : BitVec 8) : List Nat :=
  (List.range 8).filter fun k => s.pwr.aonDip || bad.getLsbD k

/-- Each failed bank sets its bit and raises retention-failure (R527). -/
def reportBanks (s : State) (banks : List Nat) : State :=
  banks.foldl (fun s k =>
    raise { s with pwr := { s.pwr with bankFail := s.pwr.bankFail ||| (1#8 <<< k) } } 0x60 srcDevice k 0 0 0) s

/-! ### The recorder and the queues (R595, R600, R607) -/

/-- Records held by the ring. -/
def ringHeld (s : State) : Nat := min (s.ev.head - s.ev.floor) 65536

/-- A queue after the wake: its positions move to the next packet boundary; what entry counted stays in LOST_BEFORE
(R607). -/
def queueWoken (c : CapQ) : CapQ :=
  let next := (capProd c + 4095) / 4096 * 4096
  { c with prod := next, rel := next, mark := none, opened := true, count := 0, first := 0, thisBeat := 0 }

/-- The ring starts empty above HEAD, with an event-gap record first (R600). -/
def ringWoken (s : State) (held : Nat) : State :=
  let s := { s with ev := { s.ev with ring := [], intake := [], thisBeat := 0, floor := s.ev.head } }
  writeRecord s { code := 0xF0, source := srcDevice, time := BitVec.ofNat 64 (eventTime s), p0 := held }

/-! ### DEEP_SLEEP_WAKE -/

/-- Which of the wake sources reach a device in Deep sleep: no housekeeping round runs there, and PWRFAIL_N needs no
action (R519, R530, R550). -/
def deepWakes (s : State) (src : WakeSource) : Bool :=
  match src with
  | .hostLink => true
  | .wakePin => true
  | .consort => s.cn.joined
  | .thermal => false
  | .pwrfail => false

/-- The beats that a Deep sleep adds to the counter (R23). -/
def sleptBeats (c : ClkSt) : Nat := (c.seconds * 32768 + c.subsec - c.savedTicks) * 15625 / 32

/-- What nothing retains starts afresh: SAMPLE_SET and DUMP_SET (R524). -/
def unretained (s : State) : State :=
  { s with
    hq := { s.hq with samplePeriod := 0, sampleTypes := 0, sampleQueue := 0, sampleCount := 0, sampleNext := none }
    ev := { s.ev with dumpOn := false, dumpK := 10, dumpNext := none, dumps := 0 } }

/-- The root is checked as at a clean start (R384, R529). -/
def rootWoken (s : State) : State :=
  if s.clk.rootGood && s.clk.root = s.ig.rootVer then s
  else
    let s := if s.clk.rootGood then raise s 0x54 srcDevice 0 0 0 0 else s
    raise (storeRoot s 2) 0x53 srcDevice 0 0 0 0

/-- The steps of a wake, in the order of the table of R529. -/
def deepWake (s : State) (code : Nat) (bad : BitVec 8) : State :=
  let slept := sleptBeats s.clk
  let held := ringHeld s
  let banks := failedBanks s bad
  let s := { s with
    clk := { s.clk with beat := s.clk.savedBeat + slept }
    ev := { s.ev with queues := s.ev.queues.foldl (fun t x => tset {} t x.1 (queueWoken x.2)) [] }
    pp := { s.pp with sema := [] }
    pwr := { s.pwr with
      state := .run, entering := false, wakes := satAdd 32 s.pwr.wakes 1, wakeSrc := code, asked := none, askedCmd := none }
    hl := { s.hl with state := if s.hl.state = .lowPower then .active else s.hl.state, leftActive := none }
    cn := { s.cn with agreed := none } }
  let s := fillBuckets (unretained s)
  let s := ringWoken (if 3 ∈ banks then loseBank3 s else s) held
  let s := reportBanks ((banks.filter (· ≠ 3)).foldl loseBank s) banks
  let lost := !s.clk.cont
  let s := resumeLinks s fun _ => true
  let s := clockStep s (slept / 2 ^ 24) groupFactor
  let s := if lost then startSweep s else s
  let s := refreshReady (rootWoken s)
  let s := { s with
    pwr := { s.pwr with quietSince := s.clk.beat, aonDip := false, contLost := false }
    ev := { s.ev with wakePending := none } }
  if s.cn.joined && code ≠ 5 then sendFrame s .wake else s

/-- DEEP_SLEEP_WAKE (R529). -/
def execDeepSleepWake (src : WakeSource) (badBanks : BitVec 8) (s : State) : Host.Outcome State Fault Refusal :=
  .next (
    if s.pwr.supplies && !s.pwr.inReset && s.pwr.state = .deepSleep && deepWakes s src then
      deepWake s (WakeSource.code src) badBanks
    else s)

end Sys2Proof.Machine
end

