-- ==== Sys2Proof/Machine/Beat.lean ====
section
/-! DEFINITION. The beat boundary: the counter, and the ordered actions of R27 with what else the rules place at a
boundary (R16, R22 to R24, R163, R217, R297, R407, R515, R519, R549, R567, R596, R605, R608, R611, R613, R624, R657). -/
namespace Sys2Proof.Machine

/-! ### The clocks (R22 to R24, R567) -/

/-- The counters of a boundary: BEAT, the beat within the second, and the fabric's tick while the crystal is out. -/
def beatClock (c : ClkSt) : ClkSt :=
  let acc := if c.subst then c.fabricAcc + 32 else c.fabricAcc
  let c := { c with
    beat := c.beat + 1, edge := false
    inSecond := if c.edge then 0 else min (c.inSecond + 1) 0xFFFFFF
    fabricAcc := if 15625 ≤ acc then acc - 15625 else acc }
  if 15625 ≤ acc then trimTick (tick c) else c

/-! ### Step 3: what was programmed takes effect (R27, R610, R613) -/

/-- New selects and clears of a monitor. -/
def monStep (m : Mon) : Mon :=
  m.next.foldl (fun m x =>
    let m := match x.2.1 with
      | some sel => { m with sel := m.sel.set x.1 sel }
      | none => m
    if x.2.2 then { m with cnt := m.cnt.set x.1 0 } else m) { m with next := [] }

/-- What one beat brought of busy cycles, SRAM accesses and arbitration losses: no row has them, so each is a free value
(R609, log 130). -/
def cycleCount (s : State) (x : Nat × Nat × Nat) : State :=
  let (d, s) := draw s
  count s x.1 x.2.1 x.2.2 (Config.freeWord d).toNat

/-- The selects of a monitor that count what no row has (R609). -/
def cycleSelects (s : State) (m : Nat) : List (Nat × Nat × Nat) :=
  ((mon s m).sel.filter fun x => x.1 = 0x201 || x.1 = 0x301 || x.1 = 0x302).dedup.map fun x => (m, x)

/-- The bytes of one beat at an SRAM port, free like them (R612, log 130). -/
def sramPort (s : State) (port : Nat) : State :=
  let (d, s) := draw s
  portBytes s 66 port (Config.freeWord d).toNat

/-- The counts of the beat that ends of what happens below the rows: cores' cycles and SRAM accesses (R609, R612, log 130). -/
def cycleCounts (s : State) : State :=
  let s := (cycleSelects s 65 ++ cycleSelects s 66).foldl cycleCount s
  if (mon s 66).window = 0 then s else sramPort (sramPort s 0) 1

/-- Every monitor's, and the sampling that SAMPLE_SET named. -/
def counterStep (s : State) : State :=
  let s := { s with ev := { s.ev with mons := s.ev.mons.foldl (fun (t : Tab Mon) (x : Nat × Mon) => tset {} t x.1 (monStep x.2)) [] } }
  match s.hq.sampleNext with
  | none => s
  | some (period, types, queue) =>
    { s with hq := { s.hq with
      samplePeriod := period, sampleTypes := BitVec.ofNat 8 types, sampleQueue := queue, sampleCount := 0, sampleNext := none } }

/-! ### Step 4: admission (R163, R217, R389, R611) -/

/-- Read credits that the device withholds. -/
def readsWithheld (s : State) : Nat :=
  (s.hq.holds.filter fun h => match h with
    | .readDone _ _ _ => true
    | .readEntry _ => true
    | .readLink => readsHeld s
    | _ => false).length

/-- The host monitor's classes of the 800 slots: served, wasted, starved-front, starved-back (R611). -/
def countSlots (s : State) (reads wasted : Nat) : State :=
  let back := min (800 - reads) (readsWithheld s)
  let s := count (count s 0 0x4 0xFF (reads - wasted)) 0 0x5 0xFF wasted
  count (count s 0 0x6 0xFF (800 - reads - back)) 0 0x7 0xFF back

def HostReq.isWrite (r : HostReq) : Bool := match r.kind with | .read => false | _ => true

/-- A power loss is signalled, or its breath runs: no queued write is ever admitted (R217, R535). -/
def powerLoss (s : State) : Bool := s.pwr.pwrfail || match s.pwr.breath with | some b => b.pwrfail | none => false

/-- Requests that must stay in the queue at this boundary: all after an IDE failure, writes while a breath runs (R389,
R535). -/
def heldBack (s : State) (r : HostReq) : Bool := s.ig.ideStop || (s.pwr.breath.isSome && r.isWrite)

/-- The writes that a power loss finds queued are gone (R217); that their credits return once the device resumes is the model's
choice (log 107). -/
def dropWrites (s : State) : State :=
  if !powerLoss s then s
  else { s with hq := { s.hq with
    queue := s.hq.queue.filter fun r => !r.isWrite
    holds := s.hq.holds ++ (s.hq.queue.filter (·.isWrite)).map fun _ => .writeRoom } }

/-- Admission in Run and Idle once media are ready. -/
def admission (s : State) : State :=
  let s := dropWrites s
  let wait := s.hq.queue.filter (heldBack s)
  let go := s.hq.queue.filter fun r => !heldBack s r
  let (s, reads, wasted) := admitAll { s with hq := { s.hq with queue := go } }
  countSlots { s with hq := { s.hq with queue := wait } } reads wasted

/-! ### Other boundary work -/

/-- Pages that wait for their drop and are taken up now (R129, R256). -/
def takeDrops (s : State) : State :=
  if s.pl.dropsDue.isEmpty then s
  else
    let (d, s) := draw s
    (s.pl.dropsDue.filter (Config.dropsNow d)).foldl (fun s p => dropPage (fetchSeg s p) p) s

/-- Every bucket loses one at each multiple of 65,536 beats (R297). -/
def bucketLeak (s : State) : State :=
  if s.clk.beat % 65536 ≠ 0 then s
  else { s with ecc := { s.ecc with ranks := s.ecc.ranks.foldl (fun t x => tset {} t x.1 { x.2 with level := x.2.level - 1 }) [] } }

/-- The pulse of ALERT_N ends with its interval (R657). -/
def alertEnds (s : State) : State :=
  match s.pwr.alertUntil with
  | some e => if e ≤ s.clk.beat then { s with pwr := { s.pwr with alertUntil := none } } else s
  | none => s

/-- The counter advances; what runs by its number follows. -/
def advance (s : State) : State := alertEnds (bucketLeak { s with clk := beatClock s.clk })

/-- What restarts IDLE_TIMER at a boundary: a request to admit, a command in progress, a work unit (R515). -/
def activity (s : State) : Bool := !s.hq.queue.isEmpty || workRuns s

/-- The queues and the recorder begin a beat (R596, R605), and the responses of the last one have left. -/
def freshBeat (s : State) : State :=
  intakeDrain { s with
    hq := { s.hq with sent := [] }
    ev := { s.ev with queues := s.ev.queues.foldl (fun t x => tset {} t x.1 { x.2 with thisBeat := 0 }) [] } }

/-- Beats with write credits withheld (SAGR_WITHHOLD, host monitor). -/
def countWithheld (s : State) : State :=
  if s.sag.withheld then
    count { s with sag := { s.sag with withheldBeats := satAdd 32 s.sag.withheldBeats 1 } } 0 0xD 0xFF 1
  else s

/-! ### BEAT_BOUNDARY -/

/-- Step 1 of R27: the windows and the snapshot of boundary `b`. -/
def stepOne (s : State) (b : Nat) : State :=
  let s := (s.ev.mons.map (·.1)).foldl (fun s m => if windowDue s m b then latchWindow s m b else s) s
  if dumpDue s b then snapshot s b else s

/-- Step 2: decoder changes, the pending commit, and mute levels. -/
def stepTwo (s : State) (b : Nat) : State :=
  let s := commitAt (decodersLive s) b
  if b % 131072 = 65536 then levelsLive s else s

/-- Step 4, and the credits, those of the requests admitted among them (R164, R196). -/
def stepFour (s : State) : State :=
  let s := if ready s then admission s else s
  let s := if s.pwr.step = 12 then grantCredits (returnCredits s) else s
  if ready s then countWithheld s else s

/-- What waits at the saggar, the map and the placement is taken up; the map rests in a last breath (R129, R148, R150, R215,
R539). -/
def upkeep (s : State) : State :=
  let s := takeDrops (discardReports s)
  if s.pwr.breath.isSome then s else mapUpkeep s

/-- A boundary in Run or Idle: the order of R27. -/
def runBoundary (s : State) : State :=
  let b := s.clk.beat + 1
  let s := stepTwo (stepOne (cycleCounts s) b) b
  let s := retrainEnds (powerAgreedAt (goMissed s b) b) b
  let s := advance (counterStep s)
  let s := { s with ev := { s.ev with runBeats := s.ev.runBeats + 1 } }
  let s := if activity s then noteActivity s else s
  freezePlans (upkeep (stepFour (freshBeat s)))

/-- A boundary in Sleep: the counter, mute levels, and a wake that waits (R518 to R520, R549). -/
def sleepBoundary (s : State) : State :=
  let b := s.clk.beat + 1
  let s := if b % 131072 = 65536 then levelsLive s else s
  let s := advance s
  if s.pwr.pwrfail then wakeFromSleep s 3
  else match s.ev.wakePending with
    | some src => wakeFromSleep s src
    | none => s

/-- BEAT_BOUNDARY (R27). Without a clock there is no boundary (R21, R23). -/
def execBeatBoundary (s : State) : Host.Outcome State Fault Refusal :=
  .next (
    if !clocked s then s
    else if s.pwr.state = .sleep then cycleEnd (sleepBoundary (cycleStart s))
    else if awake s then
      let s := cycleEnd (runBoundary (cycleStart s))
      if s.pwr.entering && (s.pwr.pwrfail || s.ev.wakePending.isSome) then abortEntry s else s
    else s)

end Sys2Proof.Machine
end

