-- ==== Sys2Proof/Machine/Dispatch.lean ====
section
/-! DEFINITION. The one table from commands to their meanings: each arm one direct call (R27 and the rows of
spec/opcode_table.json). -/
namespace Sys2Proof.Machine

/-- The effect of a command on everything but the queue. -/
def exec (i : Instr) (s : State) : Host.Outcome State Fault Refusal :=
  match i with
  | .powerOn pos bootHalt => Sys2Proof.Machine.execPowerOn pos bootHalt s
  | .resetNAssert ns => Sys2Proof.Machine.execResetNAssert ns s
  | .resetNRelease => Sys2Proof.Machine.execResetNRelease s
  | .brownOut rail => Sys2Proof.Machine.execBrownOut rail s
  | .suppliesUpUnreset inRange => Sys2Proof.Machine.execSuppliesUpUnreset inRange s
  | .startupStepEnd r => Sys2Proof.Machine.execStartupStepEnd r s
  | .pwrfailNAssert => Sys2Proof.Machine.execPwrfailNAssert s
  | .pwrfailNDeassert => Sys2Proof.Machine.execPwrfailNDeassert s
  | .wakeAssert us => Sys2Proof.Machine.execWakeAssert us s
  | .referenceFailure k => Sys2Proof.Machine.execReferenceFailure k s
  | .hostReset kind => Sys2Proof.Machine.execHostReset kind s
  | .ondieThermtrip sensor temp16 => Sys2Proof.Machine.execOndieThermtrip sensor temp16 s
  | .offEntry => Sys2Proof.Machine.execOffEntry s
  | .backupSupplyLow mv => Sys2Proof.Machine.execBackupSupplyLow mv s
  | .oscillatorStop us => Sys2Proof.Machine.execOscillatorStop us s
  | .crystalStop => Sys2Proof.Machine.execCrystalStop s
  | .crystalResume edges => Sys2Proof.Machine.execCrystalResume edges s
  | .calendarTick => Sys2Proof.Machine.execCalendarTick s
  | .trimApply => Sys2Proof.Machine.execTrimApply s
  | .beatBoundary => Sys2Proof.Machine.execBeatBoundary s
  | .frameStart l => Sys2Proof.Machine.execFrameStart l s
  | .upstreamFrame l f => Sys2Proof.Machine.execUpstreamFrame l f s
  | .lossOfSignal l => Sys2Proof.Machine.execLossOfSignal l s
  | .workUnitSubmit w => Sys2Proof.Machine.execWorkUnitSubmit w s
  | .lineDecodeDone t o others => Sys2Proof.Machine.execLineDecodeDone t o others s
  | .dataResponse tag cycle => Sys2Proof.Machine.execDataResponse tag cycle s
  | .memRd hpa tag cycle => Sys2Proof.Machine.execMemRd hpa tag cycle s
  | .memSpecRd hpa tag => Sys2Proof.Machine.execMemSpecRd hpa tag s
  | .memInv tag => Sys2Proof.Machine.execMemInv tag s
  | .memWr hpa tag cycle be data poison => Sys2Proof.Machine.execMemWr hpa tag cycle be data poison s
  | .memWrPtl hpa tag cycle be data poison => Sys2Proof.Machine.execMemWrPtl hpa tag cycle be data poison s
  | .cxlMemUnsupported isRead tag opcode => Sys2Proof.Machine.execCxlMemUnsupported isRead tag opcode s
  | .fillComplete page line o others => Sys2Proof.Machine.execFillComplete page line o others s
  | .fillRetry page line => Sys2Proof.Machine.execFillRetry page line s
  | .drainStart page group => Sys2Proof.Machine.execDrainStart page group s
  | .drainVerified page group => Sys2Proof.Machine.execDrainVerified page group s
  | .writeDiscardHoldEnd r => Sys2Proof.Machine.execWriteDiscardHoldEnd r s
  | .mapWriteBackVerified leafLine replica => Sys2Proof.Machine.execMapWriteBackVerified leafLine replica s
  | .mapCleaningVisit set => Sys2Proof.Machine.execMapCleaningVisit set s
  | .gapMove r tree => Sys2Proof.Machine.execGapMove r tree s
  | .gapMoveVerified r tree => Sys2Proof.Machine.execGapMoveVerified r tree s
  | .mapStripeSwap r src dst verified => Sys2Proof.Machine.execMapStripeSwap r src dst verified s
  | .heatEpochAdvance => Sys2Proof.Machine.execHeatEpochAdvance s
  | .budgetAdjust r => Sys2Proof.Machine.execBudgetAdjust r s
  | .fireQueueWalk r slot => Sys2Proof.Machine.execFireQueueWalk r slot s
  | .fireWaitExpiry r => Sys2Proof.Machine.execFireWaitExpiry r s
  | .firingStart r purpose => Sys2Proof.Machine.execFiringStart r purpose s
  | .wordLineVerified r purpose pulses => Sys2Proof.Machine.execWordLineVerified r purpose pulses s
  | .guardVerifyPass r purpose group failing => Sys2Proof.Machine.execGuardVerifyPass r purpose group failing s
  | .guardPassComplete r purpose group => Sys2Proof.Machine.execGuardPassComplete r purpose group s
  | .blankingStart r => Sys2Proof.Machine.execBlankingStart r s
  | .blankingComplete bs => Sys2Proof.Machine.execBlankingComplete bs s
  | .reclaimStart r => Sys2Proof.Machine.execReclaimStart r s
  | .reclaimMoveVerified r => Sys2Proof.Machine.execReclaimMoveVerified r s
  | .victimRelease bs => Sys2Proof.Machine.execVictimRelease bs s
  | .levellingCheck r => Sys2Proof.Machine.execLevellingCheck r s
  | .bisqueRelocation page => Sys2Proof.Machine.execBisqueRelocation page s
  | .restamp page => Sys2Proof.Machine.execRestamp page s
  | .refresh page => Sys2Proof.Machine.execRefresh page s
  | .secureSweep => Sys2Proof.Machine.execSecureSweep s
  | .packageAlertDetails l details => Sys2Proof.Machine.execPackageAlertDetails l details s
  | .rebuildStripeDone l die bs => Sys2Proof.Machine.execRebuildStripeDone l die bs s
  | .sramEccError channel row uncorrectable place => Sys2Proof.Machine.execSramEccError channel row uncorrectable place s
  | .sramRowRepair channel row => Sys2Proof.Machine.execSramRowRepair channel row s
  | .sramChannelFail channel why => Sys2Proof.Machine.execSramChannelFail channel why s
  | .sramChannelCopyDone die => Sys2Proof.Machine.execSramChannelCopyDone die s
  | .coreHeartbeatTimeout c => Sys2Proof.Machine.execCoreHeartbeatTimeout c s
  | .coreFailoverDone c => Sys2Proof.Machine.execCoreFailoverDone c s
  | .driftTick => Sys2Proof.Machine.execDriftTick s
  | .driftStateSave => Sys2Proof.Machine.execDriftStateSave s
  | .coneCapture r => Sys2Proof.Machine.execConeCapture r s
  | .coneMasks l die up down => Sys2Proof.Machine.execConeMasks l die up down s
  | .stripeSweep bs sums => Sys2Proof.Machine.execStripeSweep bs sums s
  | .scrubPassStart r bisque => Sys2Proof.Machine.execScrubPassStart r bisque s
  | .scrubVisit r bisque slot found => Sys2Proof.Machine.execScrubVisit r bisque slot found s
  | .scrubOverrun r bisque => Sys2Proof.Machine.execScrubOverrun r bisque s
  | .treeNodeWrite node => Sys2Proof.Machine.execTreeNodeWrite node s
  | .nodeWriteVerified node => Sys2Proof.Machine.execNodeWriteVerified node s
  | .bImageWrite b => Sys2Proof.Machine.execBImageWrite b s
  | .stampSlotWriteBack home => Sys2Proof.Machine.execStampSlotWriteBack home s
  | .stampCeilDurable => Sys2Proof.Machine.execStampCeilDurable s
  | .eraseStart kind => Sys2Proof.Machine.execEraseStart kind s
  | .eraseComplete => Sys2Proof.Machine.execEraseComplete s
  | .ucieRetrain cause => Sys2Proof.Machine.execUcieRetrain cause s
  | .ucieRetrainDone => Sys2Proof.Machine.execUcieRetrainDone s
  | .linkDown => Sys2Proof.Machine.execLinkDown s
  | .linkTrainRetry comesUp => Sys2Proof.Machine.execLinkTrainRetry comesUp s
  | .gpfPhase1 => Sys2Proof.Machine.execGpfPhase1 s
  | .gpfPhase2 => Sys2Proof.Machine.execGpfPhase2 s
  | .memEnableSet => Sys2Proof.Machine.execMemEnableSet s
  | .hdmDecoderCommit n setup => Sys2Proof.Machine.execHdmDecoderCommit n setup s
  | .msixUnmask v => Sys2Proof.Machine.execMsixUnmask v s
  | .doeCdat handle => Sys2Proof.Machine.execDoeCdat handle s
  | .spdmRequest code nonce => Sys2Proof.Machine.execSpdmRequest code nonce s
  | .ideKmKeyProg stream => Sys2Proof.Machine.execIdeKmKeyProg stream s
  | .ideKmKSetGo stream => Sys2Proof.Machine.execIdeKmKSetGo stream s
  | .ideKmKSetStop stream => Sys2Proof.Machine.execIdeKmKSetStop stream s
  | .ideIntegrityFailure stream => Sys2Proof.Machine.execIdeIntegrityFailure stream s
  | .cxlGetEventRecords log count => Sys2Proof.Machine.execCxlGetEventRecords log count s
  | .cxlClearEventRecords log clearAll count => Sys2Proof.Machine.execCxlClearEventRecords log clearAll count s
  | .cxlGetEventInterruptPolicy => Sys2Proof.Machine.execCxlGetEventInterruptPolicy s
  | .cxlSetEventInterruptPolicy settings => Sys2Proof.Machine.execCxlSetEventInterruptPolicy settings s
  | .cxlGetFwInfo => Sys2Proof.Machine.execCxlGetFwInfo s
  | .cxlGetTimestamp => Sys2Proof.Machine.execCxlGetTimestamp s
  | .cxlSetTimestamp ts => Sys2Proof.Machine.execCxlSetTimestamp ts s
  | .cxlGetSupportedLogs => Sys2Proof.Machine.execCxlGetSupportedLogs s
  | .cxlGetLog log offset length => Sys2Proof.Machine.execCxlGetLog log offset length s
  | .cxlIdentifyMemoryDevice => Sys2Proof.Machine.execCxlIdentifyMemoryDevice s
  | .cxlGetHealthInfo => Sys2Proof.Machine.execCxlGetHealthInfo s
  | .cxlGetAlertConfig => Sys2Proof.Machine.execCxlGetAlertConfig s
  | .cxlSetAlertConfig lifeUsed temp corrected => Sys2Proof.Machine.execCxlSetAlertConfig lifeUsed temp corrected s
  | .cxlGetShutdownState => Sys2Proof.Machine.execCxlGetShutdownState s
  | .cxlSetShutdownState v => Sys2Proof.Machine.execCxlSetShutdownState v s
  | .cxlGetPoisonList dpa length => Sys2Proof.Machine.execCxlGetPoisonList dpa length s
  | .cxlInjectPoison dpa => Sys2Proof.Machine.execCxlInjectPoison dpa s
  | .cxlClearPoison dpa data => Sys2Proof.Machine.execCxlClearPoison dpa data s
  | .cxlGetScanMediaCaps dpa length => Sys2Proof.Machine.execCxlGetScanMediaCaps dpa length s
  | .cxlScanMedia dpa length => Sys2Proof.Machine.execCxlScanMedia dpa length s
  | .cxlGetScanMediaResults => Sys2Proof.Machine.execCxlGetScanMediaResults s
  | .cxlSanitize => Sys2Proof.Machine.execCxlSanitize s
  | .cxlSecureErase => Sys2Proof.Machine.execCxlSecureErase s
  | .cxlMailboxUnsupported opcode => Sys2Proof.Machine.execCxlMailboxUnsupported opcode s
  | .pipeMouthWrite p word size => Sys2Proof.Machine.execPipeMouthWrite p word size s
  | .mouthpieceTake p c => Sys2Proof.Machine.execMouthpieceTake p c s
  | .pipeBellRead p size => Sys2Proof.Machine.execPipeBellRead p size s
  | .pipeBellRing p c => Sys2Proof.Machine.execPipeBellRing p c s
  | .heldCompletionRing p => Sys2Proof.Machine.execHeldCompletionRing p s
  | .pbndLockSet => Sys2Proof.Machine.execPbndLockSet s
  | .pbndEntryWrite p entryB v => Sys2Proof.Machine.execPbndEntryWrite p entryB v s
  | .backgroundCommandStart p => Sys2Proof.Machine.execBackgroundCommandStart p s
  | .identify p => Sys2Proof.Machine.execIdentify p s
  | .getLog p => Sys2Proof.Machine.execGetLog p s
  | .configCommit p => Sys2Proof.Machine.execConfigCommit p s
  | .commitLive => Sys2Proof.Machine.execCommitLive s
  | .configDiscard p => Sys2Proof.Machine.execConfigDiscard p s
  | .regionDefine p => Sys2Proof.Machine.execRegionDefine p s
  | .regionInvalidate p => Sys2Proof.Machine.execRegionInvalidate p s
  | .regionSplit p => Sys2Proof.Machine.execRegionSplit p s
  | .regionMerge p => Sys2Proof.Machine.execRegionMerge p s
  | .discard p => Sys2Proof.Machine.execDiscard p s
  | .discardSecure p => Sys2Proof.Machine.execDiscardSecure p s
  | .zero p => Sys2Proof.Machine.execZero p s
  | .copy p => Sys2Proof.Machine.execCopy p s
  | .hintHot p => Sys2Proof.Machine.execHintHot p s
  | .hintCold p => Sys2Proof.Machine.execHintCold p s
  | .hintPin p => Sys2Proof.Machine.execHintPin p s
  | .hintUnpin p => Sys2Proof.Machine.execHintUnpin p s
  | .budget p => Sys2Proof.Machine.execBudget p s
  | .scan p => Sys2Proof.Machine.execScan p s
  | .keepRead p => Sys2Proof.Machine.execKeepRead p s
  | .keepWrite p => Sys2Proof.Machine.execKeepWrite p s
  | .keepProtect p => Sys2Proof.Machine.execKeepProtect p s
  | .keyGenerate p => Sys2Proof.Machine.execKeyGenerate p s
  | .keyInstall p unwraps => Sys2Proof.Machine.execKeyInstall p unwraps s
  | .keyStage p unwraps => Sys2Proof.Machine.execKeyStage p unwraps s
  | .keyWindowClose p => Sys2Proof.Machine.execKeyWindowClose p s
  | .keyInfo p => Sys2Proof.Machine.execKeyInfo p s
  | .secureErase p => Sys2Proof.Machine.execSecureErase p s
  | .sanitize p => Sys2Proof.Machine.execSanitize p s
  | .timeSet p => Sys2Proof.Machine.execTimeSet p s
  | .timeGet p => Sys2Proof.Machine.execTimeGet p s
  | .counterProgram p => Sys2Proof.Machine.execCounterProgram p s
  | .dumpSet p => Sys2Proof.Machine.execDumpSet p s
  | .sampleSet p => Sys2Proof.Machine.execSampleSet p s
  | .captureSources p => Sys2Proof.Machine.execCaptureSources p s
  | .captureFlush q => Sys2Proof.Machine.execCaptureFlush q s
  | .captureMark p => Sys2Proof.Machine.execCaptureMark p s
  | .captureRewind p => Sys2Proof.Machine.execCaptureRewind p s
  | .captureRelease p => Sys2Proof.Machine.execCaptureRelease p s
  | .eventFreeze p => Sys2Proof.Machine.execEventFreeze p s
  | .eventThaw p => Sys2Proof.Machine.execEventThaw p s
  | .eventRate p => Sys2Proof.Machine.execEventRate p s
  | .powerPolicy p => Sys2Proof.Machine.execPowerPolicy p s
  | .throttle p => Sys2Proof.Machine.execThrottle p s
  | .powerEnter p => Sys2Proof.Machine.execPowerEnter p s
  | .consortJoin p => Sys2Proof.Machine.execConsortJoin p s
  | .consortLeave p => Sys2Proof.Machine.execConsortLeave p s
  | .prepareRemove p => Sys2Proof.Machine.execPrepareRemove p s
  | .online p => Sys2Proof.Machine.execOnline p s
  | .acceptFreshness p => Sys2Proof.Machine.execAcceptFreshness p s
  | .spareStatus p => Sys2Proof.Machine.execSpareStatus p s
  | .capacitySet p => Sys2Proof.Machine.execCapacitySet p s
  | .unknownOpcode p => Sys2Proof.Machine.execUnknownOpcode p s
  | .bclkHalfRead master reg upper => Sys2Proof.Machine.execBclkHalfRead master reg upper s
  | .semaTakeRead master n upperOnly => Sys2Proof.Machine.execSemaTakeRead master n upperOnly s
  | .semaTakeWrite master n => Sys2Proof.Machine.execSemaTakeWrite master n s
  | .evntRdselWrite seq => Sys2Proof.Machine.execEvntRdselWrite seq s
  | .monSelWrite m n v => Sys2Proof.Machine.execMonSelWrite m n v s
  | .hkepSenseBClear bits => Sys2Proof.Machine.execHkepSenseBClear bits s
  | .shadowWrite off size v => Sys2Proof.Machine.execShadowWrite off size v s
  | .registerWrite master bar off size v => Sys2Proof.Machine.execRegisterWrite master bar off size v s
  | .idleEntry => Sys2Proof.Machine.execIdleEntry s
  | .sleepEntry => Sys2Proof.Machine.execSleepEntry s
  | .sleepWake src => Sys2Proof.Machine.execSleepWake src s
  | .deepSleepEntry => Sys2Proof.Machine.execDeepSleepEntry s
  | .deepSleepWake src badBanks => Sys2Proof.Machine.execDeepSleepWake src badBanks s
  | .lastBreathStart t => Sys2Proof.Machine.execLastBreathStart t s
  | .breathSeal beats => Sys2Proof.Machine.execBreathSeal beats s
  | .housekeepingRound x => Sys2Proof.Machine.execHousekeepingRound x s
  | .muteLevelLive => Sys2Proof.Machine.execMuteLevelLive s
  | .tempHistorySave => Sys2Proof.Machine.execTempHistorySave s
  | .keepAppend key payload okPrimary okMirror => Sys2Proof.Machine.execKeepAppend key payload okPrimary okMirror s
  | .keepCompaction => Sys2Proof.Machine.execKeepCompaction s
  | .keepPartFail mirror => Sys2Proof.Machine.execKeepPartFail mirror s
  | .eventRaise code source p0 p1 p2 p3 => Sys2Proof.Machine.execEventRaise code source p0 p1 p2 p3 s
  | .tokenRefill code => Sys2Proof.Machine.execTokenRefill code s
  | .freezeTimeout => Sys2Proof.Machine.execFreezeTimeout s
  | .packetCloseTimeout q => Sys2Proof.Machine.execPacketCloseTimeout q s
  | .packetOpen q => Sys2Proof.Machine.execPacketOpen q s
  | .counterSnapshot => Sys2Proof.Machine.execCounterSnapshot s
  | .bandwidthWindow m => Sys2Proof.Machine.execBandwidthWindow m s
  | .alertNExpire => Sys2Proof.Machine.execAlertNExpire s
  | .linkDetectPoll l signal => Sys2Proof.Machine.execLinkDetectPoll l signal s
  | .trainingStepDone l roundTrip ffe eyeV eyeH => Sys2Proof.Machine.execTrainingStepDone l roundTrip ffe eyeV eyeH s
  | .trainingTimeout l => Sys2Proof.Machine.execTrainingTimeout l s
  | .packageInventoryDone l linkCopy busCopy => Sys2Proof.Machine.execPackageInventoryDone l linkCopy busCopy s
  | .eqEvaluation l ffe eyeV eyeH => Sys2Proof.Machine.execEqEvaluation l ffe eyeV eyeH s
  | .linkRemovable l => Sys2Proof.Machine.execLinkRemovable l s
  | .migrationRecordDurable m => Sys2Proof.Machine.execMigrationRecordDurable m s
  | .leafConvertStart m => Sys2Proof.Machine.execLeafConvertStart m s
  | .leafSwitchBeat m leaf => Sys2Proof.Machine.execLeafSwitchBeat m leaf s
  | .leafConvertDone m leaf => Sys2Proof.Machine.execLeafConvertDone m leaf s
  | .budgetMigrationStripe r => Sys2Proof.Machine.execBudgetMigrationStripe r s
  | .briterStatus origin st => Sys2Proof.Machine.execBriterStatus origin st s
  | .briterStatusSend => Sys2Proof.Machine.execBriterStatusSend s
  | .briterPrepare origin n kind => Sys2Proof.Machine.execBriterPrepare origin n kind s
  | .briterAck origin n digest => Sys2Proof.Machine.execBriterAck origin n digest s
  | .briterNack origin n reason => Sys2Proof.Machine.execBriterNack origin n reason s
  | .briterGo origin n => Sys2Proof.Machine.execBriterGo origin n s
  | .briterAbort origin n => Sys2Proof.Machine.execBriterAbort origin n s
  | .briterWake origin => Sys2Proof.Machine.execBriterWake origin s
  | .briterReg origin n write => Sys2Proof.Machine.execBriterReg origin n write s
  | .briterJoin origin serial st => Sys2Proof.Machine.execBriterJoin origin serial st s
  | .briterCrcFail frame => Sys2Proof.Machine.execBriterCrcFail frame s
  | .agreementAckTimeout => Sys2Proof.Machine.execAgreementAckTimeout s
  | .goMissed => Sys2Proof.Machine.execGoMissed s
  | .memberLost p => Sys2Proof.Machine.execMemberLost p s
  | .beatAlign ahead => Sys2Proof.Machine.execBeatAlign ahead s
  | .timeSlew => Sys2Proof.Machine.execTimeSlew s
  | .powerPropose => Sys2Proof.Machine.execPowerPropose s
  | .referenceReturn k => Sys2Proof.Machine.execReferenceReturn k s
  | .aonSupplyDip mv => Sys2Proof.Machine.execAonSupplyDip mv s
  | .ucieFlitCrcFail => Sys2Proof.Machine.execUcieFlitCrcFail s
  | .registerRead master bar off size => Sys2Proof.Machine.execRegisterRead master bar off size s
  | .keepResyncDone mirror => Sys2Proof.Machine.execKeepResyncDone mirror s
  | .blockStripeRecordWrite bs => Sys2Proof.Machine.execBlockStripeRecordWrite bs s
  | .tapInstruction ins => Sys2Proof.Machine.execTapInstruction ins s
  | .rangeActionPoint p page => Sys2Proof.Machine.execRangeActionPoint p page s

end Sys2Proof.Machine
end

