-- ==== Sys2Proof/Machine/Codes.lean ====
section
/-! DEFINITION. The bits of a line on media: its metadata, the line code, the page code, the counter block, encryption and
tag, and the root's functions, and the cells (R43 to R46, R121 to R123, R238, R285 to R294, R307, R355 to R358, R367). The state holds lines as
records (log 4); these functions say which 88 bytes a record stands for. -/
namespace Sys2Proof.Machine

/-! ### Line metadata (R122, R123) -/

/-- A flag at a bit of a word. -/
def bitIf (b : Bool) (i : Nat) : Nat := if b then 2 ^ i else 0

/-- The metadata word of a line (R122). -/
def lineMeta (r : LineRec) : BitVec 64 :=
  BitVec.ofNat 64 (r.stamp % 2 ^ 40 * 2 ^ 24 + identPart r.ident r.line * 2 ^ 14 + r.line % 64 * 2 ^ 8 + r.domain % 16 * 2 ^ 4 +
    bitIf r.poison 3 + bitIf r.mapdata 2 + bitIf r.bisque 1 + bitIf r.regime 0)

/-! ### The line code (R285 to R288) -/

/-- The generator g(x), of degree 60: bit i is the coefficient of x^i (R285). -/
def bchGen : Nat := 0x1B642BB95045C4AD

/-- The remainder after one more message bit, highest exponent first. -/
def bchStep (p : Nat) (b : Bool) : Nat :=
  let q := p * 2 % 2 ^ 60
  if p.testBit 59 != b then q ^^^ (bchGen % 2 ^ 60) else q

/-- m(x) mod g(x) for the 640 message bits (R286). -/
def bchRem (m : Nat) : Nat := (List.range 640).foldl (fun p j => bchStep p (m.testBit j)) 0

/-- Ones among the low `w` bits. -/
def weight (v w : Nat) : Nat := (List.range w).foldl (fun n i => n + if v.testBit i then 1 else 0) 0

/-- The raw code word of 80 bytes (R286). -/
def rawCode (m : Nat) : Nat :=
  let p := bchRem m
  p + (weight m 640 + weight p 60) % 2 * 2 ^ 60

/-- OFFSET: the raw code word of 80 bytes of ones, complemented (R287). -/
def codeOffset : Nat := rawCode (2 ^ 640 - 1) ^^^ (2 ^ 64 - 1)

/-- Bytes 80-87 of a line image (R287). -/
def lineCode (m : Nat) : BitVec 64 := BitVec.ofNat 64 (rawCode m ^^^ codeOffset)

/-- The whole image of 80 bytes and their code. -/
def withCode (m : Nat) : BitVec 704 := BitVec.ofNat 704 (m % 2 ^ 640 + (lineCode m).toNat * 2 ^ 640)

/-- Code bits in which a sensed image differs from the image of a message: the 640 message bits, the remainder and the
parity; bits [63:61] of the field are ignored (R286, R287). -/
def imageErrors (img : BitVec 704) (m : Nat) : Nat :=
  weight ((img.toNat ^^^ (withCode m).toNat) % 2 ^ 701) 701

/-- The decoding of R288: a message within 6 bit errors; every other image is a failure. -/
def lineDecodes (img : BitVec 704) (m : Nat) : Bool := decide (imageErrors img m ≤ 6)

/-! ### The page code (R290 to R292, R294) -/

/-- Multiplication by α = 0x02 over 0x11D (R290). -/
def xtime (a : Byte) : Byte := if a.getLsbD 7 then (a <<< 1) ^^^ 0x1D#8 else a <<< 1

/-- α^k. -/
def alpha : Nat → Byte
  | 0 => 1#8
  | k + 1 => xtime (alpha k)

/-- Product in GF(2^8). -/
def gfMul (a b : Byte) : Byte :=
  (List.range 8).foldl (fun r i => let r := xtime r; if b.getLsbD (7 - i) then r ^^^ a else r) 0#8

/-- Inverse: a^254. -/
def gfInv (a : Byte) : Byte :=
  ((List.range 7).foldl (fun (x : Byte × Byte) _ => (gfMul x.1 x.1, gfMul x.2 (gfMul x.1 x.1))) (a, 1#8)).2

/-- Byte of position `p` of a column. -/
def colAt (c : List Byte) (p : Nat) : Byte := c.getD p 0

/-- S0 and S1 of a column, positions in `skip` taken as 0 (R290, R294). -/
def syndromes (c : List Byte) (skip : List Nat) : Byte × Byte :=
  (List.range 18).foldl (fun s p =>
    if p ∈ skip then s else (s.1 ^^^ colAt c p, s.2 ^^^ gfMul (alpha p) (colAt c p))) (0#8, 0#8)

/-- c16 and c17 from the 16 data bytes (R291). -/
def parityOf (c : List Byte) : Byte × Byte :=
  let x := (List.range 16).foldl (fun s p => s ^^^ colAt c p) 0#8
  let y := (List.range 16).foldl (fun s p => s ^^^ gfMul (alpha p) (colAt c p)) 0#8
  let c17 := gfMul (y ^^^ gfMul (alpha 16) x) (gfInv (alpha 16 ^^^ alpha 17))
  (x ^^^ c17, c17)

/-- The parity of a column after data byte `d` has changed by `delta` (R291). -/
def parityStep (p : Byte × Byte) (d : Nat) (delta : Byte) : Byte × Byte :=
  let e := gfMul (gfMul (alpha d ^^^ alpha 16) delta) (gfInv (alpha 16 ^^^ alpha 17))
  (p.1 ^^^ delta ^^^ e, p.2 ^^^ e)

/-- The 18 bytes of a column from its data. -/
def fullColumn (c : List Byte) : List Byte := c.take 16 ++ [(parityOf c).1, (parityOf c).2]

/-- A column with positions `i` and `j` erased (R294 step 2). -/
def solveTwo (i j : Nat) (c : List Byte) : List Byte :=
  let s := syndromes c [i, j]
  let cj := gfMul (s.2 ^^^ gfMul (alpha i) s.1) (gfInv (alpha i ^^^ alpha j))
  (c.set i (s.1 ^^^ cj)).set j cj

/-- The position that explains a column's syndromes (R294 step 6). -/
def locateError (s : Byte × Byte) : Option Nat :=
  if s.1 = 0#8 then none else (List.range 18).find? fun p => decide (alpha p = gfMul s.2 (gfInv s.1))

/-- Decode the columns of a group with its erasures; `dataTags` says that every data line of the group passes its tag
(R294). The tag of a corrected data position is checked by the caller. -/
def decodeGroup (cols : List (List Byte)) (erased : List Nat) (dataTags : Bool) : Option (List (List Byte)) :=
  match erased with
  | [] =>
    let bad := cols.filter fun c => decide (syndromes c [] ≠ (0#8, 0#8))
    if bad.isEmpty then some cols
    else if dataTags then some (cols.map fullColumn)
    else match (bad.map fun c => locateError (syndromes c [])).dedup with
      | [some p] => some (cols.map fun c => c.set p (colAt c p ^^^ (syndromes c []).1))
      | _ => none
  | [i] =>
    let out := cols.map fun c => c.set i (syndromes c [i]).1
    if out.all fun c => decide ((syndromes c []).2 = 0#8) then some out else none
  | [i, j] => some (cols.map (solveTwo i j))
  | _ => none

/-! ### Counter block, encryption and tag (R355 to R358) -/

/-- CB (R355). SPACE: 0 host line, 1 map line, 2 level-A line, 3 stamp-slot line. -/
def counterBlock (stamp domain space ident line block : Nat) : BitVec 128 :=
  BitVec.ofNat 128 (stamp % 2 ^ 64 * 2 ^ 64 + domain % 16 * 2 ^ 60 + space % 4 * 2 ^ 58 + ident % 2 ^ 40 * 2 ^ 18 +
    line % 64 * 2 ^ 12 + block % 8)

/-- 16 bytes as a block, first byte most significant. -/
def beBlock (l : List Byte) : BitVec 128 := BitVec.ofNat 128 (l.foldl (fun a b => a * 256 + b.toNat) 0)

/-- The bytes of a block, most significant first. -/
def blockBytes (b : BitVec 128) : List Byte := (List.range 16).map fun i => b.extractLsb' (8 * (15 - i)) 8

/-- The 64 bytes of a line, byte 0 first. -/
def lineBytes (d : LineData) : List Byte := leBytes 64 d.toNat

/-- AES-256 in counter mode over the four sub-blocks (R356). -/
def ctrLine (key : BitVec 256) (stamp domain space ident line : Nat) (d : LineData) : LineData :=
  let stream := (List.range 4).flatMap fun j => blockBytes (Config.aes256 key (counterBlock stamp domain space ident line j))
  d ^^^ BitVec.ofNat 512 (leNat stream)

/-- One bit of the product of GHASH: the sum so far and the multiple of the second factor. -/
def ghashStep (x : BitVec 128) (a : BitVec 128 × BitVec 128) (i : Nat) : BitVec 128 × BitVec 128 :=
  (if x.getLsbD (127 - i) then a.1 ^^^ a.2 else a.1,
   if a.2.getLsbD 0 then (a.2 >>> 1) ^^^ (0xE1#128 <<< 120) else a.2 >>> 1)

/-- GHASH over blocks (R357). -/
def ghash (h : BitVec 128) (blocks : List (BitVec 128)) : BitVec 128 :=
  blocks.foldl (fun y b => ((List.range 128).foldl (ghashStep (y ^^^ b)) (0#128, h)).1) 0#128

/-- Bytes in blocks of 16, the last one filled with zeros. -/
def toBlocks (l : List Byte) : List (BitVec 128) :=
  (List.range ((l.length + 15) / 16)).map fun i =>
    let b := (l.drop (16 * i)).take 16
    beBlock (b ++ List.replicate (16 - b.length) 0)

/-- The 8 tag bytes of a ciphertext, as image bytes 64-71 hold them (R357). -/
def lineTag (key : BitVec 256) (md : BitVec 64) (stamp domain space ident line : Nat) (c : LineData) : List Byte :=
  let cb0 := counterBlock stamp domain space ident line 0
  let ad := leBytes 8 md.toNat ++ (blockBytes cb0).drop 8
  let len : BitVec 128 := BitVec.ofNat 128 (128 * 2 ^ 64 + 512)
  let s := ghash (Config.aes256 key 0) (beBlock ad :: (toBlocks (lineBytes c) ++ [len]))
  (blockBytes (s ^^^ Config.aes256 key (counterBlock stamp domain space ident line 4))).take 8

/-- Bytes 0-79 of an image from ciphertext, tag and metadata (R121). -/
def imageBody (c : LineData) (tag : List Byte) (md : BitVec 64) : Nat :=
  c.toNat + leNat (tag.take 8) * 2 ^ 512 + md.toNat * 2 ^ 576

/-- The 88 bytes of an encrypted and tagged line (R121, R356, R357); a poison marker holds zero ciphertext (R307). -/
def lineImage (keyE keyA : BitVec 256) (space : Nat) (r : LineRec) : BitVec 704 :=
  let c := if r.poison then 0 else ctrLine keyE r.stamp r.domain space r.ident r.line r.data
  let md := lineMeta r
  withCode (imageBody c (lineTag keyA md r.stamp r.domain space r.ident r.line c) md)

/-- A void slot's line: MAPDATA and POISON, 64 bytes of ones as data, and no check by tag (R238, R358). -/
def voidImage (r : LineRec) : BitVec 704 :=
  withCode (imageBody (BitVec.allOnes 512) (List.replicate 8 0) (lineMeta { r with mapdata := true, poison := true }))

/-- The image of a host line under its domain's keys (R358). -/
def hostImage (r : LineRec) : BitVec 704 := lineImage (Config.keyE r.domain r.keyVer) (Config.keyA r.domain r.keyVer) 0 r

/-! ### Cells (R43 to R46) -/

/-- Cell of a word line, and bit position of its level code, of bit `j` of line image `k` in glaze slot `slot` (R43). -/
def glazeCell (slot k j : Nat) : Nat × Nat := (940 * slot + 235 * k + j / 3, j % 3)

/-- Cell of bit `j` of line image `k` in bisque (R44). -/
def bisqueCell (k j : Nat) : Nat := 704 * k + j

/-- The three bits of a glaze level (R45). -/
def levelBits (level : Nat) : BitVec 3 := BitVec.ofNat 3 (nth [7, 6, 4, 5, 1, 0, 2, 3] level)

/-- The level that three bits are written as. -/
def bitsLevel (b : BitVec 3) : Nat := nth [5, 4, 6, 7, 2, 3, 1, 0] b.toNat

/-- Levels of the 235 cells of a line image in glaze; the pad bit is written as 1 (R43, R45). -/
def glazeLevels (img : BitVec 704) : List Nat :=
  (List.range 235).map fun c => bitsLevel (((1#1 ++ img : BitVec 705).extractLsb' (3 * c) 3))

/-- What a line position reads after a destroy pulse: every cell at the top level (R45, R46, the destroy primitive). -/
def destroyedImage (bisque : Bool) : BitVec 704 :=
  if bisque then 0
  else BitVec.ofNat 704 ((List.range 704).foldl (fun n j => n + bitIf ((levelBits 7).getLsbD (j % 3)) j) 0)

/-- What a sense of a whole position returns when no bit errs: all ones where it is blank (R46), the line's image, or
the top level, or content that is not defined (R57, log 8). -/
def storedImage (s : State) (slot line : Nat) : BitVec 704 :=
  match mediaImg s slot line with
  | .blank => BitVec.allOnes 704
  | .line r => if r.mapdata && r.poison then voidImage r else hostImage r
  | .destroyed => destroyedImage (stripe s (slotBs slot)).bisque
  | .torn _ => Config.undefinedImage slot line

/-! ### Level C and the root (R367) -/

/-- C_b from the 4 KiB of a B node. -/
def nodeCode (gen b : Nat) (node : List Byte) : BitVec 64 :=
  let key := Config.keyR gen
  let body := (List.range 8).map (fun i => BitVec.ofNat 8 (b / 256 ^ (7 - i))) ++ node
  let len : BitVec 128 := BitVec.ofNat 128 (64 * 2 ^ 64 + 32768)
  let mask := Config.aes256 key (BitVec.ofNat 128 (0x02 * 2 ^ 120 + b % 2 ^ 32))
  let head := body.take 8 ++ List.replicate 8 (0 : Byte)
  let t := ghash (Config.aes256 key 0) (beBlock head :: (toBlocks node ++ [len])) ^^^ mask
  t.extractLsb' 64 64

/-- F(b, C_b). -/
def rootPart (gen b : Nat) (c : BitVec 64) : BitVec 256 :=
  let q (i : Nat) : BitVec 128 := BitVec.ofNat 128 (0x03 * 2 ^ 120 + i * 2 ^ 112 + b % 2 ^ 32 * 2 ^ 64 + c.toNat)
  Config.aes256 (Config.keyR gen) (q 0) ++ Config.aes256 (Config.keyR gen) (q 1)

/-- The root over the level-C codes in order. -/
def rootOf (gen : Nat) (cs : List (BitVec 64)) : BitVec 256 :=
  (cs.zipIdx).foldl (fun r x => r ^^^ rootPart gen x.2 x.1) 0

/-- The root after one C_b has changed. -/
def rootStepOf (gen b : Nat) (old new : BitVec 64) (root : BitVec 256) : BitVec 256 :=
  root ^^^ rootPart gen b old ^^^ rootPart gen b new

end Sys2Proof.Machine
end

