-- ==== Sys2Proof/Machine/Layouts.lean ====
section
/-! DEFINITION. The words that the device stores, bit for bit: map entry and leaf line, block-stripe record, lag and
bisque-use bytes, tree node and stamp-slot lines, saggar places, breath records and their places, keep-store units and
headers, and the Briter frame (R39, R127, R131, R191, R224, R225, R264, R317, R365, R366, R374, R536 to R538, R574 to R576,
R618). -/
namespace Sys2Proof.Machine

/-! ### Map entry and leaf (R127, R128, R131, R228) -/

/-- STATE of a map entry (R128). -/
def PageState.code : PageState → Nat
  | .unmapped => 0 | .glaze => 1 | .split => 2 | .bisqueWhole => 3 | .poisonedWhole => 4 | .discardPending => 5

/-- The page state of a code; a reserved code is none (R128). -/
def pageStateOf : Nat → Option PageState
  | 0 => some .unmapped | 1 => some .glaze | 2 => some .split | 3 => some .bisqueWhole | 4 => some .poisonedWhole
  | 5 => some .discardPending | _ => none

/-- FLAGS of a map entry. -/
def entryFlags (e : MapEntry) : Nat :=
  bitIf e.poisonRest 0 + bitIf e.pin 1 + bitIf e.regime 2 + bitIf e.secure 3 + bitIf e.refresh 4

/-- The 32 bytes of a map entry (R127). -/
def MapEntry.word (e : MapEntry) : BitVec 256 :=
  BitVec.ofNat 256 (e.glazeHome % 2 ^ 40 + e.bisqueHome % 2 ^ 40 * 2 ^ 40 + e.stamp % 2 ^ 64 * 2 ^ 80 + e.mask.toNat * 2 ^ 144 +
    e.state.code * 2 ^ 208 + e.domain % 16 * 2 ^ 212 + entryFlags e * 2 ^ 216 +
    (e.heatCount % 2 ^ 12 + e.heatEpoch % 16 * 2 ^ 12) * 2 ^ 224 + e.tally % 2 ^ 8 * 2 ^ 240)

/-- The entry that 32 bytes spell; none when STATE is reserved (R128). -/
def entryOfWord (w : BitVec 256) : Option MapEntry :=
  let n (lo k : Nat) : Nat := w.toNat / 2 ^ lo % 2 ^ k
  (pageStateOf (n 208 4)).map fun st =>
    { state := st, mask := BitVec.ofNat 64 (n 144 64), stamp := n 80 64, bisqueHome := n 40 40, glazeHome := n 0 40
      domain := n 212 4, tally := n 240 8, heatEpoch := n 236 4, heatCount := n 224 12
      poisonRest := w.getLsbD 216, pin := w.getLsbD 217, regime := w.getLsbD 218, secure := w.getLsbD 219
      refresh := w.getLsbD 220 }

/-- The 64 data bytes of a leaf line (R131). -/
def LeafLine.data (l : LeafLine) : LineData := l.e1.word ++ l.e0.word

/-- The record of a replica's leaf line: a bisque line with MAPDATA, identity 2 × leaf + replica, and the leaf stamp
(R123, R132, R355). -/
def LeafLine.record (l : LeafLine) (leafLine replica : Nat) : LineRec :=
  { data := l.data, stamp := l.stamp, ident := 2 * (leafLine / 64) + replica, line := leafLine % 64, mapdata := true, bisque := true }

/-- The 88 bytes of a leaf line on media, under the system keys; blank when never written (R133, R346, R358). -/
def leafImage (s : State) (leafLine replica : Nat) : BitVec 704 :=
  match tget none s.mp.leaves (leafLine * 2 + replica) with
  | none => BitVec.allOnes 704
  | some l => lineImage (Config.keySE s.ig.sysGen) (Config.keySA s.ig.sysGen) 1 (l.record leafLine replica)

/-! ### The block-stripe table (R224 to R226, R264, R317) -/

/-- STATE of a block-stripe record (R225). -/
def BsState.code : BsState → Nat
  | .blank => 0 | .dirty => 1 | .blanking => 2 | .open => 3 | .full => 4 | .bisque => 5 | .victim => 6 | .released => 7
  | .system => 8 | .retired => 9

/-- The 12 bytes of a block-stripe record (R224). -/
def BsRec.word (b : BsRec) : BitVec 96 :=
  BitVec.ofNat 96 (bitIf b.degraded 0 + bitIf b.bisque 1 + b.state.code * 2 ^ 2 + b.wls % 2 ^ 17 * 2 ^ 6 +
    b.cycles % 2 ^ 15 * 2 ^ 23 + b.valid % 2 ^ 18 * 2 ^ 38 + b.fired % 2 ^ 40 * 2 ^ 56)

/-- SRAM offset of a record (R38, R224). -/
def recordAddr (bs : Nat) : Nat := 0x28000000 + 12 * bs

/-- The lag byte and its offset (R264). -/
def BsRec.lagByte (b : BsRec) : Byte := BitVec.ofNat 8 (bitIf b.unswept 6 + b.lag % 64)
def lagAddr (bs : Nat) : Nat := 0x2D900000 + bs

/-- The bisque-use byte and its offset (R317). -/
def BsRec.useByte (b : BsRec) : Byte := BitVec.ofNat 8 (b.buses % 128)
def useAddr (bs : Nat) : Nat := 0x2C880000 + bs

/-! ### Saggar and tree places (R39, R191, R365, R366, R374) -/

/-- Copy A and copy B of a saggar line in SRAM (R38, R39). -/
def saggarAddr (k : Nat) (copyB : Bool) : Nat := (if copyB then 0x24000000 else 0x20000000) + 64 * k

/-- LAST and RANK as the directory shows them (R191). -/
def SagLine.lastField (l : SagLine) : Nat := l.last % 65536
def SagLine.rankField (l : SagLine) : Nat := if l.norank then 63 else l.rank

/-- Line j of a level-A node: S_L of eight leaves (R365). -/
def nodeLine (s : State) (a j : Nat) : LineData :=
  BitVec.ofNat 512 (leNat ((List.range 8).flatMap fun i => leBytes 8 (tget 0 s.ig.leafStamps (512 * a + 8 * j + i))))

/-- SRAM offset of N_a and of C_b (R366). -/
def levelBAddr (a : Nat) : Nat := 0x2E000000 + 8 * a
def levelCAddr (b : Nat) : Nat := 0x35FC0000 + 8 * b

/-- Slot line q of a stamp slot (R374). -/
def slotLine (x : StampSlot) (q : Nat) : LineData :=
  BitVec.ofNat 512 (leNat ((List.range 8).flatMap fun i => leBytes 8 (nth x.stamps (8 * q + i))))

/-! ### Breath records (R536 to R538) -/

/-- The metadata word of a breath record (R537). -/
def breathMeta (bseq kind domain index : Nat) : BitVec 64 :=
  BitVec.ofNat 64 (bseq % 2 ^ 32 * 2 ^ 32 + kind % 16 * 2 ^ 28 + domain % 16 * 2 ^ 24 + index % 2 ^ 24)

/-- Stamp of a breath's records (R537). -/
def breathStamp (bseq : Nat) : Nat := 2 ^ 63 + bseq

/-- The two links that record INDEX i is written on (R538). -/
def recordLinks (l : List Nat) (i : Nat) : Nat × Nat :=
  let n := l.length
  let a := nth l (i % n)
  let at' (d : Nat) : Nat := nth l ((i + n / 2 + d) % n)
  let d := ((List.range n).find? fun d => at' d / 18 ≠ a / 18).getD 0
  (a, at' d)

/-- Die, word line and bisque line of position j (R538). -/
def positionPlace (j : Nat) : Nat × Nat × Nat := (j % 16, j / 16 / 4, j / 16 % 4)

/-- The seal's position (R538). -/
def sealPosition : Nat := 4194303

/-! ### The keep store's flash (R574 to R576) -/

/-- The j-th code position that is not a power of two, from 0 (R574). -/
def codePositions : List Nat := (List.range 137).filter fun p => p ∉ [0, 1, 2, 4, 8, 16, 32, 64, 128]

/-- The 16-bit code of a unit's 16 data bytes (R574). -/
def unitCode (d : BitVec 128) : BitVec 16 :=
  let check (k : Nat) : Bool :=
    (codePositions.zipIdx).foldl (fun c x => c != (x.1.testBit k && d.getLsbD x.2)) false
  let ones := ((List.range 128).filter fun j => d.getLsbD j).length + ((List.range 8).filter check).length
  BitVec.ofNat 16 (0xFE00 + bitIf (ones % 2 = 1) 8 + ((List.range 8).map fun k => bitIf (check k) k).sum)

/-- The 18 bytes of a unit. -/
def unitBytes (d : List Byte) : List Byte := d ++ leBytes 2 (unitCode (BitVec.ofNat 128 (leNat d))).toNat

/-- A ring sector's header unit (R575). -/
def sectorHeader (gen opens erases : Nat) : List Byte := leBytes 4 0x5045454B ++ leBytes 4 gen ++ leBytes 4 opens ++ leBytes 4 erases

/-- A record's header unit (R576). -/
def recordHeader (key seq : Nat) (carried : Bool) (payload : List Byte) : List Byte :=
  let h := leBytes 4 key ++ leBytes 4 seq ++ leBytes 2 payload.length ++ leBytes 2 (bitIf carried 0)
  h ++ leBytes 4 (crc32c (h ++ payload)).toNat

/-- The data of a record's payload units, the last one filled with 0xFF (R576). -/
def recordUnits (payload : List Byte) : List (List Byte) :=
  (List.range ((payload.length + 15) / 16)).map fun i =>
    let d := (payload.drop (16 * i)).take 16
    d ++ List.replicate (16 - d.length) 0xFF

/-- The bytes of a stored record: header unit, then payload units. -/
def recordBytes (key : Nat) (r : KeepRec) : List Byte :=
  unitBytes (recordHeader key r.seq r.carried r.payload) ++ ((recordUnits r.payload).map unitBytes).flatten

/-! ### The Briter frame (R618) -/

/-- TYPE of a frame (R618). -/
def BriterFrame.type : BriterFrame → Nat
  | .status _ => 0 | .prepare _ _ => 1 | .ack _ _ => 2 | .nack _ _ => 3 | .go _ => 4 | .abort _ => 5 | .wake => 6
  | .reg _ _ => 7 | .join _ _ => 8

/-- A frame's fields above its CRC; the places inside PAYLOAD are not given (log 5). -/
def briterHead (type origin hops payload : Nat) : BitVec 64 :=
  BitVec.ofNat 64 (type % 16 * 2 ^ 60 + origin % 4 * 2 ^ 58 + hops % 4 * 2 ^ 56 + payload % 2 ^ 48 * 2 ^ 8)

/-- A member forwards an intact frame with one more hop, and drops it after three (R618). -/
def forwardFrame (f : BitVec 64) : Option (BitVec 64) :=
  let hops := f.toNat / 2 ^ 56 % 4
  if 3 ≤ hops then none else some (f + BitVec.ofNat 64 (2 ^ 56))

end Sys2Proof.Machine
end

