-- ==== Sys2Proof/Safety.lean ====
section
/-! DEFINITION. The terms that claims use: the invariant of a safe run, what reporting an event may touch, and what a
reset leaves. -/
namespace Sys2Proof.Safety
open Sys2Proof.Machine

/-- The addressed part of SRAM is in canonical form: addresses rising, no entry equal to the reset content 0. -/
def SramWf (s : State) : Prop := Memory.wf s.pp.sram = true

/-- No open capture packet has reached the 8,190 records that close it (R604). -/
def PacketsOk (s : State) : Prop := ∀ x ∈ s.ev.queues, x.2.count < 8190

/-- The table of the mute zones is in canonical form: zone numbers rising, no entry equal to a zone at reset. -/
def ZonesWf (s : State) : Prop := Tab.wf {} s.th.zones = true

/-- The invariant of a safe run. -/
structure Inv (s : State) : Prop where
  sram : SramWf s
  packets : PacketsOk s
  zones : ZonesWf s

/-- The state with everything blanked that reporting an event may change: the recorder, the capture queues with their
banks in SRAM, the keep store's records, the vectors and CXL logs, and ALERT_N's interval. -/
def quiet (s : State) : State :=
  { s with
    ev := { s.ev with
      head := 0, ring := [], frozenCount := 0, gap := false, suppressed := 0, dropped := 0, crits := 0, critWait := []
      buckets := [], intake := [], inCycle := none, thisBeat := 0, queues := [] }
    kp := { s.kp with
      port := [], recs := [], seq := 0, head := 0, units := 0, opens := 0, erases := [], indexSeq := 0, opensSince := 0
      compacting := false, pendingAppends := [], crits := 0 }
    hl := { s.hl with msix := [], logs := [] }
    pp := { s.pp with sram := [], badBytes := [] }
    pwr := { s.pwr with alertUntil := none } }

/-- The banks of the capture queues in SRAM (R602). -/
def inBanks (a : Nat) : Prop := capBase 0 0 ≤ a ∧ a < capBase 8 0

/-- `t` is `s` but for reports of events: every other field is the same, the invariant still holds, and every byte of
SRAM outside the capture banks reads as before. -/
def ReportsOnly (s t : State) : Prop :=
  quiet t = quiet s ∧ (Inv s → Inv t ∧ ∀ a, ¬ inBanks a → readByte t a = readByte s a)

/-- The other half of `quiet`: what reporting an event may change, and nothing else. -/
def loud (s : State) : State :=
  { ev := { head := s.ev.head, ring := s.ev.ring, frozenCount := s.ev.frozenCount, gap := s.ev.gap
            suppressed := s.ev.suppressed, dropped := s.ev.dropped, crits := s.ev.crits, critWait := s.ev.critWait
            buckets := s.ev.buckets, intake := s.ev.intake, inCycle := s.ev.inCycle, thisBeat := s.ev.thisBeat
            queues := s.ev.queues }
    kp := { port := s.kp.port, recs := s.kp.recs, seq := s.kp.seq, head := s.kp.head, units := s.kp.units, opens := s.kp.opens
            erases := s.kp.erases, indexSeq := s.kp.indexSeq, opensSince := s.kp.opensSince
            compacting := s.kp.compacting, pendingAppends := s.kp.pendingAppends, crits := s.kp.crits }
    hl := { msix := s.hl.msix, logs := s.hl.logs }
    pp := { sram := s.pp.sram, badBytes := s.pp.badBytes }
    pwr := { alertUntil := s.pwr.alertUntil } }

/-- The CXL mailbox takes any command: startup has ended in full, the mailbox is ready, a core holds role 0, and no command holds
its doorbell (R34, R408, R643). -/
def mailboxFree (s : State) : Prop :=
  (roleCore s 0).isSome = true ∧ hostOpen s = true ∧ s.hl.mboxReady = true ∧ s.hl.doorbell = false ∧ s.pwr.limited = false ∧ s.pwr.step = 12

/-- The parts of the state that a frame names: its top-level groups, each without what reporting an event may change, and
those reports together. -/
inductive StatePart
  | clk | pwr | mp | sag | hq | pl | dr | ecc | wr | ig | ln | hl | pp | th | kp | ev | cn | live | shadow | freeCtr | reports
  deriving DecidableEq, Repr

/-- The part holds the same in both states. -/
def StatePart.same (p : StatePart) (s t : State) : Prop :=
  match p with
  | .clk => t.clk = s.clk
  | .pwr => (quiet t).pwr = (quiet s).pwr
  | .mp => t.mp = s.mp
  | .sag => t.sag = s.sag
  | .hq => t.hq = s.hq
  | .pl => t.pl = s.pl
  | .dr => t.dr = s.dr
  | .ecc => t.ecc = s.ecc
  | .wr => t.wr = s.wr
  | .ig => t.ig = s.ig
  | .ln => t.ln = s.ln
  | .hl => (quiet t).hl = (quiet s).hl
  | .pp => (quiet t).pp = (quiet s).pp
  | .th => t.th = s.th
  | .kp => (quiet t).kp = (quiet s).kp
  | .ev => (quiet t).ev = (quiet s).ev
  | .cn => t.cn = s.cn
  | .live => t.live = s.live
  | .shadow => t.shadow = s.shadow
  | .freeCtr => t.freeCtr = s.freeCtr
  | .reports => loud t = loud s

/-- What a reset that takes effect leaves (R22, R57, R489, R494, R630): the backup domain, the keep store and the media, of which
only what was being programmed or blanked may have become undefined, and everything else at its reset column. -/
structure AfterReset (s t : State) : Prop where
  queue : t.pending = s.pending
  inReset : t.pwr.inReset = true
  beat : t.clk.beat = 0 ∧ t.clk.inSecond = 0
  calendar : t.clk.seconds = s.clk.seconds ∧ t.clk.subsec = s.clk.subsec ∧ t.clk.trim = s.clk.trim ∧ t.clk.cont = s.clk.cont ∧
    t.clk.offset = s.clk.offset ∧ t.clk.tvalid = s.clk.tvalid ∧ t.clk.root = s.clk.root ∧ t.clk.rootGood = s.clk.rootGood ∧
    t.clk.wakeLatch = s.clk.wakeLatch
  media : (∀ slot line, mediaImg t slot line = mediaImg s slot line ∨ ∃ l, mediaImg t slot line = .torn l) ∧
    (s.sag.drains = [] → (∀ x ∈ s.pl.ranks, x.2.firings = []) → (∀ x ∈ s.pl.stripes, x.2.state ≠ .blanking) →
      t.mp.media = s.mp.media) ∧
    t.mp.leaves = s.mp.leaves ∧ t.pl.copy = s.pl.copy ∧ t.ig.mediaSlots = s.ig.mediaSlots
  keep : t.kp = { s.kp with pendingAppends := [], fails := 0, locked := false }
  registers : t.live = [] ∧ t.shadow = []
  commands : t.pp = {}
  saggar : t.sag = {} ∧ t.hq = {}
  rest : t.th = {} ∧ t.ev = {} ∧ t.ecc = {}
  hostLink : t.hl.state = .down ∧ t.hl.memEnable = false ∧ t.hl.hdm = [] ∧ t.hl.msix = []
  mapCache : t.mp.cache = [] ∧ t.mp.fills = [] ∧ t.mp.writeBacks = []

/-- The parts of the state that a command may change; every other part is in its frame. -/
def touches (c : Instr) : List StatePart :=
  match c with
  | .memSpecRd .. => []
  | .oscillatorStop .. | .crystalResume .. | .calendarTick | .trimApply | .beatAlign .. | .referenceReturn ..
    => [.clk]
  | .briterStatusSend | .briterCrcFail .. => [.cn]
  | .driftTick | .driftStateSave | .coneCapture .. => [.dr]
  | .scrubPassStart .. => [.ecc]
  | .bandwidthWindow .. => [.ev]
  | .linkTrainRetry .. | .gpfPhase1 | .gpfPhase2 | .hdmDecoderCommit .. | .doeCdat .. | .spdmRequest ..
  | .ucieFlitCrcFail => [.hl]
  | .memRd .. | .memInv .. | .memWr .. | .memWrPtl .. => [.hq]
  | .treeNodeWrite .. | .stampSlotWriteBack .. | .ideKmKeyProg .. | .ideKmKSetGo .. | .ideKmKSetStop .. => [.ig]
  | .keepResyncDone .. => [.kp]
  | .workUnitSubmit .. => [.ln, .ev]
  | .gapMove .. => [.mp]
  | .heatEpochAdvance | .reclaimStart .. | .levellingCheck .. | .blockStripeRecordWrite .. => [.pl]
  | .pbndEntryWrite .. | .backgroundCommandStart .. | .timeGet .. | .unknownOpcode .. => [.pp]
  | .resetNRelease | .pwrfailNAssert | .pwrfailNDeassert | .ondieThermtrip .. | .offEntry | .idleEntry
  | .aonSupplyDip .. => [.pwr]
  | .msixUnmask .. | .captureFlush .. | .tempHistorySave | .eventRaise .. | .tokenRefill .. | .packetCloseTimeout ..
  | .packetOpen .. | .alertNExpire => [.reports]
  | .briterStatus .. => [.clk, .cn]
  | .backupSupplyLow .. => [.clk, .freeCtr]
  | .referenceFailure .. | .crystalStop => [.clk, .reports]
  | .scrubOverrun .. => [.ecc, .reports]
  | .freezeTimeout | .counterSnapshot => [.ev, .reports]
  | .pipeBellRead .. => [.hl, .pp, .ev]
  | .cxlGetEventRecords .. | .cxlClearEventRecords .. | .cxlGetEventInterruptPolicy | .cxlSetEventInterruptPolicy ..
  | .cxlGetFwInfo | .cxlGetTimestamp | .cxlGetSupportedLogs | .cxlGetLog .. | .cxlIdentifyMemoryDevice
  | .cxlGetHealthInfo | .cxlGetAlertConfig | .cxlSetAlertConfig .. | .cxlGetShutdownState | .cxlSetShutdownState ..
  | .cxlGetPoisonList .. | .cxlGetScanMediaResults | .cxlMailboxUnsupported .. => [.hl, .reports]
  | .cxlMemUnsupported .. | .ucieRetrainDone => [.hq, .hl]
  | .sampleSet .. => [.hq, .pp]
  | .secureErase .. | .sanitize .. => [.ig, .pp]
  | .stampCeilDurable => [.ig, .reports]
  | .online .. | .linkDetectPoll .. => [.ln, .pp]
  | .mapCleaningVisit .. => [.mp, .ig]
  | .budgetAdjust .. | .fireQueueWalk .. => [.mp, .pl]
  | .gapMoveVerified .. | .migrationRecordDurable .. => [.mp, .reports]
  | .guardPassComplete .. => [.pl, .dr]
  | .briterGo .. => [.pp, .cn]
  | .counterProgram .. | .dumpSet .. => [.pp, .ev]
  | .pipeBellRing .. | .heldCompletionRing .. | .pbndLockSet | .identify .. | .getLog .. | .keepRead .. | .keyInfo ..
  | .captureSources .. | .captureMark .. | .captureRewind .. | .captureRelease .. | .eventRate .. | .spareStatus ..
    => [.pp, .reports]
  | .configDiscard .. => [.pp, .shadow]
  | .throttle .. => [.pp, .th]
  | .sleepEntry => [.pwr, .hl]
  | .powerEnter .. => [.pwr, .pp]
  | .sramChannelCopyDone .. => [.sag, .ecc]
  | .fillRetry .. => [.sag, .ln]
  | .writeDiscardHoldEnd .. => [.sag, .reports]
  | .timeSlew => [.clk, .cn, .reports]
  | .timeSet .. => [.clk, .pp, .cn]
  | .keepWrite .. => [.clk, .pp, .reports]
  | .coneMasks .. => [.dr, .ln, .reports]
  | .cxlScanMedia .. => [.ecc, .hl, .reports]
  | .sramRowRepair .. => [.ecc, .wr, .reports]
  | .cxlGetScanMediaCaps .. => [.hl, .freeCtr, .reports]
  | .dataResponse .. => [.hq, .ev, .reports]
  | .ideIntegrityFailure .. | .cxlSanitize | .cxlSecureErase => [.ig, .hl, .reports]
  | .keyStage .. | .keyWindowClose .. => [.ig, .pp, .reports]
  | .acceptFreshness .. => [.mp, .ig, .pp]
  | .bImageWrite .. => [.mp, .pl, .ig]
  | .mapStripeSwap .. => [.mp, .pl, .reports]
  | .leafConvertDone .. => [.mp, .pp, .reports]
  | .restamp .. | .refresh .. => [.mp, .sag, .pl]
  | .blankingStart .. => [.pl, .wr, .reports]
  | .briterReg .. => [.pp, .cn, .reports]
  | .eventFreeze .. | .eventThaw .. => [.pp, .ev, .reports]
  | .keepProtect .. | .keepCompaction => [.pp, .kp, .reports]
  | .pipeMouthWrite .. => [.pwr, .hl, .pp, .ev]
  | .configCommit .. | .regionDefine .. | .regionInvalidate .. | .regionSplit .. | .regionMerge .. | .budget ..
  | .powerPolicy .. | .consortLeave .. | .briterPrepare .. | .briterAck .. | .briterNack .. | .briterAbort ..
  | .agreementAckTimeout | .goMissed | .powerPropose => [.pwr, .pp, .cn]
  | .keepAppend .. | .keepPartFail .. => [.wr, .kp, .reports]
  | .coreFailoverDone .. => [.wr, .pp, .freeCtr]
  | .coreHeartbeatTimeout .. => [.wr, .pp, .reports]
  | .cxlSetTimestamp .. => [.clk, .hl, .cn, .reports]
  | .nodeWriteVerified .. => [.clk, .mp, .pl, .ig]
  | .trainingTimeout .. | .packageInventoryDone .. => [.dr, .ln, .pp, .reports]
  | .memEnableSet => [.ig, .hl, .pp, .reports]
  | .keyGenerate .. | .keyInstall .. => [.mp, .ig, .pp, .reports]
  | .bisqueRelocation .. => [.mp, .pl, .wr, .ig]
  | .blankingComplete .. => [.mp, .pl, .dr, .wr, .ig, .reports]
  | .capacitySet .. => [.mp, .wr, .pp, .reports]
  | .memberLost .. => [.pwr, .pp, .cn, .reports]
  | .cxlInjectPoison .. => [.sag, .ecc, .hl, .reports]
  | .consortJoin .. => [.clk, .pp, .cn, .freeCtr, .reports]
  | .frameStart .. => [.hq, .dr, .ecc, .ln, .ev]
  | .hostReset .. | .linkDown => [.hq, .ig, .hl, .pp, .reports]
  | .stripeSweep .. => [.hq, .pl, .dr, .ln, .reports]
  | .victimRelease .. => [.mp, .pl, .wr, .ig, .reports]
  | .leafConvertStart .. | .leafSwitchBeat .. => [.mp, .sag, .pl, .ecc, .ig]
  | .breathSeal .. => [.pwr, .hl, .th, .freeCtr, .reports]
  | .briterJoin .. => [.clk, .pwr, .pp, .cn, .freeCtr, .reports]
  | .ucieRetrain .. => [.hq, .wr, .ig, .hl, .pp, .reports]
  | .budgetMigrationStripe .. => [.mp, .pl, .dr, .wr, .ig, .pp, .reports]
  | .fireWaitExpiry .. | .firingStart .. | .guardVerifyPass .. => [.mp, .sag, .pl, .ecc, .ig, .reports]
  | .housekeepingRound .. => [.pwr, .mp, .sag, .ln, .th, .reports]
  | .mouthpieceTake .. => [.pwr, .pp, .kp, .ev, .freeCtr, .reports]
  | .drainVerified .. => [.mp, .sag, .hq, .pl, .ecc, .wr, .ig]
  | .drainStart .. | .scrubVisit .. => [.mp, .sag, .pl, .ecc, .ig, .ev, .reports]
  | .packageAlertDetails .. | .rebuildStripeDone .. => [.mp, .sag, .pl, .wr, .ln, .freeCtr, .reports]
  | .lastBreathStart .. => [.pwr, .dr, .hl, .pp, .th, .cn, .reports]
  | .linkRemovable .. => [.sag, .hq, .dr, .ln, .pp, .th, .reports]
  | .commitLive => [.mp, .pl, .ecc, .pp, .cn, .live, .shadow, .reports]
  | .fillComplete .. => [.mp, .sag, .hq, .pl, .ecc, .ig, .ev, .reports]
  | .wordLineVerified .. | .reclaimMoveVerified .. => [.mp, .sag, .pl, .dr, .ecc, .wr, .ig, .ev]
  | .eraseComplete => [.pwr, .mp, .pl, .dr, .wr, .ig, .hl, .pp, .reports]
  | .cxlClearPoison .. => [.pwr, .mp, .sag, .hq, .ecc, .ln, .hl, .reports]
  | .secureSweep => [.pwr, .mp, .sag, .hq, .pl, .ecc, .wr, .ig]
  | .sramEccError .. => [.mp, .sag, .pl, .ecc, .wr, .ig, .pp, .ev, .reports]
  | .eraseStart .. => [.clk, .pwr, .mp, .sag, .hq, .pl, .ecc, .ig, .pp, .reports]
  | .sramChannelFail .. => [.pwr, .sag, .dr, .ecc, .wr, .hl, .pp, .th, .cn, .reports]
  | .lineDecodeDone .. => [.mp, .sag, .hq, .pl, .dr, .ecc, .ig, .ln, .ev, .freeCtr, .reports]
  | .eqEvaluation .. => [.mp, .sag, .hq, .pl, .dr, .ecc, .ln, .pp, .ev, .freeCtr, .reports]
  | .mapWriteBackVerified .. => [.mp, .sag, .hq, .pl, .dr, .ecc, .wr, .ig, .ln, .ev, .freeCtr]
  | .trainingStepDone .. => [.mp, .sag, .hq, .pl, .dr, .wr, .ln, .pp, .th, .freeCtr, .reports]
  | .lossOfSignal .. => [.mp, .sag, .hq, .pl, .dr, .ecc, .ln, .pp, .th, .ev, .freeCtr, .reports]
  | .discard .. | .discardSecure .. | .zero .. | .copy .. | .hintHot .. | .hintCold .. | .hintPin .. | .hintUnpin ..
  | .scan .. => [.pwr, .mp, .sag, .hq, .pl, .ecc, .ig, .ln, .pp, .ev, .freeCtr, .reports]
  | .upstreamFrame .. | .prepareRemove ..
    => [.mp, .sag, .hq, .pl, .dr, .ecc, .wr, .ln, .pp, .th, .ev, .freeCtr, .reports]
  | .rangeActionPoint .. => [.pwr, .mp, .sag, .hq, .pl, .ecc, .ig, .ln, .hl, .pp, .ev, .freeCtr, .reports]
  | .sleepWake .. | .briterWake ..
    => [.pwr, .mp, .sag, .hq, .pl, .dr, .ecc, .ln, .hl, .pp, .ev, .cn, .freeCtr, .reports]
  | .muteLevelLive => [.pwr, .mp, .sag, .hq, .pl, .dr, .ecc, .ln, .hl, .pp, .th, .ev, .freeCtr, .reports]
  | .wakeAssert .. => [.clk, .pwr, .mp, .sag, .hq, .pl, .dr, .ecc, .ln, .hl, .pp, .ev, .cn, .freeCtr, .reports]
  | .startupStepEnd ..
    => [.clk, .pwr, .mp, .sag, .pl, .dr, .ecc, .wr, .ig, .ln, .hl, .th, .kp, .cn, .freeCtr, .reports]
  | .deepSleepEntry
    => [.clk, .pwr, .mp, .sag, .hq, .pl, .dr, .ecc, .ig, .ln, .hl, .pp, .th, .ev, .cn, .freeCtr, .reports]
  | .semaTakeWrite .. | .evntRdselWrite .. | .monSelWrite .. | .hkepSenseBClear .. | .shadowWrite ..
  | .registerWrite ..
    => [.clk, .pwr, .mp, .sag, .hq, .pl, .dr, .ecc, .ln, .hl, .pp, .th, .ev, .cn, .shadow, .freeCtr, .reports]
  | .bclkHalfRead .. | .semaTakeRead .. | .registerRead ..
    => [.clk, .pwr, .mp, .sag, .hq, .pl, .dr, .ecc, .wr, .ig, .ln, .hl, .pp, .ev, .cn, .freeCtr, .reports]
  | .beatBoundary
    => [.clk, .pwr, .mp, .sag, .hq, .pl, .dr, .ecc, .ig, .ln, .hl, .pp, .th, .ev, .cn, .live, .shadow, .freeCtr,
      .reports]
  | .tapInstruction ..
    => [.clk, .pwr, .mp, .sag, .hq, .pl, .dr, .ecc, .wr, .ig, .ln, .hl, .pp, .th, .ev, .cn, .shadow, .freeCtr,
      .reports]
  | .deepSleepWake ..
    => [.clk, .pwr, .mp, .sag, .hq, .pl, .dr, .ecc, .wr, .ig, .ln, .hl, .pp, .th, .ev, .cn, .live, .shadow, .freeCtr,
      .reports]
  | .powerOn .. | .resetNAssert .. | .brownOut .. | .suppliesUpUnreset ..
    => [.clk, .pwr, .mp, .sag, .hq, .pl, .dr, .ecc, .wr, .ig, .ln, .hl, .pp, .th, .kp, .ev, .cn, .live, .shadow,
      .freeCtr, .reports]

/-- A command of a pipe is executed now: the device runs, it is the first of its pipe that an operation takes, it names no
DPA range, and its checks of R440 pass in this state. -/
structure Runs (s : State) (p : Nat) (which : Cmd → Bool) (c : Cmd) : Prop where
  awake : awake s = true
  next : nextCmd s p which = some c
  plain : c.ranges = []
  checks : cmdCheck s c = none

/-- A range command of a pipe that has started, with its pages still to act on and those that wait for a durable change. -/
structure Ranging (s : State) (p : Nat) (which : Cmd → Bool) (c : Cmd) : Prop where
  awake : awake s = true
  next : nextCmd s p which = some c
  range : c.ranges ≠ []

/-- Startup stands in a step, and nothing keeps that step from ending (R633, R638, R664). -/
structure StartsAt (s : State) (k : Nat) : Prop where
  supplies : s.pwr.supplies = true
  reset : s.pwr.inReset = false
  stopped : s.pwr.stopped = false
  halted : s.pwr.halted = false
  step : s.pwr.step = k

end Sys2Proof.Safety
end

