-- ==== Sys2Proof/Certificates/Slice0/Obligations.lean ====
section
/-! DEFINITION. The statements for the provers: what reset leaves, what every step keeps, what every command may change,
and for every command of the table the next state that its effect gives. -/
open Sys2Proof Sys2Proof.Machine Sys2Proof.Safety

/-- The frame of every command: when exec answers a next state, every part of the state that the table `touches` does not
list for the command holds exactly what it held before; the reports of events (the recorder, the capture banks, the
keep store's records, vectors, logs and ALERT_N) are a part of their own. The table is the model's reading of what the
rules let each command change. -/
def Obligations.FrameOfEveryCommand : Prop :=
  ∀ (c : Instr) (s t : State), exec c s = .next t → ∀ p : StatePart, p ∉ touches c → p.same s t

/-- A step takes the command at the front of the queue and answers what exec answers on the state with the queue's rest;
with an empty queue the block idles (the model's choice, log 1). -/
def Obligations.StepRunsFrontCommand : Prop :=
  (∀ (c : Instr) (s : State) (rest : List Instr), step { s with pending := c :: rest } = exec c { s with pending := rest }) ∧
  ∀ s : State, s.pending = [] → step s = .next s

/-- Every command, in every state, is executed: exec answers a next state, and it leaves the queue of waiting commands
alone (the queue is the model's own, log 1). -/
def Obligations.EveryCommandRuns : Prop :=
  ∀ (c : Instr) (s : State), ∃ t, exec c s = .next t ∧ t.pending = s.pending

/-- The invariant of a safe run is kept by every step from every state that has it: the byte table of the addressed SRAM
and the table of the mute zones stay in canonical form, and no open capture packet ever holds the 8,190 records that
close it (R604). -/
def Obligations.InvariantKeptByEveryStep : Prop :=
  ∀ s t : State, Inv s → step s = .next t → Inv t

/-- The invariant holds right after reset. Right after reset the beat counter is 0, SRAM lists no byte, the pipe binding
table is unlocked with pipe 0 bound with key 0 to group 0, vector 16 and pages 0 to 15 and every other pipe unbound,
the live and shadow copy of every configuration register hold its reset value, every MSI-X vector is masked, and
RESET_N is asserted with the supplies up (that the supplies are up is the model's choice, log 2). -/
def Obligations.ResetStateHolds : Prop :=
  (Inv State.reset) ∧
  (State.reset.clk.beat = 0 ∧ State.reset.pp.sram = [] ∧ State.reset.pp.lock = false ∧
    (pipe State.reset 0 = { valid := true, vector := 16, pages := 16, base := 0, group := 0, key := 0, en := false }) ∧
    (∀ p, p ≠ 0 → (pipe State.reset p).valid = false) ∧
    (∀ id, cfg State.reset id = cfgReset id ∧ cfgShadow State.reset id = cfgReset id) ∧
    (∀ v, (tget ({} : Msix) State.reset.hl.msix v).masked = true) ∧
    State.reset.pwr.inReset = true ∧ State.reset.pwr.supplies = true ∧ State.reset.pending = [])

/-- The words of map entries say all of an entry: an entry whose fields are within their widths is read back whole from
the 32 bytes that it is written as, so no bit of an entry is dropped; a word whose STATE is a reserved code spells
none. -/
def Obligations.MapEntriesRoundTrip : Prop :=
  (∀ e : MapEntry, e.glazeHome < 2 ^ 40 → e.bisqueHome < 2 ^ 40 → e.stamp < 2 ^ 64 → e.domain < 16 → e.tally < 256 →
    e.heatEpoch < 16 → e.heatCount < 4096 → entryOfWord e.word = some e) ∧
  (∀ w : BitVec 256, 6 ≤ w.toNat / 2 ^ 208 % 16 → entryOfWord w = none)

/-- Raising an event changes the recorder, the capture queues with their banks in SRAM, the keep store's records, the
MSI-X vectors, the CXL logs and ALERT_N's interval, and nothing else; it keeps the invariant (the sentence of the
frame is the model's reading of R594, R596, R601, R602 and R657). What raising does: with its bucket empty a record of
a class other than C is suppressed and counted in its bucket and in the device's total; a record that finds the
recorder idle is written to the ring at HEAD with its code, class and source; a frozen ring counts it instead; the
ring's size is 65,536; while a beat boundary runs the records are held in the order of R591. EVENT_RAISE in Run or
Idle is exactly that. -/
def Obligations.EventsReachTheRing : Prop :=
  (∀ (s : State) (code source p0 p1 p2 p3 : Nat), ReportsOnly s (raise s code source p0 p1 p2 p3)) ∧
  ((∀ (s : State) (code source p0 p1 p2 p3 : Nat), awake s = true →
      exec (.eventRaise code source p0 p1 p2 p3) s = .next (raise s code source p0 p1 p2 p3)) ∧
    (∀ (s : State) (code source p0 p1 p2 p3 cls : Nat), evClass code = some cls → cls ≠ 4 → code ≠ 0x32 →
      (bucket s code).tokens = 0 →
      (raise s code source p0 p1 p2 p3).ev.suppressed = satAdd 32 s.ev.suppressed 1 ∧
      (raise s code source p0 p1 p2 p3).ev.head = s.ev.head ∧ (raise s code source p0 p1 p2 p3).ev.ring = s.ev.ring) ∧
    (∀ (s : State) (code source p0 p1 p2 p3 cls : Nat), evClass code = some cls → (cls = 4 ∨ code = 0x32 ∨ 0 < (bucket s code).tokens) →
      s.ev.inCycle = none → s.ev.intake = [] → s.ev.thisBeat < 16 → s.ev.frozen = false →
      (raise s code source p0 p1 p2 p3).ev.head = s.ev.head + 1 ∧
      ∃ r : EvRec, (raise s code source p0 p1 p2 p3).ev.ring = tset none s.ev.ring (s.ev.head % 65536) (some r) ∧
        r.code = code ∧ r.cls = cls ∧ r.source = source % 256 ∧ r.p0 = p0 % 2 ^ 32 ∧ r.p1 = p1 % 2 ^ 32 ∧
        r.p2 = p2 % 2 ^ 32 ∧ r.p3 = p3 % 2 ^ 32) ∧
    (∀ (s : State) (code source p0 p1 p2 p3 cls : Nat), evClass code = some cls → (cls = 4 ∨ code = 0x32 ∨ 0 < (bucket s code).tokens) →
      s.ev.inCycle = none → s.ev.intake = [] → s.ev.thisBeat < 16 → s.ev.frozen = true →
      (raise s code source p0 p1 p2 p3).ev.head = s.ev.head ∧ (raise s code source p0 p1 p2 p3).ev.ring = s.ev.ring ∧
      (raise s code source p0 p1 p2 p3).ev.frozenCount = satAdd 32 s.ev.frozenCount 1) ∧
    (∀ (s : State) (code source p0 p1 p2 p3 cls : Nat) (l : List EvRec), evClass code = some cls →
      (cls = 4 ∨ code = 0x32 ∨ 0 < (bucket s code).tokens) → s.ev.inCycle = some l →
      ∃ r : EvRec, (raise s code source p0 p1 p2 p3).ev.inCycle = some (cycleOrder r l) ∧ r.code = code ∧ r.source = source % 256 ∧
        (raise s code source p0 p1 p2 p3).ev.head = s.ev.head ∧ (raise s code source p0 p1 p2 p3).ev.ring = s.ev.ring))

/-- The recorder's timers: a refill gives a bucket that has waited 2^24 div RATE beats one token up to BURST; a freeze
that has lasted 2^28 beats ends with an event-gap record that carries the count of missed records; ALERT_N's interval
ends at its beat; a due window latches a monitor's port counts and restarts them; at a dump boundary with snapshots
enabled the numbered snapshot is taken. Capture queues: a packet whose timeout has run closes with reason 1 and
CAPTURE_FLUSH closes one that holds a record with reason 2; closing moves PROD to the next packet boundary, empties
the packet and signals the queue's vector; the next packet opens when its bank is free. -/
def Obligations.RecorderTimersAndPackets : Prop :=
  ((∀ (s : State) (code cls : Nat), evClass code = some cls → cls ≠ 4 → code ≠ 0x32 → 0 < (bucket s code).rate →
      (bucket s code).last + 2 ^ 24 / (bucket s code).rate ≤ s.clk.beat →
      exec (.tokenRefill code) s = .next (updBucket s code fun b =>
        { b with last := b.last + 2 ^ 24 / b.rate, tokens := min b.burst (b.tokens + 1) })) ∧
    (∀ s : State, s.ev.frozen = true → s.ev.freezeAt + 2 ^ 28 ≤ s.clk.beat →
      ∃ t, exec .freezeTimeout s = .next t ∧ t.ev.frozen = false ∧ t.ev.head = s.ev.head + 1 ∧
        (∃ r : EvRec, t.ev.ring = tset none s.ev.ring (s.ev.head % 65536) (some r) ∧ r.code = 0xF0 ∧
          r.p0 = s.ev.frozenCount % 2 ^ 32 ∧ r.gap = true) ∧ t = { s with hl := t.hl, pp := t.pp, kp := t.kp, ev := t.ev }) ∧
    (∀ (s : State) (b : Nat), s.pwr.alertUntil = some b → b ≤ s.clk.beat →
      exec .alertNExpire s = .next { s with pwr := { s.pwr with alertUntil := none } }) ∧
    (∀ (s : State) (m : Fin 67), awake s = true → (mon s m.val).window ≠ 0 →
      (mon s m.val).windowAt + (mon s m.val).window ≤ s.clk.beat + 1 →
      exec (.bandwidthWindow m) s = .next (updMon s m.val fun x =>
        { x with bw := x.ports, ports := [0, 0, 0, 0], windowAt := s.clk.beat + 1 })) ∧
    (∀ s : State, awake s = true → s.ev.dumpOn = true → s.ev.dumpNext = none → (s.clk.beat + 1) % 2 ^ s.ev.dumpK = 0 →
      s.ev.lastDump ≠ some (s.clk.beat + 1) →
      ∃ t, exec .counterSnapshot s = .next t ∧ t.ev.dumps = s.ev.dumps + 1 ∧ t.ev.lastDump = some (s.clk.beat + 1) ∧
        t = { s with pp := { s.pp with sram := t.pp.sram, badBytes := t.pp.badBytes }
                     ev := { s.ev with dumps := t.ev.dumps, lastDump := t.ev.lastDump } })) ∧
  ((∀ (s : State) (q : Fin 8) (reason : Nat), (capQ s q.val).count ≠ 0 →
      ((capQ s q.val).timeout ≠ 0 → (capQ s q.val).first + 2 ^ (capQ s q.val).timeout ≤ s.clk.beat →
        exec (.packetCloseTimeout q) s = .next (packetClose s q.val 1)) ∧
      (awake s = true → exec (.captureFlush q) s = .next (packetClose s q.val 2)) ∧
      (capQ (packetClose s q.val reason) q.val).prod = 4096 * ((capQ s q.val).prod / 4096 + 1) ∧
      (capQ (packetClose s q.val reason) q.val).count = 0 ∧
      ReportsOnly s (packetClose s q.val reason)) ∧
    (∀ (s : State) (q : Fin 8), 4096 * ((capQ s q.val).prod / 4096 - 1) ≤ (capQ s q.val).rel →
      exec (.packetOpen q) s = .next (updCapQ s q.val fun c => { c with opened := true })))

/-- Telemetry commands: COUNTER_PROGRAM, DUMP_SET and SAMPLE_SET wait for their boundary; CAPTURE_CTRL sets a queue's
classes and timeout (closing its packet when bit 63 asks for it), its mark, rewinds to the mark or to REL, and
releases no further than PROD and the mark and never backwards; EVENT_CTRL freezes, thaws with the count of missed
records, and sets a code's rate with a full bucket. Each completes with SUCCESS and its results. -/
def Obligations.TelemetryCommands : Prop :=
  (∀ (s : State) (p : PipeNo) (c : Cmd), Runs s p.val (fun c => c.op = 0x0800) c →
    exec (.counterProgram p) s = .next (finishCmd (updMon s (c.fld 0x18 1) fun m => { m with
      next := m.next ++ [(c.fld 0x19 1, some (c.fld 0x1C 2, c.fld 0x1E 1), decide (c.fld 0x20 1 = 1))] }) c 0 0 0 0)) ∧
  (∀ (s : State) (p : PipeNo) (c : Cmd), Runs s p.val (fun c => c.op = 0x0801) c →
    exec (.dumpSet p) s = .next (finishCmd
      { s with ev := { s.ev with dumpNext := some (c.fld 0x18 1, c.fld 0x19 1 = 1) } } c 0 0 0 0)) ∧
  (∀ (s : State) (p : PipeNo) (c : Cmd), Runs s p.val (fun c => c.op = 0x0802) c →
    exec (.sampleSet p) s = .next (finishCmd
      { s with hq := { s.hq with sampleNext := some (c.fld 0x18 4, c.fld 0x1C 1, c.fld 0x1D 1) } } c 0 0 0 0)) ∧
  (∀ (s : State) (p : PipeNo) (c : Cmd), Runs s p.val (fun c => c.op = 0x0810 && c.fld 0x19 1 = 0) c → c.fld 0x20 8 < 2 ^ 63 →
    exec (.captureSources p) s = .next (finishCmd (updCapQ s (c.fld 0x18 1) fun x => { x with
      classes := BitVec.ofNat 5 (c.fld 0x20 8), timeout := c.fld 0x20 8 / 2 ^ 32 % 256 }) c 0 0 0 0)) ∧
  (∀ (s : State) (p : PipeNo) (c : Cmd), Runs s p.val (fun c => c.op = 0x0810 && c.fld 0x19 1 = 0) c → 2 ^ 63 ≤ c.fld 0x20 8 →
    exec (.captureSources p) s = .next (finishCmd (packetClose (updCapQ s (c.fld 0x18 1) fun x => { x with
      classes := BitVec.ofNat 5 (c.fld 0x20 8), timeout := c.fld 0x20 8 / 2 ^ 32 % 256 }) (c.fld 0x18 1) 2) c 0 0 0 0)) ∧
  (∀ (s : State) (p : PipeNo) (c : Cmd), Runs s p.val (fun c => c.op = 0x0810 && c.fld 0x19 1 = 1) c →
    exec (.captureMark p) s = .next (finishCmd (updCapQ s (c.fld 0x18 1) fun x => { x with
      mark := if c.fld 0x20 8 = 2 ^ 64 - 1 then none else some (c.fld 0x20 8) }) c 0 0 0 0)) ∧
  (∀ (s : State) (p : PipeNo) (c : Cmd) (to' : Nat), Runs s p.val (fun c => c.op = 0x0810 && c.fld 0x19 1 = 2) c →
    to' = (capQ s (c.fld 0x18 1)).mark.getD (capQ s (c.fld 0x18 1)).rel →
    exec (.captureRewind p) s = .next (finishCmd
      (if to' < (capQ s (c.fld 0x18 1)).prod then signalVector s (4 + c.fld 0x18 1) else s) c 0 0 (BitVec.ofNat 64 to') 0)) ∧
  (∀ (s : State) (p : PipeNo) (c : Cmd), Runs s p.val (fun c => c.op = 0x0810 && c.fld 0x19 1 = 3) c →
    (s.ev.queues.Pairwise fun a b => a.1 < b.1) →
    ∃ t, exec (.captureRelease p) s = .next t ∧ ∃ q : CapQ, capQ t (c.fld 0x18 1) = q ∧
      (capQ s (c.fld 0x18 1)).rel ≤ q.rel ∧ q = { capQ s (c.fld 0x18 1) with rel := q.rel } ∧
      (q.rel ≤ max (capQ s (c.fld 0x18 1)).rel (min (c.fld 0x20 8) (capProd (capQ s (c.fld 0x18 1))))) ∧
      ((capQ s (c.fld 0x18 1)).mark = none →
        q.rel = max (capQ s (c.fld 0x18 1)).rel (min (c.fld 0x20 8) (capProd (capQ s (c.fld 0x18 1))))) ∧
      (∀ m, (capQ s (c.fld 0x18 1)).mark = some m → q.rel ≤ max (capQ s (c.fld 0x18 1)).rel m)) ∧
  (∀ (s : State) (p : PipeNo) (c : Cmd), Runs s p.val (fun c => c.op = 0x0820 && c.fld 0x18 1 = 0) c → s.ev.frozen = false →
    exec (.eventFreeze p) s = .next (finishCmd
      { s with ev := { s.ev with frozen := true, frozenCount := 0, freezeAt := s.clk.beat } } c 0 0 0 0)) ∧
  (∀ (s : State) (p : PipeNo) (c : Cmd), Runs s p.val (fun c => c.op = 0x0820 && c.fld 0x18 1 = 0) c → s.ev.frozen = true →
    exec (.eventFreeze p) s = .next (finishCmd s c 0 0 0 0)) ∧
  (∀ (s : State) (p : PipeNo) (c : Cmd), Runs s p.val (fun c => c.op = 0x0820 && c.fld 0x18 1 = 1) c → s.ev.frozen = true →
    exec (.eventThaw p) s = .next (finishCmd
      { s with ev := { s.ev with frozen := false, frozenCount := 0, gap := true } } c 0 0 (BitVec.ofNat 64 s.ev.frozenCount) 0)) ∧
  (∀ (s : State) (p : PipeNo) (c : Cmd), Runs s p.val (fun c => c.op = 0x0820 && c.fld 0x18 1 = 2) c →
    exec (.eventRate p) s = .next (finishCmd (updBucket s (c.fld 0x1A 2) fun b => { b with
      rate := c.fld 0x1C 4, burst := c.fld 0x20 4, tokens := c.fld 0x20 4, last := s.clk.beat }) c 0 0 0 0))

/-- POWER_ON and an assertion of RESET_N of 10 us or longer reset the device: the beat counter, the registers, SRAM and
the pipes return to their reset columns while the backup domain, the keep store and the media stay; RESET_N stays
asserted until its rising edge starts step 1 of startup; an assertion shorter than 1 us changes nothing, and one
between 1 and 10 us either resets the device whole or changes nothing (which is a free value, log 8). A brown-out of
VDD_CORE, VDD_SRAM or VDD_AON acts as an assertion of RESET_N and starts no last breath; the rail's bit is recorded.
Supplies that come up with RESET_N released start the device from fuse load; out of range, whether that start then
stops, is limited or loses links is a free value (log 8). -/
def Obligations.ResetsOfTheDevice : Prop :=
  ((∀ (s : State) (pos : Fin 4) (halt : Bool), s.pwr.supplies = false →
      ∃ t, exec (.powerOn pos halt) s = .next t ∧ AfterReset s t ∧ t.pwr.supplies = true ∧ t.pwr.step = 0 ∧
        t.pwr.strapPos = pos.val ∧ t.pwr.strapHalt = halt ∧ t.pwr.brownOut = 0#3) ∧
    (∀ (s : State) (ns : Nat), s.pwr.supplies = true → 10000 ≤ ns →
      ∃ t, exec (.resetNAssert ns) s = .next t ∧ AfterReset s t ∧ t.pwr.supplies = true ∧ t.pwr.step = 0 ∧
        t.pwr.strapPos = s.pwr.strapPos) ∧
    (∀ (s : State) (ns : Nat), ns < 1000 → exec (.resetNAssert ns) s = .next s) ∧
    (∀ (s : State) (ns : Nat), s.pwr.supplies = true → 1000 ≤ ns → ns < 10000 →
      ∃ t, exec (.resetNAssert ns) s = .next t ∧ (t = { s with freeCtr := s.freeCtr + 1 } ∨ AfterReset s t)) ∧
    (∀ s : State, s.pwr.supplies = true → s.pwr.inReset = true →
      exec .resetNRelease s = .next { s with pwr := { s.pwr with inReset := false, step := 1 } })) ∧
  ((∀ (s : State) (rail : Fin 3), s.pwr.supplies = true →
      ∃ t, exec (.brownOut rail) s = .next t ∧ AfterReset s t ∧ t.pwr.supplies = true ∧ t.pwr.breath = none ∧
        t.pwr.brownOut = s.pwr.brownOut ||| (1#3 <<< rail.val)) ∧
    (∀ s : State, s.pwr.supplies = false →
      ∃ t u, exec (.suppliesUpUnreset true) s = .next t ∧ AfterReset s u ∧ u.pwr.supplies = true ∧
        t = { u with pwr := { u.pwr with inReset := false, step := 1 } }) ∧
    (∀ s : State, s.pwr.supplies = false →
      ∃ t u, exec (.suppliesUpUnreset false) s = .next t ∧ AfterReset s u ∧ u.pwr.supplies = true ∧
        t = { u with
          pwr := { u.pwr with inReset := false, step := 1, stopped := t.pwr.stopped, limited := t.pwr.limited }
          ln := { u.ln with links := t.ln.links }, freeCtr := u.freeCtr + 1 }))

/-- The calendar: a tick of the crystal adds one to SUBSEC, SECONDS advances modulo 2^40 when SUBSEC wraps at 32,768, a
negative trim holds SUBSEC for as many ticks, and at the 2^20-th tick TRIM is added to the count; while the fabric
gives the ticks the crystal's are not counted. Nothing else changes. The backup domain: below 1.8 V CONT clears and
the root is lost (what else it then holds is free, log 8); 2 ms without an edge while the beat counter stands clears
CONT; while the counter runs a stopped crystal sets XTAL_FAULT and SUBST and raises crystal-fault with CONT as it was,
and after 32,768 edges SUBST clears. References: when a locked reference fails, its fault bit is set and an event is
raised, and the fabric, where it ran on it, moves to the lowest-numbered good reference; a reference that returns is
present and locked again, and a fabric with a good reference keeps it. Only the references' fields change. -/
def Obligations.ClocksAndReferences : Prop :=
  ((∀ s : State, s.clk.subst = false → s.clk.holdTicks = 0 → s.clk.subsec < 32767 →
      exec .calendarTick s =
        .next { s with clk := { s.clk with trimTicks := s.clk.trimTicks + 1, subsec := s.clk.subsec + 1 } }) ∧
    (∀ s : State, s.clk.subst = false → s.clk.holdTicks = 0 → s.clk.subsec = 32767 →
      exec .calendarTick s =
        .next { s with clk := { s.clk with
          trimTicks := s.clk.trimTicks + 1, subsec := 0, seconds := (s.clk.seconds + 1) % 2 ^ 40, edge := true } }) ∧
    (∀ s : State, s.clk.subst = false → 0 < s.clk.holdTicks →
      exec .calendarTick s =
        .next { s with clk := { s.clk with trimTicks := s.clk.trimTicks + 1, holdTicks := s.clk.holdTicks - 1 } }) ∧
    (∀ s : State, s.clk.subst = true → exec .calendarTick s = .next s) ∧
    (∀ s : State, s.clk.trimTicks < 2 ^ 20 → exec .trimApply s = .next s) ∧
    (∀ s : State, 2 ^ 20 ≤ s.clk.trimTicks → s.clk.trim < 0 →
      exec .trimApply s =
        .next { s with clk := { s.clk with
          trimTicks := s.clk.trimTicks - 2 ^ 20, holdTicks := s.clk.holdTicks + (-s.clk.trim).toNat } }) ∧
    (∀ s : State, 2 ^ 20 ≤ s.clk.trimTicks → 0 ≤ s.clk.trim → s.clk.subsec < 32768 →
      ∃ t, exec .trimApply s = .next t ∧ t.clk.subsec < 32768 ∧
        ((t.clk.seconds * 32768 + t.clk.subsec) % 2 ^ 55 = (s.clk.seconds * 32768 + s.clk.subsec + s.clk.trim.toNat) % 2 ^ 55) ∧
        t = { s with clk := { s.clk with
          trimTicks := s.clk.trimTicks - 2 ^ 20, subsec := t.clk.subsec, seconds := t.clk.seconds, edge := t.clk.edge } })) ∧
  ((∀ (s : State) (mv : Nat), mv < 1800 →
      ∃ t, exec (.backupSupplyLow mv) s = .next t ∧ t.clk.cont = false ∧ t.clk.rootGood = false ∧
        t = { s with
          freeCtr := s.freeCtr + 2
          clk := { s.clk with
            cont := false, rootGood := false, seconds := t.clk.seconds, subsec := t.clk.subsec, wakeLatch := t.clk.wakeLatch
            tvalid := t.clk.tvalid, offset := t.clk.offset } }) ∧
    (∀ (s : State) (us : Nat), beatRuns s = false → 2000 ≤ us →
      exec (.oscillatorStop us) s = .next { s with clk := { s.clk with cont := false } }) ∧
    (∀ (s : State) (us : Nat), beatRuns s = true → exec (.oscillatorStop us) s = .next s) ∧
    (∀ s : State, beatRuns s = true → s.clk.subst = false →
      ∃ t, exec .crystalStop s = .next t ∧ t.clk.cont = s.clk.cont ∧ t.clk.xtalFault = true ∧ t.clk.subst = true ∧
        ReportsOnly { s with clk := { s.clk with xtalFault := true, subst := true, fabricAcc := 0 } } t) ∧
    (∀ (s : State) (edges : Nat), s.clk.subst = true → 32768 ≤ edges →
      exec (.crystalResume edges) s = .next { s with clk := { s.clk with subst := false, fabricAcc := 0 } })) ∧
  ((∀ (s : State) (k : Fin 4), clocked s = true → s.clk.refLock.getLsbD k.val = true →
      ∃ t, exec (.referenceFailure k) s = .next t ∧
        t.clk.refLock = s.clk.refLock &&& ~~~ (1#4 <<< k.val) ∧ t.clk.refFault = s.clk.refFault ||| (1#4 <<< k.val) ∧
        (s.clk.fabricRef ≠ k.val → t.clk.fabricRef = s.clk.fabricRef) ∧
        (s.clk.fabricRef = k.val → ∀ j, goodRef t.clk.refLock [0, 1, 2, 3] = some j → t.clk.fabricRef = j) ∧
        ReportsOnly { s with clk := { s.clk with
          refPresent := s.clk.refPresent &&& ~~~ (1#4 <<< k.val), refLock := t.clk.refLock, refFault := t.clk.refFault
          fabricRef := t.clk.fabricRef, phyRef := t.clk.phyRef, switchCount := t.clk.switchCount } } t) ∧
    (∀ (s : State) (k : Fin 4), clocked s = true →
      ∃ t, exec (.referenceReturn k) s = .next t ∧ t.clk.refLock = s.clk.refLock ||| (1#4 <<< k.val) ∧
        (s.clk.refLock.getLsbD s.clk.fabricRef = true → t.clk.fabricRef = s.clk.fabricRef) ∧
        t = { s with clk := { s.clk with
          refPresent := s.clk.refPresent ||| (1#4 <<< k.val), refLock := t.clk.refLock, fabricRef := t.clk.fabricRef
          phyRef := t.clk.phyRef, switchCount := t.clk.switchCount } }))

/-- Idle, Sleep, Off: each entry changes the power state (with Sleep the UCIe link goes to L1) when its conditions hold
and nothing else but the beat it began at; AON_SUPPLY_DIP below 776 mV in Deep sleep marks every bank as failed;
OFF_ENTRY cuts a breath that runs; a WAKE assertion of 100 us in Off is latched. A wake source in Sleep brings the
device to Run with the source recorded and the wake counted, and the UCIe link leaves L1; in Deep sleep the host link,
WAKE and a member's wake do the same after the beat counter has been advanced by the elapsed ticks times 15,625
divided by 32. -/
def Obligations.PowerStatesAreEnteredAndLeft : Prop :=
  ((∀ s : State, awake s = true → s.pwr.state = .run → s.pwr.step = 12 → s.pwr.entering = false → workRuns s = false →
      s.pwr.quietSince + idleTimer s ≤ s.clk.beat →
      exec .idleEntry s = .next { s with pwr := { s.pwr with state := .idle, idleSince := s.clk.beat } }) ∧
    (∀ s : State, awake s = true → s.pwr.entering = false → sleepFits s = true →
      agreedFor s 2 (sleepTimed s || askedFor s 2) = true →
      exec .sleepEntry s = .next { s with
        pwr := { s.pwr with state := .sleep, sleepSince := s.clk.beat }
        hl := { s.hl with state := if s.hl.state = .active then .lowPower else s.hl.state } }) ∧
    (∀ s : State, s.pwr.supplies = true → s.pwr.breath = none →
      exec .offEntry s = .next { s with pwr := { s.pwr with supplies := false, state := .off } }) ∧
    (∀ (s : State) (b : Breath), s.pwr.supplies = true → s.pwr.breath = some b →
      exec .offEntry s = .next { s with pwr := { s.pwr with
        supplies := false, state := .off, breath := none, cutLines := b.lines } }) ∧
    (∀ (s : State) (mv : Nat), s.pwr.state = .deepSleep → mv < 776 →
      exec (.aonSupplyDip mv) s = .next { s with pwr := { s.pwr with aonDip := true } }) ∧
    (∀ (s : State) (us : Nat), s.pwr.state = .off → 100 ≤ us →
      exec (.wakeAssert us) s = .next { s with clk := { s.clk with wakeLatch := true } })) ∧
  ((∀ (s : State) (src : WakeSource), s.pwr.supplies = true → s.pwr.inReset = false → s.pwr.state = .sleep →
      (src = .thermal → s.ev.wakePending.isSome = true) → (src = .pwrfail → s.pwr.pwrfail = true) →
      ∃ t, exec (.sleepWake src) s = .next t ∧ t.pwr.state = .run ∧ t.pwr.wakeSrc = WakeSource.code src ∧
        t.pwr.wakes = satAdd 32 s.pwr.wakes 1 ∧ t.clk = s.clk) ∧
    (∀ (s : State) (us : Nat), s.pwr.supplies = true → s.pwr.inReset = false → s.pwr.state = .sleep → 1 ≤ us →
      ∃ t, exec (.wakeAssert us) s = .next t ∧ t.pwr.state = .run ∧ t.pwr.wakeSrc = 2) ∧
    (∀ (s : State) (src : WakeSource) (bad : BitVec 8), s.pwr.supplies = true → s.pwr.inReset = false →
      s.pwr.state = .deepSleep → deepWakes s src = true →
      ∃ t, exec (.deepSleepWake src bad) s = .next t ∧ t.pwr.state = .run ∧ t.pwr.entering = false ∧
        t.clk.beat = s.clk.savedBeat + (s.clk.seconds * 32768 + s.clk.subsec - s.clk.savedTicks) * 15625 / 32))

/-- Entry to Deep sleep: in Sleep, when its conditions hold, the device returns to Run internally with the entry in
progress; when they no longer hold the entry is given up; once everything is written back and the empty breath's seal
of cause 3 stands, the images are kept and the power is gated: the beat and the calendar's ticks are saved, SRAM, the
map cache, the saggar and the firmware's state are lost, and the state is Deep sleep. BEAT_BOUNDARY: without a clock
nothing happens; in Run and Idle the beat advances by one and the responses of the last beat have left; in Sleep it
advances by one too, and a fallen PWRFAIL_N wakes the device with source 3, while without a wake source and without
new mute levels it stays asleep; in Deep sleep and Off it stands. -/
def Obligations.DeepSleepAndBeats : Prop :=
  ((∀ s : State, s.pwr.supplies = true → s.pwr.inReset = false → s.pwr.state = .sleep → deepFits s = true →
      agreedFor s 3 (deepTimed s || askedFor s 3) = true →
      ∃ t, exec .deepSleepEntry s = .next t ∧ t.pwr.state = .run ∧ t.pwr.entering = true) ∧
    (∀ s : State, s.pwr.supplies = true → s.pwr.inReset = false → s.pwr.state = .sleep →
      (deepFits s = false ∨ agreedFor s 3 (deepTimed s || askedFor s 3) = false) → exec .deepSleepEntry s = .next s) ∧
    (∀ s : State, s.pwr.supplies = true → s.pwr.inReset = false → s.pwr.state ≠ .sleep → s.pwr.entering = false →
      exec .deepSleepEntry s = .next s) ∧
    (∀ s : State, s.pwr.supplies = true → s.pwr.inReset = false → s.pwr.state ≠ .sleep → s.pwr.entering = true → deepFits s = false →
      exec .deepSleepEntry s = .next (abortEntry s)) ∧
    (∀ s : State, s.pwr.supplies = true → s.pwr.inReset = false → s.pwr.state ≠ .sleep → s.pwr.entering = true → deepFits s = true →
      writtenBack s = true → s.pwr.standing = true → s.pwr.cause = 3 →
      ∃ t, exec .deepSleepEntry s = .next t ∧ t.pwr.state = .deepSleep ∧ t.pwr.entering = false ∧ t.clk.savedBeat = s.clk.beat ∧
        t.clk.savedTicks = s.clk.seconds * 32768 + s.clk.subsec ∧ t.clk.seconds = s.clk.seconds ∧ t.pp.sram = [] ∧
        t.mp.cache = [] ∧ t.mp.media = s.mp.media ∧ t.sag.lines = [] ∧ t.live = s.live ∧ t.shadow = s.shadow)) ∧
  ((∀ s : State, clocked s = false → exec .beatBoundary s = .next s) ∧
    (∀ s : State, awake s = true → 2 ≤ s.pwr.step →
      ∃ t, exec .beatBoundary s = .next t ∧ t.clk.beat = s.clk.beat + 1 ∧ t.ev.runBeats = s.ev.runBeats + 1) ∧
    (∀ s : State, clocked s = true → s.pwr.state = .sleep → s.pwr.pwrfail = true →
      ∃ t, exec .beatBoundary s = .next t ∧ t.clk.beat = s.clk.beat + 1 ∧ t.pwr.state = .run ∧ t.pwr.wakeSrc = 3) ∧
    (∀ s : State, clocked s = true → s.pwr.state = .sleep → s.pwr.pwrfail = false → s.ev.wakePending = none →
      (s.th.sampled = none ∨ (s.clk.beat + 1) % 131072 ≠ 65536) →
      ∃ t, exec .beatBoundary s = .next t ∧ t.clk.beat = s.clk.beat + 1 ∧ t.pwr.state = .sleep) ∧
    (∀ s : State, (s.pwr.state = .deepSleep ∨ s.pwr.state = .off) → exec .beatBoundary s = .next s) ∧
    (∀ c : ClkSt, c.subst = false → c.fabricAcc < 15625 → beatClock c = { c with
      beat := c.beat + 1, edge := false, inSecond := if c.edge then 0 else min (c.inSecond + 1) 0xFFFFFF }))

/-- Startup: while the supplies are up, RESET_N released and the start neither stopped nor halted, the end of a step
performs that step's action and goes on to the next: a WAKE that was latched becomes WAKE_SRC; a channel that fails
takes its die's spare, and with none the media are disabled; with both keep-store parts failed, or fewer than four
ranks populated, the start is limited; a key window opens; CONSUMED is written; the root stands; the host link trains;
and the end of step 11 of a full start is step 12, with Media Ready. A limited start skips 5, 7, 8 and 9 and stays in
11; fuse load does not end without a present reference, and with BOOT_HALT it halts at its end; otherwise nothing
happens. -/
def Obligations.StartupSteps : Prop :=
  (∀ (s : State) (r : StepReport), StartsAt s 1 → s.clk.refPresent ≠ 0#4 → s.pwr.strapHalt = false →
    ∃ t, exec (.startupStepEnd r) s = .next t ∧ t.pwr.step = 2 ∧ t.clk.refLock = s.clk.refPresent ∧ t.cn.pos = s.pwr.strapPos ∧
      t = { s with pwr := t.pwr, clk := t.clk, cn := t.cn }) ∧
  (∀ (s : State) (r : StepReport), StartsAt s 1 → s.clk.refPresent ≠ 0#4 → s.pwr.strapHalt = true →
    ∃ t, exec (.startupStepEnd r) s = .next t ∧ t.pwr = { s.pwr with halted := true }) ∧
  (∀ (s : State) (r : StepReport), s.pwr.step = 1 → s.clk.refPresent = 0#4 → exec (.startupStepEnd r) s = .next s) ∧
  (∀ (s : State) (r : StepReport), StartsAt s 2 →
    ∃ t, exec (.startupStepEnd r) s = .next t ∧ t.pwr.step = 3 ∧ t.clk.wakeLatch = false ∧
      t.pwr.wakeSrc = if s.clk.wakeLatch then 6 else s.pwr.wakeSrc) ∧
  (∀ (s : State) (r : StepReport), StartsAt s 3 → r.badChannels = [] →
    exec (.startupStepEnd r) s = .next { s with pwr := { s.pwr with step := 4 } }) ∧
  (∀ (s : State) (r : StepReport) (c : Nat), StartsAt s 3 → r.badChannels = [c] → c < 128 →
    ∃ t, exec (.startupStepEnd r) s = .next t ∧
      if s.wr.chUsed.getLsbD (sramDie c) then t.pwr.step = 3 ∧ t.pwr.disabled = true ∧ t.pwr.stopped = true
      else t.pwr.step = 4 ∧ t.wr.chUsed = s.wr.chUsed ||| (1#8 <<< sramDie c) ∧ (sramCh t c).failed = true) ∧
  (∀ (s : State) (r : StepReport), StartsAt s 4 → s.pwr.limited = false →
    ∃ t, exec (.startupStepEnd r) s = .next t ∧
      if r.priSize = 0 ∧ r.mirSize = 0 then t.pwr.step = 6 ∧ t.pwr.limited = true
      else t.pwr.step = 5 ∧ t.pwr.limited = false ∧
        (r.priSize ≠ 0 → r.mirSize ≠ 0 → s.kp.formatted = false → t.pwr.firstStart = true)) ∧
  (∀ (s : State) (r : StepReport), StartsAt s 5 → s.pwr.limited = false →
    ∃ t, exec (.startupStepEnd r) s = .next t ∧ t.pwr.step = 6 ∧ t.ig.windows = s.ig.windows + 1 ∧ t.ig.keyWindow = true ∧
      (s.pwr.firstStart = true → t.ig.sysGen = 0 ∧ t.ig.stampCeil = 2 ^ 40)) ∧
  (∀ (s : State) (r : StepReport), StartsAt s 6 →
    ∃ t, exec (.startupStepEnd r) s = .next t ∧
      t.mp.pop = ((List.range 64).filter fun r => (rankLinks r).any fun n => hasPackage (link s n)) ∧
      t.ln.chartGen = s.ln.chartGen + 2 ∧
      if s.pwr.limited = true ∨ t.mp.pop.length < 4 then t.pwr.limited = true ∧ t.pwr.step = 10
      else t.pwr.limited = false ∧ t.pwr.step = 7) ∧
  (∀ (s : State) (r : StepReport), StartsAt s 7 → s.pwr.limited = false →
    ∃ t, exec (.startupStepEnd r) s = .next t ∧ t.pwr.step = 8 ∧ t.clk.cont = true) ∧
  (∀ (s : State) (r : StepReport), StartsAt s 8 → s.pwr.limited = false →
    ∃ t, exec (.startupStepEnd r) s = .next t ∧ t.pwr.step = 9 ∧ t.pwr.consumedWritten = true ∧
      t.pwr.cleanStart = breathClean s ∧
      t.pwr.consumed = if s.pwr.firstStart then 0 else if breathClean s then s.pwr.sealed else max s.pwr.sealed s.pwr.others) ∧
  (∀ (s : State) (r : StepReport), StartsAt s 9 → s.pwr.limited = false →
    ∃ t, exec (.startupStepEnd r) s = .next t ∧ t.pwr.step = 10 ∧ t.clk.rootGood = true ∧
      (s.pwr.firstStart = true → t.mp.capGib = 3145728 * s.mp.pop.length / 64)) ∧
  (∀ (s : State) (r : StepReport), StartsAt s 10 →
    ∃ t, exec (.startupStepEnd r) s = .next t ∧ t.pwr.step = 11 ∧ t.hl.modUp = r.modulesUp ∧ t.hl.mboxReady = true ∧
      t.hl.state = if r.modulesUp = 0 then .down else .active) ∧
  (∀ (s : State) (r : StepReport), StartsAt s 11 → s.pwr.limited = false →
    ∃ t, exec (.startupStepEnd r) s = .next t ∧ t.pwr.step = 12 ∧ t.pwr.quietSince = s.clk.beat) ∧
  (∀ (s : State) (r : StepReport), (s.pwr.supplies = false ∨ s.pwr.inReset = true ∨ s.pwr.stopped = true ∨ s.pwr.step = 0 ∨
      12 ≤ s.pwr.step ∨ s.pwr.halted = true ∨ (s.pwr.limited = true ∧ s.pwr.step = 11)) →
    exec (.startupStepEnd r) s = .next s) ∧
  (∀ k, k < 11 → nextStep false k = k + 1) ∧
  ([1, 2, 3, 4, 6, 10].map (nextStep true) = [2, 3, 4, 6, 10, 11])

/-- PWRFAIL_N and last breath: the pin's fall is noted, and stops a startup that has not yet written CONSUMED; its rise
clears it; a trigger that holds starts a breath of the saggar's lines over the links of LIST, or merges into the one
that runs, and ends at once with an event when LIST is empty; a pending commit is given up by PWRFAIL_N; the seal
takes the next BSEQ, its cause and its image of the lines. -/
def Obligations.LastBreathRuns : Prop :=
  (∀ s : State, s.pwr.supplies = true → s.pwr.step = 12 →
    exec .pwrfailNAssert s = .next { s with pwr := { s.pwr with pwrfail := true } }) ∧
  (∀ s : State, s.pwr.supplies = true → s.pwr.inReset = false → 1 ≤ s.pwr.step → s.pwr.step < 12 → s.pwr.consumedWritten = false →
    s.pwr.limited = false →
    exec .pwrfailNAssert s = .next { s with pwr := { s.pwr with pwrfail := true, stopped := true } }) ∧
  (∀ s : State, s.pwr.supplies = false → exec .pwrfailNAssert s = .next s) ∧
  (∀ s : State, exec .pwrfailNDeassert s = .next { s with pwr := { s.pwr with pwrfail := false, mediaIdle := false } }) ∧
  (∀ s : State, awake s = true → s.pwr.step = 12 → s.pwr.limited = false → s.pwr.pwrfail = true → s.pwr.mediaIdle = false →
    s.pwr.breath = none → breathList s ≠ [] →
    ∃ t b, exec (.lastBreathStart .pwrfail) s = .next t ∧ t.pwr.breath = some b ∧ b.lines = s.sag.lines.filterMap (·.2) ∧
      b.start = s.clk.beat ∧ b.trigger = 0 ∧ b.pwrfail = true ∧ t.pp.commit = none ∧ t.pwr.standing = false ∧
      t.dr.inFlight = [] ∧ t.sag = s.sag) ∧
  (∀ (s : State) (b : Breath), awake s = true → s.pwr.step = 12 → s.pwr.limited = false → s.hl.gpfWaiting = true →
    s.pwr.breath = some b → 1 ∉ b.merged →
    exec (.lastBreathStart .gpf) s = .next { s with pwr := { s.pwr with
      breath := some { b with merged := b.merged ++ [1] } } }) ∧
  (∀ (s : State) (x : BreathTrigger), triggered s x = false → exec (.lastBreathStart x) s = .next s) ∧
  (∀ s : State, awake s = true → s.pwr.step = 12 → s.pwr.limited = false → s.hl.gpfWaiting = true → s.pwr.breath = none →
    breathList s = [] →
    ∃ t, exec (.lastBreathStart .gpf) s = .next t ∧ t.pwr.breath = none ∧ t.hl.gpfDone = true ∧ t.hl.gpfWaiting = false) ∧
  (∀ (s : State) (b : Breath) (beats : Nat), awake s = true → s.pwr.breath = some b → b.trigger < 4 →
    ∃ t, exec (.breathSeal beats) s = .next t ∧ t.pwr.breath = none ∧ t.pwr.sealed = s.pwr.nextBseq ∧
      t.pwr.nextBseq = s.pwr.nextBseq + 1 ∧ t.pwr.cause = b.trigger ∧ t.pwr.standing = true ∧ t.pwr.image.lines = b.lines ∧
      t.pwr.beats = min beats 65535 ∧ t.ev.critWait = []) ∧
  (∀ (s : State) (beats : Nat), s.pwr.breath = none → exec (.breathSeal beats) s = .next s)

/-- The keep store: an append by the firmware of a known key with 1 to 3,584 bytes verified on the parts in service is
appended in the order taken; a part that has failed leaves service with its event; compaction goes over to the next
generation; a resynchronised part serves; TEMP_HISTORY_SAVE appends the temperature history under key 0x200. An append
takes the next SEQ, and its record counts for its key with the payload given. -/
def Obligations.KeepStoreAppends : Prop :=
  ((∀ (s : State) (key : Nat) (payload : List Byte), s.pwr.supplies = true → s.pwr.inReset = false →
      s.kp.formatted = true → keepKey key = true → payload ≠ [] → payload.length ≤ 3584 →
      exec (.keepAppend key payload true true) s = .next (keepPut s key payload)) ∧
    (∀ (s : State) (key : Nat) (payload : List Byte), keepUp s = true → s.kp.compacting = false →
      keepPut s key payload = { s with kp := { s.kp with port := [] }.append key payload }) ∧
    (∀ (s : State) (key : Nat) (payload : List Byte), keepUp s = false →
      keepPut s key payload = { s with kp := { s.kp with pendingAppends := s.kp.pendingAppends ++ [(key, payload)] } }) ∧
    (∀ s : State, s.kp.mir.holds = true →
      ∃ t, exec (.keepPartFail true) s = .next t ∧ t.kp.mir = .failed ∧ t.kp.pri = s.kp.pri ∧
        t = { s with pwr := { s.pwr with alertUntil := t.pwr.alertUntil }, wr := t.wr, hl := t.hl, pp := t.pp, kp := t.kp, ev := t.ev }) ∧
    (∀ s : State, s.kp.pri.holds = true →
      ∃ t, exec (.keepPartFail false) s = .next t ∧ t.kp.pri = .failed ∧ t.kp.mir = s.kp.mir ∧
        t = { s with pwr := { s.pwr with alertUntil := t.pwr.alertUntil }, wr := t.wr, hl := t.hl, pp := t.pp, kp := t.kp, ev := t.ev }) ∧
    (∀ s : State, s.kp.compacting = true → keepUp s = true → s.kp.pendingAppends = [] →
      { s.kp with port := [] }.packed.fresh ≠ [] →
      ∃ t, exec .keepCompaction s = .next t ∧ t.kp.gen = s.kp.gen + 1 ∧ t.kp.compacting = false ∧
        t = { s with kp := t.kp, pp := t.pp } ∧ t.pp = { s.pp with cmds := t.pp.cmds, comps := t.pp.comps }) ∧
    (∀ s : State, s.kp.mir = .resyncing →
      exec (.keepResyncDone true) s = .next { s with kp := { s.kp with mir := .serving, mirLeft := none } }) ∧
    (∀ s : State, s.kp.pri = .resyncing →
      exec (.keepResyncDone false) s = .next { s with kp := { s.kp with pri := .serving, priLeft := none } }) ∧
    (∀ s : State, awake s = true → exec .tempHistorySave s = .next (keepPut s 0x200 (tempHistory s)))) ∧
  (∀ (k : KeepSt) (key : Nat) (payload : List Byte),
      (k.append key payload).seq = k.seq + 1 ∧
      ∃ r : KeepRec, tget none (k.append key payload).recs key = some r ∧ r.payload = payload ∧ r.seq = k.seq + 1 ∧ r.carried = false)

/-- The keep store's commands of a pipe: KEEP_WRITE appends the buffer's data under its key, and RTC_TRIM (key 3) is in
force at once; KEEP_PROTECT sets the mode and the password and keeps both; TIME_SET sets the host's time. The host's
time that was set is the host's time that is read in the same state, whenever it fits 64 signed bits as the calendar's
distance does. -/
def Obligations.KeepAndTimeCommands : Prop :=
  ((∀ (s : State) (p : PipeNo) (c : Cmd), Runs s p.val (fun c => c.op = 0x0501) c → c.fld 0x18 4 ≠ 3 →
      (keepPut s (c.fld 0x18 4) (inputData s c (c.fld 0x1C 4))).kp.compacting = false →
      exec (.keepWrite p) s = .next (finishCmd (keepPut s (c.fld 0x18 4) (inputData s c (c.fld 0x1C 4))) c 0 0 0 0)) ∧
    (∀ (s : State) (p : PipeNo) (c : Cmd), Runs s p.val (fun c => c.op = 0x0501) c → c.fld 0x18 4 = 3 →
      ∃ t, exec (.keepWrite p) s = .next t ∧
        t.clk = { s.clk with trim := ((readBytes s (bufAddr s c) (c.fld 0x1C 4)).headD 0).toInt }) ∧
    (∀ (s : State) (p : PipeNo) (c : Cmd), Runs s p.val (fun c => c.op = 0x0502) c → c.fld 0x30 16 = 0 →
      exec (.keepProtect p) s = .next (finishCmd (keepPut
        { s with kp := { s.kp with mode := c.fld 0x18 1, pwSet := false, pwMac := 0 } } 7
        (leBytes 1 (c.fld 0x18 1) ++ leBytes 16 0)) c 0 0 0 0)) ∧
    (∀ (s : State) (p : PipeNo) (c : Cmd), Runs s p.val (fun c => c.op = 0x0502) c → c.fld 0x30 16 ≠ 0 →
      ∃ t, exec (.keepProtect p) s = .next t ∧ t.kp.mode = c.fld 0x18 1 ∧ t.kp.pwSet = true ∧
        t.kp.pwMac = Config.passwordMac (BitVec.ofNat 128 (c.fld 0x30 16))) ∧
    (∀ (s : State) (p : PipeNo) (c : Cmd), Runs s p.val (fun c => c.op = 0x0700) c →
      exec (.timeSet p) s = .next (finishCmd (setHostTime s (c.fld 0x18 8)) c 0 0 0 0)) ∧
    (∀ (s : State) (ts : Nat), s.cn.joined = false →
      setHostTime s ts = { s with clk := { s.clk with
        offset := wrap64 ((ts : Int) - ((s.clk.seconds : Int) * 10 ^ 9 + ((s.clk.subsec * 1953125 / 64 : Nat) : Int)))
        tvalid := true } })) ∧
  (∀ (s : State) (ts : Nat), s.cn.joined = false →
      -2 ^ 63 ≤ (ts : Int) - ((s.clk.seconds : Int) * 10 ^ 9 + ((s.clk.subsec * 1953125 / 64 : Nat) : Int)) →
      (ts : Int) - ((s.clk.seconds : Int) * 10 ^ 9 + ((s.clk.subsec * 1953125 / 64 : Nat) : Int)) < 2 ^ 63 →
      hostTime (setHostTime s ts) = ts)

/-- Integrity engine: a node due for its write is held (at most 64) until it verifies; a verified node is no longer held;
a dirty B image is written and clean; a dirty stamp slot is written to media and clean; a pending ceiling that the
keep store can hold is raised by 2^40 and kept under key 9. -/
def Obligations.TreeAndStampWrites : Prop :=
  (∀ (s : State) (n : Nat), awake s = true → n ∈ s.ig.nodesDue → n ∉ s.ig.heldNodes → s.ig.heldNodes.length < 64 →
    exec (.treeNodeWrite n) s = .next { s with ig := { s.ig with
      heldNodes := s.ig.heldNodes ++ [n], nodesDue := s.ig.nodesDue.filter (· ≠ n) } }) ∧
  (∀ (s : State) (n : Nat), n ∈ s.ig.heldNodes →
    ∃ t, exec (.nodeWriteVerified n) s = .next t ∧ t.ig.heldNodes = s.ig.heldNodes.filter (· ≠ n) ∧
      t.ig.rootVer = s.ig.rootVer + 1 ∧ t.clk.root = s.ig.rootVer + 1 ∧
      t.ig.levelB = tset 0 s.ig.levelB n (tget 0 s.ig.levelB n + 1) ∧ n / 512 ∈ t.ig.dirtyB ∧
      t = { s with clk := { s.clk with root := t.clk.root }, mp := t.mp, pl := t.pl, ig := t.ig }) ∧
  (∀ (s : State) (b : Nat), awake s = true → b ∈ s.ig.dirtyB →
    ∃ t, exec (.bImageWrite b) s = .next t ∧ t.ig = { s.ig with dirtyB := s.ig.dirtyB.filter (· ≠ b) } ∧
      t = { s with mp := t.mp, pl := t.pl, ig := t.ig }) ∧
  (∀ (s : State) (home : Nat) (x : StampSlot), awake s = true → stampSlot s home = some x → x.dirty = true →
    ∃ t, exec (.stampSlotWriteBack home) s = .next t ∧
      t.ig.mediaSlots = tset none s.ig.mediaSlots home (some x.stamps) ∧
      t.ig.slotTags = tset 0 s.ig.slotTags home (entryNow s x.page).stamp ∧ t = { s with ig := t.ig } ∧
      stampSlot t home = some { x with dirty := false }) ∧
  (∀ s : State, s.ig.ceilPending = true → keepUp s = true →
    exec .stampCeilDurable s = .next (keepPut
      { s with ig := { s.ig with stampCeil := s.ig.stampCeil + 2 ^ 40, ceilPending := false } } 9
      (leBytes 8 (s.ig.stampCeil + 2 ^ 40))))

/-- SRAM and cores: a corrected word counts at its channel and in the SRAM monitor and changes nothing else of the device;
a row due for repair takes a spare row; a channel that fails takes its die's spare channel and cuts POOL until the
copy ends; a core whose heartbeat stops is marked failed and its semaphores are free; a core that takes failed roles
runs them. Thermal: in Run, Idle and Sleep a housekeeping round is counted, samples its readings, makes the floors
that commands set the zones' floors, starts the peak readings of the links anew and leaves the live mute levels; the
boundary of a level makes the level computed from the sample live once (log 113); an on-die sensor at 125 degrees
asserts THERMTRIP_N. -/
def Obligations.SramCoresAndHeat : Prop :=
  ((∀ (s : State) (ch : Fin 128) (row : Nat) (p : SramPlace), awake s = true →
      ∃ t, exec (.sramEccError ch row false p) s = .next t ∧ (sramCh t ch.val).ce = satAdd 16 (sramCh s ch.val).ce 1 ∧
        t = { s with ecc := { s.ecc with sram := t.ecc.sram }, ev := { s.ev with mons := t.ev.mons } }) ∧
    (∀ (s : State) (ch : Fin 128) (row : Nat), row ∈ (sramCh s ch.val).due → (sramCh s ch.val).rowsUsed < 64 →
      (sramCh s ch.val).failed = false → s.wr.rowsUsed + 1 < 8192 →
      ∃ t, exec (.sramRowRepair ch row) s = .next t ∧ t.wr = { s.wr with rowsUsed := s.wr.rowsUsed + 1 } ∧
        t = { s with wr := t.wr, ecc := { s.ecc with sram := t.ecc.sram } }) ∧
    (∀ (s : State) (ch : Fin 128) (why : SramFault), awake s = true → channelFails s ch.val why = true →
      s.wr.chUsed.getLsbD (sramDie ch.val) = false → (sramCh s (16 * sramDie ch.val + 15)).failed = false →
      ∃ t, exec (.sramChannelFail ch why) s = .next t ∧ t.wr.chUsed = s.wr.chUsed ||| (1#8 <<< sramDie ch.val) ∧
        t.sag.poolCut = s.sag.poolCut + sagLinesOn (sramLogical ch.val) ∧ t.pwr.disabled = s.pwr.disabled) ∧
    (∀ (s : State) (ch : Fin 128) (why : SramFault), awake s = true → channelFails s ch.val why = true →
      s.wr.chUsed.getLsbD (sramDie ch.val) = true →
      ∃ t, exec (.sramChannelFail ch why) s = .next t ∧ t.pwr.disabled = true) ∧
    (∀ (s : State) (die : Fin 8), ∃ t, exec (.sramChannelCopyDone die) s = .next t ∧
        t = { s with sag := { s.sag with poolCut := t.sag.poolCut }, ecc := { s.ecc with sram := t.ecc.sram } } ∧
        t.sag.poolCut = s.sag.poolCut - (((List.range 16).filter fun k => (sramCh s (16 * die.val + k)).copying).map
          fun k => sagLinesOn (sramLogical (16 * die.val + k))).sum ∧
        (Tab.wf {} s.ecc.sram = true → ∀ k, k < 16 → (sramCh t (16 * die.val + k)).copying = false)) ∧
    (∀ (s : State) (c : CoreNo), awake s = true → coreLive s c.val = true →
      ∃ t, exec (.coreHeartbeatTimeout c) s = .next t ∧ t.wr.failed = s.wr.failed ||| (1#18 <<< c.val) ∧
        (∀ n, tget none t.pp.sema n ≠ some (BitVec.ofNat 8 (0x10 + c.val))) ∧
        t = { s with pwr := { s.pwr with alertUntil := t.pwr.alertUntil }, wr := t.wr, hl := t.hl, pp := t.pp, kp := t.kp, ev := t.ev }) ∧
    (∀ (s : State) (c : CoreNo), (s.wr.failing.filter fun x => x.2 = c.val) ≠ [] → coreLive s c.val = true →
      ∃ t, exec (.coreFailoverDone c) s = .next t ∧ t.wr = { s.wr with
          roles := s.wr.roles ++ s.wr.failing.filter fun x => x.2 = c.val
          failing := s.wr.failing.filter fun x => x.2 ≠ c.val
          failovers := satAdd 16 s.wr.failovers (s.wr.failing.filter fun x => x.2 = c.val).length } ∧
        t = { s with wr := t.wr, pp := { s.pp with cmds := t.pp.cmds }, freeCtr := t.freeCtr })) ∧
  ((∀ (s : State) (x : Readings), keepsHouse s = true →
      ∃ t, exec (.housekeepingRound x) s = .next t ∧ t.th.rounds = s.th.rounds + 1 ∧ t.th.sampled = some x ∧
        (∀ n, (link t n).peak = []) ∧
        (Inv s → ∀ z, z < 16 → (zone t z).level = (zone s z).level ∧ (zone t z).floor = (zone s z).floorNext) ∧
        t = { s with pwr := t.pwr, mp := t.mp, sag := t.sag, ln := t.ln, hl := t.hl, pp := t.pp, th := t.th, kp := t.kp, ev := t.ev }) ∧
    (∀ (s : State) (x : Readings), keepsHouse s = true → s.th.sampled = some x →
      ∃ t, exec .muteLevelLive s = .next t ∧ t.th.sampled = none ∧
        (Inv s → ∀ z, z < 16 → (zone t z).level = (zone (computeLevels s x) z).next)) ∧
    (∀ s : State, keepsHouse s = true → s.th.sampled = none → exec .muteLevelLive s = .next s) ∧
    (∀ (s : State) (sensor : Fin 16) (temp16 : Int), s.pwr.supplies = true → s.pwr.inReset = false → 2000 ≤ temp16 →
      exec (.ondieThermtrip sensor temp16) s = .next { s with pwr := { s.pwr with tripOnDie := true } }) ∧
    (∀ s : State, s.pwr.tripOnDie = true → thermtripN s = true))

/-- Host requests: with the CXL.mem channel open and a credit held, MEM_RD, MEM_WR and MEM_WR_PTL take one credit of their
kind and enter the admission queue in arrival order; MEM_INV completes with no data and no state change; MEM_SPEC_RD
has no response and no media access; an unsupported read type completes with poison and an unsupported write type
completes, and the RAS capability logs the error. While the channel is closed nothing happens. A read in flight: its
decode waits until its sense has been commanded; when the line that it senses passes its checks, against what the read
took at its lookup, with fewer corrected bits than the correction threshold, LINE_DECODE_DONE gives it and every read
that shares the sense the line's data, or poison for a marker, and the page's stamp slot, which only a tree-mode page
with a bisque home has, is then cached with the stamps it had; a read whose stamp-slot line still fails after its
escalation ends in poison; nothing else changes; DATA_RESPONSE of a read that is done sends its data or poison, ends
the read, and leaves every other read, the media, the saggar and the map as they were. -/
def Obligations.HostRequestsAndResponses : Prop :=
  ((∀ (s : State) (hpa : BitVec 64) (tag cycle : Nat), memOpen s = true → 0 < s.hq.rdCredits →
      exec (.memRd hpa tag cycle) s = .next { s with hq := { s.hq with
        rdCredits := s.hq.rdCredits - 1
        queue := s.hq.queue ++ [{ hpa := hpa, tag := tag % 65536, arrival := s.clk.beat * 64 + cycle % 64, kind := .read }] } }) ∧
    (∀ (s : State) (hpa : BitVec 64) (tag cycle : Nat) (be : BitVec 64) (data : LineData) (poison : Bool),
      memOpen s = true → 0 < s.hq.wrCredits →
      exec (.memWr hpa tag cycle be data poison) s = .next { s with hq := { s.hq with
        wrCredits := s.hq.wrCredits - 1
        queue := s.hq.queue ++ [{ hpa := hpa, tag := tag % 65536, arrival := s.clk.beat * 64 + cycle % 64
                                  kind := .write be data poison }] } } ∧
      exec (.memWrPtl hpa tag cycle be data poison) s = exec (.memWr hpa tag cycle be data poison) s) ∧
    (∀ (s : State) (hpa : BitVec 64) (tag : Nat), exec (.memSpecRd hpa tag) s = .next s) ∧
    (∀ (s : State) (tag : Nat), memOpen s = true →
      exec (.memInv tag) s = .next { s with hq := { s.hq with sent := s.hq.sent ++ [.cmp (tag % 65536)] } }) ∧
    (∀ (s : State) (isRead : Bool) (tag opcode : Nat), memOpen s = true →
      exec (.cxlMemUnsupported isRead tag opcode) s = .next { s with
        hl := { s.hl with rasUncorrectable := s.hl.rasUncorrectable ||| 1, rasHead := some (isRead, tag % 65536, opcode) }
        hq := { s.hq with sent := s.hq.sent ++ [if isRead then .memData (tag % 65536) 0 true else .cmp (tag % 65536)] } }) ∧
    (∀ (s : State) (hpa : BitVec 64) (tag cycle : Nat) (be : BitVec 64) (data : LineData) (poison : Bool), memOpen s = false →
      exec (.memRd hpa tag cycle) s = .next s ∧ exec (.memWr hpa tag cycle be data poison) s = .next s ∧
      exec (.memWrPtl hpa tag cycle be data poison) s = .next s ∧ exec (.memInv tag) s = .next s)) ∧
  ((∀ (s : State) (tag : Nat) (r : Rd) (slot : Nat) (b : Bool) (o : Sensed) (others : List (Nat × Sensed)) (x : LineRec) (n : Nat),
      s.hq.reads.find? (fun r => r.tag = tag) = some r → r.stage = .sense slot b → notSensed s r slot b = false →
      slotLost s r.taken r.tree others = false →
      checkLine s r.aim r.page r.line o = .good x n → n < corrBits s →
      ∃ t, exec (.lineDecodeDone (.read tag) o others) s = .next t ∧
        t.hq = { s.hq with reads := s.hq.reads.map fun y => if r.shares y then
          { y with stage := .done (if x.poison then 0 else x.data) x.poison } else y } ∧
        t = { s with hq := t.hq, mp := t.mp, ig := t.ig } ∧
        ((r.tree && needsSlot r.taken) = false → t.mp = s.mp ∧ t.ig = s.ig) ∧
        ((r.tree && needsSlot r.taken) = true → slotGood s r.taken = true →
          slotStamps t r.taken.bisqueHome = slotStamps s r.taken.bisqueHome ∧
          (stampSlot t r.taken.bisqueHome).isSome = true)) ∧
    (∀ (s : State) (tag : Nat) (r : Rd) (slot : Nat) (b : Bool) (o : Sensed) (others : List (Nat × Sensed)),
      s.hq.reads.find? (fun r => r.tag = tag) = some r → r.stage = .sense slot b → notSensed s r slot b = true →
      exec (.lineDecodeDone (.read tag) o others) s = .next s) ∧
    (∀ (s : State) (tag : Nat) (r : Rd) (slot : Nat) (b : Bool) (o : Sensed) (others : List (Nat × Sensed)),
      s.hq.reads.find? (fun r => r.tag = tag) = some r → r.stage = .sense slot b → notSensed s r slot b = false →
      slotLost s r.taken r.tree others = true →
      exec (.lineDecodeDone (.read tag) o others) s = .next { s with hq := { s.hq with
        reads := s.hq.reads.map fun y => if r.shares y then { y with stage := .done 0 true } else y } }) ∧
    (∀ (s : State) (tag cycle : Nat) (r : Rd) (d : LineData) (p : Bool),
      s.hq.reads.find? (fun r => r.tag = tag) = some r → r.stage = .done d p → s.hl.state = .active →
      ∃ t, exec (.dataResponse tag cycle) s = .next t ∧
        t.hq.sent = s.hq.sent ++ [.memData tag (if p then 0 else d) p] ∧
        t.hq.reads = s.hq.reads.filter (fun x => x.tag ≠ tag) ∧
        t.hq.queue = s.hq.queue ∧ t.hq.rdCredits = s.hq.rdCredits ∧ t.hq.wrCredits = s.hq.wrCredits ∧
        t.mp = s.mp ∧ t.sag = s.sag ∧ t.pl = s.pl ∧ t.hl.state = s.hl.state ∧ t.clk = s.clk) ∧
    (∀ (s : State) (tag cycle : Nat), (∀ r ∈ s.hq.reads, r.tag = tag → ∀ d p, r.stage ≠ .done d p) →
      exec (.dataResponse tag cycle) s = .next s))

/-- A partial write merges by byte: each of a line's 64 bytes takes the new value exactly where its byte enable is set.
Background fills: FILL_COMPLETE of a line whose page reads as zeros, or whose media line passes its checks, completes
the entry with those bytes around the written ones, ends its fill and wakes the reads that wait for it with those
bytes; FILL_RETRY issues again a fill that ended in the transient outcome, with its sense, and changes nothing else. -/
def Obligations.FillsMergeByByte : Prop :=
  (∀ (old new : LineData) (be : BitVec 64) (i : Fin 64),
      (mergeBytes old new be).extractLsb' (8 * i.val) 8 =
        if be.getLsbD i.val then new.extractLsb' (8 * i.val) 8 else old.extractLsb' (8 * i.val) 8) ∧
  ((∀ (s : State) (page line : Nat) (l : SagLine) (o : Sensed) (others : List (Nat × Sensed)) (e : MapEntry),
      sagLine s page line = some l → l.fill = true → l.retry = false → entry? (fetchSeg s page) page = some e → e.secure = false →
      lineSource e line false = .zeros →
      exec (.fillComplete page line o others) s = .next (finishFill (fetchSeg s page) page line (some 0))) ∧
    (∀ (s v : State) (page line slot : Nat) (b p : Bool) (d : LineData) (l : SagLine) (o : Sensed) (others : List (Nat × Sensed))
        (e : MapEntry),
      sagLine s page line = some l → l.fill = true → l.retry = false → entry? (fetchSeg s page) page = some e → e.secure = false →
      lineSource e line false = .media slot b → parked (fetchSeg s page) (slotRank slot) = false →
      lostLinks (fetchSeg s page) (slotRank slot) < 3 →
      accessLine (fetchSeg s page) page line slot txFill o others = (v, .data d p) →
      exec (.fillComplete page line o others) s = .next
        (useSlot (finishFill v page line (if p then none else some d)) page e (pageTree v page))) ∧
    (∀ (s : State) (page line : Nat) (l : SagLine) (v : Option LineData), sagLine s page line = some l →
      ∃ l' : SagLine, finishFill s page line v = wakeReads (setSagLine s page line (some l')) page line v ∧
        l'.fill = false ∧ l'.mask = l.mask ∧ l'.gen = l.gen ∧ l'.held = l.held ∧
        (l.mask ≠ BitVec.allOnes 64 → ∀ d, v = some d →
          l'.data = mergeBytes d l.data l.mask ∧ l'.poison = l.poison ∧ l'.filled = true) ∧
        (l.mask ≠ BitVec.allOnes 64 → v = none → l'.poison = true ∧ l'.data = l.data) ∧
        (l.mask = BitVec.allOnes 64 → l'.data = l.data ∧ l'.poison = l.poison)) ∧
    (∀ (s : State) (page line : Nat) (m : BitVec 64) (d x : LineData) (v : Option LineData) (r : Rd), r ∈ s.hq.reads →
      r.page = page → r.line = line → r.stage = .waitFill m d false → v = some x →
      { r with stage := .done (mergeBytes x d m) false } ∈ (wakeReads s page line v).hq.reads) ∧
    (∀ (s : State) (page line : Nat) (l : SagLine), sagLine s page line = some l → l.fill = true → l.retry = true →
      exec (.fillRetry page line) s = .next (senseFill (setSagLine s page line (some { l with retry := false })) page line) ∧
      ∃ k, senseFill (setSagLine s page line (some { l with retry := false })) page line =
        { setSagLine s page line (some { l with retry := false }) with ln := k }) ∧
    (∀ (s : State) (page line : Nat), sagLine s page line = none →
      exec (.fillRetry page line) s = .next s ∧ ∀ o others, exec (.fillComplete page line o others) s = .next s))

/-- A drain starts when lines of the column group may drain, nothing else holds the page, the medium is up, and the rank
serves: one drain of the group is added, into the page's bisque slot (its own, the one given to a drain in progress,
or a new one), with a stamp for each line above the highest in use, in ascending line order. With no line eligible,
nothing happens. The hold on a failed rank's writes ends after 65,536 beats: with the rank back it only ends; with
three of its links still lost, the rank's lines leave the saggar, its drains are dropped, and the discarded lines are
reported. -/
def Obligations.DrainsAndHoldsStart : Prop :=
  ((∀ (s : State) (page : Nat) (group : Fin 4) (e : MapEntry) (slot : Nat) (new : Bool) (v : State),
      drainHeld s page group.val = false → mapDirty s < s.mp.dirtyMax + 65536 → mediaUp s = true →
      yieldsToDead s (groupLines s page group.val) = false →
      groupLines s page group.val ≠ [] → entry? (dropPage (fetchSeg s page) page) page = some e → e.secure = false →
      parked (dropPage (fetchSeg s page) page) (targetRank (dropPage (fetchSeg s page) page) page e) = false →
      (e.bisqueHome = none40 ∨ (stripe (dropPage (fetchSeg s page) page) (slotBs e.bisqueHome)).state ≠ .victim ∨
        (stripe (dropPage (fetchSeg s page) page) (slotBs e.bisqueHome)).degraded = false) →
      lostLinks (dropPage (fetchSeg s page) page) (targetRank (dropPage (fetchSeg s page) page) page e) < 3 →
      groupLost (dropPage (fetchSeg s page) page) e page group.val (groupLines s page group.val) = [] →
      stampRoom (dropPage (fetchSeg s page) page)
        (stampTop (dropPage (fetchSeg s page) page) page e + 1 + (groupLines s page group.val).length) = true →
      drainSlot (dropPage (fetchSeg s page) page) page e = some (slot, new, v) →
      ∃ (t : State) (d : Drain), exec (.drainStart page group) s = .next t ∧ t.sag.drains = v.sag.drains ++ [d] ∧
        d.page = page ∧ d.group = group.val ∧ d.slot = slot ∧ d.newSlot = new ∧ d.fromEntry = e ∧
        d.lines.length = (groupLines s page group.val).length ∧ t.sag.slotOf = v.sag.slotOf) ∧
    (∀ (s : State) (page group : Nat), drainHeld s page group = false ↔
      (∀ d ∈ s.sag.drains, ¬ (d.page = page ∧ d.group = group)) ∧ inFiring s page = false ∧ page ∉ s.pl.relocating ∧
        inSecure s page = false ∧ (inSwitch s page = true → onSagRoute s page = true)) ∧
    (∀ (s : State) (page : Nat) (group : Fin 4), groupLines s page group.val = [] →
      exec (.drainStart page group) s = .next s) ∧
    (∀ (s : State) (page base : Nat) (regime : Bool) (lines : List (Nat × SagLine)) (k j : Nat) (h : j < lines.length),
      ∃ x, (stampLines s page base regime lines k)[j]? = some x ∧ x.1 = lines[j].1 ∧ x.2.1 = lines[j].2.gen ∧
        x.2.2.1 = base + (k + j) ∧ x.2.2.2.stamp = base + (k + j) ∧ x.2.2.2.ident = page ∧ x.2.2.2.line = lines[j].1 ∧
        x.2.2.2.poison = lines[j].2.poison ∧
        (lines[j].2.poison = false → x.2.2.2.data = lines[j].2.data))) ∧
  ((∀ (s : State) (r : Rank) (b : Nat), tget none s.sag.holdStart r.val = some b → b + 65536 ≤ s.clk.beat →
      lostLinks s r.val < 3 →
      exec (.writeDiscardHoldEnd r) s = .next { s with sag := { s.sag with holdStart := tset none s.sag.holdStart r.val none } }) ∧
    (∀ (s : State) (r : Rank) (b : Nat), tget none s.sag.holdStart r.val = some b → s.clk.beat < b + 65536 →
      exec (.writeDiscardHoldEnd r) s = .next s) ∧
    (∀ (s : State) (r : Rank) (b : Nat), tget none s.sag.holdStart r.val = some b → b + 65536 ≤ s.clk.beat →
      3 ≤ lostLinks s r.val →
      ∃ t, exec (.writeDiscardHoldEnd r) s = .next t ∧ tget false t.sag.holdOver r.val = true ∧
        (∀ d ∈ t.sag.drains, slotRank d.slot ≠ r.val) ∧
        t.sag.lines = (linesFor s r.val).foldl (fun l x => tset none l (x.1 * 64 + x.2) none) s.sag.lines))

/-- The entry after a verified drain, by the state it was taken from: an unmapped or discarded page becomes bisque-whole
with the drained lines' mask bits, a glaze page becomes split and keeps its glaze home, a split page gains mask bits
and, with all 64, becomes bisque-whole without a glaze home, a bisque-whole page gains mask bits and a poisoned page
becomes bisque-whole with the rest poisoned; the stamp never falls. DRAIN_VERIFIED ends the drain: its page has that
entry (but for a refresh that it completes), its lines stand in its slot on media, and every other line of media is as
it was. -/
def Obligations.DrainsMapTheirLines : Prop :=
  (∀ (e : MapEntry) (slot stamp domain : Nat) (bits : BitVec 64), e.stamp ≤ (drainedEntry e slot bits stamp domain).stamp ∧
    stamp ≤ (drainedEntry e slot bits stamp domain).stamp ∧ (drainedEntry e slot bits stamp domain).pin = e.pin ∧
    (e.state = .glaze → (drainedEntry e slot bits stamp domain).state = .split ∧
      (drainedEntry e slot bits stamp domain).mask = bits ∧ (drainedEntry e slot bits stamp domain).bisqueHome = slot ∧
      (drainedEntry e slot bits stamp domain).glazeHome = e.glazeHome) ∧
    (e.state = .split → e.mask ||| bits ≠ BitVec.allOnes 64 →
      (drainedEntry e slot bits stamp domain).state = .split ∧ (drainedEntry e slot bits stamp domain).mask = e.mask ||| bits ∧
      (drainedEntry e slot bits stamp domain).glazeHome = e.glazeHome) ∧
    (e.state = .split → e.mask ||| bits = BitVec.allOnes 64 →
      (drainedEntry e slot bits stamp domain).state = .bisqueWhole ∧ (drainedEntry e slot bits stamp domain).glazeHome = none40) ∧
    (e.state = .bisqueWhole → (drainedEntry e slot bits stamp domain).state = .bisqueWhole ∧
      (drainedEntry e slot bits stamp domain).mask = e.mask ||| bits ∧
      (drainedEntry e slot bits stamp domain).bisqueHome = e.bisqueHome) ∧
    (e.state = .poisonedWhole → (drainedEntry e slot bits stamp domain).state = .bisqueWhole ∧
      (drainedEntry e slot bits stamp domain).poisonRest = true ∧ (drainedEntry e slot bits stamp domain).mask = bits) ∧
    (e.state = .unmapped → (drainedEntry e slot bits stamp domain).state = .bisqueWhole ∧
      (drainedEntry e slot bits stamp domain).poisonRest = false ∧ (drainedEntry e slot bits stamp domain).mask = bits ∧
      (drainedEntry e slot bits stamp domain).bisqueHome = slot ∧ (drainedEntry e slot bits stamp domain).domain = domain)) ∧
  (∀ (s v : State) (page : Nat) (group : Fin 4) (d : Drain) (e e0 : MapEntry),
    s.sag.drains.find? (fun d => d.page = page && d.group = group.val) = some d →
    v = fetchSeg { s with sag := { s.sag with drains := s.sag.drains.filter (· ≠ d) } } page → entry? v page = some e →
    e0 = (if e.state = .unmapped then { e with regime := newFlag v page } else e) → (∀ x ∈ d.lines, x.1 < 64) →
    ∃ t x, exec (.drainVerified page group) s = .next t ∧ t.sag.drains = s.sag.drains.filter (· ≠ d) ∧
      entry? t page = some x ∧ { x with refresh := false, tally := 0 } =
        { drainedEntry e0 d.slot (lineMask (d.lines.map (·.1))) (d.lines.foldl (fun m x => max m x.2.2.1) 0)
          (match d.lines with | x :: _ => x.2.2.2.domain | [] => e.domain) with refresh := false, tally := 0 } ∧
      ((d.lines.map (·.1)).Nodup → ∀ y ∈ d.lines, mediaImg t d.slot y.1 = .line y.2.2.2) ∧
      (∀ slot line, (slot ≠ d.slot ∨ line ∉ d.lines.map (·.1)) → line < 64 → mediaImg t slot line = mediaImg s slot line)) ∧
  (∀ (s : State) (page : Nat) (group : Fin 4), (∀ d ∈ s.sag.drains, ¬ (d.page = page ∧ d.group = group.val)) →
    exec (.drainVerified page group) s = .next (returnCredits s))

/-- Map write-backs: a cleaning visit of a set with nothing dirty does nothing, and with one dirty line of a tag-mode leaf
it starts that line's write-back to the replicas that serve under the next leaf stamp; a replica's verified write puts
the image on its copy and takes the replica off the write-back. The gap moves down by one position from N to 0 and
START advances modulo N when it wraps, after every 64 writes of a rank's leaves or nodes, and waits while a write-back
of what it moves is under way; a swap of a worn stripe takes a blank one, becomes effective when its copy has
verified, and the ninth only raises map-swap-exhausted. -/
def Obligations.MapLinesAndRotation : Prop :=
  ((∀ (s : State) (set : Fin 131072), dirtyOfSet s set.val = [] → exec (.mapCleaningVisit set) s = .next s) ∧
    (∀ (s : State) (set : Fin 131072) (ll : Nat), mediaRuns s = true → (roleCore s 10).isSome = true →
      dirtyOfSet s set.val = [ll] → gapHolds s (leafOfLine ll) = false →
      leafTree s (leafOfLine ll) = false → (∀ w ∈ s.mp.writeBacks, w.1 ≠ ll) → internalUsed s < 16384 →
      ∃ (t : State) (img : LeafLine), exec (.mapCleaningVisit set) s = .next t ∧
        t.mp.writeBacks = s.mp.writeBacks ++ [(ll, upReplicas s ll, img)] ∧ img.stamp = leafStamp s (leafOfLine ll) + 1 ∧
        img.e0 = entryNow s (2 * ll) ∧ img.e1 = entryNow s (2 * ll + 1) ∧ t.mp.cache = s.mp.cache) ∧
    (∀ (s : State) (ll : Nat) (k : Fin 2) (ks : List Nat) (img : LeafLine),
      s.mp.writeBacks.find? (fun w => w.1 = ll && k.val ∈ w.2.1) = some (ll, ks, img) →
      ∃ t, exec (.mapWriteBackVerified ll k) s = .next t ∧ t.mp.leaves = (setLeafLine s ll k.val (some img)).mp.leaves ∧
        t.mp.writeBacks = (s.mp.writeBacks.map fun w => if w = (ll, ks, img) then (ll, ks.filter (· ≠ k.val), img) else w).filter
          fun w => !w.2.1.isEmpty) ∧
    (∀ (s : State) (ll : Nat) (k : Fin 2), (∀ w ∈ s.mp.writeBacks, w.1 = ll → k.val ∉ w.2.1) →
      exec (.mapWriteBackVerified ll k) s = .next s)) ∧
  ((∀ n start gap : Nat, gapStep n start gap = if gap = 0 then ((start + 1) % n, n) else (start, gap - 1)) ∧
    (∀ (s v : State) (r : Rank), mediaRuns s = true → r.val ∈ s.mp.mapRanks → 64 ≤ (rot s r.val).writes →
      (rot s r.val).copying = false → v = updRot s r.val (fun t => { t with copying := true, writes := t.writes - 64 }) →
      (∀ w ∈ s.mp.writeBacks, gapHolds v (leafOfLine w.1) = false) →
      exec (.gapMove r false) s = .next v ∧ (rot v r.val).copying = true) ∧
    (∀ (s v : State) (r : Rank), mediaRuns s = true → r.val ∈ s.mp.mapRanks → 64 ≤ (rot s r.val).twrites →
      (rot s r.val).tcopying = false → v = updRot s r.val (fun t => { t with tcopying := true, twrites := t.twrites - 64 }) →
      (∀ n ∈ s.ig.heldNodes, nodeGapHolds v n = false) →
      exec (.gapMove r true) s = .next v ∧ (rot v r.val).tcopying = true) ∧
    (∀ (s : State) (r : Rank) (src dst : Nat), (rot s r.val).swapping = some (src, dst) →
      exec (.mapStripeSwap r src dst true) s = .next (updStripe (updRot s r.val fun t =>
        { t with swapping := none, swaps := t.swaps ++ [(src, dst)] }) (r.val * 81920 + src) fun b => { b with state := .retired })) ∧
    (∀ (s : State) (r : Rank) (src dst : Nat), src < 81920 → dst < 81920 → swapDue s (r.val * 81920 + src) = true →
      (rot s r.val).swapping = none → (rot s r.val).swaps.length < 8 → swapTarget s (r.val * 81920 + dst) = true →
      exec (.mapStripeSwap r src dst false) s = .next (recordStripe
        (updStripe (updRot s r.val fun t => { t with swapping := some (src, dst), swapWls := 0 })
          (r.val * 81920 + dst) fun b => { b with state := .system, bisque := true, buses := b.buses + 1 })
        (r.val * 81920 + dst))) ∧
    (∀ (s : State) (bs : Nat), swapTarget s bs = true ↔ (stripe s bs).state = .blank ∧ bsState s bs ≠ .system ∧
      (stripe s bs).degraded = false ∧ allocEligible s (stripe s bs) = true) ∧
    (∀ (s : State) (r : Rank) (src dst : Nat), src < 81920 → dst < 81920 → swapDue s (r.val * 81920 + src) = true →
      (rot s r.val).swapping = none → 8 ≤ (rot s r.val).swaps.length →
      exec (.mapStripeSwap r src dst false) s = .next (raise s 0x3B r.val src 0 0 0)) ∧
    (∀ (s : State) (r : Rank), (rot s r.val).copying = true → 0 < (rot s r.val).gap → (rot s r.val).moves + 1 < 4096 →
      ∃ t, exec (.gapMoveVerified r false) s = .next t ∧ t = updRot s r.val fun t => { t with
        copying := false, start := t.start, gap := t.gap - 1, moves := satAdd 32 t.moves 1 }) ∧
    (∀ (s : State) (r : Rank), (rot s r.val).tcopying = true → (rot s r.val).tgap = 0 → (rot s r.val).tmoves + 1 < 4096 →
      exec (.gapMoveVerified r true) s = .next (updRot s r.val fun t => { t with
        tcopying := false, tstart := (t.tstart + 1) % s.mp.treeN, tgap := s.mp.treeN, tmoves := satAdd 32 t.tmoves 1 })))

/-- A line's full stamp, rebuilt from the 40 bits its metadata keeps and the page's stamp, is the one value with those low
bits in the window of 2^40 values around the page's stamp (R124). -/
def Obligations.FullStampIsTheOne : Prop :=
  (∀ S lo : Nat, lo < 2 ^ 40 → 2 ^ 39 ≤ S →
    fullStamp lo S % 2 ^ 40 = lo ∧ S ≤ fullStamp lo S + 2 ^ 39 ∧ fullStamp lo S < S + 2 ^ 39) ∧
  (∀ S T : Nat, S ≤ T + 2 ^ 39 → T < S + 2 ^ 39 → fullStamp (T % 2 ^ 40) S = T)

/-- The age bins (R265): TH[k] is the least t with t^4 at least 10^k, the bin of an age is the largest k of 0 to 38 whose
threshold the age reaches, and so the bin is the floor of four times the decimal logarithm of the age, up to 38. -/
def Obligations.AgeBins : Prop :=
  (∀ k, k ≤ 38 → 10 ^ k ≤ th k ^ 4 ∧ ∀ t, 10 ^ k ≤ t ^ 4 → th k ≤ t) ∧
  ∀ a, 1 ≤ a → ageBin a ≤ 38 ∧ th (ageBin a) ≤ a ∧ (∀ k, k ≤ 38 → th k ≤ a → k ≤ ageBin a) ∧
    10 ^ ageBin a ≤ a ^ 4 ∧ (ageBin a < 38 → a ^ 4 < 10 ^ (ageBin a + 1))

/-- The copies of a saggar line (R39): copy B lies 64 MiB above copy A, on logical channel (l + 16) mod 120 where l is
copy A's, and never on copy A's die, a logical channel being the SRAM line's number mod 120 and its die that number
div 15. -/
def Obligations.SaggarCopiesApart : Prop :=
  ∀ k l : Nat, k < 1048576 → saggarAddr k false / 64 % 120 = l →
    saggarAddr k true = saggarAddr k false + 64 * 2 ^ 20 ∧ saggarAddr k true / 64 % 120 = (l + 16) % 120 ∧
    saggarAddr k true / 64 % 120 / 15 ≠ l / 15

/-- EVNT_USER reads a 1 in bit p exactly for pages 8 to 15 of the event window, in every state (R616). -/
def Obligations.UserPages : Prop :=
  ∀ (s : State) (p : Nat), (regValue s 0x50 0 0x48).getLsbD p = decide (8 ≤ p ∧ p ≤ 15)

/-- The heat epoch advances by one modulo 2^64; the bisque budget of a populated rank rises by one percent up to
BUDGET_MAX when use has reached 15 sixteenths of it, few cold pages passed and free glaze is ample, falls by one down
to BUDGET_MIN when use is under half, and stays otherwise. The fire queue: the walk looks at the next slot of the
rank's BISQUE stripes, adds a page that passes the cold test with little heat (counted as cold) and not one that fails
it; the slot it comes to next lies on a programmed word line of a BISQUE stripe; the queue's order is ascending
decayed heat, then page number. -/
def Obligations.HeatAndTheFireQueue : Prop :=
  ((∀ s : State, awake s = true →
      exec .heatEpochAdvance s = .next { s with pl := { s.pl with heatEpoch := (s.pl.heatEpoch + 1) % 2 ^ 64 } }) ∧
    (∀ (s : State) (r : Rank), awake s = true → r.val ∈ s.mp.pop →
      ∃ (t : State) (b : Nat), exec (.budgetAdjust r) s = .next t ∧
        t = updRank (recount s r.val) r.val (fun x => { x with budget := b, coldPassed := 0, meanCycles := meanWear (recount s r.val) r.val }) ∧
        (16 * bisqueUse (recount s r.val) r.val < 15 * budgetStripes (recount s r.val) r.val →
          budgetStripes (recount s r.val) r.val ≤ 2 * bisqueUse (recount s r.val) r.val →
          b = (rankPl (recount s r.val) r.val).budget) ∧
        (16 * bisqueUse (recount s r.val) r.val < 15 * budgetStripes (recount s r.val) r.val →
          2 * bisqueUse (recount s r.val) r.val < budgetStripes (recount s r.val) r.val →
          b = max ((rankPl (recount s r.val) r.val).budget - 1) (budgetMin (recount s r.val))) ∧
        (15 * budgetStripes (recount s r.val) r.val ≤ 16 * bisqueUse (recount s r.val) r.val →
          (rankPl (recount s r.val) r.val).coldPassed < 1024 →
          2 * reclaimLow (recount s r.val) ≤ freeGlaze (recount s r.val) r.val →
          b = min ((rankPl (recount s r.val) r.val).budget + 1) (budgetMax (recount s r.val))))) ∧
  ((∀ (s u : State) (r : Rank) (x : Nat × Nat × Nat) (page : Nat) (e : MapEntry), mediaRuns s = true →
      nextWalk s r.val = some x → (rankPl s r.val).fireQueue.length < 3072 →
      u = fetchSlots (updRank s r.val fun y => { y with walkAt := some x }) [slotNo x.2.1 x.2.2 0] →
      slotValid u (slotNo x.2.1 x.2.2 0) true = some page → entry? u page = some e → coldTest u page e = true →
      decayedHeat u.pl.heatEpoch e ≤ fireCold u → page ∉ (rankPl u r.val).fireQueue →
      page ∉ (rankPl (updRank u r.val fun y => { y with coldPassed := y.coldPassed + 1 }) r.val).fireQueue →
      exec (.fireQueueWalk r (slotNo x.2.1 x.2.2 0)) s = .next (setQueue
        (updRank u r.val fun y => { y with coldPassed := y.coldPassed + 1 }) r.val
        ((rankPl (updRank u r.val fun y => { y with coldPassed := y.coldPassed + 1 }) r.val).fireQueue ++ [page]))) ∧
    (∀ (s u : State) (r : Rank) (x : Nat × Nat × Nat) (page : Nat) (e : MapEntry), mediaRuns s = true →
      nextWalk s r.val = some x → (rankPl s r.val).fireQueue.length < 3072 →
      u = fetchSlots (updRank s r.val fun y => { y with walkAt := some x }) [slotNo x.2.1 x.2.2 0] →
      slotValid u (slotNo x.2.1 x.2.2 0) true = some page → entry? u page = some e → coldTest u page e = false →
      exec (.fireQueueWalk r (slotNo x.2.1 x.2.2 0)) s = .next u) ∧
    (∀ (s : State) (r : Nat) (x : Nat × Nat × Nat), nextWalk s r = some x →
      bsState s x.2.1 = .bisque ∧ ∃ b : BsRec, (x.2.1, b) ∈ rankStripes s r ∧ x.2.2 < b.wls) ∧
    (∀ (s : State) (q : List Nat) (i j : Nat) (hi : i < (fireOrder s q).length) (hj : j < (fireOrder s q).length), i < j →
      decayedHeat s.pl.heatEpoch (entryNow s (fireOrder s q)[i]) ≤ decayedHeat s.pl.heatEpoch (entryNow s (fireOrder s q)[j])) ∧
    (∀ (s : State) (q : List Nat), (fireOrder s q).Perm q))

/-- Firings start: FIRING_START of a host purpose, and FIRE_WAIT_EXPIRY once the queue has been short for
2^FIRE_WAIT_SHIFT beats, program the next word line of the purpose's stripe with the queue's coldest free pages under
new stamps; reclaim does so with the victim's pages, a whole glaze page as a copy, unless a failed program closed the
victim; a parked rank fires nothing, and no host page is fired below RECLAIM_MIN free stripes. A verified word line:
its line images stand on media, the pages' and those of void slots, the stripe's count of word lines reaches past it
and the firing is over; the map change of a page puts it into GLAZE under the new stamp with the slot as its glaze
home, no bisque home, no mask and no refresh, PIN unchanged. With no firing of the purpose nothing happens.
RECLAIM_MOVE_VERIFIED is the same end for the reclaim stripe. -/
def Obligations.FiringsRun : Prop :=
  ((∀ (s u v : State) (r : Rank) (p : Fin 4) (fits rest : List Nat) (g : Nat) (o : OpenSt) (e : MapEntry), mediaRuns s = true →
      parked s r.val = false → p.val < 2 → fits = (rankPl s r.val).fireQueue.filter (fun g => coldTest s g (entryNow s g)) →
      u = setQueue s r.val fits → reclaimMin u ≤ freeGlaze u r.val → (fireOrder u fits).filter (pageFree u) = g :: rest →
      2 ≤ rest.length → v = openStripe u r.val p.val → openOf v r.val p.val = some o → o.closing = false →
      (stripe v o.bs).wls < 65536 → ((rankPl v r.val).firings.any fun f => f.purpose = p.val) = false →
      rankShut v r.val p.val = false → entry? (fetchSeg v g) g = some e →
      stampRoom (fetchSeg v g) (stampTop (fetchSeg v g) g e + 1) = true →
      ∃ (t : State) (f : Firing) (z : FirePage), exec (.firingStart r p) s = .next t ∧ f ∈ (rankPl t r.val).firings ∧
        f.purpose = p.val ∧ f.bs = o.bs ∧ f.wl = (stripe v o.bs).wls ∧ z ∈ f.pages ∧ z.page = g ∧ z.slot = slotNo f.bs f.wl 0 ∧
        z.stamp = stampTop (fetchSeg v g) g e + 1) ∧
    (∀ (s u v : State) (r : Rank) (p : Nat) (fits rest : List Nat) (g : Nat) (o : OpenSt) (e : MapEntry), mediaRuns s = true →
      parked s r.val = false → (rankPl s r.val).fireQueue.length < 3 →
      (rankPl s r.val).shortSince.getD 0 + 2 ^ fireWaitShift s ≤ s.clk.beat →
      p = (if (rankPl s r.val).firings.any fun f => f.purpose = 0 then 1 else 0) →
      fits = (rankPl s r.val).fireQueue.filter (fun g => coldTest s g (entryNow s g)) →
      u = setQueue s r.val fits → reclaimMin u ≤ freeGlaze u r.val → (fireOrder u fits).filter (pageFree u) = g :: rest →
      v = openStripe u r.val p → openOf v r.val p = some o → o.closing = false →
      (stripe v o.bs).wls < 65536 → ((rankPl v r.val).firings.any fun f => f.purpose = p) = false →
      rankShut v r.val p = false → entry? (fetchSeg v g) g = some e →
      stampRoom (fetchSeg v g) (stampTop (fetchSeg v g) g e + 1) = true →
      ∃ (t : State) (f : Firing) (z : FirePage), exec (.fireWaitExpiry r) s = .next t ∧ f ∈ (rankPl t r.val).firings ∧
        f.purpose = p ∧ f.bs = o.bs ∧ f.wl = (stripe v o.bs).wls ∧ z ∈ f.pages ∧ z.page = g ∧ z.slot = slotNo f.bs f.wl 0) ∧
    (∀ (s u v : State) (r : Rank) (p : Fin 4) (rest : List Nat) (g : Nat) (o : OpenSt) (e : MapEntry), mediaRuns s = true →
      parked s r.val = false → p.val = 2 → evacuates s r.val = false → u = fetchVictim s r.val →
      victimPages u r.val = g :: rest → copied u g = true → v = openStripe u r.val 2 → openOf v r.val 2 = some o →
      o.closing = false → (stripe v o.bs).wls < 65536 → ((rankPl v r.val).firings.any fun f => f.purpose = 2) = false →
      rankShut v r.val 2 = false → entry? (fetchSeg v g) g = some e →
      ∃ (t : State) (f : Firing) (z : FirePage), exec (.firingStart r p) s = .next t ∧ f ∈ (rankPl t r.val).firings ∧
        f.purpose = 2 ∧ f.wl = (stripe v o.bs).wls ∧ z ∈ f.pages ∧ z.page = g ∧ z.slot = slotNo o.bs f.wl 0 ∧ z.isCopy = true ∧
        z.stamp = e.stamp) ∧
    (∀ (s : State) (r : Rank) (p : Fin 4), mediaRuns s = true → parked s r.val = false → p.val = 2 → evacuates s r.val = true →
      exec (.firingStart r p) s = .next s) ∧
    (∀ (s : State) (r : Rank) (p : Fin 4), parked s r.val = true →
      exec (.firingStart r p) s = .next s ∧ exec (.fireWaitExpiry r) s = .next s) ∧
    (∀ (s : State) (r p need : Nat),
      freeGlaze (setQueue s r ((rankPl s r).fireQueue.filter fun g => coldTest s g (entryNow s g))) r
        < reclaimMin (setQueue s r ((rankPl s r).fireQueue.filter fun g => coldTest s g (entryNow s g))) →
      hostFiring s r p need = setQueue s r ((rankPl s r).fireQueue.filter fun g => coldTest s g (entryNow s g))) ∧
    (∀ (s : State) (page : Nat) (e : MapEntry) (stamp domain : Nat) (regime : Bool),
      (assemble s page e stamp domain regime).1.length = 64 ∧
      ∀ i : Fin 64, ∃ r, (assemble s page e stamp domain regime).1[i.val]? = some r ∧ r.stamp = stamp ∧ r.ident = page ∧
        r.line = i.val ∧ r.bisque = false ∧ r.regime = regime ∧
        (∀ l, sagLine s page i.val = some l → r.poison = l.poison ∧ (l.poison = false → r.data = l.data)))) ∧
  ((∀ (s : State) (r : Rank) (p : Fin 4) (pulses : List (Nat × Nat)) (f : Firing), mediaUp s = true →
      (rankPl s r.val).firings.find? (fun f => f.purpose = p.val) = some f →
      ∃ t, exec (.wordLineVerified r p pulses) s = .next t ∧
        t.mp.media = (programWordLine (updRank s r.val fun x => { x with firings := x.firings.erase f }) f).mp.media ∧
        (stripe t f.bs).wls = f.wl + 1 ∧ t.mp.leaves = s.mp.leaves ∧ t.hq = s.hq) ∧
    (∀ (s : State) (r : Rank) (f : Firing), mediaUp s = true →
      (rankPl s r.val).firings.find? (fun f => f.purpose = 2) = some f →
      ∃ t, exec (.reclaimMoveVerified r) s = .next t ∧
        t.mp.media = (programWordLine (updRank s r.val fun x => { x with firings := x.firings.erase f }) f).mp.media ∧
        (stripe t f.bs).wls = f.wl + 1 ∧ t.mp.leaves = s.mp.leaves) ∧
    (∀ (s : State) (p : FirePage) (c : CacheSeg), cacheSeg s (segNo p.page) = some c → p.page % 8 < c.entries.length →
      entry? (setEntry s p.page { entryNow s p.page with
        state := .glaze, mask := 0, stamp := p.stamp, bisqueHome := none40, glazeHome := p.slot, domain := p.domain
        poisonRest := false, refresh := false, tally := 0 }) p.page =
        some { entryNow s p.page with
          state := .glaze, mask := 0, stamp := p.stamp, bisqueHome := none40, glazeHome := p.slot, domain := p.domain
          poisonRest := false, refresh := false, tally := 0 }) ∧
    (∀ (s : State) (r : Rank), exec (.reclaimMoveVerified r) s = exec (.wordLineVerified r 2 []) s) ∧
    (∀ (s : State) (r : Rank) (p : Fin 4) (pulses : List (Nat × Nat)), (∀ f ∈ (rankPl s r.val).firings, f.purpose ≠ p.val) →
      exec (.wordLineVerified r p pulses) s = .next s))

/-- Guard passes: with no failing word line the pass leaves the set with nothing rebuilt; failing word lines are noted in
the set and their pages go to the rank's refresh stripe; a pass that completes releases the group's set, notes the
group as passed and takes the cone capture; a stripe that is not open changes nothing. Blanking: with fewer blank
stripes than BLANK_AHEAD, the dirty stripe with the fewest cycles begins to blank, its cycle counted and recorded, or
is retired at 20,000 cycles; a blanked stripe is BLANK, glaze, empty, and no line image of it stays on media; a
changed block-stripe record is written to both replicas and to the copy. -/
def Obligations.StripesAreBlankedAndGuarded : Prop :=
  ((∀ (s : State) (r : Rank) (p : Fin 4) (g : Fin 64) (o : OpenSt), openOf s r.val p.val = some o → mediaUp s = true →
      passDue s o g.val = true →
      exec (.guardVerifyPass r p g []) s = .next (updOpen s r.val p.val fun o =>
        o.setGuard (g.val % 2) { o.guard (g.val % 2) with rebuilt := [] })) ∧
    (∀ (s u : State) (r : Rank) (p : Fin 4) (g : Fin 64) (o : OpenSt) (pos w page : Nat), openOf s r.val p.val = some o →
      mediaUp s = true → passDue s o g.val = true → pos < 16 → w / 1024 = g.val → w < (stripe s o.bs).wls →
      (o.guard (g.val % 2)).group = g.val → (o.guard (g.val % 2)).lost = false → (o.guard (g.val % 2)).added ≠ [] →
      u = fetchSlots s [slotNo o.bs w 0, slotNo o.bs w 1, slotNo o.bs w 2] → page ∈ wordLinePages u o.bs w →
      ∃ t, exec (.guardVerifyPass r p g [(pos, w)]) s = .next t ∧ page ∈ (rankPl t r.val).refreshQueue ∧
        t.mp = u.mp ∧ t.sag = s.sag ∧ (openOf t r.val p.val).map (fun o => (o.guard (g.val % 2)).rebuilt) = some [w]) ∧
    (∀ (s : State) (r : Rank) (p : Fin 4) (g : Fin 64) (o : OpenSt), openOf s r.val p.val = some o → passDue s o g.val = true →
      (o.guard (g.val % 2)).rebuilt = [] → o.closing = false → (stripe s o.bs).wls ≠ 65536 →
      ∃ t, exec (.guardPassComplete r p g) s = .next t ∧ t.pl = (updOpen s r.val p.val fun x =>
        if (o.guard (g.val % 2)).group = g.val then
          { x with passed := addNew x.passed g.val }.setGuard (g.val % 2) { group := g.val }
        else { x with passed := addNew x.passed g.val }).pl) ∧
    (∀ (s : State) (r : Rank) (p : Fin 4) (g : Fin 64) (failing : List (Nat × Nat)), openOf s r.val p.val = none →
      exec (.guardVerifyPass r p g failing) s = .next s ∧ exec (.guardPassComplete r p g) s = .next s) ∧
    (∀ (o : OpenSt) (w : Nat), w % 1024 = 0 → (guardAdd o w).guard (w / 1024 % 2) = { group := w / 1024, added := [w] }) ∧
    (∀ (o : OpenSt) (w : Nat), w % 1024 ≠ 0 →
      ((guardAdd o w).guard (w / 1024 % 2)).added = (o.guard (w / 1024 % 2)).added ++ [w])) ∧
  ((∀ (s : State) (r : Rank) (x : Nat × BsRec), mediaRuns s = true → parked s r.val = false → r.val ∈ s.mp.pop →
      (rankPl s r.val).blankingBs = none → (blankGlaze s r.val).length < blankAhead s → nextDirty s r.val = some x →
      x.2.cycles < 20000 →
      exec (.blankingStart r) s = .next (updRank (recordStripe
        (updStripe s x.1 fun b => { b with state := .blanking, cycles := b.cycles + 1 }) x.1) r.val
        fun y => { y with blankingBs := some x.1 })) ∧
    (∀ (s : State) (r : Rank) (x : Nat × BsRec), mediaRuns s = true → parked s r.val = false → r.val ∈ s.mp.pop →
      (rankPl s r.val).blankingBs = none → (blankGlaze s r.val).length < blankAhead s → nextDirty s r.val = some x →
      20000 ≤ x.2.cycles →
      ∃ t, exec (.blankingStart r) s = .next t ∧ t = retireStripe s x.1 ∧ (stripe t x.1).state = .retired) ∧
    (∀ (s : State) (bs : StripeNo), (stripe s bs.val).state = .blanking → mediaRuns s = true →
      ∃ t, exec (.blankingComplete bs) s = .next t ∧ (∀ x ∈ t.mp.media, slotBs (x.1 / 64) ≠ bs.val) ∧
        (∀ x ∈ t.ig.mediaSlots, slotBs x.1 ≠ bs.val) ∧ (∀ x ∈ t.mp.cones, x / 64 ≠ bs.val) ∧
        t.mp = { s.mp with media := t.mp.media, parityStale := t.mp.parityStale, cones := t.mp.cones } ∧
        tget {} t.pl.copy bs.val = stripe t bs.val ∧
        (stripe t bs.val).state = .blank ∧ (stripe t bs.val).bisque = false ∧ (stripe t bs.val).wls = 0 ∧
        (stripe t bs.val).valid = 0 ∧ (stripe t bs.val).lag = 0 ∧ (stripe t bs.val).unswept = false) ∧
    (∀ (s : State) (bs : StripeNo), mediaUp s = true → (stripe s bs.val).changed = true →
      exec (.blockStripeRecordWrite bs) s = .next { s with pl := { s.pl with
        stripes := tset {} s.pl.stripes bs.val { stripe s bs.val with changed := false }
        copy := tset {} s.pl.copy bs.val { stripe s bs.val with changed := false } } }) ∧
    (∀ (s : State) (bs : StripeNo), (stripe s bs.val).changed = false → exec (.blockStripeRecordWrite bs) s = .next s))

/-- Reclaim: below RECLAIM_LOW the full stripe of the highest score (lowest number on ties) becomes the rank's victim, one
with no valid slot is released at once; the levelling check makes the least worn full stripe a victim when another
glaze stripe leads it by more than WEAR_SPREAD; a released stripe that nothing names becomes DIRTY, or RETIRED when
degraded or at 20,000 cycles, and the write-backs of map lines that still name one are started. Moves of one page: a
relocation that is due gives the page's bisque lines a slot of another stripe and takes the page off the queue without
a new stamp; a page without bisque home only leaves the queue; a restamp and a refresh leave their queues, old bisque
lines going into the saggar as whole lines and glaze lines to the rank's refresh stripe; a page with secure work
pending is not refreshed. -/
def Obligations.ReclaimAndMoves : Prop :=
  ((∀ (s : State) (r : Rank) (x : Nat × BsRec), mediaRuns s = true → parked s r.val = false → (rankPl s r.val).victim = none →
      reclaimOn s r.val = true → lostLinks s r.val < 2 →
      bestVictim (updRank s r.val fun x => { x with reclaiming := true }) r.val
        (victimChoices (updRank s r.val fun x => { x with reclaiming := true }) r.val) = some x →
      exec (.reclaimStart r) s = .next (makeVictim (updRank s r.val fun x => { x with reclaiming := true }) r.val x.1)) ∧
    (∀ (s : State) (r bs : Nat), (stripe s bs).valid ≠ 0 →
      (stripe (makeVictim s r bs) bs).state = .victim ∧ (rankPl (makeVictim s r bs) r).victim = some bs) ∧
    (∀ (s : State) (r bs : Nat), (stripe s bs).valid = 0 →
      (stripe (makeVictim s r bs) bs).state = .released ∧ (rankPl (makeVictim s r bs) r).victim = none ∧
        (rankPl (makeVictim s r bs) r).reclaimed = satAdd 32 (rankPl s r).reclaimed 1) ∧
    (∀ (s : State) (r : Nat) (l : List (Nat × BsRec)) (x : Nat × BsRec), bestVictim s r l = some x →
      x ∈ l ∧ ∀ y ∈ l, reclaimScore s r y.2 < reclaimScore s r x.2 ∨ reclaimScore s r y.2 = reclaimScore s r x.2 ∧ x.1 ≤ y.1) ∧
    (∀ (s : State) (r : Rank) (x : Nat × BsRec), mediaRuns s = true → parked s r.val = false → (rankPl s r.val).victim = none →
      leastBy (fun x => [x.2.cycles, x.1]) ((rankStripes s r.val).filter fun x => !x.2.bisque && x.2.state = .full) = some x →
      ((rankStripes s r.val).filter fun x => !x.2.bisque &&
        (x.2.state = .blank || x.2.state = .dirty || x.2.state = .blanking || x.2.state = .open)).foldl
          (fun m x => max m x.2.cycles) 0 ≤ x.2.cycles + wearSpread s →
      exec (.levellingCheck r) s = .next s) ∧
    (∀ (s : State) (r : Rank) (x y : Nat × BsRec), mediaRuns s = true → parked s r.val = false → (rankPl s r.val).victim = none →
      leastBy (fun x => [x.2.cycles, x.1]) ((rankStripes s r.val).filter fun x => !x.2.bisque && x.2.state = .full) = some x →
      x.2.cycles + wearSpread s < ((rankStripes s r.val).filter fun x => !x.2.bisque &&
        (x.2.state = .blank || x.2.state = .dirty || x.2.state = .blanking || x.2.state = .open)).foldl
          (fun m x => max m x.2.cycles) 0 →
      leastBy (fun x => [x.2.cycles, x.1]) (((rankStripes s r.val).filter fun x => !x.2.bisque && x.2.state = .full).filter
        fun x => !x.2.unswept && !x.2.noVictim) = some y →
      exec (.levellingCheck r) s = .next (makeVictim s r.val y.1)) ∧
    (∀ (s : State) (bs : StripeNo), mediaRuns s = true → (stripe s bs.val).state = .released → stripeLetGo s bs.val = true →
      ∃ t, exec (.victimRelease bs) s = .next t ∧
        (stripe t bs.val).state = (if (stripe s bs.val).degraded || 20000 ≤ (stripe s bs.val).cycles then .retired else .dirty) ∧
        (stripe t bs.val).valid = 0 ∧ (stripe t bs.val).wls = 0 ∧ t.mp = s.mp ∧ t.sag = s.sag) ∧
    (∀ (s : State) (bs : StripeNo), mediaRuns s = true → (stripe s bs.val).state = .released → stripeLetGo s bs.val = false →
      exec (.victimRelease bs) s = .next ((linesNaming s bs.val).foldl startWriteBack s))) ∧
  ((∀ (s : State) (page : Nat) (e : MapEntry), entry? (fetchSeg s page) page = some e → mediaRuns s = true →
      page ∈ s.pl.relocating → e.bisqueHome = none40 →
      exec (.bisqueRelocation page) s = .next { s with pl := { s.pl with relocating := s.pl.relocating.filter (· ≠ page) } }) ∧
    (∀ (s : State) (page : Nat) (e : MapEntry) (slot : Nat) (v : State), entry? (fetchSeg s page) page = some e →
      mediaRuns s = true → page ∈ s.pl.relocating → e.bisqueHome ≠ none40 → inDrain s page = false → inFiring s page = false →
      inSecure s page = false → inSwitch s page = false → e.secure = false → relocSlot (fetchSeg s page) page e = some (slot, v) →
      ∃ t, exec (.bisqueRelocation page) s = .next t ∧ page ∉ t.pl.relocating ∧
        entry? t page = some { e with bisqueHome := slot, tally := 0 }) ∧
    (∀ (s : State) (page i : Nat) (e : MapEntry) (x : LineRec), entry? (fetchSeg s page) page = some e → mediaRuns s = true →
      page ∈ s.pl.restamps → pageFree s page = true → e.secure = false → e.bisqueHome = none40 → e.glazeHome ≠ none40 →
      i < 64 → liveIn e e.glazeHome i = true → mediaLine s e.glazeHome i = some x → x.stamp < (e.stamp / 2 ^ 38 - 1) * 2 ^ 38 →
      ∃ t, exec (.restamp page) s = .next t ∧ page ∉ t.pl.restamps ∧
        t = queueRefreshStripe { fetchSeg s page with pl := { (fetchSeg s page).pl with
          restamps := (fetchSeg s page).pl.restamps.filter (· ≠ page) } } (slotRank e.glazeHome) [page]) ∧
    (∀ (s u : State) (page i : Nat) (e : MapEntry) (x : LineRec), u = fetchSeg s page → entry? u page = some e → mediaRuns s = true →
      page ∈ s.pl.restamps → pageFree s page = true → e.secure = false → e.bisqueHome ≠ none40 → internalUsed u + 64 ≤ 16384 →
      i < 64 → liveIn e e.bisqueHome i = true → mediaLine s e.bisqueHome i = some x → x.stamp < (e.stamp / 2 ^ 38 - 1) * 2 ^ 38 →
      sagLine u page i = none →
      ∃ t l, exec (.restamp page) s = .next t ∧ page ∉ t.pl.restamps ∧ sagLine t page i = some l ∧ l.internal = true ∧
        l.data = (currentLine s e page i).1 ∧ l.poison = (currentLine s e page i).2 ∧ l.mask = BitVec.allOnes 64) ∧
    (∀ (s : State) (page : Nat) (e : MapEntry), entry? (fetchSeg s page) page = some e → mediaRuns s = true →
      page ∈ s.pl.refreshes → pageFree s page = true → e.secure = false → e.pin = false → (e.state = .glaze ∨ e.state = .split) →
      ∃ t, exec (.refresh page) s = .next t ∧ page ∉ t.pl.refreshes ∧
        t = queueRefreshStripe { fetchSeg s page with pl := { (fetchSeg s page).pl with
          refreshes := (fetchSeg s page).pl.refreshes.filter (· ≠ page) } } (slotRank e.glazeHome) [page]) ∧
    (∀ (s : State) (page : Nat), page ∉ s.pl.refreshes → page ∉ s.pl.restamps →
      exec (.refresh page) s = .next s ∧ exec (.restamp page) s = .next s))

/-- Drift state: a tick in Run or Idle advances every group's state by its factor and notes the beat; a save copies the
live groups and dies; a cone capture walks to the next point after the last one, round robin, and records it in
flight; the masks that a link delivers stand in its plane's cone register; masks of a stripe that is no longer open,
full or a victim drop the capture. The cone sweep after lost time takes the stripes that reads wait for first, then
the lowest: the stripe's lag and firing time are found from its cones and it is no longer unswept; the reads that
waited for it go on; when no stripe is unswept any more, the sweep ends with its event. -/
def Obligations.DriftAndSweeps : Prop :=
  ((∀ s : State, awake s = true → ∃ t, exec .driftTick s = .next t ∧
      t = { s with dr := { s.dr with groups := t.dr.groups, lastUpdate := s.clk.beat } } ∧
      (∀ n ∈ pkgLinks s, ∀ q < 5, dieGroup t n q = tickGroup (groupFactor s n q) (dieGroup s n q))) ∧
    (∀ s : State, awake s = true → exec .driftStateSave s = .next { s with dr := { s.dr with
      savedGroups := s.dr.groups, savedDies := s.dr.dies, savedAt := s.clk.seconds } }) ∧
    (∀ (s : State) (r : Rank) (p : Nat × Nat), driftLoopEn s = true → awake s = true →
      (((capturePoints s r.val).filter fun x => (tget (0, 0) s.dr.walk r.val).1 < x.1 ||
        ((tget (0, 0) s.dr.walk r.val).1 = x.1 && (tget (0, 0) s.dr.walk r.val).2 < x.2)) ++ capturePoints s r.val).head? = some p →
      exec (.coneCapture r) s = .next { s with dr := { s.dr with
        walk := tset (0, 0) s.dr.walk r.val p, inFlight := s.dr.inFlight ++ [{ rank := r.val, bs := p.1, group := p.2 }] } }) ∧
    (∀ (s : State) (r : Rank), driftLoopEn s = false → exec (.coneCapture r) s = .next s) ∧
    (∀ (s : State) (l : LinkNo) (die : DieNo) (up down : BitVec 64) (c : Capture),
      s.dr.inFlight.find? (fun c => c.rank = l.val / 18 && dieFor s l.val (bsDie c.bs) = die.val && l.val ∉ c.seen) = some c →
      bsState s c.bs ≠ .full → bsState s c.bs ≠ .open → bsState s c.bs ≠ .victim →
      exec (.coneMasks l die up down) s = .next { s with dr := { s.dr with inFlight := s.dr.inFlight.erase c } }) ∧
    (∀ (s : State) (l : LinkNo) (die : DieNo) (up down : BitVec 64) (c : Capture),
      s.dr.inFlight.find? (fun c => c.rank = l.val / 18 && dieFor s l.val (bsDie c.bs) = die.val && l.val ∉ c.seen) = some c →
      (bsState s c.bs = .full ∨ bsState s c.bs = .open ∨ bsState s c.bs = .victim) → l.val ∈ inServiceLinks s c.bs →
      ∃ t, exec (.coneMasks l die up down) s = .next t ∧
        t.ln = { s.ln with coneRegs := tset (0, 0) s.ln.coneRegs ((l.val * 17 + die.val) * 4 + bsPlane c.bs) (up, down) } ∧
        t.dr.captures = if c.seen = [] then satAdd 32 s.dr.captures 1 else s.dr.captures)) ∧
  ((∀ (s : State) (bs : StripeNo) (sums : List (Nat × Nat × Int)), s.dr.sweepActive = true → (stripe s bs.val).unswept = true →
      lostLinks s (bsRank bs.val) < 3 → nextSweep s (bsRank bs.val) = some bs.val →
      ∃ t, exec (.stripeSweep bs sums) s = .next t ∧ (stripe t bs.val).unswept = false ∧
        (stripe t bs.val).state = (stripe s bs.val).state ∧ (stripe t bs.val).wls = (stripe s bs.val).wls ∧
        (stripe t bs.val).lag = (if ((stripe s bs.val).wls - 1) / 1024 = 0 then 0
          else ageBin (max (th (probe sums 0) - th (probe sums (((stripe s bs.val).wls - 1) / 1024))) 1)) ∧
        t.dr.swept = s.dr.swept + 1 ∧ (∀ r ∈ t.hq.reads, r.stage ≠ .cones bs.val) ∧
        (t.dr.sweepActive = true ↔ ∃ x ∈ t.pl.stripes, x.2.unswept = true)) ∧
    (∀ (s : State) (r bs : Nat), (tget [] s.dr.sweepFront r).find? (fun b => b ∈ unswept s r) = some bs → nextSweep s r = some bs) ∧
    (∀ (s : State) (r bs : Nat), (∀ b ∈ tget [] s.dr.sweepFront r, b ∉ unswept s r) → nextSweep s r = some bs →
      bs ∈ unswept s r ∧ ∀ b ∈ unswept s r, bs ≤ b) ∧
    (∀ (s : State) (bs : StripeNo) (sums : List (Nat × Nat × Int)), s.dr.sweepActive = false →
      exec (.stripeSweep bs sums) s = .next s))

/-- The scrubber: a pass that may start counts the slots of its stripes and sets its step from its period (4 for the pass
after a dirty shutdown); a visit of a slot whose page is gone counts it and goes on, one of a valid slot scrubs its
column groups; a pass that has not ended within its period is an overrun, counted, reported and started again. Package
alerts and rebuilds: the details of an alert that names a die fail that die, with its event, and clear the alert;
details that name none only clear it, and details that four attempts do not bring leave it; a block stripe rebuilt in
place is entered in the rebuild bitmap of its die or link, a full glaze stripe with its cycle counted, and one at
20,000 cycles is reclaimed instead. -/
def Obligations.ScrubsAlertsAndRebuilds : Prop :=
  ((∀ (s : State) (r : Rank) (bisque : Bool), mediaRuns s = true → r.val ∈ s.mp.pop → (scrubPass s r.val bisque).running = false →
      scrubEn s = true → (bisque = true → r.val ∉ s.ecc.dirtyDue) →
      exec (.scrubPassStart r bisque) s = .next (updPass s r.val bisque fun _ => {
        running := true
        total := ((scrubStripes s r.val bisque).map fun x => x.2 * slotsPerLine bisque + (scrubStamps s bisque x.1).length).sum
        step := max ((if bisque then scrubBisqueDays s else scrubGlazeDays s) * 86400 * 16000000 /
          max ((scrubStripes s r.val bisque).map fun x => x.2 * slotsPerLine bisque + (scrubStamps s bisque x.1).length).sum 1) 4
        start := s.clk.beat })) ∧
    (∀ (s : State) (r : Rank), mediaRuns s = true → r.val ∈ s.mp.pop → (scrubPass s r.val true).running = false →
      r.val ∈ s.ecc.dirtyDue →
      ∃ t, exec (.scrubPassStart r true) s = .next t ∧ (scrubPass t r.val true).step = 4 ∧ (scrubPass t r.val true).dirty = true ∧
        (scrubPass t r.val true).running = true ∧ r.val ∉ t.ecc.dirtyDue) ∧
    (∀ (s : State) (r : Rank) (bisque : Bool) (slot : Nat) (found : List (Nat × Nat × Sensed)), mediaRuns s = true →
      (scrubPass s r.val bisque).running = true → passHas s r.val bisque slot = true → bsState s (slotBs slot) ≠ .system →
      slotWl slot ∉ scrubStamps s bisque (slotBs slot) → slotIdent s slot = none →
      ∃ t, exec (.scrubVisit r bisque slot found) s = .next t ∧
        (scrubPass t r.val bisque).visited = (scrubPass s r.val bisque).visited + 1 ∧
        (scrubPass t r.val bisque).next = slot + 1 ∧
        (scrubPass t r.val bisque).running = !passEnds s r.val bisque slot ∧
        t = { s with ecc := { s.ecc with passes := t.ecc.passes }, ev := { s.ev with mons := t.ev.mons } }) ∧
    (∀ (s u : State) (r : Rank) (bisque : Bool) (slot page : Nat), mediaRuns s = true →
      (scrubPass s r.val bisque).running = true → passHas s r.val bisque slot = true → bsState s (slotBs slot) ≠ .system →
      slotWl slot ∉ scrubStamps s bisque (slotBs slot) → slotIdent s slot = some page →
      u = touchSeg (fetchSeg s page) (segNo page) → namesSlot u slot bisque page = true →
      ∃ t, exec (.scrubVisit r bisque slot []) s = .next t ∧
        (scrubPass t r.val bisque).visited = (scrubPass s r.val bisque).visited + 1 ∧ (scrubPass t r.val bisque).next = slot + 1 ∧
        t = updPass (count ((List.range 4).foldl (fun s k => scrubGroup s slot page bisque [] k) u) (1 + r.val) 0x10B 0xFF 1)
          r.val bisque fun _ => scrubPass t r.val bisque) ∧
    (∀ (s : State) (r : Rank) (bisque : Bool), (scrubPass s r.val bisque).running = true → (scrubPass s r.val bisque).dirty = false →
      (scrubPass s r.val bisque).start + (if bisque then scrubBisqueDays s else scrubGlazeDays s) * 86400 * 16000000 < s.clk.beat →
      ∃ t, exec (.scrubOverrun r bisque) s = .next t ∧ t.ecc.overruns = satAdd 16 s.ecc.overruns 1) ∧
    (∀ (s : State) (r : Rank) (bisque : Bool), (scrubPass s r.val bisque).running = false →
      exec (.scrubOverrun r bisque) s = .next s)) ∧
  ((∀ (s u : State) (l : LinkNo) (details : BusTries (Option DieNo)), (link s l.val).alert = true →
      (link s l.val).state.serves = true →
      u = busRead { s with freeCtr := s.freeCtr + 2 } l.val (Config.freeWord s.freeCtr).toNat
        (Config.freeWord (s.freeCtr + 1)).toNat (busAttempts details) →
      (busAnswer details = some none →
        exec (.packageAlertDetails l details) s = .next (updLink u l.val fun l => { l with alert := false })) ∧
      (∀ d : DieNo, busAnswer details = some (some d) →
        exec (.packageAlertDetails l details) s = .next (failDie (updLink u l.val fun l => { l with alert := false }) l.val d.val)) ∧
      (busAnswer details = none → exec (.packageAlertDetails l details) s = .next u)) ∧
    (∀ (s : State) (l : LinkNo) (details : BusTries (Option DieNo)), (link s l.val).alert = false →
      exec (.packageAlertDetails l details) s = .next s) ∧
    (∀ (s : State) (n d : Nat), d < 16 → d ∉ (linkWear s n).erased → (linkWear s n).subst = false →
      (pkgOf s n).dieGood.getLsbD 16 = true →
      (linkWear (failDie s n d) n).subst = true ∧ (linkWear (failDie s n d) n).substDie = d ∧
        (linkWear (failDie s n d) n).dieActive = true ∧ (linkWear (failDie s n d) n).dieBits = []) ∧
    (∀ (s : State) (n d : Nat), d < 16 → ((linkWear s n).subst = true ∨ (pkgOf s n).dieGood.getLsbD 16 = false) →
      d ∈ (linkWear (failDie s n d) n).erased) ∧
    (∀ (s : State) (l : LinkNo) (bs : StripeNo), mediaRuns s = true → (linkWear s l.val).rebuilding = true →
      (link s l.val).state.serves = true → bsRank bs.val = l.val / 18 → nextRebuild s (targetLeft s l.val false) = some bs.val →
      (stripe s bs.val).bisque = true →
      targetLeft (updLinkWear s l.val fun w => { w with linkBits := addNew w.linkBits bs.val }) l.val false ≠ [] →
      exec (.rebuildStripeDone l none bs) s = .next (updLinkWear s l.val fun w => { w with linkBits := addNew w.linkBits bs.val })) ∧
    (∀ (s : State) (l : LinkNo) (bs : StripeNo), mediaRuns s = true → (linkWear s l.val).rebuilding = true →
      (link s l.val).state.serves = true → bsRank bs.val = l.val / 18 → nextRebuild s (targetLeft s l.val false) = some bs.val →
      (stripe s bs.val).bisque = false → (stripe s bs.val).state = .full → 20000 ≤ (stripe s bs.val).cycles →
      (rankPl s (l.val / 18)).victim = none →
      exec (.rebuildStripeDone l none bs) s = .next (makeVictim s (l.val / 18) bs.val)) ∧
    (∀ (s : State) (l : LinkNo) (die : Option (Fin 16)) (bs : StripeNo), mediaRuns s = false →
      exec (.rebuildStripeDone l die bs) s = .next s))

/-- Link training: a position where a signal appears leaves Empty or Lost for TRAINING, Equalise first; Equalise records
the taps and the eye, Align accepts a round trip of at most 64 cycles, Check, after its 16,384 beats, leads to
INVENTORY; a step over its limit starts the sequence again twice and loses the link with cause 4 the third time. A
descriptor whose two copies differ or fail a check of R76, or that four attempts on the management bus do not bring,
refuses the package; one that passes is kept and all reference sets are queued for its planes, and once they are
loaded the package of a running rank is accepted and enters service. -/
def Obligations.LinksTrain : Prop :=
  (∀ (s : State) (l : LinkNo), linksRun s = true → ((link s l.val).state = .empty ∨ (link s l.val).state = .lost) →
    exec (.linkDetectPoll l true) s = .next (updLink s l.val fun k => { k with
      state := .training, signal := true, step := 1, stepAt := s.clk.beat, attempts := 1, retrains := satAdd 16 k.retrains 1 })) ∧
  (∀ (s : State) (l : LinkNo) (rt ffe eyeV eyeH : Nat), linksRun s = true → (link s l.val).state = .training →
    (link s l.val).step = 1 →
    exec (.trainingStepDone l rt ffe eyeV eyeH) s = .next (updLink s l.val fun k => { k with
      step := 2, stepAt := s.clk.beat, ffe := ffe % 2 ^ 15, eyeV := eyeV % 65536, eyeH := eyeH % 65536
      eyePrev := none, telEye := none, eqTap := none, ffePrev := none, eqDue := [] })) ∧
  (∀ (s : State) (l : LinkNo) (rt ffe eyeV eyeH : Nat), linksRun s = true → (link s l.val).state = .training →
    (link s l.val).step = 2 → rt ≤ 64 →
    exec (.trainingStepDone l rt ffe eyeV eyeH) s = .next (updLink s l.val fun k => { k with
      step := 3, stepAt := s.clk.beat, roundTrip := rt })) ∧
  (∀ (s : State) (l : LinkNo) (rt ffe eyeV eyeH : Nat), linksRun s = true → (link s l.val).state = .training →
    (link s l.val).step = 2 → 64 < rt → exec (.trainingStepDone l rt ffe eyeV eyeH) s = .next s) ∧
  (∀ (s : State) (l : LinkNo) (rt ffe eyeV eyeH : Nat), linksRun s = true → (link s l.val).state = .training →
    (link s l.val).step = 3 → (link s l.val).stepAt + 16384 ≤ s.clk.beat →
    ∃ t, exec (.trainingStepDone l rt ffe eyeV eyeH) s = .next t ∧ (link t l.val).state = .inventory ∧
      (link t l.val).step = 4 ∧ (link t l.val).trainedAt = s.clk.beat ∧
      t = { s with ln := { s.ln with links := t.ln.links } }) ∧
  (∀ (s : State) (l : LinkNo), linksRun s = true → (link s l.val).state = .training → (link s l.val).step ≠ 0 →
    (link s l.val).stepAt + stepLimit (link s l.val).step ≤ s.clk.beat → (link s l.val).attempts < 3 →
    ∃ t, exec (.trainingTimeout l) s = .next t ∧ (link t l.val).state = .training ∧ (link t l.val).step = 1 ∧
      (link t l.val).attempts = (link s l.val).attempts + 1 ∧ (link t l.val).stepAt = s.clk.beat ∧
      (link t l.val).retrains = satAdd 16 (link s l.val).retrains 1 ∧
      t = { s with dr := { s.dr with reloads := s.dr.reloads.filter fun x => x.1 ≠ l.val }, ln := { s.ln with links := t.ln.links } }) ∧
  (∀ (s : State) (l : LinkNo), linksRun s = true → (link s l.val).state = .training → (link s l.val).step ≠ 0 →
    (link s l.val).stepAt + stepLimit (link s l.val).step ≤ s.clk.beat → 3 ≤ (link s l.val).attempts → s.ln.onlining = [] →
    ∃ t, exec (.trainingTimeout l) s = .next t ∧ (link t l.val).state = .lost ∧ (link t l.val).cause = 4 ∧
      ReportsOnly (updLink s l.val fun k => { k with state := .lost, cause := 4 }) t) ∧
  (∀ (s : State) (l : LinkNo) (a b : List Byte) (bus : BusTries (List Byte)) (off : Nat), (link s l.val).state = .inventory →
    (link s l.val).step = 4 → busAnswer bus = some b → descFault a b = some off → s.ln.onlining = [] →
    ∃ t, exec (.packageInventoryDone l a bus) s = .next t ∧ (link t l.val).state = .refused ∧
      ReportsOnly (updLink (busRead s l.val 0 8192 (busAttempts bus)) l.val fun k => { k with
        state := .refused, cause := 5, pkg := none }) t) ∧
  (∀ (s : State) (l : LinkNo) (a : List Byte) (bus : BusTries (List Byte)), (link s l.val).state = .inventory →
    (link s l.val).step = 4 → busAnswer bus = none → s.ln.onlining = [] →
    ∃ t, exec (.packageInventoryDone l a bus) s = .next t ∧ (link t l.val).state = .refused ∧ (link t l.val).pkg = none) ∧
  (∀ (s : State) (l : LinkNo) (a b : List Byte) (bus : BusTries (List Byte)), (link s l.val).state = .inventory →
    (link s l.val).step = 4 → busAnswer bus = some b → descFault a b = none →
    ∃ t, exec (.packageInventoryDone l a bus) s = .next t ∧ (link t l.val).pkg = some (parsePkg a) ∧ (link t l.val).step = 5 ∧
      (link t l.val).state = .inventory ∧ (∀ q < 5, (l.val, q, 0) ∈ t.dr.reloads) ∧
      (∀ d < 17, (l.val, 8 + d, 0) ∈ t.dr.reloads ∧ (l.val, 32 + d, 0) ∈ t.dr.reloads)) ∧
  (∀ (s : State) (n : Nat), n / 18 ∈ s.mp.pop → 12 ≤ s.pwr.step → (link s n).state = .inventory → (link s n).step = 5 →
    setsLoading s n = false → s.ln.onlining = [] →
    (link (acceptPackage s n) n).state.serves = true ∧
      (link (acceptPackage s n) n).recordedSerial = some (pkgOf s n).serial ∧ (link (acceptPackage s n) n).step = 0)

/-- A link's frames: one a beat, in which the work entries planned move on to the batch and the batch to execution, and a
pending NAK is sent once and cleared; a wrong beat tag is counted and a second in a row loses the link with cause 3; a
failed header check asks for a replay and a second in a row loses the link with cause 1; a good frame takes RXERR, the
telemetry word, the returned slots and the DONE mask; the eye is re-evaluated into the link's record and an opening
under 15 percent starts a retrain with cause 8. A link leaves: loss of signal loses a serving link with cause 2 and
link-down, and empties one that is refused; a draining link whose programs have ended becomes REMOVABLE with its
event, its other work returned; the firmware's work unit joins the queue with its beat when the core that submits it
runs in a role that serves the rank. -/
def Obligations.LinkFramesAndLosses : Prop :=
  ((∀ (s : State) (l : LinkNo), framed (link s l.val) = true → awake s = true → (link s l.val).frameAt ≠ some s.clk.beat →
      ∃ t, exec (.frameStart l) s = .next t ∧ (link t l.val).state = (link s l.val).state ∧
        (link t l.val).executed = (link s l.val).executing ∧ (link t l.val).executing = (link s l.val).batched ∧
        (link t l.val).batched = (link s l.val).planned ∧ (link t l.val).planned = [] ∧ (link t l.val).nak = false ∧
        (link t l.val).frameAt = some s.clk.beat ∧
        (link t l.val).replays = (if (link s l.val).nak then satAdd 16 (link s l.val).replays 1 else (link s l.val).replays) ∧
        t.mp = s.mp ∧ t.sag = s.sag ∧ t.pl = s.pl) ∧
    (∀ (s : State) (l : LinkNo), framed (link s l.val) = true → awake s = true → (link s l.val).frameAt = some s.clk.beat →
      exec (.frameStart l) s = .next s) ∧
    (∀ (s : State) (l : LinkNo) (f : RawFrame), framed (link s l.val) = true → awake s = true → (readUp f).hdrOk = true →
      (readUp f).btag ≠ s.clk.beat % 32 → (link s l.val).consecTag = 0 →
      exec (.upstreamFrame l f) s = .next (updLink s l.val fun l => { l with consecHdr := 0, consecTag := l.consecTag + 1 })) ∧
    (∀ (s : State) (l : LinkNo) (f : RawFrame), (link s l.val).state.serves = true → awake s = true → (readUp f).hdrOk = true →
      (readUp f).btag ≠ s.clk.beat % 32 → 1 ≤ (link s l.val).consecTag →
      exec (.upstreamFrame l f) s = .next (linkLost
        (updLink s l.val fun l => { l with consecHdr := 0, consecTag := l.consecTag + 1 }) l.val 3)) ∧
    (∀ (s : State) (l : LinkNo) (f : RawFrame), (link s l.val).state.serves = true → awake s = true → (readUp f).hdrOk = false →
      1 ≤ (link s l.val).consecHdr → exec (.upstreamFrame l f) s = .next (linkLost (headerFailed s l.val) l.val 1)) ∧
    (∀ (s : State) (n : Nat), framed (link s n) = true → nakSent s (link s n) = false →
      (link (headerFailed s n) n).nak = true ∧ (link (headerFailed s n) n).hdrFail = satAdd 16 (link s n).hdrFail 1 ∧
        (link (headerFailed s n) n).consecHdr = (link s n).consecHdr + 1) ∧
    (∀ (s a b c d : State) (l : LinkNo) (f : RawFrame) (u : UpFrame), u = readUp f → framed (link s l.val) = true → awake s = true →
      u.hdrOk = true → u.btag = s.clk.beat % 32 →
      a = rxErrors (updLink s l.val fun l => { l with consecHdr := 0, consecTag := 0 }) l.val u.rxerr →
      b = telemetry a l.val (u.telIndex % 1024) u.telValue →
      c = returnedSlots (if u.alert then updLink b l.val fun l => { l with alert := true } else b) l.val u →
      d = acceptPackage (doneMask c l.val u.done) l.val → (link d l.val).state.serves = true → windowFull d l.val = false →
      (link s l.val).consecTag = 0 → exec (.upstreamFrame l f) s = .next d) ∧
    (∀ (s u : State) (l : LinkNo) (ffe eyeV eyeH : Nat), (link s l.val).state.serves = true → awake s = true →
      u = updLink (adjustDevice (adjustPackage s l.val (eyeH % 65536)) l.val ffe) l.val (fun k => { k with
        eyeV := eyeV % 65536, eyePrev := some (eyeH % 65536), eyeH := eyeH % 65536 }) →
      (15 * 1024 ≤ eyeH % 65536 * 100 → exec (.eqEvaluation l ffe eyeV eyeH) s = .next u) ∧
      (eyeH % 65536 * 100 < 15 * 1024 → exec (.eqEvaluation l ffe eyeV eyeH) s = .next (startRetrain u l.val 8))) ∧
    (∀ (s : State) (n h tap v : Nat), below h (link s n).eyePrev = true → (link s n).eqTap = some (tap, v) →
      (link (adjustPackage s n h) n).eqDue = (link s n).eqDue ++ [(tap, v)] ∧ (link (adjustPackage s n h) n).eqTap = none) ∧
    (∀ (s : State) (l : LinkNo) (f : RawFrame), framed (link s l.val) = false →
      exec (.frameStart l) s = .next s ∧ exec (.upstreamFrame l f) s = .next s)) ∧
  ((∀ (s : State) (l : LinkNo), ((link s l.val).state = .active ∨ (link s l.val).state = .rebuilding) → s.ln.onlining = [] →
      ∃ t, exec (.lossOfSignal l) s = .next t ∧ (link t l.val).state = .lost ∧ (link t l.val).cause = 2 ∧
        (link t l.val).lostSignal = true ∧ (link t l.val).planned = [] ∧ (link t l.val).batched = []) ∧
    (∀ (s : State) (l : LinkNo), (link s l.val).state = .refused → s.ln.onlining = [] →
      exec (.lossOfSignal l) s = .next (updLink s l.val fun l => { l with state := .empty, signal := false })) ∧
    (∀ (s : State) (n cause : Nat), ∃ u, linkLost s n cause = unparkEnds u (n / 18) ∧
      ReportsOnly (leaveService s n .lost cause) u) ∧
    (∀ (s : State) (l : LinkNo), awake s = true → (link s l.val).state = .draining → s.ln.removing = [] →
      ∃ t, exec (.linkRemovable l) s = .next t ∧ (link t l.val).state = .removable ∧
        ReportsOnly (unparkEnds (updLink (returnWork s l.val) l.val fun l => { l with state := .removable }) (l.val / 18)) t) ∧
    (∀ (s : State) (l : LinkNo), (link s l.val).state ≠ .draining → exec (.linkRemovable l) s = .next s) ∧
    (∀ (s : State) (w : WorkUnit), unitOk w = true → awake s = true → s.pwr.breath = none → s.wr.failed.getLsbD w.core = false →
      coreServes s w = true →
      exec (.workUnitSubmit w) s = .next (count { s with ln := { s.ln with work := s.ln.work ++ [(s.clk.beat, w)] } } 65 0x203 0xFF 1)) ∧
    (∀ (s : State) (w : WorkUnit), unitOk w = false ∨ coreServes s w = false → exec (.workUnitSubmit w) s = .next s))

/-- Host resets and the UCIe link: a host reset turns CXL.mem off, forgets the requests that wait, ends IDE and restores
the pipes, and a Function Level Reset keeps the HDM decoders (log 43) where the others clear them; a retrain of an
active link leaves active, counts, and raises its event; done, the waiting responses are sent in order; 16,000 beats
after it left active the link is down, its reads and responses are gone, and the host side is reset; a training
attempt brings it up only with all four modules able to train; a replay is counted. A lane repair within a module's
four per direction records the lane, keeps the record and retrains; the fifth fails the module, exhausts the spares
and takes the link down. -/
def Obligations.HostLinkAndLanes : Prop :=
  ((∀ (s : State) (k : HostResetKind), hostOpen s = true →
      ∃ t, exec (.hostReset k) s = .next t ∧ t.hl.memEnable = false ∧ t.hq.creditsOn = false ∧ t.hq.queue = [] ∧ t.hq.holds = [] ∧
        t.hq.rdCredits = 0 ∧ t.hq.wrCredits = 0 ∧ t.hq.reads = s.hq.reads ∧ t.ig.ideActive = 0#2 ∧ t.hl.msix = [] ∧
        t.hl.hdm = (if k = .flr then s.hl.hdm else []) ∧ (∀ c ∈ t.pp.comps, c.held = false)) ∧
    (∀ (s : State) (k : HostResetKind), hostOpen s = false → exec (.hostReset k) s = .next s) ∧
    (∀ (s : State) (c : RetrainCause), ioOpen s = true → s.hl.state = .active → (∀ m tx lane, c ≠ .laneRepair m tx lane) →
      ∃ t, exec (.ucieRetrain c) s = .next t ∧ t.hl.state = .retraining ∧ t.hl.leftActive = some s.clk.beat ∧
        ReportsOnly { s with hl := { s.hl with
          state := .retraining, leftActive := some s.clk.beat, retrains := satAdd 16 s.hl.retrains 1 } } t) ∧
    (∀ (s : State) (c : RetrainCause), s.hl.state ≠ .active → (∀ m tx lane, c ≠ .laneRepair m tx lane) →
      exec (.ucieRetrain c) s = .next s) ∧
    (∀ s : State, s.hl.state = .retraining →
      exec .ucieRetrainDone s = .next { s with
        hl := { s.hl with state := .active, leftActive := none }
        hq := { s.hq with sent := s.hq.sent ++ s.hq.egress, egress := [] } }) ∧
    (∀ (s : State) (b : Nat), s.hl.leftActive = some b → s.hl.state = .retraining → b + 16000 ≤ s.clk.beat →
      ∃ t, exec .linkDown s = .next t ∧ t.hl.state = .down ∧ t.hl.modUp = 0 ∧ t.hl.memEnable = false ∧ t.hl.hdm = [] ∧
        t.hl.linkDowns = satAdd 16 s.hl.linkDowns 1 ∧ t.hq.reads = [] ∧ t.hq.egress = [] ∧ t.hq.queue = [] ∧ t.mp = s.mp ∧
        t.sag = s.sag) ∧
    (∀ (s : State) (b : Nat), s.hl.leftActive = some b → s.clk.beat < b + 16000 → exec .linkDown s = .next s) ∧
    (∀ s : State, awake s = true → 10 ≤ s.pwr.step → (s.hl.state = .down ∨ s.hl.state = .training) →
      (∀ m < 4, (tget ({} : ModRec) s.hl.mods m).failed = false) →
      exec (.linkTrainRetry true) s = .next { s with hl := { s.hl with state := .active, modUp := 0xF, leftActive := none } }) ∧
    (∀ s : State, awake s = true → 10 ≤ s.pwr.step → (s.hl.state = .down ∨ s.hl.state = .training) →
      exec (.linkTrainRetry false) s = .next { s with hl := { s.hl with state := .training } }) ∧
    (∀ s : State, s.hl.state = .active →
      exec .ucieFlitCrcFail s = .next { s with hl := { s.hl with
        replays := satAdd 32 s.hl.replays 1, rasCorrectable := s.hl.rasCorrectable + 1 } })) ∧
  ((∀ (s : State) (m : Fin 4) (tx : Bool) (lane : Fin 64), ioOpen s = true → s.hl.state = .active →
      (if tx then (tget {} s.hl.mods m.val).txUsed else (tget {} s.hl.mods m.val).rxUsed) < 4 →
      ∃ t, exec (.ucieRetrain (.laneRepair m tx lane)) s = .next t ∧ t.hl.state = .retraining ∧
        (tx = true → (tget {} t.hl.mods m.val).txUsed = (tget {} s.hl.mods m.val).txUsed + 1 ∧ (tget {} t.hl.mods m.val).lastTx = lane.val) ∧
        (tx = false → (tget {} t.hl.mods m.val).rxUsed = (tget {} s.hl.mods m.val).rxUsed + 1 ∧ (tget {} t.hl.mods m.val).lastRx = lane.val)) ∧
    (∀ (s : State) (m : Fin 4) (tx : Bool) (lane : Fin 64), ioOpen s = true →
      4 ≤ (if tx then (tget {} s.hl.mods m.val).txUsed else (tget {} s.hl.mods m.val).rxUsed) →
      ∃ t, exec (.ucieRetrain (.laneRepair m tx lane)) s = .next t ∧ t.hl.state = .down ∧ (tget {} t.hl.mods m.val).failed = true))

/-- Enables, decoders and vectors: Mem_Enable closes the key window; a decoder commit is checked, locked once locked, and
with Mem_Enable set waits for a boundary; an unmasked vector sends one message for a pending bit; the GPF phases end
at once where nothing is held, and phase 2 makes the last breath due. DOE, SPDM and IDE: the CDAT entry of a handle is
answered; a measurement covers the regions, the keys and the system generation; IDE keys are accepted and streams
activated only in the key window, stopped at any time; an integrity failure of an active stream stops CXL.mem
admission and raises its event. The bits' places in the standards' registers and the CDAT layout are the model's (logs
5 and 44). -/
def Obligations.EnablesDecodersAndIde : Prop :=
  ((∀ s : State, hostOpen s = true → ∃ t, exec .memEnableSet s = .next t ∧ t.hl.memEnable = true ∧ t.ig.keyWindow = false) ∧
    (∀ (s : State) (n : Fin 4) (x : HdmSetup), hostOpen s = true → (tget ({} : Hdm) s.hl.hdm n.val).locked = false →
      s.hl.memEnable = false →
      exec (.hdmDecoderCommit n x) s = .next { s with hl := { s.hl with hdm := tset {} s.hl.hdm n.val (commitDecoder s n.val x) } }) ∧
    (∀ (s : State) (n : Fin 4) (x : HdmSetup), hostOpen s = true → (tget ({} : Hdm) s.hl.hdm n.val).locked = false →
      s.hl.memEnable = true →
      exec (.hdmDecoderCommit n x) s =
        .next { s with hl := { s.hl with hdmPending := s.hl.hdmPending ++ [(n.val, commitDecoder s n.val x)] } }) ∧
    (∀ (s : State) (n : Fin 4) (x : HdmSetup), (tget ({} : Hdm) s.hl.hdm n.val).locked = true →
      exec (.hdmDecoderCommit n x) s = .next s) ∧
    (∀ (s : State) (n : Nat) (x : HdmSetup), (commitDecoder s n x).committed = true →
      x.pos < x.ways ∧ x.hpaBase.toNat % (2 ^ 28 * x.ways) = 0 ∧ x.size.toNat % (2 ^ 28 * x.ways) = 0 ∧
      (commitDecoder s n x).dpaBase + x.size.toNat / x.ways ≤ s.mp.capGib * 2 ^ 30) ∧
    (∀ (s : State) (v : Fin 2048), hostOpen s = true → ∃ t, exec (.msixUnmask v) s = .next t ∧
      t = { s with hl := { s.hl with msix := t.hl.msix } } ∧
      (tget {} t.hl.msix v.val).masked = false ∧ (tget {} t.hl.msix v.val).pending = false ∧
      (tget {} t.hl.msix v.val).sent =
        (tget {} s.hl.msix v.val).sent + if (tget {} s.hl.msix v.val).pending then 1 else 0) ∧
    (∀ s : State, hostOpen s = true → exec .gpfPhase1 s = .next { s with hl := { s.hl with gpf1Done := true } }) ∧
    (∀ s : State, hostOpen s = true → ready s = true → s.pwr.limited = false →
      exec .gpfPhase2 s = .next { s with hl := { s.hl with gpfWaiting := true, gpfDone := false } }) ∧
    (∀ s : State, hostOpen s = true → ready s = false → exec .gpfPhase2 s = .next { s with hl := { s.hl with gpfDone := true } })) ∧
  ((∀ (s : State) (h : Nat), hostOpen s = true →
      exec (.doeCdat h) s = .next { s with hl := { s.hl with doeReply := cdatEntry s h } }) ∧
    (∀ (s : State) (code nonce : Nat), hostOpen s = true →
      exec (.spdmRequest code nonce) s = .next { s with hl := { s.hl with
        spdm := some (code, Config.spdmReply code (nonce + 2 ^ 256 * (Config.measurement 4 (measured s)).toNat)) } }) ∧
    (∀ (s : State) (k : Fin 2), hostOpen s = true → s.ig.keyWindow = true →
      exec (.ideKmKeyProg k) s = .next { s with ig := { s.ig with ideProgrammed := s.ig.ideProgrammed ||| (1#2 <<< k.val) } }) ∧
    (∀ (s : State) (k : Fin 2), hostOpen s = true → s.ig.keyWindow = true → s.ig.ideProgrammed.getLsbD k.val = true →
      exec (.ideKmKSetGo k) s = .next { s with ig := { s.ig with ideActive := s.ig.ideActive ||| (1#2 <<< k.val) } }) ∧
    (∀ (s : State) (k : Fin 2), s.ig.keyWindow = false →
      exec (.ideKmKeyProg k) s = .next s ∧ exec (.ideKmKSetGo k) s = .next s) ∧
    (∀ (s : State) (k : Fin 2), hostOpen s = true →
      exec (.ideKmKSetStop k) s =
        .next { s with ig := { s.ig with ideActive := s.ig.ideActive &&& (~~~ (1#2 <<< k.val) : BitVec 2) } }) ∧
    (∀ (s : State) (k : Fin 2), s.ig.ideActive.getLsbD k.val = true → awake s = true →
      ∃ t, exec (.ideIntegrityFailure k) s = .next t ∧ t.ig = { s.ig with ideStop := true } ∧ memOpen t = false) ∧
    (∀ (s : State) (k : Fin 2), s.ig.ideActive.getLsbD k.val = false → exec (.ideIntegrityFailure k) s = .next s))

/-- Mailbox commands that only answer: with the mailbox free each replies Success with its payload, the doorbell clear and
vector 0 signalled, and the rest of the device is as it was; where the stage of startup does not allow a command it
replies Busy, an opcode outside the table Unsupported. (The payload layouts and return codes are those of the outside
standard as the model takes them, log 5.) -/
def Obligations.MailboxAnswers : Prop :=
  (∀ (s : State), mailboxFree s → ∀ (log : Fin 4) (count : Nat), ∃ p, exec (.cxlGetEventRecords log count) s = .next (mboxReply s 0x0100 0 p)) ∧
  (∀ (s : State), mailboxFree s →
    exec .cxlGetEventInterruptPolicy s = .next (mboxReply s 0x0102 0 (s.hl.evPolicy.map (BitVec.ofNat 8)))) ∧
  (∀ (s : State), mailboxFree s → ∃ p, exec .cxlGetFwInfo s = .next (mboxReply s 0x0200 0 p)) ∧
  (∀ (s : State), mailboxFree s →
    exec .cxlGetTimestamp s = .next (mboxReply s 0x0300 0 (leBytes 8 (BitVec.ofInt 64 (hostTime s)).toNat))) ∧
  (∀ (s : State), mailboxFree s → ∃ p, exec .cxlGetSupportedLogs s = .next (mboxReply s 0x0400 0 p)) ∧
  (∀ (s : State) (n offset length : Nat), mailboxFree s → n < 4 → length ≤ 65536 →
    ∃ l, cxlLogBytes s (logUuid n) = some l ∧ (n ≠ 0 → l = vendorLog s n) ∧
      exec (.cxlGetLog (logUuid n) offset length) s = .next (mboxReply s 0x0401 0 (logPiece l offset length))) ∧
  (∀ (s : State) (uuid offset length : Nat), mailboxFree s → (∀ n < 4, logUuid n ≠ uuid) →
    exec (.cxlGetLog uuid offset length) s = .next (mboxReply s 0x0401 2 [])) ∧
  (∀ (s : State), mailboxFree s → ∃ p, exec .cxlIdentifyMemoryDevice s = .next (mboxReply s 0x4000 0 p) ∧
    p = identityBytes ++ leBytes 8 0 ++ leBytes 8 (4 * s.mp.capGib) ++ leBytes 8 0 ++ leBytes 8 (4 * s.mp.capGib) ++ leBytes 8 0 ++ leBytes 3 16384 ++
      leBytes 2 64) ∧
  (∀ (s : State), mailboxFree s → ∃ p, exec .cxlGetHealthInfo s = .next (mboxReply s 0x4200 0 p) ∧
    p.head? = some (BitVec.ofNat 8 (healthStatus s))) ∧
  (∀ (s : State), mailboxFree s →
    exec .cxlGetAlertConfig s =
      .next (mboxReply s 0x4201 0 (leBytes 1 s.hl.alertLife ++ leBytes 2 s.hl.alertTemp ++ leBytes 4 s.hl.alertCorr))) ∧
  (∀ (s : State), mailboxFree s → exec .cxlGetShutdownState s = .next (mboxReply s 0x4203 0 (((keepGet s 4).getD [0]).take 1))) ∧
  (∀ (s : State) (op : Nat), mailboxFree s → op ∉ mboxOpcodes →
    exec (.cxlMailboxUnsupported op) s = .next (mboxReply s op 3 [])) ∧
  (∀ (s : State) (op code : Nat) (p : List Byte), (mboxReply s op code p).hl.doorbell = false ∧
    (mboxReply s op code p).hl.reply = { opcode := op, code := code, payload := p } ∧
    mboxReply s op code p = { s with hl := { s.hl with
      doorbell := false, reply := { opcode := op, code := code, payload := p }, msix := (mboxReply s op code p).hl.msix } })

/-- Mailbox commands that set something: events are cleared (all, or the oldest), a policy of four settings is taken, the
host's time is set, the alert thresholds are taken, and the shutdown state is kept under key 4; an invalid input
changes nothing but the reply. Erases over the mailbox: Sanitize is queued and replied to as a background command,
Secure Erase is queued with the doorbell held until it completes; while an erase runs both reply Busy. -/
def Obligations.MailboxSetsAndErases : Prop :=
  ((∀ (s : State) (log : Fin 4) (all : Bool) (count : Nat), mailboxFree s →
      (all = true ∨ count ≤ (cxlLog s log.val).recs.length) →
      exec (.cxlClearEventRecords log all count) s = .next (mboxReply { s with hl := { s.hl with
        logs := tset {} s.hl.logs log.val { recs := if all then [] else (cxlLog s log.val).recs.drop count } } } 0x0101 0 [])) ∧
    (∀ (s : State) (log : Fin 4) (count : Nat), mailboxFree s → (cxlLog s log.val).recs.length < count →
      exec (.cxlClearEventRecords log false count) s = .next (mboxReply s 0x0101 2 [])) ∧
    (∀ (s : State) (l : List Nat), mailboxFree s → l.length = 4 → (∀ x ∈ l, x ≤ 1) →
      exec (.cxlSetEventInterruptPolicy l) s = .next (mboxReply { s with hl := { s.hl with evPolicy := l } } 0x0103 0 [])) ∧
    (∀ (s : State) (ts : BitVec 64), mailboxFree s →
      exec (.cxlSetTimestamp ts) s = .next (mboxReply (setHostTime s ts.toNat) 0x0301 0 [])) ∧
    (∀ (s : State) (life temp corr : Nat), mailboxFree s →
      exec (.cxlSetAlertConfig life temp corr) s = .next (mboxReply { s with hl := { s.hl with
        alertLife := life, alertTemp := temp, alertCorr := corr } } 0x4202 0 [])) ∧
    (∀ (s : State) (v : Byte), mailboxFree s →
      exec (.cxlSetShutdownState v) s = .next (mboxReply (keepPut s 4 [v]) 0x4204 0 []))) ∧
  ((∀ (s : State), mailboxFree s → s.hl.mboxBusy = none → eraseRuns s = false →
      exec .cxlSanitize s = .next (mboxReply { s with
        hl := { s.hl with mboxBusy := some 0x4400 }
        ig := { s.ig with erasesQueued := s.ig.erasesQueued ++ [(1, none)] } } 0x4400 1 [])) ∧
    (∀ (s : State), mailboxFree s → eraseRuns s = false →
      exec .cxlSecureErase s = .next { s with
        hl := { s.hl with doorbell := true, reply := { opcode := 0x4401, code := 1 } }
        ig := { s.ig with erasesQueued := s.ig.erasesQueued ++ [(0, none)] } }) ∧
    (∀ (s : State), mailboxFree s → eraseRuns s = true →
      exec .cxlSanitize s = .next (mboxReply s 0x4400 6 []) ∧ exec .cxlSecureErase s = .next (mboxReply s 0x4401 6 [])))

/-- Poison and scans over the mailbox: injecting into a line that has none enters it in the list and places its marker;
clearing writes the line in full; the list and the scan's results are read back, Get Scan Media Capabilities answers a
time that the rules do not state (free, log 8), a scan runs in the background; an address outside the device is
refused. -/
def Obligations.MailboxPoison : Prop :=
  (∀ (s : State) (dpa length : Nat), mailboxFree s → lineRange s dpa length = true →
    ∃ p, exec (.cxlGetPoisonList dpa length) s = .next (mboxReply s 0x4300 0 p)) ∧
  (∀ (s : State) (dpa : Nat), mailboxFree s → lineDpa s dpa = true → (regionOf s dpa).isSome = true → poisonHas s dpa = false →
    injectedLines s < 64 →
    exec (.cxlInjectPoison dpa) s = .next (mboxReply (placeMarker (poisonEnter s dpa .injected) (pageOf dpa) (lineOf dpa)
      (pageAttrs s (pageOf dpa) (entryNow s (pageOf dpa))).2) 0x4301 0 [])) ∧
  (∀ (s : State) (dpa : Nat), mailboxFree s → lineDpa s dpa = true → (regionOf s dpa).isSome = true → poisonHas s dpa = false →
    64 ≤ injectedLines s → exec (.cxlInjectPoison dpa) s = .next (mboxReply s 0x4301 0x10 [])) ∧
  (∀ (s : State) (dpa : Nat) (data : LineData), mailboxFree s → lineDpa s dpa = true → (regionOf s dpa).isSome = true →
    exec (.cxlClearPoison dpa data) s = .next (mboxReply (fullLineWrite s (pageOf dpa) (lineOf dpa) data) 0x4302 0 [])) ∧
  (∀ (s : State) (dpa : Nat) (data : LineData), mailboxFree s → lineDpa s dpa = false →
    exec (.cxlInjectPoison dpa) s = .next (mboxReply s 0x4301 0xF []) ∧
    exec (.cxlClearPoison dpa data) s = .next (mboxReply s 0x4302 0xF [])) ∧
  (∀ (s : State) (dpa length : Nat), mailboxFree s → lineRange s dpa length = true →
    ∃ p, exec (.cxlGetScanMediaCaps dpa length) s = .next (mboxReply { s with freeCtr := s.freeCtr + 1 } 0x4303 0 p)) ∧
  (∀ (s : State) (dpa length : Nat), mailboxFree s → lineRange s dpa length = true → s.hl.mboxBusy = none →
    ∃ t, exec (.cxlScanMedia dpa length) s = .next t ∧
      t.hl.scanRange = some (pageOf dpa, pageOf (dpa + 64 * length - 1) - pageOf dpa + 1) ∧
      (contentPages s (pageOf dpa, pageOf (dpa + 64 * length - 1) - pageOf dpa + 1) ≠ [] →
        t.hl.reply.code = 1 ∧ t.hl.mboxBusy = some 0x4304 ∧
        t.hl.scanPages = contentPages s (pageOf dpa, pageOf (dpa + 64 * length - 1) - pageOf dpa + 1))) ∧
  (∀ (s : State), mailboxFree s → s.hl.mboxBusy ≠ some 0x4304 →
    ∃ p, exec .cxlGetScanMediaResults s = .next (mboxReply s 0x4305 0 p)) ∧
  (∀ (s : State), mailboxFree s → s.hl.mboxBusy = some 0x4304 →
    exec .cxlGetScanMediaResults s = .next (mboxReply s 0x4305 6 []))

/-- Mouthpieces and bells: an 8-byte write with the pipe's key to an empty mouthpiece of a bound pipe holds DESC and TAG;
a write for the wrong size, an unbound pipe, a wrong key or a held word is rejected with cause 3, 2, 1 or 0, the first
in that order, counted, and raises an advisory error with its header; an 8-byte read of the bell answers its word and
empties it, a read of another size answers 0 and takes nothing; the host monitor counts the bytes as CXL.io payload;
while the host link is not active nothing happens. The binding table: before LOCK an entry word is written as its
fields say, a VECTOR below 16 or GROUP 3 leaving its field alone; after LOCK an entry write is ignored and setting
LOCK again changes nothing; setting LOCK sets it, and takes VALID from every listed entry that breaks a window rule
while every other entry stays. -/
def Obligations.PipesAndTheirBinding : Prop :=
  ((∀ (s : State) (p : PipeNo) (word : Reg), ioOpen s = true → (pipe s p.val).valid = true → fld word 32 32 = (pipe s p.val).key →
      (pipe s p.val).mouth = none →
      exec (.pipeMouthWrite p word 8) s =
        .next (ioPayload (noteActivity (updPipe s p.val fun x => { x with mouth := some (fld word 13 19, fld word 0 13) })) 0 2 8)) ∧
    (∀ (s : State) (p : PipeNo) (word : Reg) (size cause : Nat), ioOpen s = true →
      ((size ≠ 8 ∧ cause = 3) ∨ (size = 8 ∧ (pipe s p.val).valid = false ∧ cause = 2) ∨
        (size = 8 ∧ (pipe s p.val).valid = true ∧ fld word 32 32 ≠ (pipe s p.val).key ∧ cause = 1) ∨
        (size = 8 ∧ (pipe s p.val).valid = true ∧ fld word 32 32 = (pipe s p.val).key ∧ (pipe s p.val).mouth.isSome = true ∧
          cause = 0)) →
      exec (.pipeMouthWrite p word size) s = .next (ioPayload (advisoryError (updPipe s p.val fun x =>
        { x with rejected := true, rejCount := satAdd 16 x.rejCount 1, rejCause := cause })
        { bar := 2, off := 4096 * p.val, size := size }) 0 2 size)) ∧
    (∀ (s : State) (p : PipeNo), ioOpen s = true →
      exec (.pipeBellRead p 8) s = .next (ioPayload (updPipe
        { s with hl := { s.hl with rdData := (bellWord (pipe s p.val).bell).setWidth 512 } } p.val fun x => { x with bell := none })
        0 3 8)) ∧
    (∀ (s : State) (p : PipeNo) (size : Nat), ioOpen s = true → size ≠ 8 →
      exec (.pipeBellRead p size) s = .next (ioPayload { s with hl := { s.hl with rdData := 0 } } 0 3 size)) ∧
    (∀ (s : State) (p : PipeNo) (word : Reg) (size : Nat), ioOpen s = false →
      exec (.pipeMouthWrite p word size) s = .next s ∧ exec (.pipeBellRead p size) s = .next s)) ∧
  ((∀ (s : State) (p : PipeNo) (b : Bool) (v : Reg), awake s = true → s.pp.lock = false →
      exec (.pbndEntryWrite p b v) s = .next (updPipe s p.val (writeEntry b v))) ∧
    (∀ (s : State) (p : PipeNo) (b : Bool) (v : Reg), s.pp.lock = true →
      exec (.pbndEntryWrite p b v) s = .next s ∧ exec .pbndLockSet s = .next s) ∧
    (∀ s : State, awake s = true → s.pp.lock = false → (s.pp.pipes.Pairwise fun a b => a.1 < b.1) →
      ∃ t, exec .pbndLockSet s = .next t ∧ t.pp.lock = true ∧ ∀ n, pipe t n = if (pipe s n).valid = true ∧ ¬ (2 ≤ (pipe s n).pages ∧ (pipe s n).base + (pipe s n).pages ≤ 16384)
        then { pipe s n with valid := false } else pipe s n) ∧
    (∀ (v : Reg) (p : Pipe), (writeEntry false v p).key = fld v 32 32 ∧ (writeEntry false v p).valid = v.getLsbD 31 ∧
      (fld v 16 11 < 16 → (writeEntry false v p).vector = p.vector) ∧ (16 ≤ fld v 16 11 → (writeEntry false v p).vector = fld v 16 11) ∧
      (fld v 0 2 = 3 → (writeEntry false v p).group = p.group) ∧ (fld v 0 2 ≠ 3 → (writeEntry false v p).group = fld v 0 2) ∧
      (writeEntry true v p).pages = fld v 32 15 ∧ (writeEntry true v p).base = fld v 0 14))

/-- Completions: the core that serves the pipe's group rings its next completion into an empty bell; a ring by another
core, or for an unbound pipe, is refused with a bus error, and one that meets a full bell is refused and held; a held
completion is rung once the bell is empty. A ring writes the 32 bytes into the slot that SEQ names in the pipe's last
page, fills the bell word, advances SEQ modulo 128, and records the token of a completion whose status is SUCCESS,
PIN_LIMIT or SUPERSEDED. -/
def Obligations.CompletionsRing : Prop :=
  (∀ (s : State) (p : PipeNo) (c : CoreNo) (x : Completion), awake s = true →
    (s.pp.comps.find? fun x => x.pipe = p.val && !x.held) = some x → (pipe s p.val).valid = true →
    (servedAs s (pipe s p.val).group c.val).isSome = true → s.wr.failed.getLsbD c.val = false → (pipe s p.val).bell = none →
    (∀ y ∈ s.pp.comps, y.pipe = p.val → y.held = false) →
    exec (.pipeBellRing p c) s = .next (ringBell s x)) ∧
  (∀ (s : State) (p : PipeNo) (c : CoreNo) (x : Completion), awake s = true →
    (s.pp.comps.find? fun x => x.pipe = p.val && !x.held) = some x → (pipe s p.val).valid = true →
    (servedAs s (pipe s p.val).group c.val).isSome = true → s.wr.failed.getLsbD c.val = false →
    (pipe s p.val).bell.isSome = true →
    exec (.pipeBellRing p c) s = .next { s with pp := { s.pp with
      busErrors := s.pp.busErrors + 1, comps := s.pp.comps.replace x { x with held := true } } }) ∧
  (∀ (s : State) (p : PipeNo) (c : CoreNo) (x : Completion), awake s = true →
    (s.pp.comps.find? fun x => x.pipe = p.val && !x.held) = some x →
    ((pipe s p.val).valid = false ∨ servedAs s (pipe s p.val).group c.val = none ∨ s.wr.failed.getLsbD c.val = true) →
    exec (.pipeBellRing p c) s = .next { s with pp := { s.pp with busErrors := s.pp.busErrors + 1 } }) ∧
  (∀ (s : State) (p : PipeNo) (x : Completion), awake s = true → (s.pp.comps.find? fun x => x.pipe = p.val && x.held) = some x →
    (pipe s p.val).valid = true → (pipe s p.val).bell = none → (roleCore s x.role).isSome = true →
    exec (.heldCompletionRing p) s = .next (ringBell s x)) ∧
  (∀ (s : State) (x : Completion), x.aborted = false → (pipe s x.pipe).en = false →
    ringBell s x = updPipe (writeBytes { s with pp := { s.pp with comps := s.pp.comps.erase x } }
        (0x38000000 + ((pipe s x.pipe).base + (pipe s x.pipe).pages - 1) * 4096 + ((pipe s x.pipe).seq % 128) * 32) (compBytes x))
      x.pipe fun p => { p with
        bell := some (0, x.status % 256, (pipe s x.pipe).seq % 128, x.desc, x.tag), seq := (p.seq + 1) % 128
        tokens := if x.token ≠ 0 ∧ (x.status = 0 ∨ x.status = 9 ∨ x.status = 15) then
          (x.token, x.resA, x.resB) :: p.tokens.take 63 else p.tokens }) ∧
  (∀ x : Completion, (compBytes x).length = 32 ∧ compBytes x = leBytes 1 x.status ++ leBytes 1 x.detail ++ leBytes 2 x.opcode ++
    leBytes 4 (x.desc * 8192 + x.tag) ++ leBytes 8 x.token.toNat ++ leBytes 8 x.resA.toNat ++ leBytes 8 x.resB.toNat)

/-- Taking a command: the serving core takes the word of a bound pipe's mouthpiece, which empties; the command is queued
with the descriptor that its DESC names, unless its checks complete it at once; a range command that meets no conflict
starts, and an opcode or version outside the table completes with UNSUPPORTED. Checks of a taken command come in the
order of R440: the window and buffer, LOCK and the startup stage, the token, then the key window, the reserved byte,
the named beat, the parameters and the conflicts; the first that fails decides the completion, and a command that
fails when it is to run completes with that status and nothing else changes. -/
def Obligations.CommandsAreTakenAndChecked : Prop :=
  ((∀ (s : State) (p : PipeNo) (c : CoreNo) (desc tag role : Nat), (pipe s p.val).mouth = some (desc, tag) →
      servedAs s (pipe s p.val).group c.val = some role → takesCommands s = true → (pipe s p.val).valid = true →
      s.wr.failed.getLsbD c.val = false → immediateRuns s p.val = false → backgroundHeld s < 256 → roleHolds s role < 4096 →
      (s.pp.pipes.Pairwise fun a b => a.1 < b.1) →
      ∃ t, exec (.mouthpieceTake p c) s = .next t ∧ (pipe t p.val).mouth = none ∧ t.pp.nextId = s.pp.nextId + 1 ∧
        ((∃ k : Cmd, k.id = s.pp.nextId ∧ k.pipe = p.val ∧ k.role = role ∧ k.desc = desc ∧ k.tag = tag ∧
            k.takenAt = s.clk.beat ∧ k.d = readDescriptor s s.freeCtr desc ∧
            (k ∈ t.pp.cmds ∨ { k with phase := .queued } ∈ t.pp.cmds)) ∨
          ∃ x ∈ t.pp.comps, x.pipe = p.val ∧ x.role = role ∧ x.desc = desc ∧ x.tag = tag)) ∧
    (∀ (s : State) (p : PipeNo) (c : Cmd), startable p.val s.pp.cmds [] = some c → awake s = true → rangeFail s c = none →
      eraseMeets s c = false → ¬ (c.op = 0x0200 ∧ c.fld 0x28 1 = 1) →
      exec (.backgroundCommandStart p) s = .next (updCmd s c.id fun k => { k with
        phase := .running, todo := workPages s c, range := c.ranges.headD (0, 0), found := [] })) ∧
    (∀ (s : State) (p : PipeNo) (c : Cmd), startable p.val s.pp.cmds [] = some c → awake s = true → rangeFail s c = none →
      eraseMeets s c = true → exec (.backgroundCommandStart p) s = .next (finishCmd s c 15 0 0 0)) ∧
    (∀ (s : State) (p : PipeNo) (c : Cmd), (s.pp.cmds.find? fun c => c.pipe = p.val && !knownOpcode c) = some c → awake s = true →
      (roleCore s c.role).isSome = true → exec (.unknownOpcode p) s = .next (finishCmd s c 1 0 0 0)) ∧
    (∀ c : Cmd, knownOpcode c = true ↔ c.op ∈ opcodes ∧ c.fld 2 1 = 1)) ∧
  ((∀ (s : State) (c : Cmd) (e : Fail), windowFail s c = some e → takeCheck s c = some e) ∧
    (∀ (s : State) (c : Cmd) (e : Fail), windowFail s c = none → stageFail s c = some e → takeCheck s c = some e) ∧
    (∀ (s : State) (c : Cmd) (e : Fail), windowFail s c = none → stageFail s c = none → tokenFail s c = some e →
      takeCheck s c = some e) ∧
    (∀ (s : State) (c : Cmd), windowFail s c = none → stageFail s c = none → tokenFail s c = none → takeCheck s c = cmdCheck s c) ∧
    (∀ (s : State) (c : Cmd), keyCommand c.op = true → s.ig.keyWindow = false → cmdCheck s c = some { status := 3 }) ∧
    (∀ (s : State) (c : Cmd), (keyCommand c.op = false ∨ s.ig.keyWindow = true) → c.fld 3 1 ≠ 0 →
      cmdCheck s c = some { status := 2, detail := 3 }) ∧
    (∀ (s : State) (c : Cmd), s.pp.lock = false → (c.pipe ≠ 0 ∨ earlyCommand c.op = false) → stageFail s c = some { status := 2 }) ∧
    (∀ (s : State) (c : Cmd) (x : Reg × Reg × Reg), c.token ≠ 0 → (pipe s c.pipe).tokens.find? (fun x => x.1 = c.token) = some x →
      tokenFail s c = some { status := 0x0B, a := x.2.1, b := x.2.2 }) ∧
    (∀ (s : State) (p : PipeNo) (c : Cmd) (e : Fail), awake s = true → nextCmd s p.val (fun c => c.op = 0x0001) = some c →
      c.ranges = [] → cmdCheck s c = some e → exec (.identify p) s = .next (finishCmd s c e.status e.detail e.a e.b)) ∧
    (∀ (s : State) (c : Cmd) (status detail : Nat) (a b : Reg),
      (finishCmd s c status detail a b).pp.comps = s.pp.comps ++ [{
        pipe := c.pipe, role := c.role, status := status, detail := detail, opcode := c.op, desc := c.desc, tag := c.tag
        token := c.token, resA := a, resB := b }] ∧
      (∀ x ∈ (finishCmd s c status detail a b).pp.cmds, x.id ≠ c.id) ∧
      finishCmd s c status detail a b = { s with pp := { s.pp with
        cmds := (finishCmd s c status detail a b).pp.cmds, comps := (finishCmd s c status detail a b).pp.comps } }))

/-- The commands that answer with data: each writes its output into the command's buffer, as far as the buffer reaches,
and completes with SUCCESS and the results the rules name: IDENTIFY its 64 bytes and EPOCH, GET_LOG the piece of the
log with its length, KEEP_READ the record's payload, length and SEQ, fast-read at its place (none: length 0, the
model's reading, log 36), KEY_INFO the nonce and INTG_DOMAIN words with INTG_STATUS, TIME_GET the calendar with CONT
in bit 63 and the host's time, SPARE_STATUS the wear log's first part with the links in rebuild. -/
def Obligations.DataCommandsAnswer : Prop :=
  (∀ (s : State) (p : PipeNo) (c : Cmd), Runs s p.val (fun c => c.op = 0x0001) c →
    exec (.identify p) s = .next (finishCmd (outputData s c (identifyData s)) c 0 0 (BitVec.ofNat 64 s.pp.epoch) 0)) ∧
  (∀ s : State, (identifyData s).length = 64 ∧ (identifyData s).take 2 = [0x41#8, 0x31#8]) ∧
  (∀ (s : State) (p : PipeNo) (c : Cmd), Runs s p.val (fun c => c.op = 0x0002) c →
    exec (.getLog p) s = .next (finishCmd
      (outputData s c ((List.range (c.fld 0x28 4)).map fun i => (vendorLog s (c.fld 0x18 4)).getD (c.fld 0x20 8 + i) 0)) c 0 0
      (BitVec.ofNat 64 (min (c.fld 0x28 4) ((vendorLog s (c.fld 0x18 4)).length - c.fld 0x20 8)))
      (BitVec.ofNat 64 (vendorLog s (c.fld 0x18 4)).length))) ∧
  (∀ (s : State) (p : PipeNo) (c : Cmd) (r : KeepRec), Runs s p.val (fun c => c.op = 0x0500) c → s.kp.compacting = false →
    tget none s.kp.recs (c.fld 0x18 4) = some r →
    exec (.keepRead p) s = .next (finishCmd (outputData { s with kp := { s.kp with
        port := [s.kp.fastRead (s.kp.pri ≠ .serving) (r.sector * 4096 + r.unit * 18)] } } c r.payload) c 0 0
      (BitVec.ofNat 64 r.payload.length) (BitVec.ofNat 64 r.seq))) ∧
  (∀ (s : State) (p : PipeNo) (c : Cmd), Runs s p.val (fun c => c.op = 0x0500) c → s.kp.compacting = false →
    tget none s.kp.recs (c.fld 0x18 4) = none → exec (.keepRead p) s = .next (finishCmd s c 0 0 0 0)) ∧
  (∀ (s : State) (p : PipeNo) (c : Cmd), Runs s p.val (fun c => c.op = 0x0604) c →
    exec (.keyInfo p) s = .next (finishCmd (outputData s c (leBytes 32 (Config.wnonce s.ig.windows).toNat ++
      ((List.range 16).map fun d => leBytes 8 (intgDomain s d)).flatten)) c 0 0 (BitVec.ofNat 64 (intgStatus s)) 0)) ∧
  (∀ (s : State) (p : PipeNo) (c : Cmd), Runs s p.val (fun c => c.op = 0x0701) c →
    exec (.timeGet p) s = .next (finishCmd s c 0 0
      (BitVec.ofNat 64 (s.clk.seconds * 2 ^ 24 + s.clk.inSecond + if s.clk.cont then 2 ^ 63 else 0)) (BitVec.ofInt 64 (hostTime s)))) ∧
  (∀ (s : State) (p : PipeNo) (c : Cmd), Runs s p.val (fun c => c.op = 0x0D00) c →
    ∃ n, exec (.spareStatus p) s = .next (finishCmd (outputData s c ((wearLog s).take 0x1040 ++
      ((((List.range 1152).filter fun n => (linkWear s n).rebuilding).take n).map fun l =>
        leBytes 8 l ++ leBytes 8 (wearLinkB s l)).flatten)) c 0 0 (BitVec.ofNat 64 (spareBs s).toNat)
      (BitVec.ofNat 64 (rebuildCount s % 2 ^ 32 + n * 2 ^ 32 +
        if n < ((List.range 1152).filter fun n => (linkWear s n).rebuilding).length then 2 ^ 63 else 0))) ∧
      n = min ((List.range 1152).filter fun n => (linkWear s n).rebuilding).length ((c.fld 6 2 * 4096 - 0x1040) / 16)) ∧
  (∀ (s : State) (c : Cmd) (l : List Byte),
    outputData s c l = writeBytes s (0x38000000 + ((pipe s c.pipe).base + c.fld 4 2) * 4096) (l.take (c.fld 6 2 * 4096)))

/-- The commands of the pending commit: outside a consort CONFIG_COMMIT, the four REGION_DEFINE operations, BUDGET and
POWER_POLICY hold the single pending commit for the beat they name (with BEAT 0, 256 beats after they were taken), and
complete only when it is live or given up; in a consort a PREPARE goes out for the same beat. CONFIG_DISCARD puts
every live value back into its shadow at once. -/
def Obligations.CommitsAreHeld : Prop :=
  (∀ (s : State) (p : PipeNo) (c : Cmd) (b : Nat), s.cn.joined = false → b = (if c.beat = 0 then c.takenAt + 256 else c.beat) →
    let held (x : Change) : State := { holdCmd s c with pp := { (holdCmd s c).pp with
      commit := some { beat := b, change := x, cmd := some c.id, needsGo := false } } }
    (Runs s p.val (fun c => c.op = 0x0100) c → exec (.configCommit p) s = .next (held .config)) ∧
    (Runs s p.val (fun c => c.op = 0x0110 && c.fld 0x19 1 = 0) c → exec (.regionDefine p) s = .next (held (regionChange c))) ∧
    (Runs s p.val (fun c => c.op = 0x0110 && c.fld 0x19 1 = 1) c → exec (.regionInvalidate p) s = .next (held (regionChange c))) ∧
    (Runs s p.val (fun c => c.op = 0x0110 && c.fld 0x19 1 = 2) c → exec (.regionSplit p) s = .next (held (regionChange c))) ∧
    (Runs s p.val (fun c => c.op = 0x0110 && c.fld 0x19 1 = 3) c → exec (.regionMerge p) s = .next (held (regionChange c))) ∧
    (Runs s p.val (fun c => c.op = 0x0301) c →
      exec (.budget p) s = .next (held (.budget (BitVec.ofNat 64 (c.fld 0x18 8)) (c.fld 0x20 1)))) ∧
    (Runs s p.val (fun c => c.op = 0x0900) c → exec (.powerPolicy p) s = .next (held (.policy
      (BitVec.ofNat 64 (c.fld 0x1C 4 * 2 ^ 32 + c.fld 0x18 4)) (BitVec.ofNat 64 (c.fld 0x24 1 * 2 ^ 32 + c.fld 0x20 4)))))) ∧
  (∀ (s : State) (p : PipeNo) (c : Cmd) (b : Nat), s.cn.joined = true → b = (if c.beat = 0 then c.takenAt + 1024 else c.beat) →
    Runs s p.val (fun c => c.op = 0x0100) c →
    ∃ t, exec (.configCommit p) s = .next t ∧ (∃ a, t.cn.agreement = some a ∧ a.origin = s.cn.pos ∧ a.n = toConsort s b) ∧
      .prepare (toConsort s b) .configuration ∈ t.cn.sent ∧
      ∃ x, t.pp.commit = some x ∧ x.beat = b ∧ x.change = .config ∧ x.needsGo = true) ∧
  (∀ (s : State) (p : PipeNo) (c : Cmd), Runs s p.val (fun c => c.op = 0x0101) c → (s.shadow.Pairwise fun a b => a.1 < b.1) →
    ∃ t, exec (.configDiscard p) s = .next t ∧ (∀ id ∈ cfgIds, cfgShadow t id = cfg s id) ∧
      t = { finishCmd s c 0 0 (BitVec.ofNat 64 s.pp.epoch) 0 with shadow := t.shadow }) ∧
  (∀ (s : State) (c : Cmd), (holdCmd s c).pp.comps = s.pp.comps ∧
    ∀ x ∈ (holdCmd s c).pp.cmds, x.id = c.id → x.effectDone = true)

/-- A pending commit at its beat: before it nothing happens; one that waits for a GO that has not come is given up with
ABORTED; a configuration commit whose shadows are all in range makes each live value equal its shadow at once, saves
them, advances EPOCH and completes with it, and one with a shadow out of range is given up with every live value as it
was; a power policy goes into both copies; a region change that its checks still pass takes effect whole, READY
following, or starts its migration; a BUDGET raises the floor of both copies. -/
def Obligations.CommitsGoLive : Prop :=
  (∀ (s : State) (c : Commit), awake s = true → s.pp.commit = some c → s.clk.beat + 1 < c.beat →
    exec .commitLive s = .next s) ∧
  (∀ s : State, s.pp.commit = none → exec .commitLive s = .next s) ∧
  (∀ (s : State) (c : Commit), awake s = true → s.pp.commit = some c → c.beat ≤ s.clk.beat + 1 → c.needsGo = true → c.go = false →
    ∃ t, exec .commitLive s = .next t ∧ t.live = s.live ∧ t.mp = s.mp ∧ t.pp.commit = none ∧ t.pp.epoch = s.pp.epoch) ∧
  (∀ (s : State) (c : Commit), awake s = true → s.pp.commit = some c → c.beat ≤ s.clk.beat + 1 → (c.needsGo = true → c.go = true) →
    c.change = .config → badShadow s = none → (s.live.Pairwise fun a b => a.1 < b.1) →
    ∃ t, exec .commitLive s = .next t ∧ (∀ id ∈ cfgIds, cfg t id = cfgShadow s id) ∧ t.shadow = s.shadow ∧
      t.pp.epoch = s.pp.epoch + 1 ∧ t.pp.commit = none) ∧
  (∀ (s : State) (c : Commit) (id : Nat), awake s = true → s.pp.commit = some c → c.beat ≤ s.clk.beat + 1 → c.change = .config →
    badShadow s = some id →
    ∃ t, exec .commitLive s = .next t ∧ t.live = s.live ∧ t.shadow = s.shadow ∧ t.pp.epoch = s.pp.epoch ∧ t.pp.commit = none) ∧
  (∀ (s : State) (c : Commit) (a b : Reg), awake s = true → s.pp.commit = some c → c.beat ≤ s.clk.beat + 1 →
    (c.needsGo = true → c.go = true) → c.change = .policy a b → (s.live.Pairwise fun a b => a.1 < b.1) →
    (s.shadow.Pairwise fun a b => a.1 < b.1) →
    ∃ t, exec .commitLive s = .next t ∧ cfg t 58 = a ∧ cfgShadow t 58 = a ∧ cfg t 59 = b ∧ cfgShadow t 59 = b ∧
      t.pp.epoch = s.pp.epoch + 1) ∧
  (∀ (s : State) (c : Commit) (op n m policy domain base size split : Nat) (tree : Bool) (x : RegionPlan), awake s = true →
    s.pp.commit = some c → c.beat ≤ s.clk.beat + 1 → (c.needsGo = true → c.go = true) →
    c.change = .region op n m policy tree domain base size split →
    regionPlan s true op n m policy tree domain base size split = .ok x → (x.slot = none ∨ (freeSlot s).isSome = true) →
    ∃ t, exec .commitLive s = .next t ∧ t.pp.epoch = s.pp.epoch + 1 ∧ t.pp.commit = none ∧
      (x.slot = none → t.mp.regions = (refreshReady { s with mp := { s.mp with regions := x.regions } }).mp.regions)) ∧
  (∀ (s : State) (c : Commit) (ranks : BitVec 64) (floor : Nat), awake s = true → s.pp.commit = some c → c.beat ≤ s.clk.beat + 1 →
    (c.needsGo = true → c.go = true) → c.change = .budget ranks floor → floor ≤ budgetMax s →
    (budgetMigrates s ranks floor = false ∨ (freeSlot s).isSome = true) → floor < 256 → (s.live.Pairwise fun a b => a.1 < b.1) →
    ∃ t, exec .commitLive s = .next t ∧ budgetMin t = floor ∧ t.pp.epoch = s.pp.epoch + 1)

/-- The live copy of every configuration register changes only where a change may go live: at COMMIT_LIVE and
BEAT_BOUNDARY, on waking from Deep sleep and with a reset of the device; no other command, register writes among them,
changes it. -/
def Obligations.LiveValuesChangeAtBoundaries : Prop :=
  ∀ (c : Instr) (s t : State), exec c s = .next t → t.live ≠ s.live →
    c = .commitLive ∨ c = .beatBoundary ∨ (∃ src bad, c = .deepSleepWake src bad) ∨ (∃ ns, c = .resetNAssert ns) ∨
      (∃ pos halt, c = .powerOn pos halt) ∨ (∃ rail, c = .brownOut rail) ∨ ∃ ok, c = .suppliesUpUnreset ok

/-- THROTTLE sets the floor of the zones it names from the next round and of no other; POWER_ENTER outside a consort notes
the state asked for and completes, in one it waits for the members. CONSORT_JOIN of a device that is no member joins
it or names the reason why not (link, version, position, digest, in this order); CONSORT_LEAVE ends its membership;
both complete with the members as they then are. -/
def Obligations.PowerAndConsortCommands : Prop :=
  ((∀ (s : State) (p : PipeNo) (c : Cmd), Runs s p.val (fun c => c.op = 0x0901) c → ZonesWf s →
      ∃ t, exec (.throttle p) s = .next t ∧
        (∀ z, z < 16 → zone t z = if (c.fld 0x18 2).testBit z then { zone s z with floorNext := c.fld 0x1A 1 } else zone s z) ∧
        t = { finishCmd s c 0 0 0 0 with th := { s.th with zones := t.th.zones } }) ∧
    (∀ (s : State) (p : PipeNo) (c : Cmd), Runs s p.val (fun c => c.op = 0x0902) c → s.cn.joined = false →
      exec (.powerEnter p) s = .next (finishCmd
        { s with pwr := { s.pwr with asked := some (c.fld 0x18 1), askedCmd := none } } c 0 0 0 0)) ∧
    (∀ (s : State) (p : PipeNo) (c : Cmd), Runs s p.val (fun c => c.op = 0x0902) c → s.cn.joined = true →
      exec (.powerEnter p) s = .next (holdCmd
        { s with pwr := { s.pwr with asked := some (c.fld 0x18 1), askedCmd := some c.id } } c))) ∧
  ((∀ (s : State) (p : PipeNo) (c : Cmd), Runs s p.val (fun c => c.op = 0x0A00 && c.fld 0x18 1 = 0) c → s.cn.joined = true →
      exec (.consortJoin p) s = .next (finishCmd s c 0 0 (BitVec.ofNat 64 s.cn.members.toNat) 0)) ∧
    (∀ (s : State) (p : PipeNo) (c : Cmd), Runs s p.val (fun c => c.op = 0x0A00 && c.fld 0x18 1 = 0) c → s.cn.joined = false →
      joinReason s = 0 →
      ∃ t, exec (.consortJoin p) s = .next t ∧ t.cn.joined = true ∧ t.cn.refused = 0 ∧ .join s.cn.pos Config.dieSerial ∈ t.cn.sent ∧
        (s.cn.pos < 4 → t.cn.members.getLsbD s.cn.pos = true) ∧ t.live = s.live ∧ t.mp = s.mp) ∧
    (∀ (s : State) (p : PipeNo) (c : Cmd), Runs s p.val (fun c => c.op = 0x0A00 && c.fld 0x18 1 = 0) c → s.cn.joined = false →
      joinReason s ≠ 0 →
      ∃ t, exec (.consortJoin p) s = .next t ∧ t.cn = { s.cn with refused := joinReason s } ∧
        ∃ x ∈ t.pp.comps, x.pipe = c.pipe ∧ x.tag = c.tag ∧ x.status = 0 ∧ x.resB = BitVec.ofNat 64 (joinReason s)) ∧
    (∀ (s : State) (p : PipeNo) (c : Cmd), Runs s p.val (fun c => c.op = 0x0A00 && c.fld 0x18 1 = 1) c →
      ∃ t, exec (.consortLeave p) s = .next t ∧ t.cn.joined = false ∧ t.cn.joinReq = false ∧
        (s.cn.joined = true → t.cn.members = 0#4 ∧ t.cn.delta = 0 ∧ t.cn.slew = 0)) ∧
    (∀ s : State, s.cn.trains = false → joinReason s = 4))

/-- Packages and capacity: PREPARE_REMOVE puts a link that trains into DRAINING and waits, waits with one that drains, and
completes at once with 7 for one that is REMOVABLE; an empty, refused or lost link becomes REMOVABLE at once; ONLINE
puts a REMOVABLE link into TRAINING and waits, for any other it completes with the link's state; ACCEPT_FRESHNESS
accepts a root that was found stale, and no other; CAPACITY_SET notes the capacity with its ranks until the next reset
and keeps it. -/
def Obligations.PackageCommands : Prop :=
  (∀ (s : State) (p : PipeNo) (c : Cmd), Runs s p.val (fun c => c.op = 0x0B00) c →
    (link s (c.fld 0x18 2)).state = .training →
    exec (.prepareRemove p) s = .next (holdCmd { s with ln := { s.ln with
      links := (updLink s (c.fld 0x18 2) fun l => { l with state := .draining }).ln.links
      removing := s.ln.removing ++ [(c.fld 0x18 2, c.id)] } } c)) ∧
  (∀ (s : State) (p : PipeNo) (c : Cmd), Runs s p.val (fun c => c.op = 0x0B00) c →
    (link s (c.fld 0x18 2)).state = .draining →
    exec (.prepareRemove p) s = .next (holdCmd { s with ln := { s.ln with
      removing := s.ln.removing ++ [(c.fld 0x18 2, c.id)] } } c)) ∧
  (∀ (s : State) (p : PipeNo) (c : Cmd), Runs s p.val (fun c => c.op = 0x0B00) c →
    (link s (c.fld 0x18 2)).state = .removable → exec (.prepareRemove p) s = .next (finishCmd s c 0 0 7 0)) ∧
  (∀ (s : State) (p : PipeNo) (c : Cmd), Runs s p.val (fun c => c.op = 0x0B00) c →
    ((link s (c.fld 0x18 2)).state = .active ∨ (link s (c.fld 0x18 2)).state = .rebuilding) →
    ∃ t, exec (.prepareRemove p) s = .next t ∧ (link t (c.fld 0x18 2)).state = .draining ∧
      (link t (c.fld 0x18 2)).cause = 6 ∧ (c.fld 0x18 2, c.id) ∈ t.ln.removing) ∧
  (∀ (s : State) (p : PipeNo) (c : Cmd), Runs s p.val (fun c => c.op = 0x0B00) c →
    ((link s (c.fld 0x18 2)).state = .empty ∨ (link s (c.fld 0x18 2)).state = .refused ∨ (link s (c.fld 0x18 2)).state = .lost) →
    (∀ d ∈ s.pp.cmds, d.id = c.id → d = c) →
    ∃ t, exec (.prepareRemove p) s = .next t ∧ (link t (c.fld 0x18 2)).state = .removable ∧
      ∃ x ∈ t.pp.comps, x.pipe = c.pipe ∧ x.desc = c.desc ∧ x.tag = c.tag ∧ x.status = 0 ∧ x.resA = 7) ∧
  (∀ (s : State) (p : PipeNo) (c : Cmd), Runs s p.val (fun c => c.op = 0x0B01) c →
    (link s (c.fld 0x18 2)).state = .removable →
    exec (.online p) s = .next (holdCmd { s with ln := { s.ln with
      links := (updLink s (c.fld 0x18 2) fun l =>
        { l with state := .training, step := 0, attempts := 0, inService := false }).ln.links
      onlining := s.ln.onlining ++ [(c.fld 0x18 2, c.id)] } } c)) ∧
  (∀ (s : State) (p : PipeNo) (c : Cmd), Runs s p.val (fun c => c.op = 0x0B01) c →
    (link s (c.fld 0x18 2)).state ≠ .removable →
    exec (.online p) s = .next (finishCmd s c 0 0 (BitVec.ofNat 64 (link s (c.fld 0x18 2)).state.code) 0)) ∧
  (∀ (s : State) (p : PipeNo) (c : Cmd), Runs s p.val (fun c => c.op = 0x0C00) c → s.ig.rootState = 2 →
    exec (.acceptFreshness p) s = .next (finishCmd (refreshReady { s with ig := { s.ig with rootState := 3 } }) c 0 0 3 0)) ∧
  (∀ (s : State) (p : PipeNo) (c : Cmd), Runs s p.val (fun c => c.op = 0x0C00) c → s.ig.rootState ≠ 2 →
    exec (.acceptFreshness p) s = .next (finishCmd s c 0 0 (BitVec.ofNat 64 s.ig.rootState) 0)) ∧
  (∀ (s : State) (p : PipeNo) (c : Cmd), Runs s p.val (fun c => c.op = 0x0D01) c →
    ∃ t, exec (.capacitySet p) s = .next t ∧
      t.mp = { s.mp with pendingCap := some (c.fld 0x18 4, s.mp.pop.filter fun r => lostLinks s r < 2) } ∧
      t.wr = { s.wr with spareBs0 := (spareWith s (c.fld 0x18 4)).toNat } ∧
      ∃ x ∈ t.pp.comps, x.pipe = c.pipe ∧ x.tag = c.tag ∧ x.status = 0 ∧
        x.resA = BitVec.ofNat 64 (spareWith s (c.fld 0x18 4)).toNat)

/-- Keys: KEY_GENERATE with stage 1 and KEY_STAGE of a blob that unwraps stage new keys; a blob that does not unwrap
completes with status 4 and nothing is staged; keys for a domain that has none are its keys at once and its generation
advances; for one that has keys an erase of the domain waits; KEY_WINDOW_CLOSE closes the window and sets LOCK;
SECURE_ERASE and SANITIZE put their erase into the queue and wait for it. (That an absent domain takes keys without an
erase is the model's reading, log 38; the keys themselves are not modelled, log 6.) -/
def Obligations.KeyCommands : Prop :=
  (∀ (s : State) (d source : Nat), (s.ig.domains.Pairwise fun a b => a.1 < b.1) →
    domainKey (stageKeys s d source) d = { domainKey s d with staged := some s.ig.keyDraws, stagedSource := source } ∧
    (stageKeys s d source).ig.keyDraws = s.ig.keyDraws + 1 ∧ ∀ e, e ≠ d → domainKey (stageKeys s d source) e = domainKey s e) ∧
  (∀ (s : State) (p : PipeNo) (c : Cmd), Runs s p.val (fun c => c.op = 0x0600) c → c.fld 0x19 1 = 1 →
    exec (.keyGenerate p) s = .next (finishCmd (stageKeys s (c.fld 0x18 1) 1) c 0 0 0 0)) ∧
  (∀ (s : State) (p : PipeNo) (c : Cmd), Runs s p.val (fun c => c.op = 0x0600) c → c.fld 0x19 1 ≠ 1 →
    (domainKey (stageKeys s (c.fld 0x18 1) 1) (c.fld 0x18 1)).present = false →
    exec (.keyGenerate p) s = .next (finishCmd (refreshReady (rekey (stageKeys s (c.fld 0x18 1) 1) (c.fld 0x18 1))) c 0 0 0 0)) ∧
  (∀ (s : State) (p : PipeNo) (c : Cmd) (t : State), Runs s p.val (fun c => c.op = 0x0601) c →
    t = stageKeys s (c.fld 0x18 1) 2 → (domainKey t (c.fld 0x18 1)).present = true →
    exec (.keyInstall p true) s = .next (holdCmd { t with ig := { t.ig with
      erasesQueued := t.ig.erasesQueued ++ [(2 + c.fld 0x18 1, some c.id)] } } c)) ∧
  (∀ (s : State) (p : PipeNo) (c : Cmd) (t : State), Runs s p.val (fun c => c.op = 0x0601) c →
    t = stageKeys s (c.fld 0x18 1) 2 → (domainKey t (c.fld 0x18 1)).present = false →
    exec (.keyInstall p true) s = .next (finishCmd (refreshReady (rekey t (c.fld 0x18 1))) c 0 0 0 0)) ∧
  (∀ (s : State) (p : PipeNo) (c : Cmd), Runs s p.val (fun c => c.op = 0x0601) c →
    exec (.keyInstall p false) s = .next (finishCmd s c 4 0 0 0)) ∧
  (∀ (s : State) (p : PipeNo) (c : Cmd), Runs s p.val (fun c => c.op = 0x0602) c →
    exec (.keyStage p true) s = .next (finishCmd (stageKeys s (c.fld 0x18 1) 2) c 0 0 0 0) ∧
    exec (.keyStage p false) s = .next (finishCmd s c 4 0 0 0)) ∧
  (∀ (s : State) (d : Nat), (s.ig.domains.Pairwise fun a b => a.1 < b.1) → (domainKey s d).staged.isSome = true →
    domainKey (rekey s d) d = {
      keyVer := (domainKey s d).staged.getD 0, source := (domainKey s d).stagedSource, staged := none, stagedSource := 0
      present := true, generation := ((domainKey s d).generation + 1) % 2 ^ 32 }) ∧
  (∀ (s : State) (p : PipeNo) (c : Cmd), Runs s p.val (fun c => c.op = 0x0603) c → s.ig.keyWindow = true →
    ∃ t, exec (.keyWindowClose p) s = .next t ∧ t.ig = { s.ig with keyWindow := false } ∧ t.pp.lock = true) ∧
  (∀ (s : State) (p : PipeNo) (c : Cmd), Runs s p.val (fun c => c.op = 0x0603) c → s.ig.keyWindow = false →
    exec (.keyWindowClose p) s = .next (finishCmd s c 0 0 0 0)) ∧
  (∀ (s : State) (p : PipeNo) (c : Cmd), Runs s p.val (fun c => c.op = 0x0610) c →
    exec (.secureErase p) s = .next (holdCmd
      { s with ig := { s.ig with erasesQueued := s.ig.erasesQueued ++ [(0, some c.id)] } } c)) ∧
  (∀ (s : State) (p : PipeNo) (c : Cmd), Runs s p.val (fun c => c.op = 0x0611) c →
    exec (.sanitize p) s = .next (holdCmd
      { s with ig := { s.ig with erasesQueued := s.ig.erasesQueued ++ [(1, some c.id)] } } c))

/-- Erases: a waiting erase starts when media are up and none runs, and then READY falls over what it covers; an erase of
every domain ends every cached stamp and tree node, advances the system generation and the root, and rekeys all
sixteen domains; SECURE_ERASE leaves media as they are. At its end the commands that wait complete, the mailbox is
free and the device erases no more; a sanitize blanks every host stripe or retires it. The sweep of secure discards:
media at rest, each secure discard is taken as far as it may go; its homes are destroyed once SECURE is durable, its
last steps wait for the sweep's end, and a discard that has swept and whose change is durable is done; without media
nothing happens. -/
def Obligations.ErasesAndSweepsRun : Prop :=
  ((∀ (s : State) (k : EraseKind) (x : Nat × Option Nat), (s.ig.erasesQueued.find? fun x => x.1 = EraseKind.code k) = some x →
      mediaUp s = true → s.ig.erasing = none →
      ∃ t, exec (.eraseStart k) s = .next t ∧ t.ig.erasing = some (scopeOf (EraseKind.code k)) ∧ t.ig.eraseCmd = x.2 ∧
        t.ig.erasesQueued = s.ig.erasesQueued.erase x ∧ t.mp.media = s.mp.media ∧
        (EraseKind.code k < 2 → t.ig.sysGen = (s.ig.sysGen + 1) % 2 ^ 32 ∧ t.ig.rootVer = s.ig.rootVer + 1 ∧
          t.clk.root = s.ig.rootVer + 1 ∧ t.ig.levelB = [] ∧ t.ig.heldNodes = [])) ∧
    (∀ (s : State) (k : EraseKind), (s.ig.erasing.isSome = true ∨ mediaUp s = false ∨
        (s.ig.erasesQueued.find? fun x => x.1 = EraseKind.code k) = none) → exec (.eraseStart k) s = .next s) ∧
    (∀ (s : State) (scope : EraseScope), s.ig.erasing = some scope → mediaUp s = true →
      ∃ t, exec .eraseComplete s = .next t ∧ t.ig.erasing = none ∧ t.ig.eraseCmd = none ∧ t.ig.eraseMailbox = false ∧
        (∀ x ∈ t.ig.erasesQueued, x.1 ≠ scope.code) ∧
        (∀ l ∈ t.pwr.image.lines, l ∈ s.pwr.image.lines ∧ coversDomain scope.code l.domain = false) ∧
        (s.ig.eraseMailbox = true → t.hl.doorbell = false ∧ t.hl.reply.code = 0) ∧
        (scope ≠ .all true → t.mp.media = s.mp.media)) ∧
    (∀ s : State, s.ig.erasing = none → exec .eraseComplete s = .next s) ∧
    (∀ (s : State) (bs : Nat), 20000 ≤ (stripe s bs).cycles →
      (stripe (sanitizeStripe s bs) bs).state = .retired ∧ (sanitizeStripe s bs).mp = s.mp) ∧
    (∀ (s : State) (bs : Nat), (stripe s bs).cycles < 20000 → ∀ x ∈ (sanitizeStripe s bs).mp.media, slotBs (x.1 / 64) ≠ bs)) ∧
  ((∀ s : State, mediaRuns s = true → exec .secureSweep s = .next (s.pl.secure.foldl (secureStep (sweepEnds s)) s)) ∧
    (∀ s : State, mediaRuns s = false → exec .secureSweep s = .next s) ∧
    (∀ (s : State) (x : Secure), mediaRuns s = true → s.pl.secure = [x] → x.step = 6 → lineDurable s (mapLineOf x.page) = true →
      exec .secureSweep s = .next { s with pl := { s.pl with secure := [] } }) ∧
    (∀ (s : State) (x : Secure), mediaRuns s = true → s.pl.secure = [x] → x.step = 4 → sweepEnds s = false →
      exec .secureSweep s = .next s) ∧
    (∀ (s : State) (x : Secure), mediaRuns s = true → s.pl.secure = [x] → x.step = 1 → lineDurable s (mapLineOf x.page) = true →
      homesReach s x.page = true →
      ∃ t, exec .secureSweep s = .next t ∧ t.pl.secure = [{ x with step := 4 }] ∧
        ∀ i, i < 64 → (entryNow s x.page).bisqueHome ≠ none40 → mediaImg t (entryNow s x.page).bisqueHome i = .destroyed))

/-- The range commands: a running command acts on each of its pages that may be acted on now, and completes when it has
acted on all of them and no durable map change is waited for, with the number of its pages (a secure discard with the
links then counted as out of service beside it, hints with nothing); RANGE_ACTION_POINT acts on one page of the pipe's
first command that has it still to do, or of the mailbox's scan. -/
def Obligations.RangeCommandsRun : Prop :=
  (∀ (s : State) (p : PipeNo) (c : Cmd),
    let all := settleRange (c.todo.foldl (fun s page => match cmdNow s c.id with | some c => actOn s c page | none => s) s) c.id
    (Ranging s p.val (fun c => c.op = 0x0200 && c.fld 0x28 1 = 0) c → exec (.discard p) s = .next all) ∧
    (Ranging s p.val (fun c => c.op = 0x0200 && c.fld 0x28 1 = 1) c → exec (.discardSecure p) s = .next all) ∧
    (Ranging s p.val (fun c => c.op = 0x0210) c → exec (.zero p) s = .next all) ∧
    (Ranging s p.val (fun c => c.op = 0x0211) c → exec (.copy p) s = .next all) ∧
    (Ranging s p.val (fun c => c.op = 0x0300 && c.fld 0x28 1 = 0) c → exec (.hintHot p) s = .next all) ∧
    (Ranging s p.val (fun c => c.op = 0x0300 && c.fld 0x28 1 = 1) c → exec (.hintCold p) s = .next all) ∧
    (Ranging s p.val (fun c => c.op = 0x0300 && c.fld 0x28 1 = 2) c → exec (.hintPin p) s = .next all) ∧
    (Ranging s p.val (fun c => c.op = 0x0300 && c.fld 0x28 1 = 3) c → exec (.hintUnpin p) s = .next all) ∧
    (Ranging s p.val (fun c => c.op = 0x0400) c → exec (.scan p) s = .next all)) ∧
  (∀ (s u : State) (p : PipeNo) (page : Nat) (c : Cmd), cmdNow s c.id = some c → c.todo = [page] → c.waiting = [] →
    let acted (i : Instr) : Prop := ∃ t, exec i s = .next t ∧ t.mp = u.mp ∧ t.sag = u.sag ∧ t.pl = u.pl ∧ t.ecc = u.ecc
    let completed (i : Instr) : Prop := ∃ t, exec i s = .next t ∧ t.mp = u.mp ∧ t.sag = u.sag ∧ t.pl = u.pl ∧ t.ecc = u.ecc ∧
      ∃ x ∈ t.pp.comps, x.pipe = c.pipe ∧ x.desc = c.desc ∧ x.tag = c.tag ∧ x.status = 0
    (Ranging s p.val (fun c => c.op = 0x0200 && c.fld 0x28 1 = 0) c → discardPage s page = some u → completed (.discard p)) ∧
    (Ranging s p.val (fun c => c.op = 0x0200 && c.fld 0x28 1 = 1) c → securePage s page c.id = some u → acted (.discardSecure p)) ∧
    (Ranging s p.val (fun c => c.op = 0x0210) c → zeroPage s page = some u → acted (.zero p)) ∧
    (Ranging s p.val (fun c => c.op = 0x0211) c →
      copyPages s page (page - c.fld 0x18 8 / 4096 + c.fld 0x20 8 / 4096) = some u → completed (.copy p)) ∧
    (Ranging s p.val (fun c => c.op = 0x0300 && c.fld 0x28 1 = 0) c → hintPage s page 0 = some u → completed (.hintHot p)) ∧
    (Ranging s p.val (fun c => c.op = 0x0300 && c.fld 0x28 1 = 1) c → hintPage s page 1 = some u → completed (.hintCold p)) ∧
    (Ranging s p.val (fun c => c.op = 0x0300 && c.fld 0x28 1 = 2) c → pinFull s c page = false → hintPage s page 2 = some u →
      completed (.hintPin p)) ∧
    (Ranging s p.val (fun c => c.op = 0x0300 && c.fld 0x28 1 = 3) c → hintPage s page 3 = some u → completed (.hintUnpin p)) ∧
    (Ranging s p.val (fun c => c.op = 0x0400) c → (scanPage s page).1 = u → completed (.scan p))) ∧
  (∀ (s : State) (p : PipeNo) (page : Nat) (c : Cmd), awake s = true → nextCmd s p.val (fun c => page ∈ c.todo) = some c →
    exec (.rangeActionPoint p page) s = .next (actOn s c page)) ∧
  (∀ (s u : State) (p : PipeNo) (page : Nat) (c : Cmd), awake s = true → nextCmd s p.val (fun c => page ∈ c.todo) = some c →
    page ∈ c.todo → c.op = 0x0200 → c.fld 0x28 1 = 0 → discardPage s page = some u → cmdNow u c.id = some c →
    ∃ t d, exec (.rangeActionPoint p page) s = .next t ∧ t.mp = u.mp ∧ t.sag = u.sag ∧ cmdNow t c.id = some d ∧
      d.todo = c.todo.filter (· ≠ page) ∧ d.donePages = c.donePages + 1) ∧
  (∀ (s : State) (p : PipeNo) (page : Nat), awake s = true → nextCmd s p.val (fun c => page ∈ c.todo) = none →
    page ∈ s.hl.scanPages → s.hl.scanPages.filter (· ≠ page) ≠ [] →
    ∃ t, exec (.rangeActionPoint p page) s = .next t ∧ t.hl.scanPages = s.hl.scanPages.filter (· ≠ page) ∧
      t.hl.scanFound = s.hl.scanFound ++ (scanPage s page).2) ∧
  (∀ (s : State) (c : Cmd), cmdNow s c.id = some c → c.todo = [] → c.waiting.filter (stillWaits s c) = [] →
    (c.op = 0x0210 ∨ c.op = 0x0211 ∨ (c.op = 0x0200 ∧ c.fld 0x28 1 = 0)) →
    settleRange s c.id = finishCmd s c 0 0 (BitVec.ofNat 64 c.range.2) 0) ∧
  (∀ (s : State) (c : Cmd), cmdNow s c.id = some c → c.todo = [] → c.waiting.filter (stillWaits s c) = [] →
    c.op = 0x0200 → c.fld 0x28 1 = 1 →
    settleRange s c.id = finishCmd s c 0 0 (BitVec.ofNat 64 c.range.2) (BitVec.ofNat 64 c.found.length)) ∧
  (∀ (s : State) (c : Cmd), cmdNow s c.id = some c → c.todo = [] → c.waiting.filter (stillWaits s c) = [] → c.op = 0x0300 →
    settleRange s c.id = finishCmd s c 0 0 0 0) ∧
  (∀ (s : State) (c : Cmd), cmdNow s c.id = some c → (c.todo ≠ [] ∨ c.waiting.filter (stillWaits s c) ≠ []) →
    (settleRange s c.id).pp.comps = s.pp.comps)

/-- Action points of one page: a plain discard drops the page's saggar lines and puts a mapped page into DISCARD_PENDING;
ZERO drops them too and leaves the page unmapped; a secure discard sets SECURE and cancels a standing seal; a page in
a drain, in a secure discard or with a fill in flight is not acted on; HOT sets the heat count to its top, COLD to 0,
PIN and UNPIN the PIN flag, a pinned page of glaze going to be refreshed; a PIN that meets its rank's limit ends its
command with PIN_LIMIT and the pages it has done. -/
def Obligations.ActionPointsOfPages : Prop :=
  (∀ (s : State) (page : Nat) (e : MapEntry), entry? (fetchSeg s page) page = some e → pageWaits (fetchSeg s page) page = false →
    e.state ≠ .unmapped → e.state ≠ .discardPending →
    discardPage s page = some (let t := setEntry (dropLines (fetchSeg s page) page) page { e with state := .discardPending }
      { t with pl := { t.pl with dropsDue := addNew t.pl.dropsDue page } })) ∧
  (∀ (s : State) (page : Nat) (e : MapEntry), entry? (fetchSeg s page) page = some e → pageWaits (fetchSeg s page) page = true →
    discardPage s page = none ∧ zeroPage s page = none) ∧
  (∀ (s : State) (page : Nat) (e : MapEntry), entry? (fetchSeg s page) page = some e → pageWaits (fetchSeg s page) page = false →
    ∃ t, zeroPage s page = some t ∧ page ∉ t.pl.dropsDue ∧
      t = { unmapPage (poisonLeavePage (dropLines (fetchSeg s page) page) page) page .unmapped with
        pl := { (unmapPage (poisonLeavePage (dropLines (fetchSeg s page) page) page) page .unmapped).pl with
          dropsDue := t.pl.dropsDue } }) ∧
  (∀ (s : State) (page cmd : Nat) (e : MapEntry), entry? (fetchSeg s page) page = some e → inDrain (fetchSeg s page) page = false →
    inFiring (fetchSeg s page) page = false → inSecure (fetchSeg s page) page = false → page ∉ (fetchSeg s page).pl.relocating →
    ∃ t, securePage s page cmd = some t ∧ t.pwr.standing = false ∧ entry? t page = some { e with secure := true } ∧
      t.pl.secure = (fetchSeg s page).pl.secure ++ [{ page := page, step := 1, admittedBefore := s.clk.beat, cmd := cmd }]) ∧
  (∀ (s : State) (page kind : Nat) (e : MapEntry), entry? (fetchSeg s page) page = some e →
    (kind = 0 → hintPage s page kind = some (setEntry (fetchSeg s page) page (setHeat s.pl.heatEpoch 4095 e))) ∧
    (kind = 1 → hintPage s page kind = some (setEntry (fetchSeg s page) page { e with heatCount := 0 })) ∧
    (kind = 3 → hintPage s page kind = some (setEntry (fetchSeg s page) page { e with pin := false })) ∧
    (kind = 2 → ∃ t, hintPage s page kind = some t ∧ entry? t page = some { e with pin := true } ∧
      ((e.state = .glaze ∨ e.state = .split) → page ∈ t.pl.refreshes))) ∧
  (∀ (s : State) (c : Cmd) (page : Nat), page ∉ c.todo → actOn s c page = s) ∧
  (∀ (s t : State) (c : Cmd) (page : Nat), page ∈ c.todo → c.op = 0x0200 → c.fld 0x28 1 ≠ 1 → discardPage s page = some t →
    actOn s c page = pageDone t c page false []) ∧
  (∀ (s t : State) (c : Cmd) (page : Nat), page ∈ c.todo → c.op = 0x0210 → zeroPage s page = some t →
    actOn s c page = pageDone t c page true []) ∧
  (∀ (s t : State) (c : Cmd) (page : Nat), page ∈ c.todo → c.op = 0x0211 →
    copyPages s page (page - c.fld 0x18 8 / 4096 + c.fld 0x20 8 / 4096) = some t →
    actOn s c page = pageDone t c page false []) ∧
  (∀ (s : State) (c : Cmd) (page : Nat), page ∈ c.todo → c.op = 0x0400 →
    actOn s c page = pageDone (scanPage s page).1 c page false (scanPage s page).2) ∧
  (∀ (s : State) (c : Cmd) (page : Nat), c.todo.head? = some page → c.op = 0x0300 → c.fld 0x28 1 = 2 →
    (entryNow s page).pin = false → pinRoom s (pinRank s page) = false →
    actOn s c page = finishCmd s c 9 0 (BitVec.ofNat 64 c.donePages) 0)

/-- Migrations: the record of a new slot becomes durable before its converter begins; a leaf joins the active leaves only
when all its segments are held in the map cache; a leaf whose pages are all ready switches once, every page taking the
target regime; a switched leaf whose lines are durable leaves and counts as done, and after the last the migration
ends; a budget migration takes one stripe at a time and ends when no named rank lacks any. -/
def Obligations.MigrationsRun : Prop :=
  (∀ (s : State) (m : Fin 4), (migSlot s m.val).valid = true → (migSlot s m.val).durable = false → keepUp s = true → awake s = true →
    ∃ t, exec (.migrationRecordDurable m) s = .next t ∧ (migSlot t m.val) = { migSlot s m.val with durable := true } ∧
      t = { s with mp := t.mp, kp := t.kp }) ∧
  (∀ (s : State) (m : Fin 4), (migSlot s m.val).durable = true →
    exec (.migrationRecordDurable m) s = .next s) ∧
  (∀ (s : State) (m : Fin 4), (migSlot s m.val).valid = false ∨ (migSlot s m.val).kind = 4 ∨ (migSlot s m.val).durable = false ∨
      16 ≤ (migSlot s m.val).active.length →
    exec (.leafConvertStart m) s = .next s) ∧
  (∀ (s : State) (m : Fin 4), mediaRuns s = true → (migSlot s m.val).valid = true → (migSlot s m.val).kind ≠ 4 →
    (migSlot s m.val).durable = true → (migSlot s m.val).active.length < 16 →
    nextLeaf (migSlot s m.val) < ((migSlot s m.val).base + (migSlot s m.val).size) * 2048 →
    (∀ r ∈ leafRanks s (nextLeaf (migSlot s m.val)), lostLinks s r < 3) →
    exec (.leafConvertStart m) s = .next (
      if leafHeld (holdLeaf s (nextLeaf (migSlot s m.val))) (nextLeaf (migSlot s m.val)) then
        prepareLeaf (updMig (holdLeaf s (nextLeaf (migSlot s m.val))) m.val fun x =>
          { x with active := x.active ++ [nextLeaf (migSlot s m.val)] }) m.val (nextLeaf (migSlot s m.val))
      else holdLeaf s (nextLeaf (migSlot s m.val)))) ∧
  (∀ (s : State) (m : Fin 4) (L : Nat), mediaRuns s = true → (migSlot s m.val).valid = true → (migSlot s m.val).kind ≠ 4 →
    (migSlot s m.val).durable = true → (migSlot s m.val).active.length < 16 → L = nextLeaf (migSlot s m.val) →
    L < ((migSlot s m.val).base + (migSlot s m.val).size) * 2048 → (∀ r ∈ leafRanks s L, lostLinks s r < 3) →
    leafHeld (holdLeaf s L) L = true →
    ∃ t, exec (.leafConvertStart m) s = .next t ∧ (migSlot t m.val).active = (migSlot s m.val).active ++ [L]) ∧
  (∀ (s : State) (m : Fin 4) (leaf : Nat), mediaRuns s = true → leaf ∈ (migSlot s m.val).active →
    leaf ∉ (migSlot s m.val).switched → (leafPages leaf).all (pageReady s (migSlot s m.val)) = true → leafHeld s leaf = true →
    ∃ t, exec (.leafSwitchBeat m leaf) s = .next t ∧ leaf ∈ (migSlot t m.val).switched) ∧
  (∀ (s : State) (m : Fin 4) (leaf : Nat), (leaf ∉ (migSlot s m.val).active ∨ leaf ∈ (migSlot s m.val).switched) →
    exec (.leafSwitchBeat m leaf) s = .next s) ∧
  (∀ (s : State) (m : Fin 4) (leaf : Nat), awake s = true → leaf ∈ (migSlot s m.val).switched →
    (migSlot s m.val).active.head? = some leaf → (∀ i, i < 64 → lineDurable s (leaf * 64 + i) = true) →
    ((migSlot s m.val).doneLeaves + 1) - (migSlot s m.val).passBase ≠ (migSlot s m.val).size * 2048 →
    (migSlot s m.val).valid = true →
    ∃ t, exec (.leafConvertDone m leaf) s = .next t ∧ migSlot t m.val = { migSlot s m.val with
      active := (migSlot s m.val).active.drop 1, switched := (migSlot s m.val).switched.filter (· ≠ leaf)
      doneLeaves := (migSlot s m.val).doneLeaves + 1 }) ∧
  (∀ (s : State) (m : Fin 4) (leaf : Nat), leaf ∉ (migSlot s m.val).switched → exec (.leafConvertDone m leaf) s = .next s) ∧
  (∀ (s : State) (r : Rank) (m : Nat) (x : MigSlot),
    (s.mp.mig.find? fun x => x.2.valid && x.2.kind = 4 && x.2.durable) = some (m, x) → mediaRuns s = true → r.val ∈ x.ranks →
    parked s r.val = false → (∀ q ∈ x.ranks, budgetLack s q = 0) →
    exec (.budgetMigrationStripe r) s = .next (endMigration s m)) ∧
  (∀ (s : State) (r : Rank) (m : Nat) (x : MigSlot) (y : Nat × BsRec),
    (s.mp.mig.find? fun x => x.2.valid && x.2.kind = 4 && x.2.durable) = some (m, x) → mediaRuns s = true → r.val ∈ x.ranks →
    parked s r.val = false → budgetLack s r.val ≠ 0 → nextDirty s r.val = some y → y.2.cycles < 20000 →
    ∃ t, exec (.budgetMigrationStripe r) s = .next t ∧ (stripe t y.1).state = .blank ∧ (stripe t y.1).bisque = true ∧
      (stripe t y.1).cycles = (stripe s y.1).cycles + 1 ∧ ∀ z ∈ t.mp.media, slotBs (z.1 / 64) ≠ y.1) ∧
  (∀ (s : State) (r : Rank), (s.mp.mig.find? fun x => x.2.valid && x.2.kind = 4 && x.2.durable) = none →
    exec (.budgetMigrationStripe r) s = .next s)

/-- Joining: an intact status of another position is heard and kept as that peer's; a member sends its own complete
status; a JOIN with another compatibility version, a lower position serial or another digest is named in a
member-refused event by a member and admitted by none; one that agrees is admitted; a frame of one's own position is
no peer's; without the Briter link nothing happens; a member forwards what another position sent. Semaphores over the
consort, time and loss: a peer's read takes a free semaphore under 0x30 + position and answers its holder, its write
releases its own and no other's; a follower lengthens or shortens its beat by one cycle at most once in 1,024 beats;
its slew moves by one toward the leader at most once in 1,024 beats, and jumps when over a second away; a member not
heard for 64 beats leaves the members, its semaphores are free and an event names it; a frame whose CRC is right is no
fault, and the eighth wrong one within 1,024 beats is. -/
def Obligations.MembersAndTheirTime : Prop :=
  ((∀ (s : State) (o : Fin 4) (st : PeerStatus), briterUp s = true → o.val ≠ s.cn.pos → s.cn.joined = false →
      exec (.briterStatus o st) s = .next { s with cn := { s.cn with
        heard := tset 0 s.cn.heard o.val s.clk.beat, trains := true, retrainAt := none
        peers := tset none s.cn.peers o.val (some st) } }) ∧
    (∀ (s : State) (o : Fin 4) (st : PeerStatus), briterUp s = true → o.val ≠ s.cn.pos → s.cn.joined = true →
      ∃ t, exec (.briterStatus o st) s = .next t ∧ t.cn.peers = tset none s.cn.peers o.val (some st) ∧
        t.cn.heard = tset 0 s.cn.heard o.val s.clk.beat ∧ t.cn.relayed = (o.val, .status st) :: s.cn.relayed ∧ t.cn.members = s.cn.members ∧
        t.cn.beatLeader = (memberList s).headD s.cn.pos ∧
        t = { s with clk := { s.clk with offset := t.clk.offset, tvalid := t.clk.tvalid }, cn := t.cn }) ∧
    (∀ (s : State) (o : Fin 4) (st : PeerStatus), (briterUp s = false ∨ o.val = s.cn.pos) → exec (.briterStatus o st) s = .next s) ∧
    (∀ s : State, briterUp s = true → s.cn.joined = true →
      exec .briterStatusSend s = .next { s with cn := { s.cn with
        want := ownWant s, sent := .status { ownStatus s with want := ownWant s } :: s.cn.sent } }) ∧
    (∀ s : State, (briterUp s = false ∨ s.cn.joined = false) → exec .briterStatusSend s = .next s) ∧
    (∀ (s : State) (o : Fin 4) (serial : BitVec 64) (st : PeerStatus), briterTakes s (.join o.val serial) = true → s.cn.joined = true → o.val ≠ s.cn.pos →
      st.compat = 1#32 → (s.cn.members.getLsbD o.val = false ∨ tget 0 s.cn.serials o.val = 0#64 ∨
        serial.toNat ≤ (tget 0 s.cn.serials o.val).toNat) → st.digest = liveDigest s →
      ∃ t, exec (.briterJoin o serial st) s = .next t ∧ t.cn.members = s.cn.members ||| (1#4 <<< o.val) ∧
        t.cn.peers = tset none s.cn.peers o.val (some st) ∧ t.cn.serials = tset 0 s.cn.serials o.val serial ∧
        t = { s with cn := t.cn }) ∧
    (∀ (s : State) (o : Fin 4) (serial : BitVec 64) (st : PeerStatus), briterTakes s (.join o.val serial) = true → s.cn.joined = true →
      (st.compat ≠ 1#32 ∨ (o.val ≠ s.cn.pos ∧ st.digest ≠ liveDigest s)) →
      ∃ t, exec (.briterJoin o serial st) s = .next t ∧ t.cn.members = s.cn.members ∧ t.cn.peers = s.cn.peers ∧
        ReportsOnly { s with cn := t.cn } t) ∧
    (∀ (s : State) (o : Fin 4) (serial : BitVec 64) (st : PeerStatus), briterUp s = false →
      exec (.briterJoin o serial st) s = .next s)) ∧
  ((∀ (s : State) (o : Fin 4) (n : Fin 64), briterTakes s (.reg n.val 0) = true → s.cn.joined = true → s.cn.members.getLsbD o.val = true →
      o.val ≠ s.cn.pos → tget none s.pp.sema n.val = none →
      ∃ t, exec (.briterReg o n false) s = .next t ∧ tget none t.pp.sema n.val = some (BitVec.ofNat 8 (0x30 + o.val)) ∧
        t.cn.sent = .reg n.val (0x30 + o.val) :: s.cn.sent) ∧
    (∀ (s : State) (o : Fin 4) (n : Fin 64) (h : Byte), briterTakes s (.reg n.val 0) = true → s.cn.joined = true →
      s.cn.members.getLsbD o.val = true → o.val ≠ s.cn.pos → tget none s.pp.sema n.val = some h →
      ∃ t, exec (.briterReg o n false) s = .next t ∧ t.pp.sema = s.pp.sema ∧ t.cn.sent = .reg n.val h.toNat :: s.cn.sent) ∧
    (∀ (s : State) (o : Fin 4) (n : Fin 64), briterTakes s (.reg n.val 0) = true → s.cn.joined = true → s.cn.members.getLsbD o.val = true →
      o.val ≠ s.cn.pos → tget none s.pp.sema n.val = some (BitVec.ofNat 8 (0x30 + o.val)) →
      ∃ t, exec (.briterReg o n true) s = .next t ∧ t.pp.sema = tset none s.pp.sema n.val none) ∧
    (∀ (s : State) (o : Fin 4) (n : Fin 64), briterTakes s (.reg n.val 0) = true → s.cn.joined = true → s.cn.members.getLsbD o.val = true →
      o.val ≠ s.cn.pos → tget none s.pp.sema n.val ≠ some (BitVec.ofNat 8 (0x30 + o.val)) →
      ∃ t, exec (.briterReg o n true) s = .next t ∧ t.pp.sema = s.pp.sema) ∧
    (∀ (s : State) (ahead : Bool), briterUp s = true → s.cn.joined = true → s.cn.pos ≠ s.cn.beatLeader →
      s.clk.lastAdjust + 1024 ≤ s.clk.beat →
      exec (.beatAlign ahead) s = .next { s with clk := { s.clk with
        adjust := s.clk.adjust + (if ahead then 1 else -1), lastAdjust := s.clk.beat } }) ∧
    (∀ (s : State) (ahead : Bool), s.clk.beat < s.clk.lastAdjust + 1024 → exec (.beatAlign ahead) s = .next s) ∧
    (∀ s : State, briterUp s = true → followsTime s = true → (tget none s.cn.peers s.cn.timeLeader).isSome = true →
      (leaderDiff s - s.cn.slew).natAbs ≤ 16000000 → s.cn.lastSlew + 1024 ≤ s.clk.beat → leaderDiff s ≠ s.cn.slew →
      ∃ t, exec .timeSlew s = .next t ∧
        t.cn = { s.cn with slew := s.cn.slew + (if s.cn.slew < leaderDiff s then 1 else -1), lastSlew := s.clk.beat }) ∧
    (∀ s : State, briterUp s = true → followsTime s = true → (tget none s.cn.peers s.cn.timeLeader).isSome = true →
      16000000 < (leaderDiff s - s.cn.slew).natAbs →
      ∃ t, exec .timeSlew s = .next t ∧ t.cn = { s.cn with slew := leaderDiff s, lastSlew := s.clk.beat }) ∧
    (∀ (s : State) (p : Fin 4), briterUp s = true → s.cn.joined = true → s.cn.members.getLsbD p.val = true → p.val ≠ s.cn.pos →
      tget 0 s.cn.heard p.val + 64 ≤ s.clk.beat →
      ∃ t, exec (.memberLost p) s = .next t ∧ t.cn.members = s.cn.members &&& ~~~(1#4 <<< p.val) ∧
        ∀ x ∈ t.pp.sema, x.2 ≠ some (BitVec.ofNat 8 (0x30 + p.val))) ∧
    (∀ (s : State) (p : Fin 4), s.clk.beat < tget 0 s.cn.heard p.val + 64 → exec (.memberLost p) s = .next s) ∧
    (∀ (s : State) (f : BitVec 64), crc8 f = f.toNat % 256 → exec (.briterCrcFail f) s = .next s) ∧
    (∀ (s : State) (f : BitVec 64), briterUp s = true → crc8 f ≠ f.toNat % 256 →
      (s.cn.crcAt.filter fun b => s.clk.beat < b + 1024).length < 7 →
      exec (.briterCrcFail f) s = .next { s with cn := { s.cn with
        crcAt := s.clk.beat :: s.cn.crcAt.filter fun b => s.clk.beat < b + 1024 } }) ∧
    (∀ (s : State) (f : BitVec 64), briterUp s = true → crc8 f ≠ f.toNat % 256 →
      7 ≤ (s.cn.crcAt.filter fun b => s.clk.beat < b + 1024).length →
      exec (.briterCrcFail f) s = .next { s with cn := { s.cn with
        faults := satAdd 4 s.cn.faults 1, crcAt := [], trains := false, retrainAt := some (s.clk.beat + 256) } }))

/-- Two-phase agreement: a PREPARE that finds nothing pending is acknowledged with the digest of the change after the
member's check, one that finds a shadow out of range is refused with reason 1, one that finds another change pending
with reason 2; the last missing acknowledgement of the right digest sends GO and the change is to be applied; a wrong
digest, a NACK, an ABORT or a missing acknowledgement of 40 beats ends the agreement without the change; no GO by the
beat before N is a fault of the link. (Reason codes 1 and 2 are the model's, see the log. In Sleep and Deep sleep the
link carries only STATUS and WAKE.) Power agreements: the command that asked for a state, or the lowest member for a
state that all want, opens one 128 beats ahead; while a change is pending no other is opened; a wake frame wakes a
sleeping member with source 5. -/
def Obligations.AgreementsRun : Prop :=
  ((∀ (s : State) (o : Fin 4) (n : BitVec 64), briterTakes s (.prepare n.toNat .configuration) = true → s.cn.joined = true → o.val ≠ s.cn.pos →
      s.cn.members.getLsbD o.val = true → s.cn.agreement = none → s.pp.commit = none → badShadow s = none →
      ∃ t, exec (.briterPrepare o n .configuration) s = .next t ∧
        t.cn.agreement = some { origin := o.val, n := n.toNat, kind := .configuration, preparedAt := s.clk.beat } ∧
        t.pp.commit = some { beat := toOwn s n.toNat, needsGo := true } ∧
        t.cn.sent = .ack n.toNat (Config.digest (cfgShadow s 58) (cfgShadow s 59) (cfgShadow s 60)) :: s.cn.sent) ∧
    (∀ (s : State) (o : Fin 4) (n : BitVec 64), briterTakes s (.prepare n.toNat .configuration) = true → s.cn.joined = true → o.val ≠ s.cn.pos →
      s.cn.members.getLsbD o.val = true → s.cn.agreement = none → s.pp.commit = none → (badShadow s).isSome = true →
      exec (.briterPrepare o n .configuration) s = .next (sendFrame (heardFrom s o.val (.prepare n.toNat .configuration)) (.nack n.toNat 1))) ∧
    (∀ (s : State) (o : Fin 4) (n : BitVec 64) (k : ConsortKind), briterTakes s (.prepare n.toNat k) = true → s.cn.joined = true → o.val ≠ s.cn.pos →
      s.cn.members.getLsbD o.val = true → s.cn.agreement = none → s.pp.commit.isSome = true →
      exec (.briterPrepare o n k) s = .next (sendFrame (heardFrom s o.val (.prepare n.toNat k)) (.nack n.toNat 2))) ∧
    (∀ (s : State) (o : Fin 4) (n d : BitVec 64) (a : Agreement), briterTakes s (.ack n.toNat d) = true → s.cn.joined = true → o.val ≠ s.cn.pos →
      s.cn.agreement = some a → a.origin = s.cn.pos → a.n = n.toNat → a.go = false → a.kind = .configuration →
      d = proposedDigest s → (∀ p ∈ others s, p = o.val ∨ p ∈ a.acks) →
      ∃ t, exec (.briterAck o n d) s = .next t ∧ t.cn.agreement = some { a with acks := addNew a.acks o.val, go := true } ∧
        t.cn.sent = .go a.n :: .go a.n :: s.cn.sent ∧ t.pp.commit = s.pp.commit.map fun c => { c with go := true }) ∧
    (∀ (s : State) (o : Fin 4) (n d : BitVec 64) (a : Agreement), briterTakes s (.ack n.toNat d) = true → s.cn.joined = true → o.val ≠ s.cn.pos →
      s.cn.agreement = some a → a.origin = s.cn.pos → a.n = n.toNat → a.go = false → a.kind = .configuration →
      d ≠ proposedDigest s →
      exec (.briterAck o n d) s = .next (dropAgreement (heardFrom s o.val (.ack n.toNat d)) 8)) ∧
    (∀ (s : State) (o : Fin 4) (n : BitVec 64) (r : Nat) (a : Agreement), briterTakes s (.nack n.toNat r) = true → s.cn.joined = true → o.val ≠ s.cn.pos →
      s.cn.agreement = some a → a.origin = s.cn.pos → a.n = n.toNat → a.go = false →
      exec (.briterNack o n r) s = .next (dropAgreement (heardFrom s o.val (.nack n.toNat r)) 8)) ∧
    (∀ (s : State) (o : Fin 4) (n : BitVec 64) (a : Agreement), briterTakes s (.abort n.toNat) = true → s.cn.joined = true → o.val ≠ s.cn.pos →
      s.cn.agreement = some a → a.origin = o.val → a.n = n.toNat → a.go = false →
      exec (.briterAbort o n) s = .next (dropAgreement (heardFrom s o.val (.abort n.toNat)) 8) ∧
      ∃ t, exec (.briterGo o n) s = .next t ∧ t.cn.agreement = some { a with go := true } ∧
        (a.kind = .configuration → t.pp.commit = s.pp.commit.map fun c => { c with go := true })) ∧
    (∀ (s : State) (a : Agreement), briterUp s = true → s.cn.agreement = some a → a.origin = s.cn.pos → a.go = false →
      a.preparedAt + 40 ≤ s.clk.beat → exec .agreementAckTimeout s = .next (dropAgreement s 8)) ∧
    (∀ (s : State) (a : Agreement), s.cn.agreement = some a → s.clk.beat < a.preparedAt + 40 →
      exec .agreementAckTimeout s = .next s) ∧
    (∀ (s : State) (a : Agreement), briterUp s = true → s.cn.agreement = some a → a.origin ≠ s.cn.pos → a.go = false →
      a.n ≤ toConsort s s.clk.beat + 1 →
      ∃ t, exec .goMissed s = .next t ∧ t.cn.agreement = none ∧ t.cn.faults = satAdd 4 s.cn.faults 1 ∧ t.cn.trains = false) ∧
    (∀ (s : State) (status : Nat), (dropAgreement s status).cn.agreement = none ∧ (dropAgreement s status).live = s.live ∧
      (dropAgreement s status).pp.epoch = s.pp.epoch)) ∧
  ((∀ (s : State) (c st : Nat), briterUp s = true → s.cn.joined = true → commitBusy s = false → s.pwr.askedCmd = some c →
      s.pwr.asked = some st →
      ∃ t a, exec .powerPropose s = .next t ∧ t.cn.agreement = some a ∧ a.origin = s.cn.pos ∧ a.kind = .power st ∧
        a.n = toConsort s s.clk.beat + 128 ∧ a.cmd = some c) ∧
    (∀ (s : State), briterUp s = true → s.cn.joined = true → commitBusy s = false → s.pwr.askedCmd = none →
      (memberList s).headD s.cn.pos = s.cn.pos → 2 ≤ wantedByAll s →
      ∃ t a, exec .powerPropose s = .next t ∧ t.cn.agreement = some a ∧ a.kind = .power (wantedByAll s) ∧ a.cmd = none) ∧
    (∀ s : State, (briterUp s = false ∨ s.cn.joined = false ∨ commitBusy s = true) → exec .powerPropose s = .next s) ∧
    (∀ (s : State) (o : Fin 4), s.cn.joined = true → o.val ≠ s.cn.pos → s.pwr.supplies = true → s.pwr.inReset = false →
      s.pwr.state = .sleep →
      ∃ t, exec (.briterWake o) s = .next t ∧ t.pwr.state = .run ∧ t.pwr.wakeSrc = 5 ∧ t.pwr.wakes = satAdd 32 s.pwr.wakes 1) ∧
    (∀ (s : State) (o : Fin 4), s.cn.joined = true → o.val ≠ s.cn.pos → s.pwr.supplies = true → s.pwr.inReset = false →
      s.pwr.state = .deepSleep →
      ∃ t, exec (.briterWake o) s = .next t ∧ t.ev.wakePending = some 5 ∧ t.pwr = s.pwr) ∧
    (∀ (s : State) (o : Fin 4), s.cn.joined = false → exec (.briterWake o) s = .next s))

/-- Configuration registers: the host reads a live value at its address and the shadow at the shadow's; a write of 8 bytes
at either address changes the writable bits of the shadow and nothing else; what the host moves counts as CXL.io
payload (R612); SHADOW_WRITE is such a write, and of an offset that names no configuration register nothing. -/
def Obligations.ConfigurationRegisters : Prop :=
  (∀ (s : State) (m : Byte) (off t k o id : Nat) (sh : Bool), masterReaches s m = true → 65536 ≤ off → off % 8 = 0 →
    locate 0 off = some (t, k, o) → o % 8 = 0 → cfgAt t o = some (id, sh) →
    ∃ u, exec (.registerRead m 0 off 8) s = .next u ∧
      u.hl.rdData = (if sh then cfgShadow s id else cfg s id).setWidth 512 ∧ u = ioPayload { s with hl := u.hl } m 3 8) ∧
  (∀ (s : State) (m : Byte) (off t k o id : Nat) (sh : Bool) (v : LineData), masterReaches s m = true → 65536 ≤ off →
    off % 8 = 0 → locate 0 off = some (t, k, o) → o % 8 = 0 → cfgAt t o = some (id, sh) →
    exec (.registerWrite m 0 off 8 v) s = .next (ioPayload { s with
      shadow := tset (cfgReset id) s.shadow id
        ((cfgShadow s id &&& ~~~(cfgMask id)) ||| (v.setWidth 64 &&& cfgMask id)) } m 2 8)) ∧
  (∀ (s : State) (off t k o id : Nat) (sh : Bool) (v : Reg), hostOpen s = true → 65536 ≤ off →
    off % 8 = 0 → locate 0 off = some (t, k, o) → o % 8 = 0 → cfgAt t o = some (id, sh) →
    exec (.shadowWrite off 8 v) s = .next (ioPayload { s with
      shadow := tset (cfgReset id) s.shadow id ((cfgShadow s id &&& ~~~(cfgMask id)) ||| (v &&& cfgMask id)) } 0 2 8)) ∧
  (∀ (s : State) (off size : Nat) (v : Reg), locate 0 off = none → exec (.shadowWrite off size v) s = .next s) ∧
  (∀ (s : State) (off size t k o : Nat) (v : Reg), locate 0 off = some (t, k, o) → cfgAt t (o / 8 * 8) = none →
    exec (.shadowWrite off size v) s = .next s) ∧
  (∀ id ∈ cfgIds, cfgAt (cfgPlace id).1 (cfgPlace id).2 = some (id, false) ∧
    cfgAt (cfgPlace id).1 ((cfgPlace id).2 + shadowOff (cfgPlace id).1) = some (id, true))

/-- Register accesses: a read of a size or alignment that the rules do not allow ends as Completer Abort and reads 0, such
a write is dropped, both are logged with their request (log 111); an offset of no block reads 0 and ignores writes; a
master that does not reach the registers changes nothing; an access in Deep sleep becomes the wake source; a read of
the chart answers its bytes; the telemetry-side registers: EVNT_RDSEL selects a record of the ring or none, a
monitor's select waits for a boundary, HKEP_SENSE_B returns retired channels on probation; arena bytes are written as
given; what the host moves counts as CXL.io payload (R612). -/
def Obligations.RegisterAccesses : Prop :=
  (∀ (s : State) (m : Byte) (bar off size : Nat) (v : LineData), masterReaches s m = true → barAccessOk bar off size = false →
    exec (.registerRead m bar off size) s = .next { s with hl := { s.hl with
      aerUncorrectable := s.hl.aerUncorrectable ||| 0x8000, completerAbort := true, rdData := 0
      aerHead := some { bar := bar, off := off, size := size, isRead := true } } } ∧
    exec (.registerWrite m bar off size v) s = .next (ioPayload { s with hl := { s.hl with
      aerUncorrectable := s.hl.aerUncorrectable ||| 0x8000, completerAbort := false
      aerHead := some { bar := bar, off := off, size := size, isRead := false } } } m 2 size)) ∧
  (∀ (s : State) (m : Byte) (off size : Nat) (v : LineData), masterReaches s m = true → barAccessOk 0 off size = true →
    65536 ≤ off → locate 0 off = none →
    exec (.registerRead m 0 off size) s = .next (ioPayload (answer s 0) m 3 size) ∧
    exec (.registerWrite m 0 off size v) s = .next (ioPayload s m 2 size)) ∧
  (∀ (s : State) (m : Byte) (bar off size : Nat) (v : LineData), m ≠ 0 → masterReaches s m = false →
    exec (.registerRead m bar off size) s = .next s ∧ exec (.registerWrite m bar off size v) s = .next s) ∧
  (∀ (s : State) (bar off size : Nat), s.pwr.state = .deepSleep →
    exec (.registerRead 0 bar off size) s = .next { s with ev := { s.ev with wakePending := some 1 } }) ∧
  (∀ (s : State) (m : Byte) (off : Nat), masterReaches s m = true → off < 65536 → off % 8 = 0 →
    ∃ t, exec (.registerRead m 0 off 8) s = .next t ∧
      t.hl.rdData = (BitVec.ofNat 64 (chartValue s off)).setWidth 512 ∧ t = ioPayload { s with hl := t.hl } m 3 8) ∧
  (∀ (s : State) (seq : BitVec 63) (r : EvRec), hostOpen s = true → s.ev.floor ≤ seq.toNat → seq.toNat < s.ev.head →
    s.ev.head ≤ seq.toNat + 65536 → tget none s.ev.ring (seq.toNat % 65536) = some r →
    ∃ t, exec (.evntRdselWrite seq) s = .next (ioPayload t 0 2 8) ∧ t.ev = { s.ev with rdsel := seq.toNat, held := true, words := t.ev.words } ∧
      t.ev.words = (List.range 4).map fun i => BitVec.ofNat 64 (leNat ((r.bytes.drop (8 * i)).take 8))) ∧
  (∀ (s : State) (seq : BitVec 63), hostOpen s = true →
    (seq.toNat < s.ev.floor ∨ s.ev.head ≤ seq.toNat ∨ seq.toNat + 65536 < s.ev.head) →
    exec (.evntRdselWrite seq) s =
      .next (ioPayload { s with ev := { s.ev with rdsel := seq.toNat, held := false, words := [0, 0, 0, 0] } } 0 2 8)) ∧
  (∀ (s : State) (m : Fin 67) (n : Fin 8) (v : Reg), hostOpen s = true → selectOk m.val (fld v 0 16) (fld v 16 8) = true →
    exec (.monSelWrite m n v) s = .next (ioPayload (updMon s m.val fun y =>
      { y with next := y.next ++ [(n.val, some (fld v 0 16, fld v 16 8), v.getLsbD 32)] }) 0 2 8)) ∧
  (∀ (s : State) (m : Fin 67) (n : Fin 8) (v : Reg), hostOpen s = true → selectOk m.val (fld v 0 16) (fld v 16 8) = false →
    exec (.monSelWrite m n v) s = .next (ioPayload s 0 2 8)) ∧
  (∀ (s : State) (bits : BitVec 48), hostOpen s = true →
    exec (.hkepSenseBClear bits) s = .next (ioPayload (returnChannels s bits.toNat) 0 2 8)) ∧
  (∀ (s : State) (off size : Nat) (v : LineData) (o : Nat), hostOpen s = true → barAccessOk 4 off size = true →
    locate 4 off = some (0x70, 0, o) →
    exec (.registerWrite 0 4 off size v) s = 
      .next (ioPayload (writeBytes s (0x38000000 + o) (leBytes size v.toNat)) 0 2 size))

/-- Halves and semaphores: a read of the low half of a BCLK register latches the high half for its master, whose next read
of the high half answers what was latched; an acquiring read of a free semaphore takes it for the reader and answers
it, of a held one answers the holder and changes nothing, a read of the upper bytes alone acquires nothing; a write by
the holder frees it, by another master leaves it and raises semaphore-misuse. The test access port, whenever the
supplies are up, in reset too: IDCODE, BYPASS, SAMPLE, FUSE_READ and STATUS shift out their values, EXTEST drives the
pins, HALT_RELEASE lets a halted start go on with step 2, REG_READ and REG_WRITE are accesses of master 0x40; without
supplies nothing happens. (The places of IDCODE's, SAMPLE's and STATUS's bits are the model's, logs 5 and 46.) -/
def Obligations.LatchesSemaphoresAndTap : Prop :=
  ((∀ (s : State) (m : Byte) (r : Fin 3), masterReaches s m = true →
      ∃ t, exec (.bclkHalfRead m r false) s = .next t ∧
        t.hl.rdData = BitVec.ofNat 512 ((regValue s 0x01 0 (8 * r.val)).toNat % 2 ^ 32) ∧
        (m.toNat, r.val, (regValue s 0x01 0 (8 * r.val)).toNat / 2 ^ 32) ∈ t.clk.latches ∧
        t = ioPayload { s with clk := { s.clk with latches := t.clk.latches }, hl := t.hl } m 3 4) ∧
    (∀ (s : State) (m : Byte) (r : Fin 3) (x : Nat × Nat × Nat), masterReaches s m = true →
      (s.clk.latches.find? fun x => x.1 = m.toNat && x.2.1 = r.val) = some x →
      ∃ t, exec (.bclkHalfRead m r true) s = .next t ∧ t.hl.rdData = BitVec.ofNat 512 x.2.2 ∧
        ∀ y ∈ t.clk.latches, ¬ (y.1 = m.toNat ∧ y.2.1 = r.val)) ∧
    (∀ (s : State) (m : Byte) (n : Fin 64), masterReaches s m = true → tget none s.pp.sema n.val = none →
      ∃ t, exec (.semaTakeRead m n false) s = .next t ∧ tget none t.pp.sema n.val = some m ∧
        t.hl.rdData = BitVec.ofNat 512 (0x8000 + m.toNat) ∧ t.ev = (ioPayload s m 3 8).ev ∧ t = { s with hl := t.hl, pp := { s.pp with sema := t.pp.sema }, ev := t.ev }) ∧
    (∀ (s : State) (m h : Byte) (n : Fin 64), masterReaches s m = true → tget none s.pp.sema n.val = some h →
      ∃ t, exec (.semaTakeRead m n false) s = .next t ∧ t = ioPayload { s with hl := t.hl } m 3 8 ∧
        t.hl.rdData = BitVec.ofNat 512 (0x8000 + h.toNat)) ∧
    (∀ (s : State) (m : Byte) (n : Fin 64), masterReaches s m = true →
      ∃ t, exec (.semaTakeRead m n true) s = .next t ∧ t = ioPayload { s with hl := t.hl } m 3 4 ∧ t.hl.rdData = 0) ∧
    (∀ (s : State) (m : Byte) (n : Fin 64), masterReaches s m = true → tget none s.pp.sema n.val = some m →
      exec (.semaTakeWrite m n) s =
        .next (ioPayload { s with pp := { s.pp with sema := tset none s.pp.sema n.val none } } m 2 8)) ∧
    (∀ (s : State) (m : Byte) (n : Fin 64), masterReaches s m = true → tget none s.pp.sema n.val ≠ some m →
      exec (.semaTakeWrite m n) s = .next (ioPayload (raise s 0x43 0x41 n.val m.toNat 0 0) m 2 8)) ∧
    (∀ (s : State) (code source p0 p1 p2 p3 : Nat), (raise s code source p0 p1 p2 p3).pp.sema = s.pp.sema)) ∧
  ((∀ s : State, s.pwr.supplies = true →
      exec (.tapInstruction .idcode) s = .next { s with hl := { s.hl with tapOut := BitVec.ofNat 64 idcode } } ∧
      exec (.tapInstruction .bypass) s = .next { s with hl := { s.hl with extest := none, tapOut := 0 } } ∧
      exec (.tapInstruction .sample) s = .next { s with hl := { s.hl with tapOut := BitVec.ofNat 64 (pinValues s) } } ∧
      exec (.tapInstruction .fuseRead) s = .next { s with hl := { s.hl with tapOut := BitVec.ofNat 64 Config.fuseImage.toNat } } ∧
      exec (.tapInstruction .status) s = .next { s with hl := { s.hl with tapOut := BitVec.ofNat 64 (tapStatus s) } }) ∧
    (∀ (s : State) (pins : BitVec 64), s.pwr.supplies = true →
      exec (.tapInstruction (.extest pins)) s = .next { s with hl := { s.hl with extest := some pins } }) ∧
    (∀ s : State, s.pwr.supplies = true → s.pwr.halted = true →
      exec (.tapInstruction .haltRelease) s = .next { s with pwr := { s.pwr with halted := false, step := 2 } }) ∧
    (∀ (s : State) (off : Nat), s.pwr.supplies = true →
      ∃ t, exec (.tapInstruction (.regRead off)) s = .next t ∧
        ∃ u, exec (.registerRead 0x40 0 off 8) s = .next u ∧ t = { u with hl := { u.hl with tapOut := u.hl.rdData.setWidth 64 } }) ∧
    (∀ (s : State) (off : Nat) (v : Reg), s.pwr.supplies = true →
      exec (.tapInstruction (.regWrite off v)) s = exec (.registerWrite 0x40 0 off 8 (v.setWidth 512)) s) ∧
    (∀ (s : State) (i : TapInstr), s.pwr.supplies = false → exec (.tapInstruction i) s = .next s))
end

