-- ==== Sys2Proof/Laws/Table.lean ====
section
/-! SUPPORT. The sparse tables and the addressed SRAM: reads after writes, the canonical form, and the ordered lists that `sortBy` makes. -/
namespace Sys2Proof.Machine

/-- A key below every listed one reads as the default. -/
theorem tget_below {α : Type} (d : α) (t : Tab α) (k : Nat) (h : ∀ x ∈ t, k < x.1) : tget d t k = d := by
  cases t with
  | nil => rfl
  | cons x t => simp [tget, h x (by simp)]

variable {α : Type} [DecidableEq α]

/-- What the canonical form says of a list with a head. -/
theorem Tab.wf_cons (d : α) (x : Nat × α) (t : Tab α) :
    Tab.wf d (x :: t) = true ↔ x.2 ≠ d ∧ (∀ y ∈ t, x.1 < y.1) ∧ Tab.wf d t = true := by
  simp [Tab.wf, and_assoc]

/-- Setting a key adds no key but that one. -/
theorem tset_keys (d : α) (t : Tab α) (k : Nat) (v : α) : ∀ x ∈ tset d t k v, x.1 = k ∨ ∃ y ∈ t, y.1 = x.1 := by
  induction t with
  | nil => intro x hx; unfold tset at hx; split at hx <;> simp_all
  | cons y t ih =>
    intro x hx
    unfold tset at hx
    split at hx
    · split at hx
      · exact .inr ⟨x, hx, rfl⟩
      · rcases List.mem_cons.1 hx with rfl | hx
        · exact .inl rfl
        · exact .inr ⟨x, hx, rfl⟩
    · split at hx
      · split at hx
        · exact .inr ⟨x, List.mem_cons_of_mem _ hx, rfl⟩
        · rcases List.mem_cons.1 hx with rfl | hx
          · exact .inl rfl
          · exact .inr ⟨x, List.mem_cons_of_mem _ hx, rfl⟩
      · rcases List.mem_cons.1 hx with rfl | hx
        · exact .inr ⟨_, List.mem_cons_self .., rfl⟩
        · rcases ih x hx with h | ⟨z, hz, h⟩
          · exact .inl h
          · exact .inr ⟨z, List.mem_cons_of_mem _ hz, h⟩

/-- The canonical form is kept by a write. -/
theorem tset_wf (d : α) (t : Tab α) (k : Nat) (v : α) (h : Tab.wf d t = true) : Tab.wf d (tset d t k v) = true := by
  induction t with
  | nil => unfold tset; split <;> simp_all [Tab.wf]
  | cons y t ih =>
    have hy := (Tab.wf_cons d y t).1 h
    unfold tset
    split
    · next hk =>
      split
      · exact h
      · next hv =>
        refine (Tab.wf_cons d _ _).2 ⟨hv, ?_, h⟩
        intro z hz
        rcases List.mem_cons.1 hz with rfl | hz
        · exact hk
        · exact Nat.lt_trans hk (hy.2.1 z hz)
    · split
      · next hk =>
        split
        · exact hy.2.2
        · next hv => exact (Tab.wf_cons d _ _).2 ⟨hv, fun z hz => hk ▸ hy.2.1 z hz, hy.2.2⟩
      · next hlt hne =>
        refine (Tab.wf_cons d _ _).2 ⟨hy.1, ?_, ih hy.2.2⟩
        intro z hz
        rcases tset_keys d t k v z hz with h | ⟨w, hw, h⟩
        · omega
        · rw [← h]; exact hy.2.1 w hw

/-- A read of the key just written. -/
theorem tget_tset_self (d : α) (t : Tab α) (k : Nat) (v : α) (h : Tab.wf d t = true) : tget d (tset d t k v) k = v := by
  induction t with
  | nil => unfold tset; split <;> simp_all [tget]
  | cons y t ih =>
    have hy := (Tab.wf_cons d y t).1 h
    unfold tset
    split
    · next hk =>
      split
      · next hv => simp [tget, hk, hv]
      · simp [tget]
    · split
      · next hk =>
        split
        · next hv =>
          rw [tget_below d t k fun z hz => hk ▸ hy.2.1 z hz, hv]
        · simp [tget]
      · next hlt hne => simp [tget, hlt, hne, ih hy.2.2]

/-- A read of another key. -/
theorem tget_tset_ne (d : α) (t : Tab α) (k j : Nat) (v : α) (h : Tab.wf d t = true) (hj : j ≠ k) :
    tget d (tset d t k v) j = tget d t j := by
  induction t with
  | nil => unfold tset; split <;> simp [tget]; omega
  | cons y t ih =>
    have hy := (Tab.wf_cons d y t).1 h
    unfold tset
    split
    · next hk =>
      split
      · rfl
      · by_cases hjk : j < k
        · simp [tget, hjk]; omega
        · simp [tget, hjk, hj]
    · split
      · next hk =>
        split
        · next hv =>
          by_cases hjk : j < y.1
          · rw [tget_below d t j fun z hz => Nat.lt_trans hjk (hy.2.1 z hz)]; simp [tget, hjk]
          · have : j ≠ y.1 := by omega
            simp [tget, hjk, this]
        · subst hk; simp [tget, hj]
      · next hlt hne =>
        unfold tget
        split
        · rfl
        · split
          · rfl
          · exact ih hy.2.2

/-- Storing bytes keeps the canonical form of SRAM. -/
theorem storeBytes_wf (m : Tab Byte) (a : Nat) (bs : List Byte) (h : Memory.wf m = true) :
    Memory.wf (storeBytes m a bs) = true := by
  induction bs generalizing m a with
  | nil => exact h
  | cons b bs ih => exact ih _ _ (tset_wf 0 m a b h)

/-- Storing bytes leaves every address outside them. -/
theorem storeBytes_other (m : Tab Byte) (a : Nat) (bs : List Byte) (h : Memory.wf m = true) (x : Nat)
    (hx : x < a ∨ a + bs.length ≤ x) : tget 0 (storeBytes m a bs) x = tget 0 m x := by
  induction bs generalizing m a with
  | nil => rfl
  | cons b bs ih =>
    have hx' : x < a + 1 ∨ a + 1 + bs.length ≤ x := by simp at hx; omega
    have hne : x ≠ a := by simp at hx; omega
    rw [storeBytes, ih _ _ (tset_wf 0 m a b h) hx', tget_tset_ne 0 m a x b h hne]

/-- Byte i of those stored reads back. -/
theorem storeBytes_at (m : Tab Byte) (a : Nat) (bs : List Byte) (h : Memory.wf m = true) (i : Nat) (hi : i < bs.length) :
    tget 0 (storeBytes m a bs) (a + i) = bs[i] := by
  induction bs generalizing m a i with
  | nil => simp at hi
  | cons b bs ih =>
    cases i with
    | zero =>
      rw [storeBytes, storeBytes_other _ _ _ (tset_wf 0 m a b h) _ (by omega)]
      simpa using tget_tset_self 0 m a b h
    | succ i =>
      have hi' : i < bs.length := by simpa using hi
      have := ih (tset 0 m a b) (a + 1) (tset_wf 0 m a b h) i hi'
      simpa [storeBytes, Nat.add_assoc, Nat.add_comm 1 i] using this

/-! ### Ordered lists -/

theorem insertBy_perm {α : Type} (le : α → α → Bool) (x : α) (l : List α) : (insertBy le x l).Perm (x :: l) := by
  induction l with
  | nil => exact List.Perm.refl _
  | cons y l ih =>
    unfold insertBy
    split
    · exact List.Perm.refl _
    · exact (ih.cons y).trans (List.Perm.swap x y l)

/-- Ordering a list keeps its elements. -/
theorem sortBy_perm {α : Type} (le : α → α → Bool) (l : List α) : (sortBy le l).Perm l := by
  induction l with
  | nil => exact List.Perm.refl _
  | cons x l ih => exact (insertBy_perm le x _).trans (ih.cons x)

@[simp] theorem sortBy_length {α : Type} (le : α → α → Bool) (l : List α) : (sortBy le l).length = l.length :=
  (sortBy_perm le l).length_eq

@[simp] theorem mem_sortBy {α : Type} (le : α → α → Bool) (l : List α) (x : α) : x ∈ sortBy le l ↔ x ∈ l :=
  (sortBy_perm le l).mem_iff

theorem insertBy_sorted {α : Type} {le : α → α → Bool} (tot : ∀ a b, le a b = true ∨ le b a = true)
    (tr : ∀ a b c, le a b = true → le b c = true → le a c = true) (x : α) {l : List α}
    (h : l.Pairwise fun a b => le a b = true) : (insertBy le x l).Pairwise fun a b => le a b = true := by
  induction l with
  | nil => exact List.pairwise_singleton _ _
  | cons y l ih =>
    rw [List.pairwise_cons] at h
    unfold insertBy
    split
    · next hx =>
      refine List.Pairwise.cons (fun z hz => ?_) (List.Pairwise.cons h.1 h.2)
      rcases List.mem_cons.mp hz with rfl | hz
      · exact hx
      · exact tr _ _ _ hx (h.1 z hz)
    · next hx =>
      refine List.Pairwise.cons (fun z hz => ?_) (ih h.2)
      rcases List.mem_cons.mp ((insertBy_perm le x l).mem_iff.mp hz) with rfl | hz
      · exact (tot z y).resolve_left hx
      · exact h.1 z hz

/-- Under a total, transitive order the ordered list ascends. -/
theorem sortBy_sorted {α : Type} {le : α → α → Bool} (tot : ∀ a b, le a b = true ∨ le b a = true)
    (tr : ∀ a b c, le a b = true → le b c = true → le a c = true) (l : List α) :
    (sortBy le l).Pairwise fun a b => le a b = true := by
  induction l with
  | nil => exact List.Pairwise.nil
  | cons x l ih => exact insertBy_sorted tot tr x ih

end Sys2Proof.Machine
end

