-- ==== Sys2Proof/Laws/Report.lean ====
section
/-! SUPPORT. What raising an event changes: the reporting fields, the capture banks and nothing else. -/
namespace Sys2Proof
open Machine Safety

/-- The zones are no reporting field. -/
theorem zonesWf_quiet {s t : State} (q : quiet t = quiet s) (h : ZonesWf s) : ZonesWf t := by
  have e : t.th = s.th := (congrArg State.th q : (quiet t).th = (quiet s).th)
  unfold ZonesWf; rw [e]; exact h

theorem Safety.ReportsOnly.refl (s : State) : ReportsOnly s s := ⟨rfl, fun h => ⟨h, fun _ _ => rfl⟩⟩

theorem Safety.ReportsOnly.trans {s t u : State} (h : ReportsOnly s t) (k : ReportsOnly t u) : ReportsOnly s u :=
  ⟨Eq.trans k.1 h.1, fun hi => ⟨(k.2 (h.2 hi).1).1, fun a ha => Eq.trans ((k.2 (h.2 hi).1).2 a ha) ((h.2 hi).2 a ha)⟩⟩

/-- A change of reporting fields other than SRAM and the queues. -/
theorem Safety.ReportsOnly.plain {s t u : State} (h : ReportsOnly s t) (q : quiet u = quiet t) (m : u.pp.sram = t.pp.sram)
    (c : u.ev.queues = t.ev.queues) : ReportsOnly s u :=
  h.trans ⟨q, fun hi => ⟨⟨by unfold SramWf; rw [m]; exact hi.sram, by unfold PacketsOk; rw [c]; exact hi.packets,
    zonesWf_quiet q hi.zones⟩, fun a _ => by unfold readByte; rw [m]⟩⟩

/-- A default that is no exception, and members of a changed table. -/
theorem tset_mem {α : Type} [DecidableEq α] (d : α) (t : Tab α) (k : Nat) (v : α) :
    ∀ x ∈ tset d t k v, x = (k, v) ∨ x ∈ t := by
  induction t with
  | nil => intro x hx; unfold tset at hx; split at hx <;> simp_all
  | cons y t ih =>
    intro x hx
    unfold tset at hx
    split at hx
    · split at hx
      · exact .inr hx
      · exact (List.mem_cons.1 hx).imp id fun h => h
    · split at hx
      · split at hx
        · exact .inr (List.mem_cons_of_mem _ hx)
        · rcases List.mem_cons.1 hx with h | h
          · exact .inl h
          · exact .inr (List.mem_cons_of_mem _ h)
      · rcases List.mem_cons.1 hx with h | h
        · exact .inr (h ▸ List.mem_cons_self ..)
        · exact (ih x h).imp id (List.mem_cons_of_mem _)

/-- What a read of a table answers is its default or one of its entries. -/
theorem tget_mem {α : Type} (d : α) (t : Tab α) (k : Nat) : tget d t k = d ∨ (k, tget d t k) ∈ t := by
  induction t with
  | nil => exact .inl rfl
  | cons y t ih =>
    unfold tget
    split
    · exact .inl rfl
    · split
      · next h => subst h; exact .inr (List.mem_cons_self ..)
      · exact ih.imp id (List.mem_cons_of_mem _)

/-- Every entry, and the default, meets a property: so does what is read. -/
theorem tget_all {α : Type} (P : α → Prop) (d : α) (t : Tab α) (hd : P d) (h : ∀ x ∈ t, P x.2) (k : Nat) : P (tget d t k) := by
  rcases tget_mem d t k with e | m
  · rw [e]; exact hd
  · exact h _ m

theorem capQ_count {s : State} (h : PacketsOk s) (q : Nat) : (capQ s q).count < 8190 :=
  tget_all (fun c : CapQ => c.count < 8190) _ _ (by decide) h q

/-- A change of one queue that keeps its packet below the limit. -/
theorem updCapQ_ok {s : State} (q : Nat) (f : CapQ → CapQ) (h : PacketsOk s) (hf : (f (capQ s q)).count < 8190) :
    PacketsOk (updCapQ s q f) := by
  intro x hx
  rcases tset_mem _ _ _ _ x hx with rfl | hx
  · exact hf
  · exact h x hx

theorem Safety.ReportsOnly.queue {s t : State} (h : ReportsOnly s t) (q : Nat) (f : CapQ → CapQ)
    (hf : PacketsOk t → (f (capQ t q)).count < 8190) : ReportsOnly s (updCapQ t q f) :=
  h.trans ⟨rfl, fun hi => ⟨⟨hi.sram, updCapQ_ok q f hi.packets (hf hi.packets), hi.zones⟩, fun _ _ => rfl⟩⟩

/-- Bytes written inside the capture banks. -/
theorem Safety.ReportsOnly.bytes {s t : State} (h : ReportsOnly s t) (a : Nat) (bs : List Byte)
    (hb : PacketsOk t → capBase 0 0 ≤ a ∧ a + bs.length ≤ capBase 8 0) : ReportsOnly s (writeBytes t a bs) :=
  h.trans ⟨rfl, fun hi => ⟨⟨storeBytes_wf _ _ _ hi.sram, hi.packets, hi.zones⟩, fun x hx => by
    have := hb hi.packets
    exact storeBytes_other _ _ _ hi.sram x (by unfold inBanks at hx; omega)⟩⟩

theorem EvRec.bytes_length (r : EvRec) : r.bytes.length = 32 := by simp [EvRec.bytes, leBytes]

theorem capBank_bounds (q k o : Nat) (hq : q < 8) (ho : o ≤ 0x40000) :
    capBase 0 0 ≤ capBase q (k % 2) + 0 ∧ capBase q (k % 2) + o ≤ capBase 8 0 := by
  unfold capBase; omega

/-- A key set twice holds the second value. -/
theorem tset_tset {α : Type} [DecidableEq α] (d : α) (t : Tab α) (k : Nat) (v w : α) (hv : v ≠ d) :
    tset d (tset d t k v) k w = tset d t k w := by
  induction t with
  | nil => simp [tset, hv]
  | cons y t ih =>
    by_cases h1 : k < y.1
    · simp [tset, h1, hv]
    · by_cases h2 : k = y.1
      · simp [tset, h2, hv]
      · simp [tset, h1, h2, ih]


/-- A read of the key just written with a value that is no default, whatever the table. -/
theorem tget_tset_val {α : Type} [DecidableEq α] (d : α) (t : Tab α) (k : Nat) (v : α) (hv : v ≠ d) :
    tget d (tset d t k v) k = v := by
  induction t with
  | nil => simp [tset, hv, tget]
  | cons y t ih =>
    by_cases h1 : k < y.1
    · simp [tset, h1, hv, tget]
    · by_cases h2 : k = y.1
      · simp [tset, h2, hv, tget]
      · simp [tset, h1, h2, ih, tget]

/-- Closing a packet whose queue stands at `c`: what it does to the queues, and where it writes. -/
theorem packetClose_queues (s : State) (q reason : Nat) (hc : (capQ s q).count ≠ 0) :
    ∃ v : CapQ, v.count = 0 ∧ (packetClose s q reason).ev.queues = tset {} s.ev.queues q v := by
  unfold packetClose
  simp only [hc, if_false]
  split <;> exact ⟨_, rfl, rfl⟩


@[simp] theorem quiet_writeBytes (s : State) (a : Nat) (bs : List Byte) : quiet (writeBytes s a bs) = quiet s := rfl
@[simp] theorem quiet_updCapQ (s : State) (q : Nat) (f : CapQ → CapQ) : quiet (updCapQ s q f) = quiet s := rfl
@[simp] theorem quiet_signalVector (s : State) (v : Nat) : quiet (signalVector s v) = quiet s := rfl
@[simp] theorem sram_updCapQ (s : State) (q : Nat) (f : CapQ → CapQ) : (updCapQ s q f).pp.sram = s.pp.sram := rfl
@[simp] theorem sram_signalVector (s : State) (v : Nat) : (signalVector s v).pp.sram = s.pp.sram := rfl

theorem packetClose_quiet (s : State) (q reason : Nat) : quiet (packetClose s q reason) = quiet s := by
  unfold packetClose
  dsimp only
  split
  · rfl
  · simp only [quiet_updCapQ, quiet_signalVector, quiet_writeBytes]
    split
    · rw [quiet_writeBytes]
    · rfl

/-- SRAM with bytes stored inside the capture banks. -/
def BankStore (m n : Tab Byte) : Prop := Memory.wf m = true → Memory.wf n = true ∧ ∀ a, ¬ inBanks a → tget 0 n a = tget 0 m a

theorem BankStore.refl (m : Tab Byte) : BankStore m m := fun h => ⟨h, fun _ _ => rfl⟩

theorem BankStore.store {m n : Tab Byte} (h : BankStore m n) (a : Nat) (bs : List Byte) (lo : capBase 0 0 ≤ a)
    (hi : a + bs.length ≤ capBase 8 0) : BankStore m (storeBytes n a bs) := fun hm =>
  ⟨storeBytes_wf _ _ _ (h hm).1, fun x hx =>
    (storeBytes_other _ _ _ (h hm).1 x (by unfold inBanks at hx; omega)).trans ((h hm).2 x hx)⟩

theorem sram_writeBytes (s : State) (a : Nat) (bs : List Byte) : (writeBytes s a bs).pp.sram = storeBytes s.pp.sram a bs := rfl

theorem packetClose_bytes (s : State) (q reason : Nat) (hq : q < 8) (hc : (capQ s q).count ≤ 8190) :
    BankStore s.pp.sram (packetClose s q reason).pp.sram := by
  have hb := capBank_bounds q ((capQ s q).prod / 4096) ((capQ s q).count / 2 * 64 + 64) hq (by omega)
  have hb' := capBank_bounds q ((capQ s q).prod / 4096) (4096 * 64) hq (by omega)
  unfold packetClose
  dsimp only
  split
  · exact BankStore.refl _
  · rw [sram_updCapQ, sram_signalVector, sram_writeBytes]
    refine BankStore.store ?_ _ _ (by omega) ?_
    · split
      · rw [sram_writeBytes]
        refine BankStore.store (BankStore.refl _) _ _ (by omega) ?_
        rw [List.length_replicate]; omega
      · exact BankStore.refl _
    · simp only [leBytes, List.length_append, List.length_map, List.length_range, List.length_replicate]; omega

theorem packetClose_reports {s0 s : State} (h : ReportsOnly s0 s) (q reason : Nat) (hq : q < 8) :
    ReportsOnly s0 (packetClose s q reason) := by
  refine h.trans ⟨packetClose_quiet s q reason, fun hi => ?_⟩
  have hc := capQ_count hi.packets q
  have hb := packetClose_bytes s q reason hq (by omega) hi.sram
  refine ⟨⟨hb.1, ?_, zonesWf_quiet (packetClose_quiet s q reason) hi.zones⟩, hb.2⟩
  by_cases h0 : (capQ s q).count = 0
  · have : packetClose s q reason = s := by unfold packetClose; simp [h0]
    rw [this]; exact hi.packets
  · obtain ⟨v, hv, e⟩ := packetClose_queues s q reason h0
    intro x hx
    rw [e] at hx
    rcases tset_mem _ _ _ _ x hx with rfl | hx
    · show v.count < 8190; omega
    · exact hi.packets x hx

theorem capPut_reports {s0 s : State} (h : ReportsOnly s0 s) (q : Nat) (bs : List Byte) (hq : q < 8) (hb : bs.length ≤ 32) :
    ReportsOnly s0 (capPut s q bs) := by
  refine h.trans ?_
  unfold capPut
  extract_lets c s1 s2
  split
  · exact (ReportsOnly.refl s).queue q _ fun hp => capQ_count hp q
  · have h1 : ReportsOnly s s1 := by
      refine (ReportsOnly.refl s).bytes _ _ fun hp => ?_
      have := capQ_count hp q
      have := capBank_bounds q (c.prod / 4096) (c.count / 2 * 64 + 64) hq (by show (capQ s q).count / 2 * 64 + 64 ≤ _; omega)
      omega
    split
    · next hc =>
      have e2 : ∃ w : CapQ, w.count = 8190 ∧ s2.ev.queues = tset {} s1.ev.queues q w := ⟨_, hc, rfl⟩
      obtain ⟨w, hw, e2⟩ := e2
      have hwd : w ≠ {} := fun e => by rw [e] at hw; exact absurd hw (by decide)
      have hq2 : capQ s2 q = w := by unfold capQ; rw [e2]; exact tget_tset_val _ _ _ _ hwd
      refine h1.trans ⟨(packetClose_quiet s2 q 0).trans rfl, fun hi => ?_⟩
      have hb := packetClose_bytes s2 q 0 hq (by rw [hq2, hw]) hi.sram
      refine ⟨⟨hb.1, ?_, zonesWf_quiet (packetClose_quiet s2 q 0) hi.zones⟩, fun a ha => (hb.2 a ha).trans rfl⟩
      obtain ⟨v, hv, e⟩ := packetClose_queues s2 q 0 (by rw [hq2, hw]; decide)
      rw [e2, tset_tset _ _ _ _ _ hwd] at e
      intro x hx
      rw [e] at hx
      rcases tset_mem _ _ _ _ x hx with rfl | hx
      · show v.count < 8190; omega
      · exact hi.packets x hx
    · next hc => exact h1.queue q _ fun hp => Nat.lt_of_le_of_ne (capQ_count hp q) hc

theorem signalVector_reports {s0 s : State} (h : ReportsOnly s0 s) (v : Nat) : ReportsOnly s0 (signalVector s v) :=
  h.plain rfl rfl rfl


theorem cxlLogs_reports {s0 s : State} (h : ReportsOnly s0 s) (l : Tab CxlLog) :
    ReportsOnly s0 { s with hl := { s.hl with logs := l } } := h.plain rfl rfl rfl

theorem cxlLogPut_reports {s0 s : State} (h : ReportsOnly s0 s) (log : Nat) (k : CxlKind) (e : EvRec) :
    ReportsOnly s0 (cxlLogPut s log k e) := by
  unfold cxlLogPut
  dsimp only
  split
  · split
    · exact signalVector_reports (cxlLogs_reports h _) 1
    · exact signalVector_reports (cxlLogs_reports h _) 2
  · exact cxlLogs_reports h _

/-! ### Appends to the keep store -/

/-- The keep store without its records and their places. -/
def keepFrame (k : KeepSt) : KeepSt :=
  { k with recs := [], seq := 0, head := 0, units := 0, opens := 0, erases := [], indexSeq := 0, opensSince := 0
           compacting := false, pendingAppends := [], crits := 0, port := [] }

theorem foldl_keeps {α β γ : Type} (g : β → γ) (f : β → α → β) (hf : ∀ b a, g (f b a) = g b) (l : List α) (b : β) :
    g (l.foldl f b) = g b := by
  induction l generalizing b with
  | nil => rfl
  | cons a l ih => rw [List.foldl_cons, ih, hf]

theorem keepFrame_issue (k : KeepSt) (ops : Bool → List KeepOp) : keepFrame (k.issue ops) = keepFrame k := rfl
theorem keepFrame_program (k : KeepSt) (x u n : Nat) : keepFrame (k.program x u n) = keepFrame k := keepFrame_issue _ _
theorem keepFrame_erase (k : KeepSt) (x : Nat) : keepFrame (k.erase x) = keepFrame k := keepFrame_issue _ _
theorem keepFrame_place (k : KeepSt) (key : Nat) (r : KeepRec) : keepFrame (k.place key r) = keepFrame k :=
  (show keepFrame (k.place key r) = keepFrame (k.program k.head k.units (recUnits r.payload.length)) from rfl).trans
    (keepFrame_program _ _ _ _)
theorem keepFrame_carry (k : KeepSt) (x : Nat) : keepFrame (k.carry x) = keepFrame k :=
  foldl_keeps keepFrame (fun k (e : Nat × KeepRec) => k.place e.1 { e.2 with carried := true }) (fun k _ => keepFrame_place k _ _) _ _
theorem keepFrame_header (k : KeepSt) (x o : Nat) : keepFrame (k.header x o) = keepFrame k :=
  (show keepFrame (k.header x o) = keepFrame (k.program x 0 1) from rfl).trans (keepFrame_program _ _ _ _)
theorem keepFrame_index (k : KeepSt) : keepFrame k.writeIndex = keepFrame k :=
  (show keepFrame k.writeIndex = keepFrame ((k.erase (k.indexSeq % 2)).program (k.indexSeq % 2) 0 (2 + (k.recs.length + 1) / 2))
    from rfl).trans ((keepFrame_program _ _ _ _).trans (keepFrame_erase _ _))

theorem keepFrame_openNext (k : KeepSt) : keepFrame k.openNext = keepFrame k := by
  unfold KeepSt.openNext
  extract_lets a b
  have h : keepFrame b = keepFrame k := ((keepFrame_erase _ _).trans (keepFrame_carry _ _)).trans (keepFrame_header _ _ _)
  split
  · exact (keepFrame_index _).trans h
  · exact h

theorem keepFrame_room (fuel n : Nat) (k : KeepSt) : keepFrame (KeepSt.room fuel n k) = keepFrame k := by
  induction fuel generalizing k with
  | zero => rfl
  | succ f ih =>
    unfold KeepSt.room
    split
    · rfl
    · rw [ih, keepFrame_openNext]

theorem keepFrame_append (k : KeepSt) (key : Nat) (p : List Byte) : keepFrame (k.append key p) = keepFrame k := by
  unfold KeepSt.append
  extract_lets a b
  have h : keepFrame b = keepFrame k := (keepFrame_place _ _ _).trans (keepFrame_room _ _ _)
  split
  · exact h
  · exact h

theorem quiet_kp (s : State) (k : KeepSt) (h : keepFrame k = keepFrame s.kp) : quiet { s with kp := k } = quiet s := by
  show State.mk _ _ _ _ _ _ _ _ _ _ _ _ _ _ (keepFrame k) _ _ _ _ _ _ = State.mk _ _ _ _ _ _ _ _ _ _ _ _ _ _ (keepFrame s.kp) _ _ _ _ _ _
  rw [h]

theorem keepPut_reports {s0 s : State} (h : ReportsOnly s0 s) (key : Nat) (p : List Byte) : ReportsOnly s0 (keepPut s key p) := by
  refine h.plain (quiet_kp s _ ?_) rfl rfl
  split
  · exact keepFrame_append { s.kp with port := [] } _ _
  · rfl

/-! ### The recorder -/

theorem critAppend_reports {s0 s : State} (h : ReportsOnly s0 s) (r : EvRec) : ReportsOnly s0 (critAppend s r) :=
  keepPut_reports (s := { s with ev := { s.ev with crits := s.ev.crits + 1 }, kp := { s.kp with crits := s.ev.crits + 1 } })
    (h.plain rfl rfl rfl) _ _

theorem Safety.ReportsOnly.ite {s0 a b : State} {c : Prop} [Decidable c] (h : ReportsOnly s0 a) (k : ReportsOnly s0 b) :
    ReportsOnly s0 (if c then a else b) := by split <;> assumption

theorem routeClass_reports {s0 s : State} (h : ReportsOnly s0 s) (r : EvRec) : ReportsOnly s0 (routeClass s r) := by
  unfold routeClass
  dsimp only
  refine .ite (.ite (.plain (t := signalVector (cxlLogPut s 3 .vendor r) 3)
    (signalVector_reports (cxlLogPut_reports h _ _ _) _) rfl rfl rfl)
    (critAppend_reports (signalVector_reports (cxlLogPut_reports h _ _ _) _) _)) (.ite
    (signalVector_reports (cxlLogPut_reports h _ _ _) _) (.ite (cxlLogPut_reports h _ _ _) (.ite (cxlLogPut_reports h _ _ _)
    (cxlLogPut_reports h _ _ _))))

theorem ringPut_reports {s0 s : State} (h : ReportsOnly s0 s) (r : EvRec) : ReportsOnly s0 (ringPut s r) := by
  unfold ringPut
  exact .ite (h.plain rfl rfl rfl) (h.plain rfl rfl rfl)

theorem Safety.ReportsOnly.foldl {α : Type} {s0 : State} (f : State → α → State) (l : List α)
    (hf : ∀ s a, a ∈ l → ReportsOnly s0 s → ReportsOnly s0 (f s a)) (s : State) (h : ReportsOnly s0 s) :
    ReportsOnly s0 (l.foldl f s) := by
  induction l generalizing s with
  | nil => exact h
  | cons a l ih =>
    exact ih (fun s b hb k => hf s b (List.mem_cons_of_mem _ hb) k) _ (hf s a (List.mem_cons_self ..) h)

theorem alertPulse_reports {s0 s : State} (h : ReportsOnly s0 s) : ReportsOnly s0 (alertPulse s) := h.plain rfl rfl rfl

theorem updBucket_reports {s0 s : State} (h : ReportsOnly s0 s) (code : Nat) (f : Bucket → Bucket) :
    ReportsOnly s0 (updBucket s code f) := h.plain rfl rfl rfl

/-- The queues that select a class take its record. -/
theorem capPuts_reports {s0 s : State} (h : ReportsOnly s0 s) (c : State → Nat → Bool) (bs : List Byte) (hb : bs.length ≤ 32) :
    ReportsOnly s0 ((List.range 8).foldl (fun s q => if c s q then capPut s q bs else s) s) := by
  refine ReportsOnly.foldl _ _ (fun t q hq k => ?_) s h
  exact .ite (capPut_reports k q _ (List.mem_range.1 hq) hb) k

theorem beatCount_reports {s0 s : State} (h : ReportsOnly s0 s) (n : Nat) :
    ReportsOnly s0 { s with ev := { s.ev with thisBeat := n } } := h.plain rfl rfl rfl

theorem writeRecord_reports {s0 s : State} (h : ReportsOnly s0 s) (r : EvRec) : ReportsOnly s0 (writeRecord s r) := by
  unfold writeRecord
  exact routeClass_reports (beatCount_reports (capPuts_reports (ringPut_reports h _)
    (fun s q => (capQ s q).classes.getLsbD r.cls) _ (by rw [EvRec.bytes_length])) _) _

theorem intakePut_reports {s0 s : State} (h : ReportsOnly s0 s) (r : EvRec) : ReportsOnly s0 (intakePut s r) := by
  unfold intakePut
  exact .ite (writeRecord_reports h r) (.ite (h.plain rfl rfl rfl) (h.plain rfl rfl rfl))

theorem arrive_reports {s0 s : State} (h : ReportsOnly s0 s) (r : EvRec) : ReportsOnly s0 (arrive s r) := by
  unfold arrive
  split
  · exact intakePut_reports h r
  · exact h.plain rfl rfl rfl

theorem cycleStart_reports {s0 s : State} (h : ReportsOnly s0 s) : ReportsOnly s0 (cycleStart s) := h.plain rfl rfl rfl

theorem cycleEnd_reports {s0 s : State} (h : ReportsOnly s0 s) : ReportsOnly s0 (cycleEnd s) :=
  ReportsOnly.foldl _ _ (fun _ r _ k => intakePut_reports k r) _ (h.plain rfl rfl rfl)

theorem raise_reports {s0 s : State} (h : ReportsOnly s0 s) (code source p0 p1 p2 p3 : Nat) :
    ReportsOnly s0 (raise s code source p0 p1 p2 p3) := by
  unfold raise
  split
  · exact h
  · dsimp only
    refine .ite (h.plain rfl rfl rfl) (arrive_reports (.ite (alertPulse_reports ?_) ?_) _)
    · exact .ite (updBucket_reports h _ _) h
    · exact .ite (updBucket_reports h _ _) h

end Sys2Proof
end

