-- ==== Sys2Proof/Laws/Keeps.lean ====
section
/-! SUPPORT. `Keeps k s t`: `t` holds the queue of `s`, the invariant if `s` does, and every part of the state outside the
mask `k`. The lemmas of reports, and the rules by which the other files under this name pass `Keeps` through every
operation of the machine. -/
namespace Sys2Proof
set_option Elab.async false
open Machine Safety


/-- The parts of the state outside the mask `k` hold the same (bit 20: the reports; below it the groups of State in order). -/
def Same (k : BitVec 21) (s t : State) : Prop :=
  (k.getLsbD 0 = true ∨ t.clk = s.clk) ∧
  (k.getLsbD 1 = true ∨ (quiet t).pwr = (quiet s).pwr) ∧
  (k.getLsbD 2 = true ∨ t.mp = s.mp) ∧
  (k.getLsbD 3 = true ∨ t.sag = s.sag) ∧
  (k.getLsbD 4 = true ∨ t.hq = s.hq) ∧
  (k.getLsbD 5 = true ∨ t.pl = s.pl) ∧
  (k.getLsbD 6 = true ∨ t.dr = s.dr) ∧
  (k.getLsbD 7 = true ∨ t.ecc = s.ecc) ∧
  (k.getLsbD 8 = true ∨ t.wr = s.wr) ∧
  (k.getLsbD 9 = true ∨ t.ig = s.ig) ∧
  (k.getLsbD 10 = true ∨ t.ln = s.ln) ∧
  (k.getLsbD 11 = true ∨ (quiet t).hl = (quiet s).hl) ∧
  (k.getLsbD 12 = true ∨ (quiet t).pp = (quiet s).pp) ∧
  (k.getLsbD 13 = true ∨ t.th = s.th) ∧
  (k.getLsbD 14 = true ∨ (quiet t).kp = (quiet s).kp) ∧
  (k.getLsbD 15 = true ∨ (quiet t).ev = (quiet s).ev) ∧
  (k.getLsbD 16 = true ∨ t.cn = s.cn) ∧
  (k.getLsbD 17 = true ∨ t.live = s.live) ∧
  (k.getLsbD 18 = true ∨ t.shadow = s.shadow) ∧
  (k.getLsbD 19 = true ∨ t.freeCtr = s.freeCtr) ∧
  (k.getLsbD 20 = true ∨ loud t = loud s)

/-- Every bit of `m` is one of `k`. -/
def Within (m k : BitVec 21) : Prop := m ||| k = k
theorem Within.refl (m : BitVec 21) : Within m m := BitVec.or_self
theorem Within.trans {a m k : BitVec 21} (h : Within m k) (g : a ||| m = m) : Within a k := by
  unfold Within at *
  rw [← h, ← BitVec.or_assoc, g]
theorem Within.bit {m k : BitVec 21} {i : Nat} (h : Within m k) (g : m.getLsbD i = true) : k.getLsbD i = true := by
  rw [← show m ||| k = k from h, BitVec.getLsbD_or, g, Bool.true_or]
theorem Same.refl (k : BitVec 21) (s : State) : Same k s s := by
  unfold Same
  refine ⟨?_, ?_, ?_, ?_, ?_, ?_, ?_, ?_, ?_, ?_, ?_, ?_, ?_, ?_, ?_, ?_, ?_, ?_, ?_, ?_, ?_⟩ <;> exact Or.inr rfl
theorem or_trans {α : Type} {b : Bool} {x y z : α} (h : b = true ∨ y = x) (g : b = true ∨ z = y) : b = true ∨ z = x :=
  h.elim Or.inl fun e => g.imp_right fun f => f.trans e
theorem Same.trans {k : BitVec 21} {s t u : State} (h : Same k s t) (g : Same k t u) : Same k s u := by
  unfold Same at *
  obtain ⟨h0, h1, h2, h3, h4, h5, h6, h7, h8, h9, h10, h11, h12, h13, h14, h15, h16, h17, h18, h19, h20⟩ := h
  obtain ⟨g0, g1, g2, g3, g4, g5, g6, g7, g8, g9, g10, g11, g12, g13, g14, g15, g16, g17, g18, g19, g20⟩ := g
  exact ⟨or_trans h0 g0, or_trans h1 g1, or_trans h2 g2, or_trans h3 g3, or_trans h4 g4, or_trans h5 g5, or_trans h6 g6, or_trans h7 g7, or_trans h8 g8, or_trans h9 g9, or_trans h10 g10, or_trans h11 g11, or_trans h12 g12, or_trans h13 g13, or_trans h14 g14, or_trans h15 g15, or_trans h16 g16, or_trans h17 g17, or_trans h18 g18, or_trans h19 g19, or_trans h20 g20⟩
theorem Same.reports {k : BitVec 21} {s t : State} (q : quiet t = quiet s) (h : k.getLsbD 20 = true) : Same k s t := by
  unfold Same
  exact ⟨Or.inr (congrArg State.clk q : (quiet t).clk = (quiet s).clk), Or.inr (congrArg State.pwr q : (quiet t).pwr = (quiet s).pwr), Or.inr (congrArg State.mp q : (quiet t).mp = (quiet s).mp), Or.inr (congrArg State.sag q : (quiet t).sag = (quiet s).sag), Or.inr (congrArg State.hq q : (quiet t).hq = (quiet s).hq), Or.inr (congrArg State.pl q : (quiet t).pl = (quiet s).pl), Or.inr (congrArg State.dr q : (quiet t).dr = (quiet s).dr), Or.inr (congrArg State.ecc q : (quiet t).ecc = (quiet s).ecc), Or.inr (congrArg State.wr q : (quiet t).wr = (quiet s).wr), Or.inr (congrArg State.ig q : (quiet t).ig = (quiet s).ig), Or.inr (congrArg State.ln q : (quiet t).ln = (quiet s).ln), Or.inr (congrArg State.hl q : (quiet t).hl = (quiet s).hl), Or.inr (congrArg State.pp q : (quiet t).pp = (quiet s).pp), Or.inr (congrArg State.th q : (quiet t).th = (quiet s).th), Or.inr (congrArg State.kp q : (quiet t).kp = (quiet s).kp), Or.inr (congrArg State.ev q : (quiet t).ev = (quiet s).ev), Or.inr (congrArg State.cn q : (quiet t).cn = (quiet s).cn), Or.inr (congrArg State.live q : (quiet t).live = (quiet s).live), Or.inr (congrArg State.shadow q : (quiet t).shadow = (quiet s).shadow), Or.inr (congrArg State.freeCtr q : (quiet t).freeCtr = (quiet s).freeCtr), Or.inl h⟩

/-- `t` holds the same waiting commands as `s`, the invariant if `s` does, and everything outside the mask. -/
structure Keeps (k : BitVec 21) (s t : State) : Prop where
  queue : t.pending = s.pending
  inv : Inv s → Inv t
  same : Same k s t

def qpwr (p : PwrSt) : PwrSt := { p with alertUntil := none }
def qhl (h : HostLinkSt) : HostLinkSt := { h with msix := [], logs := [] }
def qpp (p : PipeSt) : PipeSt := { p with sram := [], badBytes := [] }
def qkp (k : KeepSt) : KeepSt :=
  { k with
    port := [], recs := [], seq := 0, head := 0, units := 0, opens := 0, erases := [], indexSeq := 0, opensSince := 0
    compacting := false, pendingAppends := [], crits := 0 }
def qev (e : EvSt) : EvSt :=
  { e with
    head := 0, ring := [], frozenCount := 0, gap := false, suppressed := 0, dropped := 0, crits := 0, critWait := []
    buckets := [], intake := [], inCycle := none, thisBeat := 0, queues := [] }
/-- The state that holds only the reports of these groups. -/
def reported (p : PwrSt) (h : HostLinkSt) (q : PipeSt) (k : KeepSt) (e : EvSt) : State :=
  loud { pwr := p, hl := h, pp := q, kp := k, ev := e }
theorem reported_loud {s X : State} (h : reported s.pwr s.hl s.pp s.kp s.ev = reported X.pwr X.hl X.pp X.kp X.ev) :
    loud s = loud X := h
theorem Keeps.refl (k : BitVec 21) (s : State) : Keeps k s s := ⟨rfl, id, .refl k s⟩
theorem Keeps.cut {P : Prop} {k : BitVec 21} (s0 x : State) (hx : Keeps k s0 x) (f : Keeps k s0 x → P) : P := f hx
theorem Keeps.reports {k : BitVec 21} {s0 s t : State} (h : Keeps k s0 s) (r : ReportsOnly s t) (hm : Within 0x100000#21 k := by first | assumption | exact Within.trans (by assumption) (by decide)) : Keeps k s0 t :=
  ⟨(congrArg State.pending r.1).trans h.queue, fun hi => (r.2 (h.inv hi)).1, h.same.trans (.reports r.1 (hm.bit (by decide)))⟩
theorem Keeps.ite {k : BitVec 21} {s0 a b : State} {c : Prop} [Decidable c] (h : Keeps k s0 a) (g : Keeps k s0 b) :
    Keeps k s0 (if c then a else b) := by
  split <;> assumption
theorem Keeps.foldl {α : Type} {k : BitVec 21} {s0 : State} (f : State → α → State) (l : List α)
    (hf : ∀ s a, Keeps k s0 s → Keeps k s0 (f s a)) (s : State) (h : Keeps k s0 s) : Keeps k s0 (l.foldl f s) := by
  induction l generalizing s with
  | nil => exact h
  | cons a l ih => exact ih _ (hf s a h)
theorem Keeps.step {k : BitVec 21} {s0 s t : State} (h : Keeps k s0 s) (p : t.pending = s.pending) (m : t.pp.sram = s.pp.sram)
    (q : t.ev.queues = s.ev.queues) (z : t.th.zones = s.th.zones) (f : Same k s t) : Keeps k s0 t :=
  ⟨p.trans h.queue, fun hi => ⟨(show Memory.wf _ = true from m ▸ (h.inv hi).sram), fun x hx => (h.inv hi).packets x (q ▸ hx),
    (by unfold ZonesWf; rw [z]; exact (h.inv hi).zones)⟩, h.same.trans f⟩
theorem Keeps.same' {k : BitVec 21} {s0 s t : State} (h : Keeps k s0 s) (p : t.pending = s.pending) (m : t.pp.sram = s.pp.sram)
    (q : t.ev.queues = s.ev.queues) (z : t.th.zones = s.th.zones)
    (f : Same k s t := by unfold Same; refine ⟨?_, ?_, ?_, ?_, ?_, ?_, ?_, ?_, ?_, ?_, ?_, ?_, ?_, ?_, ?_, ?_, ?_, ?_, ?_, ?_, ?_⟩ <;> first | exact Or.inl (Within.bit (by assumption) (by decide)) | exact Or.inr rfl) : Keeps k s0 t := h.step p m q z f
theorem Keeps.frame {k : BitVec 21} {s0 s t : State} (h : Keeps k s0 s)
    (f : Same k s t := by unfold Same; refine ⟨?_, ?_, ?_, ?_, ?_, ?_, ?_, ?_, ?_, ?_, ?_, ?_, ?_, ?_, ?_, ?_, ?_, ?_, ?_, ?_, ?_⟩ <;> first | exact Or.inl (Within.bit (by assumption) (by decide)) | exact Or.inr rfl) : Same k s0 t := h.same.trans f
theorem Keeps.mk' {k : BitVec 21} {s0 X : State} {vclk vpwr vmp vsag vhq vpl vdr vecc vwr vig vln vhl vpp vth vkp vev vcn vlive vshadow vfreeCtr}
    (h : Keeps k s0 X) (m : vpp.sram = X.pp.sram) (q : vev.queues = X.ev.queues) (z : vth.zones = X.th.zones)
    (f0 : k.getLsbD 0 = true ∨ vclk = X.clk)
    (f1 : k.getLsbD 1 = true ∨ qpwr vpwr = qpwr X.pwr)
    (f2 : k.getLsbD 2 = true ∨ vmp = X.mp)
    (f3 : k.getLsbD 3 = true ∨ vsag = X.sag)
    (f4 : k.getLsbD 4 = true ∨ vhq = X.hq)
    (f5 : k.getLsbD 5 = true ∨ vpl = X.pl)
    (f6 : k.getLsbD 6 = true ∨ vdr = X.dr)
    (f7 : k.getLsbD 7 = true ∨ vecc = X.ecc)
    (f8 : k.getLsbD 8 = true ∨ vwr = X.wr)
    (f9 : k.getLsbD 9 = true ∨ vig = X.ig)
    (f10 : k.getLsbD 10 = true ∨ vln = X.ln)
    (f11 : k.getLsbD 11 = true ∨ qhl vhl = qhl X.hl)
    (f12 : k.getLsbD 12 = true ∨ qpp vpp = qpp X.pp)
    (f13 : k.getLsbD 13 = true ∨ vth = X.th)
    (f14 : k.getLsbD 14 = true ∨ qkp vkp = qkp X.kp)
    (f15 : k.getLsbD 15 = true ∨ qev vev = qev X.ev)
    (f16 : k.getLsbD 16 = true ∨ vcn = X.cn)
    (f17 : k.getLsbD 17 = true ∨ vlive = X.live)
    (f18 : k.getLsbD 18 = true ∨ vshadow = X.shadow)
    (f19 : k.getLsbD 19 = true ∨ vfreeCtr = X.freeCtr)
    (f20 : k.getLsbD 20 = true ∨ reported vpwr vhl vpp vkp vev = reported X.pwr X.hl X.pp X.kp X.ev) :
    Keeps k s0 (State.mk vclk vpwr vmp vsag vhq vpl vdr vecc vwr vig vln vhl vpp vth vkp vev vcn vlive vshadow vfreeCtr X.pending) :=
  h.step rfl m q z ⟨f0, f1, f2, f3, f4, f5, f6, f7, f8, f9, f10, f11, f12, f13, f14, f15, f16, f17, f18, f19, f20.imp_right reported_loud⟩
theorem keepPut_keeps {k s0 s key p} (h : Keeps k s0 s)
    (hm : Within 0x100000#21 k := by first | assumption | exact Within.trans (by assumption) (by decide)) :
    Keeps k s0 (keepPut s key p) :=
  h.reports (keepPut_reports (.refl s) _ _)
theorem raise_keeps {k s0 s code source p0 p1 p2 p3} (h : Keeps k s0 s)
    (hm : Within 0x100000#21 k := by first | assumption | exact Within.trans (by assumption) (by decide)) :
    Keeps k s0 (raise s code source p0 p1 p2 p3) :=
  h.reports (raise_reports (.refl s) ..)
theorem critAppend_keeps {k s0 s r} (h : Keeps k s0 s)
    (hm : Within 0x100000#21 k := by first | assumption | exact Within.trans (by assumption) (by decide)) :
    Keeps k s0 (critAppend s r) :=
  h.reports (critAppend_reports (.refl s) ..)

def KeepsO (k : BitVec 21) (s0 : State) (o : Host.Outcome State Fault Refusal) : Prop := ∀ t, o = .next t → Keeps k s0 t
def KeepsOS (k : BitVec 21) (s0 : State) (o : Option State) : Prop := ∀ t, o = some t → Keeps k s0 t
def KeepsOR {α : Type} (k : BitVec 21) (s0 : State) (o : Option (α × State)) : Prop := ∀ t, o = some t → Keeps k s0 t.2
def KeepsOR3 {α β : Type} (k : BitVec 21) (s0 : State) (o : Option (α × β × State)) : Prop := ∀ t, o = some t → Keeps k s0 t.2.2
def KeepsL {α : Type} (k : BitVec 21) (s0 : State) (o : State × α) : Prop := Keeps k s0 o.1
def KeepsR {α : Type} (k : BitVec 21) (s0 : State) (o : α × State) : Prop := Keeps k s0 o.2
theorem KeepsO.next {k s0 t} (h : Keeps k s0 t) : KeepsO k s0 (.next t) := fun _ e => by cases e; exact h
theorem KeepsOS.some {k s0 t} (h : Keeps k s0 t) : KeepsOS k s0 (some t) := fun _ e => by cases e; exact h
theorem KeepsOS.none (k s0) : KeepsOS k s0 none := fun _ e => by cases e
theorem KeepsOS.elim {k s0 r t} (g : KeepsOS k s0 r) (e : r = Option.some t) : Keeps k s0 t := g t e
theorem KeepsOR.some {α} {a : α} {k s0 t} (h : Keeps k s0 t) : KeepsOR k s0 (some (a, t)) := fun _ e => by cases e; exact h
theorem KeepsOR.none {α : Type} (k s0) : KeepsOR (α := α) k s0 none := fun _ e => by cases e
theorem KeepsOR.elim {α : Type} {a : α} {k s0 r t} (g : KeepsOR k s0 r) (e : r = Option.some (a, t)) : Keeps k s0 t := g _ e
theorem KeepsOR3.some {α β : Type} {a : α} {b : β} {k s0 t} (h : Keeps k s0 t) : KeepsOR3 k s0 (some (a, b, t)) := fun _ e => by cases e; exact h
theorem KeepsOR3.none {α β : Type} (k s0) : KeepsOR3 (α := α) (β := β) k s0 none := fun _ e => by cases e
theorem KeepsOR3.elim {α β : Type} {a : α} {b : β} {k s0 r t} (g : KeepsOR3 k s0 r) (e : r = Option.some (a, b, t)) : Keeps k s0 t := g _ e
theorem KeepsL.mk {α : Type} {a : α} {k s0 t} (h : Keeps k s0 t) : KeepsL k s0 (t, a) := h
theorem KeepsR.mk {α : Type} {a : α} {k s0 t} (h : Keeps k s0 t) : KeepsR k s0 (a, t) := h
theorem KeepsL.elim {α : Type} {a : α} {k s0 r t} (g : KeepsL k s0 r) (e : r = (t, a)) : Keeps k s0 t := by cases e; exact g
theorem KeepsR.elim {α : Type} {a : α} {k s0 r t} (g : KeepsR k s0 r) (e : r = (a, t)) : Keeps k s0 t := by cases e; exact g
theorem KeepsL.proj {α : Type} {k s0} {r : State × α} (g : KeepsL k s0 r) : Keeps k s0 r.1 := g
theorem KeepsR.proj {α : Type} {k s0} {r : α × State} (g : KeepsR k s0 r) : Keeps k s0 r.2 := g
theorem packetClose_wf {s q r} (h : SramWf s) : SramWf (packetClose s q r) := by
  unfold packetClose
  dsimp only
  split
  · exact h
  · unfold SramWf
    rw [sram_updCapQ, sram_signalVector, sram_writeBytes]
    refine storeBytes_wf _ _ _ ?_
    split
    · rw [sram_writeBytes]; exact storeBytes_wf _ _ _ h
    · exact h

/-- Closing a packet keeps the invariant when its queue is the only one that may hold 8,190 records. -/
theorem packetClose_keeps {k s0 s q r} (h : Keeps k s0 s)
    (hm : Within 0x100000#21 k := by first | assumption | exact Within.trans (by assumption) (by decide)) :
    Keeps k s0 (packetClose s q r) := by
  refine ⟨(congrArg State.pending (packetClose_quiet s q r)).trans h.1, fun hi => ⟨packetClose_wf (h.2 hi).sram, ?_,
    zonesWf_quiet (packetClose_quiet s q r) (h.2 hi).zones⟩, h.same.trans (.reports (packetClose_quiet s q r) (hm.bit (by decide)))⟩
  by_cases h0 : (capQ s q).count = 0
  · have : packetClose s q r = s := by unfold packetClose; simp [h0]
    rw [this]; exact (h.2 hi).packets
  · obtain ⟨v, hv, e⟩ := packetClose_queues s q r h0
    intro x hx
    rw [e] at hx
    rcases tset_mem _ _ _ _ x hx with rfl | hx
    · show v.count < 8190; omega
    · exact (h.2 hi).packets x hx

theorem writeBytes_keeps {k s0 s a b} (h : Keeps k s0 s)
    (hm : Within 0x100000#21 k := by first | assumption | exact Within.trans (by assumption) (by decide)) :
    Keeps k s0 (writeBytes s a b) :=
  ⟨h.1, fun hi => ⟨storeBytes_wf _ _ _ (h.2 hi).sram, (h.2 hi).packets, (h.2 hi).zones⟩, h.same.trans (.reports rfl (hm.bit (by decide)))⟩
theorem updCapQ_keeps {k s0 s q f} (h : Keeps k s0 s) (hf : ∀ c : CapQ, c.count < 8190 → (f c).count < 8190)
    (hm : Within 0x100000#21 k := by first | assumption | exact Within.trans (by assumption) (by decide)) :
    Keeps k s0 (updCapQ s q f) :=
  ⟨h.1, fun hi => ⟨(h.2 hi).sram, updCapQ_ok q f (h.2 hi).packets (hf _ (capQ_count (h.2 hi).packets q)), (h.2 hi).zones⟩,
    h.same.trans (.reports rfl (hm.bit (by decide)))⟩

theorem capPut_keeps {k s0 s q b} (h : Keeps k s0 s)
    (hm : Within 0x100000#21 k := by first | assumption | exact Within.trans (by assumption) (by decide)) :
    Keeps k s0 (capPut s q b) := by
  unfold capPut
  extract_lets c s1 s2
  split
  · exact updCapQ_keeps h fun _ hc => hc
  · have h1 : Keeps k s0 s1 := writeBytes_keeps h
    split
    · next hc =>
      have e2 : ∃ w : CapQ, w.count = 8190 ∧ s2.ev.queues = tset {} s1.ev.queues q w := ⟨_, hc, rfl⟩
      obtain ⟨w, hw, e2⟩ := e2
      have hwd : w ≠ {} := fun e => by rw [e] at hw; exact absurd hw (by decide)
      have hq2 : capQ s2 q = w := by unfold capQ; rw [e2]; exact tget_tset_val _ _ _ _ hwd
      refine ⟨(congrArg State.pending (packetClose_quiet s2 q 0)).trans h1.1, fun hi => ⟨packetClose_wf (h1.2 hi).sram, ?_,
        zonesWf_quiet (packetClose_quiet s2 q 0) (h1.2 hi).zones⟩, h1.same.trans (.reports (packetClose_quiet s2 q 0) (hm.bit (by decide)))⟩
      obtain ⟨v, hv, e⟩ := packetClose_queues s2 q 0 (by rw [hq2, hw]; decide)
      rw [e2, tset_tset _ _ _ _ _ hwd] at e
      intro x hx
      rw [e] at hx
      rcases tset_mem _ _ _ _ x hx with rfl | hx
      · show v.count < 8190; omega
      · exact (h1.2 hi).packets x hx
    · next hc =>
      exact ⟨h1.1, fun hi => ⟨(h1.2 hi).sram, updCapQ_ok q _ (h1.2 hi).packets (Nat.lt_of_le_of_ne (capQ_count (h1.2 hi).packets q) hc),
        (h1.2 hi).zones⟩, h1.same.trans (.reports rfl (hm.bit (by decide)))⟩

/-- A state whose SRAM and queues are empty. -/
theorem Keeps.fresh {k : BitVec 21} {s0 s t : State} (h : Keeps k s0 s) (p : t.pending = s.pending) (m : t.pp.sram = []) (q : t.ev.queues = [])
    (z : t.th.zones = [])
    (f : Same k s t := by unfold Same; refine ⟨?_, ?_, ?_, ?_, ?_, ?_, ?_, ?_, ?_, ?_, ?_, ?_, ?_, ?_, ?_, ?_, ?_, ?_, ?_, ?_, ?_⟩ <;> first | exact Or.inl (Within.bit (by assumption) (by decide)) | exact Or.inr rfl) : Keeps k s0 t :=
  ⟨p.trans h.1, fun _ => ⟨(show Memory.wf _ = true from m ▸ rfl), (fun x hx => by rw [q] at hx; cases hx),
    (by unfold ZonesWf; rw [z]; rfl)⟩, h.same.trans f⟩

/-- A table rebuilt entry by entry holds only rebuilt entries. -/
theorem rebuilt_mem {α β : Type} [DecidableEq β] (d : β) (g : Nat × α → β) (P : β → Prop) (l : List (Nat × α)) (t : Tab β)
    (ht : ∀ x ∈ t, P x.2) (hg : ∀ x ∈ l, P (g x)) : ∀ x ∈ l.foldl (fun t x => tset d t x.1 (g x)) t, P x.2 := by
  induction l generalizing t with
  | nil => exact ht
  | cons a l ih =>
    refine ih _ (fun x hx => ?_) fun x hx => hg x (List.mem_cons_of_mem _ hx)
    rcases tset_mem _ _ _ _ x hx with rfl | hx
    · exact hg a (List.mem_cons_self ..)
    · exact ht x hx

/-- Queues rebuilt entry by entry. -/
theorem Keeps.queues {k : BitVec 21} {s0 s t : State} (g : CapQ → CapQ) (hg : ∀ c : CapQ, c.count < 8190 → (g c).count < 8190) (h : Keeps k s0 s)
    (p : t.pending = s.pending) (m : t.pp.sram = s.pp.sram)
    (q : t.ev.queues = s.ev.queues.foldl (fun t x => tset {} t x.1 (g x.2)) []) (z : t.th.zones = s.th.zones)
    (f : Same k s t := by unfold Same; refine ⟨?_, ?_, ?_, ?_, ?_, ?_, ?_, ?_, ?_, ?_, ?_, ?_, ?_, ?_, ?_, ?_, ?_, ?_, ?_, ?_, ?_⟩ <;> first | exact Or.inl (Within.bit (by assumption) (by decide)) | exact Or.inr rfl) : Keeps k s0 t :=
  ⟨p.trans h.1, fun hi => ⟨(show Memory.wf _ = true from m ▸ (h.2 hi).sram), by
    unfold PacketsOk
    rw [q]
    exact rebuilt_mem {} (fun x => g x.2) (fun c : CapQ => c.count < 8190) _ [] (fun _ h => by cases h)
      fun x hx => hg _ ((h.2 hi).packets x hx), (by unfold ZonesWf; rw [z]; exact (h.2 hi).zones)⟩, h.same.trans f⟩

theorem signalVector_keeps {k s0 s v} (h : Keeps k s0 s)
    (hm : Within 0x100000#21 k := by first | assumption | exact Within.trans (by assumption) (by decide)) :
    Keeps k s0 (signalVector s v) := h.reports (signalVector_reports (.refl s) v)
theorem cxlLogPut_keeps {k s0 s l c e} (h : Keeps k s0 s)
    (hm : Within 0x100000#21 k := by first | assumption | exact Within.trans (by assumption) (by decide)) :
    Keeps k s0 (cxlLogPut s l c e) := h.reports (cxlLogPut_reports (.refl s) l c e)
theorem writeRecord_keeps {k s0 s r} (h : Keeps k s0 s)
    (hm : Within 0x100000#21 k := by first | assumption | exact Within.trans (by assumption) (by decide)) :
    Keeps k s0 (writeRecord s r) := h.reports (writeRecord_reports (.refl s) r)
theorem intakePut_keeps {k s0 s r} (h : Keeps k s0 s)
    (hm : Within 0x100000#21 k := by first | assumption | exact Within.trans (by assumption) (by decide)) :
    Keeps k s0 (intakePut s r) := h.reports (intakePut_reports (.refl s) r)
theorem routeClass_keeps {k s0 s r} (h : Keeps k s0 s)
    (hm : Within 0x100000#21 k := by first | assumption | exact Within.trans (by assumption) (by decide)) :
    Keeps k s0 (routeClass s r) := h.reports (routeClass_reports (.refl s) r)
theorem ringPut_keeps {k s0 s r} (h : Keeps k s0 s)
    (hm : Within 0x100000#21 k := by first | assumption | exact Within.trans (by assumption) (by decide)) :
    Keeps k s0 (ringPut s r) := h.reports (ringPut_reports (.refl s) r)
theorem alertPulse_keeps {k s0 s} (h : Keeps k s0 s)
    (hm : Within 0x100000#21 k := by first | assumption | exact Within.trans (by assumption) (by decide)) :
    Keeps k s0 (alertPulse s) := h.reports (alertPulse_reports (.refl s))
theorem updBucket_keeps {k s0 s c f} (h : Keeps k s0 s)
    (hm : Within 0x100000#21 k := by first | assumption | exact Within.trans (by assumption) (by decide)) :
    Keeps k s0 (updBucket s c f) := h.reports (updBucket_reports (.refl s) c f)
theorem updZone_keeps {k s0 s z f} (h : Keeps k s0 s)
    (hm : Within 0x2000#21 k := by first | assumption | exact Within.trans (by assumption) (by decide)) : Keeps k s0 (updZone s z f) :=
  ⟨h.1, fun hi => ⟨(h.2 hi).sram, (h.2 hi).packets, tset_wf _ _ _ _ (h.2 hi).zones⟩, h.same.trans (by
    unfold Same
    refine ⟨?_, ?_, ?_, ?_, ?_, ?_, ?_, ?_, ?_, ?_, ?_, ?_, ?_, ?_, ?_, ?_, ?_, ?_, ?_, ?_, ?_⟩ <;> first | exact Or.inr rfl | exact Or.inl (hm.bit (by decide)))⟩
theorem Keeps.trans {k : BitVec 21} {s t u : State} (h : Keeps k s t) (g : Keeps k t u) : Keeps k s u :=
  ⟨g.1.trans h.1, fun hi => g.2 (h.2 hi), h.same.trans g.same⟩

/-- The mask bit of a part. -/
def bitOf (p : StatePart) : Nat :=
  match p with
  | .clk => 0 | .pwr => 1 | .mp => 2 | .sag => 3 | .hq => 4 | .pl => 5 | .dr => 6 | .ecc => 7 | .wr => 8 | .ig => 9 | .ln => 10
  | .hl => 11 | .pp => 12 | .th => 13 | .kp => 14 | .ev => 15 | .cn => 16 | .live => 17 | .shadow => 18 | .freeCtr => 19
  | .reports => 20

/-- The mask of a list of parts. -/
def maskOf (l : List StatePart) : BitVec 21 := l.foldr (fun p m => m ||| BitVec.ofNat 21 (2 ^ bitOf p)) 0

theorem maskOf_bit (l : List StatePart) (p : StatePart) (h : p ∉ l) : (maskOf l).getLsbD (bitOf p) = false := by
  induction l with
  | nil => cases p <;> rfl
  | cons q l ih =>
    have hq : q ≠ p := fun e => h (e ▸ List.mem_cons_self ..)
    have hl := ih fun e => h (List.mem_cons_of_mem _ e)
    show ((maskOf l) ||| BitVec.ofNat 21 (2 ^ bitOf q)).getLsbD (bitOf p) = false
    rw [BitVec.getLsbD_or, hl, Bool.false_or]
    revert hq
    cases q <;> cases p <;> decide

/-- What a mask leaves out is in the frame. -/
theorem Same.part {k : BitVec 21} {s t : State} (h : Same k s t) (p : StatePart) (hp : k.getLsbD (bitOf p) = false) :
    p.same s t := by
  unfold Same at h
  obtain ⟨h0, h1, h2, h3, h4, h5, h6, h7, h8, h9, h10, h11, h12, h13, h14, h15, h16, h17, h18, h19, h20⟩ := h
  cases p <;> simp only [bitOf] at hp <;> simp_all only [StatePart.same, Bool.false_eq_true, false_or]

end Sys2Proof
end

