-- ==== Sys2Proof/Laws/KeepsCore.lean ====
section
/-! SUPPORT. Every operation of the operations, the map, the saggar, host memory, drains, drift, placement, wear, integrity and scrub keeps what `Keeps` says, under the mask of the parts it may change. -/
namespace Sys2Proof
set_option Elab.async false
set_option linter.unreachableTactic false
set_option linter.unusedTactic false
open Machine Safety

/-! Ops. -/

theorem updLink_keeps {k s0 s a1 a2} (h : Keeps k s0 s)
    (hm : Within 0x400#21 k := by first | assumption | exact Within.trans (by assumption) (by decide)) :
    Keeps k s0 (updLink s a1 a2) := by
  unfold updLink
  repeat' first
    | with_reducible assumption | with_reducible refine Keeps.ite ?_ ?_ | with_reducible refine Keeps.foldl _ _ ?_ _ ?_ | fail_if_no_progress ((with_reducible refine Keeps.mk' ?_ rfl rfl rfl ?_ ?_ ?_ ?_ ?_ ?_ ?_ ?_ ?_ ?_ ?_ ?_ ?_ ?_ ?_ ?_ ?_ ?_ ?_ ?_ ?_) <;> first | exact Or.inl (hm.bit (by decide)) | exact Or.inr rfl | skip)
    | split
    | (extract_lets +onlyGivenNames x; first | (refine Keeps.cut s0 x ?_ fun h => ?_; rotate_left; clear_value x) | skip)
    | (unfold x; fail_if_success done)
    | intro h

theorem updRank_keeps {k s0 s a1 a2} (h : Keeps k s0 s)
    (hm : Within 0x20#21 k := by first | assumption | exact Within.trans (by assumption) (by decide)) :
    Keeps k s0 (updRank s a1 a2) := by
  unfold updRank
  repeat' first
    | with_reducible assumption | with_reducible refine Keeps.ite ?_ ?_ | with_reducible refine Keeps.foldl _ _ ?_ _ ?_ | fail_if_no_progress ((with_reducible refine Keeps.mk' ?_ rfl rfl rfl ?_ ?_ ?_ ?_ ?_ ?_ ?_ ?_ ?_ ?_ ?_ ?_ ?_ ?_ ?_ ?_ ?_ ?_ ?_ ?_ ?_) <;> first | exact Or.inl (hm.bit (by decide)) | exact Or.inr rfl | skip)
    | split
    | (extract_lets +onlyGivenNames x; first | (refine Keeps.cut s0 x ?_ fun h => ?_; rotate_left; clear_value x) | skip)
    | (unfold x; fail_if_success done)
    | intro h

theorem updStripe_keeps {k s0 s a1 a2} (h : Keeps k s0 s)
    (hm : Within 0x20#21 k := by first | assumption | exact Within.trans (by assumption) (by decide)) :
    Keeps k s0 (updStripe s a1 a2) := by
  unfold updStripe
  repeat' first
    | with_reducible assumption | with_reducible refine Keeps.ite ?_ ?_ | with_reducible refine Keeps.foldl _ _ ?_ _ ?_ | fail_if_no_progress ((with_reducible refine Keeps.mk' ?_ rfl rfl rfl ?_ ?_ ?_ ?_ ?_ ?_ ?_ ?_ ?_ ?_ ?_ ?_ ?_ ?_ ?_ ?_ ?_ ?_ ?_ ?_ ?_) <;> first | exact Or.inl (hm.bit (by decide)) | exact Or.inr rfl | skip)
    | split
    | (extract_lets +onlyGivenNames x; first | (refine Keeps.cut s0 x ?_ fun h => ?_; rotate_left; clear_value x) | skip)
    | (unfold x; fail_if_success done)
    | intro h

theorem updEcc_keeps {k s0 s a1 a2} (h : Keeps k s0 s)
    (hm : Within 0x80#21 k := by first | assumption | exact Within.trans (by assumption) (by decide)) :
    Keeps k s0 (updEcc s a1 a2) := by
  unfold updEcc
  repeat' first
    | with_reducible assumption | with_reducible refine Keeps.ite ?_ ?_ | with_reducible refine Keeps.foldl _ _ ?_ _ ?_ | fail_if_no_progress ((with_reducible refine Keeps.mk' ?_ rfl rfl rfl ?_ ?_ ?_ ?_ ?_ ?_ ?_ ?_ ?_ ?_ ?_ ?_ ?_ ?_ ?_ ?_ ?_ ?_ ?_ ?_ ?_) <;> first | exact Or.inl (hm.bit (by decide)) | exact Or.inr rfl | skip)
    | split
    | (extract_lets +onlyGivenNames x; first | (refine Keeps.cut s0 x ?_ fun h => ?_; rotate_left; clear_value x) | skip)
    | (unfold x; fail_if_success done)
    | intro h

theorem updRot_keeps {k s0 s a1 a2} (h : Keeps k s0 s)
    (hm : Within 0x4#21 k := by first | assumption | exact Within.trans (by assumption) (by decide)) :
    Keeps k s0 (updRot s a1 a2) := by
  unfold updRot
  repeat' first
    | with_reducible assumption | with_reducible refine Keeps.ite ?_ ?_ | with_reducible refine Keeps.foldl _ _ ?_ _ ?_ | fail_if_no_progress ((with_reducible refine Keeps.mk' ?_ rfl rfl rfl ?_ ?_ ?_ ?_ ?_ ?_ ?_ ?_ ?_ ?_ ?_ ?_ ?_ ?_ ?_ ?_ ?_ ?_ ?_ ?_ ?_) <;> first | exact Or.inl (hm.bit (by decide)) | exact Or.inr rfl | skip)
    | split
    | (extract_lets +onlyGivenNames x; first | (refine Keeps.cut s0 x ?_ fun h => ?_; rotate_left; clear_value x) | skip)
    | (unfold x; fail_if_success done)
    | intro h

theorem updRegion_keeps {k s0 s a1 a2} (h : Keeps k s0 s)
    (hm : Within 0x4#21 k := by first | assumption | exact Within.trans (by assumption) (by decide)) :
    Keeps k s0 (updRegion s a1 a2) := by
  unfold updRegion
  repeat' first
    | with_reducible assumption | with_reducible refine Keeps.ite ?_ ?_ | with_reducible refine Keeps.foldl _ _ ?_ _ ?_ | fail_if_no_progress ((with_reducible refine Keeps.mk' ?_ rfl rfl rfl ?_ ?_ ?_ ?_ ?_ ?_ ?_ ?_ ?_ ?_ ?_ ?_ ?_ ?_ ?_ ?_ ?_ ?_ ?_ ?_ ?_) <;> first | exact Or.inl (hm.bit (by decide)) | exact Or.inr rfl | skip)
    | split
    | (extract_lets +onlyGivenNames x; first | (refine Keeps.cut s0 x ?_ fun h => ?_; rotate_left; clear_value x) | skip)
    | (unfold x; fail_if_success done)
    | intro h

theorem updMig_keeps {k s0 s a1 a2} (h : Keeps k s0 s)
    (hm : Within 0x4#21 k := by first | assumption | exact Within.trans (by assumption) (by decide)) :
    Keeps k s0 (updMig s a1 a2) := by
  unfold updMig
  repeat' first
    | with_reducible assumption | with_reducible refine Keeps.ite ?_ ?_ | with_reducible refine Keeps.foldl _ _ ?_ _ ?_ | fail_if_no_progress ((with_reducible refine Keeps.mk' ?_ rfl rfl rfl ?_ ?_ ?_ ?_ ?_ ?_ ?_ ?_ ?_ ?_ ?_ ?_ ?_ ?_ ?_ ?_ ?_ ?_ ?_ ?_ ?_) <;> first | exact Or.inl (hm.bit (by decide)) | exact Or.inr rfl | skip)
    | split
    | (extract_lets +onlyGivenNames x; first | (refine Keeps.cut s0 x ?_ fun h => ?_; rotate_left; clear_value x) | skip)
    | (unfold x; fail_if_success done)
    | intro h

theorem updDomain_keeps {k s0 s a1 a2} (h : Keeps k s0 s)
    (hm : Within 0x200#21 k := by first | assumption | exact Within.trans (by assumption) (by decide)) :
    Keeps k s0 (updDomain s a1 a2) := by
  unfold updDomain
  repeat' first
    | with_reducible assumption | with_reducible refine Keeps.ite ?_ ?_ | with_reducible refine Keeps.foldl _ _ ?_ _ ?_ | fail_if_no_progress ((with_reducible refine Keeps.mk' ?_ rfl rfl rfl ?_ ?_ ?_ ?_ ?_ ?_ ?_ ?_ ?_ ?_ ?_ ?_ ?_ ?_ ?_ ?_ ?_ ?_ ?_ ?_ ?_) <;> first | exact Or.inl (hm.bit (by decide)) | exact Or.inr rfl | skip)
    | split
    | (extract_lets +onlyGivenNames x; first | (refine Keeps.cut s0 x ?_ fun h => ?_; rotate_left; clear_value x) | skip)
    | (unfold x; fail_if_success done)
    | intro h

theorem updLinkWear_keeps {k s0 s a1 a2} (h : Keeps k s0 s)
    (hm : Within 0x100#21 k := by first | assumption | exact Within.trans (by assumption) (by decide)) :
    Keeps k s0 (updLinkWear s a1 a2) := by
  unfold updLinkWear
  repeat' first
    | with_reducible assumption | with_reducible refine Keeps.ite ?_ ?_ | with_reducible refine Keeps.foldl _ _ ?_ _ ?_ | fail_if_no_progress ((with_reducible refine Keeps.mk' ?_ rfl rfl rfl ?_ ?_ ?_ ?_ ?_ ?_ ?_ ?_ ?_ ?_ ?_ ?_ ?_ ?_ ?_ ?_ ?_ ?_ ?_ ?_ ?_) <;> first | exact Or.inl (hm.bit (by decide)) | exact Or.inr rfl | skip)
    | split
    | (extract_lets +onlyGivenNames x; first | (refine Keeps.cut s0 x ?_ fun h => ?_; rotate_left; clear_value x) | skip)
    | (unfold x; fail_if_success done)
    | intro h

theorem updMon_keeps {k s0 s a1 a2} (h : Keeps k s0 s)
    (hm : Within 0x8000#21 k := by first | assumption | exact Within.trans (by assumption) (by decide)) :
    Keeps k s0 (updMon s a1 a2) := by
  unfold updMon
  repeat' first
    | with_reducible assumption | with_reducible refine Keeps.ite ?_ ?_ | with_reducible refine Keeps.foldl _ _ ?_ _ ?_ | fail_if_no_progress ((with_reducible refine Keeps.mk' ?_ rfl rfl rfl ?_ ?_ ?_ ?_ ?_ ?_ ?_ ?_ ?_ ?_ ?_ ?_ ?_ ?_ ?_ ?_ ?_ ?_ ?_ ?_ ?_) <;> first | exact Or.inl (hm.bit (by decide)) | exact Or.inr rfl | skip)
    | split
    | (extract_lets +onlyGivenNames x; first | (refine Keeps.cut s0 x ?_ fun h => ?_; rotate_left; clear_value x) | skip)
    | (unfold x; fail_if_success done)
    | intro h

theorem updPipe_keeps {k s0 s a1 a2} (h : Keeps k s0 s)
    (hm : Within 0x1000#21 k := by first | assumption | exact Within.trans (by assumption) (by decide)) :
    Keeps k s0 (updPipe s a1 a2) := by
  unfold updPipe
  repeat' first
    | with_reducible assumption | with_reducible refine Keeps.ite ?_ ?_ | with_reducible refine Keeps.foldl _ _ ?_ _ ?_ | fail_if_no_progress ((with_reducible refine Keeps.mk' ?_ rfl rfl rfl ?_ ?_ ?_ ?_ ?_ ?_ ?_ ?_ ?_ ?_ ?_ ?_ ?_ ?_ ?_ ?_ ?_ ?_ ?_ ?_ ?_) <;> first | exact Or.inl (hm.bit (by decide)) | exact Or.inr rfl | skip)
    | split
    | (extract_lets +onlyGivenNames x; first | (refine Keeps.cut s0 x ?_ fun h => ?_; rotate_left; clear_value x) | skip)
    | (unfold x; fail_if_success done)
    | intro h

theorem setSagLine_keeps {k s0 s a1 a2 a3} (h : Keeps k s0 s)
    (hm : Within 0x8#21 k := by first | assumption | exact Within.trans (by assumption) (by decide)) :
    Keeps k s0 (setSagLine s a1 a2 a3) := by
  unfold setSagLine
  repeat' first
    | with_reducible assumption | with_reducible refine Keeps.ite ?_ ?_ | with_reducible refine Keeps.foldl _ _ ?_ _ ?_ | fail_if_no_progress ((with_reducible refine Keeps.mk' ?_ rfl rfl rfl ?_ ?_ ?_ ?_ ?_ ?_ ?_ ?_ ?_ ?_ ?_ ?_ ?_ ?_ ?_ ?_ ?_ ?_ ?_ ?_ ?_) <;> first | exact Or.inl (hm.bit (by decide)) | exact Or.inr rfl | skip)
    | split
    | (extract_lets +onlyGivenNames x; first | (refine Keeps.cut s0 x ?_ fun h => ?_; rotate_left; clear_value x) | skip)
    | (unfold x; fail_if_success done)
    | intro h

theorem setMedia_keeps {k s0 s a1 a2 a3} (h : Keeps k s0 s)
    (hm : Within 0x4#21 k := by first | assumption | exact Within.trans (by assumption) (by decide)) :
    Keeps k s0 (setMedia s a1 a2 a3) := by
  unfold setMedia
  repeat' first
    | with_reducible assumption | with_reducible refine Keeps.ite ?_ ?_ | with_reducible refine Keeps.foldl _ _ ?_ _ ?_ | fail_if_no_progress ((with_reducible refine Keeps.mk' ?_ rfl rfl rfl ?_ ?_ ?_ ?_ ?_ ?_ ?_ ?_ ?_ ?_ ?_ ?_ ?_ ?_ ?_ ?_ ?_ ?_ ?_ ?_ ?_) <;> first | exact Or.inl (hm.bit (by decide)) | exact Or.inr rfl | skip)
    | split
    | (extract_lets +onlyGivenNames x; first | (refine Keeps.cut s0 x ?_ fun h => ?_; rotate_left; clear_value x) | skip)
    | (unfold x; fail_if_success done)
    | intro h

theorem setLive_keeps {k s0 s a1 a2} (h : Keeps k s0 s)
    (hm : Within 0x20000#21 k := by first | assumption | exact Within.trans (by assumption) (by decide)) :
    Keeps k s0 (setLive s a1 a2) := by
  unfold setLive
  repeat' first
    | with_reducible assumption | with_reducible refine Keeps.ite ?_ ?_ | with_reducible refine Keeps.foldl _ _ ?_ _ ?_ | fail_if_no_progress ((with_reducible refine Keeps.mk' ?_ rfl rfl rfl ?_ ?_ ?_ ?_ ?_ ?_ ?_ ?_ ?_ ?_ ?_ ?_ ?_ ?_ ?_ ?_ ?_ ?_ ?_ ?_ ?_) <;> first | exact Or.inl (hm.bit (by decide)) | exact Or.inr rfl | skip)
    | split
    | (extract_lets +onlyGivenNames x; first | (refine Keeps.cut s0 x ?_ fun h => ?_; rotate_left; clear_value x) | skip)
    | (unfold x; fail_if_success done)
    | intro h

theorem setShadow_keeps {k s0 s a1 a2} (h : Keeps k s0 s)
    (hm : Within 0x40000#21 k := by first | assumption | exact Within.trans (by assumption) (by decide)) :
    Keeps k s0 (setShadow s a1 a2) := by
  unfold setShadow
  repeat' first
    | with_reducible assumption | with_reducible refine Keeps.ite ?_ ?_ | with_reducible refine Keeps.foldl _ _ ?_ _ ?_ | fail_if_no_progress ((with_reducible refine Keeps.mk' ?_ rfl rfl rfl ?_ ?_ ?_ ?_ ?_ ?_ ?_ ?_ ?_ ?_ ?_ ?_ ?_ ?_ ?_ ?_ ?_ ?_ ?_ ?_ ?_) <;> first | exact Or.inl (hm.bit (by decide)) | exact Or.inr rfl | skip)
    | split
    | (extract_lets +onlyGivenNames x; first | (refine Keeps.cut s0 x ?_ fun h => ?_; rotate_left; clear_value x) | skip)
    | (unfold x; fail_if_success done)
    | intro h

theorem draw_keeps {k s0 s} (h : Keeps k s0 s)
    (hm : Within 0x80000#21 k := by first | assumption | exact Within.trans (by assumption) (by decide)) :
    KeepsR k s0 (draw s) := by
  unfold draw
  repeat' first
    | with_reducible assumption | with_reducible refine Keeps.ite ?_ ?_ | with_reducible refine Keeps.foldl _ _ ?_ _ ?_ | fail_if_no_progress ((with_reducible refine Keeps.mk' ?_ rfl rfl rfl ?_ ?_ ?_ ?_ ?_ ?_ ?_ ?_ ?_ ?_ ?_ ?_ ?_ ?_ ?_ ?_ ?_ ?_ ?_ ?_ ?_) <;> first | exact Or.inl (hm.bit (by decide)) | exact Or.inr rfl | skip) | with_reducible refine KeepsR.mk ?_
    | split
    | (extract_lets +onlyGivenNames x; first | (refine Keeps.cut s0 x ?_ fun h => ?_; rotate_left; clear_value x) | skip)
    | (unfold x; fail_if_success done)
    | intro h

/-! Keep. -/

theorem keepFlush_keeps {k s0 s} (h : Keeps k s0 s)
    (hm : Within 0x100000#21 k := by first | assumption | exact Within.trans (by assumption) (by decide)) :
    Keeps k s0 (keepFlush s) := by
  unfold keepFlush
  repeat' first
    | with_reducible assumption | with_reducible refine keepPut_keeps ?_ | with_reducible refine Keeps.ite ?_ ?_ | with_reducible refine Keeps.foldl _ _ ?_ _ ?_ | fail_if_no_progress ((with_reducible refine Keeps.mk' ?_ rfl rfl rfl ?_ ?_ ?_ ?_ ?_ ?_ ?_ ?_ ?_ ?_ ?_ ?_ ?_ ?_ ?_ ?_ ?_ ?_ ?_ ?_ ?_) <;> first | exact Or.inl (hm.bit (by decide)) | exact Or.inr rfl | skip)
    | split
    | (extract_lets +onlyGivenNames x; first | (refine Keeps.cut s0 x ?_ fun h => ?_; rotate_left; clear_value x) | skip)
    | (unfold x; fail_if_success done)
    | intro h

/-! Flags. -/

theorem packetOpen_keeps {k s0 s a1} (h : Keeps k s0 s)
    (hm : Within 0x100000#21 k := by first | assumption | exact Within.trans (by assumption) (by decide)) : Keeps k s0 (packetOpen s a1) := by
  unfold packetOpen
  refine updCapQ_keeps h fun c hc => ?_
  split <;> exact hc

theorem intakeDrain_keeps {k s0 s} (h : Keeps k s0 s)
    (hm : Within 0x100000#21 k := by first | assumption | exact Within.trans (by assumption) (by decide)) :
    Keeps k s0 (intakeDrain s) := by
  unfold intakeDrain
  repeat' first
    | with_reducible assumption | with_reducible refine writeRecord_keeps ?_ | with_reducible refine Keeps.ite ?_ ?_ | with_reducible refine Keeps.foldl _ _ ?_ _ ?_ | fail_if_no_progress ((with_reducible refine Keeps.mk' ?_ rfl rfl rfl ?_ ?_ ?_ ?_ ?_ ?_ ?_ ?_ ?_ ?_ ?_ ?_ ?_ ?_ ?_ ?_ ?_ ?_ ?_ ?_ ?_) <;> first | exact Or.inl (hm.bit (by decide)) | exact Or.inr rfl | skip)
    | split
    | (extract_lets +onlyGivenNames x; first | (refine Keeps.cut s0 x ?_ fun h => ?_; rotate_left; clear_value x) | skip)
    | (unfold x; fail_if_success done)
    | intro h

theorem arrive_keeps {k s0 s a1} (h : Keeps k s0 s)
    (hm : Within 0x100000#21 k := by first | assumption | exact Within.trans (by assumption) (by decide)) :
    Keeps k s0 (arrive s a1) := by
  unfold arrive
  repeat' first
    | with_reducible assumption | with_reducible refine intakePut_keeps ?_ | with_reducible refine Keeps.ite ?_ ?_ | with_reducible refine Keeps.foldl _ _ ?_ _ ?_ | fail_if_no_progress ((with_reducible refine Keeps.mk' ?_ rfl rfl rfl ?_ ?_ ?_ ?_ ?_ ?_ ?_ ?_ ?_ ?_ ?_ ?_ ?_ ?_ ?_ ?_ ?_ ?_ ?_ ?_ ?_) <;> first | exact Or.inl (hm.bit (by decide)) | exact Or.inr rfl | skip)
    | split
    | (extract_lets +onlyGivenNames x; first | (refine Keeps.cut s0 x ?_ fun h => ?_; rotate_left; clear_value x) | skip)
    | (unfold x; fail_if_success done)
    | intro h

theorem cycleStart_keeps {k s0 s} (h : Keeps k s0 s)
    (hm : Within 0x100000#21 k := by first | assumption | exact Within.trans (by assumption) (by decide)) :
    Keeps k s0 (cycleStart s) := by
  unfold cycleStart
  repeat' first
    | with_reducible assumption | with_reducible refine Keeps.ite ?_ ?_ | with_reducible refine Keeps.foldl _ _ ?_ _ ?_ | fail_if_no_progress ((with_reducible refine Keeps.mk' ?_ rfl rfl rfl ?_ ?_ ?_ ?_ ?_ ?_ ?_ ?_ ?_ ?_ ?_ ?_ ?_ ?_ ?_ ?_ ?_ ?_ ?_ ?_ ?_) <;> first | exact Or.inl (hm.bit (by decide)) | exact Or.inr rfl | skip)
    | split
    | (extract_lets +onlyGivenNames x; first | (refine Keeps.cut s0 x ?_ fun h => ?_; rotate_left; clear_value x) | skip)
    | (unfold x; fail_if_success done)
    | intro h

theorem cycleEnd_keeps {k s0 s} (h : Keeps k s0 s)
    (hm : Within 0x100000#21 k := by first | assumption | exact Within.trans (by assumption) (by decide)) :
    Keeps k s0 (cycleEnd s) := by
  unfold cycleEnd
  repeat' first
    | with_reducible assumption | with_reducible refine intakePut_keeps ?_ | with_reducible refine Keeps.ite ?_ ?_ | with_reducible refine Keeps.foldl _ _ ?_ _ ?_ | fail_if_no_progress ((with_reducible refine Keeps.mk' ?_ rfl rfl rfl ?_ ?_ ?_ ?_ ?_ ?_ ?_ ?_ ?_ ?_ ?_ ?_ ?_ ?_ ?_ ?_ ?_ ?_ ?_ ?_ ?_) <;> first | exact Or.inl (hm.bit (by decide)) | exact Or.inr rfl | skip)
    | split
    | (extract_lets +onlyGivenNames x; first | (refine Keeps.cut s0 x ?_ fun h => ?_; rotate_left; clear_value x) | skip)
    | (unfold x; fail_if_success done)
    | intro h

theorem raiseAddr_keeps {k s0 s a1 a2 a3 a4} (h : Keeps k s0 s)
    (hm : Within 0x100000#21 k := by first | assumption | exact Within.trans (by assumption) (by decide)) :
    Keeps k s0 (raiseAddr s a1 a2 a3 a4) := by
  unfold raiseAddr
  repeat' first
    | with_reducible assumption | with_reducible refine raise_keeps ?_ | with_reducible refine Keeps.ite ?_ ?_ | with_reducible refine Keeps.foldl _ _ ?_ _ ?_ | fail_if_no_progress ((with_reducible refine Keeps.mk' ?_ rfl rfl rfl ?_ ?_ ?_ ?_ ?_ ?_ ?_ ?_ ?_ ?_ ?_ ?_ ?_ ?_ ?_ ?_ ?_ ?_ ?_ ?_ ?_) <;> first | exact Or.inl (hm.bit (by decide)) | exact Or.inr rfl | skip)
    | split
    | (extract_lets +onlyGivenNames x; first | (refine Keeps.cut s0 x ?_ fun h => ?_; rotate_left; clear_value x) | skip)
    | (unfold x; fail_if_success done)
    | intro h

theorem fillBuckets_keeps {k s0 s} (h : Keeps k s0 s)
    (hm : Within 0x100000#21 k := by first | assumption | exact Within.trans (by assumption) (by decide)) :
    Keeps k s0 (fillBuckets s) := by
  unfold fillBuckets
  repeat' first
    | with_reducible assumption | with_reducible refine Keeps.ite ?_ ?_ | with_reducible refine Keeps.foldl _ _ ?_ _ ?_ | fail_if_no_progress ((with_reducible refine Keeps.mk' ?_ rfl rfl rfl ?_ ?_ ?_ ?_ ?_ ?_ ?_ ?_ ?_ ?_ ?_ ?_ ?_ ?_ ?_ ?_ ?_ ?_ ?_ ?_ ?_) <;> first | exact Or.inl (hm.bit (by decide)) | exact Or.inr rfl | skip)
    | split
    | (extract_lets +onlyGivenNames x; first | (refine Keeps.cut s0 x ?_ fun h => ?_; rotate_left; clear_value x) | skip)
    | (unfold x; fail_if_success done)
    | intro h

theorem count_keeps {k s0 s a1 a2 a3 a4} (h : Keeps k s0 s)
    (hm : Within 0x8000#21 k := by first | assumption | exact Within.trans (by assumption) (by decide)) :
    Keeps k s0 (count s a1 a2 a3 a4) := by
  unfold count
  repeat' first
    | with_reducible assumption | with_reducible refine updMon_keeps ?_ | with_reducible refine Keeps.ite ?_ ?_ | with_reducible refine Keeps.foldl _ _ ?_ _ ?_ | fail_if_no_progress ((with_reducible refine Keeps.mk' ?_ rfl rfl rfl ?_ ?_ ?_ ?_ ?_ ?_ ?_ ?_ ?_ ?_ ?_ ?_ ?_ ?_ ?_ ?_ ?_ ?_ ?_ ?_ ?_) <;> first | exact Or.inl (hm.bit (by decide)) | exact Or.inr rfl | skip)
    | split
    | (extract_lets +onlyGivenNames x; first | (refine Keeps.cut s0 x ?_ fun h => ?_; rotate_left; clear_value x) | skip)
    | (unfold x; fail_if_success done)
    | intro h

theorem portBytes_keeps {k s0 s a1 a2 a3} (h : Keeps k s0 s)
    (hm : Within 0x8000#21 k := by first | assumption | exact Within.trans (by assumption) (by decide)) :
    Keeps k s0 (portBytes s a1 a2 a3) := by
  unfold portBytes
  repeat' first
    | with_reducible assumption | with_reducible refine updMon_keeps ?_ | with_reducible refine Keeps.ite ?_ ?_ | with_reducible refine Keeps.foldl _ _ ?_ _ ?_ | fail_if_no_progress ((with_reducible refine Keeps.mk' ?_ rfl rfl rfl ?_ ?_ ?_ ?_ ?_ ?_ ?_ ?_ ?_ ?_ ?_ ?_ ?_ ?_ ?_ ?_ ?_ ?_ ?_ ?_ ?_) <;> first | exact Or.inl (hm.bit (by decide)) | exact Or.inr rfl | skip)
    | split
    | (extract_lets +onlyGivenNames x; first | (refine Keeps.cut s0 x ?_ fun h => ?_; rotate_left; clear_value x) | skip)
    | (unfold x; fail_if_success done)
    | intro h

theorem ioPayload_keeps {k s0 s a1 a2 a3} (h : Keeps k s0 s)
    (hm : Within 0x8000#21 k := by first | assumption | exact Within.trans (by assumption) (by decide)) :
    Keeps k s0 (ioPayload s a1 a2 a3) := by
  unfold ioPayload
  repeat' first
    | with_reducible assumption | with_reducible refine portBytes_keeps ?_ | with_reducible refine updMon_keeps ?_ | with_reducible refine Keeps.ite ?_ ?_ | with_reducible refine Keeps.foldl _ _ ?_ _ ?_ | fail_if_no_progress ((with_reducible refine Keeps.mk' ?_ rfl rfl rfl ?_ ?_ ?_ ?_ ?_ ?_ ?_ ?_ ?_ ?_ ?_ ?_ ?_ ?_ ?_ ?_ ?_ ?_ ?_ ?_ ?_) <;> first | exact Or.inl (hm.bit (by decide)) | exact Or.inr rfl | skip)
    | split
    | (extract_lets +onlyGivenNames x; first | (refine Keeps.cut s0 x ?_ fun h => ?_; rotate_left; clear_value x) | skip)
    | (unfold x; fail_if_success done)
    | intro h

/-! Operands. -/

theorem finishCmd_keeps {k s0 s a1 a2 a3 a4 a5} (h : Keeps k s0 s)
    (hm : Within 0x1000#21 k := by first | assumption | exact Within.trans (by assumption) (by decide)) :
    Keeps k s0 (finishCmd s a1 a2 a3 a4 a5) := by
  unfold finishCmd
  repeat' first
    | with_reducible assumption | with_reducible refine Keeps.ite ?_ ?_ | with_reducible refine Keeps.foldl _ _ ?_ _ ?_ | fail_if_no_progress ((with_reducible refine Keeps.mk' ?_ rfl rfl rfl ?_ ?_ ?_ ?_ ?_ ?_ ?_ ?_ ?_ ?_ ?_ ?_ ?_ ?_ ?_ ?_ ?_ ?_ ?_ ?_ ?_) <;> first | exact Or.inl (hm.bit (by decide)) | exact Or.inr rfl | skip)
    | split
    | (extract_lets +onlyGivenNames x; first | (refine Keeps.cut s0 x ?_ fun h => ?_; rotate_left; clear_value x) | skip)
    | (unfold x; fail_if_success done)
    | intro h

theorem finishId_keeps {k s0 s a1 a2 a3 a4} (h : Keeps k s0 s)
    (hm : Within 0x1000#21 k := by first | assumption | exact Within.trans (by assumption) (by decide)) :
    Keeps k s0 (finishId s a1 a2 a3 a4) := by
  unfold finishId
  repeat' first
    | with_reducible assumption | with_reducible refine finishCmd_keeps ?_ | with_reducible refine Keeps.ite ?_ ?_ | with_reducible refine Keeps.foldl _ _ ?_ _ ?_ | fail_if_no_progress ((with_reducible refine Keeps.mk' ?_ rfl rfl rfl ?_ ?_ ?_ ?_ ?_ ?_ ?_ ?_ ?_ ?_ ?_ ?_ ?_ ?_ ?_ ?_ ?_ ?_ ?_ ?_ ?_) <;> first | exact Or.inl (hm.bit (by decide)) | exact Or.inr rfl | skip)
    | split
    | (extract_lets +onlyGivenNames x; first | (refine Keeps.cut s0 x ?_ fun h => ?_; rotate_left; clear_value x) | skip)
    | (unfold x; fail_if_success done)
    | intro h

theorem updCmd_keeps {k s0 s a1 a2} (h : Keeps k s0 s)
    (hm : Within 0x1000#21 k := by first | assumption | exact Within.trans (by assumption) (by decide)) :
    Keeps k s0 (updCmd s a1 a2) := by
  unfold updCmd
  repeat' first
    | with_reducible assumption | with_reducible refine Keeps.ite ?_ ?_ | with_reducible refine Keeps.foldl _ _ ?_ _ ?_ | fail_if_no_progress ((with_reducible refine Keeps.mk' ?_ rfl rfl rfl ?_ ?_ ?_ ?_ ?_ ?_ ?_ ?_ ?_ ?_ ?_ ?_ ?_ ?_ ?_ ?_ ?_ ?_ ?_ ?_ ?_) <;> first | exact Or.inl (hm.bit (by decide)) | exact Or.inr rfl | skip)
    | split
    | (extract_lets +onlyGivenNames x; first | (refine Keeps.cut s0 x ?_ fun h => ?_; rotate_left; clear_value x) | skip)
    | (unfold x; fail_if_success done)
    | intro h

/-! Map. -/

theorem setSeg_keeps {k s0 s a1 a2} (h : Keeps k s0 s)
    (hm : Within 0x4#21 k := by first | assumption | exact Within.trans (by assumption) (by decide)) :
    Keeps k s0 (setSeg s a1 a2) := by
  unfold setSeg
  repeat' first
    | with_reducible assumption | with_reducible refine Keeps.ite ?_ ?_ | with_reducible refine Keeps.foldl _ _ ?_ _ ?_ | fail_if_no_progress ((with_reducible refine Keeps.mk' ?_ rfl rfl rfl ?_ ?_ ?_ ?_ ?_ ?_ ?_ ?_ ?_ ?_ ?_ ?_ ?_ ?_ ?_ ?_ ?_ ?_ ?_ ?_ ?_) <;> first | exact Or.inl (hm.bit (by decide)) | exact Or.inr rfl | skip)
    | split
    | (extract_lets +onlyGivenNames x; first | (refine Keeps.cut s0 x ?_ fun h => ?_; rotate_left; clear_value x) | skip)
    | (unfold x; fail_if_success done)
    | intro h

theorem lruTick_keeps {k s0 s} (h : Keeps k s0 s)
    (hm : Within 0x4#21 k := by first | assumption | exact Within.trans (by assumption) (by decide)) :
    Keeps k s0 (lruTick s) := by
  unfold lruTick
  repeat' first
    | with_reducible assumption | with_reducible refine Keeps.ite ?_ ?_ | with_reducible refine Keeps.foldl _ _ ?_ _ ?_ | fail_if_no_progress ((with_reducible refine Keeps.mk' ?_ rfl rfl rfl ?_ ?_ ?_ ?_ ?_ ?_ ?_ ?_ ?_ ?_ ?_ ?_ ?_ ?_ ?_ ?_ ?_ ?_ ?_ ?_ ?_) <;> first | exact Or.inl (hm.bit (by decide)) | exact Or.inr rfl | skip)
    | split
    | (extract_lets +onlyGivenNames x; first | (refine Keeps.cut s0 x ?_ fun h => ?_; rotate_left; clear_value x) | skip)
    | (unfold x; fail_if_success done)
    | intro h

theorem setEntry_keeps {k s0 s a1 a2} (h : Keeps k s0 s)
    (hm : Within 0x4#21 k := by first | assumption | exact Within.trans (by assumption) (by decide)) :
    Keeps k s0 (setEntry s a1 a2) := by
  unfold setEntry
  repeat' first
    | with_reducible assumption | with_reducible refine setSeg_keeps ?_ | with_reducible refine Keeps.ite ?_ ?_ | with_reducible refine Keeps.foldl _ _ ?_ _ ?_ | fail_if_no_progress ((with_reducible refine Keeps.mk' ?_ rfl rfl rfl ?_ ?_ ?_ ?_ ?_ ?_ ?_ ?_ ?_ ?_ ?_ ?_ ?_ ?_ ?_ ?_ ?_ ?_ ?_ ?_ ?_) <;> first | exact Or.inl (hm.bit (by decide)) | exact Or.inr rfl | skip)
    | split
    | (extract_lets +onlyGivenNames x; first | (refine Keeps.cut s0 x ?_ fun h => ?_; rotate_left; clear_value x) | skip)
    | (unfold x; fail_if_success done)
    | intro h

theorem updEntry_keeps {k s0 s a1 a2} (h : Keeps k s0 s)
    (hm : Within 0x4#21 k := by first | assumption | exact Within.trans (by assumption) (by decide)) :
    Keeps k s0 (updEntry s a1 a2) := by
  unfold updEntry
  repeat' first
    | with_reducible assumption | with_reducible refine setEntry_keeps ?_ | with_reducible refine Keeps.ite ?_ ?_ | with_reducible refine Keeps.foldl _ _ ?_ _ ?_ | fail_if_no_progress ((with_reducible refine Keeps.mk' ?_ rfl rfl rfl ?_ ?_ ?_ ?_ ?_ ?_ ?_ ?_ ?_ ?_ ?_ ?_ ?_ ?_ ?_ ?_ ?_ ?_ ?_ ?_ ?_) <;> first | exact Or.inl (hm.bit (by decide)) | exact Or.inr rfl | skip)
    | split
    | (extract_lets +onlyGivenNames x; first | (refine Keeps.cut s0 x ?_ fun h => ?_; rotate_left; clear_value x) | skip)
    | (unfold x; fail_if_success done)
    | intro h

theorem setLeafLine_keeps {k s0 s a1 a2 a3} (h : Keeps k s0 s)
    (hm : Within 0x4#21 k := by first | assumption | exact Within.trans (by assumption) (by decide)) :
    Keeps k s0 (setLeafLine s a1 a2 a3) := by
  unfold setLeafLine
  repeat' first
    | with_reducible assumption | with_reducible refine Keeps.ite ?_ ?_ | with_reducible refine Keeps.foldl _ _ ?_ _ ?_ | fail_if_no_progress ((with_reducible refine Keeps.mk' ?_ rfl rfl rfl ?_ ?_ ?_ ?_ ?_ ?_ ?_ ?_ ?_ ?_ ?_ ?_ ?_ ?_ ?_ ?_ ?_ ?_ ?_ ?_ ?_) <;> first | exact Or.inl (hm.bit (by decide)) | exact Or.inr rfl | skip)
    | split
    | (extract_lets +onlyGivenNames x; first | (refine Keeps.cut s0 x ?_ fun h => ?_; rotate_left; clear_value x) | skip)
    | (unfold x; fail_if_success done)
    | intro h

theorem chooseWay_keeps {k s0 s a1} (h : Keeps k s0 s)
    (hm : Within 0x4#21 k := by first | assumption | exact Within.trans (by assumption) (by decide)) :
    Keeps k s0 (chooseWay s a1) := by
  unfold chooseWay
  repeat' first
    | with_reducible assumption | with_reducible refine setSeg_keeps ?_ | with_reducible refine Keeps.ite ?_ ?_ | with_reducible refine Keeps.foldl _ _ ?_ _ ?_ | fail_if_no_progress ((with_reducible refine Keeps.mk' ?_ rfl rfl rfl ?_ ?_ ?_ ?_ ?_ ?_ ?_ ?_ ?_ ?_ ?_ ?_ ?_ ?_ ?_ ?_ ?_ ?_ ?_ ?_ ?_) <;> first | exact Or.inl (hm.bit (by decide)) | exact Or.inr rfl | skip)
    | split
    | (extract_lets +onlyGivenNames x; first | (refine Keeps.cut s0 x ?_ fun h => ?_; rotate_left; clear_value x) | skip)
    | (unfold x; fail_if_success done)
    | intro h

theorem putSeg_keeps {k s0 s a1 a2} (h : Keeps k s0 s)
    (hm : Within 0x4#21 k := by first | assumption | exact Within.trans (by assumption) (by decide)) :
    Keeps k s0 (putSeg s a1 a2) := by
  unfold putSeg
  repeat' first
    | with_reducible assumption | with_reducible refine lruTick_keeps ?_ | with_reducible refine setSeg_keeps ?_ | with_reducible refine chooseWay_keeps ?_ | with_reducible refine Keeps.ite ?_ ?_ | with_reducible refine Keeps.foldl _ _ ?_ _ ?_ | fail_if_no_progress ((with_reducible refine Keeps.mk' ?_ rfl rfl rfl ?_ ?_ ?_ ?_ ?_ ?_ ?_ ?_ ?_ ?_ ?_ ?_ ?_ ?_ ?_ ?_ ?_ ?_ ?_ ?_ ?_) <;> first | exact Or.inl (hm.bit (by decide)) | exact Or.inr rfl | skip)
    | split
    | (extract_lets +onlyGivenNames x; first | (refine Keeps.cut s0 x ?_ fun h => ?_; rotate_left; clear_value x) | skip)
    | (unfold x; fail_if_success done)
    | intro h

theorem touchSeg_keeps {k s0 s a1} (h : Keeps k s0 s)
    (hm : Within 0x4#21 k := by first | assumption | exact Within.trans (by assumption) (by decide)) :
    Keeps k s0 (touchSeg s a1) := by
  unfold touchSeg
  repeat' first
    | with_reducible assumption | with_reducible refine lruTick_keeps ?_ | with_reducible refine setSeg_keeps ?_ | with_reducible refine Keeps.ite ?_ ?_ | with_reducible refine Keeps.foldl _ _ ?_ _ ?_ | fail_if_no_progress ((with_reducible refine Keeps.mk' ?_ rfl rfl rfl ?_ ?_ ?_ ?_ ?_ ?_ ?_ ?_ ?_ ?_ ?_ ?_ ?_ ?_ ?_ ?_ ?_ ?_ ?_ ?_ ?_) <;> first | exact Or.inl (hm.bit (by decide)) | exact Or.inr rfl | skip)
    | split
    | (extract_lets +onlyGivenNames x; first | (refine Keeps.cut s0 x ?_ fun h => ?_; rotate_left; clear_value x) | skip)
    | (unfold x; fail_if_success done)
    | intro h

theorem fetchSeg_keeps {k s0 s a1} (h : Keeps k s0 s)
    (hm : Within 0x4#21 k := by first | assumption | exact Within.trans (by assumption) (by decide)) :
    Keeps k s0 (fetchSeg s a1) := by
  unfold fetchSeg
  repeat' first
    | with_reducible assumption | with_reducible refine putSeg_keeps ?_ | with_reducible refine Keeps.ite ?_ ?_ | with_reducible refine Keeps.foldl _ _ ?_ _ ?_ | fail_if_no_progress ((with_reducible refine Keeps.mk' ?_ rfl rfl rfl ?_ ?_ ?_ ?_ ?_ ?_ ?_ ?_ ?_ ?_ ?_ ?_ ?_ ?_ ?_ ?_ ?_ ?_ ?_ ?_ ?_) <;> first | exact Or.inl (hm.bit (by decide)) | exact Or.inr rfl | skip)
    | split
    | (extract_lets +onlyGivenNames x; first | (refine Keeps.cut s0 x ?_ fun h => ?_; rotate_left; clear_value x) | skip)
    | (unfold x; fail_if_success done)
    | intro h

theorem askCeiling_keeps {k s0 s} (h : Keeps k s0 s)
    (hm : Within 0x200#21 k := by first | assumption | exact Within.trans (by assumption) (by decide)) :
    Keeps k s0 (askCeiling s) := by
  unfold askCeiling
  repeat' first
    | with_reducible assumption | with_reducible refine Keeps.ite ?_ ?_ | with_reducible refine Keeps.foldl _ _ ?_ _ ?_ | fail_if_no_progress ((with_reducible refine Keeps.mk' ?_ rfl rfl rfl ?_ ?_ ?_ ?_ ?_ ?_ ?_ ?_ ?_ ?_ ?_ ?_ ?_ ?_ ?_ ?_ ?_ ?_ ?_ ?_ ?_) <;> first | exact Or.inl (hm.bit (by decide)) | exact Or.inr rfl | skip)
    | split
    | (extract_lets +onlyGivenNames x; first | (refine Keeps.cut s0 x ?_ fun h => ?_; rotate_left; clear_value x) | skip)
    | (unfold x; fail_if_success done)
    | intro h

theorem raiseCeiling_keeps {k s0 s} (h : Keeps k s0 s)
    (hm : Within 0x100200#21 k := by first | assumption | exact Within.trans (by assumption) (by decide)) :
    Keeps k s0 (raiseCeiling s) := by
  unfold raiseCeiling
  repeat' first
    | with_reducible assumption | with_reducible refine keepPut_keeps ?_ | with_reducible refine Keeps.ite ?_ ?_ | with_reducible refine Keeps.foldl _ _ ?_ _ ?_ | fail_if_no_progress ((with_reducible refine Keeps.mk' ?_ rfl rfl rfl ?_ ?_ ?_ ?_ ?_ ?_ ?_ ?_ ?_ ?_ ?_ ?_ ?_ ?_ ?_ ?_ ?_ ?_ ?_ ?_ ?_) <;> first | exact Or.inl (hm.bit (by decide)) | exact Or.inr rfl | skip)
    | split
    | (extract_lets +onlyGivenNames x; first | (refine Keeps.cut s0 x ?_ fun h => ?_; rotate_left; clear_value x) | skip)
    | (unfold x; fail_if_success done)
    | intro h

theorem setLeafStamp_keeps {k s0 s a1 a2} (h : Keeps k s0 s)
    (hm : Within 0x200#21 k := by first | assumption | exact Within.trans (by assumption) (by decide)) :
    Keeps k s0 (setLeafStamp s a1 a2) := by
  unfold setLeafStamp
  repeat' first
    | with_reducible assumption | with_reducible refine Keeps.ite ?_ ?_ | with_reducible refine Keeps.foldl _ _ ?_ _ ?_ | fail_if_no_progress ((with_reducible refine Keeps.mk' ?_ rfl rfl rfl ?_ ?_ ?_ ?_ ?_ ?_ ?_ ?_ ?_ ?_ ?_ ?_ ?_ ?_ ?_ ?_ ?_ ?_ ?_ ?_ ?_) <;> first | exact Or.inl (hm.bit (by decide)) | exact Or.inr rfl | skip)
    | split
    | (extract_lets +onlyGivenNames x; first | (refine Keeps.cut s0 x ?_ fun h => ?_; rotate_left; clear_value x) | skip)
    | (unfold x; fail_if_success done)
    | intro h

theorem releaseSlot_keeps {k s0 s a1} (h : Keeps k s0 s)
    (hm : Within 0x20#21 k := by first | assumption | exact Within.trans (by assumption) (by decide)) :
    Keeps k s0 (releaseSlot s a1) := by
  unfold releaseSlot
  repeat' first
    | with_reducible assumption | with_reducible refine updStripe_keeps ?_ | with_reducible refine Keeps.ite ?_ ?_ | with_reducible refine Keeps.foldl _ _ ?_ _ ?_ | fail_if_no_progress ((with_reducible refine Keeps.mk' ?_ rfl rfl rfl ?_ ?_ ?_ ?_ ?_ ?_ ?_ ?_ ?_ ?_ ?_ ?_ ?_ ?_ ?_ ?_ ?_ ?_ ?_ ?_ ?_) <;> first | exact Or.inl (hm.bit (by decide)) | exact Or.inr rfl | skip)
    | split
    | (extract_lets +onlyGivenNames x; first | (refine Keeps.cut s0 x ?_ fun h => ?_; rotate_left; clear_value x) | skip)
    | (unfold x; fail_if_success done)
    | intro h

theorem claimSlot_keeps {k s0 s a1} (h : Keeps k s0 s)
    (hm : Within 0x20#21 k := by first | assumption | exact Within.trans (by assumption) (by decide)) :
    Keeps k s0 (claimSlot s a1) := by
  unfold claimSlot
  repeat' first
    | with_reducible assumption | with_reducible refine updStripe_keeps ?_ | with_reducible refine Keeps.ite ?_ ?_ | with_reducible refine Keeps.foldl _ _ ?_ _ ?_ | fail_if_no_progress ((with_reducible refine Keeps.mk' ?_ rfl rfl rfl ?_ ?_ ?_ ?_ ?_ ?_ ?_ ?_ ?_ ?_ ?_ ?_ ?_ ?_ ?_ ?_ ?_ ?_ ?_ ?_ ?_) <;> first | exact Or.inl (hm.bit (by decide)) | exact Or.inr rfl | skip)
    | split
    | (extract_lets +onlyGivenNames x; first | (refine Keeps.cut s0 x ?_ fun h => ?_; rotate_left; clear_value x) | skip)
    | (unfold x; fail_if_success done)
    | intro h

theorem setStampSlot_keeps {k s0 s a1 a2} (h : Keeps k s0 s)
    (hm : Within 0x200#21 k := by first | assumption | exact Within.trans (by assumption) (by decide)) :
    Keeps k s0 (setStampSlot s a1 a2) := by
  unfold setStampSlot
  repeat' first
    | with_reducible assumption | with_reducible refine Keeps.ite ?_ ?_ | with_reducible refine Keeps.foldl _ _ ?_ _ ?_ | fail_if_no_progress ((with_reducible refine Keeps.mk' ?_ rfl rfl rfl ?_ ?_ ?_ ?_ ?_ ?_ ?_ ?_ ?_ ?_ ?_ ?_ ?_ ?_ ?_ ?_ ?_ ?_ ?_ ?_ ?_) <;> first | exact Or.inl (hm.bit (by decide)) | exact Or.inr rfl | skip)
    | split
    | (extract_lets +onlyGivenNames x; first | (refine Keeps.cut s0 x ?_ fun h => ?_; rotate_left; clear_value x) | skip)
    | (unfold x; fail_if_success done)
    | intro h

theorem slotToMedia_keeps {k s0 s a1 a2} (h : Keeps k s0 s)
    (hm : Within 0x200#21 k := by first | assumption | exact Within.trans (by assumption) (by decide)) :
    Keeps k s0 (slotToMedia s a1 a2) := by
  unfold slotToMedia
  repeat' first
    | with_reducible assumption | with_reducible refine Keeps.ite ?_ ?_ | with_reducible refine Keeps.foldl _ _ ?_ _ ?_ | fail_if_no_progress ((with_reducible refine Keeps.mk' ?_ rfl rfl rfl ?_ ?_ ?_ ?_ ?_ ?_ ?_ ?_ ?_ ?_ ?_ ?_ ?_ ?_ ?_ ?_ ?_ ?_ ?_ ?_ ?_) <;> first | exact Or.inl (hm.bit (by decide)) | exact Or.inr rfl | skip)
    | split
    | (extract_lets +onlyGivenNames x; first | (refine Keeps.cut s0 x ?_ fun h => ?_; rotate_left; clear_value x) | skip)
    | (unfold x; fail_if_success done)
    | intro h

theorem slotRoom_keeps {k s0 s a1} (h : Keeps k s0 s)
    (hm : Within 0x200#21 k := by first | assumption | exact Within.trans (by assumption) (by decide)) :
    Keeps k s0 (slotRoom s a1) := by
  unfold slotRoom
  repeat' first
    | with_reducible assumption | with_reducible refine slotToMedia_keeps ?_ | with_reducible refine setStampSlot_keeps ?_ | with_reducible refine Keeps.ite ?_ ?_ | with_reducible refine Keeps.foldl _ _ ?_ _ ?_ | fail_if_no_progress ((with_reducible refine Keeps.mk' ?_ rfl rfl rfl ?_ ?_ ?_ ?_ ?_ ?_ ?_ ?_ ?_ ?_ ?_ ?_ ?_ ?_ ?_ ?_ ?_ ?_ ?_ ?_ ?_) <;> first | exact Or.inl (hm.bit (by decide)) | exact Or.inr rfl | skip)
    | split
    | (extract_lets +onlyGivenNames x; first | (refine Keeps.cut s0 x ?_ fun h => ?_; rotate_left; clear_value x) | skip)
    | (unfold x; fail_if_success done)
    | intro h

theorem putStamps_keeps {k s0 s a1 a2 a3} (h : Keeps k s0 s)
    (hm : Within 0x204#21 k := by first | assumption | exact Within.trans (by assumption) (by decide)) :
    Keeps k s0 (putStamps s a1 a2 a3) := by
  unfold putStamps
  repeat' first
    | with_reducible assumption | with_reducible refine lruTick_keeps ?_ | with_reducible refine slotRoom_keeps ?_ | with_reducible refine setStampSlot_keeps ?_ | with_reducible refine Keeps.ite ?_ ?_ | with_reducible refine Keeps.foldl _ _ ?_ _ ?_ | fail_if_no_progress ((with_reducible refine Keeps.mk' ?_ rfl rfl rfl ?_ ?_ ?_ ?_ ?_ ?_ ?_ ?_ ?_ ?_ ?_ ?_ ?_ ?_ ?_ ?_ ?_ ?_ ?_ ?_ ?_) <;> first | exact Or.inl (hm.bit (by decide)) | exact Or.inr rfl | skip)
    | split
    | (extract_lets +onlyGivenNames x; first | (refine Keeps.cut s0 x ?_ fun h => ?_; rotate_left; clear_value x) | skip)
    | (unfold x; fail_if_success done)
    | intro h

theorem useSlot_keeps {k s0 s a1 a2 a3} (h : Keeps k s0 s)
    (hm : Within 0x204#21 k := by first | assumption | exact Within.trans (by assumption) (by decide)) :
    Keeps k s0 (useSlot s a1 a2 a3) := by
  unfold useSlot
  repeat' first
    | with_reducible assumption | with_reducible refine lruTick_keeps ?_ | with_reducible refine slotRoom_keeps ?_ | with_reducible refine setStampSlot_keeps ?_ | with_reducible refine Keeps.ite ?_ ?_ | with_reducible refine Keeps.foldl _ _ ?_ _ ?_ | fail_if_no_progress ((with_reducible refine Keeps.mk' ?_ rfl rfl rfl ?_ ?_ ?_ ?_ ?_ ?_ ?_ ?_ ?_ ?_ ?_ ?_ ?_ ?_ ?_ ?_ ?_ ?_ ?_ ?_ ?_) <;> first | exact Or.inl (hm.bit (by decide)) | exact Or.inr rfl | skip)
    | split
    | (extract_lets +onlyGivenNames x; first | (refine Keeps.cut s0 x ?_ fun h => ?_; rotate_left; clear_value x) | skip)
    | (unfold x; fail_if_success done)
    | intro h

theorem dropStamps_keeps {k s0 s a1} (h : Keeps k s0 s)
    (hm : Within 0x200#21 k := by first | assumption | exact Within.trans (by assumption) (by decide)) :
    Keeps k s0 (dropStamps s a1) := by
  unfold dropStamps
  repeat' first
    | with_reducible assumption | with_reducible refine setStampSlot_keeps ?_ | with_reducible refine Keeps.ite ?_ ?_ | with_reducible refine Keeps.foldl _ _ ?_ _ ?_ | fail_if_no_progress ((with_reducible refine Keeps.mk' ?_ rfl rfl rfl ?_ ?_ ?_ ?_ ?_ ?_ ?_ ?_ ?_ ?_ ?_ ?_ ?_ ?_ ?_ ?_ ?_ ?_ ?_ ?_ ?_) <;> first | exact Or.inl (hm.bit (by decide)) | exact Or.inr rfl | skip)
    | split
    | (extract_lets +onlyGivenNames x; first | (refine Keeps.cut s0 x ?_ fun h => ?_; rotate_left; clear_value x) | skip)
    | (unfold x; fail_if_success done)
    | intro h

theorem poisonLeave_keeps {k s0 s a1} (h : Keeps k s0 s)
    (hm : Within 0x80#21 k := by first | assumption | exact Within.trans (by assumption) (by decide)) :
    Keeps k s0 (poisonLeave s a1) := by
  unfold poisonLeave
  repeat' first
    | with_reducible assumption | with_reducible refine Keeps.ite ?_ ?_ | with_reducible refine Keeps.foldl _ _ ?_ _ ?_ | fail_if_no_progress ((with_reducible refine Keeps.mk' ?_ rfl rfl rfl ?_ ?_ ?_ ?_ ?_ ?_ ?_ ?_ ?_ ?_ ?_ ?_ ?_ ?_ ?_ ?_ ?_ ?_ ?_ ?_ ?_) <;> first | exact Or.inl (hm.bit (by decide)) | exact Or.inr rfl | skip)
    | split
    | (extract_lets +onlyGivenNames x; first | (refine Keeps.cut s0 x ?_ fun h => ?_; rotate_left; clear_value x) | skip)
    | (unfold x; fail_if_success done)
    | intro h

theorem poisonLeavePage_keeps {k s0 s a1} (h : Keeps k s0 s)
    (hm : Within 0x80#21 k := by first | assumption | exact Within.trans (by assumption) (by decide)) :
    Keeps k s0 (poisonLeavePage s a1) := by
  unfold poisonLeavePage
  repeat' first
    | with_reducible assumption | with_reducible refine Keeps.ite ?_ ?_ | with_reducible refine Keeps.foldl _ _ ?_ _ ?_ | fail_if_no_progress ((with_reducible refine Keeps.mk' ?_ rfl rfl rfl ?_ ?_ ?_ ?_ ?_ ?_ ?_ ?_ ?_ ?_ ?_ ?_ ?_ ?_ ?_ ?_ ?_ ?_ ?_ ?_ ?_) <;> first | exact Or.inl (hm.bit (by decide)) | exact Or.inr rfl | skip)
    | split
    | (extract_lets +onlyGivenNames x; first | (refine Keeps.cut s0 x ?_ fun h => ?_; rotate_left; clear_value x) | skip)
    | (unfold x; fail_if_success done)
    | intro h

theorem unmapPage_keeps {k s0 s a1 a2} (h : Keeps k s0 s)
    (hm : Within 0x224#21 k := by first | assumption | exact Within.trans (by assumption) (by decide)) :
    Keeps k s0 (unmapPage s a1 a2) := by
  unfold unmapPage
  repeat' first
    | with_reducible assumption | with_reducible refine setEntry_keeps ?_ | with_reducible refine dropStamps_keeps ?_ | with_reducible refine releaseSlot_keeps ?_ | with_reducible refine Keeps.ite ?_ ?_ | with_reducible refine Keeps.foldl _ _ ?_ _ ?_ | fail_if_no_progress ((with_reducible refine Keeps.mk' ?_ rfl rfl rfl ?_ ?_ ?_ ?_ ?_ ?_ ?_ ?_ ?_ ?_ ?_ ?_ ?_ ?_ ?_ ?_ ?_ ?_ ?_ ?_ ?_) <;> first | exact Or.inl (hm.bit (by decide)) | exact Or.inr rfl | skip)
    | split
    | (extract_lets +onlyGivenNames x; first | (refine Keeps.cut s0 x ?_ fun h => ?_; rotate_left; clear_value x) | skip)
    | (unfold x; fail_if_success done)
    | intro h

theorem dropPage_keeps {k s0 s a1} (h : Keeps k s0 s)
    (hm : Within 0x2a4#21 k := by first | assumption | exact Within.trans (by assumption) (by decide)) :
    Keeps k s0 (dropPage s a1) := by
  unfold dropPage
  repeat' first
    | with_reducible assumption | with_reducible refine unmapPage_keeps ?_ | with_reducible refine poisonLeave_keeps ?_ | with_reducible refine Keeps.ite ?_ ?_ | with_reducible refine Keeps.foldl _ _ ?_ _ ?_ | fail_if_no_progress ((with_reducible refine Keeps.mk' ?_ rfl rfl rfl ?_ ?_ ?_ ?_ ?_ ?_ ?_ ?_ ?_ ?_ ?_ ?_ ?_ ?_ ?_ ?_ ?_ ?_ ?_ ?_ ?_) <;> first | exact Or.inl (hm.bit (by decide)) | exact Or.inr rfl | skip)
    | split
    | (extract_lets +onlyGivenNames x; first | (refine Keeps.cut s0 x ?_ fun h => ?_; rotate_left; clear_value x) | skip)
    | (unfold x; fail_if_success done)
    | intro h

/-! Ecc. -/

theorem bucketEvent_keeps {k s0 s a1} (h : Keeps k s0 s)
    (hm : Within 0x108080#21 k := by first | assumption | exact Within.trans (by assumption) (by decide)) :
    Keeps k s0 (bucketEvent s a1) := by
  unfold bucketEvent
  repeat' first
    | with_reducible assumption | with_reducible refine updEcc_keeps ?_ | with_reducible refine count_keeps ?_ | with_reducible refine raise_keeps ?_ | with_reducible refine Keeps.ite ?_ ?_ | with_reducible refine Keeps.foldl _ _ ?_ _ ?_ | fail_if_no_progress ((with_reducible refine Keeps.mk' ?_ rfl rfl rfl ?_ ?_ ?_ ?_ ?_ ?_ ?_ ?_ ?_ ?_ ?_ ?_ ?_ ?_ ?_ ?_ ?_ ?_ ?_ ?_ ?_) <;> first | exact Or.inl (hm.bit (by decide)) | exact Or.inr rfl | skip)
    | split
    | (extract_lets +onlyGivenNames x; first | (refine Keeps.cut s0 x ?_ fun h => ?_; rotate_left; clear_value x) | skip)
    | (unfold x; fail_if_success done)
    | intro h

theorem correctionEvent_keeps {k s0 s a1 a2} (h : Keeps k s0 s)
    (hm : Within 0x1080a4#21 k := by first | assumption | exact Within.trans (by assumption) (by decide)) :
    Keeps k s0 (correctionEvent s a1 a2) := by
  unfold correctionEvent
  repeat' first
    | with_reducible assumption | with_reducible refine fetchSeg_keeps ?_ | with_reducible refine bucketEvent_keeps ?_ | with_reducible refine setEntry_keeps ?_ | with_reducible refine Keeps.ite ?_ ?_ | with_reducible refine Keeps.foldl _ _ ?_ _ ?_ | fail_if_no_progress ((with_reducible refine Keeps.mk' ?_ rfl rfl rfl ?_ ?_ ?_ ?_ ?_ ?_ ?_ ?_ ?_ ?_ ?_ ?_ ?_ ?_ ?_ ?_ ?_ ?_ ?_ ?_ ?_) <;> first | exact Or.inl (hm.bit (by decide)) | exact Or.inr rfl | skip)
    | split
    | (extract_lets +onlyGivenNames x; first | (refine Keeps.cut s0 x ?_ fun h => ?_; rotate_left; clear_value x) | skip)
    | (unfold x; fail_if_success done)
    | intro h

theorem queueRefresh_keeps {k s0 s a1} (h : Keeps k s0 s)
    (hm : Within 0x24#21 k := by first | assumption | exact Within.trans (by assumption) (by decide)) :
    Keeps k s0 (queueRefresh s a1) := by
  unfold queueRefresh
  repeat' first
    | with_reducible assumption | with_reducible refine updEntry_keeps ?_ | with_reducible refine fetchSeg_keeps ?_ | with_reducible refine Keeps.ite ?_ ?_ | with_reducible refine Keeps.foldl _ _ ?_ _ ?_ | fail_if_no_progress ((with_reducible refine Keeps.mk' ?_ rfl rfl rfl ?_ ?_ ?_ ?_ ?_ ?_ ?_ ?_ ?_ ?_ ?_ ?_ ?_ ?_ ?_ ?_ ?_ ?_ ?_ ?_ ?_) <;> first | exact Or.inl (hm.bit (by decide)) | exact Or.inr rfl | skip)
    | split
    | (extract_lets +onlyGivenNames x; first | (refine Keeps.cut s0 x ?_ fun h => ?_; rotate_left; clear_value x) | skip)
    | (unfold x; fail_if_success done)
    | intro h

theorem poisonEnter_keeps {k s0 s a1 a2} (h : Keeps k s0 s)
    (hm : Within 0x80#21 k := by first | assumption | exact Within.trans (by assumption) (by decide)) :
    Keeps k s0 (poisonEnter s a1 a2) := by
  unfold poisonEnter
  repeat' first
    | with_reducible assumption | with_reducible refine Keeps.ite ?_ ?_ | with_reducible refine Keeps.foldl _ _ ?_ _ ?_ | fail_if_no_progress ((with_reducible refine Keeps.mk' ?_ rfl rfl rfl ?_ ?_ ?_ ?_ ?_ ?_ ?_ ?_ ?_ ?_ ?_ ?_ ?_ ?_ ?_ ?_ ?_ ?_ ?_ ?_ ?_) <;> first | exact Or.inl (hm.bit (by decide)) | exact Or.inr rfl | skip)
    | split
    | (extract_lets +onlyGivenNames x; first | (refine Keeps.cut s0 x ?_ fun h => ?_; rotate_left; clear_value x) | skip)
    | (unfold x; fail_if_success done)
    | intro h

theorem placeMarker_keeps {k s0 s a1 a2 a3} (h : Keeps k s0 s)
    (hm : Within 0x8#21 k := by first | assumption | exact Within.trans (by assumption) (by decide)) :
    Keeps k s0 (placeMarker s a1 a2 a3) := by
  unfold placeMarker
  repeat' first
    | with_reducible assumption | with_reducible refine setSagLine_keeps ?_ | with_reducible refine Keeps.ite ?_ ?_ | with_reducible refine Keeps.foldl _ _ ?_ _ ?_ | fail_if_no_progress ((with_reducible refine Keeps.mk' ?_ rfl rfl rfl ?_ ?_ ?_ ?_ ?_ ?_ ?_ ?_ ?_ ?_ ?_ ?_ ?_ ?_ ?_ ?_ ?_ ?_ ?_ ?_ ?_) <;> first | exact Or.inl (hm.bit (by decide)) | exact Or.inr rfl | skip)
    | split
    | (extract_lets +onlyGivenNames x; first | (refine Keeps.cut s0 x ?_ fun h => ?_; rotate_left; clear_value x) | skip)
    | (unfold x; fail_if_success done)
    | intro h

theorem placeWaiting_keeps {k s0 s} (h : Keeps k s0 s)
    (hm : Within 0x8#21 k := by first | assumption | exact Within.trans (by assumption) (by decide)) :
    Keeps k s0 (placeWaiting s) := by
  unfold placeWaiting
  repeat' first
    | with_reducible assumption | with_reducible refine placeMarker_keeps ?_ | with_reducible refine Keeps.ite ?_ ?_ | with_reducible refine Keeps.foldl _ _ ?_ _ ?_ | fail_if_no_progress ((with_reducible refine Keeps.mk' ?_ rfl rfl rfl ?_ ?_ ?_ ?_ ?_ ?_ ?_ ?_ ?_ ?_ ?_ ?_ ?_ ?_ ?_ ?_ ?_ ?_ ?_ ?_ ?_) <;> first | exact Or.inl (hm.bit (by decide)) | exact Or.inr rfl | skip)
    | split
    | (extract_lets +onlyGivenNames x; first | (refine Keeps.cut s0 x ?_ fun h => ?_; rotate_left; clear_value x) | skip)
    | (unfold x; fail_if_success done)
    | intro h

theorem poisonWhole_keeps {k s0 s a1} (h : Keeps k s0 s)
    (hm : Within 0x2a4#21 k := by first | assumption | exact Within.trans (by assumption) (by decide)) :
    Keeps k s0 (poisonWhole s a1) := by
  unfold poisonWhole
  repeat' first
    | with_reducible assumption | with_reducible refine unmapPage_keeps ?_ | with_reducible refine fetchSeg_keeps ?_ | with_reducible refine poisonEnter_keeps ?_ | with_reducible refine Keeps.ite ?_ ?_ | with_reducible refine Keeps.foldl _ _ ?_ _ ?_ | fail_if_no_progress ((with_reducible refine Keeps.mk' ?_ rfl rfl rfl ?_ ?_ ?_ ?_ ?_ ?_ ?_ ?_ ?_ ?_ ?_ ?_ ?_ ?_ ?_ ?_ ?_ ?_ ?_ ?_ ?_) <;> first | exact Or.inl (hm.bit (by decide)) | exact Or.inr rfl | skip)
    | split
    | (extract_lets +onlyGivenNames x; first | (refine Keeps.cut s0 x ?_ fun h => ?_; rotate_left; clear_value x) | skip)
    | (unfold x; fail_if_success done)
    | intro h

theorem poisonFromMedia_keeps {k s0 s a1 a2 a3 a4} (h : Keeps k s0 s)
    (hm : Within 0x1002ac#21 k := by first | assumption | exact Within.trans (by assumption) (by decide)) :
    Keeps k s0 (poisonFromMedia s a1 a2 a3 a4) := by
  unfold poisonFromMedia
  repeat' first
    | with_reducible assumption | with_reducible refine poisonEnter_keeps ?_ | with_reducible refine updEcc_keeps ?_ | with_reducible refine raiseAddr_keeps ?_ | with_reducible refine poisonWhole_keeps ?_ | with_reducible refine placeMarker_keeps ?_ | with_reducible refine Keeps.ite ?_ ?_ | with_reducible refine Keeps.foldl _ _ ?_ _ ?_ | fail_if_no_progress ((with_reducible refine Keeps.mk' ?_ rfl rfl rfl ?_ ?_ ?_ ?_ ?_ ?_ ?_ ?_ ?_ ?_ ?_ ?_ ?_ ?_ ?_ ?_ ?_ ?_ ?_ ?_ ?_) <;> first | exact Or.inl (hm.bit (by decide)) | exact Or.inr rfl | skip)
    | split
    | (extract_lets +onlyGivenNames x; first | (refine Keeps.cut s0 x ?_ fun h => ?_; rotate_left; clear_value x) | skip)
    | (unfold x; fail_if_success done)
    | intro h

theorem securityEvent_keeps {k s0 s a1 a2 a3 a4 a5} (h : Keeps k s0 s)
    (hm : Within 0x100200#21 k := by first | assumption | exact Within.trans (by assumption) (by decide)) :
    Keeps k s0 (securityEvent s a1 a2 a3 a4 a5) := by
  unfold securityEvent
  repeat' first
    | with_reducible assumption | with_reducible refine raiseAddr_keeps ?_ | with_reducible refine Keeps.ite ?_ ?_ | with_reducible refine Keeps.foldl _ _ ?_ _ ?_ | fail_if_no_progress ((with_reducible refine Keeps.mk' ?_ rfl rfl rfl ?_ ?_ ?_ ?_ ?_ ?_ ?_ ?_ ?_ ?_ ?_ ?_ ?_ ?_ ?_ ?_ ?_ ?_ ?_ ?_ ?_) <;> first | exact Or.inl (hm.bit (by decide)) | exact Or.inr rfl | skip)
    | split
    | (extract_lets +onlyGivenNames x; first | (refine Keeps.cut s0 x ?_ fun h => ?_; rotate_left; clear_value x) | skip)
    | (unfold x; fail_if_success done)
    | intro h

/-! Senses. -/

theorem addSense_keeps {k s0 s a1 a2} (h : Keeps k s0 s)
    (hm : Within 0x400#21 k := by first | assumption | exact Within.trans (by assumption) (by decide)) :
    Keeps k s0 (addSense s a1 a2) := by
  unfold addSense
  repeat' first
    | with_reducible assumption | with_reducible refine updLink_keeps ?_ | with_reducible refine Keeps.ite ?_ ?_ | with_reducible refine Keeps.foldl _ _ ?_ _ ?_ | fail_if_no_progress ((with_reducible refine Keeps.mk' ?_ rfl rfl rfl ?_ ?_ ?_ ?_ ?_ ?_ ?_ ?_ ?_ ?_ ?_ ?_ ?_ ?_ ?_ ?_ ?_ ?_ ?_ ?_ ?_) <;> first | exact Or.inl (hm.bit (by decide)) | exact Or.inr rfl | skip)
    | split
    | (extract_lets +onlyGivenNames x; first | (refine Keeps.cut s0 x ?_ fun h => ?_; rotate_left; clear_value x) | skip)
    | (unfold x; fail_if_success done)
    | intro h

theorem senseLine_keeps {k s0 s a1 a2 a3 a4} (h : Keeps k s0 s)
    (hm : Within 0x400#21 k := by first | assumption | exact Within.trans (by assumption) (by decide)) :
    Keeps k s0 (senseLine s a1 a2 a3 a4) := by
  unfold senseLine
  repeat' first
    | with_reducible assumption | with_reducible refine addSense_keeps ?_ | with_reducible refine Keeps.ite ?_ ?_ | with_reducible refine Keeps.foldl _ _ ?_ _ ?_ | fail_if_no_progress ((with_reducible refine Keeps.mk' ?_ rfl rfl rfl ?_ ?_ ?_ ?_ ?_ ?_ ?_ ?_ ?_ ?_ ?_ ?_ ?_ ?_ ?_ ?_ ?_ ?_ ?_ ?_ ?_) <;> first | exact Or.inl (hm.bit (by decide)) | exact Or.inr rfl | skip)
    | split
    | (extract_lets +onlyGivenNames x; first | (refine Keeps.cut s0 x ?_ fun h => ?_; rotate_left; clear_value x) | skip)
    | (unfold x; fail_if_success done)
    | intro h

theorem senseStripe_keeps {k s0 s a1 a2 a3 a4} (h : Keeps k s0 s)
    (hm : Within 0x400#21 k := by first | assumption | exact Within.trans (by assumption) (by decide)) :
    Keeps k s0 (senseStripe s a1 a2 a3 a4) := by
  unfold senseStripe
  repeat' first
    | with_reducible assumption | with_reducible refine addSense_keeps ?_ | with_reducible refine Keeps.ite ?_ ?_ | with_reducible refine Keeps.foldl _ _ ?_ _ ?_ | fail_if_no_progress ((with_reducible refine Keeps.mk' ?_ rfl rfl rfl ?_ ?_ ?_ ?_ ?_ ?_ ?_ ?_ ?_ ?_ ?_ ?_ ?_ ?_ ?_ ?_ ?_ ?_ ?_ ?_ ?_) <;> first | exact Or.inl (hm.bit (by decide)) | exact Or.inr rfl | skip)
    | split
    | (extract_lets +onlyGivenNames x; first | (refine Keeps.cut s0 x ?_ fun h => ?_; rotate_left; clear_value x) | skip)
    | (unfold x; fail_if_success done)
    | intro h

theorem senseMap_keeps {k s0 s a1} (h : Keeps k s0 s)
    (hm : Within 0x400#21 k := by first | assumption | exact Within.trans (by assumption) (by decide)) :
    Keeps k s0 (senseMap s a1) := by
  unfold senseMap
  repeat' first
    | with_reducible assumption | with_reducible refine addSense_keeps ?_ | with_reducible refine Keeps.ite ?_ ?_ | with_reducible refine Keeps.foldl _ _ ?_ _ ?_ | fail_if_no_progress ((with_reducible refine Keeps.mk' ?_ rfl rfl rfl ?_ ?_ ?_ ?_ ?_ ?_ ?_ ?_ ?_ ?_ ?_ ?_ ?_ ?_ ?_ ?_ ?_ ?_ ?_ ?_ ?_) <;> first | exact Or.inl (hm.bit (by decide)) | exact Or.inr rfl | skip)
    | split
    | (extract_lets +onlyGivenNames x; first | (refine Keeps.cut s0 x ?_ fun h => ?_; rotate_left; clear_value x) | skip)
    | (unfold x; fail_if_success done)
    | intro h

theorem senseStamp_keeps {k s0 s a1 a2 a3 a4} (h : Keeps k s0 s)
    (hm : Within 0x400#21 k := by first | assumption | exact Within.trans (by assumption) (by decide)) :
    Keeps k s0 (senseStamp s a1 a2 a3 a4) := by
  unfold senseStamp
  repeat' first
    | with_reducible assumption | with_reducible refine addSense_keeps ?_ | with_reducible refine Keeps.ite ?_ ?_ | with_reducible refine Keeps.foldl _ _ ?_ _ ?_ | fail_if_no_progress ((with_reducible refine Keeps.mk' ?_ rfl rfl rfl ?_ ?_ ?_ ?_ ?_ ?_ ?_ ?_ ?_ ?_ ?_ ?_ ?_ ?_ ?_ ?_ ?_ ?_ ?_ ?_ ?_) <;> first | exact Or.inl (hm.bit (by decide)) | exact Or.inr rfl | skip)
    | split
    | (extract_lets +onlyGivenNames x; first | (refine Keeps.cut s0 x ?_ fun h => ?_; rotate_left; clear_value x) | skip)
    | (unfold x; fail_if_success done)
    | intro h

theorem dropSense_keeps {k s0 s a1 a2} (h : Keeps k s0 s)
    (hm : Within 0x400#21 k := by first | assumption | exact Within.trans (by assumption) (by decide)) :
    Keeps k s0 (dropSense s a1 a2) := by
  unfold dropSense
  repeat' first
    | with_reducible assumption | with_reducible refine updLink_keeps ?_ | with_reducible refine Keeps.ite ?_ ?_ | with_reducible refine Keeps.foldl _ _ ?_ _ ?_ | fail_if_no_progress ((with_reducible refine Keeps.mk' ?_ rfl rfl rfl ?_ ?_ ?_ ?_ ?_ ?_ ?_ ?_ ?_ ?_ ?_ ?_ ?_ ?_ ?_ ?_ ?_ ?_ ?_ ?_ ?_) <;> first | exact Or.inl (hm.bit (by decide)) | exact Or.inr rfl | skip)
    | split
    | (extract_lets +onlyGivenNames x; first | (refine Keeps.cut s0 x ?_ fun h => ?_; rotate_left; clear_value x) | skip)
    | (unfold x; fail_if_success done)
    | intro h

/-! Saggar. -/

theorem rechargePage_keeps {k s0 s a1} (h : Keeps k s0 s)
    (hm : Within 0x8#21 k := by first | assumption | exact Within.trans (by assumption) (by decide)) :
    Keeps k s0 (rechargePage s a1) := by
  unfold rechargePage
  repeat' first
    | with_reducible assumption | with_reducible refine setSagLine_keeps ?_ | with_reducible refine Keeps.ite ?_ ?_ | with_reducible refine Keeps.foldl _ _ ?_ _ ?_ | fail_if_no_progress ((with_reducible refine Keeps.mk' ?_ rfl rfl rfl ?_ ?_ ?_ ?_ ?_ ?_ ?_ ?_ ?_ ?_ ?_ ?_ ?_ ?_ ?_ ?_ ?_ ?_ ?_ ?_ ?_) <;> first | exact Or.inl (hm.bit (by decide)) | exact Or.inr rfl | skip)
    | split
    | (extract_lets +onlyGivenNames x; first | (refine Keeps.cut s0 x ?_ fun h => ?_; rotate_left; clear_value x) | skip)
    | (unfold x; fail_if_success done)
    | intro h

theorem wakeReads_keeps {k s0 s a1 a2 a3} (h : Keeps k s0 s)
    (hm : Within 0x10#21 k := by first | assumption | exact Within.trans (by assumption) (by decide)) :
    Keeps k s0 (wakeReads s a1 a2 a3) := by
  unfold wakeReads
  repeat' first
    | with_reducible assumption | with_reducible refine Keeps.ite ?_ ?_ | with_reducible refine Keeps.foldl _ _ ?_ _ ?_ | fail_if_no_progress ((with_reducible refine Keeps.mk' ?_ rfl rfl rfl ?_ ?_ ?_ ?_ ?_ ?_ ?_ ?_ ?_ ?_ ?_ ?_ ?_ ?_ ?_ ?_ ?_ ?_ ?_ ?_ ?_) <;> first | exact Or.inl (hm.bit (by decide)) | exact Or.inr rfl | skip)
    | split
    | (extract_lets +onlyGivenNames x; first | (refine Keeps.cut s0 x ?_ fun h => ?_; rotate_left; clear_value x) | skip)
    | (unfold x; fail_if_success done)
    | intro h

theorem finishFill_keeps {k s0 s a1 a2 a3} (h : Keeps k s0 s)
    (hm : Within 0x18#21 k := by first | assumption | exact Within.trans (by assumption) (by decide)) :
    Keeps k s0 (finishFill s a1 a2 a3) := by
  unfold finishFill
  repeat' first
    | with_reducible assumption | with_reducible refine wakeReads_keeps ?_ | with_reducible refine setSagLine_keeps ?_ | with_reducible refine Keeps.ite ?_ ?_ | with_reducible refine Keeps.foldl _ _ ?_ _ ?_ | fail_if_no_progress ((with_reducible refine Keeps.mk' ?_ rfl rfl rfl ?_ ?_ ?_ ?_ ?_ ?_ ?_ ?_ ?_ ?_ ?_ ?_ ?_ ?_ ?_ ?_ ?_ ?_ ?_ ?_ ?_) <;> first | exact Or.inl (hm.bit (by decide)) | exact Or.inr rfl | skip)
    | split
    | (extract_lets +onlyGivenNames x; first | (refine Keeps.cut s0 x ?_ fun h => ?_; rotate_left; clear_value x) | skip)
    | (unfold x; fail_if_success done)
    | intro h

theorem fillTransient_keeps {k s0 s a1 a2 a3} (h : Keeps k s0 s)
    (hm : Within 0x100018#21 k := by first | assumption | exact Within.trans (by assumption) (by decide)) :
    Keeps k s0 (fillTransient s a1 a2 a3) := by
  unfold fillTransient
  repeat' first
    | with_reducible assumption | with_reducible refine raise_keeps ?_ | with_reducible refine wakeReads_keeps ?_ | with_reducible refine setSagLine_keeps ?_ | with_reducible refine Keeps.ite ?_ ?_ | with_reducible refine Keeps.foldl _ _ ?_ _ ?_ | fail_if_no_progress ((with_reducible refine Keeps.mk' ?_ rfl rfl rfl ?_ ?_ ?_ ?_ ?_ ?_ ?_ ?_ ?_ ?_ ?_ ?_ ?_ ?_ ?_ ?_ ?_ ?_ ?_ ?_ ?_) <;> first | exact Or.inl (hm.bit (by decide)) | exact Or.inr rfl | skip)
    | split
    | (extract_lets +onlyGivenNames x; first | (refine Keeps.cut s0 x ?_ fun h => ?_; rotate_left; clear_value x) | skip)
    | (unfold x; fail_if_success done)
    | intro h

theorem fillFromEntry_keeps {k s0 s a1 a2} (h : Keeps k s0 s)
    (hm : Within 0x18#21 k := by first | assumption | exact Within.trans (by assumption) (by decide)) :
    Keeps k s0 (fillFromEntry s a1 a2) := by
  unfold fillFromEntry
  repeat' first
    | with_reducible assumption | with_reducible refine finishFill_keeps ?_ | with_reducible refine Keeps.ite ?_ ?_ | with_reducible refine Keeps.foldl _ _ ?_ _ ?_ | fail_if_no_progress ((with_reducible refine Keeps.mk' ?_ rfl rfl rfl ?_ ?_ ?_ ?_ ?_ ?_ ?_ ?_ ?_ ?_ ?_ ?_ ?_ ?_ ?_ ?_ ?_ ?_ ?_ ?_ ?_) <;> first | exact Or.inl (hm.bit (by decide)) | exact Or.inr rfl | skip)
    | split
    | (extract_lets +onlyGivenNames x; first | (refine Keeps.cut s0 x ?_ fun h => ?_; rotate_left; clear_value x) | skip)
    | (unfold x; fail_if_success done)
    | intro h

theorem senseFill_keeps {k s0 s a1 a2} (h : Keeps k s0 s)
    (hm : Within 0x400#21 k := by first | assumption | exact Within.trans (by assumption) (by decide)) :
    Keeps k s0 (senseFill s a1 a2) := by
  unfold senseFill
  repeat' first
    | with_reducible assumption | with_reducible refine senseLine_keeps ?_ | with_reducible refine senseMap_keeps ?_ | with_reducible refine Keeps.ite ?_ ?_ | with_reducible refine Keeps.foldl _ _ ?_ _ ?_ | fail_if_no_progress ((with_reducible refine Keeps.mk' ?_ rfl rfl rfl ?_ ?_ ?_ ?_ ?_ ?_ ?_ ?_ ?_ ?_ ?_ ?_ ?_ ?_ ?_ ?_ ?_ ?_ ?_ ?_ ?_) <;> first | exact Or.inl (hm.bit (by decide)) | exact Or.inr rfl | skip)
    | split
    | (extract_lets +onlyGivenNames x; first | (refine Keeps.cut s0 x ?_ fun h => ?_; rotate_left; clear_value x) | skip)
    | (unfold x; fail_if_success done)
    | intro h

theorem saggarWrite_keeps {k s0 s a1 a2 a3 a4 a5 a6} (h : Keeps k s0 s)
    (hm : Within 0x498#21 k := by first | assumption | exact Within.trans (by assumption) (by decide)) :
    Keeps k s0 (saggarWrite s a1 a2 a3 a4 a5 a6) := by
  unfold saggarWrite
  repeat' first
    | with_reducible assumption | with_reducible refine setSagLine_keeps ?_ | with_reducible refine poisonEnter_keeps ?_ | with_reducible refine senseFill_keeps ?_ | with_reducible refine fillFromEntry_keeps ?_ | with_reducible refine Keeps.ite ?_ ?_ | with_reducible refine Keeps.foldl _ _ ?_ _ ?_ | fail_if_no_progress ((with_reducible refine Keeps.mk' ?_ rfl rfl rfl ?_ ?_ ?_ ?_ ?_ ?_ ?_ ?_ ?_ ?_ ?_ ?_ ?_ ?_ ?_ ?_ ?_ ?_ ?_ ?_ ?_) <;> first | exact Or.inl (hm.bit (by decide)) | exact Or.inr rfl | skip)
    | split
    | (extract_lets +onlyGivenNames x; first | (refine Keeps.cut s0 x ?_ fun h => ?_; rotate_left; clear_value x) | skip)
    | (unfold x; fail_if_success done)
    | intro h

theorem exhaust_keeps {k s0 s a1} (h : Keeps k s0 s)
    (hm : Within 0x100100#21 k := by first | assumption | exact Within.trans (by assumption) (by decide)) :
    Keeps k s0 (exhaust s a1) := by
  unfold exhaust
  repeat' first
    | with_reducible assumption | with_reducible refine raise_keeps ?_ | with_reducible refine Keeps.ite ?_ ?_ | with_reducible refine Keeps.foldl _ _ ?_ _ ?_ | fail_if_no_progress ((with_reducible refine Keeps.mk' ?_ rfl rfl rfl ?_ ?_ ?_ ?_ ?_ ?_ ?_ ?_ ?_ ?_ ?_ ?_ ?_ ?_ ?_ ?_ ?_ ?_ ?_ ?_ ?_) <;> first | exact Or.inl (hm.bit (by decide)) | exact Or.inr rfl | skip)
    | split
    | (extract_lets +onlyGivenNames x; first | (refine Keeps.cut s0 x ?_ fun h => ?_; rotate_left; clear_value x) | skip)
    | (unfold x; fail_if_success done)
    | intro h

theorem checkSpareStripes_keeps {k s0 s} (h : Keeps k s0 s)
    (hm : Within 0x100100#21 k := by first | assumption | exact Within.trans (by assumption) (by decide)) :
    Keeps k s0 (checkSpareStripes s) := by
  unfold checkSpareStripes
  repeat' first
    | with_reducible assumption | with_reducible refine exhaust_keeps ?_ | with_reducible refine Keeps.ite ?_ ?_ | with_reducible refine Keeps.foldl _ _ ?_ _ ?_ | fail_if_no_progress ((with_reducible refine Keeps.mk' ?_ rfl rfl rfl ?_ ?_ ?_ ?_ ?_ ?_ ?_ ?_ ?_ ?_ ?_ ?_ ?_ ?_ ?_ ?_ ?_ ?_ ?_ ?_ ?_) <;> first | exact Or.inl (hm.bit (by decide)) | exact Or.inr rfl | skip)
    | split
    | (extract_lets +onlyGivenNames x; first | (refine Keeps.cut s0 x ?_ fun h => ?_; rotate_left; clear_value x) | skip)
    | (unfold x; fail_if_success done)
    | intro h

theorem retireStripe_keeps {k s0 s a1} (h : Keeps k s0 s)
    (hm : Within 0x100120#21 k := by first | assumption | exact Within.trans (by assumption) (by decide)) :
    Keeps k s0 (retireStripe s a1) := by
  unfold retireStripe
  repeat' first
    | with_reducible assumption | with_reducible refine checkSpareStripes_keeps ?_ | with_reducible refine updStripe_keeps ?_ | with_reducible refine Keeps.ite ?_ ?_ | with_reducible refine Keeps.foldl _ _ ?_ _ ?_ | fail_if_no_progress ((with_reducible refine Keeps.mk' ?_ rfl rfl rfl ?_ ?_ ?_ ?_ ?_ ?_ ?_ ?_ ?_ ?_ ?_ ?_ ?_ ?_ ?_ ?_ ?_ ?_ ?_ ?_ ?_) <;> first | exact Or.inl (hm.bit (by decide)) | exact Or.inr rfl | skip)
    | split
    | (extract_lets +onlyGivenNames x; first | (refine Keeps.cut s0 x ?_ fun h => ?_; rotate_left; clear_value x) | skip)
    | (unfold x; fail_if_success done)
    | intro h

theorem recordStripe_keeps {k s0 s a1} (h : Keeps k s0 s)
    (hm : Within 0x20#21 k := by first | assumption | exact Within.trans (by assumption) (by decide)) :
    Keeps k s0 (recordStripe s a1) := by
  unfold recordStripe
  repeat' first
    | with_reducible assumption | with_reducible refine Keeps.ite ?_ ?_ | with_reducible refine Keeps.foldl _ _ ?_ _ ?_ | fail_if_no_progress ((with_reducible refine Keeps.mk' ?_ rfl rfl rfl ?_ ?_ ?_ ?_ ?_ ?_ ?_ ?_ ?_ ?_ ?_ ?_ ?_ ?_ ?_ ?_ ?_ ?_ ?_ ?_ ?_) <;> first | exact Or.inl (hm.bit (by decide)) | exact Or.inr rfl | skip)
    | split
    | (extract_lets +onlyGivenNames x; first | (refine Keeps.cut s0 x ?_ fun h => ?_; rotate_left; clear_value x) | skip)
    | (unfold x; fail_if_success done)
    | intro h

theorem openAllocation_keeps {k s0 s a1} (h : Keeps k s0 s)
    (hm : Within 0x20#21 k := by first | assumption | exact Within.trans (by assumption) (by decide)) :
    Keeps k s0 (openAllocation s a1) := by
  unfold openAllocation
  repeat' first
    | with_reducible assumption | with_reducible refine updStripe_keeps ?_ | with_reducible refine updRank_keeps ?_ | with_reducible refine recordStripe_keeps ?_ | with_reducible refine Keeps.ite ?_ ?_ | with_reducible refine Keeps.foldl _ _ ?_ _ ?_ | fail_if_no_progress ((with_reducible refine Keeps.mk' ?_ rfl rfl rfl ?_ ?_ ?_ ?_ ?_ ?_ ?_ ?_ ?_ ?_ ?_ ?_ ?_ ?_ ?_ ?_ ?_ ?_ ?_ ?_ ?_) <;> first | exact Or.inl (hm.bit (by decide)) | exact Or.inr rfl | skip)
    | split
    | (extract_lets +onlyGivenNames x; first | (refine Keeps.cut s0 x ?_ fun h => ?_; rotate_left; clear_value x) | skip)
    | (unfold x; fail_if_success done)
    | intro h

theorem closeAllocation_keeps {k s0 s a1} (h : Keeps k s0 s)
    (hm : Within 0x20#21 k := by first | assumption | exact Within.trans (by assumption) (by decide)) :
    Keeps k s0 (closeAllocation s a1) := by
  unfold closeAllocation
  repeat' first
    | with_reducible assumption | with_reducible refine updRank_keeps ?_ | with_reducible refine updStripe_keeps ?_ | with_reducible refine Keeps.ite ?_ ?_ | with_reducible refine Keeps.foldl _ _ ?_ _ ?_ | fail_if_no_progress ((with_reducible refine Keeps.mk' ?_ rfl rfl rfl ?_ ?_ ?_ ?_ ?_ ?_ ?_ ?_ ?_ ?_ ?_ ?_ ?_ ?_ ?_ ?_ ?_ ?_ ?_ ?_ ?_) <;> first | exact Or.inl (hm.bit (by decide)) | exact Or.inr rfl | skip)
    | split
    | (extract_lets +onlyGivenNames x; first | (refine Keeps.cut s0 x ?_ fun h => ?_; rotate_left; clear_value x) | skip)
    | (unfold x; fail_if_success done)
    | intro h

theorem readyAllocation_keeps {k s0 s a1} (h : Keeps k s0 s)
    (hm : Within 0x20#21 k := by first | assumption | exact Within.trans (by assumption) (by decide)) :
    Keeps k s0 (readyAllocation s a1) := by
  unfold readyAllocation
  repeat' first
    | with_reducible assumption | with_reducible refine closeAllocation_keeps ?_ | with_reducible refine openAllocation_keeps ?_ | with_reducible refine Keeps.ite ?_ ?_ | with_reducible refine Keeps.foldl _ _ ?_ _ ?_ | fail_if_no_progress ((with_reducible refine Keeps.mk' ?_ rfl rfl rfl ?_ ?_ ?_ ?_ ?_ ?_ ?_ ?_ ?_ ?_ ?_ ?_ ?_ ?_ ?_ ?_ ?_ ?_ ?_ ?_ ?_) <;> first | exact Or.inl (hm.bit (by decide)) | exact Or.inr rfl | skip)
    | split
    | (extract_lets +onlyGivenNames x; first | (refine Keeps.cut s0 x ?_ fun h => ?_; rotate_left; clear_value x) | skip)
    | (unfold x; fail_if_success done)
    | intro h

theorem takeSlot_keeps {k s0 s a1} (h : Keeps k s0 s)
    (hm : Within 0x20#21 k := by first | assumption | exact Within.trans (by assumption) (by decide)) :
    KeepsOR k s0 (takeSlot s a1) := by
  unfold takeSlot
  repeat' first
    | with_reducible assumption | with_reducible refine closeAllocation_keeps ?_ | with_reducible refine updStripe_keeps ?_ | with_reducible refine Keeps.ite ?_ ?_ | with_reducible refine Keeps.foldl _ _ ?_ _ ?_ | fail_if_no_progress ((with_reducible refine Keeps.mk' ?_ rfl rfl rfl ?_ ?_ ?_ ?_ ?_ ?_ ?_ ?_ ?_ ?_ ?_ ?_ ?_ ?_ ?_ ?_ ?_ ?_ ?_ ?_ ?_) <;> first | exact Or.inl (hm.bit (by decide)) | exact Or.inr rfl | skip) | with_reducible exact KeepsOR.none _ _ | with_reducible refine KeepsOR.some ?_
    | split
    | (extract_lets +onlyGivenNames x; first | (refine Keeps.cut s0 x ?_ fun h => ?_; rotate_left; clear_value x) | skip)
    | (unfold x; fail_if_success done)
    | intro h

theorem allocBisque_keeps {k s0 s a1 a2} (h : Keeps k s0 s)
    (hm : Within 0x20#21 k := by first | assumption | exact Within.trans (by assumption) (by decide)) :
    KeepsOR k s0 (allocBisque s a1 a2) := by
  unfold allocBisque
  repeat' first
    | with_reducible assumption | with_reducible refine readyAllocation_keeps ?_ | with_reducible refine takeSlot_keeps ?_ | with_reducible refine Keeps.ite ?_ ?_ | with_reducible refine Keeps.foldl _ _ ?_ _ ?_ | fail_if_no_progress ((with_reducible refine Keeps.mk' ?_ rfl rfl rfl ?_ ?_ ?_ ?_ ?_ ?_ ?_ ?_ ?_ ?_ ?_ ?_ ?_ ?_ ?_ ?_ ?_ ?_ ?_ ?_ ?_) <;> first | exact Or.inl (hm.bit (by decide)) | exact Or.inr rfl | skip) | with_reducible exact KeepsOR.none _ _ | with_reducible refine KeepsOR.some ?_
    | split
    | (extract_lets +onlyGivenNames x; first | (refine Keeps.cut s0 x ?_ fun h => ?_; rotate_left; clear_value x) | skip)
    | (unfold x; fail_if_success done)
    | intro h
    | with_reducible refine KeepsR.elim ?_ (by assumption) | with_reducible refine KeepsL.elim ?_ (by assumption) | with_reducible refine KeepsOS.elim ?_ (by assumption) | with_reducible refine KeepsOR.elim ?_ (by assumption) | with_reducible refine KeepsOR3.elim ?_ (by assumption) | with_reducible refine KeepsL.proj ?_ | with_reducible refine KeepsR.proj ?_

/-! HostMem. -/

theorem sendResp_keeps {k s0 s a1} (h : Keeps k s0 s)
    (hm : Within 0x10#21 k := by first | assumption | exact Within.trans (by assumption) (by decide)) :
    Keeps k s0 (sendResp s a1) := by
  unfold sendResp
  repeat' first
    | with_reducible assumption | with_reducible refine Keeps.ite ?_ ?_ | with_reducible refine Keeps.foldl _ _ ?_ _ ?_ | fail_if_no_progress ((with_reducible refine Keeps.mk' ?_ rfl rfl rfl ?_ ?_ ?_ ?_ ?_ ?_ ?_ ?_ ?_ ?_ ?_ ?_ ?_ ?_ ?_ ?_ ?_ ?_ ?_ ?_ ?_) <;> first | exact Or.inl (hm.bit (by decide)) | exact Or.inr rfl | skip)
    | split
    | (extract_lets +onlyGivenNames x; first | (refine Keeps.cut s0 x ?_ fun h => ?_; rotate_left; clear_value x) | skip)
    | (unfold x; fail_if_success done)
    | intro h

theorem returnCredits_keeps {k s0 s} (h : Keeps k s0 s)
    (hm : Within 0x18#21 k := by first | assumption | exact Within.trans (by assumption) (by decide)) :
    Keeps k s0 (returnCredits s) := by
  unfold returnCredits
  repeat' first
    | with_reducible assumption | with_reducible refine Keeps.ite ?_ ?_ | with_reducible refine Keeps.foldl _ _ ?_ _ ?_ | fail_if_no_progress ((with_reducible refine Keeps.mk' ?_ rfl rfl rfl ?_ ?_ ?_ ?_ ?_ ?_ ?_ ?_ ?_ ?_ ?_ ?_ ?_ ?_ ?_ ?_ ?_ ?_ ?_ ?_ ?_) <;> first | exact Or.inl (hm.bit (by decide)) | exact Or.inr rfl | skip)
    | split
    | (extract_lets +onlyGivenNames x; first | (refine Keeps.cut s0 x ?_ fun h => ?_; rotate_left; clear_value x) | skip)
    | (unfold x; fail_if_success done)
    | intro h

theorem grantCredits_keeps {k s0 s} (h : Keeps k s0 s)
    (hm : Within 0x10#21 k := by first | assumption | exact Within.trans (by assumption) (by decide)) :
    Keeps k s0 (grantCredits s) := by
  unfold grantCredits
  repeat' first
    | with_reducible assumption | with_reducible refine Keeps.ite ?_ ?_ | with_reducible refine Keeps.foldl _ _ ?_ _ ?_ | fail_if_no_progress ((with_reducible refine Keeps.mk' ?_ rfl rfl rfl ?_ ?_ ?_ ?_ ?_ ?_ ?_ ?_ ?_ ?_ ?_ ?_ ?_ ?_ ?_ ?_ ?_ ?_ ?_ ?_ ?_) <;> first | exact Or.inl (hm.bit (by decide)) | exact Or.inr rfl | skip)
    | split
    | (extract_lets +onlyGivenNames x; first | (refine Keeps.cut s0 x ?_ fun h => ?_; rotate_left; clear_value x) | skip)
    | (unfold x; fail_if_success done)
    | intro h

theorem sampleTake_keeps {k s0 s a1} (h : Keeps k s0 s)
    (hm : Within 0x10#21 k := by first | assumption | exact Within.trans (by assumption) (by decide)) :
    KeepsR k s0 (sampleTake s a1) := by
  unfold sampleTake
  repeat' first
    | with_reducible assumption | with_reducible refine Keeps.ite ?_ ?_ | with_reducible refine Keeps.foldl _ _ ?_ _ ?_ | fail_if_no_progress ((with_reducible refine Keeps.mk' ?_ rfl rfl rfl ?_ ?_ ?_ ?_ ?_ ?_ ?_ ?_ ?_ ?_ ?_ ?_ ?_ ?_ ?_ ?_ ?_ ?_ ?_ ?_ ?_) <;> first | exact Or.inl (hm.bit (by decide)) | exact Or.inr rfl | skip) | with_reducible refine KeepsR.mk ?_
    | split
    | (extract_lets +onlyGivenNames x; first | (refine Keeps.cut s0 x ?_ fun h => ?_; rotate_left; clear_value x) | skip)
    | (unfold x; fail_if_success done)
    | intro h

theorem samplePut_keeps {k s0 s a1 a2 a3 a4 a5 a6 a7 a8 a9} (h : Keeps k s0 s)
    (hm : Within 0x100000#21 k := by first | assumption | exact Within.trans (by assumption) (by decide)) :
    Keeps k s0 (samplePut s a1 a2 a3 a4 a5 a6 a7 a8 a9) := by
  unfold samplePut
  split
  · exact h
  · exact capPut_keeps h

theorem lookupEntry_keeps {k s0 s a1 a2 a3 a4} (h : Keeps k s0 s)
    (hm : Within 0x80004#21 k := by first | assumption | exact Within.trans (by assumption) (by decide)) :
    KeepsR k s0 (lookupEntry s a1 a2 a3 a4) := by
  unfold lookupEntry
  repeat' first
    | with_reducible assumption | with_reducible refine touchSeg_keeps ?_ | with_reducible refine draw_keeps ?_ | with_reducible refine Keeps.ite ?_ ?_ | with_reducible refine Keeps.foldl _ _ ?_ _ ?_ | fail_if_no_progress ((with_reducible refine Keeps.mk' ?_ rfl rfl rfl ?_ ?_ ?_ ?_ ?_ ?_ ?_ ?_ ?_ ?_ ?_ ?_ ?_ ?_ ?_ ?_ ?_ ?_ ?_ ?_ ?_) <;> first | exact Or.inl (hm.bit (by decide)) | exact Or.inr rfl | skip) | with_reducible refine KeepsR.mk ?_
    | split
    | (extract_lets +onlyGivenNames x; first | (refine Keeps.cut s0 x ?_ fun h => ?_; rotate_left; clear_value x) | skip)
    | (unfold x; fail_if_success done)
    | intro h
    | with_reducible refine KeepsR.elim ?_ (by assumption) | with_reducible refine KeepsL.elim ?_ (by assumption) | with_reducible refine KeepsOS.elim ?_ (by assumption) | with_reducible refine KeepsOR.elim ?_ (by assumption) | with_reducible refine KeepsOR3.elim ?_ (by assumption) | with_reducible refine KeepsL.proj ?_ | with_reducible refine KeepsR.proj ?_

theorem lookup_keeps {k s0 s a1 a2} (h : Keeps k s0 s)
    (hm : Within 0x80004#21 k := by first | assumption | exact Within.trans (by assumption) (by decide)) :
    KeepsR k s0 (lookup s a1 a2) := by
  unfold lookup
  repeat' first
    | with_reducible assumption | with_reducible refine lookupEntry_keeps ?_ | with_reducible refine Keeps.ite ?_ ?_ | with_reducible refine Keeps.foldl _ _ ?_ _ ?_ | fail_if_no_progress ((with_reducible refine Keeps.mk' ?_ rfl rfl rfl ?_ ?_ ?_ ?_ ?_ ?_ ?_ ?_ ?_ ?_ ?_ ?_ ?_ ?_ ?_ ?_ ?_ ?_ ?_ ?_ ?_) <;> first | exact Or.inl (hm.bit (by decide)) | exact Or.inr rfl | skip) | with_reducible refine KeepsR.mk ?_
    | split
    | (extract_lets +onlyGivenNames x; first | (refine Keeps.cut s0 x ?_ fun h => ?_; rotate_left; clear_value x) | skip)
    | (unfold x; fail_if_success done)
    | intro h
    | with_reducible refine KeepsR.elim ?_ (by assumption) | with_reducible refine KeepsL.elim ?_ (by assumption) | with_reducible refine KeepsOS.elim ?_ (by assumption) | with_reducible refine KeepsOR.elim ?_ (by assumption) | with_reducible refine KeepsOR3.elim ?_ (by assumption) | with_reducible refine KeepsL.proj ?_ | with_reducible refine KeepsR.proj ?_

theorem sweepAhead_keeps {k s0 s a1} (h : Keeps k s0 s)
    (hm : Within 0x40#21 k := by first | assumption | exact Within.trans (by assumption) (by decide)) :
    Keeps k s0 (sweepAhead s a1) := by
  unfold sweepAhead
  repeat' first
    | with_reducible assumption | with_reducible refine Keeps.ite ?_ ?_ | with_reducible refine Keeps.foldl _ _ ?_ _ ?_ | fail_if_no_progress ((with_reducible refine Keeps.mk' ?_ rfl rfl rfl ?_ ?_ ?_ ?_ ?_ ?_ ?_ ?_ ?_ ?_ ?_ ?_ ?_ ?_ ?_ ?_ ?_ ?_ ?_ ?_ ?_) <;> first | exact Or.inl (hm.bit (by decide)) | exact Or.inr rfl | skip)
    | split
    | (extract_lets +onlyGivenNames x; first | (refine Keeps.cut s0 x ?_ fun h => ?_; rotate_left; clear_value x) | skip)
    | (unfold x; fail_if_success done)
    | intro h

theorem commandRead_keeps {k s0 s a1 a2} (h : Keeps k s0 s)
    (hm : Within 0x440#21 k := by first | assumption | exact Within.trans (by assumption) (by decide)) :
    Keeps k s0 (commandRead s a1 a2) := by
  unfold commandRead
  repeat' first
    | with_reducible assumption | with_reducible refine senseMap_keeps ?_ | with_reducible refine senseStamp_keeps ?_ | with_reducible refine senseLine_keeps ?_ | with_reducible refine senseStripe_keeps ?_ | with_reducible refine sweepAhead_keeps ?_ | with_reducible refine Keeps.ite ?_ ?_ | with_reducible refine Keeps.foldl _ _ ?_ _ ?_ | fail_if_no_progress ((with_reducible refine Keeps.mk' ?_ rfl rfl rfl ?_ ?_ ?_ ?_ ?_ ?_ ?_ ?_ ?_ ?_ ?_ ?_ ?_ ?_ ?_ ?_ ?_ ?_ ?_ ?_ ?_) <;> first | exact Or.inl (hm.bit (by decide)) | exact Or.inr rfl | skip)
    | split
    | (extract_lets +onlyGivenNames x; first | (refine Keeps.cut s0 x ?_ fun h => ?_; rotate_left; clear_value x) | skip)
    | (unfold x; fail_if_success done)
    | intro h

theorem countLookup_keeps {k s0 s a1} (h : Keeps k s0 s)
    (hm : Within 0x8080#21 k := by first | assumption | exact Within.trans (by assumption) (by decide)) :
    Keeps k s0 (countLookup s a1) := by
  unfold countLookup
  repeat' first
    | with_reducible assumption | with_reducible refine count_keeps ?_ | with_reducible refine updEcc_keeps ?_ | with_reducible refine Keeps.ite ?_ ?_ | with_reducible refine Keeps.foldl _ _ ?_ _ ?_ | fail_if_no_progress ((with_reducible refine Keeps.mk' ?_ rfl rfl rfl ?_ ?_ ?_ ?_ ?_ ?_ ?_ ?_ ?_ ?_ ?_ ?_ ?_ ?_ ?_ ?_ ?_ ?_ ?_ ?_ ?_) <;> first | exact Or.inl (hm.bit (by decide)) | exact Or.inr rfl | skip)
    | split
    | (extract_lets +onlyGivenNames x; first | (refine Keeps.cut s0 x ?_ fun h => ?_; rotate_left; clear_value x) | skip)
    | (unfold x; fail_if_success done)
    | intro h

theorem readCredit_keeps {k s0 s a1 a2} (h : Keeps k s0 s)
    (hm : Within 0x10#21 k := by first | assumption | exact Within.trans (by assumption) (by decide)) :
    Keeps k s0 (readCredit s a1 a2) := by
  unfold readCredit
  repeat' first
    | with_reducible assumption | with_reducible refine Keeps.ite ?_ ?_ | with_reducible refine Keeps.foldl _ _ ?_ _ ?_ | fail_if_no_progress ((with_reducible refine Keeps.mk' ?_ rfl rfl rfl ?_ ?_ ?_ ?_ ?_ ?_ ?_ ?_ ?_ ?_ ?_ ?_ ?_ ?_ ?_ ?_ ?_ ?_ ?_ ?_ ?_) <;> first | exact Or.inl (hm.bit (by decide)) | exact Or.inr rfl | skip)
    | split
    | (extract_lets +onlyGivenNames x; first | (refine Keeps.cut s0 x ?_ fun h => ?_; rotate_left; clear_value x) | skip)
    | (unfold x; fail_if_success done)
    | intro h

theorem admitRead_keeps {k s0 s a1} (h : Keeps k s0 s)
    (hm : Within 0x1884d4#21 k := by first | assumption | exact Within.trans (by assumption) (by decide)) :
    KeepsL k s0 (admitRead s a1) := by
  unfold admitRead
  repeat' first
    | with_reducible assumption | with_reducible refine count_keeps ?_ | with_reducible refine sampleTake_keeps ?_ | with_reducible refine readCredit_keeps ?_ | with_reducible refine raiseAddr_keeps ?_ | with_reducible refine lookup_keeps ?_ | with_reducible refine countLookup_keeps ?_ | with_reducible refine commandRead_keeps ?_ | with_reducible refine Keeps.ite ?_ ?_ | with_reducible refine Keeps.foldl _ _ ?_ _ ?_ | fail_if_no_progress ((with_reducible refine Keeps.mk' ?_ rfl rfl rfl ?_ ?_ ?_ ?_ ?_ ?_ ?_ ?_ ?_ ?_ ?_ ?_ ?_ ?_ ?_ ?_ ?_ ?_ ?_ ?_ ?_) <;> first | exact Or.inl (hm.bit (by decide)) | exact Or.inr rfl | skip) | with_reducible refine KeepsL.mk ?_
    | split
    | (extract_lets +onlyGivenNames x; first | (refine Keeps.cut s0 x ?_ fun h => ?_; rotate_left; clear_value x) | skip)
    | (unfold x; fail_if_success done)
    | intro h
    | with_reducible refine KeepsR.elim ?_ (by assumption) | with_reducible refine KeepsL.elim ?_ (by assumption) | with_reducible refine KeepsOS.elim ?_ (by assumption) | with_reducible refine KeepsOR.elim ?_ (by assumption) | with_reducible refine KeepsOR3.elim ?_ (by assumption) | with_reducible refine KeepsL.proj ?_ | with_reducible refine KeepsR.proj ?_

theorem writeCredit_keeps {k s0 s a1 a2} (h : Keeps k s0 s)
    (hm : Within 0x10#21 k := by first | assumption | exact Within.trans (by assumption) (by decide)) :
    Keeps k s0 (writeCredit s a1 a2) := by
  unfold writeCredit
  repeat' first
    | with_reducible assumption | with_reducible refine Keeps.ite ?_ ?_ | with_reducible refine Keeps.foldl _ _ ?_ _ ?_ | fail_if_no_progress ((with_reducible refine Keeps.mk' ?_ rfl rfl rfl ?_ ?_ ?_ ?_ ?_ ?_ ?_ ?_ ?_ ?_ ?_ ?_ ?_ ?_ ?_ ?_ ?_ ?_ ?_ ?_ ?_) <;> first | exact Or.inl (hm.bit (by decide)) | exact Or.inr rfl | skip)
    | split
    | (extract_lets +onlyGivenNames x; first | (refine Keeps.cut s0 x ?_ fun h => ?_; rotate_left; clear_value x) | skip)
    | (unfold x; fail_if_success done)
    | intro h

theorem cancelSeal_keeps {k s0 s} (h : Keeps k s0 s)
    (hm : Within 0x2#21 k := by first | assumption | exact Within.trans (by assumption) (by decide)) :
    Keeps k s0 (cancelSeal s) := by
  unfold cancelSeal
  repeat' first
    | with_reducible assumption | with_reducible refine Keeps.ite ?_ ?_ | with_reducible refine Keeps.foldl _ _ ?_ _ ?_ | fail_if_no_progress ((with_reducible refine Keeps.mk' ?_ rfl rfl rfl ?_ ?_ ?_ ?_ ?_ ?_ ?_ ?_ ?_ ?_ ?_ ?_ ?_ ?_ ?_ ?_ ?_ ?_ ?_ ?_ ?_) <;> first | exact Or.inl (hm.bit (by decide)) | exact Or.inr rfl | skip)
    | split
    | (extract_lets +onlyGivenNames x; first | (refine Keeps.cut s0 x ?_ fun h => ?_; rotate_left; clear_value x) | skip)
    | (unfold x; fail_if_success done)
    | intro h

theorem admitWrite_keeps {k s0 s a1 a2 a3 a4} (h : Keeps k s0 s)
    (hm : Within 0x18849e#21 k := by first | assumption | exact Within.trans (by assumption) (by decide)) :
    Keeps k s0 (admitWrite s a1 a2 a3 a4) := by
  unfold admitWrite
  repeat' first
    | with_reducible assumption | with_reducible refine portBytes_keeps ?_ | with_reducible refine count_keeps ?_ | with_reducible refine sampleTake_keeps ?_ | with_reducible refine draw_keeps ?_ | with_reducible refine sendResp_keeps ?_ | with_reducible refine samplePut_keeps ?_ | with_reducible refine raiseAddr_keeps ?_ | with_reducible refine cancelSeal_keeps ?_ | with_reducible refine saggarWrite_keeps ?_ | with_reducible refine writeCredit_keeps ?_ | with_reducible refine Keeps.ite ?_ ?_ | with_reducible refine Keeps.foldl _ _ ?_ _ ?_ | fail_if_no_progress ((with_reducible refine Keeps.mk' ?_ rfl rfl rfl ?_ ?_ ?_ ?_ ?_ ?_ ?_ ?_ ?_ ?_ ?_ ?_ ?_ ?_ ?_ ?_ ?_ ?_ ?_ ?_ ?_) <;> first | exact Or.inl (hm.bit (by decide)) | exact Or.inr rfl | skip)
    | split
    | (extract_lets +onlyGivenNames x; first | (refine Keeps.cut s0 x ?_ fun h => ?_; rotate_left; clear_value x) | skip)
    | (unfold x; fail_if_success done)
    | intro h
    | with_reducible refine KeepsR.elim ?_ (by assumption) | with_reducible refine KeepsL.elim ?_ (by assumption) | with_reducible refine KeepsOS.elim ?_ (by assumption) | with_reducible refine KeepsOR.elim ?_ (by assumption) | with_reducible refine KeepsOR3.elim ?_ (by assumption) | with_reducible refine KeepsL.proj ?_ | with_reducible refine KeepsR.proj ?_

theorem admitAll_keeps {k s0 s} (h : Keeps k s0 s)
    (hm : Within 0x1884de#21 k := by first | assumption | exact Within.trans (by assumption) (by decide)) : KeepsL k s0 (admitAll s) := by
  unfold admitAll
  extract_lets q _ s1
  have h1 : Keeps k s0 s1 := h.same' rfl rfl rfl rfl
  have key : ∀ (l : List HostReq) (y : State × Nat × Nat), Keeps k s0 y.1 →
      Keeps k s0 (l.foldl (fun (a : State × Nat × Nat) r => match r.kind with
        | .read => let (s, w) := admitRead a.1 r; (s, a.2.1 + 1, a.2.2 + if w then 1 else 0)
        | .write be d p => (admitWrite a.1 r be d p, a.2)) y).1 := by
    intro l
    induction l with
    | nil => exact fun _ hy => hy
    | cons r l ih =>
      intro y hy
      refine ih _ ?_
      dsimp only
      split
      · exact admitRead_keeps hy
      · exact admitWrite_keeps hy
  exact key q (s1, 0, 0) h1

theorem rewriteReplica_keeps {k s0 s a1 a2} (h : Keeps k s0 s)
    (hm : Within 0x4#21 k := by first | assumption | exact Within.trans (by assumption) (by decide)) :
    Keeps k s0 (rewriteReplica s a1 a2) := by
  unfold rewriteReplica
  repeat' first
    | with_reducible assumption | with_reducible refine Keeps.ite ?_ ?_ | with_reducible refine Keeps.foldl _ _ ?_ _ ?_ | fail_if_no_progress ((with_reducible refine Keeps.mk' ?_ rfl rfl rfl ?_ ?_ ?_ ?_ ?_ ?_ ?_ ?_ ?_ ?_ ?_ ?_ ?_ ?_ ?_ ?_ ?_ ?_ ?_ ?_ ?_) <;> first | exact Or.inl (hm.bit (by decide)) | exact Or.inr rfl | skip)
    | split
    | (extract_lets +onlyGivenNames x; first | (refine Keeps.cut s0 x ?_ fun h => ?_; rotate_left; clear_value x) | skip)
    | (unfold x; fail_if_success done)
    | intro h

theorem resumeRead_keeps {k s0 s a1 a2} (h : Keeps k s0 s)
    (hm : Within 0x884d4#21 k := by first | assumption | exact Within.trans (by assumption) (by decide)) :
    Keeps k s0 (resumeRead s a1 a2) := by
  unfold resumeRead
  repeat' first
    | with_reducible assumption | with_reducible refine lookupEntry_keeps ?_ | with_reducible refine countLookup_keeps ?_ | with_reducible refine commandRead_keeps ?_ | with_reducible refine Keeps.ite ?_ ?_ | with_reducible refine Keeps.foldl _ _ ?_ _ ?_ | fail_if_no_progress ((with_reducible refine Keeps.mk' ?_ rfl rfl rfl ?_ ?_ ?_ ?_ ?_ ?_ ?_ ?_ ?_ ?_ ?_ ?_ ?_ ?_ ?_ ?_ ?_ ?_ ?_ ?_ ?_) <;> first | exact Or.inl (hm.bit (by decide)) | exact Or.inr rfl | skip)
    | split
    | (extract_lets +onlyGivenNames x; first | (refine Keeps.cut s0 x ?_ fun h => ?_; rotate_left; clear_value x) | skip)
    | (unfold x; fail_if_success done)
    | intro h
    | with_reducible refine KeepsR.elim ?_ (by assumption) | with_reducible refine KeepsL.elim ?_ (by assumption) | with_reducible refine KeepsOS.elim ?_ (by assumption) | with_reducible refine KeepsOR.elim ?_ (by assumption) | with_reducible refine KeepsOR3.elim ?_ (by assumption) | with_reducible refine KeepsL.proj ?_ | with_reducible refine KeepsR.proj ?_

theorem resumeSeg_keeps {k s0 s a1 a2} (h : Keeps k s0 s)
    (hm : Within 0x884dc#21 k := by first | assumption | exact Within.trans (by assumption) (by decide)) : Keeps k s0 (resumeSeg s a1 a2) := by
  unfold resumeSeg
  extract_lets pages s1
  have h1 : Keeps k s0 s1 := Keeps.foldl _ _ (fun t p k => Keeps.foldl _ _ (fun u i m => senseFill_keeps (fillFromEntry_keeps m)) _ (rechargePage_keeps k)) _ h
  exact Keeps.foldl _ _ (fun t r k => resumeRead_keeps k) _ h1

theorem giveReplica_keeps {k s0 s a1 a2 a3} (h : Keeps k s0 s)
    (hm : Within 0x4#21 k := by first | assumption | exact Within.trans (by assumption) (by decide)) :
    Keeps k s0 (giveReplica s a1 a2 a3) := by
  unfold giveReplica
  repeat' first
    | with_reducible assumption | with_reducible refine Keeps.ite ?_ ?_ | with_reducible refine Keeps.foldl _ _ ?_ _ ?_ | fail_if_no_progress ((with_reducible refine Keeps.mk' ?_ rfl rfl rfl ?_ ?_ ?_ ?_ ?_ ?_ ?_ ?_ ?_ ?_ ?_ ?_ ?_ ?_ ?_ ?_ ?_ ?_ ?_ ?_ ?_) <;> first | exact Or.inl (hm.bit (by decide)) | exact Or.inr rfl | skip)
    | split
    | (extract_lets +onlyGivenNames x; first | (refine Keeps.cut s0 x ?_ fun h => ?_; rotate_left; clear_value x) | skip)
    | (unfold x; fail_if_success done)
    | intro h

theorem leafLost_keeps {k s0 s a1} (h : Keeps k s0 s)
    (hm : Within 0x100284#21 k := by first | assumption | exact Within.trans (by assumption) (by decide)) :
    KeepsL k s0 (leafLost s a1) := by
  unfold leafLost
  repeat' first
    | with_reducible assumption | with_reducible refine raiseCeiling_keeps ?_ | with_reducible refine setLeafStamp_keeps ?_ | with_reducible refine poisonEnter_keeps ?_ | with_reducible refine poisonLeavePage_keeps ?_ | with_reducible refine raiseAddr_keeps ?_ | with_reducible refine Keeps.ite ?_ ?_ | with_reducible refine Keeps.foldl _ _ ?_ _ ?_ | fail_if_no_progress ((with_reducible refine Keeps.mk' ?_ rfl rfl rfl ?_ ?_ ?_ ?_ ?_ ?_ ?_ ?_ ?_ ?_ ?_ ?_ ?_ ?_ ?_ ?_ ?_ ?_ ?_ ?_ ?_) <;> first | exact Or.inl (hm.bit (by decide)) | exact Or.inr rfl | skip) | with_reducible refine KeepsL.mk ?_
    | split
    | (extract_lets +onlyGivenNames x; first | (refine Keeps.cut s0 x ?_ fun h => ?_; rotate_left; clear_value x) | skip)
    | (unfold x; fail_if_success done)
    | intro h

theorem takeMapLine_keeps {k s0 s a1 a2 a3 a4 a5} (h : Keeps k s0 s)
    (hm : Within 0x108284#21 k := by first | assumption | exact Within.trans (by assumption) (by decide)) :
    KeepsL k s0 (takeMapLine s a1 a2 a3 a4 a5) := by
  unfold takeMapLine
  repeat' first
    | with_reducible assumption | with_reducible refine rewriteReplica_keeps ?_ | with_reducible refine bucketEvent_keeps ?_ | with_reducible refine leafLost_keeps ?_ | with_reducible refine giveReplica_keeps ?_ | with_reducible refine Keeps.ite ?_ ?_ | with_reducible refine Keeps.foldl _ _ ?_ _ ?_ | fail_if_no_progress ((with_reducible refine Keeps.mk' ?_ rfl rfl rfl ?_ ?_ ?_ ?_ ?_ ?_ ?_ ?_ ?_ ?_ ?_ ?_ ?_ ?_ ?_ ?_ ?_ ?_ ?_ ?_ ?_) <;> first | exact Or.inl (hm.bit (by decide)) | exact Or.inr rfl | skip) | with_reducible refine KeepsL.mk ?_
    | split
    | (extract_lets +onlyGivenNames x; first | (refine Keeps.cut s0 x ?_ fun h => ?_; rotate_left; clear_value x) | skip)
    | (unfold x; fail_if_success done)
    | intro h
    | with_reducible refine KeepsR.elim ?_ (by assumption) | with_reducible refine KeepsL.elim ?_ (by assumption) | with_reducible refine KeepsOS.elim ?_ (by assumption) | with_reducible refine KeepsOR.elim ?_ (by assumption) | with_reducible refine KeepsOR3.elim ?_ (by assumption) | with_reducible refine KeepsL.proj ?_ | with_reducible refine KeepsR.proj ?_

theorem dirtyLines_keeps {k s0 s a1 a2} (h : Keeps k s0 s)
    (hm : Within 0x4#21 k := by first | assumption | exact Within.trans (by assumption) (by decide)) :
    Keeps k s0 (dirtyLines s a1 a2) := by
  unfold dirtyLines
  repeat' first
    | with_reducible assumption | with_reducible refine setSeg_keeps ?_ | with_reducible refine Keeps.ite ?_ ?_ | with_reducible refine Keeps.foldl _ _ ?_ _ ?_ | fail_if_no_progress ((with_reducible refine Keeps.mk' ?_ rfl rfl rfl ?_ ?_ ?_ ?_ ?_ ?_ ?_ ?_ ?_ ?_ ?_ ?_ ?_ ?_ ?_ ?_ ?_ ?_ ?_ ?_ ?_) <;> first | exact Or.inl (hm.bit (by decide)) | exact Or.inr rfl | skip)
    | split
    | (extract_lets +onlyGivenNames x; first | (refine Keeps.cut s0 x ?_ fun h => ?_; rotate_left; clear_value x) | skip)
    | (unfold x; fail_if_success done)
    | intro h

theorem mapFill_keeps {k s0 s a1 a2 a3 a4} (h : Keeps k s0 s)
    (hm : Within 0x1886dc#21 k := by first | assumption | exact Within.trans (by assumption) (by decide)) : Keeps k s0 (mapFill s a1 a2 a3 a4) := by
  unfold mapFill
  split
  · exact h
  · extract_lets seen m0 s1 x
    have h1 : Keeps k s0 s1 := h.same' rfl rfl rfl rfl
    split
    · exact resumeSeg_keeps h1
    · have key : ∀ (l : List Nat) (y : State × List MapEntry × List Nat), Keeps k s0 y.1 →
          Keeps k s0 (l.foldl (fun (x : State × List MapEntry × List Nat) i =>
            let y := takeMapLine x.1 (4 * a1 + i) (seen i 0) (seen i 1) (seen i 2) (seen i 3)
            (y.1, x.2.1 ++ y.2.1, if y.2.2 then x.2.2 ++ [i] else x.2.2)) y).1 := by
        intro l
        induction l with
        | nil => exact fun _ hy => hy
        | cons i l ih => exact fun y hy => ih _ (takeMapLine_keeps hy)
      exact resumeSeg_keeps (dirtyLines_keeps (putSeg_keeps (key (List.range 4) (s1, [], []) h1)))

theorem startEscalation_keeps {k s0 s a1 a2} (h : Keeps k s0 s)
    (hm : Within 0x8280#21 k := by first | assumption | exact Within.trans (by assumption) (by decide)) :
    Keeps k s0 (startEscalation s a1 a2) := by
  unfold startEscalation
  repeat' first
    | with_reducible assumption | with_reducible refine count_keeps ?_ | with_reducible refine updEcc_keeps ?_ | with_reducible refine Keeps.ite ?_ ?_ | with_reducible refine Keeps.foldl _ _ ?_ _ ?_ | fail_if_no_progress ((with_reducible refine Keeps.mk' ?_ rfl rfl rfl ?_ ?_ ?_ ?_ ?_ ?_ ?_ ?_ ?_ ?_ ?_ ?_ ?_ ?_ ?_ ?_ ?_ ?_ ?_ ?_ ?_) <;> first | exact Or.inl (hm.bit (by decide)) | exact Or.inr rfl | skip)
    | split
    | (extract_lets +onlyGivenNames x; first | (refine Keeps.cut s0 x ?_ fun h => ?_; rotate_left; clear_value x) | skip)
    | (unfold x; fail_if_success done)
    | intro h

theorem endEscalation_keeps {k s0 s a1 a2 a3 a4 a5 a6} (h : Keeps k s0 s)
    (hm : Within 0x1082ac#21 k := by first | assumption | exact Within.trans (by assumption) (by decide)) :
    KeepsL k s0 (endEscalation s a1 a2 a3 a4 a5 a6) := by
  unfold endEscalation
  repeat' first
    | with_reducible assumption | with_reducible refine correctionEvent_keeps ?_ | with_reducible refine securityEvent_keeps ?_ | with_reducible refine poisonFromMedia_keeps ?_ | with_reducible refine raise_keeps ?_ | with_reducible refine Keeps.ite ?_ ?_ | with_reducible refine Keeps.foldl _ _ ?_ _ ?_ | fail_if_no_progress ((with_reducible refine Keeps.mk' ?_ rfl rfl rfl ?_ ?_ ?_ ?_ ?_ ?_ ?_ ?_ ?_ ?_ ?_ ?_ ?_ ?_ ?_ ?_ ?_ ?_ ?_ ?_ ?_) <;> first | exact Or.inl (hm.bit (by decide)) | exact Or.inr rfl | skip) | with_reducible refine KeepsL.mk ?_
    | split
    | (extract_lets +onlyGivenNames x; first | (refine Keeps.cut s0 x ?_ fun h => ?_; rotate_left; clear_value x) | skip)
    | (unfold x; fail_if_success done)
    | intro h

theorem accessLine_keeps {k s0 s a1 a2 a3 a4 a5 a6} (h : Keeps k s0 s)
    (hm : Within 0x1082ac#21 k := by first | assumption | exact Within.trans (by assumption) (by decide)) :
    KeepsL k s0 (accessLine s a1 a2 a3 a4 a5 a6) := by
  unfold accessLine
  repeat' first
    | with_reducible assumption | with_reducible refine correctionEvent_keeps ?_ | with_reducible refine endEscalation_keeps ?_ | with_reducible refine startEscalation_keeps ?_ | with_reducible refine Keeps.ite ?_ ?_ | with_reducible refine Keeps.foldl _ _ ?_ _ ?_ | fail_if_no_progress ((with_reducible refine Keeps.mk' ?_ rfl rfl rfl ?_ ?_ ?_ ?_ ?_ ?_ ?_ ?_ ?_ ?_ ?_ ?_ ?_ ?_ ?_ ?_ ?_ ?_ ?_ ?_ ?_) <;> first | exact Or.inl (hm.bit (by decide)) | exact Or.inr rfl | skip) | with_reducible refine KeepsL.mk ?_
    | split
    | (extract_lets +onlyGivenNames x; first | (refine Keeps.cut s0 x ?_ fun h => ?_; rotate_left; clear_value x) | skip)
    | (unfold x; fail_if_success done)
    | intro h
    | with_reducible refine KeepsR.elim ?_ (by assumption) | with_reducible refine KeepsL.elim ?_ (by assumption) | with_reducible refine KeepsOS.elim ?_ (by assumption) | with_reducible refine KeepsOR.elim ?_ (by assumption) | with_reducible refine KeepsOR3.elim ?_ (by assumption) | with_reducible refine KeepsL.proj ?_ | with_reducible refine KeepsR.proj ?_

theorem setShared_keeps {k s0 s a1 a2 a3} (h : Keeps k s0 s)
    (hm : Within 0x10#21 k := by first | assumption | exact Within.trans (by assumption) (by decide)) :
    Keeps k s0 (setShared s a1 a2 a3) := by
  unfold setShared
  repeat' first
    | with_reducible assumption | with_reducible refine Keeps.ite ?_ ?_ | with_reducible refine Keeps.foldl _ _ ?_ _ ?_ | fail_if_no_progress ((with_reducible refine Keeps.mk' ?_ rfl rfl rfl ?_ ?_ ?_ ?_ ?_ ?_ ?_ ?_ ?_ ?_ ?_ ?_ ?_ ?_ ?_ ?_ ?_ ?_ ?_ ?_ ?_) <;> first | exact Or.inl (hm.bit (by decide)) | exact Or.inr rfl | skip)
    | split
    | (extract_lets +onlyGivenNames x; first | (refine Keeps.cut s0 x ?_ fun h => ?_; rotate_left; clear_value x) | skip)
    | (unfold x; fail_if_success done)
    | intro h

theorem decodeFirst_keeps {k s0 s a1 a2 a3 a4} (h : Keeps k s0 s)
    (hm : Within 0x1086b4#21 k := by first | assumption | exact Within.trans (by assumption) (by decide)) :
    Keeps k s0 (decodeFirst s a1 a2 a3 a4) := by
  unfold decodeFirst
  repeat' first
    | with_reducible assumption | with_reducible refine correctionEvent_keeps ?_ | with_reducible refine useSlot_keeps ?_ | with_reducible refine setShared_keeps ?_ | with_reducible refine senseStripe_keeps ?_ | with_reducible refine count_keeps ?_ | with_reducible refine startEscalation_keeps ?_ | with_reducible refine Keeps.ite ?_ ?_ | with_reducible refine Keeps.foldl _ _ ?_ _ ?_ | fail_if_no_progress ((with_reducible refine Keeps.mk' ?_ rfl rfl rfl ?_ ?_ ?_ ?_ ?_ ?_ ?_ ?_ ?_ ?_ ?_ ?_ ?_ ?_ ?_ ?_ ?_ ?_ ?_ ?_ ?_) <;> first | exact Or.inl (hm.bit (by decide)) | exact Or.inr rfl | skip)
    | split
    | (extract_lets +onlyGivenNames x; first | (refine Keeps.cut s0 x ?_ fun h => ?_; rotate_left; clear_value x) | skip)
    | (unfold x; fail_if_success done)
    | intro h

theorem decodeStripe_keeps {k s0 s a1 a2 a3 a4} (h : Keeps k s0 s)
    (hm : Within 0x1082bc#21 k := by first | assumption | exact Within.trans (by assumption) (by decide)) :
    Keeps k s0 (decodeStripe s a1 a2 a3 a4) := by
  unfold decodeStripe
  repeat' first
    | with_reducible assumption | with_reducible refine endEscalation_keeps ?_ | with_reducible refine useSlot_keeps ?_ | with_reducible refine setShared_keeps ?_ | with_reducible refine Keeps.ite ?_ ?_ | with_reducible refine Keeps.foldl _ _ ?_ _ ?_ | fail_if_no_progress ((with_reducible refine Keeps.mk' ?_ rfl rfl rfl ?_ ?_ ?_ ?_ ?_ ?_ ?_ ?_ ?_ ?_ ?_ ?_ ?_ ?_ ?_ ?_ ?_ ?_ ?_ ?_ ?_) <;> first | exact Or.inl (hm.bit (by decide)) | exact Or.inr rfl | skip)
    | split
    | (extract_lets +onlyGivenNames x; first | (refine Keeps.cut s0 x ?_ fun h => ?_; rotate_left; clear_value x) | skip)
    | (unfold x; fail_if_success done)
    | intro h
    | with_reducible refine KeepsR.elim ?_ (by assumption) | with_reducible refine KeepsL.elim ?_ (by assumption) | with_reducible refine KeepsOS.elim ?_ (by assumption) | with_reducible refine KeepsOR.elim ?_ (by assumption) | with_reducible refine KeepsOR3.elim ?_ (by assumption) | with_reducible refine KeepsL.proj ?_ | with_reducible refine KeepsR.proj ?_

theorem decodeRead_keeps {k s0 s a1 a2 a3} (h : Keeps k s0 s)
    (hm : Within 0x1086bc#21 k := by first | assumption | exact Within.trans (by assumption) (by decide)) :
    Keeps k s0 (decodeRead s a1 a2 a3) := by
  unfold decodeRead
  repeat' first
    | with_reducible assumption | with_reducible refine setShared_keeps ?_ | with_reducible refine decodeFirst_keeps ?_ | with_reducible refine decodeStripe_keeps ?_ | with_reducible refine Keeps.ite ?_ ?_ | with_reducible refine Keeps.foldl _ _ ?_ _ ?_ | fail_if_no_progress ((with_reducible refine Keeps.mk' ?_ rfl rfl rfl ?_ ?_ ?_ ?_ ?_ ?_ ?_ ?_ ?_ ?_ ?_ ?_ ?_ ?_ ?_ ?_ ?_ ?_ ?_ ?_ ?_) <;> first | exact Or.inl (hm.bit (by decide)) | exact Or.inr rfl | skip)
    | split
    | (extract_lets +onlyGivenNames x; first | (refine Keeps.cut s0 x ?_ fun h => ?_; rotate_left; clear_value x) | skip)
    | (unfold x; fail_if_success done)
    | intro h

theorem completeFill_keeps {k s0 s a1 a2 a3 a4} (h : Keeps k s0 s)
    (hm : Within 0x1082bc#21 k := by first | assumption | exact Within.trans (by assumption) (by decide)) :
    Keeps k s0 (completeFill s a1 a2 a3 a4) := by
  unfold completeFill
  repeat' first
    | with_reducible assumption | with_reducible refine fetchSeg_keeps ?_ | with_reducible refine finishFill_keeps ?_ | with_reducible refine accessLine_keeps ?_ | with_reducible refine useSlot_keeps ?_ | with_reducible refine fillTransient_keeps ?_ | with_reducible refine Keeps.ite ?_ ?_ | with_reducible refine Keeps.foldl _ _ ?_ _ ?_ | fail_if_no_progress ((with_reducible refine Keeps.mk' ?_ rfl rfl rfl ?_ ?_ ?_ ?_ ?_ ?_ ?_ ?_ ?_ ?_ ?_ ?_ ?_ ?_ ?_ ?_ ?_ ?_ ?_ ?_ ?_) <;> first | exact Or.inl (hm.bit (by decide)) | exact Or.inr rfl | skip)
    | split
    | (extract_lets +onlyGivenNames x; first | (refine Keeps.cut s0 x ?_ fun h => ?_; rotate_left; clear_value x) | skip)
    | (unfold x; fail_if_success done)
    | intro h
    | with_reducible refine KeepsR.elim ?_ (by assumption) | with_reducible refine KeepsL.elim ?_ (by assumption) | with_reducible refine KeepsOS.elim ?_ (by assumption) | with_reducible refine KeepsOR.elim ?_ (by assumption) | with_reducible refine KeepsOR3.elim ?_ (by assumption) | with_reducible refine KeepsL.proj ?_ | with_reducible refine KeepsR.proj ?_

theorem execMemRd_keeps {k s0 a0 a1 a2 s} (h : Keeps k s0 s)
    (hm : Within 0x10#21 k := by first | assumption | exact Within.trans (by assumption) (by decide)) :
    KeepsO k s0 (execMemRd a0 a1 a2 s) := by
  unfold execMemRd
  repeat' first
    | with_reducible assumption | with_reducible refine Keeps.ite ?_ ?_ | with_reducible refine Keeps.foldl _ _ ?_ _ ?_ | fail_if_no_progress ((with_reducible refine Keeps.mk' ?_ rfl rfl rfl ?_ ?_ ?_ ?_ ?_ ?_ ?_ ?_ ?_ ?_ ?_ ?_ ?_ ?_ ?_ ?_ ?_ ?_ ?_ ?_ ?_) <;> first | exact Or.inl (hm.bit (by decide)) | exact Or.inr rfl | skip) | with_reducible refine KeepsO.next ?_
    | split
    | (extract_lets +onlyGivenNames x; first | (refine Keeps.cut s0 x ?_ fun h => ?_; rotate_left; clear_value x) | skip)
    | (unfold x; fail_if_success done)
    | intro h

theorem execMemSpecRd_keeps {k s0 a0 a1 s} (h : Keeps k s0 s)
    (hm : Within 0x0#21 k := by first | assumption | exact Within.trans (by assumption) (by decide)) :
    KeepsO k s0 (execMemSpecRd a0 a1 s) := by
  unfold execMemSpecRd
  repeat' first
    | with_reducible assumption | with_reducible refine Keeps.ite ?_ ?_ | with_reducible refine Keeps.foldl _ _ ?_ _ ?_ | fail_if_no_progress ((with_reducible refine Keeps.mk' ?_ rfl rfl rfl ?_ ?_ ?_ ?_ ?_ ?_ ?_ ?_ ?_ ?_ ?_ ?_ ?_ ?_ ?_ ?_ ?_ ?_ ?_ ?_ ?_) <;> first | exact Or.inl (hm.bit (by decide)) | exact Or.inr rfl | skip) | with_reducible refine KeepsO.next ?_
    | split
    | (extract_lets +onlyGivenNames x; first | (refine Keeps.cut s0 x ?_ fun h => ?_; rotate_left; clear_value x) | skip)
    | (unfold x; fail_if_success done)
    | intro h

theorem execMemInv_keeps {k s0 a0 s} (h : Keeps k s0 s)
    (hm : Within 0x10#21 k := by first | assumption | exact Within.trans (by assumption) (by decide)) :
    KeepsO k s0 (execMemInv a0 s) := by
  unfold execMemInv
  repeat' first
    | with_reducible assumption | with_reducible refine sendResp_keeps ?_ | with_reducible refine Keeps.ite ?_ ?_ | with_reducible refine Keeps.foldl _ _ ?_ _ ?_ | fail_if_no_progress ((with_reducible refine Keeps.mk' ?_ rfl rfl rfl ?_ ?_ ?_ ?_ ?_ ?_ ?_ ?_ ?_ ?_ ?_ ?_ ?_ ?_ ?_ ?_ ?_ ?_ ?_ ?_ ?_) <;> first | exact Or.inl (hm.bit (by decide)) | exact Or.inr rfl | skip) | with_reducible refine KeepsO.next ?_
    | split
    | (extract_lets +onlyGivenNames x; first | (refine Keeps.cut s0 x ?_ fun h => ?_; rotate_left; clear_value x) | skip)
    | (unfold x; fail_if_success done)
    | intro h

theorem queueWrite_keeps {k s0 s a1 a2 a3 a4 a5 a6} (h : Keeps k s0 s)
    (hm : Within 0x10#21 k := by first | assumption | exact Within.trans (by assumption) (by decide)) :
    Keeps k s0 (queueWrite s a1 a2 a3 a4 a5 a6) := by
  unfold queueWrite
  repeat' first
    | with_reducible assumption | with_reducible refine Keeps.ite ?_ ?_ | with_reducible refine Keeps.foldl _ _ ?_ _ ?_ | fail_if_no_progress ((with_reducible refine Keeps.mk' ?_ rfl rfl rfl ?_ ?_ ?_ ?_ ?_ ?_ ?_ ?_ ?_ ?_ ?_ ?_ ?_ ?_ ?_ ?_ ?_ ?_ ?_ ?_ ?_) <;> first | exact Or.inl (hm.bit (by decide)) | exact Or.inr rfl | skip)
    | split
    | (extract_lets +onlyGivenNames x; first | (refine Keeps.cut s0 x ?_ fun h => ?_; rotate_left; clear_value x) | skip)
    | (unfold x; fail_if_success done)
    | intro h

theorem execMemWr_keeps {k s0 a0 a1 a2 a3 a4 a5 s} (h : Keeps k s0 s)
    (hm : Within 0x10#21 k := by first | assumption | exact Within.trans (by assumption) (by decide)) :
    KeepsO k s0 (execMemWr a0 a1 a2 a3 a4 a5 s) := by
  unfold execMemWr
  repeat' first
    | with_reducible assumption | with_reducible refine queueWrite_keeps ?_ | with_reducible refine Keeps.ite ?_ ?_ | with_reducible refine Keeps.foldl _ _ ?_ _ ?_ | fail_if_no_progress ((with_reducible refine Keeps.mk' ?_ rfl rfl rfl ?_ ?_ ?_ ?_ ?_ ?_ ?_ ?_ ?_ ?_ ?_ ?_ ?_ ?_ ?_ ?_ ?_ ?_ ?_ ?_ ?_) <;> first | exact Or.inl (hm.bit (by decide)) | exact Or.inr rfl | skip) | with_reducible refine KeepsO.next ?_
    | split
    | (extract_lets +onlyGivenNames x; first | (refine Keeps.cut s0 x ?_ fun h => ?_; rotate_left; clear_value x) | skip)
    | (unfold x; fail_if_success done)
    | intro h

theorem execMemWrPtl_keeps {k s0 a0 a1 a2 a3 a4 a5 s} (h : Keeps k s0 s)
    (hm : Within 0x10#21 k := by first | assumption | exact Within.trans (by assumption) (by decide)) :
    KeepsO k s0 (execMemWrPtl a0 a1 a2 a3 a4 a5 s) := by
  unfold execMemWrPtl
  repeat' first
    | with_reducible assumption | with_reducible refine queueWrite_keeps ?_ | with_reducible refine Keeps.ite ?_ ?_ | with_reducible refine Keeps.foldl _ _ ?_ _ ?_ | fail_if_no_progress ((with_reducible refine Keeps.mk' ?_ rfl rfl rfl ?_ ?_ ?_ ?_ ?_ ?_ ?_ ?_ ?_ ?_ ?_ ?_ ?_ ?_ ?_ ?_ ?_ ?_ ?_ ?_ ?_) <;> first | exact Or.inl (hm.bit (by decide)) | exact Or.inr rfl | skip) | with_reducible refine KeepsO.next ?_
    | split
    | (extract_lets +onlyGivenNames x; first | (refine Keeps.cut s0 x ?_ fun h => ?_; rotate_left; clear_value x) | skip)
    | (unfold x; fail_if_success done)
    | intro h

theorem execCxlMemUnsupported_keeps {k s0 a0 a1 a2 s} (h : Keeps k s0 s)
    (hm : Within 0x810#21 k := by first | assumption | exact Within.trans (by assumption) (by decide)) :
    KeepsO k s0 (execCxlMemUnsupported a0 a1 a2 s) := by
  unfold execCxlMemUnsupported
  repeat' first
    | with_reducible assumption | with_reducible refine sendResp_keeps ?_ | with_reducible refine Keeps.ite ?_ ?_ | with_reducible refine Keeps.foldl _ _ ?_ _ ?_ | fail_if_no_progress ((with_reducible refine Keeps.mk' ?_ rfl rfl rfl ?_ ?_ ?_ ?_ ?_ ?_ ?_ ?_ ?_ ?_ ?_ ?_ ?_ ?_ ?_ ?_ ?_ ?_ ?_ ?_ ?_) <;> first | exact Or.inl (hm.bit (by decide)) | exact Or.inr rfl | skip) | with_reducible refine KeepsO.next ?_
    | split
    | (extract_lets +onlyGivenNames x; first | (refine Keeps.cut s0 x ?_ fun h => ?_; rotate_left; clear_value x) | skip)
    | (unfold x; fail_if_success done)
    | intro h

theorem execLineDecodeDone_keeps {k s0 a0 a1 a2 s} (h : Keeps k s0 s)
    (hm : Within 0x1886fc#21 k := by first | assumption | exact Within.trans (by assumption) (by decide)) :
    KeepsO k s0 (execLineDecodeDone a0 a1 a2 s) := by
  unfold execLineDecodeDone
  repeat' first
    | with_reducible assumption | with_reducible refine decodeRead_keeps ?_ | with_reducible refine completeFill_keeps ?_ | with_reducible refine mapFill_keeps ?_ | with_reducible refine accessLine_keeps ?_ | with_reducible refine Keeps.ite ?_ ?_ | with_reducible refine Keeps.foldl _ _ ?_ _ ?_ | fail_if_no_progress ((with_reducible refine Keeps.mk' ?_ rfl rfl rfl ?_ ?_ ?_ ?_ ?_ ?_ ?_ ?_ ?_ ?_ ?_ ?_ ?_ ?_ ?_ ?_ ?_ ?_ ?_ ?_ ?_) <;> first | exact Or.inl (hm.bit (by decide)) | exact Or.inr rfl | skip) | with_reducible refine KeepsO.next ?_
    | split
    | (extract_lets +onlyGivenNames x; first | (refine Keeps.cut s0 x ?_ fun h => ?_; rotate_left; clear_value x) | skip)
    | (unfold x; fail_if_success done)
    | intro h
    | with_reducible refine KeepsR.elim ?_ (by assumption) | with_reducible refine KeepsL.elim ?_ (by assumption) | with_reducible refine KeepsOS.elim ?_ (by assumption) | with_reducible refine KeepsOR.elim ?_ (by assumption) | with_reducible refine KeepsOR3.elim ?_ (by assumption) | with_reducible refine KeepsL.proj ?_ | with_reducible refine KeepsR.proj ?_

theorem execDataResponse_keeps {k s0 a0 a1 s} (h : Keeps k s0 s)
    (hm : Within 0x108010#21 k := by first | assumption | exact Within.trans (by assumption) (by decide)) :
    KeepsO k s0 (execDataResponse a0 a1 s) := by
  unfold execDataResponse
  repeat' first
    | with_reducible assumption | with_reducible refine count_keeps ?_ | with_reducible refine portBytes_keeps ?_ | with_reducible refine sendResp_keeps ?_ | with_reducible refine samplePut_keeps ?_ | with_reducible refine Keeps.ite ?_ ?_ | with_reducible refine Keeps.foldl _ _ ?_ _ ?_ | fail_if_no_progress ((with_reducible refine Keeps.mk' ?_ rfl rfl rfl ?_ ?_ ?_ ?_ ?_ ?_ ?_ ?_ ?_ ?_ ?_ ?_ ?_ ?_ ?_ ?_ ?_ ?_ ?_ ?_ ?_) <;> first | exact Or.inl (hm.bit (by decide)) | exact Or.inr rfl | skip) | with_reducible refine KeepsO.next ?_
    | split
    | (extract_lets +onlyGivenNames x; first | (refine Keeps.cut s0 x ?_ fun h => ?_; rotate_left; clear_value x) | skip)
    | (unfold x; fail_if_success done)
    | intro h

theorem execFillComplete_keeps {k s0 a0 a1 a2 a3 s} (h : Keeps k s0 s)
    (hm : Within 0x1082bc#21 k := by first | assumption | exact Within.trans (by assumption) (by decide)) :
    KeepsO k s0 (execFillComplete a0 a1 a2 a3 s) := by
  unfold execFillComplete
  repeat' first
    | with_reducible assumption | with_reducible refine completeFill_keeps ?_ | with_reducible refine Keeps.ite ?_ ?_ | with_reducible refine Keeps.foldl _ _ ?_ _ ?_ | fail_if_no_progress ((with_reducible refine Keeps.mk' ?_ rfl rfl rfl ?_ ?_ ?_ ?_ ?_ ?_ ?_ ?_ ?_ ?_ ?_ ?_ ?_ ?_ ?_ ?_ ?_ ?_ ?_ ?_ ?_) <;> first | exact Or.inl (hm.bit (by decide)) | exact Or.inr rfl | skip) | with_reducible refine KeepsO.next ?_
    | split
    | (extract_lets +onlyGivenNames x; first | (refine Keeps.cut s0 x ?_ fun h => ?_; rotate_left; clear_value x) | skip)
    | (unfold x; fail_if_success done)
    | intro h

theorem execFillRetry_keeps {k s0 a0 a1 s} (h : Keeps k s0 s)
    (hm : Within 0x408#21 k := by first | assumption | exact Within.trans (by assumption) (by decide)) :
    KeepsO k s0 (execFillRetry a0 a1 s) := by
  unfold execFillRetry
  repeat' first
    | with_reducible assumption | with_reducible refine senseFill_keeps ?_ | with_reducible refine setSagLine_keeps ?_ | with_reducible refine Keeps.ite ?_ ?_ | with_reducible refine Keeps.foldl _ _ ?_ _ ?_ | fail_if_no_progress ((with_reducible refine Keeps.mk' ?_ rfl rfl rfl ?_ ?_ ?_ ?_ ?_ ?_ ?_ ?_ ?_ ?_ ?_ ?_ ?_ ?_ ?_ ?_ ?_ ?_ ?_ ?_ ?_) <;> first | exact Or.inl (hm.bit (by decide)) | exact Or.inr rfl | skip) | with_reducible refine KeepsO.next ?_
    | split
    | (extract_lets +onlyGivenNames x; first | (refine Keeps.cut s0 x ?_ fun h => ?_; rotate_left; clear_value x) | skip)
    | (unfold x; fail_if_success done)
    | intro h

/-! Drains. -/

theorem noteProgram_keeps {k s0 s a1} (h : Keeps k s0 s)
    (hm : Within 0x100#21 k := by first | assumption | exact Within.trans (by assumption) (by decide)) :
    Keeps k s0 (noteProgram s a1) := by
  unfold noteProgram
  repeat' first
    | with_reducible assumption | with_reducible refine updLinkWear_keeps ?_ | with_reducible refine Keeps.ite ?_ ?_ | with_reducible refine Keeps.foldl _ _ ?_ _ ?_ | fail_if_no_progress ((with_reducible refine Keeps.mk' ?_ rfl rfl rfl ?_ ?_ ?_ ?_ ?_ ?_ ?_ ?_ ?_ ?_ ?_ ?_ ?_ ?_ ?_ ?_ ?_ ?_ ?_ ?_ ?_) <;> first | exact Or.inl (hm.bit (by decide)) | exact Or.inr rfl | skip)
    | split
    | (extract_lets +onlyGivenNames x; first | (refine Keeps.cut s0 x ?_ fun h => ?_; rotate_left; clear_value x) | skip)
    | (unfold x; fail_if_success done)
    | intro h

theorem drainSlot_keeps {k s0 s a1 a2} (h : Keeps k s0 s)
    (hm : Within 0x28#21 k := by first | assumption | exact Within.trans (by assumption) (by decide)) :
    KeepsOR3 k s0 (drainSlot s a1 a2) := by
  unfold drainSlot
  repeat' first
    | with_reducible assumption | with_reducible refine allocBisque_keeps ?_ | with_reducible refine Keeps.ite ?_ ?_ | with_reducible refine Keeps.foldl _ _ ?_ _ ?_ | fail_if_no_progress ((with_reducible refine Keeps.mk' ?_ rfl rfl rfl ?_ ?_ ?_ ?_ ?_ ?_ ?_ ?_ ?_ ?_ ?_ ?_ ?_ ?_ ?_ ?_ ?_ ?_ ?_ ?_ ?_) <;> first | exact Or.inl (hm.bit (by decide)) | exact Or.inr rfl | skip) | with_reducible exact KeepsOR3.none _ _ | with_reducible refine KeepsOR3.some ?_
    | split
    | (extract_lets +onlyGivenNames x; first | (refine Keeps.cut s0 x ?_ fun h => ?_; rotate_left; clear_value x) | skip)
    | (unfold x; fail_if_success done)
    | intro h
    | with_reducible refine KeepsR.elim ?_ (by assumption) | with_reducible refine KeepsL.elim ?_ (by assumption) | with_reducible refine KeepsOS.elim ?_ (by assumption) | with_reducible refine KeepsOR.elim ?_ (by assumption) | with_reducible refine KeepsOR3.elim ?_ (by assumption) | with_reducible refine KeepsL.proj ?_ | with_reducible refine KeepsR.proj ?_

theorem holdLines_keeps {k s0 s a1 a2 a3} (h : Keeps k s0 s)
    (hm : Within 0x8#21 k := by first | assumption | exact Within.trans (by assumption) (by decide)) :
    Keeps k s0 (holdLines s a1 a2 a3) := by
  unfold holdLines
  repeat' first
    | with_reducible assumption | with_reducible refine setSagLine_keeps ?_ | with_reducible refine Keeps.ite ?_ ?_ | with_reducible refine Keeps.foldl _ _ ?_ _ ?_ | fail_if_no_progress ((with_reducible refine Keeps.mk' ?_ rfl rfl rfl ?_ ?_ ?_ ?_ ?_ ?_ ?_ ?_ ?_ ?_ ?_ ?_ ?_ ?_ ?_ ?_ ?_ ?_ ?_ ?_ ?_) <;> first | exact Or.inl (hm.bit (by decide)) | exact Or.inr rfl | skip)
    | split
    | (extract_lets +onlyGivenNames x; first | (refine Keeps.cut s0 x ?_ fun h => ?_; rotate_left; clear_value x) | skip)
    | (unfold x; fail_if_success done)
    | intro h

theorem reportDiscards_keeps {k s0 s a1} (h : Keeps k s0 s)
    (hm : Within 0x100008#21 k := by first | assumption | exact Within.trans (by assumption) (by decide)) :
    Keeps k s0 (reportDiscards s a1) := by
  unfold reportDiscards
  repeat' first
    | with_reducible assumption | with_reducible refine raise_keeps ?_ | with_reducible refine Keeps.ite ?_ ?_ | with_reducible refine Keeps.foldl _ _ ?_ _ ?_ | fail_if_no_progress ((with_reducible refine Keeps.mk' ?_ rfl rfl rfl ?_ ?_ ?_ ?_ ?_ ?_ ?_ ?_ ?_ ?_ ?_ ?_ ?_ ?_ ?_ ?_ ?_ ?_ ?_ ?_ ?_) <;> first | exact Or.inl (hm.bit (by decide)) | exact Or.inr rfl | skip)
    | split
    | (extract_lets +onlyGivenNames x; first | (refine Keeps.cut s0 x ?_ fun h => ?_; rotate_left; clear_value x) | skip)
    | (unfold x; fail_if_success done)
    | intro h

theorem discardLines_keeps {k s0 s a1 a2 a3} (h : Keeps k s0 s)
    (hm : Within 0x100008#21 k := by first | assumption | exact Within.trans (by assumption) (by decide)) :
    Keeps k s0 (discardLines s a1 a2 a3) := by
  unfold discardLines
  repeat' first
    | with_reducible assumption | with_reducible refine setSagLine_keeps ?_ | with_reducible refine reportDiscards_keeps ?_ | with_reducible refine Keeps.ite ?_ ?_ | with_reducible refine Keeps.foldl _ _ ?_ _ ?_ | fail_if_no_progress ((with_reducible refine Keeps.mk' ?_ rfl rfl rfl ?_ ?_ ?_ ?_ ?_ ?_ ?_ ?_ ?_ ?_ ?_ ?_ ?_ ?_ ?_ ?_ ?_ ?_ ?_ ?_ ?_) <;> first | exact Or.inl (hm.bit (by decide)) | exact Or.inr rfl | skip)
    | split
    | (extract_lets +onlyGivenNames x; first | (refine Keeps.cut s0 x ?_ fun h => ?_; rotate_left; clear_value x) | skip)
    | (unfold x; fail_if_success done)
    | intro h

theorem startDrain_keeps {k s0 s a1 a2} (h : Keeps k s0 s)
    (hm : Within 0x1082ac#21 k := by first | assumption | exact Within.trans (by assumption) (by decide)) :
    Keeps k s0 (startDrain s a1 a2) := by
  unfold startDrain
  repeat' first
    | with_reducible assumption | with_reducible refine dropPage_keeps ?_ | with_reducible refine fetchSeg_keeps ?_ | with_reducible refine discardLines_keeps ?_ | with_reducible refine askCeiling_keeps ?_ | with_reducible refine drainSlot_keeps ?_ | with_reducible refine placeMarker_keeps ?_ | with_reducible refine poisonFromMedia_keeps ?_ | with_reducible refine holdLines_keeps ?_ | with_reducible refine setEntry_keeps ?_ | with_reducible refine count_keeps ?_ | with_reducible refine Keeps.ite ?_ ?_ | with_reducible refine Keeps.foldl _ _ ?_ _ ?_ | fail_if_no_progress ((with_reducible refine Keeps.mk' ?_ rfl rfl rfl ?_ ?_ ?_ ?_ ?_ ?_ ?_ ?_ ?_ ?_ ?_ ?_ ?_ ?_ ?_ ?_ ?_ ?_ ?_ ?_ ?_) <;> first | exact Or.inl (hm.bit (by decide)) | exact Or.inr rfl | skip)
    | split
    | (extract_lets +onlyGivenNames x; first | (refine Keeps.cut s0 x ?_ fun h => ?_; rotate_left; clear_value x) | skip)
    | (unfold x; fail_if_success done)
    | intro h
    | with_reducible refine KeepsR.elim ?_ (by assumption) | with_reducible refine KeepsL.elim ?_ (by assumption) | with_reducible refine KeepsOS.elim ?_ (by assumption) | with_reducible refine KeepsOR.elim ?_ (by assumption) | with_reducible refine KeepsOR3.elim ?_ (by assumption) | with_reducible refine KeepsL.proj ?_ | with_reducible refine KeepsR.proj ?_

theorem drainStamps_keeps {k s0 s a1 a2 a3 a4} (h : Keeps k s0 s)
    (hm : Within 0x204#21 k := by first | assumption | exact Within.trans (by assumption) (by decide)) :
    Keeps k s0 (drainStamps s a1 a2 a3 a4) := by
  unfold drainStamps
  repeat' first
    | with_reducible assumption | with_reducible refine putStamps_keeps ?_ | with_reducible refine Keeps.ite ?_ ?_ | with_reducible refine Keeps.foldl _ _ ?_ _ ?_ | fail_if_no_progress ((with_reducible refine Keeps.mk' ?_ rfl rfl rfl ?_ ?_ ?_ ?_ ?_ ?_ ?_ ?_ ?_ ?_ ?_ ?_ ?_ ?_ ?_ ?_ ?_ ?_ ?_ ?_ ?_) <;> first | exact Or.inl (hm.bit (by decide)) | exact Or.inr rfl | skip)
    | split
    | (extract_lets +onlyGivenNames x; first | (refine Keeps.cut s0 x ?_ fun h => ?_; rotate_left; clear_value x) | skip)
    | (unfold x; fail_if_success done)
    | intro h

theorem releaseLine_keeps {k s0 s a1 a2 a3} (h : Keeps k s0 s)
    (hm : Within 0x8#21 k := by first | assumption | exact Within.trans (by assumption) (by decide)) :
    Keeps k s0 (releaseLine s a1 a2 a3) := by
  unfold releaseLine
  repeat' first
    | with_reducible assumption | with_reducible refine setSagLine_keeps ?_ | with_reducible refine Keeps.ite ?_ ?_ | with_reducible refine Keeps.foldl _ _ ?_ _ ?_ | fail_if_no_progress ((with_reducible refine Keeps.mk' ?_ rfl rfl rfl ?_ ?_ ?_ ?_ ?_ ?_ ?_ ?_ ?_ ?_ ?_ ?_ ?_ ?_ ?_ ?_ ?_ ?_ ?_ ?_ ?_) <;> first | exact Or.inl (hm.bit (by decide)) | exact Or.inr rfl | skip)
    | split
    | (extract_lets +onlyGivenNames x; first | (refine Keeps.cut s0 x ?_ fun h => ?_; rotate_left; clear_value x) | skip)
    | (unfold x; fail_if_success done)
    | intro h

theorem stampCrossings_keeps {k s0 s a1 a2 a3 a4} (h : Keeps k s0 s)
    (hm : Within 0x20#21 k := by first | assumption | exact Within.trans (by assumption) (by decide)) :
    Keeps k s0 (stampCrossings s a1 a2 a3 a4) := by
  unfold stampCrossings
  repeat' first
    | with_reducible assumption | with_reducible refine Keeps.ite ?_ ?_ | with_reducible refine Keeps.foldl _ _ ?_ _ ?_ | fail_if_no_progress ((with_reducible refine Keeps.mk' ?_ rfl rfl rfl ?_ ?_ ?_ ?_ ?_ ?_ ?_ ?_ ?_ ?_ ?_ ?_ ?_ ?_ ?_ ?_ ?_ ?_ ?_ ?_ ?_) <;> first | exact Or.inl (hm.bit (by decide)) | exact Or.inr rfl | skip)
    | split
    | (extract_lets +onlyGivenNames x; first | (refine Keeps.cut s0 x ?_ fun h => ?_; rotate_left; clear_value x) | skip)
    | (unfold x; fail_if_success done)
    | intro h

theorem refreshDone_keeps {k s0 s a1} (h : Keeps k s0 s)
    (hm : Within 0x4#21 k := by first | assumption | exact Within.trans (by assumption) (by decide)) :
    Keeps k s0 (refreshDone s a1) := by
  unfold refreshDone
  repeat' first
    | with_reducible assumption | with_reducible refine setEntry_keeps ?_ | with_reducible refine Keeps.ite ?_ ?_ | with_reducible refine Keeps.foldl _ _ ?_ _ ?_ | fail_if_no_progress ((with_reducible refine Keeps.mk' ?_ rfl rfl rfl ?_ ?_ ?_ ?_ ?_ ?_ ?_ ?_ ?_ ?_ ?_ ?_ ?_ ?_ ?_ ?_ ?_ ?_ ?_ ?_ ?_) <;> first | exact Or.inl (hm.bit (by decide)) | exact Or.inr rfl | skip)
    | split
    | (extract_lets +onlyGivenNames x; first | (refine Keeps.cut s0 x ?_ fun h => ?_; rotate_left; clear_value x) | skip)
    | (unfold x; fail_if_success done)
    | intro h

theorem settleDrain_keeps {k s0 s a1 a2 a3 a4} (h : Keeps k s0 s)
    (hm : Within 0x324#21 k := by first | assumption | exact Within.trans (by assumption) (by decide)) :
    Keeps k s0 (settleDrain s a1 a2 a3 a4) := by
  unfold settleDrain
  repeat' first
    | with_reducible assumption | with_reducible refine setMedia_keeps ?_ | with_reducible refine drainStamps_keeps ?_ | with_reducible refine claimSlot_keeps ?_ | with_reducible refine releaseSlot_keeps ?_ | with_reducible refine setEntry_keeps ?_ | with_reducible refine noteProgram_keeps ?_ | with_reducible refine updStripe_keeps ?_ | with_reducible refine Keeps.ite ?_ ?_ | with_reducible refine Keeps.foldl _ _ ?_ _ ?_ | fail_if_no_progress ((with_reducible refine Keeps.mk' ?_ rfl rfl rfl ?_ ?_ ?_ ?_ ?_ ?_ ?_ ?_ ?_ ?_ ?_ ?_ ?_ ?_ ?_ ?_ ?_ ?_ ?_ ?_ ?_) <;> first | exact Or.inl (hm.bit (by decide)) | exact Or.inr rfl | skip)
    | split
    | (extract_lets +onlyGivenNames x; first | (refine Keeps.cut s0 x ?_ fun h => ?_; rotate_left; clear_value x) | skip)
    | (unfold x; fail_if_success done)
    | intro h

theorem releaseDrained_keeps {k s0 s a1 a2} (h : Keeps k s0 s)
    (hm : Within 0x88#21 k := by first | assumption | exact Within.trans (by assumption) (by decide)) :
    Keeps k s0 (releaseDrained s a1 a2) := by
  unfold releaseDrained
  repeat' first
    | with_reducible assumption | with_reducible refine releaseLine_keeps ?_ | with_reducible refine poisonLeave_keeps ?_ | with_reducible refine Keeps.ite ?_ ?_ | with_reducible refine Keeps.foldl _ _ ?_ _ ?_ | fail_if_no_progress ((with_reducible refine Keeps.mk' ?_ rfl rfl rfl ?_ ?_ ?_ ?_ ?_ ?_ ?_ ?_ ?_ ?_ ?_ ?_ ?_ ?_ ?_ ?_ ?_ ?_ ?_ ?_ ?_) <;> first | exact Or.inl (hm.bit (by decide)) | exact Or.inr rfl | skip)
    | split
    | (extract_lets +onlyGivenNames x; first | (refine Keeps.cut s0 x ?_ fun h => ?_; rotate_left; clear_value x) | skip)
    | (unfold x; fail_if_success done)
    | intro h

theorem endDrainsOn_keeps {k s0 s a1 a2} (h : Keeps k s0 s)
    (hm : Within 0x8#21 k := by first | assumption | exact Within.trans (by assumption) (by decide)) :
    Keeps k s0 (endDrainsOn s a1 a2) := by
  unfold endDrainsOn
  repeat' first
    | with_reducible assumption | with_reducible refine setSagLine_keeps ?_ | with_reducible refine Keeps.ite ?_ ?_ | with_reducible refine Keeps.foldl _ _ ?_ _ ?_ | fail_if_no_progress ((with_reducible refine Keeps.mk' ?_ rfl rfl rfl ?_ ?_ ?_ ?_ ?_ ?_ ?_ ?_ ?_ ?_ ?_ ?_ ?_ ?_ ?_ ?_ ?_ ?_ ?_ ?_ ?_) <;> first | exact Or.inl (hm.bit (by decide)) | exact Or.inr rfl | skip)
    | split
    | (extract_lets +onlyGivenNames x; first | (refine Keeps.cut s0 x ?_ fun h => ?_; rotate_left; clear_value x) | skip)
    | (unfold x; fail_if_success done)
    | intro h

theorem tearLine_keeps {k s0 s a1 a2} (h : Keeps k s0 s)
    (hm : Within 0x4#21 k := by first | assumption | exact Within.trans (by assumption) (by decide)) :
    Keeps k s0 (tearLine s a1 a2) := by
  unfold tearLine
  repeat' first
    | with_reducible assumption | with_reducible refine setMedia_keeps ?_ | with_reducible refine Keeps.ite ?_ ?_ | with_reducible refine Keeps.foldl _ _ ?_ _ ?_ | fail_if_no_progress ((with_reducible refine Keeps.mk' ?_ rfl rfl rfl ?_ ?_ ?_ ?_ ?_ ?_ ?_ ?_ ?_ ?_ ?_ ?_ ?_ ?_ ?_ ?_ ?_ ?_ ?_ ?_ ?_) <;> first | exact Or.inl (hm.bit (by decide)) | exact Or.inr rfl | skip)
    | split
    | (extract_lets +onlyGivenNames x; first | (refine Keeps.cut s0 x ?_ fun h => ?_; rotate_left; clear_value x) | skip)
    | (unfold x; fail_if_success done)
    | intro h

theorem tearDrains_keeps {k s0 s} (h : Keeps k s0 s)
    (hm : Within 0x8000c#21 k := by first | assumption | exact Within.trans (by assumption) (by decide)) :
    Keeps k s0 (tearDrains s) := by
  unfold tearDrains
  repeat' first
    | with_reducible assumption | with_reducible refine draw_keeps ?_ | with_reducible refine tearLine_keeps ?_ | with_reducible refine Keeps.ite ?_ ?_ | with_reducible refine Keeps.foldl _ _ ?_ _ ?_ | fail_if_no_progress ((with_reducible refine Keeps.mk' ?_ rfl rfl rfl ?_ ?_ ?_ ?_ ?_ ?_ ?_ ?_ ?_ ?_ ?_ ?_ ?_ ?_ ?_ ?_ ?_ ?_ ?_ ?_ ?_) <;> first | exact Or.inl (hm.bit (by decide)) | exact Or.inr rfl | skip)
    | split
    | (extract_lets +onlyGivenNames x; first | (refine Keeps.cut s0 x ?_ fun h => ?_; rotate_left; clear_value x) | skip)
    | (unfold x; fail_if_success done)
    | intro h
    | with_reducible refine KeepsR.elim ?_ (by assumption) | with_reducible refine KeepsL.elim ?_ (by assumption) | with_reducible refine KeepsOS.elim ?_ (by assumption) | with_reducible refine KeepsOR.elim ?_ (by assumption) | with_reducible refine KeepsOR3.elim ?_ (by assumption) | with_reducible refine KeepsL.proj ?_ | with_reducible refine KeepsR.proj ?_

theorem finishDrain_keeps {k s0 s a1 a2} (h : Keeps k s0 s)
    (hm : Within 0x3ac#21 k := by first | assumption | exact Within.trans (by assumption) (by decide)) :
    Keeps k s0 (finishDrain s a1 a2) := by
  unfold finishDrain
  repeat' first
    | with_reducible assumption | with_reducible refine fetchSeg_keeps ?_ | with_reducible refine settleDrain_keeps ?_ | with_reducible refine releaseDrained_keeps ?_ | with_reducible refine stampCrossings_keeps ?_ | with_reducible refine refreshDone_keeps ?_ | with_reducible refine Keeps.ite ?_ ?_ | with_reducible refine Keeps.foldl _ _ ?_ _ ?_ | fail_if_no_progress ((with_reducible refine Keeps.mk' ?_ rfl rfl rfl ?_ ?_ ?_ ?_ ?_ ?_ ?_ ?_ ?_ ?_ ?_ ?_ ?_ ?_ ?_ ?_ ?_ ?_ ?_ ?_ ?_) <;> first | exact Or.inl (hm.bit (by decide)) | exact Or.inr rfl | skip)
    | split
    | (extract_lets +onlyGivenNames x; first | (refine Keeps.cut s0 x ?_ fun h => ?_; rotate_left; clear_value x) | skip)
    | (unfold x; fail_if_success done)
    | intro h

theorem execDrainStart_keeps {k s0 a0 a1 s} (h : Keeps k s0 s)
    (hm : Within 0x1082ac#21 k := by first | assumption | exact Within.trans (by assumption) (by decide)) :
    KeepsO k s0 (execDrainStart a0 a1 s) := by
  unfold execDrainStart
  repeat' first
    | with_reducible assumption | with_reducible refine startDrain_keeps ?_ | with_reducible refine Keeps.ite ?_ ?_ | with_reducible refine Keeps.foldl _ _ ?_ _ ?_ | fail_if_no_progress ((with_reducible refine Keeps.mk' ?_ rfl rfl rfl ?_ ?_ ?_ ?_ ?_ ?_ ?_ ?_ ?_ ?_ ?_ ?_ ?_ ?_ ?_ ?_ ?_ ?_ ?_ ?_ ?_) <;> first | exact Or.inl (hm.bit (by decide)) | exact Or.inr rfl | skip) | with_reducible refine KeepsO.next ?_
    | split
    | (extract_lets +onlyGivenNames x; first | (refine Keeps.cut s0 x ?_ fun h => ?_; rotate_left; clear_value x) | skip)
    | (unfold x; fail_if_success done)
    | intro h

theorem execDrainVerified_keeps {k s0 a0 a1 s} (h : Keeps k s0 s)
    (hm : Within 0x3bc#21 k := by first | assumption | exact Within.trans (by assumption) (by decide)) :
    KeepsO k s0 (execDrainVerified a0 a1 s) := by
  unfold execDrainVerified
  repeat' first
    | with_reducible assumption | with_reducible refine returnCredits_keeps ?_ | with_reducible refine finishDrain_keeps ?_ | with_reducible refine Keeps.ite ?_ ?_ | with_reducible refine Keeps.foldl _ _ ?_ _ ?_ | fail_if_no_progress ((with_reducible refine Keeps.mk' ?_ rfl rfl rfl ?_ ?_ ?_ ?_ ?_ ?_ ?_ ?_ ?_ ?_ ?_ ?_ ?_ ?_ ?_ ?_ ?_ ?_ ?_ ?_ ?_) <;> first | exact Or.inl (hm.bit (by decide)) | exact Or.inr rfl | skip) | with_reducible refine KeepsO.next ?_
    | split
    | (extract_lets +onlyGivenNames x; first | (refine Keeps.cut s0 x ?_ fun h => ?_; rotate_left; clear_value x) | skip)
    | (unfold x; fail_if_success done)
    | intro h

theorem execWriteDiscardHoldEnd_keeps {k s0 a0 s} (h : Keeps k s0 s)
    (hm : Within 0x100008#21 k := by first | assumption | exact Within.trans (by assumption) (by decide)) :
    KeepsO k s0 (execWriteDiscardHoldEnd a0 s) := by
  unfold execWriteDiscardHoldEnd
  repeat' first
    | with_reducible assumption | with_reducible refine setSagLine_keeps ?_ | with_reducible refine raise_keeps ?_ | with_reducible refine Keeps.ite ?_ ?_ | with_reducible refine Keeps.foldl _ _ ?_ _ ?_ | fail_if_no_progress ((with_reducible refine Keeps.mk' ?_ rfl rfl rfl ?_ ?_ ?_ ?_ ?_ ?_ ?_ ?_ ?_ ?_ ?_ ?_ ?_ ?_ ?_ ?_ ?_ ?_ ?_ ?_ ?_) <;> first | exact Or.inl (hm.bit (by decide)) | exact Or.inr rfl | skip) | with_reducible refine KeepsO.next ?_
    | split
    | (extract_lets +onlyGivenNames x; first | (refine Keeps.cut s0 x ?_ fun h => ?_; rotate_left; clear_value x) | skip)
    | (unfold x; fail_if_success done)
    | intro h

theorem queueWriteBack_keeps {k s0 s a1 a2} (h : Keeps k s0 s)
    (hm : Within 0x4#21 k := by first | assumption | exact Within.trans (by assumption) (by decide)) :
    Keeps k s0 (queueWriteBack s a1 a2) := by
  unfold queueWriteBack
  repeat' first
    | with_reducible assumption | with_reducible refine Keeps.ite ?_ ?_ | with_reducible refine Keeps.foldl _ _ ?_ _ ?_ | fail_if_no_progress ((with_reducible refine Keeps.mk' ?_ rfl rfl rfl ?_ ?_ ?_ ?_ ?_ ?_ ?_ ?_ ?_ ?_ ?_ ?_ ?_ ?_ ?_ ?_ ?_ ?_ ?_ ?_ ?_) <;> first | exact Or.inl (hm.bit (by decide)) | exact Or.inr rfl | skip)
    | split
    | (extract_lets +onlyGivenNames x; first | (refine Keeps.cut s0 x ?_ fun h => ?_; rotate_left; clear_value x) | skip)
    | (unfold x; fail_if_success done)
    | intro h

theorem startWriteBack_keeps {k s0 s a1} (h : Keeps k s0 s)
    (hm : Within 0x204#21 k := by first | assumption | exact Within.trans (by assumption) (by decide)) :
    Keeps k s0 (startWriteBack s a1) := by
  unfold startWriteBack
  repeat' first
    | with_reducible assumption | with_reducible refine setLeafStamp_keeps ?_ | with_reducible refine fetchSeg_keeps ?_ | with_reducible refine setSeg_keeps ?_ | with_reducible refine queueWriteBack_keeps ?_ | with_reducible refine Keeps.ite ?_ ?_ | with_reducible refine Keeps.foldl _ _ ?_ _ ?_ | fail_if_no_progress ((with_reducible refine Keeps.mk' ?_ rfl rfl rfl ?_ ?_ ?_ ?_ ?_ ?_ ?_ ?_ ?_ ?_ ?_ ?_ ?_ ?_ ?_ ?_ ?_ ?_ ?_ ?_ ?_) <;> first | exact Or.inl (hm.bit (by decide)) | exact Or.inr rfl | skip)
    | split
    | (extract_lets +onlyGivenNames x; first | (refine Keeps.cut s0 x ?_ fun h => ?_; rotate_left; clear_value x) | skip)
    | (unfold x; fail_if_success done)
    | intro h

theorem giveWay_keeps {k s0 s a1} (h : Keeps k s0 s)
    (hm : Within 0x884dc#21 k := by first | assumption | exact Within.trans (by assumption) (by decide)) :
    Keeps k s0 (giveWay s a1) := by
  unfold giveWay
  repeat' first
    | with_reducible assumption | with_reducible refine setSeg_keeps ?_ | with_reducible refine resumeSeg_keeps ?_ | with_reducible refine putSeg_keeps ?_ | with_reducible refine Keeps.ite ?_ ?_ | with_reducible refine Keeps.foldl _ _ ?_ _ ?_ | fail_if_no_progress ((with_reducible refine Keeps.mk' ?_ rfl rfl rfl ?_ ?_ ?_ ?_ ?_ ?_ ?_ ?_ ?_ ?_ ?_ ?_ ?_ ?_ ?_ ?_ ?_ ?_ ?_ ?_ ?_) <;> first | exact Or.inl (hm.bit (by decide)) | exact Or.inr rfl | skip)
    | split
    | (extract_lets +onlyGivenNames x; first | (refine Keeps.cut s0 x ?_ fun h => ?_; rotate_left; clear_value x) | skip)
    | (unfold x; fail_if_success done)
    | intro h

theorem durableLine_keeps {k s0 s a1 a2} (h : Keeps k s0 s)
    (hm : Within 0x884dc#21 k := by first | assumption | exact Within.trans (by assumption) (by decide)) :
    Keeps k s0 (durableLine s a1 a2) := by
  unfold durableLine
  repeat' first
    | with_reducible assumption | with_reducible refine giveWay_keeps ?_ | with_reducible refine setSeg_keeps ?_ | with_reducible refine Keeps.ite ?_ ?_ | with_reducible refine Keeps.foldl _ _ ?_ _ ?_ | fail_if_no_progress ((with_reducible refine Keeps.mk' ?_ rfl rfl rfl ?_ ?_ ?_ ?_ ?_ ?_ ?_ ?_ ?_ ?_ ?_ ?_ ?_ ?_ ?_ ?_ ?_ ?_ ?_ ?_ ?_) <;> first | exact Or.inl (hm.bit (by decide)) | exact Or.inr rfl | skip)
    | split
    | (extract_lets +onlyGivenNames x; first | (refine Keeps.cut s0 x ?_ fun h => ?_; rotate_left; clear_value x) | skip)
    | (unfold x; fail_if_success done)
    | intro h

theorem systemWrite_keeps {k s0 s a1 a2} (h : Keeps k s0 s)
    (hm : Within 0x20#21 k := by first | assumption | exact Within.trans (by assumption) (by decide)) :
    Keeps k s0 (systemWrite s a1 a2) := by
  unfold systemWrite
  repeat' first
    | with_reducible assumption | with_reducible refine updStripe_keeps ?_ | with_reducible refine Keeps.ite ?_ ?_ | with_reducible refine Keeps.foldl _ _ ?_ _ ?_ | fail_if_no_progress ((with_reducible refine Keeps.mk' ?_ rfl rfl rfl ?_ ?_ ?_ ?_ ?_ ?_ ?_ ?_ ?_ ?_ ?_ ?_ ?_ ?_ ?_ ?_ ?_ ?_ ?_ ?_ ?_) <;> first | exact Or.inl (hm.bit (by decide)) | exact Or.inr rfl | skip)
    | split
    | (extract_lets +onlyGivenNames x; first | (refine Keeps.cut s0 x ?_ fun h => ?_; rotate_left; clear_value x) | skip)
    | (unfold x; fail_if_success done)
    | intro h

theorem swapWrite_keeps {k s0 s a1} (h : Keeps k s0 s)
    (hm : Within 0x80024#21 k := by first | assumption | exact Within.trans (by assumption) (by decide)) :
    Keeps k s0 (swapWrite s a1) := by
  unfold swapWrite
  repeat' first
    | with_reducible assumption | with_reducible refine draw_keeps ?_ | with_reducible refine updRot_keeps ?_ | with_reducible refine systemWrite_keeps ?_ | with_reducible refine Keeps.ite ?_ ?_ | with_reducible refine Keeps.foldl _ _ ?_ _ ?_ | fail_if_no_progress ((with_reducible refine Keeps.mk' ?_ rfl rfl rfl ?_ ?_ ?_ ?_ ?_ ?_ ?_ ?_ ?_ ?_ ?_ ?_ ?_ ?_ ?_ ?_ ?_ ?_ ?_ ?_ ?_) <;> first | exact Or.inl (hm.bit (by decide)) | exact Or.inr rfl | skip)
    | split
    | (extract_lets +onlyGivenNames x; first | (refine Keeps.cut s0 x ?_ fun h => ?_; rotate_left; clear_value x) | skip)
    | (unfold x; fail_if_success done)
    | intro h
    | with_reducible refine KeepsR.elim ?_ (by assumption) | with_reducible refine KeepsL.elim ?_ (by assumption) | with_reducible refine KeepsOS.elim ?_ (by assumption) | with_reducible refine KeepsOR.elim ?_ (by assumption) | with_reducible refine KeepsOR3.elim ?_ (by assumption) | with_reducible refine KeepsL.proj ?_ | with_reducible refine KeepsR.proj ?_

theorem lineDone_keeps {k s0 s a1 a2} (h : Keeps k s0 s)
    (hm : Within 0x886dc#21 k := by first | assumption | exact Within.trans (by assumption) (by decide)) :
    Keeps k s0 (lineDone s a1 a2) := by
  unfold lineDone
  repeat' first
    | with_reducible assumption | with_reducible refine durableLine_keeps ?_ | with_reducible refine Keeps.ite ?_ ?_ | with_reducible refine Keeps.foldl _ _ ?_ _ ?_ | fail_if_no_progress ((with_reducible refine Keeps.mk' ?_ rfl rfl rfl ?_ ?_ ?_ ?_ ?_ ?_ ?_ ?_ ?_ ?_ ?_ ?_ ?_ ?_ ?_ ?_ ?_ ?_ ?_ ?_ ?_) <;> first | exact Or.inl (hm.bit (by decide)) | exact Or.inr rfl | skip)
    | split
    | (extract_lets +onlyGivenNames x; first | (refine Keeps.cut s0 x ?_ fun h => ?_; rotate_left; clear_value x) | skip)
    | (unfold x; fail_if_success done)
    | intro h

theorem writeBackDone_keeps {k s0 s a1 a2} (h : Keeps k s0 s)
    (hm : Within 0x887fc#21 k := by first | assumption | exact Within.trans (by assumption) (by decide)) :
    Keeps k s0 (writeBackDone s a1 a2) := by
  unfold writeBackDone
  repeat' first
    | with_reducible assumption | with_reducible refine setLeafLine_keeps ?_ | with_reducible refine noteProgram_keeps ?_ | with_reducible refine systemWrite_keeps ?_ | with_reducible refine updRot_keeps ?_ | with_reducible refine swapWrite_keeps ?_ | with_reducible refine lineDone_keeps ?_ | with_reducible refine Keeps.ite ?_ ?_ | with_reducible refine Keeps.foldl _ _ ?_ _ ?_ | fail_if_no_progress ((with_reducible refine Keeps.mk' ?_ rfl rfl rfl ?_ ?_ ?_ ?_ ?_ ?_ ?_ ?_ ?_ ?_ ?_ ?_ ?_ ?_ ?_ ?_ ?_ ?_ ?_ ?_ ?_) <;> first | exact Or.inl (hm.bit (by decide)) | exact Or.inr rfl | skip)
    | split
    | (extract_lets +onlyGivenNames x; first | (refine Keeps.cut s0 x ?_ fun h => ?_; rotate_left; clear_value x) | skip)
    | (unfold x; fail_if_success done)
    | intro h

theorem dropAbsent_keeps {k s0 s a1} (h : Keeps k s0 s)
    (hm : Within 0x886dc#21 k := by first | assumption | exact Within.trans (by assumption) (by decide)) :
    Keeps k s0 (dropAbsent s a1) := by
  unfold dropAbsent
  repeat' first
    | with_reducible assumption | with_reducible refine lineDone_keeps ?_ | with_reducible refine Keeps.ite ?_ ?_ | with_reducible refine Keeps.foldl _ _ ?_ _ ?_ | fail_if_no_progress ((with_reducible refine Keeps.mk' ?_ rfl rfl rfl ?_ ?_ ?_ ?_ ?_ ?_ ?_ ?_ ?_ ?_ ?_ ?_ ?_ ?_ ?_ ?_ ?_ ?_ ?_ ?_ ?_) <;> first | exact Or.inl (hm.bit (by decide)) | exact Or.inr rfl | skip)
    | split
    | (extract_lets +onlyGivenNames x; first | (refine Keeps.cut s0 x ?_ fun h => ?_; rotate_left; clear_value x) | skip)
    | (unfold x; fail_if_success done)
    | intro h

theorem forceWay_keeps {k s0 s a1} (h : Keeps k s0 s)
    (hm : Within 0x886dc#21 k := by first | assumption | exact Within.trans (by assumption) (by decide)) :
    Keeps k s0 (forceWay s a1) := by
  unfold forceWay
  repeat' first
    | with_reducible assumption | with_reducible refine giveWay_keeps ?_ | with_reducible refine startWriteBack_keeps ?_ | with_reducible refine Keeps.ite ?_ ?_ | with_reducible refine Keeps.foldl _ _ ?_ _ ?_ | fail_if_no_progress ((with_reducible refine Keeps.mk' ?_ rfl rfl rfl ?_ ?_ ?_ ?_ ?_ ?_ ?_ ?_ ?_ ?_ ?_ ?_ ?_ ?_ ?_ ?_ ?_ ?_ ?_ ?_ ?_) <;> first | exact Or.inl (hm.bit (by decide)) | exact Or.inr rfl | skip)
    | split
    | (extract_lets +onlyGivenNames x; first | (refine Keeps.cut s0 x ?_ fun h => ?_; rotate_left; clear_value x) | skip)
    | (unfold x; fail_if_success done)
    | intro h

theorem cleanAll_keeps {k s0 s} (h : Keeps k s0 s)
    (hm : Within 0x204#21 k := by first | assumption | exact Within.trans (by assumption) (by decide)) :
    Keeps k s0 (cleanAll s) := by
  unfold cleanAll
  repeat' first
    | with_reducible assumption | with_reducible refine startWriteBack_keeps ?_ | with_reducible refine Keeps.ite ?_ ?_ | with_reducible refine Keeps.foldl _ _ ?_ _ ?_ | fail_if_no_progress ((with_reducible refine Keeps.mk' ?_ rfl rfl rfl ?_ ?_ ?_ ?_ ?_ ?_ ?_ ?_ ?_ ?_ ?_ ?_ ?_ ?_ ?_ ?_ ?_ ?_ ?_ ?_ ?_) <;> first | exact Or.inl (hm.bit (by decide)) | exact Or.inr rfl | skip)
    | split
    | (extract_lets +onlyGivenNames x; first | (refine Keeps.cut s0 x ?_ fun h => ?_; rotate_left; clear_value x) | skip)
    | (unfold x; fail_if_success done)
    | intro h

theorem startRewrites_keeps {k s0 s} (h : Keeps k s0 s)
    (hm : Within 0x4#21 k := by first | assumption | exact Within.trans (by assumption) (by decide)) :
    Keeps k s0 (startRewrites s) := by
  unfold startRewrites
  repeat' first
    | with_reducible assumption | with_reducible refine rewriteReplica_keeps ?_ | with_reducible refine Keeps.ite ?_ ?_ | with_reducible refine Keeps.foldl _ _ ?_ _ ?_ | fail_if_no_progress ((with_reducible refine Keeps.mk' ?_ rfl rfl rfl ?_ ?_ ?_ ?_ ?_ ?_ ?_ ?_ ?_ ?_ ?_ ?_ ?_ ?_ ?_ ?_ ?_ ?_ ?_ ?_ ?_) <;> first | exact Or.inl (hm.bit (by decide)) | exact Or.inr rfl | skip)
    | split
    | (extract_lets +onlyGivenNames x; first | (refine Keeps.cut s0 x ?_ fun h => ?_; rotate_left; clear_value x) | skip)
    | (unfold x; fail_if_success done)
    | intro h

theorem mapUpkeep_keeps {k s0 s} (h : Keeps k s0 s)
    (hm : Within 0x886dc#21 k := by first | assumption | exact Within.trans (by assumption) (by decide)) :
    Keeps k s0 (mapUpkeep s) := by
  unfold mapUpkeep
  repeat' first
    | with_reducible assumption | with_reducible refine dropAbsent_keeps ?_ | with_reducible refine chooseWay_keeps ?_ | with_reducible refine forceWay_keeps ?_ | with_reducible refine placeWaiting_keeps ?_ | with_reducible refine cleanAll_keeps ?_ | with_reducible refine startRewrites_keeps ?_ | with_reducible refine Keeps.ite ?_ ?_ | with_reducible refine Keeps.foldl _ _ ?_ _ ?_ | fail_if_no_progress ((with_reducible refine Keeps.mk' ?_ rfl rfl rfl ?_ ?_ ?_ ?_ ?_ ?_ ?_ ?_ ?_ ?_ ?_ ?_ ?_ ?_ ?_ ?_ ?_ ?_ ?_ ?_ ?_) <;> first | exact Or.inl (hm.bit (by decide)) | exact Or.inr rfl | skip)
    | split
    | (extract_lets +onlyGivenNames x; first | (refine Keeps.cut s0 x ?_ fun h => ?_; rotate_left; clear_value x) | skip)
    | (unfold x; fail_if_success done)
    | intro h

theorem discardReports_keeps {k s0 s} (h : Keeps k s0 s)
    (hm : Within 0x100008#21 k := by first | assumption | exact Within.trans (by assumption) (by decide)) :
    Keeps k s0 (discardReports s) := by
  unfold discardReports
  repeat' first
    | with_reducible assumption | with_reducible refine reportDiscards_keeps ?_ | with_reducible refine Keeps.ite ?_ ?_ | with_reducible refine Keeps.foldl _ _ ?_ _ ?_ | fail_if_no_progress ((with_reducible refine Keeps.mk' ?_ rfl rfl rfl ?_ ?_ ?_ ?_ ?_ ?_ ?_ ?_ ?_ ?_ ?_ ?_ ?_ ?_ ?_ ?_ ?_ ?_ ?_ ?_ ?_) <;> first | exact Or.inl (hm.bit (by decide)) | exact Or.inr rfl | skip)
    | split
    | (extract_lets +onlyGivenNames x; first | (refine Keeps.cut s0 x ?_ fun h => ?_; rotate_left; clear_value x) | skip)
    | (unfold x; fail_if_success done)
    | intro h

theorem execMapCleaningVisit_keeps {k s0 a0 s} (h : Keeps k s0 s)
    (hm : Within 0x204#21 k := by first | assumption | exact Within.trans (by assumption) (by decide)) :
    KeepsO k s0 (execMapCleaningVisit a0 s) := by
  unfold execMapCleaningVisit
  repeat' first
    | with_reducible assumption | with_reducible refine startWriteBack_keeps ?_ | with_reducible refine Keeps.ite ?_ ?_ | with_reducible refine Keeps.foldl _ _ ?_ _ ?_ | fail_if_no_progress ((with_reducible refine Keeps.mk' ?_ rfl rfl rfl ?_ ?_ ?_ ?_ ?_ ?_ ?_ ?_ ?_ ?_ ?_ ?_ ?_ ?_ ?_ ?_ ?_ ?_ ?_ ?_ ?_) <;> first | exact Or.inl (hm.bit (by decide)) | exact Or.inr rfl | skip) | with_reducible refine KeepsO.next ?_
    | split
    | (extract_lets +onlyGivenNames x; first | (refine Keeps.cut s0 x ?_ fun h => ?_; rotate_left; clear_value x) | skip)
    | (unfold x; fail_if_success done)
    | intro h

theorem execMapWriteBackVerified_keeps {k s0 a0 a1 s} (h : Keeps k s0 s)
    (hm : Within 0x887fc#21 k := by first | assumption | exact Within.trans (by assumption) (by decide)) :
    KeepsO k s0 (execMapWriteBackVerified a0 a1 s) := by
  unfold execMapWriteBackVerified
  repeat' first
    | with_reducible assumption | with_reducible refine writeBackDone_keeps ?_ | with_reducible refine Keeps.ite ?_ ?_ | with_reducible refine Keeps.foldl _ _ ?_ _ ?_ | fail_if_no_progress ((with_reducible refine Keeps.mk' ?_ rfl rfl rfl ?_ ?_ ?_ ?_ ?_ ?_ ?_ ?_ ?_ ?_ ?_ ?_ ?_ ?_ ?_ ?_ ?_ ?_ ?_ ?_ ?_) <;> first | exact Or.inl (hm.bit (by decide)) | exact Or.inr rfl | skip) | with_reducible refine KeepsO.next ?_
    | split
    | (extract_lets +onlyGivenNames x; first | (refine Keeps.cut s0 x ?_ fun h => ?_; rotate_left; clear_value x) | skip)
    | (unfold x; fail_if_success done)
    | intro h

theorem execGapMove_keeps {k s0 a0 a1 s} (h : Keeps k s0 s)
    (hm : Within 0x4#21 k := by first | assumption | exact Within.trans (by assumption) (by decide)) :
    KeepsO k s0 (execGapMove a0 a1 s) := by
  unfold execGapMove
  repeat' first
    | with_reducible assumption | with_reducible refine updRot_keeps ?_ | with_reducible refine Keeps.ite ?_ ?_ | with_reducible refine Keeps.foldl _ _ ?_ _ ?_ | fail_if_no_progress ((with_reducible refine Keeps.mk' ?_ rfl rfl rfl ?_ ?_ ?_ ?_ ?_ ?_ ?_ ?_ ?_ ?_ ?_ ?_ ?_ ?_ ?_ ?_ ?_ ?_ ?_ ?_ ?_) <;> first | exact Or.inl (hm.bit (by decide)) | exact Or.inr rfl | skip) | with_reducible refine KeepsO.next ?_
    | split
    | (extract_lets +onlyGivenNames x; first | (refine Keeps.cut s0 x ?_ fun h => ?_; rotate_left; clear_value x) | skip)
    | (unfold x; fail_if_success done)
    | intro h

theorem execGapMoveVerified_keeps {k s0 a0 a1 s} (h : Keeps k s0 s)
    (hm : Within 0x100004#21 k := by first | assumption | exact Within.trans (by assumption) (by decide)) :
    KeepsO k s0 (execGapMoveVerified a0 a1 s) := by
  unfold execGapMoveVerified
  repeat' first
    | with_reducible assumption | with_reducible refine updRot_keeps ?_ | with_reducible refine keepPut_keeps ?_ | with_reducible refine Keeps.ite ?_ ?_ | with_reducible refine Keeps.foldl _ _ ?_ _ ?_ | fail_if_no_progress ((with_reducible refine Keeps.mk' ?_ rfl rfl rfl ?_ ?_ ?_ ?_ ?_ ?_ ?_ ?_ ?_ ?_ ?_ ?_ ?_ ?_ ?_ ?_ ?_ ?_ ?_ ?_ ?_) <;> first | exact Or.inl (hm.bit (by decide)) | exact Or.inr rfl | skip) | with_reducible refine KeepsO.next ?_
    | split
    | (extract_lets +onlyGivenNames x; first | (refine Keeps.cut s0 x ?_ fun h => ?_; rotate_left; clear_value x) | skip)
    | (unfold x; fail_if_success done)
    | intro h

theorem execMapStripeSwap_keeps {k s0 a0 a1 a2 a3 s} (h : Keeps k s0 s)
    (hm : Within 0x100024#21 k := by first | assumption | exact Within.trans (by assumption) (by decide)) :
    KeepsO k s0 (execMapStripeSwap a0 a1 a2 a3 s) := by
  unfold execMapStripeSwap
  repeat' first
    | with_reducible assumption | with_reducible refine updStripe_keeps ?_ | with_reducible refine updRot_keeps ?_ | with_reducible refine raise_keeps ?_ | with_reducible refine recordStripe_keeps ?_ | with_reducible refine Keeps.ite ?_ ?_ | with_reducible refine Keeps.foldl _ _ ?_ _ ?_ | fail_if_no_progress ((with_reducible refine Keeps.mk' ?_ rfl rfl rfl ?_ ?_ ?_ ?_ ?_ ?_ ?_ ?_ ?_ ?_ ?_ ?_ ?_ ?_ ?_ ?_ ?_ ?_ ?_ ?_ ?_) <;> first | exact Or.inl (hm.bit (by decide)) | exact Or.inr rfl | skip) | with_reducible refine KeepsO.next ?_
    | split
    | (extract_lets +onlyGivenNames x; first | (refine Keeps.cut s0 x ?_ fun h => ?_; rotate_left; clear_value x) | skip)
    | (unfold x; fail_if_success done)
    | intro h

/-! Drift. -/

theorem setGroup_keeps {k s0 s a1 a2 a3} (h : Keeps k s0 s)
    (hm : Within 0x40#21 k := by first | assumption | exact Within.trans (by assumption) (by decide)) :
    Keeps k s0 (setGroup s a1 a2 a3) := by
  unfold setGroup
  repeat' first
    | with_reducible assumption | with_reducible refine Keeps.ite ?_ ?_ | with_reducible refine Keeps.foldl _ _ ?_ _ ?_ | fail_if_no_progress ((with_reducible refine Keeps.mk' ?_ rfl rfl rfl ?_ ?_ ?_ ?_ ?_ ?_ ?_ ?_ ?_ ?_ ?_ ?_ ?_ ?_ ?_ ?_ ?_ ?_ ?_ ?_ ?_) <;> first | exact Or.inl (hm.bit (by decide)) | exact Or.inr rfl | skip)
    | split
    | (extract_lets +onlyGivenNames x; first | (refine Keeps.cut s0 x ?_ fun h => ?_; rotate_left; clear_value x) | skip)
    | (unfold x; fail_if_success done)
    | intro h

theorem setTune_keeps {k s0 s a1 a2 a3} (h : Keeps k s0 s)
    (hm : Within 0x40#21 k := by first | assumption | exact Within.trans (by assumption) (by decide)) :
    Keeps k s0 (setTune s a1 a2 a3) := by
  unfold setTune
  repeat' first
    | with_reducible assumption | with_reducible refine Keeps.ite ?_ ?_ | with_reducible refine Keeps.foldl _ _ ?_ _ ?_ | fail_if_no_progress ((with_reducible refine Keeps.mk' ?_ rfl rfl rfl ?_ ?_ ?_ ?_ ?_ ?_ ?_ ?_ ?_ ?_ ?_ ?_ ?_ ?_ ?_ ?_ ?_ ?_ ?_ ?_ ?_) <;> first | exact Or.inl (hm.bit (by decide)) | exact Or.inr rfl | skip)
    | split
    | (extract_lets +onlyGivenNames x; first | (refine Keeps.cut s0 x ?_ fun h => ?_; rotate_left; clear_value x) | skip)
    | (unfold x; fail_if_success done)
    | intro h

theorem eachGroup_keeps {k s0 s a1} (h : Keeps k s0 s)
    (hm : Within 0x40#21 k := by first | assumption | exact Within.trans (by assumption) (by decide)) :
    Keeps k s0 (eachGroup s a1) := by
  unfold eachGroup
  repeat' first
    | with_reducible assumption | with_reducible refine setGroup_keeps ?_ | with_reducible refine Keeps.ite ?_ ?_ | with_reducible refine Keeps.foldl _ _ ?_ _ ?_ | fail_if_no_progress ((with_reducible refine Keeps.mk' ?_ rfl rfl rfl ?_ ?_ ?_ ?_ ?_ ?_ ?_ ?_ ?_ ?_ ?_ ?_ ?_ ?_ ?_ ?_ ?_ ?_ ?_ ?_ ?_) <;> first | exact Or.inl (hm.bit (by decide)) | exact Or.inr rfl | skip)
    | split
    | (extract_lets +onlyGivenNames x; first | (refine Keeps.cut s0 x ?_ fun h => ?_; rotate_left; clear_value x) | skip)
    | (unfold x; fail_if_success done)
    | intro h

theorem catchUp_keeps {k s0 s a1 a2} (h : Keeps k s0 s)
    (hm : Within 0x40#21 k := by first | assumption | exact Within.trans (by assumption) (by decide)) :
    Keeps k s0 (catchUp s a1 a2) := by
  unfold catchUp
  repeat' first
    | with_reducible assumption | with_reducible refine eachGroup_keeps ?_ | with_reducible refine Keeps.ite ?_ ?_ | with_reducible refine Keeps.foldl _ _ ?_ _ ?_ | fail_if_no_progress ((with_reducible refine Keeps.mk' ?_ rfl rfl rfl ?_ ?_ ?_ ?_ ?_ ?_ ?_ ?_ ?_ ?_ ?_ ?_ ?_ ?_ ?_ ?_ ?_ ?_ ?_ ?_ ?_) <;> first | exact Or.inl (hm.bit (by decide)) | exact Or.inr rfl | skip)
    | split
    | (extract_lets +onlyGivenNames x; first | (refine Keeps.cut s0 x ?_ fun h => ?_; rotate_left; clear_value x) | skip)
    | (unfold x; fail_if_success done)
    | intro h

theorem execDriftTick_keeps {k s0 s} (h : Keeps k s0 s)
    (hm : Within 0x40#21 k := by first | assumption | exact Within.trans (by assumption) (by decide)) :
    KeepsO k s0 (execDriftTick s) := by
  unfold execDriftTick
  repeat' first
    | with_reducible assumption | with_reducible refine eachGroup_keeps ?_ | with_reducible refine Keeps.ite ?_ ?_ | with_reducible refine Keeps.foldl _ _ ?_ _ ?_ | fail_if_no_progress ((with_reducible refine Keeps.mk' ?_ rfl rfl rfl ?_ ?_ ?_ ?_ ?_ ?_ ?_ ?_ ?_ ?_ ?_ ?_ ?_ ?_ ?_ ?_ ?_ ?_ ?_ ?_ ?_) <;> first | exact Or.inl (hm.bit (by decide)) | exact Or.inr rfl | skip) | with_reducible refine KeepsO.next ?_
    | split
    | (extract_lets +onlyGivenNames x; first | (refine Keeps.cut s0 x ?_ fun h => ?_; rotate_left; clear_value x) | skip)
    | (unfold x; fail_if_success done)
    | intro h

theorem saveDrift_keeps {k s0 s} (h : Keeps k s0 s)
    (hm : Within 0x40#21 k := by first | assumption | exact Within.trans (by assumption) (by decide)) :
    Keeps k s0 (saveDrift s) := by
  unfold saveDrift
  repeat' first
    | with_reducible assumption | with_reducible refine Keeps.ite ?_ ?_ | with_reducible refine Keeps.foldl _ _ ?_ _ ?_ | fail_if_no_progress ((with_reducible refine Keeps.mk' ?_ rfl rfl rfl ?_ ?_ ?_ ?_ ?_ ?_ ?_ ?_ ?_ ?_ ?_ ?_ ?_ ?_ ?_ ?_ ?_ ?_ ?_ ?_ ?_) <;> first | exact Or.inl (hm.bit (by decide)) | exact Or.inr rfl | skip)
    | split
    | (extract_lets +onlyGivenNames x; first | (refine Keeps.cut s0 x ?_ fun h => ?_; rotate_left; clear_value x) | skip)
    | (unfold x; fail_if_success done)
    | intro h

theorem execDriftStateSave_keeps {k s0 s} (h : Keeps k s0 s)
    (hm : Within 0x40#21 k := by first | assumption | exact Within.trans (by assumption) (by decide)) :
    KeepsO k s0 (execDriftStateSave s) := by
  unfold execDriftStateSave
  repeat' first
    | with_reducible assumption | with_reducible refine saveDrift_keeps ?_ | with_reducible refine Keeps.ite ?_ ?_ | with_reducible refine Keeps.foldl _ _ ?_ _ ?_ | fail_if_no_progress ((with_reducible refine Keeps.mk' ?_ rfl rfl rfl ?_ ?_ ?_ ?_ ?_ ?_ ?_ ?_ ?_ ?_ ?_ ?_ ?_ ?_ ?_ ?_ ?_ ?_ ?_ ?_ ?_) <;> first | exact Or.inl (hm.bit (by decide)) | exact Or.inr rfl | skip) | with_reducible refine KeepsO.next ?_
    | split
    | (extract_lets +onlyGivenNames x; first | (refine Keeps.cut s0 x ?_ fun h => ?_; rotate_left; clear_value x) | skip)
    | (unfold x; fail_if_success done)
    | intro h

theorem execConeCapture_keeps {k s0 a0 s} (h : Keeps k s0 s)
    (hm : Within 0x40#21 k := by first | assumption | exact Within.trans (by assumption) (by decide)) :
    KeepsO k s0 (execConeCapture a0 s) := by
  unfold execConeCapture
  repeat' first
    | with_reducible assumption | with_reducible refine Keeps.ite ?_ ?_ | with_reducible refine Keeps.foldl _ _ ?_ _ ?_ | fail_if_no_progress ((with_reducible refine Keeps.mk' ?_ rfl rfl rfl ?_ ?_ ?_ ?_ ?_ ?_ ?_ ?_ ?_ ?_ ?_ ?_ ?_ ?_ ?_ ?_ ?_ ?_ ?_ ?_ ?_) <;> first | exact Or.inl (hm.bit (by decide)) | exact Or.inr rfl | skip) | with_reducible refine KeepsO.next ?_
    | split
    | (extract_lets +onlyGivenNames x; first | (refine Keeps.cut s0 x ?_ fun h => ?_; rotate_left; clear_value x) | skip)
    | (unfold x; fail_if_success done)
    | intro h

theorem targetCapture_keeps {k s0 s a1 a2} (h : Keeps k s0 s)
    (hm : Within 0x40#21 k := by first | assumption | exact Within.trans (by assumption) (by decide)) :
    Keeps k s0 (targetCapture s a1 a2) := by
  unfold targetCapture
  repeat' first
    | with_reducible assumption | with_reducible refine Keeps.ite ?_ ?_ | with_reducible refine Keeps.foldl _ _ ?_ _ ?_ | fail_if_no_progress ((with_reducible refine Keeps.mk' ?_ rfl rfl rfl ?_ ?_ ?_ ?_ ?_ ?_ ?_ ?_ ?_ ?_ ?_ ?_ ?_ ?_ ?_ ?_ ?_ ?_ ?_ ?_ ?_) <;> first | exact Or.inl (hm.bit (by decide)) | exact Or.inr rfl | skip)
    | split
    | (extract_lets +onlyGivenNames x; first | (refine Keeps.cut s0 x ?_ fun h => ?_; rotate_left; clear_value x) | skip)
    | (unfold x; fail_if_success done)
    | intro h

theorem queueReload_keeps {k s0 s a1 a2} (h : Keeps k s0 s)
    (hm : Within 0x40#21 k := by first | assumption | exact Within.trans (by assumption) (by decide)) :
    Keeps k s0 (queueReload s a1 a2) := by
  unfold queueReload
  repeat' first
    | with_reducible assumption | with_reducible refine Keeps.ite ?_ ?_ | with_reducible refine Keeps.foldl _ _ ?_ _ ?_ | fail_if_no_progress ((with_reducible refine Keeps.mk' ?_ rfl rfl rfl ?_ ?_ ?_ ?_ ?_ ?_ ?_ ?_ ?_ ?_ ?_ ?_ ?_ ?_ ?_ ?_ ?_ ?_ ?_ ?_ ?_) <;> first | exact Or.inl (hm.bit (by decide)) | exact Or.inr rfl | skip)
    | split
    | (extract_lets +onlyGivenNames x; first | (refine Keeps.cut s0 x ?_ fun h => ?_; rotate_left; clear_value x) | skip)
    | (unfold x; fail_if_success done)
    | intro h

theorem driftMasks_keeps {k s0 s a1 a2 a3 a4 a5} (h : Keeps k s0 s)
    (hm : Within 0x100040#21 k := by first | assumption | exact Within.trans (by assumption) (by decide)) :
    Keeps k s0 (driftMasks s a1 a2 a3 a4 a5) := by
  unfold driftMasks
  repeat' first
    | with_reducible assumption | with_reducible refine setGroup_keeps ?_ | with_reducible refine queueReload_keeps ?_ | with_reducible refine raise_keeps ?_ | with_reducible refine Keeps.ite ?_ ?_ | with_reducible refine Keeps.foldl _ _ ?_ _ ?_ | fail_if_no_progress ((with_reducible refine Keeps.mk' ?_ rfl rfl rfl ?_ ?_ ?_ ?_ ?_ ?_ ?_ ?_ ?_ ?_ ?_ ?_ ?_ ?_ ?_ ?_ ?_ ?_ ?_ ?_ ?_) <;> first | exact Or.inl (hm.bit (by decide)) | exact Or.inr rfl | skip)
    | split
    | (extract_lets +onlyGivenNames x; first | (refine Keeps.cut s0 x ?_ fun h => ?_; rotate_left; clear_value x) | skip)
    | (unfold x; fail_if_success done)
    | intro h

theorem targetMasks_keeps {k s0 s a1 a2 a3} (h : Keeps k s0 s)
    (hm : Within 0x40#21 k := by first | assumption | exact Within.trans (by assumption) (by decide)) :
    Keeps k s0 (targetMasks s a1 a2 a3) := by
  unfold targetMasks
  repeat' first
    | with_reducible assumption | with_reducible refine setTune_keeps ?_ | with_reducible refine queueReload_keeps ?_ | with_reducible refine Keeps.ite ?_ ?_ | with_reducible refine Keeps.foldl _ _ ?_ _ ?_ | fail_if_no_progress ((with_reducible refine Keeps.mk' ?_ rfl rfl rfl ?_ ?_ ?_ ?_ ?_ ?_ ?_ ?_ ?_ ?_ ?_ ?_ ?_ ?_ ?_ ?_ ?_ ?_ ?_ ?_ ?_) <;> first | exact Or.inl (hm.bit (by decide)) | exact Or.inr rfl | skip)
    | split
    | (extract_lets +onlyGivenNames x; first | (refine Keeps.cut s0 x ?_ fun h => ?_; rotate_left; clear_value x) | skip)
    | (unfold x; fail_if_success done)
    | intro h

theorem execConeMasks_keeps {k s0 a0 a1 a2 a3 s} (h : Keeps k s0 s)
    (hm : Within 0x100440#21 k := by first | assumption | exact Within.trans (by assumption) (by decide)) :
    KeepsO k s0 (execConeMasks a0 a1 a2 a3 s) := by
  unfold execConeMasks
  repeat' first
    | with_reducible assumption | with_reducible refine targetMasks_keeps ?_ | with_reducible refine driftMasks_keeps ?_ | with_reducible refine Keeps.ite ?_ ?_ | with_reducible refine Keeps.foldl _ _ ?_ _ ?_ | fail_if_no_progress ((with_reducible refine Keeps.mk' ?_ rfl rfl rfl ?_ ?_ ?_ ?_ ?_ ?_ ?_ ?_ ?_ ?_ ?_ ?_ ?_ ?_ ?_ ?_ ?_ ?_ ?_ ?_ ?_) <;> first | exact Or.inl (hm.bit (by decide)) | exact Or.inr rfl | skip) | with_reducible refine KeepsO.next ?_
    | split
    | (extract_lets +onlyGivenNames x; first | (refine Keeps.cut s0 x ?_ fun h => ?_; rotate_left; clear_value x) | skip)
    | (unfold x; fail_if_success done)
    | intro h

theorem stepUpdate_keeps {k s0 s a1 a2 a3} (h : Keeps k s0 s)
    (hm : Within 0x40#21 k := by first | assumption | exact Within.trans (by assumption) (by decide)) :
    Keeps k s0 (stepUpdate s a1 a2 a3) := by
  unfold stepUpdate
  repeat' first
    | with_reducible assumption | with_reducible refine setTune_keeps ?_ | with_reducible refine Keeps.ite ?_ ?_ | with_reducible refine Keeps.foldl _ _ ?_ _ ?_ | fail_if_no_progress ((with_reducible refine Keeps.mk' ?_ rfl rfl rfl ?_ ?_ ?_ ?_ ?_ ?_ ?_ ?_ ?_ ?_ ?_ ?_ ?_ ?_ ?_ ?_ ?_ ?_ ?_ ?_ ?_) <;> first | exact Or.inl (hm.bit (by decide)) | exact Or.inr rfl | skip)
    | split
    | (extract_lets +onlyGivenNames x; first | (refine Keeps.cut s0 x ?_ fun h => ?_; rotate_left; clear_value x) | skip)
    | (unfold x; fail_if_success done)
    | intro h

theorem resetRungs_keeps {k s0 s} (h : Keeps k s0 s)
    (hm : Within 0x40#21 k := by first | assumption | exact Within.trans (by assumption) (by decide)) :
    Keeps k s0 (resetRungs s) := by
  unfold resetRungs
  repeat' first
    | with_reducible assumption | with_reducible refine Keeps.ite ?_ ?_ | with_reducible refine Keeps.foldl _ _ ?_ _ ?_ | fail_if_no_progress ((with_reducible refine Keeps.mk' ?_ rfl rfl rfl ?_ ?_ ?_ ?_ ?_ ?_ ?_ ?_ ?_ ?_ ?_ ?_ ?_ ?_ ?_ ?_ ?_ ?_ ?_ ?_ ?_) <;> first | exact Or.inl (hm.bit (by decide)) | exact Or.inr rfl | skip)
    | split
    | (extract_lets +onlyGivenNames x; first | (refine Keeps.cut s0 x ?_ fun h => ?_; rotate_left; clear_value x) | skip)
    | (unfold x; fail_if_success done)
    | intro h

theorem continuityLoss_keeps {k s0 s} (h : Keeps k s0 s)
    (hm : Within 0x61#21 k := by first | assumption | exact Within.trans (by assumption) (by decide)) :
    Keeps k s0 (continuityLoss s) := by
  unfold continuityLoss
  repeat' first
    | with_reducible assumption | with_reducible refine resetRungs_keeps ?_ | with_reducible refine updStripe_keeps ?_ | with_reducible refine Keeps.ite ?_ ?_ | with_reducible refine Keeps.foldl _ _ ?_ _ ?_ | fail_if_no_progress ((with_reducible refine Keeps.mk' ?_ rfl rfl rfl ?_ ?_ ?_ ?_ ?_ ?_ ?_ ?_ ?_ ?_ ?_ ?_ ?_ ?_ ?_ ?_ ?_ ?_ ?_ ?_ ?_) <;> first | exact Or.inl (hm.bit (by decide)) | exact Or.inr rfl | skip)
    | split
    | (extract_lets +onlyGivenNames x; first | (refine Keeps.cut s0 x ?_ fun h => ?_; rotate_left; clear_value x) | skip)
    | (unfold x; fail_if_success done)
    | intro h

theorem resumeCones_keeps {k s0 s a1} (h : Keeps k s0 s)
    (hm : Within 0x450#21 k := by first | assumption | exact Within.trans (by assumption) (by decide)) :
    Keeps k s0 (resumeCones s a1) := by
  unfold resumeCones
  repeat' first
    | with_reducible assumption | with_reducible refine commandRead_keeps ?_ | with_reducible refine Keeps.ite ?_ ?_ | with_reducible refine Keeps.foldl _ _ ?_ _ ?_ | fail_if_no_progress ((with_reducible refine Keeps.mk' ?_ rfl rfl rfl ?_ ?_ ?_ ?_ ?_ ?_ ?_ ?_ ?_ ?_ ?_ ?_ ?_ ?_ ?_ ?_ ?_ ?_ ?_ ?_ ?_) <;> first | exact Or.inl (hm.bit (by decide)) | exact Or.inr rfl | skip)
    | split
    | (extract_lets +onlyGivenNames x; first | (refine Keeps.cut s0 x ?_ fun h => ?_; rotate_left; clear_value x) | skip)
    | (unfold x; fail_if_success done)
    | intro h

theorem releaseCones_keeps {k s0 s a1} (h : Keeps k s0 s)
    (hm : Within 0x450#21 k := by first | assumption | exact Within.trans (by assumption) (by decide)) :
    Keeps k s0 (releaseCones s a1) := by
  unfold releaseCones
  repeat' first
    | with_reducible assumption | with_reducible refine resumeCones_keeps ?_ | with_reducible refine Keeps.ite ?_ ?_ | with_reducible refine Keeps.foldl _ _ ?_ _ ?_ | fail_if_no_progress ((with_reducible refine Keeps.mk' ?_ rfl rfl rfl ?_ ?_ ?_ ?_ ?_ ?_ ?_ ?_ ?_ ?_ ?_ ?_ ?_ ?_ ?_ ?_ ?_ ?_ ?_ ?_ ?_) <;> first | exact Or.inl (hm.bit (by decide)) | exact Or.inr rfl | skip)
    | split
    | (extract_lets +onlyGivenNames x; first | (refine Keeps.cut s0 x ?_ fun h => ?_; rotate_left; clear_value x) | skip)
    | (unfold x; fail_if_success done)
    | intro h

theorem endSweep_keeps {k s0 s} (h : Keeps k s0 s)
    (hm : Within 0x100040#21 k := by first | assumption | exact Within.trans (by assumption) (by decide)) :
    Keeps k s0 (endSweep s) := by
  unfold endSweep
  repeat' first
    | with_reducible assumption | with_reducible refine raise_keeps ?_ | with_reducible refine Keeps.ite ?_ ?_ | with_reducible refine Keeps.foldl _ _ ?_ _ ?_ | fail_if_no_progress ((with_reducible refine Keeps.mk' ?_ rfl rfl rfl ?_ ?_ ?_ ?_ ?_ ?_ ?_ ?_ ?_ ?_ ?_ ?_ ?_ ?_ ?_ ?_ ?_ ?_ ?_ ?_ ?_) <;> first | exact Or.inl (hm.bit (by decide)) | exact Or.inr rfl | skip)
    | split
    | (extract_lets +onlyGivenNames x; first | (refine Keeps.cut s0 x ?_ fun h => ?_; rotate_left; clear_value x) | skip)
    | (unfold x; fail_if_success done)
    | intro h

theorem execStripeSweep_keeps {k s0 a0 a1 s} (h : Keeps k s0 s)
    (hm : Within 0x100470#21 k := by first | assumption | exact Within.trans (by assumption) (by decide)) :
    KeepsO k s0 (execStripeSweep a0 a1 s) := by
  unfold execStripeSweep
  repeat' first
    | with_reducible assumption | with_reducible refine updStripe_keeps ?_ | with_reducible refine resumeCones_keeps ?_ | with_reducible refine endSweep_keeps ?_ | with_reducible refine Keeps.ite ?_ ?_ | with_reducible refine Keeps.foldl _ _ ?_ _ ?_ | fail_if_no_progress ((with_reducible refine Keeps.mk' ?_ rfl rfl rfl ?_ ?_ ?_ ?_ ?_ ?_ ?_ ?_ ?_ ?_ ?_ ?_ ?_ ?_ ?_ ?_ ?_ ?_ ?_ ?_ ?_) <;> first | exact Or.inl (hm.bit (by decide)) | exact Or.inr rfl | skip) | with_reducible refine KeepsO.next ?_
    | split
    | (extract_lets +onlyGivenNames x; first | (refine Keeps.cut s0 x ?_ fun h => ?_; rotate_left; clear_value x) | skip)
    | (unfold x; fail_if_success done)
    | intro h

/-! Place. -/

theorem setOpen_keeps {k s0 s a1 a2 a3} (h : Keeps k s0 s)
    (hm : Within 0x20#21 k := by first | assumption | exact Within.trans (by assumption) (by decide)) :
    Keeps k s0 (setOpen s a1 a2 a3) := by
  unfold setOpen
  repeat' first
    | with_reducible assumption | with_reducible refine updRank_keeps ?_ | with_reducible refine Keeps.ite ?_ ?_ | with_reducible refine Keeps.foldl _ _ ?_ _ ?_ | fail_if_no_progress ((with_reducible refine Keeps.mk' ?_ rfl rfl rfl ?_ ?_ ?_ ?_ ?_ ?_ ?_ ?_ ?_ ?_ ?_ ?_ ?_ ?_ ?_ ?_ ?_ ?_ ?_ ?_ ?_) <;> first | exact Or.inl (hm.bit (by decide)) | exact Or.inr rfl | skip)
    | split
    | (extract_lets +onlyGivenNames x; first | (refine Keeps.cut s0 x ?_ fun h => ?_; rotate_left; clear_value x) | skip)
    | (unfold x; fail_if_success done)
    | intro h

theorem updOpen_keeps {k s0 s a1 a2 a3} (h : Keeps k s0 s)
    (hm : Within 0x20#21 k := by first | assumption | exact Within.trans (by assumption) (by decide)) :
    Keeps k s0 (updOpen s a1 a2 a3) := by
  unfold updOpen
  repeat' first
    | with_reducible assumption | with_reducible refine setOpen_keeps ?_ | with_reducible refine Keeps.ite ?_ ?_ | with_reducible refine Keeps.foldl _ _ ?_ _ ?_ | fail_if_no_progress ((with_reducible refine Keeps.mk' ?_ rfl rfl rfl ?_ ?_ ?_ ?_ ?_ ?_ ?_ ?_ ?_ ?_ ?_ ?_ ?_ ?_ ?_ ?_ ?_ ?_ ?_ ?_ ?_) <;> first | exact Or.inl (hm.bit (by decide)) | exact Or.inr rfl | skip)
    | split
    | (extract_lets +onlyGivenNames x; first | (refine Keeps.cut s0 x ?_ fun h => ?_; rotate_left; clear_value x) | skip)
    | (unfold x; fail_if_success done)
    | intro h

theorem openStripe_keeps {k s0 s a1 a2} (h : Keeps k s0 s)
    (hm : Within 0x20#21 k := by first | assumption | exact Within.trans (by assumption) (by decide)) :
    Keeps k s0 (openStripe s a1 a2) := by
  unfold openStripe
  repeat' first
    | with_reducible assumption | with_reducible refine updStripe_keeps ?_ | with_reducible refine setOpen_keeps ?_ | with_reducible refine Keeps.ite ?_ ?_ | with_reducible refine Keeps.foldl _ _ ?_ _ ?_ | fail_if_no_progress ((with_reducible refine Keeps.mk' ?_ rfl rfl rfl ?_ ?_ ?_ ?_ ?_ ?_ ?_ ?_ ?_ ?_ ?_ ?_ ?_ ?_ ?_ ?_ ?_ ?_ ?_ ?_ ?_) <;> first | exact Or.inl (hm.bit (by decide)) | exact Or.inr rfl | skip)
    | split
    | (extract_lets +onlyGivenNames x; first | (refine Keeps.cut s0 x ?_ fun h => ?_; rotate_left; clear_value x) | skip)
    | (unfold x; fail_if_success done)
    | intro h

theorem closeStripe_keeps {k s0 s a1 a2} (h : Keeps k s0 s)
    (hm : Within 0x20#21 k := by first | assumption | exact Within.trans (by assumption) (by decide)) :
    Keeps k s0 (closeStripe s a1 a2) := by
  unfold closeStripe
  repeat' first
    | with_reducible assumption | with_reducible refine setOpen_keeps ?_ | with_reducible refine updStripe_keeps ?_ | with_reducible refine Keeps.ite ?_ ?_ | with_reducible refine Keeps.foldl _ _ ?_ _ ?_ | fail_if_no_progress ((with_reducible refine Keeps.mk' ?_ rfl rfl rfl ?_ ?_ ?_ ?_ ?_ ?_ ?_ ?_ ?_ ?_ ?_ ?_ ?_ ?_ ?_ ?_ ?_ ?_ ?_ ?_ ?_) <;> first | exact Or.inl (hm.bit (by decide)) | exact Or.inr rfl | skip)
    | split
    | (extract_lets +onlyGivenNames x; first | (refine Keeps.cut s0 x ?_ fun h => ?_; rotate_left; clear_value x) | skip)
    | (unfold x; fail_if_success done)
    | intro h

theorem beginClose_keeps {k s0 s a1 a2} (h : Keeps k s0 s)
    (hm : Within 0x20#21 k := by first | assumption | exact Within.trans (by assumption) (by decide)) :
    Keeps k s0 (beginClose s a1 a2) := by
  unfold beginClose
  repeat' first
    | with_reducible assumption | with_reducible refine closeStripe_keeps ?_ | with_reducible refine updOpen_keeps ?_ | with_reducible refine Keeps.ite ?_ ?_ | with_reducible refine Keeps.foldl _ _ ?_ _ ?_ | fail_if_no_progress ((with_reducible refine Keeps.mk' ?_ rfl rfl rfl ?_ ?_ ?_ ?_ ?_ ?_ ?_ ?_ ?_ ?_ ?_ ?_ ?_ ?_ ?_ ?_ ?_ ?_ ?_ ?_ ?_) <;> first | exact Or.inl (hm.bit (by decide)) | exact Or.inr rfl | skip)
    | split
    | (extract_lets +onlyGivenNames x; first | (refine Keeps.cut s0 x ?_ fun h => ?_; rotate_left; clear_value x) | skip)
    | (unfold x; fail_if_success done)
    | intro h

theorem fetchSlots_keeps {k s0 s a1} (h : Keeps k s0 s)
    (hm : Within 0x4#21 k := by first | assumption | exact Within.trans (by assumption) (by decide)) :
    Keeps k s0 (fetchSlots s a1) := by
  unfold fetchSlots
  repeat' first
    | with_reducible assumption | with_reducible refine touchSeg_keeps ?_ | with_reducible refine fetchSeg_keeps ?_ | with_reducible refine Keeps.ite ?_ ?_ | with_reducible refine Keeps.foldl _ _ ?_ _ ?_ | fail_if_no_progress ((with_reducible refine Keeps.mk' ?_ rfl rfl rfl ?_ ?_ ?_ ?_ ?_ ?_ ?_ ?_ ?_ ?_ ?_ ?_ ?_ ?_ ?_ ?_ ?_ ?_ ?_ ?_ ?_) <;> first | exact Or.inl (hm.bit (by decide)) | exact Or.inr rfl | skip)
    | split
    | (extract_lets +onlyGivenNames x; first | (refine Keeps.cut s0 x ?_ fun h => ?_; rotate_left; clear_value x) | skip)
    | (unfold x; fail_if_success done)
    | intro h

theorem setQueue_keeps {k s0 s a1 a2} (h : Keeps k s0 s)
    (hm : Within 0x20#21 k := by first | assumption | exact Within.trans (by assumption) (by decide)) :
    Keeps k s0 (setQueue s a1 a2) := by
  unfold setQueue
  repeat' first
    | with_reducible assumption | with_reducible refine updRank_keeps ?_ | with_reducible refine Keeps.ite ?_ ?_ | with_reducible refine Keeps.foldl _ _ ?_ _ ?_ | fail_if_no_progress ((with_reducible refine Keeps.mk' ?_ rfl rfl rfl ?_ ?_ ?_ ?_ ?_ ?_ ?_ ?_ ?_ ?_ ?_ ?_ ?_ ?_ ?_ ?_ ?_ ?_ ?_ ?_ ?_) <;> first | exact Or.inl (hm.bit (by decide)) | exact Or.inr rfl | skip)
    | split
    | (extract_lets +onlyGivenNames x; first | (refine Keeps.cut s0 x ?_ fun h => ?_; rotate_left; clear_value x) | skip)
    | (unfold x; fail_if_success done)
    | intro h

theorem execFireQueueWalk_keeps {k s0 a0 a1 s} (h : Keeps k s0 s)
    (hm : Within 0x24#21 k := by first | assumption | exact Within.trans (by assumption) (by decide)) :
    KeepsO k s0 (execFireQueueWalk a0 a1 s) := by
  unfold execFireQueueWalk
  repeat' first
    | with_reducible assumption | with_reducible refine fetchSlots_keeps ?_ | with_reducible refine updRank_keeps ?_ | with_reducible refine setQueue_keeps ?_ | with_reducible refine Keeps.ite ?_ ?_ | with_reducible refine Keeps.foldl _ _ ?_ _ ?_ | fail_if_no_progress ((with_reducible refine Keeps.mk' ?_ rfl rfl rfl ?_ ?_ ?_ ?_ ?_ ?_ ?_ ?_ ?_ ?_ ?_ ?_ ?_ ?_ ?_ ?_ ?_ ?_ ?_ ?_ ?_) <;> first | exact Or.inl (hm.bit (by decide)) | exact Or.inr rfl | skip) | with_reducible refine KeepsO.next ?_
    | split
    | (extract_lets +onlyGivenNames x; first | (refine Keeps.cut s0 x ?_ fun h => ?_; rotate_left; clear_value x) | skip)
    | (unfold x; fail_if_success done)
    | intro h

theorem poisonLost_keeps {k s0 s a1 a2} (h : Keeps k s0 s)
    (hm : Within 0x1002ac#21 k := by first | assumption | exact Within.trans (by assumption) (by decide)) :
    Keeps k s0 (poisonLost s a1 a2) := by
  unfold poisonLost
  repeat' first
    | with_reducible assumption | with_reducible refine poisonFromMedia_keeps ?_ | with_reducible refine Keeps.ite ?_ ?_ | with_reducible refine Keeps.foldl _ _ ?_ _ ?_ | fail_if_no_progress ((with_reducible refine Keeps.mk' ?_ rfl rfl rfl ?_ ?_ ?_ ?_ ?_ ?_ ?_ ?_ ?_ ?_ ?_ ?_ ?_ ?_ ?_ ?_ ?_ ?_ ?_ ?_ ?_) <;> first | exact Or.inl (hm.bit (by decide)) | exact Or.inr rfl | skip)
    | split
    | (extract_lets +onlyGivenNames x; first | (refine Keeps.cut s0 x ?_ fun h => ?_; rotate_left; clear_value x) | skip)
    | (unfold x; fail_if_success done)
    | intro h

theorem holdTaken_keeps {k s0 s a1 a2} (h : Keeps k s0 s)
    (hm : Within 0x8#21 k := by first | assumption | exact Within.trans (by assumption) (by decide)) :
    Keeps k s0 (holdTaken s a1 a2) := by
  unfold holdTaken
  repeat' first
    | with_reducible assumption | with_reducible refine setSagLine_keeps ?_ | with_reducible refine Keeps.ite ?_ ?_ | with_reducible refine Keeps.foldl _ _ ?_ _ ?_ | fail_if_no_progress ((with_reducible refine Keeps.mk' ?_ rfl rfl rfl ?_ ?_ ?_ ?_ ?_ ?_ ?_ ?_ ?_ ?_ ?_ ?_ ?_ ?_ ?_ ?_ ?_ ?_ ?_ ?_ ?_) <;> first | exact Or.inl (hm.bit (by decide)) | exact Or.inr rfl | skip)
    | split
    | (extract_lets +onlyGivenNames x; first | (refine Keeps.cut s0 x ?_ fun h => ?_; rotate_left; clear_value x) | skip)
    | (unfold x; fail_if_success done)
    | intro h

theorem takePage_keeps {k s0 s a1 a2 a3} (h : Keeps k s0 s)
    (hm : Within 0x1002ac#21 k := by first | assumption | exact Within.trans (by assumption) (by decide)) : KeepsL k s0 (takePage s a1 a2 a3) := by
  unfold takePage
  extract_lets s1
  have h1 : Keeps k s0 s1 := fetchSeg_keeps h
  clear_value s1
  split
  · exact KeepsL.mk h1
  · extract_lets stamp
    clear_value stamp
    split
    · exact KeepsL.mk (askCeiling_keeps h1)
    · exact KeepsL.mk (holdTaken_keeps (poisonLost_keeps h1))

theorem copyPage_keeps {k s0 s a1 a2} (h : Keeps k s0 s)
    (hm : Within 0x4#21 k := by first | assumption | exact Within.trans (by assumption) (by decide)) :
    KeepsL k s0 (copyPage s a1 a2) := by
  unfold copyPage
  repeat' first
    | with_reducible assumption | with_reducible refine fetchSeg_keeps ?_ | with_reducible refine Keeps.ite ?_ ?_ | with_reducible refine Keeps.foldl _ _ ?_ _ ?_ | fail_if_no_progress ((with_reducible refine Keeps.mk' ?_ rfl rfl rfl ?_ ?_ ?_ ?_ ?_ ?_ ?_ ?_ ?_ ?_ ?_ ?_ ?_ ?_ ?_ ?_ ?_ ?_ ?_ ?_ ?_) <;> first | exact Or.inl (hm.bit (by decide)) | exact Or.inr rfl | skip) | with_reducible refine KeepsL.mk ?_
    | split
    | (extract_lets +onlyGivenNames x; first | (refine Keeps.cut s0 x ?_ fun h => ?_; rotate_left; clear_value x) | skip)
    | (unfold x; fail_if_success done)
    | intro h

theorem startFiring_keeps {k s0 s a1 a2 a3 a4} (h : Keeps k s0 s)
    (hm : Within 0x1002ac#21 k := by first | assumption | exact Within.trans (by assumption) (by decide)) : Keeps k s0 (startFiring s a1 a2 a3 a4) := by
  unfold startFiring
  extract_lets s1
  have h1 : Keeps k s0 s1 := openStripe_keeps h
  split
  next => exact h1
  next o _ =>
    extract_lets w x
    refine .ite h1 ?_
    have hx : Keeps k s0 x.1 := by
      have key : ∀ (l : List Nat) (y : State × List FirePage), Keeps k s0 y.1 →
          Keeps k s0 (l.foldl (fun (x : State × List FirePage) page =>
            let slot := slotNo o.bs w x.2.length
            let conv := if inSwitch x.1 page then migOf x.1 page else none
            let (s, f) := if a4 page then copyPage x.1 page slot else takePage x.1 page slot conv
            (s, x.2 ++ f.toList)) y).1 := by
        intro l
        induction l with
        | nil => exact fun _ hy => hy
        | cons p l ih =>
          intro y hy
          refine ih _ ?_
          dsimp only
          split
          · exact copyPage_keeps hy
          · exact takePage_keeps hy
      exact key a3 (s1, []) h1
    exact .ite hx (updRank_keeps hx)

theorem hostFiring_keeps {k s0 s a1 a2 a3} (h : Keeps k s0 s)
    (hm : Within 0x1002ac#21 k := by first | assumption | exact Within.trans (by assumption) (by decide)) :
    Keeps k s0 (hostFiring s a1 a2 a3) := by
  unfold hostFiring
  repeat' first
    | with_reducible assumption | with_reducible refine setQueue_keeps ?_ | with_reducible refine startFiring_keeps ?_ | with_reducible refine Keeps.ite ?_ ?_ | with_reducible refine Keeps.foldl _ _ ?_ _ ?_ | fail_if_no_progress ((with_reducible refine Keeps.mk' ?_ rfl rfl rfl ?_ ?_ ?_ ?_ ?_ ?_ ?_ ?_ ?_ ?_ ?_ ?_ ?_ ?_ ?_ ?_ ?_ ?_ ?_ ?_ ?_) <;> first | exact Or.inl (hm.bit (by decide)) | exact Or.inr rfl | skip)
    | split
    | (extract_lets +onlyGivenNames x; first | (refine Keeps.cut s0 x ?_ fun h => ?_; rotate_left; clear_value x) | skip)
    | (unfold x; fail_if_success done)
    | intro h

theorem fetchVictim_keeps {k s0 s a1} (h : Keeps k s0 s)
    (hm : Within 0x4#21 k := by first | assumption | exact Within.trans (by assumption) (by decide)) :
    Keeps k s0 (fetchVictim s a1) := by
  unfold fetchVictim
  repeat' first
    | with_reducible assumption | with_reducible refine fetchSlots_keeps ?_ | with_reducible refine Keeps.ite ?_ ?_ | with_reducible refine Keeps.foldl _ _ ?_ _ ?_ | fail_if_no_progress ((with_reducible refine Keeps.mk' ?_ rfl rfl rfl ?_ ?_ ?_ ?_ ?_ ?_ ?_ ?_ ?_ ?_ ?_ ?_ ?_ ?_ ?_ ?_ ?_ ?_ ?_ ?_ ?_) <;> first | exact Or.inl (hm.bit (by decide)) | exact Or.inr rfl | skip)
    | split
    | (extract_lets +onlyGivenNames x; first | (refine Keeps.cut s0 x ?_ fun h => ?_; rotate_left; clear_value x) | skip)
    | (unfold x; fail_if_success done)
    | intro h

theorem execFiringStart_keeps {k s0 a0 a1 s} (h : Keeps k s0 s)
    (hm : Within 0x1002ac#21 k := by first | assumption | exact Within.trans (by assumption) (by decide)) :
    KeepsO k s0 (execFiringStart a0 a1 s) := by
  unfold execFiringStart
  repeat' first
    | with_reducible assumption | with_reducible refine hostFiring_keeps ?_ | with_reducible refine fetchVictim_keeps ?_ | with_reducible refine startFiring_keeps ?_ | with_reducible refine updRank_keeps ?_ | with_reducible refine Keeps.ite ?_ ?_ | with_reducible refine Keeps.foldl _ _ ?_ _ ?_ | fail_if_no_progress ((with_reducible refine Keeps.mk' ?_ rfl rfl rfl ?_ ?_ ?_ ?_ ?_ ?_ ?_ ?_ ?_ ?_ ?_ ?_ ?_ ?_ ?_ ?_ ?_ ?_ ?_ ?_ ?_) <;> first | exact Or.inl (hm.bit (by decide)) | exact Or.inr rfl | skip) | with_reducible refine KeepsO.next ?_
    | split
    | (extract_lets +onlyGivenNames x; first | (refine Keeps.cut s0 x ?_ fun h => ?_; rotate_left; clear_value x) | skip)
    | (unfold x; fail_if_success done)
    | intro h

theorem execFireWaitExpiry_keeps {k s0 a0 s} (h : Keeps k s0 s)
    (hm : Within 0x1002ac#21 k := by first | assumption | exact Within.trans (by assumption) (by decide)) :
    KeepsO k s0 (execFireWaitExpiry a0 s) := by
  unfold execFireWaitExpiry
  repeat' first
    | with_reducible assumption | with_reducible refine hostFiring_keeps ?_ | with_reducible refine Keeps.ite ?_ ?_ | with_reducible refine Keeps.foldl _ _ ?_ _ ?_ | fail_if_no_progress ((with_reducible refine Keeps.mk' ?_ rfl rfl rfl ?_ ?_ ?_ ?_ ?_ ?_ ?_ ?_ ?_ ?_ ?_ ?_ ?_ ?_ ?_ ?_ ?_ ?_ ?_ ?_ ?_) <;> first | exact Or.inl (hm.bit (by decide)) | exact Or.inr rfl | skip) | with_reducible refine KeepsO.next ?_
    | split
    | (extract_lets +onlyGivenNames x; first | (refine Keeps.cut s0 x ?_ fun h => ?_; rotate_left; clear_value x) | skip)
    | (unfold x; fail_if_success done)
    | intro h

theorem programWordLine_keeps {k s0 s a1} (h : Keeps k s0 s)
    (hm : Within 0x4#21 k := by first | assumption | exact Within.trans (by assumption) (by decide)) :
    Keeps k s0 (programWordLine s a1) := by
  unfold programWordLine
  repeat' first
    | with_reducible assumption | with_reducible refine setMedia_keeps ?_ | with_reducible refine Keeps.ite ?_ ?_ | with_reducible refine Keeps.foldl _ _ ?_ _ ?_ | fail_if_no_progress ((with_reducible refine Keeps.mk' ?_ rfl rfl rfl ?_ ?_ ?_ ?_ ?_ ?_ ?_ ?_ ?_ ?_ ?_ ?_ ?_ ?_ ?_ ?_ ?_ ?_ ?_ ?_ ?_) <;> first | exact Or.inl (hm.bit (by decide)) | exact Or.inr rfl | skip)
    | split
    | (extract_lets +onlyGivenNames x; first | (refine Keeps.cut s0 x ?_ fun h => ?_; rotate_left; clear_value x) | skip)
    | (unfold x; fail_if_success done)
    | intro h

theorem leaveQueues_keeps {k s0 s a1} (h : Keeps k s0 s)
    (hm : Within 0x20#21 k := by first | assumption | exact Within.trans (by assumption) (by decide)) :
    Keeps k s0 (leaveQueues s a1) := by
  unfold leaveQueues
  repeat' first
    | with_reducible assumption | with_reducible refine Keeps.ite ?_ ?_ | with_reducible refine Keeps.foldl _ _ ?_ _ ?_ | fail_if_no_progress ((with_reducible refine Keeps.mk' ?_ rfl rfl rfl ?_ ?_ ?_ ?_ ?_ ?_ ?_ ?_ ?_ ?_ ?_ ?_ ?_ ?_ ?_ ?_ ?_ ?_ ?_ ?_ ?_) <;> first | exact Or.inl (hm.bit (by decide)) | exact Or.inr rfl | skip)
    | split
    | (extract_lets +onlyGivenNames x; first | (refine Keeps.cut s0 x ?_ fun h => ?_; rotate_left; clear_value x) | skip)
    | (unfold x; fail_if_success done)
    | intro h

theorem firedPage_keeps {k s0 s a1} (h : Keeps k s0 s)
    (hm : Within 0x2ac#21 k := by first | assumption | exact Within.trans (by assumption) (by decide)) :
    Keeps k s0 (firedPage s a1) := by
  unfold firedPage
  repeat' first
    | with_reducible assumption | with_reducible refine setEntry_keeps ?_ | with_reducible refine claimSlot_keeps ?_ | with_reducible refine dropStamps_keeps ?_ | with_reducible refine leaveQueues_keeps ?_ | with_reducible refine releaseSlot_keeps ?_ | with_reducible refine releaseLine_keeps ?_ | with_reducible refine poisonLeave_keeps ?_ | with_reducible refine stampCrossings_keeps ?_ | with_reducible refine Keeps.ite ?_ ?_ | with_reducible refine Keeps.foldl _ _ ?_ _ ?_ | fail_if_no_progress ((with_reducible refine Keeps.mk' ?_ rfl rfl rfl ?_ ?_ ?_ ?_ ?_ ?_ ?_ ?_ ?_ ?_ ?_ ?_ ?_ ?_ ?_ ?_ ?_ ?_ ?_ ?_ ?_) <;> first | exact Or.inl (hm.bit (by decide)) | exact Or.inr rfl | skip)
    | split
    | (extract_lets +onlyGivenNames x; first | (refine Keeps.cut s0 x ?_ fun h => ?_; rotate_left; clear_value x) | skip)
    | (unfold x; fail_if_success done)
    | intro h

theorem mapFired_keeps {k s0 s a1} (h : Keeps k s0 s)
    (hm : Within 0x2ac#21 k := by first | assumption | exact Within.trans (by assumption) (by decide)) :
    Keeps k s0 (mapFired s a1) := by
  unfold mapFired
  repeat' first
    | with_reducible assumption | with_reducible refine fetchSeg_keeps ?_ | with_reducible refine updMig_keeps ?_ | with_reducible refine setSagLine_keeps ?_ | with_reducible refine setEntry_keeps ?_ | with_reducible refine leaveQueues_keeps ?_ | with_reducible refine releaseSlot_keeps ?_ | with_reducible refine claimSlot_keeps ?_ | with_reducible refine firedPage_keeps ?_ | with_reducible refine Keeps.ite ?_ ?_ | with_reducible refine Keeps.foldl _ _ ?_ _ ?_ | fail_if_no_progress ((with_reducible refine Keeps.mk' ?_ rfl rfl rfl ?_ ?_ ?_ ?_ ?_ ?_ ?_ ?_ ?_ ?_ ?_ ?_ ?_ ?_ ?_ ?_ ?_ ?_ ?_ ?_ ?_) <;> first | exact Or.inl (hm.bit (by decide)) | exact Or.inr rfl | skip)
    | split
    | (extract_lets +onlyGivenNames x; first | (refine Keeps.cut s0 x ?_ fun h => ?_; rotate_left; clear_value x) | skip)
    | (unfold x; fail_if_success done)
    | intro h

theorem settleVictim_keeps {k s0 s a1} (h : Keeps k s0 s)
    (hm : Within 0x20#21 k := by first | assumption | exact Within.trans (by assumption) (by decide)) :
    Keeps k s0 (settleVictim s a1) := by
  unfold settleVictim
  repeat' first
    | with_reducible assumption | with_reducible refine updRank_keeps ?_ | with_reducible refine Keeps.ite ?_ ?_ | with_reducible refine Keeps.foldl _ _ ?_ _ ?_ | fail_if_no_progress ((with_reducible refine Keeps.mk' ?_ rfl rfl rfl ?_ ?_ ?_ ?_ ?_ ?_ ?_ ?_ ?_ ?_ ?_ ?_ ?_ ?_ ?_ ?_ ?_ ?_ ?_ ?_ ?_) <;> first | exact Or.inl (hm.bit (by decide)) | exact Or.inr rfl | skip)
    | split
    | (extract_lets +onlyGivenNames x; first | (refine Keeps.cut s0 x ?_ fun h => ?_; rotate_left; clear_value x) | skip)
    | (unfold x; fail_if_success done)
    | intro h

theorem finishFiring_keeps {k s0 s a1 a2 a3} (h : Keeps k s0 s)
    (hm : Within 0x83ec#21 k := by first | assumption | exact Within.trans (by assumption) (by decide)) :
    Keeps k s0 (finishFiring s a1 a2 a3) := by
  unfold finishFiring
  repeat' first
    | with_reducible assumption | with_reducible refine updRank_keeps ?_ | with_reducible refine programWordLine_keeps ?_ | with_reducible refine noteProgram_keeps ?_ | with_reducible refine updStripe_keeps ?_ | with_reducible refine stepUpdate_keeps ?_ | with_reducible refine updOpen_keeps ?_ | with_reducible refine mapFired_keeps ?_ | with_reducible refine count_keeps ?_ | with_reducible refine settleVictim_keeps ?_ | with_reducible refine beginClose_keeps ?_ | with_reducible refine Keeps.ite ?_ ?_ | with_reducible refine Keeps.foldl _ _ ?_ _ ?_ | fail_if_no_progress ((with_reducible refine Keeps.mk' ?_ rfl rfl rfl ?_ ?_ ?_ ?_ ?_ ?_ ?_ ?_ ?_ ?_ ?_ ?_ ?_ ?_ ?_ ?_ ?_ ?_ ?_ ?_ ?_) <;> first | exact Or.inl (hm.bit (by decide)) | exact Or.inr rfl | skip)
    | split
    | (extract_lets +onlyGivenNames x; first | (refine Keeps.cut s0 x ?_ fun h => ?_; rotate_left; clear_value x) | skip)
    | (unfold x; fail_if_success done)
    | intro h

theorem execWordLineVerified_keeps {k s0 a0 a1 a2 s} (h : Keeps k s0 s)
    (hm : Within 0x83ec#21 k := by first | assumption | exact Within.trans (by assumption) (by decide)) :
    KeepsO k s0 (execWordLineVerified a0 a1 a2 s) := by
  unfold execWordLineVerified
  repeat' first
    | with_reducible assumption | with_reducible refine finishFiring_keeps ?_ | with_reducible refine Keeps.ite ?_ ?_ | with_reducible refine Keeps.foldl _ _ ?_ _ ?_ | fail_if_no_progress ((with_reducible refine Keeps.mk' ?_ rfl rfl rfl ?_ ?_ ?_ ?_ ?_ ?_ ?_ ?_ ?_ ?_ ?_ ?_ ?_ ?_ ?_ ?_ ?_ ?_ ?_ ?_ ?_) <;> first | exact Or.inl (hm.bit (by decide)) | exact Or.inr rfl | skip) | with_reducible refine KeepsO.next ?_
    | split
    | (extract_lets +onlyGivenNames x; first | (refine Keeps.cut s0 x ?_ fun h => ?_; rotate_left; clear_value x) | skip)
    | (unfold x; fail_if_success done)
    | intro h

theorem execReclaimMoveVerified_keeps {k s0 a0 s} (h : Keeps k s0 s)
    (hm : Within 0x83ec#21 k := by first | assumption | exact Within.trans (by assumption) (by decide)) :
    KeepsO k s0 (execReclaimMoveVerified a0 s) := by
  unfold execReclaimMoveVerified
  repeat' first
    | with_reducible assumption | with_reducible refine finishFiring_keeps ?_ | with_reducible refine Keeps.ite ?_ ?_ | with_reducible refine Keeps.foldl _ _ ?_ _ ?_ | fail_if_no_progress ((with_reducible refine Keeps.mk' ?_ rfl rfl rfl ?_ ?_ ?_ ?_ ?_ ?_ ?_ ?_ ?_ ?_ ?_ ?_ ?_ ?_ ?_ ?_ ?_ ?_ ?_ ?_ ?_) <;> first | exact Or.inl (hm.bit (by decide)) | exact Or.inr rfl | skip) | with_reducible refine KeepsO.next ?_
    | split
    | (extract_lets +onlyGivenNames x; first | (refine Keeps.cut s0 x ?_ fun h => ?_; rotate_left; clear_value x) | skip)
    | (unfold x; fail_if_success done)
    | intro h

theorem queueRefreshStripe_keeps {k s0 s a1 a2} (h : Keeps k s0 s)
    (hm : Within 0x20#21 k := by first | assumption | exact Within.trans (by assumption) (by decide)) :
    Keeps k s0 (queueRefreshStripe s a1 a2) := by
  unfold queueRefreshStripe
  repeat' first
    | with_reducible assumption | with_reducible refine updRank_keeps ?_ | with_reducible refine Keeps.ite ?_ ?_ | with_reducible refine Keeps.foldl _ _ ?_ _ ?_ | fail_if_no_progress ((with_reducible refine Keeps.mk' ?_ rfl rfl rfl ?_ ?_ ?_ ?_ ?_ ?_ ?_ ?_ ?_ ?_ ?_ ?_ ?_ ?_ ?_ ?_ ?_ ?_ ?_ ?_ ?_) <;> first | exact Or.inl (hm.bit (by decide)) | exact Or.inr rfl | skip)
    | split
    | (extract_lets +onlyGivenNames x; first | (refine Keeps.cut s0 x ?_ fun h => ?_; rotate_left; clear_value x) | skip)
    | (unfold x; fail_if_success done)
    | intro h

theorem execGuardVerifyPass_keeps {k s0 a0 a1 a2 a3 s} (h : Keeps k s0 s)
    (hm : Within 0x1002ac#21 k := by first | assumption | exact Within.trans (by assumption) (by decide)) :
    KeepsO k s0 (execGuardVerifyPass a0 a1 a2 a3 s) := by
  unfold execGuardVerifyPass
  repeat' first
    | with_reducible assumption | with_reducible refine fetchSlots_keeps ?_ | with_reducible refine poisonFromMedia_keeps ?_ | with_reducible refine queueRefreshStripe_keeps ?_ | with_reducible refine updOpen_keeps ?_ | with_reducible refine Keeps.ite ?_ ?_ | with_reducible refine Keeps.foldl _ _ ?_ _ ?_ | fail_if_no_progress ((with_reducible refine Keeps.mk' ?_ rfl rfl rfl ?_ ?_ ?_ ?_ ?_ ?_ ?_ ?_ ?_ ?_ ?_ ?_ ?_ ?_ ?_ ?_ ?_ ?_ ?_ ?_ ?_) <;> first | exact Or.inl (hm.bit (by decide)) | exact Or.inr rfl | skip) | with_reducible refine KeepsO.next ?_
    | split
    | (extract_lets +onlyGivenNames x; first | (refine Keeps.cut s0 x ?_ fun h => ?_; rotate_left; clear_value x) | skip)
    | (unfold x; fail_if_success done)
    | intro h

theorem execGuardPassComplete_keeps {k s0 a0 a1 a2 s} (h : Keeps k s0 s)
    (hm : Within 0x60#21 k := by first | assumption | exact Within.trans (by assumption) (by decide)) :
    KeepsO k s0 (execGuardPassComplete a0 a1 a2 s) := by
  unfold execGuardPassComplete
  repeat' first
    | with_reducible assumption | with_reducible refine updOpen_keeps ?_ | with_reducible refine targetCapture_keeps ?_ | with_reducible refine beginClose_keeps ?_ | with_reducible refine Keeps.ite ?_ ?_ | with_reducible refine Keeps.foldl _ _ ?_ _ ?_ | fail_if_no_progress ((with_reducible refine Keeps.mk' ?_ rfl rfl rfl ?_ ?_ ?_ ?_ ?_ ?_ ?_ ?_ ?_ ?_ ?_ ?_ ?_ ?_ ?_ ?_ ?_ ?_ ?_ ?_ ?_) <;> first | exact Or.inl (hm.bit (by decide)) | exact Or.inr rfl | skip) | with_reducible refine KeepsO.next ?_
    | split
    | (extract_lets +onlyGivenNames x; first | (refine Keeps.cut s0 x ?_ fun h => ?_; rotate_left; clear_value x) | skip)
    | (unfold x; fail_if_success done)
    | intro h

theorem tearWordLine_keeps {k s0 s a1 a2} (h : Keeps k s0 s)
    (hm : Within 0x4#21 k := by first | assumption | exact Within.trans (by assumption) (by decide)) :
    Keeps k s0 (tearWordLine s a1 a2) := by
  unfold tearWordLine
  repeat' first
    | with_reducible assumption | with_reducible refine setMedia_keeps ?_ | with_reducible refine Keeps.ite ?_ ?_ | with_reducible refine Keeps.foldl _ _ ?_ _ ?_ | fail_if_no_progress ((with_reducible refine Keeps.mk' ?_ rfl rfl rfl ?_ ?_ ?_ ?_ ?_ ?_ ?_ ?_ ?_ ?_ ?_ ?_ ?_ ?_ ?_ ?_ ?_ ?_ ?_ ?_ ?_) <;> first | exact Or.inl (hm.bit (by decide)) | exact Or.inr rfl | skip)
    | split
    | (extract_lets +onlyGivenNames x; first | (refine Keeps.cut s0 x ?_ fun h => ?_; rotate_left; clear_value x) | skip)
    | (unfold x; fail_if_success done)
    | intro h

theorem tearFiring_keeps {k s0 s a1} (h : Keeps k s0 s)
    (hm : Within 0x80004#21 k := by first | assumption | exact Within.trans (by assumption) (by decide)) :
    Keeps k s0 (tearFiring s a1) := by
  unfold tearFiring
  repeat' first
    | with_reducible assumption | with_reducible refine draw_keeps ?_ | with_reducible refine tearWordLine_keeps ?_ | with_reducible refine Keeps.ite ?_ ?_ | with_reducible refine Keeps.foldl _ _ ?_ _ ?_ | fail_if_no_progress ((with_reducible refine Keeps.mk' ?_ rfl rfl rfl ?_ ?_ ?_ ?_ ?_ ?_ ?_ ?_ ?_ ?_ ?_ ?_ ?_ ?_ ?_ ?_ ?_ ?_ ?_ ?_ ?_) <;> first | exact Or.inl (hm.bit (by decide)) | exact Or.inr rfl | skip)
    | split
    | (extract_lets +onlyGivenNames x; first | (refine Keeps.cut s0 x ?_ fun h => ?_; rotate_left; clear_value x) | skip)
    | (unfold x; fail_if_success done)
    | intro h
    | with_reducible refine KeepsR.elim ?_ (by assumption) | with_reducible refine KeepsL.elim ?_ (by assumption) | with_reducible refine KeepsOS.elim ?_ (by assumption) | with_reducible refine KeepsOR.elim ?_ (by assumption) | with_reducible refine KeepsOR3.elim ?_ (by assumption) | with_reducible refine KeepsL.proj ?_ | with_reducible refine KeepsR.proj ?_

theorem dropFiring_keeps {k s0 s a1 a2} (h : Keeps k s0 s)
    (hm : Within 0x28#21 k := by first | assumption | exact Within.trans (by assumption) (by decide)) :
    Keeps k s0 (dropFiring s a1 a2) := by
  unfold dropFiring
  repeat' first
    | with_reducible assumption | with_reducible refine updRank_keeps ?_ | with_reducible refine setSagLine_keeps ?_ | with_reducible refine setQueue_keeps ?_ | with_reducible refine queueRefreshStripe_keeps ?_ | with_reducible refine Keeps.ite ?_ ?_ | with_reducible refine Keeps.foldl _ _ ?_ _ ?_ | fail_if_no_progress ((with_reducible refine Keeps.mk' ?_ rfl rfl rfl ?_ ?_ ?_ ?_ ?_ ?_ ?_ ?_ ?_ ?_ ?_ ?_ ?_ ?_ ?_ ?_ ?_ ?_ ?_ ?_ ?_) <;> first | exact Or.inl (hm.bit (by decide)) | exact Or.inr rfl | skip)
    | split
    | (extract_lets +onlyGivenNames x; first | (refine Keeps.cut s0 x ?_ fun h => ?_; rotate_left; clear_value x) | skip)
    | (unfold x; fail_if_success done)
    | intro h

theorem closeAll_keeps {k s0 s a1} (h : Keeps k s0 s)
    (hm : Within 0x8002c#21 k := by first | assumption | exact Within.trans (by assumption) (by decide)) :
    Keeps k s0 (closeAll s a1) := by
  unfold closeAll
  repeat' first
    | with_reducible assumption | with_reducible refine dropFiring_keeps ?_ | with_reducible refine tearFiring_keeps ?_ | with_reducible refine beginClose_keeps ?_ | with_reducible refine Keeps.ite ?_ ?_ | with_reducible refine Keeps.foldl _ _ ?_ _ ?_ | fail_if_no_progress ((with_reducible refine Keeps.mk' ?_ rfl rfl rfl ?_ ?_ ?_ ?_ ?_ ?_ ?_ ?_ ?_ ?_ ?_ ?_ ?_ ?_ ?_ ?_ ?_ ?_ ?_ ?_ ?_) <;> first | exact Or.inl (hm.bit (by decide)) | exact Or.inr rfl | skip)
    | split
    | (extract_lets +onlyGivenNames x; first | (refine Keeps.cut s0 x ?_ fun h => ?_; rotate_left; clear_value x) | skip)
    | (unfold x; fail_if_success done)
    | intro h

theorem closeOpen_keeps {k s0 s a1 a2} (h : Keeps k s0 s)
    (hm : Within 0x8002c#21 k := by first | assumption | exact Within.trans (by assumption) (by decide)) :
    Keeps k s0 (closeOpen s a1 a2) := by
  unfold closeOpen
  repeat' first
    | with_reducible assumption | with_reducible refine beginClose_keeps ?_ | with_reducible refine dropFiring_keeps ?_ | with_reducible refine tearFiring_keeps ?_ | with_reducible refine Keeps.ite ?_ ?_ | with_reducible refine Keeps.foldl _ _ ?_ _ ?_ | fail_if_no_progress ((with_reducible refine Keeps.mk' ?_ rfl rfl rfl ?_ ?_ ?_ ?_ ?_ ?_ ?_ ?_ ?_ ?_ ?_ ?_ ?_ ?_ ?_ ?_ ?_ ?_ ?_ ?_ ?_) <;> first | exact Or.inl (hm.bit (by decide)) | exact Or.inr rfl | skip)
    | split
    | (extract_lets +onlyGivenNames x; first | (refine Keeps.cut s0 x ?_ fun h => ?_; rotate_left; clear_value x) | skip)
    | (unfold x; fail_if_success done)
    | intro h

theorem failProgram_keeps {k s0 s a1 a2} (h : Keeps k s0 s)
    (hm : Within 0x2c#21 k := by first | assumption | exact Within.trans (by assumption) (by decide)) :
    Keeps k s0 (failProgram s a1 a2) := by
  unfold failProgram
  repeat' first
    | with_reducible assumption | with_reducible refine dropFiring_keeps ?_ | with_reducible refine tearWordLine_keeps ?_ | with_reducible refine beginClose_keeps ?_ | with_reducible refine updRank_keeps ?_ | with_reducible refine Keeps.ite ?_ ?_ | with_reducible refine Keeps.foldl _ _ ?_ _ ?_ | fail_if_no_progress ((with_reducible refine Keeps.mk' ?_ rfl rfl rfl ?_ ?_ ?_ ?_ ?_ ?_ ?_ ?_ ?_ ?_ ?_ ?_ ?_ ?_ ?_ ?_ ?_ ?_ ?_ ?_ ?_) <;> first | exact Or.inl (hm.bit (by decide)) | exact Or.inr rfl | skip)
    | split
    | (extract_lets +onlyGivenNames x; first | (refine Keeps.cut s0 x ?_ fun h => ?_; rotate_left; clear_value x) | skip)
    | (unfold x; fail_if_success done)
    | intro h

theorem execBlockStripeRecordWrite_keeps {k s0 a0 s} (h : Keeps k s0 s)
    (hm : Within 0x20#21 k := by first | assumption | exact Within.trans (by assumption) (by decide)) :
    KeepsO k s0 (execBlockStripeRecordWrite a0 s) := by
  unfold execBlockStripeRecordWrite
  repeat' first
    | with_reducible assumption | with_reducible refine recordStripe_keeps ?_ | with_reducible refine Keeps.ite ?_ ?_ | with_reducible refine Keeps.foldl _ _ ?_ _ ?_ | fail_if_no_progress ((with_reducible refine Keeps.mk' ?_ rfl rfl rfl ?_ ?_ ?_ ?_ ?_ ?_ ?_ ?_ ?_ ?_ ?_ ?_ ?_ ?_ ?_ ?_ ?_ ?_ ?_ ?_ ?_) <;> first | exact Or.inl (hm.bit (by decide)) | exact Or.inr rfl | skip) | with_reducible refine KeepsO.next ?_
    | split
    | (extract_lets +onlyGivenNames x; first | (refine Keeps.cut s0 x ?_ fun h => ?_; rotate_left; clear_value x) | skip)
    | (unfold x; fail_if_success done)
    | intro h

theorem execBlankingStart_keeps {k s0 a0 s} (h : Keeps k s0 s)
    (hm : Within 0x100120#21 k := by first | assumption | exact Within.trans (by assumption) (by decide)) :
    KeepsO k s0 (execBlankingStart a0 s) := by
  unfold execBlankingStart
  repeat' first
    | with_reducible assumption | with_reducible refine retireStripe_keeps ?_ | with_reducible refine updStripe_keeps ?_ | with_reducible refine updRank_keeps ?_ | with_reducible refine recordStripe_keeps ?_ | with_reducible refine Keeps.ite ?_ ?_ | with_reducible refine Keeps.foldl _ _ ?_ _ ?_ | fail_if_no_progress ((with_reducible refine Keeps.mk' ?_ rfl rfl rfl ?_ ?_ ?_ ?_ ?_ ?_ ?_ ?_ ?_ ?_ ?_ ?_ ?_ ?_ ?_ ?_ ?_ ?_ ?_ ?_ ?_) <;> first | exact Or.inl (hm.bit (by decide)) | exact Or.inr rfl | skip) | with_reducible refine KeepsO.next ?_
    | split
    | (extract_lets +onlyGivenNames x; first | (refine Keeps.cut s0 x ?_ fun h => ?_; rotate_left; clear_value x) | skip)
    | (unfold x; fail_if_success done)
    | intro h

theorem blanked_keeps {k s0 s a1} (h : Keeps k s0 s)
    (hm : Within 0x304#21 k := by first | assumption | exact Within.trans (by assumption) (by decide)) : Keeps k s0 (blanked s a1) := by
  unfold blanked
  refine Keeps.foldl _ _ (fun t n k => ?_) _ (h.same' rfl rfl rfl rfl)
  dsimp only
  exact .ite (updLinkWear_keeps (.ite (updLinkWear_keeps k) k)) (.ite (updLinkWear_keeps k) k)

theorem tearAll_keeps {k s0 s} (h : Keeps k s0 s)
    (hm : Within 0x8000c#21 k := by first | assumption | exact Within.trans (by assumption) (by decide)) :
    Keeps k s0 (tearAll s) := by
  unfold tearAll
  repeat' first
    | with_reducible assumption | with_reducible refine tearDrains_keeps ?_ | with_reducible refine tearFiring_keeps ?_ | with_reducible refine draw_keeps ?_ | with_reducible refine Keeps.ite ?_ ?_ | with_reducible refine Keeps.foldl _ _ ?_ _ ?_ | fail_if_no_progress ((with_reducible refine Keeps.mk' ?_ rfl rfl rfl ?_ ?_ ?_ ?_ ?_ ?_ ?_ ?_ ?_ ?_ ?_ ?_ ?_ ?_ ?_ ?_ ?_ ?_ ?_ ?_ ?_) <;> first | exact Or.inl (hm.bit (by decide)) | exact Or.inr rfl | skip)
    | split
    | (extract_lets +onlyGivenNames x; first | (refine Keeps.cut s0 x ?_ fun h => ?_; rotate_left; clear_value x) | skip)
    | (unfold x; fail_if_success done)
    | intro h
    | with_reducible refine KeepsR.elim ?_ (by assumption) | with_reducible refine KeepsL.elim ?_ (by assumption) | with_reducible refine KeepsOS.elim ?_ (by assumption) | with_reducible refine KeepsOR.elim ?_ (by assumption) | with_reducible refine KeepsOR3.elim ?_ (by assumption) | with_reducible refine KeepsL.proj ?_ | with_reducible refine KeepsR.proj ?_

theorem execBlankingComplete_keeps {k s0 a0 s} (h : Keeps k s0 s)
    (hm : Within 0x100364#21 k := by first | assumption | exact Within.trans (by assumption) (by decide)) :
    KeepsO k s0 (execBlankingComplete a0 s) := by
  unfold execBlankingComplete
  repeat' first
    | with_reducible assumption | with_reducible refine noteProgram_keeps ?_ | with_reducible refine blanked_keeps ?_ | with_reducible refine updStripe_keeps ?_ | with_reducible refine endSweep_keeps ?_ | with_reducible refine updRank_keeps ?_ | with_reducible refine recordStripe_keeps ?_ | with_reducible refine Keeps.ite ?_ ?_ | with_reducible refine Keeps.foldl _ _ ?_ _ ?_ | fail_if_no_progress ((with_reducible refine Keeps.mk' ?_ rfl rfl rfl ?_ ?_ ?_ ?_ ?_ ?_ ?_ ?_ ?_ ?_ ?_ ?_ ?_ ?_ ?_ ?_ ?_ ?_ ?_ ?_ ?_) <;> first | exact Or.inl (hm.bit (by decide)) | exact Or.inr rfl | skip) | with_reducible refine KeepsO.next ?_
    | split
    | (extract_lets +onlyGivenNames x; first | (refine Keeps.cut s0 x ?_ fun h => ?_; rotate_left; clear_value x) | skip)
    | (unfold x; fail_if_success done)
    | intro h

theorem makeVictim_keeps {k s0 s a1 a2} (h : Keeps k s0 s)
    (hm : Within 0x20#21 k := by first | assumption | exact Within.trans (by assumption) (by decide)) :
    Keeps k s0 (makeVictim s a1 a2) := by
  unfold makeVictim
  repeat' first
    | with_reducible assumption | with_reducible refine updRank_keeps ?_ | with_reducible refine updStripe_keeps ?_ | with_reducible refine settleVictim_keeps ?_ | with_reducible refine Keeps.ite ?_ ?_ | with_reducible refine Keeps.foldl _ _ ?_ _ ?_ | fail_if_no_progress ((with_reducible refine Keeps.mk' ?_ rfl rfl rfl ?_ ?_ ?_ ?_ ?_ ?_ ?_ ?_ ?_ ?_ ?_ ?_ ?_ ?_ ?_ ?_ ?_ ?_ ?_ ?_ ?_) <;> first | exact Or.inl (hm.bit (by decide)) | exact Or.inr rfl | skip)
    | split
    | (extract_lets +onlyGivenNames x; first | (refine Keeps.cut s0 x ?_ fun h => ?_; rotate_left; clear_value x) | skip)
    | (unfold x; fail_if_success done)
    | intro h

theorem execReclaimStart_keeps {k s0 a0 s} (h : Keeps k s0 s)
    (hm : Within 0x20#21 k := by first | assumption | exact Within.trans (by assumption) (by decide)) :
    KeepsO k s0 (execReclaimStart a0 s) := by
  unfold execReclaimStart
  repeat' first
    | with_reducible assumption | with_reducible refine updRank_keeps ?_ | with_reducible refine makeVictim_keeps ?_ | with_reducible refine Keeps.ite ?_ ?_ | with_reducible refine Keeps.foldl _ _ ?_ _ ?_ | fail_if_no_progress ((with_reducible refine Keeps.mk' ?_ rfl rfl rfl ?_ ?_ ?_ ?_ ?_ ?_ ?_ ?_ ?_ ?_ ?_ ?_ ?_ ?_ ?_ ?_ ?_ ?_ ?_ ?_ ?_) <;> first | exact Or.inl (hm.bit (by decide)) | exact Or.inr rfl | skip) | with_reducible refine KeepsO.next ?_
    | split
    | (extract_lets +onlyGivenNames x; first | (refine Keeps.cut s0 x ?_ fun h => ?_; rotate_left; clear_value x) | skip)
    | (unfold x; fail_if_success done)
    | intro h

theorem execLevellingCheck_keeps {k s0 a0 s} (h : Keeps k s0 s)
    (hm : Within 0x20#21 k := by first | assumption | exact Within.trans (by assumption) (by decide)) :
    KeepsO k s0 (execLevellingCheck a0 s) := by
  unfold execLevellingCheck
  repeat' first
    | with_reducible assumption | with_reducible refine makeVictim_keeps ?_ | with_reducible refine Keeps.ite ?_ ?_ | with_reducible refine Keeps.foldl _ _ ?_ _ ?_ | fail_if_no_progress ((with_reducible refine Keeps.mk' ?_ rfl rfl rfl ?_ ?_ ?_ ?_ ?_ ?_ ?_ ?_ ?_ ?_ ?_ ?_ ?_ ?_ ?_ ?_ ?_ ?_ ?_ ?_ ?_) <;> first | exact Or.inl (hm.bit (by decide)) | exact Or.inr rfl | skip) | with_reducible refine KeepsO.next ?_
    | split
    | (extract_lets +onlyGivenNames x; first | (refine Keeps.cut s0 x ?_ fun h => ?_; rotate_left; clear_value x) | skip)
    | (unfold x; fail_if_success done)
    | intro h

theorem execVictimRelease_keeps {k s0 a0 s} (h : Keeps k s0 s)
    (hm : Within 0x100324#21 k := by first | assumption | exact Within.trans (by assumption) (by decide)) :
    KeepsO k s0 (execVictimRelease a0 s) := by
  unfold execVictimRelease
  repeat' first
    | with_reducible assumption | with_reducible refine checkSpareStripes_keeps ?_ | with_reducible refine updStripe_keeps ?_ | with_reducible refine startWriteBack_keeps ?_ | with_reducible refine Keeps.ite ?_ ?_ | with_reducible refine Keeps.foldl _ _ ?_ _ ?_ | fail_if_no_progress ((with_reducible refine Keeps.mk' ?_ rfl rfl rfl ?_ ?_ ?_ ?_ ?_ ?_ ?_ ?_ ?_ ?_ ?_ ?_ ?_ ?_ ?_ ?_ ?_ ?_ ?_ ?_ ?_) <;> first | exact Or.inl (hm.bit (by decide)) | exact Or.inr rfl | skip) | with_reducible refine KeepsO.next ?_
    | split
    | (extract_lets +onlyGivenNames x; first | (refine Keeps.cut s0 x ?_ fun h => ?_; rotate_left; clear_value x) | skip)
    | (unfold x; fail_if_success done)
    | intro h

theorem recount_keeps {k s0 s a1} (h : Keeps k s0 s)
    (hm : Within 0x24#21 k := by first | assumption | exact Within.trans (by assumption) (by decide)) :
    Keeps k s0 (recount s a1) := by
  unfold recount
  repeat' first
    | with_reducible assumption | with_reducible refine fetchSlots_keeps ?_ | with_reducible refine updStripe_keeps ?_ | with_reducible refine Keeps.ite ?_ ?_ | with_reducible refine Keeps.foldl _ _ ?_ _ ?_ | fail_if_no_progress ((with_reducible refine Keeps.mk' ?_ rfl rfl rfl ?_ ?_ ?_ ?_ ?_ ?_ ?_ ?_ ?_ ?_ ?_ ?_ ?_ ?_ ?_ ?_ ?_ ?_ ?_ ?_ ?_) <;> first | exact Or.inl (hm.bit (by decide)) | exact Or.inr rfl | skip)
    | split
    | (extract_lets +onlyGivenNames x; first | (refine Keeps.cut s0 x ?_ fun h => ?_; rotate_left; clear_value x) | skip)
    | (unfold x; fail_if_success done)
    | intro h

theorem execBudgetAdjust_keeps {k s0 a0 s} (h : Keeps k s0 s)
    (hm : Within 0x24#21 k := by first | assumption | exact Within.trans (by assumption) (by decide)) :
    KeepsO k s0 (execBudgetAdjust a0 s) := by
  unfold execBudgetAdjust
  repeat' first
    | with_reducible assumption | with_reducible refine recount_keeps ?_ | with_reducible refine updRank_keeps ?_ | with_reducible refine Keeps.ite ?_ ?_ | with_reducible refine Keeps.foldl _ _ ?_ _ ?_ | fail_if_no_progress ((with_reducible refine Keeps.mk' ?_ rfl rfl rfl ?_ ?_ ?_ ?_ ?_ ?_ ?_ ?_ ?_ ?_ ?_ ?_ ?_ ?_ ?_ ?_ ?_ ?_ ?_ ?_ ?_) <;> first | exact Or.inl (hm.bit (by decide)) | exact Or.inr rfl | skip) | with_reducible refine KeepsO.next ?_
    | split
    | (extract_lets +onlyGivenNames x; first | (refine Keeps.cut s0 x ?_ fun h => ?_; rotate_left; clear_value x) | skip)
    | (unfold x; fail_if_success done)
    | intro h

theorem execHeatEpochAdvance_keeps {k s0 s} (h : Keeps k s0 s)
    (hm : Within 0x20#21 k := by first | assumption | exact Within.trans (by assumption) (by decide)) :
    KeepsO k s0 (execHeatEpochAdvance s) := by
  unfold execHeatEpochAdvance
  repeat' first
    | with_reducible assumption | with_reducible refine Keeps.ite ?_ ?_ | with_reducible refine Keeps.foldl _ _ ?_ _ ?_ | fail_if_no_progress ((with_reducible refine Keeps.mk' ?_ rfl rfl rfl ?_ ?_ ?_ ?_ ?_ ?_ ?_ ?_ ?_ ?_ ?_ ?_ ?_ ?_ ?_ ?_ ?_ ?_ ?_ ?_ ?_) <;> first | exact Or.inl (hm.bit (by decide)) | exact Or.inr rfl | skip) | with_reducible refine KeepsO.next ?_
    | split
    | (extract_lets +onlyGivenNames x; first | (refine Keeps.cut s0 x ?_ fun h => ?_; rotate_left; clear_value x) | skip)
    | (unfold x; fail_if_success done)
    | intro h

theorem relocSlot_keeps {k s0 s a1 a2} (h : Keeps k s0 s)
    (hm : Within 0x20#21 k := by first | assumption | exact Within.trans (by assumption) (by decide)) : KeepsOR k s0 (relocSlot s a1 a2) := by
  unfold relocSlot
  extract_lets src other first s1 best
  have h1 : Keeps k s0 s1 := readyAllocation_keeps h
  clear_value s1 best
  split
  · exact takeSlot_keeps h1
  · cases best with
    | none => exact KeepsOR.none _ _
    | some r => exact takeSlot_keeps h1

theorem execBisqueRelocation_keeps {k s0 a0 s} (h : Keeps k s0 s)
    (hm : Within 0x324#21 k := by first | assumption | exact Within.trans (by assumption) (by decide)) :
    KeepsO k s0 (execBisqueRelocation a0 s) := by
  unfold execBisqueRelocation
  repeat' first
    | with_reducible assumption | with_reducible refine fetchSeg_keeps ?_ | with_reducible refine relocSlot_keeps ?_ | with_reducible refine setMedia_keeps ?_ | with_reducible refine dropStamps_keeps ?_ | with_reducible refine putStamps_keeps ?_ | with_reducible refine setEntry_keeps ?_ | with_reducible refine releaseSlot_keeps ?_ | with_reducible refine noteProgram_keeps ?_ | with_reducible refine claimSlot_keeps ?_ | with_reducible refine Keeps.ite ?_ ?_ | with_reducible refine Keeps.foldl _ _ ?_ _ ?_ | fail_if_no_progress ((with_reducible refine Keeps.mk' ?_ rfl rfl rfl ?_ ?_ ?_ ?_ ?_ ?_ ?_ ?_ ?_ ?_ ?_ ?_ ?_ ?_ ?_ ?_ ?_ ?_ ?_ ?_ ?_) <;> first | exact Or.inl (hm.bit (by decide)) | exact Or.inr rfl | skip) | with_reducible refine KeepsO.next ?_
    | split
    | (extract_lets +onlyGivenNames x; first | (refine Keeps.cut s0 x ?_ fun h => ?_; rotate_left; clear_value x) | skip)
    | (unfold x; fail_if_success done)
    | intro h
    | with_reducible refine KeepsR.elim ?_ (by assumption) | with_reducible refine KeepsL.elim ?_ (by assumption) | with_reducible refine KeepsOS.elim ?_ (by assumption) | with_reducible refine KeepsOR.elim ?_ (by assumption) | with_reducible refine KeepsOR3.elim ?_ (by assumption) | with_reducible refine KeepsL.proj ?_ | with_reducible refine KeepsR.proj ?_

theorem takeInternal_keeps {k s0 s a1 a2 a3} (h : Keeps k s0 s)
    (hm : Within 0x8#21 k := by first | assumption | exact Within.trans (by assumption) (by decide)) :
    Keeps k s0 (takeInternal s a1 a2 a3) := by
  unfold takeInternal
  repeat' first
    | with_reducible assumption | with_reducible refine setSagLine_keeps ?_ | with_reducible refine Keeps.ite ?_ ?_ | with_reducible refine Keeps.foldl _ _ ?_ _ ?_ | fail_if_no_progress ((with_reducible refine Keeps.mk' ?_ rfl rfl rfl ?_ ?_ ?_ ?_ ?_ ?_ ?_ ?_ ?_ ?_ ?_ ?_ ?_ ?_ ?_ ?_ ?_ ?_ ?_ ?_ ?_) <;> first | exact Or.inl (hm.bit (by decide)) | exact Or.inr rfl | skip)
    | split
    | (extract_lets +onlyGivenNames x; first | (refine Keeps.cut s0 x ?_ fun h => ?_; rotate_left; clear_value x) | skip)
    | (unfold x; fail_if_success done)
    | intro h

theorem execRestamp_keeps {k s0 a0 s} (h : Keeps k s0 s)
    (hm : Within 0x2c#21 k := by first | assumption | exact Within.trans (by assumption) (by decide)) :
    KeepsO k s0 (execRestamp a0 s) := by
  unfold execRestamp
  repeat' first
    | with_reducible assumption | with_reducible refine fetchSeg_keeps ?_ | with_reducible refine takeInternal_keeps ?_ | with_reducible refine queueRefreshStripe_keeps ?_ | with_reducible refine Keeps.ite ?_ ?_ | with_reducible refine Keeps.foldl _ _ ?_ _ ?_ | fail_if_no_progress ((with_reducible refine Keeps.mk' ?_ rfl rfl rfl ?_ ?_ ?_ ?_ ?_ ?_ ?_ ?_ ?_ ?_ ?_ ?_ ?_ ?_ ?_ ?_ ?_ ?_ ?_ ?_ ?_) <;> first | exact Or.inl (hm.bit (by decide)) | exact Or.inr rfl | skip) | with_reducible refine KeepsO.next ?_
    | split
    | (extract_lets +onlyGivenNames x; first | (refine Keeps.cut s0 x ?_ fun h => ?_; rotate_left; clear_value x) | skip)
    | (unfold x; fail_if_success done)
    | intro h

theorem execRefresh_keeps {k s0 a0 s} (h : Keeps k s0 s)
    (hm : Within 0x2c#21 k := by first | assumption | exact Within.trans (by assumption) (by decide)) :
    KeepsO k s0 (execRefresh a0 s) := by
  unfold execRefresh
  repeat' first
    | with_reducible assumption | with_reducible refine fetchSeg_keeps ?_ | with_reducible refine takeInternal_keeps ?_ | with_reducible refine updEntry_keeps ?_ | with_reducible refine refreshDone_keeps ?_ | with_reducible refine queueRefreshStripe_keeps ?_ | with_reducible refine Keeps.ite ?_ ?_ | with_reducible refine Keeps.foldl _ _ ?_ _ ?_ | fail_if_no_progress ((with_reducible refine Keeps.mk' ?_ rfl rfl rfl ?_ ?_ ?_ ?_ ?_ ?_ ?_ ?_ ?_ ?_ ?_ ?_ ?_ ?_ ?_ ?_ ?_ ?_ ?_ ?_ ?_) <;> first | exact Or.inl (hm.bit (by decide)) | exact Or.inr rfl | skip) | with_reducible refine KeepsO.next ?_
    | split
    | (extract_lets +onlyGivenNames x; first | (refine Keeps.cut s0 x ?_ fun h => ?_; rotate_left; clear_value x) | skip)
    | (unfold x; fail_if_success done)
    | intro h

/-! Wear. -/

theorem degradeStripe_keeps {k s0 s a1} (h : Keeps k s0 s)
    (hm : Within 0x10012c#21 k := by first | assumption | exact Within.trans (by assumption) (by decide)) :
    Keeps k s0 (degradeStripe s a1) := by
  unfold degradeStripe
  repeat' first
    | with_reducible assumption | with_reducible refine updStripe_keeps ?_ | with_reducible refine updRank_keeps ?_ | with_reducible refine failProgram_keeps ?_ | with_reducible refine checkSpareStripes_keeps ?_ | with_reducible refine Keeps.ite ?_ ?_ | with_reducible refine Keeps.foldl _ _ ?_ _ ?_ | fail_if_no_progress ((with_reducible refine Keeps.mk' ?_ rfl rfl rfl ?_ ?_ ?_ ?_ ?_ ?_ ?_ ?_ ?_ ?_ ?_ ?_ ?_ ?_ ?_ ?_ ?_ ?_ ?_ ?_ ?_) <;> first | exact Or.inl (hm.bit (by decide)) | exact Or.inr rfl | skip)
    | split
    | (extract_lets +onlyGivenNames x; first | (refine Keeps.cut s0 x ?_ fun h => ?_; rotate_left; clear_value x) | skip)
    | (unfold x; fail_if_success done)
    | intro h

theorem clearForRebuild_keeps {k s0 s a1 a2} (h : Keeps k s0 s)
    (hm : Within 0x8002c#21 k := by first | assumption | exact Within.trans (by assumption) (by decide)) :
    Keeps k s0 (clearForRebuild s a1 a2) := by
  unfold clearForRebuild
  repeat' first
    | with_reducible assumption | with_reducible refine closeOpen_keeps ?_ | with_reducible refine updStripe_keeps ?_ | with_reducible refine Keeps.ite ?_ ?_ | with_reducible refine Keeps.foldl _ _ ?_ _ ?_ | fail_if_no_progress ((with_reducible refine Keeps.mk' ?_ rfl rfl rfl ?_ ?_ ?_ ?_ ?_ ?_ ?_ ?_ ?_ ?_ ?_ ?_ ?_ ?_ ?_ ?_ ?_ ?_ ?_ ?_ ?_) <;> first | exact Or.inl (hm.bit (by decide)) | exact Or.inr rfl | skip)
    | split
    | (extract_lets +onlyGivenNames x; first | (refine Keeps.cut s0 x ?_ fun h => ?_; rotate_left; clear_value x) | skip)
    | (unfold x; fail_if_success done)
    | intro h

theorem startLinkRebuild_keeps {k s0 s a1 a2} (h : Keeps k s0 s)
    (hm : Within 0x8012c#21 k := by first | assumption | exact Within.trans (by assumption) (by decide)) :
    Keeps k s0 (startLinkRebuild s a1 a2) := by
  unfold startLinkRebuild
  repeat' first
    | with_reducible assumption | with_reducible refine updLinkWear_keeps ?_ | with_reducible refine clearForRebuild_keeps ?_ | with_reducible refine Keeps.ite ?_ ?_ | with_reducible refine Keeps.foldl _ _ ?_ _ ?_ | fail_if_no_progress ((with_reducible refine Keeps.mk' ?_ rfl rfl rfl ?_ ?_ ?_ ?_ ?_ ?_ ?_ ?_ ?_ ?_ ?_ ?_ ?_ ?_ ?_ ?_ ?_ ?_ ?_ ?_ ?_) <;> first | exact Or.inl (hm.bit (by decide)) | exact Or.inr rfl | skip)
    | split
    | (extract_lets +onlyGivenNames x; first | (refine Keeps.cut s0 x ?_ fun h => ?_; rotate_left; clear_value x) | skip)
    | (unfold x; fail_if_success done)
    | intro h

theorem failDie_keeps {k s0 s a1 a2} (h : Keeps k s0 s)
    (hm : Within 0x18012c#21 k := by first | assumption | exact Within.trans (by assumption) (by decide)) :
    Keeps k s0 (failDie s a1 a2) := by
  unfold failDie
  repeat' first
    | with_reducible assumption | with_reducible refine raise_keeps ?_ | with_reducible refine updLinkWear_keeps ?_ | with_reducible refine degradeStripe_keeps ?_ | with_reducible refine clearForRebuild_keeps ?_ | with_reducible refine Keeps.ite ?_ ?_ | with_reducible refine Keeps.foldl _ _ ?_ _ ?_ | fail_if_no_progress ((with_reducible refine Keeps.mk' ?_ rfl rfl rfl ?_ ?_ ?_ ?_ ?_ ?_ ?_ ?_ ?_ ?_ ?_ ?_ ?_ ?_ ?_ ?_ ?_ ?_ ?_ ?_ ?_) <;> first | exact Or.inl (hm.bit (by decide)) | exact Or.inr rfl | skip)
    | split
    | (extract_lets +onlyGivenNames x; first | (refine Keeps.cut s0 x ?_ fun h => ?_; rotate_left; clear_value x) | skip)
    | (unfold x; fail_if_success done)
    | intro h

theorem retireBlock_keeps {k s0 s a1 a2 a3} (h : Keeps k s0 s)
    (hm : Within 0x18012c#21 k := by first | assumption | exact Within.trans (by assumption) (by decide)) :
    Keeps k s0 (retireBlock s a1 a2 a3) := by
  unfold retireBlock
  repeat' first
    | with_reducible assumption | with_reducible refine updLinkWear_keeps ?_ | with_reducible refine raise_keeps ?_ | with_reducible refine degradeStripe_keeps ?_ | with_reducible refine failDie_keeps ?_ | with_reducible refine Keeps.ite ?_ ?_ | with_reducible refine Keeps.foldl _ _ ?_ _ ?_ | fail_if_no_progress ((with_reducible refine Keeps.mk' ?_ rfl rfl rfl ?_ ?_ ?_ ?_ ?_ ?_ ?_ ?_ ?_ ?_ ?_ ?_ ?_ ?_ ?_ ?_ ?_ ?_ ?_ ?_ ?_) <;> first | exact Or.inl (hm.bit (by decide)) | exact Or.inr rfl | skip)
    | split
    | (extract_lets +onlyGivenNames x; first | (refine Keeps.cut s0 x ?_ fun h => ?_; rotate_left; clear_value x) | skip)
    | (unfold x; fail_if_success done)
    | intro h

theorem endRebuild_keeps {k s0 s a1 a2} (h : Keeps k s0 s)
    (hm : Within 0x100500#21 k := by first | assumption | exact Within.trans (by assumption) (by decide)) :
    Keeps k s0 (endRebuild s a1 a2) := by
  unfold endRebuild
  repeat' first
    | with_reducible assumption | with_reducible refine updLinkWear_keeps ?_ | with_reducible refine updLink_keeps ?_ | with_reducible refine raise_keeps ?_ | with_reducible refine Keeps.ite ?_ ?_ | with_reducible refine Keeps.foldl _ _ ?_ _ ?_ | fail_if_no_progress ((with_reducible refine Keeps.mk' ?_ rfl rfl rfl ?_ ?_ ?_ ?_ ?_ ?_ ?_ ?_ ?_ ?_ ?_ ?_ ?_ ?_ ?_ ?_ ?_ ?_ ?_ ?_ ?_) <;> first | exact Or.inl (hm.bit (by decide)) | exact Or.inr rfl | skip)
    | split
    | (extract_lets +onlyGivenNames x; first | (refine Keeps.cut s0 x ?_ fun h => ?_; rotate_left; clear_value x) | skip)
    | (unfold x; fail_if_success done)
    | intro h

theorem execRebuildStripeDone_keeps {k s0 a0 a1 a2 s} (h : Keeps k s0 s)
    (hm : Within 0x18052c#21 k := by first | assumption | exact Within.trans (by assumption) (by decide)) :
    KeepsO k s0 (execRebuildStripeDone a0 a1 a2 s) := by
  unfold execRebuildStripeDone
  repeat' first
    | with_reducible assumption | with_reducible refine makeVictim_keeps ?_ | with_reducible refine recordStripe_keeps ?_ | with_reducible refine updStripe_keeps ?_ | with_reducible refine retireBlock_keeps ?_ | with_reducible refine updLinkWear_keeps ?_ | with_reducible refine endRebuild_keeps ?_ | with_reducible refine Keeps.ite ?_ ?_ | with_reducible refine Keeps.foldl _ _ ?_ _ ?_ | fail_if_no_progress ((with_reducible refine Keeps.mk' ?_ rfl rfl rfl ?_ ?_ ?_ ?_ ?_ ?_ ?_ ?_ ?_ ?_ ?_ ?_ ?_ ?_ ?_ ?_ ?_ ?_ ?_ ?_ ?_) <;> first | exact Or.inl (hm.bit (by decide)) | exact Or.inr rfl | skip) | with_reducible refine KeepsO.next ?_
    | split
    | (extract_lets +onlyGivenNames x; first | (refine Keeps.cut s0 x ?_ fun h => ?_; rotate_left; clear_value x) | skip)
    | (unfold x; fail_if_success done)
    | intro h

theorem updSram_keeps {k s0 s a1 a2} (h : Keeps k s0 s)
    (hm : Within 0x80#21 k := by first | assumption | exact Within.trans (by assumption) (by decide)) :
    Keeps k s0 (updSram s a1 a2) := by
  unfold updSram
  repeat' first
    | with_reducible assumption | with_reducible refine Keeps.ite ?_ ?_ | with_reducible refine Keeps.foldl _ _ ?_ _ ?_ | fail_if_no_progress ((with_reducible refine Keeps.mk' ?_ rfl rfl rfl ?_ ?_ ?_ ?_ ?_ ?_ ?_ ?_ ?_ ?_ ?_ ?_ ?_ ?_ ?_ ?_ ?_ ?_ ?_ ?_ ?_) <;> first | exact Or.inl (hm.bit (by decide)) | exact Or.inr rfl | skip)
    | split
    | (extract_lets +onlyGivenNames x; first | (refine Keeps.cut s0 x ?_ fun h => ?_; rotate_left; clear_value x) | skip)
    | (unfold x; fail_if_success done)
    | intro h

theorem sramError_keeps {k s0 s a1 a2 a3} (h : Keeps k s0 s)
    (hm : Within 0x80#21 k := by first | assumption | exact Within.trans (by assumption) (by decide)) :
    Keeps k s0 (sramError s a1 a2 a3) := by
  unfold sramError
  repeat' first
    | with_reducible assumption | with_reducible refine updSram_keeps ?_ | with_reducible refine Keeps.ite ?_ ?_ | with_reducible refine Keeps.foldl _ _ ?_ _ ?_ | fail_if_no_progress ((with_reducible refine Keeps.mk' ?_ rfl rfl rfl ?_ ?_ ?_ ?_ ?_ ?_ ?_ ?_ ?_ ?_ ?_ ?_ ?_ ?_ ?_ ?_ ?_ ?_ ?_ ?_ ?_) <;> first | exact Or.inl (hm.bit (by decide)) | exact Or.inr rfl | skip)
    | split
    | (extract_lets +onlyGivenNames x; first | (refine Keeps.cut s0 x ?_ fun h => ?_; rotate_left; clear_value x) | skip)
    | (unfold x; fail_if_success done)
    | intro h

theorem mapLineLost_keeps {k s0 s a1} (h : Keeps k s0 s)
    (hm : Within 0x100284#21 k := by first | assumption | exact Within.trans (by assumption) (by decide)) :
    Keeps k s0 (mapLineLost s a1) := by
  unfold mapLineLost
  repeat' first
    | with_reducible assumption | with_reducible refine raiseCeiling_keeps ?_ | with_reducible refine updEntry_keeps ?_ | with_reducible refine poisonEnter_keeps ?_ | with_reducible refine poisonLeavePage_keeps ?_ | with_reducible refine raise_keeps ?_ | with_reducible refine Keeps.ite ?_ ?_ | with_reducible refine Keeps.foldl _ _ ?_ _ ?_ | fail_if_no_progress ((with_reducible refine Keeps.mk' ?_ rfl rfl rfl ?_ ?_ ?_ ?_ ?_ ?_ ?_ ?_ ?_ ?_ ?_ ?_ ?_ ?_ ?_ ?_ ?_ ?_ ?_ ?_ ?_) <;> first | exact Or.inl (hm.bit (by decide)) | exact Or.inr rfl | skip)
    | split
    | (extract_lets +onlyGivenNames x; first | (refine Keeps.cut s0 x ?_ fun h => ?_; rotate_left; clear_value x) | skip)
    | (unfold x; fail_if_success done)
    | intro h

theorem sramWordLost_keeps {k s0 s a1} (h : Keeps k s0 s)
    (hm : Within 0x1002ac#21 k := by first | assumption | exact Within.trans (by assumption) (by decide)) :
    Keeps k s0 (sramWordLost s a1) := by
  unfold sramWordLost
  repeat' first
    | with_reducible assumption | with_reducible refine mapLineLost_keeps ?_ | with_reducible refine fetchSeg_keeps ?_ | with_reducible refine setSeg_keeps ?_ | with_reducible refine setSagLine_keeps ?_ | with_reducible refine raise_keeps ?_ | with_reducible refine poisonEnter_keeps ?_ | with_reducible refine updOpen_keeps ?_ | with_reducible refine setStampSlot_keeps ?_ | with_reducible refine raiseAddr_keeps ?_ | with_reducible refine Keeps.ite ?_ ?_ | with_reducible refine Keeps.foldl _ _ ?_ _ ?_ | fail_if_no_progress ((with_reducible refine Keeps.mk' ?_ rfl rfl rfl ?_ ?_ ?_ ?_ ?_ ?_ ?_ ?_ ?_ ?_ ?_ ?_ ?_ ?_ ?_ ?_ ?_ ?_ ?_ ?_ ?_) <;> first | exact Or.inl (hm.bit (by decide)) | exact Or.inr (by with_reducible rfl) | exact Or.inr (by unfold qpp; rfl) | exact Or.inr rfl | skip)
    | split
    | (extract_lets +onlyGivenNames x; first | (refine Keeps.cut s0 x ?_ fun h => ?_; rotate_left; clear_value x) | skip)
    | (unfold x; fail_if_success done)
    | intro h

theorem execSramRowRepair_keeps {k s0 a0 a1 s} (h : Keeps k s0 s)
    (hm : Within 0x100180#21 k := by first | assumption | exact Within.trans (by assumption) (by decide)) :
    KeepsO k s0 (execSramRowRepair a0 a1 s) := by
  unfold execSramRowRepair
  repeat' first
    | with_reducible assumption | with_reducible refine updSram_keeps ?_ | with_reducible refine exhaust_keeps ?_ | with_reducible refine Keeps.ite ?_ ?_ | with_reducible refine Keeps.foldl _ _ ?_ _ ?_ | fail_if_no_progress ((with_reducible refine Keeps.mk' ?_ rfl rfl rfl ?_ ?_ ?_ ?_ ?_ ?_ ?_ ?_ ?_ ?_ ?_ ?_ ?_ ?_ ?_ ?_ ?_ ?_ ?_ ?_ ?_) <;> first | exact Or.inl (hm.bit (by decide)) | exact Or.inr rfl | skip) | with_reducible refine KeepsO.next ?_
    | split
    | (extract_lets +onlyGivenNames x; first | (refine Keeps.cut s0 x ?_ fun h => ?_; rotate_left; clear_value x) | skip)
    | (unfold x; fail_if_success done)
    | intro h

theorem useSpareChannel_keeps {k s0 s a1} (h : Keeps k s0 s)
    (hm : Within 0x100188#21 k := by first | assumption | exact Within.trans (by assumption) (by decide)) :
    Keeps k s0 (useSpareChannel s a1) := by
  unfold useSpareChannel
  repeat' first
    | with_reducible assumption | with_reducible refine updSram_keeps ?_ | with_reducible refine exhaust_keeps ?_ | with_reducible refine Keeps.ite ?_ ?_ | with_reducible refine Keeps.foldl _ _ ?_ _ ?_ | fail_if_no_progress ((with_reducible refine Keeps.mk' ?_ rfl rfl rfl ?_ ?_ ?_ ?_ ?_ ?_ ?_ ?_ ?_ ?_ ?_ ?_ ?_ ?_ ?_ ?_ ?_ ?_ ?_ ?_ ?_) <;> first | exact Or.inl (hm.bit (by decide)) | exact Or.inr rfl | skip)
    | split
    | (extract_lets +onlyGivenNames x; first | (refine Keeps.cut s0 x ?_ fun h => ?_; rotate_left; clear_value x) | skip)
    | (unfold x; fail_if_success done)
    | intro h

theorem execSramChannelCopyDone_keeps {k s0 a0 s} (h : Keeps k s0 s)
    (hm : Within 0x88#21 k := by first | assumption | exact Within.trans (by assumption) (by decide)) :
    KeepsO k s0 (execSramChannelCopyDone a0 s) := by
  unfold execSramChannelCopyDone
  repeat' first
    | with_reducible assumption | with_reducible refine updSram_keeps ?_ | with_reducible refine Keeps.ite ?_ ?_ | with_reducible refine Keeps.foldl _ _ ?_ _ ?_ | fail_if_no_progress ((with_reducible refine Keeps.mk' ?_ rfl rfl rfl ?_ ?_ ?_ ?_ ?_ ?_ ?_ ?_ ?_ ?_ ?_ ?_ ?_ ?_ ?_ ?_ ?_ ?_ ?_ ?_ ?_) <;> first | exact Or.inl (hm.bit (by decide)) | exact Or.inr rfl | skip) | with_reducible refine KeepsO.next ?_
    | split
    | (extract_lets +onlyGivenNames x; first | (refine Keeps.cut s0 x ?_ fun h => ?_; rotate_left; clear_value x) | skip)
    | (unfold x; fail_if_success done)
    | intro h

theorem busRead_keeps {k s0 s a1 a2 a3 a4} (h : Keeps k s0 s)
    (hm : Within 0x400#21 k := by first | assumption | exact Within.trans (by assumption) (by decide)) :
    Keeps k s0 (busRead s a1 a2 a3 a4) := by
  unfold busRead
  repeat' first
    | with_reducible assumption | with_reducible refine Keeps.ite ?_ ?_ | with_reducible refine Keeps.foldl _ _ ?_ _ ?_ | fail_if_no_progress ((with_reducible refine Keeps.mk' ?_ rfl rfl rfl ?_ ?_ ?_ ?_ ?_ ?_ ?_ ?_ ?_ ?_ ?_ ?_ ?_ ?_ ?_ ?_ ?_ ?_ ?_ ?_ ?_) <;> first | exact Or.inl (hm.bit (by decide)) | exact Or.inr rfl | skip)
    | split
    | (extract_lets +onlyGivenNames x; first | (refine Keeps.cut s0 x ?_ fun h => ?_; rotate_left; clear_value x) | skip)
    | (unfold x; fail_if_success done)
    | intro h

theorem execPackageAlertDetails_keeps {k s0 a0 a1 s} (h : Keeps k s0 s)
    (hm : Within 0x18052c#21 k := by first | assumption | exact Within.trans (by assumption) (by decide)) :
    KeepsO k s0 (execPackageAlertDetails a0 a1 s) := by
  unfold execPackageAlertDetails
  repeat' first
    | with_reducible assumption | with_reducible refine draw_keeps ?_ | with_reducible refine busRead_keeps ?_ | with_reducible refine updLink_keeps ?_ | with_reducible refine failDie_keeps ?_ | with_reducible refine Keeps.ite ?_ ?_ | with_reducible refine Keeps.foldl _ _ ?_ _ ?_ | fail_if_no_progress ((with_reducible refine Keeps.mk' ?_ rfl rfl rfl ?_ ?_ ?_ ?_ ?_ ?_ ?_ ?_ ?_ ?_ ?_ ?_ ?_ ?_ ?_ ?_ ?_ ?_ ?_ ?_ ?_) <;> first | exact Or.inl (hm.bit (by decide)) | exact Or.inr rfl | skip) | with_reducible refine KeepsO.next ?_
    | split
    | (extract_lets +onlyGivenNames x; first | (refine Keeps.cut s0 x ?_ fun h => ?_; rotate_left; clear_value x) | skip)
    | (unfold x; fail_if_success done)
    | intro h
    | with_reducible refine KeepsR.elim ?_ (by assumption) | with_reducible refine KeepsL.elim ?_ (by assumption) | with_reducible refine KeepsOS.elim ?_ (by assumption) | with_reducible refine KeepsOR.elim ?_ (by assumption) | with_reducible refine KeepsOR3.elim ?_ (by assumption) | with_reducible refine KeepsL.proj ?_ | with_reducible refine KeepsR.proj ?_

/-! Integrity. -/

theorem nodeWritten_keeps {k s0 s a1 a2} (h : Keeps k s0 s)
    (hm : Within 0x24#21 k := by first | assumption | exact Within.trans (by assumption) (by decide)) :
    Keeps k s0 (nodeWritten s a1 a2) := by
  unfold nodeWritten
  repeat' first
    | with_reducible assumption | with_reducible refine systemWrite_keeps ?_ | with_reducible refine updRot_keeps ?_ | with_reducible refine Keeps.ite ?_ ?_ | with_reducible refine Keeps.foldl _ _ ?_ _ ?_ | fail_if_no_progress ((with_reducible refine Keeps.mk' ?_ rfl rfl rfl ?_ ?_ ?_ ?_ ?_ ?_ ?_ ?_ ?_ ?_ ?_ ?_ ?_ ?_ ?_ ?_ ?_ ?_ ?_ ?_ ?_) <;> first | exact Or.inl (hm.bit (by decide)) | exact Or.inr rfl | skip)
    | split
    | (extract_lets +onlyGivenNames x; first | (refine Keeps.cut s0 x ?_ fun h => ?_; rotate_left; clear_value x) | skip)
    | (unfold x; fail_if_success done)
    | intro h

theorem execTreeNodeWrite_keeps {k s0 a0 s} (h : Keeps k s0 s)
    (hm : Within 0x200#21 k := by first | assumption | exact Within.trans (by assumption) (by decide)) :
    KeepsO k s0 (execTreeNodeWrite a0 s) := by
  unfold execTreeNodeWrite
  repeat' first
    | with_reducible assumption | with_reducible refine Keeps.ite ?_ ?_ | with_reducible refine Keeps.foldl _ _ ?_ _ ?_ | fail_if_no_progress ((with_reducible refine Keeps.mk' ?_ rfl rfl rfl ?_ ?_ ?_ ?_ ?_ ?_ ?_ ?_ ?_ ?_ ?_ ?_ ?_ ?_ ?_ ?_ ?_ ?_ ?_ ?_ ?_) <;> first | exact Or.inl (hm.bit (by decide)) | exact Or.inr rfl | skip) | with_reducible refine KeepsO.next ?_
    | split
    | (extract_lets +onlyGivenNames x; first | (refine Keeps.cut s0 x ?_ fun h => ?_; rotate_left; clear_value x) | skip)
    | (unfold x; fail_if_success done)
    | intro h

theorem setNode_keeps {k s0 s a1 a2} (h : Keeps k s0 s)
    (hm : Within 0x201#21 k := by first | assumption | exact Within.trans (by assumption) (by decide)) :
    Keeps k s0 (setNode s a1 a2) := by
  unfold setNode
  repeat' first
    | with_reducible assumption | with_reducible refine Keeps.ite ?_ ?_ | with_reducible refine Keeps.foldl _ _ ?_ _ ?_ | fail_if_no_progress ((with_reducible refine Keeps.mk' ?_ rfl rfl rfl ?_ ?_ ?_ ?_ ?_ ?_ ?_ ?_ ?_ ?_ ?_ ?_ ?_ ?_ ?_ ?_ ?_ ?_ ?_ ?_ ?_) <;> first | exact Or.inl (hm.bit (by decide)) | exact Or.inr rfl | skip)
    | split
    | (extract_lets +onlyGivenNames x; first | (refine Keeps.cut s0 x ?_ fun h => ?_; rotate_left; clear_value x) | skip)
    | (unfold x; fail_if_success done)
    | intro h

theorem liftExempt_keeps {k s0 s a1} (h : Keeps k s0 s)
    (hm : Within 0x4#21 k := by first | assumption | exact Within.trans (by assumption) (by decide)) :
    Keeps k s0 (liftExempt s a1) := by
  unfold liftExempt
  repeat' first
    | with_reducible assumption | with_reducible refine Keeps.ite ?_ ?_ | with_reducible refine Keeps.foldl _ _ ?_ _ ?_ | fail_if_no_progress ((with_reducible refine Keeps.mk' ?_ rfl rfl rfl ?_ ?_ ?_ ?_ ?_ ?_ ?_ ?_ ?_ ?_ ?_ ?_ ?_ ?_ ?_ ?_ ?_ ?_ ?_ ?_ ?_) <;> first | exact Or.inl (hm.bit (by decide)) | exact Or.inr rfl | skip)
    | split
    | (extract_lets +onlyGivenNames x; first | (refine Keeps.cut s0 x ?_ fun h => ?_; rotate_left; clear_value x) | skip)
    | (unfold x; fail_if_success done)
    | intro h

theorem finishNode_keeps {k s0 s a1} (h : Keeps k s0 s)
    (hm : Within 0x225#21 k := by first | assumption | exact Within.trans (by assumption) (by decide)) :
    Keeps k s0 (finishNode s a1) := by
  unfold finishNode
  repeat' first
    | with_reducible assumption | with_reducible refine nodeWritten_keeps ?_ | with_reducible refine setNode_keeps ?_ | with_reducible refine Keeps.ite ?_ ?_ | with_reducible refine Keeps.foldl _ _ ?_ _ ?_ | fail_if_no_progress ((with_reducible refine Keeps.mk' ?_ rfl rfl rfl ?_ ?_ ?_ ?_ ?_ ?_ ?_ ?_ ?_ ?_ ?_ ?_ ?_ ?_ ?_ ?_ ?_ ?_ ?_ ?_ ?_) <;> first | exact Or.inl (hm.bit (by decide)) | exact Or.inr rfl | skip)
    | split
    | (extract_lets +onlyGivenNames x; first | (refine Keeps.cut s0 x ?_ fun h => ?_; rotate_left; clear_value x) | skip)
    | (unfold x; fail_if_success done)
    | intro h

theorem execNodeWriteVerified_keeps {k s0 a0 s} (h : Keeps k s0 s)
    (hm : Within 0x225#21 k := by first | assumption | exact Within.trans (by assumption) (by decide)) :
    KeepsO k s0 (execNodeWriteVerified a0 s) := by
  unfold execNodeWriteVerified
  repeat' first
    | with_reducible assumption | with_reducible refine liftExempt_keeps ?_ | with_reducible refine finishNode_keeps ?_ | with_reducible refine Keeps.ite ?_ ?_ | with_reducible refine Keeps.foldl _ _ ?_ _ ?_ | fail_if_no_progress ((with_reducible refine Keeps.mk' ?_ rfl rfl rfl ?_ ?_ ?_ ?_ ?_ ?_ ?_ ?_ ?_ ?_ ?_ ?_ ?_ ?_ ?_ ?_ ?_ ?_ ?_ ?_ ?_) <;> first | exact Or.inl (hm.bit (by decide)) | exact Or.inr rfl | skip) | with_reducible refine KeepsO.next ?_
    | split
    | (extract_lets +onlyGivenNames x; first | (refine Keeps.cut s0 x ?_ fun h => ?_; rotate_left; clear_value x) | skip)
    | (unfold x; fail_if_success done)
    | intro h

theorem execBImageWrite_keeps {k s0 a0 s} (h : Keeps k s0 s)
    (hm : Within 0x224#21 k := by first | assumption | exact Within.trans (by assumption) (by decide)) :
    KeepsO k s0 (execBImageWrite a0 s) := by
  unfold execBImageWrite
  repeat' first
    | with_reducible assumption | with_reducible refine nodeWritten_keeps ?_ | with_reducible refine Keeps.ite ?_ ?_ | with_reducible refine Keeps.foldl _ _ ?_ _ ?_ | fail_if_no_progress ((with_reducible refine Keeps.mk' ?_ rfl rfl rfl ?_ ?_ ?_ ?_ ?_ ?_ ?_ ?_ ?_ ?_ ?_ ?_ ?_ ?_ ?_ ?_ ?_ ?_ ?_ ?_ ?_) <;> first | exact Or.inl (hm.bit (by decide)) | exact Or.inr rfl | skip) | with_reducible refine KeepsO.next ?_
    | split
    | (extract_lets +onlyGivenNames x; first | (refine Keeps.cut s0 x ?_ fun h => ?_; rotate_left; clear_value x) | skip)
    | (unfold x; fail_if_success done)
    | intro h

theorem execStampSlotWriteBack_keeps {k s0 a0 s} (h : Keeps k s0 s)
    (hm : Within 0x200#21 k := by first | assumption | exact Within.trans (by assumption) (by decide)) :
    KeepsO k s0 (execStampSlotWriteBack a0 s) := by
  unfold execStampSlotWriteBack
  repeat' first
    | with_reducible assumption | with_reducible refine setStampSlot_keeps ?_ | with_reducible refine slotToMedia_keeps ?_ | with_reducible refine Keeps.ite ?_ ?_ | with_reducible refine Keeps.foldl _ _ ?_ _ ?_ | fail_if_no_progress ((with_reducible refine Keeps.mk' ?_ rfl rfl rfl ?_ ?_ ?_ ?_ ?_ ?_ ?_ ?_ ?_ ?_ ?_ ?_ ?_ ?_ ?_ ?_ ?_ ?_ ?_ ?_ ?_) <;> first | exact Or.inl (hm.bit (by decide)) | exact Or.inr rfl | skip) | with_reducible refine KeepsO.next ?_
    | split
    | (extract_lets +onlyGivenNames x; first | (refine Keeps.cut s0 x ?_ fun h => ?_; rotate_left; clear_value x) | skip)
    | (unfold x; fail_if_success done)
    | intro h

theorem execStampCeilDurable_keeps {k s0 s} (h : Keeps k s0 s)
    (hm : Within 0x100200#21 k := by first | assumption | exact Within.trans (by assumption) (by decide)) :
    KeepsO k s0 (execStampCeilDurable s) := by
  unfold execStampCeilDurable
  repeat' first
    | with_reducible assumption | with_reducible refine raiseCeiling_keeps ?_ | with_reducible refine Keeps.ite ?_ ?_ | with_reducible refine Keeps.foldl _ _ ?_ _ ?_ | fail_if_no_progress ((with_reducible refine Keeps.mk' ?_ rfl rfl rfl ?_ ?_ ?_ ?_ ?_ ?_ ?_ ?_ ?_ ?_ ?_ ?_ ?_ ?_ ?_ ?_ ?_ ?_ ?_ ?_ ?_) <;> first | exact Or.inl (hm.bit (by decide)) | exact Or.inr rfl | skip) | with_reducible refine KeepsO.next ?_
    | split
    | (extract_lets +onlyGivenNames x; first | (refine Keeps.cut s0 x ?_ fun h => ?_; rotate_left; clear_value x) | skip)
    | (unfold x; fail_if_success done)
    | intro h

/-! Scrub. -/

theorem updPass_keeps {k s0 s a1 a2 a3} (h : Keeps k s0 s)
    (hm : Within 0x80#21 k := by first | assumption | exact Within.trans (by assumption) (by decide)) :
    Keeps k s0 (updPass s a1 a2 a3) := by
  unfold updPass
  repeat' first
    | with_reducible assumption | with_reducible refine Keeps.ite ?_ ?_ | with_reducible refine Keeps.foldl _ _ ?_ _ ?_ | fail_if_no_progress ((with_reducible refine Keeps.mk' ?_ rfl rfl rfl ?_ ?_ ?_ ?_ ?_ ?_ ?_ ?_ ?_ ?_ ?_ ?_ ?_ ?_ ?_ ?_ ?_ ?_ ?_ ?_ ?_) <;> first | exact Or.inl (hm.bit (by decide)) | exact Or.inr rfl | skip)
    | split
    | (extract_lets +onlyGivenNames x; first | (refine Keeps.cut s0 x ?_ fun h => ?_; rotate_left; clear_value x) | skip)
    | (unfold x; fail_if_success done)
    | intro h

theorem startPass_keeps {k s0 s a1 a2} (h : Keeps k s0 s)
    (hm : Within 0x80#21 k := by first | assumption | exact Within.trans (by assumption) (by decide)) :
    Keeps k s0 (startPass s a1 a2) := by
  unfold startPass
  repeat' first
    | with_reducible assumption | with_reducible refine updPass_keeps ?_ | with_reducible refine Keeps.ite ?_ ?_ | with_reducible refine Keeps.foldl _ _ ?_ _ ?_ | fail_if_no_progress ((with_reducible refine Keeps.mk' ?_ rfl rfl rfl ?_ ?_ ?_ ?_ ?_ ?_ ?_ ?_ ?_ ?_ ?_ ?_ ?_ ?_ ?_ ?_ ?_ ?_ ?_ ?_ ?_) <;> first | exact Or.inl (hm.bit (by decide)) | exact Or.inr rfl | skip)
    | split
    | (extract_lets +onlyGivenNames x; first | (refine Keeps.cut s0 x ?_ fun h => ?_; rotate_left; clear_value x) | skip)
    | (unfold x; fail_if_success done)
    | intro h

theorem execScrubPassStart_keeps {k s0 a0 a1 s} (h : Keeps k s0 s)
    (hm : Within 0x80#21 k := by first | assumption | exact Within.trans (by assumption) (by decide)) :
    KeepsO k s0 (execScrubPassStart a0 a1 s) := by
  unfold execScrubPassStart
  repeat' first
    | with_reducible assumption | with_reducible refine startPass_keeps ?_ | with_reducible refine Keeps.ite ?_ ?_ | with_reducible refine Keeps.foldl _ _ ?_ _ ?_ | fail_if_no_progress ((with_reducible refine Keeps.mk' ?_ rfl rfl rfl ?_ ?_ ?_ ?_ ?_ ?_ ?_ ?_ ?_ ?_ ?_ ?_ ?_ ?_ ?_ ?_ ?_ ?_ ?_ ?_ ?_) <;> first | exact Or.inl (hm.bit (by decide)) | exact Or.inr rfl | skip) | with_reducible refine KeepsO.next ?_
    | split
    | (extract_lets +onlyGivenNames x; first | (refine Keeps.cut s0 x ?_ fun h => ?_; rotate_left; clear_value x) | skip)
    | (unfold x; fail_if_success done)
    | intro h

theorem rewriteGroup_keeps {k s0 s a1 a2} (h : Keeps k s0 s)
    (hm : Within 0x4#21 k := by first | assumption | exact Within.trans (by assumption) (by decide)) :
    Keeps k s0 (rewriteGroup s a1 a2) := by
  unfold rewriteGroup
  repeat' first
    | with_reducible assumption | with_reducible refine setMedia_keeps ?_ | with_reducible refine Keeps.ite ?_ ?_ | with_reducible refine Keeps.foldl _ _ ?_ _ ?_ | fail_if_no_progress ((with_reducible refine Keeps.mk' ?_ rfl rfl rfl ?_ ?_ ?_ ?_ ?_ ?_ ?_ ?_ ?_ ?_ ?_ ?_ ?_ ?_ ?_ ?_ ?_ ?_ ?_ ?_ ?_) <;> first | exact Or.inl (hm.bit (by decide)) | exact Or.inr rfl | skip)
    | split
    | (extract_lets +onlyGivenNames x; first | (refine Keeps.cut s0 x ?_ fun h => ?_; rotate_left; clear_value x) | skip)
    | (unfold x; fail_if_success done)
    | intro h

theorem scrubGroup_keeps {k s0 s a1 a2 a3 a4 a5} (h : Keeps k s0 s)
    (hm : Within 0x1082ac#21 k := by first | assumption | exact Within.trans (by assumption) (by decide)) :
    Keeps k s0 (scrubGroup s a1 a2 a3 a4 a5) := by
  unfold scrubGroup
  repeat' first
    | with_reducible assumption | with_reducible refine poisonFromMedia_keeps ?_ | with_reducible refine correctionEvent_keeps ?_ | with_reducible refine rewriteGroup_keeps ?_ | with_reducible refine queueRefresh_keeps ?_ | with_reducible refine Keeps.ite ?_ ?_ | with_reducible refine Keeps.foldl _ _ ?_ _ ?_ | fail_if_no_progress ((with_reducible refine Keeps.mk' ?_ rfl rfl rfl ?_ ?_ ?_ ?_ ?_ ?_ ?_ ?_ ?_ ?_ ?_ ?_ ?_ ?_ ?_ ?_ ?_ ?_ ?_ ?_ ?_) <;> first | exact Or.inl (hm.bit (by decide)) | exact Or.inr rfl | skip)
    | split
    | (extract_lets +onlyGivenNames x; first | (refine Keeps.cut s0 x ?_ fun h => ?_; rotate_left; clear_value x) | skip)
    | (unfold x; fail_if_success done)
    | intro h

theorem scrubLeaf_keeps {k s0 s a1 a2 a3 a4} (h : Keeps k s0 s)
    (hm : Within 0x108284#21 k := by first | assumption | exact Within.trans (by assumption) (by decide)) :
    Keeps k s0 (scrubLeaf s a1 a2 a3 a4) := by
  unfold scrubLeaf
  repeat' first
    | with_reducible assumption | with_reducible refine takeMapLine_keeps ?_ | with_reducible refine Keeps.ite ?_ ?_ | with_reducible refine Keeps.foldl _ _ ?_ _ ?_ | fail_if_no_progress ((with_reducible refine Keeps.mk' ?_ rfl rfl rfl ?_ ?_ ?_ ?_ ?_ ?_ ?_ ?_ ?_ ?_ ?_ ?_ ?_ ?_ ?_ ?_ ?_ ?_ ?_ ?_ ?_) <;> first | exact Or.inl (hm.bit (by decide)) | exact Or.inr rfl | skip)
    | split
    | (extract_lets +onlyGivenNames x; first | (refine Keeps.cut s0 x ?_ fun h => ?_; rotate_left; clear_value x) | skip)
    | (unfold x; fail_if_success done)
    | intro h
    | with_reducible refine KeepsR.elim ?_ (by assumption) | with_reducible refine KeepsL.elim ?_ (by assumption) | with_reducible refine KeepsOS.elim ?_ (by assumption) | with_reducible refine KeepsOR.elim ?_ (by assumption) | with_reducible refine KeepsOR3.elim ?_ (by assumption) | with_reducible refine KeepsL.proj ?_ | with_reducible refine KeepsR.proj ?_

theorem scrubSystem_keeps {k s0 s a1 a2} (h : Keeps k s0 s)
    (hm : Within 0x1082a4#21 k := by first | assumption | exact Within.trans (by assumption) (by decide)) :
    Keeps k s0 (scrubSystem s a1 a2) := by
  unfold scrubSystem
  repeat' first
    | with_reducible assumption | with_reducible refine scrubLeaf_keeps ?_ | with_reducible refine systemWrite_keeps ?_ | with_reducible refine bucketEvent_keeps ?_ | with_reducible refine Keeps.ite ?_ ?_ | with_reducible refine Keeps.foldl _ _ ?_ _ ?_ | fail_if_no_progress ((with_reducible refine Keeps.mk' ?_ rfl rfl rfl ?_ ?_ ?_ ?_ ?_ ?_ ?_ ?_ ?_ ?_ ?_ ?_ ?_ ?_ ?_ ?_ ?_ ?_ ?_ ?_ ?_) <;> first | exact Or.inl (hm.bit (by decide)) | exact Or.inr rfl | skip)
    | split
    | (extract_lets +onlyGivenNames x; first | (refine Keeps.cut s0 x ?_ fun h => ?_; rotate_left; clear_value x) | skip)
    | (unfold x; fail_if_success done)
    | intro h

theorem execScrubVisit_keeps {k s0 a0 a1 a2 a3 s} (h : Keeps k s0 s)
    (hm : Within 0x1082ac#21 k := by first | assumption | exact Within.trans (by assumption) (by decide)) :
    KeepsO k s0 (execScrubVisit a0 a1 a2 a3 s) := by
  unfold execScrubVisit
  repeat' first
    | with_reducible assumption | with_reducible refine scrubSystem_keeps ?_ | with_reducible refine touchSeg_keeps ?_ | with_reducible refine fetchSeg_keeps ?_ | with_reducible refine scrubGroup_keeps ?_ | with_reducible refine count_keeps ?_ | with_reducible refine updPass_keeps ?_ | with_reducible refine Keeps.ite ?_ ?_ | with_reducible refine Keeps.foldl _ _ ?_ _ ?_ | fail_if_no_progress ((with_reducible refine Keeps.mk' ?_ rfl rfl rfl ?_ ?_ ?_ ?_ ?_ ?_ ?_ ?_ ?_ ?_ ?_ ?_ ?_ ?_ ?_ ?_ ?_ ?_ ?_ ?_ ?_) <;> first | exact Or.inl (hm.bit (by decide)) | exact Or.inr rfl | skip) | with_reducible refine KeepsO.next ?_
    | split
    | (extract_lets +onlyGivenNames x; first | (refine Keeps.cut s0 x ?_ fun h => ?_; rotate_left; clear_value x) | skip)
    | (unfold x; fail_if_success done)
    | intro h

theorem execScrubOverrun_keeps {k s0 a0 a1 s} (h : Keeps k s0 s)
    (hm : Within 0x100080#21 k := by first | assumption | exact Within.trans (by assumption) (by decide)) :
    KeepsO k s0 (execScrubOverrun a0 a1 s) := by
  unfold execScrubOverrun
  repeat' first
    | with_reducible assumption | with_reducible refine raise_keeps ?_ | with_reducible refine startPass_keeps ?_ | with_reducible refine updPass_keeps ?_ | with_reducible refine Keeps.ite ?_ ?_ | with_reducible refine Keeps.foldl _ _ ?_ _ ?_ | fail_if_no_progress ((with_reducible refine Keeps.mk' ?_ rfl rfl rfl ?_ ?_ ?_ ?_ ?_ ?_ ?_ ?_ ?_ ?_ ?_ ?_ ?_ ?_ ?_ ?_ ?_ ?_ ?_ ?_ ?_) <;> first | exact Or.inl (hm.bit (by decide)) | exact Or.inr rfl | skip) | with_reducible refine KeepsO.next ?_
    | split
    | (extract_lets +onlyGivenNames x; first | (refine Keeps.cut s0 x ?_ fun h => ?_; rotate_left; clear_value x) | skip)
    | (unfold x; fail_if_success done)
    | intro h

end Sys2Proof
end

