-- ==== Sys2Proof/Laws/KeepsUnits.lean ====
section
/-! SUPPORT. Every operation of the media links, the pipes, the last breath, the cores, thermal rounds, the keep store's and the recorder's commands keeps what `Keeps` says, under the mask of the parts it may change. -/
namespace Sys2Proof
set_option Elab.async false
set_option linter.unreachableTactic false
set_option linter.unusedTactic false
open Machine Safety

/-! Links. -/

theorem completeUnit_keeps {k s0 s a1 a2 a3 a4 a5} (h : Keeps k s0 s)
    (hm : Within 0x400#21 k := by first | assumption | exact Within.trans (by assumption) (by decide)) :
    Keeps k s0 (completeUnit s a1 a2 a3 a4 a5) := by
  unfold completeUnit
  repeat' first
    | with_reducible assumption | with_reducible refine Keeps.ite ?_ ?_ | with_reducible refine Keeps.foldl _ _ ?_ _ ?_ | fail_if_no_progress ((with_reducible refine Keeps.mk' ?_ rfl rfl rfl ?_ ?_ ?_ ?_ ?_ ?_ ?_ ?_ ?_ ?_ ?_ ?_ ?_ ?_ ?_ ?_ ?_ ?_ ?_ ?_ ?_) <;> first | exact Or.inl (hm.bit (by decide)) | exact Or.inr rfl | skip)
    | split
    | (extract_lets +onlyGivenNames x; first | (refine Keeps.cut s0 x ?_ fun h => ?_; rotate_left; clear_value x) | skip)
    | (unfold x; fail_if_success done)
    | intro h

theorem execWorkUnitSubmit_keeps {k s0 a0 s} (h : Keeps k s0 s)
    (hm : Within 0x8400#21 k := by first | assumption | exact Within.trans (by assumption) (by decide)) :
    KeepsO k s0 (execWorkUnitSubmit a0 s) := by
  unfold execWorkUnitSubmit
  repeat' first
    | with_reducible assumption | with_reducible refine count_keeps ?_ | with_reducible refine Keeps.ite ?_ ?_ | with_reducible refine Keeps.foldl _ _ ?_ _ ?_ | fail_if_no_progress ((with_reducible refine Keeps.mk' ?_ rfl rfl rfl ?_ ?_ ?_ ?_ ?_ ?_ ?_ ?_ ?_ ?_ ?_ ?_ ?_ ?_ ?_ ?_ ?_ ?_ ?_ ?_ ?_) <;> first | exact Or.inl (hm.bit (by decide)) | exact Or.inr rfl | skip) | with_reducible refine KeepsO.next ?_
    | split
    | (extract_lets +onlyGivenNames x; first | (refine Keeps.cut s0 x ?_ fun h => ?_; rotate_left; clear_value x) | skip)
    | (unfold x; fail_if_success done)
    | intro h

theorem rankFails_keeps {k s0 s a1} (h : Keeps k s0 s)
    (hm : Within 0x100458#21 k := by first | assumption | exact Within.trans (by assumption) (by decide)) :
    Keeps k s0 (rankFails s a1) := by
  unfold rankFails
  repeat' first
    | with_reducible assumption | with_reducible refine releaseCones_keeps ?_ | with_reducible refine raise_keeps ?_ | with_reducible refine Keeps.ite ?_ ?_ | with_reducible refine Keeps.foldl _ _ ?_ _ ?_ | fail_if_no_progress ((with_reducible refine Keeps.mk' ?_ rfl rfl rfl ?_ ?_ ?_ ?_ ?_ ?_ ?_ ?_ ?_ ?_ ?_ ?_ ?_ ?_ ?_ ?_ ?_ ?_ ?_ ?_ ?_) <;> first | exact Or.inl (hm.bit (by decide)) | exact Or.inr rfl | skip)
    | split
    | (extract_lets +onlyGivenNames x; first | (refine Keeps.cut s0 x ?_ fun h => ?_; rotate_left; clear_value x) | skip)
    | (unfold x; fail_if_success done)
    | intro h

theorem lostRose_keeps {k s0 s a1 a2} (h : Keeps k s0 s)
    (hm : Within 0x18047c#21 k := by first | assumption | exact Within.trans (by assumption) (by decide)) :
    Keeps k s0 (lostRose s a1 a2) := by
  unfold lostRose
  repeat' first
    | with_reducible assumption | with_reducible refine closeAll_keeps ?_ | with_reducible refine rankFails_keeps ?_ | with_reducible refine Keeps.ite ?_ ?_ | with_reducible refine Keeps.foldl _ _ ?_ _ ?_ | fail_if_no_progress ((with_reducible refine Keeps.mk' ?_ rfl rfl rfl ?_ ?_ ?_ ?_ ?_ ?_ ?_ ?_ ?_ ?_ ?_ ?_ ?_ ?_ ?_ ?_ ?_ ?_ ?_ ?_ ?_) <;> first | exact Or.inl (hm.bit (by decide)) | exact Or.inr rfl | skip)
    | split
    | (extract_lets +onlyGivenNames x; first | (refine Keeps.cut s0 x ?_ fun h => ?_; rotate_left; clear_value x) | skip)
    | (unfold x; fail_if_success done)
    | intro h

theorem unparkEnds_keeps {k s0 s a1} (h : Keeps k s0 s)
    (hm : Within 0x102458#21 k := by first | assumption | exact Within.trans (by assumption) (by decide)) :
    Keeps k s0 (unparkEnds s a1) := by
  unfold unparkEnds
  repeat' first
    | with_reducible assumption | with_reducible refine rankFails_keeps ?_ | with_reducible refine Keeps.ite ?_ ?_ | with_reducible refine Keeps.foldl _ _ ?_ _ ?_ | fail_if_no_progress ((with_reducible refine Keeps.mk' ?_ rfl rfl rfl ?_ ?_ ?_ ?_ ?_ ?_ ?_ ?_ ?_ ?_ ?_ ?_ ?_ ?_ ?_ ?_ ?_ ?_ ?_ ?_ ?_) <;> first | exact Or.inl (hm.bit (by decide)) | exact Or.inr rfl | skip)
    | split
    | (extract_lets +onlyGivenNames x; first | (refine Keeps.cut s0 x ?_ fun h => ?_; rotate_left; clear_value x) | skip)
    | (unfold x; fail_if_success done)
    | intro h

theorem escalateRead_keeps {k s0 s a1} (h : Keeps k s0 s)
    (hm : Within 0x410#21 k := by first | assumption | exact Within.trans (by assumption) (by decide)) :
    Keeps k s0 (escalateRead s a1) := by
  unfold escalateRead
  repeat' first
    | with_reducible assumption | with_reducible refine senseStripe_keeps ?_ | with_reducible refine Keeps.ite ?_ ?_ | with_reducible refine Keeps.foldl _ _ ?_ _ ?_ | fail_if_no_progress ((with_reducible refine Keeps.mk' ?_ rfl rfl rfl ?_ ?_ ?_ ?_ ?_ ?_ ?_ ?_ ?_ ?_ ?_ ?_ ?_ ?_ ?_ ?_ ?_ ?_ ?_ ?_ ?_) <;> first | exact Or.inl (hm.bit (by decide)) | exact Or.inr rfl | skip)
    | split
    | (extract_lets +onlyGivenNames x; first | (refine Keeps.cut s0 x ?_ fun h => ?_; rotate_left; clear_value x) | skip)
    | (unfold x; fail_if_success done)
    | intro h

theorem escalateReads_keeps {k s0 s a1 a2} (h : Keeps k s0 s)
    (hm : Within 0x8490#21 k := by first | assumption | exact Within.trans (by assumption) (by decide)) :
    Keeps k s0 (escalateReads s a1 a2) := by
  unfold escalateReads
  repeat' first
    | with_reducible assumption | with_reducible refine escalateRead_keeps ?_ | with_reducible refine updEcc_keeps ?_ | with_reducible refine count_keeps ?_ | with_reducible refine Keeps.ite ?_ ?_ | with_reducible refine Keeps.foldl _ _ ?_ _ ?_ | fail_if_no_progress ((with_reducible refine Keeps.mk' ?_ rfl rfl rfl ?_ ?_ ?_ ?_ ?_ ?_ ?_ ?_ ?_ ?_ ?_ ?_ ?_ ?_ ?_ ?_ ?_ ?_ ?_ ?_ ?_) <;> first | exact Or.inl (hm.bit (by decide)) | exact Or.inr rfl | skip)
    | split
    | (extract_lets +onlyGivenNames x; first | (refine Keeps.cut s0 x ?_ fun h => ?_; rotate_left; clear_value x) | skip)
    | (unfold x; fail_if_success done)
    | intro h

theorem stripUnits_keeps {k s0 s a1 a2} (h : Keeps k s0 s)
    (hm : Within 0x400#21 k := by first | assumption | exact Within.trans (by assumption) (by decide)) :
    Keeps k s0 (stripUnits s a1 a2) := by
  unfold stripUnits
  repeat' first
    | with_reducible assumption | with_reducible refine Keeps.ite ?_ ?_ | with_reducible refine Keeps.foldl _ _ ?_ _ ?_ | fail_if_no_progress ((with_reducible refine Keeps.mk' ?_ rfl rfl rfl ?_ ?_ ?_ ?_ ?_ ?_ ?_ ?_ ?_ ?_ ?_ ?_ ?_ ?_ ?_ ?_ ?_ ?_ ?_ ?_ ?_) <;> first | exact Or.inl (hm.bit (by decide)) | exact Or.inr rfl | skip)
    | split
    | (extract_lets +onlyGivenNames x; first | (refine Keeps.cut s0 x ?_ fun h => ?_; rotate_left; clear_value x) | skip)
    | (unfold x; fail_if_success done)
    | intro h

theorem returnWork_keeps {k s0 s a1} (h : Keeps k s0 s)
    (hm : Within 0x400#21 k := by first | assumption | exact Within.trans (by assumption) (by decide)) :
    Keeps k s0 (returnWork s a1) := by
  unfold returnWork
  repeat' first
    | with_reducible assumption | with_reducible refine stripUnits_keeps ?_ | with_reducible refine completeUnit_keeps ?_ | with_reducible refine updLink_keeps ?_ | with_reducible refine Keeps.ite ?_ ?_ | with_reducible refine Keeps.foldl _ _ ?_ _ ?_ | fail_if_no_progress ((with_reducible refine Keeps.mk' ?_ rfl rfl rfl ?_ ?_ ?_ ?_ ?_ ?_ ?_ ?_ ?_ ?_ ?_ ?_ ?_ ?_ ?_ ?_ ?_ ?_ ?_ ?_ ?_) <;> first | exact Or.inl (hm.bit (by decide)) | exact Or.inr rfl | skip)
    | split
    | (extract_lets +onlyGivenNames x; first | (refine Keeps.cut s0 x ?_ fun h => ?_; rotate_left; clear_value x) | skip)
    | (unfold x; fail_if_success done)
    | intro h

theorem noteOut_keeps {k s0 s a1} (h : Keeps k s0 s)
    (hm : Within 0x1000#21 k := by first | assumption | exact Within.trans (by assumption) (by decide)) :
    Keeps k s0 (noteOut s a1) := by
  unfold noteOut
  repeat' first
    | with_reducible assumption | with_reducible refine Keeps.ite ?_ ?_ | with_reducible refine Keeps.foldl _ _ ?_ _ ?_ | fail_if_no_progress ((with_reducible refine Keeps.mk' ?_ rfl rfl rfl ?_ ?_ ?_ ?_ ?_ ?_ ?_ ?_ ?_ ?_ ?_ ?_ ?_ ?_ ?_ ?_ ?_ ?_ ?_ ?_ ?_) <;> first | exact Or.inl (hm.bit (by decide)) | exact Or.inr rfl | skip)
    | split
    | (extract_lets +onlyGivenNames x; first | (refine Keeps.cut s0 x ?_ fun h => ?_; rotate_left; clear_value x) | skip)
    | (unfold x; fail_if_success done)
    | intro h

theorem outOfService_keeps {k s0 s a1 a2 a3} (h : Keeps k s0 s)
    (hm : Within 0x1894fc#21 k := by first | assumption | exact Within.trans (by assumption) (by decide)) :
    Keeps k s0 (outOfService s a1 a2 a3) := by
  unfold outOfService
  repeat' first
    | with_reducible assumption | with_reducible refine noteOut_keeps ?_ | with_reducible refine escalateReads_keeps ?_ | with_reducible refine updLink_keeps ?_ | with_reducible refine lostRose_keeps ?_ | with_reducible refine Keeps.ite ?_ ?_ | with_reducible refine Keeps.foldl _ _ ?_ _ ?_ | fail_if_no_progress ((with_reducible refine Keeps.mk' ?_ rfl rfl rfl ?_ ?_ ?_ ?_ ?_ ?_ ?_ ?_ ?_ ?_ ?_ ?_ ?_ ?_ ?_ ?_ ?_ ?_ ?_ ?_ ?_) <;> first | exact Or.inl (hm.bit (by decide)) | exact Or.inr rfl | skip)
    | split
    | (extract_lets +onlyGivenNames x; first | (refine Keeps.cut s0 x ?_ fun h => ?_; rotate_left; clear_value x) | skip)
    | (unfold x; fail_if_success done)
    | intro h

theorem leaveService_keeps {k s0 s a1 a2 a3} (h : Keeps k s0 s)
    (hm : Within 0x1894fc#21 k := by first | assumption | exact Within.trans (by assumption) (by decide)) :
    Keeps k s0 (leaveService s a1 a2 a3) := by
  unfold leaveService
  repeat' first
    | with_reducible assumption | with_reducible refine outOfService_keeps ?_ | with_reducible refine returnWork_keeps ?_ | with_reducible refine Keeps.ite ?_ ?_ | with_reducible refine Keeps.foldl _ _ ?_ _ ?_ | fail_if_no_progress ((with_reducible refine Keeps.mk' ?_ rfl rfl rfl ?_ ?_ ?_ ?_ ?_ ?_ ?_ ?_ ?_ ?_ ?_ ?_ ?_ ?_ ?_ ?_ ?_ ?_ ?_ ?_ ?_) <;> first | exact Or.inl (hm.bit (by decide)) | exact Or.inr rfl | skip)
    | split
    | (extract_lets +onlyGivenNames x; first | (refine Keeps.cut s0 x ?_ fun h => ?_; rotate_left; clear_value x) | skip)
    | (unfold x; fail_if_success done)
    | intro h

theorem linkLost_keeps {k s0 s a1 a2} (h : Keeps k s0 s)
    (hm : Within 0x18b4fc#21 k := by first | assumption | exact Within.trans (by assumption) (by decide)) :
    Keeps k s0 (linkLost s a1 a2) := by
  unfold linkLost
  repeat' first
    | with_reducible assumption | with_reducible refine unparkEnds_keeps ?_ | with_reducible refine raise_keeps ?_ | with_reducible refine leaveService_keeps ?_ | with_reducible refine Keeps.ite ?_ ?_ | with_reducible refine Keeps.foldl _ _ ?_ _ ?_ | fail_if_no_progress ((with_reducible refine Keeps.mk' ?_ rfl rfl rfl ?_ ?_ ?_ ?_ ?_ ?_ ?_ ?_ ?_ ?_ ?_ ?_ ?_ ?_ ?_ ?_ ?_ ?_ ?_ ?_ ?_) <;> first | exact Or.inl (hm.bit (by decide)) | exact Or.inr rfl | skip)
    | split
    | (extract_lets +onlyGivenNames x; first | (refine Keeps.cut s0 x ?_ fun h => ?_; rotate_left; clear_value x) | skip)
    | (unfold x; fail_if_success done)
    | intro h

theorem startRetrain_keeps {k s0 s a1 a2} (h : Keeps k s0 s)
    (hm : Within 0x1894fc#21 k := by first | assumption | exact Within.trans (by assumption) (by decide)) :
    Keeps k s0 (startRetrain s a1 a2) := by
  unfold startRetrain
  repeat' first
    | with_reducible assumption | with_reducible refine updLink_keeps ?_ | with_reducible refine leaveService_keeps ?_ | with_reducible refine Keeps.ite ?_ ?_ | with_reducible refine Keeps.foldl _ _ ?_ _ ?_ | fail_if_no_progress ((with_reducible refine Keeps.mk' ?_ rfl rfl rfl ?_ ?_ ?_ ?_ ?_ ?_ ?_ ?_ ?_ ?_ ?_ ?_ ?_ ?_ ?_ ?_ ?_ ?_ ?_ ?_ ?_) <;> first | exact Or.inl (hm.bit (by decide)) | exact Or.inr rfl | skip)
    | split
    | (extract_lets +onlyGivenNames x; first | (refine Keeps.cut s0 x ?_ fun h => ?_; rotate_left; clear_value x) | skip)
    | (unfold x; fail_if_success done)
    | intro h

theorem resumeLinks_keeps {k s0 s a1} (h : Keeps k s0 s)
    (hm : Within 0x1894fc#21 k := by first | assumption | exact Within.trans (by assumption) (by decide)) :
    Keeps k s0 (resumeLinks s a1) := by
  unfold resumeLinks
  repeat' first
    | with_reducible assumption | with_reducible refine draw_keeps ?_ | with_reducible refine startRetrain_keeps ?_ | with_reducible refine Keeps.ite ?_ ?_ | with_reducible refine Keeps.foldl _ _ ?_ _ ?_ | fail_if_no_progress ((with_reducible refine Keeps.mk' ?_ rfl rfl rfl ?_ ?_ ?_ ?_ ?_ ?_ ?_ ?_ ?_ ?_ ?_ ?_ ?_ ?_ ?_ ?_ ?_ ?_ ?_ ?_ ?_) <;> first | exact Or.inl (hm.bit (by decide)) | exact Or.inr rfl | skip)
    | split
    | (extract_lets +onlyGivenNames x; first | (refine Keeps.cut s0 x ?_ fun h => ?_; rotate_left; clear_value x) | skip)
    | (unfold x; fail_if_success done)
    | intro h
    | with_reducible refine KeepsR.elim ?_ (by assumption) | with_reducible refine KeepsL.elim ?_ (by assumption) | with_reducible refine KeepsOS.elim ?_ (by assumption) | with_reducible refine KeepsOR.elim ?_ (by assumption) | with_reducible refine KeepsOR3.elim ?_ (by assumption) | with_reducible refine KeepsL.proj ?_ | with_reducible refine KeepsR.proj ?_

theorem rankBack_keeps {k s0 s a1} (h : Keeps k s0 s)
    (hm : Within 0x102458#21 k := by first | assumption | exact Within.trans (by assumption) (by decide)) :
    Keeps k s0 (rankBack s a1) := by
  unfold rankBack
  repeat' first
    | with_reducible assumption | with_reducible refine unparkEnds_keeps ?_ | with_reducible refine Keeps.ite ?_ ?_ | with_reducible refine Keeps.foldl _ _ ?_ _ ?_ | fail_if_no_progress ((with_reducible refine Keeps.mk' ?_ rfl rfl rfl ?_ ?_ ?_ ?_ ?_ ?_ ?_ ?_ ?_ ?_ ?_ ?_ ?_ ?_ ?_ ?_ ?_ ?_ ?_ ?_ ?_) <;> first | exact Or.inl (hm.bit (by decide)) | exact Or.inr rfl | skip)
    | split
    | (extract_lets +onlyGivenNames x; first | (refine Keeps.cut s0 x ?_ fun h => ?_; rotate_left; clear_value x) | skip)
    | (unfold x; fail_if_success done)
    | intro h

theorem returnToService_keeps {k s0 s a1 a2} (h : Keeps k s0 s)
    (hm : Within 0x18257c#21 k := by first | assumption | exact Within.trans (by assumption) (by decide)) :
    Keeps k s0 (returnToService s a1 a2) := by
  unfold returnToService
  repeat' first
    | with_reducible assumption | with_reducible refine updLink_keeps ?_ | with_reducible refine startLinkRebuild_keeps ?_ | with_reducible refine updLinkWear_keeps ?_ | with_reducible refine clearForRebuild_keeps ?_ | with_reducible refine rankBack_keeps ?_ | with_reducible refine Keeps.ite ?_ ?_ | with_reducible refine Keeps.foldl _ _ ?_ _ ?_ | fail_if_no_progress ((with_reducible refine Keeps.mk' ?_ rfl rfl rfl ?_ ?_ ?_ ?_ ?_ ?_ ?_ ?_ ?_ ?_ ?_ ?_ ?_ ?_ ?_ ?_ ?_ ?_ ?_ ?_ ?_) <;> first | exact Or.inl (hm.bit (by decide)) | exact Or.inr rfl | skip)
    | split
    | (extract_lets +onlyGivenNames x; first | (refine Keeps.cut s0 x ?_ fun h => ?_; rotate_left; clear_value x) | skip)
    | (unfold x; fail_if_success done)
    | intro h

theorem settleOnline_keeps {k s0 s a1} (h : Keeps k s0 s)
    (hm : Within 0x1400#21 k := by first | assumption | exact Within.trans (by assumption) (by decide)) :
    Keeps k s0 (settleOnline s a1) := by
  unfold settleOnline
  repeat' first
    | with_reducible assumption | with_reducible refine finishId_keeps ?_ | with_reducible refine Keeps.ite ?_ ?_ | with_reducible refine Keeps.foldl _ _ ?_ _ ?_ | fail_if_no_progress ((with_reducible refine Keeps.mk' ?_ rfl rfl rfl ?_ ?_ ?_ ?_ ?_ ?_ ?_ ?_ ?_ ?_ ?_ ?_ ?_ ?_ ?_ ?_ ?_ ?_ ?_ ?_ ?_) <;> first | exact Or.inl (hm.bit (by decide)) | exact Or.inr rfl | skip)
    | split
    | (extract_lets +onlyGivenNames x; first | (refine Keeps.cut s0 x ?_ fun h => ?_; rotate_left; clear_value x) | skip)
    | (unfold x; fail_if_success done)
    | intro h

theorem enterRemovable_keeps {k s0 s a1} (h : Keeps k s0 s)
    (hm : Within 0x103458#21 k := by first | assumption | exact Within.trans (by assumption) (by decide)) :
    Keeps k s0 (enterRemovable s a1) := by
  unfold enterRemovable
  repeat' first
    | with_reducible assumption | with_reducible refine unparkEnds_keeps ?_ | with_reducible refine updLink_keeps ?_ | with_reducible refine returnWork_keeps ?_ | with_reducible refine raise_keeps ?_ | with_reducible refine finishId_keeps ?_ | with_reducible refine Keeps.ite ?_ ?_ | with_reducible refine Keeps.foldl _ _ ?_ _ ?_ | fail_if_no_progress ((with_reducible refine Keeps.mk' ?_ rfl rfl rfl ?_ ?_ ?_ ?_ ?_ ?_ ?_ ?_ ?_ ?_ ?_ ?_ ?_ ?_ ?_ ?_ ?_ ?_ ?_ ?_ ?_) <;> first | exact Or.inl (hm.bit (by decide)) | exact Or.inr rfl | skip)
    | split
    | (extract_lets +onlyGivenNames x; first | (refine Keeps.cut s0 x ?_ fun h => ?_; rotate_left; clear_value x) | skip)
    | (unfold x; fail_if_success done)
    | intro h

theorem execLinkRemovable_keeps {k s0 a0 s} (h : Keeps k s0 s)
    (hm : Within 0x103458#21 k := by first | assumption | exact Within.trans (by assumption) (by decide)) :
    KeepsO k s0 (execLinkRemovable a0 s) := by
  unfold execLinkRemovable
  repeat' first
    | with_reducible assumption | with_reducible refine enterRemovable_keeps ?_ | with_reducible refine Keeps.ite ?_ ?_ | with_reducible refine Keeps.foldl _ _ ?_ _ ?_ | fail_if_no_progress ((with_reducible refine Keeps.mk' ?_ rfl rfl rfl ?_ ?_ ?_ ?_ ?_ ?_ ?_ ?_ ?_ ?_ ?_ ?_ ?_ ?_ ?_ ?_ ?_ ?_ ?_ ?_ ?_) <;> first | exact Or.inl (hm.bit (by decide)) | exact Or.inr rfl | skip) | with_reducible refine KeepsO.next ?_
    | split
    | (extract_lets +onlyGivenNames x; first | (refine Keeps.cut s0 x ?_ fun h => ?_; rotate_left; clear_value x) | skip)
    | (unfold x; fail_if_success done)
    | intro h

theorem execLossOfSignal_keeps {k s0 a0 s} (h : Keeps k s0 s)
    (hm : Within 0x18b4fc#21 k := by first | assumption | exact Within.trans (by assumption) (by decide)) :
    KeepsO k s0 (execLossOfSignal a0 s) := by
  unfold execLossOfSignal
  repeat' first
    | with_reducible assumption | with_reducible refine settleOnline_keeps ?_ | with_reducible refine linkLost_keeps ?_ | with_reducible refine raise_keeps ?_ | with_reducible refine updLink_keeps ?_ | with_reducible refine Keeps.ite ?_ ?_ | with_reducible refine Keeps.foldl _ _ ?_ _ ?_ | fail_if_no_progress ((with_reducible refine Keeps.mk' ?_ rfl rfl rfl ?_ ?_ ?_ ?_ ?_ ?_ ?_ ?_ ?_ ?_ ?_ ?_ ?_ ?_ ?_ ?_ ?_ ?_ ?_ ?_ ?_) <;> first | exact Or.inl (hm.bit (by decide)) | exact Or.inr rfl | skip) | with_reducible refine KeepsO.next ?_
    | split
    | (extract_lets +onlyGivenNames x; first | (refine Keeps.cut s0 x ?_ fun h => ?_; rotate_left; clear_value x) | skip)
    | (unfold x; fail_if_success done)
    | intro h

theorem execLinkDetectPoll_keeps {k s0 a0 a1 s} (h : Keeps k s0 s)
    (hm : Within 0x1400#21 k := by first | assumption | exact Within.trans (by assumption) (by decide)) :
    KeepsO k s0 (execLinkDetectPoll a0 a1 s) := by
  unfold execLinkDetectPoll
  repeat' first
    | with_reducible assumption | with_reducible refine updLink_keeps ?_ | with_reducible refine settleOnline_keeps ?_ | with_reducible refine Keeps.ite ?_ ?_ | with_reducible refine Keeps.foldl _ _ ?_ _ ?_ | fail_if_no_progress ((with_reducible refine Keeps.mk' ?_ rfl rfl rfl ?_ ?_ ?_ ?_ ?_ ?_ ?_ ?_ ?_ ?_ ?_ ?_ ?_ ?_ ?_ ?_ ?_ ?_ ?_ ?_ ?_) <;> first | exact Or.inl (hm.bit (by decide)) | exact Or.inr rfl | skip) | with_reducible refine KeepsO.next ?_
    | split
    | (extract_lets +onlyGivenNames x; first | (refine Keeps.cut s0 x ?_ fun h => ?_; rotate_left; clear_value x) | skip)
    | (unfold x; fail_if_success done)
    | intro h

theorem execTrainingStepDone_keeps {k s0 a0 a1 a2 a3 a4 s} (h : Keeps k s0 s)
    (hm : Within 0x18357c#21 k := by first | assumption | exact Within.trans (by assumption) (by decide)) :
    KeepsO k s0 (execTrainingStepDone a0 a1 a2 a3 a4 s) := by
  unfold execTrainingStepDone
  repeat' first
    | with_reducible assumption | with_reducible refine updLink_keeps ?_ | with_reducible refine settleOnline_keeps ?_ | with_reducible refine returnToService_keeps ?_ | with_reducible refine Keeps.ite ?_ ?_ | with_reducible refine Keeps.foldl _ _ ?_ _ ?_ | fail_if_no_progress ((with_reducible refine Keeps.mk' ?_ rfl rfl rfl ?_ ?_ ?_ ?_ ?_ ?_ ?_ ?_ ?_ ?_ ?_ ?_ ?_ ?_ ?_ ?_ ?_ ?_ ?_ ?_ ?_) <;> first | exact Or.inl (hm.bit (by decide)) | exact Or.inr rfl | skip) | with_reducible refine KeepsO.next ?_
    | split
    | (extract_lets +onlyGivenNames x; first | (refine Keeps.cut s0 x ?_ fun h => ?_; rotate_left; clear_value x) | skip)
    | (unfold x; fail_if_success done)
    | intro h

theorem execTrainingTimeout_keeps {k s0 a0 s} (h : Keeps k s0 s)
    (hm : Within 0x101440#21 k := by first | assumption | exact Within.trans (by assumption) (by decide)) :
    KeepsO k s0 (execTrainingTimeout a0 s) := by
  unfold execTrainingTimeout
  repeat' first
    | with_reducible assumption | with_reducible refine updLink_keeps ?_ | with_reducible refine settleOnline_keeps ?_ | with_reducible refine raise_keeps ?_ | with_reducible refine Keeps.ite ?_ ?_ | with_reducible refine Keeps.foldl _ _ ?_ _ ?_ | fail_if_no_progress ((with_reducible refine Keeps.mk' ?_ rfl rfl rfl ?_ ?_ ?_ ?_ ?_ ?_ ?_ ?_ ?_ ?_ ?_ ?_ ?_ ?_ ?_ ?_ ?_ ?_ ?_ ?_ ?_) <;> first | exact Or.inl (hm.bit (by decide)) | exact Or.inr rfl | skip) | with_reducible refine KeepsO.next ?_
    | split
    | (extract_lets +onlyGivenNames x; first | (refine Keeps.cut s0 x ?_ fun h => ?_; rotate_left; clear_value x) | skip)
    | (unfold x; fail_if_success done)
    | intro h

theorem adjustPackage_keeps {k s0 s a1 a2} (h : Keeps k s0 s)
    (hm : Within 0x80400#21 k := by first | assumption | exact Within.trans (by assumption) (by decide)) :
    Keeps k s0 (adjustPackage s a1 a2) := by
  unfold adjustPackage
  repeat' first
    | with_reducible assumption | with_reducible refine draw_keeps ?_ | with_reducible refine updLink_keeps ?_ | with_reducible refine Keeps.ite ?_ ?_ | with_reducible refine Keeps.foldl _ _ ?_ _ ?_ | fail_if_no_progress ((with_reducible refine Keeps.mk' ?_ rfl rfl rfl ?_ ?_ ?_ ?_ ?_ ?_ ?_ ?_ ?_ ?_ ?_ ?_ ?_ ?_ ?_ ?_ ?_ ?_ ?_ ?_ ?_) <;> first | exact Or.inl (hm.bit (by decide)) | exact Or.inr rfl | skip)
    | split
    | (extract_lets +onlyGivenNames x; first | (refine Keeps.cut s0 x ?_ fun h => ?_; rotate_left; clear_value x) | skip)
    | (unfold x; fail_if_success done)
    | intro h
    | with_reducible refine KeepsR.elim ?_ (by assumption) | with_reducible refine KeepsL.elim ?_ (by assumption) | with_reducible refine KeepsOS.elim ?_ (by assumption) | with_reducible refine KeepsOR.elim ?_ (by assumption) | with_reducible refine KeepsOR3.elim ?_ (by assumption) | with_reducible refine KeepsL.proj ?_ | with_reducible refine KeepsR.proj ?_

theorem adjustDevice_keeps {k s0 s a1 a2} (h : Keeps k s0 s)
    (hm : Within 0x400#21 k := by first | assumption | exact Within.trans (by assumption) (by decide)) :
    Keeps k s0 (adjustDevice s a1 a2) := by
  unfold adjustDevice
  repeat' first
    | with_reducible assumption | with_reducible refine updLink_keeps ?_ | with_reducible refine Keeps.ite ?_ ?_ | with_reducible refine Keeps.foldl _ _ ?_ _ ?_ | fail_if_no_progress ((with_reducible refine Keeps.mk' ?_ rfl rfl rfl ?_ ?_ ?_ ?_ ?_ ?_ ?_ ?_ ?_ ?_ ?_ ?_ ?_ ?_ ?_ ?_ ?_ ?_ ?_ ?_ ?_) <;> first | exact Or.inl (hm.bit (by decide)) | exact Or.inr rfl | skip)
    | split
    | (extract_lets +onlyGivenNames x; first | (refine Keeps.cut s0 x ?_ fun h => ?_; rotate_left; clear_value x) | skip)
    | (unfold x; fail_if_success done)
    | intro h

theorem execEqEvaluation_keeps {k s0 a0 a1 a2 a3 s} (h : Keeps k s0 s)
    (hm : Within 0x1894fc#21 k := by first | assumption | exact Within.trans (by assumption) (by decide)) :
    KeepsO k s0 (execEqEvaluation a0 a1 a2 a3 s) := by
  unfold execEqEvaluation
  repeat' first
    | with_reducible assumption | with_reducible refine adjustDevice_keeps ?_ | with_reducible refine adjustPackage_keeps ?_ | with_reducible refine updLink_keeps ?_ | with_reducible refine startRetrain_keeps ?_ | with_reducible refine Keeps.ite ?_ ?_ | with_reducible refine Keeps.foldl _ _ ?_ _ ?_ | fail_if_no_progress ((with_reducible refine Keeps.mk' ?_ rfl rfl rfl ?_ ?_ ?_ ?_ ?_ ?_ ?_ ?_ ?_ ?_ ?_ ?_ ?_ ?_ ?_ ?_ ?_ ?_ ?_ ?_ ?_) <;> first | exact Or.inl (hm.bit (by decide)) | exact Or.inr rfl | skip) | with_reducible refine KeepsO.next ?_
    | split
    | (extract_lets +onlyGivenNames x; first | (refine Keeps.cut s0 x ?_ fun h => ?_; rotate_left; clear_value x) | skip)
    | (unfold x; fail_if_success done)
    | intro h

theorem factoryBlocks_keeps {k s0 s a1} (h : Keeps k s0 s)
    (hm : Within 0x10012c#21 k := by first | assumption | exact Within.trans (by assumption) (by decide)) :
    Keeps k s0 (factoryBlocks s a1) := by
  unfold factoryBlocks
  repeat' first
    | with_reducible assumption | with_reducible refine degradeStripe_keeps ?_ | with_reducible refine Keeps.ite ?_ ?_ | with_reducible refine Keeps.foldl _ _ ?_ _ ?_ | fail_if_no_progress ((with_reducible refine Keeps.mk' ?_ rfl rfl rfl ?_ ?_ ?_ ?_ ?_ ?_ ?_ ?_ ?_ ?_ ?_ ?_ ?_ ?_ ?_ ?_ ?_ ?_ ?_ ?_ ?_) <;> first | exact Or.inl (hm.bit (by decide)) | exact Or.inr rfl | skip)
    | split
    | (extract_lets +onlyGivenNames x; first | (refine Keeps.cut s0 x ?_ fun h => ?_; rotate_left; clear_value x) | skip)
    | (unfold x; fail_if_success done)
    | intro h

theorem resetDieState_keeps {k s0 s a1} (h : Keeps k s0 s)
    (hm : Within 0x40#21 k := by first | assumption | exact Within.trans (by assumption) (by decide)) :
    Keeps k s0 (resetDieState s a1) := by
  unfold resetDieState
  repeat' first
    | with_reducible assumption | with_reducible refine Keeps.ite ?_ ?_ | with_reducible refine Keeps.foldl _ _ ?_ _ ?_ | fail_if_no_progress ((with_reducible refine Keeps.mk' ?_ rfl rfl rfl ?_ ?_ ?_ ?_ ?_ ?_ ?_ ?_ ?_ ?_ ?_ ?_ ?_ ?_ ?_ ?_ ?_ ?_ ?_ ?_ ?_) <;> first | exact Or.inl (hm.bit (by decide)) | exact Or.inr rfl | skip)
    | split
    | (extract_lets +onlyGivenNames x; first | (refine Keeps.cut s0 x ?_ fun h => ?_; rotate_left; clear_value x) | skip)
    | (unfold x; fail_if_success done)
    | intro h

theorem loadAllSets_keeps {k s0 s a1} (h : Keeps k s0 s)
    (hm : Within 0x40#21 k := by first | assumption | exact Within.trans (by assumption) (by decide)) :
    Keeps k s0 (loadAllSets s a1) := by
  unfold loadAllSets
  repeat' first
    | with_reducible assumption | with_reducible refine queueReload_keeps ?_ | with_reducible refine Keeps.ite ?_ ?_ | with_reducible refine Keeps.foldl _ _ ?_ _ ?_ | fail_if_no_progress ((with_reducible refine Keeps.mk' ?_ rfl rfl rfl ?_ ?_ ?_ ?_ ?_ ?_ ?_ ?_ ?_ ?_ ?_ ?_ ?_ ?_ ?_ ?_ ?_ ?_ ?_ ?_ ?_) <;> first | exact Or.inl (hm.bit (by decide)) | exact Or.inr rfl | skip)
    | split
    | (extract_lets +onlyGivenNames x; first | (refine Keeps.cut s0 x ?_ fun h => ?_; rotate_left; clear_value x) | skip)
    | (unfold x; fail_if_success done)
    | intro h

theorem acceptPackage_keeps {k s0 s a1} (h : Keeps k s0 s)
    (hm : Within 0x18357c#21 k := by first | assumption | exact Within.trans (by assumption) (by decide)) :
    Keeps k s0 (acceptPackage s a1) := by
  unfold acceptPackage
  repeat' first
    | with_reducible assumption | with_reducible refine updLinkWear_keeps ?_ | with_reducible refine resetDieState_keeps ?_ | with_reducible refine updLink_keeps ?_ | with_reducible refine settleOnline_keeps ?_ | with_reducible refine factoryBlocks_keeps ?_ | with_reducible refine returnToService_keeps ?_ | with_reducible refine Keeps.ite ?_ ?_ | with_reducible refine Keeps.foldl _ _ ?_ _ ?_ | fail_if_no_progress ((with_reducible refine Keeps.mk' ?_ rfl rfl rfl ?_ ?_ ?_ ?_ ?_ ?_ ?_ ?_ ?_ ?_ ?_ ?_ ?_ ?_ ?_ ?_ ?_ ?_ ?_ ?_ ?_) <;> first | exact Or.inl (hm.bit (by decide)) | exact Or.inr rfl | skip)
    | split
    | (extract_lets +onlyGivenNames x; first | (refine Keeps.cut s0 x ?_ fun h => ?_; rotate_left; clear_value x) | skip)
    | (unfold x; fail_if_success done)
    | intro h

theorem refusePackage_keeps {k s0 s a1 a2} (h : Keeps k s0 s)
    (hm : Within 0x101400#21 k := by first | assumption | exact Within.trans (by assumption) (by decide)) :
    Keeps k s0 (refusePackage s a1 a2) := by
  unfold refusePackage
  repeat' first
    | with_reducible assumption | with_reducible refine settleOnline_keeps ?_ | with_reducible refine raise_keeps ?_ | with_reducible refine updLink_keeps ?_ | with_reducible refine Keeps.ite ?_ ?_ | with_reducible refine Keeps.foldl _ _ ?_ _ ?_ | fail_if_no_progress ((with_reducible refine Keeps.mk' ?_ rfl rfl rfl ?_ ?_ ?_ ?_ ?_ ?_ ?_ ?_ ?_ ?_ ?_ ?_ ?_ ?_ ?_ ?_ ?_ ?_ ?_ ?_ ?_) <;> first | exact Or.inl (hm.bit (by decide)) | exact Or.inr rfl | skip)
    | split
    | (extract_lets +onlyGivenNames x; first | (refine Keeps.cut s0 x ?_ fun h => ?_; rotate_left; clear_value x) | skip)
    | (unfold x; fail_if_success done)
    | intro h

theorem execPackageInventoryDone_keeps {k s0 a0 a1 a2 s} (h : Keeps k s0 s)
    (hm : Within 0x101440#21 k := by first | assumption | exact Within.trans (by assumption) (by decide)) :
    KeepsO k s0 (execPackageInventoryDone a0 a1 a2 s) := by
  unfold execPackageInventoryDone
  repeat' first
    | with_reducible assumption | with_reducible refine busRead_keeps ?_ | with_reducible refine refusePackage_keeps ?_ | with_reducible refine loadAllSets_keeps ?_ | with_reducible refine updLink_keeps ?_ | with_reducible refine Keeps.ite ?_ ?_ | with_reducible refine Keeps.foldl _ _ ?_ _ ?_ | fail_if_no_progress ((with_reducible refine Keeps.mk' ?_ rfl rfl rfl ?_ ?_ ?_ ?_ ?_ ?_ ?_ ?_ ?_ ?_ ?_ ?_ ?_ ?_ ?_ ?_ ?_ ?_ ?_ ?_ ?_) <;> first | exact Or.inl (hm.bit (by decide)) | exact Or.inr rfl | skip) | with_reducible refine KeepsO.next ?_
    | split
    | (extract_lets +onlyGivenNames x; first | (refine Keeps.cut s0 x ?_ fun h => ?_; rotate_left; clear_value x) | skip)
    | (unfold x; fail_if_success done)
    | intro h

/-! Frames. -/

theorem planEntry_keeps {k s0 s a1 a2} (h : Keeps k s0 s)
    (hm : Within 0x8400#21 k := by first | assumption | exact Within.trans (by assumption) (by decide)) :
    Keeps k s0 (planEntry s a1 a2) := by
  unfold planEntry
  repeat' first
    | with_reducible assumption | with_reducible refine count_keeps ?_ | with_reducible refine updLink_keeps ?_ | with_reducible refine Keeps.ite ?_ ?_ | with_reducible refine Keeps.foldl _ _ ?_ _ ?_ | fail_if_no_progress ((with_reducible refine Keeps.mk' ?_ rfl rfl rfl ?_ ?_ ?_ ?_ ?_ ?_ ?_ ?_ ?_ ?_ ?_ ?_ ?_ ?_ ?_ ?_ ?_ ?_ ?_ ?_ ?_) <;> first | exact Or.inl (hm.bit (by decide)) | exact Or.inr rfl | skip)
    | split
    | (extract_lets +onlyGivenNames x; first | (refine Keeps.cut s0 x ?_ fun h => ?_; rotate_left; clear_value x) | skip)
    | (unfold x; fail_if_success done)
    | intro h

theorem planUnitOn_keeps {k s0 s a1 a2} (h : Keeps k s0 s)
    (hm : Within 0x8400#21 k := by first | assumption | exact Within.trans (by assumption) (by decide)) :
    Keeps k s0 (planUnitOn s a1 a2) := by
  unfold planUnitOn
  repeat' first
    | with_reducible assumption | with_reducible refine updLink_keeps ?_ | with_reducible refine planEntry_keeps ?_ | with_reducible refine Keeps.ite ?_ ?_ | with_reducible refine Keeps.foldl _ _ ?_ _ ?_ | fail_if_no_progress ((with_reducible refine Keeps.mk' ?_ rfl rfl rfl ?_ ?_ ?_ ?_ ?_ ?_ ?_ ?_ ?_ ?_ ?_ ?_ ?_ ?_ ?_ ?_ ?_ ?_ ?_ ?_ ?_) <;> first | exact Or.inl (hm.bit (by decide)) | exact Or.inr rfl | skip)
    | split
    | (extract_lets +onlyGivenNames x; first | (refine Keeps.cut s0 x ?_ fun h => ?_; rotate_left; clear_value x) | skip)
    | (unfold x; fail_if_success done)
    | intro h

theorem planUnit_keeps {k s0 s a1} (h : Keeps k s0 s)
    (hm : Within 0x8400#21 k := by first | assumption | exact Within.trans (by assumption) (by decide)) :
    Keeps k s0 (planUnit s a1) := by
  unfold planUnit
  repeat' first
    | with_reducible assumption | with_reducible refine completeUnit_keeps ?_ | with_reducible refine planUnitOn_keeps ?_ | with_reducible refine Keeps.ite ?_ ?_ | with_reducible refine Keeps.foldl _ _ ?_ _ ?_ | fail_if_no_progress ((with_reducible refine Keeps.mk' ?_ rfl rfl rfl ?_ ?_ ?_ ?_ ?_ ?_ ?_ ?_ ?_ ?_ ?_ ?_ ?_ ?_ ?_ ?_ ?_ ?_ ?_ ?_ ?_) <;> first | exact Or.inl (hm.bit (by decide)) | exact Or.inr rfl | skip)
    | split
    | (extract_lets +onlyGivenNames x; first | (refine Keeps.cut s0 x ?_ fun h => ?_; rotate_left; clear_value x) | skip)
    | (unfold x; fail_if_success done)
    | intro h

theorem planSense_keeps {k s0 s a1 a2} (h : Keeps k s0 s)
    (hm : Within 0x8400#21 k := by first | assumption | exact Within.trans (by assumption) (by decide)) :
    Keeps k s0 (planSense s a1 a2) := by
  unfold planSense
  repeat' first
    | with_reducible assumption | with_reducible refine updLink_keeps ?_ | with_reducible refine planEntry_keeps ?_ | with_reducible refine Keeps.ite ?_ ?_ | with_reducible refine Keeps.foldl _ _ ?_ _ ?_ | fail_if_no_progress ((with_reducible refine Keeps.mk' ?_ rfl rfl rfl ?_ ?_ ?_ ?_ ?_ ?_ ?_ ?_ ?_ ?_ ?_ ?_ ?_ ?_ ?_ ?_ ?_ ?_ ?_ ?_ ?_) <;> first | exact Or.inl (hm.bit (by decide)) | exact Or.inr rfl | skip)
    | split
    | (extract_lets +onlyGivenNames x; first | (refine Keeps.cut s0 x ?_ fun h => ?_; rotate_left; clear_value x) | skip)
    | (unfold x; fail_if_success done)
    | intro h

theorem planSenses_keeps {k s0 s a1} (h : Keeps k s0 s)
    (hm : Within 0x8400#21 k := by first | assumption | exact Within.trans (by assumption) (by decide)) :
    Keeps k s0 (planSenses s a1) := by
  unfold planSenses
  repeat' first
    | with_reducible assumption | with_reducible refine planSense_keeps ?_ | with_reducible refine Keeps.ite ?_ ?_ | with_reducible refine Keeps.foldl _ _ ?_ _ ?_ | fail_if_no_progress ((with_reducible refine Keeps.mk' ?_ rfl rfl rfl ?_ ?_ ?_ ?_ ?_ ?_ ?_ ?_ ?_ ?_ ?_ ?_ ?_ ?_ ?_ ?_ ?_ ?_ ?_ ?_ ?_) <;> first | exact Or.inl (hm.bit (by decide)) | exact Or.inr rfl | skip)
    | split
    | (extract_lets +onlyGivenNames x; first | (refine Keeps.cut s0 x ?_ fun h => ?_; rotate_left; clear_value x) | skip)
    | (unfold x; fail_if_success done)
    | intro h

theorem planMasks_keeps {k s0 s a1} (h : Keeps k s0 s)
    (hm : Within 0x8400#21 k := by first | assumption | exact Within.trans (by assumption) (by decide)) :
    Keeps k s0 (planMasks s a1) := by
  unfold planMasks
  repeat' first
    | with_reducible assumption | with_reducible refine updLink_keeps ?_ | with_reducible refine planEntry_keeps ?_ | with_reducible refine Keeps.ite ?_ ?_ | with_reducible refine Keeps.foldl _ _ ?_ _ ?_ | fail_if_no_progress ((with_reducible refine Keeps.mk' ?_ rfl rfl rfl ?_ ?_ ?_ ?_ ?_ ?_ ?_ ?_ ?_ ?_ ?_ ?_ ?_ ?_ ?_ ?_ ?_ ?_ ?_ ?_ ?_) <;> first | exact Or.inl (hm.bit (by decide)) | exact Or.inr rfl | skip)
    | split
    | (extract_lets +onlyGivenNames x; first | (refine Keeps.cut s0 x ?_ fun h => ?_; rotate_left; clear_value x) | skip)
    | (unfold x; fail_if_success done)
    | intro h

theorem planReloads_keeps {k s0 s a1} (h : Keeps k s0 s)
    (hm : Within 0x8440#21 k := by first | assumption | exact Within.trans (by assumption) (by decide)) :
    Keeps k s0 (planReloads s a1) := by
  unfold planReloads
  repeat' first
    | with_reducible assumption | with_reducible refine updLink_keeps ?_ | with_reducible refine Keeps.ite ?_ ?_ | with_reducible refine Keeps.foldl _ _ ?_ _ ?_ | fail_if_no_progress ((with_reducible refine Keeps.mk' ?_ rfl rfl rfl ?_ ?_ ?_ ?_ ?_ ?_ ?_ ?_ ?_ ?_ ?_ ?_ ?_ ?_ ?_ ?_ ?_ ?_ ?_ ?_ ?_) <;> first | exact Or.inl (hm.bit (by decide)) | exact Or.inr rfl | skip)
    | split
    | (extract_lets +onlyGivenNames x; first | (refine Keeps.cut s0 x ?_ fun h => ?_; rotate_left; clear_value x) | skip)
    | (unfold x; fail_if_success done)
    | intro h

theorem planEq_keeps {k s0 s a1} (h : Keeps k s0 s)
    (hm : Within 0x8400#21 k := by first | assumption | exact Within.trans (by assumption) (by decide)) :
    Keeps k s0 (planEq s a1) := by
  unfold planEq
  repeat' first
    | with_reducible assumption | with_reducible refine updLink_keeps ?_ | with_reducible refine planEntry_keeps ?_ | with_reducible refine Keeps.ite ?_ ?_ | with_reducible refine Keeps.foldl _ _ ?_ _ ?_ | fail_if_no_progress ((with_reducible refine Keeps.mk' ?_ rfl rfl rfl ?_ ?_ ?_ ?_ ?_ ?_ ?_ ?_ ?_ ?_ ?_ ?_ ?_ ?_ ?_ ?_ ?_ ?_ ?_ ?_ ?_) <;> first | exact Or.inl (hm.bit (by decide)) | exact Or.inr rfl | skip)
    | split
    | (extract_lets +onlyGivenNames x; first | (refine Keeps.cut s0 x ?_ fun h => ?_; rotate_left; clear_value x) | skip)
    | (unfold x; fail_if_success done)
    | intro h

theorem freezePlans_keeps {k s0 s} (h : Keeps k s0 s)
    (hm : Within 0x8440#21 k := by first | assumption | exact Within.trans (by assumption) (by decide)) :
    Keeps k s0 (freezePlans s) := by
  unfold freezePlans
  repeat' first
    | with_reducible assumption | with_reducible refine planMasks_keeps ?_ | with_reducible refine planSenses_keeps ?_ | with_reducible refine planUnit_keeps ?_ | with_reducible refine planReloads_keeps ?_ | with_reducible refine planEq_keeps ?_ | with_reducible refine Keeps.ite ?_ ?_ | with_reducible refine Keeps.foldl _ _ ?_ _ ?_ | fail_if_no_progress ((with_reducible refine Keeps.mk' ?_ rfl rfl rfl ?_ ?_ ?_ ?_ ?_ ?_ ?_ ?_ ?_ ?_ ?_ ?_ ?_ ?_ ?_ ?_ ?_ ?_ ?_ ?_ ?_) <;> first | exact Or.inl (hm.bit (by decide)) | exact Or.inr rfl | skip)
    | split
    | (extract_lets +onlyGivenNames x; first | (refine Keeps.cut s0 x ?_ fun h => ?_; rotate_left; clear_value x) | skip)
    | (unfold x; fail_if_success done)
    | intro h

theorem setSeq_keeps {k s0 s a1 a2 a3 a4} (h : Keeps k s0 s)
    (hm : Within 0x400#21 k := by first | assumption | exact Within.trans (by assumption) (by decide)) :
    Keeps k s0 (setSeq s a1 a2 a3 a4) := by
  unfold setSeq
  repeat' first
    | with_reducible assumption | with_reducible refine Keeps.ite ?_ ?_ | with_reducible refine Keeps.foldl _ _ ?_ _ ?_ | fail_if_no_progress ((with_reducible refine Keeps.mk' ?_ rfl rfl rfl ?_ ?_ ?_ ?_ ?_ ?_ ?_ ?_ ?_ ?_ ?_ ?_ ?_ ?_ ?_ ?_ ?_ ?_ ?_ ?_ ?_) <;> first | exact Or.inl (hm.bit (by decide)) | exact Or.inr rfl | skip)
    | split
    | (extract_lets +onlyGivenNames x; first | (refine Keeps.cut s0 x ?_ fun h => ?_; rotate_left; clear_value x) | skip)
    | (unfold x; fail_if_success done)
    | intro h

theorem setBlank_keeps {k s0 s a1 a2 a3 a4} (h : Keeps k s0 s)
    (hm : Within 0x400#21 k := by first | assumption | exact Within.trans (by assumption) (by decide)) :
    Keeps k s0 (setBlank s a1 a2 a3 a4) := by
  unfold setBlank
  repeat' first
    | with_reducible assumption | with_reducible refine Keeps.ite ?_ ?_ | with_reducible refine Keeps.foldl _ _ ?_ _ ?_ | fail_if_no_progress ((with_reducible refine Keeps.mk' ?_ rfl rfl rfl ?_ ?_ ?_ ?_ ?_ ?_ ?_ ?_ ?_ ?_ ?_ ?_ ?_ ?_ ?_ ?_ ?_ ?_ ?_ ?_ ?_) <;> first | exact Or.inl (hm.bit (by decide)) | exact Or.inr rfl | skip)
    | split
    | (extract_lets +onlyGivenNames x; first | (refine Keeps.cut s0 x ?_ fun h => ?_; rotate_left; clear_value x) | skip)
    | (unfold x; fail_if_success done)
    | intro h

theorem takeRead_keeps {k s0 s a1 a2 a3} (h : Keeps k s0 s)
    (hm : Within 0x400#21 k := by first | assumption | exact Within.trans (by assumption) (by decide)) :
    Keeps k s0 (takeRead s a1 a2 a3) := by
  unfold takeRead
  repeat' first
    | with_reducible assumption | with_reducible refine updLink_keeps ?_ | with_reducible refine Keeps.ite ?_ ?_ | with_reducible refine Keeps.foldl _ _ ?_ _ ?_ | fail_if_no_progress ((with_reducible refine Keeps.mk' ?_ rfl rfl rfl ?_ ?_ ?_ ?_ ?_ ?_ ?_ ?_ ?_ ?_ ?_ ?_ ?_ ?_ ?_ ?_ ?_ ?_ ?_ ?_ ?_) <;> first | exact Or.inl (hm.bit (by decide)) | exact Or.inr rfl | skip)
    | split
    | (extract_lets +onlyGivenNames x; first | (refine Keeps.cut s0 x ?_ fun h => ?_; rotate_left; clear_value x) | skip)
    | (unfold x; fail_if_success done)
    | intro h

theorem updReads_keeps {k s0 s a1 a2} (h : Keeps k s0 s)
    (hm : Within 0x10#21 k := by first | assumption | exact Within.trans (by assumption) (by decide)) :
    Keeps k s0 (updReads s a1 a2) := by
  unfold updReads
  repeat' first
    | with_reducible assumption | with_reducible refine Keeps.ite ?_ ?_ | with_reducible refine Keeps.foldl _ _ ?_ _ ?_ | fail_if_no_progress ((with_reducible refine Keeps.mk' ?_ rfl rfl rfl ?_ ?_ ?_ ?_ ?_ ?_ ?_ ?_ ?_ ?_ ?_ ?_ ?_ ?_ ?_ ?_ ?_ ?_ ?_ ?_ ?_) <;> first | exact Or.inl (hm.bit (by decide)) | exact Or.inr rfl | skip)
    | split
    | (extract_lets +onlyGivenNames x; first | (refine Keeps.cut s0 x ?_ fun h => ?_; rotate_left; clear_value x) | skip)
    | (unfold x; fail_if_success done)
    | intro h

theorem markReads_keeps {k s0 s a1 a2} (h : Keeps k s0 s)
    (hm : Within 0x10#21 k := by first | assumption | exact Within.trans (by assumption) (by decide)) :
    Keeps k s0 (markReads s a1 a2) := by
  unfold markReads
  repeat' first
    | with_reducible assumption | with_reducible refine updReads_keeps ?_ | with_reducible refine Keeps.ite ?_ ?_ | with_reducible refine Keeps.foldl _ _ ?_ _ ?_ | fail_if_no_progress ((with_reducible refine Keeps.mk' ?_ rfl rfl rfl ?_ ?_ ?_ ?_ ?_ ?_ ?_ ?_ ?_ ?_ ?_ ?_ ?_ ?_ ?_ ?_ ?_ ?_ ?_ ?_ ?_) <;> first | exact Or.inl (hm.bit (by decide)) | exact Or.inr rfl | skip)
    | split
    | (extract_lets +onlyGivenNames x; first | (refine Keeps.cut s0 x ?_ fun h => ?_; rotate_left; clear_value x) | skip)
    | (unfold x; fail_if_success done)
    | intro h

theorem loseSense_keeps {k s0 s a1 a2} (h : Keeps k s0 s)
    (hm : Within 0x8490#21 k := by first | assumption | exact Within.trans (by assumption) (by decide)) :
    Keeps k s0 (loseSense s a1 a2) := by
  unfold loseSense
  repeat' first
    | with_reducible assumption | with_reducible refine escalateReads_keeps ?_ | with_reducible refine updReads_keeps ?_ | with_reducible refine Keeps.ite ?_ ?_ | with_reducible refine Keeps.foldl _ _ ?_ _ ?_ | fail_if_no_progress ((with_reducible refine Keeps.mk' ?_ rfl rfl rfl ?_ ?_ ?_ ?_ ?_ ?_ ?_ ?_ ?_ ?_ ?_ ?_ ?_ ?_ ?_ ?_ ?_ ?_ ?_ ?_ ?_) <;> first | exact Or.inl (hm.bit (by decide)) | exact Or.inr rfl | skip)
    | split
    | (extract_lets +onlyGivenNames x; first | (refine Keeps.cut s0 x ?_ fun h => ?_; rotate_left; clear_value x) | skip)
    | (unfold x; fail_if_success done)
    | intro h

theorem failSlot0_keeps {k s0 s a1 a2} (h : Keeps k s0 s)
    (hm : Within 0x8490#21 k := by first | assumption | exact Within.trans (by assumption) (by decide)) :
    Keeps k s0 (failSlot0 s a1 a2) := by
  unfold failSlot0
  repeat' first
    | with_reducible assumption | with_reducible refine count_keeps ?_ | with_reducible refine updReads_keeps ?_ | with_reducible refine escalateReads_keeps ?_ | with_reducible refine updLink_keeps ?_ | with_reducible refine Keeps.ite ?_ ?_ | with_reducible refine Keeps.foldl _ _ ?_ _ ?_ | fail_if_no_progress ((with_reducible refine Keeps.mk' ?_ rfl rfl rfl ?_ ?_ ?_ ?_ ?_ ?_ ?_ ?_ ?_ ?_ ?_ ?_ ?_ ?_ ?_ ?_ ?_ ?_ ?_ ?_ ?_) <;> first | exact Or.inl (hm.bit (by decide)) | exact Or.inr rfl | skip)
    | split
    | (extract_lets +onlyGivenNames x; first | (refine Keeps.cut s0 x ?_ fun h => ?_; rotate_left; clear_value x) | skip)
    | (unfold x; fail_if_success done)
    | intro h

theorem loseAwaited_keeps {k s0 s a1} (h : Keeps k s0 s)
    (hm : Within 0x8490#21 k := by first | assumption | exact Within.trans (by assumption) (by decide)) :
    Keeps k s0 (loseAwaited s a1) := by
  unfold loseAwaited
  repeat' first
    | with_reducible assumption | with_reducible refine loseSense_keeps ?_ | with_reducible refine updLink_keeps ?_ | with_reducible refine Keeps.ite ?_ ?_ | with_reducible refine Keeps.foldl _ _ ?_ _ ?_ | fail_if_no_progress ((with_reducible refine Keeps.mk' ?_ rfl rfl rfl ?_ ?_ ?_ ?_ ?_ ?_ ?_ ?_ ?_ ?_ ?_ ?_ ?_ ?_ ?_ ?_ ?_ ?_ ?_ ?_ ?_) <;> first | exact Or.inl (hm.bit (by decide)) | exact Or.inr rfl | skip)
    | split
    | (extract_lets +onlyGivenNames x; first | (refine Keeps.cut s0 x ?_ fun h => ?_; rotate_left; clear_value x) | skip)
    | (unfold x; fail_if_success done)
    | intro h

theorem reissue_keeps {k s0 s a1 a2} (h : Keeps k s0 s)
    (hm : Within 0x440#21 k := by first | assumption | exact Within.trans (by assumption) (by decide)) :
    Keeps k s0 (reissue s a1 a2) := by
  unfold reissue
  repeat' first
    | with_reducible assumption | with_reducible refine updLink_keeps ?_ | with_reducible refine addSense_keeps ?_ | with_reducible refine queueReload_keeps ?_ | with_reducible refine Keeps.ite ?_ ?_ | with_reducible refine Keeps.foldl _ _ ?_ _ ?_ | fail_if_no_progress ((with_reducible refine Keeps.mk' ?_ rfl rfl rfl ?_ ?_ ?_ ?_ ?_ ?_ ?_ ?_ ?_ ?_ ?_ ?_ ?_ ?_ ?_ ?_ ?_ ?_ ?_ ?_ ?_) <;> first | exact Or.inl (hm.bit (by decide)) | exact Or.inr rfl | skip)
    | split
    | (extract_lets +onlyGivenNames x; first | (refine Keeps.cut s0 x ?_ fun h => ?_; rotate_left; clear_value x) | skip)
    | (unfold x; fail_if_success done)
    | intro h

theorem sentBytes_keeps {k s0 s a1} (h : Keeps k s0 s)
    (hm : Within 0x8000#21 k := by first | assumption | exact Within.trans (by assumption) (by decide)) :
    Keeps k s0 (sentBytes s a1) := by
  unfold sentBytes
  repeat' first
    | with_reducible assumption | with_reducible refine portBytes_keeps ?_ | with_reducible refine updLink_keeps ?_ | with_reducible refine Keeps.ite ?_ ?_ | with_reducible refine Keeps.foldl _ _ ?_ _ ?_ | fail_if_no_progress ((with_reducible refine Keeps.mk' ?_ rfl rfl rfl ?_ ?_ ?_ ?_ ?_ ?_ ?_ ?_ ?_ ?_ ?_ ?_ ?_ ?_ ?_ ?_ ?_ ?_ ?_ ?_ ?_) <;> first | exact Or.inl (hm.bit (by decide)) | exact Or.inr rfl | skip)
    | split
    | (extract_lets +onlyGivenNames x; first | (refine Keeps.cut s0 x ?_ fun h => ?_; rotate_left; clear_value x) | skip)
    | (unfold x; fail_if_success done)
    | intro h

theorem execFrameStart_keeps {k s0 a0 s} (h : Keeps k s0 s)
    (hm : Within 0x84d0#21 k := by first | assumption | exact Within.trans (by assumption) (by decide)) :
    KeepsO k s0 (execFrameStart a0 s) := by
  unfold execFrameStart
  repeat' first
    | with_reducible assumption | with_reducible refine sentBytes_keeps ?_ | with_reducible refine updLink_keeps ?_ | with_reducible refine reissue_keeps ?_ | with_reducible refine loseSense_keeps ?_ | with_reducible refine markReads_keeps ?_ | with_reducible refine takeRead_keeps ?_ | with_reducible refine count_keeps ?_ | with_reducible refine Keeps.ite ?_ ?_ | with_reducible refine Keeps.foldl _ _ ?_ _ ?_ | fail_if_no_progress ((with_reducible refine Keeps.mk' ?_ rfl rfl rfl ?_ ?_ ?_ ?_ ?_ ?_ ?_ ?_ ?_ ?_ ?_ ?_ ?_ ?_ ?_ ?_ ?_ ?_ ?_ ?_ ?_) <;> first | exact Or.inl (hm.bit (by decide)) | exact Or.inr rfl | skip) | with_reducible refine KeepsO.next ?_
    | split
    | (extract_lets +onlyGivenNames x; first | (refine Keeps.cut s0 x ?_ fun h => ?_; rotate_left; clear_value x) | skip)
    | (unfold x; fail_if_success done)
    | intro h

theorem pulseDone_keeps {k s0 s a1 a2 a3} (h : Keeps k s0 s)
    (hm : Within 0x400#21 k := by first | assumption | exact Within.trans (by assumption) (by decide)) :
    Keeps k s0 (pulseDone s a1 a2 a3) := by
  unfold pulseDone
  repeat' first
    | with_reducible assumption | with_reducible refine setSeq_keeps ?_ | with_reducible refine Keeps.ite ?_ ?_ | with_reducible refine Keeps.foldl _ _ ?_ _ ?_ | fail_if_no_progress ((with_reducible refine Keeps.mk' ?_ rfl rfl rfl ?_ ?_ ?_ ?_ ?_ ?_ ?_ ?_ ?_ ?_ ?_ ?_ ?_ ?_ ?_ ?_ ?_ ?_ ?_ ?_ ?_) <;> first | exact Or.inl (hm.bit (by decide)) | exact Or.inr rfl | skip)
    | split
    | (extract_lets +onlyGivenNames x; first | (refine Keeps.cut s0 x ?_ fun h => ?_; rotate_left; clear_value x) | skip)
    | (unfold x; fail_if_success done)
    | intro h

theorem blankPulsed_keeps {k s0 s a1 a2} (h : Keeps k s0 s)
    (hm : Within 0x404#21 k := by first | assumption | exact Within.trans (by assumption) (by decide)) :
    Keeps k s0 (blankPulsed s a1 a2) := by
  unfold blankPulsed
  repeat' first
    | with_reducible assumption | with_reducible refine setBlank_keeps ?_ | with_reducible refine setMedia_keeps ?_ | with_reducible refine Keeps.ite ?_ ?_ | with_reducible refine Keeps.foldl _ _ ?_ _ ?_ | fail_if_no_progress ((with_reducible refine Keeps.mk' ?_ rfl rfl rfl ?_ ?_ ?_ ?_ ?_ ?_ ?_ ?_ ?_ ?_ ?_ ?_ ?_ ?_ ?_ ?_ ?_ ?_ ?_ ?_ ?_) <;> first | exact Or.inl (hm.bit (by decide)) | exact Or.inr rfl | skip)
    | split
    | (extract_lets +onlyGivenNames x; first | (refine Keeps.cut s0 x ?_ fun h => ?_; rotate_left; clear_value x) | skip)
    | (unfold x; fail_if_success done)
    | intro h

theorem blankPassed_keeps {k s0 s a1 a2} (h : Keeps k s0 s)
    (hm : Within 0x404#21 k := by first | assumption | exact Within.trans (by assumption) (by decide)) :
    Keeps k s0 (blankPassed s a1 a2) := by
  unfold blankPassed
  repeat' first
    | with_reducible assumption | with_reducible refine setMedia_keeps ?_ | with_reducible refine setBlank_keeps ?_ | with_reducible refine Keeps.ite ?_ ?_ | with_reducible refine Keeps.foldl _ _ ?_ _ ?_ | fail_if_no_progress ((with_reducible refine Keeps.mk' ?_ rfl rfl rfl ?_ ?_ ?_ ?_ ?_ ?_ ?_ ?_ ?_ ?_ ?_ ?_ ?_ ?_ ?_ ?_ ?_ ?_ ?_ ?_ ?_) <;> first | exact Or.inl (hm.bit (by decide)) | exact Or.inr rfl | skip)
    | split
    | (extract_lets +onlyGivenNames x; first | (refine Keeps.cut s0 x ?_ fun h => ?_; rotate_left; clear_value x) | skip)
    | (unfold x; fail_if_success done)
    | intro h

theorem programPassed_keeps {k s0 s a1 a2} (h : Keeps k s0 s)
    (hm : Within 0x400#21 k := by first | assumption | exact Within.trans (by assumption) (by decide)) :
    Keeps k s0 (programPassed s a1 a2) := by
  unfold programPassed
  repeat' first
    | with_reducible assumption | with_reducible refine setSeq_keeps ?_ | with_reducible refine Keeps.ite ?_ ?_ | with_reducible refine Keeps.foldl _ _ ?_ _ ?_ | fail_if_no_progress ((with_reducible refine Keeps.mk' ?_ rfl rfl rfl ?_ ?_ ?_ ?_ ?_ ?_ ?_ ?_ ?_ ?_ ?_ ?_ ?_ ?_ ?_ ?_ ?_ ?_ ?_ ?_ ?_) <;> first | exact Or.inl (hm.bit (by decide)) | exact Or.inr rfl | skip)
    | split
    | (extract_lets +onlyGivenNames x; first | (refine Keeps.cut s0 x ?_ fun h => ?_; rotate_left; clear_value x) | skip)
    | (unfold x; fail_if_success done)
    | intro h

theorem verifyFailed_keeps {k s0 s a1 a2 a3} (h : Keeps k s0 s)
    (hm : Within 0x18052c#21 k := by first | assumption | exact Within.trans (by assumption) (by decide)) :
    Keeps k s0 (verifyFailed s a1 a2 a3) := by
  unfold verifyFailed
  repeat' first
    | with_reducible assumption | with_reducible refine retireBlock_keeps ?_ | with_reducible refine setBlank_keeps ?_ | with_reducible refine failProgram_keeps ?_ | with_reducible refine setSeq_keeps ?_ | with_reducible refine endDrainsOn_keeps ?_ | with_reducible refine Keeps.ite ?_ ?_ | with_reducible refine Keeps.foldl _ _ ?_ _ ?_ | fail_if_no_progress ((with_reducible refine Keeps.mk' ?_ rfl rfl rfl ?_ ?_ ?_ ?_ ?_ ?_ ?_ ?_ ?_ ?_ ?_ ?_ ?_ ?_ ?_ ?_ ?_ ?_ ?_ ?_ ?_) <;> first | exact Or.inl (hm.bit (by decide)) | exact Or.inr rfl | skip)
    | split
    | (extract_lets +onlyGivenNames x; first | (refine Keeps.cut s0 x ?_ fun h => ?_; rotate_left; clear_value x) | skip)
    | (unfold x; fail_if_success done)
    | intro h

theorem unitDone_keeps {k s0 s a1 a2 a3} (h : Keeps k s0 s)
    (hm : Within 0x18852c#21 k := by first | assumption | exact Within.trans (by assumption) (by decide)) :
    Keeps k s0 (unitDone s a1 a2 a3) := by
  unfold unitDone
  repeat' first
    | with_reducible assumption | with_reducible refine completeUnit_keeps ?_ | with_reducible refine count_keeps ?_ | with_reducible refine pulseDone_keeps ?_ | with_reducible refine blankPulsed_keeps ?_ | with_reducible refine setMedia_keeps ?_ | with_reducible refine verifyFailed_keeps ?_ | with_reducible refine blankPassed_keeps ?_ | with_reducible refine programPassed_keeps ?_ | with_reducible refine Keeps.ite ?_ ?_ | with_reducible refine Keeps.foldl _ _ ?_ _ ?_ | fail_if_no_progress ((with_reducible refine Keeps.mk' ?_ rfl rfl rfl ?_ ?_ ?_ ?_ ?_ ?_ ?_ ?_ ?_ ?_ ?_ ?_ ?_ ?_ ?_ ?_ ?_ ?_ ?_ ?_ ?_) <;> first | exact Or.inl (hm.bit (by decide)) | exact Or.inr rfl | skip)
    | split
    | (extract_lets +onlyGivenNames x; first | (refine Keeps.cut s0 x ?_ fun h => ?_; rotate_left; clear_value x) | skip)
    | (unfold x; fail_if_success done)
    | intro h

theorem entryDone_keeps {k s0 s a1 a2 a3} (h : Keeps k s0 s)
    (hm : Within 0x18856c#21 k := by first | assumption | exact Within.trans (by assumption) (by decide)) :
    Keeps k s0 (entryDone s a1 a2 a3) := by
  unfold entryDone
  repeat' first
    | with_reducible assumption | with_reducible refine unitDone_keeps ?_ | with_reducible refine updLink_keeps ?_ | with_reducible refine reissue_keeps ?_ | with_reducible refine Keeps.ite ?_ ?_ | with_reducible refine Keeps.foldl _ _ ?_ _ ?_ | fail_if_no_progress ((with_reducible refine Keeps.mk' ?_ rfl rfl rfl ?_ ?_ ?_ ?_ ?_ ?_ ?_ ?_ ?_ ?_ ?_ ?_ ?_ ?_ ?_ ?_ ?_ ?_ ?_ ?_ ?_) <;> first | exact Or.inl (hm.bit (by decide)) | exact Or.inr rfl | skip)
    | split
    | (extract_lets +onlyGivenNames x; first | (refine Keeps.cut s0 x ?_ fun h => ?_; rotate_left; clear_value x) | skip)
    | (unfold x; fail_if_success done)
    | intro h

theorem doneMask_keeps {k s0 s a1 a2} (h : Keeps k s0 s)
    (hm : Within 0x18856c#21 k := by first | assumption | exact Within.trans (by assumption) (by decide)) :
    Keeps k s0 (doneMask s a1 a2) := by
  unfold doneMask
  repeat' first
    | with_reducible assumption | with_reducible refine reissue_keeps ?_ | with_reducible refine entryDone_keeps ?_ | with_reducible refine updLink_keeps ?_ | with_reducible refine Keeps.ite ?_ ?_ | with_reducible refine Keeps.foldl _ _ ?_ _ ?_ | fail_if_no_progress ((with_reducible refine Keeps.mk' ?_ rfl rfl rfl ?_ ?_ ?_ ?_ ?_ ?_ ?_ ?_ ?_ ?_ ?_ ?_ ?_ ?_ ?_ ?_ ?_ ?_ ?_ ?_ ?_) <;> first | exact Or.inl (hm.bit (by decide)) | exact Or.inr rfl | skip)
    | split
    | (extract_lets +onlyGivenNames x; first | (refine Keeps.cut s0 x ?_ fun h => ?_; rotate_left; clear_value x) | skip)
    | (unfold x; fail_if_success done)
    | intro h

theorem takeMasks_keeps {k s0 s a1 a2} (h : Keeps k s0 s)
    (hm : Within 0x18856c#21 k := by first | assumption | exact Within.trans (by assumption) (by decide)) :
    Keeps k s0 (takeMasks s a1 a2) := by
  unfold takeMasks
  repeat' first
    | with_reducible assumption | with_reducible refine updLink_keeps ?_ | with_reducible refine entryDone_keeps ?_ | with_reducible refine completeUnit_keeps ?_ | with_reducible refine reissue_keeps ?_ | with_reducible refine Keeps.ite ?_ ?_ | with_reducible refine Keeps.foldl _ _ ?_ _ ?_ | fail_if_no_progress ((with_reducible refine Keeps.mk' ?_ rfl rfl rfl ?_ ?_ ?_ ?_ ?_ ?_ ?_ ?_ ?_ ?_ ?_ ?_ ?_ ?_ ?_ ?_ ?_ ?_ ?_ ?_ ?_) <;> first | exact Or.inl (hm.bit (by decide)) | exact Or.inr rfl | skip)
    | split
    | (extract_lets +onlyGivenNames x; first | (refine Keeps.cut s0 x ?_ fun h => ?_; rotate_left; clear_value x) | skip)
    | (unfold x; fail_if_success done)
    | intro h

theorem telemetry_keeps {k s0 s a1 a2 a3} (h : Keeps k s0 s)
    (hm : Within 0x400#21 k := by first | assumption | exact Within.trans (by assumption) (by decide)) :
    Keeps k s0 (telemetry s a1 a2 a3) := by
  unfold telemetry
  repeat' first
    | with_reducible assumption | with_reducible refine updLink_keeps ?_ | with_reducible refine Keeps.ite ?_ ?_ | with_reducible refine Keeps.foldl _ _ ?_ _ ?_ | fail_if_no_progress ((with_reducible refine Keeps.mk' ?_ rfl rfl rfl ?_ ?_ ?_ ?_ ?_ ?_ ?_ ?_ ?_ ?_ ?_ ?_ ?_ ?_ ?_ ?_ ?_ ?_ ?_ ?_ ?_) <;> first | exact Or.inl (hm.bit (by decide)) | exact Or.inr rfl | skip)
    | split
    | (extract_lets +onlyGivenNames x; first | (refine Keeps.cut s0 x ?_ fun h => ?_; rotate_left; clear_value x) | skip)
    | (unfold x; fail_if_success done)
    | intro h

theorem checkFailed_keeps {k s0 s a1} (h : Keeps k s0 s)
    (hm : Within 0x400#21 k := by first | assumption | exact Within.trans (by assumption) (by decide)) :
    Keeps k s0 (checkFailed s a1) := by
  unfold checkFailed
  repeat' first
    | with_reducible assumption | with_reducible refine updLink_keeps ?_ | with_reducible refine Keeps.ite ?_ ?_ | with_reducible refine Keeps.foldl _ _ ?_ _ ?_ | fail_if_no_progress ((with_reducible refine Keeps.mk' ?_ rfl rfl rfl ?_ ?_ ?_ ?_ ?_ ?_ ?_ ?_ ?_ ?_ ?_ ?_ ?_ ?_ ?_ ?_ ?_ ?_ ?_ ?_ ?_) <;> first | exact Or.inl (hm.bit (by decide)) | exact Or.inr rfl | skip)
    | split
    | (extract_lets +onlyGivenNames x; first | (refine Keeps.cut s0 x ?_ fun h => ?_; rotate_left; clear_value x) | skip)
    | (unfold x; fail_if_success done)
    | intro h

theorem loadDone_keeps {k s0 s a1 a2} (h : Keeps k s0 s)
    (hm : Within 0x400#21 k := by first | assumption | exact Within.trans (by assumption) (by decide)) :
    Keeps k s0 (loadDone s a1 a2) := by
  unfold loadDone
  repeat' first
    | with_reducible assumption | with_reducible refine completeUnit_keeps ?_ | with_reducible refine Keeps.ite ?_ ?_ | with_reducible refine Keeps.foldl _ _ ?_ _ ?_ | fail_if_no_progress ((with_reducible refine Keeps.mk' ?_ rfl rfl rfl ?_ ?_ ?_ ?_ ?_ ?_ ?_ ?_ ?_ ?_ ?_ ?_ ?_ ?_ ?_ ?_ ?_ ?_ ?_ ?_ ?_) <;> first | exact Or.inl (hm.bit (by decide)) | exact Or.inr rfl | skip)
    | split
    | (extract_lets +onlyGivenNames x; first | (refine Keeps.cut s0 x ?_ fun h => ?_; rotate_left; clear_value x) | skip)
    | (unfold x; fail_if_success done)
    | intro h

theorem sendAgain_keeps {k s0 s a1 a2} (h : Keeps k s0 s)
    (hm : Within 0x440#21 k := by first | assumption | exact Within.trans (by assumption) (by decide)) :
    Keeps k s0 (sendAgain s a1 a2) := by
  unfold sendAgain
  repeat' first
    | with_reducible assumption | with_reducible refine updLink_keeps ?_ | with_reducible refine reissue_keeps ?_ | with_reducible refine Keeps.ite ?_ ?_ | with_reducible refine Keeps.foldl _ _ ?_ _ ?_ | fail_if_no_progress ((with_reducible refine Keeps.mk' ?_ rfl rfl rfl ?_ ?_ ?_ ?_ ?_ ?_ ?_ ?_ ?_ ?_ ?_ ?_ ?_ ?_ ?_ ?_ ?_ ?_ ?_ ?_ ?_) <;> first | exact Or.inl (hm.bit (by decide)) | exact Or.inr rfl | skip)
    | split
    | (extract_lets +onlyGivenNames x; first | (refine Keeps.cut s0 x ?_ fun h => ?_; rotate_left; clear_value x) | skip)
    | (unfold x; fail_if_success done)
    | intro h

theorem rxErrors_keeps {k s0 s a1 a2} (h : Keeps k s0 s)
    (hm : Within 0x84d0#21 k := by first | assumption | exact Within.trans (by assumption) (by decide)) :
    Keeps k s0 (rxErrors s a1 a2) := by
  unfold rxErrors
  repeat' first
    | with_reducible assumption | with_reducible refine updLink_keeps ?_ | with_reducible refine loadDone_keeps ?_ | with_reducible refine sendAgain_keeps ?_ | with_reducible refine loseSense_keeps ?_ | with_reducible refine Keeps.ite ?_ ?_ | with_reducible refine Keeps.foldl _ _ ?_ _ ?_ | fail_if_no_progress ((with_reducible refine Keeps.mk' ?_ rfl rfl rfl ?_ ?_ ?_ ?_ ?_ ?_ ?_ ?_ ?_ ?_ ?_ ?_ ?_ ?_ ?_ ?_ ?_ ?_ ?_ ?_ ?_) <;> first | exact Or.inl (hm.bit (by decide)) | exact Or.inr rfl | skip)
    | split
    | (extract_lets +onlyGivenNames x; first | (refine Keeps.cut s0 x ?_ fun h => ?_; rotate_left; clear_value x) | skip)
    | (unfold x; fail_if_success done)
    | intro h

theorem deliver_keeps {k s0 s a1 a2 a3 a4 a5} (h : Keeps k s0 s)
    (hm : Within 0x1885fc#21 k := by first | assumption | exact Within.trans (by assumption) (by decide)) :
    Keeps k s0 (deliver s a1 a2 a3 a4 a5) := by
  unfold deliver
  repeat' first
    | with_reducible assumption | with_reducible refine completeUnit_keeps ?_ | with_reducible refine loseSense_keeps ?_ | with_reducible refine takeMasks_keeps ?_ | with_reducible refine updLink_keeps ?_ | with_reducible refine Keeps.ite ?_ ?_ | with_reducible refine Keeps.foldl _ _ ?_ _ ?_ | fail_if_no_progress ((with_reducible refine Keeps.mk' ?_ rfl rfl rfl ?_ ?_ ?_ ?_ ?_ ?_ ?_ ?_ ?_ ?_ ?_ ?_ ?_ ?_ ?_ ?_ ?_ ?_ ?_ ?_ ?_) <;> first | exact Or.inl (hm.bit (by decide)) | exact Or.inr rfl | skip)
    | split
    | (extract_lets +onlyGivenNames x; first | (refine Keeps.cut s0 x ?_ fun h => ?_; rotate_left; clear_value x) | skip)
    | (unfold x; fail_if_success done)
    | intro h

theorem takeDue_keeps {k s0 s a1} (h : Keeps k s0 s)
    (hm : Within 0x400#21 k := by first | assumption | exact Within.trans (by assumption) (by decide)) :
    Keeps k s0 (takeDue s a1) := by
  unfold takeDue
  repeat' first
    | with_reducible assumption | with_reducible refine updLink_keeps ?_ | with_reducible refine Keeps.ite ?_ ?_ | with_reducible refine Keeps.foldl _ _ ?_ _ ?_ | fail_if_no_progress ((with_reducible refine Keeps.mk' ?_ rfl rfl rfl ?_ ?_ ?_ ?_ ?_ ?_ ?_ ?_ ?_ ?_ ?_ ?_ ?_ ?_ ?_ ?_ ?_ ?_ ?_ ?_ ?_) <;> first | exact Or.inl (hm.bit (by decide)) | exact Or.inr rfl | skip)
    | split
    | (extract_lets +onlyGivenNames x; first | (refine Keeps.cut s0 x ?_ fun h => ?_; rotate_left; clear_value x) | skip)
    | (unfold x; fail_if_success done)
    | intro h

theorem returnedSlots_keeps {k s0 s a1 a2} (h : Keeps k s0 s)
    (hm : Within 0x1885fc#21 k := by first | assumption | exact Within.trans (by assumption) (by decide)) :
    Keeps k s0 (returnedSlots s a1 a2) := by
  unfold returnedSlots
  repeat' first
    | with_reducible assumption | with_reducible refine portBytes_keeps ?_ | with_reducible refine takeDue_keeps ?_ | with_reducible refine updLink_keeps ?_ | with_reducible refine loseAwaited_keeps ?_ | with_reducible refine loseSense_keeps ?_ | with_reducible refine reissue_keeps ?_ | with_reducible refine failSlot0_keeps ?_ | with_reducible refine deliver_keeps ?_ | with_reducible refine checkFailed_keeps ?_ | with_reducible refine Keeps.ite ?_ ?_ | with_reducible refine Keeps.foldl _ _ ?_ _ ?_ | fail_if_no_progress ((with_reducible refine Keeps.mk' ?_ rfl rfl rfl ?_ ?_ ?_ ?_ ?_ ?_ ?_ ?_ ?_ ?_ ?_ ?_ ?_ ?_ ?_ ?_ ?_ ?_ ?_ ?_ ?_) <;> first | exact Or.inl (hm.bit (by decide)) | exact Or.inr rfl | skip)
    | split
    | (extract_lets +onlyGivenNames x; first | (refine Keeps.cut s0 x ?_ fun h => ?_; rotate_left; clear_value x) | skip)
    | (unfold x; fail_if_success done)
    | intro h

theorem headerFailed_keeps {k s0 s a1} (h : Keeps k s0 s)
    (hm : Within 0x1885fc#21 k := by first | assumption | exact Within.trans (by assumption) (by decide)) :
    Keeps k s0 (headerFailed s a1) := by
  unfold headerFailed
  repeat' first
    | with_reducible assumption | with_reducible refine takeDue_keeps ?_ | with_reducible refine loseAwaited_keeps ?_ | with_reducible refine reissue_keeps ?_ | with_reducible refine loseSense_keeps ?_ | with_reducible refine failSlot0_keeps ?_ | with_reducible refine updLink_keeps ?_ | with_reducible refine deliver_keeps ?_ | with_reducible refine checkFailed_keeps ?_ | with_reducible refine Keeps.ite ?_ ?_ | with_reducible refine Keeps.foldl _ _ ?_ _ ?_ | fail_if_no_progress ((with_reducible refine Keeps.mk' ?_ rfl rfl rfl ?_ ?_ ?_ ?_ ?_ ?_ ?_ ?_ ?_ ?_ ?_ ?_ ?_ ?_ ?_ ?_ ?_ ?_ ?_ ?_ ?_) <;> first | exact Or.inl (hm.bit (by decide)) | exact Or.inr rfl | skip)
    | split
    | (extract_lets +onlyGivenNames x; first | (refine Keeps.cut s0 x ?_ fun h => ?_; rotate_left; clear_value x) | skip)
    | (unfold x; fail_if_success done)
    | intro h

theorem headerLoss_keeps {k s0 s a1} (h : Keeps k s0 s)
    (hm : Within 0x18b4fc#21 k := by first | assumption | exact Within.trans (by assumption) (by decide)) :
    Keeps k s0 (headerLoss s a1) := by
  unfold headerLoss
  repeat' first
    | with_reducible assumption | with_reducible refine linkLost_keeps ?_ | with_reducible refine startRetrain_keeps ?_ | with_reducible refine Keeps.ite ?_ ?_ | with_reducible refine Keeps.foldl _ _ ?_ _ ?_ | fail_if_no_progress ((with_reducible refine Keeps.mk' ?_ rfl rfl rfl ?_ ?_ ?_ ?_ ?_ ?_ ?_ ?_ ?_ ?_ ?_ ?_ ?_ ?_ ?_ ?_ ?_ ?_ ?_ ?_ ?_) <;> first | exact Or.inl (hm.bit (by decide)) | exact Or.inr rfl | skip)
    | split
    | (extract_lets +onlyGivenNames x; first | (refine Keeps.cut s0 x ?_ fun h => ?_; rotate_left; clear_value x) | skip)
    | (unfold x; fail_if_success done)
    | intro h

theorem goodFrame_keeps {k s0 s a1 a2} (h : Keeps k s0 s)
    (hm : Within 0x18b5fc#21 k := by first | assumption | exact Within.trans (by assumption) (by decide)) :
    Keeps k s0 (goodFrame s a1 a2) := by
  unfold goodFrame
  repeat' first
    | with_reducible assumption | with_reducible refine updLink_keeps ?_ | with_reducible refine rxErrors_keeps ?_ | with_reducible refine telemetry_keeps ?_ | with_reducible refine returnedSlots_keeps ?_ | with_reducible refine acceptPackage_keeps ?_ | with_reducible refine doneMask_keeps ?_ | with_reducible refine startRetrain_keeps ?_ | with_reducible refine Keeps.ite ?_ ?_ | with_reducible refine Keeps.foldl _ _ ?_ _ ?_ | fail_if_no_progress ((with_reducible refine Keeps.mk' ?_ rfl rfl rfl ?_ ?_ ?_ ?_ ?_ ?_ ?_ ?_ ?_ ?_ ?_ ?_ ?_ ?_ ?_ ?_ ?_ ?_ ?_ ?_ ?_) <;> first | exact Or.inl (hm.bit (by decide)) | exact Or.inr rfl | skip)
    | split
    | (extract_lets +onlyGivenNames x; first | (refine Keeps.cut s0 x ?_ fun h => ?_; rotate_left; clear_value x) | skip)
    | (unfold x; fail_if_success done)
    | intro h

theorem execUpstreamFrame_keeps {k s0 a0 a1 s} (h : Keeps k s0 s)
    (hm : Within 0x18b5fc#21 k := by first | assumption | exact Within.trans (by assumption) (by decide)) :
    KeepsO k s0 (execUpstreamFrame a0 a1 s) := by
  unfold execUpstreamFrame
  repeat' first
    | with_reducible assumption | with_reducible refine headerLoss_keeps ?_ | with_reducible refine headerFailed_keeps ?_ | with_reducible refine updLink_keeps ?_ | with_reducible refine linkLost_keeps ?_ | with_reducible refine goodFrame_keeps ?_ | with_reducible refine Keeps.ite ?_ ?_ | with_reducible refine Keeps.foldl _ _ ?_ _ ?_ | fail_if_no_progress ((with_reducible refine Keeps.mk' ?_ rfl rfl rfl ?_ ?_ ?_ ?_ ?_ ?_ ?_ ?_ ?_ ?_ ?_ ?_ ?_ ?_ ?_ ?_ ?_ ?_ ?_ ?_ ?_) <;> first | exact Or.inl (hm.bit (by decide)) | exact Or.inr rfl | skip) | with_reducible refine KeepsO.next ?_
    | split
    | (extract_lets +onlyGivenNames x; first | (refine Keeps.cut s0 x ?_ fun h => ?_; rotate_left; clear_value x) | skip)
    | (unfold x; fail_if_success done)
    | intro h

/-! Pipes. -/

theorem noteActivity_keeps {k s0 s} (h : Keeps k s0 s)
    (hm : Within 0x2#21 k := by first | assumption | exact Within.trans (by assumption) (by decide)) :
    Keeps k s0 (noteActivity s) := by
  unfold noteActivity
  repeat' first
    | with_reducible assumption | with_reducible refine Keeps.ite ?_ ?_ | with_reducible refine Keeps.foldl _ _ ?_ _ ?_ | fail_if_no_progress ((with_reducible refine Keeps.mk' ?_ rfl rfl rfl ?_ ?_ ?_ ?_ ?_ ?_ ?_ ?_ ?_ ?_ ?_ ?_ ?_ ?_ ?_ ?_ ?_ ?_ ?_ ?_ ?_) <;> first | exact Or.inl (hm.bit (by decide)) | exact Or.inr rfl | skip)
    | split
    | (extract_lets +onlyGivenNames x; first | (refine Keeps.cut s0 x ?_ fun h => ?_; rotate_left; clear_value x) | skip)
    | (unfold x; fail_if_success done)
    | intro h

theorem ringBell_keeps {k s0 s a1} (h : Keeps k s0 s)
    (hm : Within 0x101000#21 k := by first | assumption | exact Within.trans (by assumption) (by decide)) :
    Keeps k s0 (ringBell s a1) := by
  unfold ringBell
  repeat' first
    | with_reducible assumption | with_reducible refine updPipe_keeps ?_ | with_reducible refine writeBytes_keeps ?_ | with_reducible refine signalVector_keeps ?_ | with_reducible refine Keeps.ite ?_ ?_ | with_reducible refine Keeps.foldl _ _ ?_ _ ?_ | fail_if_no_progress ((with_reducible refine Keeps.mk' ?_ rfl rfl rfl ?_ ?_ ?_ ?_ ?_ ?_ ?_ ?_ ?_ ?_ ?_ ?_ ?_ ?_ ?_ ?_ ?_ ?_ ?_ ?_ ?_) <;> first | exact Or.inl (hm.bit (by decide)) | exact Or.inr rfl | skip)
    | split
    | (extract_lets +onlyGivenNames x; first | (refine Keeps.cut s0 x ?_ fun h => ?_; rotate_left; clear_value x) | skip)
    | (unfold x; fail_if_success done)
    | intro h

theorem advisoryError_keeps {k s0 s a1} (h : Keeps k s0 s)
    (hm : Within 0x800#21 k := by first | assumption | exact Within.trans (by assumption) (by decide)) :
    Keeps k s0 (advisoryError s a1) := by
  unfold advisoryError
  repeat' first
    | with_reducible assumption | with_reducible refine Keeps.ite ?_ ?_ | with_reducible refine Keeps.foldl _ _ ?_ _ ?_ | fail_if_no_progress ((with_reducible refine Keeps.mk' ?_ rfl rfl rfl ?_ ?_ ?_ ?_ ?_ ?_ ?_ ?_ ?_ ?_ ?_ ?_ ?_ ?_ ?_ ?_ ?_ ?_ ?_ ?_ ?_) <;> first | exact Or.inl (hm.bit (by decide)) | exact Or.inr rfl | skip)
    | split
    | (extract_lets +onlyGivenNames x; first | (refine Keeps.cut s0 x ?_ fun h => ?_; rotate_left; clear_value x) | skip)
    | (unfold x; fail_if_success done)
    | intro h

theorem execPipeMouthWrite_keeps {k s0 a0 a1 a2 s} (h : Keeps k s0 s)
    (hm : Within 0x9802#21 k := by first | assumption | exact Within.trans (by assumption) (by decide)) :
    KeepsO k s0 (execPipeMouthWrite a0 a1 a2 s) := by
  unfold execPipeMouthWrite
  repeat' first
    | with_reducible assumption | with_reducible refine ioPayload_keeps ?_ | with_reducible refine advisoryError_keeps ?_ | with_reducible refine updPipe_keeps ?_ | with_reducible refine noteActivity_keeps ?_ | with_reducible refine Keeps.ite ?_ ?_ | with_reducible refine Keeps.foldl _ _ ?_ _ ?_ | fail_if_no_progress ((with_reducible refine Keeps.mk' ?_ rfl rfl rfl ?_ ?_ ?_ ?_ ?_ ?_ ?_ ?_ ?_ ?_ ?_ ?_ ?_ ?_ ?_ ?_ ?_ ?_ ?_ ?_ ?_) <;> first | exact Or.inl (hm.bit (by decide)) | exact Or.inr rfl | skip) | with_reducible refine KeepsO.next ?_
    | split
    | (extract_lets +onlyGivenNames x; first | (refine Keeps.cut s0 x ?_ fun h => ?_; rotate_left; clear_value x) | skip)
    | (unfold x; fail_if_success done)
    | intro h

theorem execPipeBellRead_keeps {k s0 a0 a1 s} (h : Keeps k s0 s)
    (hm : Within 0x9800#21 k := by first | assumption | exact Within.trans (by assumption) (by decide)) :
    KeepsO k s0 (execPipeBellRead a0 a1 s) := by
  unfold execPipeBellRead
  repeat' first
    | with_reducible assumption | with_reducible refine ioPayload_keeps ?_ | with_reducible refine updPipe_keeps ?_ | with_reducible refine Keeps.ite ?_ ?_ | with_reducible refine Keeps.foldl _ _ ?_ _ ?_ | fail_if_no_progress ((with_reducible refine Keeps.mk' ?_ rfl rfl rfl ?_ ?_ ?_ ?_ ?_ ?_ ?_ ?_ ?_ ?_ ?_ ?_ ?_ ?_ ?_ ?_ ?_ ?_ ?_ ?_ ?_) <;> first | exact Or.inl (hm.bit (by decide)) | exact Or.inr rfl | skip) | with_reducible refine KeepsO.next ?_
    | split
    | (extract_lets +onlyGivenNames x; first | (refine Keeps.cut s0 x ?_ fun h => ?_; rotate_left; clear_value x) | skip)
    | (unfold x; fail_if_success done)
    | intro h

theorem execPipeBellRing_keeps {k s0 a0 a1 s} (h : Keeps k s0 s)
    (hm : Within 0x101000#21 k := by first | assumption | exact Within.trans (by assumption) (by decide)) :
    KeepsO k s0 (execPipeBellRing a0 a1 s) := by
  unfold execPipeBellRing
  repeat' first
    | with_reducible assumption | with_reducible refine ringBell_keeps ?_ | with_reducible refine Keeps.ite ?_ ?_ | with_reducible refine Keeps.foldl _ _ ?_ _ ?_ | fail_if_no_progress ((with_reducible refine Keeps.mk' ?_ rfl rfl rfl ?_ ?_ ?_ ?_ ?_ ?_ ?_ ?_ ?_ ?_ ?_ ?_ ?_ ?_ ?_ ?_ ?_ ?_ ?_ ?_ ?_) <;> first | exact Or.inl (hm.bit (by decide)) | exact Or.inr rfl | skip) | with_reducible refine KeepsO.next ?_
    | split
    | (extract_lets +onlyGivenNames x; first | (refine Keeps.cut s0 x ?_ fun h => ?_; rotate_left; clear_value x) | skip)
    | (unfold x; fail_if_success done)
    | intro h

theorem execHeldCompletionRing_keeps {k s0 a0 s} (h : Keeps k s0 s)
    (hm : Within 0x101000#21 k := by first | assumption | exact Within.trans (by assumption) (by decide)) :
    KeepsO k s0 (execHeldCompletionRing a0 s) := by
  unfold execHeldCompletionRing
  repeat' first
    | with_reducible assumption | with_reducible refine ringBell_keeps ?_ | with_reducible refine Keeps.ite ?_ ?_ | with_reducible refine Keeps.foldl _ _ ?_ _ ?_ | fail_if_no_progress ((with_reducible refine Keeps.mk' ?_ rfl rfl rfl ?_ ?_ ?_ ?_ ?_ ?_ ?_ ?_ ?_ ?_ ?_ ?_ ?_ ?_ ?_ ?_ ?_ ?_ ?_ ?_ ?_) <;> first | exact Or.inl (hm.bit (by decide)) | exact Or.inr rfl | skip) | with_reducible refine KeepsO.next ?_
    | split
    | (extract_lets +onlyGivenNames x; first | (refine Keeps.cut s0 x ?_ fun h => ?_; rotate_left; clear_value x) | skip)
    | (unfold x; fail_if_success done)
    | intro h

theorem saveBinding_keeps {k s0 s} (h : Keeps k s0 s)
    (hm : Within 0x100000#21 k := by first | assumption | exact Within.trans (by assumption) (by decide)) :
    Keeps k s0 (saveBinding s) := by
  unfold saveBinding
  repeat' first
    | with_reducible assumption | with_reducible refine keepPut_keeps ?_ | with_reducible refine Keeps.ite ?_ ?_ | with_reducible refine Keeps.foldl _ _ ?_ _ ?_ | fail_if_no_progress ((with_reducible refine Keeps.mk' ?_ rfl rfl rfl ?_ ?_ ?_ ?_ ?_ ?_ ?_ ?_ ?_ ?_ ?_ ?_ ?_ ?_ ?_ ?_ ?_ ?_ ?_ ?_ ?_) <;> first | exact Or.inl (hm.bit (by decide)) | exact Or.inr rfl | skip)
    | split
    | (extract_lets +onlyGivenNames x; first | (refine Keeps.cut s0 x ?_ fun h => ?_; rotate_left; clear_value x) | skip)
    | (unfold x; fail_if_success done)
    | intro h

theorem setLock_keeps {k s0 s} (h : Keeps k s0 s)
    (hm : Within 0x101000#21 k := by first | assumption | exact Within.trans (by assumption) (by decide)) :
    Keeps k s0 (setLock s) := by
  unfold setLock
  repeat' first
    | with_reducible assumption | with_reducible refine updPipe_keeps ?_ | with_reducible refine saveBinding_keeps ?_ | with_reducible refine Keeps.ite ?_ ?_ | with_reducible refine Keeps.foldl _ _ ?_ _ ?_ | fail_if_no_progress ((with_reducible refine Keeps.mk' ?_ rfl rfl rfl ?_ ?_ ?_ ?_ ?_ ?_ ?_ ?_ ?_ ?_ ?_ ?_ ?_ ?_ ?_ ?_ ?_ ?_ ?_ ?_ ?_) <;> first | exact Or.inl (hm.bit (by decide)) | exact Or.inr rfl | skip)
    | split
    | (extract_lets +onlyGivenNames x; first | (refine Keeps.cut s0 x ?_ fun h => ?_; rotate_left; clear_value x) | skip)
    | (unfold x; fail_if_success done)
    | intro h

theorem execPbndLockSet_keeps {k s0 s} (h : Keeps k s0 s)
    (hm : Within 0x101000#21 k := by first | assumption | exact Within.trans (by assumption) (by decide)) :
    KeepsO k s0 (execPbndLockSet s) := by
  unfold execPbndLockSet
  repeat' first
    | with_reducible assumption | with_reducible refine setLock_keeps ?_ | with_reducible refine Keeps.ite ?_ ?_ | with_reducible refine Keeps.foldl _ _ ?_ _ ?_ | fail_if_no_progress ((with_reducible refine Keeps.mk' ?_ rfl rfl rfl ?_ ?_ ?_ ?_ ?_ ?_ ?_ ?_ ?_ ?_ ?_ ?_ ?_ ?_ ?_ ?_ ?_ ?_ ?_ ?_ ?_) <;> first | exact Or.inl (hm.bit (by decide)) | exact Or.inr rfl | skip) | with_reducible refine KeepsO.next ?_
    | split
    | (extract_lets +onlyGivenNames x; first | (refine Keeps.cut s0 x ?_ fun h => ?_; rotate_left; clear_value x) | skip)
    | (unfold x; fail_if_success done)
    | intro h

theorem execPbndEntryWrite_keeps {k s0 a0 a1 a2 s} (h : Keeps k s0 s)
    (hm : Within 0x1000#21 k := by first | assumption | exact Within.trans (by assumption) (by decide)) :
    KeepsO k s0 (execPbndEntryWrite a0 a1 a2 s) := by
  unfold execPbndEntryWrite
  repeat' first
    | with_reducible assumption | with_reducible refine updPipe_keeps ?_ | with_reducible refine Keeps.ite ?_ ?_ | with_reducible refine Keeps.foldl _ _ ?_ _ ?_ | fail_if_no_progress ((with_reducible refine Keeps.mk' ?_ rfl rfl rfl ?_ ?_ ?_ ?_ ?_ ?_ ?_ ?_ ?_ ?_ ?_ ?_ ?_ ?_ ?_ ?_ ?_ ?_ ?_ ?_ ?_) <;> first | exact Or.inl (hm.bit (by decide)) | exact Or.inr rfl | skip) | with_reducible refine KeepsO.next ?_
    | split
    | (extract_lets +onlyGivenNames x; first | (refine Keeps.cut s0 x ?_ fun h => ?_; rotate_left; clear_value x) | skip)
    | (unfold x; fail_if_success done)
    | intro h

/-! Breath. -/

theorem parkZones_keeps {k s0 s a1} (h : Keeps k s0 s)
    (hm : Within 0x102002#21 k := by first | assumption | exact Within.trans (by assumption) (by decide)) :
    Keeps k s0 (parkZones s a1) := by
  unfold parkZones
  repeat' first
    | with_reducible assumption | with_reducible refine raise_keeps ?_ | with_reducible refine Keeps.ite ?_ ?_ | with_reducible refine Keeps.foldl _ _ ?_ _ ?_ | fail_if_no_progress ((with_reducible refine Keeps.mk' ?_ rfl rfl rfl ?_ ?_ ?_ ?_ ?_ ?_ ?_ ?_ ?_ ?_ ?_ ?_ ?_ ?_ ?_ ?_ ?_ ?_ ?_ ?_ ?_) <;> first | exact Or.inl (hm.bit (by decide)) | exact Or.inr rfl | skip)
    | split
    | (extract_lets +onlyGivenNames x; first | (refine Keeps.cut s0 x ?_ fun h => ?_; rotate_left; clear_value x) | skip)
    | (unfold x; fail_if_success done)
    | intro h

theorem afterBreath_keeps {k s0 s a1 a2} (h : Keeps k s0 s)
    (hm : Within 0x102802#21 k := by first | assumption | exact Within.trans (by assumption) (by decide)) :
    Keeps k s0 (afterBreath s a1 a2) := by
  unfold afterBreath
  repeat' first
    | with_reducible assumption | with_reducible refine parkZones_keeps ?_ | with_reducible refine Keeps.ite ?_ ?_ | with_reducible refine Keeps.foldl _ _ ?_ _ ?_ | fail_if_no_progress ((with_reducible refine Keeps.mk' ?_ rfl rfl rfl ?_ ?_ ?_ ?_ ?_ ?_ ?_ ?_ ?_ ?_ ?_ ?_ ?_ ?_ ?_ ?_ ?_ ?_ ?_ ?_ ?_) <;> first | exact Or.inl (hm.bit (by decide)) | exact Or.inr rfl | skip)
    | split
    | (extract_lets +onlyGivenNames x; first | (refine Keeps.cut s0 x ?_ fun h => ?_; rotate_left; clear_value x) | skip)
    | (unfold x; fail_if_success done)
    | intro h

theorem abandonCommit_keeps {k s0 s} (h : Keeps k s0 s)
    (hm : Within 0x11000#21 k := by first | assumption | exact Within.trans (by assumption) (by decide)) :
    Keeps k s0 (abandonCommit s) := by
  unfold abandonCommit
  repeat' first
    | with_reducible assumption | with_reducible refine finishId_keeps ?_ | with_reducible refine Keeps.ite ?_ ?_ | with_reducible refine Keeps.foldl _ _ ?_ _ ?_ | fail_if_no_progress ((with_reducible refine Keeps.mk' ?_ rfl rfl rfl ?_ ?_ ?_ ?_ ?_ ?_ ?_ ?_ ?_ ?_ ?_ ?_ ?_ ?_ ?_ ?_ ?_ ?_ ?_ ?_ ?_) <;> first | exact Or.inl (hm.bit (by decide)) | exact Or.inr rfl | skip)
    | split
    | (extract_lets +onlyGivenNames x; first | (refine Keeps.cut s0 x ?_ fun h => ?_; rotate_left; clear_value x) | skip)
    | (unfold x; fail_if_success done)
    | intro h

theorem startBreath_keeps {k s0 s a1 a2} (h : Keeps k s0 s)
    (hm : Within 0x113842#21 k := by first | assumption | exact Within.trans (by assumption) (by decide)) :
    Keeps k s0 (startBreath s a1 a2) := by
  unfold startBreath
  repeat' first
    | with_reducible assumption | with_reducible refine abandonCommit_keeps ?_ | with_reducible refine afterBreath_keeps ?_ | with_reducible refine raise_keeps ?_ | with_reducible refine Keeps.ite ?_ ?_ | with_reducible refine Keeps.foldl _ _ ?_ _ ?_ | fail_if_no_progress ((with_reducible refine Keeps.mk' ?_ rfl rfl rfl ?_ ?_ ?_ ?_ ?_ ?_ ?_ ?_ ?_ ?_ ?_ ?_ ?_ ?_ ?_ ?_ ?_ ?_ ?_ ?_ ?_) <;> first | exact Or.inl (hm.bit (by decide)) | exact Or.inr rfl | skip)
    | split
    | (extract_lets +onlyGivenNames x; first | (refine Keeps.cut s0 x ?_ fun h => ?_; rotate_left; clear_value x) | skip)
    | (unfold x; fail_if_success done)
    | intro h

theorem execLastBreathStart_keeps {k s0 a0 s} (h : Keeps k s0 s)
    (hm : Within 0x113842#21 k := by first | assumption | exact Within.trans (by assumption) (by decide)) :
    KeepsO k s0 (execLastBreathStart a0 s) := by
  unfold execLastBreathStart
  repeat' first
    | with_reducible assumption | with_reducible refine startBreath_keeps ?_ | with_reducible refine Keeps.ite ?_ ?_ | with_reducible refine Keeps.foldl _ _ ?_ _ ?_ | fail_if_no_progress ((with_reducible refine Keeps.mk' ?_ rfl rfl rfl ?_ ?_ ?_ ?_ ?_ ?_ ?_ ?_ ?_ ?_ ?_ ?_ ?_ ?_ ?_ ?_ ?_ ?_ ?_ ?_ ?_) <;> first | exact Or.inl (hm.bit (by decide)) | exact Or.inr rfl | skip) | with_reducible refine KeepsO.next ?_
    | split
    | (extract_lets +onlyGivenNames x; first | (refine Keeps.cut s0 x ?_ fun h => ?_; rotate_left; clear_value x) | skip)
    | (unfold x; fail_if_success done)
    | intro h

theorem sealBreath_keeps {k s0 s a1 a2} (h : Keeps k s0 s)
    (hm : Within 0x182802#21 k := by first | assumption | exact Within.trans (by assumption) (by decide)) :
    Keeps k s0 (sealBreath s a1 a2) := by
  unfold sealBreath
  repeat' first
    | with_reducible assumption | with_reducible refine draw_keeps ?_ | with_reducible refine afterBreath_keeps ?_ | with_reducible refine critAppend_keeps ?_ | with_reducible refine Keeps.ite ?_ ?_ | with_reducible refine Keeps.foldl _ _ ?_ _ ?_ | fail_if_no_progress ((with_reducible refine Keeps.mk' ?_ rfl rfl rfl ?_ ?_ ?_ ?_ ?_ ?_ ?_ ?_ ?_ ?_ ?_ ?_ ?_ ?_ ?_ ?_ ?_ ?_ ?_ ?_ ?_) <;> first | exact Or.inl (hm.bit (by decide)) | exact Or.inr rfl | skip)
    | split
    | (extract_lets +onlyGivenNames x; first | (refine Keeps.cut s0 x ?_ fun h => ?_; rotate_left; clear_value x) | skip)
    | (unfold x; fail_if_success done)
    | intro h
    | with_reducible refine KeepsR.elim ?_ (by assumption) | with_reducible refine KeepsL.elim ?_ (by assumption) | with_reducible refine KeepsOS.elim ?_ (by assumption) | with_reducible refine KeepsOR.elim ?_ (by assumption) | with_reducible refine KeepsOR3.elim ?_ (by assumption) | with_reducible refine KeepsL.proj ?_ | with_reducible refine KeepsR.proj ?_

theorem execBreathSeal_keeps {k s0 a0 s} (h : Keeps k s0 s)
    (hm : Within 0x182802#21 k := by first | assumption | exact Within.trans (by assumption) (by decide)) :
    KeepsO k s0 (execBreathSeal a0 s) := by
  unfold execBreathSeal
  repeat' first
    | with_reducible assumption | with_reducible refine sealBreath_keeps ?_ | with_reducible refine Keeps.ite ?_ ?_ | with_reducible refine Keeps.foldl _ _ ?_ _ ?_ | fail_if_no_progress ((with_reducible refine Keeps.mk' ?_ rfl rfl rfl ?_ ?_ ?_ ?_ ?_ ?_ ?_ ?_ ?_ ?_ ?_ ?_ ?_ ?_ ?_ ?_ ?_ ?_ ?_ ?_ ?_) <;> first | exact Or.inl (hm.bit (by decide)) | exact Or.inr rfl | skip) | with_reducible refine KeepsO.next ?_
    | split
    | (extract_lets +onlyGivenNames x; first | (refine Keeps.cut s0 x ?_ fun h => ?_; rotate_left; clear_value x) | skip)
    | (unfold x; fail_if_success done)
    | intro h

theorem execPwrfailNAssert_keeps {k s0 s} (h : Keeps k s0 s)
    (hm : Within 0x2#21 k := by first | assumption | exact Within.trans (by assumption) (by decide)) :
    KeepsO k s0 (execPwrfailNAssert s) := by
  unfold execPwrfailNAssert
  repeat' first
    | with_reducible assumption | with_reducible refine Keeps.ite ?_ ?_ | with_reducible refine Keeps.foldl _ _ ?_ _ ?_ | fail_if_no_progress ((with_reducible refine Keeps.mk' ?_ rfl rfl rfl ?_ ?_ ?_ ?_ ?_ ?_ ?_ ?_ ?_ ?_ ?_ ?_ ?_ ?_ ?_ ?_ ?_ ?_ ?_ ?_ ?_) <;> first | exact Or.inl (hm.bit (by decide)) | exact Or.inr rfl | skip) | with_reducible refine KeepsO.next ?_
    | split
    | (extract_lets +onlyGivenNames x; first | (refine Keeps.cut s0 x ?_ fun h => ?_; rotate_left; clear_value x) | skip)
    | (unfold x; fail_if_success done)
    | intro h

theorem execPwrfailNDeassert_keeps {k s0 s} (h : Keeps k s0 s)
    (hm : Within 0x2#21 k := by first | assumption | exact Within.trans (by assumption) (by decide)) :
    KeepsO k s0 (execPwrfailNDeassert s) := by
  unfold execPwrfailNDeassert
  repeat' first
    | with_reducible assumption | with_reducible refine Keeps.ite ?_ ?_ | with_reducible refine Keeps.foldl _ _ ?_ _ ?_ | fail_if_no_progress ((with_reducible refine Keeps.mk' ?_ rfl rfl rfl ?_ ?_ ?_ ?_ ?_ ?_ ?_ ?_ ?_ ?_ ?_ ?_ ?_ ?_ ?_ ?_ ?_ ?_ ?_ ?_ ?_) <;> first | exact Or.inl (hm.bit (by decide)) | exact Or.inr rfl | skip) | with_reducible refine KeepsO.next ?_
    | split
    | (extract_lets +onlyGivenNames x; first | (refine Keeps.cut s0 x ?_ fun h => ?_; rotate_left; clear_value x) | skip)
    | (unfold x; fail_if_success done)
    | intro h

/-! Cores. -/

theorem releaseSemas_keeps {k s0 s a1} (h : Keeps k s0 s)
    (hm : Within 0x1000#21 k := by first | assumption | exact Within.trans (by assumption) (by decide)) :
    Keeps k s0 (releaseSemas s a1) := by
  unfold releaseSemas
  repeat' first
    | with_reducible assumption | with_reducible refine Keeps.ite ?_ ?_ | with_reducible refine Keeps.foldl _ _ ?_ _ ?_ | fail_if_no_progress ((with_reducible refine Keeps.mk' ?_ rfl rfl rfl ?_ ?_ ?_ ?_ ?_ ?_ ?_ ?_ ?_ ?_ ?_ ?_ ?_ ?_ ?_ ?_ ?_ ?_ ?_ ?_ ?_) <;> first | exact Or.inl (hm.bit (by decide)) | exact Or.inr rfl | skip)
    | split
    | (extract_lets +onlyGivenNames x; first | (refine Keeps.cut s0 x ?_ fun h => ?_; rotate_left; clear_value x) | skip)
    | (unfold x; fail_if_success done)
    | intro h

theorem abortMouths_keeps {k s0 s a1} (h : Keeps k s0 s)
    (hm : Within 0x1000#21 k := by first | assumption | exact Within.trans (by assumption) (by decide)) : Keeps k s0 (abortMouths s a1) := by
  unfold abortMouths
  refine Keeps.foldl _ _ (fun t n g => ?_) _ h
  dsimp only
  split
  · split
    · have g' : Keeps k s0 (updPipe t n fun p => { p with mouth := none }) := updPipe_keeps g
      exact g'.same' rfl rfl rfl rfl
    · exact g
  · exact g

theorem moveRole_keeps {k s0 s a1 a2} (h : Keeps k s0 s)
    (hm : Within 0x100100#21 k := by first | assumption | exact Within.trans (by assumption) (by decide)) :
    Keeps k s0 (moveRole s a1 a2) := by
  unfold moveRole
  repeat' first
    | with_reducible assumption | with_reducible refine exhaust_keeps ?_ | with_reducible refine raise_keeps ?_ | with_reducible refine Keeps.ite ?_ ?_ | with_reducible refine Keeps.foldl _ _ ?_ _ ?_ | fail_if_no_progress ((with_reducible refine Keeps.mk' ?_ rfl rfl rfl ?_ ?_ ?_ ?_ ?_ ?_ ?_ ?_ ?_ ?_ ?_ ?_ ?_ ?_ ?_ ?_ ?_ ?_ ?_ ?_ ?_) <;> first | exact Or.inl (hm.bit (by decide)) | exact Or.inr rfl | skip)
    | split
    | (extract_lets +onlyGivenNames x; first | (refine Keeps.cut s0 x ?_ fun h => ?_; rotate_left; clear_value x) | skip)
    | (unfold x; fail_if_success done)
    | intro h

theorem coreFail_keeps {k s0 s a1} (h : Keeps k s0 s)
    (hm : Within 0x101100#21 k := by first | assumption | exact Within.trans (by assumption) (by decide)) :
    Keeps k s0 (coreFail s a1) := by
  unfold coreFail
  repeat' first
    | with_reducible assumption | with_reducible refine raise_keeps ?_ | with_reducible refine releaseSemas_keeps ?_ | with_reducible refine exhaust_keeps ?_ | with_reducible refine moveRole_keeps ?_ | with_reducible refine abortMouths_keeps ?_ | with_reducible refine Keeps.ite ?_ ?_ | with_reducible refine Keeps.foldl _ _ ?_ _ ?_ | fail_if_no_progress ((with_reducible refine Keeps.mk' ?_ rfl rfl rfl ?_ ?_ ?_ ?_ ?_ ?_ ?_ ?_ ?_ ?_ ?_ ?_ ?_ ?_ ?_ ?_ ?_ ?_ ?_ ?_ ?_) <;> first | exact Or.inl (hm.bit (by decide)) | exact Or.inr rfl | skip)
    | split
    | (extract_lets +onlyGivenNames x; first | (refine Keeps.cut s0 x ?_ fun h => ?_; rotate_left; clear_value x) | skip)
    | (unfold x; fail_if_success done)
    | intro h

theorem execCoreHeartbeatTimeout_keeps {k s0 a0 s} (h : Keeps k s0 s)
    (hm : Within 0x101100#21 k := by first | assumption | exact Within.trans (by assumption) (by decide)) :
    KeepsO k s0 (execCoreHeartbeatTimeout a0 s) := by
  unfold execCoreHeartbeatTimeout
  repeat' first
    | with_reducible assumption | with_reducible refine coreFail_keeps ?_ | with_reducible refine Keeps.ite ?_ ?_ | with_reducible refine Keeps.foldl _ _ ?_ _ ?_ | fail_if_no_progress ((with_reducible refine Keeps.mk' ?_ rfl rfl rfl ?_ ?_ ?_ ?_ ?_ ?_ ?_ ?_ ?_ ?_ ?_ ?_ ?_ ?_ ?_ ?_ ?_ ?_ ?_ ?_ ?_) <;> first | exact Or.inl (hm.bit (by decide)) | exact Or.inr rfl | skip) | with_reducible refine KeepsO.next ?_
    | split
    | (extract_lets +onlyGivenNames x; first | (refine Keeps.cut s0 x ?_ fun h => ?_; rotate_left; clear_value x) | skip)
    | (unfold x; fail_if_success done)
    | intro h

theorem readAgain_keeps {k s0 s a1} (h : Keeps k s0 s)
    (hm : Within 0x81000#21 k := by first | assumption | exact Within.trans (by assumption) (by decide)) :
    Keeps k s0 (readAgain s a1) := by
  unfold readAgain
  repeat' first
    | with_reducible assumption | with_reducible refine draw_keeps ?_ | with_reducible refine updCmd_keeps ?_ | with_reducible refine Keeps.ite ?_ ?_ | with_reducible refine Keeps.foldl _ _ ?_ _ ?_ | fail_if_no_progress ((with_reducible refine Keeps.mk' ?_ rfl rfl rfl ?_ ?_ ?_ ?_ ?_ ?_ ?_ ?_ ?_ ?_ ?_ ?_ ?_ ?_ ?_ ?_ ?_ ?_ ?_ ?_ ?_) <;> first | exact Or.inl (hm.bit (by decide)) | exact Or.inr rfl | skip)
    | split
    | (extract_lets +onlyGivenNames x; first | (refine Keeps.cut s0 x ?_ fun h => ?_; rotate_left; clear_value x) | skip)
    | (unfold x; fail_if_success done)
    | intro h
    | with_reducible refine KeepsR.elim ?_ (by assumption) | with_reducible refine KeepsL.elim ?_ (by assumption) | with_reducible refine KeepsOS.elim ?_ (by assumption) | with_reducible refine KeepsOR.elim ?_ (by assumption) | with_reducible refine KeepsOR3.elim ?_ (by assumption) | with_reducible refine KeepsL.proj ?_ | with_reducible refine KeepsR.proj ?_

theorem execCoreFailoverDone_keeps {k s0 a0 s} (h : Keeps k s0 s)
    (hm : Within 0x81100#21 k := by first | assumption | exact Within.trans (by assumption) (by decide)) :
    KeepsO k s0 (execCoreFailoverDone a0 s) := by
  unfold execCoreFailoverDone
  repeat' first
    | with_reducible assumption | with_reducible refine readAgain_keeps ?_ | with_reducible refine Keeps.ite ?_ ?_ | with_reducible refine Keeps.foldl _ _ ?_ _ ?_ | fail_if_no_progress ((with_reducible refine Keeps.mk' ?_ rfl rfl rfl ?_ ?_ ?_ ?_ ?_ ?_ ?_ ?_ ?_ ?_ ?_ ?_ ?_ ?_ ?_ ?_ ?_ ?_ ?_ ?_ ?_) <;> first | exact Or.inl (hm.bit (by decide)) | exact Or.inr rfl | skip) | with_reducible refine KeepsO.next ?_
    | split
    | (extract_lets +onlyGivenNames x; first | (refine Keeps.cut s0 x ?_ fun h => ?_; rotate_left; clear_value x) | skip)
    | (unfold x; fail_if_success done)
    | intro h

theorem execSramEccError_keeps {k s0 a0 a1 a2 a3 s} (h : Keeps k s0 s)
    (hm : Within 0x1093ac#21 k := by first | assumption | exact Within.trans (by assumption) (by decide)) :
    KeepsO k s0 (execSramEccError a0 a1 a2 a3 s) := by
  unfold execSramEccError
  repeat' first
    | with_reducible assumption | with_reducible refine count_keeps ?_ | with_reducible refine sramError_keeps ?_ | with_reducible refine coreFail_keeps ?_ | with_reducible refine sramWordLost_keeps ?_ | with_reducible refine Keeps.ite ?_ ?_ | with_reducible refine Keeps.foldl _ _ ?_ _ ?_ | fail_if_no_progress ((with_reducible refine Keeps.mk' ?_ rfl rfl rfl ?_ ?_ ?_ ?_ ?_ ?_ ?_ ?_ ?_ ?_ ?_ ?_ ?_ ?_ ?_ ?_ ?_ ?_ ?_ ?_ ?_) <;> first | exact Or.inl (hm.bit (by decide)) | exact Or.inr rfl | skip) | with_reducible refine KeepsO.next ?_
    | split
    | (extract_lets +onlyGivenNames x; first | (refine Keeps.cut s0 x ?_ fun h => ?_; rotate_left; clear_value x) | skip)
    | (unfold x; fail_if_success done)
    | intro h

theorem disableMedia_keeps {k s0 s} (h : Keeps k s0 s)
    (hm : Within 0x113842#21 k := by first | assumption | exact Within.trans (by assumption) (by decide)) :
    Keeps k s0 (disableMedia s) := by
  unfold disableMedia
  repeat' first
    | with_reducible assumption | with_reducible refine startBreath_keeps ?_ | with_reducible refine raise_keeps ?_ | with_reducible refine Keeps.ite ?_ ?_ | with_reducible refine Keeps.foldl _ _ ?_ _ ?_ | fail_if_no_progress ((with_reducible refine Keeps.mk' ?_ rfl rfl rfl ?_ ?_ ?_ ?_ ?_ ?_ ?_ ?_ ?_ ?_ ?_ ?_ ?_ ?_ ?_ ?_ ?_ ?_ ?_ ?_ ?_) <;> first | exact Or.inl (hm.bit (by decide)) | exact Or.inr rfl | skip)
    | split
    | (extract_lets +onlyGivenNames x; first | (refine Keeps.cut s0 x ?_ fun h => ?_; rotate_left; clear_value x) | skip)
    | (unfold x; fail_if_success done)
    | intro h

theorem execSramChannelFail_keeps {k s0 a0 a1 s} (h : Keeps k s0 s)
    (hm : Within 0x1139ca#21 k := by first | assumption | exact Within.trans (by assumption) (by decide)) :
    KeepsO k s0 (execSramChannelFail a0 a1 s) := by
  unfold execSramChannelFail
  repeat' first
    | with_reducible assumption | with_reducible refine disableMedia_keeps ?_ | with_reducible refine updSram_keeps ?_ | with_reducible refine useSpareChannel_keeps ?_ | with_reducible refine Keeps.ite ?_ ?_ | with_reducible refine Keeps.foldl _ _ ?_ _ ?_ | fail_if_no_progress ((with_reducible refine Keeps.mk' ?_ rfl rfl rfl ?_ ?_ ?_ ?_ ?_ ?_ ?_ ?_ ?_ ?_ ?_ ?_ ?_ ?_ ?_ ?_ ?_ ?_ ?_ ?_ ?_) <;> first | exact Or.inl (hm.bit (by decide)) | exact Or.inr rfl | skip) | with_reducible refine KeepsO.next ?_
    | split
    | (extract_lets +onlyGivenNames x; first | (refine Keeps.cut s0 x ?_ fun h => ?_; rotate_left; clear_value x) | skip)
    | (unfold x; fail_if_success done)
    | intro h

/-! Health. -/

theorem loadHistory_keeps {k s0 s} (h : Keeps k s0 s)
    (hm : Within 0x2000#21 k := by first | assumption | exact Within.trans (by assumption) (by decide)) :
    Keeps k s0 (loadHistory s) := by
  unfold loadHistory
  repeat' first
    | with_reducible assumption | with_reducible refine updZone_keeps ?_ | with_reducible refine Keeps.ite ?_ ?_ | with_reducible refine Keeps.foldl _ _ ?_ _ ?_ | fail_if_no_progress ((with_reducible refine Keeps.mk' ?_ rfl rfl rfl ?_ ?_ ?_ ?_ ?_ ?_ ?_ ?_ ?_ ?_ ?_ ?_ ?_ ?_ ?_ ?_ ?_ ?_ ?_ ?_ ?_) <;> first | exact Or.inl (hm.bit (by decide)) | exact Or.inr rfl | skip)
    | split
    | (extract_lets +onlyGivenNames x; first | (refine Keeps.cut s0 x ?_ fun h => ?_; rotate_left; clear_value x) | skip)
    | (unfold x; fail_if_success done)
    | intro h

theorem alertCheck_keeps {k s0 s} (h : Keeps k s0 s)
    (hm : Within 0x100800#21 k := by first | assumption | exact Within.trans (by assumption) (by decide)) :
    Keeps k s0 (alertCheck s) := by
  unfold alertCheck
  repeat' first
    | with_reducible assumption | with_reducible refine raise_keeps ?_ | with_reducible refine Keeps.ite ?_ ?_ | with_reducible refine Keeps.foldl _ _ ?_ _ ?_ | fail_if_no_progress ((with_reducible refine Keeps.mk' ?_ rfl rfl rfl ?_ ?_ ?_ ?_ ?_ ?_ ?_ ?_ ?_ ?_ ?_ ?_ ?_ ?_ ?_ ?_ ?_ ?_ ?_ ?_ ?_) <;> first | exact Or.inl (hm.bit (by decide)) | exact Or.inr rfl | skip)
    | split
    | (extract_lets +onlyGivenNames x; first | (refine Keeps.cut s0 x ?_ fun h => ?_; rotate_left; clear_value x) | skip)
    | (unfold x; fail_if_success done)
    | intro h

/-! Thermal. -/

theorem updChan_keeps {k s0 s a1 a2} (h : Keeps k s0 s)
    (hm : Within 0x2000#21 k := by first | assumption | exact Within.trans (by assumption) (by decide)) :
    Keeps k s0 (updChan s a1 a2) := by
  unfold updChan
  repeat' first
    | with_reducible assumption | with_reducible refine Keeps.ite ?_ ?_ | with_reducible refine Keeps.foldl _ _ ?_ _ ?_ | fail_if_no_progress ((with_reducible refine Keeps.mk' ?_ rfl rfl rfl ?_ ?_ ?_ ?_ ?_ ?_ ?_ ?_ ?_ ?_ ?_ ?_ ?_ ?_ ?_ ?_ ?_ ?_ ?_ ?_ ?_) <;> first | exact Or.inl (hm.bit (by decide)) | exact Or.inr rfl | skip)
    | split
    | (extract_lets +onlyGivenNames x; first | (refine Keeps.cut s0 x ?_ fun h => ?_; rotate_left; clear_value x) | skip)
    | (unfold x; fail_if_success done)
    | intro h

theorem chanRound_keeps {k s0 a0 s a2} (h : Keeps k s0 s)
    (hm : Within 0x102000#21 k := by first | assumption | exact Within.trans (by assumption) (by decide)) :
    Keeps k s0 (chanRound a0 s a2) := by
  unfold chanRound
  repeat' first
    | with_reducible assumption | with_reducible refine updChan_keeps ?_ | with_reducible refine raise_keeps ?_ | with_reducible refine Keeps.ite ?_ ?_ | with_reducible refine Keeps.foldl _ _ ?_ _ ?_ | fail_if_no_progress ((with_reducible refine Keeps.mk' ?_ rfl rfl rfl ?_ ?_ ?_ ?_ ?_ ?_ ?_ ?_ ?_ ?_ ?_ ?_ ?_ ?_ ?_ ?_ ?_ ?_ ?_ ?_ ?_) <;> first | exact Or.inl (hm.bit (by decide)) | exact Or.inr rfl | skip)
    | split
    | (extract_lets +onlyGivenNames x; first | (refine Keeps.cut s0 x ?_ fun h => ?_; rotate_left; clear_value x) | skip)
    | (unfold x; fail_if_success done)
    | intro h

theorem countGood_keeps {k s0 s a1 a2} (h : Keeps k s0 s)
    (hm : Within 0x102000#21 k := by first | assumption | exact Within.trans (by assumption) (by decide)) :
    Keeps k s0 (countGood s a1 a2) := by
  unfold countGood
  repeat' first
    | with_reducible assumption | with_reducible refine updZone_keeps ?_ | with_reducible refine raise_keeps ?_ | with_reducible refine Keeps.ite ?_ ?_ | with_reducible refine Keeps.foldl _ _ ?_ _ ?_ | fail_if_no_progress ((with_reducible refine Keeps.mk' ?_ rfl rfl rfl ?_ ?_ ?_ ?_ ?_ ?_ ?_ ?_ ?_ ?_ ?_ ?_ ?_ ?_ ?_ ?_ ?_ ?_ ?_ ?_ ?_) <;> first | exact Or.inl (hm.bit (by decide)) | exact Or.inr rfl | skip)
    | split
    | (extract_lets +onlyGivenNames x; first | (refine Keeps.cut s0 x ?_ fun h => ?_; rotate_left; clear_value x) | skip)
    | (unfold x; fail_if_success done)
    | intro h

theorem zoneRound_keeps {k s0 a0 s a2} (h : Keeps k s0 s)
    (hm : Within 0x102000#21 k := by first | assumption | exact Within.trans (by assumption) (by decide)) :
    Keeps k s0 (zoneRound a0 s a2) := by
  unfold zoneRound
  repeat' first
    | with_reducible assumption | with_reducible refine countGood_keeps ?_ | with_reducible refine updZone_keeps ?_ | with_reducible refine Keeps.ite ?_ ?_ | with_reducible refine Keeps.foldl _ _ ?_ _ ?_ | fail_if_no_progress ((with_reducible refine Keeps.mk' ?_ rfl rfl rfl ?_ ?_ ?_ ?_ ?_ ?_ ?_ ?_ ?_ ?_ ?_ ?_ ?_ ?_ ?_ ?_ ?_ ?_ ?_ ?_ ?_) <;> first | exact Or.inl (hm.bit (by decide)) | exact Or.inr rfl | skip)
    | split
    | (extract_lets +onlyGivenNames x; first | (refine Keeps.cut s0 x ?_ fun h => ?_; rotate_left; clear_value x) | skip)
    | (unfold x; fail_if_success done)
    | intro h

theorem railRound_keeps {k s0 a0 s} (h : Keeps k s0 s)
    (hm : Within 0x102000#21 k := by first | assumption | exact Within.trans (by assumption) (by decide)) :
    Keeps k s0 (railRound a0 s) := by
  unfold railRound
  repeat' first
    | with_reducible assumption | with_reducible refine raise_keeps ?_ | with_reducible refine Keeps.ite ?_ ?_ | with_reducible refine Keeps.foldl _ _ ?_ _ ?_ | fail_if_no_progress ((with_reducible refine Keeps.mk' ?_ rfl rfl rfl ?_ ?_ ?_ ?_ ?_ ?_ ?_ ?_ ?_ ?_ ?_ ?_ ?_ ?_ ?_ ?_ ?_ ?_ ?_ ?_ ?_) <;> first | exact Or.inl (hm.bit (by decide)) | exact Or.inr rfl | skip)
    | split
    | (extract_lets +onlyGivenNames x; first | (refine Keeps.cut s0 x ?_ fun h => ?_; rotate_left; clear_value x) | skip)
    | (unfold x; fail_if_success done)
    | intro h

theorem batteryRound_keeps {k s0 a0 s} (h : Keeps k s0 s)
    (hm : Within 0x102002#21 k := by first | assumption | exact Within.trans (by assumption) (by decide)) :
    Keeps k s0 (batteryRound a0 s) := by
  unfold batteryRound
  repeat' first
    | with_reducible assumption | with_reducible refine raise_keeps ?_ | with_reducible refine Keeps.ite ?_ ?_ | with_reducible refine Keeps.foldl _ _ ?_ _ ?_ | fail_if_no_progress ((with_reducible refine Keeps.mk' ?_ rfl rfl rfl ?_ ?_ ?_ ?_ ?_ ?_ ?_ ?_ ?_ ?_ ?_ ?_ ?_ ?_ ?_ ?_ ?_ ?_ ?_ ?_ ?_) <;> first | exact Or.inl (hm.bit (by decide)) | exact Or.inr rfl | skip)
    | split
    | (extract_lets +onlyGivenNames x; first | (refine Keeps.cut s0 x ?_ fun h => ?_; rotate_left; clear_value x) | skip)
    | (unfold x; fail_if_success done)
    | intro h

theorem holdupRound_keeps {k s0 a0 s} (h : Keeps k s0 s)
    (hm : Within 0x102002#21 k := by first | assumption | exact Within.trans (by assumption) (by decide)) :
    Keeps k s0 (holdupRound a0 s) := by
  unfold holdupRound
  repeat' first
    | with_reducible assumption | with_reducible refine raise_keeps ?_ | with_reducible refine Keeps.ite ?_ ?_ | with_reducible refine Keeps.foldl _ _ ?_ _ ?_ | fail_if_no_progress ((with_reducible refine Keeps.mk' ?_ rfl rfl rfl ?_ ?_ ?_ ?_ ?_ ?_ ?_ ?_ ?_ ?_ ?_ ?_ ?_ ?_ ?_ ?_ ?_ ?_ ?_ ?_ ?_) <;> first | exact Or.inl (hm.bit (by decide)) | exact Or.inr rfl | skip)
    | split
    | (extract_lets +onlyGivenNames x; first | (refine Keeps.cut s0 x ?_ fun h => ?_; rotate_left; clear_value x) | skip)
    | (unfold x; fail_if_success done)
    | intro h

theorem measureHoldup_keeps {k s0 s a1 a2} (h : Keeps k s0 s)
    (hm : Within 0x10000e#21 k := by first | assumption | exact Within.trans (by assumption) (by decide)) :
    Keeps k s0 (measureHoldup s a1 a2) := by
  unfold measureHoldup
  repeat' first
    | with_reducible assumption | with_reducible refine raise_keeps ?_ | with_reducible refine Keeps.ite ?_ ?_ | with_reducible refine Keeps.foldl _ _ ?_ _ ?_ | fail_if_no_progress ((with_reducible refine Keeps.mk' ?_ rfl rfl rfl ?_ ?_ ?_ ?_ ?_ ?_ ?_ ?_ ?_ ?_ ?_ ?_ ?_ ?_ ?_ ?_ ?_ ?_ ?_ ?_ ?_) <;> first | exact Or.inl (hm.bit (by decide)) | exact Or.inr rfl | skip)
    | split
    | (extract_lets +onlyGivenNames x; first | (refine Keeps.cut s0 x ?_ fun h => ?_; rotate_left; clear_value x) | skip)
    | (unfold x; fail_if_success done)
    | intro h

theorem refreshReady_keeps {k s0 s} (h : Keeps k s0 s)
    (hm : Within 0x4#21 k := by first | assumption | exact Within.trans (by assumption) (by decide)) :
    Keeps k s0 (refreshReady s) := by
  unfold refreshReady
  repeat' first
    | with_reducible assumption | with_reducible refine updRegion_keeps ?_ | with_reducible refine Keeps.ite ?_ ?_ | with_reducible refine Keeps.foldl _ _ ?_ _ ?_ | fail_if_no_progress ((with_reducible refine Keeps.mk' ?_ rfl rfl rfl ?_ ?_ ?_ ?_ ?_ ?_ ?_ ?_ ?_ ?_ ?_ ?_ ?_ ?_ ?_ ?_ ?_ ?_ ?_ ?_ ?_) <;> first | exact Or.inl (hm.bit (by decide)) | exact Or.inr rfl | skip)
    | split
    | (extract_lets +onlyGivenNames x; first | (refine Keeps.cut s0 x ?_ fun h => ?_; rotate_left; clear_value x) | skip)
    | (unfold x; fail_if_success done)
    | intro h

theorem holdupRetry_keeps {k s0 a0 s} (h : Keeps k s0 s)
    (hm : Within 0x10000e#21 k := by first | assumption | exact Within.trans (by assumption) (by decide)) :
    Keeps k s0 (holdupRetry a0 s) := by
  unfold holdupRetry
  repeat' first
    | with_reducible assumption | with_reducible refine refreshReady_keeps ?_ | with_reducible refine measureHoldup_keeps ?_ | with_reducible refine Keeps.ite ?_ ?_ | with_reducible refine Keeps.foldl _ _ ?_ _ ?_ | fail_if_no_progress ((with_reducible refine Keeps.mk' ?_ rfl rfl rfl ?_ ?_ ?_ ?_ ?_ ?_ ?_ ?_ ?_ ?_ ?_ ?_ ?_ ?_ ?_ ?_ ?_ ?_ ?_ ?_ ?_) <;> first | exact Or.inl (hm.bit (by decide)) | exact Or.inr rfl | skip)
    | split
    | (extract_lets +onlyGivenNames x; first | (refine Keeps.cut s0 x ?_ fun h => ?_; rotate_left; clear_value x) | skip)
    | (unfold x; fail_if_success done)
    | intro h

theorem execHousekeepingRound_keeps {k s0 a0 s} (h : Keeps k s0 s)
    (hm : Within 0x10240e#21 k := by first | assumption | exact Within.trans (by assumption) (by decide)) :
    KeepsO k s0 (execHousekeepingRound a0 s) := by
  unfold execHousekeepingRound
  repeat' first
    | with_reducible assumption | with_reducible refine holdupRetry_keeps ?_ | with_reducible refine holdupRound_keeps ?_ | with_reducible refine batteryRound_keeps ?_ | with_reducible refine railRound_keeps ?_ | with_reducible refine updZone_keeps ?_ | with_reducible refine Keeps.ite ?_ ?_ | with_reducible refine Keeps.foldl _ _ ?_ _ ?_ | fail_if_no_progress ((with_reducible refine Keeps.mk' ?_ rfl rfl rfl ?_ ?_ ?_ ?_ ?_ ?_ ?_ ?_ ?_ ?_ ?_ ?_ ?_ ?_ ?_ ?_ ?_ ?_ ?_ ?_ ?_) <;> first | exact Or.inl (hm.bit (by decide)) | exact Or.inr rfl | skip) | with_reducible refine KeepsO.next ?_
    | split
    | (extract_lets +onlyGivenNames x; first | (refine Keeps.cut s0 x ?_ fun h => ?_; rotate_left; clear_value x) | skip)
    | (unfold x; fail_if_success done)
    | intro h

theorem computeLevels_keeps {k s0 s a1} (h : Keeps k s0 s)
    (hm : Within 0x10a800#21 k := by first | assumption | exact Within.trans (by assumption) (by decide)) :
    Keeps k s0 (computeLevels s a1) := by
  unfold computeLevels
  repeat' first
    | with_reducible assumption | with_reducible refine chanRound_keeps ?_ | with_reducible refine alertCheck_keeps ?_ | with_reducible refine zoneRound_keeps ?_ | with_reducible refine Keeps.ite ?_ ?_ | with_reducible refine Keeps.foldl _ _ ?_ _ ?_ | fail_if_no_progress ((with_reducible refine Keeps.mk' ?_ rfl rfl rfl ?_ ?_ ?_ ?_ ?_ ?_ ?_ ?_ ?_ ?_ ?_ ?_ ?_ ?_ ?_ ?_ ?_ ?_ ?_ ?_ ?_) <;> first | exact Or.inl (hm.bit (by decide)) | exact Or.inr rfl | skip)
    | split
    | (extract_lets +onlyGivenNames x; first | (refine Keeps.cut s0 x ?_ fun h => ?_; rotate_left; clear_value x) | skip)
    | (unfold x; fail_if_success done)
    | intro h

theorem unparkRanks_keeps {k s0 s a1} (h : Keeps k s0 s)
    (hm : Within 0x18b4fc#21 k := by first | assumption | exact Within.trans (by assumption) (by decide)) :
    Keeps k s0 (unparkRanks s a1) := by
  unfold unparkRanks
  repeat' first
    | with_reducible assumption | with_reducible refine unparkEnds_keeps ?_ | with_reducible refine resumeLinks_keeps ?_ | with_reducible refine Keeps.ite ?_ ?_ | with_reducible refine Keeps.foldl _ _ ?_ _ ?_ | fail_if_no_progress ((with_reducible refine Keeps.mk' ?_ rfl rfl rfl ?_ ?_ ?_ ?_ ?_ ?_ ?_ ?_ ?_ ?_ ?_ ?_ ?_ ?_ ?_ ?_ ?_ ?_ ?_ ?_ ?_) <;> first | exact Or.inl (hm.bit (by decide)) | exact Or.inr rfl | skip)
    | split
    | (extract_lets +onlyGivenNames x; first | (refine Keeps.cut s0 x ?_ fun h => ?_; rotate_left; clear_value x) | skip)
    | (unfold x; fail_if_success done)
    | intro h

theorem setLevels_keeps {k s0 s} (h : Keeps k s0 s)
    (hm : Within 0x18b4fe#21 k := by first | assumption | exact Within.trans (by assumption) (by decide)) :
    Keeps k s0 (setLevels s) := by
  unfold setLevels
  repeat' first
    | with_reducible assumption | with_reducible refine updZone_keeps ?_ | with_reducible refine unparkRanks_keeps ?_ | with_reducible refine Keeps.ite ?_ ?_ | with_reducible refine Keeps.foldl _ _ ?_ _ ?_ | fail_if_no_progress ((with_reducible refine Keeps.mk' ?_ rfl rfl rfl ?_ ?_ ?_ ?_ ?_ ?_ ?_ ?_ ?_ ?_ ?_ ?_ ?_ ?_ ?_ ?_ ?_ ?_ ?_ ?_ ?_) <;> first | exact Or.inl (hm.bit (by decide)) | exact Or.inr rfl | skip)
    | split
    | (extract_lets +onlyGivenNames x; first | (refine Keeps.cut s0 x ?_ fun h => ?_; rotate_left; clear_value x) | skip)
    | (unfold x; fail_if_success done)
    | intro h

theorem levelsLive_keeps {k s0 s} (h : Keeps k s0 s)
    (hm : Within 0x18bcfe#21 k := by first | assumption | exact Within.trans (by assumption) (by decide)) :
    Keeps k s0 (levelsLive s) := by
  unfold levelsLive
  repeat' first
    | with_reducible assumption | with_reducible refine setLevels_keeps ?_ | with_reducible refine computeLevels_keeps ?_ | with_reducible refine Keeps.ite ?_ ?_ | with_reducible refine Keeps.foldl _ _ ?_ _ ?_ | fail_if_no_progress ((with_reducible refine Keeps.mk' ?_ rfl rfl rfl ?_ ?_ ?_ ?_ ?_ ?_ ?_ ?_ ?_ ?_ ?_ ?_ ?_ ?_ ?_ ?_ ?_ ?_ ?_ ?_ ?_) <;> first | exact Or.inl (hm.bit (by decide)) | exact Or.inr rfl | skip)
    | split
    | (extract_lets +onlyGivenNames x; first | (refine Keeps.cut s0 x ?_ fun h => ?_; rotate_left; clear_value x) | skip)
    | (unfold x; fail_if_success done)
    | intro h

theorem execMuteLevelLive_keeps {k s0 s} (h : Keeps k s0 s)
    (hm : Within 0x18bcfe#21 k := by first | assumption | exact Within.trans (by assumption) (by decide)) :
    KeepsO k s0 (execMuteLevelLive s) := by
  unfold execMuteLevelLive
  repeat' first
    | with_reducible assumption | with_reducible refine levelsLive_keeps ?_ | with_reducible refine Keeps.ite ?_ ?_ | with_reducible refine Keeps.foldl _ _ ?_ _ ?_ | fail_if_no_progress ((with_reducible refine Keeps.mk' ?_ rfl rfl rfl ?_ ?_ ?_ ?_ ?_ ?_ ?_ ?_ ?_ ?_ ?_ ?_ ?_ ?_ ?_ ?_ ?_ ?_ ?_ ?_ ?_) <;> first | exact Or.inl (hm.bit (by decide)) | exact Or.inr rfl | skip) | with_reducible refine KeepsO.next ?_
    | split
    | (extract_lets +onlyGivenNames x; first | (refine Keeps.cut s0 x ?_ fun h => ?_; rotate_left; clear_value x) | skip)
    | (unfold x; fail_if_success done)
    | intro h

theorem execTempHistorySave_keeps {k s0 s} (h : Keeps k s0 s)
    (hm : Within 0x100000#21 k := by first | assumption | exact Within.trans (by assumption) (by decide)) :
    KeepsO k s0 (execTempHistorySave s) := by
  unfold execTempHistorySave
  repeat' first
    | with_reducible assumption | with_reducible refine keepPut_keeps ?_ | with_reducible refine Keeps.ite ?_ ?_ | with_reducible refine Keeps.foldl _ _ ?_ _ ?_ | fail_if_no_progress ((with_reducible refine Keeps.mk' ?_ rfl rfl rfl ?_ ?_ ?_ ?_ ?_ ?_ ?_ ?_ ?_ ?_ ?_ ?_ ?_ ?_ ?_ ?_ ?_ ?_ ?_ ?_ ?_) <;> first | exact Or.inl (hm.bit (by decide)) | exact Or.inr rfl | skip) | with_reducible refine KeepsO.next ?_
    | split
    | (extract_lets +onlyGivenNames x; first | (refine Keeps.cut s0 x ?_ fun h => ?_; rotate_left; clear_value x) | skip)
    | (unfold x; fail_if_success done)
    | intro h

theorem execOndieThermtrip_keeps {k s0 a0 a1 s} (h : Keeps k s0 s)
    (hm : Within 0x2#21 k := by first | assumption | exact Within.trans (by assumption) (by decide)) :
    KeepsO k s0 (execOndieThermtrip a0 a1 s) := by
  unfold execOndieThermtrip
  repeat' first
    | with_reducible assumption | with_reducible refine Keeps.ite ?_ ?_ | with_reducible refine Keeps.foldl _ _ ?_ _ ?_ | fail_if_no_progress ((with_reducible refine Keeps.mk' ?_ rfl rfl rfl ?_ ?_ ?_ ?_ ?_ ?_ ?_ ?_ ?_ ?_ ?_ ?_ ?_ ?_ ?_ ?_ ?_ ?_ ?_ ?_ ?_) <;> first | exact Or.inl (hm.bit (by decide)) | exact Or.inr rfl | skip) | with_reducible refine KeepsO.next ?_
    | split
    | (extract_lets +onlyGivenNames x; first | (refine Keeps.cut s0 x ?_ fun h => ?_; rotate_left; clear_value x) | skip)
    | (unfold x; fail_if_success done)
    | intro h

/-! KeepCmds. -/

theorem partFail_keeps {k s0 s a1} (h : Keeps k s0 s)
    (hm : Within 0x104100#21 k := by first | assumption | exact Within.trans (by assumption) (by decide)) :
    Keeps k s0 (partFail s a1) := by
  unfold partFail
  repeat' first
    | with_reducible assumption | with_reducible refine exhaust_keeps ?_ | with_reducible refine raise_keeps ?_ | with_reducible refine Keeps.ite ?_ ?_ | with_reducible refine Keeps.foldl _ _ ?_ _ ?_ | fail_if_no_progress ((with_reducible refine Keeps.mk' ?_ rfl rfl rfl ?_ ?_ ?_ ?_ ?_ ?_ ?_ ?_ ?_ ?_ ?_ ?_ ?_ ?_ ?_ ?_ ?_ ?_ ?_ ?_ ?_) <;> first | exact Or.inl (hm.bit (by decide)) | exact Or.inr rfl | skip)
    | split
    | (extract_lets +onlyGivenNames x; first | (refine Keeps.cut s0 x ?_ fun h => ?_; rotate_left; clear_value x) | skip)
    | (unfold x; fail_if_success done)
    | intro h

theorem execKeepAppend_keeps {k s0 a0 a1 a2 a3 s} (h : Keeps k s0 s)
    (hm : Within 0x104100#21 k := by first | assumption | exact Within.trans (by assumption) (by decide)) :
    KeepsO k s0 (execKeepAppend a0 a1 a2 a3 s) := by
  unfold execKeepAppend
  repeat' first
    | with_reducible assumption | with_reducible refine partFail_keeps ?_ | with_reducible refine keepPut_keeps ?_ | with_reducible refine Keeps.ite ?_ ?_ | with_reducible refine Keeps.foldl _ _ ?_ _ ?_ | fail_if_no_progress ((with_reducible refine Keeps.mk' ?_ rfl rfl rfl ?_ ?_ ?_ ?_ ?_ ?_ ?_ ?_ ?_ ?_ ?_ ?_ ?_ ?_ ?_ ?_ ?_ ?_ ?_ ?_ ?_) <;> first | exact Or.inl (hm.bit (by decide)) | exact Or.inr rfl | skip) | with_reducible refine KeepsO.next ?_
    | split
    | (extract_lets +onlyGivenNames x; first | (refine Keeps.cut s0 x ?_ fun h => ?_; rotate_left; clear_value x) | skip)
    | (unfold x; fail_if_success done)
    | intro h

theorem finishKeepWrites_keeps {k s0 s} (h : Keeps k s0 s)
    (hm : Within 0x1000#21 k := by first | assumption | exact Within.trans (by assumption) (by decide)) :
    Keeps k s0 (finishKeepWrites s) := by
  unfold finishKeepWrites
  repeat' first
    | with_reducible assumption | with_reducible refine finishCmd_keeps ?_ | with_reducible refine Keeps.ite ?_ ?_ | with_reducible refine Keeps.foldl _ _ ?_ _ ?_ | fail_if_no_progress ((with_reducible refine Keeps.mk' ?_ rfl rfl rfl ?_ ?_ ?_ ?_ ?_ ?_ ?_ ?_ ?_ ?_ ?_ ?_ ?_ ?_ ?_ ?_ ?_ ?_ ?_ ?_ ?_) <;> first | exact Or.inl (hm.bit (by decide)) | exact Or.inr rfl | skip)
    | split
    | (extract_lets +onlyGivenNames x; first | (refine Keeps.cut s0 x ?_ fun h => ?_; rotate_left; clear_value x) | skip)
    | (unfold x; fail_if_success done)
    | intro h

theorem execKeepCompaction_keeps {k s0 s} (h : Keeps k s0 s)
    (hm : Within 0x105000#21 k := by first | assumption | exact Within.trans (by assumption) (by decide)) :
    KeepsO k s0 (execKeepCompaction s) := by
  unfold execKeepCompaction
  repeat' first
    | with_reducible assumption | with_reducible refine finishKeepWrites_keeps ?_ | with_reducible refine keepFlush_keeps ?_ | with_reducible refine Keeps.ite ?_ ?_ | with_reducible refine Keeps.foldl _ _ ?_ _ ?_ | fail_if_no_progress ((with_reducible refine Keeps.mk' ?_ rfl rfl rfl ?_ ?_ ?_ ?_ ?_ ?_ ?_ ?_ ?_ ?_ ?_ ?_ ?_ ?_ ?_ ?_ ?_ ?_ ?_ ?_ ?_) <;> first | exact Or.inl (hm.bit (by decide)) | exact Or.inr rfl | skip) | with_reducible refine KeepsO.next ?_
    | split
    | (extract_lets +onlyGivenNames x; first | (refine Keeps.cut s0 x ?_ fun h => ?_; rotate_left; clear_value x) | skip)
    | (unfold x; fail_if_success done)
    | intro h

theorem execKeepPartFail_keeps {k s0 a0 s} (h : Keeps k s0 s)
    (hm : Within 0x104100#21 k := by first | assumption | exact Within.trans (by assumption) (by decide)) :
    KeepsO k s0 (execKeepPartFail a0 s) := by
  unfold execKeepPartFail
  repeat' first
    | with_reducible assumption | with_reducible refine partFail_keeps ?_ | with_reducible refine Keeps.ite ?_ ?_ | with_reducible refine Keeps.foldl _ _ ?_ _ ?_ | fail_if_no_progress ((with_reducible refine Keeps.mk' ?_ rfl rfl rfl ?_ ?_ ?_ ?_ ?_ ?_ ?_ ?_ ?_ ?_ ?_ ?_ ?_ ?_ ?_ ?_ ?_ ?_ ?_ ?_ ?_) <;> first | exact Or.inl (hm.bit (by decide)) | exact Or.inr rfl | skip) | with_reducible refine KeepsO.next ?_
    | split
    | (extract_lets +onlyGivenNames x; first | (refine Keeps.cut s0 x ?_ fun h => ?_; rotate_left; clear_value x) | skip)
    | (unfold x; fail_if_success done)
    | intro h

theorem execKeepResyncDone_keeps {k s0 a0 s} (h : Keeps k s0 s)
    (hm : Within 0x4000#21 k := by first | assumption | exact Within.trans (by assumption) (by decide)) :
    KeepsO k s0 (execKeepResyncDone a0 s) := by
  unfold execKeepResyncDone
  repeat' first
    | with_reducible assumption | with_reducible refine Keeps.ite ?_ ?_ | with_reducible refine Keeps.foldl _ _ ?_ _ ?_ | fail_if_no_progress ((with_reducible refine Keeps.mk' ?_ rfl rfl rfl ?_ ?_ ?_ ?_ ?_ ?_ ?_ ?_ ?_ ?_ ?_ ?_ ?_ ?_ ?_ ?_ ?_ ?_ ?_ ?_ ?_) <;> first | exact Or.inl (hm.bit (by decide)) | exact Or.inr rfl | skip) | with_reducible refine KeepsO.next ?_
    | split
    | (extract_lets +onlyGivenNames x; first | (refine Keeps.cut s0 x ?_ fun h => ?_; rotate_left; clear_value x) | skip)
    | (unfold x; fail_if_success done)
    | intro h

/-! Events. -/

theorem execEventRaise_keeps {k s0 a0 a1 a2 a3 a4 a5 s} (h : Keeps k s0 s)
    (hm : Within 0x100000#21 k := by first | assumption | exact Within.trans (by assumption) (by decide)) :
    KeepsO k s0 (execEventRaise a0 a1 a2 a3 a4 a5 s) := by
  unfold execEventRaise
  repeat' first
    | with_reducible assumption | with_reducible refine raise_keeps ?_ | with_reducible refine Keeps.ite ?_ ?_ | with_reducible refine Keeps.foldl _ _ ?_ _ ?_ | fail_if_no_progress ((with_reducible refine Keeps.mk' ?_ rfl rfl rfl ?_ ?_ ?_ ?_ ?_ ?_ ?_ ?_ ?_ ?_ ?_ ?_ ?_ ?_ ?_ ?_ ?_ ?_ ?_ ?_ ?_) <;> first | exact Or.inl (hm.bit (by decide)) | exact Or.inr rfl | skip) | with_reducible refine KeepsO.next ?_
    | split
    | (extract_lets +onlyGivenNames x; first | (refine Keeps.cut s0 x ?_ fun h => ?_; rotate_left; clear_value x) | skip)
    | (unfold x; fail_if_success done)
    | intro h

theorem execTokenRefill_keeps {k s0 a0 s} (h : Keeps k s0 s)
    (hm : Within 0x100000#21 k := by first | assumption | exact Within.trans (by assumption) (by decide)) :
    KeepsO k s0 (execTokenRefill a0 s) := by
  unfold execTokenRefill
  repeat' first
    | with_reducible assumption | with_reducible refine updBucket_keeps ?_ | with_reducible refine Keeps.ite ?_ ?_ | with_reducible refine Keeps.foldl _ _ ?_ _ ?_ | fail_if_no_progress ((with_reducible refine Keeps.mk' ?_ rfl rfl rfl ?_ ?_ ?_ ?_ ?_ ?_ ?_ ?_ ?_ ?_ ?_ ?_ ?_ ?_ ?_ ?_ ?_ ?_ ?_ ?_ ?_) <;> first | exact Or.inl (hm.bit (by decide)) | exact Or.inr rfl | skip) | with_reducible refine KeepsO.next ?_
    | split
    | (extract_lets +onlyGivenNames x; first | (refine Keeps.cut s0 x ?_ fun h => ?_; rotate_left; clear_value x) | skip)
    | (unfold x; fail_if_success done)
    | intro h

theorem thaw_keeps {k s0 s} (h : Keeps k s0 s)
    (hm : Within 0x108000#21 k := by first | assumption | exact Within.trans (by assumption) (by decide)) :
    Keeps k s0 (thaw s) := by
  unfold thaw
  repeat' first
    | with_reducible assumption | with_reducible refine Keeps.ite ?_ ?_ | with_reducible refine Keeps.foldl _ _ ?_ _ ?_ | fail_if_no_progress ((with_reducible refine Keeps.mk' ?_ rfl rfl rfl ?_ ?_ ?_ ?_ ?_ ?_ ?_ ?_ ?_ ?_ ?_ ?_ ?_ ?_ ?_ ?_ ?_ ?_ ?_ ?_ ?_) <;> first | exact Or.inl (hm.bit (by decide)) | exact Or.inr rfl | skip)
    | split
    | (extract_lets +onlyGivenNames x; first | (refine Keeps.cut s0 x ?_ fun h => ?_; rotate_left; clear_value x) | skip)
    | (unfold x; fail_if_success done)
    | intro h

theorem execFreezeTimeout_keeps {k s0 s} (h : Keeps k s0 s)
    (hm : Within 0x108000#21 k := by first | assumption | exact Within.trans (by assumption) (by decide)) :
    KeepsO k s0 (execFreezeTimeout s) := by
  unfold execFreezeTimeout
  repeat' first
    | with_reducible assumption | with_reducible refine writeRecord_keeps ?_ | with_reducible refine thaw_keeps ?_ | with_reducible refine Keeps.ite ?_ ?_ | with_reducible refine Keeps.foldl _ _ ?_ _ ?_ | fail_if_no_progress ((with_reducible refine Keeps.mk' ?_ rfl rfl rfl ?_ ?_ ?_ ?_ ?_ ?_ ?_ ?_ ?_ ?_ ?_ ?_ ?_ ?_ ?_ ?_ ?_ ?_ ?_ ?_ ?_) <;> first | exact Or.inl (hm.bit (by decide)) | exact Or.inr rfl | skip) | with_reducible refine KeepsO.next ?_
    | split
    | (extract_lets +onlyGivenNames x; first | (refine Keeps.cut s0 x ?_ fun h => ?_; rotate_left; clear_value x) | skip)
    | (unfold x; fail_if_success done)
    | intro h

theorem execAlertNExpire_keeps {k s0 s} (h : Keeps k s0 s)
    (hm : Within 0x100000#21 k := by first | assumption | exact Within.trans (by assumption) (by decide)) :
    KeepsO k s0 (execAlertNExpire s) := by
  unfold execAlertNExpire
  repeat' first
    | with_reducible assumption | with_reducible refine Keeps.ite ?_ ?_ | with_reducible refine Keeps.foldl _ _ ?_ _ ?_ | fail_if_no_progress ((with_reducible refine Keeps.mk' ?_ rfl rfl rfl ?_ ?_ ?_ ?_ ?_ ?_ ?_ ?_ ?_ ?_ ?_ ?_ ?_ ?_ ?_ ?_ ?_ ?_ ?_ ?_ ?_) <;> first | exact Or.inl (hm.bit (by decide)) | exact Or.inr rfl | skip) | with_reducible refine KeepsO.next ?_
    | split
    | (extract_lets +onlyGivenNames x; first | (refine Keeps.cut s0 x ?_ fun h => ?_; rotate_left; clear_value x) | skip)
    | (unfold x; fail_if_success done)
    | intro h

theorem execPacketCloseTimeout_keeps {k s0 a0 s} (h : Keeps k s0 s)
    (hm : Within 0x100000#21 k := by first | assumption | exact Within.trans (by assumption) (by decide)) :
    KeepsO k s0 (execPacketCloseTimeout a0 s) := by
  unfold execPacketCloseTimeout
  repeat' first
    | with_reducible assumption | with_reducible refine packetClose_keeps ?_ | with_reducible refine Keeps.ite ?_ ?_ | with_reducible refine Keeps.foldl _ _ ?_ _ ?_ | fail_if_no_progress ((with_reducible refine Keeps.mk' ?_ rfl rfl rfl ?_ ?_ ?_ ?_ ?_ ?_ ?_ ?_ ?_ ?_ ?_ ?_ ?_ ?_ ?_ ?_ ?_ ?_ ?_ ?_ ?_) <;> first | exact Or.inl (hm.bit (by decide)) | exact Or.inr rfl | skip) | with_reducible refine KeepsO.next ?_
    | split
    | (extract_lets +onlyGivenNames x; first | (refine Keeps.cut s0 x ?_ fun h => ?_; rotate_left; clear_value x) | skip)
    | (unfold x; fail_if_success done)
    | intro h

theorem execPacketOpen_keeps {k s0 a0 s} (h : Keeps k s0 s)
    (hm : Within 0x100000#21 k := by first | assumption | exact Within.trans (by assumption) (by decide)) :
    KeepsO k s0 (execPacketOpen a0 s) := by
  unfold execPacketOpen
  repeat' first
    | with_reducible assumption | with_reducible refine packetOpen_keeps ?_ | with_reducible refine Keeps.ite ?_ ?_ | with_reducible refine Keeps.foldl _ _ ?_ _ ?_ | fail_if_no_progress ((with_reducible refine Keeps.mk' ?_ rfl rfl rfl ?_ ?_ ?_ ?_ ?_ ?_ ?_ ?_ ?_ ?_ ?_ ?_ ?_ ?_ ?_ ?_ ?_ ?_ ?_ ?_ ?_) <;> first | exact Or.inl (hm.bit (by decide)) | exact Or.inr rfl | skip) | with_reducible refine KeepsO.next ?_
    | split
    | (extract_lets +onlyGivenNames x; first | (refine Keeps.cut s0 x ?_ fun h => ?_; rotate_left; clear_value x) | skip)
    | (unfold x; fail_if_success done)
    | intro h

theorem execCaptureFlush_keeps {k s0 a0 s} (h : Keeps k s0 s)
    (hm : Within 0x100000#21 k := by first | assumption | exact Within.trans (by assumption) (by decide)) :
    KeepsO k s0 (execCaptureFlush a0 s) := by
  unfold execCaptureFlush
  repeat' first
    | with_reducible assumption | with_reducible refine packetClose_keeps ?_ | with_reducible refine Keeps.ite ?_ ?_ | with_reducible refine Keeps.foldl _ _ ?_ _ ?_ | fail_if_no_progress ((with_reducible refine Keeps.mk' ?_ rfl rfl rfl ?_ ?_ ?_ ?_ ?_ ?_ ?_ ?_ ?_ ?_ ?_ ?_ ?_ ?_ ?_ ?_ ?_ ?_ ?_ ?_ ?_) <;> first | exact Or.inl (hm.bit (by decide)) | exact Or.inr rfl | skip) | with_reducible refine KeepsO.next ?_
    | split
    | (extract_lets +onlyGivenNames x; first | (refine Keeps.cut s0 x ?_ fun h => ?_; rotate_left; clear_value x) | skip)
    | (unfold x; fail_if_success done)
    | intro h

theorem snapshot_keeps {k s0 s a1} (h : Keeps k s0 s)
    (hm : Within 0x108000#21 k := by first | assumption | exact Within.trans (by assumption) (by decide)) :
    Keeps k s0 (snapshot s a1) := by
  unfold snapshot
  repeat' first
    | with_reducible assumption | with_reducible refine writeBytes_keeps ?_ | with_reducible refine Keeps.ite ?_ ?_ | with_reducible refine Keeps.foldl _ _ ?_ _ ?_ | fail_if_no_progress ((with_reducible refine Keeps.mk' ?_ rfl rfl rfl ?_ ?_ ?_ ?_ ?_ ?_ ?_ ?_ ?_ ?_ ?_ ?_ ?_ ?_ ?_ ?_ ?_ ?_ ?_ ?_ ?_) <;> first | exact Or.inl (hm.bit (by decide)) | exact Or.inr rfl | skip)
    | split
    | (extract_lets +onlyGivenNames x; first | (refine Keeps.cut s0 x ?_ fun h => ?_; rotate_left; clear_value x) | skip)
    | (unfold x; fail_if_success done)
    | intro h

theorem execCounterSnapshot_keeps {k s0 s} (h : Keeps k s0 s)
    (hm : Within 0x108000#21 k := by first | assumption | exact Within.trans (by assumption) (by decide)) :
    KeepsO k s0 (execCounterSnapshot s) := by
  unfold execCounterSnapshot
  repeat' first
    | with_reducible assumption | with_reducible refine snapshot_keeps ?_ | with_reducible refine Keeps.ite ?_ ?_ | with_reducible refine Keeps.foldl _ _ ?_ _ ?_ | fail_if_no_progress ((with_reducible refine Keeps.mk' ?_ rfl rfl rfl ?_ ?_ ?_ ?_ ?_ ?_ ?_ ?_ ?_ ?_ ?_ ?_ ?_ ?_ ?_ ?_ ?_ ?_ ?_ ?_ ?_) <;> first | exact Or.inl (hm.bit (by decide)) | exact Or.inr rfl | skip) | with_reducible refine KeepsO.next ?_
    | split
    | (extract_lets +onlyGivenNames x; first | (refine Keeps.cut s0 x ?_ fun h => ?_; rotate_left; clear_value x) | skip)
    | (unfold x; fail_if_success done)
    | intro h

theorem latchWindow_keeps {k s0 s a1 a2} (h : Keeps k s0 s)
    (hm : Within 0x8000#21 k := by first | assumption | exact Within.trans (by assumption) (by decide)) :
    Keeps k s0 (latchWindow s a1 a2) := by
  unfold latchWindow
  repeat' first
    | with_reducible assumption | with_reducible refine updMon_keeps ?_ | with_reducible refine Keeps.ite ?_ ?_ | with_reducible refine Keeps.foldl _ _ ?_ _ ?_ | fail_if_no_progress ((with_reducible refine Keeps.mk' ?_ rfl rfl rfl ?_ ?_ ?_ ?_ ?_ ?_ ?_ ?_ ?_ ?_ ?_ ?_ ?_ ?_ ?_ ?_ ?_ ?_ ?_ ?_ ?_) <;> first | exact Or.inl (hm.bit (by decide)) | exact Or.inr rfl | skip)
    | split
    | (extract_lets +onlyGivenNames x; first | (refine Keeps.cut s0 x ?_ fun h => ?_; rotate_left; clear_value x) | skip)
    | (unfold x; fail_if_success done)
    | intro h

theorem execBandwidthWindow_keeps {k s0 a0 s} (h : Keeps k s0 s)
    (hm : Within 0x8000#21 k := by first | assumption | exact Within.trans (by assumption) (by decide)) :
    KeepsO k s0 (execBandwidthWindow a0 s) := by
  unfold execBandwidthWindow
  repeat' first
    | with_reducible assumption | with_reducible refine latchWindow_keeps ?_ | with_reducible refine Keeps.ite ?_ ?_ | with_reducible refine Keeps.foldl _ _ ?_ _ ?_ | fail_if_no_progress ((with_reducible refine Keeps.mk' ?_ rfl rfl rfl ?_ ?_ ?_ ?_ ?_ ?_ ?_ ?_ ?_ ?_ ?_ ?_ ?_ ?_ ?_ ?_ ?_ ?_ ?_ ?_ ?_) <;> first | exact Or.inl (hm.bit (by decide)) | exact Or.inr rfl | skip) | with_reducible refine KeepsO.next ?_
    | split
    | (extract_lets +onlyGivenNames x; first | (refine Keeps.cut s0 x ?_ fun h => ?_; rotate_left; clear_value x) | skip)
    | (unfold x; fail_if_success done)
    | intro h

end Sys2Proof
end

