-- ==== Sys2Proof/Laws/KeepsCommands.lean ====
section
/-! SUPPORT. Every operation of the firmware's commands, erases and migrations keeps what `Keeps` says, under the mask of the parts it may change. -/
namespace Sys2Proof
set_option Elab.async false
set_option linter.unreachableTactic false
set_option linter.unusedTactic false
open Machine Safety

/-! Commit. -/

theorem saveConfig_keeps {k s0 s} (h : Keeps k s0 s)
    (hm : Within 0x100000#21 k := by first | assumption | exact Within.trans (by assumption) (by decide)) :
    Keeps k s0 (saveConfig s) := by
  unfold saveConfig
  repeat' first
    | with_reducible assumption | with_reducible refine keepPut_keeps ?_ | with_reducible refine Keeps.ite ?_ ?_ | with_reducible refine Keeps.foldl _ _ ?_ _ ?_ | fail_if_no_progress ((with_reducible refine Keeps.mk' ?_ rfl rfl rfl ?_ ?_ ?_ ?_ ?_ ?_ ?_ ?_ ?_ ?_ ?_ ?_ ?_ ?_ ?_ ?_ ?_ ?_ ?_ ?_ ?_) <;> first | exact Or.inl (hm.bit (by decide)) | exact Or.inr rfl | skip)
    | split
    | (extract_lets +onlyGivenNames x; first | (refine Keeps.cut s0 x ?_ fun h => ?_; rotate_left; clear_value x) | skip)
    | (unfold x; fail_if_success done)
    | intro h

theorem afterConfig_keeps {k s0 s} (h : Keeps k s0 s)
    (hm : Within 0xa0#21 k := by first | assumption | exact Within.trans (by assumption) (by decide)) :
    Keeps k s0 (afterConfig s) := by
  unfold afterConfig
  repeat' first
    | with_reducible assumption | with_reducible refine Keeps.ite ?_ ?_ | with_reducible refine Keeps.foldl _ _ ?_ _ ?_ | fail_if_no_progress ((with_reducible refine Keeps.mk' ?_ rfl rfl rfl ?_ ?_ ?_ ?_ ?_ ?_ ?_ ?_ ?_ ?_ ?_ ?_ ?_ ?_ ?_ ?_ ?_ ?_ ?_ ?_ ?_) <;> first | exact Or.inl (hm.bit (by decide)) | exact Or.inr rfl | skip)
    | split
    | (extract_lets +onlyGivenNames x; first | (refine Keeps.cut s0 x ?_ fun h => ?_; rotate_left; clear_value x) | skip)
    | (unfold x; fail_if_success done)
    | intro h

theorem configLive_keeps {k s0 s} (h : Keeps k s0 s)
    (hm : Within 0x1200a0#21 k := by first | assumption | exact Within.trans (by assumption) (by decide)) :
    Keeps k s0 (configLive s) := by
  unfold configLive
  repeat' first
    | with_reducible assumption | with_reducible refine saveConfig_keeps ?_ | with_reducible refine afterConfig_keeps ?_ | with_reducible refine setLive_keeps ?_ | with_reducible refine Keeps.ite ?_ ?_ | with_reducible refine Keeps.foldl _ _ ?_ _ ?_ | fail_if_no_progress ((with_reducible refine Keeps.mk' ?_ rfl rfl rfl ?_ ?_ ?_ ?_ ?_ ?_ ?_ ?_ ?_ ?_ ?_ ?_ ?_ ?_ ?_ ?_ ?_ ?_ ?_ ?_ ?_) <;> first | exact Or.inl (hm.bit (by decide)) | exact Or.inr rfl | skip)
    | split
    | (extract_lets +onlyGivenNames x; first | (refine Keeps.cut s0 x ?_ fun h => ?_; rotate_left; clear_value x) | skip)
    | (unfold x; fail_if_success done)
    | intro h

theorem saveRegions_keeps {k s0 s} (h : Keeps k s0 s)
    (hm : Within 0x100000#21 k := by first | assumption | exact Within.trans (by assumption) (by decide)) :
    Keeps k s0 (saveRegions s) := by
  unfold saveRegions
  repeat' first
    | with_reducible assumption | with_reducible refine keepPut_keeps ?_ | with_reducible refine Keeps.ite ?_ ?_ | with_reducible refine Keeps.foldl _ _ ?_ _ ?_ | fail_if_no_progress ((with_reducible refine Keeps.mk' ?_ rfl rfl rfl ?_ ?_ ?_ ?_ ?_ ?_ ?_ ?_ ?_ ?_ ?_ ?_ ?_ ?_ ?_ ?_ ?_ ?_ ?_ ?_ ?_) <;> first | exact Or.inl (hm.bit (by decide)) | exact Or.inr rfl | skip)
    | split
    | (extract_lets +onlyGivenNames x; first | (refine Keeps.cut s0 x ?_ fun h => ?_; rotate_left; clear_value x) | skip)
    | (unfold x; fail_if_success done)
    | intro h

theorem setFloor_keeps {k s0 s a1} (h : Keeps k s0 s)
    (hm : Within 0x60020#21 k := by first | assumption | exact Within.trans (by assumption) (by decide)) :
    Keeps k s0 (setFloor s a1) := by
  unfold setFloor
  repeat' first
    | with_reducible assumption | with_reducible refine setShadow_keeps ?_ | with_reducible refine setLive_keeps ?_ | with_reducible refine updRank_keeps ?_ | with_reducible refine Keeps.ite ?_ ?_ | with_reducible refine Keeps.foldl _ _ ?_ _ ?_ | fail_if_no_progress ((with_reducible refine Keeps.mk' ?_ rfl rfl rfl ?_ ?_ ?_ ?_ ?_ ?_ ?_ ?_ ?_ ?_ ?_ ?_ ?_ ?_ ?_ ?_ ?_ ?_ ?_ ?_ ?_) <;> first | exact Or.inl (hm.bit (by decide)) | exact Or.inr rfl | skip)
    | split
    | (extract_lets +onlyGivenNames x; first | (refine Keeps.cut s0 x ?_ fun h => ?_; rotate_left; clear_value x) | skip)
    | (unfold x; fail_if_success done)
    | intro h

theorem sendFrame_keeps {k s0 s a1} (h : Keeps k s0 s)
    (hm : Within 0x10000#21 k := by first | assumption | exact Within.trans (by assumption) (by decide)) :
    Keeps k s0 (sendFrame s a1) := by
  unfold sendFrame
  repeat' first
    | with_reducible assumption | with_reducible refine Keeps.ite ?_ ?_ | with_reducible refine Keeps.foldl _ _ ?_ _ ?_ | fail_if_no_progress ((with_reducible refine Keeps.mk' ?_ rfl rfl rfl ?_ ?_ ?_ ?_ ?_ ?_ ?_ ?_ ?_ ?_ ?_ ?_ ?_ ?_ ?_ ?_ ?_ ?_ ?_ ?_ ?_) <;> first | exact Or.inl (hm.bit (by decide)) | exact Or.inr rfl | skip)
    | split
    | (extract_lets +onlyGivenNames x; first | (refine Keeps.cut s0 x ?_ fun h => ?_; rotate_left; clear_value x) | skip)
    | (unfold x; fail_if_success done)
    | intro h

theorem goIfAcked_keeps {k s0 s} (h : Keeps k s0 s)
    (hm : Within 0x11002#21 k := by first | assumption | exact Within.trans (by assumption) (by decide)) :
    Keeps k s0 (goIfAcked s) := by
  unfold goIfAcked
  repeat' first
    | with_reducible assumption | with_reducible refine sendFrame_keeps ?_ | with_reducible refine finishId_keeps ?_ | with_reducible refine Keeps.ite ?_ ?_ | with_reducible refine Keeps.foldl _ _ ?_ _ ?_ | fail_if_no_progress ((with_reducible refine Keeps.mk' ?_ rfl rfl rfl ?_ ?_ ?_ ?_ ?_ ?_ ?_ ?_ ?_ ?_ ?_ ?_ ?_ ?_ ?_ ?_ ?_ ?_ ?_ ?_ ?_) <;> first | exact Or.inl (hm.bit (by decide)) | exact Or.inr rfl | skip)
    | split
    | (extract_lets +onlyGivenNames x; first | (refine Keeps.cut s0 x ?_ fun h => ?_; rotate_left; clear_value x) | skip)
    | (unfold x; fail_if_success done)
    | intro h

theorem openAgreement_keeps {k s0 s a1 a2 a3} (h : Keeps k s0 s)
    (hm : Within 0x11002#21 k := by first | assumption | exact Within.trans (by assumption) (by decide)) :
    Keeps k s0 (openAgreement s a1 a2 a3) := by
  unfold openAgreement
  repeat' first
    | with_reducible assumption | with_reducible refine goIfAcked_keeps ?_ | with_reducible refine sendFrame_keeps ?_ | with_reducible refine Keeps.ite ?_ ?_ | with_reducible refine Keeps.foldl _ _ ?_ _ ?_ | fail_if_no_progress ((with_reducible refine Keeps.mk' ?_ rfl rfl rfl ?_ ?_ ?_ ?_ ?_ ?_ ?_ ?_ ?_ ?_ ?_ ?_ ?_ ?_ ?_ ?_ ?_ ?_ ?_ ?_ ?_) <;> first | exact Or.inl (hm.bit (by decide)) | exact Or.inr rfl | skip)
    | split
    | (extract_lets +onlyGivenNames x; first | (refine Keeps.cut s0 x ?_ fun h => ?_; rotate_left; clear_value x) | skip)
    | (unfold x; fail_if_success done)
    | intro h

theorem takeCommit_keeps {k s0 s a1 a2} (h : Keeps k s0 s)
    (hm : Within 0x11002#21 k := by first | assumption | exact Within.trans (by assumption) (by decide)) :
    Keeps k s0 (takeCommit s a1 a2) := by
  unfold takeCommit
  repeat' first
    | with_reducible assumption | with_reducible refine openAgreement_keeps ?_ | with_reducible refine Keeps.ite ?_ ?_ | with_reducible refine Keeps.foldl _ _ ?_ _ ?_ | fail_if_no_progress ((with_reducible refine Keeps.mk' ?_ rfl rfl rfl ?_ ?_ ?_ ?_ ?_ ?_ ?_ ?_ ?_ ?_ ?_ ?_ ?_ ?_ ?_ ?_ ?_ ?_ ?_ ?_ ?_) <;> first | exact Or.inl (hm.bit (by decide)) | exact Or.inr rfl | skip)
    | split
    | (extract_lets +onlyGivenNames x; first | (refine Keeps.cut s0 x ?_ fun h => ?_; rotate_left; clear_value x) | skip)
    | (unfold x; fail_if_success done)
    | intro h

theorem commitAborted_keeps {k s0 s a1} (h : Keeps k s0 s)
    (hm : Within 0x11000#21 k := by first | assumption | exact Within.trans (by assumption) (by decide)) :
    Keeps k s0 (commitAborted s a1) := by
  unfold commitAborted
  repeat' first
    | with_reducible assumption | with_reducible refine finishId_keeps ?_ | with_reducible refine Keeps.ite ?_ ?_ | with_reducible refine Keeps.foldl _ _ ?_ _ ?_ | fail_if_no_progress ((with_reducible refine Keeps.mk' ?_ rfl rfl rfl ?_ ?_ ?_ ?_ ?_ ?_ ?_ ?_ ?_ ?_ ?_ ?_ ?_ ?_ ?_ ?_ ?_ ?_ ?_ ?_ ?_) <;> first | exact Or.inl (hm.bit (by decide)) | exact Or.inr rfl | skip)
    | split
    | (extract_lets +onlyGivenNames x; first | (refine Keeps.cut s0 x ?_ fun h => ?_; rotate_left; clear_value x) | skip)
    | (unfold x; fail_if_success done)
    | intro h

theorem commitDone_keeps {k s0 s a1} (h : Keeps k s0 s)
    (hm : Within 0x11000#21 k := by first | assumption | exact Within.trans (by assumption) (by decide)) :
    Keeps k s0 (commitDone s a1) := by
  unfold commitDone
  repeat' first
    | with_reducible assumption | with_reducible refine Keeps.ite ?_ ?_ | with_reducible refine Keeps.foldl _ _ ?_ _ ?_ | fail_if_no_progress ((with_reducible refine Keeps.mk' ?_ rfl rfl rfl ?_ ?_ ?_ ?_ ?_ ?_ ?_ ?_ ?_ ?_ ?_ ?_ ?_ ?_ ?_ ?_ ?_ ?_ ?_ ?_ ?_) <;> first | exact Or.inl (hm.bit (by decide)) | exact Or.inr rfl | skip)
    | split
    | (extract_lets +onlyGivenNames x; first | (refine Keeps.cut s0 x ?_ fun h => ?_; rotate_left; clear_value x) | skip)
    | (unfold x; fail_if_success done)
    | intro h

theorem regionLive_keeps {k s0 s a1 a2} (h : Keeps k s0 s)
    (hm : Within 0x111004#21 k := by first | assumption | exact Within.trans (by assumption) (by decide)) :
    Keeps k s0 (regionLive s a1 a2) := by
  unfold regionLive
  repeat' first
    | with_reducible assumption | with_reducible refine commitDone_keeps ?_ | with_reducible refine refreshReady_keeps ?_ | with_reducible refine updMig_keeps ?_ | with_reducible refine finishId_keeps ?_ | with_reducible refine saveRegions_keeps ?_ | with_reducible refine Keeps.ite ?_ ?_ | with_reducible refine Keeps.foldl _ _ ?_ _ ?_ | fail_if_no_progress ((with_reducible refine Keeps.mk' ?_ rfl rfl rfl ?_ ?_ ?_ ?_ ?_ ?_ ?_ ?_ ?_ ?_ ?_ ?_ ?_ ?_ ?_ ?_ ?_ ?_ ?_ ?_ ?_) <;> first | exact Or.inl (hm.bit (by decide)) | exact Or.inr rfl | skip)
    | split
    | (extract_lets +onlyGivenNames x; first | (refine Keeps.cut s0 x ?_ fun h => ?_; rotate_left; clear_value x) | skip)
    | (unfold x; fail_if_success done)
    | intro h

theorem budgetLive_keeps {k s0 s a1 a2 a3} (h : Keeps k s0 s)
    (hm : Within 0x171024#21 k := by first | assumption | exact Within.trans (by assumption) (by decide)) :
    Keeps k s0 (budgetLive s a1 a2 a3) := by
  unfold budgetLive
  repeat' first
    | with_reducible assumption | with_reducible refine saveConfig_keeps ?_ | with_reducible refine setFloor_keeps ?_ | with_reducible refine commitDone_keeps ?_ | with_reducible refine updMig_keeps ?_ | with_reducible refine finishId_keeps ?_ | with_reducible refine Keeps.ite ?_ ?_ | with_reducible refine Keeps.foldl _ _ ?_ _ ?_ | fail_if_no_progress ((with_reducible refine Keeps.mk' ?_ rfl rfl rfl ?_ ?_ ?_ ?_ ?_ ?_ ?_ ?_ ?_ ?_ ?_ ?_ ?_ ?_ ?_ ?_ ?_ ?_ ?_ ?_ ?_) <;> first | exact Or.inl (hm.bit (by decide)) | exact Or.inr rfl | skip)
    | split
    | (extract_lets +onlyGivenNames x; first | (refine Keeps.cut s0 x ?_ fun h => ?_; rotate_left; clear_value x) | skip)
    | (unfold x; fail_if_success done)
    | intro h

theorem commitAt_keeps {k s0 s a1} (h : Keeps k s0 s)
    (hm : Within 0x1710a4#21 k := by first | assumption | exact Within.trans (by assumption) (by decide)) :
    Keeps k s0 (commitAt s a1) := by
  unfold commitAt
  repeat' first
    | with_reducible assumption | with_reducible refine commitAborted_keeps ?_ | with_reducible refine configLive_keeps ?_ | with_reducible refine commitDone_keeps ?_ | with_reducible refine finishId_keeps ?_ | with_reducible refine regionLive_keeps ?_ | with_reducible refine budgetLive_keeps ?_ | with_reducible refine saveConfig_keeps ?_ | with_reducible refine setShadow_keeps ?_ | with_reducible refine setLive_keeps ?_ | with_reducible refine Keeps.ite ?_ ?_ | with_reducible refine Keeps.foldl _ _ ?_ _ ?_ | fail_if_no_progress ((with_reducible refine Keeps.mk' ?_ rfl rfl rfl ?_ ?_ ?_ ?_ ?_ ?_ ?_ ?_ ?_ ?_ ?_ ?_ ?_ ?_ ?_ ?_ ?_ ?_ ?_ ?_ ?_) <;> first | exact Or.inl (hm.bit (by decide)) | exact Or.inr rfl | skip)
    | split
    | (extract_lets +onlyGivenNames x; first | (refine Keeps.cut s0 x ?_ fun h => ?_; rotate_left; clear_value x) | skip)
    | (unfold x; fail_if_success done)
    | intro h

theorem execCommitLive_keeps {k s0 s} (h : Keeps k s0 s)
    (hm : Within 0x1710a4#21 k := by first | assumption | exact Within.trans (by assumption) (by decide)) :
    KeepsO k s0 (execCommitLive s) := by
  unfold execCommitLive
  repeat' first
    | with_reducible assumption | with_reducible refine commitAt_keeps ?_ | with_reducible refine Keeps.ite ?_ ?_ | with_reducible refine Keeps.foldl _ _ ?_ _ ?_ | fail_if_no_progress ((with_reducible refine Keeps.mk' ?_ rfl rfl rfl ?_ ?_ ?_ ?_ ?_ ?_ ?_ ?_ ?_ ?_ ?_ ?_ ?_ ?_ ?_ ?_ ?_ ?_ ?_ ?_ ?_) <;> first | exact Or.inl (hm.bit (by decide)) | exact Or.inr rfl | skip) | with_reducible refine KeepsO.next ?_
    | split
    | (extract_lets +onlyGivenNames x; first | (refine Keeps.cut s0 x ?_ fun h => ?_; rotate_left; clear_value x) | skip)
    | (unfold x; fail_if_success done)
    | intro h

/-! Take. -/

theorem notePassword_keeps {k s0 s a1} (h : Keeps k s0 s)
    (hm : Within 0x104000#21 k := by first | assumption | exact Within.trans (by assumption) (by decide)) :
    Keeps k s0 (notePassword s a1) := by
  unfold notePassword
  repeat' first
    | with_reducible assumption | with_reducible refine raise_keeps ?_ | with_reducible refine Keeps.ite ?_ ?_ | with_reducible refine Keeps.foldl _ _ ?_ _ ?_ | fail_if_no_progress ((with_reducible refine Keeps.mk' ?_ rfl rfl rfl ?_ ?_ ?_ ?_ ?_ ?_ ?_ ?_ ?_ ?_ ?_ ?_ ?_ ?_ ?_ ?_ ?_ ?_ ?_ ?_ ?_) <;> first | exact Or.inl (hm.bit (by decide)) | exact Or.inr rfl | skip)
    | split
    | (extract_lets +onlyGivenNames x; first | (refine Keeps.cut s0 x ?_ fun h => ?_; rotate_left; clear_value x) | skip)
    | (unfold x; fail_if_success done)
    | intro h

theorem takeCommand_keeps {k s0 s a1 a2} (h : Keeps k s0 s)
    (hm : Within 0x105000#21 k := by first | assumption | exact Within.trans (by assumption) (by decide)) :
    Keeps k s0 (takeCommand s a1 a2) := by
  unfold takeCommand
  repeat' first
    | with_reducible assumption | with_reducible refine finishCmd_keeps ?_ | with_reducible refine notePassword_keeps ?_ | with_reducible refine updCmd_keeps ?_ | with_reducible refine Keeps.ite ?_ ?_ | with_reducible refine Keeps.foldl _ _ ?_ _ ?_ | fail_if_no_progress ((with_reducible refine Keeps.mk' ?_ rfl rfl rfl ?_ ?_ ?_ ?_ ?_ ?_ ?_ ?_ ?_ ?_ ?_ ?_ ?_ ?_ ?_ ?_ ?_ ?_ ?_ ?_ ?_) <;> first | exact Or.inl (hm.bit (by decide)) | exact Or.inr rfl | skip)
    | split
    | (extract_lets +onlyGivenNames x; first | (refine Keeps.cut s0 x ?_ fun h => ?_; rotate_left; clear_value x) | skip)
    | (unfold x; fail_if_success done)
    | intro h

theorem execMouthpieceTake_keeps {k s0 a0 a1 s} (h : Keeps k s0 s)
    (hm : Within 0x18d002#21 k := by first | assumption | exact Within.trans (by assumption) (by decide)) :
    KeepsO k s0 (execMouthpieceTake a0 a1 s) := by
  unfold execMouthpieceTake
  repeat' first
    | with_reducible assumption | with_reducible refine draw_keeps ?_ | with_reducible refine noteActivity_keeps ?_ | with_reducible refine updPipe_keeps ?_ | with_reducible refine count_keeps ?_ | with_reducible refine takeCommand_keeps ?_ | with_reducible refine Keeps.ite ?_ ?_ | with_reducible refine Keeps.foldl _ _ ?_ _ ?_ | fail_if_no_progress ((with_reducible refine Keeps.mk' ?_ rfl rfl rfl ?_ ?_ ?_ ?_ ?_ ?_ ?_ ?_ ?_ ?_ ?_ ?_ ?_ ?_ ?_ ?_ ?_ ?_ ?_ ?_ ?_) <;> first | exact Or.inl (hm.bit (by decide)) | exact Or.inr rfl | skip) | with_reducible refine KeepsO.next ?_
    | split
    | (extract_lets +onlyGivenNames x; first | (refine Keeps.cut s0 x ?_ fun h => ?_; rotate_left; clear_value x) | skip)
    | (unfold x; fail_if_success done)
    | intro h
    | with_reducible refine KeepsR.elim ?_ (by assumption) | with_reducible refine KeepsL.elim ?_ (by assumption) | with_reducible refine KeepsOS.elim ?_ (by assumption) | with_reducible refine KeepsOR.elim ?_ (by assumption) | with_reducible refine KeepsOR3.elim ?_ (by assumption) | with_reducible refine KeepsL.proj ?_ | with_reducible refine KeepsR.proj ?_

theorem runCmd_keeps {k s0 s a1 a2 a3} (h : Keeps k s0 s) (ha : ∀ t c, Keeps k s0 t → Keeps k s0 (a3 t c))
    (hm : Within 0x1000#21 k := by first | assumption | exact Within.trans (by assumption) (by decide)) :
    Keeps k s0 (runCmd s a1 a2 a3) := by
  unfold runCmd
  split
  · exact h
  · refine .ite h (.ite (ha _ _ h) ?_)
    split
    · exact finishCmd_keeps h
    · exact ha _ _ h

theorem holdCmd_keeps {k s0 s a1} (h : Keeps k s0 s)
    (hm : Within 0x1000#21 k := by first | assumption | exact Within.trans (by assumption) (by decide)) :
    Keeps k s0 (holdCmd s a1) := by
  unfold holdCmd
  repeat' first
    | with_reducible assumption | with_reducible refine updCmd_keeps ?_ | with_reducible refine Keeps.ite ?_ ?_ | with_reducible refine Keeps.foldl _ _ ?_ _ ?_ | fail_if_no_progress ((with_reducible refine Keeps.mk' ?_ rfl rfl rfl ?_ ?_ ?_ ?_ ?_ ?_ ?_ ?_ ?_ ?_ ?_ ?_ ?_ ?_ ?_ ?_ ?_ ?_ ?_ ?_ ?_) <;> first | exact Or.inl (hm.bit (by decide)) | exact Or.inr rfl | skip)
    | split
    | (extract_lets +onlyGivenNames x; first | (refine Keeps.cut s0 x ?_ fun h => ?_; rotate_left; clear_value x) | skip)
    | (unfold x; fail_if_success done)
    | intro h

theorem succeed_keeps {k s0 s a1 a2 a3} (h : Keeps k s0 s)
    (hm : Within 0x1000#21 k := by first | assumption | exact Within.trans (by assumption) (by decide)) :
    Keeps k s0 (succeed s a1 a2 a3) := by
  unfold succeed
  repeat' first
    | with_reducible assumption | with_reducible refine finishCmd_keeps ?_ | with_reducible refine Keeps.ite ?_ ?_ | with_reducible refine Keeps.foldl _ _ ?_ _ ?_ | fail_if_no_progress ((with_reducible refine Keeps.mk' ?_ rfl rfl rfl ?_ ?_ ?_ ?_ ?_ ?_ ?_ ?_ ?_ ?_ ?_ ?_ ?_ ?_ ?_ ?_ ?_ ?_ ?_ ?_ ?_) <;> first | exact Or.inl (hm.bit (by decide)) | exact Or.inr rfl | skip)
    | split
    | (extract_lets +onlyGivenNames x; first | (refine Keeps.cut s0 x ?_ fun h => ?_; rotate_left; clear_value x) | skip)
    | (unfold x; fail_if_success done)
    | intro h

theorem outputData_keeps {k s0 s a1 a2} (h : Keeps k s0 s)
    (hm : Within 0x100000#21 k := by first | assumption | exact Within.trans (by assumption) (by decide)) :
    Keeps k s0 (outputData s a1 a2) := by
  unfold outputData
  repeat' first
    | with_reducible assumption | with_reducible refine writeBytes_keeps ?_ | with_reducible refine Keeps.ite ?_ ?_ | with_reducible refine Keeps.foldl _ _ ?_ _ ?_ | fail_if_no_progress ((with_reducible refine Keeps.mk' ?_ rfl rfl rfl ?_ ?_ ?_ ?_ ?_ ?_ ?_ ?_ ?_ ?_ ?_ ?_ ?_ ?_ ?_ ?_ ?_ ?_ ?_ ?_ ?_) <;> first | exact Or.inl (hm.bit (by decide)) | exact Or.inr rfl | skip)
    | split
    | (extract_lets +onlyGivenNames x; first | (refine Keeps.cut s0 x ?_ fun h => ?_; rotate_left; clear_value x) | skip)
    | (unfold x; fail_if_success done)
    | intro h

theorem execUnknownOpcode_keeps {k s0 a0 s} (h : Keeps k s0 s)
    (hm : Within 0x1000#21 k := by first | assumption | exact Within.trans (by assumption) (by decide)) :
    KeepsO k s0 (execUnknownOpcode a0 s) := by
  unfold execUnknownOpcode
  repeat' first
    | with_reducible assumption | with_reducible refine finishCmd_keeps ?_ | with_reducible refine Keeps.ite ?_ ?_ | with_reducible refine Keeps.foldl _ _ ?_ _ ?_ | fail_if_no_progress ((with_reducible refine Keeps.mk' ?_ rfl rfl rfl ?_ ?_ ?_ ?_ ?_ ?_ ?_ ?_ ?_ ?_ ?_ ?_ ?_ ?_ ?_ ?_ ?_ ?_ ?_ ?_ ?_) <;> first | exact Or.inl (hm.bit (by decide)) | exact Or.inr rfl | skip) | with_reducible refine KeepsO.next ?_
    | split
    | (extract_lets +onlyGivenNames x; first | (refine Keeps.cut s0 x ?_ fun h => ?_; rotate_left; clear_value x) | skip)
    | (unfold x; fail_if_success done)
    | intro h

theorem execBackgroundCommandStart_keeps {k s0 a0 s} (h : Keeps k s0 s)
    (hm : Within 0x1000#21 k := by first | assumption | exact Within.trans (by assumption) (by decide)) :
    KeepsO k s0 (execBackgroundCommandStart a0 s) := by
  unfold execBackgroundCommandStart
  repeat' first
    | with_reducible assumption | with_reducible refine finishCmd_keeps ?_ | with_reducible refine updCmd_keeps ?_ | with_reducible refine Keeps.ite ?_ ?_ | with_reducible refine Keeps.foldl _ _ ?_ _ ?_ | fail_if_no_progress ((with_reducible refine Keeps.mk' ?_ rfl rfl rfl ?_ ?_ ?_ ?_ ?_ ?_ ?_ ?_ ?_ ?_ ?_ ?_ ?_ ?_ ?_ ?_ ?_ ?_ ?_ ?_ ?_) <;> first | exact Or.inl (hm.bit (by decide)) | exact Or.inr rfl | skip) | with_reducible refine KeepsO.next ?_
    | split
    | (extract_lets +onlyGivenNames x; first | (refine Keeps.cut s0 x ?_ fun h => ?_; rotate_left; clear_value x) | skip)
    | (unfold x; fail_if_success done)
    | intro h

/-! Ranges. -/

theorem dropLines_keeps {k s0 s a1} (h : Keeps k s0 s)
    (hm : Within 0x8#21 k := by first | assumption | exact Within.trans (by assumption) (by decide)) :
    Keeps k s0 (dropLines s a1) := by
  unfold dropLines
  repeat' first
    | with_reducible assumption | with_reducible refine setSagLine_keeps ?_ | with_reducible refine Keeps.ite ?_ ?_ | with_reducible refine Keeps.foldl _ _ ?_ _ ?_ | fail_if_no_progress ((with_reducible refine Keeps.mk' ?_ rfl rfl rfl ?_ ?_ ?_ ?_ ?_ ?_ ?_ ?_ ?_ ?_ ?_ ?_ ?_ ?_ ?_ ?_ ?_ ?_ ?_ ?_ ?_) <;> first | exact Or.inl (hm.bit (by decide)) | exact Or.inr rfl | skip)
    | split
    | (extract_lets +onlyGivenNames x; first | (refine Keeps.cut s0 x ?_ fun h => ?_; rotate_left; clear_value x) | skip)
    | (unfold x; fail_if_success done)
    | intro h

theorem discardPage_keeps {k s0 s a1} (h : Keeps k s0 s)
    (hm : Within 0xac#21 k := by first | assumption | exact Within.trans (by assumption) (by decide)) :
    KeepsOS k s0 (discardPage s a1) := by
  unfold discardPage
  repeat' first
    | with_reducible assumption | with_reducible refine fetchSeg_keeps ?_ | with_reducible refine dropLines_keeps ?_ | with_reducible refine poisonLeavePage_keeps ?_ | with_reducible refine setEntry_keeps ?_ | with_reducible refine Keeps.ite ?_ ?_ | with_reducible refine Keeps.foldl _ _ ?_ _ ?_ | fail_if_no_progress ((with_reducible refine Keeps.mk' ?_ rfl rfl rfl ?_ ?_ ?_ ?_ ?_ ?_ ?_ ?_ ?_ ?_ ?_ ?_ ?_ ?_ ?_ ?_ ?_ ?_ ?_ ?_ ?_) <;> first | exact Or.inl (hm.bit (by decide)) | exact Or.inr rfl | skip) | with_reducible exact KeepsOS.none _ _ | with_reducible refine KeepsOS.some ?_
    | split
    | (extract_lets +onlyGivenNames x; first | (refine Keeps.cut s0 x ?_ fun h => ?_; rotate_left; clear_value x) | skip)
    | (unfold x; fail_if_success done)
    | intro h

theorem zeroPage_keeps {k s0 s a1} (h : Keeps k s0 s)
    (hm : Within 0x2ac#21 k := by first | assumption | exact Within.trans (by assumption) (by decide)) :
    KeepsOS k s0 (zeroPage s a1) := by
  unfold zeroPage
  repeat' first
    | with_reducible assumption | with_reducible refine fetchSeg_keeps ?_ | with_reducible refine unmapPage_keeps ?_ | with_reducible refine poisonLeavePage_keeps ?_ | with_reducible refine dropLines_keeps ?_ | with_reducible refine Keeps.ite ?_ ?_ | with_reducible refine Keeps.foldl _ _ ?_ _ ?_ | fail_if_no_progress ((with_reducible refine Keeps.mk' ?_ rfl rfl rfl ?_ ?_ ?_ ?_ ?_ ?_ ?_ ?_ ?_ ?_ ?_ ?_ ?_ ?_ ?_ ?_ ?_ ?_ ?_ ?_ ?_) <;> first | exact Or.inl (hm.bit (by decide)) | exact Or.inr rfl | skip) | with_reducible exact KeepsOS.none _ _ | with_reducible refine KeepsOS.some ?_
    | split
    | (extract_lets +onlyGivenNames x; first | (refine Keeps.cut s0 x ?_ fun h => ?_; rotate_left; clear_value x) | skip)
    | (unfold x; fail_if_success done)
    | intro h

theorem securePage_keeps {k s0 s a1 a2} (h : Keeps k s0 s)
    (hm : Within 0x26#21 k := by first | assumption | exact Within.trans (by assumption) (by decide)) :
    KeepsOS k s0 (securePage s a1 a2) := by
  unfold securePage
  repeat' first
    | with_reducible assumption | with_reducible refine fetchSeg_keeps ?_ | with_reducible refine setEntry_keeps ?_ | with_reducible refine cancelSeal_keeps ?_ | with_reducible refine Keeps.ite ?_ ?_ | with_reducible refine Keeps.foldl _ _ ?_ _ ?_ | fail_if_no_progress ((with_reducible refine Keeps.mk' ?_ rfl rfl rfl ?_ ?_ ?_ ?_ ?_ ?_ ?_ ?_ ?_ ?_ ?_ ?_ ?_ ?_ ?_ ?_ ?_ ?_ ?_ ?_ ?_) <;> first | exact Or.inl (hm.bit (by decide)) | exact Or.inr rfl | skip) | with_reducible exact KeepsOS.none _ _ | with_reducible refine KeepsOS.some ?_
    | split
    | (extract_lets +onlyGivenNames x; first | (refine Keeps.cut s0 x ?_ fun h => ?_; rotate_left; clear_value x) | skip)
    | (unfold x; fail_if_success done)
    | intro h

theorem hostLine_keeps {k s0 s a1 a2} (h : Keeps k s0 s)
    (hm : Within 0x80000#21 k := by first | assumption | exact Within.trans (by assumption) (by decide)) :
    KeepsR k s0 (hostLine s a1 a2) := by
  unfold hostLine
  repeat' first
    | with_reducible assumption | with_reducible refine draw_keeps ?_ | with_reducible refine Keeps.ite ?_ ?_ | with_reducible refine Keeps.foldl _ _ ?_ _ ?_ | fail_if_no_progress ((with_reducible refine Keeps.mk' ?_ rfl rfl rfl ?_ ?_ ?_ ?_ ?_ ?_ ?_ ?_ ?_ ?_ ?_ ?_ ?_ ?_ ?_ ?_ ?_ ?_ ?_ ?_ ?_) <;> first | exact Or.inl (hm.bit (by decide)) | exact Or.inr rfl | skip) | with_reducible refine KeepsR.mk ?_
    | split
    | (extract_lets +onlyGivenNames x; first | (refine Keeps.cut s0 x ?_ fun h => ?_; rotate_left; clear_value x) | skip)
    | (unfold x; fail_if_success done)
    | intro h
    | with_reducible refine KeepsR.elim ?_ (by assumption) | with_reducible refine KeepsL.elim ?_ (by assumption) | with_reducible refine KeepsOS.elim ?_ (by assumption) | with_reducible refine KeepsOR.elim ?_ (by assumption) | with_reducible refine KeepsOR3.elim ?_ (by assumption) | with_reducible refine KeepsL.proj ?_ | with_reducible refine KeepsR.proj ?_

theorem copyPages_keeps {k s0 s a1 a2} (h : Keeps k s0 s)
    (hm : Within 0x8049e#21 k := by first | assumption | exact Within.trans (by assumption) (by decide)) :
    KeepsOS k s0 (copyPages s a1 a2) := by
  unfold copyPages
  repeat' first
    | with_reducible assumption | with_reducible refine fetchSeg_keeps ?_ | with_reducible refine cancelSeal_keeps ?_ | with_reducible refine hostLine_keeps ?_ | with_reducible refine saggarWrite_keeps ?_ | with_reducible refine Keeps.ite ?_ ?_ | with_reducible refine Keeps.foldl _ _ ?_ _ ?_ | fail_if_no_progress ((with_reducible refine Keeps.mk' ?_ rfl rfl rfl ?_ ?_ ?_ ?_ ?_ ?_ ?_ ?_ ?_ ?_ ?_ ?_ ?_ ?_ ?_ ?_ ?_ ?_ ?_ ?_ ?_) <;> first | exact Or.inl (hm.bit (by decide)) | exact Or.inr rfl | skip) | with_reducible exact KeepsOS.none _ _ | with_reducible refine KeepsOS.some ?_
    | split
    | (extract_lets +onlyGivenNames x; first | (refine Keeps.cut s0 x ?_ fun h => ?_; rotate_left; clear_value x) | skip)
    | (unfold x; fail_if_success done)
    | intro h
    | with_reducible refine KeepsR.elim ?_ (by assumption) | with_reducible refine KeepsL.elim ?_ (by assumption) | with_reducible refine KeepsOS.elim ?_ (by assumption) | with_reducible refine KeepsOR.elim ?_ (by assumption) | with_reducible refine KeepsOR3.elim ?_ (by assumption) | with_reducible refine KeepsL.proj ?_ | with_reducible refine KeepsR.proj ?_

theorem hintPage_keeps {k s0 s a1 a2} (h : Keeps k s0 s)
    (hm : Within 0x24#21 k := by first | assumption | exact Within.trans (by assumption) (by decide)) :
    KeepsOS k s0 (hintPage s a1 a2) := by
  unfold hintPage
  repeat' first
    | with_reducible assumption | with_reducible refine fetchSeg_keeps ?_ | with_reducible refine setEntry_keeps ?_ | with_reducible refine Keeps.ite ?_ ?_ | with_reducible refine Keeps.foldl _ _ ?_ _ ?_ | fail_if_no_progress ((with_reducible refine Keeps.mk' ?_ rfl rfl rfl ?_ ?_ ?_ ?_ ?_ ?_ ?_ ?_ ?_ ?_ ?_ ?_ ?_ ?_ ?_ ?_ ?_ ?_ ?_ ?_ ?_) <;> first | exact Or.inl (hm.bit (by decide)) | exact Or.inr rfl | skip) | with_reducible exact KeepsOS.none _ _ | with_reducible refine KeepsOS.some ?_
    | split
    | (extract_lets +onlyGivenNames x; first | (refine Keeps.cut s0 x ?_ fun h => ?_; rotate_left; clear_value x) | skip)
    | (unfold x; fail_if_success done)
    | intro h

theorem scanPage_keeps {k s0 s a1} (h : Keeps k s0 s)
    (hm : Within 0x1082ac#21 k := by first | assumption | exact Within.trans (by assumption) (by decide)) :
    KeepsL k s0 (scanPage s a1) := by
  unfold scanPage
  repeat' first
    | with_reducible assumption | with_reducible refine fetchSeg_keeps ?_ | with_reducible refine scrubGroup_keeps ?_ | with_reducible refine poisonEnter_keeps ?_ | with_reducible refine Keeps.ite ?_ ?_ | with_reducible refine Keeps.foldl _ _ ?_ _ ?_ | fail_if_no_progress ((with_reducible refine Keeps.mk' ?_ rfl rfl rfl ?_ ?_ ?_ ?_ ?_ ?_ ?_ ?_ ?_ ?_ ?_ ?_ ?_ ?_ ?_ ?_ ?_ ?_ ?_ ?_ ?_) <;> first | exact Or.inl (hm.bit (by decide)) | exact Or.inr rfl | skip) | with_reducible refine KeepsL.mk ?_
    | split
    | (extract_lets +onlyGivenNames x; first | (refine Keeps.cut s0 x ?_ fun h => ?_; rotate_left; clear_value x) | skip)
    | (unfold x; fail_if_success done)
    | intro h

theorem pageDone_keeps {k s0 s a1 a2 a3 a4} (h : Keeps k s0 s)
    (hm : Within 0x1000#21 k := by first | assumption | exact Within.trans (by assumption) (by decide)) :
    Keeps k s0 (pageDone s a1 a2 a3 a4) := by
  unfold pageDone
  repeat' first
    | with_reducible assumption | with_reducible refine updCmd_keeps ?_ | with_reducible refine Keeps.ite ?_ ?_ | with_reducible refine Keeps.foldl _ _ ?_ _ ?_ | fail_if_no_progress ((with_reducible refine Keeps.mk' ?_ rfl rfl rfl ?_ ?_ ?_ ?_ ?_ ?_ ?_ ?_ ?_ ?_ ?_ ?_ ?_ ?_ ?_ ?_ ?_ ?_ ?_ ?_ ?_) <;> first | exact Or.inl (hm.bit (by decide)) | exact Or.inr rfl | skip)
    | split
    | (extract_lets +onlyGivenNames x; first | (refine Keeps.cut s0 x ?_ fun h => ?_; rotate_left; clear_value x) | skip)
    | (unfold x; fail_if_success done)
    | intro h

theorem actOn_keeps {k s0 s a1 a2} (h : Keeps k s0 s)
    (hm : Within 0x1896be#21 k := by first | assumption | exact Within.trans (by assumption) (by decide)) : Keeps k s0 (actOn s a1 a2) := by
  have take : ∀ (t : Option State) (w : Bool), KeepsOS k s0 t →
      Keeps k s0 (match t with | some t => pageDone t a1 a2 w [] | none => s) := by
    intro t w ht
    split
    · exact pageDone_keeps (ht _ rfl)
    · exact h
  unfold actOn
  exact .ite h (.ite (.ite (take _ _ (securePage_keeps h)) (take _ _ (discardPage_keeps h))) (.ite (take _ _ (zeroPage_keeps h))
    (.ite (take _ _ (copyPages_keeps h)) (.ite (.ite h (.ite (finishCmd_keeps h) (take _ _ (hintPage_keeps h))))
    (.ite (pageDone_keeps (scanPage_keeps h)) h)))))

theorem finishScan_keeps {k s0 s a1} (h : Keeps k s0 s)
    (hm : Within 0x101000#21 k := by first | assumption | exact Within.trans (by assumption) (by decide)) :
    Keeps k s0 (finishScan s a1) := by
  unfold finishScan
  repeat' first
    | with_reducible assumption | with_reducible refine outputData_keeps ?_ | with_reducible refine succeed_keeps ?_ | with_reducible refine Keeps.ite ?_ ?_ | with_reducible refine Keeps.foldl _ _ ?_ _ ?_ | fail_if_no_progress ((with_reducible refine Keeps.mk' ?_ rfl rfl rfl ?_ ?_ ?_ ?_ ?_ ?_ ?_ ?_ ?_ ?_ ?_ ?_ ?_ ?_ ?_ ?_ ?_ ?_ ?_ ?_ ?_) <;> first | exact Or.inl (hm.bit (by decide)) | exact Or.inr rfl | skip)
    | split
    | (extract_lets +onlyGivenNames x; first | (refine Keeps.cut s0 x ?_ fun h => ?_; rotate_left; clear_value x) | skip)
    | (unfold x; fail_if_success done)
    | intro h

theorem settleRange_keeps {k s0 s a1} (h : Keeps k s0 s)
    (hm : Within 0x101000#21 k := by first | assumption | exact Within.trans (by assumption) (by decide)) :
    Keeps k s0 (settleRange s a1) := by
  unfold settleRange
  repeat' first
    | with_reducible assumption | with_reducible refine updCmd_keeps ?_ | with_reducible refine finishScan_keeps ?_ | with_reducible refine succeed_keeps ?_ | with_reducible refine Keeps.ite ?_ ?_ | with_reducible refine Keeps.foldl _ _ ?_ _ ?_ | fail_if_no_progress ((with_reducible refine Keeps.mk' ?_ rfl rfl rfl ?_ ?_ ?_ ?_ ?_ ?_ ?_ ?_ ?_ ?_ ?_ ?_ ?_ ?_ ?_ ?_ ?_ ?_ ?_ ?_ ?_) <;> first | exact Or.inl (hm.bit (by decide)) | exact Or.inr rfl | skip)
    | split
    | (extract_lets +onlyGivenNames x; first | (refine Keeps.cut s0 x ?_ fun h => ?_; rotate_left; clear_value x) | skip)
    | (unfold x; fail_if_success done)
    | intro h

theorem runRange_keeps {k s0 s a1 a2} (h : Keeps k s0 s)
    (hm : Within 0x1896be#21 k := by first | assumption | exact Within.trans (by assumption) (by decide)) :
    Keeps k s0 (runRange s a1 a2) := by
  unfold runRange
  repeat' first
    | with_reducible assumption | with_reducible refine runCmd_keeps ?_ (fun _ _ _ => ?_) | with_reducible refine settleRange_keeps ?_ | with_reducible refine actOn_keeps ?_ | with_reducible refine Keeps.ite ?_ ?_ | with_reducible refine Keeps.foldl _ _ ?_ _ ?_ | fail_if_no_progress ((with_reducible refine Keeps.mk' ?_ rfl rfl rfl ?_ ?_ ?_ ?_ ?_ ?_ ?_ ?_ ?_ ?_ ?_ ?_ ?_ ?_ ?_ ?_ ?_ ?_ ?_ ?_ ?_) <;> first | exact Or.inl (hm.bit (by decide)) | exact Or.inr rfl | skip)
    | split
    | (extract_lets +onlyGivenNames x; first | (refine Keeps.cut s0 x ?_ fun h => ?_; rotate_left; clear_value x) | skip)
    | (unfold x; fail_if_success done)
    | intro h

theorem execDiscard_keeps {k s0 a0 s} (h : Keeps k s0 s)
    (hm : Within 0x1896be#21 k := by first | assumption | exact Within.trans (by assumption) (by decide)) :
    KeepsO k s0 (execDiscard a0 s) := by
  unfold execDiscard
  repeat' first
    | with_reducible assumption | with_reducible refine runRange_keeps ?_ | with_reducible refine Keeps.ite ?_ ?_ | with_reducible refine Keeps.foldl _ _ ?_ _ ?_ | fail_if_no_progress ((with_reducible refine Keeps.mk' ?_ rfl rfl rfl ?_ ?_ ?_ ?_ ?_ ?_ ?_ ?_ ?_ ?_ ?_ ?_ ?_ ?_ ?_ ?_ ?_ ?_ ?_ ?_ ?_) <;> first | exact Or.inl (hm.bit (by decide)) | exact Or.inr rfl | skip) | with_reducible refine KeepsO.next ?_
    | split
    | (extract_lets +onlyGivenNames x; first | (refine Keeps.cut s0 x ?_ fun h => ?_; rotate_left; clear_value x) | skip)
    | (unfold x; fail_if_success done)
    | intro h

theorem execDiscardSecure_keeps {k s0 a0 s} (h : Keeps k s0 s)
    (hm : Within 0x1896be#21 k := by first | assumption | exact Within.trans (by assumption) (by decide)) :
    KeepsO k s0 (execDiscardSecure a0 s) := by
  unfold execDiscardSecure
  repeat' first
    | with_reducible assumption | with_reducible refine runRange_keeps ?_ | with_reducible refine Keeps.ite ?_ ?_ | with_reducible refine Keeps.foldl _ _ ?_ _ ?_ | fail_if_no_progress ((with_reducible refine Keeps.mk' ?_ rfl rfl rfl ?_ ?_ ?_ ?_ ?_ ?_ ?_ ?_ ?_ ?_ ?_ ?_ ?_ ?_ ?_ ?_ ?_ ?_ ?_ ?_ ?_) <;> first | exact Or.inl (hm.bit (by decide)) | exact Or.inr rfl | skip) | with_reducible refine KeepsO.next ?_
    | split
    | (extract_lets +onlyGivenNames x; first | (refine Keeps.cut s0 x ?_ fun h => ?_; rotate_left; clear_value x) | skip)
    | (unfold x; fail_if_success done)
    | intro h

theorem execZero_keeps {k s0 a0 s} (h : Keeps k s0 s)
    (hm : Within 0x1896be#21 k := by first | assumption | exact Within.trans (by assumption) (by decide)) :
    KeepsO k s0 (execZero a0 s) := by
  unfold execZero
  repeat' first
    | with_reducible assumption | with_reducible refine runRange_keeps ?_ | with_reducible refine Keeps.ite ?_ ?_ | with_reducible refine Keeps.foldl _ _ ?_ _ ?_ | fail_if_no_progress ((with_reducible refine Keeps.mk' ?_ rfl rfl rfl ?_ ?_ ?_ ?_ ?_ ?_ ?_ ?_ ?_ ?_ ?_ ?_ ?_ ?_ ?_ ?_ ?_ ?_ ?_ ?_ ?_) <;> first | exact Or.inl (hm.bit (by decide)) | exact Or.inr rfl | skip) | with_reducible refine KeepsO.next ?_
    | split
    | (extract_lets +onlyGivenNames x; first | (refine Keeps.cut s0 x ?_ fun h => ?_; rotate_left; clear_value x) | skip)
    | (unfold x; fail_if_success done)
    | intro h

theorem execCopy_keeps {k s0 a0 s} (h : Keeps k s0 s)
    (hm : Within 0x1896be#21 k := by first | assumption | exact Within.trans (by assumption) (by decide)) :
    KeepsO k s0 (execCopy a0 s) := by
  unfold execCopy
  repeat' first
    | with_reducible assumption | with_reducible refine runRange_keeps ?_ | with_reducible refine Keeps.ite ?_ ?_ | with_reducible refine Keeps.foldl _ _ ?_ _ ?_ | fail_if_no_progress ((with_reducible refine Keeps.mk' ?_ rfl rfl rfl ?_ ?_ ?_ ?_ ?_ ?_ ?_ ?_ ?_ ?_ ?_ ?_ ?_ ?_ ?_ ?_ ?_ ?_ ?_ ?_ ?_) <;> first | exact Or.inl (hm.bit (by decide)) | exact Or.inr rfl | skip) | with_reducible refine KeepsO.next ?_
    | split
    | (extract_lets +onlyGivenNames x; first | (refine Keeps.cut s0 x ?_ fun h => ?_; rotate_left; clear_value x) | skip)
    | (unfold x; fail_if_success done)
    | intro h

theorem runHint_keeps {k s0 s a1 a2} (h : Keeps k s0 s)
    (hm : Within 0x1896be#21 k := by first | assumption | exact Within.trans (by assumption) (by decide)) :
    Keeps k s0 (runHint s a1 a2) := by
  unfold runHint
  repeat' first
    | with_reducible assumption | with_reducible refine runRange_keeps ?_ | with_reducible refine Keeps.ite ?_ ?_ | with_reducible refine Keeps.foldl _ _ ?_ _ ?_ | fail_if_no_progress ((with_reducible refine Keeps.mk' ?_ rfl rfl rfl ?_ ?_ ?_ ?_ ?_ ?_ ?_ ?_ ?_ ?_ ?_ ?_ ?_ ?_ ?_ ?_ ?_ ?_ ?_ ?_ ?_) <;> first | exact Or.inl (hm.bit (by decide)) | exact Or.inr rfl | skip)
    | split
    | (extract_lets +onlyGivenNames x; first | (refine Keeps.cut s0 x ?_ fun h => ?_; rotate_left; clear_value x) | skip)
    | (unfold x; fail_if_success done)
    | intro h

theorem execHintHot_keeps {k s0 a0 s} (h : Keeps k s0 s)
    (hm : Within 0x1896be#21 k := by first | assumption | exact Within.trans (by assumption) (by decide)) :
    KeepsO k s0 (execHintHot a0 s) := by
  unfold execHintHot
  repeat' first
    | with_reducible assumption | with_reducible refine runHint_keeps ?_ | with_reducible refine Keeps.ite ?_ ?_ | with_reducible refine Keeps.foldl _ _ ?_ _ ?_ | fail_if_no_progress ((with_reducible refine Keeps.mk' ?_ rfl rfl rfl ?_ ?_ ?_ ?_ ?_ ?_ ?_ ?_ ?_ ?_ ?_ ?_ ?_ ?_ ?_ ?_ ?_ ?_ ?_ ?_ ?_) <;> first | exact Or.inl (hm.bit (by decide)) | exact Or.inr rfl | skip) | with_reducible refine KeepsO.next ?_
    | split
    | (extract_lets +onlyGivenNames x; first | (refine Keeps.cut s0 x ?_ fun h => ?_; rotate_left; clear_value x) | skip)
    | (unfold x; fail_if_success done)
    | intro h

theorem execHintCold_keeps {k s0 a0 s} (h : Keeps k s0 s)
    (hm : Within 0x1896be#21 k := by first | assumption | exact Within.trans (by assumption) (by decide)) :
    KeepsO k s0 (execHintCold a0 s) := by
  unfold execHintCold
  repeat' first
    | with_reducible assumption | with_reducible refine runHint_keeps ?_ | with_reducible refine Keeps.ite ?_ ?_ | with_reducible refine Keeps.foldl _ _ ?_ _ ?_ | fail_if_no_progress ((with_reducible refine Keeps.mk' ?_ rfl rfl rfl ?_ ?_ ?_ ?_ ?_ ?_ ?_ ?_ ?_ ?_ ?_ ?_ ?_ ?_ ?_ ?_ ?_ ?_ ?_ ?_ ?_) <;> first | exact Or.inl (hm.bit (by decide)) | exact Or.inr rfl | skip) | with_reducible refine KeepsO.next ?_
    | split
    | (extract_lets +onlyGivenNames x; first | (refine Keeps.cut s0 x ?_ fun h => ?_; rotate_left; clear_value x) | skip)
    | (unfold x; fail_if_success done)
    | intro h

theorem execHintPin_keeps {k s0 a0 s} (h : Keeps k s0 s)
    (hm : Within 0x1896be#21 k := by first | assumption | exact Within.trans (by assumption) (by decide)) :
    KeepsO k s0 (execHintPin a0 s) := by
  unfold execHintPin
  repeat' first
    | with_reducible assumption | with_reducible refine runHint_keeps ?_ | with_reducible refine Keeps.ite ?_ ?_ | with_reducible refine Keeps.foldl _ _ ?_ _ ?_ | fail_if_no_progress ((with_reducible refine Keeps.mk' ?_ rfl rfl rfl ?_ ?_ ?_ ?_ ?_ ?_ ?_ ?_ ?_ ?_ ?_ ?_ ?_ ?_ ?_ ?_ ?_ ?_ ?_ ?_ ?_) <;> first | exact Or.inl (hm.bit (by decide)) | exact Or.inr rfl | skip) | with_reducible refine KeepsO.next ?_
    | split
    | (extract_lets +onlyGivenNames x; first | (refine Keeps.cut s0 x ?_ fun h => ?_; rotate_left; clear_value x) | skip)
    | (unfold x; fail_if_success done)
    | intro h

theorem execHintUnpin_keeps {k s0 a0 s} (h : Keeps k s0 s)
    (hm : Within 0x1896be#21 k := by first | assumption | exact Within.trans (by assumption) (by decide)) :
    KeepsO k s0 (execHintUnpin a0 s) := by
  unfold execHintUnpin
  repeat' first
    | with_reducible assumption | with_reducible refine runHint_keeps ?_ | with_reducible refine Keeps.ite ?_ ?_ | with_reducible refine Keeps.foldl _ _ ?_ _ ?_ | fail_if_no_progress ((with_reducible refine Keeps.mk' ?_ rfl rfl rfl ?_ ?_ ?_ ?_ ?_ ?_ ?_ ?_ ?_ ?_ ?_ ?_ ?_ ?_ ?_ ?_ ?_ ?_ ?_ ?_ ?_) <;> first | exact Or.inl (hm.bit (by decide)) | exact Or.inr rfl | skip) | with_reducible refine KeepsO.next ?_
    | split
    | (extract_lets +onlyGivenNames x; first | (refine Keeps.cut s0 x ?_ fun h => ?_; rotate_left; clear_value x) | skip)
    | (unfold x; fail_if_success done)
    | intro h

theorem execScan_keeps {k s0 a0 s} (h : Keeps k s0 s)
    (hm : Within 0x1896be#21 k := by first | assumption | exact Within.trans (by assumption) (by decide)) :
    KeepsO k s0 (execScan a0 s) := by
  unfold execScan
  repeat' first
    | with_reducible assumption | with_reducible refine runRange_keeps ?_ | with_reducible refine Keeps.ite ?_ ?_ | with_reducible refine Keeps.foldl _ _ ?_ _ ?_ | fail_if_no_progress ((with_reducible refine Keeps.mk' ?_ rfl rfl rfl ?_ ?_ ?_ ?_ ?_ ?_ ?_ ?_ ?_ ?_ ?_ ?_ ?_ ?_ ?_ ?_ ?_ ?_ ?_ ?_ ?_) <;> first | exact Or.inl (hm.bit (by decide)) | exact Or.inr rfl | skip) | with_reducible refine KeepsO.next ?_
    | split
    | (extract_lets +onlyGivenNames x; first | (refine Keeps.cut s0 x ?_ fun h => ?_; rotate_left; clear_value x) | skip)
    | (unfold x; fail_if_success done)
    | intro h

theorem rebuildPoison_keeps {k s0 s} (h : Keeps k s0 s)
    (hm : Within 0x80#21 k := by first | assumption | exact Within.trans (by assumption) (by decide)) :
    Keeps k s0 (rebuildPoison s) := by
  unfold rebuildPoison
  repeat' first
    | with_reducible assumption | with_reducible refine poisonEnter_keeps ?_ | with_reducible refine Keeps.ite ?_ ?_ | with_reducible refine Keeps.foldl _ _ ?_ _ ?_ | fail_if_no_progress ((with_reducible refine Keeps.mk' ?_ rfl rfl rfl ?_ ?_ ?_ ?_ ?_ ?_ ?_ ?_ ?_ ?_ ?_ ?_ ?_ ?_ ?_ ?_ ?_ ?_ ?_ ?_ ?_) <;> first | exact Or.inl (hm.bit (by decide)) | exact Or.inr rfl | skip)
    | split
    | (extract_lets +onlyGivenNames x; first | (refine Keeps.cut s0 x ?_ fun h => ?_; rotate_left; clear_value x) | skip)
    | (unfold x; fail_if_success done)
    | intro h

theorem endScan_keeps {k s0 s} (h : Keeps k s0 s)
    (hm : Within 0x100880#21 k := by first | assumption | exact Within.trans (by assumption) (by decide)) :
    Keeps k s0 (endScan s) := by
  unfold endScan
  repeat' first
    | with_reducible assumption | with_reducible refine rebuildPoison_keeps ?_ | with_reducible refine signalVector_keeps ?_ | with_reducible refine Keeps.ite ?_ ?_ | with_reducible refine Keeps.foldl _ _ ?_ _ ?_ | fail_if_no_progress ((with_reducible refine Keeps.mk' ?_ rfl rfl rfl ?_ ?_ ?_ ?_ ?_ ?_ ?_ ?_ ?_ ?_ ?_ ?_ ?_ ?_ ?_ ?_ ?_ ?_ ?_ ?_ ?_) <;> first | exact Or.inl (hm.bit (by decide)) | exact Or.inr rfl | skip)
    | split
    | (extract_lets +onlyGivenNames x; first | (refine Keeps.cut s0 x ?_ fun h => ?_; rotate_left; clear_value x) | skip)
    | (unfold x; fail_if_success done)
    | intro h

theorem mailboxScanPage_keeps {k s0 s a1} (h : Keeps k s0 s)
    (hm : Within 0x108aac#21 k := by first | assumption | exact Within.trans (by assumption) (by decide)) :
    Keeps k s0 (mailboxScanPage s a1) := by
  unfold mailboxScanPage
  repeat' first
    | with_reducible assumption | with_reducible refine scanPage_keeps ?_ | with_reducible refine endScan_keeps ?_ | with_reducible refine Keeps.ite ?_ ?_ | with_reducible refine Keeps.foldl _ _ ?_ _ ?_ | fail_if_no_progress ((with_reducible refine Keeps.mk' ?_ rfl rfl rfl ?_ ?_ ?_ ?_ ?_ ?_ ?_ ?_ ?_ ?_ ?_ ?_ ?_ ?_ ?_ ?_ ?_ ?_ ?_ ?_ ?_) <;> first | exact Or.inl (hm.bit (by decide)) | exact Or.inr rfl | skip)
    | split
    | (extract_lets +onlyGivenNames x; first | (refine Keeps.cut s0 x ?_ fun h => ?_; rotate_left; clear_value x) | skip)
    | (unfold x; fail_if_success done)
    | intro h
    | with_reducible refine KeepsR.elim ?_ (by assumption) | with_reducible refine KeepsL.elim ?_ (by assumption) | with_reducible refine KeepsOS.elim ?_ (by assumption) | with_reducible refine KeepsOR.elim ?_ (by assumption) | with_reducible refine KeepsOR3.elim ?_ (by assumption) | with_reducible refine KeepsL.proj ?_ | with_reducible refine KeepsR.proj ?_

theorem execRangeActionPoint_keeps {k s0 a0 a1 s} (h : Keeps k s0 s)
    (hm : Within 0x189ebe#21 k := by first | assumption | exact Within.trans (by assumption) (by decide)) :
    KeepsO k s0 (execRangeActionPoint a0 a1 s) := by
  unfold execRangeActionPoint
  repeat' first
    | with_reducible assumption | with_reducible refine actOn_keeps ?_ | with_reducible refine mailboxScanPage_keeps ?_ | with_reducible refine Keeps.ite ?_ ?_ | with_reducible refine Keeps.foldl _ _ ?_ _ ?_ | fail_if_no_progress ((with_reducible refine Keeps.mk' ?_ rfl rfl rfl ?_ ?_ ?_ ?_ ?_ ?_ ?_ ?_ ?_ ?_ ?_ ?_ ?_ ?_ ?_ ?_ ?_ ?_ ?_ ?_ ?_) <;> first | exact Or.inl (hm.bit (by decide)) | exact Or.inr rfl | skip) | with_reducible refine KeepsO.next ?_
    | split
    | (extract_lets +onlyGivenNames x; first | (refine Keeps.cut s0 x ?_ fun h => ?_; rotate_left; clear_value x) | skip)
    | (unfold x; fail_if_success done)
    | intro h

/-! Cmds. -/

theorem execIdentify_keeps {k s0 a0 s} (h : Keeps k s0 s)
    (hm : Within 0x101000#21 k := by first | assumption | exact Within.trans (by assumption) (by decide)) :
    KeepsO k s0 (execIdentify a0 s) := by
  unfold execIdentify
  repeat' first
    | with_reducible assumption | with_reducible refine runCmd_keeps ?_ (fun _ _ _ => ?_) | with_reducible refine succeed_keeps ?_ | with_reducible refine outputData_keeps ?_ | with_reducible refine Keeps.ite ?_ ?_ | with_reducible refine Keeps.foldl _ _ ?_ _ ?_ | fail_if_no_progress ((with_reducible refine Keeps.mk' ?_ rfl rfl rfl ?_ ?_ ?_ ?_ ?_ ?_ ?_ ?_ ?_ ?_ ?_ ?_ ?_ ?_ ?_ ?_ ?_ ?_ ?_ ?_ ?_) <;> first | exact Or.inl (hm.bit (by decide)) | exact Or.inr rfl | skip) | with_reducible refine KeepsO.next ?_
    | split
    | (extract_lets +onlyGivenNames x; first | (refine Keeps.cut s0 x ?_ fun h => ?_; rotate_left; clear_value x) | skip)
    | (unfold x; fail_if_success done)
    | intro h

theorem execGetLog_keeps {k s0 a0 s} (h : Keeps k s0 s)
    (hm : Within 0x101000#21 k := by first | assumption | exact Within.trans (by assumption) (by decide)) :
    KeepsO k s0 (execGetLog a0 s) := by
  unfold execGetLog
  repeat' first
    | with_reducible assumption | with_reducible refine runCmd_keeps ?_ (fun _ _ _ => ?_) | with_reducible refine succeed_keeps ?_ | with_reducible refine outputData_keeps ?_ | with_reducible refine Keeps.ite ?_ ?_ | with_reducible refine Keeps.foldl _ _ ?_ _ ?_ | fail_if_no_progress ((with_reducible refine Keeps.mk' ?_ rfl rfl rfl ?_ ?_ ?_ ?_ ?_ ?_ ?_ ?_ ?_ ?_ ?_ ?_ ?_ ?_ ?_ ?_ ?_ ?_ ?_ ?_ ?_) <;> first | exact Or.inl (hm.bit (by decide)) | exact Or.inr rfl | skip) | with_reducible refine KeepsO.next ?_
    | split
    | (extract_lets +onlyGivenNames x; first | (refine Keeps.cut s0 x ?_ fun h => ?_; rotate_left; clear_value x) | skip)
    | (unfold x; fail_if_success done)
    | intro h

theorem execConfigCommit_keeps {k s0 a0 s} (h : Keeps k s0 s)
    (hm : Within 0x11002#21 k := by first | assumption | exact Within.trans (by assumption) (by decide)) :
    KeepsO k s0 (execConfigCommit a0 s) := by
  unfold execConfigCommit
  repeat' first
    | with_reducible assumption | with_reducible refine runCmd_keeps ?_ (fun _ _ _ => ?_) | with_reducible refine takeCommit_keeps ?_ | with_reducible refine holdCmd_keeps ?_ | with_reducible refine Keeps.ite ?_ ?_ | with_reducible refine Keeps.foldl _ _ ?_ _ ?_ | fail_if_no_progress ((with_reducible refine Keeps.mk' ?_ rfl rfl rfl ?_ ?_ ?_ ?_ ?_ ?_ ?_ ?_ ?_ ?_ ?_ ?_ ?_ ?_ ?_ ?_ ?_ ?_ ?_ ?_ ?_) <;> first | exact Or.inl (hm.bit (by decide)) | exact Or.inr rfl | skip) | with_reducible refine KeepsO.next ?_
    | split
    | (extract_lets +onlyGivenNames x; first | (refine Keeps.cut s0 x ?_ fun h => ?_; rotate_left; clear_value x) | skip)
    | (unfold x; fail_if_success done)
    | intro h

theorem execConfigDiscard_keeps {k s0 a0 s} (h : Keeps k s0 s)
    (hm : Within 0x41000#21 k := by first | assumption | exact Within.trans (by assumption) (by decide)) :
    KeepsO k s0 (execConfigDiscard a0 s) := by
  unfold execConfigDiscard
  repeat' first
    | with_reducible assumption | with_reducible refine runCmd_keeps ?_ (fun _ _ _ => ?_) | with_reducible refine succeed_keeps ?_ | with_reducible refine setShadow_keeps ?_ | with_reducible refine Keeps.ite ?_ ?_ | with_reducible refine Keeps.foldl _ _ ?_ _ ?_ | fail_if_no_progress ((with_reducible refine Keeps.mk' ?_ rfl rfl rfl ?_ ?_ ?_ ?_ ?_ ?_ ?_ ?_ ?_ ?_ ?_ ?_ ?_ ?_ ?_ ?_ ?_ ?_ ?_ ?_ ?_) <;> first | exact Or.inl (hm.bit (by decide)) | exact Or.inr rfl | skip) | with_reducible refine KeepsO.next ?_
    | split
    | (extract_lets +onlyGivenNames x; first | (refine Keeps.cut s0 x ?_ fun h => ?_; rotate_left; clear_value x) | skip)
    | (unfold x; fail_if_success done)
    | intro h

theorem runRegion_keeps {k s0 s a1 a2} (h : Keeps k s0 s)
    (hm : Within 0x11002#21 k := by first | assumption | exact Within.trans (by assumption) (by decide)) :
    Keeps k s0 (runRegion s a1 a2) := by
  unfold runRegion
  repeat' first
    | with_reducible assumption | with_reducible refine runCmd_keeps ?_ (fun _ _ _ => ?_) | with_reducible refine takeCommit_keeps ?_ | with_reducible refine holdCmd_keeps ?_ | with_reducible refine Keeps.ite ?_ ?_ | with_reducible refine Keeps.foldl _ _ ?_ _ ?_ | fail_if_no_progress ((with_reducible refine Keeps.mk' ?_ rfl rfl rfl ?_ ?_ ?_ ?_ ?_ ?_ ?_ ?_ ?_ ?_ ?_ ?_ ?_ ?_ ?_ ?_ ?_ ?_ ?_ ?_ ?_) <;> first | exact Or.inl (hm.bit (by decide)) | exact Or.inr rfl | skip)
    | split
    | (extract_lets +onlyGivenNames x; first | (refine Keeps.cut s0 x ?_ fun h => ?_; rotate_left; clear_value x) | skip)
    | (unfold x; fail_if_success done)
    | intro h

theorem execRegionDefine_keeps {k s0 a0 s} (h : Keeps k s0 s)
    (hm : Within 0x11002#21 k := by first | assumption | exact Within.trans (by assumption) (by decide)) :
    KeepsO k s0 (execRegionDefine a0 s) := by
  unfold execRegionDefine
  repeat' first
    | with_reducible assumption | with_reducible refine runRegion_keeps ?_ | with_reducible refine Keeps.ite ?_ ?_ | with_reducible refine Keeps.foldl _ _ ?_ _ ?_ | fail_if_no_progress ((with_reducible refine Keeps.mk' ?_ rfl rfl rfl ?_ ?_ ?_ ?_ ?_ ?_ ?_ ?_ ?_ ?_ ?_ ?_ ?_ ?_ ?_ ?_ ?_ ?_ ?_ ?_ ?_) <;> first | exact Or.inl (hm.bit (by decide)) | exact Or.inr rfl | skip) | with_reducible refine KeepsO.next ?_
    | split
    | (extract_lets +onlyGivenNames x; first | (refine Keeps.cut s0 x ?_ fun h => ?_; rotate_left; clear_value x) | skip)
    | (unfold x; fail_if_success done)
    | intro h

theorem execRegionInvalidate_keeps {k s0 a0 s} (h : Keeps k s0 s)
    (hm : Within 0x11002#21 k := by first | assumption | exact Within.trans (by assumption) (by decide)) :
    KeepsO k s0 (execRegionInvalidate a0 s) := by
  unfold execRegionInvalidate
  repeat' first
    | with_reducible assumption | with_reducible refine runRegion_keeps ?_ | with_reducible refine Keeps.ite ?_ ?_ | with_reducible refine Keeps.foldl _ _ ?_ _ ?_ | fail_if_no_progress ((with_reducible refine Keeps.mk' ?_ rfl rfl rfl ?_ ?_ ?_ ?_ ?_ ?_ ?_ ?_ ?_ ?_ ?_ ?_ ?_ ?_ ?_ ?_ ?_ ?_ ?_ ?_ ?_) <;> first | exact Or.inl (hm.bit (by decide)) | exact Or.inr rfl | skip) | with_reducible refine KeepsO.next ?_
    | split
    | (extract_lets +onlyGivenNames x; first | (refine Keeps.cut s0 x ?_ fun h => ?_; rotate_left; clear_value x) | skip)
    | (unfold x; fail_if_success done)
    | intro h

theorem execRegionSplit_keeps {k s0 a0 s} (h : Keeps k s0 s)
    (hm : Within 0x11002#21 k := by first | assumption | exact Within.trans (by assumption) (by decide)) :
    KeepsO k s0 (execRegionSplit a0 s) := by
  unfold execRegionSplit
  repeat' first
    | with_reducible assumption | with_reducible refine runRegion_keeps ?_ | with_reducible refine Keeps.ite ?_ ?_ | with_reducible refine Keeps.foldl _ _ ?_ _ ?_ | fail_if_no_progress ((with_reducible refine Keeps.mk' ?_ rfl rfl rfl ?_ ?_ ?_ ?_ ?_ ?_ ?_ ?_ ?_ ?_ ?_ ?_ ?_ ?_ ?_ ?_ ?_ ?_ ?_ ?_ ?_) <;> first | exact Or.inl (hm.bit (by decide)) | exact Or.inr rfl | skip) | with_reducible refine KeepsO.next ?_
    | split
    | (extract_lets +onlyGivenNames x; first | (refine Keeps.cut s0 x ?_ fun h => ?_; rotate_left; clear_value x) | skip)
    | (unfold x; fail_if_success done)
    | intro h

theorem execRegionMerge_keeps {k s0 a0 s} (h : Keeps k s0 s)
    (hm : Within 0x11002#21 k := by first | assumption | exact Within.trans (by assumption) (by decide)) :
    KeepsO k s0 (execRegionMerge a0 s) := by
  unfold execRegionMerge
  repeat' first
    | with_reducible assumption | with_reducible refine runRegion_keeps ?_ | with_reducible refine Keeps.ite ?_ ?_ | with_reducible refine Keeps.foldl _ _ ?_ _ ?_ | fail_if_no_progress ((with_reducible refine Keeps.mk' ?_ rfl rfl rfl ?_ ?_ ?_ ?_ ?_ ?_ ?_ ?_ ?_ ?_ ?_ ?_ ?_ ?_ ?_ ?_ ?_ ?_ ?_ ?_ ?_) <;> first | exact Or.inl (hm.bit (by decide)) | exact Or.inr rfl | skip) | with_reducible refine KeepsO.next ?_
    | split
    | (extract_lets +onlyGivenNames x; first | (refine Keeps.cut s0 x ?_ fun h => ?_; rotate_left; clear_value x) | skip)
    | (unfold x; fail_if_success done)
    | intro h

theorem execBudget_keeps {k s0 a0 s} (h : Keeps k s0 s)
    (hm : Within 0x11002#21 k := by first | assumption | exact Within.trans (by assumption) (by decide)) :
    KeepsO k s0 (execBudget a0 s) := by
  unfold execBudget
  repeat' first
    | with_reducible assumption | with_reducible refine runCmd_keeps ?_ (fun _ _ _ => ?_) | with_reducible refine takeCommit_keeps ?_ | with_reducible refine holdCmd_keeps ?_ | with_reducible refine Keeps.ite ?_ ?_ | with_reducible refine Keeps.foldl _ _ ?_ _ ?_ | fail_if_no_progress ((with_reducible refine Keeps.mk' ?_ rfl rfl rfl ?_ ?_ ?_ ?_ ?_ ?_ ?_ ?_ ?_ ?_ ?_ ?_ ?_ ?_ ?_ ?_ ?_ ?_ ?_ ?_ ?_) <;> first | exact Or.inl (hm.bit (by decide)) | exact Or.inr rfl | skip) | with_reducible refine KeepsO.next ?_
    | split
    | (extract_lets +onlyGivenNames x; first | (refine Keeps.cut s0 x ?_ fun h => ?_; rotate_left; clear_value x) | skip)
    | (unfold x; fail_if_success done)
    | intro h

theorem execPowerPolicy_keeps {k s0 a0 s} (h : Keeps k s0 s)
    (hm : Within 0x11002#21 k := by first | assumption | exact Within.trans (by assumption) (by decide)) :
    KeepsO k s0 (execPowerPolicy a0 s) := by
  unfold execPowerPolicy
  repeat' first
    | with_reducible assumption | with_reducible refine runCmd_keeps ?_ (fun _ _ _ => ?_) | with_reducible refine takeCommit_keeps ?_ | with_reducible refine holdCmd_keeps ?_ | with_reducible refine Keeps.ite ?_ ?_ | with_reducible refine Keeps.foldl _ _ ?_ _ ?_ | fail_if_no_progress ((with_reducible refine Keeps.mk' ?_ rfl rfl rfl ?_ ?_ ?_ ?_ ?_ ?_ ?_ ?_ ?_ ?_ ?_ ?_ ?_ ?_ ?_ ?_ ?_ ?_ ?_ ?_ ?_) <;> first | exact Or.inl (hm.bit (by decide)) | exact Or.inr rfl | skip) | with_reducible refine KeepsO.next ?_
    | split
    | (extract_lets +onlyGivenNames x; first | (refine Keeps.cut s0 x ?_ fun h => ?_; rotate_left; clear_value x) | skip)
    | (unfold x; fail_if_success done)
    | intro h

theorem execKeepRead_keeps {k s0 a0 s} (h : Keeps k s0 s)
    (hm : Within 0x101000#21 k := by first | assumption | exact Within.trans (by assumption) (by decide)) :
    KeepsO k s0 (execKeepRead a0 s) := by
  unfold execKeepRead
  repeat' first
    | with_reducible assumption | with_reducible refine runCmd_keeps ?_ (fun _ _ _ => ?_) | with_reducible refine succeed_keeps ?_ | with_reducible refine outputData_keeps ?_ | with_reducible refine Keeps.ite ?_ ?_ | with_reducible refine Keeps.foldl _ _ ?_ _ ?_ | fail_if_no_progress ((with_reducible refine Keeps.mk' ?_ rfl rfl rfl ?_ ?_ ?_ ?_ ?_ ?_ ?_ ?_ ?_ ?_ ?_ ?_ ?_ ?_ ?_ ?_ ?_ ?_ ?_ ?_ ?_) <;> first | exact Or.inl (hm.bit (by decide)) | exact Or.inr rfl | skip) | with_reducible refine KeepsO.next ?_
    | split
    | (extract_lets +onlyGivenNames x; first | (refine Keeps.cut s0 x ?_ fun h => ?_; rotate_left; clear_value x) | skip)
    | (unfold x; fail_if_success done)
    | intro h

theorem execKeepWrite_keeps {k s0 a0 s} (h : Keeps k s0 s)
    (hm : Within 0x101001#21 k := by first | assumption | exact Within.trans (by assumption) (by decide)) :
    KeepsO k s0 (execKeepWrite a0 s) := by
  unfold execKeepWrite
  repeat' first
    | with_reducible assumption | with_reducible refine runCmd_keeps ?_ (fun _ _ _ => ?_) | with_reducible refine keepPut_keeps ?_ | with_reducible refine holdCmd_keeps ?_ | with_reducible refine succeed_keeps ?_ | with_reducible refine Keeps.ite ?_ ?_ | with_reducible refine Keeps.foldl _ _ ?_ _ ?_ | fail_if_no_progress ((with_reducible refine Keeps.mk' ?_ rfl rfl rfl ?_ ?_ ?_ ?_ ?_ ?_ ?_ ?_ ?_ ?_ ?_ ?_ ?_ ?_ ?_ ?_ ?_ ?_ ?_ ?_ ?_) <;> first | exact Or.inl (hm.bit (by decide)) | exact Or.inr rfl | skip) | with_reducible refine KeepsO.next ?_
    | split
    | (extract_lets +onlyGivenNames x; first | (refine Keeps.cut s0 x ?_ fun h => ?_; rotate_left; clear_value x) | skip)
    | (unfold x; fail_if_success done)
    | intro h

theorem execKeepProtect_keeps {k s0 a0 s} (h : Keeps k s0 s)
    (hm : Within 0x105000#21 k := by first | assumption | exact Within.trans (by assumption) (by decide)) :
    KeepsO k s0 (execKeepProtect a0 s) := by
  unfold execKeepProtect
  repeat' first
    | with_reducible assumption | with_reducible refine runCmd_keeps ?_ (fun _ _ _ => ?_) | with_reducible refine succeed_keeps ?_ | with_reducible refine keepPut_keeps ?_ | with_reducible refine Keeps.ite ?_ ?_ | with_reducible refine Keeps.foldl _ _ ?_ _ ?_ | fail_if_no_progress ((with_reducible refine Keeps.mk' ?_ rfl rfl rfl ?_ ?_ ?_ ?_ ?_ ?_ ?_ ?_ ?_ ?_ ?_ ?_ ?_ ?_ ?_ ?_ ?_ ?_ ?_ ?_ ?_) <;> first | exact Or.inl (hm.bit (by decide)) | exact Or.inr rfl | skip) | with_reducible refine KeepsO.next ?_
    | split
    | (extract_lets +onlyGivenNames x; first | (refine Keeps.cut s0 x ?_ fun h => ?_; rotate_left; clear_value x) | skip)
    | (unfold x; fail_if_success done)
    | intro h

theorem setHostTime_keeps {k s0 s a1} (h : Keeps k s0 s)
    (hm : Within 0x10001#21 k := by first | assumption | exact Within.trans (by assumption) (by decide)) :
    Keeps k s0 (setHostTime s a1) := by
  unfold setHostTime
  repeat' first
    | with_reducible assumption | with_reducible refine Keeps.ite ?_ ?_ | with_reducible refine Keeps.foldl _ _ ?_ _ ?_ | fail_if_no_progress ((with_reducible refine Keeps.mk' ?_ rfl rfl rfl ?_ ?_ ?_ ?_ ?_ ?_ ?_ ?_ ?_ ?_ ?_ ?_ ?_ ?_ ?_ ?_ ?_ ?_ ?_ ?_ ?_) <;> first | exact Or.inl (hm.bit (by decide)) | exact Or.inr rfl | skip)
    | split
    | (extract_lets +onlyGivenNames x; first | (refine Keeps.cut s0 x ?_ fun h => ?_; rotate_left; clear_value x) | skip)
    | (unfold x; fail_if_success done)
    | intro h

theorem execTimeSet_keeps {k s0 a0 s} (h : Keeps k s0 s)
    (hm : Within 0x11001#21 k := by first | assumption | exact Within.trans (by assumption) (by decide)) :
    KeepsO k s0 (execTimeSet a0 s) := by
  unfold execTimeSet
  repeat' first
    | with_reducible assumption | with_reducible refine runCmd_keeps ?_ (fun _ _ _ => ?_) | with_reducible refine succeed_keeps ?_ | with_reducible refine setHostTime_keeps ?_ | with_reducible refine Keeps.ite ?_ ?_ | with_reducible refine Keeps.foldl _ _ ?_ _ ?_ | fail_if_no_progress ((with_reducible refine Keeps.mk' ?_ rfl rfl rfl ?_ ?_ ?_ ?_ ?_ ?_ ?_ ?_ ?_ ?_ ?_ ?_ ?_ ?_ ?_ ?_ ?_ ?_ ?_ ?_ ?_) <;> first | exact Or.inl (hm.bit (by decide)) | exact Or.inr rfl | skip) | with_reducible refine KeepsO.next ?_
    | split
    | (extract_lets +onlyGivenNames x; first | (refine Keeps.cut s0 x ?_ fun h => ?_; rotate_left; clear_value x) | skip)
    | (unfold x; fail_if_success done)
    | intro h

theorem execTimeGet_keeps {k s0 a0 s} (h : Keeps k s0 s)
    (hm : Within 0x1000#21 k := by first | assumption | exact Within.trans (by assumption) (by decide)) :
    KeepsO k s0 (execTimeGet a0 s) := by
  unfold execTimeGet
  repeat' first
    | with_reducible assumption | with_reducible refine runCmd_keeps ?_ (fun _ _ _ => ?_) | with_reducible refine finishCmd_keeps ?_ | with_reducible refine Keeps.ite ?_ ?_ | with_reducible refine Keeps.foldl _ _ ?_ _ ?_ | fail_if_no_progress ((with_reducible refine Keeps.mk' ?_ rfl rfl rfl ?_ ?_ ?_ ?_ ?_ ?_ ?_ ?_ ?_ ?_ ?_ ?_ ?_ ?_ ?_ ?_ ?_ ?_ ?_ ?_ ?_) <;> first | exact Or.inl (hm.bit (by decide)) | exact Or.inr rfl | skip) | with_reducible refine KeepsO.next ?_
    | split
    | (extract_lets +onlyGivenNames x; first | (refine Keeps.cut s0 x ?_ fun h => ?_; rotate_left; clear_value x) | skip)
    | (unfold x; fail_if_success done)
    | intro h

theorem execCounterProgram_keeps {k s0 a0 s} (h : Keeps k s0 s)
    (hm : Within 0x9000#21 k := by first | assumption | exact Within.trans (by assumption) (by decide)) :
    KeepsO k s0 (execCounterProgram a0 s) := by
  unfold execCounterProgram
  repeat' first
    | with_reducible assumption | with_reducible refine runCmd_keeps ?_ (fun _ _ _ => ?_) | with_reducible refine succeed_keeps ?_ | with_reducible refine updMon_keeps ?_ | with_reducible refine Keeps.ite ?_ ?_ | with_reducible refine Keeps.foldl _ _ ?_ _ ?_ | fail_if_no_progress ((with_reducible refine Keeps.mk' ?_ rfl rfl rfl ?_ ?_ ?_ ?_ ?_ ?_ ?_ ?_ ?_ ?_ ?_ ?_ ?_ ?_ ?_ ?_ ?_ ?_ ?_ ?_ ?_) <;> first | exact Or.inl (hm.bit (by decide)) | exact Or.inr rfl | skip) | with_reducible refine KeepsO.next ?_
    | split
    | (extract_lets +onlyGivenNames x; first | (refine Keeps.cut s0 x ?_ fun h => ?_; rotate_left; clear_value x) | skip)
    | (unfold x; fail_if_success done)
    | intro h

theorem execDumpSet_keeps {k s0 a0 s} (h : Keeps k s0 s)
    (hm : Within 0x9000#21 k := by first | assumption | exact Within.trans (by assumption) (by decide)) :
    KeepsO k s0 (execDumpSet a0 s) := by
  unfold execDumpSet
  repeat' first
    | with_reducible assumption | with_reducible refine runCmd_keeps ?_ (fun _ _ _ => ?_) | with_reducible refine succeed_keeps ?_ | with_reducible refine Keeps.ite ?_ ?_ | with_reducible refine Keeps.foldl _ _ ?_ _ ?_ | fail_if_no_progress ((with_reducible refine Keeps.mk' ?_ rfl rfl rfl ?_ ?_ ?_ ?_ ?_ ?_ ?_ ?_ ?_ ?_ ?_ ?_ ?_ ?_ ?_ ?_ ?_ ?_ ?_ ?_ ?_) <;> first | exact Or.inl (hm.bit (by decide)) | exact Or.inr rfl | skip) | with_reducible refine KeepsO.next ?_
    | split
    | (extract_lets +onlyGivenNames x; first | (refine Keeps.cut s0 x ?_ fun h => ?_; rotate_left; clear_value x) | skip)
    | (unfold x; fail_if_success done)
    | intro h

theorem execSampleSet_keeps {k s0 a0 s} (h : Keeps k s0 s)
    (hm : Within 0x1010#21 k := by first | assumption | exact Within.trans (by assumption) (by decide)) :
    KeepsO k s0 (execSampleSet a0 s) := by
  unfold execSampleSet
  repeat' first
    | with_reducible assumption | with_reducible refine runCmd_keeps ?_ (fun _ _ _ => ?_) | with_reducible refine succeed_keeps ?_ | with_reducible refine Keeps.ite ?_ ?_ | with_reducible refine Keeps.foldl _ _ ?_ _ ?_ | fail_if_no_progress ((with_reducible refine Keeps.mk' ?_ rfl rfl rfl ?_ ?_ ?_ ?_ ?_ ?_ ?_ ?_ ?_ ?_ ?_ ?_ ?_ ?_ ?_ ?_ ?_ ?_ ?_ ?_ ?_) <;> first | exact Or.inl (hm.bit (by decide)) | exact Or.inr rfl | skip) | with_reducible refine KeepsO.next ?_
    | split
    | (extract_lets +onlyGivenNames x; first | (refine Keeps.cut s0 x ?_ fun h => ?_; rotate_left; clear_value x) | skip)
    | (unfold x; fail_if_success done)
    | intro h

theorem runCapture_keeps {k s0 s a1 a2 a3} (h : Keeps k s0 s) (ha : ∀ t c, Keeps k s0 t → Keeps k s0 (a3 t c))
    (hm : Within 0x1000#21 k := by first | assumption | exact Within.trans (by assumption) (by decide)) :
    Keeps k s0 (runCapture s a1 a2 a3) := runCmd_keeps h ha

theorem execCaptureSources_keeps {k s0 a0 s} (h : Keeps k s0 s)
    (hm : Within 0x101000#21 k := by first | assumption | exact Within.trans (by assumption) (by decide)) :
    KeepsO k s0 (execCaptureSources a0 s) := by
  unfold execCaptureSources
  repeat' first
    | with_reducible assumption | with_reducible refine runCapture_keeps ?_ (fun _ _ _ => ?_) | with_reducible refine updCapQ_keeps ?_ (fun _ hc => by first | exact hc | decide) | with_reducible refine succeed_keeps ?_ | with_reducible refine packetClose_keeps ?_ | with_reducible refine Keeps.ite ?_ ?_ | with_reducible refine Keeps.foldl _ _ ?_ _ ?_ | fail_if_no_progress ((with_reducible refine Keeps.mk' ?_ rfl rfl rfl ?_ ?_ ?_ ?_ ?_ ?_ ?_ ?_ ?_ ?_ ?_ ?_ ?_ ?_ ?_ ?_ ?_ ?_ ?_ ?_ ?_) <;> first | exact Or.inl (hm.bit (by decide)) | exact Or.inr rfl | skip) | with_reducible refine KeepsO.next ?_
    | split
    | (extract_lets +onlyGivenNames x; first | (refine Keeps.cut s0 x ?_ fun h => ?_; rotate_left; clear_value x) | skip)
    | (unfold x; fail_if_success done)
    | intro h

theorem execCaptureMark_keeps {k s0 a0 s} (h : Keeps k s0 s)
    (hm : Within 0x101000#21 k := by first | assumption | exact Within.trans (by assumption) (by decide)) :
    KeepsO k s0 (execCaptureMark a0 s) := by
  unfold execCaptureMark
  repeat' first
    | with_reducible assumption | with_reducible refine runCapture_keeps ?_ (fun _ _ _ => ?_) | with_reducible refine succeed_keeps ?_ | with_reducible refine updCapQ_keeps ?_ (fun _ hc => by first | exact hc | decide) | with_reducible refine Keeps.ite ?_ ?_ | with_reducible refine Keeps.foldl _ _ ?_ _ ?_ | fail_if_no_progress ((with_reducible refine Keeps.mk' ?_ rfl rfl rfl ?_ ?_ ?_ ?_ ?_ ?_ ?_ ?_ ?_ ?_ ?_ ?_ ?_ ?_ ?_ ?_ ?_ ?_ ?_ ?_ ?_) <;> first | exact Or.inl (hm.bit (by decide)) | exact Or.inr rfl | skip) | with_reducible refine KeepsO.next ?_
    | split
    | (extract_lets +onlyGivenNames x; first | (refine Keeps.cut s0 x ?_ fun h => ?_; rotate_left; clear_value x) | skip)
    | (unfold x; fail_if_success done)
    | intro h

theorem execCaptureRewind_keeps {k s0 a0 s} (h : Keeps k s0 s)
    (hm : Within 0x101000#21 k := by first | assumption | exact Within.trans (by assumption) (by decide)) :
    KeepsO k s0 (execCaptureRewind a0 s) := by
  unfold execCaptureRewind
  repeat' first
    | with_reducible assumption | with_reducible refine runCapture_keeps ?_ (fun _ _ _ => ?_) | with_reducible refine succeed_keeps ?_ | with_reducible refine signalVector_keeps ?_ | with_reducible refine Keeps.ite ?_ ?_ | with_reducible refine Keeps.foldl _ _ ?_ _ ?_ | fail_if_no_progress ((with_reducible refine Keeps.mk' ?_ rfl rfl rfl ?_ ?_ ?_ ?_ ?_ ?_ ?_ ?_ ?_ ?_ ?_ ?_ ?_ ?_ ?_ ?_ ?_ ?_ ?_ ?_ ?_) <;> first | exact Or.inl (hm.bit (by decide)) | exact Or.inr rfl | skip) | with_reducible refine KeepsO.next ?_
    | split
    | (extract_lets +onlyGivenNames x; first | (refine Keeps.cut s0 x ?_ fun h => ?_; rotate_left; clear_value x) | skip)
    | (unfold x; fail_if_success done)
    | intro h

theorem execCaptureRelease_keeps {k s0 a0 s} (h : Keeps k s0 s)
    (hm : Within 0x101000#21 k := by first | assumption | exact Within.trans (by assumption) (by decide)) :
    KeepsO k s0 (execCaptureRelease a0 s) := by
  unfold execCaptureRelease
  repeat' first
    | with_reducible assumption | with_reducible refine runCapture_keeps ?_ (fun _ _ _ => ?_) | with_reducible refine succeed_keeps ?_ | with_reducible refine updCapQ_keeps ?_ (fun _ hc => by first | exact hc | decide) | with_reducible refine Keeps.ite ?_ ?_ | with_reducible refine Keeps.foldl _ _ ?_ _ ?_ | fail_if_no_progress ((with_reducible refine Keeps.mk' ?_ rfl rfl rfl ?_ ?_ ?_ ?_ ?_ ?_ ?_ ?_ ?_ ?_ ?_ ?_ ?_ ?_ ?_ ?_ ?_ ?_ ?_ ?_ ?_) <;> first | exact Or.inl (hm.bit (by decide)) | exact Or.inr rfl | skip) | with_reducible refine KeepsO.next ?_
    | split
    | (extract_lets +onlyGivenNames x; first | (refine Keeps.cut s0 x ?_ fun h => ?_; rotate_left; clear_value x) | skip)
    | (unfold x; fail_if_success done)
    | intro h

theorem runEventCtrl_keeps {k s0 s a1 a2 a3} (h : Keeps k s0 s) (ha : ∀ t c, Keeps k s0 t → Keeps k s0 (a3 t c))
    (hm : Within 0x1000#21 k := by first | assumption | exact Within.trans (by assumption) (by decide)) :
    Keeps k s0 (runEventCtrl s a1 a2 a3) := runCmd_keeps h ha

theorem execEventFreeze_keeps {k s0 a0 s} (h : Keeps k s0 s)
    (hm : Within 0x109000#21 k := by first | assumption | exact Within.trans (by assumption) (by decide)) :
    KeepsO k s0 (execEventFreeze a0 s) := by
  unfold execEventFreeze
  repeat' first
    | with_reducible assumption | with_reducible refine runEventCtrl_keeps ?_ (fun _ _ _ => ?_) | with_reducible refine succeed_keeps ?_ | with_reducible refine Keeps.ite ?_ ?_ | with_reducible refine Keeps.foldl _ _ ?_ _ ?_ | fail_if_no_progress ((with_reducible refine Keeps.mk' ?_ rfl rfl rfl ?_ ?_ ?_ ?_ ?_ ?_ ?_ ?_ ?_ ?_ ?_ ?_ ?_ ?_ ?_ ?_ ?_ ?_ ?_ ?_ ?_) <;> first | exact Or.inl (hm.bit (by decide)) | exact Or.inr rfl | skip) | with_reducible refine KeepsO.next ?_
    | split
    | (extract_lets +onlyGivenNames x; first | (refine Keeps.cut s0 x ?_ fun h => ?_; rotate_left; clear_value x) | skip)
    | (unfold x; fail_if_success done)
    | intro h

theorem execEventThaw_keeps {k s0 a0 s} (h : Keeps k s0 s)
    (hm : Within 0x109000#21 k := by first | assumption | exact Within.trans (by assumption) (by decide)) :
    KeepsO k s0 (execEventThaw a0 s) := by
  unfold execEventThaw
  repeat' first
    | with_reducible assumption | with_reducible refine runEventCtrl_keeps ?_ (fun _ _ _ => ?_) | with_reducible refine succeed_keeps ?_ | with_reducible refine thaw_keeps ?_ | with_reducible refine Keeps.ite ?_ ?_ | with_reducible refine Keeps.foldl _ _ ?_ _ ?_ | fail_if_no_progress ((with_reducible refine Keeps.mk' ?_ rfl rfl rfl ?_ ?_ ?_ ?_ ?_ ?_ ?_ ?_ ?_ ?_ ?_ ?_ ?_ ?_ ?_ ?_ ?_ ?_ ?_ ?_ ?_) <;> first | exact Or.inl (hm.bit (by decide)) | exact Or.inr rfl | skip) | with_reducible refine KeepsO.next ?_
    | split
    | (extract_lets +onlyGivenNames x; first | (refine Keeps.cut s0 x ?_ fun h => ?_; rotate_left; clear_value x) | skip)
    | (unfold x; fail_if_success done)
    | intro h

theorem execEventRate_keeps {k s0 a0 s} (h : Keeps k s0 s)
    (hm : Within 0x101000#21 k := by first | assumption | exact Within.trans (by assumption) (by decide)) :
    KeepsO k s0 (execEventRate a0 s) := by
  unfold execEventRate
  repeat' first
    | with_reducible assumption | with_reducible refine runEventCtrl_keeps ?_ (fun _ _ _ => ?_) | with_reducible refine succeed_keeps ?_ | with_reducible refine updBucket_keeps ?_ | with_reducible refine Keeps.ite ?_ ?_ | with_reducible refine Keeps.foldl _ _ ?_ _ ?_ | fail_if_no_progress ((with_reducible refine Keeps.mk' ?_ rfl rfl rfl ?_ ?_ ?_ ?_ ?_ ?_ ?_ ?_ ?_ ?_ ?_ ?_ ?_ ?_ ?_ ?_ ?_ ?_ ?_ ?_ ?_) <;> first | exact Or.inl (hm.bit (by decide)) | exact Or.inr rfl | skip) | with_reducible refine KeepsO.next ?_
    | split
    | (extract_lets +onlyGivenNames x; first | (refine Keeps.cut s0 x ?_ fun h => ?_; rotate_left; clear_value x) | skip)
    | (unfold x; fail_if_success done)
    | intro h

theorem execThrottle_keeps {k s0 a0 s} (h : Keeps k s0 s)
    (hm : Within 0x3000#21 k := by first | assumption | exact Within.trans (by assumption) (by decide)) :
    KeepsO k s0 (execThrottle a0 s) := by
  unfold execThrottle
  repeat' first
    | with_reducible assumption | with_reducible refine runCmd_keeps ?_ (fun _ _ _ => ?_) | with_reducible refine succeed_keeps ?_ | with_reducible refine updZone_keeps ?_ | with_reducible refine Keeps.ite ?_ ?_ | with_reducible refine Keeps.foldl _ _ ?_ _ ?_ | fail_if_no_progress ((with_reducible refine Keeps.mk' ?_ rfl rfl rfl ?_ ?_ ?_ ?_ ?_ ?_ ?_ ?_ ?_ ?_ ?_ ?_ ?_ ?_ ?_ ?_ ?_ ?_ ?_ ?_ ?_) <;> first | exact Or.inl (hm.bit (by decide)) | exact Or.inr rfl | skip) | with_reducible refine KeepsO.next ?_
    | split
    | (extract_lets +onlyGivenNames x; first | (refine Keeps.cut s0 x ?_ fun h => ?_; rotate_left; clear_value x) | skip)
    | (unfold x; fail_if_success done)
    | intro h

theorem execPowerEnter_keeps {k s0 a0 s} (h : Keeps k s0 s)
    (hm : Within 0x1002#21 k := by first | assumption | exact Within.trans (by assumption) (by decide)) :
    KeepsO k s0 (execPowerEnter a0 s) := by
  unfold execPowerEnter
  repeat' first
    | with_reducible assumption | with_reducible refine runCmd_keeps ?_ (fun _ _ _ => ?_) | with_reducible refine holdCmd_keeps ?_ | with_reducible refine succeed_keeps ?_ | with_reducible refine Keeps.ite ?_ ?_ | with_reducible refine Keeps.foldl _ _ ?_ _ ?_ | fail_if_no_progress ((with_reducible refine Keeps.mk' ?_ rfl rfl rfl ?_ ?_ ?_ ?_ ?_ ?_ ?_ ?_ ?_ ?_ ?_ ?_ ?_ ?_ ?_ ?_ ?_ ?_ ?_ ?_ ?_) <;> first | exact Or.inl (hm.bit (by decide)) | exact Or.inr rfl | skip) | with_reducible refine KeepsO.next ?_
    | split
    | (extract_lets +onlyGivenNames x; first | (refine Keeps.cut s0 x ?_ fun h => ?_; rotate_left; clear_value x) | skip)
    | (unfold x; fail_if_success done)
    | intro h

theorem dropRebuild_keeps {k s0 s a1} (h : Keeps k s0 s)
    (hm : Within 0x100#21 k := by first | assumption | exact Within.trans (by assumption) (by decide)) :
    Keeps k s0 (dropRebuild s a1) := by
  unfold dropRebuild
  repeat' first
    | with_reducible assumption | with_reducible refine updLinkWear_keeps ?_ | with_reducible refine Keeps.ite ?_ ?_ | with_reducible refine Keeps.foldl _ _ ?_ _ ?_ | fail_if_no_progress ((with_reducible refine Keeps.mk' ?_ rfl rfl rfl ?_ ?_ ?_ ?_ ?_ ?_ ?_ ?_ ?_ ?_ ?_ ?_ ?_ ?_ ?_ ?_ ?_ ?_ ?_ ?_ ?_) <;> first | exact Or.inl (hm.bit (by decide)) | exact Or.inr rfl | skip)
    | split
    | (extract_lets +onlyGivenNames x; first | (refine Keeps.cut s0 x ?_ fun h => ?_; rotate_left; clear_value x) | skip)
    | (unfold x; fail_if_success done)
    | intro h

theorem returnOthers_keeps {k s0 s a1} (h : Keeps k s0 s)
    (hm : Within 0x400#21 k := by first | assumption | exact Within.trans (by assumption) (by decide)) :
    Keeps k s0 (returnOthers s a1) := by
  unfold returnOthers
  repeat' first
    | with_reducible assumption | with_reducible refine stripUnits_keeps ?_ | with_reducible refine completeUnit_keeps ?_ | with_reducible refine updLink_keeps ?_ | with_reducible refine Keeps.ite ?_ ?_ | with_reducible refine Keeps.foldl _ _ ?_ _ ?_ | fail_if_no_progress ((with_reducible refine Keeps.mk' ?_ rfl rfl rfl ?_ ?_ ?_ ?_ ?_ ?_ ?_ ?_ ?_ ?_ ?_ ?_ ?_ ?_ ?_ ?_ ?_ ?_ ?_ ?_ ?_) <;> first | exact Or.inl (hm.bit (by decide)) | exact Or.inr rfl | skip)
    | split
    | (extract_lets +onlyGivenNames x; first | (refine Keeps.cut s0 x ?_ fun h => ?_; rotate_left; clear_value x) | skip)
    | (unfold x; fail_if_success done)
    | intro h

theorem drainLink_keeps {k s0 s a1} (h : Keeps k s0 s)
    (hm : Within 0x1894fc#21 k := by first | assumption | exact Within.trans (by assumption) (by decide)) :
    Keeps k s0 (drainLink s a1) := by
  unfold drainLink
  repeat' first
    | with_reducible assumption | with_reducible refine updLink_keeps ?_ | with_reducible refine outOfService_keeps ?_ | with_reducible refine returnOthers_keeps ?_ | with_reducible refine Keeps.ite ?_ ?_ | with_reducible refine Keeps.foldl _ _ ?_ _ ?_ | fail_if_no_progress ((with_reducible refine Keeps.mk' ?_ rfl rfl rfl ?_ ?_ ?_ ?_ ?_ ?_ ?_ ?_ ?_ ?_ ?_ ?_ ?_ ?_ ?_ ?_ ?_ ?_ ?_ ?_ ?_) <;> first | exact Or.inl (hm.bit (by decide)) | exact Or.inr rfl | skip)
    | split
    | (extract_lets +onlyGivenNames x; first | (refine Keeps.cut s0 x ?_ fun h => ?_; rotate_left; clear_value x) | skip)
    | (unfold x; fail_if_success done)
    | intro h

theorem execPrepareRemove_keeps {k s0 a0 s} (h : Keeps k s0 s)
    (hm : Within 0x18b5fc#21 k := by first | assumption | exact Within.trans (by assumption) (by decide)) :
    KeepsO k s0 (execPrepareRemove a0 s) := by
  unfold execPrepareRemove
  repeat' first
    | with_reducible assumption | with_reducible refine runCmd_keeps ?_ (fun _ _ _ => ?_) | with_reducible refine holdCmd_keeps ?_ | with_reducible refine drainLink_keeps ?_ | with_reducible refine dropRebuild_keeps ?_ | with_reducible refine succeed_keeps ?_ | with_reducible refine enterRemovable_keeps ?_ | with_reducible refine Keeps.ite ?_ ?_ | with_reducible refine Keeps.foldl _ _ ?_ _ ?_ | fail_if_no_progress ((with_reducible refine Keeps.mk' ?_ rfl rfl rfl ?_ ?_ ?_ ?_ ?_ ?_ ?_ ?_ ?_ ?_ ?_ ?_ ?_ ?_ ?_ ?_ ?_ ?_ ?_ ?_ ?_) <;> first | exact Or.inl (hm.bit (by decide)) | exact Or.inr rfl | skip) | with_reducible refine KeepsO.next ?_
    | split
    | (extract_lets +onlyGivenNames x; first | (refine Keeps.cut s0 x ?_ fun h => ?_; rotate_left; clear_value x) | skip)
    | (unfold x; fail_if_success done)
    | intro h

theorem execOnline_keeps {k s0 a0 s} (h : Keeps k s0 s)
    (hm : Within 0x1400#21 k := by first | assumption | exact Within.trans (by assumption) (by decide)) :
    KeepsO k s0 (execOnline a0 s) := by
  unfold execOnline
  repeat' first
    | with_reducible assumption | with_reducible refine runCmd_keeps ?_ (fun _ _ _ => ?_) | with_reducible refine updLink_keeps ?_ | with_reducible refine holdCmd_keeps ?_ | with_reducible refine succeed_keeps ?_ | with_reducible refine Keeps.ite ?_ ?_ | with_reducible refine Keeps.foldl _ _ ?_ _ ?_ | fail_if_no_progress ((with_reducible refine Keeps.mk' ?_ rfl rfl rfl ?_ ?_ ?_ ?_ ?_ ?_ ?_ ?_ ?_ ?_ ?_ ?_ ?_ ?_ ?_ ?_ ?_ ?_ ?_ ?_ ?_) <;> first | exact Or.inl (hm.bit (by decide)) | exact Or.inr rfl | skip) | with_reducible refine KeepsO.next ?_
    | split
    | (extract_lets +onlyGivenNames x; first | (refine Keeps.cut s0 x ?_ fun h => ?_; rotate_left; clear_value x) | skip)
    | (unfold x; fail_if_success done)
    | intro h

theorem execAcceptFreshness_keeps {k s0 a0 s} (h : Keeps k s0 s)
    (hm : Within 0x1204#21 k := by first | assumption | exact Within.trans (by assumption) (by decide)) :
    KeepsO k s0 (execAcceptFreshness a0 s) := by
  unfold execAcceptFreshness
  repeat' first
    | with_reducible assumption | with_reducible refine runCmd_keeps ?_ (fun _ _ _ => ?_) | with_reducible refine refreshReady_keeps ?_ | with_reducible refine succeed_keeps ?_ | with_reducible refine Keeps.ite ?_ ?_ | with_reducible refine Keeps.foldl _ _ ?_ _ ?_ | fail_if_no_progress ((with_reducible refine Keeps.mk' ?_ rfl rfl rfl ?_ ?_ ?_ ?_ ?_ ?_ ?_ ?_ ?_ ?_ ?_ ?_ ?_ ?_ ?_ ?_ ?_ ?_ ?_ ?_ ?_) <;> first | exact Or.inl (hm.bit (by decide)) | exact Or.inr rfl | skip) | with_reducible refine KeepsO.next ?_
    | split
    | (extract_lets +onlyGivenNames x; first | (refine Keeps.cut s0 x ?_ fun h => ?_; rotate_left; clear_value x) | skip)
    | (unfold x; fail_if_success done)
    | intro h

theorem execSpareStatus_keeps {k s0 a0 s} (h : Keeps k s0 s)
    (hm : Within 0x101000#21 k := by first | assumption | exact Within.trans (by assumption) (by decide)) :
    KeepsO k s0 (execSpareStatus a0 s) := by
  unfold execSpareStatus
  repeat' first
    | with_reducible assumption | with_reducible refine runCmd_keeps ?_ (fun _ _ _ => ?_) | with_reducible refine succeed_keeps ?_ | with_reducible refine outputData_keeps ?_ | with_reducible refine Keeps.ite ?_ ?_ | with_reducible refine Keeps.foldl _ _ ?_ _ ?_ | fail_if_no_progress ((with_reducible refine Keeps.mk' ?_ rfl rfl rfl ?_ ?_ ?_ ?_ ?_ ?_ ?_ ?_ ?_ ?_ ?_ ?_ ?_ ?_ ?_ ?_ ?_ ?_ ?_ ?_ ?_) <;> first | exact Or.inl (hm.bit (by decide)) | exact Or.inr rfl | skip) | with_reducible refine KeepsO.next ?_
    | split
    | (extract_lets +onlyGivenNames x; first | (refine Keeps.cut s0 x ?_ fun h => ?_; rotate_left; clear_value x) | skip)
    | (unfold x; fail_if_success done)
    | intro h

theorem execCapacitySet_keeps {k s0 a0 s} (h : Keeps k s0 s)
    (hm : Within 0x101104#21 k := by first | assumption | exact Within.trans (by assumption) (by decide)) :
    KeepsO k s0 (execCapacitySet a0 s) := by
  unfold execCapacitySet
  repeat' first
    | with_reducible assumption | with_reducible refine runCmd_keeps ?_ (fun _ _ _ => ?_) | with_reducible refine succeed_keeps ?_ | with_reducible refine keepPut_keeps ?_ | with_reducible refine Keeps.ite ?_ ?_ | with_reducible refine Keeps.foldl _ _ ?_ _ ?_ | fail_if_no_progress ((with_reducible refine Keeps.mk' ?_ rfl rfl rfl ?_ ?_ ?_ ?_ ?_ ?_ ?_ ?_ ?_ ?_ ?_ ?_ ?_ ?_ ?_ ?_ ?_ ?_ ?_ ?_ ?_) <;> first | exact Or.inl (hm.bit (by decide)) | exact Or.inr rfl | skip) | with_reducible refine KeepsO.next ?_
    | split
    | (extract_lets +onlyGivenNames x; first | (refine Keeps.cut s0 x ?_ fun h => ?_; rotate_left; clear_value x) | skip)
    | (unfold x; fail_if_success done)
    | intro h

/-! Erase. -/

theorem saveDomain_keeps {k s0 s a1} (h : Keeps k s0 s)
    (hm : Within 0x100000#21 k := by first | assumption | exact Within.trans (by assumption) (by decide)) :
    Keeps k s0 (saveDomain s a1) := by
  unfold saveDomain
  repeat' first
    | with_reducible assumption | with_reducible refine keepPut_keeps ?_ | with_reducible refine Keeps.ite ?_ ?_ | with_reducible refine Keeps.foldl _ _ ?_ _ ?_ | fail_if_no_progress ((with_reducible refine Keeps.mk' ?_ rfl rfl rfl ?_ ?_ ?_ ?_ ?_ ?_ ?_ ?_ ?_ ?_ ?_ ?_ ?_ ?_ ?_ ?_ ?_ ?_ ?_ ?_ ?_) <;> first | exact Or.inl (hm.bit (by decide)) | exact Or.inr rfl | skip)
    | split
    | (extract_lets +onlyGivenNames x; first | (refine Keeps.cut s0 x ?_ fun h => ?_; rotate_left; clear_value x) | skip)
    | (unfold x; fail_if_success done)
    | intro h

theorem stageKeys_keeps {k s0 s a1 a2} (h : Keeps k s0 s)
    (hm : Within 0x100200#21 k := by first | assumption | exact Within.trans (by assumption) (by decide)) :
    Keeps k s0 (stageKeys s a1 a2) := by
  unfold stageKeys
  repeat' first
    | with_reducible assumption | with_reducible refine updDomain_keeps ?_ | with_reducible refine saveDomain_keeps ?_ | with_reducible refine Keeps.ite ?_ ?_ | with_reducible refine Keeps.foldl _ _ ?_ _ ?_ | fail_if_no_progress ((with_reducible refine Keeps.mk' ?_ rfl rfl rfl ?_ ?_ ?_ ?_ ?_ ?_ ?_ ?_ ?_ ?_ ?_ ?_ ?_ ?_ ?_ ?_ ?_ ?_ ?_ ?_ ?_) <;> first | exact Or.inl (hm.bit (by decide)) | exact Or.inr rfl | skip)
    | split
    | (extract_lets +onlyGivenNames x; first | (refine Keeps.cut s0 x ?_ fun h => ?_; rotate_left; clear_value x) | skip)
    | (unfold x; fail_if_success done)
    | intro h

theorem rekey_keeps {k s0 s a1} (h : Keeps k s0 s)
    (hm : Within 0x100200#21 k := by first | assumption | exact Within.trans (by assumption) (by decide)) :
    Keeps k s0 (rekey s a1) := by
  unfold rekey
  repeat' first
    | with_reducible assumption | with_reducible refine stageKeys_keeps ?_ | with_reducible refine updDomain_keeps ?_ | with_reducible refine saveDomain_keeps ?_ | with_reducible refine Keeps.ite ?_ ?_ | with_reducible refine Keeps.foldl _ _ ?_ _ ?_ | fail_if_no_progress ((with_reducible refine Keeps.mk' ?_ rfl rfl rfl ?_ ?_ ?_ ?_ ?_ ?_ ?_ ?_ ?_ ?_ ?_ ?_ ?_ ?_ ?_ ?_ ?_ ?_ ?_ ?_ ?_) <;> first | exact Or.inl (hm.bit (by decide)) | exact Or.inr rfl | skip)
    | split
    | (extract_lets +onlyGivenNames x; first | (refine Keeps.cut s0 x ?_ fun h => ?_; rotate_left; clear_value x) | skip)
    | (unfold x; fail_if_success done)
    | intro h

theorem installKeys_keeps {k s0 s a1 a2 a3} (h : Keeps k s0 s)
    (hm : Within 0x101204#21 k := by first | assumption | exact Within.trans (by assumption) (by decide)) :
    Keeps k s0 (installKeys s a1 a2 a3) := by
  unfold installKeys
  repeat' first
    | with_reducible assumption | with_reducible refine stageKeys_keeps ?_ | with_reducible refine holdCmd_keeps ?_ | with_reducible refine succeed_keeps ?_ | with_reducible refine refreshReady_keeps ?_ | with_reducible refine rekey_keeps ?_ | with_reducible refine Keeps.ite ?_ ?_ | with_reducible refine Keeps.foldl _ _ ?_ _ ?_ | fail_if_no_progress ((with_reducible refine Keeps.mk' ?_ rfl rfl rfl ?_ ?_ ?_ ?_ ?_ ?_ ?_ ?_ ?_ ?_ ?_ ?_ ?_ ?_ ?_ ?_ ?_ ?_ ?_ ?_ ?_) <;> first | exact Or.inl (hm.bit (by decide)) | exact Or.inr rfl | skip)
    | split
    | (extract_lets +onlyGivenNames x; first | (refine Keeps.cut s0 x ?_ fun h => ?_; rotate_left; clear_value x) | skip)
    | (unfold x; fail_if_success done)
    | intro h

theorem execKeyGenerate_keeps {k s0 a0 s} (h : Keeps k s0 s)
    (hm : Within 0x101204#21 k := by first | assumption | exact Within.trans (by assumption) (by decide)) :
    KeepsO k s0 (execKeyGenerate a0 s) := by
  unfold execKeyGenerate
  repeat' first
    | with_reducible assumption | with_reducible refine runCmd_keeps ?_ (fun _ _ _ => ?_) | with_reducible refine succeed_keeps ?_ | with_reducible refine stageKeys_keeps ?_ | with_reducible refine installKeys_keeps ?_ | with_reducible refine Keeps.ite ?_ ?_ | with_reducible refine Keeps.foldl _ _ ?_ _ ?_ | fail_if_no_progress ((with_reducible refine Keeps.mk' ?_ rfl rfl rfl ?_ ?_ ?_ ?_ ?_ ?_ ?_ ?_ ?_ ?_ ?_ ?_ ?_ ?_ ?_ ?_ ?_ ?_ ?_ ?_ ?_) <;> first | exact Or.inl (hm.bit (by decide)) | exact Or.inr rfl | skip) | with_reducible refine KeepsO.next ?_
    | split
    | (extract_lets +onlyGivenNames x; first | (refine Keeps.cut s0 x ?_ fun h => ?_; rotate_left; clear_value x) | skip)
    | (unfold x; fail_if_success done)
    | intro h

theorem execKeyInstall_keeps {k s0 a0 a1 s} (h : Keeps k s0 s)
    (hm : Within 0x101204#21 k := by first | assumption | exact Within.trans (by assumption) (by decide)) :
    KeepsO k s0 (execKeyInstall a0 a1 s) := by
  unfold execKeyInstall
  repeat' first
    | with_reducible assumption | with_reducible refine runCmd_keeps ?_ (fun _ _ _ => ?_) | with_reducible refine installKeys_keeps ?_ | with_reducible refine finishCmd_keeps ?_ | with_reducible refine Keeps.ite ?_ ?_ | with_reducible refine Keeps.foldl _ _ ?_ _ ?_ | fail_if_no_progress ((with_reducible refine Keeps.mk' ?_ rfl rfl rfl ?_ ?_ ?_ ?_ ?_ ?_ ?_ ?_ ?_ ?_ ?_ ?_ ?_ ?_ ?_ ?_ ?_ ?_ ?_ ?_ ?_) <;> first | exact Or.inl (hm.bit (by decide)) | exact Or.inr rfl | skip) | with_reducible refine KeepsO.next ?_
    | split
    | (extract_lets +onlyGivenNames x; first | (refine Keeps.cut s0 x ?_ fun h => ?_; rotate_left; clear_value x) | skip)
    | (unfold x; fail_if_success done)
    | intro h

theorem execKeyStage_keeps {k s0 a0 a1 s} (h : Keeps k s0 s)
    (hm : Within 0x101200#21 k := by first | assumption | exact Within.trans (by assumption) (by decide)) :
    KeepsO k s0 (execKeyStage a0 a1 s) := by
  unfold execKeyStage
  repeat' first
    | with_reducible assumption | with_reducible refine runCmd_keeps ?_ (fun _ _ _ => ?_) | with_reducible refine succeed_keeps ?_ | with_reducible refine stageKeys_keeps ?_ | with_reducible refine finishCmd_keeps ?_ | with_reducible refine Keeps.ite ?_ ?_ | with_reducible refine Keeps.foldl _ _ ?_ _ ?_ | fail_if_no_progress ((with_reducible refine Keeps.mk' ?_ rfl rfl rfl ?_ ?_ ?_ ?_ ?_ ?_ ?_ ?_ ?_ ?_ ?_ ?_ ?_ ?_ ?_ ?_ ?_ ?_ ?_ ?_ ?_) <;> first | exact Or.inl (hm.bit (by decide)) | exact Or.inr rfl | skip) | with_reducible refine KeepsO.next ?_
    | split
    | (extract_lets +onlyGivenNames x; first | (refine Keeps.cut s0 x ?_ fun h => ?_; rotate_left; clear_value x) | skip)
    | (unfold x; fail_if_success done)
    | intro h

theorem closeWindow_keeps {k s0 s} (h : Keeps k s0 s)
    (hm : Within 0x101200#21 k := by first | assumption | exact Within.trans (by assumption) (by decide)) :
    Keeps k s0 (closeWindow s) := by
  unfold closeWindow
  repeat' first
    | with_reducible assumption | with_reducible refine setLock_keeps ?_ | with_reducible refine Keeps.ite ?_ ?_ | with_reducible refine Keeps.foldl _ _ ?_ _ ?_ | fail_if_no_progress ((with_reducible refine Keeps.mk' ?_ rfl rfl rfl ?_ ?_ ?_ ?_ ?_ ?_ ?_ ?_ ?_ ?_ ?_ ?_ ?_ ?_ ?_ ?_ ?_ ?_ ?_ ?_ ?_) <;> first | exact Or.inl (hm.bit (by decide)) | exact Or.inr rfl | skip)
    | split
    | (extract_lets +onlyGivenNames x; first | (refine Keeps.cut s0 x ?_ fun h => ?_; rotate_left; clear_value x) | skip)
    | (unfold x; fail_if_success done)
    | intro h

theorem execKeyWindowClose_keeps {k s0 a0 s} (h : Keeps k s0 s)
    (hm : Within 0x101200#21 k := by first | assumption | exact Within.trans (by assumption) (by decide)) :
    KeepsO k s0 (execKeyWindowClose a0 s) := by
  unfold execKeyWindowClose
  repeat' first
    | with_reducible assumption | with_reducible refine runCmd_keeps ?_ (fun _ _ _ => ?_) | with_reducible refine succeed_keeps ?_ | with_reducible refine closeWindow_keeps ?_ | with_reducible refine Keeps.ite ?_ ?_ | with_reducible refine Keeps.foldl _ _ ?_ _ ?_ | fail_if_no_progress ((with_reducible refine Keeps.mk' ?_ rfl rfl rfl ?_ ?_ ?_ ?_ ?_ ?_ ?_ ?_ ?_ ?_ ?_ ?_ ?_ ?_ ?_ ?_ ?_ ?_ ?_ ?_ ?_) <;> first | exact Or.inl (hm.bit (by decide)) | exact Or.inr rfl | skip) | with_reducible refine KeepsO.next ?_
    | split
    | (extract_lets +onlyGivenNames x; first | (refine Keeps.cut s0 x ?_ fun h => ?_; rotate_left; clear_value x) | skip)
    | (unfold x; fail_if_success done)
    | intro h

theorem execKeyInfo_keeps {k s0 a0 s} (h : Keeps k s0 s)
    (hm : Within 0x101000#21 k := by first | assumption | exact Within.trans (by assumption) (by decide)) :
    KeepsO k s0 (execKeyInfo a0 s) := by
  unfold execKeyInfo
  repeat' first
    | with_reducible assumption | with_reducible refine runCmd_keeps ?_ (fun _ _ _ => ?_) | with_reducible refine succeed_keeps ?_ | with_reducible refine outputData_keeps ?_ | with_reducible refine Keeps.ite ?_ ?_ | with_reducible refine Keeps.foldl _ _ ?_ _ ?_ | fail_if_no_progress ((with_reducible refine Keeps.mk' ?_ rfl rfl rfl ?_ ?_ ?_ ?_ ?_ ?_ ?_ ?_ ?_ ?_ ?_ ?_ ?_ ?_ ?_ ?_ ?_ ?_ ?_ ?_ ?_) <;> first | exact Or.inl (hm.bit (by decide)) | exact Or.inr rfl | skip) | with_reducible refine KeepsO.next ?_
    | split
    | (extract_lets +onlyGivenNames x; first | (refine Keeps.cut s0 x ?_ fun h => ?_; rotate_left; clear_value x) | skip)
    | (unfold x; fail_if_success done)
    | intro h

theorem releaseHomes_keeps {k s0 s a1} (h : Keeps k s0 s)
    (hm : Within 0x220#21 k := by first | assumption | exact Within.trans (by assumption) (by decide)) :
    Keeps k s0 (releaseHomes s a1) := by
  unfold releaseHomes
  repeat' first
    | with_reducible assumption | with_reducible refine dropStamps_keeps ?_ | with_reducible refine releaseSlot_keeps ?_ | with_reducible refine Keeps.ite ?_ ?_ | with_reducible refine Keeps.foldl _ _ ?_ _ ?_ | fail_if_no_progress ((with_reducible refine Keeps.mk' ?_ rfl rfl rfl ?_ ?_ ?_ ?_ ?_ ?_ ?_ ?_ ?_ ?_ ?_ ?_ ?_ ?_ ?_ ?_ ?_ ?_ ?_ ?_ ?_) <;> first | exact Or.inl (hm.bit (by decide)) | exact Or.inr rfl | skip)
    | split
    | (extract_lets +onlyGivenNames x; first | (refine Keeps.cut s0 x ?_ fun h => ?_; rotate_left; clear_value x) | skip)
    | (unfold x; fail_if_success done)
    | intro h

theorem eraseLeaf_keeps {k s0 a0 s a2} (h : Keeps k s0 s)
    (hm : Within 0x204#21 k := by first | assumption | exact Within.trans (by assumption) (by decide)) :
    Keeps k s0 (eraseLeaf a0 s a2) := by
  unfold eraseLeaf
  repeat' first
    | with_reducible assumption | with_reducible refine setLeafLine_keeps ?_ | with_reducible refine setLeafStamp_keeps ?_ | with_reducible refine Keeps.ite ?_ ?_ | with_reducible refine Keeps.foldl _ _ ?_ _ ?_ | fail_if_no_progress ((with_reducible refine Keeps.mk' ?_ rfl rfl rfl ?_ ?_ ?_ ?_ ?_ ?_ ?_ ?_ ?_ ?_ ?_ ?_ ?_ ?_ ?_ ?_ ?_ ?_ ?_ ?_ ?_) <;> first | exact Or.inl (hm.bit (by decide)) | exact Or.inr rfl | skip)
    | split
    | (extract_lets +onlyGivenNames x; first | (refine Keeps.cut s0 x ?_ fun h => ?_; rotate_left; clear_value x) | skip)
    | (unfold x; fail_if_success done)
    | intro h

theorem eraseReads_keeps {k s0 s a1} (h : Keeps k s0 s)
    (hm : Within 0x10#21 k := by first | assumption | exact Within.trans (by assumption) (by decide)) :
    Keeps k s0 (eraseReads s a1) := by
  unfold eraseReads
  repeat' first
    | with_reducible assumption | with_reducible refine Keeps.ite ?_ ?_ | with_reducible refine Keeps.foldl _ _ ?_ _ ?_ | fail_if_no_progress ((with_reducible refine Keeps.mk' ?_ rfl rfl rfl ?_ ?_ ?_ ?_ ?_ ?_ ?_ ?_ ?_ ?_ ?_ ?_ ?_ ?_ ?_ ?_ ?_ ?_ ?_ ?_ ?_) <;> first | exact Or.inl (hm.bit (by decide)) | exact Or.inr rfl | skip)
    | split
    | (extract_lets +onlyGivenNames x; first | (refine Keeps.cut s0 x ?_ fun h => ?_; rotate_left; clear_value x) | skip)
    | (unfold x; fail_if_success done)
    | intro h

theorem supersede_keeps {k s0 s a1} (h : Keeps k s0 s)
    (hm : Within 0x1000#21 k := by first | assumption | exact Within.trans (by assumption) (by decide)) :
    Keeps k s0 (supersede s a1) := by
  unfold supersede
  repeat' first
    | with_reducible assumption | with_reducible refine finishCmd_keeps ?_ | with_reducible refine Keeps.ite ?_ ?_ | with_reducible refine Keeps.foldl _ _ ?_ _ ?_ | fail_if_no_progress ((with_reducible refine Keeps.mk' ?_ rfl rfl rfl ?_ ?_ ?_ ?_ ?_ ?_ ?_ ?_ ?_ ?_ ?_ ?_ ?_ ?_ ?_ ?_ ?_ ?_ ?_ ?_ ?_) <;> first | exact Or.inl (hm.bit (by decide)) | exact Or.inr rfl | skip)
    | split
    | (extract_lets +onlyGivenNames x; first | (refine Keeps.cut s0 x ?_ fun h => ?_; rotate_left; clear_value x) | skip)
    | (unfold x; fail_if_success done)
    | intro h

theorem forgetPages_keeps {k s0 s a1} (h : Keeps k s0 s)
    (hm : Within 0xa8#21 k := by first | assumption | exact Within.trans (by assumption) (by decide)) :
    Keeps k s0 (forgetPages s a1) := by
  unfold forgetPages
  repeat' first
    | with_reducible assumption | with_reducible refine Keeps.ite ?_ ?_ | with_reducible refine Keeps.foldl _ _ ?_ _ ?_ | fail_if_no_progress ((with_reducible refine Keeps.mk' ?_ rfl rfl rfl ?_ ?_ ?_ ?_ ?_ ?_ ?_ ?_ ?_ ?_ ?_ ?_ ?_ ?_ ?_ ?_ ?_ ?_ ?_ ?_ ?_) <;> first | exact Or.inl (hm.bit (by decide)) | exact Or.inr rfl | skip)
    | split
    | (extract_lets +onlyGivenNames x; first | (refine Keeps.cut s0 x ?_ fun h => ?_; rotate_left; clear_value x) | skip)
    | (unfold x; fail_if_success done)
    | intro h

theorem startErase_keeps {k s0 s a1} (h : Keeps k s0 s)
    (hm : Within 0x1012bf#21 k := by first | assumption | exact Within.trans (by assumption) (by decide)) :
    Keeps k s0 (startErase s a1) := by
  unfold startErase
  repeat' first
    | with_reducible assumption | with_reducible refine supersede_keeps ?_ | with_reducible refine cancelSeal_keeps ?_ | with_reducible refine eraseReads_keeps ?_ | with_reducible refine releaseHomes_keeps ?_ | with_reducible refine forgetPages_keeps ?_ | with_reducible refine eraseLeaf_keeps ?_ | with_reducible refine rekey_keeps ?_ | with_reducible refine refreshReady_keeps ?_ | with_reducible refine Keeps.ite ?_ ?_ | with_reducible refine Keeps.foldl _ _ ?_ _ ?_ | fail_if_no_progress ((with_reducible refine Keeps.mk' ?_ rfl rfl rfl ?_ ?_ ?_ ?_ ?_ ?_ ?_ ?_ ?_ ?_ ?_ ?_ ?_ ?_ ?_ ?_ ?_ ?_ ?_ ?_ ?_) <;> first | exact Or.inl (hm.bit (by decide)) | exact Or.inr rfl | skip)
    | split
    | (extract_lets +onlyGivenNames x; first | (refine Keeps.cut s0 x ?_ fun h => ?_; rotate_left; clear_value x) | skip)
    | (unfold x; fail_if_success done)
    | intro h

theorem execEraseStart_keeps {k s0 a0 s} (h : Keeps k s0 s)
    (hm : Within 0x1012bf#21 k := by first | assumption | exact Within.trans (by assumption) (by decide)) :
    KeepsO k s0 (execEraseStart a0 s) := by
  unfold execEraseStart
  repeat' first
    | with_reducible assumption | with_reducible refine startErase_keeps ?_ | with_reducible refine Keeps.ite ?_ ?_ | with_reducible refine Keeps.foldl _ _ ?_ _ ?_ | fail_if_no_progress ((with_reducible refine Keeps.mk' ?_ rfl rfl rfl ?_ ?_ ?_ ?_ ?_ ?_ ?_ ?_ ?_ ?_ ?_ ?_ ?_ ?_ ?_ ?_ ?_ ?_ ?_ ?_ ?_) <;> first | exact Or.inl (hm.bit (by decide)) | exact Or.inr rfl | skip) | with_reducible refine KeepsO.next ?_
    | split
    | (extract_lets +onlyGivenNames x; first | (refine Keeps.cut s0 x ?_ fun h => ?_; rotate_left; clear_value x) | skip)
    | (unfold x; fail_if_success done)
    | intro h

theorem sanitizeStripe_keeps {k s0 s a1} (h : Keeps k s0 s)
    (hm : Within 0x100364#21 k := by first | assumption | exact Within.trans (by assumption) (by decide)) :
    Keeps k s0 (sanitizeStripe s a1) := by
  unfold sanitizeStripe
  repeat' first
    | with_reducible assumption | with_reducible refine retireStripe_keeps ?_ | with_reducible refine recordStripe_keeps ?_ | with_reducible refine endSweep_keeps ?_ | with_reducible refine updStripe_keeps ?_ | with_reducible refine noteProgram_keeps ?_ | with_reducible refine blanked_keeps ?_ | with_reducible refine Keeps.ite ?_ ?_ | with_reducible refine Keeps.foldl _ _ ?_ _ ?_ | fail_if_no_progress ((with_reducible refine Keeps.mk' ?_ rfl rfl rfl ?_ ?_ ?_ ?_ ?_ ?_ ?_ ?_ ?_ ?_ ?_ ?_ ?_ ?_ ?_ ?_ ?_ ?_ ?_ ?_ ?_) <;> first | exact Or.inl (hm.bit (by decide)) | exact Or.inr rfl | skip)
    | split
    | (extract_lets +onlyGivenNames x; first | (refine Keeps.cut s0 x ?_ fun h => ?_; rotate_left; clear_value x) | skip)
    | (unfold x; fail_if_success done)
    | intro h

theorem clearPlacement_keeps {k s0 s} (h : Keeps k s0 s)
    (hm : Within 0x20#21 k := by first | assumption | exact Within.trans (by assumption) (by decide)) :
    Keeps k s0 (clearPlacement s) := by
  unfold clearPlacement
  repeat' first
    | with_reducible assumption | with_reducible refine Keeps.ite ?_ ?_ | with_reducible refine Keeps.foldl _ _ ?_ _ ?_ | fail_if_no_progress ((with_reducible refine Keeps.mk' ?_ rfl rfl rfl ?_ ?_ ?_ ?_ ?_ ?_ ?_ ?_ ?_ ?_ ?_ ?_ ?_ ?_ ?_ ?_ ?_ ?_ ?_ ?_ ?_) <;> first | exact Or.inl (hm.bit (by decide)) | exact Or.inr rfl | skip)
    | split
    | (extract_lets +onlyGivenNames x; first | (refine Keeps.cut s0 x ?_ fun h => ?_; rotate_left; clear_value x) | skip)
    | (unfold x; fail_if_success done)
    | intro h

theorem eraseBreath_keeps {k s0 s a1} (h : Keeps k s0 s)
    (hm : Within 0x2#21 k := by first | assumption | exact Within.trans (by assumption) (by decide)) :
    Keeps k s0 (eraseBreath s a1) := by
  unfold eraseBreath
  repeat' first
    | with_reducible assumption | with_reducible refine Keeps.ite ?_ ?_ | with_reducible refine Keeps.foldl _ _ ?_ _ ?_ | fail_if_no_progress ((with_reducible refine Keeps.mk' ?_ rfl rfl rfl ?_ ?_ ?_ ?_ ?_ ?_ ?_ ?_ ?_ ?_ ?_ ?_ ?_ ?_ ?_ ?_ ?_ ?_ ?_ ?_ ?_) <;> first | exact Or.inl (hm.bit (by decide)) | exact Or.inr rfl | skip)
    | split
    | (extract_lets +onlyGivenNames x; first | (refine Keeps.cut s0 x ?_ fun h => ?_; rotate_left; clear_value x) | skip)
    | (unfold x; fail_if_success done)
    | intro h

theorem endErase_keeps {k s0 s a1} (h : Keeps k s0 s)
    (hm : Within 0x101a04#21 k := by first | assumption | exact Within.trans (by assumption) (by decide)) :
    Keeps k s0 (endErase s a1) := by
  unfold endErase
  repeat' first
    | with_reducible assumption | with_reducible refine finishId_keeps ?_ | with_reducible refine refreshReady_keeps ?_ | with_reducible refine signalVector_keeps ?_ | with_reducible refine Keeps.ite ?_ ?_ | with_reducible refine Keeps.foldl _ _ ?_ _ ?_ | fail_if_no_progress ((with_reducible refine Keeps.mk' ?_ rfl rfl rfl ?_ ?_ ?_ ?_ ?_ ?_ ?_ ?_ ?_ ?_ ?_ ?_ ?_ ?_ ?_ ?_ ?_ ?_ ?_ ?_ ?_) <;> first | exact Or.inl (hm.bit (by decide)) | exact Or.inr rfl | skip)
    | split
    | (extract_lets +onlyGivenNames x; first | (refine Keeps.cut s0 x ?_ fun h => ?_; rotate_left; clear_value x) | skip)
    | (unfold x; fail_if_success done)
    | intro h

theorem execEraseComplete_keeps {k s0 s} (h : Keeps k s0 s)
    (hm : Within 0x101b66#21 k := by first | assumption | exact Within.trans (by assumption) (by decide)) :
    KeepsO k s0 (execEraseComplete s) := by
  unfold execEraseComplete
  repeat' first
    | with_reducible assumption | with_reducible refine clearPlacement_keeps ?_ | with_reducible refine sanitizeStripe_keeps ?_ | with_reducible refine eraseBreath_keeps ?_ | with_reducible refine endErase_keeps ?_ | with_reducible refine Keeps.ite ?_ ?_ | with_reducible refine Keeps.foldl _ _ ?_ _ ?_ | fail_if_no_progress ((with_reducible refine Keeps.mk' ?_ rfl rfl rfl ?_ ?_ ?_ ?_ ?_ ?_ ?_ ?_ ?_ ?_ ?_ ?_ ?_ ?_ ?_ ?_ ?_ ?_ ?_ ?_ ?_) <;> first | exact Or.inl (hm.bit (by decide)) | exact Or.inr rfl | skip) | with_reducible refine KeepsO.next ?_
    | split
    | (extract_lets +onlyGivenNames x; first | (refine Keeps.cut s0 x ?_ fun h => ?_; rotate_left; clear_value x) | skip)
    | (unfold x; fail_if_success done)
    | intro h

theorem execSecureErase_keeps {k s0 a0 s} (h : Keeps k s0 s)
    (hm : Within 0x1200#21 k := by first | assumption | exact Within.trans (by assumption) (by decide)) :
    KeepsO k s0 (execSecureErase a0 s) := by
  unfold execSecureErase
  repeat' first
    | with_reducible assumption | with_reducible refine runCmd_keeps ?_ (fun _ _ _ => ?_) | with_reducible refine holdCmd_keeps ?_ | with_reducible refine Keeps.ite ?_ ?_ | with_reducible refine Keeps.foldl _ _ ?_ _ ?_ | fail_if_no_progress ((with_reducible refine Keeps.mk' ?_ rfl rfl rfl ?_ ?_ ?_ ?_ ?_ ?_ ?_ ?_ ?_ ?_ ?_ ?_ ?_ ?_ ?_ ?_ ?_ ?_ ?_ ?_ ?_) <;> first | exact Or.inl (hm.bit (by decide)) | exact Or.inr rfl | skip) | with_reducible refine KeepsO.next ?_
    | split
    | (extract_lets +onlyGivenNames x; first | (refine Keeps.cut s0 x ?_ fun h => ?_; rotate_left; clear_value x) | skip)
    | (unfold x; fail_if_success done)
    | intro h

theorem execSanitize_keeps {k s0 a0 s} (h : Keeps k s0 s)
    (hm : Within 0x1200#21 k := by first | assumption | exact Within.trans (by assumption) (by decide)) :
    KeepsO k s0 (execSanitize a0 s) := by
  unfold execSanitize
  repeat' first
    | with_reducible assumption | with_reducible refine runCmd_keeps ?_ (fun _ _ _ => ?_) | with_reducible refine holdCmd_keeps ?_ | with_reducible refine Keeps.ite ?_ ?_ | with_reducible refine Keeps.foldl _ _ ?_ _ ?_ | fail_if_no_progress ((with_reducible refine Keeps.mk' ?_ rfl rfl rfl ?_ ?_ ?_ ?_ ?_ ?_ ?_ ?_ ?_ ?_ ?_ ?_ ?_ ?_ ?_ ?_ ?_ ?_ ?_ ?_ ?_) <;> first | exact Or.inl (hm.bit (by decide)) | exact Or.inr rfl | skip) | with_reducible refine KeepsO.next ?_
    | split
    | (extract_lets +onlyGivenNames x; first | (refine Keeps.cut s0 x ?_ fun h => ?_; rotate_left; clear_value x) | skip)
    | (unfold x; fail_if_success done)
    | intro h

theorem destroySlot_keeps {k s0 s a1} (h : Keeps k s0 s)
    (hm : Within 0x104#21 k := by first | assumption | exact Within.trans (by assumption) (by decide)) :
    Keeps k s0 (destroySlot s a1) := by
  unfold destroySlot
  repeat' first
    | with_reducible assumption | with_reducible refine setMedia_keeps ?_ | with_reducible refine noteProgram_keeps ?_ | with_reducible refine Keeps.ite ?_ ?_ | with_reducible refine Keeps.foldl _ _ ?_ _ ?_ | fail_if_no_progress ((with_reducible refine Keeps.mk' ?_ rfl rfl rfl ?_ ?_ ?_ ?_ ?_ ?_ ?_ ?_ ?_ ?_ ?_ ?_ ?_ ?_ ?_ ?_ ?_ ?_ ?_ ?_ ?_) <;> first | exact Or.inl (hm.bit (by decide)) | exact Or.inr rfl | skip)
    | split
    | (extract_lets +onlyGivenNames x; first | (refine Keeps.cut s0 x ?_ fun h => ?_; rotate_left; clear_value x) | skip)
    | (unfold x; fail_if_success done)
    | intro h

theorem secureHomes_keeps {k s0 s a1} (h : Keeps k s0 s)
    (hm : Within 0x11c#21 k := by first | assumption | exact Within.trans (by assumption) (by decide)) :
    Keeps k s0 (secureHomes s a1) := by
  unfold secureHomes
  repeat' first
    | with_reducible assumption | with_reducible refine wakeReads_keeps ?_ | with_reducible refine setSagLine_keeps ?_ | with_reducible refine destroySlot_keeps ?_ | with_reducible refine Keeps.ite ?_ ?_ | with_reducible refine Keeps.foldl _ _ ?_ _ ?_ | fail_if_no_progress ((with_reducible refine Keeps.mk' ?_ rfl rfl rfl ?_ ?_ ?_ ?_ ?_ ?_ ?_ ?_ ?_ ?_ ?_ ?_ ?_ ?_ ?_ ?_ ?_ ?_ ?_ ?_ ?_) <;> first | exact Or.inl (hm.bit (by decide)) | exact Or.inr rfl | skip)
    | split
    | (extract_lets +onlyGivenNames x; first | (refine Keeps.cut s0 x ?_ fun h => ?_; rotate_left; clear_value x) | skip)
    | (unfold x; fail_if_success done)
    | intro h

theorem secureSwept_keeps {k s0 s a1} (h : Keeps k s0 s)
    (hm : Within 0x3a6#21 k := by first | assumption | exact Within.trans (by assumption) (by decide)) :
    Keeps k s0 (secureSwept s a1) := by
  unfold secureSwept
  repeat' first
    | with_reducible assumption | with_reducible refine destroySlot_keeps ?_ | with_reducible refine eraseBreath_keeps ?_ | with_reducible refine unmapPage_keeps ?_ | with_reducible refine fetchSeg_keeps ?_ | with_reducible refine poisonLeave_keeps ?_ | with_reducible refine Keeps.ite ?_ ?_ | with_reducible refine Keeps.foldl _ _ ?_ _ ?_ | fail_if_no_progress ((with_reducible refine Keeps.mk' ?_ rfl rfl rfl ?_ ?_ ?_ ?_ ?_ ?_ ?_ ?_ ?_ ?_ ?_ ?_ ?_ ?_ ?_ ?_ ?_ ?_ ?_ ?_ ?_) <;> first | exact Or.inl (hm.bit (by decide)) | exact Or.inr rfl | skip)
    | split
    | (extract_lets +onlyGivenNames x; first | (refine Keeps.cut s0 x ?_ fun h => ?_; rotate_left; clear_value x) | skip)
    | (unfold x; fail_if_success done)
    | intro h

theorem secureStep_keeps {k s0 a0 s a2} (h : Keeps k s0 s)
    (hm : Within 0x3be#21 k := by first | assumption | exact Within.trans (by assumption) (by decide)) :
    Keeps k s0 (secureStep a0 s a2) := by
  unfold secureStep
  repeat' first
    | with_reducible assumption | with_reducible refine secureHomes_keeps ?_ | with_reducible refine fetchSeg_keeps ?_ | with_reducible refine secureSwept_keeps ?_ | with_reducible refine Keeps.ite ?_ ?_ | with_reducible refine Keeps.foldl _ _ ?_ _ ?_ | fail_if_no_progress ((with_reducible refine Keeps.mk' ?_ rfl rfl rfl ?_ ?_ ?_ ?_ ?_ ?_ ?_ ?_ ?_ ?_ ?_ ?_ ?_ ?_ ?_ ?_ ?_ ?_ ?_ ?_ ?_) <;> first | exact Or.inl (hm.bit (by decide)) | exact Or.inr rfl | skip)
    | split
    | (extract_lets +onlyGivenNames x; first | (refine Keeps.cut s0 x ?_ fun h => ?_; rotate_left; clear_value x) | skip)
    | (unfold x; fail_if_success done)
    | intro h

theorem execSecureSweep_keeps {k s0 s} (h : Keeps k s0 s)
    (hm : Within 0x3be#21 k := by first | assumption | exact Within.trans (by assumption) (by decide)) :
    KeepsO k s0 (execSecureSweep s) := by
  unfold execSecureSweep
  repeat' first
    | with_reducible assumption | with_reducible refine secureStep_keeps ?_ | with_reducible refine Keeps.ite ?_ ?_ | with_reducible refine Keeps.foldl _ _ ?_ _ ?_ | fail_if_no_progress ((with_reducible refine Keeps.mk' ?_ rfl rfl rfl ?_ ?_ ?_ ?_ ?_ ?_ ?_ ?_ ?_ ?_ ?_ ?_ ?_ ?_ ?_ ?_ ?_ ?_ ?_ ?_ ?_) <;> first | exact Or.inl (hm.bit (by decide)) | exact Or.inr rfl | skip) | with_reducible refine KeepsO.next ?_
    | split
    | (extract_lets +onlyGivenNames x; first | (refine Keeps.cut s0 x ?_ fun h => ?_; rotate_left; clear_value x) | skip)
    | (unfold x; fail_if_success done)
    | intro h

/-! Migrate. -/

theorem saveMigration_keeps {k s0 s a1} (h : Keeps k s0 s)
    (hm : Within 0x100000#21 k := by first | assumption | exact Within.trans (by assumption) (by decide)) :
    Keeps k s0 (saveMigration s a1) := by
  unfold saveMigration
  repeat' first
    | with_reducible assumption | with_reducible refine keepPut_keeps ?_ | with_reducible refine Keeps.ite ?_ ?_ | with_reducible refine Keeps.foldl _ _ ?_ _ ?_ | fail_if_no_progress ((with_reducible refine Keeps.mk' ?_ rfl rfl rfl ?_ ?_ ?_ ?_ ?_ ?_ ?_ ?_ ?_ ?_ ?_ ?_ ?_ ?_ ?_ ?_ ?_ ?_ ?_ ?_ ?_) <;> first | exact Or.inl (hm.bit (by decide)) | exact Or.inr rfl | skip)
    | split
    | (extract_lets +onlyGivenNames x; first | (refine Keeps.cut s0 x ?_ fun h => ?_; rotate_left; clear_value x) | skip)
    | (unfold x; fail_if_success done)
    | intro h

theorem execMigrationRecordDurable_keeps {k s0 a0 s} (h : Keeps k s0 s)
    (hm : Within 0x100004#21 k := by first | assumption | exact Within.trans (by assumption) (by decide)) :
    KeepsO k s0 (execMigrationRecordDurable a0 s) := by
  unfold execMigrationRecordDurable
  repeat' first
    | with_reducible assumption | with_reducible refine saveRegions_keeps ?_ | with_reducible refine saveMigration_keeps ?_ | with_reducible refine updMig_keeps ?_ | with_reducible refine Keeps.ite ?_ ?_ | with_reducible refine Keeps.foldl _ _ ?_ _ ?_ | fail_if_no_progress ((with_reducible refine Keeps.mk' ?_ rfl rfl rfl ?_ ?_ ?_ ?_ ?_ ?_ ?_ ?_ ?_ ?_ ?_ ?_ ?_ ?_ ?_ ?_ ?_ ?_ ?_ ?_ ?_) <;> first | exact Or.inl (hm.bit (by decide)) | exact Or.inr rfl | skip) | with_reducible refine KeepsO.next ?_
    | split
    | (extract_lets +onlyGivenNames x; first | (refine Keeps.cut s0 x ?_ fun h => ?_; rotate_left; clear_value x) | skip)
    | (unfold x; fail_if_success done)
    | intro h

theorem routePage_keeps {k s0 s a1 a2 a3 a4} (h : Keeps k s0 s)
    (hm : Within 0xc#21 k := by first | assumption | exact Within.trans (by assumption) (by decide)) :
    Keeps k s0 (routePage s a1 a2 a3 a4) := by
  unfold routePage
  repeat' first
    | with_reducible assumption | with_reducible refine updMig_keeps ?_ | with_reducible refine takeInternal_keeps ?_ | with_reducible refine setSagLine_keeps ?_ | with_reducible refine Keeps.ite ?_ ?_ | with_reducible refine Keeps.foldl _ _ ?_ _ ?_ | fail_if_no_progress ((with_reducible refine Keeps.mk' ?_ rfl rfl rfl ?_ ?_ ?_ ?_ ?_ ?_ ?_ ?_ ?_ ?_ ?_ ?_ ?_ ?_ ?_ ?_ ?_ ?_ ?_ ?_ ?_) <;> first | exact Or.inl (hm.bit (by decide)) | exact Or.inr rfl | skip)
    | split
    | (extract_lets +onlyGivenNames x; first | (refine Keeps.cut s0 x ?_ fun h => ?_; rotate_left; clear_value x) | skip)
    | (unfold x; fail_if_success done)
    | intro h

theorem preparePage_keeps {k s0 a0 s a2} (h : Keeps k s0 s)
    (hm : Within 0x2ac#21 k := by first | assumption | exact Within.trans (by assumption) (by decide)) :
    Keeps k s0 (preparePage a0 s a2) := by
  unfold preparePage
  repeat' first
    | with_reducible assumption | with_reducible refine dropPage_keeps ?_ | with_reducible refine routePage_keeps ?_ | with_reducible refine updMig_keeps ?_ | with_reducible refine queueRefreshStripe_keeps ?_ | with_reducible refine Keeps.ite ?_ ?_ | with_reducible refine Keeps.foldl _ _ ?_ _ ?_ | fail_if_no_progress ((with_reducible refine Keeps.mk' ?_ rfl rfl rfl ?_ ?_ ?_ ?_ ?_ ?_ ?_ ?_ ?_ ?_ ?_ ?_ ?_ ?_ ?_ ?_ ?_ ?_ ?_ ?_ ?_) <;> first | exact Or.inl (hm.bit (by decide)) | exact Or.inr rfl | skip)
    | split
    | (extract_lets +onlyGivenNames x; first | (refine Keeps.cut s0 x ?_ fun h => ?_; rotate_left; clear_value x) | skip)
    | (unfold x; fail_if_success done)
    | intro h

theorem prepareLeaf_keeps {k s0 s a1 a2} (h : Keeps k s0 s)
    (hm : Within 0x2ac#21 k := by first | assumption | exact Within.trans (by assumption) (by decide)) :
    Keeps k s0 (prepareLeaf s a1 a2) := by
  unfold prepareLeaf
  repeat' first
    | with_reducible assumption | with_reducible refine preparePage_keeps ?_ | with_reducible refine Keeps.ite ?_ ?_ | with_reducible refine Keeps.foldl _ _ ?_ _ ?_ | fail_if_no_progress ((with_reducible refine Keeps.mk' ?_ rfl rfl rfl ?_ ?_ ?_ ?_ ?_ ?_ ?_ ?_ ?_ ?_ ?_ ?_ ?_ ?_ ?_ ?_ ?_ ?_ ?_ ?_ ?_) <;> first | exact Or.inl (hm.bit (by decide)) | exact Or.inr rfl | skip)
    | split
    | (extract_lets +onlyGivenNames x; first | (refine Keeps.cut s0 x ?_ fun h => ?_; rotate_left; clear_value x) | skip)
    | (unfold x; fail_if_success done)
    | intro h

theorem holdLeaf_keeps {k s0 s a1} (h : Keeps k s0 s)
    (hm : Within 0x4#21 k := by first | assumption | exact Within.trans (by assumption) (by decide)) :
    Keeps k s0 (holdLeaf s a1) := by
  unfold holdLeaf
  repeat' first
    | with_reducible assumption | with_reducible refine fetchSeg_keeps ?_ | with_reducible refine setSeg_keeps ?_ | with_reducible refine Keeps.ite ?_ ?_ | with_reducible refine Keeps.foldl _ _ ?_ _ ?_ | fail_if_no_progress ((with_reducible refine Keeps.mk' ?_ rfl rfl rfl ?_ ?_ ?_ ?_ ?_ ?_ ?_ ?_ ?_ ?_ ?_ ?_ ?_ ?_ ?_ ?_ ?_ ?_ ?_ ?_ ?_) <;> first | exact Or.inl (hm.bit (by decide)) | exact Or.inr rfl | skip)
    | split
    | (extract_lets +onlyGivenNames x; first | (refine Keeps.cut s0 x ?_ fun h => ?_; rotate_left; clear_value x) | skip)
    | (unfold x; fail_if_success done)
    | intro h

theorem execLeafConvertStart_keeps {k s0 a0 s} (h : Keeps k s0 s)
    (hm : Within 0x2ac#21 k := by first | assumption | exact Within.trans (by assumption) (by decide)) :
    KeepsO k s0 (execLeafConvertStart a0 s) := by
  unfold execLeafConvertStart
  repeat' first
    | with_reducible assumption | with_reducible refine holdLeaf_keeps ?_ | with_reducible refine prepareLeaf_keeps ?_ | with_reducible refine updMig_keeps ?_ | with_reducible refine Keeps.ite ?_ ?_ | with_reducible refine Keeps.foldl _ _ ?_ _ ?_ | fail_if_no_progress ((with_reducible refine Keeps.mk' ?_ rfl rfl rfl ?_ ?_ ?_ ?_ ?_ ?_ ?_ ?_ ?_ ?_ ?_ ?_ ?_ ?_ ?_ ?_ ?_ ?_ ?_ ?_ ?_) <;> first | exact Or.inl (hm.bit (by decide)) | exact Or.inr rfl | skip) | with_reducible refine KeepsO.next ?_
    | split
    | (extract_lets +onlyGivenNames x; first | (refine Keeps.cut s0 x ?_ fun h => ?_; rotate_left; clear_value x) | skip)
    | (unfold x; fail_if_success done)
    | intro h

theorem switchStamps_keeps {k s0 s a1 a2 a3} (h : Keeps k s0 s)
    (hm : Within 0x204#21 k := by first | assumption | exact Within.trans (by assumption) (by decide)) :
    Keeps k s0 (switchStamps s a1 a2 a3) := by
  unfold switchStamps
  repeat' first
    | with_reducible assumption | with_reducible refine putStamps_keeps ?_ | with_reducible refine dropStamps_keeps ?_ | with_reducible refine Keeps.ite ?_ ?_ | with_reducible refine Keeps.foldl _ _ ?_ _ ?_ | fail_if_no_progress ((with_reducible refine Keeps.mk' ?_ rfl rfl rfl ?_ ?_ ?_ ?_ ?_ ?_ ?_ ?_ ?_ ?_ ?_ ?_ ?_ ?_ ?_ ?_ ?_ ?_ ?_ ?_ ?_) <;> first | exact Or.inl (hm.bit (by decide)) | exact Or.inr rfl | skip)
    | split
    | (extract_lets +onlyGivenNames x; first | (refine Keeps.cut s0 x ?_ fun h => ?_; rotate_left; clear_value x) | skip)
    | (unfold x; fail_if_success done)
    | intro h

theorem switchLines_keeps {k s0 s a1 a2 a3} (h : Keeps k s0 s)
    (hm : Within 0x8#21 k := by first | assumption | exact Within.trans (by assumption) (by decide)) :
    Keeps k s0 (switchLines s a1 a2 a3) := by
  unfold switchLines
  repeat' first
    | with_reducible assumption | with_reducible refine setSagLine_keeps ?_ | with_reducible refine Keeps.ite ?_ ?_ | with_reducible refine Keeps.foldl _ _ ?_ _ ?_ | fail_if_no_progress ((with_reducible refine Keeps.mk' ?_ rfl rfl rfl ?_ ?_ ?_ ?_ ?_ ?_ ?_ ?_ ?_ ?_ ?_ ?_ ?_ ?_ ?_ ?_ ?_ ?_ ?_ ?_ ?_) <;> first | exact Or.inl (hm.bit (by decide)) | exact Or.inr rfl | skip)
    | split
    | (extract_lets +onlyGivenNames x; first | (refine Keeps.cut s0 x ?_ fun h => ?_; rotate_left; clear_value x) | skip)
    | (unfold x; fail_if_success done)
    | intro h

theorem switchPage_keeps {k s0 a0 s a2} (h : Keeps k s0 s)
    (hm : Within 0x2ac#21 k := by first | assumption | exact Within.trans (by assumption) (by decide)) :
    Keeps k s0 (switchPage a0 s a2) := by
  unfold switchPage
  repeat' first
    | with_reducible assumption | with_reducible refine firedPage_keeps ?_ | with_reducible refine switchStamps_keeps ?_ | with_reducible refine updEntry_keeps ?_ | with_reducible refine switchLines_keeps ?_ | with_reducible refine Keeps.ite ?_ ?_ | with_reducible refine Keeps.foldl _ _ ?_ _ ?_ | fail_if_no_progress ((with_reducible refine Keeps.mk' ?_ rfl rfl rfl ?_ ?_ ?_ ?_ ?_ ?_ ?_ ?_ ?_ ?_ ?_ ?_ ?_ ?_ ?_ ?_ ?_ ?_ ?_ ?_ ?_) <;> first | exact Or.inl (hm.bit (by decide)) | exact Or.inr rfl | skip)
    | split
    | (extract_lets +onlyGivenNames x; first | (refine Keeps.cut s0 x ?_ fun h => ?_; rotate_left; clear_value x) | skip)
    | (unfold x; fail_if_success done)
    | intro h

theorem execLeafSwitchBeat_keeps {k s0 a0 a1 s} (h : Keeps k s0 s)
    (hm : Within 0x2ac#21 k := by first | assumption | exact Within.trans (by assumption) (by decide)) :
    KeepsO k s0 (execLeafSwitchBeat a0 a1 s) := by
  unfold execLeafSwitchBeat
  repeat' first
    | with_reducible assumption | with_reducible refine switchPage_keeps ?_ | with_reducible refine updMig_keeps ?_ | with_reducible refine startWriteBack_keeps ?_ | with_reducible refine prepareLeaf_keeps ?_ | with_reducible refine Keeps.ite ?_ ?_ | with_reducible refine Keeps.foldl _ _ ?_ _ ?_ | fail_if_no_progress ((with_reducible refine Keeps.mk' ?_ rfl rfl rfl ?_ ?_ ?_ ?_ ?_ ?_ ?_ ?_ ?_ ?_ ?_ ?_ ?_ ?_ ?_ ?_ ?_ ?_ ?_ ?_ ?_) <;> first | exact Or.inl (hm.bit (by decide)) | exact Or.inr rfl | skip) | with_reducible refine KeepsO.next ?_
    | split
    | (extract_lets +onlyGivenNames x; first | (refine Keeps.cut s0 x ?_ fun h => ?_; rotate_left; clear_value x) | skip)
    | (unfold x; fail_if_success done)
    | intro h

theorem endMigration_keeps {k s0 s a1} (h : Keeps k s0 s)
    (hm : Within 0x101004#21 k := by first | assumption | exact Within.trans (by assumption) (by decide)) :
    Keeps k s0 (endMigration s a1) := by
  unfold endMigration
  repeat' first
    | with_reducible assumption | with_reducible refine updMig_keeps ?_ | with_reducible refine updRegion_keeps ?_ | with_reducible refine raise_keeps ?_ | with_reducible refine saveRegions_keeps ?_ | with_reducible refine saveMigration_keeps ?_ | with_reducible refine finishId_keeps ?_ | with_reducible refine Keeps.ite ?_ ?_ | with_reducible refine Keeps.foldl _ _ ?_ _ ?_ | fail_if_no_progress ((with_reducible refine Keeps.mk' ?_ rfl rfl rfl ?_ ?_ ?_ ?_ ?_ ?_ ?_ ?_ ?_ ?_ ?_ ?_ ?_ ?_ ?_ ?_ ?_ ?_ ?_ ?_ ?_) <;> first | exact Or.inl (hm.bit (by decide)) | exact Or.inr rfl | skip)
    | split
    | (extract_lets +onlyGivenNames x; first | (refine Keeps.cut s0 x ?_ fun h => ?_; rotate_left; clear_value x) | skip)
    | (unfold x; fail_if_success done)
    | intro h

theorem endPass_keeps {k s0 s a1} (h : Keeps k s0 s)
    (hm : Within 0x101004#21 k := by first | assumption | exact Within.trans (by assumption) (by decide)) :
    Keeps k s0 (endPass s a1) := by
  unfold endPass
  repeat' first
    | with_reducible assumption | with_reducible refine updMig_keeps ?_ | with_reducible refine endMigration_keeps ?_ | with_reducible refine Keeps.ite ?_ ?_ | with_reducible refine Keeps.foldl _ _ ?_ _ ?_ | fail_if_no_progress ((with_reducible refine Keeps.mk' ?_ rfl rfl rfl ?_ ?_ ?_ ?_ ?_ ?_ ?_ ?_ ?_ ?_ ?_ ?_ ?_ ?_ ?_ ?_ ?_ ?_ ?_ ?_ ?_) <;> first | exact Or.inl (hm.bit (by decide)) | exact Or.inr rfl | skip)
    | split
    | (extract_lets +onlyGivenNames x; first | (refine Keeps.cut s0 x ?_ fun h => ?_; rotate_left; clear_value x) | skip)
    | (unfold x; fail_if_success done)
    | intro h

theorem execLeafConvertDone_keeps {k s0 a0 a1 s} (h : Keeps k s0 s)
    (hm : Within 0x101004#21 k := by first | assumption | exact Within.trans (by assumption) (by decide)) :
    KeepsO k s0 (execLeafConvertDone a0 a1 s) := by
  unfold execLeafConvertDone
  repeat' first
    | with_reducible assumption | with_reducible refine updMig_keeps ?_ | with_reducible refine setSeg_keeps ?_ | with_reducible refine saveMigration_keeps ?_ | with_reducible refine endPass_keeps ?_ | with_reducible refine Keeps.ite ?_ ?_ | with_reducible refine Keeps.foldl _ _ ?_ _ ?_ | fail_if_no_progress ((with_reducible refine Keeps.mk' ?_ rfl rfl rfl ?_ ?_ ?_ ?_ ?_ ?_ ?_ ?_ ?_ ?_ ?_ ?_ ?_ ?_ ?_ ?_ ?_ ?_ ?_ ?_ ?_) <;> first | exact Or.inl (hm.bit (by decide)) | exact Or.inr rfl | skip) | with_reducible refine KeepsO.next ?_
    | split
    | (extract_lets +onlyGivenNames x; first | (refine Keeps.cut s0 x ?_ fun h => ?_; rotate_left; clear_value x) | skip)
    | (unfold x; fail_if_success done)
    | intro h

theorem prepareStripe_keeps {k s0 s a1 a2} (h : Keeps k s0 s)
    (hm : Within 0x100364#21 k := by first | assumption | exact Within.trans (by assumption) (by decide)) :
    Keeps k s0 (prepareStripe s a1 a2) := by
  unfold prepareStripe
  repeat' first
    | with_reducible assumption | with_reducible refine retireStripe_keeps ?_ | with_reducible refine recordStripe_keeps ?_ | with_reducible refine endSweep_keeps ?_ | with_reducible refine updStripe_keeps ?_ | with_reducible refine noteProgram_keeps ?_ | with_reducible refine blanked_keeps ?_ | with_reducible refine updMig_keeps ?_ | with_reducible refine makeVictim_keeps ?_ | with_reducible refine Keeps.ite ?_ ?_ | with_reducible refine Keeps.foldl _ _ ?_ _ ?_ | fail_if_no_progress ((with_reducible refine Keeps.mk' ?_ rfl rfl rfl ?_ ?_ ?_ ?_ ?_ ?_ ?_ ?_ ?_ ?_ ?_ ?_ ?_ ?_ ?_ ?_ ?_ ?_ ?_ ?_ ?_) <;> first | exact Or.inl (hm.bit (by decide)) | exact Or.inr rfl | skip)
    | split
    | (extract_lets +onlyGivenNames x; first | (refine Keeps.cut s0 x ?_ fun h => ?_; rotate_left; clear_value x) | skip)
    | (unfold x; fail_if_success done)
    | intro h

theorem execBudgetMigrationStripe_keeps {k s0 a0 s} (h : Keeps k s0 s)
    (hm : Within 0x101364#21 k := by first | assumption | exact Within.trans (by assumption) (by decide)) :
    KeepsO k s0 (execBudgetMigrationStripe a0 s) := by
  unfold execBudgetMigrationStripe
  repeat' first
    | with_reducible assumption | with_reducible refine prepareStripe_keeps ?_ | with_reducible refine endMigration_keeps ?_ | with_reducible refine Keeps.ite ?_ ?_ | with_reducible refine Keeps.foldl _ _ ?_ _ ?_ | fail_if_no_progress ((with_reducible refine Keeps.mk' ?_ rfl rfl rfl ?_ ?_ ?_ ?_ ?_ ?_ ?_ ?_ ?_ ?_ ?_ ?_ ?_ ?_ ?_ ?_ ?_ ?_ ?_ ?_ ?_) <;> first | exact Or.inl (hm.bit (by decide)) | exact Or.inr rfl | skip) | with_reducible refine KeepsO.next ?_
    | split
    | (extract_lets +onlyGivenNames x; first | (refine Keeps.cut s0 x ?_ fun h => ?_; rotate_left; clear_value x) | skip)
    | (unfold x; fail_if_success done)
    | intro h

end Sys2Proof
end

