-- ==== Sys2Proof/Laws/KeepsWhole.lean ====
section
/-! SUPPORT. Every operation of power, the consort, the host link, the mailbox, the registers, resets, startup, the wake from Deep sleep and the beat keeps what `Keeps` says, under the mask of the parts it may change. -/
namespace Sys2Proof
set_option Elab.async false
set_option linter.unreachableTactic false
set_option linter.unusedTactic false
open Machine Safety

/-! Power. -/

theorem wakeFromSleep_keeps {k s0 s a1} (h : Keeps k s0 s)
    (hm : Within 0x199cfe#21 k := by first | assumption | exact Within.trans (by assumption) (by decide)) :
    Keeps k s0 (wakeFromSleep s a1) := by
  unfold wakeFromSleep
  repeat' first
    | with_reducible assumption | with_reducible refine catchUp_keeps ?_ | with_reducible refine resumeLinks_keeps ?_ | with_reducible refine sendFrame_keeps ?_ | with_reducible refine Keeps.ite ?_ ?_ | with_reducible refine Keeps.foldl _ _ ?_ _ ?_ | fail_if_no_progress ((with_reducible refine Keeps.mk' ?_ rfl rfl rfl ?_ ?_ ?_ ?_ ?_ ?_ ?_ ?_ ?_ ?_ ?_ ?_ ?_ ?_ ?_ ?_ ?_ ?_ ?_ ?_ ?_) <;> first | exact Or.inl (hm.bit (by decide)) | exact Or.inr rfl | skip)
    | split
    | (extract_lets +onlyGivenNames x; first | (refine Keeps.cut s0 x ?_ fun h => ?_; rotate_left; clear_value x) | skip)
    | (unfold x; fail_if_success done)
    | intro h

theorem abortEntry_keeps {k s0 s} (h : Keeps k s0 s)
    (hm : Within 0x18002#21 k := by first | assumption | exact Within.trans (by assumption) (by decide)) :
    Keeps k s0 (abortEntry s) := by
  unfold abortEntry
  repeat' first
    | with_reducible assumption | with_reducible refine Keeps.ite ?_ ?_ | with_reducible refine Keeps.foldl _ _ ?_ _ ?_ | fail_if_no_progress ((with_reducible refine Keeps.mk' ?_ rfl rfl rfl ?_ ?_ ?_ ?_ ?_ ?_ ?_ ?_ ?_ ?_ ?_ ?_ ?_ ?_ ?_ ?_ ?_ ?_ ?_ ?_ ?_) <;> first | exact Or.inl (hm.bit (by decide)) | exact Or.inr rfl | skip)
    | split
    | (extract_lets +onlyGivenNames x; first | (refine Keeps.cut s0 x ?_ fun h => ?_; rotate_left; clear_value x) | skip)
    | (unfold x; fail_if_success done)
    | intro h

theorem wakeNow_keeps {k s0 s a1} (h : Keeps k s0 s)
    (hm : Within 0x199cfe#21 k := by first | assumption | exact Within.trans (by assumption) (by decide)) :
    Keeps k s0 (wakeNow s a1) := by
  unfold wakeNow
  repeat' first
    | with_reducible assumption | with_reducible refine wakeFromSleep_keeps ?_ | with_reducible refine abortEntry_keeps ?_ | with_reducible refine Keeps.ite ?_ ?_ | with_reducible refine Keeps.foldl _ _ ?_ _ ?_ | fail_if_no_progress ((with_reducible refine Keeps.mk' ?_ rfl rfl rfl ?_ ?_ ?_ ?_ ?_ ?_ ?_ ?_ ?_ ?_ ?_ ?_ ?_ ?_ ?_ ?_ ?_ ?_ ?_ ?_ ?_) <;> first | exact Or.inl (hm.bit (by decide)) | exact Or.inr rfl | skip)
    | split
    | (extract_lets +onlyGivenNames x; first | (refine Keeps.cut s0 x ?_ fun h => ?_; rotate_left; clear_value x) | skip)
    | (unfold x; fail_if_success done)
    | intro h

theorem execSleepWake_keeps {k s0 a0 s} (h : Keeps k s0 s)
    (hm : Within 0x199cfe#21 k := by first | assumption | exact Within.trans (by assumption) (by decide)) :
    KeepsO k s0 (execSleepWake a0 s) := by
  unfold execSleepWake
  repeat' first
    | with_reducible assumption | with_reducible refine wakeNow_keeps ?_ | with_reducible refine Keeps.ite ?_ ?_ | with_reducible refine Keeps.foldl _ _ ?_ _ ?_ | fail_if_no_progress ((with_reducible refine Keeps.mk' ?_ rfl rfl rfl ?_ ?_ ?_ ?_ ?_ ?_ ?_ ?_ ?_ ?_ ?_ ?_ ?_ ?_ ?_ ?_ ?_ ?_ ?_ ?_ ?_) <;> first | exact Or.inl (hm.bit (by decide)) | exact Or.inr rfl | skip) | with_reducible refine KeepsO.next ?_
    | split
    | (extract_lets +onlyGivenNames x; first | (refine Keeps.cut s0 x ?_ fun h => ?_; rotate_left; clear_value x) | skip)
    | (unfold x; fail_if_success done)
    | intro h

theorem execWakeAssert_keeps {k s0 a0 s} (h : Keeps k s0 s)
    (hm : Within 0x199cff#21 k := by first | assumption | exact Within.trans (by assumption) (by decide)) :
    KeepsO k s0 (execWakeAssert a0 s) := by
  unfold execWakeAssert
  repeat' first
    | with_reducible assumption | with_reducible refine wakeNow_keeps ?_ | with_reducible refine Keeps.ite ?_ ?_ | with_reducible refine Keeps.foldl _ _ ?_ _ ?_ | fail_if_no_progress ((with_reducible refine Keeps.mk' ?_ rfl rfl rfl ?_ ?_ ?_ ?_ ?_ ?_ ?_ ?_ ?_ ?_ ?_ ?_ ?_ ?_ ?_ ?_ ?_ ?_ ?_ ?_ ?_) <;> first | exact Or.inl (hm.bit (by decide)) | exact Or.inr rfl | skip) | with_reducible refine KeepsO.next ?_
    | split
    | (extract_lets +onlyGivenNames x; first | (refine Keeps.cut s0 x ?_ fun h => ?_; rotate_left; clear_value x) | skip)
    | (unfold x; fail_if_success done)
    | intro h

theorem execIdleEntry_keeps {k s0 s} (h : Keeps k s0 s)
    (hm : Within 0x2#21 k := by first | assumption | exact Within.trans (by assumption) (by decide)) :
    KeepsO k s0 (execIdleEntry s) := by
  unfold execIdleEntry
  repeat' first
    | with_reducible assumption | with_reducible refine Keeps.ite ?_ ?_ | with_reducible refine Keeps.foldl _ _ ?_ _ ?_ | fail_if_no_progress ((with_reducible refine Keeps.mk' ?_ rfl rfl rfl ?_ ?_ ?_ ?_ ?_ ?_ ?_ ?_ ?_ ?_ ?_ ?_ ?_ ?_ ?_ ?_ ?_ ?_ ?_ ?_ ?_) <;> first | exact Or.inl (hm.bit (by decide)) | exact Or.inr rfl | skip) | with_reducible refine KeepsO.next ?_
    | split
    | (extract_lets +onlyGivenNames x; first | (refine Keeps.cut s0 x ?_ fun h => ?_; rotate_left; clear_value x) | skip)
    | (unfold x; fail_if_success done)
    | intro h

theorem execSleepEntry_keeps {k s0 s} (h : Keeps k s0 s)
    (hm : Within 0x802#21 k := by first | assumption | exact Within.trans (by assumption) (by decide)) :
    KeepsO k s0 (execSleepEntry s) := by
  unfold execSleepEntry
  repeat' first
    | with_reducible assumption | with_reducible refine Keeps.ite ?_ ?_ | with_reducible refine Keeps.foldl _ _ ?_ _ ?_ | fail_if_no_progress ((with_reducible refine Keeps.mk' ?_ rfl rfl rfl ?_ ?_ ?_ ?_ ?_ ?_ ?_ ?_ ?_ ?_ ?_ ?_ ?_ ?_ ?_ ?_ ?_ ?_ ?_ ?_ ?_) <;> first | exact Or.inl (hm.bit (by decide)) | exact Or.inr rfl | skip) | with_reducible refine KeepsO.next ?_
    | split
    | (extract_lets +onlyGivenNames x; first | (refine Keeps.cut s0 x ?_ fun h => ?_; rotate_left; clear_value x) | skip)
    | (unfold x; fail_if_success done)
    | intro h

theorem closeOpens_keeps {k s0 s} (h : Keeps k s0 s)
    (hm : Within 0x20#21 k := by first | assumption | exact Within.trans (by assumption) (by decide)) :
    Keeps k s0 (closeOpens s) := by
  unfold closeOpens
  repeat' first
    | with_reducible assumption | with_reducible refine beginClose_keeps ?_ | with_reducible refine Keeps.ite ?_ ?_ | with_reducible refine Keeps.foldl _ _ ?_ _ ?_ | fail_if_no_progress ((with_reducible refine Keeps.mk' ?_ rfl rfl rfl ?_ ?_ ?_ ?_ ?_ ?_ ?_ ?_ ?_ ?_ ?_ ?_ ?_ ?_ ?_ ?_ ?_ ?_ ?_ ?_ ?_) <;> first | exact Or.inl (hm.bit (by decide)) | exact Or.inr rfl | skip)
    | split
    | (extract_lets +onlyGivenNames x; first | (refine Keeps.cut s0 x ?_ fun h => ?_; rotate_left; clear_value x) | skip)
    | (unfold x; fail_if_success done)
    | intro h

theorem powerGated_keeps {k s0 s} (h : Keeps k s0 s)
    (hm : Within 0x11be0f#21 k := by first | assumption | exact Within.trans (by assumption) (by decide)) : Keeps k s0 (powerGated s) := by
  refine ⟨h.1, fun hi => ⟨rfl, ?_, (h.2 hi).zones⟩, h.frame⟩
  have key : ∀ (l : List Nat) (g : Nat → CapQ → CapQ) (t : Tab CapQ), (∀ q c, (g q c).count = c.count) →
      (∀ x ∈ t, x.2.count < 8190) → ∀ x ∈ l.foldl (fun t q => tupd {} t q (g q)) t, x.2.count < 8190 := by
    intro l g t hg
    induction l generalizing t with
    | nil => exact fun ht => ht
    | cons q l ih =>
      intro ht
      refine ih _ fun x hx => ?_
      rcases tset_mem _ _ _ _ x hx with rfl | hx
      · show (g q _).count < 8190
        rw [hg]
        exact tget_all (fun c : CapQ => c.count < 8190) _ _ (by decide) ht q
      · exact ht x hx
  exact key (List.range 8) (fun q c => { c with lostBefore := c.lostBefore + unreleased s q }) s.ev.queues (fun _ _ => rfl)
    (h.2 hi).packets

theorem execDeepSleepEntry_keeps {k s0 s} (h : Keeps k s0 s)
    (hm : Within 0x19beff#21 k := by first | assumption | exact Within.trans (by assumption) (by decide)) :
    KeepsO k s0 (execDeepSleepEntry s) := by
  unfold execDeepSleepEntry
  repeat' first
    | with_reducible assumption | with_reducible refine resumeLinks_keeps ?_ | with_reducible refine abortEntry_keeps ?_ | with_reducible refine powerGated_keeps ?_ | with_reducible refine keepPut_keeps ?_ | with_reducible refine saveDrift_keeps ?_ | with_reducible refine closeOpens_keeps ?_ | with_reducible refine Keeps.ite ?_ ?_ | with_reducible refine Keeps.foldl _ _ ?_ _ ?_ | fail_if_no_progress ((with_reducible refine Keeps.mk' ?_ rfl rfl rfl ?_ ?_ ?_ ?_ ?_ ?_ ?_ ?_ ?_ ?_ ?_ ?_ ?_ ?_ ?_ ?_ ?_ ?_ ?_ ?_ ?_) <;> first | exact Or.inl (hm.bit (by decide)) | exact Or.inr rfl | skip) | with_reducible refine KeepsO.next ?_
    | split
    | (extract_lets +onlyGivenNames x; first | (refine Keeps.cut s0 x ?_ fun h => ?_; rotate_left; clear_value x) | skip)
    | (unfold x; fail_if_success done)
    | intro h

theorem cutBreath_keeps {k s0 s} (h : Keeps k s0 s)
    (hm : Within 0x2#21 k := by first | assumption | exact Within.trans (by assumption) (by decide)) :
    Keeps k s0 (cutBreath s) := by
  unfold cutBreath
  repeat' first
    | with_reducible assumption | with_reducible refine Keeps.ite ?_ ?_ | with_reducible refine Keeps.foldl _ _ ?_ _ ?_ | fail_if_no_progress ((with_reducible refine Keeps.mk' ?_ rfl rfl rfl ?_ ?_ ?_ ?_ ?_ ?_ ?_ ?_ ?_ ?_ ?_ ?_ ?_ ?_ ?_ ?_ ?_ ?_ ?_ ?_ ?_) <;> first | exact Or.inl (hm.bit (by decide)) | exact Or.inr rfl | skip)
    | split
    | (extract_lets +onlyGivenNames x; first | (refine Keeps.cut s0 x ?_ fun h => ?_; rotate_left; clear_value x) | skip)
    | (unfold x; fail_if_success done)
    | intro h

theorem execOffEntry_keeps {k s0 s} (h : Keeps k s0 s)
    (hm : Within 0x2#21 k := by first | assumption | exact Within.trans (by assumption) (by decide)) :
    KeepsO k s0 (execOffEntry s) := by
  unfold execOffEntry
  repeat' first
    | with_reducible assumption | with_reducible refine cutBreath_keeps ?_ | with_reducible refine Keeps.ite ?_ ?_ | with_reducible refine Keeps.foldl _ _ ?_ _ ?_ | fail_if_no_progress ((with_reducible refine Keeps.mk' ?_ rfl rfl rfl ?_ ?_ ?_ ?_ ?_ ?_ ?_ ?_ ?_ ?_ ?_ ?_ ?_ ?_ ?_ ?_ ?_ ?_ ?_ ?_ ?_) <;> first | exact Or.inl (hm.bit (by decide)) | exact Or.inr rfl | skip) | with_reducible refine KeepsO.next ?_
    | split
    | (extract_lets +onlyGivenNames x; first | (refine Keeps.cut s0 x ?_ fun h => ?_; rotate_left; clear_value x) | skip)
    | (unfold x; fail_if_success done)
    | intro h

theorem execAonSupplyDip_keeps {k s0 a0 s} (h : Keeps k s0 s)
    (hm : Within 0x2#21 k := by first | assumption | exact Within.trans (by assumption) (by decide)) :
    KeepsO k s0 (execAonSupplyDip a0 s) := by
  unfold execAonSupplyDip
  repeat' first
    | with_reducible assumption | with_reducible refine Keeps.ite ?_ ?_ | with_reducible refine Keeps.foldl _ _ ?_ _ ?_ | fail_if_no_progress ((with_reducible refine Keeps.mk' ?_ rfl rfl rfl ?_ ?_ ?_ ?_ ?_ ?_ ?_ ?_ ?_ ?_ ?_ ?_ ?_ ?_ ?_ ?_ ?_ ?_ ?_ ?_ ?_) <;> first | exact Or.inl (hm.bit (by decide)) | exact Or.inr rfl | skip) | with_reducible refine KeepsO.next ?_
    | split
    | (extract_lets +onlyGivenNames x; first | (refine Keeps.cut s0 x ?_ fun h => ?_; rotate_left; clear_value x) | skip)
    | (unfold x; fail_if_success done)
    | intro h

theorem execBackupSupplyLow_keeps {k s0 a0 s} (h : Keeps k s0 s)
    (hm : Within 0x80001#21 k := by first | assumption | exact Within.trans (by assumption) (by decide)) :
    KeepsO k s0 (execBackupSupplyLow a0 s) := by
  unfold execBackupSupplyLow
  repeat' first
    | with_reducible assumption | with_reducible refine draw_keeps ?_ | with_reducible refine Keeps.ite ?_ ?_ | with_reducible refine Keeps.foldl _ _ ?_ _ ?_ | fail_if_no_progress ((with_reducible refine Keeps.mk' ?_ rfl rfl rfl ?_ ?_ ?_ ?_ ?_ ?_ ?_ ?_ ?_ ?_ ?_ ?_ ?_ ?_ ?_ ?_ ?_ ?_ ?_ ?_ ?_) <;> first | exact Or.inl (hm.bit (by decide)) | exact Or.inr rfl | skip) | with_reducible refine KeepsO.next ?_
    | split
    | (extract_lets +onlyGivenNames x; first | (refine Keeps.cut s0 x ?_ fun h => ?_; rotate_left; clear_value x) | skip)
    | (unfold x; fail_if_success done)
    | intro h
    | with_reducible refine KeepsR.elim ?_ (by assumption) | with_reducible refine KeepsL.elim ?_ (by assumption) | with_reducible refine KeepsOS.elim ?_ (by assumption) | with_reducible refine KeepsOR.elim ?_ (by assumption) | with_reducible refine KeepsOR3.elim ?_ (by assumption) | with_reducible refine KeepsL.proj ?_ | with_reducible refine KeepsR.proj ?_

theorem execOscillatorStop_keeps {k s0 a0 s} (h : Keeps k s0 s)
    (hm : Within 0x1#21 k := by first | assumption | exact Within.trans (by assumption) (by decide)) :
    KeepsO k s0 (execOscillatorStop a0 s) := by
  unfold execOscillatorStop
  repeat' first
    | with_reducible assumption | with_reducible refine Keeps.ite ?_ ?_ | with_reducible refine Keeps.foldl _ _ ?_ _ ?_ | fail_if_no_progress ((with_reducible refine Keeps.mk' ?_ rfl rfl rfl ?_ ?_ ?_ ?_ ?_ ?_ ?_ ?_ ?_ ?_ ?_ ?_ ?_ ?_ ?_ ?_ ?_ ?_ ?_ ?_ ?_) <;> first | exact Or.inl (hm.bit (by decide)) | exact Or.inr rfl | skip) | with_reducible refine KeepsO.next ?_
    | split
    | (extract_lets +onlyGivenNames x; first | (refine Keeps.cut s0 x ?_ fun h => ?_; rotate_left; clear_value x) | skip)
    | (unfold x; fail_if_success done)
    | intro h

theorem execCrystalStop_keeps {k s0 s} (h : Keeps k s0 s)
    (hm : Within 0x100001#21 k := by first | assumption | exact Within.trans (by assumption) (by decide)) :
    KeepsO k s0 (execCrystalStop s) := by
  unfold execCrystalStop
  repeat' first
    | with_reducible assumption | with_reducible refine raise_keeps ?_ | with_reducible refine Keeps.ite ?_ ?_ | with_reducible refine Keeps.foldl _ _ ?_ _ ?_ | fail_if_no_progress ((with_reducible refine Keeps.mk' ?_ rfl rfl rfl ?_ ?_ ?_ ?_ ?_ ?_ ?_ ?_ ?_ ?_ ?_ ?_ ?_ ?_ ?_ ?_ ?_ ?_ ?_ ?_ ?_) <;> first | exact Or.inl (hm.bit (by decide)) | exact Or.inr rfl | skip) | with_reducible refine KeepsO.next ?_
    | split
    | (extract_lets +onlyGivenNames x; first | (refine Keeps.cut s0 x ?_ fun h => ?_; rotate_left; clear_value x) | skip)
    | (unfold x; fail_if_success done)
    | intro h

theorem execCrystalResume_keeps {k s0 a0 s} (h : Keeps k s0 s)
    (hm : Within 0x1#21 k := by first | assumption | exact Within.trans (by assumption) (by decide)) :
    KeepsO k s0 (execCrystalResume a0 s) := by
  unfold execCrystalResume
  repeat' first
    | with_reducible assumption | with_reducible refine Keeps.ite ?_ ?_ | with_reducible refine Keeps.foldl _ _ ?_ _ ?_ | fail_if_no_progress ((with_reducible refine Keeps.mk' ?_ rfl rfl rfl ?_ ?_ ?_ ?_ ?_ ?_ ?_ ?_ ?_ ?_ ?_ ?_ ?_ ?_ ?_ ?_ ?_ ?_ ?_ ?_ ?_) <;> first | exact Or.inl (hm.bit (by decide)) | exact Or.inr rfl | skip) | with_reducible refine KeepsO.next ?_
    | split
    | (extract_lets +onlyGivenNames x; first | (refine Keeps.cut s0 x ?_ fun h => ?_; rotate_left; clear_value x) | skip)
    | (unfold x; fail_if_success done)
    | intro h

theorem execCalendarTick_keeps {k s0 s} (h : Keeps k s0 s)
    (hm : Within 0x1#21 k := by first | assumption | exact Within.trans (by assumption) (by decide)) :
    KeepsO k s0 (execCalendarTick s) := by
  unfold execCalendarTick
  repeat' first
    | with_reducible assumption | with_reducible refine Keeps.ite ?_ ?_ | with_reducible refine Keeps.foldl _ _ ?_ _ ?_ | fail_if_no_progress ((with_reducible refine Keeps.mk' ?_ rfl rfl rfl ?_ ?_ ?_ ?_ ?_ ?_ ?_ ?_ ?_ ?_ ?_ ?_ ?_ ?_ ?_ ?_ ?_ ?_ ?_ ?_ ?_) <;> first | exact Or.inl (hm.bit (by decide)) | exact Or.inr rfl | skip) | with_reducible refine KeepsO.next ?_
    | split
    | (extract_lets +onlyGivenNames x; first | (refine Keeps.cut s0 x ?_ fun h => ?_; rotate_left; clear_value x) | skip)
    | (unfold x; fail_if_success done)
    | intro h

theorem execTrimApply_keeps {k s0 s} (h : Keeps k s0 s)
    (hm : Within 0x1#21 k := by first | assumption | exact Within.trans (by assumption) (by decide)) :
    KeepsO k s0 (execTrimApply s) := by
  unfold execTrimApply
  repeat' first
    | with_reducible assumption | with_reducible refine Keeps.ite ?_ ?_ | with_reducible refine Keeps.foldl _ _ ?_ _ ?_ | fail_if_no_progress ((with_reducible refine Keeps.mk' ?_ rfl rfl rfl ?_ ?_ ?_ ?_ ?_ ?_ ?_ ?_ ?_ ?_ ?_ ?_ ?_ ?_ ?_ ?_ ?_ ?_ ?_ ?_ ?_) <;> first | exact Or.inl (hm.bit (by decide)) | exact Or.inr rfl | skip) | with_reducible refine KeepsO.next ?_
    | split
    | (extract_lets +onlyGivenNames x; first | (refine Keeps.cut s0 x ?_ fun h => ?_; rotate_left; clear_value x) | skip)
    | (unfold x; fail_if_success done)
    | intro h

theorem setRefs_keeps {k s0 s a1 a2} (h : Keeps k s0 s)
    (hm : Within 0x1#21 k := by first | assumption | exact Within.trans (by assumption) (by decide)) :
    Keeps k s0 (setRefs s a1 a2) := by
  unfold setRefs
  repeat' first
    | with_reducible assumption | with_reducible refine Keeps.ite ?_ ?_ | with_reducible refine Keeps.foldl _ _ ?_ _ ?_ | fail_if_no_progress ((with_reducible refine Keeps.mk' ?_ rfl rfl rfl ?_ ?_ ?_ ?_ ?_ ?_ ?_ ?_ ?_ ?_ ?_ ?_ ?_ ?_ ?_ ?_ ?_ ?_ ?_ ?_ ?_) <;> first | exact Or.inl (hm.bit (by decide)) | exact Or.inr rfl | skip)
    | split
    | (extract_lets +onlyGivenNames x; first | (refine Keeps.cut s0 x ?_ fun h => ?_; rotate_left; clear_value x) | skip)
    | (unfold x; fail_if_success done)
    | intro h

theorem execReferenceFailure_keeps {k s0 a0 s} (h : Keeps k s0 s)
    (hm : Within 0x100001#21 k := by first | assumption | exact Within.trans (by assumption) (by decide)) :
    KeepsO k s0 (execReferenceFailure a0 s) := by
  unfold execReferenceFailure
  repeat' first
    | with_reducible assumption | with_reducible refine setRefs_keeps ?_ | with_reducible refine raise_keeps ?_ | with_reducible refine Keeps.ite ?_ ?_ | with_reducible refine Keeps.foldl _ _ ?_ _ ?_ | fail_if_no_progress ((with_reducible refine Keeps.mk' ?_ rfl rfl rfl ?_ ?_ ?_ ?_ ?_ ?_ ?_ ?_ ?_ ?_ ?_ ?_ ?_ ?_ ?_ ?_ ?_ ?_ ?_ ?_ ?_) <;> first | exact Or.inl (hm.bit (by decide)) | exact Or.inr rfl | skip) | with_reducible refine KeepsO.next ?_
    | split
    | (extract_lets +onlyGivenNames x; first | (refine Keeps.cut s0 x ?_ fun h => ?_; rotate_left; clear_value x) | skip)
    | (unfold x; fail_if_success done)
    | intro h

theorem execReferenceReturn_keeps {k s0 a0 s} (h : Keeps k s0 s)
    (hm : Within 0x1#21 k := by first | assumption | exact Within.trans (by assumption) (by decide)) :
    KeepsO k s0 (execReferenceReturn a0 s) := by
  unfold execReferenceReturn
  repeat' first
    | with_reducible assumption | with_reducible refine setRefs_keeps ?_ | with_reducible refine Keeps.ite ?_ ?_ | with_reducible refine Keeps.foldl _ _ ?_ _ ?_ | fail_if_no_progress ((with_reducible refine Keeps.mk' ?_ rfl rfl rfl ?_ ?_ ?_ ?_ ?_ ?_ ?_ ?_ ?_ ?_ ?_ ?_ ?_ ?_ ?_ ?_ ?_ ?_ ?_ ?_ ?_) <;> first | exact Or.inl (hm.bit (by decide)) | exact Or.inr rfl | skip) | with_reducible refine KeepsO.next ?_
    | split
    | (extract_lets +onlyGivenNames x; first | (refine Keeps.cut s0 x ?_ fun h => ?_; rotate_left; clear_value x) | skip)
    | (unfold x; fail_if_success done)
    | intro h

/-! Consort. -/

theorem semaTake_keeps {k s0 s a1 a2} (h : Keeps k s0 s)
    (hm : Within 0x1000#21 k := by first | assumption | exact Within.trans (by assumption) (by decide)) :
    KeepsL k s0 (semaTake s a1 a2) := by
  unfold semaTake
  repeat' first
    | with_reducible assumption | with_reducible refine Keeps.ite ?_ ?_ | with_reducible refine Keeps.foldl _ _ ?_ _ ?_ | fail_if_no_progress ((with_reducible refine Keeps.mk' ?_ rfl rfl rfl ?_ ?_ ?_ ?_ ?_ ?_ ?_ ?_ ?_ ?_ ?_ ?_ ?_ ?_ ?_ ?_ ?_ ?_ ?_ ?_ ?_) <;> first | exact Or.inl (hm.bit (by decide)) | exact Or.inr rfl | skip) | with_reducible refine KeepsL.mk ?_
    | split
    | (extract_lets +onlyGivenNames x; first | (refine Keeps.cut s0 x ?_ fun h => ?_; rotate_left; clear_value x) | skip)
    | (unfold x; fail_if_success done)
    | intro h

theorem semaRelease_keeps {k s0 s a1 a2} (h : Keeps k s0 s)
    (hm : Within 0x101000#21 k := by first | assumption | exact Within.trans (by assumption) (by decide)) :
    Keeps k s0 (semaRelease s a1 a2) := by
  unfold semaRelease
  repeat' first
    | with_reducible assumption | with_reducible refine raise_keeps ?_ | with_reducible refine Keeps.ite ?_ ?_ | with_reducible refine Keeps.foldl _ _ ?_ _ ?_ | fail_if_no_progress ((with_reducible refine Keeps.mk' ?_ rfl rfl rfl ?_ ?_ ?_ ?_ ?_ ?_ ?_ ?_ ?_ ?_ ?_ ?_ ?_ ?_ ?_ ?_ ?_ ?_ ?_ ?_ ?_) <;> first | exact Or.inl (hm.bit (by decide)) | exact Or.inr rfl | skip)
    | split
    | (extract_lets +onlyGivenNames x; first | (refine Keeps.cut s0 x ?_ fun h => ?_; rotate_left; clear_value x) | skip)
    | (unfold x; fail_if_success done)
    | intro h

theorem heardFrom_keeps {k s0 s a1 a2} (h : Keeps k s0 s)
    (hm : Within 0x10000#21 k := by first | assumption | exact Within.trans (by assumption) (by decide)) :
    Keeps k s0 (heardFrom s a1 a2) := by
  unfold heardFrom
  repeat' first
    | with_reducible assumption | with_reducible refine Keeps.ite ?_ ?_ | with_reducible refine Keeps.foldl _ _ ?_ _ ?_ | fail_if_no_progress ((with_reducible refine Keeps.mk' ?_ rfl rfl rfl ?_ ?_ ?_ ?_ ?_ ?_ ?_ ?_ ?_ ?_ ?_ ?_ ?_ ?_ ?_ ?_ ?_ ?_ ?_ ?_ ?_) <;> first | exact Or.inl (hm.bit (by decide)) | exact Or.inr rfl | skip)
    | split
    | (extract_lets +onlyGivenNames x; first | (refine Keeps.cut s0 x ?_ fun h => ?_; rotate_left; clear_value x) | skip)
    | (unfold x; fail_if_success done)
    | intro h

theorem pickLeaders_keeps {k s0 s} (h : Keeps k s0 s)
    (hm : Within 0x10000#21 k := by first | assumption | exact Within.trans (by assumption) (by decide)) :
    Keeps k s0 (pickLeaders s) := by
  unfold pickLeaders
  repeat' first
    | with_reducible assumption | with_reducible refine Keeps.ite ?_ ?_ | with_reducible refine Keeps.foldl _ _ ?_ _ ?_ | fail_if_no_progress ((with_reducible refine Keeps.mk' ?_ rfl rfl rfl ?_ ?_ ?_ ?_ ?_ ?_ ?_ ?_ ?_ ?_ ?_ ?_ ?_ ?_ ?_ ?_ ?_ ?_ ?_ ?_ ?_) <;> first | exact Or.inl (hm.bit (by decide)) | exact Or.inr rfl | skip)
    | split
    | (extract_lets +onlyGivenNames x; first | (refine Keeps.cut s0 x ?_ fun h => ?_; rotate_left; clear_value x) | skip)
    | (unfold x; fail_if_success done)
    | intro h

theorem followTime_keeps {k s0 s} (h : Keeps k s0 s)
    (hm : Within 0x1#21 k := by first | assumption | exact Within.trans (by assumption) (by decide)) :
    Keeps k s0 (followTime s) := by
  unfold followTime
  repeat' first
    | with_reducible assumption | with_reducible refine Keeps.ite ?_ ?_ | with_reducible refine Keeps.foldl _ _ ?_ _ ?_ | fail_if_no_progress ((with_reducible refine Keeps.mk' ?_ rfl rfl rfl ?_ ?_ ?_ ?_ ?_ ?_ ?_ ?_ ?_ ?_ ?_ ?_ ?_ ?_ ?_ ?_ ?_ ?_ ?_ ?_ ?_) <;> first | exact Or.inl (hm.bit (by decide)) | exact Or.inr rfl | skip)
    | split
    | (extract_lets +onlyGivenNames x; first | (refine Keeps.cut s0 x ?_ fun h => ?_; rotate_left; clear_value x) | skip)
    | (unfold x; fail_if_success done)
    | intro h

theorem execBriterStatus_keeps {k s0 a0 a1 s} (h : Keeps k s0 s)
    (hm : Within 0x10001#21 k := by first | assumption | exact Within.trans (by assumption) (by decide)) :
    KeepsO k s0 (execBriterStatus a0 a1 s) := by
  unfold execBriterStatus
  repeat' first
    | with_reducible assumption | with_reducible refine heardFrom_keeps ?_ | with_reducible refine pickLeaders_keeps ?_ | with_reducible refine followTime_keeps ?_ | with_reducible refine Keeps.ite ?_ ?_ | with_reducible refine Keeps.foldl _ _ ?_ _ ?_ | fail_if_no_progress ((with_reducible refine Keeps.mk' ?_ rfl rfl rfl ?_ ?_ ?_ ?_ ?_ ?_ ?_ ?_ ?_ ?_ ?_ ?_ ?_ ?_ ?_ ?_ ?_ ?_ ?_ ?_ ?_) <;> first | exact Or.inl (hm.bit (by decide)) | exact Or.inr rfl | skip) | with_reducible refine KeepsO.next ?_
    | split
    | (extract_lets +onlyGivenNames x; first | (refine Keeps.cut s0 x ?_ fun h => ?_; rotate_left; clear_value x) | skip)
    | (unfold x; fail_if_success done)
    | intro h

theorem execBriterStatusSend_keeps {k s0 s} (h : Keeps k s0 s)
    (hm : Within 0x10000#21 k := by first | assumption | exact Within.trans (by assumption) (by decide)) :
    KeepsO k s0 (execBriterStatusSend s) := by
  unfold execBriterStatusSend
  repeat' first
    | with_reducible assumption | with_reducible refine sendFrame_keeps ?_ | with_reducible refine Keeps.ite ?_ ?_ | with_reducible refine Keeps.foldl _ _ ?_ _ ?_ | fail_if_no_progress ((with_reducible refine Keeps.mk' ?_ rfl rfl rfl ?_ ?_ ?_ ?_ ?_ ?_ ?_ ?_ ?_ ?_ ?_ ?_ ?_ ?_ ?_ ?_ ?_ ?_ ?_ ?_ ?_) <;> first | exact Or.inl (hm.bit (by decide)) | exact Or.inr rfl | skip) | with_reducible refine KeepsO.next ?_
    | split
    | (extract_lets +onlyGivenNames x; first | (refine Keeps.cut s0 x ?_ fun h => ?_; rotate_left; clear_value x) | skip)
    | (unfold x; fail_if_success done)
    | intro h

theorem joinConsort_keeps {k s0 s} (h : Keeps k s0 s)
    (hm : Within 0x190001#21 k := by first | assumption | exact Within.trans (by assumption) (by decide)) :
    Keeps k s0 (joinConsort s) := by
  unfold joinConsort
  repeat' first
    | with_reducible assumption | with_reducible refine raise_keeps ?_ | with_reducible refine draw_keeps ?_ | with_reducible refine followTime_keeps ?_ | with_reducible refine pickLeaders_keeps ?_ | with_reducible refine sendFrame_keeps ?_ | with_reducible refine Keeps.ite ?_ ?_ | with_reducible refine Keeps.foldl _ _ ?_ _ ?_ | fail_if_no_progress ((with_reducible refine Keeps.mk' ?_ rfl rfl rfl ?_ ?_ ?_ ?_ ?_ ?_ ?_ ?_ ?_ ?_ ?_ ?_ ?_ ?_ ?_ ?_ ?_ ?_ ?_ ?_ ?_) <;> first | exact Or.inl (hm.bit (by decide)) | exact Or.inr rfl | skip)
    | split
    | (extract_lets +onlyGivenNames x; first | (refine Keeps.cut s0 x ?_ fun h => ?_; rotate_left; clear_value x) | skip)
    | (unfold x; fail_if_success done)
    | intro h
    | with_reducible refine KeepsR.elim ?_ (by assumption) | with_reducible refine KeepsL.elim ?_ (by assumption) | with_reducible refine KeepsOS.elim ?_ (by assumption) | with_reducible refine KeepsOR.elim ?_ (by assumption) | with_reducible refine KeepsOR3.elim ?_ (by assumption) | with_reducible refine KeepsL.proj ?_ | with_reducible refine KeepsR.proj ?_

theorem dropAgreement_keeps {k s0 s a1} (h : Keeps k s0 s)
    (hm : Within 0x11002#21 k := by first | assumption | exact Within.trans (by assumption) (by decide)) :
    Keeps k s0 (dropAgreement s a1) := by
  unfold dropAgreement
  repeat' first
    | with_reducible assumption | with_reducible refine sendFrame_keeps ?_ | with_reducible refine finishId_keeps ?_ | with_reducible refine Keeps.ite ?_ ?_ | with_reducible refine Keeps.foldl _ _ ?_ _ ?_ | fail_if_no_progress ((with_reducible refine Keeps.mk' ?_ rfl rfl rfl ?_ ?_ ?_ ?_ ?_ ?_ ?_ ?_ ?_ ?_ ?_ ?_ ?_ ?_ ?_ ?_ ?_ ?_ ?_ ?_ ?_) <;> first | exact Or.inl (hm.bit (by decide)) | exact Or.inr rfl | skip)
    | split
    | (extract_lets +onlyGivenNames x; first | (refine Keeps.cut s0 x ?_ fun h => ?_; rotate_left; clear_value x) | skip)
    | (unfold x; fail_if_success done)
    | intro h

theorem leaveConsort_keeps {k s0 s} (h : Keeps k s0 s)
    (hm : Within 0x11002#21 k := by first | assumption | exact Within.trans (by assumption) (by decide)) :
    Keeps k s0 (leaveConsort s) := by
  unfold leaveConsort
  repeat' first
    | with_reducible assumption | with_reducible refine dropAgreement_keeps ?_ | with_reducible refine Keeps.ite ?_ ?_ | with_reducible refine Keeps.foldl _ _ ?_ _ ?_ | fail_if_no_progress ((with_reducible refine Keeps.mk' ?_ rfl rfl rfl ?_ ?_ ?_ ?_ ?_ ?_ ?_ ?_ ?_ ?_ ?_ ?_ ?_ ?_ ?_ ?_ ?_ ?_ ?_ ?_ ?_) <;> first | exact Or.inl (hm.bit (by decide)) | exact Or.inr rfl | skip)
    | split
    | (extract_lets +onlyGivenNames x; first | (refine Keeps.cut s0 x ?_ fun h => ?_; rotate_left; clear_value x) | skip)
    | (unfold x; fail_if_success done)
    | intro h

theorem execConsortJoin_keeps {k s0 a0 s} (h : Keeps k s0 s)
    (hm : Within 0x191001#21 k := by first | assumption | exact Within.trans (by assumption) (by decide)) :
    KeepsO k s0 (execConsortJoin a0 s) := by
  unfold execConsortJoin
  repeat' first
    | with_reducible assumption | with_reducible refine runCmd_keeps ?_ (fun _ _ _ => ?_) | with_reducible refine succeed_keeps ?_ | with_reducible refine joinConsort_keeps ?_ | with_reducible refine Keeps.ite ?_ ?_ | with_reducible refine Keeps.foldl _ _ ?_ _ ?_ | fail_if_no_progress ((with_reducible refine Keeps.mk' ?_ rfl rfl rfl ?_ ?_ ?_ ?_ ?_ ?_ ?_ ?_ ?_ ?_ ?_ ?_ ?_ ?_ ?_ ?_ ?_ ?_ ?_ ?_ ?_) <;> first | exact Or.inl (hm.bit (by decide)) | exact Or.inr rfl | skip) | with_reducible refine KeepsO.next ?_
    | split
    | (extract_lets +onlyGivenNames x; first | (refine Keeps.cut s0 x ?_ fun h => ?_; rotate_left; clear_value x) | skip)
    | (unfold x; fail_if_success done)
    | intro h

theorem execConsortLeave_keeps {k s0 a0 s} (h : Keeps k s0 s)
    (hm : Within 0x11002#21 k := by first | assumption | exact Within.trans (by assumption) (by decide)) :
    KeepsO k s0 (execConsortLeave a0 s) := by
  unfold execConsortLeave
  repeat' first
    | with_reducible assumption | with_reducible refine runCmd_keeps ?_ (fun _ _ _ => ?_) | with_reducible refine leaveConsort_keeps ?_ | with_reducible refine succeed_keeps ?_ | with_reducible refine Keeps.ite ?_ ?_ | with_reducible refine Keeps.foldl _ _ ?_ _ ?_ | fail_if_no_progress ((with_reducible refine Keeps.mk' ?_ rfl rfl rfl ?_ ?_ ?_ ?_ ?_ ?_ ?_ ?_ ?_ ?_ ?_ ?_ ?_ ?_ ?_ ?_ ?_ ?_ ?_ ?_ ?_) <;> first | exact Or.inl (hm.bit (by decide)) | exact Or.inr rfl | skip) | with_reducible refine KeepsO.next ?_
    | split
    | (extract_lets +onlyGivenNames x; first | (refine Keeps.cut s0 x ?_ fun h => ?_; rotate_left; clear_value x) | skip)
    | (unfold x; fail_if_success done)
    | intro h

theorem execBriterJoin_keeps {k s0 a0 a1 a2 s} (h : Keeps k s0 s)
    (hm : Within 0x191003#21 k := by first | assumption | exact Within.trans (by assumption) (by decide)) :
    KeepsO k s0 (execBriterJoin a0 a1 a2 s) := by
  unfold execBriterJoin
  repeat' first
    | with_reducible assumption | with_reducible refine heardFrom_keeps ?_ | with_reducible refine raise_keeps ?_ | with_reducible refine joinConsort_keeps ?_ | with_reducible refine leaveConsort_keeps ?_ | with_reducible refine pickLeaders_keeps ?_ | with_reducible refine Keeps.ite ?_ ?_ | with_reducible refine Keeps.foldl _ _ ?_ _ ?_ | fail_if_no_progress ((with_reducible refine Keeps.mk' ?_ rfl rfl rfl ?_ ?_ ?_ ?_ ?_ ?_ ?_ ?_ ?_ ?_ ?_ ?_ ?_ ?_ ?_ ?_ ?_ ?_ ?_ ?_ ?_) <;> first | exact Or.inl (hm.bit (by decide)) | exact Or.inr rfl | skip) | with_reducible refine KeepsO.next ?_
    | split
    | (extract_lets +onlyGivenNames x; first | (refine Keeps.cut s0 x ?_ fun h => ?_; rotate_left; clear_value x) | skip)
    | (unfold x; fail_if_success done)
    | intro h

theorem answerPrepare_keeps {k s0 s a1 a2 a3} (h : Keeps k s0 s)
    (hm : Within 0x11000#21 k := by first | assumption | exact Within.trans (by assumption) (by decide)) :
    Keeps k s0 (answerPrepare s a1 a2 a3) := by
  unfold answerPrepare
  repeat' first
    | with_reducible assumption | with_reducible refine sendFrame_keeps ?_ | with_reducible refine Keeps.ite ?_ ?_ | with_reducible refine Keeps.foldl _ _ ?_ _ ?_ | fail_if_no_progress ((with_reducible refine Keeps.mk' ?_ rfl rfl rfl ?_ ?_ ?_ ?_ ?_ ?_ ?_ ?_ ?_ ?_ ?_ ?_ ?_ ?_ ?_ ?_ ?_ ?_ ?_ ?_ ?_) <;> first | exact Or.inl (hm.bit (by decide)) | exact Or.inr rfl | skip)
    | split
    | (extract_lets +onlyGivenNames x; first | (refine Keeps.cut s0 x ?_ fun h => ?_; rotate_left; clear_value x) | skip)
    | (unfold x; fail_if_success done)
    | intro h

theorem execBriterPrepare_keeps {k s0 a0 a1 a2 s} (h : Keeps k s0 s)
    (hm : Within 0x11002#21 k := by first | assumption | exact Within.trans (by assumption) (by decide)) :
    KeepsO k s0 (execBriterPrepare a0 a1 a2 s) := by
  unfold execBriterPrepare
  repeat' first
    | with_reducible assumption | with_reducible refine heardFrom_keeps ?_ | with_reducible refine answerPrepare_keeps ?_ | with_reducible refine dropAgreement_keeps ?_ | with_reducible refine sendFrame_keeps ?_ | with_reducible refine Keeps.ite ?_ ?_ | with_reducible refine Keeps.foldl _ _ ?_ _ ?_ | fail_if_no_progress ((with_reducible refine Keeps.mk' ?_ rfl rfl rfl ?_ ?_ ?_ ?_ ?_ ?_ ?_ ?_ ?_ ?_ ?_ ?_ ?_ ?_ ?_ ?_ ?_ ?_ ?_ ?_ ?_) <;> first | exact Or.inl (hm.bit (by decide)) | exact Or.inr rfl | skip) | with_reducible refine KeepsO.next ?_
    | split
    | (extract_lets +onlyGivenNames x; first | (refine Keeps.cut s0 x ?_ fun h => ?_; rotate_left; clear_value x) | skip)
    | (unfold x; fail_if_success done)
    | intro h

theorem execBriterAck_keeps {k s0 a0 a1 a2 s} (h : Keeps k s0 s)
    (hm : Within 0x11002#21 k := by first | assumption | exact Within.trans (by assumption) (by decide)) :
    KeepsO k s0 (execBriterAck a0 a1 a2 s) := by
  unfold execBriterAck
  repeat' first
    | with_reducible assumption | with_reducible refine heardFrom_keeps ?_ | with_reducible refine dropAgreement_keeps ?_ | with_reducible refine goIfAcked_keeps ?_ | with_reducible refine Keeps.ite ?_ ?_ | with_reducible refine Keeps.foldl _ _ ?_ _ ?_ | fail_if_no_progress ((with_reducible refine Keeps.mk' ?_ rfl rfl rfl ?_ ?_ ?_ ?_ ?_ ?_ ?_ ?_ ?_ ?_ ?_ ?_ ?_ ?_ ?_ ?_ ?_ ?_ ?_ ?_ ?_) <;> first | exact Or.inl (hm.bit (by decide)) | exact Or.inr rfl | skip) | with_reducible refine KeepsO.next ?_
    | split
    | (extract_lets +onlyGivenNames x; first | (refine Keeps.cut s0 x ?_ fun h => ?_; rotate_left; clear_value x) | skip)
    | (unfold x; fail_if_success done)
    | intro h

theorem execBriterNack_keeps {k s0 a0 a1 a2 s} (h : Keeps k s0 s)
    (hm : Within 0x11002#21 k := by first | assumption | exact Within.trans (by assumption) (by decide)) :
    KeepsO k s0 (execBriterNack a0 a1 a2 s) := by
  unfold execBriterNack
  repeat' first
    | with_reducible assumption | with_reducible refine heardFrom_keeps ?_ | with_reducible refine dropAgreement_keeps ?_ | with_reducible refine Keeps.ite ?_ ?_ | with_reducible refine Keeps.foldl _ _ ?_ _ ?_ | fail_if_no_progress ((with_reducible refine Keeps.mk' ?_ rfl rfl rfl ?_ ?_ ?_ ?_ ?_ ?_ ?_ ?_ ?_ ?_ ?_ ?_ ?_ ?_ ?_ ?_ ?_ ?_ ?_ ?_ ?_) <;> first | exact Or.inl (hm.bit (by decide)) | exact Or.inr rfl | skip) | with_reducible refine KeepsO.next ?_
    | split
    | (extract_lets +onlyGivenNames x; first | (refine Keeps.cut s0 x ?_ fun h => ?_; rotate_left; clear_value x) | skip)
    | (unfold x; fail_if_success done)
    | intro h

theorem execBriterGo_keeps {k s0 a0 a1 s} (h : Keeps k s0 s)
    (hm : Within 0x11000#21 k := by first | assumption | exact Within.trans (by assumption) (by decide)) :
    KeepsO k s0 (execBriterGo a0 a1 s) := by
  unfold execBriterGo
  repeat' first
    | with_reducible assumption | with_reducible refine heardFrom_keeps ?_ | with_reducible refine Keeps.ite ?_ ?_ | with_reducible refine Keeps.foldl _ _ ?_ _ ?_ | fail_if_no_progress ((with_reducible refine Keeps.mk' ?_ rfl rfl rfl ?_ ?_ ?_ ?_ ?_ ?_ ?_ ?_ ?_ ?_ ?_ ?_ ?_ ?_ ?_ ?_ ?_ ?_ ?_ ?_ ?_) <;> first | exact Or.inl (hm.bit (by decide)) | exact Or.inr rfl | skip) | with_reducible refine KeepsO.next ?_
    | split
    | (extract_lets +onlyGivenNames x; first | (refine Keeps.cut s0 x ?_ fun h => ?_; rotate_left; clear_value x) | skip)
    | (unfold x; fail_if_success done)
    | intro h

theorem execBriterAbort_keeps {k s0 a0 a1 s} (h : Keeps k s0 s)
    (hm : Within 0x11002#21 k := by first | assumption | exact Within.trans (by assumption) (by decide)) :
    KeepsO k s0 (execBriterAbort a0 a1 s) := by
  unfold execBriterAbort
  repeat' first
    | with_reducible assumption | with_reducible refine heardFrom_keeps ?_ | with_reducible refine dropAgreement_keeps ?_ | with_reducible refine Keeps.ite ?_ ?_ | with_reducible refine Keeps.foldl _ _ ?_ _ ?_ | fail_if_no_progress ((with_reducible refine Keeps.mk' ?_ rfl rfl rfl ?_ ?_ ?_ ?_ ?_ ?_ ?_ ?_ ?_ ?_ ?_ ?_ ?_ ?_ ?_ ?_ ?_ ?_ ?_ ?_ ?_) <;> first | exact Or.inl (hm.bit (by decide)) | exact Or.inr rfl | skip) | with_reducible refine KeepsO.next ?_
    | split
    | (extract_lets +onlyGivenNames x; first | (refine Keeps.cut s0 x ?_ fun h => ?_; rotate_left; clear_value x) | skip)
    | (unfold x; fail_if_success done)
    | intro h

theorem execAgreementAckTimeout_keeps {k s0 s} (h : Keeps k s0 s)
    (hm : Within 0x11002#21 k := by first | assumption | exact Within.trans (by assumption) (by decide)) :
    KeepsO k s0 (execAgreementAckTimeout s) := by
  unfold execAgreementAckTimeout
  repeat' first
    | with_reducible assumption | with_reducible refine dropAgreement_keeps ?_ | with_reducible refine Keeps.ite ?_ ?_ | with_reducible refine Keeps.foldl _ _ ?_ _ ?_ | fail_if_no_progress ((with_reducible refine Keeps.mk' ?_ rfl rfl rfl ?_ ?_ ?_ ?_ ?_ ?_ ?_ ?_ ?_ ?_ ?_ ?_ ?_ ?_ ?_ ?_ ?_ ?_ ?_ ?_ ?_) <;> first | exact Or.inl (hm.bit (by decide)) | exact Or.inr rfl | skip) | with_reducible refine KeepsO.next ?_
    | split
    | (extract_lets +onlyGivenNames x; first | (refine Keeps.cut s0 x ?_ fun h => ?_; rotate_left; clear_value x) | skip)
    | (unfold x; fail_if_success done)
    | intro h

theorem briterFault_keeps {k s0 s} (h : Keeps k s0 s)
    (hm : Within 0x10000#21 k := by first | assumption | exact Within.trans (by assumption) (by decide)) :
    Keeps k s0 (briterFault s) := by
  unfold briterFault
  repeat' first
    | with_reducible assumption | with_reducible refine Keeps.ite ?_ ?_ | with_reducible refine Keeps.foldl _ _ ?_ _ ?_ | fail_if_no_progress ((with_reducible refine Keeps.mk' ?_ rfl rfl rfl ?_ ?_ ?_ ?_ ?_ ?_ ?_ ?_ ?_ ?_ ?_ ?_ ?_ ?_ ?_ ?_ ?_ ?_ ?_ ?_ ?_) <;> first | exact Or.inl (hm.bit (by decide)) | exact Or.inr rfl | skip)
    | split
    | (extract_lets +onlyGivenNames x; first | (refine Keeps.cut s0 x ?_ fun h => ?_; rotate_left; clear_value x) | skip)
    | (unfold x; fail_if_success done)
    | intro h

theorem goMissed_keeps {k s0 s a1} (h : Keeps k s0 s)
    (hm : Within 0x11002#21 k := by first | assumption | exact Within.trans (by assumption) (by decide)) :
    Keeps k s0 (goMissed s a1) := by
  unfold goMissed
  repeat' first
    | with_reducible assumption | with_reducible refine briterFault_keeps ?_ | with_reducible refine dropAgreement_keeps ?_ | with_reducible refine Keeps.ite ?_ ?_ | with_reducible refine Keeps.foldl _ _ ?_ _ ?_ | fail_if_no_progress ((with_reducible refine Keeps.mk' ?_ rfl rfl rfl ?_ ?_ ?_ ?_ ?_ ?_ ?_ ?_ ?_ ?_ ?_ ?_ ?_ ?_ ?_ ?_ ?_ ?_ ?_ ?_ ?_) <;> first | exact Or.inl (hm.bit (by decide)) | exact Or.inr rfl | skip)
    | split
    | (extract_lets +onlyGivenNames x; first | (refine Keeps.cut s0 x ?_ fun h => ?_; rotate_left; clear_value x) | skip)
    | (unfold x; fail_if_success done)
    | intro h

theorem execGoMissed_keeps {k s0 s} (h : Keeps k s0 s)
    (hm : Within 0x11002#21 k := by first | assumption | exact Within.trans (by assumption) (by decide)) :
    KeepsO k s0 (execGoMissed s) := by
  unfold execGoMissed
  repeat' first
    | with_reducible assumption | with_reducible refine goMissed_keeps ?_ | with_reducible refine Keeps.ite ?_ ?_ | with_reducible refine Keeps.foldl _ _ ?_ _ ?_ | fail_if_no_progress ((with_reducible refine Keeps.mk' ?_ rfl rfl rfl ?_ ?_ ?_ ?_ ?_ ?_ ?_ ?_ ?_ ?_ ?_ ?_ ?_ ?_ ?_ ?_ ?_ ?_ ?_ ?_ ?_) <;> first | exact Or.inl (hm.bit (by decide)) | exact Or.inr rfl | skip) | with_reducible refine KeepsO.next ?_
    | split
    | (extract_lets +onlyGivenNames x; first | (refine Keeps.cut s0 x ?_ fun h => ?_; rotate_left; clear_value x) | skip)
    | (unfold x; fail_if_success done)
    | intro h

theorem powerAgreedAt_keeps {k s0 s a1} (h : Keeps k s0 s)
    (hm : Within 0x10000#21 k := by first | assumption | exact Within.trans (by assumption) (by decide)) :
    Keeps k s0 (powerAgreedAt s a1) := by
  unfold powerAgreedAt
  repeat' first
    | with_reducible assumption | with_reducible refine Keeps.ite ?_ ?_ | with_reducible refine Keeps.foldl _ _ ?_ _ ?_ | fail_if_no_progress ((with_reducible refine Keeps.mk' ?_ rfl rfl rfl ?_ ?_ ?_ ?_ ?_ ?_ ?_ ?_ ?_ ?_ ?_ ?_ ?_ ?_ ?_ ?_ ?_ ?_ ?_ ?_ ?_) <;> first | exact Or.inl (hm.bit (by decide)) | exact Or.inr rfl | skip)
    | split
    | (extract_lets +onlyGivenNames x; first | (refine Keeps.cut s0 x ?_ fun h => ?_; rotate_left; clear_value x) | skip)
    | (unfold x; fail_if_success done)
    | intro h

theorem execPowerPropose_keeps {k s0 s} (h : Keeps k s0 s)
    (hm : Within 0x11002#21 k := by first | assumption | exact Within.trans (by assumption) (by decide)) :
    KeepsO k s0 (execPowerPropose s) := by
  unfold execPowerPropose
  repeat' first
    | with_reducible assumption | with_reducible refine openAgreement_keeps ?_ | with_reducible refine Keeps.ite ?_ ?_ | with_reducible refine Keeps.foldl _ _ ?_ _ ?_ | fail_if_no_progress ((with_reducible refine Keeps.mk' ?_ rfl rfl rfl ?_ ?_ ?_ ?_ ?_ ?_ ?_ ?_ ?_ ?_ ?_ ?_ ?_ ?_ ?_ ?_ ?_ ?_ ?_ ?_ ?_) <;> first | exact Or.inl (hm.bit (by decide)) | exact Or.inr rfl | skip) | with_reducible refine KeepsO.next ?_
    | split
    | (extract_lets +onlyGivenNames x; first | (refine Keeps.cut s0 x ?_ fun h => ?_; rotate_left; clear_value x) | skip)
    | (unfold x; fail_if_success done)
    | intro h

theorem execBriterWake_keeps {k s0 a0 s} (h : Keeps k s0 s)
    (hm : Within 0x199cfe#21 k := by first | assumption | exact Within.trans (by assumption) (by decide)) :
    KeepsO k s0 (execBriterWake a0 s) := by
  unfold execBriterWake
  repeat' first
    | with_reducible assumption | with_reducible refine heardFrom_keeps ?_ | with_reducible refine wakeNow_keeps ?_ | with_reducible refine Keeps.ite ?_ ?_ | with_reducible refine Keeps.foldl _ _ ?_ _ ?_ | fail_if_no_progress ((with_reducible refine Keeps.mk' ?_ rfl rfl rfl ?_ ?_ ?_ ?_ ?_ ?_ ?_ ?_ ?_ ?_ ?_ ?_ ?_ ?_ ?_ ?_ ?_ ?_ ?_ ?_ ?_) <;> first | exact Or.inl (hm.bit (by decide)) | exact Or.inr rfl | skip) | with_reducible refine KeepsO.next ?_
    | split
    | (extract_lets +onlyGivenNames x; first | (refine Keeps.cut s0 x ?_ fun h => ?_; rotate_left; clear_value x) | skip)
    | (unfold x; fail_if_success done)
    | intro h

theorem execBriterReg_keeps {k s0 a0 a1 a2 s} (h : Keeps k s0 s)
    (hm : Within 0x111000#21 k := by first | assumption | exact Within.trans (by assumption) (by decide)) :
    KeepsO k s0 (execBriterReg a0 a1 a2 s) := by
  unfold execBriterReg
  repeat' first
    | with_reducible assumption | with_reducible refine heardFrom_keeps ?_ | with_reducible refine semaRelease_keeps ?_ | with_reducible refine sendFrame_keeps ?_ | with_reducible refine semaTake_keeps ?_ | with_reducible refine Keeps.ite ?_ ?_ | with_reducible refine Keeps.foldl _ _ ?_ _ ?_ | fail_if_no_progress ((with_reducible refine Keeps.mk' ?_ rfl rfl rfl ?_ ?_ ?_ ?_ ?_ ?_ ?_ ?_ ?_ ?_ ?_ ?_ ?_ ?_ ?_ ?_ ?_ ?_ ?_ ?_ ?_) <;> first | exact Or.inl (hm.bit (by decide)) | exact Or.inr rfl | skip) | with_reducible refine KeepsO.next ?_
    | split
    | (extract_lets +onlyGivenNames x; first | (refine Keeps.cut s0 x ?_ fun h => ?_; rotate_left; clear_value x) | skip)
    | (unfold x; fail_if_success done)
    | intro h
    | with_reducible refine KeepsR.elim ?_ (by assumption) | with_reducible refine KeepsL.elim ?_ (by assumption) | with_reducible refine KeepsOS.elim ?_ (by assumption) | with_reducible refine KeepsOR.elim ?_ (by assumption) | with_reducible refine KeepsOR3.elim ?_ (by assumption) | with_reducible refine KeepsL.proj ?_ | with_reducible refine KeepsR.proj ?_

theorem execBriterCrcFail_keeps {k s0 a0 s} (h : Keeps k s0 s)
    (hm : Within 0x10000#21 k := by first | assumption | exact Within.trans (by assumption) (by decide)) :
    KeepsO k s0 (execBriterCrcFail a0 s) := by
  unfold execBriterCrcFail
  repeat' first
    | with_reducible assumption | with_reducible refine briterFault_keeps ?_ | with_reducible refine Keeps.ite ?_ ?_ | with_reducible refine Keeps.foldl _ _ ?_ _ ?_ | fail_if_no_progress ((with_reducible refine Keeps.mk' ?_ rfl rfl rfl ?_ ?_ ?_ ?_ ?_ ?_ ?_ ?_ ?_ ?_ ?_ ?_ ?_ ?_ ?_ ?_ ?_ ?_ ?_ ?_ ?_) <;> first | exact Or.inl (hm.bit (by decide)) | exact Or.inr rfl | skip) | with_reducible refine KeepsO.next ?_
    | split
    | (extract_lets +onlyGivenNames x; first | (refine Keeps.cut s0 x ?_ fun h => ?_; rotate_left; clear_value x) | skip)
    | (unfold x; fail_if_success done)
    | intro h

theorem loseMember_keeps {k s0 s a1} (h : Keeps k s0 s)
    (hm : Within 0x111002#21 k := by first | assumption | exact Within.trans (by assumption) (by decide)) :
    Keeps k s0 (loseMember s a1) := by
  unfold loseMember
  repeat' first
    | with_reducible assumption | with_reducible refine releaseSemas_keeps ?_ | with_reducible refine raise_keeps ?_ | with_reducible refine dropAgreement_keeps ?_ | with_reducible refine pickLeaders_keeps ?_ | with_reducible refine Keeps.ite ?_ ?_ | with_reducible refine Keeps.foldl _ _ ?_ _ ?_ | fail_if_no_progress ((with_reducible refine Keeps.mk' ?_ rfl rfl rfl ?_ ?_ ?_ ?_ ?_ ?_ ?_ ?_ ?_ ?_ ?_ ?_ ?_ ?_ ?_ ?_ ?_ ?_ ?_ ?_ ?_) <;> first | exact Or.inl (hm.bit (by decide)) | exact Or.inr rfl | skip)
    | split
    | (extract_lets +onlyGivenNames x; first | (refine Keeps.cut s0 x ?_ fun h => ?_; rotate_left; clear_value x) | skip)
    | (unfold x; fail_if_success done)
    | intro h

theorem execMemberLost_keeps {k s0 a0 s} (h : Keeps k s0 s)
    (hm : Within 0x111002#21 k := by first | assumption | exact Within.trans (by assumption) (by decide)) :
    KeepsO k s0 (execMemberLost a0 s) := by
  unfold execMemberLost
  repeat' first
    | with_reducible assumption | with_reducible refine loseMember_keeps ?_ | with_reducible refine Keeps.ite ?_ ?_ | with_reducible refine Keeps.foldl _ _ ?_ _ ?_ | fail_if_no_progress ((with_reducible refine Keeps.mk' ?_ rfl rfl rfl ?_ ?_ ?_ ?_ ?_ ?_ ?_ ?_ ?_ ?_ ?_ ?_ ?_ ?_ ?_ ?_ ?_ ?_ ?_ ?_ ?_) <;> first | exact Or.inl (hm.bit (by decide)) | exact Or.inr rfl | skip) | with_reducible refine KeepsO.next ?_
    | split
    | (extract_lets +onlyGivenNames x; first | (refine Keeps.cut s0 x ?_ fun h => ?_; rotate_left; clear_value x) | skip)
    | (unfold x; fail_if_success done)
    | intro h

theorem retrainEnds_keeps {k s0 s a1} (h : Keeps k s0 s)
    (hm : Within 0x111002#21 k := by first | assumption | exact Within.trans (by assumption) (by decide)) :
    Keeps k s0 (retrainEnds s a1) := by
  unfold retrainEnds
  repeat' first
    | with_reducible assumption | with_reducible refine loseMember_keeps ?_ | with_reducible refine Keeps.ite ?_ ?_ | with_reducible refine Keeps.foldl _ _ ?_ _ ?_ | fail_if_no_progress ((with_reducible refine Keeps.mk' ?_ rfl rfl rfl ?_ ?_ ?_ ?_ ?_ ?_ ?_ ?_ ?_ ?_ ?_ ?_ ?_ ?_ ?_ ?_ ?_ ?_ ?_ ?_ ?_) <;> first | exact Or.inl (hm.bit (by decide)) | exact Or.inr rfl | skip)
    | split
    | (extract_lets +onlyGivenNames x; first | (refine Keeps.cut s0 x ?_ fun h => ?_; rotate_left; clear_value x) | skip)
    | (unfold x; fail_if_success done)
    | intro h

theorem execBeatAlign_keeps {k s0 a0 s} (h : Keeps k s0 s)
    (hm : Within 0x1#21 k := by first | assumption | exact Within.trans (by assumption) (by decide)) :
    KeepsO k s0 (execBeatAlign a0 s) := by
  unfold execBeatAlign
  repeat' first
    | with_reducible assumption | with_reducible refine Keeps.ite ?_ ?_ | with_reducible refine Keeps.foldl _ _ ?_ _ ?_ | fail_if_no_progress ((with_reducible refine Keeps.mk' ?_ rfl rfl rfl ?_ ?_ ?_ ?_ ?_ ?_ ?_ ?_ ?_ ?_ ?_ ?_ ?_ ?_ ?_ ?_ ?_ ?_ ?_ ?_ ?_) <;> first | exact Or.inl (hm.bit (by decide)) | exact Or.inr rfl | skip) | with_reducible refine KeepsO.next ?_
    | split
    | (extract_lets +onlyGivenNames x; first | (refine Keeps.cut s0 x ?_ fun h => ?_; rotate_left; clear_value x) | skip)
    | (unfold x; fail_if_success done)
    | intro h

theorem execTimeSlew_keeps {k s0 s} (h : Keeps k s0 s)
    (hm : Within 0x110001#21 k := by first | assumption | exact Within.trans (by assumption) (by decide)) :
    KeepsO k s0 (execTimeSlew s) := by
  unfold execTimeSlew
  repeat' first
    | with_reducible assumption | with_reducible refine followTime_keeps ?_ | with_reducible refine raise_keeps ?_ | with_reducible refine Keeps.ite ?_ ?_ | with_reducible refine Keeps.foldl _ _ ?_ _ ?_ | fail_if_no_progress ((with_reducible refine Keeps.mk' ?_ rfl rfl rfl ?_ ?_ ?_ ?_ ?_ ?_ ?_ ?_ ?_ ?_ ?_ ?_ ?_ ?_ ?_ ?_ ?_ ?_ ?_ ?_ ?_) <;> first | exact Or.inl (hm.bit (by decide)) | exact Or.inr rfl | skip) | with_reducible refine KeepsO.next ?_
    | split
    | (extract_lets +onlyGivenNames x; first | (refine Keeps.cut s0 x ?_ fun h => ?_; rotate_left; clear_value x) | skip)
    | (unfold x; fail_if_success done)
    | intro h

/-! HostLink. -/

theorem hostResetCore_keeps {k s0 s} (h : Keeps k s0 s)
    (hm : Within 0x1a10#21 k := by first | assumption | exact Within.trans (by assumption) (by decide)) :
    Keeps k s0 (hostResetCore s) := by
  unfold hostResetCore
  repeat' first
    | with_reducible assumption | with_reducible refine releaseSemas_keeps ?_ | with_reducible refine Keeps.ite ?_ ?_ | with_reducible refine Keeps.foldl _ _ ?_ _ ?_ | fail_if_no_progress ((with_reducible refine Keeps.mk' ?_ rfl rfl rfl ?_ ?_ ?_ ?_ ?_ ?_ ?_ ?_ ?_ ?_ ?_ ?_ ?_ ?_ ?_ ?_ ?_ ?_ ?_ ?_ ?_) <;> first | exact Or.inl (hm.bit (by decide)) | exact Or.inr rfl | skip)
    | split
    | (extract_lets +onlyGivenNames x; first | (refine Keeps.cut s0 x ?_ fun h => ?_; rotate_left; clear_value x) | skip)
    | (unfold x; fail_if_success done)
    | intro h

theorem hostResetRegs_keeps {k s0 s a1} (h : Keeps k s0 s)
    (hm : Within 0x100800#21 k := by first | assumption | exact Within.trans (by assumption) (by decide)) :
    Keeps k s0 (hostResetRegs s a1) := by
  unfold hostResetRegs
  repeat' first
    | with_reducible assumption | with_reducible refine Keeps.ite ?_ ?_ | with_reducible refine Keeps.foldl _ _ ?_ _ ?_ | fail_if_no_progress ((with_reducible refine Keeps.mk' ?_ rfl rfl rfl ?_ ?_ ?_ ?_ ?_ ?_ ?_ ?_ ?_ ?_ ?_ ?_ ?_ ?_ ?_ ?_ ?_ ?_ ?_ ?_ ?_) <;> first | exact Or.inl (hm.bit (by decide)) | exact Or.inr rfl | skip)
    | split
    | (extract_lets +onlyGivenNames x; first | (refine Keeps.cut s0 x ?_ fun h => ?_; rotate_left; clear_value x) | skip)
    | (unfold x; fail_if_success done)
    | intro h

theorem execHostReset_keeps {k s0 a0 s} (h : Keeps k s0 s)
    (hm : Within 0x101a10#21 k := by first | assumption | exact Within.trans (by assumption) (by decide)) :
    KeepsO k s0 (execHostReset a0 s) := by
  unfold execHostReset
  repeat' first
    | with_reducible assumption | with_reducible refine hostResetRegs_keeps ?_ | with_reducible refine hostResetCore_keeps ?_ | with_reducible refine Keeps.ite ?_ ?_ | with_reducible refine Keeps.foldl _ _ ?_ _ ?_ | fail_if_no_progress ((with_reducible refine Keeps.mk' ?_ rfl rfl rfl ?_ ?_ ?_ ?_ ?_ ?_ ?_ ?_ ?_ ?_ ?_ ?_ ?_ ?_ ?_ ?_ ?_ ?_ ?_ ?_ ?_) <;> first | exact Or.inl (hm.bit (by decide)) | exact Or.inr rfl | skip) | with_reducible refine KeepsO.next ?_
    | split
    | (extract_lets +onlyGivenNames x; first | (refine Keeps.cut s0 x ?_ fun h => ?_; rotate_left; clear_value x) | skip)
    | (unfold x; fail_if_success done)
    | intro h

theorem declareDown_keeps {k s0 s} (h : Keeps k s0 s)
    (hm : Within 0x101a10#21 k := by first | assumption | exact Within.trans (by assumption) (by decide)) :
    Keeps k s0 (declareDown s) := by
  unfold declareDown
  repeat' first
    | with_reducible assumption | with_reducible refine hostResetRegs_keeps ?_ | with_reducible refine hostResetCore_keeps ?_ | with_reducible refine raise_keeps ?_ | with_reducible refine Keeps.ite ?_ ?_ | with_reducible refine Keeps.foldl _ _ ?_ _ ?_ | fail_if_no_progress ((with_reducible refine Keeps.mk' ?_ rfl rfl rfl ?_ ?_ ?_ ?_ ?_ ?_ ?_ ?_ ?_ ?_ ?_ ?_ ?_ ?_ ?_ ?_ ?_ ?_ ?_ ?_ ?_) <;> first | exact Or.inl (hm.bit (by decide)) | exact Or.inr rfl | skip)
    | split
    | (extract_lets +onlyGivenNames x; first | (refine Keeps.cut s0 x ?_ fun h => ?_; rotate_left; clear_value x) | skip)
    | (unfold x; fail_if_success done)
    | intro h

theorem startHostRetrain_keeps {k s0 s} (h : Keeps k s0 s)
    (hm : Within 0x100800#21 k := by first | assumption | exact Within.trans (by assumption) (by decide)) :
    Keeps k s0 (startHostRetrain s) := by
  unfold startHostRetrain
  repeat' first
    | with_reducible assumption | with_reducible refine raise_keeps ?_ | with_reducible refine Keeps.ite ?_ ?_ | with_reducible refine Keeps.foldl _ _ ?_ _ ?_ | fail_if_no_progress ((with_reducible refine Keeps.mk' ?_ rfl rfl rfl ?_ ?_ ?_ ?_ ?_ ?_ ?_ ?_ ?_ ?_ ?_ ?_ ?_ ?_ ?_ ?_ ?_ ?_ ?_ ?_ ?_) <;> first | exact Or.inl (hm.bit (by decide)) | exact Or.inr rfl | skip)
    | split
    | (extract_lets +onlyGivenNames x; first | (refine Keeps.cut s0 x ?_ fun h => ?_; rotate_left; clear_value x) | skip)
    | (unfold x; fail_if_success done)
    | intro h

theorem repairLane_keeps {k s0 s a1 a2 a3} (h : Keeps k s0 s)
    (hm : Within 0x100900#21 k := by first | assumption | exact Within.trans (by assumption) (by decide)) :
    KeepsL k s0 (repairLane s a1 a2 a3) := by
  unfold repairLane
  repeat' first
    | with_reducible assumption | with_reducible refine exhaust_keeps ?_ | with_reducible refine raise_keeps ?_ | with_reducible refine keepPut_keeps ?_ | with_reducible refine Keeps.ite ?_ ?_ | with_reducible refine Keeps.foldl _ _ ?_ _ ?_ | fail_if_no_progress ((with_reducible refine Keeps.mk' ?_ rfl rfl rfl ?_ ?_ ?_ ?_ ?_ ?_ ?_ ?_ ?_ ?_ ?_ ?_ ?_ ?_ ?_ ?_ ?_ ?_ ?_ ?_ ?_) <;> first | exact Or.inl (hm.bit (by decide)) | exact Or.inr rfl | skip) | with_reducible refine KeepsL.mk ?_
    | split
    | (extract_lets +onlyGivenNames x; first | (refine Keeps.cut s0 x ?_ fun h => ?_; rotate_left; clear_value x) | skip)
    | (unfold x; fail_if_success done)
    | intro h

theorem execUcieRetrain_keeps {k s0 a0 s} (h : Keeps k s0 s)
    (hm : Within 0x101b10#21 k := by first | assumption | exact Within.trans (by assumption) (by decide)) :
    KeepsO k s0 (execUcieRetrain a0 s) := by
  unfold execUcieRetrain
  repeat' first
    | with_reducible assumption | with_reducible refine repairLane_keeps ?_ | with_reducible refine startHostRetrain_keeps ?_ | with_reducible refine declareDown_keeps ?_ | with_reducible refine Keeps.ite ?_ ?_ | with_reducible refine Keeps.foldl _ _ ?_ _ ?_ | fail_if_no_progress ((with_reducible refine Keeps.mk' ?_ rfl rfl rfl ?_ ?_ ?_ ?_ ?_ ?_ ?_ ?_ ?_ ?_ ?_ ?_ ?_ ?_ ?_ ?_ ?_ ?_ ?_ ?_ ?_) <;> first | exact Or.inl (hm.bit (by decide)) | exact Or.inr rfl | skip) | with_reducible refine KeepsO.next ?_
    | split
    | (extract_lets +onlyGivenNames x; first | (refine Keeps.cut s0 x ?_ fun h => ?_; rotate_left; clear_value x) | skip)
    | (unfold x; fail_if_success done)
    | intro h
    | with_reducible refine KeepsR.elim ?_ (by assumption) | with_reducible refine KeepsL.elim ?_ (by assumption) | with_reducible refine KeepsOS.elim ?_ (by assumption) | with_reducible refine KeepsOR.elim ?_ (by assumption) | with_reducible refine KeepsOR3.elim ?_ (by assumption) | with_reducible refine KeepsL.proj ?_ | with_reducible refine KeepsR.proj ?_

theorem execUcieRetrainDone_keeps {k s0 s} (h : Keeps k s0 s)
    (hm : Within 0x810#21 k := by first | assumption | exact Within.trans (by assumption) (by decide)) :
    KeepsO k s0 (execUcieRetrainDone s) := by
  unfold execUcieRetrainDone
  repeat' first
    | with_reducible assumption | with_reducible refine Keeps.ite ?_ ?_ | with_reducible refine Keeps.foldl _ _ ?_ _ ?_ | fail_if_no_progress ((with_reducible refine Keeps.mk' ?_ rfl rfl rfl ?_ ?_ ?_ ?_ ?_ ?_ ?_ ?_ ?_ ?_ ?_ ?_ ?_ ?_ ?_ ?_ ?_ ?_ ?_ ?_ ?_) <;> first | exact Or.inl (hm.bit (by decide)) | exact Or.inr rfl | skip) | with_reducible refine KeepsO.next ?_
    | split
    | (extract_lets +onlyGivenNames x; first | (refine Keeps.cut s0 x ?_ fun h => ?_; rotate_left; clear_value x) | skip)
    | (unfold x; fail_if_success done)
    | intro h

theorem execLinkDown_keeps {k s0 s} (h : Keeps k s0 s)
    (hm : Within 0x101a10#21 k := by first | assumption | exact Within.trans (by assumption) (by decide)) :
    KeepsO k s0 (execLinkDown s) := by
  unfold execLinkDown
  repeat' first
    | with_reducible assumption | with_reducible refine declareDown_keeps ?_ | with_reducible refine Keeps.ite ?_ ?_ | with_reducible refine Keeps.foldl _ _ ?_ _ ?_ | fail_if_no_progress ((with_reducible refine Keeps.mk' ?_ rfl rfl rfl ?_ ?_ ?_ ?_ ?_ ?_ ?_ ?_ ?_ ?_ ?_ ?_ ?_ ?_ ?_ ?_ ?_ ?_ ?_ ?_ ?_) <;> first | exact Or.inl (hm.bit (by decide)) | exact Or.inr rfl | skip) | with_reducible refine KeepsO.next ?_
    | split
    | (extract_lets +onlyGivenNames x; first | (refine Keeps.cut s0 x ?_ fun h => ?_; rotate_left; clear_value x) | skip)
    | (unfold x; fail_if_success done)
    | intro h

theorem execLinkTrainRetry_keeps {k s0 a0 s} (h : Keeps k s0 s)
    (hm : Within 0x800#21 k := by first | assumption | exact Within.trans (by assumption) (by decide)) :
    KeepsO k s0 (execLinkTrainRetry a0 s) := by
  unfold execLinkTrainRetry
  repeat' first
    | with_reducible assumption | with_reducible refine Keeps.ite ?_ ?_ | with_reducible refine Keeps.foldl _ _ ?_ _ ?_ | fail_if_no_progress ((with_reducible refine Keeps.mk' ?_ rfl rfl rfl ?_ ?_ ?_ ?_ ?_ ?_ ?_ ?_ ?_ ?_ ?_ ?_ ?_ ?_ ?_ ?_ ?_ ?_ ?_ ?_ ?_) <;> first | exact Or.inl (hm.bit (by decide)) | exact Or.inr rfl | skip) | with_reducible refine KeepsO.next ?_
    | split
    | (extract_lets +onlyGivenNames x; first | (refine Keeps.cut s0 x ?_ fun h => ?_; rotate_left; clear_value x) | skip)
    | (unfold x; fail_if_success done)
    | intro h

theorem execUcieFlitCrcFail_keeps {k s0 s} (h : Keeps k s0 s)
    (hm : Within 0x800#21 k := by first | assumption | exact Within.trans (by assumption) (by decide)) :
    KeepsO k s0 (execUcieFlitCrcFail s) := by
  unfold execUcieFlitCrcFail
  repeat' first
    | with_reducible assumption | with_reducible refine Keeps.ite ?_ ?_ | with_reducible refine Keeps.foldl _ _ ?_ _ ?_ | fail_if_no_progress ((with_reducible refine Keeps.mk' ?_ rfl rfl rfl ?_ ?_ ?_ ?_ ?_ ?_ ?_ ?_ ?_ ?_ ?_ ?_ ?_ ?_ ?_ ?_ ?_ ?_ ?_ ?_ ?_) <;> first | exact Or.inl (hm.bit (by decide)) | exact Or.inr rfl | skip) | with_reducible refine KeepsO.next ?_
    | split
    | (extract_lets +onlyGivenNames x; first | (refine Keeps.cut s0 x ?_ fun h => ?_; rotate_left; clear_value x) | skip)
    | (unfold x; fail_if_success done)
    | intro h

theorem execGpfPhase1_keeps {k s0 s} (h : Keeps k s0 s)
    (hm : Within 0x800#21 k := by first | assumption | exact Within.trans (by assumption) (by decide)) :
    KeepsO k s0 (execGpfPhase1 s) := by
  unfold execGpfPhase1
  repeat' first
    | with_reducible assumption | with_reducible refine Keeps.ite ?_ ?_ | with_reducible refine Keeps.foldl _ _ ?_ _ ?_ | fail_if_no_progress ((with_reducible refine Keeps.mk' ?_ rfl rfl rfl ?_ ?_ ?_ ?_ ?_ ?_ ?_ ?_ ?_ ?_ ?_ ?_ ?_ ?_ ?_ ?_ ?_ ?_ ?_ ?_ ?_) <;> first | exact Or.inl (hm.bit (by decide)) | exact Or.inr rfl | skip) | with_reducible refine KeepsO.next ?_
    | split
    | (extract_lets +onlyGivenNames x; first | (refine Keeps.cut s0 x ?_ fun h => ?_; rotate_left; clear_value x) | skip)
    | (unfold x; fail_if_success done)
    | intro h

theorem execGpfPhase2_keeps {k s0 s} (h : Keeps k s0 s)
    (hm : Within 0x800#21 k := by first | assumption | exact Within.trans (by assumption) (by decide)) :
    KeepsO k s0 (execGpfPhase2 s) := by
  unfold execGpfPhase2
  repeat' first
    | with_reducible assumption | with_reducible refine Keeps.ite ?_ ?_ | with_reducible refine Keeps.foldl _ _ ?_ _ ?_ | fail_if_no_progress ((with_reducible refine Keeps.mk' ?_ rfl rfl rfl ?_ ?_ ?_ ?_ ?_ ?_ ?_ ?_ ?_ ?_ ?_ ?_ ?_ ?_ ?_ ?_ ?_ ?_ ?_ ?_ ?_) <;> first | exact Or.inl (hm.bit (by decide)) | exact Or.inr rfl | skip) | with_reducible refine KeepsO.next ?_
    | split
    | (extract_lets +onlyGivenNames x; first | (refine Keeps.cut s0 x ?_ fun h => ?_; rotate_left; clear_value x) | skip)
    | (unfold x; fail_if_success done)
    | intro h

theorem execMemEnableSet_keeps {k s0 s} (h : Keeps k s0 s)
    (hm : Within 0x101a00#21 k := by first | assumption | exact Within.trans (by assumption) (by decide)) :
    KeepsO k s0 (execMemEnableSet s) := by
  unfold execMemEnableSet
  repeat' first
    | with_reducible assumption | with_reducible refine closeWindow_keeps ?_ | with_reducible refine Keeps.ite ?_ ?_ | with_reducible refine Keeps.foldl _ _ ?_ _ ?_ | fail_if_no_progress ((with_reducible refine Keeps.mk' ?_ rfl rfl rfl ?_ ?_ ?_ ?_ ?_ ?_ ?_ ?_ ?_ ?_ ?_ ?_ ?_ ?_ ?_ ?_ ?_ ?_ ?_ ?_ ?_) <;> first | exact Or.inl (hm.bit (by decide)) | exact Or.inr rfl | skip) | with_reducible refine KeepsO.next ?_
    | split
    | (extract_lets +onlyGivenNames x; first | (refine Keeps.cut s0 x ?_ fun h => ?_; rotate_left; clear_value x) | skip)
    | (unfold x; fail_if_success done)
    | intro h

theorem execHdmDecoderCommit_keeps {k s0 a0 a1 s} (h : Keeps k s0 s)
    (hm : Within 0x800#21 k := by first | assumption | exact Within.trans (by assumption) (by decide)) :
    KeepsO k s0 (execHdmDecoderCommit a0 a1 s) := by
  unfold execHdmDecoderCommit
  repeat' first
    | with_reducible assumption | with_reducible refine Keeps.ite ?_ ?_ | with_reducible refine Keeps.foldl _ _ ?_ _ ?_ | fail_if_no_progress ((with_reducible refine Keeps.mk' ?_ rfl rfl rfl ?_ ?_ ?_ ?_ ?_ ?_ ?_ ?_ ?_ ?_ ?_ ?_ ?_ ?_ ?_ ?_ ?_ ?_ ?_ ?_ ?_) <;> first | exact Or.inl (hm.bit (by decide)) | exact Or.inr rfl | skip) | with_reducible refine KeepsO.next ?_
    | split
    | (extract_lets +onlyGivenNames x; first | (refine Keeps.cut s0 x ?_ fun h => ?_; rotate_left; clear_value x) | skip)
    | (unfold x; fail_if_success done)
    | intro h

theorem decodersLive_keeps {k s0 s} (h : Keeps k s0 s)
    (hm : Within 0x800#21 k := by first | assumption | exact Within.trans (by assumption) (by decide)) :
    Keeps k s0 (decodersLive s) := by
  unfold decodersLive
  repeat' first
    | with_reducible assumption | with_reducible refine Keeps.ite ?_ ?_ | with_reducible refine Keeps.foldl _ _ ?_ _ ?_ | fail_if_no_progress ((with_reducible refine Keeps.mk' ?_ rfl rfl rfl ?_ ?_ ?_ ?_ ?_ ?_ ?_ ?_ ?_ ?_ ?_ ?_ ?_ ?_ ?_ ?_ ?_ ?_ ?_ ?_ ?_) <;> first | exact Or.inl (hm.bit (by decide)) | exact Or.inr rfl | skip)
    | split
    | (extract_lets +onlyGivenNames x; first | (refine Keeps.cut s0 x ?_ fun h => ?_; rotate_left; clear_value x) | skip)
    | (unfold x; fail_if_success done)
    | intro h

theorem unmaskVector_keeps {k s0 s a1} (h : Keeps k s0 s)
    (hm : Within 0x100000#21 k := by first | assumption | exact Within.trans (by assumption) (by decide)) :
    Keeps k s0 (unmaskVector s a1) := by
  unfold unmaskVector
  repeat' first
    | with_reducible assumption | with_reducible refine Keeps.ite ?_ ?_ | with_reducible refine Keeps.foldl _ _ ?_ _ ?_ | fail_if_no_progress ((with_reducible refine Keeps.mk' ?_ rfl rfl rfl ?_ ?_ ?_ ?_ ?_ ?_ ?_ ?_ ?_ ?_ ?_ ?_ ?_ ?_ ?_ ?_ ?_ ?_ ?_ ?_ ?_) <;> first | exact Or.inl (hm.bit (by decide)) | exact Or.inr rfl | skip)
    | split
    | (extract_lets +onlyGivenNames x; first | (refine Keeps.cut s0 x ?_ fun h => ?_; rotate_left; clear_value x) | skip)
    | (unfold x; fail_if_success done)
    | intro h

theorem execMsixUnmask_keeps {k s0 a0 s} (h : Keeps k s0 s)
    (hm : Within 0x100000#21 k := by first | assumption | exact Within.trans (by assumption) (by decide)) :
    KeepsO k s0 (execMsixUnmask a0 s) := by
  unfold execMsixUnmask
  repeat' first
    | with_reducible assumption | with_reducible refine unmaskVector_keeps ?_ | with_reducible refine Keeps.ite ?_ ?_ | with_reducible refine Keeps.foldl _ _ ?_ _ ?_ | fail_if_no_progress ((with_reducible refine Keeps.mk' ?_ rfl rfl rfl ?_ ?_ ?_ ?_ ?_ ?_ ?_ ?_ ?_ ?_ ?_ ?_ ?_ ?_ ?_ ?_ ?_ ?_ ?_ ?_ ?_) <;> first | exact Or.inl (hm.bit (by decide)) | exact Or.inr rfl | skip) | with_reducible refine KeepsO.next ?_
    | split
    | (extract_lets +onlyGivenNames x; first | (refine Keeps.cut s0 x ?_ fun h => ?_; rotate_left; clear_value x) | skip)
    | (unfold x; fail_if_success done)
    | intro h

theorem execDoeCdat_keeps {k s0 a0 s} (h : Keeps k s0 s)
    (hm : Within 0x800#21 k := by first | assumption | exact Within.trans (by assumption) (by decide)) :
    KeepsO k s0 (execDoeCdat a0 s) := by
  unfold execDoeCdat
  repeat' first
    | with_reducible assumption | with_reducible refine Keeps.ite ?_ ?_ | with_reducible refine Keeps.foldl _ _ ?_ _ ?_ | fail_if_no_progress ((with_reducible refine Keeps.mk' ?_ rfl rfl rfl ?_ ?_ ?_ ?_ ?_ ?_ ?_ ?_ ?_ ?_ ?_ ?_ ?_ ?_ ?_ ?_ ?_ ?_ ?_ ?_ ?_) <;> first | exact Or.inl (hm.bit (by decide)) | exact Or.inr rfl | skip) | with_reducible refine KeepsO.next ?_
    | split
    | (extract_lets +onlyGivenNames x; first | (refine Keeps.cut s0 x ?_ fun h => ?_; rotate_left; clear_value x) | skip)
    | (unfold x; fail_if_success done)
    | intro h

theorem execSpdmRequest_keeps {k s0 a0 a1 s} (h : Keeps k s0 s)
    (hm : Within 0x800#21 k := by first | assumption | exact Within.trans (by assumption) (by decide)) :
    KeepsO k s0 (execSpdmRequest a0 a1 s) := by
  unfold execSpdmRequest
  repeat' first
    | with_reducible assumption | with_reducible refine Keeps.ite ?_ ?_ | with_reducible refine Keeps.foldl _ _ ?_ _ ?_ | fail_if_no_progress ((with_reducible refine Keeps.mk' ?_ rfl rfl rfl ?_ ?_ ?_ ?_ ?_ ?_ ?_ ?_ ?_ ?_ ?_ ?_ ?_ ?_ ?_ ?_ ?_ ?_ ?_ ?_ ?_) <;> first | exact Or.inl (hm.bit (by decide)) | exact Or.inr rfl | skip) | with_reducible refine KeepsO.next ?_
    | split
    | (extract_lets +onlyGivenNames x; first | (refine Keeps.cut s0 x ?_ fun h => ?_; rotate_left; clear_value x) | skip)
    | (unfold x; fail_if_success done)
    | intro h

theorem execIdeKmKeyProg_keeps {k s0 a0 s} (h : Keeps k s0 s)
    (hm : Within 0x200#21 k := by first | assumption | exact Within.trans (by assumption) (by decide)) :
    KeepsO k s0 (execIdeKmKeyProg a0 s) := by
  unfold execIdeKmKeyProg
  repeat' first
    | with_reducible assumption | with_reducible refine Keeps.ite ?_ ?_ | with_reducible refine Keeps.foldl _ _ ?_ _ ?_ | fail_if_no_progress ((with_reducible refine Keeps.mk' ?_ rfl rfl rfl ?_ ?_ ?_ ?_ ?_ ?_ ?_ ?_ ?_ ?_ ?_ ?_ ?_ ?_ ?_ ?_ ?_ ?_ ?_ ?_ ?_) <;> first | exact Or.inl (hm.bit (by decide)) | exact Or.inr rfl | skip) | with_reducible refine KeepsO.next ?_
    | split
    | (extract_lets +onlyGivenNames x; first | (refine Keeps.cut s0 x ?_ fun h => ?_; rotate_left; clear_value x) | skip)
    | (unfold x; fail_if_success done)
    | intro h

theorem execIdeKmKSetGo_keeps {k s0 a0 s} (h : Keeps k s0 s)
    (hm : Within 0x200#21 k := by first | assumption | exact Within.trans (by assumption) (by decide)) :
    KeepsO k s0 (execIdeKmKSetGo a0 s) := by
  unfold execIdeKmKSetGo
  repeat' first
    | with_reducible assumption | with_reducible refine Keeps.ite ?_ ?_ | with_reducible refine Keeps.foldl _ _ ?_ _ ?_ | fail_if_no_progress ((with_reducible refine Keeps.mk' ?_ rfl rfl rfl ?_ ?_ ?_ ?_ ?_ ?_ ?_ ?_ ?_ ?_ ?_ ?_ ?_ ?_ ?_ ?_ ?_ ?_ ?_ ?_ ?_) <;> first | exact Or.inl (hm.bit (by decide)) | exact Or.inr rfl | skip) | with_reducible refine KeepsO.next ?_
    | split
    | (extract_lets +onlyGivenNames x; first | (refine Keeps.cut s0 x ?_ fun h => ?_; rotate_left; clear_value x) | skip)
    | (unfold x; fail_if_success done)
    | intro h

theorem execIdeKmKSetStop_keeps {k s0 a0 s} (h : Keeps k s0 s)
    (hm : Within 0x200#21 k := by first | assumption | exact Within.trans (by assumption) (by decide)) :
    KeepsO k s0 (execIdeKmKSetStop a0 s) := by
  unfold execIdeKmKSetStop
  repeat' first
    | with_reducible assumption | with_reducible refine Keeps.ite ?_ ?_ | with_reducible refine Keeps.foldl _ _ ?_ _ ?_ | fail_if_no_progress ((with_reducible refine Keeps.mk' ?_ rfl rfl rfl ?_ ?_ ?_ ?_ ?_ ?_ ?_ ?_ ?_ ?_ ?_ ?_ ?_ ?_ ?_ ?_ ?_ ?_ ?_ ?_ ?_) <;> first | exact Or.inl (hm.bit (by decide)) | exact Or.inr rfl | skip) | with_reducible refine KeepsO.next ?_
    | split
    | (extract_lets +onlyGivenNames x; first | (refine Keeps.cut s0 x ?_ fun h => ?_; rotate_left; clear_value x) | skip)
    | (unfold x; fail_if_success done)
    | intro h

theorem execIdeIntegrityFailure_keeps {k s0 a0 s} (h : Keeps k s0 s)
    (hm : Within 0x100a00#21 k := by first | assumption | exact Within.trans (by assumption) (by decide)) :
    KeepsO k s0 (execIdeIntegrityFailure a0 s) := by
  unfold execIdeIntegrityFailure
  repeat' first
    | with_reducible assumption | with_reducible refine raise_keeps ?_ | with_reducible refine Keeps.ite ?_ ?_ | with_reducible refine Keeps.foldl _ _ ?_ _ ?_ | fail_if_no_progress ((with_reducible refine Keeps.mk' ?_ rfl rfl rfl ?_ ?_ ?_ ?_ ?_ ?_ ?_ ?_ ?_ ?_ ?_ ?_ ?_ ?_ ?_ ?_ ?_ ?_ ?_ ?_ ?_) <;> first | exact Or.inl (hm.bit (by decide)) | exact Or.inr rfl | skip) | with_reducible refine KeepsO.next ?_
    | split
    | (extract_lets +onlyGivenNames x; first | (refine Keeps.cut s0 x ?_ fun h => ?_; rotate_left; clear_value x) | skip)
    | (unfold x; fail_if_success done)
    | intro h

/-! Mailbox. -/

theorem mboxReply_keeps {k s0 s a1 a2 a3} (h : Keeps k s0 s)
    (hm : Within 0x100800#21 k := by first | assumption | exact Within.trans (by assumption) (by decide)) :
    Keeps k s0 (mboxReply s a1 a2 a3) := by
  unfold mboxReply
  repeat' first
    | with_reducible assumption | with_reducible refine signalVector_keeps ?_ | with_reducible refine Keeps.ite ?_ ?_ | with_reducible refine Keeps.foldl _ _ ?_ _ ?_ | fail_if_no_progress ((with_reducible refine Keeps.mk' ?_ rfl rfl rfl ?_ ?_ ?_ ?_ ?_ ?_ ?_ ?_ ?_ ?_ ?_ ?_ ?_ ?_ ?_ ?_ ?_ ?_ ?_ ?_ ?_) <;> first | exact Or.inl (hm.bit (by decide)) | exact Or.inr rfl | skip)
    | split
    | (extract_lets +onlyGivenNames x; first | (refine Keeps.cut s0 x ?_ fun h => ?_; rotate_left; clear_value x) | skip)
    | (unfold x; fail_if_success done)
    | intro h

theorem mbox_keeps {k s0 s a1 a2} (h : Keeps k s0 s) (ha : ∀ t, Keeps k s0 t → Keeps k s0 (a2 t))
    (hm : Within 0x100800#21 k := by first | assumption | exact Within.trans (by assumption) (by decide)) : Keeps k s0 (mbox s a1 a2) := by
  unfold mbox
  exact .ite h (.ite (.ite (ha _ h) (mboxReply_keeps h)) (.ite (mboxReply_keeps h) (ha _ h)))

theorem execCxlGetEventRecords_keeps {k s0 a0 a1 s} (h : Keeps k s0 s)
    (hm : Within 0x100800#21 k := by first | assumption | exact Within.trans (by assumption) (by decide)) :
    KeepsO k s0 (execCxlGetEventRecords a0 a1 s) := by
  unfold execCxlGetEventRecords
  repeat' first
    | with_reducible assumption | with_reducible refine mbox_keeps ?_ (fun _ _ => ?_) | with_reducible refine mboxReply_keeps ?_ | with_reducible refine Keeps.ite ?_ ?_ | with_reducible refine Keeps.foldl _ _ ?_ _ ?_ | fail_if_no_progress ((with_reducible refine Keeps.mk' ?_ rfl rfl rfl ?_ ?_ ?_ ?_ ?_ ?_ ?_ ?_ ?_ ?_ ?_ ?_ ?_ ?_ ?_ ?_ ?_ ?_ ?_ ?_ ?_) <;> first | exact Or.inl (hm.bit (by decide)) | exact Or.inr rfl | skip) | with_reducible refine KeepsO.next ?_
    | split
    | (extract_lets +onlyGivenNames x; first | (refine Keeps.cut s0 x ?_ fun h => ?_; rotate_left; clear_value x) | skip)
    | (unfold x; fail_if_success done)
    | intro h

theorem execCxlClearEventRecords_keeps {k s0 a0 a1 a2 s} (h : Keeps k s0 s)
    (hm : Within 0x100800#21 k := by first | assumption | exact Within.trans (by assumption) (by decide)) :
    KeepsO k s0 (execCxlClearEventRecords a0 a1 a2 s) := by
  unfold execCxlClearEventRecords
  repeat' first
    | with_reducible assumption | with_reducible refine mbox_keeps ?_ (fun _ _ => ?_) | with_reducible refine mboxReply_keeps ?_ | with_reducible refine Keeps.ite ?_ ?_ | with_reducible refine Keeps.foldl _ _ ?_ _ ?_ | fail_if_no_progress ((with_reducible refine Keeps.mk' ?_ rfl rfl rfl ?_ ?_ ?_ ?_ ?_ ?_ ?_ ?_ ?_ ?_ ?_ ?_ ?_ ?_ ?_ ?_ ?_ ?_ ?_ ?_ ?_) <;> first | exact Or.inl (hm.bit (by decide)) | exact Or.inr rfl | skip) | with_reducible refine KeepsO.next ?_
    | split
    | (extract_lets +onlyGivenNames x; first | (refine Keeps.cut s0 x ?_ fun h => ?_; rotate_left; clear_value x) | skip)
    | (unfold x; fail_if_success done)
    | intro h

theorem execCxlGetEventInterruptPolicy_keeps {k s0 s} (h : Keeps k s0 s)
    (hm : Within 0x100800#21 k := by first | assumption | exact Within.trans (by assumption) (by decide)) :
    KeepsO k s0 (execCxlGetEventInterruptPolicy s) := by
  unfold execCxlGetEventInterruptPolicy
  repeat' first
    | with_reducible assumption | with_reducible refine mbox_keeps ?_ (fun _ _ => ?_) | with_reducible refine mboxReply_keeps ?_ | with_reducible refine Keeps.ite ?_ ?_ | with_reducible refine Keeps.foldl _ _ ?_ _ ?_ | fail_if_no_progress ((with_reducible refine Keeps.mk' ?_ rfl rfl rfl ?_ ?_ ?_ ?_ ?_ ?_ ?_ ?_ ?_ ?_ ?_ ?_ ?_ ?_ ?_ ?_ ?_ ?_ ?_ ?_ ?_) <;> first | exact Or.inl (hm.bit (by decide)) | exact Or.inr rfl | skip) | with_reducible refine KeepsO.next ?_
    | split
    | (extract_lets +onlyGivenNames x; first | (refine Keeps.cut s0 x ?_ fun h => ?_; rotate_left; clear_value x) | skip)
    | (unfold x; fail_if_success done)
    | intro h

theorem execCxlSetEventInterruptPolicy_keeps {k s0 a0 s} (h : Keeps k s0 s)
    (hm : Within 0x100800#21 k := by first | assumption | exact Within.trans (by assumption) (by decide)) :
    KeepsO k s0 (execCxlSetEventInterruptPolicy a0 s) := by
  unfold execCxlSetEventInterruptPolicy
  repeat' first
    | with_reducible assumption | with_reducible refine mbox_keeps ?_ (fun _ _ => ?_) | with_reducible refine mboxReply_keeps ?_ | with_reducible refine Keeps.ite ?_ ?_ | with_reducible refine Keeps.foldl _ _ ?_ _ ?_ | fail_if_no_progress ((with_reducible refine Keeps.mk' ?_ rfl rfl rfl ?_ ?_ ?_ ?_ ?_ ?_ ?_ ?_ ?_ ?_ ?_ ?_ ?_ ?_ ?_ ?_ ?_ ?_ ?_ ?_ ?_) <;> first | exact Or.inl (hm.bit (by decide)) | exact Or.inr rfl | skip) | with_reducible refine KeepsO.next ?_
    | split
    | (extract_lets +onlyGivenNames x; first | (refine Keeps.cut s0 x ?_ fun h => ?_; rotate_left; clear_value x) | skip)
    | (unfold x; fail_if_success done)
    | intro h

theorem execCxlGetFwInfo_keeps {k s0 s} (h : Keeps k s0 s)
    (hm : Within 0x100800#21 k := by first | assumption | exact Within.trans (by assumption) (by decide)) :
    KeepsO k s0 (execCxlGetFwInfo s) := by
  unfold execCxlGetFwInfo
  repeat' first
    | with_reducible assumption | with_reducible refine mbox_keeps ?_ (fun _ _ => ?_) | with_reducible refine mboxReply_keeps ?_ | with_reducible refine Keeps.ite ?_ ?_ | with_reducible refine Keeps.foldl _ _ ?_ _ ?_ | fail_if_no_progress ((with_reducible refine Keeps.mk' ?_ rfl rfl rfl ?_ ?_ ?_ ?_ ?_ ?_ ?_ ?_ ?_ ?_ ?_ ?_ ?_ ?_ ?_ ?_ ?_ ?_ ?_ ?_ ?_) <;> first | exact Or.inl (hm.bit (by decide)) | exact Or.inr rfl | skip) | with_reducible refine KeepsO.next ?_
    | split
    | (extract_lets +onlyGivenNames x; first | (refine Keeps.cut s0 x ?_ fun h => ?_; rotate_left; clear_value x) | skip)
    | (unfold x; fail_if_success done)
    | intro h

theorem execCxlGetTimestamp_keeps {k s0 s} (h : Keeps k s0 s)
    (hm : Within 0x100800#21 k := by first | assumption | exact Within.trans (by assumption) (by decide)) :
    KeepsO k s0 (execCxlGetTimestamp s) := by
  unfold execCxlGetTimestamp
  repeat' first
    | with_reducible assumption | with_reducible refine mbox_keeps ?_ (fun _ _ => ?_) | with_reducible refine mboxReply_keeps ?_ | with_reducible refine Keeps.ite ?_ ?_ | with_reducible refine Keeps.foldl _ _ ?_ _ ?_ | fail_if_no_progress ((with_reducible refine Keeps.mk' ?_ rfl rfl rfl ?_ ?_ ?_ ?_ ?_ ?_ ?_ ?_ ?_ ?_ ?_ ?_ ?_ ?_ ?_ ?_ ?_ ?_ ?_ ?_ ?_) <;> first | exact Or.inl (hm.bit (by decide)) | exact Or.inr rfl | skip) | with_reducible refine KeepsO.next ?_
    | split
    | (extract_lets +onlyGivenNames x; first | (refine Keeps.cut s0 x ?_ fun h => ?_; rotate_left; clear_value x) | skip)
    | (unfold x; fail_if_success done)
    | intro h

theorem execCxlSetTimestamp_keeps {k s0 a0 s} (h : Keeps k s0 s)
    (hm : Within 0x110801#21 k := by first | assumption | exact Within.trans (by assumption) (by decide)) :
    KeepsO k s0 (execCxlSetTimestamp a0 s) := by
  unfold execCxlSetTimestamp
  repeat' first
    | with_reducible assumption | with_reducible refine mbox_keeps ?_ (fun _ _ => ?_) | with_reducible refine mboxReply_keeps ?_ | with_reducible refine setHostTime_keeps ?_ | with_reducible refine Keeps.ite ?_ ?_ | with_reducible refine Keeps.foldl _ _ ?_ _ ?_ | fail_if_no_progress ((with_reducible refine Keeps.mk' ?_ rfl rfl rfl ?_ ?_ ?_ ?_ ?_ ?_ ?_ ?_ ?_ ?_ ?_ ?_ ?_ ?_ ?_ ?_ ?_ ?_ ?_ ?_ ?_) <;> first | exact Or.inl (hm.bit (by decide)) | exact Or.inr rfl | skip) | with_reducible refine KeepsO.next ?_
    | split
    | (extract_lets +onlyGivenNames x; first | (refine Keeps.cut s0 x ?_ fun h => ?_; rotate_left; clear_value x) | skip)
    | (unfold x; fail_if_success done)
    | intro h

theorem execCxlGetSupportedLogs_keeps {k s0 s} (h : Keeps k s0 s)
    (hm : Within 0x100800#21 k := by first | assumption | exact Within.trans (by assumption) (by decide)) :
    KeepsO k s0 (execCxlGetSupportedLogs s) := by
  unfold execCxlGetSupportedLogs
  repeat' first
    | with_reducible assumption | with_reducible refine mbox_keeps ?_ (fun _ _ => ?_) | with_reducible refine mboxReply_keeps ?_ | with_reducible refine Keeps.ite ?_ ?_ | with_reducible refine Keeps.foldl _ _ ?_ _ ?_ | fail_if_no_progress ((with_reducible refine Keeps.mk' ?_ rfl rfl rfl ?_ ?_ ?_ ?_ ?_ ?_ ?_ ?_ ?_ ?_ ?_ ?_ ?_ ?_ ?_ ?_ ?_ ?_ ?_ ?_ ?_) <;> first | exact Or.inl (hm.bit (by decide)) | exact Or.inr rfl | skip) | with_reducible refine KeepsO.next ?_
    | split
    | (extract_lets +onlyGivenNames x; first | (refine Keeps.cut s0 x ?_ fun h => ?_; rotate_left; clear_value x) | skip)
    | (unfold x; fail_if_success done)
    | intro h

theorem execCxlGetLog_keeps {k s0 a0 a1 a2 s} (h : Keeps k s0 s)
    (hm : Within 0x100800#21 k := by first | assumption | exact Within.trans (by assumption) (by decide)) :
    KeepsO k s0 (execCxlGetLog a0 a1 a2 s) := by
  unfold execCxlGetLog
  repeat' first
    | with_reducible assumption | with_reducible refine mbox_keeps ?_ (fun _ _ => ?_) | with_reducible refine mboxReply_keeps ?_ | with_reducible refine Keeps.ite ?_ ?_ | with_reducible refine Keeps.foldl _ _ ?_ _ ?_ | fail_if_no_progress ((with_reducible refine Keeps.mk' ?_ rfl rfl rfl ?_ ?_ ?_ ?_ ?_ ?_ ?_ ?_ ?_ ?_ ?_ ?_ ?_ ?_ ?_ ?_ ?_ ?_ ?_ ?_ ?_) <;> first | exact Or.inl (hm.bit (by decide)) | exact Or.inr rfl | skip) | with_reducible refine KeepsO.next ?_
    | split
    | (extract_lets +onlyGivenNames x; first | (refine Keeps.cut s0 x ?_ fun h => ?_; rotate_left; clear_value x) | skip)
    | (unfold x; fail_if_success done)
    | intro h

theorem execCxlIdentifyMemoryDevice_keeps {k s0 s} (h : Keeps k s0 s)
    (hm : Within 0x100800#21 k := by first | assumption | exact Within.trans (by assumption) (by decide)) :
    KeepsO k s0 (execCxlIdentifyMemoryDevice s) := by
  unfold execCxlIdentifyMemoryDevice
  repeat' first
    | with_reducible assumption | with_reducible refine mbox_keeps ?_ (fun _ _ => ?_) | with_reducible refine mboxReply_keeps ?_ | with_reducible refine Keeps.ite ?_ ?_ | with_reducible refine Keeps.foldl _ _ ?_ _ ?_ | fail_if_no_progress ((with_reducible refine Keeps.mk' ?_ rfl rfl rfl ?_ ?_ ?_ ?_ ?_ ?_ ?_ ?_ ?_ ?_ ?_ ?_ ?_ ?_ ?_ ?_ ?_ ?_ ?_ ?_ ?_) <;> first | exact Or.inl (hm.bit (by decide)) | exact Or.inr rfl | skip) | with_reducible refine KeepsO.next ?_
    | split
    | (extract_lets +onlyGivenNames x; first | (refine Keeps.cut s0 x ?_ fun h => ?_; rotate_left; clear_value x) | skip)
    | (unfold x; fail_if_success done)
    | intro h

theorem execCxlGetHealthInfo_keeps {k s0 s} (h : Keeps k s0 s)
    (hm : Within 0x100800#21 k := by first | assumption | exact Within.trans (by assumption) (by decide)) :
    KeepsO k s0 (execCxlGetHealthInfo s) := by
  unfold execCxlGetHealthInfo
  repeat' first
    | with_reducible assumption | with_reducible refine mbox_keeps ?_ (fun _ _ => ?_) | with_reducible refine mboxReply_keeps ?_ | with_reducible refine Keeps.ite ?_ ?_ | with_reducible refine Keeps.foldl _ _ ?_ _ ?_ | fail_if_no_progress ((with_reducible refine Keeps.mk' ?_ rfl rfl rfl ?_ ?_ ?_ ?_ ?_ ?_ ?_ ?_ ?_ ?_ ?_ ?_ ?_ ?_ ?_ ?_ ?_ ?_ ?_ ?_ ?_) <;> first | exact Or.inl (hm.bit (by decide)) | exact Or.inr rfl | skip) | with_reducible refine KeepsO.next ?_
    | split
    | (extract_lets +onlyGivenNames x; first | (refine Keeps.cut s0 x ?_ fun h => ?_; rotate_left; clear_value x) | skip)
    | (unfold x; fail_if_success done)
    | intro h

theorem execCxlGetAlertConfig_keeps {k s0 s} (h : Keeps k s0 s)
    (hm : Within 0x100800#21 k := by first | assumption | exact Within.trans (by assumption) (by decide)) :
    KeepsO k s0 (execCxlGetAlertConfig s) := by
  unfold execCxlGetAlertConfig
  repeat' first
    | with_reducible assumption | with_reducible refine mbox_keeps ?_ (fun _ _ => ?_) | with_reducible refine mboxReply_keeps ?_ | with_reducible refine Keeps.ite ?_ ?_ | with_reducible refine Keeps.foldl _ _ ?_ _ ?_ | fail_if_no_progress ((with_reducible refine Keeps.mk' ?_ rfl rfl rfl ?_ ?_ ?_ ?_ ?_ ?_ ?_ ?_ ?_ ?_ ?_ ?_ ?_ ?_ ?_ ?_ ?_ ?_ ?_ ?_ ?_) <;> first | exact Or.inl (hm.bit (by decide)) | exact Or.inr rfl | skip) | with_reducible refine KeepsO.next ?_
    | split
    | (extract_lets +onlyGivenNames x; first | (refine Keeps.cut s0 x ?_ fun h => ?_; rotate_left; clear_value x) | skip)
    | (unfold x; fail_if_success done)
    | intro h

theorem execCxlSetAlertConfig_keeps {k s0 a0 a1 a2 s} (h : Keeps k s0 s)
    (hm : Within 0x100800#21 k := by first | assumption | exact Within.trans (by assumption) (by decide)) :
    KeepsO k s0 (execCxlSetAlertConfig a0 a1 a2 s) := by
  unfold execCxlSetAlertConfig
  repeat' first
    | with_reducible assumption | with_reducible refine mbox_keeps ?_ (fun _ _ => ?_) | with_reducible refine mboxReply_keeps ?_ | with_reducible refine Keeps.ite ?_ ?_ | with_reducible refine Keeps.foldl _ _ ?_ _ ?_ | fail_if_no_progress ((with_reducible refine Keeps.mk' ?_ rfl rfl rfl ?_ ?_ ?_ ?_ ?_ ?_ ?_ ?_ ?_ ?_ ?_ ?_ ?_ ?_ ?_ ?_ ?_ ?_ ?_ ?_ ?_) <;> first | exact Or.inl (hm.bit (by decide)) | exact Or.inr rfl | skip) | with_reducible refine KeepsO.next ?_
    | split
    | (extract_lets +onlyGivenNames x; first | (refine Keeps.cut s0 x ?_ fun h => ?_; rotate_left; clear_value x) | skip)
    | (unfold x; fail_if_success done)
    | intro h

theorem execCxlGetShutdownState_keeps {k s0 s} (h : Keeps k s0 s)
    (hm : Within 0x100800#21 k := by first | assumption | exact Within.trans (by assumption) (by decide)) :
    KeepsO k s0 (execCxlGetShutdownState s) := by
  unfold execCxlGetShutdownState
  repeat' first
    | with_reducible assumption | with_reducible refine mbox_keeps ?_ (fun _ _ => ?_) | with_reducible refine mboxReply_keeps ?_ | with_reducible refine Keeps.ite ?_ ?_ | with_reducible refine Keeps.foldl _ _ ?_ _ ?_ | fail_if_no_progress ((with_reducible refine Keeps.mk' ?_ rfl rfl rfl ?_ ?_ ?_ ?_ ?_ ?_ ?_ ?_ ?_ ?_ ?_ ?_ ?_ ?_ ?_ ?_ ?_ ?_ ?_ ?_ ?_) <;> first | exact Or.inl (hm.bit (by decide)) | exact Or.inr rfl | skip) | with_reducible refine KeepsO.next ?_
    | split
    | (extract_lets +onlyGivenNames x; first | (refine Keeps.cut s0 x ?_ fun h => ?_; rotate_left; clear_value x) | skip)
    | (unfold x; fail_if_success done)
    | intro h

theorem execCxlSetShutdownState_keeps {k s0 a0 s} (h : Keeps k s0 s)
    (hm : Within 0x100800#21 k := by first | assumption | exact Within.trans (by assumption) (by decide)) :
    KeepsO k s0 (execCxlSetShutdownState a0 s) := by
  unfold execCxlSetShutdownState
  repeat' first
    | with_reducible assumption | with_reducible refine mbox_keeps ?_ (fun _ _ => ?_) | with_reducible refine mboxReply_keeps ?_ | with_reducible refine keepPut_keeps ?_ | with_reducible refine Keeps.ite ?_ ?_ | with_reducible refine Keeps.foldl _ _ ?_ _ ?_ | fail_if_no_progress ((with_reducible refine Keeps.mk' ?_ rfl rfl rfl ?_ ?_ ?_ ?_ ?_ ?_ ?_ ?_ ?_ ?_ ?_ ?_ ?_ ?_ ?_ ?_ ?_ ?_ ?_ ?_ ?_) <;> first | exact Or.inl (hm.bit (by decide)) | exact Or.inr rfl | skip) | with_reducible refine KeepsO.next ?_
    | split
    | (extract_lets +onlyGivenNames x; first | (refine Keeps.cut s0 x ?_ fun h => ?_; rotate_left; clear_value x) | skip)
    | (unfold x; fail_if_success done)
    | intro h

theorem execCxlGetPoisonList_keeps {k s0 a0 a1 s} (h : Keeps k s0 s)
    (hm : Within 0x100800#21 k := by first | assumption | exact Within.trans (by assumption) (by decide)) :
    KeepsO k s0 (execCxlGetPoisonList a0 a1 s) := by
  unfold execCxlGetPoisonList
  repeat' first
    | with_reducible assumption | with_reducible refine mbox_keeps ?_ (fun _ _ => ?_) | with_reducible refine mboxReply_keeps ?_ | with_reducible refine Keeps.ite ?_ ?_ | with_reducible refine Keeps.foldl _ _ ?_ _ ?_ | fail_if_no_progress ((with_reducible refine Keeps.mk' ?_ rfl rfl rfl ?_ ?_ ?_ ?_ ?_ ?_ ?_ ?_ ?_ ?_ ?_ ?_ ?_ ?_ ?_ ?_ ?_ ?_ ?_ ?_ ?_) <;> first | exact Or.inl (hm.bit (by decide)) | exact Or.inr rfl | skip) | with_reducible refine KeepsO.next ?_
    | split
    | (extract_lets +onlyGivenNames x; first | (refine Keeps.cut s0 x ?_ fun h => ?_; rotate_left; clear_value x) | skip)
    | (unfold x; fail_if_success done)
    | intro h

theorem execCxlInjectPoison_keeps {k s0 a0 s} (h : Keeps k s0 s)
    (hm : Within 0x100888#21 k := by first | assumption | exact Within.trans (by assumption) (by decide)) :
    KeepsO k s0 (execCxlInjectPoison a0 s) := by
  unfold execCxlInjectPoison
  repeat' first
    | with_reducible assumption | with_reducible refine mbox_keeps ?_ (fun _ _ => ?_) | with_reducible refine mboxReply_keeps ?_ | with_reducible refine placeMarker_keeps ?_ | with_reducible refine poisonEnter_keeps ?_ | with_reducible refine Keeps.ite ?_ ?_ | with_reducible refine Keeps.foldl _ _ ?_ _ ?_ | fail_if_no_progress ((with_reducible refine Keeps.mk' ?_ rfl rfl rfl ?_ ?_ ?_ ?_ ?_ ?_ ?_ ?_ ?_ ?_ ?_ ?_ ?_ ?_ ?_ ?_ ?_ ?_ ?_ ?_ ?_) <;> first | exact Or.inl (hm.bit (by decide)) | exact Or.inr rfl | skip) | with_reducible refine KeepsO.next ?_
    | split
    | (extract_lets +onlyGivenNames x; first | (refine Keeps.cut s0 x ?_ fun h => ?_; rotate_left; clear_value x) | skip)
    | (unfold x; fail_if_success done)
    | intro h

theorem fullLineWrite_keeps {k s0 s a1 a2 a3} (h : Keeps k s0 s)
    (hm : Within 0x49e#21 k := by first | assumption | exact Within.trans (by assumption) (by decide)) :
    Keeps k s0 (fullLineWrite s a1 a2 a3) := by
  unfold fullLineWrite
  repeat' first
    | with_reducible assumption | with_reducible refine cancelSeal_keeps ?_ | with_reducible refine saggarWrite_keeps ?_ | with_reducible refine Keeps.ite ?_ ?_ | with_reducible refine Keeps.foldl _ _ ?_ _ ?_ | fail_if_no_progress ((with_reducible refine Keeps.mk' ?_ rfl rfl rfl ?_ ?_ ?_ ?_ ?_ ?_ ?_ ?_ ?_ ?_ ?_ ?_ ?_ ?_ ?_ ?_ ?_ ?_ ?_ ?_ ?_) <;> first | exact Or.inl (hm.bit (by decide)) | exact Or.inr rfl | skip)
    | split
    | (extract_lets +onlyGivenNames x; first | (refine Keeps.cut s0 x ?_ fun h => ?_; rotate_left; clear_value x) | skip)
    | (unfold x; fail_if_success done)
    | intro h

theorem execCxlClearPoison_keeps {k s0 a0 a1 s} (h : Keeps k s0 s)
    (hm : Within 0x100c9e#21 k := by first | assumption | exact Within.trans (by assumption) (by decide)) :
    KeepsO k s0 (execCxlClearPoison a0 a1 s) := by
  unfold execCxlClearPoison
  repeat' first
    | with_reducible assumption | with_reducible refine mbox_keeps ?_ (fun _ _ => ?_) | with_reducible refine mboxReply_keeps ?_ | with_reducible refine fullLineWrite_keeps ?_ | with_reducible refine Keeps.ite ?_ ?_ | with_reducible refine Keeps.foldl _ _ ?_ _ ?_ | fail_if_no_progress ((with_reducible refine Keeps.mk' ?_ rfl rfl rfl ?_ ?_ ?_ ?_ ?_ ?_ ?_ ?_ ?_ ?_ ?_ ?_ ?_ ?_ ?_ ?_ ?_ ?_ ?_ ?_ ?_) <;> first | exact Or.inl (hm.bit (by decide)) | exact Or.inr rfl | skip) | with_reducible refine KeepsO.next ?_
    | split
    | (extract_lets +onlyGivenNames x; first | (refine Keeps.cut s0 x ?_ fun h => ?_; rotate_left; clear_value x) | skip)
    | (unfold x; fail_if_success done)
    | intro h

theorem execCxlGetScanMediaCaps_keeps {k s0 a0 a1 s} (h : Keeps k s0 s)
    (hm : Within 0x180800#21 k := by first | assumption | exact Within.trans (by assumption) (by decide)) :
    KeepsO k s0 (execCxlGetScanMediaCaps a0 a1 s) := by
  unfold execCxlGetScanMediaCaps
  repeat' first
    | with_reducible assumption | with_reducible refine mbox_keeps ?_ (fun _ _ => ?_) | with_reducible refine mboxReply_keeps ?_ | with_reducible refine draw_keeps ?_ | with_reducible refine Keeps.ite ?_ ?_ | with_reducible refine Keeps.foldl _ _ ?_ _ ?_ | fail_if_no_progress ((with_reducible refine Keeps.mk' ?_ rfl rfl rfl ?_ ?_ ?_ ?_ ?_ ?_ ?_ ?_ ?_ ?_ ?_ ?_ ?_ ?_ ?_ ?_ ?_ ?_ ?_ ?_ ?_) <;> first | exact Or.inl (hm.bit (by decide)) | exact Or.inr rfl | skip) | with_reducible refine KeepsO.next ?_
    | split
    | (extract_lets +onlyGivenNames x; first | (refine Keeps.cut s0 x ?_ fun h => ?_; rotate_left; clear_value x) | skip)
    | (unfold x; fail_if_success done)
    | intro h
    | with_reducible refine KeepsR.elim ?_ (by assumption) | with_reducible refine KeepsL.elim ?_ (by assumption) | with_reducible refine KeepsOS.elim ?_ (by assumption) | with_reducible refine KeepsOR.elim ?_ (by assumption) | with_reducible refine KeepsOR3.elim ?_ (by assumption) | with_reducible refine KeepsL.proj ?_ | with_reducible refine KeepsR.proj ?_

theorem execCxlScanMedia_keeps {k s0 a0 a1 s} (h : Keeps k s0 s)
    (hm : Within 0x100880#21 k := by first | assumption | exact Within.trans (by assumption) (by decide)) :
    KeepsO k s0 (execCxlScanMedia a0 a1 s) := by
  unfold execCxlScanMedia
  repeat' first
    | with_reducible assumption | with_reducible refine mbox_keeps ?_ (fun _ _ => ?_) | with_reducible refine mboxReply_keeps ?_ | with_reducible refine endScan_keeps ?_ | with_reducible refine Keeps.ite ?_ ?_ | with_reducible refine Keeps.foldl _ _ ?_ _ ?_ | fail_if_no_progress ((with_reducible refine Keeps.mk' ?_ rfl rfl rfl ?_ ?_ ?_ ?_ ?_ ?_ ?_ ?_ ?_ ?_ ?_ ?_ ?_ ?_ ?_ ?_ ?_ ?_ ?_ ?_ ?_) <;> first | exact Or.inl (hm.bit (by decide)) | exact Or.inr rfl | skip) | with_reducible refine KeepsO.next ?_
    | split
    | (extract_lets +onlyGivenNames x; first | (refine Keeps.cut s0 x ?_ fun h => ?_; rotate_left; clear_value x) | skip)
    | (unfold x; fail_if_success done)
    | intro h

theorem execCxlGetScanMediaResults_keeps {k s0 s} (h : Keeps k s0 s)
    (hm : Within 0x100800#21 k := by first | assumption | exact Within.trans (by assumption) (by decide)) :
    KeepsO k s0 (execCxlGetScanMediaResults s) := by
  unfold execCxlGetScanMediaResults
  repeat' first
    | with_reducible assumption | with_reducible refine mbox_keeps ?_ (fun _ _ => ?_) | with_reducible refine mboxReply_keeps ?_ | with_reducible refine Keeps.ite ?_ ?_ | with_reducible refine Keeps.foldl _ _ ?_ _ ?_ | fail_if_no_progress ((with_reducible refine Keeps.mk' ?_ rfl rfl rfl ?_ ?_ ?_ ?_ ?_ ?_ ?_ ?_ ?_ ?_ ?_ ?_ ?_ ?_ ?_ ?_ ?_ ?_ ?_ ?_ ?_) <;> first | exact Or.inl (hm.bit (by decide)) | exact Or.inr rfl | skip) | with_reducible refine KeepsO.next ?_
    | split
    | (extract_lets +onlyGivenNames x; first | (refine Keeps.cut s0 x ?_ fun h => ?_; rotate_left; clear_value x) | skip)
    | (unfold x; fail_if_success done)
    | intro h

theorem execCxlSanitize_keeps {k s0 s} (h : Keeps k s0 s)
    (hm : Within 0x100a00#21 k := by first | assumption | exact Within.trans (by assumption) (by decide)) :
    KeepsO k s0 (execCxlSanitize s) := by
  unfold execCxlSanitize
  repeat' first
    | with_reducible assumption | with_reducible refine mbox_keeps ?_ (fun _ _ => ?_) | with_reducible refine mboxReply_keeps ?_ | with_reducible refine Keeps.ite ?_ ?_ | with_reducible refine Keeps.foldl _ _ ?_ _ ?_ | fail_if_no_progress ((with_reducible refine Keeps.mk' ?_ rfl rfl rfl ?_ ?_ ?_ ?_ ?_ ?_ ?_ ?_ ?_ ?_ ?_ ?_ ?_ ?_ ?_ ?_ ?_ ?_ ?_ ?_ ?_) <;> first | exact Or.inl (hm.bit (by decide)) | exact Or.inr rfl | skip) | with_reducible refine KeepsO.next ?_
    | split
    | (extract_lets +onlyGivenNames x; first | (refine Keeps.cut s0 x ?_ fun h => ?_; rotate_left; clear_value x) | skip)
    | (unfold x; fail_if_success done)
    | intro h

theorem execCxlSecureErase_keeps {k s0 s} (h : Keeps k s0 s)
    (hm : Within 0x100a00#21 k := by first | assumption | exact Within.trans (by assumption) (by decide)) :
    KeepsO k s0 (execCxlSecureErase s) := by
  unfold execCxlSecureErase
  repeat' first
    | with_reducible assumption | with_reducible refine mbox_keeps ?_ (fun _ _ => ?_) | with_reducible refine mboxReply_keeps ?_ | with_reducible refine Keeps.ite ?_ ?_ | with_reducible refine Keeps.foldl _ _ ?_ _ ?_ | fail_if_no_progress ((with_reducible refine Keeps.mk' ?_ rfl rfl rfl ?_ ?_ ?_ ?_ ?_ ?_ ?_ ?_ ?_ ?_ ?_ ?_ ?_ ?_ ?_ ?_ ?_ ?_ ?_ ?_ ?_) <;> first | exact Or.inl (hm.bit (by decide)) | exact Or.inr rfl | skip) | with_reducible refine KeepsO.next ?_
    | split
    | (extract_lets +onlyGivenNames x; first | (refine Keeps.cut s0 x ?_ fun h => ?_; rotate_left; clear_value x) | skip)
    | (unfold x; fail_if_success done)
    | intro h

theorem execCxlMailboxUnsupported_keeps {k s0 a0 s} (h : Keeps k s0 s)
    (hm : Within 0x100800#21 k := by first | assumption | exact Within.trans (by assumption) (by decide)) :
    KeepsO k s0 (execCxlMailboxUnsupported a0 s) := by
  unfold execCxlMailboxUnsupported
  repeat' first
    | with_reducible assumption | with_reducible refine mboxReply_keeps ?_ | with_reducible refine Keeps.ite ?_ ?_ | with_reducible refine Keeps.foldl _ _ ?_ _ ?_ | fail_if_no_progress ((with_reducible refine Keeps.mk' ?_ rfl rfl rfl ?_ ?_ ?_ ?_ ?_ ?_ ?_ ?_ ?_ ?_ ?_ ?_ ?_ ?_ ?_ ?_ ?_ ?_ ?_ ?_ ?_) <;> first | exact Or.inl (hm.bit (by decide)) | exact Or.inr rfl | skip) | with_reducible refine KeepsO.next ?_
    | split
    | (extract_lets +onlyGivenNames x; first | (refine Keeps.cut s0 x ?_ fun h => ?_; rotate_left; clear_value x) | skip)
    | (unfold x; fail_if_success done)
    | intro h

/-! RegFile. -/

theorem clearStats_keeps {k s0 s a1 a2 a3 a4} (h : Keeps k s0 s)
    (hm : Within 0x3c8#21 k := by first | assumption | exact Within.trans (by assumption) (by decide)) :
    Keeps k s0 (clearStats s a1 a2 a3 a4) := by
  unfold clearStats
  repeat' first
    | with_reducible assumption | with_reducible refine updEcc_keeps ?_ | with_reducible refine updSram_keeps ?_ | with_reducible refine Keeps.ite ?_ ?_ | with_reducible refine Keeps.foldl _ _ ?_ _ ?_ | fail_if_no_progress ((with_reducible refine Keeps.mk' ?_ rfl rfl rfl ?_ ?_ ?_ ?_ ?_ ?_ ?_ ?_ ?_ ?_ ?_ ?_ ?_ ?_ ?_ ?_ ?_ ?_ ?_ ?_ ?_) <;> first | exact Or.inl (hm.bit (by decide)) | exact Or.inr rfl | skip)
    | split
    | (extract_lets +onlyGivenNames x; first | (refine Keeps.cut s0 x ?_ fun h => ?_; rotate_left; clear_value x) | skip)
    | (unfold x; fail_if_success done)
    | intro h

theorem clearLinks_keeps {k s0 s a1 a2 a3 a4 a5} (h : Keeps k s0 s)
    (hm : Within 0x109c00#21 k := by first | assumption | exact Within.trans (by assumption) (by decide)) : Keeps k s0 (clearLinks s a1 a2 a3 a4 a5) := by
  unfold clearLinks
  refine .ite (updLink_keeps h) (.ite (h.same' rfl rfl rfl rfl) (.ite (.ite (updPipe_keeps h) h) (.ite (.ite (updPipe_keeps h) h)
    (.ite (h.same' rfl rfl ?_ rfl) (.ite (.ite (updCapQ_keeps h fun _ hc => hc) h) h)))))
  dsimp only
  split <;> split <;> rfl

theorem answer_keeps {k s0 s a1} (h : Keeps k s0 s)
    (hm : Within 0x800#21 k := by first | assumption | exact Within.trans (by assumption) (by decide)) :
    Keeps k s0 (answer s a1) := by
  unfold answer
  repeat' first
    | with_reducible assumption | with_reducible refine Keeps.ite ?_ ?_ | with_reducible refine Keeps.foldl _ _ ?_ _ ?_ | fail_if_no_progress ((with_reducible refine Keeps.mk' ?_ rfl rfl rfl ?_ ?_ ?_ ?_ ?_ ?_ ?_ ?_ ?_ ?_ ?_ ?_ ?_ ?_ ?_ ?_ ?_ ?_ ?_ ?_ ?_) <;> first | exact Or.inl (hm.bit (by decide)) | exact Or.inr rfl | skip)
    | split
    | (extract_lets +onlyGivenNames x; first | (refine Keeps.cut s0 x ?_ fun h => ?_; rotate_left; clear_value x) | skip)
    | (unfold x; fail_if_success done)
    | intro h

theorem bclkRead_keeps {k s0 s a1 a2 a3} (h : Keeps k s0 s)
    (hm : Within 0x801#21 k := by first | assumption | exact Within.trans (by assumption) (by decide)) :
    Keeps k s0 (bclkRead s a1 a2 a3) := by
  unfold bclkRead
  repeat' first
    | with_reducible assumption | with_reducible refine answer_keeps ?_ | with_reducible refine Keeps.ite ?_ ?_ | with_reducible refine Keeps.foldl _ _ ?_ _ ?_ | fail_if_no_progress ((with_reducible refine Keeps.mk' ?_ rfl rfl rfl ?_ ?_ ?_ ?_ ?_ ?_ ?_ ?_ ?_ ?_ ?_ ?_ ?_ ?_ ?_ ?_ ?_ ?_ ?_ ?_ ?_) <;> first | exact Or.inl (hm.bit (by decide)) | exact Or.inr rfl | skip)
    | split
    | (extract_lets +onlyGivenNames x; first | (refine Keeps.cut s0 x ?_ fun h => ?_; rotate_left; clear_value x) | skip)
    | (unfold x; fail_if_success done)
    | intro h

theorem windowRead_keeps {k s0 s a1 a2 a3 a4} (h : Keeps k s0 s)
    (hm : Within 0x800#21 k := by first | assumption | exact Within.trans (by assumption) (by decide)) :
    Keeps k s0 (windowRead s a1 a2 a3 a4) := by
  unfold windowRead
  repeat' first
    | with_reducible assumption | with_reducible refine answer_keeps ?_ | with_reducible refine Keeps.ite ?_ ?_ | with_reducible refine Keeps.foldl _ _ ?_ _ ?_ | fail_if_no_progress ((with_reducible refine Keeps.mk' ?_ rfl rfl rfl ?_ ?_ ?_ ?_ ?_ ?_ ?_ ?_ ?_ ?_ ?_ ?_ ?_ ?_ ?_ ?_ ?_ ?_ ?_ ?_ ?_) <;> first | exact Or.inl (hm.bit (by decide)) | exact Or.inr rfl | skip)
    | split
    | (extract_lets +onlyGivenNames x; first | (refine Keeps.cut s0 x ?_ fun h => ?_; rotate_left; clear_value x) | skip)
    | (unfold x; fail_if_success done)
    | intro h

theorem readAt_keeps {k s0 s a1 a2 a3 a4} (h : Keeps k s0 s)
    (hm : Within 0x189fc9#21 k := by first | assumption | exact Within.trans (by assumption) (by decide)) :
    Keeps k s0 (readAt s a1 a2 a3 a4) := by
  unfold readAt
  repeat' first
    | with_reducible assumption | with_reducible refine answer_keeps ?_ | with_reducible refine windowRead_keeps ?_ | with_reducible refine draw_keeps ?_ | with_reducible refine bclkRead_keeps ?_ | with_reducible refine semaTake_keeps ?_ | with_reducible refine clearLinks_keeps ?_ | with_reducible refine clearStats_keeps ?_ | with_reducible refine Keeps.ite ?_ ?_ | with_reducible refine Keeps.foldl _ _ ?_ _ ?_ | fail_if_no_progress ((with_reducible refine Keeps.mk' ?_ rfl rfl rfl ?_ ?_ ?_ ?_ ?_ ?_ ?_ ?_ ?_ ?_ ?_ ?_ ?_ ?_ ?_ ?_ ?_ ?_ ?_ ?_ ?_) <;> first | exact Or.inl (hm.bit (by decide)) | exact Or.inr rfl | skip)
    | split
    | (extract_lets +onlyGivenNames x; first | (refine Keeps.cut s0 x ?_ fun h => ?_; rotate_left; clear_value x) | skip)
    | (unfold x; fail_if_success done)
    | intro h
    | with_reducible refine KeepsR.elim ?_ (by assumption) | with_reducible refine KeepsL.elim ?_ (by assumption) | with_reducible refine KeepsOS.elim ?_ (by assumption) | with_reducible refine KeepsOR.elim ?_ (by assumption) | with_reducible refine KeepsOR3.elim ?_ (by assumption) | with_reducible refine KeepsL.proj ?_ | with_reducible refine KeepsR.proj ?_

theorem shadowPut_keeps {k s0 s a1 a2 a3} (h : Keeps k s0 s)
    (hm : Within 0x40000#21 k := by first | assumption | exact Within.trans (by assumption) (by decide)) :
    Keeps k s0 (shadowPut s a1 a2 a3) := by
  unfold shadowPut
  repeat' first
    | with_reducible assumption | with_reducible refine setShadow_keeps ?_ | with_reducible refine Keeps.ite ?_ ?_ | with_reducible refine Keeps.foldl _ _ ?_ _ ?_ | fail_if_no_progress ((with_reducible refine Keeps.mk' ?_ rfl rfl rfl ?_ ?_ ?_ ?_ ?_ ?_ ?_ ?_ ?_ ?_ ?_ ?_ ?_ ?_ ?_ ?_ ?_ ?_ ?_ ?_ ?_) <;> first | exact Or.inl (hm.bit (by decide)) | exact Or.inr rfl | skip)
    | split
    | (extract_lets +onlyGivenNames x; first | (refine Keeps.cut s0 x ?_ fun h => ?_; rotate_left; clear_value x) | skip)
    | (unfold x; fail_if_success done)
    | intro h

theorem selectRecord_keeps {k s0 s a1} (h : Keeps k s0 s)
    (hm : Within 0x8000#21 k := by first | assumption | exact Within.trans (by assumption) (by decide)) :
    Keeps k s0 (selectRecord s a1) := by
  unfold selectRecord
  repeat' first
    | with_reducible assumption | with_reducible refine Keeps.ite ?_ ?_ | with_reducible refine Keeps.foldl _ _ ?_ _ ?_ | fail_if_no_progress ((with_reducible refine Keeps.mk' ?_ rfl rfl rfl ?_ ?_ ?_ ?_ ?_ ?_ ?_ ?_ ?_ ?_ ?_ ?_ ?_ ?_ ?_ ?_ ?_ ?_ ?_ ?_ ?_) <;> first | exact Or.inl (hm.bit (by decide)) | exact Or.inr rfl | skip)
    | split
    | (extract_lets +onlyGivenNames x; first | (refine Keeps.cut s0 x ?_ fun h => ?_; rotate_left; clear_value x) | skip)
    | (unfold x; fail_if_success done)
    | intro h

theorem writeSelect_keeps {k s0 s a1 a2 a3 a4} (h : Keeps k s0 s)
    (hm : Within 0x8000#21 k := by first | assumption | exact Within.trans (by assumption) (by decide)) :
    Keeps k s0 (writeSelect s a1 a2 a3 a4) := by
  unfold writeSelect
  repeat' first
    | with_reducible assumption | with_reducible refine updMon_keeps ?_ | with_reducible refine Keeps.ite ?_ ?_ | with_reducible refine Keeps.foldl _ _ ?_ _ ?_ | fail_if_no_progress ((with_reducible refine Keeps.mk' ?_ rfl rfl rfl ?_ ?_ ?_ ?_ ?_ ?_ ?_ ?_ ?_ ?_ ?_ ?_ ?_ ?_ ?_ ?_ ?_ ?_ ?_ ?_ ?_) <;> first | exact Or.inl (hm.bit (by decide)) | exact Or.inr rfl | skip)
    | split
    | (extract_lets +onlyGivenNames x; first | (refine Keeps.cut s0 x ?_ fun h => ?_; rotate_left; clear_value x) | skip)
    | (unfold x; fail_if_success done)
    | intro h

theorem writeMonCtrl_keeps {k s0 s a1 a2 a3} (h : Keeps k s0 s)
    (hm : Within 0x8000#21 k := by first | assumption | exact Within.trans (by assumption) (by decide)) :
    Keeps k s0 (writeMonCtrl s a1 a2 a3) := by
  unfold writeMonCtrl
  repeat' first
    | with_reducible assumption | with_reducible refine updMon_keeps ?_ | with_reducible refine Keeps.ite ?_ ?_ | with_reducible refine Keeps.foldl _ _ ?_ _ ?_ | fail_if_no_progress ((with_reducible refine Keeps.mk' ?_ rfl rfl rfl ?_ ?_ ?_ ?_ ?_ ?_ ?_ ?_ ?_ ?_ ?_ ?_ ?_ ?_ ?_ ?_ ?_ ?_ ?_ ?_ ?_) <;> first | exact Or.inl (hm.bit (by decide)) | exact Or.inr rfl | skip)
    | split
    | (extract_lets +onlyGivenNames x; first | (refine Keeps.cut s0 x ?_ fun h => ?_; rotate_left; clear_value x) | skip)
    | (unfold x; fail_if_success done)
    | intro h

theorem returnChannels_keeps {k s0 s a1} (h : Keeps k s0 s)
    (hm : Within 0x2000#21 k := by first | assumption | exact Within.trans (by assumption) (by decide)) :
    Keeps k s0 (returnChannels s a1) := by
  unfold returnChannels
  repeat' first
    | with_reducible assumption | with_reducible refine updChan_keeps ?_ | with_reducible refine Keeps.ite ?_ ?_ | with_reducible refine Keeps.foldl _ _ ?_ _ ?_ | fail_if_no_progress ((with_reducible refine Keeps.mk' ?_ rfl rfl rfl ?_ ?_ ?_ ?_ ?_ ?_ ?_ ?_ ?_ ?_ ?_ ?_ ?_ ?_ ?_ ?_ ?_ ?_ ?_ ?_ ?_) <;> first | exact Or.inl (hm.bit (by decide)) | exact Or.inr rfl | skip)
    | split
    | (extract_lets +onlyGivenNames x; first | (refine Keeps.cut s0 x ?_ fun h => ?_; rotate_left; clear_value x) | skip)
    | (unfold x; fail_if_success done)
    | intro h

theorem writeMsix_keeps {k s0 s a1 a2 a3} (h : Keeps k s0 s)
    (hm : Within 0x100000#21 k := by first | assumption | exact Within.trans (by assumption) (by decide)) :
    Keeps k s0 (writeMsix s a1 a2 a3) := by
  unfold writeMsix
  repeat' first
    | with_reducible assumption | with_reducible refine unmaskVector_keeps ?_ | with_reducible refine Keeps.ite ?_ ?_ | with_reducible refine Keeps.foldl _ _ ?_ _ ?_ | fail_if_no_progress ((with_reducible refine Keeps.mk' ?_ rfl rfl rfl ?_ ?_ ?_ ?_ ?_ ?_ ?_ ?_ ?_ ?_ ?_ ?_ ?_ ?_ ?_ ?_ ?_ ?_ ?_ ?_ ?_) <;> first | exact Or.inl (hm.bit (by decide)) | exact Or.inr rfl | skip)
    | split
    | (extract_lets +onlyGivenNames x; first | (refine Keeps.cut s0 x ?_ fun h => ?_; rotate_left; clear_value x) | skip)
    | (unfold x; fail_if_success done)
    | intro h

theorem mouthWrite_keeps {k s0 s a1 a2 a3} (h : Keeps k s0 s)
    (hm : Within 0x1802#21 k := by first | assumption | exact Within.trans (by assumption) (by decide)) :
    Keeps k s0 (mouthWrite s a1 a2 a3) := by
  unfold mouthWrite
  repeat' first
    | with_reducible assumption | with_reducible refine advisoryError_keeps ?_ | with_reducible refine updPipe_keeps ?_ | with_reducible refine noteActivity_keeps ?_ | with_reducible refine Keeps.ite ?_ ?_ | with_reducible refine Keeps.foldl _ _ ?_ _ ?_ | fail_if_no_progress ((with_reducible refine Keeps.mk' ?_ rfl rfl rfl ?_ ?_ ?_ ?_ ?_ ?_ ?_ ?_ ?_ ?_ ?_ ?_ ?_ ?_ ?_ ?_ ?_ ?_ ?_ ?_ ?_) <;> first | exact Or.inl (hm.bit (by decide)) | exact Or.inr rfl | skip)
    | split
    | (extract_lets +onlyGivenNames x; first | (refine Keeps.cut s0 x ?_ fun h => ?_; rotate_left; clear_value x) | skip)
    | (unfold x; fail_if_success done)
    | intro h

theorem writePipe_keeps {k s0 s a1 a2 a3 a4 a5 a6} (h : Keeps k s0 s)
    (hm : Within 0x101802#21 k := by first | assumption | exact Within.trans (by assumption) (by decide)) :
    Keeps k s0 (writePipe s a1 a2 a3 a4 a5 a6) := by
  unfold writePipe
  repeat' first
    | with_reducible assumption | with_reducible refine mouthWrite_keeps ?_ | with_reducible refine updPipe_keeps ?_ | with_reducible refine setLock_keeps ?_ | with_reducible refine Keeps.ite ?_ ?_ | with_reducible refine Keeps.foldl _ _ ?_ _ ?_ | fail_if_no_progress ((with_reducible refine Keeps.mk' ?_ rfl rfl rfl ?_ ?_ ?_ ?_ ?_ ?_ ?_ ?_ ?_ ?_ ?_ ?_ ?_ ?_ ?_ ?_ ?_ ?_ ?_ ?_ ?_) <;> first | exact Or.inl (hm.bit (by decide)) | exact Or.inr rfl | skip)
    | split
    | (extract_lets +onlyGivenNames x; first | (refine Keeps.cut s0 x ?_ fun h => ?_; rotate_left; clear_value x) | skip)
    | (unfold x; fail_if_success done)
    | intro h

theorem writeOther_keeps {k s0 s a1 a2 a3 a4 a5} (h : Keeps k s0 s)
    (hm : Within 0x10a083#21 k := by first | assumption | exact Within.trans (by assumption) (by decide)) :
    Keeps k s0 (writeOther s a1 a2 a3 a4 a5) := by
  unfold writeOther
  repeat' first
    | with_reducible assumption | with_reducible refine writeMsix_keeps ?_ | with_reducible refine returnChannels_keeps ?_ | with_reducible refine selectRecord_keeps ?_ | with_reducible refine writeSelect_keeps ?_ | with_reducible refine updMon_keeps ?_ | with_reducible refine writeMonCtrl_keeps ?_ | with_reducible refine Keeps.ite ?_ ?_ | with_reducible refine Keeps.foldl _ _ ?_ _ ?_ | fail_if_no_progress ((with_reducible refine Keeps.mk' ?_ rfl rfl rfl ?_ ?_ ?_ ?_ ?_ ?_ ?_ ?_ ?_ ?_ ?_ ?_ ?_ ?_ ?_ ?_ ?_ ?_ ?_ ?_ ?_) <;> first | exact Or.inl (hm.bit (by decide)) | exact Or.inr rfl | skip)
    | split
    | (extract_lets +onlyGivenNames x; first | (refine Keeps.cut s0 x ?_ fun h => ?_; rotate_left; clear_value x) | skip)
    | (unfold x; fail_if_success done)
    | intro h

theorem writeAt_keeps {k s0 s a1 a2 a3 a4 a5} (h : Keeps k s0 s)
    (hm : Within 0x14b883#21 k := by first | assumption | exact Within.trans (by assumption) (by decide)) :
    Keeps k s0 (writeAt s a1 a2 a3 a4 a5) := by
  unfold writeAt
  repeat' first
    | with_reducible assumption | with_reducible refine writeBytes_keeps ?_ | with_reducible refine semaRelease_keeps ?_ | with_reducible refine writePipe_keeps ?_ | with_reducible refine shadowPut_keeps ?_ | with_reducible refine writeOther_keeps ?_ | with_reducible refine Keeps.ite ?_ ?_ | with_reducible refine Keeps.foldl _ _ ?_ _ ?_ | fail_if_no_progress ((with_reducible refine Keeps.mk' ?_ rfl rfl rfl ?_ ?_ ?_ ?_ ?_ ?_ ?_ ?_ ?_ ?_ ?_ ?_ ?_ ?_ ?_ ?_ ?_ ?_ ?_ ?_ ?_) <;> first | exact Or.inl (hm.bit (by decide)) | exact Or.inr rfl | skip)
    | split
    | (extract_lets +onlyGivenNames x; first | (refine Keeps.cut s0 x ?_ fun h => ?_; rotate_left; clear_value x) | skip)
    | (unfold x; fail_if_success done)
    | intro h

theorem accessWakes_keeps {k s0 s a1} (h : Keeps k s0 s)
    (hm : Within 0x199cfe#21 k := by first | assumption | exact Within.trans (by assumption) (by decide)) :
    Keeps k s0 (accessWakes s a1) := by
  unfold accessWakes
  repeat' first
    | with_reducible assumption | with_reducible refine wakeNow_keeps ?_ | with_reducible refine Keeps.ite ?_ ?_ | with_reducible refine Keeps.foldl _ _ ?_ _ ?_ | fail_if_no_progress ((with_reducible refine Keeps.mk' ?_ rfl rfl rfl ?_ ?_ ?_ ?_ ?_ ?_ ?_ ?_ ?_ ?_ ?_ ?_ ?_ ?_ ?_ ?_ ?_ ?_ ?_ ?_ ?_) <;> first | exact Or.inl (hm.bit (by decide)) | exact Or.inr rfl | skip)
    | split
    | (extract_lets +onlyGivenNames x; first | (refine Keeps.cut s0 x ?_ fun h => ?_; rotate_left; clear_value x) | skip)
    | (unfold x; fail_if_success done)
    | intro h

theorem badAccess_keeps {k s0 s a1 a2 a3 a4} (h : Keeps k s0 s)
    (hm : Within 0x800#21 k := by first | assumption | exact Within.trans (by assumption) (by decide)) :
    Keeps k s0 (badAccess s a1 a2 a3 a4) := by
  unfold badAccess
  repeat' first
    | with_reducible assumption | with_reducible refine Keeps.ite ?_ ?_ | with_reducible refine Keeps.foldl _ _ ?_ _ ?_ | fail_if_no_progress ((with_reducible refine Keeps.mk' ?_ rfl rfl rfl ?_ ?_ ?_ ?_ ?_ ?_ ?_ ?_ ?_ ?_ ?_ ?_ ?_ ?_ ?_ ?_ ?_ ?_ ?_ ?_ ?_) <;> first | exact Or.inl (hm.bit (by decide)) | exact Or.inr rfl | skip)
    | split
    | (extract_lets +onlyGivenNames x; first | (refine Keeps.cut s0 x ?_ fun h => ?_; rotate_left; clear_value x) | skip)
    | (unfold x; fail_if_success done)
    | intro h

theorem readReg_keeps {k s0 s a1 a2 a3 a4} (h : Keeps k s0 s)
    (hm : Within 0x199fff#21 k := by first | assumption | exact Within.trans (by assumption) (by decide)) :
    Keeps k s0 (readReg s a1 a2 a3 a4) := by
  unfold readReg
  repeat' first
    | with_reducible assumption | with_reducible refine ioPayload_keeps ?_ | with_reducible refine accessWakes_keeps ?_ | with_reducible refine readAt_keeps ?_ | with_reducible refine badAccess_keeps ?_ | with_reducible refine Keeps.ite ?_ ?_ | with_reducible refine Keeps.foldl _ _ ?_ _ ?_ | fail_if_no_progress ((with_reducible refine Keeps.mk' ?_ rfl rfl rfl ?_ ?_ ?_ ?_ ?_ ?_ ?_ ?_ ?_ ?_ ?_ ?_ ?_ ?_ ?_ ?_ ?_ ?_ ?_ ?_ ?_) <;> first | exact Or.inl (hm.bit (by decide)) | exact Or.inr rfl | skip)
    | split
    | (extract_lets +onlyGivenNames x; first | (refine Keeps.cut s0 x ?_ fun h => ?_; rotate_left; clear_value x) | skip)
    | (unfold x; fail_if_success done)
    | intro h

theorem writeReg_keeps {k s0 s a1 a2 a3 a4 a5} (h : Keeps k s0 s)
    (hm : Within 0x1dbcff#21 k := by first | assumption | exact Within.trans (by assumption) (by decide)) :
    Keeps k s0 (writeReg s a1 a2 a3 a4 a5) := by
  unfold writeReg
  repeat' first
    | with_reducible assumption | with_reducible refine ioPayload_keeps ?_ | with_reducible refine accessWakes_keeps ?_ | with_reducible refine writeAt_keeps ?_ | with_reducible refine badAccess_keeps ?_ | with_reducible refine Keeps.ite ?_ ?_ | with_reducible refine Keeps.foldl _ _ ?_ _ ?_ | fail_if_no_progress ((with_reducible refine Keeps.mk' ?_ rfl rfl rfl ?_ ?_ ?_ ?_ ?_ ?_ ?_ ?_ ?_ ?_ ?_ ?_ ?_ ?_ ?_ ?_ ?_ ?_ ?_ ?_ ?_) <;> first | exact Or.inl (hm.bit (by decide)) | exact Or.inr rfl | skip)
    | split
    | (extract_lets +onlyGivenNames x; first | (refine Keeps.cut s0 x ?_ fun h => ?_; rotate_left; clear_value x) | skip)
    | (unfold x; fail_if_success done)
    | intro h

theorem execRegisterRead_keeps {k s0 a0 a1 a2 a3 s} (h : Keeps k s0 s)
    (hm : Within 0x199fff#21 k := by first | assumption | exact Within.trans (by assumption) (by decide)) :
    KeepsO k s0 (execRegisterRead a0 a1 a2 a3 s) := by
  unfold execRegisterRead
  repeat' first
    | with_reducible assumption | with_reducible refine readReg_keeps ?_ | with_reducible refine Keeps.ite ?_ ?_ | with_reducible refine Keeps.foldl _ _ ?_ _ ?_ | fail_if_no_progress ((with_reducible refine Keeps.mk' ?_ rfl rfl rfl ?_ ?_ ?_ ?_ ?_ ?_ ?_ ?_ ?_ ?_ ?_ ?_ ?_ ?_ ?_ ?_ ?_ ?_ ?_ ?_ ?_) <;> first | exact Or.inl (hm.bit (by decide)) | exact Or.inr rfl | skip) | with_reducible refine KeepsO.next ?_
    | split
    | (extract_lets +onlyGivenNames x; first | (refine Keeps.cut s0 x ?_ fun h => ?_; rotate_left; clear_value x) | skip)
    | (unfold x; fail_if_success done)
    | intro h

theorem execRegisterWrite_keeps {k s0 a0 a1 a2 a3 a4 s} (h : Keeps k s0 s)
    (hm : Within 0x1dbcff#21 k := by first | assumption | exact Within.trans (by assumption) (by decide)) :
    KeepsO k s0 (execRegisterWrite a0 a1 a2 a3 a4 s) := by
  unfold execRegisterWrite
  repeat' first
    | with_reducible assumption | with_reducible refine writeReg_keeps ?_ | with_reducible refine Keeps.ite ?_ ?_ | with_reducible refine Keeps.foldl _ _ ?_ _ ?_ | fail_if_no_progress ((with_reducible refine Keeps.mk' ?_ rfl rfl rfl ?_ ?_ ?_ ?_ ?_ ?_ ?_ ?_ ?_ ?_ ?_ ?_ ?_ ?_ ?_ ?_ ?_ ?_ ?_ ?_ ?_) <;> first | exact Or.inl (hm.bit (by decide)) | exact Or.inr rfl | skip) | with_reducible refine KeepsO.next ?_
    | split
    | (extract_lets +onlyGivenNames x; first | (refine Keeps.cut s0 x ?_ fun h => ?_; rotate_left; clear_value x) | skip)
    | (unfold x; fail_if_success done)
    | intro h

theorem execBclkHalfRead_keeps {k s0 a0 a1 a2 s} (h : Keeps k s0 s)
    (hm : Within 0x199fff#21 k := by first | assumption | exact Within.trans (by assumption) (by decide)) :
    KeepsO k s0 (execBclkHalfRead a0 a1 a2 s) := by
  unfold execBclkHalfRead
  repeat' first
    | with_reducible assumption | with_reducible refine readReg_keeps ?_ | with_reducible refine Keeps.ite ?_ ?_ | with_reducible refine Keeps.foldl _ _ ?_ _ ?_ | fail_if_no_progress ((with_reducible refine Keeps.mk' ?_ rfl rfl rfl ?_ ?_ ?_ ?_ ?_ ?_ ?_ ?_ ?_ ?_ ?_ ?_ ?_ ?_ ?_ ?_ ?_ ?_ ?_ ?_ ?_) <;> first | exact Or.inl (hm.bit (by decide)) | exact Or.inr rfl | skip) | with_reducible refine KeepsO.next ?_
    | split
    | (extract_lets +onlyGivenNames x; first | (refine Keeps.cut s0 x ?_ fun h => ?_; rotate_left; clear_value x) | skip)
    | (unfold x; fail_if_success done)
    | intro h

theorem execSemaTakeRead_keeps {k s0 a0 a1 a2 s} (h : Keeps k s0 s)
    (hm : Within 0x199fff#21 k := by first | assumption | exact Within.trans (by assumption) (by decide)) :
    KeepsO k s0 (execSemaTakeRead a0 a1 a2 s) := by
  unfold execSemaTakeRead
  repeat' first
    | with_reducible assumption | with_reducible refine readReg_keeps ?_ | with_reducible refine Keeps.ite ?_ ?_ | with_reducible refine Keeps.foldl _ _ ?_ _ ?_ | fail_if_no_progress ((with_reducible refine Keeps.mk' ?_ rfl rfl rfl ?_ ?_ ?_ ?_ ?_ ?_ ?_ ?_ ?_ ?_ ?_ ?_ ?_ ?_ ?_ ?_ ?_ ?_ ?_ ?_ ?_) <;> first | exact Or.inl (hm.bit (by decide)) | exact Or.inr rfl | skip) | with_reducible refine KeepsO.next ?_
    | split
    | (extract_lets +onlyGivenNames x; first | (refine Keeps.cut s0 x ?_ fun h => ?_; rotate_left; clear_value x) | skip)
    | (unfold x; fail_if_success done)
    | intro h

theorem execSemaTakeWrite_keeps {k s0 a0 a1 s} (h : Keeps k s0 s)
    (hm : Within 0x1dbcff#21 k := by first | assumption | exact Within.trans (by assumption) (by decide)) :
    KeepsO k s0 (execSemaTakeWrite a0 a1 s) := by
  unfold execSemaTakeWrite
  repeat' first
    | with_reducible assumption | with_reducible refine writeReg_keeps ?_ | with_reducible refine Keeps.ite ?_ ?_ | with_reducible refine Keeps.foldl _ _ ?_ _ ?_ | fail_if_no_progress ((with_reducible refine Keeps.mk' ?_ rfl rfl rfl ?_ ?_ ?_ ?_ ?_ ?_ ?_ ?_ ?_ ?_ ?_ ?_ ?_ ?_ ?_ ?_ ?_ ?_ ?_ ?_ ?_) <;> first | exact Or.inl (hm.bit (by decide)) | exact Or.inr rfl | skip) | with_reducible refine KeepsO.next ?_
    | split
    | (extract_lets +onlyGivenNames x; first | (refine Keeps.cut s0 x ?_ fun h => ?_; rotate_left; clear_value x) | skip)
    | (unfold x; fail_if_success done)
    | intro h

theorem execEvntRdselWrite_keeps {k s0 a0 s} (h : Keeps k s0 s)
    (hm : Within 0x1dbcff#21 k := by first | assumption | exact Within.trans (by assumption) (by decide)) :
    KeepsO k s0 (execEvntRdselWrite a0 s) := by
  unfold execEvntRdselWrite
  repeat' first
    | with_reducible assumption | with_reducible refine writeReg_keeps ?_ | with_reducible refine Keeps.ite ?_ ?_ | with_reducible refine Keeps.foldl _ _ ?_ _ ?_ | fail_if_no_progress ((with_reducible refine Keeps.mk' ?_ rfl rfl rfl ?_ ?_ ?_ ?_ ?_ ?_ ?_ ?_ ?_ ?_ ?_ ?_ ?_ ?_ ?_ ?_ ?_ ?_ ?_ ?_ ?_) <;> first | exact Or.inl (hm.bit (by decide)) | exact Or.inr rfl | skip) | with_reducible refine KeepsO.next ?_
    | split
    | (extract_lets +onlyGivenNames x; first | (refine Keeps.cut s0 x ?_ fun h => ?_; rotate_left; clear_value x) | skip)
    | (unfold x; fail_if_success done)
    | intro h

theorem execMonSelWrite_keeps {k s0 a0 a1 a2 s} (h : Keeps k s0 s)
    (hm : Within 0x1dbcff#21 k := by first | assumption | exact Within.trans (by assumption) (by decide)) :
    KeepsO k s0 (execMonSelWrite a0 a1 a2 s) := by
  unfold execMonSelWrite
  repeat' first
    | with_reducible assumption | with_reducible refine writeReg_keeps ?_ | with_reducible refine Keeps.ite ?_ ?_ | with_reducible refine Keeps.foldl _ _ ?_ _ ?_ | fail_if_no_progress ((with_reducible refine Keeps.mk' ?_ rfl rfl rfl ?_ ?_ ?_ ?_ ?_ ?_ ?_ ?_ ?_ ?_ ?_ ?_ ?_ ?_ ?_ ?_ ?_ ?_ ?_ ?_ ?_) <;> first | exact Or.inl (hm.bit (by decide)) | exact Or.inr rfl | skip) | with_reducible refine KeepsO.next ?_
    | split
    | (extract_lets +onlyGivenNames x; first | (refine Keeps.cut s0 x ?_ fun h => ?_; rotate_left; clear_value x) | skip)
    | (unfold x; fail_if_success done)
    | intro h

theorem execHkepSenseBClear_keeps {k s0 a0 s} (h : Keeps k s0 s)
    (hm : Within 0x1dbcff#21 k := by first | assumption | exact Within.trans (by assumption) (by decide)) :
    KeepsO k s0 (execHkepSenseBClear a0 s) := by
  unfold execHkepSenseBClear
  repeat' first
    | with_reducible assumption | with_reducible refine writeReg_keeps ?_ | with_reducible refine Keeps.ite ?_ ?_ | with_reducible refine Keeps.foldl _ _ ?_ _ ?_ | fail_if_no_progress ((with_reducible refine Keeps.mk' ?_ rfl rfl rfl ?_ ?_ ?_ ?_ ?_ ?_ ?_ ?_ ?_ ?_ ?_ ?_ ?_ ?_ ?_ ?_ ?_ ?_ ?_ ?_ ?_) <;> first | exact Or.inl (hm.bit (by decide)) | exact Or.inr rfl | skip) | with_reducible refine KeepsO.next ?_
    | split
    | (extract_lets +onlyGivenNames x; first | (refine Keeps.cut s0 x ?_ fun h => ?_; rotate_left; clear_value x) | skip)
    | (unfold x; fail_if_success done)
    | intro h

theorem execShadowWrite_keeps {k s0 a0 a1 a2 s} (h : Keeps k s0 s)
    (hm : Within 0x1dbcff#21 k := by first | assumption | exact Within.trans (by assumption) (by decide)) :
    KeepsO k s0 (execShadowWrite a0 a1 a2 s) := by
  unfold execShadowWrite
  repeat' first
    | with_reducible assumption | with_reducible refine writeReg_keeps ?_ | with_reducible refine Keeps.ite ?_ ?_ | with_reducible refine Keeps.foldl _ _ ?_ _ ?_ | fail_if_no_progress ((with_reducible refine Keeps.mk' ?_ rfl rfl rfl ?_ ?_ ?_ ?_ ?_ ?_ ?_ ?_ ?_ ?_ ?_ ?_ ?_ ?_ ?_ ?_ ?_ ?_ ?_ ?_ ?_) <;> first | exact Or.inl (hm.bit (by decide)) | exact Or.inr rfl | skip) | with_reducible refine KeepsO.next ?_
    | split
    | (extract_lets +onlyGivenNames x; first | (refine Keeps.cut s0 x ?_ fun h => ?_; rotate_left; clear_value x) | skip)
    | (unfold x; fail_if_success done)
    | intro h

/-! Reset. -/

theorem resetDevice_keeps {k s0 s} (h : Keeps k s0 s)
    (hm : Within 0x1fffff#21 k := by first | assumption | exact Within.trans (by assumption) (by decide)) : Keeps k s0 (resetDevice s) :=
  (tearAll_keeps (cutBreath_keeps h)).fresh rfl rfl rfl rfl

theorem releaseReset_keeps {k s0 s} (h : Keeps k s0 s)
    (hm : Within 0x2#21 k := by first | assumption | exact Within.trans (by assumption) (by decide)) :
    Keeps k s0 (releaseReset s) := by
  unfold releaseReset
  repeat' first
    | with_reducible assumption | with_reducible refine Keeps.ite ?_ ?_ | with_reducible refine Keeps.foldl _ _ ?_ _ ?_ | fail_if_no_progress ((with_reducible refine Keeps.mk' ?_ rfl rfl rfl ?_ ?_ ?_ ?_ ?_ ?_ ?_ ?_ ?_ ?_ ?_ ?_ ?_ ?_ ?_ ?_ ?_ ?_ ?_ ?_ ?_) <;> first | exact Or.inl (hm.bit (by decide)) | exact Or.inr rfl | skip)
    | split
    | (extract_lets +onlyGivenNames x; first | (refine Keeps.cut s0 x ?_ fun h => ?_; rotate_left; clear_value x) | skip)
    | (unfold x; fail_if_success done)
    | intro h

theorem execPowerOn_keeps {k s0 a0 a1 s} (h : Keeps k s0 s)
    (hm : Within 0x1fffff#21 k := by first | assumption | exact Within.trans (by assumption) (by decide)) :
    KeepsO k s0 (execPowerOn a0 a1 s) := by
  unfold execPowerOn
  repeat' first
    | with_reducible assumption | with_reducible refine resetDevice_keeps ?_ | with_reducible refine Keeps.ite ?_ ?_ | with_reducible refine Keeps.foldl _ _ ?_ _ ?_ | fail_if_no_progress ((with_reducible refine Keeps.mk' ?_ rfl rfl rfl ?_ ?_ ?_ ?_ ?_ ?_ ?_ ?_ ?_ ?_ ?_ ?_ ?_ ?_ ?_ ?_ ?_ ?_ ?_ ?_ ?_) <;> first | exact Or.inl (hm.bit (by decide)) | exact Or.inr rfl | skip) | with_reducible refine KeepsO.next ?_
    | split
    | (extract_lets +onlyGivenNames x; first | (refine Keeps.cut s0 x ?_ fun h => ?_; rotate_left; clear_value x) | skip)
    | (unfold x; fail_if_success done)
    | intro h

theorem execResetNAssert_keeps {k s0 a0 s} (h : Keeps k s0 s)
    (hm : Within 0x1fffff#21 k := by first | assumption | exact Within.trans (by assumption) (by decide)) :
    KeepsO k s0 (execResetNAssert a0 s) := by
  unfold execResetNAssert
  repeat' first
    | with_reducible assumption | with_reducible refine resetDevice_keeps ?_ | with_reducible refine draw_keeps ?_ | with_reducible refine Keeps.ite ?_ ?_ | with_reducible refine Keeps.foldl _ _ ?_ _ ?_ | fail_if_no_progress ((with_reducible refine Keeps.mk' ?_ rfl rfl rfl ?_ ?_ ?_ ?_ ?_ ?_ ?_ ?_ ?_ ?_ ?_ ?_ ?_ ?_ ?_ ?_ ?_ ?_ ?_ ?_ ?_) <;> first | exact Or.inl (hm.bit (by decide)) | exact Or.inr rfl | skip) | with_reducible refine KeepsO.next ?_
    | split
    | (extract_lets +onlyGivenNames x; first | (refine Keeps.cut s0 x ?_ fun h => ?_; rotate_left; clear_value x) | skip)
    | (unfold x; fail_if_success done)
    | intro h
    | with_reducible refine KeepsR.elim ?_ (by assumption) | with_reducible refine KeepsL.elim ?_ (by assumption) | with_reducible refine KeepsOS.elim ?_ (by assumption) | with_reducible refine KeepsOR.elim ?_ (by assumption) | with_reducible refine KeepsOR3.elim ?_ (by assumption) | with_reducible refine KeepsL.proj ?_ | with_reducible refine KeepsR.proj ?_

theorem execResetNRelease_keeps {k s0 s} (h : Keeps k s0 s)
    (hm : Within 0x2#21 k := by first | assumption | exact Within.trans (by assumption) (by decide)) :
    KeepsO k s0 (execResetNRelease s) := by
  unfold execResetNRelease
  repeat' first
    | with_reducible assumption | with_reducible refine releaseReset_keeps ?_ | with_reducible refine Keeps.ite ?_ ?_ | with_reducible refine Keeps.foldl _ _ ?_ _ ?_ | fail_if_no_progress ((with_reducible refine Keeps.mk' ?_ rfl rfl rfl ?_ ?_ ?_ ?_ ?_ ?_ ?_ ?_ ?_ ?_ ?_ ?_ ?_ ?_ ?_ ?_ ?_ ?_ ?_ ?_ ?_) <;> first | exact Or.inl (hm.bit (by decide)) | exact Or.inr rfl | skip) | with_reducible refine KeepsO.next ?_
    | split
    | (extract_lets +onlyGivenNames x; first | (refine Keeps.cut s0 x ?_ fun h => ?_; rotate_left; clear_value x) | skip)
    | (unfold x; fail_if_success done)
    | intro h

theorem execBrownOut_keeps {k s0 a0 s} (h : Keeps k s0 s)
    (hm : Within 0x1fffff#21 k := by first | assumption | exact Within.trans (by assumption) (by decide)) :
    KeepsO k s0 (execBrownOut a0 s) := by
  unfold execBrownOut
  repeat' first
    | with_reducible assumption | with_reducible refine resetDevice_keeps ?_ | with_reducible refine Keeps.ite ?_ ?_ | with_reducible refine Keeps.foldl _ _ ?_ _ ?_ | fail_if_no_progress ((with_reducible refine Keeps.mk' ?_ rfl rfl rfl ?_ ?_ ?_ ?_ ?_ ?_ ?_ ?_ ?_ ?_ ?_ ?_ ?_ ?_ ?_ ?_ ?_ ?_ ?_ ?_ ?_) <;> first | exact Or.inl (hm.bit (by decide)) | exact Or.inr rfl | skip) | with_reducible refine KeepsO.next ?_
    | split
    | (extract_lets +onlyGivenNames x; first | (refine Keeps.cut s0 x ?_ fun h => ?_; rotate_left; clear_value x) | skip)
    | (unfold x; fail_if_success done)
    | intro h

theorem execSuppliesUpUnreset_keeps {k s0 a0 s} (h : Keeps k s0 s)
    (hm : Within 0x1fffff#21 k := by first | assumption | exact Within.trans (by assumption) (by decide)) :
    KeepsO k s0 (execSuppliesUpUnreset a0 s) := by
  unfold execSuppliesUpUnreset
  repeat' first
    | with_reducible assumption | with_reducible refine releaseReset_keeps ?_ | with_reducible refine resetDevice_keeps ?_ | with_reducible refine draw_keeps ?_ | with_reducible refine updLink_keeps ?_ | with_reducible refine Keeps.ite ?_ ?_ | with_reducible refine Keeps.foldl _ _ ?_ _ ?_ | fail_if_no_progress ((with_reducible refine Keeps.mk' ?_ rfl rfl rfl ?_ ?_ ?_ ?_ ?_ ?_ ?_ ?_ ?_ ?_ ?_ ?_ ?_ ?_ ?_ ?_ ?_ ?_ ?_ ?_ ?_) <;> first | exact Or.inl (hm.bit (by decide)) | exact Or.inr rfl | skip) | with_reducible refine KeepsO.next ?_
    | split
    | (extract_lets +onlyGivenNames x; first | (refine Keeps.cut s0 x ?_ fun h => ?_; rotate_left; clear_value x) | skip)
    | (unfold x; fail_if_success done)
    | intro h
    | with_reducible refine KeepsR.elim ?_ (by assumption) | with_reducible refine KeepsL.elim ?_ (by assumption) | with_reducible refine KeepsOS.elim ?_ (by assumption) | with_reducible refine KeepsOR.elim ?_ (by assumption) | with_reducible refine KeepsOR3.elim ?_ (by assumption) | with_reducible refine KeepsL.proj ?_ | with_reducible refine KeepsR.proj ?_

/-! Startup. -/

theorem fuseLoad_keeps {k s0 s} (h : Keeps k s0 s)
    (hm : Within 0x10001#21 k := by first | assumption | exact Within.trans (by assumption) (by decide)) :
    Keeps k s0 (fuseLoad s) := by
  unfold fuseLoad
  repeat' first
    | with_reducible assumption | with_reducible refine Keeps.ite ?_ ?_ | with_reducible refine Keeps.foldl _ _ ?_ _ ?_ | fail_if_no_progress ((with_reducible refine Keeps.mk' ?_ rfl rfl rfl ?_ ?_ ?_ ?_ ?_ ?_ ?_ ?_ ?_ ?_ ?_ ?_ ?_ ?_ ?_ ?_ ?_ ?_ ?_ ?_ ?_) <;> first | exact Or.inl (hm.bit (by decide)) | exact Or.inr rfl | skip)
    | split
    | (extract_lets +onlyGivenNames x; first | (refine Keeps.cut s0 x ?_ fun h => ?_; rotate_left; clear_value x) | skip)
    | (unfold x; fail_if_success done)
    | intro h

theorem romBoot_keeps {k s0 s} (h : Keeps k s0 s)
    (hm : Within 0x102003#21 k := by first | assumption | exact Within.trans (by assumption) (by decide)) :
    Keeps k s0 (romBoot s) := by
  unfold romBoot
  repeat' first
    | with_reducible assumption | with_reducible refine countGood_keeps ?_ | with_reducible refine Keeps.ite ?_ ?_ | with_reducible refine Keeps.foldl _ _ ?_ _ ?_ | fail_if_no_progress ((with_reducible refine Keeps.mk' ?_ rfl rfl rfl ?_ ?_ ?_ ?_ ?_ ?_ ?_ ?_ ?_ ?_ ?_ ?_ ?_ ?_ ?_ ?_ ?_ ?_ ?_ ?_ ?_) <;> first | exact Or.inl (hm.bit (by decide)) | exact Or.inr rfl | skip)
    | split
    | (extract_lets +onlyGivenNames x; first | (refine Keeps.cut s0 x ?_ fun h => ?_; rotate_left; clear_value x) | skip)
    | (unfold x; fail_if_success done)
    | intro h

theorem testChannel_keeps {k s0 s a1} (h : Keeps k s0 s)
    (hm : Within 0x100182#21 k := by first | assumption | exact Within.trans (by assumption) (by decide)) :
    Keeps k s0 (testChannel s a1) := by
  unfold testChannel
  repeat' first
    | with_reducible assumption | with_reducible refine raise_keeps ?_ | with_reducible refine updSram_keeps ?_ | with_reducible refine exhaust_keeps ?_ | with_reducible refine Keeps.ite ?_ ?_ | with_reducible refine Keeps.foldl _ _ ?_ _ ?_ | fail_if_no_progress ((with_reducible refine Keeps.mk' ?_ rfl rfl rfl ?_ ?_ ?_ ?_ ?_ ?_ ?_ ?_ ?_ ?_ ?_ ?_ ?_ ?_ ?_ ?_ ?_ ?_ ?_ ?_ ?_) <;> first | exact Or.inl (hm.bit (by decide)) | exact Or.inr rfl | skip)
    | split
    | (extract_lets +onlyGivenNames x; first | (refine Keeps.cut s0 x ?_ fun h => ?_; rotate_left; clear_value x) | skip)
    | (unfold x; fail_if_success done)
    | intro h

theorem keepFindings_keeps {k s0 s a1} (h : Keeps k s0 s)
    (hm : Within 0x100000#21 k := by first | assumption | exact Within.trans (by assumption) (by decide)) :
    Keeps k s0 (keepFindings s a1) := by
  unfold keepFindings
  repeat' first
    | with_reducible assumption | with_reducible refine raise_keeps ?_ | with_reducible refine Keeps.ite ?_ ?_ | with_reducible refine Keeps.foldl _ _ ?_ _ ?_ | fail_if_no_progress ((with_reducible refine Keeps.mk' ?_ rfl rfl rfl ?_ ?_ ?_ ?_ ?_ ?_ ?_ ?_ ?_ ?_ ?_ ?_ ?_ ?_ ?_ ?_ ?_ ?_ ?_ ?_ ?_) <;> first | exact Or.inl (hm.bit (by decide)) | exact Or.inr rfl | skip)
    | split
    | (extract_lets +onlyGivenNames x; first | (refine Keeps.cut s0 x ?_ fun h => ?_; rotate_left; clear_value x) | skip)
    | (unfold x; fail_if_success done)
    | intro h

theorem keepStart_keeps {k s0 s a1} (h : Keeps k s0 s)
    (hm : Within 0x106003#21 k := by first | assumption | exact Within.trans (by assumption) (by decide)) :
    Keeps k s0 (keepStart s a1) := by
  unfold keepStart
  repeat' first
    | with_reducible assumption | with_reducible refine raise_keeps ?_ | with_reducible refine keepFindings_keeps ?_ | with_reducible refine loadHistory_keeps ?_ | with_reducible refine Keeps.ite ?_ ?_ | with_reducible refine Keeps.foldl _ _ ?_ _ ?_ | fail_if_no_progress ((with_reducible refine Keeps.mk' ?_ rfl rfl rfl ?_ ?_ ?_ ?_ ?_ ?_ ?_ ?_ ?_ ?_ ?_ ?_ ?_ ?_ ?_ ?_ ?_ ?_ ?_ ?_ ?_) <;> first | exact Or.inl (hm.bit (by decide)) | exact Or.inr rfl | skip)
    | split
    | (extract_lets +onlyGivenNames x; first | (refine Keeps.cut s0 x ?_ fun h => ?_; rotate_left; clear_value x) | skip)
    | (unfold x; fail_if_success done)
    | intro h

theorem keysReady_keeps {k s0 s a1} (h : Keeps k s0 s)
    (hm : Within 0x100200#21 k := by first | assumption | exact Within.trans (by assumption) (by decide)) :
    Keeps k s0 (keysReady s a1) := by
  unfold keysReady
  repeat' first
    | with_reducible assumption | with_reducible refine saveDomain_keeps ?_ | with_reducible refine updDomain_keeps ?_ | with_reducible refine raise_keeps ?_ | with_reducible refine Keeps.ite ?_ ?_ | with_reducible refine Keeps.foldl _ _ ?_ _ ?_ | fail_if_no_progress ((with_reducible refine Keeps.mk' ?_ rfl rfl rfl ?_ ?_ ?_ ?_ ?_ ?_ ?_ ?_ ?_ ?_ ?_ ?_ ?_ ?_ ?_ ?_ ?_ ?_ ?_ ?_ ?_) <;> first | exact Or.inl (hm.bit (by decide)) | exact Or.inr rfl | skip)
    | split
    | (extract_lets +onlyGivenNames x; first | (refine Keeps.cut s0 x ?_ fun h => ?_; rotate_left; clear_value x) | skip)
    | (unfold x; fail_if_success done)
    | intro h

theorem keyStart_keeps {k s0 s a1} (h : Keeps k s0 s)
    (hm : Within 0x100200#21 k := by first | assumption | exact Within.trans (by assumption) (by decide)) :
    Keeps k s0 (keyStart s a1) := by
  unfold keyStart
  repeat' first
    | with_reducible assumption | with_reducible refine keysReady_keeps ?_ | with_reducible refine keepPut_keeps ?_ | with_reducible refine Keeps.ite ?_ ?_ | with_reducible refine Keeps.foldl _ _ ?_ _ ?_ | fail_if_no_progress ((with_reducible refine Keeps.mk' ?_ rfl rfl rfl ?_ ?_ ?_ ?_ ?_ ?_ ?_ ?_ ?_ ?_ ?_ ?_ ?_ ?_ ?_ ?_ ?_ ?_ ?_ ?_ ?_) <;> first | exact Or.inl (hm.bit (by decide)) | exact Or.inr rfl | skip)
    | split
    | (extract_lets +onlyGivenNames x; first | (refine Keeps.cut s0 x ?_ fun h => ?_; rotate_left; clear_value x) | skip)
    | (unfold x; fail_if_success done)
    | intro h

theorem populate_keeps {k s0 s} (h : Keeps k s0 s)
    (hm : Within 0x406#21 k := by first | assumption | exact Within.trans (by assumption) (by decide)) :
    Keeps k s0 (populate s) := by
  unfold populate
  repeat' first
    | with_reducible assumption | with_reducible refine Keeps.ite ?_ ?_ | with_reducible refine Keeps.foldl _ _ ?_ _ ?_ | fail_if_no_progress ((with_reducible refine Keeps.mk' ?_ rfl rfl rfl ?_ ?_ ?_ ?_ ?_ ?_ ?_ ?_ ?_ ?_ ?_ ?_ ?_ ?_ ?_ ?_ ?_ ?_ ?_ ?_ ?_) <;> first | exact Or.inl (hm.bit (by decide)) | exact Or.inr rfl | skip)
    | split
    | (extract_lets +onlyGivenNames x; first | (refine Keeps.cut s0 x ?_ fun h => ?_; rotate_left; clear_value x) | skip)
    | (unfold x; fail_if_success done)
    | intro h

theorem loadTable_keeps {k s0 s} (h : Keeps k s0 s)
    (hm : Within 0x20#21 k := by first | assumption | exact Within.trans (by assumption) (by decide)) :
    Keeps k s0 (loadTable s) := by
  unfold loadTable
  repeat' first
    | with_reducible assumption | with_reducible refine updRank_keeps ?_ | with_reducible refine Keeps.ite ?_ ?_ | with_reducible refine Keeps.foldl _ _ ?_ _ ?_ | fail_if_no_progress ((with_reducible refine Keeps.mk' ?_ rfl rfl rfl ?_ ?_ ?_ ?_ ?_ ?_ ?_ ?_ ?_ ?_ ?_ ?_ ?_ ?_ ?_ ?_ ?_ ?_ ?_ ?_ ?_) <;> first | exact Or.inl (hm.bit (by decide)) | exact Or.inr rfl | skip)
    | split
    | (extract_lets +onlyGivenNames x; first | (refine Keeps.cut s0 x ?_ fun h => ?_; rotate_left; clear_value x) | skip)
    | (unfold x; fail_if_success done)
    | intro h

theorem comparePackage_keeps {k s0 s a1} (h : Keeps k s0 s)
    (hm : Within 0x10056c#21 k := by first | assumption | exact Within.trans (by assumption) (by decide)) :
    Keeps k s0 (comparePackage s a1) := by
  unfold comparePackage
  repeat' first
    | with_reducible assumption | with_reducible refine updLink_keeps ?_ | with_reducible refine resetDieState_keeps ?_ | with_reducible refine factoryBlocks_keeps ?_ | with_reducible refine updLinkWear_keeps ?_ | with_reducible refine Keeps.ite ?_ ?_ | with_reducible refine Keeps.foldl _ _ ?_ _ ?_ | fail_if_no_progress ((with_reducible refine Keeps.mk' ?_ rfl rfl rfl ?_ ?_ ?_ ?_ ?_ ?_ ?_ ?_ ?_ ?_ ?_ ?_ ?_ ?_ ?_ ?_ ?_ ?_ ?_ ?_ ?_) <;> first | exact Or.inl (hm.bit (by decide)) | exact Or.inr rfl | skip)
    | split
    | (extract_lets +onlyGivenNames x; first | (refine Keeps.cut s0 x ?_ fun h => ?_; rotate_left; clear_value x) | skip)
    | (unfold x; fail_if_success done)
    | intro h

theorem clockStep_keeps {k s0 s a1 a2} (h : Keeps k s0 s)
    (hm : Within 0x110063#21 k := by first | assumption | exact Within.trans (by assumption) (by decide)) :
    Keeps k s0 (clockStep s a1 a2) := by
  unfold clockStep
  repeat' first
    | with_reducible assumption | with_reducible refine catchUp_keeps ?_ | with_reducible refine continuityLoss_keeps ?_ | with_reducible refine keepPut_keeps ?_ | with_reducible refine raise_keeps ?_ | with_reducible refine Keeps.ite ?_ ?_ | with_reducible refine Keeps.foldl _ _ ?_ _ ?_ | fail_if_no_progress ((with_reducible refine Keeps.mk' ?_ rfl rfl rfl ?_ ?_ ?_ ?_ ?_ ?_ ?_ ?_ ?_ ?_ ?_ ?_ ?_ ?_ ?_ ?_ ?_ ?_ ?_ ?_ ?_) <;> first | exact Or.inl (hm.bit (by decide)) | exact Or.inr rfl | skip)
    | split
    | (extract_lets +onlyGivenNames x; first | (refine Keeps.cut s0 x ?_ fun h => ?_; rotate_left; clear_value x) | skip)
    | (unfold x; fail_if_success done)
    | intro h

theorem clockStart_keeps {k s0 s} (h : Keeps k s0 s)
    (hm : Within 0x11056f#21 k := by first | assumption | exact Within.trans (by assumption) (by decide)) :
    Keeps k s0 (clockStart s) := by
  unfold clockStart
  repeat' first
    | with_reducible assumption | with_reducible refine loadTable_keeps ?_ | with_reducible refine comparePackage_keeps ?_ | with_reducible refine clockStep_keeps ?_ | with_reducible refine Keeps.ite ?_ ?_ | with_reducible refine Keeps.foldl _ _ ?_ _ ?_ | fail_if_no_progress ((with_reducible refine Keeps.mk' ?_ rfl rfl rfl ?_ ?_ ?_ ?_ ?_ ?_ ?_ ?_ ?_ ?_ ?_ ?_ ?_ ?_ ?_ ?_ ?_ ?_ ?_ ?_ ?_) <;> first | exact Or.inl (hm.bit (by decide)) | exact Or.inr rfl | skip)
    | split
    | (extract_lets +onlyGivenNames x; first | (refine Keeps.cut s0 x ?_ fun h => ?_; rotate_left; clear_value x) | skip)
    | (unfold x; fail_if_success done)
    | intro h

theorem consume_keeps {k s0 s a1} (h : Keeps k s0 s)
    (hm : Within 0x100002#21 k := by first | assumption | exact Within.trans (by assumption) (by decide)) :
    Keeps k s0 (consume s a1) := by
  unfold consume
  repeat' first
    | with_reducible assumption | with_reducible refine keepPut_keeps ?_ | with_reducible refine Keeps.ite ?_ ?_ | with_reducible refine Keeps.foldl _ _ ?_ _ ?_ | fail_if_no_progress ((with_reducible refine Keeps.mk' ?_ rfl rfl rfl ?_ ?_ ?_ ?_ ?_ ?_ ?_ ?_ ?_ ?_ ?_ ?_ ?_ ?_ ?_ ?_ ?_ ?_ ?_ ?_ ?_) <;> first | exact Or.inl (hm.bit (by decide)) | exact Or.inr rfl | skip)
    | split
    | (extract_lets +onlyGivenNames x; first | (refine Keeps.cut s0 x ?_ fun h => ?_; rotate_left; clear_value x) | skip)
    | (unfold x; fail_if_success done)
    | intro h

theorem replayLines_keeps {k s0 s a1} (h : Keeps k s0 s)
    (hm : Within 0x88#21 k := by first | assumption | exact Within.trans (by assumption) (by decide)) : Keeps k s0 (replayLines s a1) := by
  unfold replayLines
  refine Keeps.foldl _ _ (fun t i k => ?_) _ h
  split
  · exact k
  · exact .ite (poisonEnter_keeps (setSagLine_keeps k)) (setSagLine_keeps k)

theorem replay_keeps {k s0 s a1} (h : Keeps k s0 s)
    (hm : Within 0x2ed#21 k := by first | assumption | exact Within.trans (by assumption) (by decide)) :
    Keeps k s0 (replay s a1) := by
  unfold replay
  repeat' first
    | with_reducible assumption | with_reducible refine continuityLoss_keeps ?_ | with_reducible refine replayLines_keeps ?_ | with_reducible refine Keeps.ite ?_ ?_ | with_reducible refine Keeps.foldl _ _ ?_ _ ?_ | fail_if_no_progress ((with_reducible refine Keeps.mk' ?_ rfl rfl rfl ?_ ?_ ?_ ?_ ?_ ?_ ?_ ?_ ?_ ?_ ?_ ?_ ?_ ?_ ?_ ?_ ?_ ?_ ?_ ?_ ?_) <;> first | exact Or.inl (hm.bit (by decide)) | exact Or.inr rfl | skip)
    | split
    | (extract_lets +onlyGivenNames x; first | (refine Keeps.cut s0 x ?_ fun h => ?_; rotate_left; clear_value x) | skip)
    | (unfold x; fail_if_success done)
    | intro h

theorem rebuildTable_keeps {k s0 s a1} (h : Keeps k s0 s)
    (hm : Within 0x20#21 k := by first | assumption | exact Within.trans (by assumption) (by decide)) :
    Keeps k s0 (rebuildTable s a1) := by
  unfold rebuildTable
  repeat' first
    | with_reducible assumption | with_reducible refine updRank_keeps ?_ | with_reducible refine updStripe_keeps ?_ | with_reducible refine Keeps.ite ?_ ?_ | with_reducible refine Keeps.foldl _ _ ?_ _ ?_ | fail_if_no_progress ((with_reducible refine Keeps.mk' ?_ rfl rfl rfl ?_ ?_ ?_ ?_ ?_ ?_ ?_ ?_ ?_ ?_ ?_ ?_ ?_ ?_ ?_ ?_ ?_ ?_ ?_ ?_ ?_) <;> first | exact Or.inl (hm.bit (by decide)) | exact Or.inr rfl | skip)
    | split
    | (extract_lets +onlyGivenNames x; first | (refine Keeps.cut s0 x ?_ fun h => ?_; rotate_left; clear_value x) | skip)
    | (unfold x; fail_if_success done)
    | intro h

theorem scanLeaves_keeps {k s0 s} (h : Keeps k s0 s)
    (hm : Within 0x204#21 k := by first | assumption | exact Within.trans (by assumption) (by decide)) :
    Keeps k s0 (scanLeaves s) := by
  unfold scanLeaves
  repeat' first
    | with_reducible assumption | with_reducible refine setLeafLine_keeps ?_ | with_reducible refine Keeps.ite ?_ ?_ | with_reducible refine Keeps.foldl _ _ ?_ _ ?_ | fail_if_no_progress ((with_reducible refine Keeps.mk' ?_ rfl rfl rfl ?_ ?_ ?_ ?_ ?_ ?_ ?_ ?_ ?_ ?_ ?_ ?_ ?_ ?_ ?_ ?_ ?_ ?_ ?_ ?_ ?_) <;> first | exact Or.inl (hm.bit (by decide)) | exact Or.inr rfl | skip)
    | split
    | (extract_lets +onlyGivenNames x; first | (refine Keeps.cut s0 x ?_ fun h => ?_; rotate_left; clear_value x) | skip)
    | (unfold x; fail_if_success done)
    | intro h

theorem rebuildSlot_keeps {k s0 s a1} (h : Keeps k s0 s)
    (hm : Within 0x204#21 k := by first | assumption | exact Within.trans (by assumption) (by decide)) :
    Keeps k s0 (rebuildSlot s a1) := by
  unfold rebuildSlot
  repeat' first
    | with_reducible assumption | with_reducible refine fetchSeg_keeps ?_ | with_reducible refine setEntry_keeps ?_ | with_reducible refine setLeafLine_keeps ?_ | with_reducible refine putStamps_keeps ?_ | with_reducible refine Keeps.ite ?_ ?_ | with_reducible refine Keeps.foldl _ _ ?_ _ ?_ | fail_if_no_progress ((with_reducible refine Keeps.mk' ?_ rfl rfl rfl ?_ ?_ ?_ ?_ ?_ ?_ ?_ ?_ ?_ ?_ ?_ ?_ ?_ ?_ ?_ ?_ ?_ ?_ ?_ ?_ ?_) <;> first | exact Or.inl (hm.bit (by decide)) | exact Or.inr rfl | skip)
    | split
    | (extract_lets +onlyGivenNames x; first | (refine Keeps.cut s0 x ?_ fun h => ?_; rotate_left; clear_value x) | skip)
    | (unfold x; fail_if_success done)
    | intro h

theorem rebuildSlots_keeps {k s0 s} (h : Keeps k s0 s)
    (hm : Within 0x204#21 k := by first | assumption | exact Within.trans (by assumption) (by decide)) :
    Keeps k s0 (rebuildSlots s) := by
  unfold rebuildSlots
  repeat' first
    | with_reducible assumption | with_reducible refine rebuildSlot_keeps ?_ | with_reducible refine Keeps.ite ?_ ?_ | with_reducible refine Keeps.foldl _ _ ?_ _ ?_ | fail_if_no_progress ((with_reducible refine Keeps.mk' ?_ rfl rfl rfl ?_ ?_ ?_ ?_ ?_ ?_ ?_ ?_ ?_ ?_ ?_ ?_ ?_ ?_ ?_ ?_ ?_ ?_ ?_ ?_ ?_) <;> first | exact Or.inl (hm.bit (by decide)) | exact Or.inr rfl | skip)
    | split
    | (extract_lets +onlyGivenNames x; first | (refine Keeps.cut s0 x ?_ fun h => ?_; rotate_left; clear_value x) | skip)
    | (unfold x; fail_if_success done)
    | intro h

theorem replayMoves_keeps {k s0 s a1} (h : Keeps k s0 s)
    (hm : Within 0x80004#21 k := by first | assumption | exact Within.trans (by assumption) (by decide)) :
    Keeps k s0 (replayMoves s a1) := by
  unfold replayMoves
  repeat' first
    | with_reducible assumption | with_reducible refine draw_keeps ?_ | with_reducible refine updRot_keeps ?_ | with_reducible refine Keeps.ite ?_ ?_ | with_reducible refine Keeps.foldl _ _ ?_ _ ?_ | fail_if_no_progress ((with_reducible refine Keeps.mk' ?_ rfl rfl rfl ?_ ?_ ?_ ?_ ?_ ?_ ?_ ?_ ?_ ?_ ?_ ?_ ?_ ?_ ?_ ?_ ?_ ?_ ?_ ?_ ?_) <;> first | exact Or.inl (hm.bit (by decide)) | exact Or.inr rfl | skip)
    | split
    | (extract_lets +onlyGivenNames x; first | (refine Keeps.cut s0 x ?_ fun h => ?_; rotate_left; clear_value x) | skip)
    | (unfold x; fail_if_success done)
    | intro h
    | with_reducible refine KeepsR.elim ?_ (by assumption) | with_reducible refine KeepsL.elim ?_ (by assumption) | with_reducible refine KeepsOS.elim ?_ (by assumption) | with_reducible refine KeepsOR.elim ?_ (by assumption) | with_reducible refine KeepsOR3.elim ?_ (by assumption) | with_reducible refine KeepsL.proj ?_ | with_reducible refine KeepsR.proj ?_

theorem dirtyRecovery_keeps {k s0 s a1} (h : Keeps k s0 s)
    (hm : Within 0x1802e7#21 k := by first | assumption | exact Within.trans (by assumption) (by decide)) :
    Keeps k s0 (dirtyRecovery s a1) := by
  unfold dirtyRecovery
  repeat' first
    | with_reducible assumption | with_reducible refine replayMoves_keeps ?_ | with_reducible refine rebuildTable_keeps ?_ | with_reducible refine rebuildSlots_keeps ?_ | with_reducible refine scanLeaves_keeps ?_ | with_reducible refine continuityLoss_keeps ?_ | with_reducible refine raise_keeps ?_ | with_reducible refine keepPut_keeps ?_ | with_reducible refine Keeps.ite ?_ ?_ | with_reducible refine Keeps.foldl _ _ ?_ _ ?_ | fail_if_no_progress ((with_reducible refine Keeps.mk' ?_ rfl rfl rfl ?_ ?_ ?_ ?_ ?_ ?_ ?_ ?_ ?_ ?_ ?_ ?_ ?_ ?_ ?_ ?_ ?_ ?_ ?_ ?_ ?_) <;> first | exact Or.inl (hm.bit (by decide)) | exact Or.inr rfl | skip)
    | split
    | (extract_lets +onlyGivenNames x; first | (refine Keeps.cut s0 x ?_ fun h => ?_; rotate_left; clear_value x) | skip)
    | (unfold x; fail_if_success done)
    | intro h

theorem closeStartup_keeps {k s0 s a1} (h : Keeps k s0 s)
    (hm : Within 0x20#21 k := by first | assumption | exact Within.trans (by assumption) (by decide)) : Keeps k s0 (closeStartup s a1) := by
  unfold closeStartup
  refine Keeps.foldl _ _ (fun t x k => ?_) _ h
  exact beginClose_keeps (.ite (updStripe_keeps (updRank_keeps k)) (updRank_keeps k))

theorem replaceWorn_keeps {k s0 s} (h : Keeps k s0 s)
    (hm : Within 0x100022#21 k := by first | assumption | exact Within.trans (by assumption) (by decide)) : Keeps k s0 (replaceWorn s) := by
  unfold replaceWorn
  refine Keeps.foldl _ _ (fun t x g => ?_) _ h
  split
  · exact g
  · extract_lets s1 repl
    have g1 : Keeps k s0 s1 := updStripe_keeps (updStripe_keeps g)
    exact keepPut_keeps (g1.same' rfl rfl rfl rfl)

theorem saveUse_keeps {k s0 s a1} (h : Keeps k s0 s)
    (hm : Within 0x100000#21 k := by first | assumption | exact Within.trans (by assumption) (by decide)) :
    Keeps k s0 (saveUse s a1) := by
  unfold saveUse
  repeat' first
    | with_reducible assumption | with_reducible refine keepPut_keeps ?_ | with_reducible refine Keeps.ite ?_ ?_ | with_reducible refine Keeps.foldl _ _ ?_ _ ?_ | fail_if_no_progress ((with_reducible refine Keeps.mk' ?_ rfl rfl rfl ?_ ?_ ?_ ?_ ?_ ?_ ?_ ?_ ?_ ?_ ?_ ?_ ?_ ?_ ?_ ?_ ?_ ?_ ?_ ?_ ?_) <;> first | exact Or.inl (hm.bit (by decide)) | exact Or.inr rfl | skip)
    | split
    | (extract_lets +onlyGivenNames x; first | (refine Keeps.cut s0 x ?_ fun h => ?_; rotate_left; clear_value x) | skip)
    | (unfold x; fail_if_success done)
    | intro h

theorem breathStart_keeps {k s0 s a1} (h : Keeps k s0 s)
    (hm : Within 0x1802ef#21 k := by first | assumption | exact Within.trans (by assumption) (by decide)) :
    Keeps k s0 (breathStart s a1) := by
  unfold breathStart
  repeat' first
    | with_reducible assumption | with_reducible refine consume_keeps ?_ | with_reducible refine replayLines_keeps ?_ | with_reducible refine dirtyRecovery_keeps ?_ | with_reducible refine replay_keeps ?_ | with_reducible refine raise_keeps ?_ | with_reducible refine closeStartup_keeps ?_ | with_reducible refine saveUse_keeps ?_ | with_reducible refine replaceWorn_keeps ?_ | with_reducible refine Keeps.ite ?_ ?_ | with_reducible refine Keeps.foldl _ _ ?_ _ ?_ | fail_if_no_progress ((with_reducible refine Keeps.mk' ?_ rfl rfl rfl ?_ ?_ ?_ ?_ ?_ ?_ ?_ ?_ ?_ ?_ ?_ ?_ ?_ ?_ ?_ ?_ ?_ ?_ ?_ ?_ ?_) <;> first | exact Or.inl (hm.bit (by decide)) | exact Or.inr rfl | skip)
    | split
    | (extract_lets +onlyGivenNames x; first | (refine Keeps.cut s0 x ?_ fun h => ?_; rotate_left; clear_value x) | skip)
    | (unfold x; fail_if_success done)
    | intro h

theorem storeRoot_keeps {k s0 s a1} (h : Keeps k s0 s)
    (hm : Within 0x201#21 k := by first | assumption | exact Within.trans (by assumption) (by decide)) :
    Keeps k s0 (storeRoot s a1) := by
  unfold storeRoot
  repeat' first
    | with_reducible assumption | with_reducible refine Keeps.ite ?_ ?_ | with_reducible refine Keeps.foldl _ _ ?_ _ ?_ | fail_if_no_progress ((with_reducible refine Keeps.mk' ?_ rfl rfl rfl ?_ ?_ ?_ ?_ ?_ ?_ ?_ ?_ ?_ ?_ ?_ ?_ ?_ ?_ ?_ ?_ ?_ ?_ ?_ ?_ ?_) <;> first | exact Or.inl (hm.bit (by decide)) | exact Or.inr rfl | skip)
    | split
    | (extract_lets +onlyGivenNames x; first | (refine Keeps.cut s0 x ?_ fun h => ?_; rotate_left; clear_value x) | skip)
    | (unfold x; fail_if_success done)
    | intro h

theorem rootStep_keeps {k s0 s a1} (h : Keeps k s0 s)
    (hm : Within 0x100201#21 k := by first | assumption | exact Within.trans (by assumption) (by decide)) :
    Keeps k s0 (rootStep s a1) := by
  unfold rootStep
  repeat' first
    | with_reducible assumption | with_reducible refine storeRoot_keeps ?_ | with_reducible refine raise_keeps ?_ | with_reducible refine Keeps.ite ?_ ?_ | with_reducible refine Keeps.foldl _ _ ?_ _ ?_ | fail_if_no_progress ((with_reducible refine Keeps.mk' ?_ rfl rfl rfl ?_ ?_ ?_ ?_ ?_ ?_ ?_ ?_ ?_ ?_ ?_ ?_ ?_ ?_ ?_ ?_ ?_ ?_ ?_ ?_ ?_) <;> first | exact Or.inl (hm.bit (by decide)) | exact Or.inr rfl | skip)
    | split
    | (extract_lets +onlyGivenNames x; first | (refine Keeps.cut s0 x ?_ fun h => ?_; rotate_left; clear_value x) | skip)
    | (unfold x; fail_if_success done)
    | intro h

theorem layOut_keeps {k s0 s a1 a2} (h : Keeps k s0 s)
    (hm : Within 0x4#21 k := by first | assumption | exact Within.trans (by assumption) (by decide)) :
    Keeps k s0 (layOut s a1 a2) := by
  unfold layOut
  repeat' first
    | with_reducible assumption | with_reducible refine Keeps.ite ?_ ?_ | with_reducible refine Keeps.foldl _ _ ?_ _ ?_ | fail_if_no_progress ((with_reducible refine Keeps.mk' ?_ rfl rfl rfl ?_ ?_ ?_ ?_ ?_ ?_ ?_ ?_ ?_ ?_ ?_ ?_ ?_ ?_ ?_ ?_ ?_ ?_ ?_ ?_ ?_) <;> first | exact Or.inl (hm.bit (by decide)) | exact Or.inr rfl | skip)
    | split
    | (extract_lets +onlyGivenNames x; first | (refine Keeps.cut s0 x ?_ fun h => ?_; rotate_left; clear_value x) | skip)
    | (unfold x; fail_if_success done)
    | intro h

theorem blankAs_keeps {k s0 s a1 a2 a3} (h : Keeps k s0 s)
    (hm : Within 0x324#21 k := by first | assumption | exact Within.trans (by assumption) (by decide)) :
    Keeps k s0 (blankAs s a1 a2 a3) := by
  unfold blankAs
  repeat' first
    | with_reducible assumption | with_reducible refine recordStripe_keeps ?_ | with_reducible refine updStripe_keeps ?_ | with_reducible refine blanked_keeps ?_ | with_reducible refine Keeps.ite ?_ ?_ | with_reducible refine Keeps.foldl _ _ ?_ _ ?_ | fail_if_no_progress ((with_reducible refine Keeps.mk' ?_ rfl rfl rfl ?_ ?_ ?_ ?_ ?_ ?_ ?_ ?_ ?_ ?_ ?_ ?_ ?_ ?_ ?_ ?_ ?_ ?_ ?_ ?_ ?_) <;> first | exact Or.inl (hm.bit (by decide)) | exact Or.inr rfl | skip)
    | split
    | (extract_lets +onlyGivenNames x; first | (refine Keeps.cut s0 x ?_ fun h => ?_; rotate_left; clear_value x) | skip)
    | (unfold x; fail_if_success done)
    | intro h

theorem swapBad_keeps {k s0 s a1} (h : Keeps k s0 s)
    (hm : Within 0x100324#21 k := by first | assumption | exact Within.trans (by assumption) (by decide)) : Keeps k s0 (swapBad s a1) := by
  unfold swapBad
  refine Keeps.foldl _ _ (fun t x k => ?_) _ h
  refine .ite (raise_keeps k) ?_
  split
  · exact k
  · exact .ite k (updRot_keeps (blankAs_keeps k))

theorem blankOne_keeps {k s0 s a1 a2} (h : Keeps k s0 s)
    (hm : Within 0x324#21 k := by first | assumption | exact Within.trans (by assumption) (by decide)) :
    Keeps k s0 (blankOne s a1 a2) := by
  unfold blankOne
  repeat' first
    | with_reducible assumption | with_reducible refine blankAs_keeps ?_ | with_reducible refine Keeps.ite ?_ ?_ | with_reducible refine Keeps.foldl _ _ ?_ _ ?_ | fail_if_no_progress ((with_reducible refine Keeps.mk' ?_ rfl rfl rfl ?_ ?_ ?_ ?_ ?_ ?_ ?_ ?_ ?_ ?_ ?_ ?_ ?_ ?_ ?_ ?_ ?_ ?_ ?_ ?_ ?_) <;> first | exact Or.inl (hm.bit (by decide)) | exact Or.inr rfl | skip)
    | split
    | (extract_lets +onlyGivenNames x; first | (refine Keeps.cut s0 x ?_ fun h => ?_; rotate_left; clear_value x) | skip)
    | (unfold x; fail_if_success done)
    | intro h

theorem firstLayout_keeps {k s0 s} (h : Keeps k s0 s)
    (hm : Within 0x100324#21 k := by first | assumption | exact Within.trans (by assumption) (by decide)) : Keeps k s0 (firstLayout s) := by
  unfold firstLayout
  extract_lets cap s1 m i s2 s3 w s4
  have h1 : Keeps k s0 s1 := layOut_keeps h
  have h2 : Keeps k s0 s2 := h1.same' rfl rfl rfl rfl
  have h3 : Keeps k s0 s3 := by
    refine Keeps.foldl _ _ (fun t r k => ?_) _ h2
    refine openAllocation_keeps (blankOne_keeps (Keeps.foldl _ _ (fun t n k => blankOne_keeps k) _ (swapBad_keeps (updRank_keeps k))))
  have h4 : Keeps k s0 s4 := h3.same' rfl rfl rfl rfl
  exact keepPut_keeps (saveRegions_keeps h4)

theorem relayout_keeps {k s0 s} (h : Keeps k s0 s)
    (hm : Within 0x100324#21 k := by first | assumption | exact Within.trans (by assumption) (by decide)) :
    Keeps k s0 (relayout s) := by
  unfold relayout
  repeat' first
    | with_reducible assumption | with_reducible refine releaseSlot_keeps ?_ | with_reducible refine layOut_keeps ?_ | with_reducible refine keepPut_keeps ?_ | with_reducible refine swapBad_keeps ?_ | with_reducible refine Keeps.ite ?_ ?_ | with_reducible refine Keeps.foldl _ _ ?_ _ ?_ | fail_if_no_progress ((with_reducible refine Keeps.mk' ?_ rfl rfl rfl ?_ ?_ ?_ ?_ ?_ ?_ ?_ ?_ ?_ ?_ ?_ ?_ ?_ ?_ ?_ ?_ ?_ ?_ ?_ ?_ ?_) <;> first | exact Or.inl (hm.bit (by decide)) | exact Or.inr rfl | skip)
    | split
    | (extract_lets +onlyGivenNames x; first | (refine Keeps.cut s0 x ?_ fun h => ?_; rotate_left; clear_value x) | skip)
    | (unfold x; fail_if_success done)
    | intro h

theorem rootStart_keeps {k s0 s a1} (h : Keeps k s0 s)
    (hm : Within 0x100325#21 k := by first | assumption | exact Within.trans (by assumption) (by decide)) :
    Keeps k s0 (rootStart s a1) := by
  unfold rootStart
  repeat' first
    | with_reducible assumption | with_reducible refine rootStep_keeps ?_ | with_reducible refine finishNode_keeps ?_ | with_reducible refine firstLayout_keeps ?_ | with_reducible refine relayout_keeps ?_ | with_reducible refine Keeps.ite ?_ ?_ | with_reducible refine Keeps.foldl _ _ ?_ _ ?_ | fail_if_no_progress ((with_reducible refine Keeps.mk' ?_ rfl rfl rfl ?_ ?_ ?_ ?_ ?_ ?_ ?_ ?_ ?_ ?_ ?_ ?_ ?_ ?_ ?_ ?_ ?_ ?_ ?_ ?_ ?_) <;> first | exact Or.inl (hm.bit (by decide)) | exact Or.inr rfl | skip)
    | split
    | (extract_lets +onlyGivenNames x; first | (refine Keeps.cut s0 x ?_ fun h => ?_; rotate_left; clear_value x) | skip)
    | (unfold x; fail_if_success done)
    | intro h

theorem hostStart_keeps {k s0 s a1} (h : Keeps k s0 s)
    (hm : Within 0x190901#21 k := by first | assumption | exact Within.trans (by assumption) (by decide)) :
    Keeps k s0 (hostStart s a1) := by
  unfold hostStart
  repeat' first
    | with_reducible assumption | with_reducible refine repairLane_keeps ?_ | with_reducible refine joinConsort_keeps ?_ | with_reducible refine Keeps.ite ?_ ?_ | with_reducible refine Keeps.foldl _ _ ?_ _ ?_ | fail_if_no_progress ((with_reducible refine Keeps.mk' ?_ rfl rfl rfl ?_ ?_ ?_ ?_ ?_ ?_ ?_ ?_ ?_ ?_ ?_ ?_ ?_ ?_ ?_ ?_ ?_ ?_ ?_ ?_ ?_) <;> first | exact Or.inl (hm.bit (by decide)) | exact Or.inr rfl | skip)
    | split
    | (extract_lets +onlyGivenNames x; first | (refine Keeps.cut s0 x ?_ fun h => ?_; rotate_left; clear_value x) | skip)
    | (unfold x; fail_if_success done)
    | intro h
    | with_reducible refine KeepsR.elim ?_ (by assumption) | with_reducible refine KeepsL.elim ?_ (by assumption) | with_reducible refine KeepsOS.elim ?_ (by assumption) | with_reducible refine KeepsOR.elim ?_ (by assumption) | with_reducible refine KeepsOR3.elim ?_ (by assumption) | with_reducible refine KeepsL.proj ?_ | with_reducible refine KeepsR.proj ?_

theorem startSweep_keeps {k s0 s} (h : Keeps k s0 s)
    (hm : Within 0x100040#21 k := by first | assumption | exact Within.trans (by assumption) (by decide)) :
    Keeps k s0 (startSweep s) := by
  unfold startSweep
  repeat' first
    | with_reducible assumption | with_reducible refine raise_keeps ?_ | with_reducible refine Keeps.ite ?_ ?_ | with_reducible refine Keeps.foldl _ _ ?_ _ ?_ | fail_if_no_progress ((with_reducible refine Keeps.mk' ?_ rfl rfl rfl ?_ ?_ ?_ ?_ ?_ ?_ ?_ ?_ ?_ ?_ ?_ ?_ ?_ ?_ ?_ ?_ ?_ ?_ ?_ ?_ ?_) <;> first | exact Or.inl (hm.bit (by decide)) | exact Or.inr rfl | skip)
    | split
    | (extract_lets +onlyGivenNames x; first | (refine Keeps.cut s0 x ?_ fun h => ?_; rotate_left; clear_value x) | skip)
    | (unfold x; fail_if_success done)
    | intro h

theorem mediaStart_keeps {k s0 s} (h : Keeps k s0 s)
    (hm : Within 0x18056e#21 k := by first | assumption | exact Within.trans (by assumption) (by decide)) :
    Keeps k s0 (mediaStart s) := by
  unfold mediaStart
  repeat' first
    | with_reducible assumption | with_reducible refine measureHoldup_keeps ?_ | with_reducible refine comparePackage_keeps ?_ | with_reducible refine clearForRebuild_keeps ?_ | with_reducible refine updRank_keeps ?_ | with_reducible refine startSweep_keeps ?_ | with_reducible refine checkSpareStripes_keeps ?_ | with_reducible refine refreshReady_keeps ?_ | with_reducible refine Keeps.ite ?_ ?_ | with_reducible refine Keeps.foldl _ _ ?_ _ ?_ | fail_if_no_progress ((with_reducible refine Keeps.mk' ?_ rfl rfl rfl ?_ ?_ ?_ ?_ ?_ ?_ ?_ ?_ ?_ ?_ ?_ ?_ ?_ ?_ ?_ ?_ ?_ ?_ ?_ ?_ ?_) <;> first | exact Or.inl (hm.bit (by decide)) | exact Or.inr rfl | skip)
    | split
    | (extract_lets +onlyGivenNames x; first | (refine Keeps.cut s0 x ?_ fun h => ?_; rotate_left; clear_value x) | skip)
    | (unfold x; fail_if_success done)
    | intro h

theorem stepAction_keeps {k s0 s a1} (h : Keeps k s0 s)
    (hm : Within 0x196fef#21 k := by first | assumption | exact Within.trans (by assumption) (by decide)) :
    Keeps k s0 (stepAction s a1) := by
  unfold stepAction
  repeat' first
    | with_reducible assumption | with_reducible refine fuseLoad_keeps ?_ | with_reducible refine romBoot_keeps ?_ | with_reducible refine testChannel_keeps ?_ | with_reducible refine keepStart_keeps ?_ | with_reducible refine keyStart_keeps ?_ | with_reducible refine populate_keeps ?_ | with_reducible refine clockStart_keeps ?_ | with_reducible refine breathStart_keeps ?_ | with_reducible refine rootStart_keeps ?_ | with_reducible refine hostStart_keeps ?_ | with_reducible refine mediaStart_keeps ?_ | with_reducible refine Keeps.ite ?_ ?_ | with_reducible refine Keeps.foldl _ _ ?_ _ ?_ | fail_if_no_progress ((with_reducible refine Keeps.mk' ?_ rfl rfl rfl ?_ ?_ ?_ ?_ ?_ ?_ ?_ ?_ ?_ ?_ ?_ ?_ ?_ ?_ ?_ ?_ ?_ ?_ ?_ ?_ ?_) <;> first | exact Or.inl (hm.bit (by decide)) | exact Or.inr rfl | skip)
    | split
    | (extract_lets +onlyGivenNames x; first | (refine Keeps.cut s0 x ?_ fun h => ?_; rotate_left; clear_value x) | skip)
    | (unfold x; fail_if_success done)
    | intro h

theorem execStartupStepEnd_keeps {k s0 a0 s} (h : Keeps k s0 s)
    (hm : Within 0x196fef#21 k := by first | assumption | exact Within.trans (by assumption) (by decide)) :
    KeepsO k s0 (execStartupStepEnd a0 s) := by
  unfold execStartupStepEnd
  repeat' first
    | with_reducible assumption | with_reducible refine fuseLoad_keeps ?_ | with_reducible refine stepAction_keeps ?_ | with_reducible refine Keeps.ite ?_ ?_ | with_reducible refine Keeps.foldl _ _ ?_ _ ?_ | fail_if_no_progress ((with_reducible refine Keeps.mk' ?_ rfl rfl rfl ?_ ?_ ?_ ?_ ?_ ?_ ?_ ?_ ?_ ?_ ?_ ?_ ?_ ?_ ?_ ?_ ?_ ?_ ?_ ?_ ?_) <;> first | exact Or.inl (hm.bit (by decide)) | exact Or.inr rfl | skip) | with_reducible refine KeepsO.next ?_
    | split
    | (extract_lets +onlyGivenNames x; first | (refine Keeps.cut s0 x ?_ fun h => ?_; rotate_left; clear_value x) | skip)
    | (unfold x; fail_if_success done)
    | intro h

theorem execTapInstruction_keeps {k s0 a0 s} (h : Keeps k s0 s)
    (hm : Within 0x1dbfff#21 k := by first | assumption | exact Within.trans (by assumption) (by decide)) :
    KeepsO k s0 (execTapInstruction a0 s) := by
  unfold execTapInstruction
  repeat' first
    | with_reducible assumption | with_reducible refine readReg_keeps ?_ | with_reducible refine writeReg_keeps ?_ | with_reducible refine Keeps.ite ?_ ?_ | with_reducible refine Keeps.foldl _ _ ?_ _ ?_ | fail_if_no_progress ((with_reducible refine Keeps.mk' ?_ rfl rfl rfl ?_ ?_ ?_ ?_ ?_ ?_ ?_ ?_ ?_ ?_ ?_ ?_ ?_ ?_ ?_ ?_ ?_ ?_ ?_ ?_ ?_) <;> first | exact Or.inl (hm.bit (by decide)) | exact Or.inr rfl | skip) | with_reducible refine KeepsO.next ?_
    | split
    | (extract_lets +onlyGivenNames x; first | (refine Keeps.cut s0 x ?_ fun h => ?_; rotate_left; clear_value x) | skip)
    | (unfold x; fail_if_success done)
    | intro h

/-! DeepWake. -/

theorem rebuildConfig_keeps {k s0 s a1} (h : Keeps k s0 s)
    (hm : Within 0x60000#21 k := by first | assumption | exact Within.trans (by assumption) (by decide)) :
    Keeps k s0 (rebuildConfig s a1) := by
  unfold rebuildConfig
  repeat' first
    | with_reducible assumption | with_reducible refine setShadow_keeps ?_ | with_reducible refine setLive_keeps ?_ | with_reducible refine Keeps.ite ?_ ?_ | with_reducible refine Keeps.foldl _ _ ?_ _ ?_ | fail_if_no_progress ((with_reducible refine Keeps.mk' ?_ rfl rfl rfl ?_ ?_ ?_ ?_ ?_ ?_ ?_ ?_ ?_ ?_ ?_ ?_ ?_ ?_ ?_ ?_ ?_ ?_ ?_ ?_ ?_) <;> first | exact Or.inl (hm.bit (by decide)) | exact Or.inr rfl | skip)
    | split
    | (extract_lets +onlyGivenNames x; first | (refine Keeps.cut s0 x ?_ fun h => ?_; rotate_left; clear_value x) | skip)
    | (unfold x; fail_if_success done)
    | intro h

theorem loseBank0_keeps {k s0 s} (h : Keeps k s0 s)
    (hm : Within 0x60028#21 k := by first | assumption | exact Within.trans (by assumption) (by decide)) :
    Keeps k s0 (loseBank0 s) := by
  unfold loseBank0
  repeat' first
    | with_reducible assumption | with_reducible refine rebuildConfig_keeps ?_ | with_reducible refine Keeps.ite ?_ ?_ | with_reducible refine Keeps.foldl _ _ ?_ _ ?_ | fail_if_no_progress ((with_reducible refine Keeps.mk' ?_ rfl rfl rfl ?_ ?_ ?_ ?_ ?_ ?_ ?_ ?_ ?_ ?_ ?_ ?_ ?_ ?_ ?_ ?_ ?_ ?_ ?_ ?_ ?_) <;> first | exact Or.inl (hm.bit (by decide)) | exact Or.inr rfl | skip)
    | split
    | (extract_lets +onlyGivenNames x; first | (refine Keeps.cut s0 x ?_ fun h => ?_; rotate_left; clear_value x) | skip)
    | (unfold x; fail_if_success done)
    | intro h

theorem loseBank1_keeps {k s0 s} (h : Keeps k s0 s)
    (hm : Within 0x600c0#21 k := by first | assumption | exact Within.trans (by assumption) (by decide)) :
    Keeps k s0 (loseBank1 s) := by
  unfold loseBank1
  repeat' first
    | with_reducible assumption | with_reducible refine rebuildConfig_keeps ?_ | with_reducible refine Keeps.ite ?_ ?_ | with_reducible refine Keeps.foldl _ _ ?_ _ ?_ | fail_if_no_progress ((with_reducible refine Keeps.mk' ?_ rfl rfl rfl ?_ ?_ ?_ ?_ ?_ ?_ ?_ ?_ ?_ ?_ ?_ ?_ ?_ ?_ ?_ ?_ ?_ ?_ ?_ ?_ ?_) <;> first | exact Or.inl (hm.bit (by decide)) | exact Or.inr rfl | skip)
    | split
    | (extract_lets +onlyGivenNames x; first | (refine Keeps.cut s0 x ?_ fun h => ?_; rotate_left; clear_value x) | skip)
    | (unfold x; fail_if_success done)
    | intro h

theorem loseBank2_keeps {k s0 s} (h : Keeps k s0 s)
    (hm : Within 0x62100#21 k := by first | assumption | exact Within.trans (by assumption) (by decide)) : Keeps k s0 (loseBank2 s) := by
  have g : Keeps k s0 (rebuildConfig s ((List.range 53).map (· + 5))) := rebuildConfig_keeps h
  unfold loseBank2
  refine loadHistory_keeps ⟨g.1, fun hi => ⟨(g.2 hi).sram, (g.2 hi).packets, rfl⟩, g.frame⟩

theorem loseBank3_keeps {k s0 s} (h : Keeps k s0 s)
    (hm : Within 0x108000#21 k := by first | assumption | exact Within.trans (by assumption) (by decide)) : Keeps k s0 (loseBank3 s) :=
  h.queues (fun c => { timeout := c.timeout, classes := c.classes }) (fun _ _ => (by decide : 0 < 8190)) rfl rfl rfl rfl

theorem loseBank4_keeps {k s0 s} (h : Keeps k s0 s)
    (hm : Within 0x1f1003#21 k := by first | assumption | exact Within.trans (by assumption) (by decide)) :
    Keeps k s0 (loseBank4 s) := by
  unfold loseBank4
  repeat' first
    | with_reducible assumption | with_reducible refine rebuildConfig_keeps ?_ | with_reducible refine leaveConsort_keeps ?_ | with_reducible refine joinConsort_keeps ?_ | with_reducible refine Keeps.ite ?_ ?_ | with_reducible refine Keeps.foldl _ _ ?_ _ ?_ | fail_if_no_progress ((with_reducible refine Keeps.mk' ?_ rfl rfl rfl ?_ ?_ ?_ ?_ ?_ ?_ ?_ ?_ ?_ ?_ ?_ ?_ ?_ ?_ ?_ ?_ ?_ ?_ ?_ ?_ ?_) <;> first | exact Or.inl (hm.bit (by decide)) | exact Or.inr rfl | skip)
    | split
    | (extract_lets +onlyGivenNames x; first | (refine Keeps.cut s0 x ?_ fun h => ?_; rotate_left; clear_value x) | skip)
    | (unfold x; fail_if_success done)
    | intro h

theorem loseBank5_keeps {k s0 s} (h : Keeps k s0 s)
    (hm : Within 0x8000#21 k := by first | assumption | exact Within.trans (by assumption) (by decide)) :
    Keeps k s0 (loseBank5 s) := by
  unfold loseBank5
  repeat' first
    | with_reducible assumption | with_reducible refine Keeps.ite ?_ ?_ | with_reducible refine Keeps.foldl _ _ ?_ _ ?_ | fail_if_no_progress ((with_reducible refine Keeps.mk' ?_ rfl rfl rfl ?_ ?_ ?_ ?_ ?_ ?_ ?_ ?_ ?_ ?_ ?_ ?_ ?_ ?_ ?_ ?_ ?_ ?_ ?_ ?_ ?_) <;> first | exact Or.inl (hm.bit (by decide)) | exact Or.inr rfl | skip)
    | split
    | (extract_lets +onlyGivenNames x; first | (refine Keeps.cut s0 x ?_ fun h => ?_; rotate_left; clear_value x) | skip)
    | (unfold x; fail_if_success done)
    | intro h

theorem loseBank6_keeps {k s0 s} (h : Keeps k s0 s)
    (hm : Within 0x100800#21 k := by first | assumption | exact Within.trans (by assumption) (by decide)) :
    Keeps k s0 (loseBank6 s) := by
  unfold loseBank6
  repeat' first
    | with_reducible assumption | with_reducible refine Keeps.ite ?_ ?_ | with_reducible refine Keeps.foldl _ _ ?_ _ ?_ | fail_if_no_progress ((with_reducible refine Keeps.mk' ?_ rfl rfl rfl ?_ ?_ ?_ ?_ ?_ ?_ ?_ ?_ ?_ ?_ ?_ ?_ ?_ ?_ ?_ ?_ ?_ ?_ ?_ ?_ ?_) <;> first | exact Or.inl (hm.bit (by decide)) | exact Or.inr rfl | skip)
    | split
    | (extract_lets +onlyGivenNames x; first | (refine Keeps.cut s0 x ?_ fun h => ?_; rotate_left; clear_value x) | skip)
    | (unfold x; fail_if_success done)
    | intro h

theorem loseBank7_keeps {k s0 s} (h : Keeps k s0 s)
    (hm : Within 0x1000#21 k := by first | assumption | exact Within.trans (by assumption) (by decide)) :
    Keeps k s0 (loseBank7 s) := by
  unfold loseBank7
  repeat' first
    | with_reducible assumption | with_reducible refine Keeps.ite ?_ ?_ | with_reducible refine Keeps.foldl _ _ ?_ _ ?_ | fail_if_no_progress ((with_reducible refine Keeps.mk' ?_ rfl rfl rfl ?_ ?_ ?_ ?_ ?_ ?_ ?_ ?_ ?_ ?_ ?_ ?_ ?_ ?_ ?_ ?_ ?_ ?_ ?_ ?_ ?_) <;> first | exact Or.inl (hm.bit (by decide)) | exact Or.inr rfl | skip)
    | split
    | (extract_lets +onlyGivenNames x; first | (refine Keeps.cut s0 x ?_ fun h => ?_; rotate_left; clear_value x) | skip)
    | (unfold x; fail_if_success done)
    | intro h

theorem loseBank_keeps {k s0 s a1} (h : Keeps k s0 s)
    (hm : Within 0x1fb9eb#21 k := by first | assumption | exact Within.trans (by assumption) (by decide)) :
    Keeps k s0 (loseBank s a1) := by
  unfold loseBank
  repeat' first
    | with_reducible assumption | with_reducible refine loseBank0_keeps ?_ | with_reducible refine loseBank1_keeps ?_ | with_reducible refine loseBank2_keeps ?_ | with_reducible refine loseBank3_keeps ?_ | with_reducible refine loseBank4_keeps ?_ | with_reducible refine loseBank5_keeps ?_ | with_reducible refine loseBank6_keeps ?_ | with_reducible refine loseBank7_keeps ?_ | with_reducible refine Keeps.ite ?_ ?_ | with_reducible refine Keeps.foldl _ _ ?_ _ ?_ | fail_if_no_progress ((with_reducible refine Keeps.mk' ?_ rfl rfl rfl ?_ ?_ ?_ ?_ ?_ ?_ ?_ ?_ ?_ ?_ ?_ ?_ ?_ ?_ ?_ ?_ ?_ ?_ ?_ ?_ ?_) <;> first | exact Or.inl (hm.bit (by decide)) | exact Or.inr rfl | skip)
    | split
    | (extract_lets +onlyGivenNames x; first | (refine Keeps.cut s0 x ?_ fun h => ?_; rotate_left; clear_value x) | skip)
    | (unfold x; fail_if_success done)
    | intro h

theorem reportBanks_keeps {k s0 s a1} (h : Keeps k s0 s)
    (hm : Within 0x100002#21 k := by first | assumption | exact Within.trans (by assumption) (by decide)) :
    Keeps k s0 (reportBanks s a1) := by
  unfold reportBanks
  repeat' first
    | with_reducible assumption | with_reducible refine raise_keeps ?_ | with_reducible refine Keeps.ite ?_ ?_ | with_reducible refine Keeps.foldl _ _ ?_ _ ?_ | fail_if_no_progress ((with_reducible refine Keeps.mk' ?_ rfl rfl rfl ?_ ?_ ?_ ?_ ?_ ?_ ?_ ?_ ?_ ?_ ?_ ?_ ?_ ?_ ?_ ?_ ?_ ?_ ?_ ?_ ?_) <;> first | exact Or.inl (hm.bit (by decide)) | exact Or.inr rfl | skip)
    | split
    | (extract_lets +onlyGivenNames x; first | (refine Keeps.cut s0 x ?_ fun h => ?_; rotate_left; clear_value x) | skip)
    | (unfold x; fail_if_success done)
    | intro h

theorem ringWoken_keeps {k s0 s a1} (h : Keeps k s0 s)
    (hm : Within 0x108000#21 k := by first | assumption | exact Within.trans (by assumption) (by decide)) :
    Keeps k s0 (ringWoken s a1) := by
  unfold ringWoken
  repeat' first
    | with_reducible assumption | with_reducible refine writeRecord_keeps ?_ | with_reducible refine Keeps.ite ?_ ?_ | with_reducible refine Keeps.foldl _ _ ?_ _ ?_ | fail_if_no_progress ((with_reducible refine Keeps.mk' ?_ rfl rfl rfl ?_ ?_ ?_ ?_ ?_ ?_ ?_ ?_ ?_ ?_ ?_ ?_ ?_ ?_ ?_ ?_ ?_ ?_ ?_ ?_ ?_) <;> first | exact Or.inl (hm.bit (by decide)) | exact Or.inr rfl | skip)
    | split
    | (extract_lets +onlyGivenNames x; first | (refine Keeps.cut s0 x ?_ fun h => ?_; rotate_left; clear_value x) | skip)
    | (unfold x; fail_if_success done)
    | intro h

theorem unretained_keeps {k s0 s} (h : Keeps k s0 s)
    (hm : Within 0x8010#21 k := by first | assumption | exact Within.trans (by assumption) (by decide)) :
    Keeps k s0 (unretained s) := by
  unfold unretained
  repeat' first
    | with_reducible assumption | with_reducible refine Keeps.ite ?_ ?_ | with_reducible refine Keeps.foldl _ _ ?_ _ ?_ | fail_if_no_progress ((with_reducible refine Keeps.mk' ?_ rfl rfl rfl ?_ ?_ ?_ ?_ ?_ ?_ ?_ ?_ ?_ ?_ ?_ ?_ ?_ ?_ ?_ ?_ ?_ ?_ ?_ ?_ ?_) <;> first | exact Or.inl (hm.bit (by decide)) | exact Or.inr rfl | skip)
    | split
    | (extract_lets +onlyGivenNames x; first | (refine Keeps.cut s0 x ?_ fun h => ?_; rotate_left; clear_value x) | skip)
    | (unfold x; fail_if_success done)
    | intro h

theorem rootWoken_keeps {k s0 s} (h : Keeps k s0 s)
    (hm : Within 0x100201#21 k := by first | assumption | exact Within.trans (by assumption) (by decide)) :
    Keeps k s0 (rootWoken s) := by
  unfold rootWoken
  repeat' first
    | with_reducible assumption | with_reducible refine raise_keeps ?_ | with_reducible refine storeRoot_keeps ?_ | with_reducible refine Keeps.ite ?_ ?_ | with_reducible refine Keeps.foldl _ _ ?_ _ ?_ | fail_if_no_progress ((with_reducible refine Keeps.mk' ?_ rfl rfl rfl ?_ ?_ ?_ ?_ ?_ ?_ ?_ ?_ ?_ ?_ ?_ ?_ ?_ ?_ ?_ ?_ ?_ ?_ ?_ ?_ ?_) <;> first | exact Or.inl (hm.bit (by decide)) | exact Or.inr rfl | skip)
    | split
    | (extract_lets +onlyGivenNames x; first | (refine Keeps.cut s0 x ?_ fun h => ?_; rotate_left; clear_value x) | skip)
    | (unfold x; fail_if_success done)
    | intro h

theorem deepWake_keeps {k s0 s a1 a2} (h : Keeps k s0 s)
    (hm : Within 0x1fbfff#21 k := by first | assumption | exact Within.trans (by assumption) (by decide)) : Keeps k s0 (deepWake s a1 a2) := by
  unfold deepWake
  generalize sleptBeats s.clk = slept
  generalize ringHeld s = held
  generalize failedBanks s a2 = banks
  dsimp only
  generalize e1 : State.mk _ _ _ _ _ _ _ _ _ _ _ _ _ _ _ _ _ _ _ _ _ = s1
  have h1 : Keeps k s0 s1 := by
    rw [← e1]
    exact h.queues queueWoken (fun _ _ => (by decide : 0 < 8190)) rfl rfl rfl rfl
  clear e1
  have h3 : Keeps k s0 (ringWoken (if 3 ∈ banks then loseBank3 (fillBuckets (unretained s1)) else fillBuckets (unretained s1)) held) :=
    ringWoken_keeps (.ite (loseBank3_keeps (fillBuckets_keeps (unretained_keeps h1))) (fillBuckets_keeps (unretained_keeps h1)))
  generalize ringWoken _ held = s3 at h3 ⊢
  have h4 : Keeps k s0 (reportBanks (List.foldl loseBank s3 (banks.filter (· ≠ 3))) banks) :=
    reportBanks_keeps (Keeps.foldl _ _ (fun _ _ g => loseBank_keeps g) _ h3)
  generalize reportBanks _ banks = s4 at h4 ⊢
  have h6 : Keeps k s0 (clockStep (resumeLinks s4 fun _ => true) (slept / 2 ^ 24) groupFactor) := clockStep_keeps (resumeLinks_keeps h4)
  generalize clockStep _ _ groupFactor = s6 at h6 ⊢
  have h7 : Keeps k s0 (if (!s4.clk.cont) = true then startSweep s6 else s6) := .ite (startSweep_keeps h6) h6
  generalize (if (!s4.clk.cont) = true then startSweep s6 else s6) = s7 at h7 ⊢
  have h8 : Keeps k s0 (refreshReady (rootWoken s7)) := refreshReady_keeps (rootWoken_keeps h7)
  generalize refreshReady (rootWoken s7) = s8 at h8 ⊢
  exact .ite (sendFrame_keeps (h8.same' rfl rfl rfl rfl)) (h8.same' rfl rfl rfl rfl)

theorem execDeepSleepWake_keeps {k s0 a0 a1 s} (h : Keeps k s0 s)
    (hm : Within 0x1fbfff#21 k := by first | assumption | exact Within.trans (by assumption) (by decide)) :
    KeepsO k s0 (execDeepSleepWake a0 a1 s) := by
  unfold execDeepSleepWake
  repeat' first
    | with_reducible assumption | with_reducible refine deepWake_keeps ?_ | with_reducible refine Keeps.ite ?_ ?_ | with_reducible refine Keeps.foldl _ _ ?_ _ ?_ | fail_if_no_progress ((with_reducible refine Keeps.mk' ?_ rfl rfl rfl ?_ ?_ ?_ ?_ ?_ ?_ ?_ ?_ ?_ ?_ ?_ ?_ ?_ ?_ ?_ ?_ ?_ ?_ ?_ ?_ ?_) <;> first | exact Or.inl (hm.bit (by decide)) | exact Or.inr rfl | skip) | with_reducible refine KeepsO.next ?_
    | split
    | (extract_lets +onlyGivenNames x; first | (refine Keeps.cut s0 x ?_ fun h => ?_; rotate_left; clear_value x) | skip)
    | (unfold x; fail_if_success done)
    | intro h

/-! Beat. -/

theorem cycleCount_keeps {k s0 s a1} (h : Keeps k s0 s)
    (hm : Within 0x88000#21 k := by first | assumption | exact Within.trans (by assumption) (by decide)) :
    Keeps k s0 (cycleCount s a1) := by
  unfold cycleCount
  repeat' first
    | with_reducible assumption | with_reducible refine draw_keeps ?_ | with_reducible refine count_keeps ?_ | with_reducible refine Keeps.ite ?_ ?_ | with_reducible refine Keeps.foldl _ _ ?_ _ ?_ | fail_if_no_progress ((with_reducible refine Keeps.mk' ?_ rfl rfl rfl ?_ ?_ ?_ ?_ ?_ ?_ ?_ ?_ ?_ ?_ ?_ ?_ ?_ ?_ ?_ ?_ ?_ ?_ ?_ ?_ ?_) <;> first | exact Or.inl (hm.bit (by decide)) | exact Or.inr rfl | skip)
    | split
    | (extract_lets +onlyGivenNames x; first | (refine Keeps.cut s0 x ?_ fun h => ?_; rotate_left; clear_value x) | skip)
    | (unfold x; fail_if_success done)
    | intro h
    | with_reducible refine KeepsR.elim ?_ (by assumption) | with_reducible refine KeepsL.elim ?_ (by assumption) | with_reducible refine KeepsOS.elim ?_ (by assumption) | with_reducible refine KeepsOR.elim ?_ (by assumption) | with_reducible refine KeepsOR3.elim ?_ (by assumption) | with_reducible refine KeepsL.proj ?_ | with_reducible refine KeepsR.proj ?_

theorem sramPort_keeps {k s0 s a1} (h : Keeps k s0 s)
    (hm : Within 0x88000#21 k := by first | assumption | exact Within.trans (by assumption) (by decide)) :
    Keeps k s0 (sramPort s a1) := by
  unfold sramPort
  repeat' first
    | with_reducible assumption | with_reducible refine draw_keeps ?_ | with_reducible refine portBytes_keeps ?_ | with_reducible refine Keeps.ite ?_ ?_ | with_reducible refine Keeps.foldl _ _ ?_ _ ?_ | fail_if_no_progress ((with_reducible refine Keeps.mk' ?_ rfl rfl rfl ?_ ?_ ?_ ?_ ?_ ?_ ?_ ?_ ?_ ?_ ?_ ?_ ?_ ?_ ?_ ?_ ?_ ?_ ?_ ?_ ?_) <;> first | exact Or.inl (hm.bit (by decide)) | exact Or.inr rfl | skip)
    | split
    | (extract_lets +onlyGivenNames x; first | (refine Keeps.cut s0 x ?_ fun h => ?_; rotate_left; clear_value x) | skip)
    | (unfold x; fail_if_success done)
    | intro h
    | with_reducible refine KeepsR.elim ?_ (by assumption) | with_reducible refine KeepsL.elim ?_ (by assumption) | with_reducible refine KeepsOS.elim ?_ (by assumption) | with_reducible refine KeepsOR.elim ?_ (by assumption) | with_reducible refine KeepsOR3.elim ?_ (by assumption) | with_reducible refine KeepsL.proj ?_ | with_reducible refine KeepsR.proj ?_

theorem cycleCounts_keeps {k s0 s} (h : Keeps k s0 s)
    (hm : Within 0x88000#21 k := by first | assumption | exact Within.trans (by assumption) (by decide)) :
    Keeps k s0 (cycleCounts s) := by
  unfold cycleCounts
  repeat' first
    | with_reducible assumption | with_reducible refine cycleCount_keeps ?_ | with_reducible refine sramPort_keeps ?_ | with_reducible refine Keeps.ite ?_ ?_ | with_reducible refine Keeps.foldl _ _ ?_ _ ?_ | fail_if_no_progress ((with_reducible refine Keeps.mk' ?_ rfl rfl rfl ?_ ?_ ?_ ?_ ?_ ?_ ?_ ?_ ?_ ?_ ?_ ?_ ?_ ?_ ?_ ?_ ?_ ?_ ?_ ?_ ?_) <;> first | exact Or.inl (hm.bit (by decide)) | exact Or.inr rfl | skip)
    | split
    | (extract_lets +onlyGivenNames x; first | (refine Keeps.cut s0 x ?_ fun h => ?_; rotate_left; clear_value x) | skip)
    | (unfold x; fail_if_success done)
    | intro h

theorem counterStep_keeps {k s0 s} (h : Keeps k s0 s)
    (hm : Within 0x8010#21 k := by first | assumption | exact Within.trans (by assumption) (by decide)) :
    Keeps k s0 (counterStep s) := by
  unfold counterStep
  repeat' first
    | with_reducible assumption | with_reducible refine Keeps.ite ?_ ?_ | with_reducible refine Keeps.foldl _ _ ?_ _ ?_ | fail_if_no_progress ((with_reducible refine Keeps.mk' ?_ rfl rfl rfl ?_ ?_ ?_ ?_ ?_ ?_ ?_ ?_ ?_ ?_ ?_ ?_ ?_ ?_ ?_ ?_ ?_ ?_ ?_ ?_ ?_) <;> first | exact Or.inl (hm.bit (by decide)) | exact Or.inr rfl | skip)
    | split
    | (extract_lets +onlyGivenNames x; first | (refine Keeps.cut s0 x ?_ fun h => ?_; rotate_left; clear_value x) | skip)
    | (unfold x; fail_if_success done)
    | intro h

theorem countSlots_keeps {k s0 s a1 a2} (h : Keeps k s0 s)
    (hm : Within 0x8000#21 k := by first | assumption | exact Within.trans (by assumption) (by decide)) :
    Keeps k s0 (countSlots s a1 a2) := by
  unfold countSlots
  repeat' first
    | with_reducible assumption | with_reducible refine count_keeps ?_ | with_reducible refine Keeps.ite ?_ ?_ | with_reducible refine Keeps.foldl _ _ ?_ _ ?_ | fail_if_no_progress ((with_reducible refine Keeps.mk' ?_ rfl rfl rfl ?_ ?_ ?_ ?_ ?_ ?_ ?_ ?_ ?_ ?_ ?_ ?_ ?_ ?_ ?_ ?_ ?_ ?_ ?_ ?_ ?_) <;> first | exact Or.inl (hm.bit (by decide)) | exact Or.inr rfl | skip)
    | split
    | (extract_lets +onlyGivenNames x; first | (refine Keeps.cut s0 x ?_ fun h => ?_; rotate_left; clear_value x) | skip)
    | (unfold x; fail_if_success done)
    | intro h

theorem dropWrites_keeps {k s0 s} (h : Keeps k s0 s)
    (hm : Within 0x10#21 k := by first | assumption | exact Within.trans (by assumption) (by decide)) :
    Keeps k s0 (dropWrites s) := by
  unfold dropWrites
  repeat' first
    | with_reducible assumption | with_reducible refine Keeps.ite ?_ ?_ | with_reducible refine Keeps.foldl _ _ ?_ _ ?_ | fail_if_no_progress ((with_reducible refine Keeps.mk' ?_ rfl rfl rfl ?_ ?_ ?_ ?_ ?_ ?_ ?_ ?_ ?_ ?_ ?_ ?_ ?_ ?_ ?_ ?_ ?_ ?_ ?_ ?_ ?_) <;> first | exact Or.inl (hm.bit (by decide)) | exact Or.inr rfl | skip)
    | split
    | (extract_lets +onlyGivenNames x; first | (refine Keeps.cut s0 x ?_ fun h => ?_; rotate_left; clear_value x) | skip)
    | (unfold x; fail_if_success done)
    | intro h

theorem admission_keeps {k s0 s} (h : Keeps k s0 s)
    (hm : Within 0x1884de#21 k := by first | assumption | exact Within.trans (by assumption) (by decide)) :
    Keeps k s0 (admission s) := by
  unfold admission
  repeat' first
    | with_reducible assumption | with_reducible refine dropWrites_keeps ?_ | with_reducible refine admitAll_keeps ?_ | with_reducible refine countSlots_keeps ?_ | with_reducible refine Keeps.ite ?_ ?_ | with_reducible refine Keeps.foldl _ _ ?_ _ ?_ | fail_if_no_progress ((with_reducible refine Keeps.mk' ?_ rfl rfl rfl ?_ ?_ ?_ ?_ ?_ ?_ ?_ ?_ ?_ ?_ ?_ ?_ ?_ ?_ ?_ ?_ ?_ ?_ ?_ ?_ ?_) <;> first | exact Or.inl (hm.bit (by decide)) | exact Or.inr rfl | skip)
    | split
    | (extract_lets +onlyGivenNames x; first | (refine Keeps.cut s0 x ?_ fun h => ?_; rotate_left; clear_value x) | skip)
    | (unfold x; fail_if_success done)
    | intro h
    | with_reducible refine KeepsR.elim ?_ (by assumption) | with_reducible refine KeepsL.elim ?_ (by assumption) | with_reducible refine KeepsOS.elim ?_ (by assumption) | with_reducible refine KeepsOR.elim ?_ (by assumption) | with_reducible refine KeepsOR3.elim ?_ (by assumption) | with_reducible refine KeepsL.proj ?_ | with_reducible refine KeepsR.proj ?_

theorem takeDrops_keeps {k s0 s} (h : Keeps k s0 s)
    (hm : Within 0x802a4#21 k := by first | assumption | exact Within.trans (by assumption) (by decide)) :
    Keeps k s0 (takeDrops s) := by
  unfold takeDrops
  repeat' first
    | with_reducible assumption | with_reducible refine draw_keeps ?_ | with_reducible refine dropPage_keeps ?_ | with_reducible refine fetchSeg_keeps ?_ | with_reducible refine Keeps.ite ?_ ?_ | with_reducible refine Keeps.foldl _ _ ?_ _ ?_ | fail_if_no_progress ((with_reducible refine Keeps.mk' ?_ rfl rfl rfl ?_ ?_ ?_ ?_ ?_ ?_ ?_ ?_ ?_ ?_ ?_ ?_ ?_ ?_ ?_ ?_ ?_ ?_ ?_ ?_ ?_) <;> first | exact Or.inl (hm.bit (by decide)) | exact Or.inr rfl | skip)
    | split
    | (extract_lets +onlyGivenNames x; first | (refine Keeps.cut s0 x ?_ fun h => ?_; rotate_left; clear_value x) | skip)
    | (unfold x; fail_if_success done)
    | intro h
    | with_reducible refine KeepsR.elim ?_ (by assumption) | with_reducible refine KeepsL.elim ?_ (by assumption) | with_reducible refine KeepsOS.elim ?_ (by assumption) | with_reducible refine KeepsOR.elim ?_ (by assumption) | with_reducible refine KeepsOR3.elim ?_ (by assumption) | with_reducible refine KeepsL.proj ?_ | with_reducible refine KeepsR.proj ?_

theorem bucketLeak_keeps {k s0 s} (h : Keeps k s0 s)
    (hm : Within 0x80#21 k := by first | assumption | exact Within.trans (by assumption) (by decide)) :
    Keeps k s0 (bucketLeak s) := by
  unfold bucketLeak
  repeat' first
    | with_reducible assumption | with_reducible refine Keeps.ite ?_ ?_ | with_reducible refine Keeps.foldl _ _ ?_ _ ?_ | fail_if_no_progress ((with_reducible refine Keeps.mk' ?_ rfl rfl rfl ?_ ?_ ?_ ?_ ?_ ?_ ?_ ?_ ?_ ?_ ?_ ?_ ?_ ?_ ?_ ?_ ?_ ?_ ?_ ?_ ?_) <;> first | exact Or.inl (hm.bit (by decide)) | exact Or.inr rfl | skip)
    | split
    | (extract_lets +onlyGivenNames x; first | (refine Keeps.cut s0 x ?_ fun h => ?_; rotate_left; clear_value x) | skip)
    | (unfold x; fail_if_success done)
    | intro h

theorem alertEnds_keeps {k s0 s} (h : Keeps k s0 s)
    (hm : Within 0x100000#21 k := by first | assumption | exact Within.trans (by assumption) (by decide)) :
    Keeps k s0 (alertEnds s) := by
  unfold alertEnds
  repeat' first
    | with_reducible assumption | with_reducible refine Keeps.ite ?_ ?_ | with_reducible refine Keeps.foldl _ _ ?_ _ ?_ | fail_if_no_progress ((with_reducible refine Keeps.mk' ?_ rfl rfl rfl ?_ ?_ ?_ ?_ ?_ ?_ ?_ ?_ ?_ ?_ ?_ ?_ ?_ ?_ ?_ ?_ ?_ ?_ ?_ ?_ ?_) <;> first | exact Or.inl (hm.bit (by decide)) | exact Or.inr rfl | skip)
    | split
    | (extract_lets +onlyGivenNames x; first | (refine Keeps.cut s0 x ?_ fun h => ?_; rotate_left; clear_value x) | skip)
    | (unfold x; fail_if_success done)
    | intro h

theorem advance_keeps {k s0 s} (h : Keeps k s0 s)
    (hm : Within 0x100081#21 k := by first | assumption | exact Within.trans (by assumption) (by decide)) :
    Keeps k s0 (advance s) := by
  unfold advance
  repeat' first
    | with_reducible assumption | with_reducible refine alertEnds_keeps ?_ | with_reducible refine bucketLeak_keeps ?_ | with_reducible refine Keeps.ite ?_ ?_ | with_reducible refine Keeps.foldl _ _ ?_ _ ?_ | fail_if_no_progress ((with_reducible refine Keeps.mk' ?_ rfl rfl rfl ?_ ?_ ?_ ?_ ?_ ?_ ?_ ?_ ?_ ?_ ?_ ?_ ?_ ?_ ?_ ?_ ?_ ?_ ?_ ?_ ?_) <;> first | exact Or.inl (hm.bit (by decide)) | exact Or.inr rfl | skip)
    | split
    | (extract_lets +onlyGivenNames x; first | (refine Keeps.cut s0 x ?_ fun h => ?_; rotate_left; clear_value x) | skip)
    | (unfold x; fail_if_success done)
    | intro h

theorem freshBeat_keeps {k s0 s} (h : Keeps k s0 s)
    (hm : Within 0x100010#21 k := by first | assumption | exact Within.trans (by assumption) (by decide)) : Keeps k s0 (freshBeat s) :=
  intakeDrain_keeps (h.queues (fun c => { c with thisBeat := 0 }) (fun _ hc => hc) rfl rfl rfl rfl)

theorem countWithheld_keeps {k s0 s} (h : Keeps k s0 s)
    (hm : Within 0x8008#21 k := by first | assumption | exact Within.trans (by assumption) (by decide)) :
    Keeps k s0 (countWithheld s) := by
  unfold countWithheld
  repeat' first
    | with_reducible assumption | with_reducible refine count_keeps ?_ | with_reducible refine Keeps.ite ?_ ?_ | with_reducible refine Keeps.foldl _ _ ?_ _ ?_ | fail_if_no_progress ((with_reducible refine Keeps.mk' ?_ rfl rfl rfl ?_ ?_ ?_ ?_ ?_ ?_ ?_ ?_ ?_ ?_ ?_ ?_ ?_ ?_ ?_ ?_ ?_ ?_ ?_ ?_ ?_) <;> first | exact Or.inl (hm.bit (by decide)) | exact Or.inr rfl | skip)
    | split
    | (extract_lets +onlyGivenNames x; first | (refine Keeps.cut s0 x ?_ fun h => ?_; rotate_left; clear_value x) | skip)
    | (unfold x; fail_if_success done)
    | intro h

theorem stepOne_keeps {k s0 s a1} (h : Keeps k s0 s)
    (hm : Within 0x108000#21 k := by first | assumption | exact Within.trans (by assumption) (by decide)) :
    Keeps k s0 (stepOne s a1) := by
  unfold stepOne
  repeat' first
    | with_reducible assumption | with_reducible refine latchWindow_keeps ?_ | with_reducible refine snapshot_keeps ?_ | with_reducible refine Keeps.ite ?_ ?_ | with_reducible refine Keeps.foldl _ _ ?_ _ ?_ | fail_if_no_progress ((with_reducible refine Keeps.mk' ?_ rfl rfl rfl ?_ ?_ ?_ ?_ ?_ ?_ ?_ ?_ ?_ ?_ ?_ ?_ ?_ ?_ ?_ ?_ ?_ ?_ ?_ ?_ ?_) <;> first | exact Or.inl (hm.bit (by decide)) | exact Or.inr rfl | skip)
    | split
    | (extract_lets +onlyGivenNames x; first | (refine Keeps.cut s0 x ?_ fun h => ?_; rotate_left; clear_value x) | skip)
    | (unfold x; fail_if_success done)
    | intro h

theorem stepTwo_keeps {k s0 s a1} (h : Keeps k s0 s)
    (hm : Within 0x1fbcfe#21 k := by first | assumption | exact Within.trans (by assumption) (by decide)) :
    Keeps k s0 (stepTwo s a1) := by
  unfold stepTwo
  repeat' first
    | with_reducible assumption | with_reducible refine commitAt_keeps ?_ | with_reducible refine decodersLive_keeps ?_ | with_reducible refine levelsLive_keeps ?_ | with_reducible refine Keeps.ite ?_ ?_ | with_reducible refine Keeps.foldl _ _ ?_ _ ?_ | fail_if_no_progress ((with_reducible refine Keeps.mk' ?_ rfl rfl rfl ?_ ?_ ?_ ?_ ?_ ?_ ?_ ?_ ?_ ?_ ?_ ?_ ?_ ?_ ?_ ?_ ?_ ?_ ?_ ?_ ?_) <;> first | exact Or.inl (hm.bit (by decide)) | exact Or.inr rfl | skip)
    | split
    | (extract_lets +onlyGivenNames x; first | (refine Keeps.cut s0 x ?_ fun h => ?_; rotate_left; clear_value x) | skip)
    | (unfold x; fail_if_success done)
    | intro h

theorem stepFour_keeps {k s0 s} (h : Keeps k s0 s)
    (hm : Within 0x1884de#21 k := by first | assumption | exact Within.trans (by assumption) (by decide)) :
    Keeps k s0 (stepFour s) := by
  unfold stepFour
  repeat' first
    | with_reducible assumption | with_reducible refine admission_keeps ?_ | with_reducible refine grantCredits_keeps ?_ | with_reducible refine returnCredits_keeps ?_ | with_reducible refine countWithheld_keeps ?_ | with_reducible refine Keeps.ite ?_ ?_ | with_reducible refine Keeps.foldl _ _ ?_ _ ?_ | fail_if_no_progress ((with_reducible refine Keeps.mk' ?_ rfl rfl rfl ?_ ?_ ?_ ?_ ?_ ?_ ?_ ?_ ?_ ?_ ?_ ?_ ?_ ?_ ?_ ?_ ?_ ?_ ?_ ?_ ?_) <;> first | exact Or.inl (hm.bit (by decide)) | exact Or.inr rfl | skip)
    | split
    | (extract_lets +onlyGivenNames x; first | (refine Keeps.cut s0 x ?_ fun h => ?_; rotate_left; clear_value x) | skip)
    | (unfold x; fail_if_success done)
    | intro h

theorem upkeep_keeps {k s0 s} (h : Keeps k s0 s)
    (hm : Within 0x1886fc#21 k := by first | assumption | exact Within.trans (by assumption) (by decide)) :
    Keeps k s0 (upkeep s) := by
  unfold upkeep
  repeat' first
    | with_reducible assumption | with_reducible refine takeDrops_keeps ?_ | with_reducible refine discardReports_keeps ?_ | with_reducible refine mapUpkeep_keeps ?_ | with_reducible refine Keeps.ite ?_ ?_ | with_reducible refine Keeps.foldl _ _ ?_ _ ?_ | fail_if_no_progress ((with_reducible refine Keeps.mk' ?_ rfl rfl rfl ?_ ?_ ?_ ?_ ?_ ?_ ?_ ?_ ?_ ?_ ?_ ?_ ?_ ?_ ?_ ?_ ?_ ?_ ?_ ?_ ?_) <;> first | exact Or.inl (hm.bit (by decide)) | exact Or.inr rfl | skip)
    | split
    | (extract_lets +onlyGivenNames x; first | (refine Keeps.cut s0 x ?_ fun h => ?_; rotate_left; clear_value x) | skip)
    | (unfold x; fail_if_success done)
    | intro h

theorem runBoundary_keeps {k s0 s} (h : Keeps k s0 s)
    (hm : Within 0x1fbeff#21 k := by first | assumption | exact Within.trans (by assumption) (by decide)) :
    Keeps k s0 (runBoundary s) := by
  unfold runBoundary
  repeat' first
    | with_reducible assumption | with_reducible refine cycleCounts_keeps ?_ | with_reducible refine stepTwo_keeps ?_ | with_reducible refine stepOne_keeps ?_ | with_reducible refine retrainEnds_keeps ?_ | with_reducible refine powerAgreedAt_keeps ?_ | with_reducible refine goMissed_keeps ?_ | with_reducible refine advance_keeps ?_ | with_reducible refine counterStep_keeps ?_ | with_reducible refine noteActivity_keeps ?_ | with_reducible refine freezePlans_keeps ?_ | with_reducible refine upkeep_keeps ?_ | with_reducible refine stepFour_keeps ?_ | with_reducible refine freshBeat_keeps ?_ | with_reducible refine Keeps.ite ?_ ?_ | with_reducible refine Keeps.foldl _ _ ?_ _ ?_ | fail_if_no_progress ((with_reducible refine Keeps.mk' ?_ rfl rfl rfl ?_ ?_ ?_ ?_ ?_ ?_ ?_ ?_ ?_ ?_ ?_ ?_ ?_ ?_ ?_ ?_ ?_ ?_ ?_ ?_ ?_) <;> first | exact Or.inl (hm.bit (by decide)) | exact Or.inr rfl | skip)
    | split
    | (extract_lets +onlyGivenNames x; first | (refine Keeps.cut s0 x ?_ fun h => ?_; rotate_left; clear_value x) | skip)
    | (unfold x; fail_if_success done)
    | intro h

theorem sleepBoundary_keeps {k s0 s} (h : Keeps k s0 s)
    (hm : Within 0x19bcff#21 k := by first | assumption | exact Within.trans (by assumption) (by decide)) :
    Keeps k s0 (sleepBoundary s) := by
  unfold sleepBoundary
  repeat' first
    | with_reducible assumption | with_reducible refine levelsLive_keeps ?_ | with_reducible refine advance_keeps ?_ | with_reducible refine wakeFromSleep_keeps ?_ | with_reducible refine Keeps.ite ?_ ?_ | with_reducible refine Keeps.foldl _ _ ?_ _ ?_ | fail_if_no_progress ((with_reducible refine Keeps.mk' ?_ rfl rfl rfl ?_ ?_ ?_ ?_ ?_ ?_ ?_ ?_ ?_ ?_ ?_ ?_ ?_ ?_ ?_ ?_ ?_ ?_ ?_ ?_ ?_) <;> first | exact Or.inl (hm.bit (by decide)) | exact Or.inr rfl | skip)
    | split
    | (extract_lets +onlyGivenNames x; first | (refine Keeps.cut s0 x ?_ fun h => ?_; rotate_left; clear_value x) | skip)
    | (unfold x; fail_if_success done)
    | intro h

theorem execBeatBoundary_keeps {k s0 s} (h : Keeps k s0 s)
    (hm : Within 0x1fbeff#21 k := by first | assumption | exact Within.trans (by assumption) (by decide)) :
    KeepsO k s0 (execBeatBoundary s) := by
  unfold execBeatBoundary
  repeat' first
    | with_reducible assumption | with_reducible refine cycleEnd_keeps ?_ | with_reducible refine sleepBoundary_keeps ?_ | with_reducible refine cycleStart_keeps ?_ | with_reducible refine runBoundary_keeps ?_ | with_reducible refine abortEntry_keeps ?_ | with_reducible refine Keeps.ite ?_ ?_ | with_reducible refine Keeps.foldl _ _ ?_ _ ?_ | fail_if_no_progress ((with_reducible refine Keeps.mk' ?_ rfl rfl rfl ?_ ?_ ?_ ?_ ?_ ?_ ?_ ?_ ?_ ?_ ?_ ?_ ?_ ?_ ?_ ?_ ?_ ?_ ?_ ?_ ?_) <;> first | exact Or.inl (hm.bit (by decide)) | exact Or.inr rfl | skip) | with_reducible refine KeepsO.next ?_
    | split
    | (extract_lets +onlyGivenNames x; first | (refine Keeps.cut s0 x ?_ fun h => ?_; rotate_left; clear_value x) | skip)
    | (unfold x; fail_if_success done)
    | intro h

end Sys2Proof
end

