-- ==== Sys2Proof/Laws/Runs.lean ====
section
/-! SUPPORT. What running a pipe's command can do, in each of its cases, and what the shared operations on commands leave. -/
namespace Sys2Proof.Machine
open Safety

/-- A command whose checks pass has its effect. -/
theorem runCmd_runs {s : State} {p : Nat} {which : Cmd → Bool} {c : Cmd} (h : Runs s p which c) (act : State → Cmd → State) :
    runCmd s p which act = act s c := by
  simp [runCmd, h.next, h.awake, h.plain, h.checks]

/-- A started range command has its effect; its checks were made before. -/
theorem runCmd_ranging {s : State} {p : Nat} {which : Cmd → Bool} {c : Cmd} (h : Ranging s p which c)
    (act : State → Cmd → State) : runCmd s p which act = act s c := by
  simp [runCmd, h.next, h.awake, h.range]

/-- A command whose check fails completes with that check's status and nothing else. -/
theorem runCmd_refused {s : State} {p : Nat} {which : Cmd → Bool} {c : Cmd} {e : Fail} (act : State → Cmd → State)
    (a : awake s = true) (n : nextCmd s p which = some c) (r : c.ranges = []) (k : cmdCheck s c = some e) :
    runCmd s p which act = finishCmd s c e.status e.detail e.a e.b := by
  simp [runCmd, n, a, r, k]

/-- With no such command, or with the clocks stopped, nothing happens. -/
theorem runCmd_none {s : State} {p : Nat} {which : Cmd → Bool} (act : State → Cmd → State) (n : nextCmd s p which = none) :
    runCmd s p which act = s := by
  simp [runCmd, n]

theorem runCmd_asleep {s : State} {p : Nat} {which : Cmd → Bool} (act : State → Cmd → State) (a : awake s = false) :
    runCmd s p which act = s := by
  unfold runCmd; split <;> simp [a]

/-- Everything that running a command can do. -/
theorem runCmd_cases (s : State) (p : Nat) (which : Cmd → Bool) (act : State → Cmd → State) :
    runCmd s p which act = s ∨
    ∃ c, nextCmd s p which = some c ∧ awake s = true ∧
      (runCmd s p which act = act s c ∨
       ∃ e, cmdCheck s c = some e ∧ runCmd s p which act = finishCmd s c e.status e.detail e.a e.b) := by
  unfold runCmd
  split
  · exact .inl rfl
  · next c hc =>
    by_cases a : awake s = true
    · by_cases r : c.ranges = []
      · cases k : cmdCheck s c with
        | none => exact .inr ⟨c, hc, a, .inl (by simp [a, r])⟩
        | some e => exact .inr ⟨c, hc, a, .inr ⟨e, k, by simp [a, r]⟩⟩
      · exact .inr ⟨c, hc, a, .inl (by simp [a, r])⟩
    · exact .inl (by simp [a])

/-- Finishing a command changes the pipe's commands and completions alone. -/
theorem finishCmd_frame (s : State) (c : Cmd) (status detail : Nat) (a b : Reg) :
    finishCmd s c status detail a b = { s with pp := { s.pp with
      cmds := (finishCmd s c status detail a b).pp.cmds, comps := (finishCmd s c status detail a b).pp.comps } } := rfl

/-- The completion that finishing a command owes. -/
theorem finishCmd_comps (s : State) (c : Cmd) (status detail : Nat) (a b : Reg) :
    (finishCmd s c status detail a b).pp.comps = s.pp.comps ++
      [{ pipe := c.pipe, role := c.role, status := status, detail := detail, opcode := c.op, desc := c.desc, tag := c.tag,
         token := c.token, resA := a, resB := b }] := rfl

/-- No command with its id is left. -/
theorem finishCmd_cmds (s : State) (c : Cmd) (status detail : Nat) (a b : Reg) :
    ∀ x ∈ (finishCmd s c status detail a b).pp.cmds, x.id ≠ c.id ∧ x ∈ s.pp.cmds := by
  intro x hx
  simp only [finishCmd, List.mem_filter, decide_eq_true_eq] at hx
  exact ⟨hx.2, hx.1⟩

/-- Holding a command changes only whether its effect has begun. -/
theorem holdCmd_frame (s : State) (c : Cmd) :
    holdCmd s c = { s with pp := { s.pp with cmds := (holdCmd s c).pp.cmds } } := rfl

/-- An append goes to the store, or waits for it. -/
theorem keepPut_cases (s : State) (key : Nat) (payload : List Byte) :
    (keepUp s = true ∧ s.kp.compacting = false ∧ keepPut s key payload = { s with kp := { s.kp with port := [] }.append key payload }) ∨
    ((keepUp s = false ∨ s.kp.compacting = true) ∧ keepPut s key payload =
      { s with kp := { s.kp with pendingAppends := s.kp.pendingAppends ++ [(key, payload)] } }) := by
  unfold keepPut
  by_cases a : keepUp s = true <;> by_cases b : s.kp.compacting = true <;> simp [a, b]

/-- A free value read is never read again. -/
theorem draw_eq (s : State) : draw s = (s.freeCtr, { s with freeCtr := s.freeCtr + 1 }) := rfl

end Sys2Proof.Machine
end

