-- ==== Sys2Proof/Laws/Slots.lean ====
section
/-! SUPPORT. Stamp slots: what a lookup reads after its own key is set, and what a tree-mode read does to the slot cache. -/
namespace Sys2Proof.Machine

/-- A key just set to a value other than the default reads that value. -/
theorem tget_tset_some {α : Type} [DecidableEq α] (d : α) (t : Tab α) (k : Nat) (v : α) (h : v ≠ d) : tget d (tset d t k v) k = v := by
  induction t with
  | nil => simp [tset, tget, h]
  | cons a t ih =>
    obtain ⟨j, w⟩ := a
    unfold tset
    split
    · simp [h, tget]
    · split
      · simp [h, tget]
      · next h1 h2 => simp [tget, h1, h2, ih]

/-- A line that passes its check did so against an aim that was not stale. -/
theorem checkLine_good_fresh (s : State) (a : Aim) (page line : Nat) (o : Sensed) (x : LineRec) (n : Nat)
    (h : checkLine s a page line o = .good x n) : a.stale = false := by
  unfold checkLine at h
  split at h
  · cases h
  · split at h <;> cases h
  · split at h
    · cases h
    · split at h
      · unfold checkRec at h
        split at h
        · cases h
        · split at h
          · cases h
          · split at h
            · cases h
            · simp_all
      · cases h

/-- Making room in the slot cache changes the integrity part alone. -/
theorem slotRoom_frame (s : State) (home : Nat) : slotRoom s home = { s with ig := (slotRoom s home).ig } := by
  unfold slotRoom; dsimp only; split
  · rfl
  · split
    · rfl
    · unfold setStampSlot; split <;> rfl

/-- Everything that using a slot can do: nothing in tag mode, without a bisque home or without the slot; else the slot is
cached with the stamps it had, and only the map and integrity parts change. -/
theorem useSlot_cases (S : State) (p : Nat) (e : MapEntry) (tr : Bool) :
    if (!tr || !needsSlot e || !slotGood S e) = true then useSlot S p e tr = S else
      useSlot S p e tr = { S with mp := (useSlot S p e tr).mp, ig := (useSlot S p e tr).ig } ∧
      slotStamps (useSlot S p e tr) e.bisqueHome = slotStamps S e.bisqueHome ∧
      (stampSlot (useSlot S p e tr) e.bisqueHome).isSome = true := by
  split
  · next h => unfold useSlot; rw [if_pos h]
  · next h =>
    have hu : ∃ y : StampSlot, y.stamps = slotStamps S e.bisqueHome ∧
      useSlot S p e tr = setStampSlot (lruTick (slotRoom S e.bisqueHome)) e.bisqueHome (some y) := by
      unfold useSlot; rw [if_neg h]
      refine ⟨_, ?_, rfl⟩
      dsimp only
      unfold slotStamps
      cases stampSlot S e.bisqueHome <;> rfl
    obtain ⟨y, hy, hu⟩ := hu
    have h1 := slotRoom_frame S e.bisqueHome
    have hk : stampSlot (useSlot S p e tr) e.bisqueHome = some y := by
      rw [hu]; unfold stampSlot setStampSlot; exact tget_tset_some _ _ _ _ (by simp)
    refine ⟨?_, ?_, ?_⟩
    · rw [hu]; unfold setStampSlot lruTick; rw [h1]
    · conv => lhs; unfold slotStamps
      rw [hk]; exact hy
    · rw [hk]; rfl

end Sys2Proof.Machine
end

