-- ==== Sys2Proof/Laws/State.lean ====
section
/-! SUPPORT. One lemma per field per update of the state, true by definition, so that no later proof unfolds a record
update; the accessors that an update leaves alone; and what an accessor reads after the update of its own table. -/
namespace Sys2Proof.Machine
set_option Elab.async false
variable (s : State)

/-! ### updLink -/

@[simp] theorem updLink_pending (n : Nat) (f : LinkRec → LinkRec) : (updLink s n f).pending = s.pending := rfl
@[simp] theorem updLink_clk (n : Nat) (f : LinkRec → LinkRec) : (updLink s n f).clk = s.clk := rfl
@[simp] theorem updLink_pwr (n : Nat) (f : LinkRec → LinkRec) : (updLink s n f).pwr = s.pwr := rfl
@[simp] theorem updLink_mp (n : Nat) (f : LinkRec → LinkRec) : (updLink s n f).mp = s.mp := rfl
@[simp] theorem updLink_sag (n : Nat) (f : LinkRec → LinkRec) : (updLink s n f).sag = s.sag := rfl
@[simp] theorem updLink_hq (n : Nat) (f : LinkRec → LinkRec) : (updLink s n f).hq = s.hq := rfl
@[simp] theorem updLink_pl (n : Nat) (f : LinkRec → LinkRec) : (updLink s n f).pl = s.pl := rfl
@[simp] theorem updLink_dr (n : Nat) (f : LinkRec → LinkRec) : (updLink s n f).dr = s.dr := rfl
@[simp] theorem updLink_ecc (n : Nat) (f : LinkRec → LinkRec) : (updLink s n f).ecc = s.ecc := rfl
@[simp] theorem updLink_wr (n : Nat) (f : LinkRec → LinkRec) : (updLink s n f).wr = s.wr := rfl
@[simp] theorem updLink_ig (n : Nat) (f : LinkRec → LinkRec) : (updLink s n f).ig = s.ig := rfl
@[simp] theorem updLink_hl (n : Nat) (f : LinkRec → LinkRec) : (updLink s n f).hl = s.hl := rfl
@[simp] theorem updLink_pp (n : Nat) (f : LinkRec → LinkRec) : (updLink s n f).pp = s.pp := rfl
@[simp] theorem updLink_th (n : Nat) (f : LinkRec → LinkRec) : (updLink s n f).th = s.th := rfl
@[simp] theorem updLink_kp (n : Nat) (f : LinkRec → LinkRec) : (updLink s n f).kp = s.kp := rfl
@[simp] theorem updLink_ev (n : Nat) (f : LinkRec → LinkRec) : (updLink s n f).ev = s.ev := rfl
@[simp] theorem updLink_cn (n : Nat) (f : LinkRec → LinkRec) : (updLink s n f).cn = s.cn := rfl
@[simp] theorem updLink_live (n : Nat) (f : LinkRec → LinkRec) : (updLink s n f).live = s.live := rfl
@[simp] theorem updLink_shadow (n : Nat) (f : LinkRec → LinkRec) : (updLink s n f).shadow = s.shadow := rfl
@[simp] theorem updLink_freeCtr (n : Nat) (f : LinkRec → LinkRec) : (updLink s n f).freeCtr = s.freeCtr := rfl
@[simp] theorem updLink_ln_seqs (n : Nat) (f : LinkRec → LinkRec) : (updLink s n f).ln.seqs = s.ln.seqs := rfl
@[simp] theorem updLink_ln_blanks (n : Nat) (f : LinkRec → LinkRec) : (updLink s n f).ln.blanks = s.ln.blanks := rfl
@[simp] theorem updLink_ln_buffers (n : Nat) (f : LinkRec → LinkRec) : (updLink s n f).ln.buffers = s.ln.buffers := rfl
@[simp] theorem updLink_ln_coneRegs (n : Nat) (f : LinkRec → LinkRec) : (updLink s n f).ln.coneRegs = s.ln.coneRegs := rfl
@[simp] theorem updLink_ln_restUntil (n : Nat) (f : LinkRec → LinkRec) : (updLink s n f).ln.restUntil = s.ln.restUntil := rfl
@[simp] theorem updLink_ln_buses (n : Nat) (f : LinkRec → LinkRec) : (updLink s n f).ln.buses = s.ln.buses := rfl
@[simp] theorem updLink_ln_work (n : Nat) (f : LinkRec → LinkRec) : (updLink s n f).ln.work = s.ln.work := rfl
@[simp] theorem updLink_ln_complQ (n : Nat) (f : LinkRec → LinkRec) : (updLink s n f).ln.complQ = s.ln.complQ := rfl
@[simp] theorem updLink_ln_removing (n : Nat) (f : LinkRec → LinkRec) : (updLink s n f).ln.removing = s.ln.removing := rfl
@[simp] theorem updLink_ln_onlining (n : Nat) (f : LinkRec → LinkRec) : (updLink s n f).ln.onlining = s.ln.onlining := rfl
@[simp] theorem updLink_ln_chartGen (n : Nat) (f : LinkRec → LinkRec) : (updLink s n f).ln.chartGen = s.ln.chartGen := rfl
@[simp] theorem rankPl_updLink (n : Nat) (f : LinkRec → LinkRec) (k : Nat) : rankPl (updLink s n f) k = rankPl s k := rfl
@[simp] theorem stripe_updLink (n : Nat) (f : LinkRec → LinkRec) (k : Nat) : stripe (updLink s n f) k = stripe s k := rfl
@[simp] theorem rankEcc_updLink (n : Nat) (f : LinkRec → LinkRec) (k : Nat) : rankEcc (updLink s n f) k = rankEcc s k := rfl
@[simp] theorem rot_updLink (n : Nat) (f : LinkRec → LinkRec) (k : Nat) : rot (updLink s n f) k = rot s k := rfl
@[simp] theorem region_updLink (n : Nat) (f : LinkRec → LinkRec) (k : Nat) : region (updLink s n f) k = region s k := rfl
@[simp] theorem migSlot_updLink (n : Nat) (f : LinkRec → LinkRec) (k : Nat) : migSlot (updLink s n f) k = migSlot s k := rfl
@[simp] theorem zone_updLink (n : Nat) (f : LinkRec → LinkRec) (k : Nat) : zone (updLink s n f) k = zone s k := rfl
@[simp] theorem domainKey_updLink (n : Nat) (f : LinkRec → LinkRec) (k : Nat) : domainKey (updLink s n f) k = domainKey s k := rfl
@[simp] theorem linkWear_updLink (n : Nat) (f : LinkRec → LinkRec) (k : Nat) : linkWear (updLink s n f) k = linkWear s k := rfl
@[simp] theorem capQ_updLink (n : Nat) (f : LinkRec → LinkRec) (k : Nat) : capQ (updLink s n f) k = capQ s k := rfl
@[simp] theorem mon_updLink (n : Nat) (f : LinkRec → LinkRec) (k : Nat) : mon (updLink s n f) k = mon s k := rfl
@[simp] theorem pipe_updLink (n : Nat) (f : LinkRec → LinkRec) (k : Nat) : pipe (updLink s n f) k = pipe s k := rfl
@[simp] theorem cfg_updLink (n : Nat) (f : LinkRec → LinkRec) (k : Nat) : cfg (updLink s n f) k = cfg s k := rfl
@[simp] theorem cfgShadow_updLink (n : Nat) (f : LinkRec → LinkRec) (k : Nat) : cfgShadow (updLink s n f) k = cfgShadow s k := rfl
@[simp] theorem readByte_updLink (n : Nat) (f : LinkRec → LinkRec) (k : Nat) : readByte (updLink s n f) k = readByte s k := rfl

/-! ### updRank -/

@[simp] theorem updRank_pending (r : Nat) (f : RankPl → RankPl) : (updRank s r f).pending = s.pending := rfl
@[simp] theorem updRank_clk (r : Nat) (f : RankPl → RankPl) : (updRank s r f).clk = s.clk := rfl
@[simp] theorem updRank_pwr (r : Nat) (f : RankPl → RankPl) : (updRank s r f).pwr = s.pwr := rfl
@[simp] theorem updRank_mp (r : Nat) (f : RankPl → RankPl) : (updRank s r f).mp = s.mp := rfl
@[simp] theorem updRank_sag (r : Nat) (f : RankPl → RankPl) : (updRank s r f).sag = s.sag := rfl
@[simp] theorem updRank_hq (r : Nat) (f : RankPl → RankPl) : (updRank s r f).hq = s.hq := rfl
@[simp] theorem updRank_dr (r : Nat) (f : RankPl → RankPl) : (updRank s r f).dr = s.dr := rfl
@[simp] theorem updRank_ecc (r : Nat) (f : RankPl → RankPl) : (updRank s r f).ecc = s.ecc := rfl
@[simp] theorem updRank_wr (r : Nat) (f : RankPl → RankPl) : (updRank s r f).wr = s.wr := rfl
@[simp] theorem updRank_ig (r : Nat) (f : RankPl → RankPl) : (updRank s r f).ig = s.ig := rfl
@[simp] theorem updRank_ln (r : Nat) (f : RankPl → RankPl) : (updRank s r f).ln = s.ln := rfl
@[simp] theorem updRank_hl (r : Nat) (f : RankPl → RankPl) : (updRank s r f).hl = s.hl := rfl
@[simp] theorem updRank_pp (r : Nat) (f : RankPl → RankPl) : (updRank s r f).pp = s.pp := rfl
@[simp] theorem updRank_th (r : Nat) (f : RankPl → RankPl) : (updRank s r f).th = s.th := rfl
@[simp] theorem updRank_kp (r : Nat) (f : RankPl → RankPl) : (updRank s r f).kp = s.kp := rfl
@[simp] theorem updRank_ev (r : Nat) (f : RankPl → RankPl) : (updRank s r f).ev = s.ev := rfl
@[simp] theorem updRank_cn (r : Nat) (f : RankPl → RankPl) : (updRank s r f).cn = s.cn := rfl
@[simp] theorem updRank_live (r : Nat) (f : RankPl → RankPl) : (updRank s r f).live = s.live := rfl
@[simp] theorem updRank_shadow (r : Nat) (f : RankPl → RankPl) : (updRank s r f).shadow = s.shadow := rfl
@[simp] theorem updRank_freeCtr (r : Nat) (f : RankPl → RankPl) : (updRank s r f).freeCtr = s.freeCtr := rfl
@[simp] theorem updRank_pl_stripes (r : Nat) (f : RankPl → RankPl) : (updRank s r f).pl.stripes = s.pl.stripes := rfl
@[simp] theorem updRank_pl_copy (r : Nat) (f : RankPl → RankPl) : (updRank s r f).pl.copy = s.pl.copy := rfl
@[simp] theorem updRank_pl_heatEpoch (r : Nat) (f : RankPl → RankPl) : (updRank s r f).pl.heatEpoch = s.pl.heatEpoch := rfl
@[simp] theorem updRank_pl_secure (r : Nat) (f : RankPl → RankPl) : (updRank s r f).pl.secure = s.pl.secure := rfl
@[simp] theorem updRank_pl_dropsDue (r : Nat) (f : RankPl → RankPl) : (updRank s r f).pl.dropsDue = s.pl.dropsDue := rfl
@[simp] theorem updRank_pl_relocating (r : Nat) (f : RankPl → RankPl) : (updRank s r f).pl.relocating = s.pl.relocating := rfl
@[simp] theorem updRank_pl_restamps (r : Nat) (f : RankPl → RankPl) : (updRank s r f).pl.restamps = s.pl.restamps := rfl
@[simp] theorem updRank_pl_refreshes (r : Nat) (f : RankPl → RankPl) : (updRank s r f).pl.refreshes = s.pl.refreshes := rfl
@[simp] theorem link_updRank (r : Nat) (f : RankPl → RankPl) (k : Nat) : link (updRank s r f) k = link s k := rfl
@[simp] theorem stripe_updRank (r : Nat) (f : RankPl → RankPl) (k : Nat) : stripe (updRank s r f) k = stripe s k := rfl
@[simp] theorem rankEcc_updRank (r : Nat) (f : RankPl → RankPl) (k : Nat) : rankEcc (updRank s r f) k = rankEcc s k := rfl
@[simp] theorem rot_updRank (r : Nat) (f : RankPl → RankPl) (k : Nat) : rot (updRank s r f) k = rot s k := rfl
@[simp] theorem region_updRank (r : Nat) (f : RankPl → RankPl) (k : Nat) : region (updRank s r f) k = region s k := rfl
@[simp] theorem migSlot_updRank (r : Nat) (f : RankPl → RankPl) (k : Nat) : migSlot (updRank s r f) k = migSlot s k := rfl
@[simp] theorem zone_updRank (r : Nat) (f : RankPl → RankPl) (k : Nat) : zone (updRank s r f) k = zone s k := rfl
@[simp] theorem domainKey_updRank (r : Nat) (f : RankPl → RankPl) (k : Nat) : domainKey (updRank s r f) k = domainKey s k := rfl
@[simp] theorem linkWear_updRank (r : Nat) (f : RankPl → RankPl) (k : Nat) : linkWear (updRank s r f) k = linkWear s k := rfl
@[simp] theorem capQ_updRank (r : Nat) (f : RankPl → RankPl) (k : Nat) : capQ (updRank s r f) k = capQ s k := rfl
@[simp] theorem mon_updRank (r : Nat) (f : RankPl → RankPl) (k : Nat) : mon (updRank s r f) k = mon s k := rfl
@[simp] theorem pipe_updRank (r : Nat) (f : RankPl → RankPl) (k : Nat) : pipe (updRank s r f) k = pipe s k := rfl
@[simp] theorem cfg_updRank (r : Nat) (f : RankPl → RankPl) (k : Nat) : cfg (updRank s r f) k = cfg s k := rfl
@[simp] theorem cfgShadow_updRank (r : Nat) (f : RankPl → RankPl) (k : Nat) : cfgShadow (updRank s r f) k = cfgShadow s k := rfl
@[simp] theorem readByte_updRank (r : Nat) (f : RankPl → RankPl) (k : Nat) : readByte (updRank s r f) k = readByte s k := rfl

/-! ### updStripe -/

@[simp] theorem updStripe_pending (bs : Nat) (f : BsRec → BsRec) : (updStripe s bs f).pending = s.pending := rfl
@[simp] theorem updStripe_clk (bs : Nat) (f : BsRec → BsRec) : (updStripe s bs f).clk = s.clk := rfl
@[simp] theorem updStripe_pwr (bs : Nat) (f : BsRec → BsRec) : (updStripe s bs f).pwr = s.pwr := rfl
@[simp] theorem updStripe_mp (bs : Nat) (f : BsRec → BsRec) : (updStripe s bs f).mp = s.mp := rfl
@[simp] theorem updStripe_sag (bs : Nat) (f : BsRec → BsRec) : (updStripe s bs f).sag = s.sag := rfl
@[simp] theorem updStripe_hq (bs : Nat) (f : BsRec → BsRec) : (updStripe s bs f).hq = s.hq := rfl
@[simp] theorem updStripe_dr (bs : Nat) (f : BsRec → BsRec) : (updStripe s bs f).dr = s.dr := rfl
@[simp] theorem updStripe_ecc (bs : Nat) (f : BsRec → BsRec) : (updStripe s bs f).ecc = s.ecc := rfl
@[simp] theorem updStripe_wr (bs : Nat) (f : BsRec → BsRec) : (updStripe s bs f).wr = s.wr := rfl
@[simp] theorem updStripe_ig (bs : Nat) (f : BsRec → BsRec) : (updStripe s bs f).ig = s.ig := rfl
@[simp] theorem updStripe_ln (bs : Nat) (f : BsRec → BsRec) : (updStripe s bs f).ln = s.ln := rfl
@[simp] theorem updStripe_hl (bs : Nat) (f : BsRec → BsRec) : (updStripe s bs f).hl = s.hl := rfl
@[simp] theorem updStripe_pp (bs : Nat) (f : BsRec → BsRec) : (updStripe s bs f).pp = s.pp := rfl
@[simp] theorem updStripe_th (bs : Nat) (f : BsRec → BsRec) : (updStripe s bs f).th = s.th := rfl
@[simp] theorem updStripe_kp (bs : Nat) (f : BsRec → BsRec) : (updStripe s bs f).kp = s.kp := rfl
@[simp] theorem updStripe_ev (bs : Nat) (f : BsRec → BsRec) : (updStripe s bs f).ev = s.ev := rfl
@[simp] theorem updStripe_cn (bs : Nat) (f : BsRec → BsRec) : (updStripe s bs f).cn = s.cn := rfl
@[simp] theorem updStripe_live (bs : Nat) (f : BsRec → BsRec) : (updStripe s bs f).live = s.live := rfl
@[simp] theorem updStripe_shadow (bs : Nat) (f : BsRec → BsRec) : (updStripe s bs f).shadow = s.shadow := rfl
@[simp] theorem updStripe_freeCtr (bs : Nat) (f : BsRec → BsRec) : (updStripe s bs f).freeCtr = s.freeCtr := rfl
@[simp] theorem updStripe_pl_copy (bs : Nat) (f : BsRec → BsRec) : (updStripe s bs f).pl.copy = s.pl.copy := rfl
@[simp] theorem updStripe_pl_ranks (bs : Nat) (f : BsRec → BsRec) : (updStripe s bs f).pl.ranks = s.pl.ranks := rfl
@[simp] theorem updStripe_pl_heatEpoch (bs : Nat) (f : BsRec → BsRec) : (updStripe s bs f).pl.heatEpoch = s.pl.heatEpoch := rfl
@[simp] theorem updStripe_pl_secure (bs : Nat) (f : BsRec → BsRec) : (updStripe s bs f).pl.secure = s.pl.secure := rfl
@[simp] theorem updStripe_pl_dropsDue (bs : Nat) (f : BsRec → BsRec) : (updStripe s bs f).pl.dropsDue = s.pl.dropsDue := rfl
@[simp] theorem updStripe_pl_relocating (bs : Nat) (f : BsRec → BsRec) : (updStripe s bs f).pl.relocating = s.pl.relocating := rfl
@[simp] theorem updStripe_pl_restamps (bs : Nat) (f : BsRec → BsRec) : (updStripe s bs f).pl.restamps = s.pl.restamps := rfl
@[simp] theorem updStripe_pl_refreshes (bs : Nat) (f : BsRec → BsRec) : (updStripe s bs f).pl.refreshes = s.pl.refreshes := rfl
@[simp] theorem link_updStripe (bs : Nat) (f : BsRec → BsRec) (k : Nat) : link (updStripe s bs f) k = link s k := rfl
@[simp] theorem rankPl_updStripe (bs : Nat) (f : BsRec → BsRec) (k : Nat) : rankPl (updStripe s bs f) k = rankPl s k := rfl
@[simp] theorem rankEcc_updStripe (bs : Nat) (f : BsRec → BsRec) (k : Nat) : rankEcc (updStripe s bs f) k = rankEcc s k := rfl
@[simp] theorem rot_updStripe (bs : Nat) (f : BsRec → BsRec) (k : Nat) : rot (updStripe s bs f) k = rot s k := rfl
@[simp] theorem region_updStripe (bs : Nat) (f : BsRec → BsRec) (k : Nat) : region (updStripe s bs f) k = region s k := rfl
@[simp] theorem migSlot_updStripe (bs : Nat) (f : BsRec → BsRec) (k : Nat) : migSlot (updStripe s bs f) k = migSlot s k := rfl
@[simp] theorem zone_updStripe (bs : Nat) (f : BsRec → BsRec) (k : Nat) : zone (updStripe s bs f) k = zone s k := rfl
@[simp] theorem domainKey_updStripe (bs : Nat) (f : BsRec → BsRec) (k : Nat) : domainKey (updStripe s bs f) k = domainKey s k := rfl
@[simp] theorem linkWear_updStripe (bs : Nat) (f : BsRec → BsRec) (k : Nat) : linkWear (updStripe s bs f) k = linkWear s k := rfl
@[simp] theorem capQ_updStripe (bs : Nat) (f : BsRec → BsRec) (k : Nat) : capQ (updStripe s bs f) k = capQ s k := rfl
@[simp] theorem mon_updStripe (bs : Nat) (f : BsRec → BsRec) (k : Nat) : mon (updStripe s bs f) k = mon s k := rfl
@[simp] theorem pipe_updStripe (bs : Nat) (f : BsRec → BsRec) (k : Nat) : pipe (updStripe s bs f) k = pipe s k := rfl
@[simp] theorem cfg_updStripe (bs : Nat) (f : BsRec → BsRec) (k : Nat) : cfg (updStripe s bs f) k = cfg s k := rfl
@[simp] theorem cfgShadow_updStripe (bs : Nat) (f : BsRec → BsRec) (k : Nat) : cfgShadow (updStripe s bs f) k = cfgShadow s k := rfl
@[simp] theorem readByte_updStripe (bs : Nat) (f : BsRec → BsRec) (k : Nat) : readByte (updStripe s bs f) k = readByte s k := rfl

/-! ### updEcc -/

@[simp] theorem updEcc_pending (r : Nat) (f : RankEcc → RankEcc) : (updEcc s r f).pending = s.pending := rfl
@[simp] theorem updEcc_clk (r : Nat) (f : RankEcc → RankEcc) : (updEcc s r f).clk = s.clk := rfl
@[simp] theorem updEcc_pwr (r : Nat) (f : RankEcc → RankEcc) : (updEcc s r f).pwr = s.pwr := rfl
@[simp] theorem updEcc_mp (r : Nat) (f : RankEcc → RankEcc) : (updEcc s r f).mp = s.mp := rfl
@[simp] theorem updEcc_sag (r : Nat) (f : RankEcc → RankEcc) : (updEcc s r f).sag = s.sag := rfl
@[simp] theorem updEcc_hq (r : Nat) (f : RankEcc → RankEcc) : (updEcc s r f).hq = s.hq := rfl
@[simp] theorem updEcc_pl (r : Nat) (f : RankEcc → RankEcc) : (updEcc s r f).pl = s.pl := rfl
@[simp] theorem updEcc_dr (r : Nat) (f : RankEcc → RankEcc) : (updEcc s r f).dr = s.dr := rfl
@[simp] theorem updEcc_wr (r : Nat) (f : RankEcc → RankEcc) : (updEcc s r f).wr = s.wr := rfl
@[simp] theorem updEcc_ig (r : Nat) (f : RankEcc → RankEcc) : (updEcc s r f).ig = s.ig := rfl
@[simp] theorem updEcc_ln (r : Nat) (f : RankEcc → RankEcc) : (updEcc s r f).ln = s.ln := rfl
@[simp] theorem updEcc_hl (r : Nat) (f : RankEcc → RankEcc) : (updEcc s r f).hl = s.hl := rfl
@[simp] theorem updEcc_pp (r : Nat) (f : RankEcc → RankEcc) : (updEcc s r f).pp = s.pp := rfl
@[simp] theorem updEcc_th (r : Nat) (f : RankEcc → RankEcc) : (updEcc s r f).th = s.th := rfl
@[simp] theorem updEcc_kp (r : Nat) (f : RankEcc → RankEcc) : (updEcc s r f).kp = s.kp := rfl
@[simp] theorem updEcc_ev (r : Nat) (f : RankEcc → RankEcc) : (updEcc s r f).ev = s.ev := rfl
@[simp] theorem updEcc_cn (r : Nat) (f : RankEcc → RankEcc) : (updEcc s r f).cn = s.cn := rfl
@[simp] theorem updEcc_live (r : Nat) (f : RankEcc → RankEcc) : (updEcc s r f).live = s.live := rfl
@[simp] theorem updEcc_shadow (r : Nat) (f : RankEcc → RankEcc) : (updEcc s r f).shadow = s.shadow := rfl
@[simp] theorem updEcc_freeCtr (r : Nat) (f : RankEcc → RankEcc) : (updEcc s r f).freeCtr = s.freeCtr := rfl
@[simp] theorem updEcc_ecc_ovf (r : Nat) (f : RankEcc → RankEcc) : (updEcc s r f).ecc.ovf = s.ecc.ovf := rfl
@[simp] theorem updEcc_ecc_overruns (r : Nat) (f : RankEcc → RankEcc) : (updEcc s r f).ecc.overruns = s.ecc.overruns := rfl
@[simp] theorem updEcc_ecc_passes (r : Nat) (f : RankEcc → RankEcc) : (updEcc s r f).ecc.passes = s.ecc.passes := rfl
@[simp] theorem updEcc_ecc_dirtyDue (r : Nat) (f : RankEcc → RankEcc) : (updEcc s r f).ecc.dirtyDue = s.ecc.dirtyDue := rfl
@[simp] theorem updEcc_ecc_poison (r : Nat) (f : RankEcc → RankEcc) : (updEcc s r f).ecc.poison = s.ecc.poison := rfl
@[simp] theorem updEcc_ecc_poisonOvf (r : Nat) (f : RankEcc → RankEcc) : (updEcc s r f).ecc.poisonOvf = s.ecc.poisonOvf := rfl
@[simp] theorem updEcc_ecc_poisonOvfTime (r : Nat) (f : RankEcc → RankEcc) : (updEcc s r f).ecc.poisonOvfTime = s.ecc.poisonOvfTime := rfl
@[simp] theorem updEcc_ecc_sram (r : Nat) (f : RankEcc → RankEcc) : (updEcc s r f).ecc.sram = s.ecc.sram := rfl
@[simp] theorem link_updEcc (r : Nat) (f : RankEcc → RankEcc) (k : Nat) : link (updEcc s r f) k = link s k := rfl
@[simp] theorem rankPl_updEcc (r : Nat) (f : RankEcc → RankEcc) (k : Nat) : rankPl (updEcc s r f) k = rankPl s k := rfl
@[simp] theorem stripe_updEcc (r : Nat) (f : RankEcc → RankEcc) (k : Nat) : stripe (updEcc s r f) k = stripe s k := rfl
@[simp] theorem rot_updEcc (r : Nat) (f : RankEcc → RankEcc) (k : Nat) : rot (updEcc s r f) k = rot s k := rfl
@[simp] theorem region_updEcc (r : Nat) (f : RankEcc → RankEcc) (k : Nat) : region (updEcc s r f) k = region s k := rfl
@[simp] theorem migSlot_updEcc (r : Nat) (f : RankEcc → RankEcc) (k : Nat) : migSlot (updEcc s r f) k = migSlot s k := rfl
@[simp] theorem zone_updEcc (r : Nat) (f : RankEcc → RankEcc) (k : Nat) : zone (updEcc s r f) k = zone s k := rfl
@[simp] theorem domainKey_updEcc (r : Nat) (f : RankEcc → RankEcc) (k : Nat) : domainKey (updEcc s r f) k = domainKey s k := rfl
@[simp] theorem linkWear_updEcc (r : Nat) (f : RankEcc → RankEcc) (k : Nat) : linkWear (updEcc s r f) k = linkWear s k := rfl
@[simp] theorem capQ_updEcc (r : Nat) (f : RankEcc → RankEcc) (k : Nat) : capQ (updEcc s r f) k = capQ s k := rfl
@[simp] theorem mon_updEcc (r : Nat) (f : RankEcc → RankEcc) (k : Nat) : mon (updEcc s r f) k = mon s k := rfl
@[simp] theorem pipe_updEcc (r : Nat) (f : RankEcc → RankEcc) (k : Nat) : pipe (updEcc s r f) k = pipe s k := rfl
@[simp] theorem cfg_updEcc (r : Nat) (f : RankEcc → RankEcc) (k : Nat) : cfg (updEcc s r f) k = cfg s k := rfl
@[simp] theorem cfgShadow_updEcc (r : Nat) (f : RankEcc → RankEcc) (k : Nat) : cfgShadow (updEcc s r f) k = cfgShadow s k := rfl
@[simp] theorem readByte_updEcc (r : Nat) (f : RankEcc → RankEcc) (k : Nat) : readByte (updEcc s r f) k = readByte s k := rfl

/-! ### updRot -/

@[simp] theorem updRot_pending (r : Nat) (f : Rot → Rot) : (updRot s r f).pending = s.pending := rfl
@[simp] theorem updRot_clk (r : Nat) (f : Rot → Rot) : (updRot s r f).clk = s.clk := rfl
@[simp] theorem updRot_pwr (r : Nat) (f : Rot → Rot) : (updRot s r f).pwr = s.pwr := rfl
@[simp] theorem updRot_sag (r : Nat) (f : Rot → Rot) : (updRot s r f).sag = s.sag := rfl
@[simp] theorem updRot_hq (r : Nat) (f : Rot → Rot) : (updRot s r f).hq = s.hq := rfl
@[simp] theorem updRot_pl (r : Nat) (f : Rot → Rot) : (updRot s r f).pl = s.pl := rfl
@[simp] theorem updRot_dr (r : Nat) (f : Rot → Rot) : (updRot s r f).dr = s.dr := rfl
@[simp] theorem updRot_ecc (r : Nat) (f : Rot → Rot) : (updRot s r f).ecc = s.ecc := rfl
@[simp] theorem updRot_wr (r : Nat) (f : Rot → Rot) : (updRot s r f).wr = s.wr := rfl
@[simp] theorem updRot_ig (r : Nat) (f : Rot → Rot) : (updRot s r f).ig = s.ig := rfl
@[simp] theorem updRot_ln (r : Nat) (f : Rot → Rot) : (updRot s r f).ln = s.ln := rfl
@[simp] theorem updRot_hl (r : Nat) (f : Rot → Rot) : (updRot s r f).hl = s.hl := rfl
@[simp] theorem updRot_pp (r : Nat) (f : Rot → Rot) : (updRot s r f).pp = s.pp := rfl
@[simp] theorem updRot_th (r : Nat) (f : Rot → Rot) : (updRot s r f).th = s.th := rfl
@[simp] theorem updRot_kp (r : Nat) (f : Rot → Rot) : (updRot s r f).kp = s.kp := rfl
@[simp] theorem updRot_ev (r : Nat) (f : Rot → Rot) : (updRot s r f).ev = s.ev := rfl
@[simp] theorem updRot_cn (r : Nat) (f : Rot → Rot) : (updRot s r f).cn = s.cn := rfl
@[simp] theorem updRot_live (r : Nat) (f : Rot → Rot) : (updRot s r f).live = s.live := rfl
@[simp] theorem updRot_shadow (r : Nat) (f : Rot → Rot) : (updRot s r f).shadow = s.shadow := rfl
@[simp] theorem updRot_freeCtr (r : Nat) (f : Rot → Rot) : (updRot s r f).freeCtr = s.freeCtr := rfl
@[simp] theorem updRot_mp_capGib (r : Nat) (f : Rot → Rot) : (updRot s r f).mp.capGib = s.mp.capGib := rfl
@[simp] theorem updRot_mp_mapNr (r : Nat) (f : Rot → Rot) : (updRot s r f).mp.mapNr = s.mp.mapNr := rfl
@[simp] theorem updRot_mp_mapN (r : Nat) (f : Rot → Rot) : (updRot s r f).mp.mapN = s.mp.mapN := rfl
@[simp] theorem updRot_mp_mapBlks (r : Nat) (f : Rot → Rot) : (updRot s r f).mp.mapBlks = s.mp.mapBlks := rfl
@[simp] theorem updRot_mp_treeN (r : Nat) (f : Rot → Rot) : (updRot s r f).mp.treeN = s.mp.treeN := rfl
@[simp] theorem updRot_mp_treeBlks (r : Nat) (f : Rot → Rot) : (updRot s r f).mp.treeBlks = s.mp.treeBlks := rfl
@[simp] theorem updRot_mp_dirtyMax (r : Nat) (f : Rot → Rot) : (updRot s r f).mp.dirtyMax = s.mp.dirtyMax := rfl
@[simp] theorem updRot_mp_pop (r : Nat) (f : Rot → Rot) : (updRot s r f).mp.pop = s.mp.pop := rfl
@[simp] theorem updRot_mp_mapRanks (r : Nat) (f : Rot → Rot) : (updRot s r f).mp.mapRanks = s.mp.mapRanks := rfl
@[simp] theorem updRot_mp_regions (r : Nat) (f : Rot → Rot) : (updRot s r f).mp.regions = s.mp.regions := rfl
@[simp] theorem updRot_mp_mig (r : Nat) (f : Rot → Rot) : (updRot s r f).mp.mig = s.mp.mig := rfl
@[simp] theorem updRot_mp_cache (r : Nat) (f : Rot → Rot) : (updRot s r f).mp.cache = s.mp.cache := rfl
@[simp] theorem updRot_mp_lruClock (r : Nat) (f : Rot → Rot) : (updRot s r f).mp.lruClock = s.mp.lruClock := rfl
@[simp] theorem updRot_mp_fills (r : Nat) (f : Rot → Rot) : (updRot s r f).mp.fills = s.mp.fills := rfl
@[simp] theorem updRot_mp_wayWaits (r : Nat) (f : Rot → Rot) : (updRot s r f).mp.wayWaits = s.mp.wayWaits := rfl
@[simp] theorem updRot_mp_cleaning (r : Nat) (f : Rot → Rot) : (updRot s r f).mp.cleaning = s.mp.cleaning := rfl
@[simp] theorem updRot_mp_rewrites (r : Nat) (f : Rot → Rot) : (updRot s r f).mp.rewrites = s.mp.rewrites := rfl
@[simp] theorem updRot_mp_leaves (r : Nat) (f : Rot → Rot) : (updRot s r f).mp.leaves = s.mp.leaves := rfl
@[simp] theorem updRot_mp_writeBacks (r : Nat) (f : Rot → Rot) : (updRot s r f).mp.writeBacks = s.mp.writeBacks := rfl
@[simp] theorem updRot_mp_media (r : Nat) (f : Rot → Rot) : (updRot s r f).mp.media = s.mp.media := rfl
@[simp] theorem updRot_mp_cones (r : Nat) (f : Rot → Rot) : (updRot s r f).mp.cones = s.mp.cones := rfl
@[simp] theorem updRot_mp_parityStale (r : Nat) (f : Rot → Rot) : (updRot s r f).mp.parityStale = s.mp.parityStale := rfl
@[simp] theorem updRot_mp_pendingCap (r : Nat) (f : Rot → Rot) : (updRot s r f).mp.pendingCap = s.mp.pendingCap := rfl
@[simp] theorem link_updRot (r : Nat) (f : Rot → Rot) (k : Nat) : link (updRot s r f) k = link s k := rfl
@[simp] theorem rankPl_updRot (r : Nat) (f : Rot → Rot) (k : Nat) : rankPl (updRot s r f) k = rankPl s k := rfl
@[simp] theorem stripe_updRot (r : Nat) (f : Rot → Rot) (k : Nat) : stripe (updRot s r f) k = stripe s k := rfl
@[simp] theorem rankEcc_updRot (r : Nat) (f : Rot → Rot) (k : Nat) : rankEcc (updRot s r f) k = rankEcc s k := rfl
@[simp] theorem region_updRot (r : Nat) (f : Rot → Rot) (k : Nat) : region (updRot s r f) k = region s k := rfl
@[simp] theorem migSlot_updRot (r : Nat) (f : Rot → Rot) (k : Nat) : migSlot (updRot s r f) k = migSlot s k := rfl
@[simp] theorem zone_updRot (r : Nat) (f : Rot → Rot) (k : Nat) : zone (updRot s r f) k = zone s k := rfl
@[simp] theorem domainKey_updRot (r : Nat) (f : Rot → Rot) (k : Nat) : domainKey (updRot s r f) k = domainKey s k := rfl
@[simp] theorem linkWear_updRot (r : Nat) (f : Rot → Rot) (k : Nat) : linkWear (updRot s r f) k = linkWear s k := rfl
@[simp] theorem capQ_updRot (r : Nat) (f : Rot → Rot) (k : Nat) : capQ (updRot s r f) k = capQ s k := rfl
@[simp] theorem mon_updRot (r : Nat) (f : Rot → Rot) (k : Nat) : mon (updRot s r f) k = mon s k := rfl
@[simp] theorem pipe_updRot (r : Nat) (f : Rot → Rot) (k : Nat) : pipe (updRot s r f) k = pipe s k := rfl
@[simp] theorem cfg_updRot (r : Nat) (f : Rot → Rot) (k : Nat) : cfg (updRot s r f) k = cfg s k := rfl
@[simp] theorem cfgShadow_updRot (r : Nat) (f : Rot → Rot) (k : Nat) : cfgShadow (updRot s r f) k = cfgShadow s k := rfl
@[simp] theorem readByte_updRot (r : Nat) (f : Rot → Rot) (k : Nat) : readByte (updRot s r f) k = readByte s k := rfl

/-! ### updRegion -/

@[simp] theorem updRegion_pending (n : Nat) (f : Region → Region) : (updRegion s n f).pending = s.pending := rfl
@[simp] theorem updRegion_clk (n : Nat) (f : Region → Region) : (updRegion s n f).clk = s.clk := rfl
@[simp] theorem updRegion_pwr (n : Nat) (f : Region → Region) : (updRegion s n f).pwr = s.pwr := rfl
@[simp] theorem updRegion_sag (n : Nat) (f : Region → Region) : (updRegion s n f).sag = s.sag := rfl
@[simp] theorem updRegion_hq (n : Nat) (f : Region → Region) : (updRegion s n f).hq = s.hq := rfl
@[simp] theorem updRegion_pl (n : Nat) (f : Region → Region) : (updRegion s n f).pl = s.pl := rfl
@[simp] theorem updRegion_dr (n : Nat) (f : Region → Region) : (updRegion s n f).dr = s.dr := rfl
@[simp] theorem updRegion_ecc (n : Nat) (f : Region → Region) : (updRegion s n f).ecc = s.ecc := rfl
@[simp] theorem updRegion_wr (n : Nat) (f : Region → Region) : (updRegion s n f).wr = s.wr := rfl
@[simp] theorem updRegion_ig (n : Nat) (f : Region → Region) : (updRegion s n f).ig = s.ig := rfl
@[simp] theorem updRegion_ln (n : Nat) (f : Region → Region) : (updRegion s n f).ln = s.ln := rfl
@[simp] theorem updRegion_hl (n : Nat) (f : Region → Region) : (updRegion s n f).hl = s.hl := rfl
@[simp] theorem updRegion_pp (n : Nat) (f : Region → Region) : (updRegion s n f).pp = s.pp := rfl
@[simp] theorem updRegion_th (n : Nat) (f : Region → Region) : (updRegion s n f).th = s.th := rfl
@[simp] theorem updRegion_kp (n : Nat) (f : Region → Region) : (updRegion s n f).kp = s.kp := rfl
@[simp] theorem updRegion_ev (n : Nat) (f : Region → Region) : (updRegion s n f).ev = s.ev := rfl
@[simp] theorem updRegion_cn (n : Nat) (f : Region → Region) : (updRegion s n f).cn = s.cn := rfl
@[simp] theorem updRegion_live (n : Nat) (f : Region → Region) : (updRegion s n f).live = s.live := rfl
@[simp] theorem updRegion_shadow (n : Nat) (f : Region → Region) : (updRegion s n f).shadow = s.shadow := rfl
@[simp] theorem updRegion_freeCtr (n : Nat) (f : Region → Region) : (updRegion s n f).freeCtr = s.freeCtr := rfl
@[simp] theorem updRegion_mp_capGib (n : Nat) (f : Region → Region) : (updRegion s n f).mp.capGib = s.mp.capGib := rfl
@[simp] theorem updRegion_mp_mapNr (n : Nat) (f : Region → Region) : (updRegion s n f).mp.mapNr = s.mp.mapNr := rfl
@[simp] theorem updRegion_mp_mapN (n : Nat) (f : Region → Region) : (updRegion s n f).mp.mapN = s.mp.mapN := rfl
@[simp] theorem updRegion_mp_mapBlks (n : Nat) (f : Region → Region) : (updRegion s n f).mp.mapBlks = s.mp.mapBlks := rfl
@[simp] theorem updRegion_mp_treeN (n : Nat) (f : Region → Region) : (updRegion s n f).mp.treeN = s.mp.treeN := rfl
@[simp] theorem updRegion_mp_treeBlks (n : Nat) (f : Region → Region) : (updRegion s n f).mp.treeBlks = s.mp.treeBlks := rfl
@[simp] theorem updRegion_mp_dirtyMax (n : Nat) (f : Region → Region) : (updRegion s n f).mp.dirtyMax = s.mp.dirtyMax := rfl
@[simp] theorem updRegion_mp_pop (n : Nat) (f : Region → Region) : (updRegion s n f).mp.pop = s.mp.pop := rfl
@[simp] theorem updRegion_mp_mapRanks (n : Nat) (f : Region → Region) : (updRegion s n f).mp.mapRanks = s.mp.mapRanks := rfl
@[simp] theorem updRegion_mp_mig (n : Nat) (f : Region → Region) : (updRegion s n f).mp.mig = s.mp.mig := rfl
@[simp] theorem updRegion_mp_rot (n : Nat) (f : Region → Region) : (updRegion s n f).mp.rot = s.mp.rot := rfl
@[simp] theorem updRegion_mp_cache (n : Nat) (f : Region → Region) : (updRegion s n f).mp.cache = s.mp.cache := rfl
@[simp] theorem updRegion_mp_lruClock (n : Nat) (f : Region → Region) : (updRegion s n f).mp.lruClock = s.mp.lruClock := rfl
@[simp] theorem updRegion_mp_fills (n : Nat) (f : Region → Region) : (updRegion s n f).mp.fills = s.mp.fills := rfl
@[simp] theorem updRegion_mp_wayWaits (n : Nat) (f : Region → Region) : (updRegion s n f).mp.wayWaits = s.mp.wayWaits := rfl
@[simp] theorem updRegion_mp_cleaning (n : Nat) (f : Region → Region) : (updRegion s n f).mp.cleaning = s.mp.cleaning := rfl
@[simp] theorem updRegion_mp_rewrites (n : Nat) (f : Region → Region) : (updRegion s n f).mp.rewrites = s.mp.rewrites := rfl
@[simp] theorem updRegion_mp_leaves (n : Nat) (f : Region → Region) : (updRegion s n f).mp.leaves = s.mp.leaves := rfl
@[simp] theorem updRegion_mp_writeBacks (n : Nat) (f : Region → Region) : (updRegion s n f).mp.writeBacks = s.mp.writeBacks := rfl
@[simp] theorem updRegion_mp_media (n : Nat) (f : Region → Region) : (updRegion s n f).mp.media = s.mp.media := rfl
@[simp] theorem updRegion_mp_cones (n : Nat) (f : Region → Region) : (updRegion s n f).mp.cones = s.mp.cones := rfl
@[simp] theorem updRegion_mp_parityStale (n : Nat) (f : Region → Region) : (updRegion s n f).mp.parityStale = s.mp.parityStale := rfl
@[simp] theorem updRegion_mp_pendingCap (n : Nat) (f : Region → Region) : (updRegion s n f).mp.pendingCap = s.mp.pendingCap := rfl
@[simp] theorem link_updRegion (n : Nat) (f : Region → Region) (k : Nat) : link (updRegion s n f) k = link s k := rfl
@[simp] theorem rankPl_updRegion (n : Nat) (f : Region → Region) (k : Nat) : rankPl (updRegion s n f) k = rankPl s k := rfl
@[simp] theorem stripe_updRegion (n : Nat) (f : Region → Region) (k : Nat) : stripe (updRegion s n f) k = stripe s k := rfl
@[simp] theorem rankEcc_updRegion (n : Nat) (f : Region → Region) (k : Nat) : rankEcc (updRegion s n f) k = rankEcc s k := rfl
@[simp] theorem rot_updRegion (n : Nat) (f : Region → Region) (k : Nat) : rot (updRegion s n f) k = rot s k := rfl
@[simp] theorem migSlot_updRegion (n : Nat) (f : Region → Region) (k : Nat) : migSlot (updRegion s n f) k = migSlot s k := rfl
@[simp] theorem zone_updRegion (n : Nat) (f : Region → Region) (k : Nat) : zone (updRegion s n f) k = zone s k := rfl
@[simp] theorem domainKey_updRegion (n : Nat) (f : Region → Region) (k : Nat) : domainKey (updRegion s n f) k = domainKey s k := rfl
@[simp] theorem linkWear_updRegion (n : Nat) (f : Region → Region) (k : Nat) : linkWear (updRegion s n f) k = linkWear s k := rfl
@[simp] theorem capQ_updRegion (n : Nat) (f : Region → Region) (k : Nat) : capQ (updRegion s n f) k = capQ s k := rfl
@[simp] theorem mon_updRegion (n : Nat) (f : Region → Region) (k : Nat) : mon (updRegion s n f) k = mon s k := rfl
@[simp] theorem pipe_updRegion (n : Nat) (f : Region → Region) (k : Nat) : pipe (updRegion s n f) k = pipe s k := rfl
@[simp] theorem cfg_updRegion (n : Nat) (f : Region → Region) (k : Nat) : cfg (updRegion s n f) k = cfg s k := rfl
@[simp] theorem cfgShadow_updRegion (n : Nat) (f : Region → Region) (k : Nat) : cfgShadow (updRegion s n f) k = cfgShadow s k := rfl
@[simp] theorem readByte_updRegion (n : Nat) (f : Region → Region) (k : Nat) : readByte (updRegion s n f) k = readByte s k := rfl

/-! ### updMig -/

@[simp] theorem updMig_pending (m : Nat) (f : MigSlot → MigSlot) : (updMig s m f).pending = s.pending := rfl
@[simp] theorem updMig_clk (m : Nat) (f : MigSlot → MigSlot) : (updMig s m f).clk = s.clk := rfl
@[simp] theorem updMig_pwr (m : Nat) (f : MigSlot → MigSlot) : (updMig s m f).pwr = s.pwr := rfl
@[simp] theorem updMig_sag (m : Nat) (f : MigSlot → MigSlot) : (updMig s m f).sag = s.sag := rfl
@[simp] theorem updMig_hq (m : Nat) (f : MigSlot → MigSlot) : (updMig s m f).hq = s.hq := rfl
@[simp] theorem updMig_pl (m : Nat) (f : MigSlot → MigSlot) : (updMig s m f).pl = s.pl := rfl
@[simp] theorem updMig_dr (m : Nat) (f : MigSlot → MigSlot) : (updMig s m f).dr = s.dr := rfl
@[simp] theorem updMig_ecc (m : Nat) (f : MigSlot → MigSlot) : (updMig s m f).ecc = s.ecc := rfl
@[simp] theorem updMig_wr (m : Nat) (f : MigSlot → MigSlot) : (updMig s m f).wr = s.wr := rfl
@[simp] theorem updMig_ig (m : Nat) (f : MigSlot → MigSlot) : (updMig s m f).ig = s.ig := rfl
@[simp] theorem updMig_ln (m : Nat) (f : MigSlot → MigSlot) : (updMig s m f).ln = s.ln := rfl
@[simp] theorem updMig_hl (m : Nat) (f : MigSlot → MigSlot) : (updMig s m f).hl = s.hl := rfl
@[simp] theorem updMig_pp (m : Nat) (f : MigSlot → MigSlot) : (updMig s m f).pp = s.pp := rfl
@[simp] theorem updMig_th (m : Nat) (f : MigSlot → MigSlot) : (updMig s m f).th = s.th := rfl
@[simp] theorem updMig_kp (m : Nat) (f : MigSlot → MigSlot) : (updMig s m f).kp = s.kp := rfl
@[simp] theorem updMig_ev (m : Nat) (f : MigSlot → MigSlot) : (updMig s m f).ev = s.ev := rfl
@[simp] theorem updMig_cn (m : Nat) (f : MigSlot → MigSlot) : (updMig s m f).cn = s.cn := rfl
@[simp] theorem updMig_live (m : Nat) (f : MigSlot → MigSlot) : (updMig s m f).live = s.live := rfl
@[simp] theorem updMig_shadow (m : Nat) (f : MigSlot → MigSlot) : (updMig s m f).shadow = s.shadow := rfl
@[simp] theorem updMig_freeCtr (m : Nat) (f : MigSlot → MigSlot) : (updMig s m f).freeCtr = s.freeCtr := rfl
@[simp] theorem updMig_mp_capGib (m : Nat) (f : MigSlot → MigSlot) : (updMig s m f).mp.capGib = s.mp.capGib := rfl
@[simp] theorem updMig_mp_mapNr (m : Nat) (f : MigSlot → MigSlot) : (updMig s m f).mp.mapNr = s.mp.mapNr := rfl
@[simp] theorem updMig_mp_mapN (m : Nat) (f : MigSlot → MigSlot) : (updMig s m f).mp.mapN = s.mp.mapN := rfl
@[simp] theorem updMig_mp_mapBlks (m : Nat) (f : MigSlot → MigSlot) : (updMig s m f).mp.mapBlks = s.mp.mapBlks := rfl
@[simp] theorem updMig_mp_treeN (m : Nat) (f : MigSlot → MigSlot) : (updMig s m f).mp.treeN = s.mp.treeN := rfl
@[simp] theorem updMig_mp_treeBlks (m : Nat) (f : MigSlot → MigSlot) : (updMig s m f).mp.treeBlks = s.mp.treeBlks := rfl
@[simp] theorem updMig_mp_dirtyMax (m : Nat) (f : MigSlot → MigSlot) : (updMig s m f).mp.dirtyMax = s.mp.dirtyMax := rfl
@[simp] theorem updMig_mp_pop (m : Nat) (f : MigSlot → MigSlot) : (updMig s m f).mp.pop = s.mp.pop := rfl
@[simp] theorem updMig_mp_mapRanks (m : Nat) (f : MigSlot → MigSlot) : (updMig s m f).mp.mapRanks = s.mp.mapRanks := rfl
@[simp] theorem updMig_mp_regions (m : Nat) (f : MigSlot → MigSlot) : (updMig s m f).mp.regions = s.mp.regions := rfl
@[simp] theorem updMig_mp_rot (m : Nat) (f : MigSlot → MigSlot) : (updMig s m f).mp.rot = s.mp.rot := rfl
@[simp] theorem updMig_mp_cache (m : Nat) (f : MigSlot → MigSlot) : (updMig s m f).mp.cache = s.mp.cache := rfl
@[simp] theorem updMig_mp_lruClock (m : Nat) (f : MigSlot → MigSlot) : (updMig s m f).mp.lruClock = s.mp.lruClock := rfl
@[simp] theorem updMig_mp_fills (m : Nat) (f : MigSlot → MigSlot) : (updMig s m f).mp.fills = s.mp.fills := rfl
@[simp] theorem updMig_mp_wayWaits (m : Nat) (f : MigSlot → MigSlot) : (updMig s m f).mp.wayWaits = s.mp.wayWaits := rfl
@[simp] theorem updMig_mp_cleaning (m : Nat) (f : MigSlot → MigSlot) : (updMig s m f).mp.cleaning = s.mp.cleaning := rfl
@[simp] theorem updMig_mp_rewrites (m : Nat) (f : MigSlot → MigSlot) : (updMig s m f).mp.rewrites = s.mp.rewrites := rfl
@[simp] theorem updMig_mp_leaves (m : Nat) (f : MigSlot → MigSlot) : (updMig s m f).mp.leaves = s.mp.leaves := rfl
@[simp] theorem updMig_mp_writeBacks (m : Nat) (f : MigSlot → MigSlot) : (updMig s m f).mp.writeBacks = s.mp.writeBacks := rfl
@[simp] theorem updMig_mp_media (m : Nat) (f : MigSlot → MigSlot) : (updMig s m f).mp.media = s.mp.media := rfl
@[simp] theorem updMig_mp_cones (m : Nat) (f : MigSlot → MigSlot) : (updMig s m f).mp.cones = s.mp.cones := rfl
@[simp] theorem updMig_mp_parityStale (m : Nat) (f : MigSlot → MigSlot) : (updMig s m f).mp.parityStale = s.mp.parityStale := rfl
@[simp] theorem updMig_mp_pendingCap (m : Nat) (f : MigSlot → MigSlot) : (updMig s m f).mp.pendingCap = s.mp.pendingCap := rfl
@[simp] theorem link_updMig (m : Nat) (f : MigSlot → MigSlot) (k : Nat) : link (updMig s m f) k = link s k := rfl
@[simp] theorem rankPl_updMig (m : Nat) (f : MigSlot → MigSlot) (k : Nat) : rankPl (updMig s m f) k = rankPl s k := rfl
@[simp] theorem stripe_updMig (m : Nat) (f : MigSlot → MigSlot) (k : Nat) : stripe (updMig s m f) k = stripe s k := rfl
@[simp] theorem rankEcc_updMig (m : Nat) (f : MigSlot → MigSlot) (k : Nat) : rankEcc (updMig s m f) k = rankEcc s k := rfl
@[simp] theorem rot_updMig (m : Nat) (f : MigSlot → MigSlot) (k : Nat) : rot (updMig s m f) k = rot s k := rfl
@[simp] theorem region_updMig (m : Nat) (f : MigSlot → MigSlot) (k : Nat) : region (updMig s m f) k = region s k := rfl
@[simp] theorem zone_updMig (m : Nat) (f : MigSlot → MigSlot) (k : Nat) : zone (updMig s m f) k = zone s k := rfl
@[simp] theorem domainKey_updMig (m : Nat) (f : MigSlot → MigSlot) (k : Nat) : domainKey (updMig s m f) k = domainKey s k := rfl
@[simp] theorem linkWear_updMig (m : Nat) (f : MigSlot → MigSlot) (k : Nat) : linkWear (updMig s m f) k = linkWear s k := rfl
@[simp] theorem capQ_updMig (m : Nat) (f : MigSlot → MigSlot) (k : Nat) : capQ (updMig s m f) k = capQ s k := rfl
@[simp] theorem mon_updMig (m : Nat) (f : MigSlot → MigSlot) (k : Nat) : mon (updMig s m f) k = mon s k := rfl
@[simp] theorem pipe_updMig (m : Nat) (f : MigSlot → MigSlot) (k : Nat) : pipe (updMig s m f) k = pipe s k := rfl
@[simp] theorem cfg_updMig (m : Nat) (f : MigSlot → MigSlot) (k : Nat) : cfg (updMig s m f) k = cfg s k := rfl
@[simp] theorem cfgShadow_updMig (m : Nat) (f : MigSlot → MigSlot) (k : Nat) : cfgShadow (updMig s m f) k = cfgShadow s k := rfl
@[simp] theorem readByte_updMig (m : Nat) (f : MigSlot → MigSlot) (k : Nat) : readByte (updMig s m f) k = readByte s k := rfl

/-! ### updZone -/

@[simp] theorem updZone_pending (z : Nat) (f : Zone → Zone) : (updZone s z f).pending = s.pending := rfl
@[simp] theorem updZone_clk (z : Nat) (f : Zone → Zone) : (updZone s z f).clk = s.clk := rfl
@[simp] theorem updZone_pwr (z : Nat) (f : Zone → Zone) : (updZone s z f).pwr = s.pwr := rfl
@[simp] theorem updZone_mp (z : Nat) (f : Zone → Zone) : (updZone s z f).mp = s.mp := rfl
@[simp] theorem updZone_sag (z : Nat) (f : Zone → Zone) : (updZone s z f).sag = s.sag := rfl
@[simp] theorem updZone_hq (z : Nat) (f : Zone → Zone) : (updZone s z f).hq = s.hq := rfl
@[simp] theorem updZone_pl (z : Nat) (f : Zone → Zone) : (updZone s z f).pl = s.pl := rfl
@[simp] theorem updZone_dr (z : Nat) (f : Zone → Zone) : (updZone s z f).dr = s.dr := rfl
@[simp] theorem updZone_ecc (z : Nat) (f : Zone → Zone) : (updZone s z f).ecc = s.ecc := rfl
@[simp] theorem updZone_wr (z : Nat) (f : Zone → Zone) : (updZone s z f).wr = s.wr := rfl
@[simp] theorem updZone_ig (z : Nat) (f : Zone → Zone) : (updZone s z f).ig = s.ig := rfl
@[simp] theorem updZone_ln (z : Nat) (f : Zone → Zone) : (updZone s z f).ln = s.ln := rfl
@[simp] theorem updZone_hl (z : Nat) (f : Zone → Zone) : (updZone s z f).hl = s.hl := rfl
@[simp] theorem updZone_pp (z : Nat) (f : Zone → Zone) : (updZone s z f).pp = s.pp := rfl
@[simp] theorem updZone_kp (z : Nat) (f : Zone → Zone) : (updZone s z f).kp = s.kp := rfl
@[simp] theorem updZone_ev (z : Nat) (f : Zone → Zone) : (updZone s z f).ev = s.ev := rfl
@[simp] theorem updZone_cn (z : Nat) (f : Zone → Zone) : (updZone s z f).cn = s.cn := rfl
@[simp] theorem updZone_live (z : Nat) (f : Zone → Zone) : (updZone s z f).live = s.live := rfl
@[simp] theorem updZone_shadow (z : Nat) (f : Zone → Zone) : (updZone s z f).shadow = s.shadow := rfl
@[simp] theorem updZone_freeCtr (z : Nat) (f : Zone → Zone) : (updZone s z f).freeCtr = s.freeCtr := rfl
@[simp] theorem updZone_th_chans (z : Nat) (f : Zone → Zone) : (updZone s z f).th.chans = s.th.chans := rfl
@[simp] theorem updZone_th_uv (z : Nat) (f : Zone → Zone) : (updZone s z f).th.uv = s.th.uv := rfl
@[simp] theorem updZone_th_vbat (z : Nat) (f : Zone → Zone) : (updZone s z f).th.vbat = s.th.vbat := rfl
@[simp] theorem updZone_th_holdup (z : Nat) (f : Zone → Zone) : (updZone s z f).th.holdup = s.th.holdup := rfl
@[simp] theorem updZone_th_rounds (z : Nat) (f : Zone → Zone) : (updZone s z f).th.rounds = s.th.rounds := rfl
@[simp] theorem updZone_th_sampled (z : Nat) (f : Zone → Zone) : (updZone s z f).th.sampled = s.th.sampled := rfl
@[simp] theorem updZone_th_parked (z : Nat) (f : Zone → Zone) : (updZone s z f).th.parked = s.th.parked := rfl
@[simp] theorem updZone_th_parkPending (z : Nat) (f : Zone → Zone) : (updZone s z f).th.parkPending = s.th.parkPending := rfl
@[simp] theorem updZone_th_unparking (z : Nat) (f : Zone → Zone) : (updZone s z f).th.unparking = s.th.unparking := rfl
@[simp] theorem link_updZone (z : Nat) (f : Zone → Zone) (k : Nat) : link (updZone s z f) k = link s k := rfl
@[simp] theorem rankPl_updZone (z : Nat) (f : Zone → Zone) (k : Nat) : rankPl (updZone s z f) k = rankPl s k := rfl
@[simp] theorem stripe_updZone (z : Nat) (f : Zone → Zone) (k : Nat) : stripe (updZone s z f) k = stripe s k := rfl
@[simp] theorem rankEcc_updZone (z : Nat) (f : Zone → Zone) (k : Nat) : rankEcc (updZone s z f) k = rankEcc s k := rfl
@[simp] theorem rot_updZone (z : Nat) (f : Zone → Zone) (k : Nat) : rot (updZone s z f) k = rot s k := rfl
@[simp] theorem region_updZone (z : Nat) (f : Zone → Zone) (k : Nat) : region (updZone s z f) k = region s k := rfl
@[simp] theorem migSlot_updZone (z : Nat) (f : Zone → Zone) (k : Nat) : migSlot (updZone s z f) k = migSlot s k := rfl
@[simp] theorem domainKey_updZone (z : Nat) (f : Zone → Zone) (k : Nat) : domainKey (updZone s z f) k = domainKey s k := rfl
@[simp] theorem linkWear_updZone (z : Nat) (f : Zone → Zone) (k : Nat) : linkWear (updZone s z f) k = linkWear s k := rfl
@[simp] theorem capQ_updZone (z : Nat) (f : Zone → Zone) (k : Nat) : capQ (updZone s z f) k = capQ s k := rfl
@[simp] theorem mon_updZone (z : Nat) (f : Zone → Zone) (k : Nat) : mon (updZone s z f) k = mon s k := rfl
@[simp] theorem pipe_updZone (z : Nat) (f : Zone → Zone) (k : Nat) : pipe (updZone s z f) k = pipe s k := rfl
@[simp] theorem cfg_updZone (z : Nat) (f : Zone → Zone) (k : Nat) : cfg (updZone s z f) k = cfg s k := rfl
@[simp] theorem cfgShadow_updZone (z : Nat) (f : Zone → Zone) (k : Nat) : cfgShadow (updZone s z f) k = cfgShadow s k := rfl
@[simp] theorem readByte_updZone (z : Nat) (f : Zone → Zone) (k : Nat) : readByte (updZone s z f) k = readByte s k := rfl

/-! ### updDomain -/

@[simp] theorem updDomain_pending (d : Nat) (f : DomainKey → DomainKey) : (updDomain s d f).pending = s.pending := rfl
@[simp] theorem updDomain_clk (d : Nat) (f : DomainKey → DomainKey) : (updDomain s d f).clk = s.clk := rfl
@[simp] theorem updDomain_pwr (d : Nat) (f : DomainKey → DomainKey) : (updDomain s d f).pwr = s.pwr := rfl
@[simp] theorem updDomain_mp (d : Nat) (f : DomainKey → DomainKey) : (updDomain s d f).mp = s.mp := rfl
@[simp] theorem updDomain_sag (d : Nat) (f : DomainKey → DomainKey) : (updDomain s d f).sag = s.sag := rfl
@[simp] theorem updDomain_hq (d : Nat) (f : DomainKey → DomainKey) : (updDomain s d f).hq = s.hq := rfl
@[simp] theorem updDomain_pl (d : Nat) (f : DomainKey → DomainKey) : (updDomain s d f).pl = s.pl := rfl
@[simp] theorem updDomain_dr (d : Nat) (f : DomainKey → DomainKey) : (updDomain s d f).dr = s.dr := rfl
@[simp] theorem updDomain_ecc (d : Nat) (f : DomainKey → DomainKey) : (updDomain s d f).ecc = s.ecc := rfl
@[simp] theorem updDomain_wr (d : Nat) (f : DomainKey → DomainKey) : (updDomain s d f).wr = s.wr := rfl
@[simp] theorem updDomain_ln (d : Nat) (f : DomainKey → DomainKey) : (updDomain s d f).ln = s.ln := rfl
@[simp] theorem updDomain_hl (d : Nat) (f : DomainKey → DomainKey) : (updDomain s d f).hl = s.hl := rfl
@[simp] theorem updDomain_pp (d : Nat) (f : DomainKey → DomainKey) : (updDomain s d f).pp = s.pp := rfl
@[simp] theorem updDomain_th (d : Nat) (f : DomainKey → DomainKey) : (updDomain s d f).th = s.th := rfl
@[simp] theorem updDomain_kp (d : Nat) (f : DomainKey → DomainKey) : (updDomain s d f).kp = s.kp := rfl
@[simp] theorem updDomain_ev (d : Nat) (f : DomainKey → DomainKey) : (updDomain s d f).ev = s.ev := rfl
@[simp] theorem updDomain_cn (d : Nat) (f : DomainKey → DomainKey) : (updDomain s d f).cn = s.cn := rfl
@[simp] theorem updDomain_live (d : Nat) (f : DomainKey → DomainKey) : (updDomain s d f).live = s.live := rfl
@[simp] theorem updDomain_shadow (d : Nat) (f : DomainKey → DomainKey) : (updDomain s d f).shadow = s.shadow := rfl
@[simp] theorem updDomain_freeCtr (d : Nat) (f : DomainKey → DomainKey) : (updDomain s d f).freeCtr = s.freeCtr := rfl
@[simp] theorem updDomain_ig_sysGen (d : Nat) (f : DomainKey → DomainKey) : (updDomain s d f).ig.sysGen = s.ig.sysGen := rfl
@[simp] theorem updDomain_ig_rootState (d : Nat) (f : DomainKey → DomainKey) : (updDomain s d f).ig.rootState = s.ig.rootState := rfl
@[simp] theorem updDomain_ig_ideActive (d : Nat) (f : DomainKey → DomainKey) : (updDomain s d f).ig.ideActive = s.ig.ideActive := rfl
@[simp] theorem updDomain_ig_ideProgrammed (d : Nat) (f : DomainKey → DomainKey) : (updDomain s d f).ig.ideProgrammed = s.ig.ideProgrammed := rfl
@[simp] theorem updDomain_ig_ideStop (d : Nat) (f : DomainKey → DomainKey) : (updDomain s d f).ig.ideStop = s.ig.ideStop := rfl
@[simp] theorem updDomain_ig_ideEnded (d : Nat) (f : DomainKey → DomainKey) : (updDomain s d f).ig.ideEnded = s.ig.ideEnded := rfl
@[simp] theorem updDomain_ig_erasing (d : Nat) (f : DomainKey → DomainKey) : (updDomain s d f).ig.erasing = s.ig.erasing := rfl
@[simp] theorem updDomain_ig_eraseMailbox (d : Nat) (f : DomainKey → DomainKey) : (updDomain s d f).ig.eraseMailbox = s.ig.eraseMailbox := rfl
@[simp] theorem updDomain_ig_eraseCmd (d : Nat) (f : DomainKey → DomainKey) : (updDomain s d f).ig.eraseCmd = s.ig.eraseCmd := rfl
@[simp] theorem updDomain_ig_erasesQueued (d : Nat) (f : DomainKey → DomainKey) : (updDomain s d f).ig.erasesQueued = s.ig.erasesQueued := rfl
@[simp] theorem updDomain_ig_keyWindow (d : Nat) (f : DomainKey → DomainKey) : (updDomain s d f).ig.keyWindow = s.ig.keyWindow := rfl
@[simp] theorem updDomain_ig_windows (d : Nat) (f : DomainKey → DomainKey) : (updDomain s d f).ig.windows = s.ig.windows := rfl
@[simp] theorem updDomain_ig_keyDraws (d : Nat) (f : DomainKey → DomainKey) : (updDomain s d f).ig.keyDraws = s.ig.keyDraws := rfl
@[simp] theorem updDomain_ig_tagFail (d : Nat) (f : DomainKey → DomainKey) : (updDomain s d f).ig.tagFail = s.ig.tagFail := rfl
@[simp] theorem updDomain_ig_freshFail (d : Nat) (f : DomainKey → DomainKey) : (updDomain s d f).ig.freshFail = s.ig.freshFail := rfl
@[simp] theorem updDomain_ig_stampCeil (d : Nat) (f : DomainKey → DomainKey) : (updDomain s d f).ig.stampCeil = s.ig.stampCeil := rfl
@[simp] theorem updDomain_ig_ceilPending (d : Nat) (f : DomainKey → DomainKey) : (updDomain s d f).ig.ceilPending = s.ig.ceilPending := rfl
@[simp] theorem updDomain_ig_levelB (d : Nat) (f : DomainKey → DomainKey) : (updDomain s d f).ig.levelB = s.ig.levelB := rfl
@[simp] theorem updDomain_ig_leafStamps (d : Nat) (f : DomainKey → DomainKey) : (updDomain s d f).ig.leafStamps = s.ig.leafStamps := rfl
@[simp] theorem updDomain_ig_levelC (d : Nat) (f : DomainKey → DomainKey) : (updDomain s d f).ig.levelC = s.ig.levelC := rfl
@[simp] theorem updDomain_ig_dirtyB (d : Nat) (f : DomainKey → DomainKey) : (updDomain s d f).ig.dirtyB = s.ig.dirtyB := rfl
@[simp] theorem updDomain_ig_heldNodes (d : Nat) (f : DomainKey → DomainKey) : (updDomain s d f).ig.heldNodes = s.ig.heldNodes := rfl
@[simp] theorem updDomain_ig_nodesDue (d : Nat) (f : DomainKey → DomainKey) : (updDomain s d f).ig.nodesDue = s.ig.nodesDue := rfl
@[simp] theorem updDomain_ig_rootVer (d : Nat) (f : DomainKey → DomainKey) : (updDomain s d f).ig.rootVer = s.ig.rootVer := rfl
@[simp] theorem updDomain_ig_slots (d : Nat) (f : DomainKey → DomainKey) : (updDomain s d f).ig.slots = s.ig.slots := rfl
@[simp] theorem updDomain_ig_mediaSlots (d : Nat) (f : DomainKey → DomainKey) : (updDomain s d f).ig.mediaSlots = s.ig.mediaSlots := rfl
@[simp] theorem updDomain_ig_slotTags (d : Nat) (f : DomainKey → DomainKey) : (updDomain s d f).ig.slotTags = s.ig.slotTags := rfl
@[simp] theorem link_updDomain (d : Nat) (f : DomainKey → DomainKey) (k : Nat) : link (updDomain s d f) k = link s k := rfl
@[simp] theorem rankPl_updDomain (d : Nat) (f : DomainKey → DomainKey) (k : Nat) : rankPl (updDomain s d f) k = rankPl s k := rfl
@[simp] theorem stripe_updDomain (d : Nat) (f : DomainKey → DomainKey) (k : Nat) : stripe (updDomain s d f) k = stripe s k := rfl
@[simp] theorem rankEcc_updDomain (d : Nat) (f : DomainKey → DomainKey) (k : Nat) : rankEcc (updDomain s d f) k = rankEcc s k := rfl
@[simp] theorem rot_updDomain (d : Nat) (f : DomainKey → DomainKey) (k : Nat) : rot (updDomain s d f) k = rot s k := rfl
@[simp] theorem region_updDomain (d : Nat) (f : DomainKey → DomainKey) (k : Nat) : region (updDomain s d f) k = region s k := rfl
@[simp] theorem migSlot_updDomain (d : Nat) (f : DomainKey → DomainKey) (k : Nat) : migSlot (updDomain s d f) k = migSlot s k := rfl
@[simp] theorem zone_updDomain (d : Nat) (f : DomainKey → DomainKey) (k : Nat) : zone (updDomain s d f) k = zone s k := rfl
@[simp] theorem linkWear_updDomain (d : Nat) (f : DomainKey → DomainKey) (k : Nat) : linkWear (updDomain s d f) k = linkWear s k := rfl
@[simp] theorem capQ_updDomain (d : Nat) (f : DomainKey → DomainKey) (k : Nat) : capQ (updDomain s d f) k = capQ s k := rfl
@[simp] theorem mon_updDomain (d : Nat) (f : DomainKey → DomainKey) (k : Nat) : mon (updDomain s d f) k = mon s k := rfl
@[simp] theorem pipe_updDomain (d : Nat) (f : DomainKey → DomainKey) (k : Nat) : pipe (updDomain s d f) k = pipe s k := rfl
@[simp] theorem cfg_updDomain (d : Nat) (f : DomainKey → DomainKey) (k : Nat) : cfg (updDomain s d f) k = cfg s k := rfl
@[simp] theorem cfgShadow_updDomain (d : Nat) (f : DomainKey → DomainKey) (k : Nat) : cfgShadow (updDomain s d f) k = cfgShadow s k := rfl
@[simp] theorem readByte_updDomain (d : Nat) (f : DomainKey → DomainKey) (k : Nat) : readByte (updDomain s d f) k = readByte s k := rfl

/-! ### updLinkWear -/

@[simp] theorem updLinkWear_pending (n : Nat) (f : LinkWear → LinkWear) : (updLinkWear s n f).pending = s.pending := rfl
@[simp] theorem updLinkWear_clk (n : Nat) (f : LinkWear → LinkWear) : (updLinkWear s n f).clk = s.clk := rfl
@[simp] theorem updLinkWear_pwr (n : Nat) (f : LinkWear → LinkWear) : (updLinkWear s n f).pwr = s.pwr := rfl
@[simp] theorem updLinkWear_mp (n : Nat) (f : LinkWear → LinkWear) : (updLinkWear s n f).mp = s.mp := rfl
@[simp] theorem updLinkWear_sag (n : Nat) (f : LinkWear → LinkWear) : (updLinkWear s n f).sag = s.sag := rfl
@[simp] theorem updLinkWear_hq (n : Nat) (f : LinkWear → LinkWear) : (updLinkWear s n f).hq = s.hq := rfl
@[simp] theorem updLinkWear_pl (n : Nat) (f : LinkWear → LinkWear) : (updLinkWear s n f).pl = s.pl := rfl
@[simp] theorem updLinkWear_dr (n : Nat) (f : LinkWear → LinkWear) : (updLinkWear s n f).dr = s.dr := rfl
@[simp] theorem updLinkWear_ecc (n : Nat) (f : LinkWear → LinkWear) : (updLinkWear s n f).ecc = s.ecc := rfl
@[simp] theorem updLinkWear_ig (n : Nat) (f : LinkWear → LinkWear) : (updLinkWear s n f).ig = s.ig := rfl
@[simp] theorem updLinkWear_ln (n : Nat) (f : LinkWear → LinkWear) : (updLinkWear s n f).ln = s.ln := rfl
@[simp] theorem updLinkWear_hl (n : Nat) (f : LinkWear → LinkWear) : (updLinkWear s n f).hl = s.hl := rfl
@[simp] theorem updLinkWear_pp (n : Nat) (f : LinkWear → LinkWear) : (updLinkWear s n f).pp = s.pp := rfl
@[simp] theorem updLinkWear_th (n : Nat) (f : LinkWear → LinkWear) : (updLinkWear s n f).th = s.th := rfl
@[simp] theorem updLinkWear_kp (n : Nat) (f : LinkWear → LinkWear) : (updLinkWear s n f).kp = s.kp := rfl
@[simp] theorem updLinkWear_ev (n : Nat) (f : LinkWear → LinkWear) : (updLinkWear s n f).ev = s.ev := rfl
@[simp] theorem updLinkWear_cn (n : Nat) (f : LinkWear → LinkWear) : (updLinkWear s n f).cn = s.cn := rfl
@[simp] theorem updLinkWear_live (n : Nat) (f : LinkWear → LinkWear) : (updLinkWear s n f).live = s.live := rfl
@[simp] theorem updLinkWear_shadow (n : Nat) (f : LinkWear → LinkWear) : (updLinkWear s n f).shadow = s.shadow := rfl
@[simp] theorem updLinkWear_freeCtr (n : Nat) (f : LinkWear → LinkWear) : (updLinkWear s n f).freeCtr = s.freeCtr := rfl
@[simp] theorem updLinkWear_wr_spareBs0 (n : Nat) (f : LinkWear → LinkWear) : (updLinkWear s n f).wr.spareBs0 = s.wr.spareBs0 := rfl
@[simp] theorem updLinkWear_wr_exhausted (n : Nat) (f : LinkWear → LinkWear) : (updLinkWear s n f).wr.exhausted = s.wr.exhausted := rfl
@[simp] theorem updLinkWear_wr_failovers (n : Nat) (f : LinkWear → LinkWear) : (updLinkWear s n f).wr.failovers = s.wr.failovers := rfl
@[simp] theorem updLinkWear_wr_failed (n : Nat) (f : LinkWear → LinkWear) : (updLinkWear s n f).wr.failed = s.wr.failed := rfl
@[simp] theorem updLinkWear_wr_sparesLeft (n : Nat) (f : LinkWear → LinkWear) : (updLinkWear s n f).wr.sparesLeft = s.wr.sparesLeft := rfl
@[simp] theorem updLinkWear_wr_roles (n : Nat) (f : LinkWear → LinkWear) : (updLinkWear s n f).wr.roles = s.wr.roles := rfl
@[simp] theorem updLinkWear_wr_failing (n : Nat) (f : LinkWear → LinkWear) : (updLinkWear s n f).wr.failing = s.wr.failing := rfl
@[simp] theorem updLinkWear_wr_rowsUsed (n : Nat) (f : LinkWear → LinkWear) : (updLinkWear s n f).wr.rowsUsed = s.wr.rowsUsed := rfl
@[simp] theorem updLinkWear_wr_chUsed (n : Nat) (f : LinkWear → LinkWear) : (updLinkWear s n f).wr.chUsed = s.wr.chUsed := rfl
@[simp] theorem link_updLinkWear (n : Nat) (f : LinkWear → LinkWear) (k : Nat) : link (updLinkWear s n f) k = link s k := rfl
@[simp] theorem rankPl_updLinkWear (n : Nat) (f : LinkWear → LinkWear) (k : Nat) : rankPl (updLinkWear s n f) k = rankPl s k := rfl
@[simp] theorem stripe_updLinkWear (n : Nat) (f : LinkWear → LinkWear) (k : Nat) : stripe (updLinkWear s n f) k = stripe s k := rfl
@[simp] theorem rankEcc_updLinkWear (n : Nat) (f : LinkWear → LinkWear) (k : Nat) : rankEcc (updLinkWear s n f) k = rankEcc s k := rfl
@[simp] theorem rot_updLinkWear (n : Nat) (f : LinkWear → LinkWear) (k : Nat) : rot (updLinkWear s n f) k = rot s k := rfl
@[simp] theorem region_updLinkWear (n : Nat) (f : LinkWear → LinkWear) (k : Nat) : region (updLinkWear s n f) k = region s k := rfl
@[simp] theorem migSlot_updLinkWear (n : Nat) (f : LinkWear → LinkWear) (k : Nat) : migSlot (updLinkWear s n f) k = migSlot s k := rfl
@[simp] theorem zone_updLinkWear (n : Nat) (f : LinkWear → LinkWear) (k : Nat) : zone (updLinkWear s n f) k = zone s k := rfl
@[simp] theorem domainKey_updLinkWear (n : Nat) (f : LinkWear → LinkWear) (k : Nat) : domainKey (updLinkWear s n f) k = domainKey s k := rfl
@[simp] theorem capQ_updLinkWear (n : Nat) (f : LinkWear → LinkWear) (k : Nat) : capQ (updLinkWear s n f) k = capQ s k := rfl
@[simp] theorem mon_updLinkWear (n : Nat) (f : LinkWear → LinkWear) (k : Nat) : mon (updLinkWear s n f) k = mon s k := rfl
@[simp] theorem pipe_updLinkWear (n : Nat) (f : LinkWear → LinkWear) (k : Nat) : pipe (updLinkWear s n f) k = pipe s k := rfl
@[simp] theorem cfg_updLinkWear (n : Nat) (f : LinkWear → LinkWear) (k : Nat) : cfg (updLinkWear s n f) k = cfg s k := rfl
@[simp] theorem cfgShadow_updLinkWear (n : Nat) (f : LinkWear → LinkWear) (k : Nat) : cfgShadow (updLinkWear s n f) k = cfgShadow s k := rfl
@[simp] theorem readByte_updLinkWear (n : Nat) (f : LinkWear → LinkWear) (k : Nat) : readByte (updLinkWear s n f) k = readByte s k := rfl

/-! ### updCapQ -/

@[simp] theorem updCapQ_pending (q : Nat) (f : CapQ → CapQ) : (updCapQ s q f).pending = s.pending := rfl
@[simp] theorem updCapQ_clk (q : Nat) (f : CapQ → CapQ) : (updCapQ s q f).clk = s.clk := rfl
@[simp] theorem updCapQ_pwr (q : Nat) (f : CapQ → CapQ) : (updCapQ s q f).pwr = s.pwr := rfl
@[simp] theorem updCapQ_mp (q : Nat) (f : CapQ → CapQ) : (updCapQ s q f).mp = s.mp := rfl
@[simp] theorem updCapQ_sag (q : Nat) (f : CapQ → CapQ) : (updCapQ s q f).sag = s.sag := rfl
@[simp] theorem updCapQ_hq (q : Nat) (f : CapQ → CapQ) : (updCapQ s q f).hq = s.hq := rfl
@[simp] theorem updCapQ_pl (q : Nat) (f : CapQ → CapQ) : (updCapQ s q f).pl = s.pl := rfl
@[simp] theorem updCapQ_dr (q : Nat) (f : CapQ → CapQ) : (updCapQ s q f).dr = s.dr := rfl
@[simp] theorem updCapQ_ecc (q : Nat) (f : CapQ → CapQ) : (updCapQ s q f).ecc = s.ecc := rfl
@[simp] theorem updCapQ_wr (q : Nat) (f : CapQ → CapQ) : (updCapQ s q f).wr = s.wr := rfl
@[simp] theorem updCapQ_ig (q : Nat) (f : CapQ → CapQ) : (updCapQ s q f).ig = s.ig := rfl
@[simp] theorem updCapQ_ln (q : Nat) (f : CapQ → CapQ) : (updCapQ s q f).ln = s.ln := rfl
@[simp] theorem updCapQ_hl (q : Nat) (f : CapQ → CapQ) : (updCapQ s q f).hl = s.hl := rfl
@[simp] theorem updCapQ_pp (q : Nat) (f : CapQ → CapQ) : (updCapQ s q f).pp = s.pp := rfl
@[simp] theorem updCapQ_th (q : Nat) (f : CapQ → CapQ) : (updCapQ s q f).th = s.th := rfl
@[simp] theorem updCapQ_kp (q : Nat) (f : CapQ → CapQ) : (updCapQ s q f).kp = s.kp := rfl
@[simp] theorem updCapQ_cn (q : Nat) (f : CapQ → CapQ) : (updCapQ s q f).cn = s.cn := rfl
@[simp] theorem updCapQ_live (q : Nat) (f : CapQ → CapQ) : (updCapQ s q f).live = s.live := rfl
@[simp] theorem updCapQ_shadow (q : Nat) (f : CapQ → CapQ) : (updCapQ s q f).shadow = s.shadow := rfl
@[simp] theorem updCapQ_freeCtr (q : Nat) (f : CapQ → CapQ) : (updCapQ s q f).freeCtr = s.freeCtr := rfl
@[simp] theorem updCapQ_ev_runBeats (q : Nat) (f : CapQ → CapQ) : (updCapQ s q f).ev.runBeats = s.ev.runBeats := rfl
@[simp] theorem updCapQ_ev_head (q : Nat) (f : CapQ → CapQ) : (updCapQ s q f).ev.head = s.ev.head := rfl
@[simp] theorem updCapQ_ev_floor (q : Nat) (f : CapQ → CapQ) : (updCapQ s q f).ev.floor = s.ev.floor := rfl
@[simp] theorem updCapQ_ev_frozen (q : Nat) (f : CapQ → CapQ) : (updCapQ s q f).ev.frozen = s.ev.frozen := rfl
@[simp] theorem updCapQ_ev_frozenCount (q : Nat) (f : CapQ → CapQ) : (updCapQ s q f).ev.frozenCount = s.ev.frozenCount := rfl
@[simp] theorem updCapQ_ev_freezeAt (q : Nat) (f : CapQ → CapQ) : (updCapQ s q f).ev.freezeAt = s.ev.freezeAt := rfl
@[simp] theorem updCapQ_ev_suppressed (q : Nat) (f : CapQ → CapQ) : (updCapQ s q f).ev.suppressed = s.ev.suppressed := rfl
@[simp] theorem updCapQ_ev_dropped (q : Nat) (f : CapQ → CapQ) : (updCapQ s q f).ev.dropped = s.ev.dropped := rfl
@[simp] theorem updCapQ_ev_ring (q : Nat) (f : CapQ → CapQ) : (updCapQ s q f).ev.ring = s.ev.ring := rfl
@[simp] theorem updCapQ_ev_rdsel (q : Nat) (f : CapQ → CapQ) : (updCapQ s q f).ev.rdsel = s.ev.rdsel := rfl
@[simp] theorem updCapQ_ev_held (q : Nat) (f : CapQ → CapQ) : (updCapQ s q f).ev.held = s.ev.held := rfl
@[simp] theorem updCapQ_ev_words (q : Nat) (f : CapQ → CapQ) : (updCapQ s q f).ev.words = s.ev.words := rfl
@[simp] theorem updCapQ_ev_crits (q : Nat) (f : CapQ → CapQ) : (updCapQ s q f).ev.crits = s.ev.crits := rfl
@[simp] theorem updCapQ_ev_critWait (q : Nat) (f : CapQ → CapQ) : (updCapQ s q f).ev.critWait = s.ev.critWait := rfl
@[simp] theorem updCapQ_ev_buckets (q : Nat) (f : CapQ → CapQ) : (updCapQ s q f).ev.buckets = s.ev.buckets := rfl
@[simp] theorem updCapQ_ev_intake (q : Nat) (f : CapQ → CapQ) : (updCapQ s q f).ev.intake = s.ev.intake := rfl
@[simp] theorem updCapQ_ev_inCycle (q : Nat) (f : CapQ → CapQ) : (updCapQ s q f).ev.inCycle = s.ev.inCycle := rfl
@[simp] theorem updCapQ_ev_thisBeat (q : Nat) (f : CapQ → CapQ) : (updCapQ s q f).ev.thisBeat = s.ev.thisBeat := rfl
@[simp] theorem updCapQ_ev_gap (q : Nat) (f : CapQ → CapQ) : (updCapQ s q f).ev.gap = s.ev.gap := rfl
@[simp] theorem updCapQ_ev_mons (q : Nat) (f : CapQ → CapQ) : (updCapQ s q f).ev.mons = s.ev.mons := rfl
@[simp] theorem updCapQ_ev_dumpOn (q : Nat) (f : CapQ → CapQ) : (updCapQ s q f).ev.dumpOn = s.ev.dumpOn := rfl
@[simp] theorem updCapQ_ev_dumpK (q : Nat) (f : CapQ → CapQ) : (updCapQ s q f).ev.dumpK = s.ev.dumpK := rfl
@[simp] theorem updCapQ_ev_dumpNext (q : Nat) (f : CapQ → CapQ) : (updCapQ s q f).ev.dumpNext = s.ev.dumpNext := rfl
@[simp] theorem updCapQ_ev_dumps (q : Nat) (f : CapQ → CapQ) : (updCapQ s q f).ev.dumps = s.ev.dumps := rfl
@[simp] theorem updCapQ_ev_lastDump (q : Nat) (f : CapQ → CapQ) : (updCapQ s q f).ev.lastDump = s.ev.lastDump := rfl
@[simp] theorem updCapQ_ev_wakePending (q : Nat) (f : CapQ → CapQ) : (updCapQ s q f).ev.wakePending = s.ev.wakePending := rfl
@[simp] theorem link_updCapQ (q : Nat) (f : CapQ → CapQ) (k : Nat) : link (updCapQ s q f) k = link s k := rfl
@[simp] theorem rankPl_updCapQ (q : Nat) (f : CapQ → CapQ) (k : Nat) : rankPl (updCapQ s q f) k = rankPl s k := rfl
@[simp] theorem stripe_updCapQ (q : Nat) (f : CapQ → CapQ) (k : Nat) : stripe (updCapQ s q f) k = stripe s k := rfl
@[simp] theorem rankEcc_updCapQ (q : Nat) (f : CapQ → CapQ) (k : Nat) : rankEcc (updCapQ s q f) k = rankEcc s k := rfl
@[simp] theorem rot_updCapQ (q : Nat) (f : CapQ → CapQ) (k : Nat) : rot (updCapQ s q f) k = rot s k := rfl
@[simp] theorem region_updCapQ (q : Nat) (f : CapQ → CapQ) (k : Nat) : region (updCapQ s q f) k = region s k := rfl
@[simp] theorem migSlot_updCapQ (q : Nat) (f : CapQ → CapQ) (k : Nat) : migSlot (updCapQ s q f) k = migSlot s k := rfl
@[simp] theorem zone_updCapQ (q : Nat) (f : CapQ → CapQ) (k : Nat) : zone (updCapQ s q f) k = zone s k := rfl
@[simp] theorem domainKey_updCapQ (q : Nat) (f : CapQ → CapQ) (k : Nat) : domainKey (updCapQ s q f) k = domainKey s k := rfl
@[simp] theorem linkWear_updCapQ (q : Nat) (f : CapQ → CapQ) (k : Nat) : linkWear (updCapQ s q f) k = linkWear s k := rfl
@[simp] theorem mon_updCapQ (q : Nat) (f : CapQ → CapQ) (k : Nat) : mon (updCapQ s q f) k = mon s k := rfl
@[simp] theorem pipe_updCapQ (q : Nat) (f : CapQ → CapQ) (k : Nat) : pipe (updCapQ s q f) k = pipe s k := rfl
@[simp] theorem cfg_updCapQ (q : Nat) (f : CapQ → CapQ) (k : Nat) : cfg (updCapQ s q f) k = cfg s k := rfl
@[simp] theorem cfgShadow_updCapQ (q : Nat) (f : CapQ → CapQ) (k : Nat) : cfgShadow (updCapQ s q f) k = cfgShadow s k := rfl
@[simp] theorem readByte_updCapQ (q : Nat) (f : CapQ → CapQ) (k : Nat) : readByte (updCapQ s q f) k = readByte s k := rfl

/-! ### updMon -/

@[simp] theorem updMon_pending (m : Nat) (f : Mon → Mon) : (updMon s m f).pending = s.pending := rfl
@[simp] theorem updMon_clk (m : Nat) (f : Mon → Mon) : (updMon s m f).clk = s.clk := rfl
@[simp] theorem updMon_pwr (m : Nat) (f : Mon → Mon) : (updMon s m f).pwr = s.pwr := rfl
@[simp] theorem updMon_mp (m : Nat) (f : Mon → Mon) : (updMon s m f).mp = s.mp := rfl
@[simp] theorem updMon_sag (m : Nat) (f : Mon → Mon) : (updMon s m f).sag = s.sag := rfl
@[simp] theorem updMon_hq (m : Nat) (f : Mon → Mon) : (updMon s m f).hq = s.hq := rfl
@[simp] theorem updMon_pl (m : Nat) (f : Mon → Mon) : (updMon s m f).pl = s.pl := rfl
@[simp] theorem updMon_dr (m : Nat) (f : Mon → Mon) : (updMon s m f).dr = s.dr := rfl
@[simp] theorem updMon_ecc (m : Nat) (f : Mon → Mon) : (updMon s m f).ecc = s.ecc := rfl
@[simp] theorem updMon_wr (m : Nat) (f : Mon → Mon) : (updMon s m f).wr = s.wr := rfl
@[simp] theorem updMon_ig (m : Nat) (f : Mon → Mon) : (updMon s m f).ig = s.ig := rfl
@[simp] theorem updMon_ln (m : Nat) (f : Mon → Mon) : (updMon s m f).ln = s.ln := rfl
@[simp] theorem updMon_hl (m : Nat) (f : Mon → Mon) : (updMon s m f).hl = s.hl := rfl
@[simp] theorem updMon_pp (m : Nat) (f : Mon → Mon) : (updMon s m f).pp = s.pp := rfl
@[simp] theorem updMon_th (m : Nat) (f : Mon → Mon) : (updMon s m f).th = s.th := rfl
@[simp] theorem updMon_kp (m : Nat) (f : Mon → Mon) : (updMon s m f).kp = s.kp := rfl
@[simp] theorem updMon_cn (m : Nat) (f : Mon → Mon) : (updMon s m f).cn = s.cn := rfl
@[simp] theorem updMon_live (m : Nat) (f : Mon → Mon) : (updMon s m f).live = s.live := rfl
@[simp] theorem updMon_shadow (m : Nat) (f : Mon → Mon) : (updMon s m f).shadow = s.shadow := rfl
@[simp] theorem updMon_freeCtr (m : Nat) (f : Mon → Mon) : (updMon s m f).freeCtr = s.freeCtr := rfl
@[simp] theorem updMon_ev_runBeats (m : Nat) (f : Mon → Mon) : (updMon s m f).ev.runBeats = s.ev.runBeats := rfl
@[simp] theorem updMon_ev_head (m : Nat) (f : Mon → Mon) : (updMon s m f).ev.head = s.ev.head := rfl
@[simp] theorem updMon_ev_floor (m : Nat) (f : Mon → Mon) : (updMon s m f).ev.floor = s.ev.floor := rfl
@[simp] theorem updMon_ev_frozen (m : Nat) (f : Mon → Mon) : (updMon s m f).ev.frozen = s.ev.frozen := rfl
@[simp] theorem updMon_ev_frozenCount (m : Nat) (f : Mon → Mon) : (updMon s m f).ev.frozenCount = s.ev.frozenCount := rfl
@[simp] theorem updMon_ev_freezeAt (m : Nat) (f : Mon → Mon) : (updMon s m f).ev.freezeAt = s.ev.freezeAt := rfl
@[simp] theorem updMon_ev_suppressed (m : Nat) (f : Mon → Mon) : (updMon s m f).ev.suppressed = s.ev.suppressed := rfl
@[simp] theorem updMon_ev_dropped (m : Nat) (f : Mon → Mon) : (updMon s m f).ev.dropped = s.ev.dropped := rfl
@[simp] theorem updMon_ev_ring (m : Nat) (f : Mon → Mon) : (updMon s m f).ev.ring = s.ev.ring := rfl
@[simp] theorem updMon_ev_rdsel (m : Nat) (f : Mon → Mon) : (updMon s m f).ev.rdsel = s.ev.rdsel := rfl
@[simp] theorem updMon_ev_held (m : Nat) (f : Mon → Mon) : (updMon s m f).ev.held = s.ev.held := rfl
@[simp] theorem updMon_ev_words (m : Nat) (f : Mon → Mon) : (updMon s m f).ev.words = s.ev.words := rfl
@[simp] theorem updMon_ev_crits (m : Nat) (f : Mon → Mon) : (updMon s m f).ev.crits = s.ev.crits := rfl
@[simp] theorem updMon_ev_critWait (m : Nat) (f : Mon → Mon) : (updMon s m f).ev.critWait = s.ev.critWait := rfl
@[simp] theorem updMon_ev_buckets (m : Nat) (f : Mon → Mon) : (updMon s m f).ev.buckets = s.ev.buckets := rfl
@[simp] theorem updMon_ev_intake (m : Nat) (f : Mon → Mon) : (updMon s m f).ev.intake = s.ev.intake := rfl
@[simp] theorem updMon_ev_inCycle (m : Nat) (f : Mon → Mon) : (updMon s m f).ev.inCycle = s.ev.inCycle := rfl
@[simp] theorem updMon_ev_thisBeat (m : Nat) (f : Mon → Mon) : (updMon s m f).ev.thisBeat = s.ev.thisBeat := rfl
@[simp] theorem updMon_ev_gap (m : Nat) (f : Mon → Mon) : (updMon s m f).ev.gap = s.ev.gap := rfl
@[simp] theorem updMon_ev_queues (m : Nat) (f : Mon → Mon) : (updMon s m f).ev.queues = s.ev.queues := rfl
@[simp] theorem updMon_ev_dumpOn (m : Nat) (f : Mon → Mon) : (updMon s m f).ev.dumpOn = s.ev.dumpOn := rfl
@[simp] theorem updMon_ev_dumpK (m : Nat) (f : Mon → Mon) : (updMon s m f).ev.dumpK = s.ev.dumpK := rfl
@[simp] theorem updMon_ev_dumpNext (m : Nat) (f : Mon → Mon) : (updMon s m f).ev.dumpNext = s.ev.dumpNext := rfl
@[simp] theorem updMon_ev_dumps (m : Nat) (f : Mon → Mon) : (updMon s m f).ev.dumps = s.ev.dumps := rfl
@[simp] theorem updMon_ev_lastDump (m : Nat) (f : Mon → Mon) : (updMon s m f).ev.lastDump = s.ev.lastDump := rfl
@[simp] theorem updMon_ev_wakePending (m : Nat) (f : Mon → Mon) : (updMon s m f).ev.wakePending = s.ev.wakePending := rfl
@[simp] theorem link_updMon (m : Nat) (f : Mon → Mon) (k : Nat) : link (updMon s m f) k = link s k := rfl
@[simp] theorem rankPl_updMon (m : Nat) (f : Mon → Mon) (k : Nat) : rankPl (updMon s m f) k = rankPl s k := rfl
@[simp] theorem stripe_updMon (m : Nat) (f : Mon → Mon) (k : Nat) : stripe (updMon s m f) k = stripe s k := rfl
@[simp] theorem rankEcc_updMon (m : Nat) (f : Mon → Mon) (k : Nat) : rankEcc (updMon s m f) k = rankEcc s k := rfl
@[simp] theorem rot_updMon (m : Nat) (f : Mon → Mon) (k : Nat) : rot (updMon s m f) k = rot s k := rfl
@[simp] theorem region_updMon (m : Nat) (f : Mon → Mon) (k : Nat) : region (updMon s m f) k = region s k := rfl
@[simp] theorem migSlot_updMon (m : Nat) (f : Mon → Mon) (k : Nat) : migSlot (updMon s m f) k = migSlot s k := rfl
@[simp] theorem zone_updMon (m : Nat) (f : Mon → Mon) (k : Nat) : zone (updMon s m f) k = zone s k := rfl
@[simp] theorem domainKey_updMon (m : Nat) (f : Mon → Mon) (k : Nat) : domainKey (updMon s m f) k = domainKey s k := rfl
@[simp] theorem linkWear_updMon (m : Nat) (f : Mon → Mon) (k : Nat) : linkWear (updMon s m f) k = linkWear s k := rfl
@[simp] theorem capQ_updMon (m : Nat) (f : Mon → Mon) (k : Nat) : capQ (updMon s m f) k = capQ s k := rfl
@[simp] theorem pipe_updMon (m : Nat) (f : Mon → Mon) (k : Nat) : pipe (updMon s m f) k = pipe s k := rfl
@[simp] theorem cfg_updMon (m : Nat) (f : Mon → Mon) (k : Nat) : cfg (updMon s m f) k = cfg s k := rfl
@[simp] theorem cfgShadow_updMon (m : Nat) (f : Mon → Mon) (k : Nat) : cfgShadow (updMon s m f) k = cfgShadow s k := rfl
@[simp] theorem readByte_updMon (m : Nat) (f : Mon → Mon) (k : Nat) : readByte (updMon s m f) k = readByte s k := rfl

/-! ### updPipe -/

@[simp] theorem updPipe_pending (p : Nat) (f : Pipe → Pipe) : (updPipe s p f).pending = s.pending := rfl
@[simp] theorem updPipe_clk (p : Nat) (f : Pipe → Pipe) : (updPipe s p f).clk = s.clk := rfl
@[simp] theorem updPipe_pwr (p : Nat) (f : Pipe → Pipe) : (updPipe s p f).pwr = s.pwr := rfl
@[simp] theorem updPipe_mp (p : Nat) (f : Pipe → Pipe) : (updPipe s p f).mp = s.mp := rfl
@[simp] theorem updPipe_sag (p : Nat) (f : Pipe → Pipe) : (updPipe s p f).sag = s.sag := rfl
@[simp] theorem updPipe_hq (p : Nat) (f : Pipe → Pipe) : (updPipe s p f).hq = s.hq := rfl
@[simp] theorem updPipe_pl (p : Nat) (f : Pipe → Pipe) : (updPipe s p f).pl = s.pl := rfl
@[simp] theorem updPipe_dr (p : Nat) (f : Pipe → Pipe) : (updPipe s p f).dr = s.dr := rfl
@[simp] theorem updPipe_ecc (p : Nat) (f : Pipe → Pipe) : (updPipe s p f).ecc = s.ecc := rfl
@[simp] theorem updPipe_wr (p : Nat) (f : Pipe → Pipe) : (updPipe s p f).wr = s.wr := rfl
@[simp] theorem updPipe_ig (p : Nat) (f : Pipe → Pipe) : (updPipe s p f).ig = s.ig := rfl
@[simp] theorem updPipe_ln (p : Nat) (f : Pipe → Pipe) : (updPipe s p f).ln = s.ln := rfl
@[simp] theorem updPipe_hl (p : Nat) (f : Pipe → Pipe) : (updPipe s p f).hl = s.hl := rfl
@[simp] theorem updPipe_th (p : Nat) (f : Pipe → Pipe) : (updPipe s p f).th = s.th := rfl
@[simp] theorem updPipe_kp (p : Nat) (f : Pipe → Pipe) : (updPipe s p f).kp = s.kp := rfl
@[simp] theorem updPipe_ev (p : Nat) (f : Pipe → Pipe) : (updPipe s p f).ev = s.ev := rfl
@[simp] theorem updPipe_cn (p : Nat) (f : Pipe → Pipe) : (updPipe s p f).cn = s.cn := rfl
@[simp] theorem updPipe_live (p : Nat) (f : Pipe → Pipe) : (updPipe s p f).live = s.live := rfl
@[simp] theorem updPipe_shadow (p : Nat) (f : Pipe → Pipe) : (updPipe s p f).shadow = s.shadow := rfl
@[simp] theorem updPipe_freeCtr (p : Nat) (f : Pipe → Pipe) : (updPipe s p f).freeCtr = s.freeCtr := rfl
@[simp] theorem updPipe_pp_lock (p : Nat) (f : Pipe → Pipe) : (updPipe s p f).pp.lock = s.pp.lock := rfl
@[simp] theorem updPipe_pp_badPipe (p : Nat) (f : Pipe → Pipe) : (updPipe s p f).pp.badPipe = s.pp.badPipe := rfl
@[simp] theorem updPipe_pp_cmds (p : Nat) (f : Pipe → Pipe) : (updPipe s p f).pp.cmds = s.pp.cmds := rfl
@[simp] theorem updPipe_pp_nextId (p : Nat) (f : Pipe → Pipe) : (updPipe s p f).pp.nextId = s.pp.nextId := rfl
@[simp] theorem updPipe_pp_comps (p : Nat) (f : Pipe → Pipe) : (updPipe s p f).pp.comps = s.pp.comps := rfl
@[simp] theorem updPipe_pp_epoch (p : Nat) (f : Pipe → Pipe) : (updPipe s p f).pp.epoch = s.pp.epoch := rfl
@[simp] theorem updPipe_pp_commit (p : Nat) (f : Pipe → Pipe) : (updPipe s p f).pp.commit = s.pp.commit := rfl
@[simp] theorem updPipe_pp_sram (p : Nat) (f : Pipe → Pipe) : (updPipe s p f).pp.sram = s.pp.sram := rfl
@[simp] theorem updPipe_pp_badBytes (p : Nat) (f : Pipe → Pipe) : (updPipe s p f).pp.badBytes = s.pp.badBytes := rfl
@[simp] theorem updPipe_pp_sema (p : Nat) (f : Pipe → Pipe) : (updPipe s p f).pp.sema = s.pp.sema := rfl
@[simp] theorem updPipe_pp_busErrors (p : Nat) (f : Pipe → Pipe) : (updPipe s p f).pp.busErrors = s.pp.busErrors := rfl
@[simp] theorem link_updPipe (p : Nat) (f : Pipe → Pipe) (k : Nat) : link (updPipe s p f) k = link s k := rfl
@[simp] theorem rankPl_updPipe (p : Nat) (f : Pipe → Pipe) (k : Nat) : rankPl (updPipe s p f) k = rankPl s k := rfl
@[simp] theorem stripe_updPipe (p : Nat) (f : Pipe → Pipe) (k : Nat) : stripe (updPipe s p f) k = stripe s k := rfl
@[simp] theorem rankEcc_updPipe (p : Nat) (f : Pipe → Pipe) (k : Nat) : rankEcc (updPipe s p f) k = rankEcc s k := rfl
@[simp] theorem rot_updPipe (p : Nat) (f : Pipe → Pipe) (k : Nat) : rot (updPipe s p f) k = rot s k := rfl
@[simp] theorem region_updPipe (p : Nat) (f : Pipe → Pipe) (k : Nat) : region (updPipe s p f) k = region s k := rfl
@[simp] theorem migSlot_updPipe (p : Nat) (f : Pipe → Pipe) (k : Nat) : migSlot (updPipe s p f) k = migSlot s k := rfl
@[simp] theorem zone_updPipe (p : Nat) (f : Pipe → Pipe) (k : Nat) : zone (updPipe s p f) k = zone s k := rfl
@[simp] theorem domainKey_updPipe (p : Nat) (f : Pipe → Pipe) (k : Nat) : domainKey (updPipe s p f) k = domainKey s k := rfl
@[simp] theorem linkWear_updPipe (p : Nat) (f : Pipe → Pipe) (k : Nat) : linkWear (updPipe s p f) k = linkWear s k := rfl
@[simp] theorem capQ_updPipe (p : Nat) (f : Pipe → Pipe) (k : Nat) : capQ (updPipe s p f) k = capQ s k := rfl
@[simp] theorem mon_updPipe (p : Nat) (f : Pipe → Pipe) (k : Nat) : mon (updPipe s p f) k = mon s k := rfl
@[simp] theorem cfg_updPipe (p : Nat) (f : Pipe → Pipe) (k : Nat) : cfg (updPipe s p f) k = cfg s k := rfl
@[simp] theorem cfgShadow_updPipe (p : Nat) (f : Pipe → Pipe) (k : Nat) : cfgShadow (updPipe s p f) k = cfgShadow s k := rfl
@[simp] theorem readByte_updPipe (p : Nat) (f : Pipe → Pipe) (k : Nat) : readByte (updPipe s p f) k = readByte s k := rfl

/-! ### setSagLine -/

@[simp] theorem setSagLine_pending (page line : Nat) (v : Option SagLine) : (setSagLine s page line v).pending = s.pending := rfl
@[simp] theorem setSagLine_clk (page line : Nat) (v : Option SagLine) : (setSagLine s page line v).clk = s.clk := rfl
@[simp] theorem setSagLine_pwr (page line : Nat) (v : Option SagLine) : (setSagLine s page line v).pwr = s.pwr := rfl
@[simp] theorem setSagLine_mp (page line : Nat) (v : Option SagLine) : (setSagLine s page line v).mp = s.mp := rfl
@[simp] theorem setSagLine_hq (page line : Nat) (v : Option SagLine) : (setSagLine s page line v).hq = s.hq := rfl
@[simp] theorem setSagLine_pl (page line : Nat) (v : Option SagLine) : (setSagLine s page line v).pl = s.pl := rfl
@[simp] theorem setSagLine_dr (page line : Nat) (v : Option SagLine) : (setSagLine s page line v).dr = s.dr := rfl
@[simp] theorem setSagLine_ecc (page line : Nat) (v : Option SagLine) : (setSagLine s page line v).ecc = s.ecc := rfl
@[simp] theorem setSagLine_wr (page line : Nat) (v : Option SagLine) : (setSagLine s page line v).wr = s.wr := rfl
@[simp] theorem setSagLine_ig (page line : Nat) (v : Option SagLine) : (setSagLine s page line v).ig = s.ig := rfl
@[simp] theorem setSagLine_ln (page line : Nat) (v : Option SagLine) : (setSagLine s page line v).ln = s.ln := rfl
@[simp] theorem setSagLine_hl (page line : Nat) (v : Option SagLine) : (setSagLine s page line v).hl = s.hl := rfl
@[simp] theorem setSagLine_pp (page line : Nat) (v : Option SagLine) : (setSagLine s page line v).pp = s.pp := rfl
@[simp] theorem setSagLine_th (page line : Nat) (v : Option SagLine) : (setSagLine s page line v).th = s.th := rfl
@[simp] theorem setSagLine_kp (page line : Nat) (v : Option SagLine) : (setSagLine s page line v).kp = s.kp := rfl
@[simp] theorem setSagLine_ev (page line : Nat) (v : Option SagLine) : (setSagLine s page line v).ev = s.ev := rfl
@[simp] theorem setSagLine_cn (page line : Nat) (v : Option SagLine) : (setSagLine s page line v).cn = s.cn := rfl
@[simp] theorem setSagLine_live (page line : Nat) (v : Option SagLine) : (setSagLine s page line v).live = s.live := rfl
@[simp] theorem setSagLine_shadow (page line : Nat) (v : Option SagLine) : (setSagLine s page line v).shadow = s.shadow := rfl
@[simp] theorem setSagLine_freeCtr (page line : Nat) (v : Option SagLine) : (setSagLine s page line v).freeCtr = s.freeCtr := rfl
@[simp] theorem setSagLine_sag_dirtyLimit (page line : Nat) (v : Option SagLine) : (setSagLine s page line v).sag.dirtyLimit = s.sag.dirtyLimit := rfl
@[simp] theorem setSagLine_sag_poolCut (page line : Nat) (v : Option SagLine) : (setSagLine s page line v).sag.poolCut = s.sag.poolCut := rfl
@[simp] theorem setSagLine_sag_episodes (page line : Nat) (v : Option SagLine) : (setSagLine s page line v).sag.episodes = s.sag.episodes := rfl
@[simp] theorem setSagLine_sag_withheldBeats (page line : Nat) (v : Option SagLine) : (setSagLine s page line v).sag.withheldBeats = s.sag.withheldBeats := rfl
@[simp] theorem setSagLine_sag_withheld (page line : Nat) (v : Option SagLine) : (setSagLine s page line v).sag.withheld = s.sag.withheld := rfl
@[simp] theorem setSagLine_sag_drains (page line : Nat) (v : Option SagLine) : (setSagLine s page line v).sag.drains = s.sag.drains := rfl
@[simp] theorem setSagLine_sag_holdStart (page line : Nat) (v : Option SagLine) : (setSagLine s page line v).sag.holdStart = s.sag.holdStart := rfl
@[simp] theorem setSagLine_sag_holdOver (page line : Nat) (v : Option SagLine) : (setSagLine s page line v).sag.holdOver = s.sag.holdOver := rfl
@[simp] theorem setSagLine_sag_discarded (page line : Nat) (v : Option SagLine) : (setSagLine s page line v).sag.discarded = s.sag.discarded := rfl
@[simp] theorem setSagLine_sag_lastDiscardEvent (page line : Nat) (v : Option SagLine) : (setSagLine s page line v).sag.lastDiscardEvent = s.sag.lastDiscardEvent := rfl
@[simp] theorem setSagLine_sag_slotOf (page line : Nat) (v : Option SagLine) : (setSagLine s page line v).sag.slotOf = s.sag.slotOf := rfl
@[simp] theorem setSagLine_sag_markers (page line : Nat) (v : Option SagLine) : (setSagLine s page line v).sag.markers = s.sag.markers := rfl
@[simp] theorem link_setSagLine (page line : Nat) (v : Option SagLine) (k : Nat) : link (setSagLine s page line v) k = link s k := rfl
@[simp] theorem rankPl_setSagLine (page line : Nat) (v : Option SagLine) (k : Nat) : rankPl (setSagLine s page line v) k = rankPl s k := rfl
@[simp] theorem stripe_setSagLine (page line : Nat) (v : Option SagLine) (k : Nat) : stripe (setSagLine s page line v) k = stripe s k := rfl
@[simp] theorem rankEcc_setSagLine (page line : Nat) (v : Option SagLine) (k : Nat) : rankEcc (setSagLine s page line v) k = rankEcc s k := rfl
@[simp] theorem rot_setSagLine (page line : Nat) (v : Option SagLine) (k : Nat) : rot (setSagLine s page line v) k = rot s k := rfl
@[simp] theorem region_setSagLine (page line : Nat) (v : Option SagLine) (k : Nat) : region (setSagLine s page line v) k = region s k := rfl
@[simp] theorem migSlot_setSagLine (page line : Nat) (v : Option SagLine) (k : Nat) : migSlot (setSagLine s page line v) k = migSlot s k := rfl
@[simp] theorem zone_setSagLine (page line : Nat) (v : Option SagLine) (k : Nat) : zone (setSagLine s page line v) k = zone s k := rfl
@[simp] theorem domainKey_setSagLine (page line : Nat) (v : Option SagLine) (k : Nat) : domainKey (setSagLine s page line v) k = domainKey s k := rfl
@[simp] theorem linkWear_setSagLine (page line : Nat) (v : Option SagLine) (k : Nat) : linkWear (setSagLine s page line v) k = linkWear s k := rfl
@[simp] theorem capQ_setSagLine (page line : Nat) (v : Option SagLine) (k : Nat) : capQ (setSagLine s page line v) k = capQ s k := rfl
@[simp] theorem mon_setSagLine (page line : Nat) (v : Option SagLine) (k : Nat) : mon (setSagLine s page line v) k = mon s k := rfl
@[simp] theorem pipe_setSagLine (page line : Nat) (v : Option SagLine) (k : Nat) : pipe (setSagLine s page line v) k = pipe s k := rfl
@[simp] theorem cfg_setSagLine (page line : Nat) (v : Option SagLine) (k : Nat) : cfg (setSagLine s page line v) k = cfg s k := rfl
@[simp] theorem cfgShadow_setSagLine (page line : Nat) (v : Option SagLine) (k : Nat) : cfgShadow (setSagLine s page line v) k = cfgShadow s k := rfl
@[simp] theorem readByte_setSagLine (page line : Nat) (v : Option SagLine) (k : Nat) : readByte (setSagLine s page line v) k = readByte s k := rfl

/-! ### setMedia -/

@[simp] theorem setMedia_pending (slot line : Nat) (i : Img) : (setMedia s slot line i).pending = s.pending := rfl
@[simp] theorem setMedia_clk (slot line : Nat) (i : Img) : (setMedia s slot line i).clk = s.clk := rfl
@[simp] theorem setMedia_pwr (slot line : Nat) (i : Img) : (setMedia s slot line i).pwr = s.pwr := rfl
@[simp] theorem setMedia_sag (slot line : Nat) (i : Img) : (setMedia s slot line i).sag = s.sag := rfl
@[simp] theorem setMedia_hq (slot line : Nat) (i : Img) : (setMedia s slot line i).hq = s.hq := rfl
@[simp] theorem setMedia_pl (slot line : Nat) (i : Img) : (setMedia s slot line i).pl = s.pl := rfl
@[simp] theorem setMedia_dr (slot line : Nat) (i : Img) : (setMedia s slot line i).dr = s.dr := rfl
@[simp] theorem setMedia_ecc (slot line : Nat) (i : Img) : (setMedia s slot line i).ecc = s.ecc := rfl
@[simp] theorem setMedia_wr (slot line : Nat) (i : Img) : (setMedia s slot line i).wr = s.wr := rfl
@[simp] theorem setMedia_ig (slot line : Nat) (i : Img) : (setMedia s slot line i).ig = s.ig := rfl
@[simp] theorem setMedia_ln (slot line : Nat) (i : Img) : (setMedia s slot line i).ln = s.ln := rfl
@[simp] theorem setMedia_hl (slot line : Nat) (i : Img) : (setMedia s slot line i).hl = s.hl := rfl
@[simp] theorem setMedia_pp (slot line : Nat) (i : Img) : (setMedia s slot line i).pp = s.pp := rfl
@[simp] theorem setMedia_th (slot line : Nat) (i : Img) : (setMedia s slot line i).th = s.th := rfl
@[simp] theorem setMedia_kp (slot line : Nat) (i : Img) : (setMedia s slot line i).kp = s.kp := rfl
@[simp] theorem setMedia_ev (slot line : Nat) (i : Img) : (setMedia s slot line i).ev = s.ev := rfl
@[simp] theorem setMedia_cn (slot line : Nat) (i : Img) : (setMedia s slot line i).cn = s.cn := rfl
@[simp] theorem setMedia_live (slot line : Nat) (i : Img) : (setMedia s slot line i).live = s.live := rfl
@[simp] theorem setMedia_shadow (slot line : Nat) (i : Img) : (setMedia s slot line i).shadow = s.shadow := rfl
@[simp] theorem setMedia_freeCtr (slot line : Nat) (i : Img) : (setMedia s slot line i).freeCtr = s.freeCtr := rfl
@[simp] theorem setMedia_mp_capGib (slot line : Nat) (i : Img) : (setMedia s slot line i).mp.capGib = s.mp.capGib := rfl
@[simp] theorem setMedia_mp_mapNr (slot line : Nat) (i : Img) : (setMedia s slot line i).mp.mapNr = s.mp.mapNr := rfl
@[simp] theorem setMedia_mp_mapN (slot line : Nat) (i : Img) : (setMedia s slot line i).mp.mapN = s.mp.mapN := rfl
@[simp] theorem setMedia_mp_mapBlks (slot line : Nat) (i : Img) : (setMedia s slot line i).mp.mapBlks = s.mp.mapBlks := rfl
@[simp] theorem setMedia_mp_treeN (slot line : Nat) (i : Img) : (setMedia s slot line i).mp.treeN = s.mp.treeN := rfl
@[simp] theorem setMedia_mp_treeBlks (slot line : Nat) (i : Img) : (setMedia s slot line i).mp.treeBlks = s.mp.treeBlks := rfl
@[simp] theorem setMedia_mp_dirtyMax (slot line : Nat) (i : Img) : (setMedia s slot line i).mp.dirtyMax = s.mp.dirtyMax := rfl
@[simp] theorem setMedia_mp_pop (slot line : Nat) (i : Img) : (setMedia s slot line i).mp.pop = s.mp.pop := rfl
@[simp] theorem setMedia_mp_mapRanks (slot line : Nat) (i : Img) : (setMedia s slot line i).mp.mapRanks = s.mp.mapRanks := rfl
@[simp] theorem setMedia_mp_regions (slot line : Nat) (i : Img) : (setMedia s slot line i).mp.regions = s.mp.regions := rfl
@[simp] theorem setMedia_mp_mig (slot line : Nat) (i : Img) : (setMedia s slot line i).mp.mig = s.mp.mig := rfl
@[simp] theorem setMedia_mp_rot (slot line : Nat) (i : Img) : (setMedia s slot line i).mp.rot = s.mp.rot := rfl
@[simp] theorem setMedia_mp_cache (slot line : Nat) (i : Img) : (setMedia s slot line i).mp.cache = s.mp.cache := rfl
@[simp] theorem setMedia_mp_lruClock (slot line : Nat) (i : Img) : (setMedia s slot line i).mp.lruClock = s.mp.lruClock := rfl
@[simp] theorem setMedia_mp_fills (slot line : Nat) (i : Img) : (setMedia s slot line i).mp.fills = s.mp.fills := rfl
@[simp] theorem setMedia_mp_wayWaits (slot line : Nat) (i : Img) : (setMedia s slot line i).mp.wayWaits = s.mp.wayWaits := rfl
@[simp] theorem setMedia_mp_cleaning (slot line : Nat) (i : Img) : (setMedia s slot line i).mp.cleaning = s.mp.cleaning := rfl
@[simp] theorem setMedia_mp_rewrites (slot line : Nat) (i : Img) : (setMedia s slot line i).mp.rewrites = s.mp.rewrites := rfl
@[simp] theorem setMedia_mp_leaves (slot line : Nat) (i : Img) : (setMedia s slot line i).mp.leaves = s.mp.leaves := rfl
@[simp] theorem setMedia_mp_writeBacks (slot line : Nat) (i : Img) : (setMedia s slot line i).mp.writeBacks = s.mp.writeBacks := rfl
@[simp] theorem setMedia_mp_cones (slot line : Nat) (i : Img) : (setMedia s slot line i).mp.cones = s.mp.cones := rfl
@[simp] theorem setMedia_mp_parityStale (slot line : Nat) (i : Img) : (setMedia s slot line i).mp.parityStale = s.mp.parityStale := rfl
@[simp] theorem setMedia_mp_pendingCap (slot line : Nat) (i : Img) : (setMedia s slot line i).mp.pendingCap = s.mp.pendingCap := rfl
@[simp] theorem link_setMedia (slot line : Nat) (i : Img) (k : Nat) : link (setMedia s slot line i) k = link s k := rfl
@[simp] theorem rankPl_setMedia (slot line : Nat) (i : Img) (k : Nat) : rankPl (setMedia s slot line i) k = rankPl s k := rfl
@[simp] theorem stripe_setMedia (slot line : Nat) (i : Img) (k : Nat) : stripe (setMedia s slot line i) k = stripe s k := rfl
@[simp] theorem rankEcc_setMedia (slot line : Nat) (i : Img) (k : Nat) : rankEcc (setMedia s slot line i) k = rankEcc s k := rfl
@[simp] theorem rot_setMedia (slot line : Nat) (i : Img) (k : Nat) : rot (setMedia s slot line i) k = rot s k := rfl
@[simp] theorem region_setMedia (slot line : Nat) (i : Img) (k : Nat) : region (setMedia s slot line i) k = region s k := rfl
@[simp] theorem migSlot_setMedia (slot line : Nat) (i : Img) (k : Nat) : migSlot (setMedia s slot line i) k = migSlot s k := rfl
@[simp] theorem zone_setMedia (slot line : Nat) (i : Img) (k : Nat) : zone (setMedia s slot line i) k = zone s k := rfl
@[simp] theorem domainKey_setMedia (slot line : Nat) (i : Img) (k : Nat) : domainKey (setMedia s slot line i) k = domainKey s k := rfl
@[simp] theorem linkWear_setMedia (slot line : Nat) (i : Img) (k : Nat) : linkWear (setMedia s slot line i) k = linkWear s k := rfl
@[simp] theorem capQ_setMedia (slot line : Nat) (i : Img) (k : Nat) : capQ (setMedia s slot line i) k = capQ s k := rfl
@[simp] theorem mon_setMedia (slot line : Nat) (i : Img) (k : Nat) : mon (setMedia s slot line i) k = mon s k := rfl
@[simp] theorem pipe_setMedia (slot line : Nat) (i : Img) (k : Nat) : pipe (setMedia s slot line i) k = pipe s k := rfl
@[simp] theorem cfg_setMedia (slot line : Nat) (i : Img) (k : Nat) : cfg (setMedia s slot line i) k = cfg s k := rfl
@[simp] theorem cfgShadow_setMedia (slot line : Nat) (i : Img) (k : Nat) : cfgShadow (setMedia s slot line i) k = cfgShadow s k := rfl
@[simp] theorem readByte_setMedia (slot line : Nat) (i : Img) (k : Nat) : readByte (setMedia s slot line i) k = readByte s k := rfl

/-! ### setLive -/

@[simp] theorem setLive_pending (id : Nat) (v : Reg) : (setLive s id v).pending = s.pending := rfl
@[simp] theorem setLive_clk (id : Nat) (v : Reg) : (setLive s id v).clk = s.clk := rfl
@[simp] theorem setLive_pwr (id : Nat) (v : Reg) : (setLive s id v).pwr = s.pwr := rfl
@[simp] theorem setLive_mp (id : Nat) (v : Reg) : (setLive s id v).mp = s.mp := rfl
@[simp] theorem setLive_sag (id : Nat) (v : Reg) : (setLive s id v).sag = s.sag := rfl
@[simp] theorem setLive_hq (id : Nat) (v : Reg) : (setLive s id v).hq = s.hq := rfl
@[simp] theorem setLive_pl (id : Nat) (v : Reg) : (setLive s id v).pl = s.pl := rfl
@[simp] theorem setLive_dr (id : Nat) (v : Reg) : (setLive s id v).dr = s.dr := rfl
@[simp] theorem setLive_ecc (id : Nat) (v : Reg) : (setLive s id v).ecc = s.ecc := rfl
@[simp] theorem setLive_wr (id : Nat) (v : Reg) : (setLive s id v).wr = s.wr := rfl
@[simp] theorem setLive_ig (id : Nat) (v : Reg) : (setLive s id v).ig = s.ig := rfl
@[simp] theorem setLive_ln (id : Nat) (v : Reg) : (setLive s id v).ln = s.ln := rfl
@[simp] theorem setLive_hl (id : Nat) (v : Reg) : (setLive s id v).hl = s.hl := rfl
@[simp] theorem setLive_pp (id : Nat) (v : Reg) : (setLive s id v).pp = s.pp := rfl
@[simp] theorem setLive_th (id : Nat) (v : Reg) : (setLive s id v).th = s.th := rfl
@[simp] theorem setLive_kp (id : Nat) (v : Reg) : (setLive s id v).kp = s.kp := rfl
@[simp] theorem setLive_ev (id : Nat) (v : Reg) : (setLive s id v).ev = s.ev := rfl
@[simp] theorem setLive_cn (id : Nat) (v : Reg) : (setLive s id v).cn = s.cn := rfl
@[simp] theorem setLive_shadow (id : Nat) (v : Reg) : (setLive s id v).shadow = s.shadow := rfl
@[simp] theorem setLive_freeCtr (id : Nat) (v : Reg) : (setLive s id v).freeCtr = s.freeCtr := rfl
@[simp] theorem link_setLive (id : Nat) (v : Reg) (k : Nat) : link (setLive s id v) k = link s k := rfl
@[simp] theorem rankPl_setLive (id : Nat) (v : Reg) (k : Nat) : rankPl (setLive s id v) k = rankPl s k := rfl
@[simp] theorem stripe_setLive (id : Nat) (v : Reg) (k : Nat) : stripe (setLive s id v) k = stripe s k := rfl
@[simp] theorem rankEcc_setLive (id : Nat) (v : Reg) (k : Nat) : rankEcc (setLive s id v) k = rankEcc s k := rfl
@[simp] theorem rot_setLive (id : Nat) (v : Reg) (k : Nat) : rot (setLive s id v) k = rot s k := rfl
@[simp] theorem region_setLive (id : Nat) (v : Reg) (k : Nat) : region (setLive s id v) k = region s k := rfl
@[simp] theorem migSlot_setLive (id : Nat) (v : Reg) (k : Nat) : migSlot (setLive s id v) k = migSlot s k := rfl
@[simp] theorem zone_setLive (id : Nat) (v : Reg) (k : Nat) : zone (setLive s id v) k = zone s k := rfl
@[simp] theorem domainKey_setLive (id : Nat) (v : Reg) (k : Nat) : domainKey (setLive s id v) k = domainKey s k := rfl
@[simp] theorem linkWear_setLive (id : Nat) (v : Reg) (k : Nat) : linkWear (setLive s id v) k = linkWear s k := rfl
@[simp] theorem capQ_setLive (id : Nat) (v : Reg) (k : Nat) : capQ (setLive s id v) k = capQ s k := rfl
@[simp] theorem mon_setLive (id : Nat) (v : Reg) (k : Nat) : mon (setLive s id v) k = mon s k := rfl
@[simp] theorem pipe_setLive (id : Nat) (v : Reg) (k : Nat) : pipe (setLive s id v) k = pipe s k := rfl
@[simp] theorem cfgShadow_setLive (id : Nat) (v : Reg) (k : Nat) : cfgShadow (setLive s id v) k = cfgShadow s k := rfl
@[simp] theorem readByte_setLive (id : Nat) (v : Reg) (k : Nat) : readByte (setLive s id v) k = readByte s k := rfl

/-! ### setShadow -/

@[simp] theorem setShadow_pending (id : Nat) (v : Reg) : (setShadow s id v).pending = s.pending := rfl
@[simp] theorem setShadow_clk (id : Nat) (v : Reg) : (setShadow s id v).clk = s.clk := rfl
@[simp] theorem setShadow_pwr (id : Nat) (v : Reg) : (setShadow s id v).pwr = s.pwr := rfl
@[simp] theorem setShadow_mp (id : Nat) (v : Reg) : (setShadow s id v).mp = s.mp := rfl
@[simp] theorem setShadow_sag (id : Nat) (v : Reg) : (setShadow s id v).sag = s.sag := rfl
@[simp] theorem setShadow_hq (id : Nat) (v : Reg) : (setShadow s id v).hq = s.hq := rfl
@[simp] theorem setShadow_pl (id : Nat) (v : Reg) : (setShadow s id v).pl = s.pl := rfl
@[simp] theorem setShadow_dr (id : Nat) (v : Reg) : (setShadow s id v).dr = s.dr := rfl
@[simp] theorem setShadow_ecc (id : Nat) (v : Reg) : (setShadow s id v).ecc = s.ecc := rfl
@[simp] theorem setShadow_wr (id : Nat) (v : Reg) : (setShadow s id v).wr = s.wr := rfl
@[simp] theorem setShadow_ig (id : Nat) (v : Reg) : (setShadow s id v).ig = s.ig := rfl
@[simp] theorem setShadow_ln (id : Nat) (v : Reg) : (setShadow s id v).ln = s.ln := rfl
@[simp] theorem setShadow_hl (id : Nat) (v : Reg) : (setShadow s id v).hl = s.hl := rfl
@[simp] theorem setShadow_pp (id : Nat) (v : Reg) : (setShadow s id v).pp = s.pp := rfl
@[simp] theorem setShadow_th (id : Nat) (v : Reg) : (setShadow s id v).th = s.th := rfl
@[simp] theorem setShadow_kp (id : Nat) (v : Reg) : (setShadow s id v).kp = s.kp := rfl
@[simp] theorem setShadow_ev (id : Nat) (v : Reg) : (setShadow s id v).ev = s.ev := rfl
@[simp] theorem setShadow_cn (id : Nat) (v : Reg) : (setShadow s id v).cn = s.cn := rfl
@[simp] theorem setShadow_live (id : Nat) (v : Reg) : (setShadow s id v).live = s.live := rfl
@[simp] theorem setShadow_freeCtr (id : Nat) (v : Reg) : (setShadow s id v).freeCtr = s.freeCtr := rfl
@[simp] theorem link_setShadow (id : Nat) (v : Reg) (k : Nat) : link (setShadow s id v) k = link s k := rfl
@[simp] theorem rankPl_setShadow (id : Nat) (v : Reg) (k : Nat) : rankPl (setShadow s id v) k = rankPl s k := rfl
@[simp] theorem stripe_setShadow (id : Nat) (v : Reg) (k : Nat) : stripe (setShadow s id v) k = stripe s k := rfl
@[simp] theorem rankEcc_setShadow (id : Nat) (v : Reg) (k : Nat) : rankEcc (setShadow s id v) k = rankEcc s k := rfl
@[simp] theorem rot_setShadow (id : Nat) (v : Reg) (k : Nat) : rot (setShadow s id v) k = rot s k := rfl
@[simp] theorem region_setShadow (id : Nat) (v : Reg) (k : Nat) : region (setShadow s id v) k = region s k := rfl
@[simp] theorem migSlot_setShadow (id : Nat) (v : Reg) (k : Nat) : migSlot (setShadow s id v) k = migSlot s k := rfl
@[simp] theorem zone_setShadow (id : Nat) (v : Reg) (k : Nat) : zone (setShadow s id v) k = zone s k := rfl
@[simp] theorem domainKey_setShadow (id : Nat) (v : Reg) (k : Nat) : domainKey (setShadow s id v) k = domainKey s k := rfl
@[simp] theorem linkWear_setShadow (id : Nat) (v : Reg) (k : Nat) : linkWear (setShadow s id v) k = linkWear s k := rfl
@[simp] theorem capQ_setShadow (id : Nat) (v : Reg) (k : Nat) : capQ (setShadow s id v) k = capQ s k := rfl
@[simp] theorem mon_setShadow (id : Nat) (v : Reg) (k : Nat) : mon (setShadow s id v) k = mon s k := rfl
@[simp] theorem pipe_setShadow (id : Nat) (v : Reg) (k : Nat) : pipe (setShadow s id v) k = pipe s k := rfl
@[simp] theorem cfg_setShadow (id : Nat) (v : Reg) (k : Nat) : cfg (setShadow s id v) k = cfg s k := rfl
@[simp] theorem readByte_setShadow (id : Nat) (v : Reg) (k : Nat) : readByte (setShadow s id v) k = readByte s k := rfl

/-! ### writeBytes -/

@[simp] theorem writeBytes_pending (a : Nat) (bs : List Byte) : (writeBytes s a bs).pending = s.pending := rfl
@[simp] theorem writeBytes_clk (a : Nat) (bs : List Byte) : (writeBytes s a bs).clk = s.clk := rfl
@[simp] theorem writeBytes_pwr (a : Nat) (bs : List Byte) : (writeBytes s a bs).pwr = s.pwr := rfl
@[simp] theorem writeBytes_mp (a : Nat) (bs : List Byte) : (writeBytes s a bs).mp = s.mp := rfl
@[simp] theorem writeBytes_sag (a : Nat) (bs : List Byte) : (writeBytes s a bs).sag = s.sag := rfl
@[simp] theorem writeBytes_hq (a : Nat) (bs : List Byte) : (writeBytes s a bs).hq = s.hq := rfl
@[simp] theorem writeBytes_pl (a : Nat) (bs : List Byte) : (writeBytes s a bs).pl = s.pl := rfl
@[simp] theorem writeBytes_dr (a : Nat) (bs : List Byte) : (writeBytes s a bs).dr = s.dr := rfl
@[simp] theorem writeBytes_ecc (a : Nat) (bs : List Byte) : (writeBytes s a bs).ecc = s.ecc := rfl
@[simp] theorem writeBytes_wr (a : Nat) (bs : List Byte) : (writeBytes s a bs).wr = s.wr := rfl
@[simp] theorem writeBytes_ig (a : Nat) (bs : List Byte) : (writeBytes s a bs).ig = s.ig := rfl
@[simp] theorem writeBytes_ln (a : Nat) (bs : List Byte) : (writeBytes s a bs).ln = s.ln := rfl
@[simp] theorem writeBytes_hl (a : Nat) (bs : List Byte) : (writeBytes s a bs).hl = s.hl := rfl
@[simp] theorem writeBytes_th (a : Nat) (bs : List Byte) : (writeBytes s a bs).th = s.th := rfl
@[simp] theorem writeBytes_kp (a : Nat) (bs : List Byte) : (writeBytes s a bs).kp = s.kp := rfl
@[simp] theorem writeBytes_ev (a : Nat) (bs : List Byte) : (writeBytes s a bs).ev = s.ev := rfl
@[simp] theorem writeBytes_cn (a : Nat) (bs : List Byte) : (writeBytes s a bs).cn = s.cn := rfl
@[simp] theorem writeBytes_live (a : Nat) (bs : List Byte) : (writeBytes s a bs).live = s.live := rfl
@[simp] theorem writeBytes_shadow (a : Nat) (bs : List Byte) : (writeBytes s a bs).shadow = s.shadow := rfl
@[simp] theorem writeBytes_freeCtr (a : Nat) (bs : List Byte) : (writeBytes s a bs).freeCtr = s.freeCtr := rfl
@[simp] theorem writeBytes_pp_pipes (a : Nat) (bs : List Byte) : (writeBytes s a bs).pp.pipes = s.pp.pipes := rfl
@[simp] theorem writeBytes_pp_lock (a : Nat) (bs : List Byte) : (writeBytes s a bs).pp.lock = s.pp.lock := rfl
@[simp] theorem writeBytes_pp_badPipe (a : Nat) (bs : List Byte) : (writeBytes s a bs).pp.badPipe = s.pp.badPipe := rfl
@[simp] theorem writeBytes_pp_cmds (a : Nat) (bs : List Byte) : (writeBytes s a bs).pp.cmds = s.pp.cmds := rfl
@[simp] theorem writeBytes_pp_nextId (a : Nat) (bs : List Byte) : (writeBytes s a bs).pp.nextId = s.pp.nextId := rfl
@[simp] theorem writeBytes_pp_comps (a : Nat) (bs : List Byte) : (writeBytes s a bs).pp.comps = s.pp.comps := rfl
@[simp] theorem writeBytes_pp_epoch (a : Nat) (bs : List Byte) : (writeBytes s a bs).pp.epoch = s.pp.epoch := rfl
@[simp] theorem writeBytes_pp_commit (a : Nat) (bs : List Byte) : (writeBytes s a bs).pp.commit = s.pp.commit := rfl
@[simp] theorem writeBytes_pp_sema (a : Nat) (bs : List Byte) : (writeBytes s a bs).pp.sema = s.pp.sema := rfl
@[simp] theorem writeBytes_pp_busErrors (a : Nat) (bs : List Byte) : (writeBytes s a bs).pp.busErrors = s.pp.busErrors := rfl
@[simp] theorem link_writeBytes (a : Nat) (bs : List Byte) (k : Nat) : link (writeBytes s a bs) k = link s k := rfl
@[simp] theorem rankPl_writeBytes (a : Nat) (bs : List Byte) (k : Nat) : rankPl (writeBytes s a bs) k = rankPl s k := rfl
@[simp] theorem stripe_writeBytes (a : Nat) (bs : List Byte) (k : Nat) : stripe (writeBytes s a bs) k = stripe s k := rfl
@[simp] theorem rankEcc_writeBytes (a : Nat) (bs : List Byte) (k : Nat) : rankEcc (writeBytes s a bs) k = rankEcc s k := rfl
@[simp] theorem rot_writeBytes (a : Nat) (bs : List Byte) (k : Nat) : rot (writeBytes s a bs) k = rot s k := rfl
@[simp] theorem region_writeBytes (a : Nat) (bs : List Byte) (k : Nat) : region (writeBytes s a bs) k = region s k := rfl
@[simp] theorem migSlot_writeBytes (a : Nat) (bs : List Byte) (k : Nat) : migSlot (writeBytes s a bs) k = migSlot s k := rfl
@[simp] theorem zone_writeBytes (a : Nat) (bs : List Byte) (k : Nat) : zone (writeBytes s a bs) k = zone s k := rfl
@[simp] theorem domainKey_writeBytes (a : Nat) (bs : List Byte) (k : Nat) : domainKey (writeBytes s a bs) k = domainKey s k := rfl
@[simp] theorem linkWear_writeBytes (a : Nat) (bs : List Byte) (k : Nat) : linkWear (writeBytes s a bs) k = linkWear s k := rfl
@[simp] theorem capQ_writeBytes (a : Nat) (bs : List Byte) (k : Nat) : capQ (writeBytes s a bs) k = capQ s k := rfl
@[simp] theorem mon_writeBytes (a : Nat) (bs : List Byte) (k : Nat) : mon (writeBytes s a bs) k = mon s k := rfl
@[simp] theorem pipe_writeBytes (a : Nat) (bs : List Byte) (k : Nat) : pipe (writeBytes s a bs) k = pipe s k := rfl
@[simp] theorem cfg_writeBytes (a : Nat) (bs : List Byte) (k : Nat) : cfg (writeBytes s a bs) k = cfg s k := rfl
@[simp] theorem cfgShadow_writeBytes (a : Nat) (bs : List Byte) (k : Nat) : cfgShadow (writeBytes s a bs) k = cfgShadow s k := rfl

/-! ### Tables with rising keys -/

/-- The keys of a table rise. -/
def Rising {α : Type} (t : Tab α) : Prop := t.Pairwise fun a b => a.1 < b.1

/-- A table in canonical form has rising keys. -/
theorem rising_of_wf {α : Type} [DecidableEq α] (d : α) (t : Tab α) (h : Tab.wf d t = true) : Rising t := by
  induction t with
  | nil => exact List.Pairwise.nil
  | cons x t ih =>
    have hx := (Tab.wf_cons d x t).1 h
    exact List.Pairwise.cons (fun y hy => hx.2.1 y hy) (ih hx.2.2)

/-- What a table with rising keys reads after one key is set, under the default it is set with. -/
theorem tget_tset {α : Type} [DecidableEq α] (d : α) (t : Tab α) (k j : Nat) (v : α) (h : Rising t) :
    tget d (tset d t k v) j = if j = k then v else tget d t j := by
  induction t with
  | nil => by_cases hv : v = d <;> simp [tset, tget, hv] <;> grind
  | cons x t ih =>
    obtain ⟨i, w⟩ := x
    have h' := List.pairwise_cons.1 h
    have hb : ∀ j, j ≤ i → tget d t j = d := by
      intro j hj
      cases t with
      | nil => rfl
      | cons y t => have := h'.1 y (by simp); obtain ⟨a, b⟩ := y; simp [tget]; grind
    have := ih h'.2
    simp only [tset]; split
    · split <;> simp only [tget] <;> grind
    · split
      · split <;> simp only [tget] <;> grind
      · simp only [tget]; grind

/-- The same after an update. -/
theorem tget_tupd {α : Type} [DecidableEq α] (d : α) (t : Tab α) (k j : Nat) (f : α → α) (h : Rising t) :
    tget d (tupd d t k f) j = if j = k then f (tget d t k) else tget d t j := tget_tset d t k j _ h

theorem link_updLink_self (n : Nat) (f : LinkRec → LinkRec) (k : Nat) (h : Rising s.ln.links) :
    link (updLink s n f) k = if k = n then f (link s n) else link s k :=
  tget_tupd _ _ _ _ _ h
theorem rankPl_updRank_self (r : Nat) (f : RankPl → RankPl) (k : Nat) (h : Rising s.pl.ranks) :
    rankPl (updRank s r f) k = if k = r then f (rankPl s r) else rankPl s k :=
  tget_tupd _ _ _ _ _ h
theorem stripe_updStripe_self (bs : Nat) (f : BsRec → BsRec) (k : Nat) (h : Rising s.pl.stripes) :
    stripe (updStripe s bs f) k = if k = bs then { f (stripe s bs) with changed := true } else stripe s k :=
  tget_tupd _ _ _ _ (fun x => { f x with changed := true }) h
theorem rankEcc_updEcc_self (r : Nat) (f : RankEcc → RankEcc) (k : Nat) (h : Rising s.ecc.ranks) :
    rankEcc (updEcc s r f) k = if k = r then f (rankEcc s r) else rankEcc s k :=
  tget_tupd _ _ _ _ _ h
theorem rot_updRot_self (r : Nat) (f : Rot → Rot) (k : Nat) (h : Rising s.mp.rot) :
    rot (updRot s r f) k = if k = r then f (rot s r) else rot s k :=
  tget_tupd _ _ _ _ _ h
theorem region_updRegion_self (n : Nat) (f : Region → Region) (k : Nat) (h : Rising s.mp.regions) :
    region (updRegion s n f) k = if k = n then f (region s n) else region s k :=
  tget_tupd _ _ _ _ _ h
theorem migSlot_updMig_self (m : Nat) (f : MigSlot → MigSlot) (k : Nat) (h : Rising s.mp.mig) :
    migSlot (updMig s m f) k = if k = m then f (migSlot s m) else migSlot s k :=
  tget_tupd _ _ _ _ _ h
theorem zone_updZone_self (z : Nat) (f : Zone → Zone) (k : Nat) (h : Rising s.th.zones) :
    zone (updZone s z f) k = if k = z then f (zone s z) else zone s k :=
  tget_tupd _ _ _ _ _ h
theorem domainKey_updDomain_self (d : Nat) (f : DomainKey → DomainKey) (k : Nat) (h : Rising s.ig.domains) :
    domainKey (updDomain s d f) k = if k = d then f (domainKey s d) else domainKey s k :=
  tget_tupd _ _ _ _ _ h
theorem linkWear_updLinkWear_self (n : Nat) (f : LinkWear → LinkWear) (k : Nat) (h : Rising s.wr.links) :
    linkWear (updLinkWear s n f) k = if k = n then f (linkWear s n) else linkWear s k :=
  tget_tupd _ _ _ _ _ h
theorem capQ_updCapQ_self (q : Nat) (f : CapQ → CapQ) (k : Nat) (h : Rising s.ev.queues) :
    capQ (updCapQ s q f) k = if k = q then f (capQ s q) else capQ s k :=
  tget_tupd _ _ _ _ _ h
theorem mon_updMon_self (m : Nat) (f : Mon → Mon) (k : Nat) (h : Rising s.ev.mons) :
    mon (updMon s m f) k = if k = m then f (mon s m) else mon s k :=
  tget_tupd _ _ _ _ _ h

end Sys2Proof.Machine
end

