-- ==== Sys2Proof/WellFormed.lean ====
section
/-! DEFINITION. Which commands are well formed: the ranges of the operands whose types are wider than the hardware's
fields. Each check has its name, and an ill-formed command for it stands in the tests. -/
namespace Sys2Proof

/-- A CXL.mem tag has 16 bits and a fabric cycle of a beat 6 (R158, R162, R399). -/
def requestOk (tag cycle : Nat) : Bool := decide (tag < 65536) && decide (cycle < 64)

/-- A host address is that of a line (R158, R399). -/
def hpaOk (hpa : BitVec 64) : Bool := hpa.toNat % 64 = 0

/-- A page number has 40 bits (R113). -/
def pageOk (page : Nat) : Bool := decide (page < 2 ^ 40)

/-- A line index has 6 bits (R113). -/
def lineOk (line : Nat) : Bool := decide (line < 64)

/-- An access to a BAR moves 1 to 64 bytes and lies in the largest of them (R402, R403); what else R403 asks is checked
by the access itself. -/
def accessOk (off size : Nat) : Bool := decide (1 ≤ size) && decide (size ≤ 64) && decide (off + size ≤ 2 ^ 27)

/-- A write of a configuration register is 4 or 8 bytes, aligned to its size (R484). -/
def shadowOk (off size : Nat) : Bool := (size = 4 || size = 8) && off % size = 0

/-- A device's SPDM nonce, a mailbox opcode and a log number fit their fields. -/
def opcodeOk (op : Nat) : Bool := decide (op < 65536)

/-- The operands of a command lie in the ranges of their fields. -/
def Instr.wf : Instr → Bool
  | .memRd hpa tag cycle => hpaOk hpa && requestOk tag cycle
  | .memSpecRd hpa tag => hpaOk hpa && requestOk tag 0
  | .memInv tag => requestOk tag 0
  | .memWr hpa tag cycle _ _ _ => hpaOk hpa && requestOk tag cycle
  | .memWrPtl hpa tag cycle _ _ _ => hpaOk hpa && requestOk tag cycle
  | .cxlMemUnsupported _ tag _ => requestOk tag 0
  | .dataResponse tag cycle => requestOk tag cycle
  | .fillComplete page line _ _ => pageOk page && lineOk line
  | .fillRetry page line => pageOk page && lineOk line
  | .drainStart page _ => pageOk page
  | .drainVerified page _ => pageOk page
  | .bisqueRelocation page => pageOk page
  | .restamp page => pageOk page
  | .refresh page => pageOk page
  | .rangeActionPoint _ page => pageOk page
  | .registerRead _ _ off size => accessOk off size
  | .registerWrite _ _ off size _ => accessOk off size
  | .shadowWrite off size _ => shadowOk off size
  | .cxlMailboxUnsupported op => opcodeOk op
  | _ => true

end Sys2Proof
end

