-- ==== Sys2Proof/Tests/Slice0.lean ====
section
/-! SUPPORT. Tests by evaluation: an ill-formed command for each check, worked values of the spec, and for every statement
with hypotheses a state and operands that meet the hypotheses of each of its clauses. -/
namespace Sys2Proof.Tests
set_option Elab.async false
open Sys2Proof.Machine Safety

/-! ### Ill-formed commands -/

theorem test_request_ill : requestOk 65536 0 = false ∧ requestOk 0 64 = false ∧ Instr.wf (.memRd 0 65536 0) = false := by decide +kernel
theorem test_hpa_ill : hpaOk 32#64 = false ∧ Instr.wf (.memSpecRd 32#64 0) = false := by decide +kernel
theorem test_page_ill : pageOk (2 ^ 40) = false ∧ Instr.wf (.refresh (2 ^ 40)) = false := by decide +kernel
theorem test_line_ill : lineOk 64 = false ∧ Instr.wf (.fillRetry 0 64) = false := by decide +kernel
theorem test_access_ill : accessOk 0 0 = false ∧ accessOk 0 65 = false ∧ Instr.wf (.registerRead 0 0 (2 ^ 27) 8) = false := by decide +kernel
theorem test_shadow_ill : shadowOk 4 8 = false ∧ shadowOk 0 2 = false ∧ Instr.wf (.shadowWrite 4 8 0) = false := by decide +kernel
theorem test_opcode_ill : opcodeOk 65536 = false ∧ Instr.wf (.cxlMailboxUnsupported 65536) = false := by decide +kernel

/-- The table gives no row any bits, so no word spells a command. -/
theorem test_no_words : decodeTableWord 8 0 = none ∧ decodeTableWord 16 0xFFFF = none ∧ State.reset.withFetchWord 8 0 = State.reset := by
  decide +kernel

/-! ### A device that runs -/

/-- Startup done, the host link active with a credit of each kind, the binding table locked, keep store in service. -/
def up : State :=
  { pwr := { inReset := false, step := 12 }, clk := { beat := 2 ^ 33 }
    hl := { state := .active, mboxReady := true }, hq := { creditsOn := true, rdCredits := 1, wrCredits := 1 }
    pp := { lock := true }, kp := { pri := .serving, mir := .serving, priSize := 24, mirSize := 24, formatted := true }
    mp := { capGib := 1, pop := [0], mapRanks := [0], mapNr := 1, mapN := 8, mapBlks := 1, treeN := 8, treeBlks := 1, dirtyMax := 64
            regions := [(0, { valid := true, size := 1, ready := true })] }
    sag := { dirtyLimit := 65536 }, ig := { domains := [(0, { present := true })] } }

/-- The state that a command leaves. -/
def after (c : Instr) (s : State) : State := match exec c s with | .next t => t | _ => s

def asleep : State := { up with pwr := { up.pwr with state := .sleep } }
def deep : State := { up with pwr := { up.pwr with state := .deepSleep } }
def dark : State := { up with pwr := { up.pwr with supplies := false, state := .off } }
def starting (k : Nat) : State := { up with pwr := { up.pwr with step := k } }

theorem test_power_on_resets : dark.pwr.supplies = false ∧ (after (.powerOn 2 true) dark).clk.beat = 0 ∧
    (after (.powerOn 2 true) dark).pwr.strapPos = 2 := by decide +kernel
theorem test_reset_pulse : up.pwr.supplies = true ∧ (after (.resetNAssert 10000) up).pwr.inReset = true ∧
    (after (.resetNAssert 999) up).pwr.inReset = false := by decide +kernel
theorem test_release_starts : State.reset.pwr.supplies = true ∧ State.reset.pwr.inReset = true ∧
    (after .resetNRelease State.reset).pwr.step = 1 := by decide +kernel
theorem test_brown_out_records : (after (.brownOut 2) up).pwr.brownOut = 4#3 ∧ (after (.suppliesUpUnreset true) dark).pwr.step = 1 := by
  decide +kernel

/-- Every clause about the calendar, the backup domain and the references is met somewhere. -/
theorem test_clock_clauses :
    (up.clk.subst = false ∧ up.clk.holdTicks = 0 ∧ up.clk.subsec < 32767) ∧
    (let s := { up with clk := { up.clk with subsec := 32767, seconds := 2 ^ 40 - 1 } }
     s.clk.subst = false ∧ s.clk.holdTicks = 0 ∧ (after .calendarTick s).clk.seconds = 0 ∧ (after .calendarTick s).clk.subsec = 0) ∧
    (let s := { up with clk := { up.clk with holdTicks := 1 } }
     s.clk.subst = false ∧ 0 < s.clk.holdTicks ∧ (after .calendarTick s).clk.subsec = 0) ∧
    (let s := { up with clk := { up.clk with trimTicks := 2 ^ 20, trim := -3 } }
     2 ^ 20 ≤ s.clk.trimTicks ∧ s.clk.trim < 0 ∧ (after .trimApply s).clk.holdTicks = 3) ∧
    (let s := { up with clk := { up.clk with trimTicks := 2 ^ 20, trim := 5, subsec := 32766 } }
     2 ^ 20 ≤ s.clk.trimTicks ∧ 0 ≤ s.clk.trim ∧ s.clk.subsec < 32768 ∧ (after .trimApply s).clk.subsec = 3 ∧
     (after .trimApply s).clk.seconds = 1) := by decide +kernel
theorem test_backup_clauses :
    (after (.backupSupplyLow 1799) { up with clk := { up.clk with cont := true } }).clk.cont = false ∧
    beatRuns dark = false ∧ (after (.oscillatorStop 2000) { dark with clk := { dark.clk with cont := true } }).clk.cont = false ∧
    beatRuns up = true ∧ up.clk.subst = false ∧ (after .crystalStop up).clk.xtalFault = true ∧
    (after (.crystalResume 32768) { up with clk := { up.clk with subst := true } }).clk.subst = false := by decide +kernel
theorem test_reference_clauses :
    (let s := { up with clk := { up.clk with refLock := 0xF } }
     clocked s = true ∧ s.clk.refLock.getLsbD 0 = true ∧ s.clk.fabricRef = 0 ∧ (after (.referenceFailure 0) s).clk.fabricRef = 1 ∧
     (after (.referenceFailure 0) s).clk.refFault = 1#4) ∧
    (let s := { up with clk := { up.clk with refLock := 0xE, fabricRef := 1 } }
     clocked s = true ∧ s.clk.refLock.getLsbD s.clk.fabricRef = true ∧ (after (.referenceReturn 0) s).clk.refLock = 0xF#4) := by decide +kernel

/-! ### Power states -/

theorem test_entry_clauses :
    (let s := { up with live := [(58, 0)] }
     awake s = true ∧ s.pwr.state = .run ∧ s.pwr.step = 12 ∧ s.pwr.entering = false ∧ workRuns s = false ∧
     s.pwr.quietSince + idleTimer s ≤ s.clk.beat ∧ (after .idleEntry s).pwr.state = .idle) ∧
    (let s := { up with live := [(58, 0), (59, 2 ^ 32)], pwr := { up.pwr with state := .idle } }
     awake s = true ∧ s.pwr.entering = false ∧ sleepFits s = true ∧ agreedFor s 2 (sleepTimed s || askedFor s 2) = true ∧
     (after .sleepEntry s).pwr.state = .sleep) ∧
    (up.pwr.supplies = true ∧ up.pwr.breath = none ∧ (after .offEntry up).pwr.state = .off) ∧
    (let s := { up with pwr := { up.pwr with breath := some {} } }
     s.pwr.supplies = true ∧ s.pwr.breath = some {} ∧ (after .offEntry s).pwr.breath = none) ∧
    (deep.pwr.state = .deepSleep ∧ (after (.aonSupplyDip 775) deep).pwr.aonDip = true) ∧
    (dark.pwr.state = .off ∧ (after (.wakeAssert 100) dark).clk.wakeLatch = true) := by decide +kernel
theorem test_wake_clauses :
    (asleep.pwr.supplies = true ∧ asleep.pwr.inReset = false ∧ asleep.pwr.state = .sleep) ∧
    { asleep with ev := { asleep.ev with wakePending := some 4 } }.ev.wakePending.isSome = true ∧
    { asleep with pwr := { asleep.pwr with pwrfail := true } }.pwr.pwrfail = true ∧
    (after (.sleepWake .hostLink) asleep).pwr.state = .run ∧ (after (.wakeAssert 1) asleep).pwr.wakeSrc = 2 ∧
    (deep.pwr.supplies = true ∧ deep.pwr.inReset = false ∧ deepWakes deep .hostLink = true) := by decide +kernel
theorem test_deep_sleep_clauses :
    (let s := { asleep with live := [(58, 0), (59, 2 ^ 33)] }
     deepFits s = true ∧ agreedFor s 3 (deepTimed s || askedFor s 3) = true ∧ (after .deepSleepEntry s).pwr.entering = true) ∧
    (agreedFor asleep 3 (deepTimed asleep || askedFor asleep 3) = false) ∧
    (up.pwr.state ≠ .sleep ∧ up.pwr.entering = false) ∧
    (let s := { up with pwr := { up.pwr with entering := true, pwrfail := true } }
     s.pwr.state ≠ .sleep ∧ s.pwr.entering = true ∧ deepFits s = false) ∧
    (let s := { up with pwr := { up.pwr with entering := true, standing := true, cause := 3 } }
     s.pwr.entering = true ∧ deepFits s = true ∧ writtenBack s = true ∧ (after .deepSleepEntry s).pwr.state = .deepSleep) := by decide +kernel
theorem test_beat_clauses :
    clocked dark = false ∧ (awake up = true ∧ 2 ≤ up.pwr.step) ∧
    (let s := { asleep with pwr := { asleep.pwr with pwrfail := true } }; clocked s = true ∧ s.pwr.state = .sleep ∧ s.pwr.pwrfail = true) ∧
    (clocked asleep = true ∧ asleep.pwr.pwrfail = false ∧ asleep.ev.wakePending = none ∧ asleep.th.sampled = none) ∧
    (beatClock { fabricAcc := 15624 }).beat = 1 := by decide +kernel
theorem starts (k : Nat) : StartsAt (starting k) k := ⟨rfl, rfl, rfl, rfl, rfl⟩
theorem test_startup_clauses :
    (let s := starting 1
     StartsAt s 1 ∧ s.clk.refPresent ≠ 0#4 ∧ s.pwr.strapHalt = false ∧ (after (.startupStepEnd {}) s).pwr.step = 2) ∧
    (let s := { starting 1 with pwr := { (starting 1).pwr with strapHalt := true } }
     StartsAt s 1 ∧ s.pwr.strapHalt = true ∧ (after (.startupStepEnd {}) s).pwr.halted = true) ∧
    (let s := { starting 1 with clk := { up.clk with refPresent := 0 } }; s.pwr.step = 1 ∧ s.clk.refPresent = 0#4) ∧
    dark.pwr.supplies = false :=
  ⟨⟨starts 1, by decide +kernel⟩, ⟨⟨rfl, rfl, rfl, rfl, rfl⟩, by decide +kernel⟩, by decide +kernel⟩
theorem test_startup_middle : (∀ k, StartsAt (starting k) k ∧ (starting k).pwr.limited = false) ∧
    (after (.startupStepEnd {}) { starting 2 with clk := { up.clk with wakeLatch := true } }).pwr.wakeSrc = 6 ∧
    (after (.startupStepEnd { badChannels := [17] }) (starting 3)).wr.chUsed = 2#8 ∧
    (after (.startupStepEnd { badChannels := [17] }) { starting 3 with wr := { up.wr with chUsed := 2 } }).pwr.stopped = true ∧
    (after (.startupStepEnd { priSize := 0, mirSize := 0 }) (starting 4)).pwr.step = 6 ∧
    (after (.startupStepEnd { priSize := 16, mirSize := 16 }) { starting 4 with kp := {} }).pwr.firstStart = true ∧
    (after (.startupStepEnd {}) (starting 6)).pwr.limited = true ∧ (after (.startupStepEnd {}) (starting 8)).pwr.consumedWritten = true :=
  ⟨fun k => ⟨starts k, rfl⟩, by decide +kernel⟩
/-! ### Events, recorder, capture queues -/

def spent : State := { up with ev := { up.ev with buckets := [(0x20, { tokens := 0 })] } }
def frozen : State := { up with ev := { up.ev with frozen := true, frozenCount := 7 } }
def filled (n : Nat) : State := { up with ev := { up.ev with queues := [(3, { count := n, prod := n, timeout := 10 })] } }

theorem test_event_clauses :
    awake up = true ∧
    (evClass 0x20 = some 0 ∧ (bucket spent 0x20).tokens = 0 ∧ (after (.eventRaise 0x20 0xFF 1 2 3 4) spent).ev.suppressed = 1) ∧
    (0 < (bucket up 0x20).tokens ∧ up.ev.intake = [] ∧ up.ev.thisBeat < 16 ∧ up.ev.frozen = false ∧
      (after (.eventRaise 0x20 0xFF 1 2 3 4) up).ev.head = 1) ∧
    (let s := { up with ev := { up.ev with inCycle := some [] } }
     s.ev.inCycle = some [] ∧ up.ev.inCycle = none ∧
     (after (.eventRaise 0x20 0xFF 1 2 3 4) s).ev.inCycle.map (·.map (·.code)) = some [0x20]) ∧
    (evClass 0x42 = some 4 ∧ frozen.ev.frozen = true ∧ (after (.eventRaise 0x20 0xFF 1 2 3 4) frozen).ev.frozenCount = 8) := by
  decide +kernel
theorem test_timer_clauses :
    (evClass 0x20 = some 0 ∧ 0 < (bucket spent 0x20).rate ∧
      (bucket spent 0x20).last + 2 ^ 24 / (bucket spent 0x20).rate ≤ spent.clk.beat ∧
      (bucket (after (.tokenRefill 0x20) spent) 0x20).tokens = 1) ∧
    (frozen.ev.frozen = true ∧ frozen.ev.freezeAt + 2 ^ 28 ≤ frozen.clk.beat ∧ (after .freezeTimeout frozen).ev.frozen = false ∧
      (after .freezeTimeout frozen).ev.head = 1) ∧
    (let s := { up with pwr := { up.pwr with alertUntil := some (2 ^ 33) } }
     s.pwr.alertUntil = some (2 ^ 33) ∧ 2 ^ 33 ≤ s.clk.beat ∧ (after .alertNExpire s).pwr.alertUntil = none) ∧
    (let s := { up with ev := { up.ev with mons := [(0, { window := 16, windowAt := 2 ^ 33 - 15, ports := [1, 2, 3, 4] })] } }
     awake s = true ∧ (mon s 0).window ≠ 0 ∧ (mon s 0).windowAt + (mon s 0).window ≤ s.clk.beat + 1 ∧
     (mon (after (.bandwidthWindow 0) s) 0).bw = [1, 2, 3, 4]) ∧
    (let s := { up with clk := { up.clk with beat := 2 ^ 20 - 1 }, ev := { up.ev with dumpOn := true } }
     awake s = true ∧ s.ev.dumpOn = true ∧ s.ev.dumpNext = none ∧ (s.clk.beat + 1) % 2 ^ s.ev.dumpK = 0 ∧
     s.ev.lastDump ≠ some (s.clk.beat + 1) ∧ (after .counterSnapshot s).ev.dumps = 1) := by decide +kernel
theorem test_packet_clauses :
    (let s := filled 1
     (capQ s 3).count ≠ 0 ∧ (capQ s 3).timeout ≠ 0 ∧ (capQ s 3).first + 2 ^ (capQ s 3).timeout ≤ s.clk.beat ∧ awake s = true ∧
     (capQ (after (.captureFlush 3) s) 3).prod = 4096 ∧ (capQ (after (.packetCloseTimeout 3) s) 3).count = 0) ∧
    (let s := { up with ev := { up.ev with queues := [(3, { prod := 8192, rel := 4096, opened := false })] } }
     4096 * ((capQ s 3).prod / 4096 - 1) ≤ (capQ s 3).rel ∧ (capQ (after (.packetOpen 3) s) 3).opened = true) := by decide +kernel

/-! ### Keep store, tree, stamp slots -/

theorem test_keep_clauses :
    (up.pwr.supplies = true ∧ up.pwr.inReset = false ∧ up.kp.formatted = true ∧ keepKey 1 = true ∧ keepUp up = true ∧
      up.kp.compacting = false ∧ (after (.keepAppend 1 [5] true true) up).kp.seq = 1 ∧
      keepGet (after (.keepAppend 1 [5] true true) up) 1 = some [5]) ∧
    keepKey 0 = false ∧ keepKey 0x20000 = false ∧
    (let s := { up with kp := { up.kp with pri := .failed, mir := .absent } }; keepUp s = false) ∧
    (up.kp.mir.holds = true ∧ up.kp.pri.holds = true ∧ (after (.keepPartFail true) up).kp.mir = .failed) ∧
    (let s := { up with kp := { up.kp with compacting := true, priSize := 16, mirSize := 16, gen := 1 } }
     s.kp.compacting = true ∧ keepUp s = true ∧ s.kp.pendingAppends = [] ∧ { s.kp with port := [] }.packed.fresh ≠ [] ∧
     (after .keepCompaction s).kp.gen = 2) ∧
    (let s := { up with kp := { up.kp with mir := .resyncing } }
     s.kp.mir = .resyncing ∧ (after (.keepResyncDone true) s).kp.mir = .serving) ∧
    (let s := { up with kp := { up.kp with pri := .resyncing } }; s.kp.pri = .resyncing) := by decide +kernel
theorem test_tree_clauses :
    (let s := { up with ig := { up.ig with nodesDue := [3] } }
     awake s = true ∧ 3 ∈ s.ig.nodesDue ∧ 3 ∉ s.ig.heldNodes ∧ s.ig.heldNodes.length < 64 ∧
     (after (.treeNodeWrite 3) s).ig.heldNodes = [3]) ∧
    (let s := { up with ig := { up.ig with heldNodes := [3] } }
     3 ∈ s.ig.heldNodes ∧ tget 0 (after (.nodeWriteVerified 3) s).ig.levelB 3 = 1 ∧ (after (.nodeWriteVerified 3) s).ig.dirtyB = [0]) ∧
    (let s := { up with ig := { up.ig with dirtyB := [2] } }; 2 ∈ s.ig.dirtyB ∧ (after (.bImageWrite 2) s).ig.dirtyB = []) ∧
    (let s := { up with ig := { up.ig with slots := [(9, some { stamps := [4], dirty := true })] } }
     stampSlot s 9 = some { stamps := [4], dirty := true } ∧
     tget none (after (.stampSlotWriteBack 9) s).ig.mediaSlots 9 = some [4]) ∧
    (let s := { up with ig := { up.ig with ceilPending := true } }
     s.ig.ceilPending = true ∧ keepUp s = true ∧ (after .stampCeilDurable s).ig.stampCeil = 2 ^ 40) := by decide +kernel

/-! ### SRAM, cores, temperatures -/

def badRow : State := { up with ecc := { up.ecc with sram := [(17, { due := [5], rowsUsed := 63 })] } }
def badCh : State := { up with ecc := { up.ecc with sram := [(17, { due := [5], rowsUsed := 64 })] } }
theorem test_sram_clauses :
    (awake up = true ∧ (sramCh (after (.sramEccError 17 5 false (.arena 0)) up) 17).ce = 1) ∧
    (5 ∈ (sramCh badRow 17).due ∧ (sramCh badRow 17).rowsUsed < 64 ∧ (sramCh badRow 17).failed = false ∧ badRow.wr.rowsUsed + 1 < 8192 ∧
      (sramCh (after (.sramRowRepair 17 5) badRow) 17).rowsUsed = 64) ∧
    (awake badCh = true ∧ channelFails badCh 17 .noSpareRow = true ∧ badCh.wr.chUsed.getLsbD (sramDie 17) = false ∧
      (sramCh badCh (16 * sramDie 17 + 15)).failed = false ∧ (after (.sramChannelFail 17 .noSpareRow) badCh).wr.chUsed = 2#8) ∧
    (let s := { badCh with wr := { badCh.wr with chUsed := 2 } }
     channelFails s 17 .noSpareRow = true ∧ s.wr.chUsed.getLsbD (sramDie 17) = true ∧
     (after (.sramChannelFail 17 .noSpareRow) s).pwr.disabled = true) := by decide +kernel
theorem test_core_clauses :
    (awake up = true ∧ coreLive up 3 = true ∧ (after (.coreHeartbeatTimeout 3) up).wr.failed = 8#18 ∧
      (after (.coreHeartbeatTimeout 3) up).wr.failing = [(3, 16)]) ∧
    (let s := after (.coreHeartbeatTimeout 3) up
     (s.wr.failing.filter fun x => x.2 = 16) ≠ [] ∧ coreLive s 16 = true ∧ roleCore (after (.coreFailoverDone 16) s) 3 = some 16) := by
  decide +kernel
/-- Channels that give no reading read T4, so their zone reaches level 4 (R552). -/
theorem test_thermal_clauses :
    keepsHouse up = true ∧
    (let x : Readings := {}
     let s := after (.housekeepingRound x) { up with th := { up.th with zones := [(2, { floorNext := 1 })] } }
     keepsHouse s = true ∧ s.th.sampled = some x ∧ (zone s 2).floor = 1 ∧ (zone s 2).level = 0 ∧
     (zone (after .muteLevelLive s) 2).level = 4) ∧
    up.th.sampled = none ∧ (after (.ondieThermtrip 0 2000) up).pwr.tripOnDie = true := by decide +kernel
theorem test_invariant_met : Inv up :=
  ⟨by unfold SramWf; decide +kernel, (by intro x hx; cases hx), by unfold ZonesWf; decide +kernel⟩
/-! ### Host requests, reads, fills -/

/-- Rank 0 with its 18 links in service; its page 0 has the entry, cached. -/
def served : State := { up with ln := { up.ln with links := (List.range 18).map fun n => (n, { state := .active, inService := true }) } }
def mapped (e : MapEntry) : State :=
  { served with mp := { served.mp with cache := [(0, some { entries := e :: List.replicate 7 {} })] }, ig := { served.ig with stampCeil := 2 ^ 40 } }
def lines (l : List (Nat × SagLine)) (s : State) : State :=
  { s with sag := { s.sag with lines := l.map fun x => (x.1, some x.2) } }
def reading (st : RdStage) (s : State) : State := { s with hq := { s.hq with reads := [{ tag := 5, page := 0, line := 1, stage := st }] } }
def dirty : SagLine := { mask := BitVec.allOnes 64, data := 7, gen := 2, line := 1 }
def inBisque : MapEntry := { state := .bisqueWhole, bisqueHome := 0, mask := 2 }

theorem test_request_clauses :
    (memOpen up = true ∧ 0 < up.hq.rdCredits ∧ 0 < up.hq.wrCredits ∧ (after (.memRd 64 5 3) up).hq.rdCredits = 0 ∧
      (after (.memRd 64 5 3) up).hq.queue.map (·.arrival) = [2 ^ 39 + 3]) ∧
    (after (.memInv 9) up).hq.sent = [.cmp 9] ∧ (after (.cxlMemUnsupported true 9 1) up).hq.sent = [.memData 9 0 true] ∧
    memOpen { up with hl := { up.hl with state := .retraining } } = false := by decide +kernel
/-- What a read of line 1 of page 0 took at its lookup in `s`. -/
def lookedUp (tree : Bool) (s : State) : State :=
  let e := entryNow s 0
  { s with hq := { s.hq with reads := s.hq.reads.map fun r => { r with
    tree := tree, taken := e, img := mediaImg s 0 1, expect := expectStamp s e tree 1, stale := slotStale s e tree } } }
def nine : LineRec := { data := 9, stamp := 1, ident := 0, line := 1, bisque := true }
def sensing : State :=
  let s := reading (.sense 0 true) (mapped { inBisque with stamp := 1 })
  lookedUp false { s with mp := { s.mp with media := [(1, .line nine)] } }
theorem test_read_clauses :
    (let r := sensing.hq.reads.headD {}
     sensing.hq.reads.find? (fun r => r.tag = 5) = some r ∧ r.stage = .sense 0 true ∧ notSensed sensing r 0 true = false ∧
     slotLost sensing r.taken r.tree [] = false ∧ checkLine sensing r.aim r.page r.line (.bits 0) = .good nine 0 ∧ 0 < corrBits sensing ∧
     (after (.lineDecodeDone (.read 5) (.bits 0) []) sensing).hq.reads.map (·.stage) = [.done 9 false]) ∧
    (let s := updLink sensing 0 fun l => { l with waiting := [{ slot := 0, line := lineName 0 1 true }] }
     let r := s.hq.reads.headD {}
     r.stage = .sense 0 true ∧ notSensed s r 0 true = true ∧ (after (.lineDecodeDone (.read 5) (.bits 0) []) s).hq.reads = [r]) ∧
    (let s := reading (.done 9 false) up
     s.hq.reads.find? (fun r => r.tag = 5) = some { tag := 5, page := 0, line := 1, stage := .done 9 false } ∧ s.hl.state = .active ∧
     (after (.dataResponse 5 1) s).hq.sent = [.memData 5 9 false]) ∧
    (∀ r ∈ (reading (.waitFill 0 0 false) up).hq.reads, r.stage = .waitFill 0 0 false) := by decide +kernel
/-- A tree-mode read takes its expected stamp from the stamp slot, which is then cached; a slot line that fails, or a slot
under another PAGE_STAMP, gives poison (R363, R380, R381). -/
theorem test_tree_read_clauses :
    (let s := reading (.sense 0 true) (mapped { inBisque with stamp := 4 })
     let s := lookedUp true { s with
       mp := { s.mp with media := [(1, .line nine)] }
       ig := { s.ig with mediaSlots := [(0, some (0 :: List.replicate 63 1))], slotTags := [(0, 4)] } }
     let r := s.hq.reads.headD {}
     slotLost s r.taken true [] = false ∧ needsSlot r.taken = true ∧ slotGood s r.taken = true ∧ notSensed s r 0 true = false ∧
     checkLine s r.aim 0 1 (.bits 0) = .good nine 0 ∧
     (let t := after (.lineDecodeDone (.read 5) (.bits 0) []) s
      t.hq.reads.map (·.stage) = [.done 9 false] ∧ (stampSlot t 0).map (·.dirty) = some false) ∧
     slotLost s r.taken true [(18, .bits 7)] = true ∧
     (after (.lineDecodeDone (.read 5) (.bits 0) [(18, .bits 7)]) s).hq.reads.map (·.stage) = [.done 0 true] ∧
     checkLine s (aimAt { s with ig := { s.ig with slotTags := [(0, 3)] } } r.taken true 0 1) 0 1 (.bits 0) = .tagFail true 0) := by
  decide +kernel
/-- Dirty recovery rebuilds a slot that fails from the stamps of the page's lines (R383). -/
theorem test_slot_rebuilt :
    (let e := { inBisque with stamp := 4 }
     let s := { served with
       mp := { served.mp with
         leaves := [(0, some { e0 := e, stamp := 1 }), (1, some { e0 := e, stamp := 1 })]
         regions := [(0, { valid := true, size := 1, ready := true, tree := true })]
         media := [(1, .line { data := 9, stamp := 6, ident := 0, line := 1, bisque := true })] } }
     let t := rebuildSlots s
     slotStale s (mediaEntry s 0) true = true ∧ (entryNow t 0).stamp = 6 ∧
     (slotStamps t 0).take 3 = [0, 6, 0]) := by decide +kernel
theorem test_merge_bytes : mergeBytes 0x1122#512 0x3344#512 2#64 = 0x3322#512 := by decide +kernel
theorem test_fill_clauses :
    (let s := lines [(1, { dirty with mask := 2, data := 0x3344, fill := true })] (mapped {})
     sagLine s 0 1 = some { dirty with mask := 2, data := 0x3344, fill := true } ∧ entry? (fetchSeg s 0) 0 = some {} ∧
     lineSource {} 1 false = .zeros ∧
     ((sagLine (after (.fillComplete 0 1 (.bits 0) []) s) 0 1).map fun l => (l.data, l.fill, l.filled)) = some (0x3300, false, true)) ∧
    (let l : SagLine := { dirty with mask := 2, data := 0x3344, fill := true }
     let e : MapEntry := { inBisque with stamp := 1 }
     let s := lines [(1, l)] (mapped e)
     let s := { s with mp := { s.mp with media := [(1, .line { nine with data := 0x1122 })] } }
     let u := fetchSeg s 0
     sagLine s 0 1 = some l ∧ l.fill = true ∧ l.retry = false ∧ entry? u 0 = some e ∧ e.secure = false ∧
     lineSource e 1 false = .media 0 true ∧ parked u (slotRank 0) = false ∧ lostLinks u (slotRank 0) < 3 ∧
     (accessLine u 0 1 0 txFill (.bits 0) []).2 = .data 0x1122 false ∧
     ((sagLine (after (.fillComplete 0 1 (.bits 0) []) s) 0 1).map fun l => (l.data, l.fill)) = some (0x3322, false)) ∧
    (let s := reading (.waitFill 2 0x3344 false) up
     ((wakeReads s 0 1 (some 0x1122)).hq.reads.map (·.stage)) = [.done 0x3322 false]) ∧
    (let s := lines [(1, { dirty with fill := true, retry := true })] up
     sagLine s 0 1 = some { dirty with fill := true, retry := true } ∧
     sagLine (after (.fillRetry 0 1) s) 0 1 = some { dirty with fill := true, retry := false }) ∧
    sagLine up 0 1 = none ∧ dirty.mask = BitVec.allOnes 64 := by decide +kernel

/-! ### Drains -/

def draining : State :=
  let s := lines [(1, { dirty with drain := true, held := some 2 })] (mapped inBisque)
  { s with sag := { s.sag with drains := [{ page := 0, group := 1, lines := [(1, 2, 1, { data := 7, stamp := 1, line := 1, bisque := true })]
                                            fromEntry := inBisque }] } }
def lostLinksOf (k : Nat) (s : State) : State :=
  { s with ln := { s.ln with links := (List.range 18).map fun n => (n, { state := if n < k then .lost else .active }) }
           sag := { s.sag with holdStart := [(0, some 0)] } }
theorem test_drain_clauses :
    let s := lines [(1, dirty)] (mapped inBisque)
    drainHeld s 0 1 = false ∧ yieldsToDead s (groupLines s 0 1) = false ∧
    (inBisque.bisqueHome ≠ none40 ∧ (stripe (dropPage (fetchSeg s 0) 0) (slotBs inBisque.bisqueHome)).state ≠ .victim) ∧
    mapDirty s < s.mp.dirtyMax + 65536 ∧ mediaUp s = true ∧ groupLines s 0 1 = [(1, dirty)] ∧ groupLines s 0 0 = [] ∧
    entry? (dropPage (fetchSeg s 0) 0) 0 = some inBisque ∧
    parked (dropPage (fetchSeg s 0) 0) (targetRank (dropPage (fetchSeg s 0) 0) 0 inBisque) = false ∧
    lostLinks (dropPage (fetchSeg s 0) 0) (targetRank (dropPage (fetchSeg s 0) 0) 0 inBisque) < 3 ∧
    groupLost (dropPage (fetchSeg s 0) 0) inBisque 0 1 [(1, dirty)] = [] ∧
    stampRoom (dropPage (fetchSeg s 0) 0) (stampTop (dropPage (fetchSeg s 0) 0) 0 inBisque + 1 + 1) = true ∧
    ((drainSlot (dropPage (fetchSeg s 0) 0) 0 inBisque).map fun x => (x.1, x.2.1)) = some (0, false) ∧
    (after (.drainStart 0 1) s).sag.drains.map (·.slot) = [0] := by decide +kernel
theorem test_drained_clauses :
    (draining.sag.drains.find? (fun d => d.page = 0 && d.group = 1)).isSome = true ∧
    entry? (fetchSeg { draining with sag := { draining.sag with drains := [] } } 0) 0 = some inBisque ∧
    (∀ d ∈ draining.sag.drains, (∀ x ∈ d.lines, x.1 < 64) ∧ (d.lines.map (·.1)).Nodup) ∧
    (entry? (after (.drainVerified 0 1) draining) 0).map (·.stamp) = some 1 ∧
    (after (.drainVerified 0 1) draining).sag.drains = [] ∧ mediaImg (after (.drainVerified 0 1) draining) 0 1 =
      .line { data := 7, stamp := 1, line := 1, bisque := true } ∧
    (({} : MapEntry).state = .unmapped ∧ inBisque.state = .bisqueWhole) := by decide +kernel
theorem test_hold_clauses :
    (tget none (lostLinksOf 2 up).sag.holdStart 0 = some 0 ∧ 0 + 65536 ≤ up.clk.beat ∧ lostLinks (lostLinksOf 2 up) 0 < 3 ∧
      tget none (after (.writeDiscardHoldEnd 0) (lostLinksOf 2 up)).sag.holdStart 0 = none) ∧
    (3 ≤ lostLinks (lostLinksOf 3 up) 0 ∧ tget false (after (.writeDiscardHoldEnd 0) (lostLinksOf 3 up)).sag.holdOver 0 = true) ∧
    { up with clk := { up.clk with beat := 65535 } }.clk.beat < 0 + 65536 := by decide +kernel

/-! ### Map lines, rotation, swaps -/

def unclean : State :=
  { served with mp := { served.mp with cache := [(0, some { entries := List.replicate 8 {}, dirty := 2 })] } }
def copying : State := { up with mp := { up.mp with writeBacks := [(1, [0, 1], { stamp := 4 })] } }
def rotating (t : Rot) : State := { up with mp := { up.mp with rot := [(0, t)] } }
theorem test_map_line_clauses :
    dirtyOfSet up 0 = [] ∧ (mediaRuns unclean = true ∧ (roleCore unclean 10).isSome = true ∧ internalUsed unclean < 16384 ∧ dirtyOfSet unclean 0 = [1] ∧ gapHolds unclean (leafOfLine 1) = false ∧ leafTree unclean (leafOfLine 1) = false ∧
      unclean.mp.writeBacks = [] ∧ (after (.mapCleaningVisit 0) unclean).mp.writeBacks.map (·.1) = [1]) ∧
    copying.mp.writeBacks.find? (fun w => w.1 = 1 && 0 ∈ w.2.1) = some (1, [0, 1], { stamp := 4 }) ∧
    tget none (after (.mapWriteBackVerified 1 0) copying).mp.leaves 2 = some { stamp := 4 } := by decide +kernel
theorem test_rotation_clauses :
    (let s := rotating { writes := 64, twrites := 64 }
     mediaRuns s = true ∧ s.mp.writeBacks = [] ∧ s.ig.heldNodes = [] ∧ (rot (after (.gapMove 0 true) s) 0).tcopying = true ∧
     0 ∈ s.mp.mapRanks ∧ 64 ≤ (rot s 0).writes ∧ (rot s 0).copying = false ∧ 64 ≤ (rot s 0).twrites ∧ (rot s 0).tcopying = false ∧
     (rot (after (.gapMove 0 false) s) 0).copying = true) ∧
    (let s := rotating { copying := true, gap := 8, tcopying := true, tgap := 0 }
     (rot s 0).copying = true ∧ 0 < (rot s 0).gap ∧ (rot s 0).moves + 1 < 4096 ∧ (rot (after (.gapMoveVerified 0 false) s) 0).gap = 7 ∧
     (rot s 0).tcopying = true ∧ (rot s 0).tgap = 0 ∧ (rot s 0).tmoves + 1 < 4096 ∧
     (rot (after (.gapMoveVerified 0 true) s) 0).tstart = 1) := by decide +kernel
theorem test_swap_clauses :
    (let s := rotating { swapping := some (5119, 3) }
     (rot s 0).swapping = some (5119, 3) ∧ (rot (after (.mapStripeSwap 0 5119 3 true) s) 0).swaps = [(5119, 3)]) ∧
    (let s := { up with pl := { up.pl with stripes := [(3, { state := .blank }), (5119, { lineWrites := 2 ^ 41 })] } }
     swapDue s 5119 = true ∧ (rot s 0).swapping = none ∧ (rot s 0).swaps.length < 8 ∧ swapTarget s 3 = true ∧ (stripe s 3).state = .blank ∧
     bsState s 3 ≠ .system ∧ (stripe s 3).degraded = false ∧
     (rot (after (.mapStripeSwap 0 5119 3 false) s) 0).swapping = some (5119, 3)) ∧
    (let s := { rotating { swaps := List.replicate 8 (0, 0) } with pl := { up.pl with stripes := [(5119, { lineWrites := 2 ^ 41 })] } }
     swapDue s 5119 = true ∧ 8 ≤ (rot s 0).swaps.length ∧ (after (.mapStripeSwap 0 5119 3 false) s).ev.head = 1) := by decide +kernel
theorem test_entry_word : entryOfWord (MapEntry.mk .split 0xF0F1#64 (2 ^ 64 - 2) (2 ^ 40 - 1) 0x123456789A 5 25 14 4094 true false true false true).word
    = some (MapEntry.mk .split 0xF0F1#64 (2 ^ 64 - 2) (2 ^ 40 - 1) 0x123456789A 5 25 14 4094 true false true false true) ∧
    entryOfWord (BitVec.ofNat 256 (6 * 2 ^ 208)) = none := by decide +kernel
theorem test_stamp_window : fullStamp 5 (2 ^ 40 - 1) = 2 ^ 40 + 5 ∧ fullStamp (2 ^ 40 - 1) (2 ^ 40) = 2 ^ 40 - 1 := by decide +kernel
/-- The bins of the spec's table: 316 s is of bin 9, 317 s of bin 10. -/
theorem test_age_bins : ageBin 316 = 9 ∧ ageBin 317 = 10 ∧ ageBin 3162277661 = 38 ∧ ageBin (2 ^ 39) = 38 := by decide +kernel
theorem test_saggar_copies : saggarAddr 0 false / 64 % 120 = 8 ∧ saggarAddr 0 true / 64 % 120 = 24 := by decide +kernel
/-! ### Placement -/

/-- A rank whose system area leaves 240 stripes, with some stripes listed and the rank's placement state. -/
def placed (l : List (Nat × BsRec)) (p : RankPl) : State :=
  { served with mp := { served.mp with mapBlks := 5100 }, pl := { served.pl with stripes := l, ranks := [(0, p)] }
                ig := { served.ig with stampCeil := 2 ^ 40 } }
def withEntry (e : MapEntry) (s : State) : State :=
  { s with mp := { s.mp with cache := [(0, some { entries := e :: List.replicate 7 {} })] } }
def onMedia (l : List (Nat × LineRec)) (s : State) : State := { s with mp := { s.mp with media := l.map fun x => (x.1, .line x.2) } }
def cold : MapEntry := { state := .bisqueWhole, bisqueHome := 0, mask := 1, stamp := 1 }
def slot0 (e : MapEntry) : State :=
  onMedia [(0, { stamp := 1, bisque := true })] (withEntry e (placed [(0, { state := .bisque, bisque := true, wls := 1 })] {}))
theorem test_budget_clauses :
    (awake up = true ∧ (after .heatEpochAdvance { up with pl := { up.pl with heatEpoch := 2 ^ 64 - 1 } }).pl.heatEpoch = 0) ∧
    (let s := placed [] { budget := 3 }
     0 ∈ s.mp.pop ∧ 16 * bisqueUse (recount s 0) 0 < 15 * budgetStripes (recount s 0) 0 ∧
     2 * bisqueUse (recount s 0) 0 < budgetStripes (recount s 0) 0 ∧ (rankPl (after (.budgetAdjust 0) s) 0).budget = 2) ∧
    (let s := { placed [] { budget := 5 } with mp := { served.mp with mapBlks := 1 } }
     15 * budgetStripes (recount { s with pl := { s.pl with ranks := [] } } 0) 0 ≤
       16 * bisqueUse (recount { s with pl := { s.pl with ranks := [] } } 0) 0 ∧ (rankPl s 0).coldPassed < 1024 ∧
     2 * reclaimLow (recount s 0) ≤ freeGlaze (recount s 0) 0) := by decide +kernel
theorem test_budget_stays :
    let s := { placed ((List.range 420).map fun n => (n, { state := .bisque, bisque := true })) { budget := 1 } with
      mp := { served.mp with mapBlks := 1 } }
    16 * bisqueUse (recount s 0) 0 < 15 * budgetStripes (recount s 0) 0 ∧
    budgetStripes (recount s 0) 0 ≤ 2 * bisqueUse (recount s 0) 0 := by decide +kernel
theorem test_walk_clauses :
    (let s := slot0 cold
     let u := fetchSlots (updRank s 0 fun y => { y with walkAt := some (0, 0, 0) }) [0]
     mediaRuns s = true ∧ nextWalk s 0 = some (0, 0, 0) ∧ slotNo 0 0 0 = 0 ∧ (rankPl s 0).fireQueue.length < 3072 ∧
     slotValid u 0 true = some 0 ∧ entry? u 0 = some cold ∧ coldTest u 0 cold = true ∧
     decayedHeat u.pl.heatEpoch cold ≤ fireCold u ∧ 0 ∉ (rankPl u 0).fireQueue ∧
     0 ∉ (rankPl (updRank u 0 fun y => { y with coldPassed := y.coldPassed + 1 }) 0).fireQueue ∧
     (rankPl (after (.fireQueueWalk 0 0) s) 0).fireQueue = [0]) ∧
    (let e := { cold with pin := true }
     let s := slot0 e
     let u := fetchSlots (updRank s 0 fun y => { y with walkAt := some (0, 0, 0) }) [0]
     nextWalk s 0 = some (0, 0, 0) ∧ slotValid u 0 true = some 0 ∧ entry? u 0 = some e ∧ coldTest u 0 e = false ∧
     (rankPl (after (.fireQueueWalk 0 0) s) 0).fireQueue = []) := by
  decide +kernel
/-- Pages 0 to 2 in bisque, with a fire queue and a blank stripe. -/
def coldAt (slot : Nat) : MapEntry := { cold with bisqueHome := slot }
def queued (q : List Nat) : State :=
  let s := placed [(0, { state := .bisque, bisque := true, wls := 3 }), (5, { state := .blank })] { fireQueue := q }
  { s with mp := { s.mp with cache := [(0, some { entries := [coldAt 0, coldAt 3, coldAt 6] ++ List.replicate 5 {} })] } }
/-- Page 0 whole in glaze, in the first slot of a stripe's word line. -/
def glazed (bs wl : Nat) (s : State) : State :=
  onMedia ((List.range 64).map fun i => (64 * slotNo bs wl 0 + i, { stamp := 1, line := i }))
    (withEntry { state := .glaze, glazeHome := slotNo bs wl 0, stamp := 1 } s)
theorem test_host_firing :
    (let s := queued [0, 1, 2]
     let u := setQueue s 0 [0, 1, 2]
     let v := openStripe u 0 0
     mediaRuns s = true ∧ parked s 0 = false ∧ (rankPl s 0).fireQueue.filter (fun g => coldTest s g (entryNow s g)) = [0, 1, 2] ∧
     reclaimMin u ≤ freeGlaze u 0 ∧ (fireOrder u [0, 1, 2]).filter (pageFree u) = [0, 1, 2] ∧ openOf v 0 0 = some { bs := 5 } ∧
     (stripe v 5).wls < 65536 ∧ ((rankPl v 0).firings.any fun f => f.purpose = 0) = false ∧ rankShut v 0 0 = false ∧
     entry? (fetchSeg v 0) 0 = some (coldAt 0) ∧ stampRoom (fetchSeg v 0) (stampTop (fetchSeg v 0) 0 (coldAt 0) + 1) = true ∧
     (rankPl (after (.firingStart 0 0) s) 0).firings.map (fun f => (f.bs, f.pages.map (·.page))) = [(5, [0, 1, 2])]) ∧
    (let s := queued [0]
     let u := setQueue s 0 [0]
     let v := openStripe u 0 0
     (rankPl s 0).fireQueue.length < 3 ∧ (rankPl s 0).shortSince.getD 0 + 2 ^ fireWaitShift s ≤ s.clk.beat ∧
     (rankPl s 0).fireQueue.filter (fun g => coldTest s g (entryNow s g)) = [0] ∧ reclaimMin u ≤ freeGlaze u 0 ∧
     (fireOrder u [0]).filter (pageFree u) = [0] ∧ openOf v 0 0 = some { bs := 5 } ∧ rankShut v 0 0 = false ∧
     (rankPl (after (.fireWaitExpiry 0) s) 0).firings.map (fun f => f.pages.map (·.page)) = [[0]]) := by decide +kernel
theorem test_reclaim_firing :
    (let s := glazed 6 0 (placed [(5, { state := .blank }), (6, { state := .victim, valid := 1, wls := 1 })] { victim := some 6 })
     let u := fetchVictim s 0
     let v := openStripe u 0 2
     mediaRuns s = true ∧ evacuates s 0 = false ∧ victimPages u 0 = [0] ∧ copied u 0 = true ∧ openOf v 0 2 = some { bs := 5 } ∧
     (stripe v 5).wls < 65536 ∧ ((rankPl v 0).firings.any fun f => f.purpose = 2) = false ∧ rankShut v 0 2 = false ∧
     (entry? (fetchSeg v 0) 0).isSome = true ∧
     (rankPl (after (.firingStart 0 2) s) 0).firings.map (fun f => f.pages.map fun z => (z.page, z.isCopy)) = [[(0, true)]]) ∧
    (let s := placed [(6, { state := .victim })] { victim := some 6, evacs := [6] }
     mediaRuns s = true ∧ parked s 0 = false ∧ evacuates s 0 = true) := by decide +kernel
theorem test_firing_clauses :
    (let s := placed [] {}
     mediaRuns s = true ∧ parked s 0 = false ∧ (rankPl s 0).fireQueue.length < 3 ∧
     (rankPl s 0).shortSince.getD 0 + 2 ^ fireWaitShift s ≤ s.clk.beat) ∧
    parked { up with th := { up.th with parked := [0] } } 0 = true ∧
    (let s := placed [] {}
     freeGlaze (setQueue s 0 []) 0 < reclaimMin (setQueue { s with live := [(2, 0x0000FFFF00000000)] } 0 [])) ∧
    ((sagLine (lines [(1, dirty)] up) 0 1) = some dirty) ∧
    (let page : FirePage := { page := 0, slot := slotNo 5 0 0, stamp := 2, taken := cold, lines := [{ stamp := 2 }] }
     let s := withEntry cold (placed [(5, { state := .open })] { firings := [{ bs := 5, wl := 0, purpose := 0, pages := [page] }] })
     mediaUp s = true ∧ ((rankPl s 0).firings.find? (fun f => f.purpose = 0)).isSome = true ∧
     mediaImg (after (.wordLineVerified 0 0 []) s) (slotNo 5 0 0) 0 = .line { stamp := 2 } ∧
     (stripe (after (.wordLineVerified 0 0 []) s) 5).wls = 1 ∧
     (cacheSeg s (segNo 0)).isSome = true) := by decide +kernel
theorem test_guard_clauses :
    (let s := placed [(5, { state := .open, wls := 1025 })] { opens := [(0, { bs := 5, closing := true })] }
     openOf s 0 0 = some { bs := 5, closing := true } ∧ mediaUp s = true ∧ passDue s { bs := 5, closing := true } 0 = true ∧
     openOf s 0 1 = none) ∧
    (let s := placed [(5, { state := .open, wls := 2048 })] { opens := [(0, { bs := 5 })] }
     openOf s 0 0 = some { bs := 5 } ∧ passDue s { bs := 5 } 0 = true ∧ (({ bs := 5 } : OpenSt).guard 0).rebuilt = [] ∧
     (stripe s 5).wls ≠ 65536 ∧ ((openOf (after (.guardPassComplete 0 0 0) s) 0 0).map (·.passed)) = some [0]) ∧
    (let o : OpenSt := { bs := 5, g0 := { group := 0, added := [0] } }
     let s := glazed 5 0 (placed [(5, { state := .open, wls := 2048 })] { opens := [(0, o)] })
     let u := fetchSlots s [slotNo o.bs 0 0, slotNo o.bs 0 1, slotNo o.bs 0 2]
     openOf s 0 0 = some o ∧ mediaUp s = true ∧ passDue s o 0 = true ∧ (o.guard 0).group = 0 ∧ (o.guard 0).lost = false ∧
     (o.guard 0).added ≠ [] ∧ wordLinePages u o.bs 0 = [0] ∧
     (rankPl (after (.guardVerifyPass 0 0 0 [(0, 0)]) s) 0).refreshQueue = [0]) ∧
    ((guardAdd { bs := 5 } 1024).guard 1 = { group := 1, added := [1024] }) ∧ 1025 % 1024 ≠ 0 := by decide +kernel
theorem test_blanking_clauses :
    (let s := placed [(5, { cycles := 0 })] {}
     mediaRuns s = true ∧ parked s 0 = false ∧ 0 ∈ s.mp.pop ∧ (rankPl s 0).blankingBs = none ∧ (blankGlaze s 0).length < blankAhead s ∧
     (nextDirty s 0).isSome = true ∧ ((nextDirty s 0).map fun x => decide (x.2.cycles < 20000)) = some true ∧
     ((rankPl (after (.blankingStart 0) s) 0).blankingBs).isSome = true) ∧
    (let s := placed ((List.range 240).map fun n => (n / 15 * 5120 + n % 15, { cycles := 20000 })) {}
     nextDirty s 0 = some (0, { cycles := 20000 }) ∧ (stripe (after (.blankingStart 0) s) 0).state = .retired) ∧
    (let s := onMedia [(64 * slotNo 5 0 0, { stamp := 1 })] (placed [(5, { state := .blanking, valid := 1 })] {})
     (stripe s 5).state = .blanking ∧ mediaRuns s = true ∧ (after (.blankingComplete 5) s).mp.media = [] ∧
     (stripe (after (.blankingComplete 5) s) 5).state = .blank) ∧
    (let s := placed [(5, { changed := true, cycles := 1 })] {}
     mediaUp s = true ∧ (stripe s 5).changed = true ∧ (after (.blockStripeRecordWrite 5) s).pl.copy = [(5, { cycles := 1 })]) ∧
    (stripe up 5).changed = false := by decide +kernel

/-! ### Reclaim and moves -/

theorem test_reclaim_clauses :
    (let s := { placed [(5, { state := .full, valid := 9 })] {} with live := [(2, 0xFFFF0000)] }
     mediaRuns s = true ∧ parked s 0 = false ∧ (rankPl s 0).victim = none ∧ reclaimOn s 0 = true ∧ lostLinks s 0 < 2 ∧
     bestVictim (updRank s 0 fun x => { x with reclaiming := true }) 0
       (victimChoices (updRank s 0 fun x => { x with reclaiming := true }) 0) = some (5, { state := .full, valid := 9 }) ∧
     (rankPl (after (.reclaimStart 0) s) 0).victim.isSome = true) ∧
    (let s := placed [(4, { state := .blank, cycles := 600 }), (5, { state := .full, valid := 9, cycles := 100 })] {}
     leastBy (fun x => [x.2.cycles, x.1]) ((rankStripes s 0).filter fun x => !x.2.bisque && x.2.state = .full) =
       some (5, { state := .full, valid := 9, cycles := 100 }) ∧ 600 ≤ 100 + wearSpread s) ∧
    (let s := placed [(4, { state := .blank, cycles := 2101 }), (5, { state := .full, valid := 9, cycles := 100 })] {}
     100 + wearSpread s < 2101 ∧ (rankPl (after (.levellingCheck 0) s) 0).victim.isSome = true) ∧
    (let s := placed [(5, { state := .released, cycles := 20000 })] {}
     mediaRuns s = true ∧ (stripe s 5).state = .released ∧ stripeLetGo s 5 = true ∧ (stripe (after (.victimRelease 5) s) 5).state = .retired) ∧
    (let s := reading (.sense (slotNo 5 0 0) false) (placed [(5, { state := .released })] {})
     mediaRuns s = true ∧ (stripe s 5).state = .released ∧ stripeLetGo s 5 = false) ∧ (stripe up 5).valid = 0 := by decide +kernel
theorem test_move_clauses :
    (let s := { withEntry {} served with pl := { served.pl with relocating := [0] } }
     entry? (fetchSeg s 0) 0 = some {} ∧ mediaRuns s = true ∧ 0 ∈ s.pl.relocating ∧ (after (.bisqueRelocation 0) s).pl.relocating = []) ∧
    (let s := onMedia [(0, { stamp := 1, bisque := true })] (withEntry cold (placed
       [(0, { state := .bisque, bisque := true, valid := 1 }), (1, { state := .bisque, bisque := true })] { alloc := some 1, budget := 9 }))
     let s := { s with pl := { s.pl with relocating := [0] } }
     entry? (fetchSeg s 0) 0 = some cold ∧ inDrain s 0 = false ∧ inFiring s 0 = false ∧ inSecure s 0 = false ∧ inSwitch s 0 = false ∧
     ((relocSlot (fetchSeg s 0) 0 cold).map (·.1)) = some 196608 ∧
     ((entry? (after (.bisqueRelocation 0) s) 0).map (·.bisqueHome)) = some 196608) ∧
    (let e : MapEntry := { state := .glaze, glazeHome := 983040 }
     let s := { withEntry e served with pl := { served.pl with restamps := [0], refreshes := [0] } }
     entry? (fetchSeg s 0) 0 = some e ∧ mediaRuns s = true ∧ 0 ∈ s.pl.restamps ∧ 0 ∈ s.pl.refreshes ∧ pageFree s 0 = true ∧
     e.secure = false ∧ e.bisqueHome = none40 ∧ e.glazeHome ≠ none40 ∧ e.pin = false ∧
     (rankPl (after (.refresh 0) s) 0).refreshQueue = [0] ∧ (after (.refresh 0) s).pl.refreshes = []) ∧
    (let e : MapEntry := { state := .glaze, glazeHome := 983040, stamp := 2 ^ 40 }
     let s := onMedia [(64 * 983040, { stamp := 1 })] { withEntry e served with pl := { served.pl with restamps := [0] } }
     entry? (fetchSeg s 0) 0 = some e ∧ pageFree s 0 = true ∧ liveIn e e.glazeHome 0 = true ∧
     mediaLine s e.glazeHome 0 = some { stamp := 1 } ∧ 1 < (e.stamp / 2 ^ 38 - 1) * 2 ^ 38 ∧
     (rankPl (after (.restamp 0) s) 0).refreshQueue = [0]) ∧
    (let e : MapEntry := { cold with stamp := 2 ^ 40 }
     let s := onMedia [(0, { stamp := 1, bisque := true })] { withEntry e served with pl := { served.pl with restamps := [0] } }
     entry? (fetchSeg s 0) 0 = some e ∧ pageFree s 0 = true ∧ e.bisqueHome ≠ none40 ∧ internalUsed (fetchSeg s 0) + 64 ≤ 16384 ∧
     liveIn e e.bisqueHome 0 = true ∧ mediaLine s e.bisqueHome 0 = some { stamp := 1, bisque := true } ∧
     sagLine (fetchSeg s 0) 0 0 = none ∧ (sagLine (after (.restamp 0) s) 0 0).map (·.internal) = some true) ∧
    (0 ∉ up.pl.refreshes ∧ 0 ∉ up.pl.restamps) := by decide +kernel
/-! ### Drift, sweeps, scrubs, alerts, rebuilds -/

theorem test_drift_clauses :
    (let s := { placed [(5, { state := .open, wls := 2048 })] { opens := [(0, { bs := 5, passed := [0] })] } with live := [(3, 0x100)] }
     driftLoopEn s = true ∧ awake s = true ∧ capturePoints s 0 = [(5, 0)] ∧
     (after (.coneCapture 0) s).dr.inFlight = [{ rank := 0, bs := 5, group := 0 }]) ∧
    driftLoopEn { up with live := [(3, 0)] } = false ∧
    (let s := { placed [] {} with dr := { up.dr with inFlight := [{ bs := 5 }] } }
     s.dr.inFlight.find? (fun c => c.rank = 3 / 18 && dieFor s 3 (bsDie c.bs) = 0 && 3 ∉ c.seen) = some { bs := 5 } ∧
     bsState s 5 = .dirty ∧ (after (.coneMasks 3 0 0 0) s).dr.inFlight = []) ∧
    (let s := { placed [(5, { state := .full, wls := 65536 })] {} with dr := { up.dr with inFlight := [{ bs := 5 }] } }
     bsState s 5 = .full ∧ 3 ∈ inServiceLinks s 5 ∧ (after (.coneMasks 3 0 0 0) s).dr.captures = 1 ∧
     (after (.coneMasks 3 0 1 2) s).ln.coneRegs = [(51 * 4 + bsPlane 5, (1, 2))]) := by decide +kernel
theorem test_sweep_clauses :
    let s := placed [(5, { state := .full, wls := 65536, unswept := true })] {}
    let s := { s with dr := { s.dr with sweepActive := true } }
    (stripe s 5).unswept = true ∧ lostLinks s (bsRank 5) < 3 ∧ (stripe (after (.stripeSweep 5 []) s) 5).unswept = false ∧
    (after (.stripeSweep 5 []) s).dr.sweepActive = false ∧ nextSweep s (bsRank 5) = some 5 ∧
    (tget [] s.dr.sweepFront 0).find? (fun b => b ∈ unswept s 0) = none ∧
    (let u := { s with dr := { s.dr with sweepFront := [(0, [5])] } }
     (tget [] u.dr.sweepFront 0).find? (fun b => b ∈ unswept u 0) = some 5) := by decide +kernel
theorem test_scrub_clauses :
    (let s := { placed [(5, { state := .full, wls := 65536 })] {} with live := [(4, cfgReset 4 ||| 0x2000)] }
     mediaRuns s = true ∧ 0 ∈ s.mp.pop ∧ (scrubPass s 0 false).running = false ∧ scrubEn s = true ∧
     (scrubPass (after (.scrubPassStart 0 false) s) 0 false).total = 196608) ∧
    (let s := { served with ecc := { served.ecc with dirtyDue := [0] } }; 0 ∈ s.ecc.dirtyDue ∧ mediaRuns s = true) ∧
    (let s := placed [(5, { state := .full, wls := 65536 })] {}
     let s := { s with ecc := { s.ecc with passes := [(0, { running := true, total := 196608 })] } }
     (scrubPass s 0 false).running = true ∧ passHas s 0 false 983040 = true ∧ bsState s (slotBs 983040) ≠ .system ∧
     slotWl 983040 ∉ scrubStamps s false (slotBs 983040) ∧ slotIdent s 983040 = none ∧ (scrubPass (after (.scrubVisit 0 false 983040 []) s) 0 false).visited = 1) ∧
    (let s := glazed 5 0 (placed [(5, { state := .full, wls := 65536 })] {})
     let s := { s with ecc := { s.ecc with passes := [(0, { running := true, total := 196608 })] } }
     let u := touchSeg (fetchSeg s 0) (segNo 0)
     passHas s 0 false 983040 = true ∧ slotIdent s 983040 = some 0 ∧ namesSlot u 983040 false 0 = true ∧
     (scrubPass (after (.scrubVisit 0 false 983040 []) s) 0 false).next = 983041) ∧
    (let s := { up with clk := { up.clk with beat := 2 ^ 53 }, ecc := { up.ecc with passes := [(0, { running := true })] } }
     (scrubPass s 0 false).dirty = false ∧ (scrubPass s 0 false).start + scrubGlazeDays s * 86400 * 16000000 < s.clk.beat ∧
     (after (.scrubOverrun 0 false) s).ecc.overruns = 1) ∧
    (scrubPass up 0 false).running = false := by decide +kernel
theorem test_alert_clauses :
    (let s := updLink served 3 fun l => { l with alert := true }
     (link s 3).alert = true ∧ (link s 3).state.serves = true ∧ (link (after (.packageAlertDetails 3 [none, some (some 2)]) s) 3).alert = false ∧
     busAnswer [none, some (some (2 : DieNo))] = some (some 2) ∧ busAnswer [some (none : Option DieNo)] = some none ∧
     busAnswer [none, none, none, none, some (none : Option DieNo)] = none ∧
     (link (after (.packageAlertDetails 3 [none, none, none, none]) s) 3).alert = true) ∧
    (link up 3).alert = false ∧
    (let s := updLink served 3 fun l => { l with pkg := some { dieGood := 0x1FFFF } }
     2 ∉ (linkWear s 3).erased ∧ (linkWear s 3).subst = false ∧ (pkgOf s 3).dieGood.getLsbD 16 = true ∧
     (linkWear (failDie s 3 2) 3).substDie = 2 ∧ (linkWear (failDie (failDie s 3 2) 3 4) 3).erased = [4]) := by decide +kernel
def rebuilding (l : List (Nat × BsRec)) : State :=
  { placed l {} with mp := { served.mp with mapN := 0 }, wr := { served.wr with links := [(3, { rebuilding := true })] } }
theorem test_rebuild_clauses :
    (let s := rebuilding [(5, { state := .bisque, bisque := true, valid := 1 }), (6, { state := .bisque, bisque := true, valid := 1 })]
     mediaRuns s = true ∧ (linkWear s 3).rebuilding = true ∧ bsRank 5 = 3 / 18 ∧ nextRebuild s (targetLeft s 3 false) = some 5 ∧
     targetLeft (updLinkWear s 3 fun w => { w with linkBits := addNew w.linkBits 5 }) 3 false ≠ [] ∧
     (linkWear (after (.rebuildStripeDone 3 none 5) s) 3).linkBits = [5]) ∧
    (let s := rebuilding [(5, { state := .full, valid := 1, wls := 65536, cycles := 20000 })]
     nextRebuild s (targetLeft s 3 false) = some 5 ∧ (stripe s 5).bisque = false ∧ (stripe s 5).state = .full ∧
     20000 ≤ (stripe s 5).cycles ∧ (rankPl s 0).victim = none ∧ (rankPl (after (.rebuildStripeDone 3 none 5) s) 0).victim.isSome = true) ∧
    mediaRuns asleep = false := by decide +kernel

/-! ### Links -/

/-- Link 3 in a state of training. -/
def linkAt (k : LinkRec) : State := updLink up 3 fun _ => k
theorem test_training_clauses :
    linksRun up = true ∧ up.ln.onlining = [] ∧ (link up 3).state = .empty ∧ (link (linkAt { state := .lost }) 3).state = .lost ∧
    (link (after (.linkDetectPoll 3 true) up) 3).step = 1 ∧
    (let s := linkAt { state := .training, step := 1, attempts := 1 }
     linksRun s = true ∧ (link s 3).state = .training ∧ (link s 3).step = 1 ∧ (link s 3).attempts < 3 ∧
     (link s 3).stepAt + stepLimit 1 ≤ s.clk.beat ∧
     (link (after (.trainingStepDone 3 0 (2 ^ 15) 9 9) s) 3).ffe = 0 ∧ (link (after (.trainingTimeout 3) s) 3).attempts = 2) ∧
    (let s := linkAt { state := .training, step := 2, attempts := 3 }
     linksRun s = true ∧ (link s 3).step = 2 ∧ (link s 3).step ≠ 0 ∧ (link s 3).stepAt + stepLimit 2 ≤ s.clk.beat ∧ 3 ≤ (link s 3).attempts ∧
     (link (after (.trainingStepDone 3 64 0 0 0) s) 3).step = 3 ∧ (link (after (.trainingStepDone 3 65 0 0 0) s) 3).step = 2 ∧
     (link (after (.trainingTimeout 3) s) 3).cause = 4) ∧
    (let s := linkAt { state := .training, step := 3 }
     linksRun s = true ∧ (link s 3).state = .training ∧ (link s 3).stepAt + 16384 ≤ s.clk.beat ∧
     (link (after (.trainingStepDone 3 0 0 0 0) s) 3).state = .inventory) := by
  decide +kernel
/-- A descriptor as R73 asks for: 16 dies all good, no bad block, its two checksums worked outside the model. -/
def goodHead : List Byte :=
  leBytes 4 0x444C5947 ++ leBytes 2 1 ++ leBytes 2 0 ++ leBytes 8 77 ++ leBytes 8 0 ++ leBytes 4 65535 ++ leBytes 1 17 ++ leBytes 1 4 ++
  leBytes 2 1280 ++ leBytes 4 65536 ++ leBytes 2 2820 ++ leBytes 2 64 ++ leBytes 2 1024 ++ leBytes 1 1 ++ leBytes 1 8 ++ leBytes 4 20000 ++
  leBytes 4 10000000 ++ leBytes 2 160 ++ leBytes 2 480 ++ leBytes 6 0 ++ leBytes 1 80 ++ leBytes 1 3 ++ leBytes 1 3 ++ leBytes 1 3 ++
  leBytes 1 0 ++ leBytes 1 1 ++ leBytes 2 64 ++ leBytes 2 500 ++ (List.range 7).flatMap (fun i => leBytes 2 (100 * (i + 1))) ++
  leBytes 8 0 ++ leBytes 1 16 ++ leBytes 1 85 ++ List.replicate 412 0 ++ leBytes 4 0x6F679775
def goodDesc : List Byte := goodHead ++ (List.replicate 7676 0xFF ++ leBytes 4 0x51C0575A)

/-- The checksum's fold with each step worked out before the next. -/
def crcFold : List Byte → Nat → Nat
  | [], c => c
  | b :: l, 0 => crcFold l (crc32cByte 0#32 b).toNat
  | b :: l, c + 1 => crcFold l (crc32cByte (BitVec.ofNat 32 (c + 1)) b).toNat

theorem goodHead_length : goodHead.length = 512 := by decide +kernel
theorem drop_entry (h : List Byte) (n k : Nat) (x : Byte) (t : List Byte) (hk : k + 4 ≤ n) :
    ((h ++ (List.replicate n x ++ t)).drop (h.length + k)).take 4 = List.replicate 4 x := by
  rw [List.drop_append, List.drop_eq_nil_of_le (by omega), List.nil_append, Nat.add_sub_cancel_left,
    List.drop_append_of_le_length (by rw [List.length_replicate]; omega), List.drop_replicate,
    List.take_append_of_le_length (by rw [List.length_replicate]; omega), List.take_replicate, Nat.min_eq_left (by omega)]
theorem drop_all (h : List Byte) (n : Nat) (x : Byte) (t : List Byte) :
    (h ++ (List.replicate n x ++ t)).drop (h.length + n) = t ∧ ((h ++ (List.replicate n x ++ t)).drop h.length).take n = List.replicate n x := by
  constructor
  · rw [List.drop_append, List.drop_eq_nil_of_le (by omega), List.nil_append, Nat.add_sub_cancel_left]
    exact List.drop_left' (List.length_replicate)
  · rw [List.drop_left]; exact List.take_left' (List.length_replicate)
theorem goodDesc_entry (i : Nat) (h : i < 1919) : dfield goodDesc (0x200 + 4 * i) 4 = 0xFFFFFFFF := by
  have e := drop_entry goodHead 7676 (4 * i) 0xFF (leBytes 4 0x51C0575A) (by omega)
  rw [goodHead_length] at e
  unfold dfield goodDesc; rw [e]; decide +kernel
theorem goodDesc_length : goodDesc.length = 8192 := by
  unfold goodDesc; rw [List.length_append, List.length_append, goodHead_length, List.length_replicate]; decide +kernel
theorem crcFold_eq (l : List Byte) (c : Nat) : crcFold l c = if l = [] then c else (l.foldl crc32cByte (BitVec.ofNat 32 c)).toNat := by
  induction l generalizing c with
  | nil => rfl
  | cons b l ih =>
    cases c <;> rw [crcFold, ih] <;> split <;> rename_i h <;> simp [h]
theorem crc_of_fold (l : List Byte) (h : l ≠ []) : crc32c l = BitVec.ofNat 32 (crcFold l 0xFFFFFFFF) ^^^ 0xFFFFFFFF#32 := by
  rw [crcFold_eq, if_neg h, BitVec.ofNat_toNat, BitVec.setWidth_eq]; rfl
theorem goodDesc_crc : (crc32c (List.replicate 7676 (0xFF : Byte))).toNat = 0x51C0575A := by
  rw [crc_of_fold _ (by rw [List.replicate_succ]; exact List.cons_ne_nil _ _)]; decide +kernel
theorem test_descriptor_passes : descFault goodDesc goodDesc = none := by
  have d := drop_all goodHead 7676 0xFF (leBytes 4 0x51C0575A)
  rw [goodHead_length] at d
  have t : (goodDesc.drop 0x200).take 0x1DFC = List.replicate 7676 0xFF := d.2
  have l : dfield goodDesc 0x1FFC 4 = 0x51C0575A := by
    unfold dfield; rw [show goodDesc.drop 0x1FFC = leBytes 4 0x51C0575A from d.1]; decide +kernel
  have z : dfield goodDesc 6 2 = 0 := by decide +kernel
  have b : badEntry goodDesc = none := by
    unfold badEntry
    simp only [z, Nat.zero_le, if_true, Option.map_eq_none_iff, List.find?_eq_none, List.mem_range]
    intro i hi
    simp only [goodDesc_entry i hi, ne_eq, not_true_eq_false, decide_false, Bool.false_eq_true, not_false_eq_true]
  have f : (descFields goodDesc).find? (fun x => !x.2) = none := by decide +kernel
  have r : refRise goodDesc = none := by decide +kernel
  have m : refRoom goodDesc = true := by decide +kernel
  have c : (crc32c (goodDesc.take 0x1FC)).toNat = dfield goodDesc 0x1FC 4 := by
    rw [crc_of_fold _ (by decide +kernel)]; decide +kernel
  unfold descFault
  rw [if_neg (by rw [goodDesc_length]; simp only [ne_eq, not_true_eq_false, decide_false, Bool.or_self, Bool.false_eq_true, not_false_eq_true]), if_neg (by rw [c]; exact fun h => h rfl), f, r, m, t, goodDesc_crc, l, b]; rfl
theorem test_inventory_clauses :
    let s := linkAt { state := .inventory, step := 4 }
    (link s 3).state = .inventory ∧ (link s 3).step = 4 ∧ s.ln.onlining = [] ∧ descFault [1] [2] ≠ none ∧
    busAnswer [none, some [(2 : Byte)]] = some [2] ∧ busAnswer ([none, none, none, none] : BusTries (List Byte)) = none ∧
    (link (after (.packageInventoryDone 3 [1] [none, some [2]]) s) 3).state = .refused ∧
    (link (after (.packageInventoryDone 3 [1] [none, none, none, none]) s) 3).state = .refused ∧ descFault goodDesc goodDesc = none :=
  ⟨by decide +kernel, by decide +kernel, by decide +kernel, by decide +kernel, by decide +kernel, by decide +kernel,
    by decide +kernel, by decide +kernel, test_descriptor_passes⟩
theorem test_accept_clause :
    let s := linkAt { state := .inventory, step := 5, pkg := some {} }
    3 / 18 ∈ s.mp.pop ∧ 12 ≤ s.pwr.step ∧ (link s 3).state = .inventory ∧ (link s 3).step = 5 ∧ setsLoading s 3 = false ∧
    s.ln.onlining = [] ∧ (link (acceptPackage s 3) 3).state.serves = true := by decide +kernel

def unit0 : WorkUnit := { core := 2, cls := 4, rank := 0, positions := 1, die := 0, block := 0, wl := 0, line := 0, prim := .sense 0 }
/-- A frame with a beat tag and nothing else, its header check as R84 forms it; one whose header check is wrong. -/
def tagged (btag : Nat) : RawFrame :=
  { header := BitVec.ofNat 96 (btag * 2 ^ 91 + (crc16 (bitsMsb (btag * 2 ^ 75) 80)).toNat) }
def damaged : RawFrame := { header := 1 }
def servingLink : State := linkAt { state := .active, inService := true }
theorem test_frame_clauses :
    framed (link servingLink 3) = true ∧ (link servingLink 3).state.serves = true ∧ awake servingLink = true ∧
    (link servingLink 3).consecTag = 0 ∧ (link servingLink 3).frameAt ≠ some servingLink.clk.beat ∧
    servingLink.clk.beat % 32 = 0 ∧ (readUp (tagged 1)).hdrOk = true ∧ (readUp (tagged 1)).btag = 1 ∧ (readUp damaged).hdrOk = false ∧
    nakSent servingLink (link servingLink 3) = false ∧
    (link (after (.upstreamFrame 3 (tagged 1)) servingLink) 3).consecTag = 1 ∧
    (link (after (.upstreamFrame 3 damaged) servingLink) 3).nak = true ∧
    (let s := after (.frameStart 3) servingLink
     framed (link s 3) = true ∧ (link s 3).frameAt = some s.clk.beat) ∧
    (let s := linkAt { state := .active, inService := true, consecTag := 1, consecHdr := 1, nak := true, planned := [.unit unit0 2] }
     1 ≤ (link s 3).consecTag ∧ 1 ≤ (link s 3).consecHdr ∧ (link (after (.frameStart 3) s) 3).batched = [.unit unit0 2] ∧
     (link (after (.upstreamFrame 3 (tagged 1)) s) 3).cause = 3 ∧ (link (after (.upstreamFrame 3 damaged) s) 3).cause = 1) ∧
    15 * 1024 ≤ 1024 % 65536 * 100 ∧ 153 % 65536 * 100 < 15 * 1024 ∧
    (link (after (.eqEvaluation 3 0 0 153) servingLink) 3).state = .retrain ∧ framed (link up 3) = false := by decide +kernel
theorem test_eq_clause :
    let s := linkAt { state := .active, inService := true, eyePrev := some 900, eqTap := some (2, 5) }
    below 800 (link s 3).eyePrev = true ∧ (link s 3).eqTap = some (2, 5) ∧ (link (adjustPackage s 3 800) 3).eqDue = [(2, 5)] := by
  decide +kernel
theorem test_upstream_clause :
    let u := readUp (tagged 0)
    let a := rxErrors (updLink servingLink 3 fun l => { l with consecHdr := 0, consecTag := 0 }) 3 u.rxerr
    let b := telemetry a 3 (u.telIndex % 1024) u.telValue
    let c := returnedSlots b 3 u
    let d := acceptPackage (doneMask c 3 u.done) 3
    u.hdrOk = true ∧ u.btag = servingLink.clk.beat % 32 ∧ u.alert = false ∧
    (link d 3).state.serves = true ∧ windowFull d 3 = false := by decide +kernel
theorem test_leaving_clauses :
    (link servingLink 3).state = .active ∧ servingLink.ln.onlining = [] ∧ (link (after (.lossOfSignal 3) servingLink) 3).state = .lost ∧
    (link (linkAt { state := .refused }) 3).state = .refused ∧ up.ln.onlining = [] ∧ up.ln.removing = [] ∧
    awake (linkAt { state := .draining }) = true ∧ (link (linkAt { state := .draining }) 3).state = .draining ∧
    (link (after (.linkRemovable 3) (linkAt { state := .draining })) 3).state = .removable ∧ (link up 3).state ≠ .draining := by
  decide +kernel
theorem test_work_clauses :
    unitOk unit0 = true ∧ awake up = true ∧ up.pwr.breath = none ∧ up.wr.failed.getLsbD unit0.core = false ∧ coreServes up unit0 = true ∧
    coreServes up { unit0 with core := 0 } = false ∧
    (after (.workUnitSubmit unit0) up).ln.work.length = 1 ∧ unitOk { unit0 with core := 18 } = false := by decide +kernel

/-! ### The host link -/

theorem test_host_link_clauses :
    hostOpen up = true ∧ hostOpen dark = false ∧ ioOpen up = true ∧ (after (.hostReset .flr) up).hl.memEnable = false ∧
    (let s := { up with hl := { up.hl with state := .retraining, leftActive := some 5 }, hq := { up.hq with egress := [.cmp 1] } }
     s.hl.state = .retraining ∧ s.hl.leftActive = some 5 ∧ 5 + 16000 ≤ s.clk.beat ∧ (after .ucieRetrainDone s).hq.sent = [.cmp 1] ∧
     (after .linkDown s).hl.state = .down) ∧
    (let s := { up with hl := { up.hl with state := .retraining, leftActive := some (2 ^ 33 - 15999) } }
     s.clk.beat < 2 ^ 33 - 15999 + 16000 ∧ (after .linkDown s).hl.state = .retraining) ∧
    (let s := { up with hl := { up.hl with state := .down } }
     awake s = true ∧ 10 ≤ s.pwr.step ∧ s.hl.state = .down ∧ (after (.linkTrainRetry true) s).hl.modUp = 0xF#4 ∧
     (after (.linkTrainRetry false) s).hl.state = .training) ∧
    (∀ m < 4, (tget ({} : ModRec) up.hl.mods m).failed = false) ∧ up.hl.state = .active ∧ (after .ucieFlitCrcFail up).hl.replays = 1#32 := by
  decide +kernel
theorem test_lane_clauses :
    (tget ({} : ModRec) up.hl.mods 2).txUsed < 4 ∧ (tget ({} : ModRec) up.hl.mods 2).rxUsed < 4 ∧
    up.hl.state = .active ∧ (after (.ucieRetrain .hostRequest) { up with hl := { up.hl with state := .down } }).hl.retrains = 0 ∧
    ((tget ({} : ModRec) (after (.ucieRetrain (.laneRepair 2 true 9)) up).hl.mods 2).lastTx = 9) ∧
    (let s := { up with hl := { up.hl with mods := [(2, { txUsed := 4, rxUsed := 4 })] } }
     ioOpen s = true ∧ 4 ≤ (tget ({} : ModRec) s.hl.mods 2).txUsed ∧ 4 ≤ (tget ({} : ModRec) s.hl.mods 2).rxUsed ∧
     (after (.ucieRetrain (.laneRepair 2 false 9)) s).hl.state = .down) := by decide +kernel

/-! ### Enables, decoders, vectors, IDE -/

def setup : HdmSetup := { hpaBase := 0, size := 2 ^ 28, ways := 1, gran := 256, pos := 0, skip := 0, lock := false }
theorem test_decoder_clauses :
    hostOpen up = true ∧ (tget ({} : Hdm) up.hl.hdm 0).locked = false ∧ up.hl.memEnable = false ∧
    (tget ({} : Hdm) (after (.hdmDecoderCommit 0 setup) up).hl.hdm 0).committed = true ∧
    (commitDecoder up 0 setup).committed = true ∧ (commitDecoder up 0 { setup with size := 1 }).committed = false ∧
    (let s := { up with hl := { up.hl with memEnable := true } }
     hostOpen s = true ∧ (tget ({} : Hdm) s.hl.hdm 0).locked = false ∧ s.hl.memEnable = true ∧
     (after (.hdmDecoderCommit 0 setup) s).hl.hdmPending.map (·.1) = [0]) ∧
    (tget ({} : Hdm) { up.hl with hdm := [(1, { locked := true })] }.hdm 1).locked = true ∧
    (after .memEnableSet up).hl.memEnable = true ∧ (after .memEnableSet up).ig.keyWindow = false := by decide +kernel
theorem test_gpf_clauses :
    ready up = true ∧ up.pwr.limited = false ∧ (after .gpfPhase2 up).hl.gpfWaiting = true ∧
    hostOpen (starting 10) = true ∧ ready (starting 10) = false ∧ (after .gpfPhase2 (starting 10)).hl.gpfDone = true ∧
    (let s := { up with hl := { up.hl with msix := [(7, { pending := true })] } }
     (tget {} (after (.msixUnmask 7) s).hl.msix 7).sent = 1) := by decide +kernel
theorem test_ide_clauses :
    (let s := { up with ig := { up.ig with keyWindow := true, ideProgrammed := 2 } }
     hostOpen s = true ∧ (after (.ideKmKeyProg 0) s).ig.ideProgrammed = 3#2 ∧ s.ig.keyWindow = true ∧ s.ig.ideProgrammed.getLsbD 1 = true ∧ (after (.ideKmKSetGo 1) s).ig.ideActive = 2#2) ∧
    up.ig.keyWindow = false ∧
    (let s := { up with ig := { up.ig with ideActive := 3 } }
     s.ig.ideActive.getLsbD 1 = true ∧ awake s = true ∧ (after (.ideIntegrityFailure 1) s).ig.ideStop = true ∧
     (after (.ideKmKSetStop 1) s).ig.ideActive = 1#2) ∧ up.ig.ideActive.getLsbD 1 = false := by decide +kernel

/-! ### The mailbox -/

theorem mailbox_free : mailboxFree up := by unfold mailboxFree; decide +kernel
theorem test_mailbox_answers : mailboxFree up ∧ (0 : Nat) < 4 ∧ (9 : Nat) ≤ 65536 ∧ 0x9999 ∉ mboxOpcodes ∧ (cxlLogBytes up (logUuid 2)).isSome = true ∧ logUuid 0 ≠ 7 ∧ logUuid 1 ≠ 7 ∧ logUuid 2 ≠ 7 ∧ logUuid 3 ≠ 7 ∧
    (after (.cxlGetLog 7 0 1) up).hl.reply.code = 2 ∧
    (after .cxlGetAlertConfig up).hl.reply.opcode = 0x4201 ∧ (after (.cxlMailboxUnsupported 0x9999) up).hl.reply.code = 3 :=
  ⟨mailbox_free, by decide +kernel⟩
theorem test_mailbox_sets : mailboxFree up ∧ (0 : Nat) ≤ (cxlLog up 0).recs.length ∧ (cxlLog up 0).recs.length < 1 ∧
    [0, 1, 1, 0].length = 4 ∧ (∀ x ∈ [0, 1, 1, 0], x ≤ 1) ∧ (after (.cxlSetEventInterruptPolicy [0, 1, 1, 0]) up).hl.evPolicy = [0, 1, 1, 0] ∧
    (after (.cxlClearEventRecords 0 false 1) up).hl.reply.code = 2 ∧
    up.hl.mboxBusy = none ∧ eraseRuns up = false ∧ (after .cxlSecureErase up).hl.doorbell = true :=
  ⟨mailbox_free, by decide +kernel⟩
theorem test_mailbox_erasing :
    let s := { up with ig := { up.ig with erasesQueued := [(0, none)] } }
    mailboxFree s ∧ eraseRuns s = true ∧ (after .cxlSanitize s).hl.reply.code = 6 :=
  ⟨by unfold mailboxFree; decide +kernel, by decide +kernel⟩
theorem test_mailbox_poison : mailboxFree up ∧ lineRange up 0 1 = true ∧ lineDpa up 64 = true ∧ (regionOf up 64).isSome = true ∧
    poisonHas up 64 = false ∧ injectedLines up < 64 ∧ lineDpa up 65 = false ∧ lineDpa up (2 ^ 30) = false ∧ up.hl.mboxBusy = none ∧
    up.hl.mboxBusy ≠ some 0x4304 ∧ (after (.cxlInjectPoison 64) up).ecc.poison.map (·.dpa) = [64] ∧
    (after (.cxlInjectPoison (2 ^ 30)) up).hl.reply.code = 0xF :=
  ⟨mailbox_free, by decide +kernel⟩
theorem test_mailbox_scan :
    let s := mapped { inBisque with stamp := 1 }
    mailboxFree s ∧ lineRange s 0 1 = true ∧ contentPages s (pageOf 0, pageOf (0 + 64 * 1 - 1) - pageOf 0 + 1) = [0] ∧
    (after (.cxlScanMedia 0 1) s).hl.mboxBusy = some 0x4304 :=
  ⟨by unfold mailboxFree; decide +kernel, by decide +kernel⟩
theorem test_mailbox_full_poison :
    let s := { up with ecc := { up.ecc with poison := [{ dpa := 4096, lines := 64, source := .injected }] } }
    mailboxFree s ∧ poisonHas s 64 = false ∧ 64 ≤ injectedLines s :=
  ⟨by unfold mailboxFree; decide +kernel, by decide +kernel⟩

/-! ### Pipes -/

/-- Pipe 2 bound to pages 8 and 9 for group 0, with its record changed. -/
def bound (f : Pipe → Pipe) : State := updPipe up 2 fun _ => f { valid := true, key := 0xABCD, pages := 2, base := 8 }
theorem test_mouth_clauses :
    let s := bound id
    let word : Reg := BitVec.ofNat 64 (0xABCD * 2 ^ 32 + 5 * 2 ^ 13 + 9)
    ioOpen s = true ∧ (pipe s 2).valid = true ∧ fld word 32 32 = (pipe s 2).key ∧ (pipe s 2).mouth = none ∧
    (pipe (after (.pipeMouthWrite 2 word 8) s) 2).mouth = some (5, 9) ∧
    (pipe (after (.pipeMouthWrite 2 word 4) s) 2).rejCause = 3 ∧
    ((pipe up 2).valid = false ∧ (pipe (after (.pipeMouthWrite 2 word 8) up) 2).rejCause = 2) ∧
    (fld (word + 2 ^ 32) 32 32 ≠ (pipe s 2).key ∧ (pipe (after (.pipeMouthWrite 2 (word + 2 ^ 32) 8) s) 2).rejCause = 1) ∧
    (let s := bound fun p => { p with mouth := some (1, 1) }
     (pipe s 2).mouth.isSome = true ∧ (pipe (after (.pipeMouthWrite 2 word 8) s) 2).rejected = true ∧
     (pipe (after (.pipeMouthWrite 2 word 8) s) 2).rejCause = 0) ∧ (4 : Nat) ≠ 8 ∧ ioOpen dark = false := by decide +kernel
theorem test_binding_clauses :
    (let s := { up with pp := { up.pp with lock := false } }
     awake s = true ∧ s.pp.lock = false ∧ (s.pp.pipes.Pairwise fun a b => a.1 < b.1) ∧
     (pipe (after (.pbndEntryWrite 2 false 0x0000ABCD80000000) s) 2).key = 0xABCD ∧ (after .pbndLockSet s).pp.lock = true) ∧
    (let s := updPipe { up with pp := { up.pp with lock := false } } 2 fun _ => { valid := true, pages := 1, base := 8 }
     (pipe s 2).valid = true ∧ (pipe (after .pbndLockSet s) 2).valid = false) ∧
    up.pp.lock = true ∧ fld (0 : Reg) 16 11 < 16 ∧ 16 ≤ fld (16 * 65536 : Reg) 16 11 ∧ fld (3 : Reg) 0 2 = 3 ∧ fld (1 : Reg) 0 2 ≠ 3 := by
  decide +kernel
def comp0 : Completion := { pipe := 2, status := 0, opcode := 0x10, desc := 5, tag := 9, token := 4 }
def waiting (x : Completion) (s : State) : State := { s with pp := { s.pp with comps := [x] } }
theorem test_completion_clauses :
    (let s := waiting comp0 (bound id)
     awake s = true ∧ (s.pp.comps.find? fun x => x.pipe = 2 && !x.held) = some comp0 ∧ (pipe s 2).valid = true ∧
     (servedAs s (pipe s 2).group 0).isSome = true ∧ s.wr.failed.getLsbD 0 = false ∧ (pipe s 2).bell = none ∧ (pipe s 2).en = false ∧
     comp0.aborted = false ∧ (∀ y ∈ s.pp.comps, y.pipe = 2 → y.held = false) ∧ servedAs s (pipe s 2).group 17 = none ∧
     ((pipe (after (.pipeBellRing 2 0) s) 2).bell) = some (0, 0, 0, 5, 9) ∧ (pipe (after (.pipeBellRing 2 0) s) 2).tokens = [(4, 0, 0)] ∧
     readByte (after (.pipeBellRing 2 0) s) (0x38000000 + 9 * 4096 + 2) = 0x10) ∧
    (let s := waiting comp0 (bound fun p => { p with bell := some (0, 0, 0, 0, 0) })
     (pipe s 2).bell.isSome = true ∧ (after (.pipeBellRing 2 0) s).pp.comps = [{ comp0 with held := true }]) ∧
    (let s := waiting { comp0 with held := true } (bound id)
     (s.pp.comps.find? fun x => x.pipe = 2 && x.held) = some { comp0 with held := true } ∧ (roleCore s comp0.role).isSome = true ∧
     (after (.heldCompletionRing 2) s).pp.comps = []) := by decide +kernel

/-! ### Commands of a pipe -/

/-- A command of version 1 taken from pipe 0, with values written at offsets of its descriptor. -/
def cmdOf (op : Nat) (fs : List (Nat × Nat)) : Cmd :=
  { id := 7, tag := 9, takenAt := 2 ^ 33, d := BitVec.ofNat 1024 (op + 2 ^ 16 + (fs.map fun x => x.2 * 2 ^ (8 * x.1)).sum) }
def given (c : Cmd) (s : State) : State := { s with pp := { s.pp with cmds := [c] } }
def runsNow (s : State) (which : Cmd → Bool) (c : Cmd) : Bool :=
  awake s && decide (nextCmd s 0 which = some c) && decide (c.ranges = []) && (cmdCheck s c).isNone
theorem runs_of {s : State} {which : Cmd → Bool} {c : Cmd} (h : runsNow s which c = true) : Runs s 0 which c := by
  simp only [runsNow, Bool.and_eq_true, decide_eq_true_eq, Option.isNone_iff_eq_none] at h
  exact ⟨h.1.1.1, h.1.1.2, h.1.2, h.2⟩
abbrev opIs (n : Nat) : Cmd → Bool := fun c => c.op = n
abbrev opSub (n off v : Nat) : Cmd → Bool := fun c => c.op = n && c.fld off 1 = v
/-- The status, detail and RES_A of the completion that a command leaves. -/
def outcome (i : Instr) (s : State) : List (Nat × Nat × Reg) := (after i s).pp.comps.map fun x => (x.status, x.detail, x.resA)

/-- Which command an operation takes, a command, the operation, and the completion that the command then has. -/
abbrev CmdRow := (Cmd → Bool) × Cmd × Instr × List (Nat × Nat × Reg)
/-- Commands that run in the state `up` with nothing more said of it. -/
def dataCmds : List CmdRow :=
  [(opIs 0x0001, cmdOf 0x0001 [], .identify 0, [(0, 0, 0)]), (opIs 0x0002, cmdOf 0x0002 [(0x18, 3), (0x28, 64)], .getLog 0, [(0, 0, 64)]),
   (opIs 0x0500, cmdOf 0x0500 [(0x18, 5)], .keepRead 0, [(0, 0, 0)]), (opIs 0x0501, cmdOf 0x0501 [(0x18, 0x10000), (0x1C, 8)], .keepWrite 0, [(0, 0, 0)]),
   (opIs 0x0501, cmdOf 0x0501 [(0x18, 3), (0x1C, 1)], .keepWrite 0, [(0, 0, 0)]),
   (opIs 0x0502, cmdOf 0x0502 [(0x18, 3)], .keepProtect 0, [(0, 0, 0)]), (opIs 0x0502, cmdOf 0x0502 [(0x18, 3), (0x30, 5)], .keepProtect 0, [(0, 0, 0)]),
   (opIs 0x0604, cmdOf 0x0604 [], .keyInfo 0, [(0, 0, BitVec.ofNat 64 (intgStatus up))]), (opIs 0x0700, cmdOf 0x0700 [(0x18, 99)], .timeSet 0, [(0, 0, 0)]),
   (opIs 0x0701, cmdOf 0x0701 [], .timeGet 0, [(0, 0, 0)]), (opIs 0x0800, cmdOf 0x0800 [(0x18, 2), (0x19, 1), (0x1E, 0xFF)], .counterProgram 0, [(0, 0, 0)]),
   (opIs 0x0801, cmdOf 0x0801 [(0x18, 10)], .dumpSet 0, [(0, 0, 0)]), (opIs 0x0802, cmdOf 0x0802 [], .sampleSet 0, [(0, 0, 0)])]
def telemetryCmds : List CmdRow :=
  [(opSub 0x0810 0x19 0, cmdOf 0x0810 [(0x18, 7), (0x20, 3)], .captureSources 0, [(0, 0, 0)]),
   (opSub 0x0810 0x19 0, cmdOf 0x0810 [(0x18, 7), (0x20, 2 ^ 63)], .captureSources 0, [(0, 0, 0)]),
   (opSub 0x0810 0x19 1, cmdOf 0x0810 [(0x18, 7), (0x19, 1), (0x20, 2 ^ 64 - 1)], .captureMark 0, [(0, 0, 0)]),
   (opSub 0x0810 0x19 2, cmdOf 0x0810 [(0x18, 7), (0x19, 2)], .captureRewind 0, [(0, 0, 0)]),
   (opSub 0x0810 0x19 3, cmdOf 0x0810 [(0x18, 7), (0x19, 3), (0x20, 5)], .captureRelease 0, [(0, 0, 0)]),
   (opSub 0x0820 0x18 0, cmdOf 0x0820 [], .eventFreeze 0, [(0, 0, 0)]), (opSub 0x0820 0x18 1, cmdOf 0x0820 [(0x18, 1)], .eventThaw 0, [(0, 0, 0)]),
   (opSub 0x0820 0x18 2, cmdOf 0x0820 [(0x18, 2), (0x1A, 0x20), (0x1C, 4), (0x20, 1)], .eventRate 0, [(0, 0, 0)]),
   (opIs 0x0901, cmdOf 0x0901 [(0x18, 5), (0x1A, 4)], .throttle 0, [(0, 0, 0)]), (opIs 0x0902, cmdOf 0x0902 [(0x18, 2)], .powerEnter 0, [(0, 0, 0)]),
   (opSub 0x0A00 0x18 0, cmdOf 0x0A00 [], .consortJoin 0, [(0, 0, 1)]), (opSub 0x0A00 0x18 1, cmdOf 0x0A00 [(0x18, 1)], .consortLeave 0, [(0, 0, 0)])]
def packageCmds : List CmdRow :=
  [(opIs 0x0B00, cmdOf 0x0B00 [(0x18, 3)], .prepareRemove 0, [(0, 0, 7)]), (opIs 0x0B01, cmdOf 0x0B01 [(0x18, 3)], .online 0, [(0, 0, 0)]),
   (opIs 0x0C00, cmdOf 0x0C00 [], .acceptFreshness 0, [(0, 0, 0)]), (opIs 0x0D00, cmdOf 0x0D00 [], .spareStatus 0, [(0, 0, spareBs up)]),
   (opIs 0x0610, cmdOf 0x0610 [], .secureErase 0, []), (opIs 0x0611, cmdOf 0x0611 [], .sanitize 0, []), (opIs 0x0101, cmdOf 0x0101 [], .configDiscard 0, [(0, 0, 0)]),
   (opIs 0x0900, cmdOf 0x0900 [], .powerPolicy 0, []), (opIs 0x0100, cmdOf 0x0100 [], .configCommit 0, []),
   (opIs 0x0301, cmdOf 0x0301 [(0x18, 1), (0x20, 2)], .budget 0, [])]
theorem test_data_commands : ∀ x ∈ dataCmds, runsNow (given x.2.1 up) x.1 x.2.1 = true ∧ outcome x.2.2.1 (given x.2.1 up) = x.2.2.2 := by
  decide +kernel
theorem test_telemetry_commands : ∀ x ∈ telemetryCmds, runsNow (given x.2.1 up) x.1 x.2.1 = true ∧ outcome x.2.2.1 (given x.2.1 up) = x.2.2.2 := by
  decide +kernel
theorem test_package_commands : ∀ x ∈ packageCmds, runsNow (given x.2.1 up) x.1 x.2.1 = true ∧ outcome x.2.2.1 (given x.2.1 up) = x.2.2.2 := by
  decide +kernel
theorem test_a_command_runs : Runs (given (cmdOf 0x0001 []) up) 0 (fun c => c.op = 0x0001) (cmdOf 0x0001 []) := runs_of (by decide +kernel)

/-- The key commands while the key window is open. -/
def keyed : State := { up with ig := { up.ig with keyWindow := true } }
def keyCmds : List CmdRow :=
  [(opIs 0x0600, cmdOf 0x0600 [(0x18, 1), (0x19, 1)], .keyGenerate 0, [(0, 0, 0)]), (opIs 0x0600, cmdOf 0x0600 [(0x18, 1)], .keyGenerate 0, [(0, 0, 0)]),
   (opIs 0x0601, cmdOf 0x0601 [(0x18, 1)], .keyInstall 0 true, [(0, 0, 0)]), (opIs 0x0601, cmdOf 0x0601 [(0x18, 0)], .keyInstall 0 true, []),
   (opIs 0x0601, cmdOf 0x0601 [(0x18, 1)], .keyInstall 0 false, [(4, 0, 0)]), (opIs 0x0602, cmdOf 0x0602 [(0x18, 1)], .keyStage 0 true, [(0, 0, 0)]),
   (opIs 0x0602, cmdOf 0x0602 [(0x18, 1)], .keyStage 0 false, [(4, 0, 0)]), (opIs 0x0603, cmdOf 0x0603 [], .keyWindowClose 0, [(0, 0, 0)])]
theorem test_key_commands : ∀ x ∈ keyCmds, runsNow (given x.2.1 keyed) x.1 x.2.1 = true ∧ outcome x.2.2.1 (given x.2.1 keyed) = x.2.2.2 := by
  decide +kernel
theorem test_key_clauses :
    (keyed.ig.domains.Pairwise fun a b => a.1 < b.1) ∧ (domainKey (stageKeys keyed 1 1) 1).present = false ∧ (cmdOf 0x0600 [(0x18, 1)]).fld 0x19 1 ≠ 1 ∧
    (domainKey (stageKeys keyed 0 2) 0).present = true ∧ (domainKey (stageKeys keyed 0 1) 0).staged.isSome = true ∧
    (domainKey (rekey (stageKeys keyed 0 1) 0) 0).generation = 1 ∧ keyed.ig.keyWindow = true ∧
    keyCommand 0x0600 = true ∧ up.ig.keyWindow = false ∧ cmdCheck up (cmdOf 0x0600 []) = some { status := 3 } ∧ keyCommand 0x0603 = false ∧
    runsNow (given (cmdOf 0x0603 []) up) (opIs 0x0603) (cmdOf 0x0603 []) = true := by decide +kernel
/-- The four operations of REGION_DEFINE over 4 GiB of which region 0 has two, and region 1 a third where there are two. -/
def regioned (two : Bool) : State :=
  { up with mp := { up.mp with capGib := 4, regions := [(0, { valid := true, size := 2, ready := true }), (1, { valid := two, base := 2, size := 1, ready := two })] } }
theorem test_region_commands :
    (let c := cmdOf 0x0110 [(0x18, 2), (0x20, 3), (0x24, 1)]; runsNow (given c (regioned true)) (opSub 0x0110 0x19 0) c = true) ∧
    (let c := cmdOf 0x0110 [(0x18, 1), (0x19, 1)]; runsNow (given c (regioned true)) (opSub 0x0110 0x19 1) c = true) ∧
    (let c := cmdOf 0x0110 [(0x19, 2), (0x1A, 1), (0x28, 1)]; runsNow (given c (regioned false)) (opSub 0x0110 0x19 2) c = true) ∧
    (let c := cmdOf 0x0110 [(0x19, 3), (0x1A, 1)]; runsNow (given c (regioned true)) (opSub 0x0110 0x19 3) c = true) := by decide +kernel
theorem test_event_command_clauses :
    up.ev.frozen = false ∧
    (let c := cmdOf 0x0820 []; let s := given c { up with ev := { up.ev with frozen := true, frozenCount := 3 } }
     s.ev.frozen = true ∧ runsNow s (opSub 0x0820 0x18 0) c = true) ∧
    (let c := cmdOf 0x0820 [(0x18, 1)]; let s := given c { up with ev := { up.ev with frozen := true, frozenCount := 3 } }
     s.ev.frozen = true ∧ runsNow s (opSub 0x0820 0x18 1) c = true ∧ outcome (.eventThaw 0) s = [(0, 0, 3)]) := by decide +kernel
theorem test_capture_clauses :
    (cmdOf 0x0810 [(0x20, 3)]).fld 0x20 8 < 2 ^ 63 ∧ 2 ^ 63 ≤ (cmdOf 0x0810 [(0x20, 2 ^ 63)]).fld 0x20 8 ∧
    (up.ev.queues.Pairwise fun a b => a.1 < b.1) ∧
    (let c := cmdOf 0x0810 [(0x18, 7), (0x19, 3), (0x20, 9)]
     let s := given c { up with ev := { up.ev with queues := [(7, { prod := 20, rel := 2, mark := some 4 })] } }
     (capQ s 7).mark = some 4 ∧ runsNow s (opSub 0x0810 0x19 3) c = true ∧ (capQ (after (.captureRelease 0) s) 7).rel = 4) ∧
    (capQ up 7).mark = none := by decide +kernel
theorem test_keep_command_clauses :
    (let c := cmdOf 0x0500 [(0x18, 5)]
     let s := given c { up with kp := { up.kp with recs := [(5, some { payload := [1, 2], seq := 4 })] } }
     s.kp.compacting = false ∧ tget none s.kp.recs (c.fld 0x18 4) = some { payload := [1, 2], seq := 4 } ∧ runsNow s (opIs 0x0500) c = true ∧
     outcome (.keepRead 0) s = [(0, 0, 2)]) ∧ tget none up.kp.recs 5 = none ∧ (cmdOf 0x0501 [(0x18, 0x10000)]).fld 0x18 4 ≠ 3 ∧
    (keepPut up 0x10000 (inputData up (cmdOf 0x0501 [(0x18, 0x10000), (0x1C, 8)]) 8)).kp.compacting = false ∧
    (cmdOf 0x0502 []).fld 0x30 16 = 0 ∧ (cmdOf 0x0502 [(0x30, 5)]).fld 0x30 16 ≠ 0 ∧ up.cn.joined = false ∧
    hostTime (setHostTime up 123) = 123 := by decide +kernel

/-! ### Taking and checking commands -/

/-- Pipe 2 of `bound`, its word held, its descriptor at the start of its window. -/
def mouthed : State :=
  let s := bound fun p => { p with mouth := some (256, 9) }
  { s with pp := { s.pp with sram := (writeBytes s (0x38000000 + 256 * 128) [1, 7, 1]).pp.sram } }
theorem test_take_clauses :
    (pipe mouthed 2).mouth = some (256, 9) ∧ servedAs mouthed (pipe mouthed 2).group 0 = some 0 ∧ takesCommands mouthed = true ∧
    (pipe mouthed 2).valid = true ∧ mouthed.wr.failed.getLsbD 0 = false ∧ immediateRuns mouthed 2 = false ∧ backgroundHeld mouthed < 256 ∧
    roleHolds mouthed 0 < 4096 ∧ (mouthed.pp.pipes.Pairwise fun a b => a.1 < b.1) ∧ (pipe (after (.mouthpieceTake 2 0) mouthed) 2).mouth = none ∧
    (after (.mouthpieceTake 2 0) mouthed).pp.cmds.map (·.op) = [0x0701] := by decide +kernel
theorem test_start_clauses :
    (let c := { cmdOf 0x0210 [(0x20, 1)] with phase := .queued }
     let s := given c (mapped inBisque)
     startable 0 s.pp.cmds [] = some c ∧ awake s = true ∧ rangeFail s c = none ∧ eraseMeets s c = false ∧ ¬ (c.op = 0x0200 ∧ c.fld 0x28 1 = 1) ∧
     (after (.backgroundCommandStart 0) s).pp.cmds.map (·.todo) = [[0]]) ∧
    (let c := { cmdOf 0x0210 [(0x20, 1)] with phase := .queued }
     let s := given c { up with ig := { up.ig with erasing := some (.all false) } }
     startable 0 s.pp.cmds [] = some c ∧ rangeFail s c = none ∧ eraseMeets s c = true ∧ outcome (.backgroundCommandStart 0) s = [(15, 0, 0)]) ∧
    (let c := cmdOf 0x9999 []
     let s := given c up
     (s.pp.cmds.find? fun c => c.pipe = 0 && !knownOpcode c) = some c ∧ (roleCore s c.role).isSome = true ∧ outcome (.unknownOpcode 0) s = [(1, 0, 0)]) := by
  decide +kernel
theorem test_check_clauses :
    (let c := { cmdOf 0x0001 [] with desc := 1000 }; windowFail up c = some { status := 2 } ∧ takeCheck up c = some { status := 2 }) ∧
    (let s := { mouthed with pwr := { up.pwr with limited := true } }
     let c := { cmdOf 0x0002 [(4, 0), (0x18, 1)] with pipe := 2, desc := 256 }
     windowFail s c = none ∧ (stageFail s c).isSome = true ∧ (takeCheck s c).map (·.status) = some 6) ∧
    (let s := bound fun p => { p with tokens := [(5, 6, 7)] }
     let c := { cmdOf 0x0700 [(8, 5)] with pipe := 2, desc := 256 }
     windowFail s c = none ∧ stageFail s c = none ∧ (pipe s c.pipe).tokens.find? (fun x => x.1 = c.token) = some (5, 6, 7) ∧ c.token ≠ 0 ∧
     tokenFail s c = some { status := 0x0B, a := 6, b := 7 }) ∧
    (let c := { cmdOf 0x0700 [(3, 1)] with pipe := 2, desc := 256 }
     windowFail mouthed c = none ∧ stageFail mouthed c = none ∧ tokenFail mouthed c = none ∧ keyCommand c.op = false ∧ c.fld 3 1 ≠ 0 ∧
     takeCheck mouthed c = some { status := 2, detail := 3 }) ∧
    (let s := { up with pp := { up.pp with lock := false } }
     (cmdOf 0x0110 []).pipe = 0 ∧ earlyCommand 0x0110 = false ∧ stageFail s (cmdOf 0x0110 []) = some { status := 2 }) ∧
    (let c := cmdOf 0x0001 [(0x20, 1)]
     nextCmd (given c up) 0 (fun c => c.op = 0x0001) = some c ∧ cmdCheck (given c up) c = some { status := 2, detail := 0x20 } ∧
     outcome (.identify 0) (given c up) = [(2, 0x20, 0)]) := by decide +kernel

/-! ### Commits -/

def committing (c : Commit) (s : State) : State := { s with pp := { s.pp with commit := some c } }
theorem test_commit_clauses :
    up.cn.joined = false ∧ (up.shadow.Pairwise fun a b => a.1 < b.1) ∧ (up.live.Pairwise fun a b => a.1 < b.1) ∧
    (let c := cmdOf 0x0100 []; (after (.configCommit 0) (given c up)).pp.commit.map (·.beat) = some (2 ^ 33 + 256)) ∧
    (let c := cmdOf 0x0100 []
     let s := given c { up with cn := { up.cn with joined := true, members := 1 } }
     s.cn.joined = true ∧ runsNow s (opIs 0x0100) c = true ∧ (after (.configCommit 0) s).pp.commit.map (·.beat) = some (2 ^ 33 + 1024)) := by
  decide +kernel
theorem test_live_clauses :
    (let s := committing { beat := 2 ^ 34 } up; s.clk.beat + 1 < 2 ^ 34 ∧ (after .commitLive s).pp.commit.isSome = true) ∧ up.pp.commit = none ∧
    (let s := committing { beat := 2 ^ 33 + 1, needsGo := true } up
     awake s = true ∧ 2 ^ 33 + 1 ≤ s.clk.beat + 1 ∧ (after .commitLive s).pp.commit = none ∧ (after .commitLive s).pp.epoch = 0) ∧
    (let s := committing { beat := 5 } { up with shadow := [(58, 1)] }
     badShadow s = none ∧ (s.live.Pairwise fun a b => a.1 < b.1) ∧ cfg (after .commitLive s) 58 = 1 ∧ (after .commitLive s).pp.epoch = 1) ∧
    (let s := committing { beat := 5 } { up with shadow := [(1, 0)] }
     (badShadow s).isSome = true ∧ (after .commitLive s).live = [] ∧ (after .commitLive s).pp.epoch = 0) ∧
    (let s := committing { beat := 5, change := .policy 1 2 } up; cfg (after .commitLive s) 59 = 2 ∧ (s.shadow.Pairwise fun a b => a.1 < b.1)) ∧
    (let s := committing { beat := 5, change := .budget 1 2 } up
     2 ≤ budgetMax s ∧ budgetMigrates s 1 2 = false ∧ budgetMin (after .commitLive s) = 2) ∧
    (let s := committing { beat := 5, change := .region 1 1 0 0 false 0 0 0 0 } (regioned true)
     (match regionPlan s true 1 1 0 0 false 0 0 0 0 with | .ok x => decide (x.slot = none) | .error _ => false) = true ∧
     (region (after .commitLive s) 1).valid = false) := by decide +kernel
theorem test_live_changes : (after .commitLive (committing { beat := 5 } { up with shadow := [(58, 1)] })).live ≠
    (committing { beat := 5 } { up with shadow := [(58, 1)] }).live := by decide +kernel

/-! ### Packages and capacity -/

def packaged (st : LinkState) (c : Cmd) : State := given c (updLink served 3 fun l => { l with state := st })
theorem test_remove_clauses :
    ∀ st ∈ [LinkState.training, .draining, .removable, .active, .rebuilding, .empty, .refused, .lost],
      let c := cmdOf 0x0B00 [(0x18, 3)]
      runsNow (packaged st c) (opIs 0x0B00) c = true ∧ (link (packaged st c) 3).state = st ∧ (∀ d ∈ (packaged st c).pp.cmds, d.id = c.id → d = c) ∧
      (outcome (.prepareRemove 0) (packaged st c)).length = if st ∈ [.removable, .empty, .refused, .lost] then 1 else 0 := by decide +kernel
theorem test_online_clauses :
    let c := cmdOf 0x0B01 [(0x18, 3)]
    runsNow (packaged .removable c) (opIs 0x0B01) c = true ∧ (link (after (.online 0) (packaged .removable c)) 3).state = .training ∧
    runsNow (packaged .refused c) (opIs 0x0B01) c = true ∧ (link (packaged .refused c) 3).state ≠ .removable := by decide +kernel
theorem test_freshness_clause :
    let c := cmdOf 0x0C00 []
    let s := given c { up with ig := { up.ig with rootState := 2 } }
    runsNow s (opIs 0x0C00) c = true ∧ s.ig.rootState = 2 ∧ outcome (.acceptFreshness 0) s = [(0, 0, 3)] ∧ up.ig.rootState ≠ 2 := by decide +kernel
def fourRanks : State :=
  { up with mp := { up.mp with pop := [0, 1, 2, 3], capGib := 4 }
            ln := { up.ln with links := (List.range 72).map fun n => (n, { state := .active, inService := true }) } }
theorem test_capacity_clause :
    let c := cmdOf 0x0D01 [(0x18, 4)]
    runsNow (given c fourRanks) (opIs 0x0D01) c = true ∧ ((after (.capacitySet 0) (given c fourRanks)).mp.pendingCap.map (·.1)) = some 4 := by
  decide +kernel
theorem test_power_clauses :
    ZonesWf up ∧ up.cn.joined = false ∧ (zone (after (.throttle 0) (given (cmdOf 0x0901 [(0x18, 5), (0x1A, 4)]) up)) 2).floorNext = 4 ∧
    (let c := cmdOf 0x0902 [(0x18, 2)]
     let s := given c { up with cn := { up.cn with joined := true, members := 1 } }
     runsNow s (opIs 0x0902) c = true ∧ s.cn.joined = true ∧ (after (.powerEnter 0) s).pwr.askedCmd = some 7) ∧
    (let c := cmdOf 0x0A00 []
     let s := given c { up with cn := { up.cn with trains := false } }
     runsNow s (opSub 0x0A00 0x18 0) c = true ∧ joinReason s = 4 ∧ (after (.consortJoin 0) s).cn.refused = 4) ∧
    (let c := cmdOf 0x0A00 []
     let s := given c { up with cn := { up.cn with joined := true, members := 1 } }
     runsNow s (opSub 0x0A00 0x18 0) c = true ∧ s.cn.joined = true) ∧ joinReason up = 0 ∧ up.cn.pos < 4 := by
  unfold ZonesWf; decide +kernel

/-! ### Erases and the sweep -/

def sweeping (x : Secure) : State :=
  let s := slot0 { cold with secure := true }
  { s with pl := { s.pl with secure := [x] } }
theorem test_erase_clauses :
    (let s := { served with ig := { served.ig with erasesQueued := [(0, some 7)] } }
     (s.ig.erasesQueued.find? fun x => x.1 = EraseKind.code .secureErase) = some (0, some 7) ∧ mediaUp s = true ∧ s.ig.erasing = none ∧
     (after (.eraseStart .secureErase) s).ig.sysGen = 1) ∧ (served.ig.erasesQueued.find? fun x => x.1 = EraseKind.code .sanitize) = none ∧
    (let s := { served with ig := { served.ig with erasing := some (.domain 3), eraseMailbox := true } }
     s.ig.erasing = some (.domain 3) ∧ mediaUp s = true ∧ (after .eraseComplete s).ig.erasing = none ∧ EraseScope.domain 3 ≠ .all true) ∧
    20000 ≤ (stripe (placed [(5, { cycles := 20000 })] {}) 5).cycles ∧ (stripe up 5).cycles < 20000 := by decide +kernel
theorem test_sweep_step_clauses :
    mediaRuns (sweeping { step := 6 }) = true ∧ (sweeping { step := 6 }).pl.secure = [{ step := 6 }] ∧
    lineDurable (sweeping { step := 6 }) (mapLineOf 0) = true ∧ (after .secureSweep (sweeping { step := 6 })).pl.secure = [] ∧
    (let s := { sweeping { step := 4 } with th := { up.th with parked := [7] } }
     mediaRuns s = true ∧ sweepEnds s = false ∧ (after .secureSweep s).pl.secure = [{ step := 4 }]) ∧
    homesReach (sweeping { step := 1 }) 0 = true ∧ (entryNow (sweeping { step := 1 }) 0).bisqueHome ≠ none40 ∧
    mediaImg (after .secureSweep (sweeping { step := 1 })) 0 0 = .destroyed ∧ mediaRuns asleep = false := by decide +kernel

/-! ### Ranges -/

def ranging (op : Nat) (kind : Nat) : Cmd := { cmdOf op [(0x20, 1), (0x28, kind)] with phase := .running, todo := [0], range := (0, 1) }
theorem test_range_clauses :
    ∀ x ∈ [(0x0200, 0), (0x0200, 1), (0x0210, 0), (0x0300, 0), (0x0300, 1), (0x0300, 2), (0x0300, 3), (0x0400, 0)],
      let s := given (ranging x.1 x.2) (mapped inBisque)
      awake s = true ∧ nextCmd s 0 (opSub x.1 0x28 x.2) = some (ranging x.1 x.2) ∧ (ranging x.1 x.2).ranges ≠ [] ∧
      nextCmd s 0 (fun c => 0 ∈ c.todo) = some (ranging x.1 x.2) := by decide +kernel
/-- One page is left to a range command, and its action point may act on it now. -/
theorem test_range_acts :
    (∀ x ∈ [(0x0200, 0), (0x0200, 1), (0x0210, 0), (0x0300, 0), (0x0300, 1), (0x0300, 2), (0x0300, 3), (0x0400, 0)],
      let s := given (ranging x.1 x.2) (mapped inBisque)
      cmdNow s (ranging x.1 x.2).id = some (ranging x.1 x.2) ∧ (ranging x.1 x.2).todo = [0] ∧ (ranging x.1 x.2).waiting = []) ∧
    (discardPage (given (ranging 0x0200 0) (mapped inBisque)) 0).isSome = true ∧
    (securePage (given (ranging 0x0200 1) (mapped inBisque)) 0 7).isSome = true ∧
    (zeroPage (given (ranging 0x0210 0) (mapped inBisque)) 0).isSome = true ∧
    (∀ k ∈ [0, 1, 2, 3], (hintPage (given (ranging 0x0300 k) (mapped inBisque)) 0 k).isSome = true) ∧
    pinFull (given (ranging 0x0300 2) (mapped inBisque)) (ranging 0x0300 2) 0 = false ∧
    outcome (.discard 0) (given (ranging 0x0200 0) (mapped inBisque)) = [(0, 0, 1)] ∧
    (let s := given (ranging 0x0200 0) (mapped inBisque)
     ((discardPage s 0).map fun u => decide (cmdNow u 7 = some (ranging 0x0200 0))) = some true ∧
     (after (.rangeActionPoint 0 0) s).pp.cmds.map (·.todo) = [[]]) := by decide +kernel
theorem test_copy_range :
    let c : Cmd := { cmdOf 0x0211 [(0x20, 4096), (0x28, 1)] with phase := .running, todo := [0], range := (1, 1) }
    let s := given c (mapped inBisque)
    Ranging s 0 (fun c => c.op = 0x0211) c ∧ copyPages s 0 1 ≠ none := ⟨⟨by decide +kernel, by decide +kernel, by decide +kernel⟩, by decide +kernel⟩
theorem test_range_ends :
    (let c := { ranging 0x0210 0 with todo := [] }
     let s := given c up
     cmdNow s c.id = some c ∧ c.waiting.filter (stillWaits s c) = [] ∧ (settleRange s c.id).pp.comps.map (·.resA) = [1]) ∧
    (let c := { ranging 0x0200 1 with todo := [], found := [4, 5] }
     (settleRange (given c up) c.id).pp.comps.map (·.resB) = [2]) ∧
    (let c := { ranging 0x0300 1 with todo := [] }; (settleRange (given c up) c.id).pp.comps.map (·.resA) = [0]) ∧
    (let c := ranging 0x0210 0; cmdNow (given c up) c.id = some c ∧ c.todo ≠ []) ∧
    (let s := { up with hl := { up.hl with scanPages := [4, 5] } }
     awake s = true ∧ nextCmd s 0 (fun c => 4 ∈ c.todo) = none ∧ (after (.rangeActionPoint 0 4) s).hl.scanPages = [5]) := by decide +kernel
theorem test_page_clauses :
    (let s := mapped inBisque
     entry? (fetchSeg s 0) 0 = some inBisque ∧ pageWaits (fetchSeg s 0) 0 = false ∧ inBisque.state ≠ .unmapped ∧ inBisque.state ≠ .discardPending ∧
     inDrain (fetchSeg s 0) 0 = false ∧ inFiring (fetchSeg s 0) 0 = false ∧ inSecure (fetchSeg s 0) 0 = false ∧ 0 ∉ (fetchSeg s 0).pl.relocating ∧
     ((discardPage s 0).bind fun t => (entry? t 0).map (·.state)) = some .discardPending ∧
     ((zeroPage s 0).bind fun t => (entry? t 0).map (·.state)) = some .unmapped ∧
     ((securePage s 0 7).bind fun t => (entry? t 0).map (·.secure)) = some true ∧
     ((hintPage s 0 0).bind fun t => (entry? t 0).map (·.heatCount)) = some 4095) ∧
    (entry? (fetchSeg draining 0) 0 = some inBisque ∧ pageWaits (fetchSeg draining 0) 0 = true) ∧
    (let s := given (ranging 0x0300 2) { mapped inBisque with live := [(1, 0)] }
     (ranging 0x0300 2).todo.head? = some 0 ∧ (entryNow s 0).pin = false ∧ pinRoom s (pinRank s 0) = false ∧
     (actOn s (ranging 0x0300 2) 0).pp.comps.map (·.status) = [9]) ∧
    (1 ∉ (ranging 0x0200 0).todo ∧ 0 ∈ (ranging 0x0200 0).todo ∧ (ranging 0x0200 0).fld 0x28 1 ≠ 1) ∧
    (let e : MapEntry := { state := .glaze, glazeHome := 1 }; entry? (fetchSeg (mapped e) 0) 0 = some e) := by decide +kernel

/-! ### Last breath -/

theorem test_breath_clauses :
    up.pwr.supplies = true ∧ up.pwr.step = 12 ∧ (after .pwrfailNAssert up).pwr.pwrfail = true ∧
    ((starting 3).pwr.inReset = false ∧ 1 ≤ (starting 3).pwr.step ∧ (starting 3).pwr.consumedWritten = false ∧ (starting 3).pwr.limited = false ∧
     (after .pwrfailNAssert (starting 3)).pwr.stopped = true) ∧ dark.pwr.supplies = false ∧
    (let s := lines [(1, dirty)] { served with pwr := { up.pwr with pwrfail := true } }
     awake s = true ∧ s.pwr.mediaIdle = false ∧ s.pwr.breath = none ∧ breathList s ≠ [] ∧
     ((after (.lastBreathStart .pwrfail) s).pwr.breath.map (·.lines)) = some [dirty]) ∧
    (let s := { served with hl := { up.hl with gpfWaiting := true }, pwr := { up.pwr with breath := some {} } }
     s.hl.gpfWaiting = true ∧ s.pwr.breath = some {} ∧ 1 ∉ ({} : Breath).merged ∧
     ((after (.lastBreathStart .gpf) s).pwr.breath.map (·.merged)) = some [1]) ∧
    triggered up .gpf = false ∧
    (let s := { up with hl := { up.hl with gpfWaiting := true } }
     s.pwr.breath = none ∧ breathList s = [] ∧ (after (.lastBreathStart .gpf) s).hl.gpfDone = true) ∧
    (let s := { up with pwr := { up.pwr with breath := some { lines := [dirty] }, nextBseq := 4 } }
     s.pwr.breath = some { lines := [dirty] } ∧ ({ lines := [dirty] } : Breath).trigger < 4 ∧ (after (.breathSeal 9) s).pwr.sealed = 4 ∧
     (after (.breathSeal 70000) s).pwr.beats = 65535) := by decide +kernel

/-! ### Migrations -/

def migrating (x : MigSlot) (s : State) : State := { s with mp := { s.mp with mig := [(1, x)] } }
def mig0 : MigSlot := { valid := true, kind := 1, size := 1, durable := true }
/-- Leaf 0 with its sixteen segments cached. -/
def leafed (x : MigSlot) : State :=
  migrating x { served with mp := { served.mp with cache := (List.range 16).map fun g => (g, some { entries := List.replicate 8 {} }) } }
theorem test_migration_clauses :
    (let s := migrating { mig0 with durable := false } up
     (migSlot s 1).valid = true ∧ (migSlot s 1).durable = false ∧ keepUp s = true ∧ awake s = true ∧
     (migSlot (after (.migrationRecordDurable 1) s) 1).durable = true) ∧ (migSlot up 1).valid = false ∧
    (let s := leafed mig0
     mediaRuns s = true ∧ (migSlot s 1).kind ≠ 4 ∧ (migSlot s 1).active.length < 16 ∧ nextLeaf (migSlot s 1) = 0 ∧
     0 < ((migSlot s 1).base + (migSlot s 1).size) * 2048 ∧ (∀ r ∈ leafRanks s 0, lostLinks s r < 3) ∧ leafHeld (holdLeaf s 0) 0 = true ∧
     (migSlot (after (.leafConvertStart 1) s) 1).active = [0]) := by decide +kernel
theorem test_switch_clauses :
    (let s := leafed { mig0 with active := [0], target := true }
     mediaRuns s = true ∧ 0 ∈ (migSlot s 1).active ∧ 0 ∉ (migSlot s 1).switched ∧
     (leafPages 0).all (pageReady s (migSlot s 1)) = true ∧ leafHeld s 0 = true ∧
     (migSlot (after (.leafSwitchBeat 1 0) s) 1).switched = [0]) ∧
    (let s := migrating { mig0 with active := [0], switched := [0] } up
     awake s = true ∧ (migSlot s 1).active.head? = some 0 ∧ (∀ i, i < 64 → lineDurable s (0 * 64 + i) = true) ∧
     ((migSlot s 1).doneLeaves + 1) - (migSlot s 1).passBase ≠ (migSlot s 1).size * 2048 ∧
     (migSlot (after (.leafConvertDone 1 0) s) 1).doneLeaves = 1) := by decide +kernel
theorem test_budget_migration_clauses :
    (let s := migrating { mig0 with kind := 4, ranks := [0] } (placed [] {})
     (s.mp.mig.find? fun x => x.2.valid && x.2.kind = 4 && x.2.durable) = some (1, { mig0 with kind := 4, ranks := [0] }) ∧
     mediaRuns s = true ∧ parked s 0 = false ∧ budgetLack s 0 ≠ 0 ∧ (nextDirty s 0).isSome = true ∧
     ((nextDirty s 0).map fun y => decide (y.2.cycles < 20000)) = some true ∧
     (after (.budgetMigrationStripe 0) s).pl.stripes.map (fun x => (x.2.state, x.2.bisque)) = [(.blank, true)]) ∧
    (let s := migrating { mig0 with kind := 4, ranks := [0] } { placed [] {} with live := [(1, 0)] }
     parked s 0 = false ∧ (∀ q ∈ [0], budgetLack s q = 0) ∧ (migSlot (after (.budgetMigrationStripe 0) s) 1).valid = false) ∧
    (up.mp.mig.find? fun x => x.2.valid && x.2.kind = 4 && x.2.durable) = none := by decide +kernel

/-! ### The consort -/

/-- Position 0 of a consort of two, position 1 heard now. -/
def member (f : ConsortSt → ConsortSt) : State :=
  { up with cn := f { up.cn with joined := true, members := 3, heard := [(1, 2 ^ 33)], peers := [(1, some {})] } }
theorem test_status_clauses :
    briterUp up = true ∧ (1 : Fin 4).val ≠ up.cn.pos ∧ up.cn.joined = false ∧ (after (.briterStatus 1 {}) up).cn.peers = [(1, some {})] ∧
    (let s := member id; s.cn.joined = true ∧ (after (.briterStatus 1 { epoch := 4 }) s).cn.peers = [(1, some { epoch := 4 })] ∧
     (after .briterStatusSend s).cn.sent.length = 1) ∧ briterUp dark = false ∧ (0 : Fin 4).val = up.cn.pos := by decide +kernel
theorem test_join_clauses :
    (let s := member fun c => { c with members := 1 }
     briterUp s = true ∧ s.cn.joined = true ∧ s.cn.members.getLsbD (1 : Fin 4).val = false ∧
     ({ digest := liveDigest s } : PeerStatus).compat = 1#32 ∧ ({ digest := liveDigest s } : PeerStatus).digest = liveDigest s) ∧
    ({ compat := 2 } : PeerStatus).compat ≠ 1#32 ∧ (after (.briterJoin 1 0 { compat := 2 }) (member fun c => { c with members := 1 })).cn.members = 1#4 :=
  ⟨⟨by decide +kernel, by decide +kernel, by decide +kernel, rfl, rfl⟩, by decide +kernel⟩
theorem test_briter_takes :
    (∀ f ∈ [BriterFrame.join 1 0, .reg 5 0, .prepare 5 .configuration, .ack 5 0, .nack 5 9, .go 5, .abort 5], briterTakes (member id) f = true) ∧
    (after (.briterStatus 1 { epoch := 4 }) (member id)).cn.relayed.map (·.1) = [1] := by decide +kernel
theorem test_sema_clauses :
    (let s := member id
     s.cn.members.getLsbD 1 = true ∧ tget none s.pp.sema 5 = none ∧ tget none (after (.briterReg 1 5 false) s).pp.sema 5 = some 0x31#8 ∧
     tget none s.pp.sema 5 ≠ some (BitVec.ofNat 8 (0x30 + 1))) ∧
    (let s := { member id with pp := { up.pp with sema := [(5, some 0x31)] } }
     tget none s.pp.sema 5 = some 0x31#8 ∧ tget none (after (.briterReg 1 5 true) s).pp.sema 5 = none ∧
     (after (.briterReg 1 5 false) s).pp.sema = s.pp.sema) := by decide +kernel
theorem test_time_clauses :
    (let s := member fun c => { c with beatLeader := 1, timeLeader := 1, peers := [(1, some { count := 16000000 })] }
     s.cn.pos ≠ s.cn.beatLeader ∧ s.clk.lastAdjust + 1024 ≤ s.clk.beat ∧ (after (.beatAlign true) s).clk.adjust = 1 ∧
     followsTime s = true ∧ (tget none s.cn.peers s.cn.timeLeader).isSome = true ∧ (leaderDiff s - s.cn.slew).natAbs ≤ 16000000 ∧
     s.cn.lastSlew + 1024 ≤ s.clk.beat ∧ leaderDiff s ≠ s.cn.slew ∧ (after .timeSlew s).cn.slew = 1) ∧
    (let s := member fun c => { c with timeLeader := 1, peers := [(1, some { count := 16000001 })] }
     16000000 < (leaderDiff s - s.cn.slew).natAbs ∧ (after .timeSlew s).cn.slew = 16000001) ∧
    (let s := { up with clk := { up.clk with lastAdjust := 2 ^ 33 - 1023 } }; s.clk.beat < s.clk.lastAdjust + 1024) := by decide +kernel
theorem test_loss_clauses :
    (let s := member fun c => { c with heard := [(1, 2 ^ 33 - 64)] }
     s.cn.members.getLsbD 1 = true ∧ tget 0 s.cn.heard 1 + 64 ≤ s.clk.beat ∧ (after (.memberLost 1) s).cn.members = 1#4) ∧
    (let s := member fun c => { c with heard := [(1, 2 ^ 33 - 63)] }
     s.clk.beat < tget 0 s.cn.heard 1 + 64 ∧ (after (.memberLost 1) s).cn.members = 3#4) ∧
    crc8 0 = (0 : BitVec 64).toNat % 256 ∧ crc8 1 ≠ (1 : BitVec 64).toNat % 256 ∧
    ((member id).cn.crcAt.filter fun b => (member id).clk.beat < b + 1024).length < 7 ∧
    (let s := member fun c => { c with crcAt := List.replicate 7 (2 ^ 33) }
     7 ≤ (s.cn.crcAt.filter fun b => s.clk.beat < b + 1024).length ∧ (after (.briterCrcFail 1) s).cn.faults = 1) := by decide +kernel
/-- CRC-8 with polynomial 0x07 of six zero bytes and then 0x01, worked bit by bit outside the model. -/
theorem test_crc8 : crc8 0x0000000000000100#64 = 0x07 := by decide +kernel

def agreeing (a : Agreement) (f : ConsortSt → ConsortSt) : State := member fun c => f { c with agreement := some a }
theorem test_prepare_clauses :
    (let s := member id
     s.cn.agreement = none ∧ s.pp.commit = none ∧ badShadow s = none ∧ commitBusy s = false ∧
     (after (.briterPrepare 1 5 .configuration) s).pp.commit = some { beat := 5, needsGo := true }) ∧
    (let s := { member id with shadow := [(1, 0)] }
     (badShadow s).isSome = true ∧ (after (.briterPrepare 1 5 .configuration) s).cn.sent = [.nack 5 1]) ∧
    (let s := committing {} (member id)
     s.pp.commit.isSome = true ∧ (after (.briterPrepare 1 5 .configuration) s).cn.sent = [.nack 5 2]) := by decide +kernel
theorem add_one_ne (d : BitVec 64) : d + 1#64 ≠ d := by intro h; bv_omega
theorem test_ack_clauses :
    let a : Agreement := { origin := 0, n := 5, preparedAt := 2 ^ 33 - 40 }
    let s := agreeing a id
    s.cn.agreement = some a ∧ a.origin = s.cn.pos ∧ a.n = (5 : BitVec 64).toNat ∧ a.go = false ∧ a.kind = .configuration ∧
    (∀ p ∈ others s, p = (1 : Fin 4).val ∨ p ∈ a.acks) ∧ proposedDigest s + 1#64 ≠ proposedDigest s ∧
    a.preparedAt + 40 ≤ s.clk.beat ∧ (after .agreementAckTimeout s).cn.agreement = none ∧
    (after (.briterNack 1 5 9) s).cn.agreement = none :=
  ⟨by decide +kernel, by decide +kernel, by decide +kernel, by decide +kernel, by decide +kernel, by decide +kernel,
    add_one_ne _, by decide +kernel, by decide +kernel, by decide +kernel⟩
theorem test_go_clauses :
    (let a : Agreement := { origin := 1, n := 5 }
     let s := agreeing a id
     a.origin = (1 : Fin 4).val ∧ a.n = (5 : BitVec 64).toNat ∧ a.go = false ∧ a.origin ≠ s.cn.pos ∧ a.n ≤ toConsort s s.clk.beat + 1 ∧
     (after .goMissed s).cn.faults = 1 ∧ (after (.briterAbort 1 5) s).cn.agreement = none ∧
     (after (.briterGo 1 5) s).cn.agreement = some { a with go := true }) ∧
    (let a : Agreement := { preparedAt := 2 ^ 33 - 39 }
     (agreeing a id).clk.beat < a.preparedAt + 40 ∧ (after .agreementAckTimeout (agreeing a id)).cn.agreement = some a) := by decide +kernel
theorem test_power_agreements :
    (let s := { member id with pwr := { up.pwr with asked := some 2, askedCmd := some 7 } }
     commitBusy s = false ∧ s.pwr.askedCmd = some 7 ∧ s.pwr.asked = some 2 ∧
     ((after .powerPropose s).cn.agreement.map (·.n)) = some (2 ^ 33 + 128)) ∧
    (let s := member fun c => { c with want := 2, peers := [(1, some { want := 3 })] }
     s.pwr.askedCmd = none ∧ (memberList s).headD s.cn.pos = s.cn.pos ∧ 2 ≤ wantedByAll s ∧
     ((after .powerPropose s).cn.agreement.map (·.kind)) = some (.power 2)) ∧
    (let s := { member id with pwr := { up.pwr with state := .sleep } }
     s.pwr.inReset = false ∧ s.pwr.state = .sleep ∧ (after (.briterWake 1) s).pwr.wakeSrc = 5) ∧
    (let s := { member id with pwr := { up.pwr with state := .deepSleep } }
     s.pwr.state = .deepSleep ∧ (after (.briterWake 1) s).ev.wakePending = some 5) := by decide +kernel

/-! ### Registers, latches, semaphores, the test access port -/

theorem test_config_clauses :
    masterReaches up 0 = true ∧ hostOpen up = true ∧ 65536 ≤ 77848 ∧ 77848 % 8 = 0 ∧ locate 0 77848 = some (18, 0, 24) ∧ 24 % 8 = 0 ∧
    cfgAt 18 24 = some (0, false) ∧ locate 0 79896 = some (18, 0, 2072) ∧ cfgAt 18 2072 = some (0, true) ∧
    (after (.registerWrite 0 0 77848 8 (BitVec.allOnes 512)) up).live = [] ∧
    cfgShadow (after (.registerWrite 0 0 77848 8 (BitVec.allOnes 512)) up) 0 = (cfgReset 0 &&& ~~~(cfgMask 0)) ||| cfgMask 0 ∧
    locate 0 (2 ^ 27 - 8) = none ∧ locate 0 65536 = some (1, 0, 0) ∧ cfgAt 1 (0 / 8 * 8) = none := by decide +kernel
theorem test_access_clauses :
    barAccessOk 0 77848 3 = false ∧ (after (.registerRead 0 0 77848 3) up).hl.completerAbort = true ∧
    ((after (.registerRead 0 0 77848 3) up).hl.aerHead.map (·.off)) = some 77848 ∧ barAccessOk 0 (2 ^ 27 - 8) 8 = true ∧
    locate 0 (2 ^ 27 - 8) = none ∧ (0x22 : Byte) ≠ 0 ∧ masterReaches up 0x22 = false ∧ deep.pwr.state = .deepSleep ∧
    (after (.registerRead 0 0 77848 8) deep).ev.wakePending = some 1 ∧ (after (.registerRead 0 0 65528 8) up).hl.rdData ≠ 1 ∧
    barAccessOk 4 64 8 = true ∧ locate 4 64 = some (0x70, 0, 64) ∧
    readByte (after (.registerWrite 0 4 64 8 0x1122334455667788) up) 0x38000047 = 0x11 := by decide +kernel
/-- R612: the host's accesses are CXL.io payload at ports 2 (in) and 3 (out) of its monitor. -/
theorem test_io_payload :
    (let s := updMon up 0 fun x => { x with window := 1000 }
     (mon (after (.registerWrite 0 4 64 8 5) s) 0).ports = [0, 0, 8, 0] ∧
     (mon (after (.registerRead 0 4 64 4) s) 0).ports = [0, 0, 0, 4] ∧
     (mon (after (.registerWrite 0x10 4 64 8 5) s) 0).ports = [0, 0, 0, 0]) := by decide +kernel
theorem test_event_register_clauses :
    (let s := { up with ev := { up.ev with head := 1, ring := [(0, some { code := 0x23, cls := 2 })] } }
     s.ev.floor ≤ (0 : BitVec 63).toNat ∧ (0 : BitVec 63).toNat < s.ev.head ∧ s.ev.head ≤ (0 : BitVec 63).toNat + 65536 ∧
     tget none s.ev.ring ((0 : BitVec 63).toNat % 65536) = some { code := 0x23, cls := 2 } ∧ (after (.evntRdselWrite 0) s).ev.held = true) ∧
    up.ev.head ≤ (5 : BitVec 63).toNat ∧ selectOk (0 : Fin 67).val (fld (0xFF0000 : Reg) 0 16) (fld (0xFF0000 : Reg) 16 8) = true ∧
    selectOk (0 : Fin 67).val (fld (0 : Reg) 0 16) (fld (0 : Reg) 16 8) = false ∧ (after (.monSelWrite 0 0 0) up).ev.mons = [] := by decide +kernel
theorem test_latch_clauses :
    (let s := { up with clk := { up.clk with beat := 2 ^ 32 * 7 + 5 } }
     let t := after (.bclkHalfRead 0 0 false) s
     t.hl.rdData = 5 ∧ (t.clk.latches.find? fun x => x.1 = (0 : Byte).toNat && x.2.1 = (0 : Fin 3).val) = some (0, 0, 7) ∧ masterReaches t 0 = true ∧
     (after (.bclkHalfRead 0 0 true) t).hl.rdData = 7) ∧
    tget none up.pp.sema 3 = none ∧ (after (.semaTakeRead 0 3 false) up).hl.rdData = 0x8000 ∧
    (let s := { up with pp := { up.pp with sema := [(3, some 0x10)] } }
     tget none s.pp.sema 3 = some 0x10#8 ∧ tget none s.pp.sema 3 ≠ some 0#8 ∧ masterReaches s 0x10 = true ∧
     (after (.semaTakeRead 0 3 false) s).hl.rdData = 0x8010 ∧ (after (.semaTakeWrite 0x10 3) s).pp.sema = []) := by decide +kernel
theorem test_tap_clauses :
    up.pwr.supplies = true ∧ dark.pwr.supplies = false ∧ (after (.tapInstruction (.extest 3)) up).hl.extest = some 3 ∧
    (let s := { starting 1 with pwr := { (starting 1).pwr with halted := true } }
     s.pwr.halted = true ∧ (after (.tapInstruction .haltRelease) s).pwr.step = 2) := by decide +kernel

/-- The idle clause of StepRunsFrontCommand. -/
theorem test_idle_clause : up.pending = [] ∧ step up = .next up := ⟨rfl, rfl⟩

/-- R580 and R583 at the end of startup step 4: the events of the index and of a record found twice. -/
theorem test_keep_findings :
    (let s := { (starting 4) with kp := { (starting 4).kp with formatted := true } }
     let t := after (.startupStepEnd { indexFails := true, keepDuplicates := [(5, true)] }) s
     t.pwr.step = 5 ∧ (t.ev.ring.map fun x => x.2.map fun e => (e.code, e.p0, e.p1)) = [some (0x71, 0, 0), some (0x70, 5, 1)]) := by decide +kernel

end Sys2Proof.Tests
end

section
/-! The frame of every command in one statement, and the live configuration in it. -/
namespace Sys2Proof.Proofs.Frame
open Sys2Proof Machine Safety

/-- Every command keeps the queue, the invariant and every part of the state that `touches` does not list for it. -/
theorem exec_keeps_touched (c : Instr) (s : State) : KeepsO (maskOf (touches c)) s (exec c s) := by
  have r (k : BitVec 21) : Keeps k s s := .refl k s
  cases c with dsimp only [touches]
  | powerOn => exact execPowerOn_keeps (r _) rfl
  | resetNAssert => exact execResetNAssert_keeps (r _) rfl
  | resetNRelease => exact execResetNRelease_keeps (r _) rfl
  | brownOut => exact execBrownOut_keeps (r _) rfl
  | suppliesUpUnreset => exact execSuppliesUpUnreset_keeps (r _) rfl
  | startupStepEnd => exact execStartupStepEnd_keeps (r _) rfl
  | pwrfailNAssert => exact execPwrfailNAssert_keeps (r _) rfl
  | pwrfailNDeassert => exact execPwrfailNDeassert_keeps (r _) rfl
  | wakeAssert => exact execWakeAssert_keeps (r _) rfl
  | referenceFailure => exact execReferenceFailure_keeps (r _) rfl
  | hostReset => exact execHostReset_keeps (r _) rfl
  | ondieThermtrip sensor => exact execOndieThermtrip_keeps (a0 := sensor) (r _) rfl
  | offEntry => exact execOffEntry_keeps (r _) rfl
  | backupSupplyLow => exact execBackupSupplyLow_keeps (r _) rfl
  | oscillatorStop => exact execOscillatorStop_keeps (r _) rfl
  | crystalStop => exact execCrystalStop_keeps (r _) rfl
  | crystalResume => exact execCrystalResume_keeps (r _) rfl
  | calendarTick => exact execCalendarTick_keeps (r _) rfl
  | trimApply => exact execTrimApply_keeps (r _) rfl
  | beatBoundary => exact execBeatBoundary_keeps (r _) rfl
  | frameStart => exact execFrameStart_keeps (r _) rfl
  | upstreamFrame => exact execUpstreamFrame_keeps (r _) rfl
  | lossOfSignal => exact execLossOfSignal_keeps (r _) rfl
  | workUnitSubmit => exact execWorkUnitSubmit_keeps (r _) rfl
  | lineDecodeDone => exact execLineDecodeDone_keeps (r _) rfl
  | dataResponse => exact execDataResponse_keeps (r _) rfl
  | memRd => exact execMemRd_keeps (r _) rfl
  | memSpecRd hpa tag => exact execMemSpecRd_keeps (a0 := hpa) (a1 := tag) (r _) rfl
  | memInv => exact execMemInv_keeps (r _) rfl
  | memWr => exact execMemWr_keeps (r _) rfl
  | memWrPtl => exact execMemWrPtl_keeps (r _) rfl
  | cxlMemUnsupported => exact execCxlMemUnsupported_keeps (r _) rfl
  | fillComplete => exact execFillComplete_keeps (r _) rfl
  | fillRetry => exact execFillRetry_keeps (r _) rfl
  | drainStart => exact execDrainStart_keeps (r _) rfl
  | drainVerified => exact execDrainVerified_keeps (r _) rfl
  | writeDiscardHoldEnd => exact execWriteDiscardHoldEnd_keeps (r _) rfl
  | mapWriteBackVerified => exact execMapWriteBackVerified_keeps (r _) rfl
  | mapCleaningVisit => exact execMapCleaningVisit_keeps (r _) rfl
  | gapMove => exact execGapMove_keeps (r _) rfl
  | gapMoveVerified => exact execGapMoveVerified_keeps (r _) rfl
  | mapStripeSwap => exact execMapStripeSwap_keeps (r _) rfl
  | heatEpochAdvance => exact execHeatEpochAdvance_keeps (r _) rfl
  | budgetAdjust => exact execBudgetAdjust_keeps (r _) rfl
  | fireQueueWalk => exact execFireQueueWalk_keeps (r _) rfl
  | fireWaitExpiry => exact execFireWaitExpiry_keeps (r _) rfl
  | firingStart => exact execFiringStart_keeps (r _) rfl
  | wordLineVerified => exact execWordLineVerified_keeps (r _) rfl
  | guardVerifyPass => exact execGuardVerifyPass_keeps (r _) rfl
  | guardPassComplete => exact execGuardPassComplete_keeps (r _) rfl
  | blankingStart => exact execBlankingStart_keeps (r _) rfl
  | blankingComplete => exact execBlankingComplete_keeps (r _) rfl
  | reclaimStart => exact execReclaimStart_keeps (r _) rfl
  | reclaimMoveVerified => exact execReclaimMoveVerified_keeps (r _) rfl
  | victimRelease => exact execVictimRelease_keeps (r _) rfl
  | levellingCheck => exact execLevellingCheck_keeps (r _) rfl
  | bisqueRelocation => exact execBisqueRelocation_keeps (r _) rfl
  | restamp => exact execRestamp_keeps (r _) rfl
  | refresh => exact execRefresh_keeps (r _) rfl
  | secureSweep => exact execSecureSweep_keeps (r _) rfl
  | packageAlertDetails => exact execPackageAlertDetails_keeps (r _) rfl
  | rebuildStripeDone => exact execRebuildStripeDone_keeps (r _) rfl
  | sramEccError => exact execSramEccError_keeps (r _) rfl
  | sramRowRepair => exact execSramRowRepair_keeps (r _) rfl
  | sramChannelFail => exact execSramChannelFail_keeps (r _) rfl
  | sramChannelCopyDone => exact execSramChannelCopyDone_keeps (r _) rfl
  | coreHeartbeatTimeout => exact execCoreHeartbeatTimeout_keeps (r _) rfl
  | coreFailoverDone => exact execCoreFailoverDone_keeps (r _) rfl
  | driftTick => exact execDriftTick_keeps (r _) rfl
  | driftStateSave => exact execDriftStateSave_keeps (r _) rfl
  | coneCapture => exact execConeCapture_keeps (r _) rfl
  | coneMasks => exact execConeMasks_keeps (r _) rfl
  | stripeSweep => exact execStripeSweep_keeps (r _) rfl
  | scrubPassStart => exact execScrubPassStart_keeps (r _) rfl
  | scrubVisit => exact execScrubVisit_keeps (r _) rfl
  | scrubOverrun => exact execScrubOverrun_keeps (r _) rfl
  | treeNodeWrite => exact execTreeNodeWrite_keeps (r _) rfl
  | nodeWriteVerified => exact execNodeWriteVerified_keeps (r _) rfl
  | bImageWrite => exact execBImageWrite_keeps (r _) rfl
  | stampSlotWriteBack => exact execStampSlotWriteBack_keeps (r _) rfl
  | stampCeilDurable => exact execStampCeilDurable_keeps (r _) rfl
  | eraseStart => exact execEraseStart_keeps (r _) rfl
  | eraseComplete => exact execEraseComplete_keeps (r _) rfl
  | ucieRetrain => exact execUcieRetrain_keeps (r _) rfl
  | ucieRetrainDone => exact execUcieRetrainDone_keeps (r _) rfl
  | linkDown => exact execLinkDown_keeps (r _) rfl
  | linkTrainRetry => exact execLinkTrainRetry_keeps (r _) rfl
  | gpfPhase1 => exact execGpfPhase1_keeps (r _) rfl
  | gpfPhase2 => exact execGpfPhase2_keeps (r _) rfl
  | memEnableSet => exact execMemEnableSet_keeps (r _) rfl
  | hdmDecoderCommit => exact execHdmDecoderCommit_keeps (r _) rfl
  | msixUnmask => exact execMsixUnmask_keeps (r _) rfl
  | doeCdat => exact execDoeCdat_keeps (r _) rfl
  | spdmRequest => exact execSpdmRequest_keeps (r _) rfl
  | ideKmKeyProg => exact execIdeKmKeyProg_keeps (r _) rfl
  | ideKmKSetGo => exact execIdeKmKSetGo_keeps (r _) rfl
  | ideKmKSetStop => exact execIdeKmKSetStop_keeps (r _) rfl
  | ideIntegrityFailure => exact execIdeIntegrityFailure_keeps (r _) rfl
  | cxlGetEventRecords => exact execCxlGetEventRecords_keeps (r _) rfl
  | cxlClearEventRecords => exact execCxlClearEventRecords_keeps (r _) rfl
  | cxlGetEventInterruptPolicy => exact execCxlGetEventInterruptPolicy_keeps (r _) rfl
  | cxlSetEventInterruptPolicy => exact execCxlSetEventInterruptPolicy_keeps (r _) rfl
  | cxlGetFwInfo => exact execCxlGetFwInfo_keeps (r _) rfl
  | cxlGetTimestamp => exact execCxlGetTimestamp_keeps (r _) rfl
  | cxlSetTimestamp => exact execCxlSetTimestamp_keeps (r _) rfl
  | cxlGetSupportedLogs => exact execCxlGetSupportedLogs_keeps (r _) rfl
  | cxlGetLog => exact execCxlGetLog_keeps (r _) rfl
  | cxlIdentifyMemoryDevice => exact execCxlIdentifyMemoryDevice_keeps (r _) rfl
  | cxlGetHealthInfo => exact execCxlGetHealthInfo_keeps (r _) rfl
  | cxlGetAlertConfig => exact execCxlGetAlertConfig_keeps (r _) rfl
  | cxlSetAlertConfig => exact execCxlSetAlertConfig_keeps (r _) rfl
  | cxlGetShutdownState => exact execCxlGetShutdownState_keeps (r _) rfl
  | cxlSetShutdownState => exact execCxlSetShutdownState_keeps (r _) rfl
  | cxlGetPoisonList => exact execCxlGetPoisonList_keeps (r _) rfl
  | cxlInjectPoison => exact execCxlInjectPoison_keeps (r _) rfl
  | cxlClearPoison => exact execCxlClearPoison_keeps (r _) rfl
  | cxlGetScanMediaCaps => exact execCxlGetScanMediaCaps_keeps (r _) rfl
  | cxlScanMedia => exact execCxlScanMedia_keeps (r _) rfl
  | cxlGetScanMediaResults => exact execCxlGetScanMediaResults_keeps (r _) rfl
  | cxlSanitize => exact execCxlSanitize_keeps (r _) rfl
  | cxlSecureErase => exact execCxlSecureErase_keeps (r _) rfl
  | cxlMailboxUnsupported => exact execCxlMailboxUnsupported_keeps (r _) rfl
  | pipeMouthWrite => exact execPipeMouthWrite_keeps (r _) rfl
  | mouthpieceTake => exact execMouthpieceTake_keeps (r _) rfl
  | pipeBellRead => exact execPipeBellRead_keeps (r _) rfl
  | pipeBellRing => exact execPipeBellRing_keeps (r _) rfl
  | heldCompletionRing => exact execHeldCompletionRing_keeps (r _) rfl
  | pbndLockSet => exact execPbndLockSet_keeps (r _) rfl
  | pbndEntryWrite => exact execPbndEntryWrite_keeps (r _) rfl
  | backgroundCommandStart => exact execBackgroundCommandStart_keeps (r _) rfl
  | identify => exact execIdentify_keeps (r _) rfl
  | getLog => exact execGetLog_keeps (r _) rfl
  | configCommit => exact execConfigCommit_keeps (r _) rfl
  | commitLive => exact execCommitLive_keeps (r _) rfl
  | configDiscard => exact execConfigDiscard_keeps (r _) rfl
  | regionDefine => exact execRegionDefine_keeps (r _) rfl
  | regionInvalidate => exact execRegionInvalidate_keeps (r _) rfl
  | regionSplit => exact execRegionSplit_keeps (r _) rfl
  | regionMerge => exact execRegionMerge_keeps (r _) rfl
  | discard => exact execDiscard_keeps (r _) rfl
  | discardSecure => exact execDiscardSecure_keeps (r _) rfl
  | zero => exact execZero_keeps (r _) rfl
  | copy => exact execCopy_keeps (r _) rfl
  | hintHot => exact execHintHot_keeps (r _) rfl
  | hintCold => exact execHintCold_keeps (r _) rfl
  | hintPin => exact execHintPin_keeps (r _) rfl
  | hintUnpin => exact execHintUnpin_keeps (r _) rfl
  | budget => exact execBudget_keeps (r _) rfl
  | scan => exact execScan_keeps (r _) rfl
  | keepRead => exact execKeepRead_keeps (r _) rfl
  | keepWrite => exact execKeepWrite_keeps (r _) rfl
  | keepProtect => exact execKeepProtect_keeps (r _) rfl
  | keyGenerate => exact execKeyGenerate_keeps (r _) rfl
  | keyInstall => exact execKeyInstall_keeps (r _) rfl
  | keyStage => exact execKeyStage_keeps (r _) rfl
  | keyWindowClose => exact execKeyWindowClose_keeps (r _) rfl
  | keyInfo => exact execKeyInfo_keeps (r _) rfl
  | secureErase => exact execSecureErase_keeps (r _) rfl
  | sanitize => exact execSanitize_keeps (r _) rfl
  | timeSet => exact execTimeSet_keeps (r _) rfl
  | timeGet => exact execTimeGet_keeps (r _) rfl
  | counterProgram => exact execCounterProgram_keeps (r _) rfl
  | dumpSet => exact execDumpSet_keeps (r _) rfl
  | sampleSet => exact execSampleSet_keeps (r _) rfl
  | captureSources => exact execCaptureSources_keeps (r _) rfl
  | captureFlush => exact execCaptureFlush_keeps (r _) rfl
  | captureMark => exact execCaptureMark_keeps (r _) rfl
  | captureRewind => exact execCaptureRewind_keeps (r _) rfl
  | captureRelease => exact execCaptureRelease_keeps (r _) rfl
  | eventFreeze => exact execEventFreeze_keeps (r _) rfl
  | eventThaw => exact execEventThaw_keeps (r _) rfl
  | eventRate => exact execEventRate_keeps (r _) rfl
  | powerPolicy => exact execPowerPolicy_keeps (r _) rfl
  | throttle => exact execThrottle_keeps (r _) rfl
  | powerEnter => exact execPowerEnter_keeps (r _) rfl
  | consortJoin => exact execConsortJoin_keeps (r _) rfl
  | consortLeave => exact execConsortLeave_keeps (r _) rfl
  | prepareRemove => exact execPrepareRemove_keeps (r _) rfl
  | online => exact execOnline_keeps (r _) rfl
  | acceptFreshness => exact execAcceptFreshness_keeps (r _) rfl
  | spareStatus => exact execSpareStatus_keeps (r _) rfl
  | capacitySet => exact execCapacitySet_keeps (r _) rfl
  | unknownOpcode => exact execUnknownOpcode_keeps (r _) rfl
  | bclkHalfRead => exact execBclkHalfRead_keeps (r _) rfl
  | semaTakeRead => exact execSemaTakeRead_keeps (r _) rfl
  | semaTakeWrite => exact execSemaTakeWrite_keeps (r _) rfl
  | evntRdselWrite => exact execEvntRdselWrite_keeps (r _) rfl
  | monSelWrite => exact execMonSelWrite_keeps (r _) rfl
  | hkepSenseBClear => exact execHkepSenseBClear_keeps (r _) rfl
  | shadowWrite => exact execShadowWrite_keeps (r _) rfl
  | registerWrite => exact execRegisterWrite_keeps (r _) rfl
  | idleEntry => exact execIdleEntry_keeps (r _) rfl
  | sleepEntry => exact execSleepEntry_keeps (r _) rfl
  | sleepWake => exact execSleepWake_keeps (r _) rfl
  | deepSleepEntry => exact execDeepSleepEntry_keeps (r _) rfl
  | deepSleepWake => exact execDeepSleepWake_keeps (r _) rfl
  | lastBreathStart => exact execLastBreathStart_keeps (r _) rfl
  | breathSeal => exact execBreathSeal_keeps (r _) rfl
  | housekeepingRound => exact execHousekeepingRound_keeps (r _) rfl
  | muteLevelLive => exact execMuteLevelLive_keeps (r _) rfl
  | tempHistorySave => exact execTempHistorySave_keeps (r _) rfl
  | keepAppend => exact execKeepAppend_keeps (r _) rfl
  | keepCompaction => exact execKeepCompaction_keeps (r _) rfl
  | keepPartFail => exact execKeepPartFail_keeps (r _) rfl
  | eventRaise => exact execEventRaise_keeps (r _) rfl
  | tokenRefill => exact execTokenRefill_keeps (r _) rfl
  | freezeTimeout => exact execFreezeTimeout_keeps (r _) rfl
  | packetCloseTimeout => exact execPacketCloseTimeout_keeps (r _) rfl
  | packetOpen => exact execPacketOpen_keeps (r _) rfl
  | counterSnapshot => exact execCounterSnapshot_keeps (r _) rfl
  | bandwidthWindow => exact execBandwidthWindow_keeps (r _) rfl
  | alertNExpire => exact execAlertNExpire_keeps (r _) rfl
  | linkDetectPoll => exact execLinkDetectPoll_keeps (r _) rfl
  | trainingStepDone => exact execTrainingStepDone_keeps (r _) rfl
  | trainingTimeout => exact execTrainingTimeout_keeps (r _) rfl
  | packageInventoryDone => exact execPackageInventoryDone_keeps (r _) rfl
  | eqEvaluation => exact execEqEvaluation_keeps (r _) rfl
  | linkRemovable => exact execLinkRemovable_keeps (r _) rfl
  | migrationRecordDurable => exact execMigrationRecordDurable_keeps (r _) rfl
  | leafConvertStart => exact execLeafConvertStart_keeps (r _) rfl
  | leafSwitchBeat => exact execLeafSwitchBeat_keeps (r _) rfl
  | leafConvertDone => exact execLeafConvertDone_keeps (r _) rfl
  | budgetMigrationStripe => exact execBudgetMigrationStripe_keeps (r _) rfl
  | briterStatus => exact execBriterStatus_keeps (r _) rfl
  | briterStatusSend => exact execBriterStatusSend_keeps (r _) rfl
  | briterPrepare => exact execBriterPrepare_keeps (r _) rfl
  | briterAck => exact execBriterAck_keeps (r _) rfl
  | briterNack => exact execBriterNack_keeps (r _) rfl
  | briterGo => exact execBriterGo_keeps (r _) rfl
  | briterAbort => exact execBriterAbort_keeps (r _) rfl
  | briterWake => exact execBriterWake_keeps (r _) rfl
  | briterReg => exact execBriterReg_keeps (r _) rfl
  | briterJoin => exact execBriterJoin_keeps (r _) rfl
  | briterCrcFail => exact execBriterCrcFail_keeps (r _) rfl
  | agreementAckTimeout => exact execAgreementAckTimeout_keeps (r _) rfl
  | goMissed => exact execGoMissed_keeps (r _) rfl
  | memberLost => exact execMemberLost_keeps (r _) rfl
  | beatAlign => exact execBeatAlign_keeps (r _) rfl
  | timeSlew => exact execTimeSlew_keeps (r _) rfl
  | powerPropose => exact execPowerPropose_keeps (r _) rfl
  | referenceReturn => exact execReferenceReturn_keeps (r _) rfl
  | aonSupplyDip => exact execAonSupplyDip_keeps (r _) rfl
  | ucieFlitCrcFail => exact execUcieFlitCrcFail_keeps (r _) rfl
  | registerRead => exact execRegisterRead_keeps (r _) rfl
  | keepResyncDone => exact execKeepResyncDone_keeps (r _) rfl
  | blockStripeRecordWrite => exact execBlockStripeRecordWrite_keeps (r _) rfl
  | tapInstruction => exact execTapInstruction_keeps (r _) rfl
  | rangeActionPoint => exact execRangeActionPoint_keeps (r _) rfl

/-- A part that `touches` does not list for a command is the same after it. -/
theorem exec_same_untouched {c : Instr} {s t : State} (e : exec c s = .next t) {p : StatePart} (h : p ∉ touches c) : p.same s t :=
  (exec_keeps_touched c s t e).same.part p (maskOf_bit _ p h)

/-- The commands that may change the live configuration. -/
theorem live_mem_touches {c : Instr} (h : StatePart.live ∈ touches c) :
    c = .commitLive ∨ c = .beatBoundary ∨ (∃ src bad, c = .deepSleepWake src bad) ∨ (∃ ns, c = .resetNAssert ns) ∨
      (∃ pos halt, c = .powerOn pos halt) ∨ (∃ rail, c = .brownOut rail) ∨ ∃ ok, c = .suppliesUpUnreset ok := by
  cases c <;> simp [touches] at h ⊢

/-- Settles O48: a command whose frame holds the live configuration leaves it, and the others are the seven named. -/
theorem liveValuesChangeAtBoundaries : Obligations.LiveValuesChangeAtBoundaries := by
  intro c s t e hne
  refine live_mem_touches (Classical.byContradiction fun h => hne ?_)
  exact exec_same_untouched e (p := .live) h

end Sys2Proof.Proofs.Frame
end

section
/-! The copies of a saggar line, the reads and writes of BCLK and of the semaphores, and the test access port. -/
namespace Sys2Proof.Proofs.Layout
open Sys2Proof Machine Safety

/-! ### The copies of a saggar line (R39) -/

/-- Copy A of line `k` starts at SRAM line 0x800000 plus `k`. -/
theorem saggarAddr_copyA_line (k : Nat) : saggarAddr k false / 64 = 0x800000 + k := by
  simp [saggarAddr]; omega

/-- Copy B lies 0x100000 SRAM lines above copy A. -/
theorem saggarAddr_copyB_line (k : Nat) : saggarAddr k true / 64 = 0x800000 + k + 0x100000 := by
  simp [saggarAddr]; omega

/-- Sixteen logical channels on, modulo 120, is another die: a die has fifteen. -/
theorem die_of_channel_add_sixteen (l : Nat) : (l + 16) % 120 / 15 ≠ l / 15 := by omega

/-- Settles O27: 64 MiB are 16 modulo 120 SRAM lines, one more than a die's channels. -/
theorem saggarCopiesApart : Obligations.SaggarCopiesApart := by
  intro k l _ hl
  have channel : saggarAddr k true / 64 % 120 = (l + 16) % 120 := by
    rw [saggarAddr_copyA_line] at hl
    rw [saggarAddr_copyB_line]; omega
  refine ⟨by simp [saggarAddr]; omega, channel, ?_⟩
  rw [channel]
  exact die_of_channel_add_sixteen l

/-! ### Accesses that reach the registers (R403, R495) -/

/-- The host's open link means that the device is in Run or Idle. -/
theorem state_of_awake {s : State} (h : awake s = true) : s.pwr.state ≠ .deepSleep ∧ s.pwr.state ≠ .sleep := by
  cases e : s.pwr.state <;> simp [awake, e] at h ⊢

theorem awake_of_hostOpen {s : State} (h : hostOpen s = true) : awake s = true := by
  simp only [hostOpen, ioOpen, Bool.and_eq_true] at h
  exact h.1.1

/-- A master that reaches the registers wakes nothing: where the host's link is open the device already runs. -/
theorem accessWakes_of_reaches {s : State} {m : Byte} (h : masterReaches s m = true) : accessWakes s m = s := by
  unfold accessWakes
  by_cases hm : m = 0
  · subst hm
    have open_ : hostOpen s = true := by simpa [masterReaches] using h
    obtain ⟨deep, sleep⟩ := state_of_awake (awake_of_hostOpen open_)
    simp [deep, sleep]
  · rw [if_pos hm]

theorem readReg_of_reaches {s : State} {m : Byte} {bar off size : Nat} (h : masterReaches s m = true)
    (ok : barAccessOk bar off size = true) : readReg s m bar off size = ioPayload (readAt s m bar off size) m 3 size := by
  simp [readReg, accessWakes_of_reaches h, h, ok]

theorem writeReg_of_reaches {s : State} {m : Byte} {bar off size : Nat} {v : LineData} (h : masterReaches s m = true)
    (ok : barAccessOk bar off size = true) :
    writeReg s m bar off size v = ioPayload (writeAt s m bar off size v) m 2 size := by
  simp [writeReg, accessWakes_of_reaches h, h, ok]

/-- Counting payload changes the monitors alone. -/
@[simp] theorem ioPayload_hl (s : State) (m : Byte) (port n : Nat) : (ioPayload s m port n).hl = s.hl := by
  unfold ioPayload; split <;> rfl
@[simp] theorem ioPayload_clk (s : State) (m : Byte) (port n : Nat) : (ioPayload s m port n).clk = s.clk := by
  unfold ioPayload; split <;> rfl
@[simp] theorem ioPayload_pp (s : State) (m : Byte) (port n : Nat) : (ioPayload s m port n).pp = s.pp := by
  unfold ioPayload; split <;> rfl

theorem ioPayload_frame (s : State) (m : Byte) (port n : Nat) :
    ioPayload s m port n = { s with ev := (ioPayload s m port n).ev } := by
  unfold ioPayload; split <;> rfl
theorem ioPayload_ev {s t : State} (m : Byte) (port n : Nat) (h : t.ev = s.ev) :
    (ioPayload t m port n).ev = (ioPayload s m port n).ev := by
  unfold ioPayload portBytes updMon; split <;> simp [h]

/-! ### The beat counter's latches (R25) -/

theorem locate_bclk : ∀ r : Fin 3, locate 0 (0x10000 + 8 * r.val) = some (0x01, 0, 8 * r.val) ∧
    locate 0 (0x10000 + 8 * r.val + 4) = some (0x01, 0, 8 * r.val + 4) := by decide

/-- A read past the chart, in a block of registers whose contents the spec gives. -/
theorem readAt_of_locate (s : State) (m : Byte) {off t k o : Nat} (size : Nat) (past : 65536 ≤ off)
    (found : locate 0 off = some (t, k, o)) (block : t < 0x70) (closed : openBlock t = false) :
    readAt s m 0 off size =
      if t = 0x01 && o < 0x18 then bclkRead s m.toNat o size
      else if t = 0x02 && 0x100 ≤ o && o < 0x300 && (halves o size).1 then
        answer (semaTake s m ((o - 0x100) / 8)).1
          (partOf (BitVec.ofNat 64 (0x8000 + (semaTake s m ((o - 0x100) / 8)).2.toNat)) o size)
      else if t = 0x32 && o / 8 = 1 && size ≠ 8 then answer s 0
      else answer (clearLinks (clearStats s t (o / 8 * 8) (halves o size).1 (halves o size).2) t k (o / 8 * 8)
        (halves o size).1 (halves o size).2) (partOf (regValue s t k (o / 8 * 8)) o size) := by
  have chart : ¬ off < 65536 := by omega
  have window : ¬ 0x70 ≤ t := by omega
  simp only [readAt, chart, found, window, closed, decide_false, Bool.and_false, Bool.false_eq_true, if_false]

/-- A 4-byte read of a BCLK register goes to the latches. -/
theorem readAt_bclkLow (s : State) (m : Byte) (r : Fin 3) :
    readAt s m 0 (0x10000 + 8 * r.val) 4 = bclkRead s m.toNat (8 * r.val) 4 := by
  have inside : 8 * r.val < 0x18 := by omega
  rw [readAt_of_locate s m 4 (by omega) (locate_bclk r).1 (by decide) rfl]
  simp [inside]

theorem readAt_bclkHigh (s : State) (m : Byte) (r : Fin 3) :
    readAt s m 0 (0x10000 + 8 * r.val + 4) 4 = bclkRead s m.toNat (8 * r.val + 4) 4 := by
  have inside : 8 * r.val + 4 < 0x18 := by omega
  rw [readAt_of_locate s m 4 (by omega) (locate_bclk r).2 (by decide) rfl]
  simp [inside]

/-- The halves of a register. -/
theorem partOf_low (v : Reg) : partOf v 0 4 = v.toNat % 2 ^ 32 := by simp [partOf]
theorem partOf_high (v : Reg) : partOf v 4 4 = v.toNat / 2 ^ 32 := by
  have := v.isLt
  simp only [partOf, Nat.reduceMod, Nat.reduceMul]; omega

/-- A read of the low half replaces the master's latch for the register by the present high half. -/
theorem bclkRead_low (s : State) (m r : Nat) :
    bclkRead s m (8 * r) 4 = answer { s with clk := { s.clk with latches :=
        (s.clk.latches.filter fun x => !(x.1 = m && x.2.1 = r)) ++ [(m, r, (regValue s 0x01 0 (8 * r)).toNat / 2 ^ 32)] } }
      ((regValue s 0x01 0 (8 * r)).toNat % 2 ^ 32) := by
  have reg : 8 * r / 8 = r := by omega
  simp only [bclkRead, reg, partOf_low, partOf_high, Nat.mul_mod_right, Nat.mul_comm r 8]
  rfl

/-- A read of the high half takes what the master's latch holds. -/
theorem bclkRead_latched (s : State) (m r : Nat) (x : Nat × Nat × Nat)
    (h : (s.clk.latches.find? fun x => x.1 = m && x.2.1 = r) = some x) :
    bclkRead s m (8 * r + 4) 4 = answer { s with clk := { s.clk with latches :=
        (s.clk.latches.filter fun x => !(x.1 = m && x.2.1 = r)) } } x.2.2 := by
  have reg : (8 * r + 4) / 8 = r := by omega
  have half : (8 * r + 4) % 8 = 4 := by omega
  simp [bclkRead, reg, half, h]

/-! ### Semaphores (R492, R493) -/

theorem locate_sema : ∀ n : Fin 64, locate 0 (0x11100 + 8 * n.val) = some (0x02, 0, 0x100 + 8 * n.val) ∧
    locate 0 (0x11100 + 8 * n.val + 4) = some (0x02, 0, 0x100 + 8 * n.val + 4) := by decide

theorem cfgAt_sema : ∀ n : Fin 64, cfgAt 0x02 (0x100 + 8 * n.val) = none := by decide

/-- An aligned 8-byte read of a semaphore takes it and answers its holder. -/
theorem readAt_sema (s : State) (m : Byte) (n : Fin 64) :
    readAt s m 0 (0x11100 + 8 * n.val) 8 =
      answer (semaTake s m n.val).1 (0x8000 + (semaTake s m n.val).2.toNat) := by
  have inside : 0x100 ≤ 0x100 + 8 * n.val ∧ 0x100 + 8 * n.val < 0x300 := by omega
  have low : (0x100 + 8 * n.val) % 8 = 0 := by omega
  have index : (0x100 + 8 * n.val - 0x100) / 8 = n.val := by omega
  have whole : partOf (BitVec.ofNat 64 (0x8000 + (semaTake s m n.val).2.toNat)) (0x100 + 8 * n.val) 8 =
      0x8000 + (semaTake s m n.val).2.toNat := by
    have := (semaTake s m n.val).2.isLt
    simp only [partOf, low, BitVec.toNat_ofNat, Nat.reduceMul, Nat.mul_zero]; omega
  rw [readAt_of_locate s m 8 (by omega) (locate_sema n).1 (by decide) rfl, index, whole]
  simp only [halves, low, inside.1, inside.2]
  rfl

/-- HELD and HOLDER stand in the low half of a semaphore's register, so its high half is 0. -/
theorem semaValue_lt (s : State) (n : Nat) : semaValue s n < 2 ^ 32 := by
  unfold semaValue
  cases tget none s.pp.sema n with
  | none => simp
  | some h => have := h.isLt; simp; omega

theorem regValue_sema (s : State) (n : Fin 64) :
    regValue s 0x02 0 (0x100 + 8 * n.val) = BitVec.ofNat 64 (semaValue s n.val) := by
  have inside : 0x100 + 8 * n.val < 0x300 := by omega
  simp [regValue, cfgAt_sema, regMap, inside]

/-- A read of bytes [7:4] answers 0 and takes nothing. -/
theorem readAt_semaHigh (s : State) (m : Byte) (n : Fin 64) :
    readAt s m 0 (0x11100 + 8 * n.val + 4) 4 = answer s 0 := by
  have half : (0x100 + 8 * n.val + 4) % 8 = 4 := by omega
  have word : (0x100 + 8 * n.val + 4) / 8 * 8 = 0x100 + 8 * n.val := by omega
  have value : partOf (BitVec.ofNat 64 (semaValue s n.val)) (0x100 + 8 * n.val + 4) 4 = 0 := by
    have := semaValue_lt s n.val
    simp only [partOf, half, BitVec.toNat_ofNat, Nat.reduceMul]; omega
  rw [readAt_of_locate s m 4 (by omega) (locate_sema n).2 (by decide) rfl, word, regValue_sema, value]
  simp [halves, half, clearStats, clearLinks]

/-- A write of a semaphore releases it for its holder and is misuse by any other master. -/
theorem writeAt_sema (s : State) (m : Byte) (n : Fin 64) (v : LineData) :
    writeAt s m 0 (0x11100 + 8 * n.val) 8 v = semaRelease s m n.val := by
  have chart : ¬ 0x11100 + 8 * n.val < 65536 := by omega
  have inside : 0x100 ≤ 0x100 + 8 * n.val ∧ 0x100 + 8 * n.val < 0x300 := by omega
  have index : (0x100 + 8 * n.val - 0x100) / 8 = n.val := by omega
  simp only [writeAt, chart, locate_sema, inside.1, inside.2, index]
  rfl

/-! ### Latches, semaphores and the test access port -/

theorem exec_bclkLow {s : State} {m : Byte} (r : Fin 3) (h : masterReaches s m = true) :
    exec (.bclkHalfRead m r false) s = .next (ioPayload (bclkRead s m.toNat (8 * r.val) 4) m 3 4) := by
  have e : readReg s m 0 (0x10000 + 8 * r.val) 4 = _ := readReg_of_reaches h (by simp [barAccessOk]; omega)
  rw [readAt_bclkLow] at e
  exact congrArg _ e

theorem exec_bclkHigh {s : State} {m : Byte} (r : Fin 3) (h : masterReaches s m = true) :
    exec (.bclkHalfRead m r true) s = .next (ioPayload (bclkRead s m.toNat (8 * r.val + 4) 4) m 3 4) := by
  have e : readReg s m 0 (0x10000 + 8 * r.val + 4) 4 = _ := readReg_of_reaches h (by simp [barAccessOk]; omega)
  rw [readAt_bclkHigh] at e
  exact congrArg _ e

theorem exec_semaTake {s : State} {m : Byte} (n : Fin 64) (h : masterReaches s m = true) :
    exec (.semaTakeRead m n false) s =
      .next (ioPayload (answer (semaTake s m n.val).1 (0x8000 + (semaTake s m n.val).2.toNat)) m 3 8) := by
  have e : readReg s m 0 (0x11100 + 8 * n.val) 8 = _ := readReg_of_reaches h (by simp [barAccessOk])
  rw [readAt_sema] at e
  exact congrArg _ e

theorem exec_semaHigh {s : State} {m : Byte} (n : Fin 64) (h : masterReaches s m = true) :
    exec (.semaTakeRead m n true) s = .next (ioPayload (answer s 0) m 3 4) := by
  have e : readReg s m 0 (0x11100 + 8 * n.val + 4) 4 = _ := readReg_of_reaches h (by simp [barAccessOk]; omega)
  rw [readAt_semaHigh] at e
  exact congrArg _ e

theorem exec_semaWrite {s : State} {m : Byte} (n : Fin 64) (h : masterReaches s m = true) :
    exec (.semaTakeWrite m n) s = .next (ioPayload (semaRelease s m n.val) m 2 8) := by
  have e : writeReg s m 0 (0x11100 + 8 * n.val) 8 0 = _ := writeReg_of_reaches h (by simp [barAccessOk])
  rw [writeAt_sema] at e
  exact congrArg _ e

/-- Raising an event is no release of a semaphore. -/
theorem raise_sema (s : State) (code source p0 p1 p2 p3 : Nat) : (raise s code source p0 p1 p2 p3).pp.sema = s.pp.sema :=
  (congrArg (fun x => x.pp.sema) (raise_reports (.refl s) code source p0 p1 p2 p3).1 :
    (quiet (raise s code source p0 p1 p2 p3)).pp.sema = (quiet s).pp.sema)

/-- Settles O60: each access through the register file of a master that reaches it, and each instruction of the port. -/
theorem latchesSemaphoresAndTap : Obligations.LatchesSemaphoresAndTap := by
  refine ⟨⟨?low, ?high, ?free, ?held, ?upper, ?release, ?misuse, raise_sema⟩, ?values, ?extest, ?halt, ?regRead, ?regWrite, ?dark⟩
  case low =>
    intro s m r h
    exact ⟨_, exec_bclkLow r h, by simp [bclkRead_low, answer]⟩
  case high =>
    intro s m r x h hx
    refine ⟨_, exec_bclkHigh r h, ?_⟩
    rw [bclkRead_latched s _ _ x hx]
    refine ⟨by simp [answer], fun y hy ⟨master, reg⟩ => ?_⟩
    simp [answer, master, reg] at hy
  case free =>
    intro s m n h free
    have take : semaTake s m n.val = ({ s with pp := { s.pp with sema := tset none s.pp.sema n.val (some m) } }, m) := by
      simp [semaTake, free]
    refine ⟨_, exec_semaTake n h, ?_⟩
    rw [take]
    refine ⟨?_, by simp [answer], ioPayload_ev m 3 8 rfl, ?_⟩
    · simpa [answer] using tget_tset_val none s.pp.sema n.val (some m) (by simp)
    · rw [ioPayload_frame]; rfl
  case held =>
    intro s m k n h held
    have take : semaTake s m n.val = (s, k) := by simp [semaTake, held]
    exact ⟨_, exec_semaTake n h, by simp [take, answer]⟩
  case upper =>
    intro s m n h
    exact ⟨_, exec_semaHigh n h, by simp [answer]⟩
  case release =>
    intro s m n h held
    rw [exec_semaWrite n h, semaRelease, if_pos held]
  case misuse =>
    intro s m n h held
    rw [exec_semaWrite n h, semaRelease, if_neg held]
    rfl
  case values =>
    intro s h
    simp [exec, execTapInstruction, h]
  case extest =>
    intro s pins h
    simp [exec, execTapInstruction, h]
  case halt =>
    intro s h halted
    simp [exec, execTapInstruction, h, halted]
  case regRead =>
    intro s off h
    exact ⟨_, rfl, _, rfl, by simp [h]⟩
  case regWrite =>
    intro s off v h
    simp [exec, execTapInstruction, execRegisterWrite, h]
  case dark =>
    intro s i h
    simp [exec, execTapInstruction, h]

end Sys2Proof.Proofs.Layout
end

section
/-! The calendar, the backup domain and the references. -/
namespace Sys2Proof.Proofs.Clocks
open Sys2Proof Machine Safety

/-- Raising an event leaves the clocks. -/
theorem raise_clk (s : State) (code source p0 p1 p2 p3 : Nat) : (raise s code source p0 p1 p2 p3).clk = s.clk :=
  (congrArg State.clk (raise_reports (.refl s) code source p0 p1 p2 p3).1 :
    (quiet (raise s code source p0 p1 p2 p3)).clk = (quiet s).clk)

/-! ### The calendar (R564, R565) -/

/-- Below the wrap of SUBSEC the ticks are counted there alone. -/
theorem addTicks_within (c : ClkSt) (n : Nat) (h : c.subsec + n < 32768) : addTicks c n = { c with subsec := c.subsec + n } := by
  simp [addTicks, Nat.not_le.2 h]

/-- At the wrap SECONDS takes the carry. -/
theorem addTicks_carries (c : ClkSt) (n : Nat) (h : 32768 ≤ c.subsec + n) :
    addTicks c n = { c with
      subsec := (c.subsec + n) % 32768, seconds := (c.seconds + (c.subsec + n) / 32768) % 2 ^ 40, edge := true } := by
  simp [addTicks, h]

/-- Adding ticks changes SUBSEC, SECONDS and the edge alone, and adds them to the count of both modulo 2^55. -/
theorem addTicks_spec (c : ClkSt) (n : Nat) :
    (addTicks c n).subsec < 32768 ∧
    ((addTicks c n).seconds * 32768 + (addTicks c n).subsec) % 2 ^ 55 = (c.seconds * 32768 + c.subsec + n) % 2 ^ 55 ∧
    addTicks c n = { c with
      subsec := (addTicks c n).subsec, seconds := (addTicks c n).seconds, edge := (addTicks c n).edge } := by
  rcases Nat.lt_or_ge (c.subsec + n) 32768 with within | carries
  · rw [addTicks_within c n within]
    exact ⟨within, by simp only; omega, rfl⟩
  · rw [addTicks_carries c n carries]
    exact ⟨by simp only; omega, by simp only; omega, rfl⟩

/-- A tick without a trim to hold adds one to SUBSEC; a held one only counts down. -/
theorem tick_free (c : ClkSt) (h : c.holdTicks = 0) : tick c = addTicks { c with trimTicks := c.trimTicks + 1 } 1 := by
  simp [tick, h]

theorem tick_held (c : ClkSt) (h : 0 < c.holdTicks) :
    tick c = { c with trimTicks := c.trimTicks + 1, holdTicks := c.holdTicks - 1 } := by
  simp [tick, h]

theorem exec_calendarTick {s : State} (h : s.clk.subst = false) : exec .calendarTick s = .next { s with clk := tick s.clk } := by
  simp [exec, execCalendarTick, h]

theorem trimTick_early (c : ClkSt) (h : c.trimTicks < 2 ^ 20) : trimTick c = c := by rw [trimTick, if_pos h]

theorem trimTick_slow (c : ClkSt) (h : 2 ^ 20 ≤ c.trimTicks) (neg : c.trim < 0) :
    trimTick c = { c with trimTicks := c.trimTicks - 2 ^ 20, holdTicks := c.holdTicks + (-c.trim).toNat } := by
  rw [trimTick, if_neg (Nat.not_lt.2 h)]
  exact if_pos neg

theorem trimTick_fast (c : ClkSt) (h : 2 ^ 20 ≤ c.trimTicks) (nonneg : 0 ≤ c.trim) :
    trimTick c = addTicks { c with trimTicks := c.trimTicks - 2 ^ 20 } c.trim.toNat := by
  rw [trimTick, if_neg (Nat.not_lt.2 h)]
  exact if_neg (Int.not_lt.2 nonneg)

/-! ### References (R19 to R21) -/

/-- The state in which a locked reference's failure raises its event: fault and lock as they then are, and each user of
the reference moved to the choice that is left. -/
def refFailed (s : State) (k : Fin 4) : State :=
  let lock := s.clk.refLock &&& (~~~ (1#4 <<< k.val) : BitVec 4)
  let pick (l : List Nat) (r : Nat) : Nat := if r = k.val then (goodRef lock l).getD r else r
  setRefs { s with clk := { s.clk with
      refPresent := s.clk.refPresent &&& (~~~ (1#4 <<< k.val) : BitVec 4), refLock := lock
      refFault := s.clk.refFault ||| (1#4 <<< k.val) } }
    (pick [0, 1, 2, 3] s.clk.fabricRef) ((List.range 4).map fun j => pick [j, (j + 1) % 4] (nth s.clk.phyRef j))

theorem exec_referenceFailure {s : State} {k : Fin 4} (clk : clocked s = true) (locked : s.clk.refLock.getLsbD k.val = true) :
    exec (.referenceFailure k) s = .next (raise (refFailed s k) 0x1 srcDevice 0 0 0 0) := by
  have clk' : ∀ c : ClkSt, clocked { s with clk := c } = true := fun _ => clk
  simp only [exec, execReferenceFailure, clk', locked]
  rfl

/-- The state after a reference returned, when the clocks have locked. -/
def refReturned (s : State) (k : Fin 4) : State :=
  let lock := s.clk.refLock ||| (1#4 <<< k.val)
  let pick (l : List Nat) (r : Nat) : Nat := if lock.getLsbD r then r else (goodRef lock l).getD r
  setRefs { s with clk := { s.clk with refPresent := s.clk.refPresent ||| (1#4 <<< k.val), refLock := lock } }
    (pick [0, 1, 2, 3] s.clk.fabricRef) ((List.range 4).map fun j => pick [j, (j + 1) % 4] (nth s.clk.phyRef j))

theorem exec_referenceReturn {s : State} {k : Fin 4} (clk : clocked s = true) :
    exec (.referenceReturn k) s = .next (refReturned s k) := by
  have clk' : ∀ c : ClkSt, clocked { s with clk := c } = true := fun _ => clk
  simp only [exec, execReferenceReturn, clk']
  rfl

/-- Settles O11: the calendar by its ticks, the backup domain clause by clause, the references by the state in which the
event is raised. -/
theorem clocksAndReferences : Obligations.ClocksAndReferences := by
  refine ⟨⟨?tick, ?wrap, ?hold, ?subst, ?early, ?slow, ?fast⟩, ⟨?low, ?stop, ?runs, ?crystal, ?resume⟩, ?failure, ?returns⟩
  case tick =>
    intro s subst hold below
    rw [exec_calendarTick subst, tick_free _ hold, addTicks_within _ _ (by simp only; omega)]
  case wrap =>
    intro s subst hold last
    rw [exec_calendarTick subst, tick_free _ hold, addTicks_carries _ _ (by simp only; omega)]
    simp [last]
  case hold =>
    intro s subst hold
    rw [exec_calendarTick subst, tick_held _ hold]
  case subst =>
    intro s subst
    simp [exec, execCalendarTick, subst]
  case early =>
    intro s early
    simp only [exec, execTrimApply, trimTick_early _ early]
  case slow =>
    intro s due neg
    simp only [exec, execTrimApply, trimTick_slow _ due neg]
  case fast =>
    intro s due nonneg _
    obtain ⟨sub, count, frame⟩ := addTicks_spec { s.clk with trimTicks := s.clk.trimTicks - 2 ^ 20 } s.clk.trim.toNat
    refine ⟨{ s with clk := addTicks { s.clk with trimTicks := s.clk.trimTicks - 2 ^ 20 } s.clk.trim.toNat }, ?_, sub, count, ?_⟩
    · simp only [exec, execTrimApply, trimTick_fast _ due nonneg]
    · exact congrArg (fun c => ({ s with clk := c } : State)) frame
  case low =>
    intro s mv low
    refine ⟨_, by simp only [exec, execBackupSupplyLow, if_pos low]; rfl, rfl, rfl, rfl⟩
  case stop =>
    intro s us stands long
    simp [exec, execOscillatorStop, stands, long]
  case runs =>
    intro s us runs
    simp [exec, execOscillatorStop, runs]
  case crystal =>
    intro s runs subst
    refine ⟨raise { s with clk := { s.clk with xtalFault := true, subst := true, fabricAcc := 0 } } 0x3 srcDevice 0 0 0 0,
      by simp [exec, execCrystalStop, runs, subst], ?_⟩
    rw [raise_clk]
    exact ⟨rfl, rfl, rfl, raise_reports (.refl _) ..⟩
  case resume =>
    intro s edges subst long
    simp [exec, execCrystalResume, subst, long]
  case failure =>
    intro s k clk locked
    refine ⟨_, exec_referenceFailure clk locked, ?_⟩
    rw [raise_clk]
    refine ⟨rfl, rfl, fun other => if_neg other, fun same j good => ?_, raise_reports (.refl (refFailed s k)) ..⟩
    have good' : goodRef (s.clk.refLock &&& (~~~ (1#4 <<< k.val) : BitVec 4)) [0, 1, 2, 3] = some j := good
    show (if s.clk.fabricRef = k.val then _ else _) = j
    rw [if_pos same, good', Option.getD_some]
  case returns =>
    intro s k clk
    refine ⟨_, exec_referenceReturn clk, rfl, fun good => if_pos ?_, rfl⟩
    rw [BitVec.getLsbD_or, good, Bool.true_or]

end Sys2Proof.Proofs.Clocks
end

section
/-! A pending commit at its beat: what each change makes live. -/
namespace Sys2Proof.Proofs.Commits
open Sys2Proof Machine Safety

/-! ### Tables whose entries have defaults of their own -/

/-- Setting a key keeps the keys rising. -/
theorem rising_tset {α : Type} [DecidableEq α] (d : α) (t : Tab α) (k : Nat) (v : α) (h : Rising t) : Rising (tset d t k v) := by
  induction t with
  | nil => unfold tset; split <;> simp [Rising]
  | cons x t ih =>
    obtain ⟨below, rest⟩ := List.pairwise_cons.1 h
    unfold tset
    split
    · next hk =>
      split
      · exact h
      · refine List.pairwise_cons.2 ⟨fun y hy => ?_, h⟩
        rcases List.mem_cons.1 hy with rfl | hy
        · exact hk
        · exact Nat.lt_trans hk (below y hy)
    · split
      · next hk =>
        split
        · exact rest
        · exact List.pairwise_cons.2 ⟨fun y hy => hk ▸ below y hy, rest⟩
      · refine List.pairwise_cons.2 ⟨fun y hy => ?_, ih rest⟩
        rcases tset_keys d t k v y hy with e | ⟨z, hz, e⟩
        · omega
        · rw [← e]; exact below z hz

/-- Another key reads as before, whatever default it is read with. -/
theorem tget_tset_other {α : Type} [DecidableEq α] (d e : α) (t : Tab α) (k j : Nat) (v : α) (h : Rising t) (hj : j ≠ k) :
    tget e (tset d t k v) j = tget e t j := by
  induction t with
  | nil => unfold tset; split <;> simp [tget]; omega
  | cons x t ih =>
    obtain ⟨below, rest⟩ := List.pairwise_cons.1 h
    unfold tset
    split
    · next hk =>
      split
      · rfl
      · simp only [tget]; grind
    · split
      · next hk =>
        split
        · have low : j < x.1 → tget e t j = e := fun hl => tget_below e t j fun z hz => Nat.lt_trans hl (below z hz)
          simp only [tget]; grind
        · simp only [tget]; grind
      · simp only [tget]; rw [ih rest]

/-! ### Live values -/

theorem cfg_setLive_self (s : State) (id : Nat) (v : Reg) (h : Rising s.live) : cfg (setLive s id v) id = v :=
  (tget_tset _ _ _ _ _ h).trans (if_pos rfl)

theorem cfg_setLive_other (s : State) (id j : Nat) (v : Reg) (h : Rising s.live) (hj : j ≠ id) :
    cfg (setLive s id v) j = cfg s j := tget_tset_other _ _ _ _ _ _ h hj

theorem cfgShadow_setShadow_self (s : State) (id : Nat) (v : Reg) (h : Rising s.shadow) : cfgShadow (setShadow s id v) id = v :=
  (tget_tset _ _ _ _ _ h).trans (if_pos rfl)

theorem cfgShadow_setShadow_other (s : State) (id j : Nat) (v : Reg) (h : Rising s.shadow) (hj : j ≠ id) :
    cfgShadow (setShadow s id v) j = cfgShadow s j := tget_tset_other _ _ _ _ _ _ h hj

/-- Making the shadows of a list of registers live changes the live copy alone, and each of them reads its shadow. -/
theorem shadowsLive_spec (l : List Nat) (s : State) (h : Rising s.live) :
    l.foldl (fun s id => setLive s id (cfgShadow s id)) s =
      { s with live := (l.foldl (fun s id => setLive s id (cfgShadow s id)) s).live } ∧
    ∀ j, (j ∈ l ∨ cfg s j = cfgShadow s j) → cfg (l.foldl (fun s id => setLive s id (cfgShadow s id)) s) j = cfgShadow s j := by
  induction l generalizing s with
  | nil => exact ⟨rfl, fun j hj => hj.resolve_left (by simp)⟩
  | cons id l ih =>
    obtain ⟨frame, read⟩ := ih (setLive s id (cfgShadow s id)) (rising_tset _ _ _ _ h)
    refine ⟨frame, fun j hj => read j ?_⟩
    by_cases e : j = id
    · subst e; exact .inr (cfg_setLive_self s j _ h)
    · refine hj.imp (fun m => (List.mem_cons.1 m).resolve_left e) fun same => ?_
      rw [cfg_setLive_other s id j _ h e]; exact same

/-! ### What ends a commit -/

/-- Completing a command by its id changes the pipes' commands and completions alone. -/
theorem finishId_frame (s : State) (id : Option Nat) (status : Nat) (a b : Reg) :
    finishId s id status a b = { s with pp := { s.pp with
      cmds := (finishId s id status a b).pp.cmds, comps := (finishId s id status a b).pp.comps } } := by
  unfold finishId; split <;> rfl

@[simp] theorem finishId_live (s : State) (id : Option Nat) (status : Nat) (a b : Reg) : (finishId s id status a b).live = s.live := by
  rw [finishId_frame]
@[simp] theorem finishId_shadow (s : State) (id : Option Nat) (status : Nat) (a b : Reg) :
    (finishId s id status a b).shadow = s.shadow := by rw [finishId_frame]
@[simp] theorem finishId_mp (s : State) (id : Option Nat) (status : Nat) (a b : Reg) : (finishId s id status a b).mp = s.mp := by
  rw [finishId_frame]
@[simp] theorem finishId_epoch (s : State) (id : Option Nat) (status : Nat) (a b : Reg) :
    (finishId s id status a b).pp.epoch = s.pp.epoch := by rw [finishId_frame]
@[simp] theorem finishId_commit (s : State) (id : Option Nat) (status : Nat) (a b : Reg) :
    (finishId s id status a b).pp.commit = s.pp.commit := by rw [finishId_frame]
@[simp] theorem cfg_finishId (s : State) (id : Option Nat) (status : Nat) (a b : Reg) (j : Nat) :
    cfg (finishId s id status a b) j = cfg s j := by rw [cfg, finishId_live, cfg]
@[simp] theorem cfgShadow_finishId (s : State) (id : Option Nat) (status : Nat) (a b : Reg) (j : Nat) :
    cfgShadow (finishId s id status a b) j = cfgShadow s j := by rw [cfgShadow, finishId_shadow, cfgShadow]

/-- Saving the configuration appends to the keep store alone. -/
@[simp] theorem cfg_saveConfig (s : State) (j : Nat) : cfg (saveConfig s) j = cfg s j := rfl
@[simp] theorem cfgShadow_saveConfig (s : State) (j : Nat) : cfgShadow (saveConfig s) j = cfgShadow s j := rfl
@[simp] theorem saveConfig_pp (s : State) : (saveConfig s).pp = s.pp := rfl

/-- A change given up leaves the configuration, the map and the epoch, and frees the pending commit. -/
theorem commitAborted_spec (s : State) (c : Commit) :
    (commitAborted s c).live = s.live ∧ (commitAborted s c).shadow = s.shadow ∧ (commitAborted s c).mp = s.mp ∧
      (commitAborted s c).pp.epoch = s.pp.epoch ∧ (commitAborted s c).pp.commit = none := by
  simp [commitAborted]

theorem exec_commitLive {s : State} (up : awake s = true) : exec .commitLive s = .next (commitAt s (s.clk.beat + 1)) := by
  simp only [exec, execCommitLive, up, if_true]

/-! ### Each change at its beat -/

/-- A GO that has come, or that is not needed, is not waited for. -/
theorem not_waits {c : Commit} (go : c.needsGo = true → c.go = true) : (c.needsGo && !c.go) = false := by
  cases h : c.needsGo
  · rfl
  · rw [go h]; rfl

section
variable {s : State} {c : Commit} {b : Nat} (pending : s.pp.commit = some c) (due : c.beat ≤ b)
include pending due

theorem commitAt_unasked (needs : c.needsGo = true) (go : c.go = false) : commitAt s b = commitAborted s c := by
  simp [commitAt, pending, Nat.not_lt.2 due, needs, go]

theorem commitAt_badShadow (kind : c.change = .config) {id : Nat} (bad : badShadow s = some id) :
    commitAt s b = commitAborted s c := by
  simp [commitAt, pending, Nat.not_lt.2 due, kind, bad]

variable (go : c.needsGo = true → c.go = true)
include go

theorem commitAt_config (kind : c.change = .config) (good : badShadow s = none) :
    commitAt s b = finishId (configLive (commitDone s c)) c.cmd 0 (BitVec.ofNat 64 (configLive (commitDone s c)).pp.epoch) 0 := by
  simp [commitAt, pending, Nat.not_lt.2 due, not_waits go, kind, good]

theorem commitAt_policy {x y : Reg} (kind : c.change = .policy x y) :
    commitAt s b = finishId (saveConfig (setShadow (setLive (setShadow (setLive (commitDone s c) 58 x) 58 x) 59 y) 59 y))
      c.cmd 0 0 0 := by
  simp [commitAt, pending, Nat.not_lt.2 due, not_waits go, kind]

theorem commitAt_region {op n m policy domain base size split : Nat} {tree : Bool} {x : RegionPlan}
    (kind : c.change = .region op n m policy tree domain base size split)
    (plan : regionPlan s true op n m policy tree domain base size split = .ok x)
    (slot : x.slot = none ∨ (freeSlot s).isSome = true) : commitAt s b = regionLive s c x := by
  have fits : (x.slot.isSome && (freeSlot s).isNone) = false := by
    rcases slot with e | e
    · simp [e]
    · obtain ⟨k, hk⟩ := Option.isSome_iff_exists.1 e; simp [hk]
  simp only [commitAt, pending, if_neg (Nat.not_lt.2 due), not_waits go, kind, plan, fits]
  rfl

theorem commitAt_budget {ranks : BitVec 64} {floor : Nat} (kind : c.change = .budget ranks floor) (top : floor ≤ budgetMax s)
    (slot : budgetMigrates s ranks floor = false ∨ (freeSlot s).isSome = true) : commitAt s b = budgetLive s c ranks floor := by
  have fits : (budgetMigrates s ranks floor && (freeSlot s).isNone) = false := by
    rcases slot with e | e
    · simp [e]
    · obtain ⟨k, hk⟩ := Option.isSome_iff_exists.1 e; simp [hk]
  simp [commitAt, pending, Nat.not_lt.2 due, not_waits go, kind, Nat.not_lt.2 top, fits]

end

/-! ### Regions -/

/-- READY depends on the step, the limits, the keys, an erase and the root; not on the map or the commands. -/
theorem refreshReady_eq (s : State) :
    refreshReady s = { s with mp := { s.mp with regions :=
      ((List.range 64).foldl (fun t n => tupd {} t n fun r => { r with ready := regionReady s r }) s.mp.regions) } } := by
  have key : ∀ (l : List Nat) (t : Tab Region),
      l.foldl (fun s n => updRegion s n fun r => { r with ready := regionReady s r }) { s with mp := { s.mp with regions := t } } =
        { s with mp := { s.mp with regions := (l.foldl (fun t n => tupd {} t n fun r => { r with ready := regionReady s r }) t) } } := by
    intro l
    induction l with
    | nil => exact fun _ => rfl
    | cons n l ih => exact fun t => ih _
  exact key (List.range 64) s.mp.regions

/-- The state of a region change that is done, with its new regions. -/
def withRegions (s : State) (c : Commit) (x : RegionPlan) : State :=
  { commitDone s c with mp := { s.mp with regions := x.regions } }

/-- A region change starts its migration, or is complete at once. -/
theorem regionLive_cases (s : State) (c : Commit) (x : RegionPlan) :
    (x.slot ≠ none ∧ ∃ m f, regionLive s c x = refreshReady (updMig (withRegions s c x) m f)) ∨
    regionLive s c x = finishId (saveRegions (refreshReady (withRegions s c x))) c.cmd 0 0 0 := by
  unfold regionLive
  extract_lets u
  split
  · next e _ => exact .inl ⟨by simp [e], _, _, rfl⟩
  · exact .inr rfl

/-- A region change at its beat advances the epoch and frees the pending commit. -/
theorem regionLive_spec (s : State) (c : Commit) (x : RegionPlan) :
    (regionLive s c x).pp.epoch = s.pp.epoch + 1 ∧ (regionLive s c x).pp.commit = none ∧
    (x.slot = none → (regionLive s c x).mp.regions =
      (refreshReady { s with mp := { s.mp with regions := x.regions } }).mp.regions) := by
  rcases regionLive_cases s c x with ⟨slot, m, f, e⟩ | e
  · rw [e, refreshReady_eq]
    exact ⟨rfl, rfl, fun none => absurd none slot⟩
  · rw [e, finishId_epoch, finishId_commit, finishId_mp, refreshReady_eq, refreshReady_eq]
    exact ⟨rfl, rfl, fun _ => rfl⟩

/-! ### The floor of the budget -/

/-- The field that BUDGET_MIN's write replaces reads what was written. -/
theorem fld_floor (v : Reg) (floor : Nat) (small : floor < 256) :
    fld ((v &&& 0xFFFFFFFF00FFFFFF#64) ||| BitVec.ofNat 64 (floor * 2 ^ 24)) 24 8 = floor := by
  refine Nat.eq_of_testBit_eq fun i => ?_
  simp only [fld, BitVec.toNat_or, BitVec.toNat_and, BitVec.toNat_ofNat, Nat.testBit_mod_two_pow, Nat.testBit_div_two_pow,
    Nat.testBit_or, Nat.testBit_and, Nat.mul_comm floor, Nat.testBit_two_pow_mul]
  by_cases hi : i < 8
  · have mask : (0xFFFFFFFF00FFFFFF : Nat).testBit (i + 24) = false := by interval_cases i <;> rfl
    have inside : i + 24 < 64 := by omega
    simp [hi, mask, inside]
  · have above : floor.testBit i = false := 
      Nat.testBit_lt_two_pow (Nat.lt_of_lt_of_le small (Nat.pow_le_pow_right (n := 2) (by decide) (Nat.le_of_not_lt hi)))
    simp [hi, above]

theorem setFloor_live (s : State) (floor : Nat) :
    (setFloor s floor).live = tset (cfgReset 1) s.live 1
      ((cfg s 1 &&& 0xFFFFFFFF00FFFFFF#64) ||| BitVec.ofNat 64 (floor * 2 ^ 24)) ∧ (setFloor s floor).pp = s.pp := by
  have ranks (l : List Nat) (f : Nat → RankPl → RankPl) : ∀ u : State,
      (l.foldl (fun s r => updRank s r (f r)) u).live = u.live ∧ (l.foldl (fun s r => updRank s r (f r)) u).pp = u.pp := by
    induction l with
    | nil => exact fun _ => ⟨rfl, rfl⟩
    | cons r l ih => exact fun u => ih _
  exact ranks _ _ _

/-- A budget change raises the floor and advances the epoch. -/
theorem budgetLive_spec (s : State) (c : Commit) (ranks : BitVec 64) (floor : Nat) (small : floor < 256) (h : Rising s.live) :
    budgetMin (budgetLive s c ranks floor) = floor ∧ (budgetLive s c ranks floor).pp.epoch = s.pp.epoch + 1 := by
  obtain ⟨live, pp⟩ := setFloor_live (commitDone s c) floor
  have rising : Rising (commitDone s c).live := h
  have min (u : State) (e : u.live = (setFloor (commitDone s c) floor).live) : budgetMin u = floor := by
    unfold budgetMin cfg
    rw [e, live, tget_tset _ _ _ _ _ rising, if_pos rfl]
    exact fld_floor _ _ small
  have epoch : (saveConfig (setFloor (commitDone s c) floor)).pp.epoch = s.pp.epoch + 1 := by
    rw [saveConfig_pp, pp]; rfl
  unfold budgetLive
  extract_lets slow u
  split
  · exact ⟨min _ rfl, epoch⟩
  · exact ⟨min _ (finishId_live ..), (finishId_epoch ..).trans epoch⟩

/-! ### The configuration -/

/-- What follows a change of live values leaves both copies and the commands. -/
theorem afterConfig_frame (s : State) : (saveConfig (afterConfig s)).live = s.live ∧
    (saveConfig (afterConfig s)).shadow = s.shadow ∧ (saveConfig (afterConfig s)).pp = s.pp := ⟨rfl, rfl, rfl⟩

/-- Each live value equals its shadow at once. -/
theorem configLive_spec (s : State) (h : Rising s.live) :
    (∀ id ∈ cfgIds, cfg (configLive s) id = cfgShadow s id) ∧ (configLive s).shadow = s.shadow ∧ (configLive s).pp = s.pp := by
  obtain ⟨frame, read⟩ := shadowsLive_spec cfgIds s h
  unfold configLive
  generalize cfgIds.foldl (fun s id => setLive s id (cfgShadow s id)) s = u at frame read ⊢
  obtain ⟨live, shadow, pp⟩ := afterConfig_frame u
  refine ⟨fun id m => ?_, ?_, ?_⟩
  · rw [cfg, live]; exact read id (.inl m)
  · rw [shadow, frame]
  · rw [pp, frame]

/-- The two registers of a power policy, in both copies. -/
theorem policy_spec (s : State) (x y : Reg) (live : Rising s.live) (shadow : Rising s.shadow) :
    let t := setShadow (setLive (setShadow (setLive s 58 x) 58 x) 59 y) 59 y
    cfg t 58 = x ∧ cfgShadow t 58 = x ∧ cfg t 59 = y ∧ cfgShadow t 59 = y := by
  have live' : Rising (setLive s 58 x).live := rising_tset _ _ _ _ live
  have shadow' : Rising (setShadow s 58 x).shadow := rising_tset _ _ _ _ shadow
  refine ⟨?_, ?_, ?_, ?_⟩
  · exact (cfg_setLive_other (setLive s 58 x) 59 58 y live' (by decide)).trans (cfg_setLive_self s 58 x live)
  · exact (cfgShadow_setShadow_other (setShadow s 58 x) 59 58 y shadow' (by decide)).trans
      (cfgShadow_setShadow_self s 58 x shadow)
  · exact cfg_setLive_self (setLive s 58 x) 59 y live'
  · exact cfgShadow_setShadow_self (setShadow s 58 x) 59 y shadow'

/-- Settles O47: what `commitAt` makes of each change, and what each leaves. -/
theorem commitsGoLive : Obligations.CommitsGoLive := by
  refine ⟨?early, ?free, ?unasked, ?config, ?bad, ?policy, ?region, ?budget⟩
  case early =>
    intro s c up pending early
    rw [exec_commitLive up, commitAt, pending]
    simp [early]
  case free =>
    intro s free
    simp [exec, execCommitLive, commitAt, free]
  case unasked =>
    intro s c up pending due needs go
    obtain ⟨live, -, mp, epoch, commit⟩ := commitAborted_spec s c
    exact ⟨_, exec_commitLive up, by rw [commitAt_unasked pending due needs go]; exact ⟨live, mp, commit, epoch⟩⟩
  case config =>
    intro s c up pending due go kind good rising
    obtain ⟨read, shadow, pp⟩ := configLive_spec (commitDone s c) rising
    refine ⟨_, exec_commitLive up, ?_⟩
    rw [commitAt_config pending due go kind good]
    refine ⟨fun id m => ?_, ?_, ?_, ?_⟩
    · rw [cfg_finishId]; exact read id m
    · rw [finishId_shadow]; exact shadow
    · rw [finishId_epoch, pp]; rfl
    · rw [finishId_commit, pp]; rfl
  case bad =>
    intro s c id up pending due kind bad
    obtain ⟨live, shadow, -, epoch, commit⟩ := commitAborted_spec s c
    exact ⟨_, exec_commitLive up, by rw [commitAt_badShadow pending due kind bad]; exact ⟨live, shadow, epoch, commit⟩⟩
  case policy =>
    intro s c x y up pending due go kind live shadow
    refine ⟨_, exec_commitLive up, ?_⟩
    rw [commitAt_policy pending due go kind, finishId_epoch]
    simp only [cfg_finishId, cfgShadow_finishId, cfg_saveConfig, cfgShadow_saveConfig]
    obtain ⟨a, a', b, b'⟩ := policy_spec (commitDone s c) x y live shadow
    exact ⟨a, a', b, b', rfl⟩
  case region =>
    intro s c op n m policy domain base size split tree x up pending due go kind plan slot
    refine ⟨_, exec_commitLive up, ?_⟩
    rw [commitAt_region pending due go kind plan slot]
    exact regionLive_spec s c x
  case budget =>
    intro s c ranks floor up pending due go kind top slot small rising
    refine ⟨_, exec_commitLive up, ?_⟩
    rw [commitAt_budget pending due go kind top slot]
    exact budgetLive_spec s c ranks floor small rising

end Sys2Proof.Proofs.Commits
end

section
/-! What a reset of the device leaves, and the commands that reset it. -/
namespace Sys2Proof.Proofs.Resets
open Sys2Proof Machine Safety

/-! ### What a cut program leaves of the media (R57, R222, R223) -/

/-- A key set to a value other than the default leaves every other key, whatever the table. -/
theorem tget_tset_val_other {α : Type} [DecidableEq α] (d : α) (t : Tab α) (k j : Nat) (v : α) (hv : v ≠ d) (hj : j ≠ k) :
    tget d (tset d t k v) j = tget d t j := by
  induction t with
  | nil => simp [tset, hv, tget, hj]
  | cons x t ih =>
    by_cases h1 : k < x.1
    · simp only [tset, h1, hv, if_true, if_false, tget]; grind
    · by_cases h2 : k = x.1
      · simp only [tset, h2, hv, Nat.lt_irrefl, if_true, if_false, tget]; grind
      · simp only [tset, h1, h2, if_false, tget, ih]

/-- Replacing some entries of a table by one value makes a read answer that value or what it did. -/
theorem tget_map_some {α : Type} (d v : α) (p : Nat → Bool) (t : Tab α) (j : Nat) :
    tget d (t.map fun x => if p x.1 then (x.1, v) else x) j = tget d t j ∨
      tget d (t.map fun x => if p x.1 then (x.1, v) else x) j = v := by
  induction t with
  | nil => exact .inl rfl
  | cons x t ih =>
    rw [List.map_cons]
    cases p x.1 <;> simp only [tget] <;> grind

/-- `u` is `s` but for lines left torn by what was cut: the drains in progress, the parities out of step and the free values
read may differ, and no line holds anything else than before unless it is torn. -/
structure TornFrom (s u : State) : Prop where
  frame : u = { s with
    mp := { s.mp with media := u.mp.media, parityStale := u.mp.parityStale }, sag := u.sag, freeCtr := u.freeCtr }
  lines : ∀ slot line, mediaImg u slot line = mediaImg s slot line ∨ ∃ l, mediaImg u slot line = .torn l

theorem TornFrom.refl (s : State) : TornFrom s s := ⟨rfl, fun _ _ => .inl rfl⟩

theorem TornFrom.trans {s u v : State} (h : TornFrom s u) (k : TornFrom u v) : TornFrom s v where
  frame := by rw [k.frame, h.frame]
  lines slot line := (k.lines slot line).elim
    (fun same => (h.lines slot line).imp same.trans fun ⟨l, e⟩ => ⟨l, same.trans e⟩) .inr

theorem TornFrom.foldl {α : Type} (f : State → α → State) (hf : ∀ u a, TornFrom u (f u a)) (l : List α) (s : State) :
    TornFrom s (l.foldl f s) := by
  induction l generalizing s with
  | nil => exact .refl s
  | cons a l ih => exact (hf s a).trans (ih _)

theorem setMedia_torn (s : State) (slot line : Nat) (o : Option LineRec) : TornFrom s (setMedia s slot line (.torn o)) where
  frame := rfl
  lines slot' line' := by
    unfold mediaImg setMedia
    by_cases h : slot' * 64 + line' = slot * 64 + line
    · rw [h]; exact .inr ⟨o, tget_tset_val _ _ _ _ (by simp)⟩
    · exact .inl (tget_tset_val_other _ _ _ _ _ (by simp) h)

theorem draw_torn (s : State) : TornFrom s (draw s).2 := ⟨rfl, fun _ _ => .inl rfl⟩

theorem tearWordLine_torn (s : State) (bs wl : Nat) : TornFrom s (tearWordLine s bs wl) :=
  .foldl _ (fun u _ => .foldl _ (fun v _ => setMedia_torn v _ _ _) _ u) _ s

theorem tearFiring_torn (s : State) (f : Firing) : TornFrom s (tearFiring s f) := by
  unfold tearFiring
  split
  next n u e =>
    have drawn : TornFrom s u := by rw [show u = (draw s).2 by rw [e]]; exact draw_torn s
    split
    · exact drawn.trans (tearWordLine_torn ..)
    · exact drawn

theorem tearDrains_torn (s : State) : TornFrom s (tearDrains s) := by
  unfold tearDrains
  refine (TornFrom.foldl _ (fun u d => ?_) s.sag.drains s).trans ⟨rfl, fun _ _ => .inl rfl⟩
  have lines : TornFrom u ((d.lines.filter fun x => Config.cutTakes (draw u).1 x.1).foldl (fun s x => tearLine s d.slot x.1)
      (draw (draw u).2).2) :=
    ((draw_torn u).trans (draw_torn _)).trans (.foldl _ (fun v x => setMedia_torn v _ _ _) _ _)
  show TornFrom u (if _ then _ else _)
  split
  · exact lines.trans ⟨rfl, fun _ _ => .inl rfl⟩
  · exact lines

/-- The blankings in progress are cut: which lines are undefined is a free value. -/
def tearBlankings (n : Nat) (s : State) : State :=
  { s with mp := { s.mp with media := s.mp.media.map fun x =>
    if (stripe s (slotBs (x.1 / 64))).state = .blanking && Config.cutTakes n x.1 then (x.1, .torn none) else x } }

theorem tearBlankings_torn (n : Nat) (s : State) : TornFrom s (tearBlankings n s) where
  frame := rfl
  lines slot line := by
    refine Or.imp id (fun e => ⟨none, e⟩) ?_
    exact tget_map_some Img.blank (.torn none)
      (fun key => decide ((stripe s (slotBs (key / 64))).state = .blanking) && Config.cutTakes n key) s.mp.media _

/-- Drains, then firings, then blankings are cut. -/
theorem tearAll_eq (s : State) : tearAll s =
    tearBlankings (((tearDrains s).pl.ranks.flatMap fun x => x.2.firings).foldl tearFiring (tearDrains s)).freeCtr
      (draw (((tearDrains s).pl.ranks.flatMap fun x => x.2.firings).foldl tearFiring (tearDrains s))).2 := rfl

theorem tearAll_torn (s : State) : TornFrom s (tearAll s) := by
  rw [tearAll_eq]
  exact (((tearDrains_torn s).trans (.foldl _ tearFiring_torn _ _)).trans (draw_torn _)).trans (tearBlankings_torn _ _)

/-- With no drain, no firing and no blanking in progress nothing is torn. -/
theorem tearAll_media_idle (s : State) (drains : s.sag.drains = []) (firings : ∀ x ∈ s.pl.ranks, x.2.firings = [])
    (stripes : ∀ x ∈ s.pl.stripes, x.2.state ≠ .blanking) : (tearAll s).mp.media = s.mp.media := by
  have noDrain : tearDrains s = { s with sag := { s.sag with drains := [], slotOf := [] } } := by
    unfold tearDrains; rw [drains]; rfl
  have noFiring : (s.pl.ranks.flatMap fun x => x.2.firings) = [] := List.flatMap_eq_nil_iff.2 firings
  have noBlanking (bs : Nat) : (stripe s bs).state ≠ .blanking :=
    tget_all (fun b : BsRec => b.state ≠ .blanking) _ _ (by decide) stripes bs
  rw [tearAll_eq, noDrain]
  simp only [noFiring, List.foldl_nil]
  refine List.map_id'' (fun x => if_neg ?_) _
  simp only [Bool.and_eq_true, decide_eq_true_eq]
  exact fun h => noBlanking _ h.1

/-! ### The reset (R22, R494, R630) -/

theorem cutBreath_frame (s : State) : cutBreath s = { s with pwr := (cutBreath s).pwr } := by
  unfold cutBreath; split <;> rfl

/-- Cutting the breath keeps the supplies, the straps and the rails' bits. -/
theorem cutBreath_pins (s : State) : (cutBreath s).pwr.supplies = s.pwr.supplies ∧ (cutBreath s).pwr.strapPos = s.pwr.strapPos ∧
    (cutBreath s).pwr.strapHalt = s.pwr.strapHalt ∧ (cutBreath s).pwr.brownOut = s.pwr.brownOut := by
  unfold cutBreath; split <;> exact ⟨rfl, rfl, rfl, rfl⟩

/-- The state whose parts a reset keeps, after what was in progress has been cut. -/
theorem tearAll_cutBreath (s : State) : ∃ media stale sag ctr, tearAll (cutBreath s) =
    { s with pwr := (cutBreath s).pwr, mp := { s.mp with media := media, parityStale := stale }, sag := sag, freeCtr := ctr } := by
  unfold cutBreath
  split <;> exact ⟨_, _, _, _, (tearAll_torn _).frame⟩

/-- The pins and the rails' bits after a reset. -/
theorem resetDevice_pwr (s : State) : (resetDevice s).pwr.inReset = true ∧ (resetDevice s).pwr.step = 0 ∧
    (resetDevice s).pwr.breath = none ∧ (resetDevice s).pwr.supplies = s.pwr.supplies ∧
    (resetDevice s).pwr.strapPos = s.pwr.strapPos ∧ (resetDevice s).pwr.strapHalt = s.pwr.strapHalt ∧
    (resetDevice s).pwr.brownOut = s.pwr.brownOut := by
  obtain ⟨media, stale, sag, ctr, e⟩ := tearAll_cutBreath s
  have pwr : (resetDevice s).pwr = pwrAfterReset (cutBreath s).pwr := by unfold resetDevice; rw [e]
  obtain ⟨supplies, pos, halt, rails⟩ := cutBreath_pins s
  rw [pwr]
  exact ⟨rfl, rfl, rfl, supplies, pos, halt, rails⟩

/-- A reset leaves the backup domain, the keep store and the media, and puts the rest at its reset column. -/
theorem resetDevice_afterReset (s : State) : AfterReset s (resetDevice s) := by
  have torn := tearAll_torn (cutBreath s)
  have idle := tearAll_media_idle (cutBreath s)
  have media : (resetDevice s).mp.media = (tearAll (cutBreath s)).mp.media := rfl
  obtain ⟨m, stale, sag, ctr, e⟩ := tearAll_cutBreath s
  have before : (cutBreath s).mp = s.mp ∧ (cutBreath s).sag = s.sag ∧ (cutBreath s).pl = s.pl := by
    rw [cutBreath_frame s]; exact ⟨rfl, rfl, rfl⟩
  have lines : ∀ slot line, mediaImg (resetDevice s) slot line = mediaImg s slot line ∨
      ∃ l, mediaImg (resetDevice s) slot line = .torn l := by
    intro slot line
    have read := torn.lines slot line
    unfold mediaImg at read ⊢
    rw [before.1] at read
    rw [media]; exact read
  have whole : s.sag.drains = [] → (∀ x ∈ s.pl.ranks, x.2.firings = []) → (∀ x ∈ s.pl.stripes, x.2.state ≠ .blanking) →
      (resetDevice s).mp.media = s.mp.media := by
    rw [before.1, before.2.1, before.2.2] at idle
    rw [media]; exact idle
  have inReset := (resetDevice_pwr s).1
  unfold resetDevice at lines whole inReset ⊢
  rw [e] at lines whole inReset ⊢
  exact {
    queue := rfl, inReset := inReset, beat := ⟨rfl, rfl⟩, calendar := ⟨rfl, rfl, rfl, rfl, rfl, rfl, rfl, rfl, rfl⟩
    media := ⟨lines, whole, rfl, rfl, rfl⟩, keep := rfl, registers := ⟨rfl, rfl⟩, commands := rfl, saggar := ⟨rfl, rfl⟩
    rest := ⟨rfl, rfl, rfl⟩, hostLink := ⟨rfl, rfl, rfl, rfl⟩, mapCache := ⟨rfl, rfl, rfl⟩ }

/-- What a reset leaves does not depend on the pins and the free values before it. -/
theorem afterReset_of_pins {s t : State} {p : PwrSt} {n : Nat} (h : AfterReset { s with pwr := p, freeCtr := n } t) :
    AfterReset s t :=
  ⟨h.queue, h.inReset, h.beat, h.calendar, h.media, h.keep, h.registers, h.commands, h.saggar, h.rest, h.hostLink, h.mapCache⟩

/-- The rails' bits are no part of what a reset returns. -/
theorem afterReset_brownOut {s t : State} (h : AfterReset s t) (rails : BitVec 3) :
    AfterReset s { t with pwr := { t.pwr with brownOut := rails } } :=
  ⟨h.queue, h.inReset, h.beat, h.calendar, h.media, h.keep, h.registers, h.commands, h.saggar, h.rest, h.hostLink, h.mapCache⟩

/-- The rising edge of RESET_N, with the supplies up. -/
theorem releaseReset_up {s : State} (supplies : s.pwr.supplies = true) (inReset : s.pwr.inReset = true) :
    releaseReset s = { s with pwr := { s.pwr with inReset := false, step := 1 } } := by
  simp [releaseReset, supplies, inReset]

/-! ### The commands that reset -/

/-- The device as supplies that rise without a reset find it, after the reset they cause. -/
def suppliesRisen (s : State) : State := resetDevice { s with pwr := { s.pwr with supplies := true, brownOut := 0 } }

theorem suppliesRisen_reset (s : State) : AfterReset s (suppliesRisen s) ∧ (suppliesRisen s).pwr.supplies = true ∧
    releaseReset (suppliesRisen s) =
      { suppliesRisen s with pwr := { (suppliesRisen s).pwr with inReset := false, step := 1 } } := by
  obtain ⟨inReset, -, -, supplies, -⟩ := resetDevice_pwr { s with pwr := { s.pwr with supplies := true, brownOut := 0 } }
  exact ⟨afterReset_of_pins (resetDevice_afterReset _), supplies, releaseReset_up supplies inReset⟩

/-- Losing links changes the links alone. -/
theorem updLinks_frame (f : LinkRec → LinkRec) (l : List Nat) (s : State) :
    l.foldl (fun s n => updLink s n f) s = { s with ln := { s.ln with links := (l.foldl (fun s n => updLink s n f) s).ln.links } } := by
  induction l generalizing s with
  | nil => rfl
  | cons n l ih => exact ih (updLink s n f)

/-- What a start with supplies out of range may come to, by the free value read (R673). -/
def badStarted (d : Nat) (s : State) : State :=
  if Config.badStart d % 3 = 0 then { s with pwr := { s.pwr with stopped := true } }
  else if Config.badStart d % 3 = 1 then { s with pwr := { s.pwr with limited := true } }
  else ((List.range 1152).filter (Config.badStartLost d)).foldl
    (fun s n => updLink s n fun l => { l with state := .lost, cause := 4, lostSignal := true }) s

theorem exec_suppliesUp {s : State} (dark : s.pwr.supplies = false) :
    exec (.suppliesUpUnreset true) s = .next (releaseReset (suppliesRisen s)) ∧
    exec (.suppliesUpUnreset false) s = .next (badStarted (releaseReset (suppliesRisen s)).freeCtr
      { releaseReset (suppliesRisen s) with freeCtr := (releaseReset (suppliesRisen s)).freeCtr + 1 }) := by
  have down : ¬ s.pwr.supplies = true := by simp [dark]
  exact ⟨congrArg Host.Outcome.next ((if_neg down).trans rfl), congrArg Host.Outcome.next ((if_neg down).trans rfl)⟩

/-- The start stops, is limited or has lost links; nothing else changes. -/
theorem badStarted_frame (d : Nat) (s : State) : badStarted d s = { s with
    pwr := { s.pwr with stopped := (badStarted d s).pwr.stopped, limited := (badStarted d s).pwr.limited }
    ln := { s.ln with links := (badStarted d s).ln.links } } := by
  unfold badStarted
  split
  · rfl
  · split
    · rfl
    · rw [updLinks_frame]

/-- Settles O10: every reset is `resetDevice`, and what that leaves is `AfterReset`. -/
theorem resetsOfTheDevice : Obligations.ResetsOfTheDevice := by
  refine ⟨⟨?powerOn, ?long, ?short, ?between, ?release⟩, ?brownOut, ?inRange, ?outOfRange⟩
  case powerOn =>
    intro s pos halt dark
    refine ⟨_, congrArg Host.Outcome.next (if_neg (by simp [dark])), afterReset_of_pins (resetDevice_afterReset _), ?_⟩
    obtain ⟨-, step, -, supplies, strap, boot, rails⟩ := resetDevice_pwr
      { s with pwr := { s.pwr with supplies := true, strapPos := pos.val, strapHalt := halt, brownOut := 0 } }
    exact ⟨supplies, step, strap, boot, rails⟩
  case long =>
    intro s ns up long
    obtain ⟨-, step, -, supplies, strap, -⟩ := resetDevice_pwr s
    have e : exec (.resetNAssert ns) s = .next (resetDevice s) := by
      simp [exec, execResetNAssert, up, long, Nat.not_lt.2 (Nat.le_trans (by decide : 1000 ≤ 10000) long)]
    exact ⟨_, e, resetDevice_afterReset s, supplies.trans up, step, strap⟩
  case short =>
    intro s ns short
    simp [exec, execResetNAssert, short]
  case between =>
    intro s ns up low high
    have e : exec (.resetNAssert ns) s = .next (if Config.shortResetTakes s.freeCtr then
        resetDevice { s with freeCtr := s.freeCtr + 1 } else { s with freeCtr := s.freeCtr + 1 }) :=
      congrArg Host.Outcome.next ((if_neg (by simp [up, low])).trans (if_neg (Nat.not_le.2 high)))
    refine ⟨_, e, ?_⟩
    split
    · exact .inr (afterReset_of_pins (resetDevice_afterReset { s with freeCtr := s.freeCtr + 1 }))
    · exact .inl rfl
  case release =>
    intro s up held
    exact congrArg _ (releaseReset_up up held)
  case brownOut =>
    intro s rail up
    obtain ⟨-, -, breath, supplies, -, -, rails⟩ := resetDevice_pwr s
    refine ⟨_, congrArg Host.Outcome.next (if_pos up), afterReset_brownOut (resetDevice_afterReset s) _, supplies.trans up,
      breath, ?_⟩
    exact congrArg (· ||| (1#3 <<< rail.val)) rails
  case inRange =>
    intro s dark
    obtain ⟨after, supplies, release⟩ := suppliesRisen_reset s
    exact ⟨_, suppliesRisen s, (exec_suppliesUp dark).1, after, supplies, release⟩
  case outOfRange =>
    intro s dark
    obtain ⟨after, supplies, release⟩ := suppliesRisen_reset s
    refine ⟨_, suppliesRisen s, (exec_suppliesUp dark).2, after, supplies, ?_⟩
    rw [release]
    exact badStarted_frame _ _

end Sys2Proof.Proofs.Resets
end

section
/-! The steps of startup: what each step's end does. -/
namespace Sys2Proof.Proofs.Startup
open Sys2Proof Machine Safety

/-! ### Parts outside an operation's mask -/

/-- Every part but one. -/
def allBut (p : StatePart) : BitVec 21 := ~~~ BitVec.ofNat 21 (2 ^ bitOf p)

/-- An operation that may change any part but `p` leaves `p`. -/
theorem same_of_keeps {p : StatePart} {s t : State} (h : Keeps (allBut p) s t) : p.same s t :=
  h.same.part p (by cases p <;> decide)

/-- What a part that is the same says of its fields: of all but those that reports change. -/
theorem pwr_field {s t : State} (h : StatePart.pwr.same s t) {α : Type} (f : PwrSt → α) : f (quiet t).pwr = f (quiet s).pwr :=
  congrArg f h

theorem kp_field {s t : State} (h : StatePart.kp.same s t) {α : Type} (f : KeepSt → α) : f (quiet t).kp = f (quiet s).kp :=
  congrArg f h

theorem hl_field {s t : State} (h : StatePart.hl.same s t) {α : Type} (f : HostLinkSt → α) : f (quiet t).hl = f (quiet s).hl :=
  congrArg f h

theorem start_of_same {s t : State} (h : StatePart.pwr.same s t) :
    t.pwr.step = s.pwr.step ∧ t.pwr.stopped = s.pwr.stopped ∧ t.pwr.limited = s.pwr.limited ∧
      t.pwr.firstStart = s.pwr.firstStart :=
  ⟨pwr_field h PwrSt.step, pwr_field h PwrSt.stopped, pwr_field h PwrSt.limited, pwr_field h PwrSt.firstStart⟩

/-- Raising an event leaves the power state, the clocks and the wear. -/
theorem raise_same (s : State) (code source p0 p1 p2 p3 : Nat) : StatePart.pwr.same s (raise s code source p0 p1 p2 p3) ∧
    (raise s code source p0 p1 p2 p3).clk = s.clk ∧ (raise s code source p0 p1 p2 p3).wr = s.wr :=
  ⟨same_of_keeps (raise_keeps (.refl _ s) rfl), same_of_keeps (p := .clk) (raise_keeps (.refl _ s) rfl),
    same_of_keeps (p := .wr) (raise_keeps (.refl _ s) rfl)⟩

/-! ### The end of a step (R633, R634) -/

/-- The start stands in a step. -/
def atStep (s : State) (k : Nat) : State := { s with pwr := { s.pwr with step := k } }

theorem exec_stepEnd {s a : State} {r : StepReport} {k : Nat} (h : StartsAt s k) (low : 2 ≤ k) (high : k ≤ 10)
    (action : stepAction s r = a) (step : a.pwr.step = k) (stopped : a.pwr.stopped = false) :
    exec (.startupStepEnd r) s = .next (atStep a (nextStep a.pwr.limited k)) := by
  obtain rfl := h.step
  subst action
  have closed : ¬ (!s.pwr.supplies || s.pwr.inReset || s.pwr.stopped || s.pwr.step = 0 || 12 ≤ s.pwr.step ||
      (s.pwr.limited && s.pwr.step = 11) || s.pwr.halted) = true := by
    simp [h.supplies, h.reset, h.stopped, h.halted]; omega
  have fuses (b : Bool) : ¬ (s.pwr.step = 1 && b) = true := by simp; omega
  have goes : ¬ ((stepAction s r).pwr.step = 12 || (stepAction s r).pwr.stopped) = true := by simp [step, stopped]; omega
  exact congrArg Host.Outcome.next ((if_neg closed).trans ((if_neg (fuses _)).trans ((if_neg (fuses _)).trans (if_neg goes))))

/-- An action that stops the start, or that is Media Ready, ends where it stands. -/
theorem exec_stepEnd_here {s a : State} {r : StepReport} {k : Nat} (h : StartsAt s k) (low : 2 ≤ k) (high : k ≤ 11)
    (full : ¬ (s.pwr.limited = true ∧ k = 11)) (action : stepAction s r = a) (ends : a.pwr.step = 12 ∨ a.pwr.stopped = true) :
    exec (.startupStepEnd r) s = .next a := by
  obtain rfl := h.step
  subst action
  have closed : ¬ (!s.pwr.supplies || s.pwr.inReset || s.pwr.stopped || s.pwr.step = 0 || 12 ≤ s.pwr.step ||
      (s.pwr.limited && s.pwr.step = 11) || s.pwr.halted) = true := by
    simp [h.supplies, h.reset, h.stopped, h.halted]; refine ⟨by omega, fun l e => full ⟨l, e⟩⟩
  have fuses (b : Bool) : ¬ (s.pwr.step = 1 && b) = true := by simp; omega
  have here : ((stepAction s r).pwr.step = 12 || (stepAction s r).pwr.stopped) = true := by simpa using ends
  exact congrArg Host.Outcome.next ((if_neg closed).trans ((if_neg (fuses _)).trans ((if_neg (fuses _)).trans (if_pos here))))

/-- An action that leaves the power state goes on to the next step. -/
theorem exec_stepEnd_same {s a : State} {r : StepReport} {k : Nat} (h : StartsAt s k) (low : 2 ≤ k) (high : k ≤ 10)
    (action : stepAction s r = a) (same : StatePart.pwr.same s a) :
    exec (.startupStepEnd r) s = .next (atStep a (nextStep s.pwr.limited k)) := by
  obtain ⟨step, stopped, limited, -⟩ := start_of_same same
  rw [← limited]
  exact exec_stepEnd h low high action (step.trans h.step) (stopped.trans h.stopped)

/-- Where no step may end, nothing happens. -/
theorem exec_stepEnd_none {s : State} (r : StepReport) (h : s.pwr.supplies = false ∨ s.pwr.inReset = true ∨ s.pwr.stopped = true ∨
    s.pwr.step = 0 ∨ 12 ≤ s.pwr.step ∨ s.pwr.halted = true ∨ (s.pwr.limited = true ∧ s.pwr.step = 11)) :
    exec (.startupStepEnd r) s = .next s := by
  refine congrArg Host.Outcome.next (if_pos ?_)
  rcases h with h | h | h | h | h | h | ⟨h, h'⟩ <;> simp [*]

/-! ### Steps 1 to 3 -/

theorem exec_fuseLoad {s : State} (r : StepReport) (h : StartsAt s 1) (refs : s.clk.refPresent ≠ 0#4) :
    exec (.startupStepEnd r) s = .next (if s.pwr.strapHalt then
      { fuseLoad s with pwr := { (fuseLoad s).pwr with halted := true } } else atStep (fuseLoad s) 2) := by
  have next : nextStep s.pwr.limited 1 = 2 := by cases s.pwr.limited <;> rfl
  cases halt : s.pwr.strapHalt <;>
    simp [exec, execStartupStepEnd, stepAction, h.supplies, h.reset, h.stopped, h.halted, h.step, refs, halt, fuseLoad, atStep, next]

/-- Counting a zone's channels leaves the clocks and the power state. -/
theorem countZones_same (l : List Nat) (s : State) :
    (l.foldl (fun s z => countGood s z true) s).clk = s.clk ∧
      StatePart.pwr.same s (l.foldl (fun s z => countGood s z true) s) := by
  have keeps (k : BitVec 21) (w : Within 0x102000#21 k) : Keeps k s (l.foldl (fun s z => countGood s z true) s) :=
    .foldl _ l (fun _ _ h => countGood_keeps h w) s (.refl k s)
  exact ⟨same_of_keeps (p := .clk) (keeps _ rfl), same_of_keeps (keeps _ rfl)⟩

/-- A latched WAKE becomes the wake's source (R531). -/
def wakeTaken (s : State) : State :=
  if s.clk.wakeLatch then { s with clk := { s.clk with wakeLatch := false }, pwr := { s.pwr with wakeSrc := 6 } } else s

/-- Step 2 takes a latched WAKE as the wake's source. -/
theorem romBoot_spec (s : State) : (romBoot s).clk.wakeLatch = false ∧
    (romBoot s).pwr.wakeSrc = (if s.clk.wakeLatch then 6 else s.pwr.wakeSrc) ∧ (romBoot s).pwr.step = s.pwr.step ∧
    (romBoot s).pwr.stopped = s.pwr.stopped := by
  obtain ⟨clk, pwr⟩ := countZones_same (List.range 16) (wakeTaken s)
  obtain ⟨step, stopped, -⟩ := start_of_same pwr
  have source := pwr_field pwr PwrSt.wakeSrc
  have taken : (wakeTaken s).clk.wakeLatch = false ∧
      (wakeTaken s).pwr.wakeSrc = (if s.clk.wakeLatch then 6 else s.pwr.wakeSrc) ∧ (wakeTaken s).pwr.step = s.pwr.step ∧
      (wakeTaken s).pwr.stopped = s.pwr.stopped := by
    cases latch : s.clk.wakeLatch <;> simp [wakeTaken, latch]
  obtain ⟨latch, src, at_, goes⟩ := taken
  exact ⟨(congrArg ClkSt.wakeLatch clk).trans latch, Eq.trans source src, step.trans at_, stopped.trans goes⟩

/-- A kind of spare used up leaves the power state, the SRAM and the channels in use. -/
theorem exhaust_same (s : State) (kind : Nat) :
    StatePart.pwr.same s (exhaust s kind) ∧ (exhaust s kind).ecc = s.ecc ∧ (exhaust s kind).wr.chUsed = s.wr.chUsed := by
  refine ⟨same_of_keeps (exhaust_keeps (.refl _ s) rfl), same_of_keeps (p := .ecc) (exhaust_keeps (.refl _ s) rfl), ?_⟩
  unfold exhaust
  split
  · rfl
  · rw [(raise_same ..).2.2]

/-- The die's spare serves for a failed channel (R332). -/
def spareTaken (s : State) (c : Nat) : State :=
  { updSram s c fun x => { x with failed := true } with wr := { s.wr with chUsed := s.wr.chUsed ||| (1#8 <<< sramDie c) } }

theorem testChannel_eq (s : State) (c : Nat) (free : s.wr.chUsed.getLsbD (sramDie c) = false) :
    testChannel s c = if (spareTaken s c).wr.chUsed = 0xFF#8 then exhaust (spareTaken s c) 2 else spareTaken s c :=
  if_neg (by simp [free])

theorem spareTaken_failed (s : State) (c : Nat) : (sramCh (spareTaken s c) c).failed = true := by
  have read : sramCh (spareTaken s c) c = { sramCh s c with failed := true } :=
    tget_tset_val _ _ _ _ fun h => by cases congrArg SramCh.failed h
  rw [read]

/-- A channel whose die's spare is free takes it. -/
theorem testChannel_spare (s : State) (c : Nat) (free : s.wr.chUsed.getLsbD (sramDie c) = false) :
    StatePart.pwr.same s (testChannel s c) ∧ (testChannel s c).wr.chUsed = s.wr.chUsed ||| (1#8 <<< sramDie c) ∧
      (sramCh (testChannel s c) c).failed = true := by
  rw [testChannel_eq s c free]
  split
  · obtain ⟨pwr, ecc, used⟩ := exhaust_same (spareTaken s c) 2
    refine ⟨pwr, used, ?_⟩
    rw [sramCh, ecc]
    exact spareTaken_failed s c
  · exact ⟨rfl, rfl, spareTaken_failed s c⟩

/-- A channel without a spare disables the media and stops the start. -/
theorem testChannel_none (s : State) (c : Nat) (used : s.wr.chUsed.getLsbD (sramDie c) = true) :
    (testChannel s c).pwr.step = s.pwr.step ∧ (testChannel s c).pwr.disabled = true ∧ (testChannel s c).pwr.stopped = true := by
  unfold testChannel
  rw [used, if_pos rfl]
  have pwr := (raise_same { s with pwr := { s.pwr with disabled := true, stopped := true } } 0x42 srcDevice 0 0 0 0).1
  exact ⟨pwr_field pwr PwrSt.step, pwr_field pwr PwrSt.disabled, pwr_field pwr PwrSt.stopped⟩

end Sys2Proof.Proofs.Startup
end

section
/-! The steps of startup from the keep store to Media Ready, and the obligation about all of them. -/
namespace Sys2Proof.Proofs.Startup
open Sys2Proof Machine Safety

/-! ### Step 4: the keep store -/

/-- The parts as discovery finds them. -/
def partsFound (s : State) (r : StepReport) : State :=
  let behind (l : Option (Nat × Nat)) (other : Option (Nat × Nat)) : Bool := l.isSome && other.isNone
  let lagP := behind s.kp.priLeft s.kp.mirLeft && decide (r.mirSize ≠ 0)
  let lagM := behind s.kp.mirLeft s.kp.priLeft && decide (r.priSize ≠ 0)
  { s with kp := { s.kp with
    pri := partAfterDiscovery r.priSize lagP, mir := partAfterDiscovery r.mirSize lagM
    priSize := r.priSize, mirSize := r.mirSize, priDummy := r.priDummy, mirDummy := r.mirDummy
    priQuad := decide (r.priSize ≠ 0), mirQuad := decide (r.mirSize ≠ 0), port := discoverOps false ++ discoverOps true } }

/-- The same, with an event for each part that is not found. -/
def partsTold (s : State) (r : StepReport) : State :=
  let s := if r.priSize = 0 then raise s 0x72 srcKeep 0 0 0 0 else s
  if r.mirSize = 0 then raise s 0x72 srcKeep 0 0 0 0 else s

/-- A blank store is formatted by a first start; of another the index is searched. -/
def storeOpened (s : State) (r : StepReport) : State :=
  if !s.kp.formatted then { s with kp := s.kp.format, pwr := { s.pwr with firstStart := true } } else keepFindings s r

/-- The values that the store holds. -/
def storeRead (s : State) : State :=
  loadHistory { s with
    clk := { s.clk with losses := min (keepNat s 8) 65535, trim := trimRecord s }
    pwr := { s.pwr with dirtyCount := keepNat s 5 }
    ev := { s.ev with crits := s.kp.crits } }

theorem keepStart_eq (s : State) (r : StepReport) : keepStart s r =
    if keepDead (partsTold (partsFound s r) r) then
      raise { partsTold (partsFound s r) r with pwr := { (partsTold (partsFound s r) r).pwr with limited := true } }
        0x73 srcKeep 0 0 0 0
    else storeRead (storeOpened (partsTold (partsFound s r) r) r) := rfl

/-- The events leave the parts and the power state. -/
theorem partsTold_same (s : State) (r : StepReport) :
    StatePart.pwr.same s (partsTold s r) ∧ StatePart.kp.same s (partsTold s r) := by
  have keeps (k : BitVec 21) (w : Within 0x100000#21 k) : Keeps k s (partsTold s r) := by
    have first : Keeps k s (if r.priSize = 0 then raise s 0x72 srcKeep 0 0 0 0 else s) :=
      .ite (raise_keeps (.refl k s) w) (.refl k s)
    exact .ite (raise_keeps first w) first
  exact ⟨same_of_keeps (keeps _ rfl), same_of_keeps (keeps _ rfl)⟩

/-- Both parts have failed exactly when neither is found. -/
theorem keepDead_partsTold (s : State) (r : StepReport) :
    keepDead (partsTold (partsFound s r) r) = true ↔ r.priSize = 0 ∧ r.mirSize = 0 := by
  have found : keepDead (partsTold (partsFound s r) r) = keepDead (partsFound s r) :=
    kp_field (partsTold_same _ r).2 fun k => decide (k.pri = .failed) && decide (k.mir = .failed)
  have part (size : Nat) (b : Bool) : partAfterDiscovery size b = .failed ↔ size = 0 := by
    unfold partAfterDiscovery; split <;> simp_all; split <;> simp
  rw [found]
  simp [keepDead, partsFound, part]

/-- Reading the store leaves where the start stands. -/
theorem storeRead_start (s : State) (r : StepReport) :
    (storeRead (storeOpened s r)).pwr.step = s.pwr.step ∧ (storeRead (storeOpened s r)).pwr.stopped = s.pwr.stopped ∧
    (storeRead (storeOpened s r)).pwr.limited = s.pwr.limited ∧
    (s.kp.formatted = false → (storeRead (storeOpened s r)).pwr.firstStart = true) := by
  have read (u : State) : StatePart.pwr.same { u with pwr := { u.pwr with dirtyCount := keepNat u 5 } } (storeRead u) :=
    (same_of_keeps (p := .pwr) (loadHistory_keeps (.refl _ _) rfl) : _)
  obtain ⟨step, stopped, limited, first⟩ := start_of_same (read (storeOpened s r))
  rw [step, stopped, limited, first]
  unfold storeOpened
  cases formatted : s.kp.formatted
  · exact ⟨rfl, rfl, rfl, fun _ => rfl⟩
  · have findings : Keeps (allBut .pwr) s (keepFindings s r) := keepFindings_keeps (.refl _ s) rfl
    obtain ⟨step, stopped, limited, -⟩ := start_of_same (same_of_keeps findings)
    exact ⟨step, stopped, limited, fun h => by cases h⟩

/-- With both parts failed the start is limited; else the store is read, and a blank one makes it a first start. -/
theorem keepStart_spec (s : State) (r : StepReport) :
    (keepStart s r).pwr.step = s.pwr.step ∧ (keepStart s r).pwr.stopped = s.pwr.stopped ∧
    (if r.priSize = 0 ∧ r.mirSize = 0 then (keepStart s r).pwr.limited = true
     else (keepStart s r).pwr.limited = s.pwr.limited ∧ (s.kp.formatted = false → (keepStart s r).pwr.firstStart = true)) := by
  obtain ⟨pwr, kp⟩ := partsTold_same (partsFound s r) r
  obtain ⟨step, stopped, limited, -⟩ := start_of_same pwr
  have formatted : (partsTold (partsFound s r) r).kp.formatted = s.kp.formatted :=
    kp_field kp KeepSt.formatted
  rw [keepStart_eq]
  by_cases dead : r.priSize = 0 ∧ r.mirSize = 0
  · rw [if_pos ((keepDead_partsTold s r).2 dead), if_pos dead]
    obtain ⟨told, gone, lim, -⟩ := start_of_same (raise_same { partsTold (partsFound s r) r with
      pwr := { (partsTold (partsFound s r) r).pwr with limited := true } } 0x73 srcKeep 0 0 0 0).1
    exact ⟨told.trans step, gone.trans stopped, lim⟩
  · rw [if_neg (mt (keepDead_partsTold s r).1 dead), if_neg dead]
    obtain ⟨at_, goes, lim, first⟩ := storeRead_start (partsTold (partsFound s r) r) r
    exact ⟨at_.trans step, goes.trans stopped, lim.trans limited, fun h => first (formatted.trans h)⟩

/-! ### Steps 5 to 7: keys, population, continuity -/

/-- Preparing the keys draws and unwraps them, and leaves the power state and the count of windows. -/
theorem keysReady_spec (s : State) (fails : BitVec 16) :
    StatePart.pwr.same s (keysReady s fails) ∧ (keysReady s fails).ig.windows = s.ig.windows := by
  refine ⟨same_of_keeps (keysReady_keeps (.refl _ s) rfl), ?_⟩
  have told (u : State) (code source p0 p1 p2 p3 : Nat) : (raise u code source p0 p1 p2 p3).ig = u.ig :=
    same_of_keeps (p := .ig) (raise_keeps (.refl _ u) rfl)
  unfold keysReady
  generalize List.range 16 = l
  induction l generalizing s with
  | nil => rfl
  | cons d l ih =>
    rw [List.foldl_cons, ih]
    split
    · rfl
    · split
      · rfl
      · split
        · rw [told]
        · rfl

/-- Step 5 opens a key window; a first start begins with SYSKEY_GEN 0 and the lowest ceiling. -/
theorem keyStart_spec (s : State) (fails : BitVec 16) :
    StatePart.pwr.same s (keyStart s fails) ∧ (keyStart s fails).ig.windows = s.ig.windows + 1 ∧
    (keyStart s fails).ig.keyWindow = true ∧
    (s.pwr.firstStart = true → (keyStart s fails).ig.sysGen = 0 ∧ (keyStart s fails).ig.stampCeil = 2 ^ 40) := by
  obtain ⟨pwr, windows⟩ := keysReady_spec s fails
  have first := (start_of_same pwr).2.2.2
  refine ⟨same_of_keeps (keyStart_keeps (.refl _ s) rfl), ?_⟩
  unfold keyStart
  generalize keysReady s fails = u at windows first ⊢
  rw [← windows, ← first]
  cases h : u.pwr.firstStart <;> simp [h, keepPut]

/-- The clock step leaves CONT set, and where the start stands. -/
theorem clockStep_spec (s : State) (ticks : Nat) (fc : State → Nat → Nat → Nat) :
    (clockStep s ticks fc).clk.cont = true ∧ (clockStep s ticks fc).pwr.step = s.pwr.step ∧
    (clockStep s ticks fc).pwr.stopped = s.pwr.stopped ∧ (clockStep s ticks fc).pwr.limited = s.pwr.limited := by
  unfold clockStep
  split
  · next cont =>
    obtain ⟨step, stopped, limited, -⟩ := start_of_same (same_of_keeps (p := .pwr) (catchUp_keeps (.refl _ s) rfl) :
      StatePart.pwr.same s (catchUp s ticks fc))
    have clk : (catchUp s ticks fc).clk = s.clk := same_of_keeps (p := .clk) (catchUp_keeps (.refl _ s) rfl)
    exact ⟨by rw [clk]; exact cont, step, stopped, limited⟩
  · obtain ⟨step, stopped, limited, -⟩ := start_of_same (same_of_keeps (p := .pwr) (continuityLoss_keeps (.refl _ s) rfl) :
      StatePart.pwr.same s (continuityLoss s))
    have told := raise_same (keepPut { continuityLoss s with
      clk := { (continuityLoss s).clk with cont := true, tvalid := false, losses := min ((continuityLoss s).clk.losses + 1) 65535 }
      cn := { (continuityLoss s).cn with unbroken := false }
      pwr := { (continuityLoss s).pwr with contLost := true } } 8 (leBytes 4 (min ((continuityLoss s).clk.losses + 1) 65535)))
      0x2 srcDevice 0 0 0 0
    obtain ⟨step', stopped', limited', -⟩ := start_of_same told.1
    exact ⟨congrArg ClkSt.cont told.2.1, step'.trans step, stopped'.trans stopped, limited'.trans limited⟩

/-- The table, the rungs and the packages of step 7, before its clock step. -/
def packagesTaken (s : State) : State :=
  let s := if s.pwr.firstStart then
      { s with pl := { s.pl with stripes := [], copy := [] }, dr := { s.dr with savedGroups := [], savedDies := [] } }
    else loadTable { s with dr := { s.dr with groups := s.dr.savedGroups, dies := s.dr.savedDies } }
  let s := (s.ln.links.map (·.1)).foldl comparePackage s
  { s with ln := { s.ln with chartGen := s.ln.chartGen + 2 }, cn := { s.cn with unbroken := true } }

theorem packagesTaken_same (s : State) : StatePart.pwr.same s (packagesTaken s) := by
  have tables : StatePart.pwr.same s (if s.pwr.firstStart then
      { s with pl := { s.pl with stripes := [], copy := [] }, dr := { s.dr with savedGroups := [], savedDies := [] } }
    else loadTable { s with dr := { s.dr with groups := s.dr.savedGroups, dies := s.dr.savedDies } }) := by
    split
    · rfl
    · exact (same_of_keeps (loadTable_keeps (.refl _ _) rfl) : StatePart.pwr.same
        { s with dr := { s.dr with groups := s.dr.savedGroups, dies := s.dr.savedDies } } _)
  have packages (u : State) (l : List Nat) : StatePart.pwr.same u (l.foldl comparePackage u) :=
    same_of_keeps (.foldl _ l (fun _ _ h => comparePackage_keeps (k := allBut .pwr) h rfl) u (.refl _ u))
  exact Eq.trans (packages _ _) tables

/-- Step 7 leaves CONT set. -/
theorem clockStart_spec (s : State) : (clockStart s).clk.cont = true ∧ (clockStart s).pwr.step = s.pwr.step ∧
    (clockStart s).pwr.stopped = s.pwr.stopped ∧ (clockStart s).pwr.limited = s.pwr.limited := by
  obtain ⟨cont, step, stopped, limited⟩ := clockStep_spec (packagesTaken s)
    (((packagesTaken s).clk.seconds - (packagesTaken s).dr.savedAt) * 16000000 / 2 ^ 24) fun _ _ _ => 256
  obtain ⟨step', stopped', limited', -⟩ := start_of_same (packagesTaken_same s)
  exact ⟨cont, step.trans step', stopped.trans stopped', limited.trans limited'⟩

/-! ### Step 8: the breath zone -/

/-- What step 8 decides, and where the start stands. -/
def startView (p : PwrSt) : Nat × Bool × Bool × Bool × Nat × Bool :=
  (p.step, p.stopped, p.limited, p.cleanStart, p.consumed, p.consumedWritten)

theorem startView_of_keeps {s t : State} (h : Keeps (allBut .pwr) s t) : startView t.pwr = startView s.pwr :=
  pwr_field (same_of_keeps h) startView

/-- A dirty recovery leaves where the start stands and the numbers of the breath zone. -/
theorem dirtyRecovery_view (s : State) (r : StepReport) :
    startView (dirtyRecovery s r).pwr = startView s.pwr ∧
    (dirtyRecovery s r).pwr.sealed = s.pwr.sealed ∧ (dirtyRecovery s r).pwr.others = s.pwr.others := by
  generalize done : dirtyRecovery s r = t
  unfold dirtyRecovery at done
  extract_lets n cause told report power maps codes trees begun moved scanned followed at done
  have start : startView begun.pwr = startView s.pwr := rfl
  have sealed : begun.pwr.sealed = s.pwr.sealed := rfl
  have others : begun.pwr.others = s.pwr.others := rfl
  have moves : Keeps (allBut .pwr) begun moved :=
    .foldl _ _ (fun _ _ h => replayMoves_keeps (k := allBut .pwr) h rfl) begun (.refl _ begun)
  have scans : Keeps (allBut .pwr) begun scanned :=
    rebuildTable_keeps (rebuildSlots_keeps (scanLeaves_keeps moves rfl) rfl) rfl
  have ends : Keeps (allBut .pwr) begun t :=
    done ▸ raise_keeps (keepPut_keeps (.ite (continuityLoss_keeps scans rfl) scans) rfl) rfl
  exact ⟨(startView_of_keeps ends).trans start, (pwr_field (same_of_keeps ends) PwrSt.sealed).trans sealed,
    (pwr_field (same_of_keeps ends) PwrSt.others).trans others⟩

/-- Replacing worn stripes notes them and leaves where the start stands. -/
theorem replaceWorn_view (s : State) : startView (replaceWorn s).pwr = startView s.pwr := by
  unfold replaceWorn
  generalize List.filter _ s.pl.stripes = l
  induction l generalizing s with
  | nil => rfl
  | cons x l ih =>
    rw [List.foldl_cons, ih]
    split <;> rfl

/-- What follows CONSUMED leaves where the start stands. -/
theorem closed_view (s : State) (r : StepReport) :
    startView (closeStartup (saveUse (saveUse s 0) 1) r).pwr = startView s.pwr :=
  startView_of_keeps (closeStartup_keeps (saveUse_keeps (saveUse_keeps (.refl _ s) rfl) rfl) rfl)

/-- What step 8 has decided once CONSUMED holds `v`. -/
def consumedView (s : State) (v : Nat) : Nat × Bool × Bool × Bool × Nat × Bool :=
  (s.pwr.step, s.pwr.stopped, s.pwr.limited, s.pwr.cleanStart, v, true)

theorem consume_view {s u : State} (h : startView u.pwr = startView s.pwr) (v : Nat) :
    startView (consume u v).pwr = consumedView s v := by
  have place : (u.pwr.step, u.pwr.stopped, u.pwr.limited, u.pwr.cleanStart) =
      (s.pwr.step, s.pwr.stopped, s.pwr.limited, s.pwr.cleanStart) :=
    congrArg (fun x : Nat × Bool × Bool × Bool × Nat × Bool => (x.1, x.2.1, x.2.2.1, x.2.2.2.1)) h
  exact congrArg (fun x : Nat × Bool × Bool × Bool => (x.1, x.2.1, x.2.2.1, x.2.2.2, v, true)) place

/-- A clean start replays the breath, told of the lines and of the other records that are lost. -/
theorem cleanStart_view (s : State) (r : StepReport) (clean : breathClean s = true) (started : s.pwr.firstStart = false) :
    startView (breathStart s r).pwr =
      consumedView { s with pwr := { s.pwr with cleanStart := breathClean s } } s.pwr.sealed := by
  generalize done : breathStart s r = t
  unfold breathStart at done
  extract_lets +onlyGivenNames power u at done
  have first : u.pwr.firstStart = false := started
  have clean' : breathClean u = true := clean
  have sealed : u.pwr.sealed = s.pwr.sealed := rfl
  change _ = consumedView u _
  rw [if_neg (by rw [first]; decide), if_pos clean'] at done
  rw [← sealed]
  clear_value u
  extract_lets i oneRank n lost replayed named report recovered resumed consumed told at done
  have dirtied := (dirtyRecovery_view u r).1
  have lines (v : State) : startView (replayLines v lost).pwr = startView v.pwr :=
    startView_of_keeps (replayLines_keeps (.refl _ v) rfl)
  have replays : startView replayed.pwr = startView u.pwr := startView_of_keeps (replay_keeps (.refl _ u) rfl)
  have recoveredView : startView recovered.pwr = startView u.pwr := by
    clear_value replayed
    clear done
    unfold recovered
    split
    · generalize dirtyRecovery u r = dirty at dirtied ⊢
      exact (lines dirty).trans dirtied
    · split
      · exact replays
      · exact replays
  clear_value recovered
  have consumedAt : startView consumed.pwr = consumedView u n := consume_view recoveredView n
  clear_value consumed
  have toldAt : startView told.pwr = startView consumed.pwr := by
    unfold told
    split
    · exact startView_of_keeps (raise_keeps (.refl _ consumed) rfl)
    · rfl
  clear_value told
  rw [← done, closed_view]
  split
  · exact toldAt.trans consumedAt
  · exact (replaceWorn_view told).trans (toldAt.trans consumedAt)

/-- A dirty start spends every number sealed so far. -/
theorem dirtyStart_view (s : State) (r : StepReport) (clean : breathClean s = false) (started : s.pwr.firstStart = false) :
    startView (breathStart s r).pwr =
      consumedView { s with pwr := { s.pwr with cleanStart := breathClean s } } (max s.pwr.sealed s.pwr.others) := by
  generalize done : breathStart s r = t
  unfold breathStart at done
  extract_lets +onlyGivenNames power u at done
  have first : u.pwr.firstStart = false := started
  have clean' : breathClean u = false := clean
  have highest : max u.pwr.sealed u.pwr.others = max s.pwr.sealed s.pwr.others := rfl
  change _ = consumedView u _
  rw [if_neg (by rw [first]; decide), if_neg (by rw [clean']; decide)] at done
  rw [← highest]
  clear_value u
  obtain ⟨view, sealed, others⟩ := dirtyRecovery_view u r
  generalize dirtyRecovery u r = dirty at view sealed others done
  rw [← done, closed_view, ← sealed, ← others]
  exact consume_view view _

/-- Step 8: the number CONSUMED takes on a first, a clean and a dirty start. -/
theorem breathStart_view (s : State) (r : StepReport) :
    startView (breathStart s r).pwr = consumedView { s with pwr := { s.pwr with cleanStart := breathClean s } }
      (if s.pwr.firstStart then 0 else if breathClean s then s.pwr.sealed else max s.pwr.sealed s.pwr.others) := by
  split
  · next first =>
    unfold breathStart
    extract_lets +onlyGivenNames power u
    rw [if_pos (show u.pwr.firstStart = true from first)]
    rfl
  · next started =>
    have started := Bool.eq_false_iff.mpr started
    split
    · next clean => exact cleanStart_view s r clean started
    · next dirty => exact dirtyStart_view s r (Bool.eq_false_iff.mpr dirty) started

end Sys2Proof.Proofs.Startup
end

section
/-! The root, the host link and Media Ready; the obligation about all steps of startup. -/
namespace Sys2Proof.Proofs.Startup
open Sys2Proof Machine Safety

/-! ### Step 9: the root and the first layout -/

/-- Whether the root is good, the capacity and the populated ranks. -/
def layoutView (s : State) : Bool × Nat × List Nat := (s.clk.rootGood, s.mp.capGib, s.mp.pop)

/-- The mask of every part but the clocks and the map. -/
def allButLayout : BitVec 21 := ~~~ 0x5#21

theorem layoutView_of_keeps {s t : State} (h : Keeps allButLayout s t) : layoutView t = layoutView s := by
  have clk : t.clk = s.clk := h.same.part .clk (by decide)
  have mp : t.mp = s.mp := h.same.part .mp (by decide)
  rw [layoutView, clk, mp]
  rfl

theorem layoutView_foldl {α : Type} (f : State → α → State) (step : ∀ s a, layoutView (f s a) = layoutView s) (l : List α)
    (s : State) : layoutView (l.foldl f s) = layoutView s := by
  induction l generalizing s with
  | nil => rfl
  | cons a l ih => exact (ih (f s a)).trans (step s a)

theorem layoutView_updRot (s : State) (r : Nat) (f : Rot → Rot) : layoutView (updRot s r f) = layoutView s := rfl

theorem layoutView_nodeWritten (s : State) (n lines : Nat) : layoutView (nodeWritten s n lines) = layoutView s := by
  unfold nodeWritten
  split
  · rfl
  · refine layoutView_foldl _ (fun _ _ => ?_) _ s
    rfl

theorem layoutView_finishNode (s : State) (node : Nat) : layoutView (finishNode s node) = layoutView s :=
  layoutView_nodeWritten { s with ig := { s.ig with heldNodes := s.ig.heldNodes.filter (· ≠ node) } } node 64

theorem layoutView_blanked (s : State) (bs : Nat) : layoutView (blanked s bs) = layoutView s := by
  unfold blanked
  extract_lets +onlyGivenNames maps trees u
  have start : layoutView u = layoutView s := rfl
  rw [← start]
  refine layoutView_foldl _ (fun t n => layoutView_of_keeps ?_) _ u
  have bits : Keeps allButLayout t (if (linkWear t n).rebuilding && (link t n).state.serves then
      updLinkWear t n fun w => { w with linkBits := addNew w.linkBits bs } else t) :=
    .ite (updLinkWear_keeps (.refl _ t) rfl) (.refl _ t)
  exact .ite (updLinkWear_keeps bits rfl) bits

theorem layoutView_blankAs (s : State) (bs : Nat) (st : BsState) (bisque : Bool) :
    layoutView (blankAs s bs st bisque) = layoutView s := by
  have recorded : Keeps allButLayout (blanked s bs) (blankAs s bs st bisque) :=
    recordStripe_keeps (updStripe_keeps (.refl _ _) rfl) rfl
  exact (layoutView_of_keeps recorded).trans (layoutView_blanked s bs)

theorem layoutView_swapBad (s : State) (r : Nat) : layoutView (swapBad s r) = layoutView s := by
  refine layoutView_foldl _ (fun t k => ?_) _ s
  split
  · exact layoutView_of_keeps (raise_keeps (.refl _ t) rfl)
  · split
    · rfl
    · next x _ =>
      split
      · rfl
      · exact (layoutView_updRot ..).trans (layoutView_blankAs t x.1 .system true)

theorem layoutView_blankOne (s : State) (r : Nat) (bisque : Bool) : layoutView (blankOne s r bisque) = layoutView s := by
  unfold blankOne
  split
  · rfl
  · split
    · rfl
    · exact layoutView_blankAs s _ .blank bisque

/-- A first start takes its capacity from the populated ranks (R640). -/
theorem capGib_firstLayout (s : State) : (firstLayout s).mp.capGib = 3145728 * s.mp.pop.length / 64 := by
  unfold firstLayout
  extract_lets cap laid maps trees cleared filled wear spared
  have start : layoutView cleared = (s.clk.rootGood, cap, s.mp.pop) := rfl
  have fill : layoutView filled = layoutView cleared := by
    refine layoutView_foldl _ (fun t r => ?_) _ cleared
    have swapped := layoutView_swapBad (updRank t r fun p => { p with budget := 6 }) r
    generalize swapBad (updRank t r fun p => { p with budget := 6 }) r = u at swapped ⊢
    have ahead := layoutView_foldl (fun s _ => blankOne s r false) (fun v _ => layoutView_blankOne v r false)
      (List.range (blankAhead u)) u
    exact (layoutView_of_keeps (openAllocation_keeps (.refl _ _) rfl)).trans
      ((layoutView_blankOne _ r true).trans (ahead.trans swapped))
  have view : layoutView spared = (s.clk.rootGood, cap, s.mp.pop) := fill.trans start
  exact (congrArg (fun x : Bool × Nat × List Nat => x.2.1) (layoutView_of_keeps (t := keepPut (saveRegions spared) 0x20 (capacityRecord spared))
    (keepPut_keeps (saveRegions_keeps (.refl _ spared) rfl) rfl))).trans (congrArg (fun x : Bool × Nat × List Nat => x.2.1) view)

/-- ROOT_STATE set, the stored root is good. -/
theorem rootGood_rootStep (s : State) (m : Bool) : (rootStep s m).clk.rootGood = true := by
  unfold rootStep
  extract_lets dirty same
  split
  · rfl
  · split
    · exact congrArg ClkSt.rootGood (raise_same ..).2.1
    · split
      · exact congrArg ClkSt.rootGood (raise_same ..).2.1
      · rfl

/-- Step 9 leaves a good root; a first start also the capacity. -/
theorem rootStart_spec (s : State) (r : StepReport) : (rootStart s r).clk.rootGood = true ∧
    (s.pwr.firstStart = true → (rootStart s r).mp.capGib = 3145728 * s.mp.pop.length / 64) := by
  unfold rootStart
  extract_lets rooted finished
  have good : rooted.clk.rootGood = true := rootGood_rootStep s _
  have pop : rooted.mp = s.mp := same_of_keeps (p := .mp) (rootStep_keeps (.refl _ s) rfl)
  have first : finished.pwr.firstStart = s.pwr.firstStart := (start_of_same (same_of_keeps
    (.foldl _ _ (fun _ _ h => finishNode_keeps (k := allBut .pwr) h rfl) rooted (rootStep_keeps (.refl _ s) rfl)))).2.2.2
  have view : layoutView finished = layoutView rooted := layoutView_foldl _ layoutView_finishNode _ rooted
  clear_value finished rooted
  obtain ⟨finishedGood, -, finishedPop⟩ : finished.clk.rootGood = rooted.clk.rootGood ∧
    finished.mp.capGib = rooted.mp.capGib ∧ finished.mp.pop = rooted.mp.pop := by simpa [layoutView] using view
  rw [first]
  constructor
  · split
    · have clk : (firstLayout finished).clk = finished.clk := same_of_keeps (p := .clk) (firstLayout_keeps (.refl _ _) rfl)
      rw [clk, finishedGood, good]
    · have clk : (relayout finished).clk = finished.clk := same_of_keeps (p := .clk) (relayout_keeps (.refl _ _) rfl)
      rw [clk, finishedGood, good]
  · intro started
    rw [if_pos started, capGib_firstLayout, finishedPop, pop]

/-! ### Steps 10 and 11: the host link and Media Ready -/

/-- Step 10 trains the link and opens the mailbox; the power state stays. -/
theorem hostStart_spec (s : State) (r : StepReport) : StatePart.pwr.same s (hostStart s r) ∧
    (hostStart s r).hl.modUp = r.modulesUp ∧ (hostStart s r).hl.mboxReady = true ∧
    (hostStart s r).hl.state = if r.modulesUp = 0 then .down else .active := by
  unfold hostStart
  extract_lets repaired link trained
  have lanes : StatePart.pwr.same s repaired := same_of_keeps
    (.foldl _ _ (fun _ _ h => (repairLane_keeps (k := allBut .pwr) h rfl).proj) s (.refl _ s))
  have train : StatePart.pwr.same s trained := lanes
  have up : trained.hl.modUp = r.modulesUp ∧ trained.hl.mboxReady = true ∧
    trained.hl.state = if r.modulesUp = 0 then .down else .active := ⟨rfl, rfl, rfl⟩
  clear_value trained
  split
  · have pwr : StatePart.pwr.same trained (joinConsort trained) := same_of_keeps (joinConsort_keeps (.refl _ _) rfl)
    have hl : StatePart.hl.same trained (joinConsort trained) := same_of_keeps (joinConsort_keeps (.refl _ _) rfl)
    obtain ⟨modules, ready, state⟩ := up
    exact ⟨Eq.trans pwr train, Eq.trans (hl_field hl HostLinkSt.modUp) modules, Eq.trans (hl_field hl HostLinkSt.mboxReady) ready,
      Eq.trans (hl_field hl HostLinkSt.state) state⟩
  · exact ⟨train, up⟩

/-- Media Ready, at the present beat. -/
def mediaReady (s : State) : State := { s with pwr := { s.pwr with step := 12, quietSince := s.clk.beat } }

/-- What keeps the power state after Media Ready keeps the step and the beat it was reached at. -/
theorem mediaReady_kept {s t : State} (h : Keeps (allBut .pwr) (mediaReady s) t) :
    t.pwr.step = 12 ∧ t.pwr.quietSince = s.clk.beat :=
  ⟨pwr_field (same_of_keeps h) PwrSt.step, pwr_field (same_of_keeps h) PwrSt.quietSince⟩

/-- Step 11 ends in Media Ready, at the present beat. -/
theorem mediaStart_spec (s : State) : (mediaStart s).pwr.step = 12 ∧ (mediaStart s).pwr.quietSince = s.clk.beat := by
  generalize done : mediaStart s = t
  unfold mediaStart at done
  extract_lets v power measured power' ready compared fresh cleared budgeted at done
  have clk : measured.clk = s.clk := same_of_keeps (s := { s with pwr := { s.pwr with vTaken := some v } }) (p := .clk)
    (measureHoldup_keeps (.refl _ _) rfl)
  have start : Keeps (allBut .pwr) (mediaReady measured) ready := .refl _ _
  have compare : Keeps (allBut .pwr) (mediaReady measured) compared :=
    .foldl _ _ (fun _ _ h => comparePackage_keeps (k := allBut .pwr) h rfl) ready start
  have clear : Keeps (allBut .pwr) (mediaReady measured) cleared :=
    .foldl _ _ (fun _ _ h => clearForRebuild_keeps (k := allBut .pwr) h rfl) compared compare
  have budgets : Keeps (allBut .pwr) (mediaReady measured) budgeted :=
    .foldl _ _ (fun _ _ h => updRank_keeps (k := allBut .pwr) h rfl) cleared clear
  rw [← clk]
  exact mediaReady_kept (done ▸ startSweep_keeps (checkSpareStripes_keeps (refreshReady_keeps budgets rfl) rfl) rfl)

end Sys2Proof.Proofs.Startup
end

section
/-! The obligation about the steps of startup. -/
namespace Sys2Proof.Proofs.Startup
open Sys2Proof Machine Safety

theorem atStep_step (s : State) (k : Nat) : (atStep s k).pwr.step = k := rfl
theorem atStep_limited (s : State) (k : Nat) : (atStep s k).pwr.limited = s.pwr.limited := rfl
theorem atStep_firstStart (s : State) (k : Nat) : (atStep s k).pwr.firstStart = s.pwr.firstStart := rfl
theorem atStep_wakeSrc (s : State) (k : Nat) : (atStep s k).pwr.wakeSrc = s.pwr.wakeSrc := rfl

/-- Before step 4 a limited start is like a full one (R634). -/
theorem nextStep_early (limited : Bool) {k : Nat} (h : k < 4) : nextStep limited k = k + 1 := by
  cases limited <;> simp [nextStep, h]

theorem fuseLoad_ends (s : State) (r : StepReport) (h : StartsAt s 1) (refs : s.clk.refPresent ≠ 0#4) (halt : s.pwr.strapHalt = false) :
    ∃ t, exec (.startupStepEnd r) s = .next t ∧ t.pwr.step = 2 ∧ t.clk.refLock = s.clk.refPresent ∧ t.cn.pos = s.pwr.strapPos ∧
      t = { s with pwr := t.pwr, clk := t.clk, cn := t.cn } := by
  refine ⟨_, exec_fuseLoad r h refs, ?_⟩
  rw [if_neg (by rw [halt]; decide)]
  exact ⟨rfl, rfl, rfl, rfl⟩

theorem fuseLoad_halts (s : State) (r : StepReport) (h : StartsAt s 1) (refs : s.clk.refPresent ≠ 0#4) (halt : s.pwr.strapHalt = true) :
    ∃ t, exec (.startupStepEnd r) s = .next t ∧ t.pwr = { s.pwr with halted := true } := by
  refine ⟨_, exec_fuseLoad r h refs, ?_⟩
  rw [if_pos halt]
  rfl

theorem fuseLoad_waits (s : State) (r : StepReport) (step : s.pwr.step = 1) (refs : s.clk.refPresent = 0#4) :
    exec (.startupStepEnd r) s = .next s := by
  exact congrArg Host.Outcome.next (ite_eq_left_iff.mpr fun _ => if_pos (by simp [step, refs]))

theorem romBoot_ends (s : State) (r : StepReport) (h : StartsAt s 2) :
    ∃ t, exec (.startupStepEnd r) s = .next t ∧ t.pwr.step = 3 ∧ t.clk.wakeLatch = false ∧
      t.pwr.wakeSrc = if s.clk.wakeLatch then 6 else s.pwr.wakeSrc := by
  obtain ⟨latch, source, step, stopped⟩ := romBoot_spec s
  have action : stepAction s r = romBoot s := by simp only [stepAction, h.step]
  refine ⟨_, exec_stepEnd h (by decide) (by decide) action (step.trans h.step) (stopped.trans h.stopped), ?_, latch, source⟩
  exact nextStep_early _ (by decide)

theorem channels_good (s : State) (r : StepReport) (h : StartsAt s 3) (good : r.badChannels = []) :
    exec (.startupStepEnd r) s = .next { s with pwr := { s.pwr with step := 4 } } := by
  have action : stepAction s r = s := by rw [stepAction, h.step]; simp [good]
  rw [exec_stepEnd_same h (by decide) (by decide) action rfl, nextStep_early _ (by decide)]
  rfl

theorem channel_bad (s : State) (r : StepReport) (c : Nat) (h : StartsAt s 3) (bad : r.badChannels = [c]) (low : c < 128) :
    ∃ t, exec (.startupStepEnd r) s = .next t ∧
      if s.wr.chUsed.getLsbD (sramDie c) then t.pwr.step = 3 ∧ t.pwr.disabled = true ∧ t.pwr.stopped = true
      else t.pwr.step = 4 ∧ t.wr.chUsed = s.wr.chUsed ||| (1#8 <<< sramDie c) ∧ (sramCh t c).failed = true := by
  have action : stepAction s r = testChannel s c := by rw [stepAction, h.step]; simp [bad, low]
  split
  · next used =>
    obtain ⟨step, disabled, stopped⟩ := testChannel_none s c used
    exact ⟨_, exec_stepEnd_here h (by decide) (by decide) (by simp) action (.inr stopped), step.trans h.step, disabled, stopped⟩
  · next free =>
    obtain ⟨pwr, used, failed⟩ := testChannel_spare s c (Bool.eq_false_iff.mpr free)
    exact ⟨_, exec_stepEnd_same h (by decide) (by decide) action pwr, nextStep_early _ (by decide), used, failed⟩

theorem keepStart_ends (s : State) (r : StepReport) (h : StartsAt s 4) (full : s.pwr.limited = false) :
    ∃ t, exec (.startupStepEnd r) s = .next t ∧
      if r.priSize = 0 ∧ r.mirSize = 0 then t.pwr.step = 6 ∧ t.pwr.limited = true
      else t.pwr.step = 5 ∧ t.pwr.limited = false ∧
        (r.priSize ≠ 0 → r.mirSize ≠ 0 → s.kp.formatted = false → t.pwr.firstStart = true) := by
  obtain ⟨step, stopped, parts⟩ := keepStart_spec s r
  have action : stepAction s r = keepStart s r := by simp only [stepAction, h.step]
  refine ⟨_, exec_stepEnd h (by decide) (by decide) action (step.trans h.step) (stopped.trans h.stopped), ?_⟩
  rw [atStep_step, atStep_limited, atStep_firstStart]
  generalize keepStart s r = t at parts ⊢
  split at parts
  · rw [if_pos ‹_›, parts]
    exact ⟨rfl, rfl⟩
  · obtain ⟨limited, first⟩ := parts
    rw [if_neg ‹_›, limited, full]
    exact ⟨rfl, rfl, fun _ _ => first⟩

theorem keyStart_ends (s : State) (r : StepReport) (h : StartsAt s 5) (full : s.pwr.limited = false) :
    ∃ t, exec (.startupStepEnd r) s = .next t ∧ t.pwr.step = 6 ∧ t.ig.windows = s.ig.windows + 1 ∧ t.ig.keyWindow = true ∧
      (s.pwr.firstStart = true → t.ig.sysGen = 0 ∧ t.ig.stampCeil = 2 ^ 40) := by
  obtain ⟨pwr, windows, opened, first⟩ := keyStart_spec s r.unwrapFails
  have action : stepAction s r = keyStart s r.unwrapFails := by simp only [stepAction, h.step]
  refine ⟨_, exec_stepEnd_same h (by decide) (by decide) action pwr, ?_, windows, opened, first⟩
  rw [atStep_step, full]
  rfl

theorem populate_ends (s : State) (r : StepReport) (h : StartsAt s 6) :
    ∃ t, exec (.startupStepEnd r) s = .next t ∧
      t.mp.pop = ((List.range 64).filter fun r => (rankLinks r).any fun n => hasPackage (link s n)) ∧
      t.ln.chartGen = s.ln.chartGen + 2 ∧
      if s.pwr.limited = true ∨ t.mp.pop.length < 4 then t.pwr.limited = true ∧ t.pwr.step = 10
      else t.pwr.limited = false ∧ t.pwr.step = 7 := by
  have action : stepAction s r = populate s := by simp only [stepAction, h.step]
  refine ⟨_, exec_stepEnd h (by decide) (by decide) action h.step h.stopped, rfl, rfl, ?_⟩
  rw [atStep_step, atStep_limited]
  have limited : (populate s).pwr.limited = true ↔ s.pwr.limited = true ∨ (populate s).mp.pop.length < 4 := by
    simp [populate]
  change if s.pwr.limited = true ∨ (populate s).mp.pop.length < 4 then _ else _
  split
  · next short =>
    rw [limited.mpr short]
    exact ⟨rfl, rfl⟩
  · next long =>
    rw [Bool.eq_false_iff.mpr (limited.not.mpr long)]
    exact ⟨rfl, rfl⟩

theorem clockStart_ends (s : State) (r : StepReport) (h : StartsAt s 7) (full : s.pwr.limited = false) :
    ∃ t, exec (.startupStepEnd r) s = .next t ∧ t.pwr.step = 8 ∧ t.clk.cont = true := by
  obtain ⟨cont, step, stopped, limited⟩ := clockStart_spec s
  have action : stepAction s r = clockStart s := by simp only [stepAction, h.step]
  refine ⟨_, exec_stepEnd h (by decide) (by decide) action (step.trans h.step) (stopped.trans h.stopped), ?_, cont⟩
  rw [atStep_step, limited, full]
  rfl

/-- What the view of step 8 says field by field. -/
theorem breathStart_spec (s : State) (r : StepReport) :
    (breathStart s r).pwr.step = s.pwr.step ∧ (breathStart s r).pwr.stopped = s.pwr.stopped ∧
    (breathStart s r).pwr.limited = s.pwr.limited ∧ (breathStart s r).pwr.cleanStart = breathClean s ∧
    (breathStart s r).pwr.consumed =
      (if s.pwr.firstStart then 0 else if breathClean s then s.pwr.sealed else max s.pwr.sealed s.pwr.others) ∧
    (breathStart s r).pwr.consumedWritten = true := by
  have view := breathStart_view s r
  generalize breathStart s r = t at view ⊢
  simpa only [startView, consumedView, Prod.mk.injEq] using view

theorem breathStart_ends (s : State) (r : StepReport) (h : StartsAt s 8) (full : s.pwr.limited = false) :
    ∃ t, exec (.startupStepEnd r) s = .next t ∧ t.pwr.step = 9 ∧ t.pwr.consumedWritten = true ∧
      t.pwr.cleanStart = breathClean s ∧
      t.pwr.consumed = if s.pwr.firstStart then 0 else if breathClean s then s.pwr.sealed else max s.pwr.sealed s.pwr.others := by
  obtain ⟨step, stopped, limited, clean, consumed, written⟩ := breathStart_spec s r
  have action : stepAction s r = breathStart s r := by simp only [stepAction, h.step]
  refine ⟨_, exec_stepEnd h (by decide) (by decide) action (step.trans h.step) (stopped.trans h.stopped), ?_, written, clean, consumed⟩
  rw [atStep_step, limited, full]
  rfl

theorem rootStart_ends (s : State) (r : StepReport) (h : StartsAt s 9) (full : s.pwr.limited = false) :
    ∃ t, exec (.startupStepEnd r) s = .next t ∧ t.pwr.step = 10 ∧ t.clk.rootGood = true ∧
      (s.pwr.firstStart = true → t.mp.capGib = 3145728 * s.mp.pop.length / 64) := by
  obtain ⟨good, cap⟩ := rootStart_spec s r
  have action : stepAction s r = rootStart s r := by simp only [stepAction, h.step]
  refine ⟨_, exec_stepEnd_same h (by decide) (by decide) action (same_of_keeps (rootStart_keeps (.refl _ s) rfl)), ?_, good, cap⟩
  rw [atStep_step, full]
  rfl

theorem hostStart_ends (s : State) (r : StepReport) (h : StartsAt s 10) :
    ∃ t, exec (.startupStepEnd r) s = .next t ∧ t.pwr.step = 11 ∧ t.hl.modUp = r.modulesUp ∧ t.hl.mboxReady = true ∧
      t.hl.state = if r.modulesUp = 0 then .down else .active := by
  obtain ⟨pwr, modules, ready, state⟩ := hostStart_spec s r
  have action : stepAction s r = hostStart s r := by simp only [stepAction, h.step]
  refine ⟨_, exec_stepEnd_same h (by decide) (by decide) action pwr, ?_, modules, ready, state⟩
  rw [atStep_step]
  cases s.pwr.limited <;> rfl

theorem mediaStart_ends (s : State) (r : StepReport) (h : StartsAt s 11) (full : s.pwr.limited = false) :
    ∃ t, exec (.startupStepEnd r) s = .next t ∧ t.pwr.step = 12 ∧ t.pwr.quietSince = s.clk.beat := by
  obtain ⟨step, quiet⟩ := mediaStart_spec s
  have action : stepAction s r = mediaStart s := by simp only [stepAction, h.step]
  exact ⟨_, exec_stepEnd_here h (by decide) (by decide) (by simp [full]) action (.inl step), step, quiet⟩

/-- Settles O14: each step's action has its own lemma, and the end of a step moves on as `nextStep` says. -/
theorem startupSteps : Obligations.StartupSteps :=
  ⟨fuseLoad_ends, fuseLoad_halts, fuseLoad_waits, romBoot_ends, channels_good, channel_bad, keepStart_ends, keyStart_ends,
    populate_ends, clockStart_ends, breathStart_ends, rootStart_ends, hostStart_ends, mediaStart_ends,
    fun _ r => exec_stepEnd_none r, fun k low => by simp [nextStep], by decide⟩

end Sys2Proof.Proofs.Startup
end

section
/-! What a link's record keeps while senses, returns and losses are dealt with. -/
namespace Sys2Proof.Proofs.LinkFrames
open Sys2Proof Machine Safety Startup

/-! ### Reading a link after a change of the table -/

/-- A value read from a table stays when another key is set, whatever the order of the keys. -/
theorem tget_tset_found {α : Type} [DecidableEq α] (d : α) (t : Tab α) (k j : Nat) (v : α) (found : tget d t j ≠ d) (hj : j ≠ k) :
    tget d (tset d t k v) j = tget d t j := by
  induction t with
  | nil => exact absurd rfl found
  | cons x t ih =>
    simp only [tget, tset] at found ⊢
    grind [tget]

theorem ne_default_of_state {l : LinkRec} (on : l.state ≠ .empty) : l ≠ {} := fun h => on (congrArg LinkRec.state h)

theorem link_updLink_here {s : State} {n : Nat} {f : LinkRec → LinkRec} (on : (f (link s n)).state ≠ .empty) :
    link (updLink s n f) n = f (link s n) :=
  tget_tset_val _ _ _ _ (ne_default_of_state on)

theorem link_updLink_other {s : State} {n m : Nat} (f : LinkRec → LinkRec) (on : (link s n).state ≠ .empty) (h : n ≠ m) :
    link (updLink s m f) n = link s n :=
  tget_tset_found _ _ _ _ _ (ne_default_of_state on) h

/-! ### What stays of a link -/

/-- A link's record without its last frame and the returns it waits for. -/
def lasting (l : LinkRec) : LinkRec :=
  { l with
    frame := {}, due0 := [], due1 := [], waiting := [], eqDue := [], asked := false, awaiting := none, pressed := [], readNow := none }

/-- The commands that wait for a removal, and a link that is not empty, are the same but for the returns it waits for. -/
structure LinkStays (n : Nat) (s t : State) : Prop where
  removing : t.ln.removing = s.ln.removing
  steady : (link s n).state ≠ .empty → lasting (link t n) = lasting (link s n)

theorem state_of_lasting {a b : LinkRec} (h : lasting a = lasting b) : a.state = b.state :=
  show (lasting a).state = (lasting b).state from congrArg LinkRec.state h

theorem LinkStays.state {n : Nat} {s t : State} (h : LinkStays n s t) (on : (link s n).state ≠ .empty) :
    (link t n).state = (link s n).state := state_of_lasting (h.steady on)

theorem LinkStays.trans {n : Nat} {s t u : State} (h : LinkStays n s t) (g : LinkStays n t u) : LinkStays n s u :=
  ⟨g.removing.trans h.removing, fun on => (g.steady (h.state on ▸ on)).trans (h.steady on)⟩

theorem LinkStays.of_links {n : Nat} {s t : State} (links : t.ln.links = s.ln.links) (removing : t.ln.removing = s.ln.removing) :
    LinkStays n s t :=
  ⟨removing, fun _ => by rw [link, links]; rfl⟩

theorem LinkStays.of_ln {n : Nat} {s t : State} (h : t.ln = s.ln) : LinkStays n s t :=
  .of_links (congrArg LinkSt.links h) (congrArg LinkSt.removing h)

/-- What stays from a state on stays from every state with the same links. -/
theorem LinkStays.after {n : Nat} {s t u : State} (h : LinkStays n t u) (same : t.ln = s.ln) : LinkStays n s u :=
  (LinkStays.of_ln same).trans h

theorem LinkStays.refl (n : Nat) (s : State) : LinkStays n s s := .of_ln rfl

/-- What may not change the links leaves them. -/
theorem LinkStays.of_keeps {n : Nat} {s t : State} (h : Keeps (allBut .ln) s t) : LinkStays n s t :=
  .of_ln (same_of_keeps (p := .ln) h)

theorem LinkStays.ite {n : Nat} {s a b : State} {c : Prop} [Decidable c] (h : LinkStays n s a) (g : LinkStays n s b) :
    LinkStays n s (if c then a else b) := by
  split <;> assumption

theorem LinkStays.foldl {α : Type} {n : Nat} (f : State → α → State) (step : ∀ s a, LinkStays n s (f s a)) (l : List α) (s : State) :
    LinkStays n s (l.foldl f s) := by
  induction l generalizing s with
  | nil => exact .refl n s
  | cons a l ih => exact (step s a).trans (ih _)

/-- A change of returns only, on any link. -/
theorem LinkStays.updLink {n m : Nat} {s : State} {f : LinkRec → LinkRec}
    (same : ∀ l, lasting (f l) = lasting l) : LinkStays n s (updLink s m f) := by
  refine ⟨rfl, fun on => ?_⟩
  by_cases h : n = m
  · subst h
    rw [link_updLink_here (by rwa [state_of_lasting (same _)]), same]
  · rw [link_updLink_other f on h]

/-! ### Senses, returns and losses keep a link -/

theorem addSense_stays (n : Nat) (s : State) (m : Nat) (x : Sense) : LinkStays n s (addSense s m x) :=
  .ite (.updLink fun _ => rfl) (.refl n s)

theorem senseStripe_stays (n : Nat) (s : State) (slot line : Nat) (bisque : Bool) (x : Sense) :
    LinkStays n s (senseStripe s slot line bisque x) :=
  .foldl _ (fun s _ => addSense_stays n s _ _) _ s

theorem senseMap_stays (n : Nat) (s : State) (page : Nat) : LinkStays n s (senseMap s page) := by
  unfold senseMap
  extract_lets +onlyGivenNames leaf j x t
  have leaves : LinkStays n s t := .foldl _ (fun s _ => addSense_stays n s _ _) _ s
  exact .ite leaves (leaves.trans (.foldl _ (fun s _ => addSense_stays n s _ _) _ t))

theorem senseStamp_stays (n : Nat) (s : State) (e : MapEntry) (tree : Bool) (line : Nat) (x : Sense) :
    LinkStays n s (senseStamp s e tree line x) :=
  .ite (.refl n s) (addSense_stays n s _ _)

theorem commandRead_stays (n : Nat) (s : State) (r : Rd) (due : Nat) : LinkStays n s (commandRead s r due) := by
  unfold commandRead
  extract_lets x
  split
  · exact senseMap_stays n s _
  · exact (addSense_stays n s _ _).trans (senseStamp_stays n _ _ _ _ _)
  · exact (senseStripe_stays n s _ _ _ _).trans (senseStamp_stays n _ _ _ _ _)
  · exact .of_ln rfl
  · exact .refl n s

theorem resumeCones_stays (n : Nat) (s : State) (bs : Nat) : LinkStays n s (resumeCones s bs) := by
  refine .foldl _ (fun t r => ?_) _ s
  extract_lets l r'
  exact (commandRead_stays n _ r' _).after rfl

theorem raise_stays (n : Nat) (s : State) (code source p0 p1 p2 p3 : Nat) :
    LinkStays n s (raise s code source p0 p1 p2 p3) :=
  .of_keeps (raise_keeps (.refl _ s) rfl)

theorem count_stays (n : Nat) (s : State) (m code qual k : Nat) : LinkStays n s (count s m code qual k) :=
  .of_keeps (count_keeps (.refl _ s) rfl)

theorem rankFails_stays (n : Nat) (s : State) (r : Nat) : LinkStays n s (rankFails s r) := by
  have released : LinkStays n s (releaseCones s r) := .foldl _ (resumeCones_stays n) _ s
  exact released.trans ((raise_stays n _ 0x25 r 0 0 0 0).after rfl)

theorem lostRose_stays (n : Nat) (s : State) (r before : Nat) : LinkStays n s (lostRose s r before) := by
  unfold lostRose
  extract_lets now t
  have closed : LinkStays n s t := .ite (.of_keeps (closeAll_keeps (.refl _ s) rfl)) (.refl n s)
  exact .ite (closed.trans (rankFails_stays n t r)) closed

theorem unparkEnds_stays (n : Nat) (s : State) (r : Nat) : LinkStays n s (unparkEnds s r) := by
  unfold unparkEnds
  extract_lets busy zone t
  have ended : LinkStays n s t := .of_ln rfl
  exact .ite (.ite (ended.trans (rankFails_stays n t r)) ended) (.refl n s)

theorem escalateRead_stays (n : Nat) (s : State) (r : Rd) : LinkStays n s (escalateRead s r) := by
  unfold escalateRead
  split
  · extract_lets turn
    exact (senseStripe_stays n _ _ _ _ _).after rfl
  · exact .refl n s

theorem escalateReads_stays (n : Nat) (s : State) (m : Nat) (which : Rd → Bool) : LinkStays n s (escalateReads s m which) := by
  unfold escalateReads
  extract_lets hit l t told
  have turned : LinkStays n s t := .foldl _ (escalateRead_stays n) l s
  have counted : LinkStays n t told := .of_ln rfl
  exact .ite turned ((turned.trans counted).trans ((count_stays n told _ _ _ _).trans (count_stays n _ _ _ _ _)))

theorem loseSense_stays (n : Nat) (s : State) (m : Nat) (x : Sense) : LinkStays n s (loseSense s m x) := by
  unfold loseSense
  split
  · exact escalateReads_stays n s m _
  · exact .of_ln rfl
  · exact .refl n s

theorem reissue_stays (n : Nat) (s : State) (m : Nat) (e : Entry) : LinkStays n s (reissue s m e) := by
  have undue : LinkStays n s (updLink s m fun l => { l with due1 := l.due1.filter fun d => d.2 ≠ e }) := .updLink fun _ => rfl
  cases e with
  | unit u r => exact undue.trans (.of_links rfl rfl)
  | sense x r => exact undue.trans (addSense_stays n _ m _)
  | masks r => exact .updLink fun _ => rfl
  | refload part die plane set => exact .of_ln rfl
  | eq tap value => exact .updLink fun _ => rfl
  | gone => exact .refl n s

/-- An entry whose return did not come is told its core, or sensed again. -/
theorem deliver_failed_stays (n : Nat) (s : State) (m : Nat) (e : Entry) (k : Nat) (body : List Byte) :
    LinkStays n s (deliver s m e k body false) := by
  cases e with
  | unit u r => exact .of_links rfl rfl
  | sense x r => exact loseSense_stays n s m x
  | masks r => exact .updLink fun _ => rfl
  | refload part die plane set => exact .refl n s
  | eq tap value => exact .refl n s
  | gone => exact .refl n s

theorem takeDue_stays (n : Nat) (s : State) (m : Nat) : LinkStays n s (takeDue s m) := .updLink fun _ => rfl

theorem loseAwaited_stays (n : Nat) (s : State) (m : Nat) : LinkStays n s (loseAwaited s m) := by
  unfold loseAwaited
  split
  · have given : LinkStays n s (updLink s m fun l => { l with awaiting := none }) := .updLink fun _ => rfl
    exact given.trans (loseSense_stays n _ m _)
  · exact .refl n s

theorem finishId_stays (n : Nat) (s : State) (id : Option Nat) (status : Nat) (a b : Reg) : LinkStays n s (finishId s id status a b) :=
  .of_keeps (finishId_keeps (.refl _ s) rfl)

end Sys2Proof.Proofs.LinkFrames
end

section
/-! Frames between device and packages, and links that leave service. -/
namespace Sys2Proof.Proofs.LinkFrames
open Sys2Proof Machine Safety Startup

theorem on_of_framed {l : LinkRec} (h : framed l = true) : l.state ≠ .empty := by
  intro e
  simp [framed, loadingSets, e, LinkState.serves] at h

theorem framed_of_serves {l : LinkRec} (h : l.state.serves = true) : framed l = true := by simp [framed, h]

/-! ### The downstream frame -/

/-- A frame has left: its beat is noted, and a NAK went with it. -/
def frameLeft (b : Nat) (l : LinkRec) : LinkRec :=
  { l with frameAt := some b, replays := if l.nak then satAdd 16 l.replays 1 else l.replays, nak := false }

/-- What stays of the state while a frame leaves. -/
theorem frameStart_parts {s t : State} {l : LinkNo} (h : exec (.frameStart l) s = .next t) : t.mp = s.mp ∧ t.sag = s.sag ∧ t.pl = s.pl :=
  ⟨same_of_keeps (p := .mp) (execFrameStart_keeps (k := allBut .mp) (.refl _ s) rfl t h),
    same_of_keeps (p := .sag) (execFrameStart_keeps (k := allBut .sag) (.refl _ s) rfl t h),
    same_of_keeps (p := .pl) (execFrameStart_keeps (k := allBut .pl) (.refl _ s) rfl t h)⟩

/-- One frame a beat: what it carries is on its way, and the links' records say so. -/
theorem frameStart_next {s t : State} {l : LinkNo} (carries : framed (link s l.val) = true) (up : awake s = true)
    (due : (link s l.val).frameAt ≠ some s.clk.beat) (h : exec (.frameStart l) s = .next t) :
    lasting (link t l.val) = lasting (frameLeft s.clk.beat ((link s l.val).shift s.clk.beat)) := by
  have open_ : ¬ (!framed (link s l.val) || !awake s || (link s l.val).frameAt = some s.clk.beat) = true := by
    simp [carries, up, due]
  change Host.Outcome.next (if _ then _ else _) = _ at h
  rw [if_neg open_] at h
  extract_lets +onlyGivenNames b old0 old1 shifted settled k busy at h
  have shift : LinkStays l.val shifted settled :=
    (LinkStays.foldl _ (fun s x => loseSense_stays l.val s l.val x) old0 shifted).trans
      (.foldl _ (fun s e => reissue_stays l.val s l.val e) old1 _)
  generalize pickRead settled l.val busy = p at h
  obtain ⟨rd, late⟩ := p
  dsimp -zeta only at h
  extract_lets whole f marked taken told toldLate toldNak sent at h
  have on := on_of_framed carries
  have shiftedTo : lasting (link shifted l.val) = lasting ((link s l.val).shift b) := by
    rw [show link shifted l.val = _ from link_updLink_here on]
    rfl
  have marks : LinkStays l.val settled marked := .foldl _ (fun s x => .of_keeps (markReads_keeps (.refl _ s) rfl)) late settled
  have takes : LinkStays l.val marked taken := by
    cases rd with
    | none => exact .refl _ _
    | some x => exact .updLink fun _ => rfl
  have counts : LinkStays l.val taken toldNak :=
    ((count_stays ..).trans (count_stays ..)).trans (.ite (count_stays ..) (.refl _ _))
  have sends : LinkStays l.val toldNak sent := .of_keeps (sentBytes_keeps (.refl _ toldNak) rfl)
  have stays := (((shift.trans marks).trans takes).trans counts).trans sends
  have shiftedOn : (link shifted l.val).state ≠ .empty := by rw [state_of_lasting shiftedTo]; exact on
  have record := (stays.steady shiftedOn).trans shiftedTo
  injection h with h
  subst h
  rw [link_updLink_here (by rw [state_of_lasting record]; exact on)]
  exact congrArg (fun r => frameLeft b r) record

theorem frameStart_closed (s : State) (l : LinkNo)
    (shut : framed (link s l.val) = false ∨ (link s l.val).frameAt = some s.clk.beat) : exec (.frameStart l) s = .next s :=
  congrArg Host.Outcome.next (if_pos (by rcases shut with h | h <;> simp [h]))

/-! ### The upstream frame -/

/-- A frame with an intact header and a wrong tag (R103). -/
def tagMissed (l : LinkRec) : LinkRec := { l with consecHdr := 0, consecTag := l.consecTag + 1 }

/-- An upstream frame on a link that carries frames. -/
theorem exec_upstreamFrame (s : State) (l : LinkNo) (f : RawFrame) (carries : framed (link s l.val) = true) (up : awake s = true) :
    exec (.upstreamFrame l f) s = .next (
      if !(readUp f).hdrOk then headerLoss (headerFailed s l.val) l.val
      else if (readUp f).btag ≠ s.clk.beat % 32 then
        if 2 ≤ (link (updLink s l.val tagMissed) l.val).consecTag && (link (updLink s l.val tagMissed) l.val).state.serves then
          linkLost (updLink s l.val tagMissed) l.val 3
        else updLink s l.val tagMissed
      else goodFrame s l.val (readUp f)) :=
  congrArg Host.Outcome.next (if_neg (by simp [carries, up]))

theorem tagMissed_once (s : State) (l : LinkNo) (f : RawFrame) (carries : framed (link s l.val) = true) (up : awake s = true)
    (intact : (readUp f).hdrOk = true) (wrong : (readUp f).btag ≠ s.clk.beat % 32) (first : (link s l.val).consecTag = 0) :
    exec (.upstreamFrame l f) s = .next (updLink s l.val tagMissed) := by
  have missed : link (updLink s l.val tagMissed) l.val = tagMissed (link s l.val) := link_updLink_here (on_of_framed carries)
  rw [exec_upstreamFrame s l f carries up, if_neg (by simp [intact]), if_pos wrong, if_neg (by simp [missed, tagMissed, first])]

theorem tagMissed_twice (s : State) (l : LinkNo) (f : RawFrame) (serves : (link s l.val).state.serves = true) (up : awake s = true)
    (intact : (readUp f).hdrOk = true) (wrong : (readUp f).btag ≠ s.clk.beat % 32) (again : 1 ≤ (link s l.val).consecTag) :
    exec (.upstreamFrame l f) s = .next (linkLost (updLink s l.val tagMissed) l.val 3) := by
  have carries := framed_of_serves serves
  have missed : link (updLink s l.val tagMissed) l.val = tagMissed (link s l.val) := link_updLink_here (on_of_framed carries)
  rw [exec_upstreamFrame s l f carries up, if_neg (by simp [intact]), if_pos wrong,
    if_pos (by simp [missed, tagMissed, serves, again])]

/-- A failed return asks for its replay. -/
theorem failSlot0_stays (s : State) (n : Nat) (x : Sense) : ∃ u, LinkStays n s u ∧
    failSlot0 s n x = updLink u n fun l => { l with nak := true, awaiting := some x } := by
  refine ⟨_, ?_, rfl⟩
  have counted := count_stays n s 0 0xC 0xFF (s.hq.reads.filter fun r => r.wants x && waitsReplay s r).length
  split
  · exact counted.trans ((escalateReads_stays n _ n _).after rfl)
  · exact counted.trans (.of_ln rfl)
  · exact counted.trans (.of_ln rfl)

/-- A failed header is counted; its return is asked for again, unless the frame carried a replay. -/
def headerMissed (l : LinkRec) : LinkRec :=
  { l with hdrFail := satAdd 16 l.hdrFail 1, consecHdr := l.consecHdr + 1, consecTag := 0, blind := true }

theorem counts_of_lasting {a b : LinkRec} (h : lasting a = lasting b) :
    a.state = b.state ∧ a.consecHdr = b.consecHdr ∧ a.hdrFail = b.hdrFail ∧ a.nak = b.nak := by
  have fields := congrArg (fun l => (l.state, l.consecHdr, l.hdrFail, l.nak)) h
  simpa [lasting] using fields

/-- Once a link has its NAK, the entries that failed with the header leave it. -/
theorem nakAsked_counts {s u w : State} {n : Nat} {f : LinkRec → LinkRec} (eq : w = updLink u n f) (stays : LinkStays n s u)
    (on : (link s n).state ≠ .empty)
    (asks : ∀ l, (f l).state = l.state ∧ (f l).consecHdr = l.consecHdr ∧ (f l).hdrFail = l.hdrFail ∧ (f l).nak = true)
    (l : List Entry) {v : State} (told : v = l.foldl (fun s e => deliver s n e 0 [] false) w) :
    (link v n).state = (link s n).state ∧ (link v n).consecHdr = (link s n).consecHdr ∧
    (link v n).hdrFail = (link s n).hdrFail ∧ (link v n).nak = true := by
  subst eq told
  obtain ⟨state, hdr, fail, -⟩ := counts_of_lasting (stays.steady on)
  obtain ⟨state', hdr', fail', nak⟩ := asks (link u n)
  have asked : link (updLink u n f) n = f (link u n) := link_updLink_here (by rw [state', state]; exact on)
  have told : LinkStays n (updLink u n f) (l.foldl (fun s e => deliver s n e 0 [] false) (updLink u n f)) :=
    .foldl _ (fun s e => deliver_failed_stays n s n e 0 []) _ _
  obtain ⟨state'', hdr'', fail'', nak'⟩ := counts_of_lasting (told.steady (by rw [asked, state', state]; exact on))
  rw [state'', hdr'', fail'', nak', asked]
  exact ⟨state'.trans state, hdr'.trans hdr, fail'.trans fail, nak⟩

/-- The returns that a failed header held are dealt with: unless the frame carried a replay, a NAK is asked for. -/
theorem headerFailed_answered (s : State) (n : Nat) (on : (link s n).state ≠ .empty) :
    ∃ u, headerFailed s n = checkFailed (updLink u n headerMissed) n ∧ (link u n).state = (link s n).state ∧
      (link u n).consecHdr = (link s n).consecHdr ∧ (link u n).hdrFail = (link s n).hdrFail ∧
      (nakSent s (link s n) = false → (link u n).nak = true) := by
  refine ⟨_, rfl, ?_⟩
  have waits : LinkStays n s (loseAwaited (takeDue s n) n) := (takeDue_stays n s n).trans (loseAwaited_stays n _ n)
  generalize loseAwaited (takeDue s n) n = t at waits ⊢
  split
  · next replay =>
    have lost : LinkStays n t ((sensesNow s n).foldl (fun s x => loseSense s n x) t) := .foldl _ (fun s x => loseSense_stays n s n x) _ t
    have again := lost.trans (.foldl _ (fun s e => reissue_stays n s n e) (entriesNow s n) _)
    obtain ⟨state, hdr, fail, -⟩ := counts_of_lasting ((waits.trans again).steady on)
    exact ⟨state, hdr, fail, fun sent => absurd replay (by simp [sent])⟩
  · split
    · next x _ _ =>
      obtain ⟨u, stays, eq⟩ := failSlot0_stays t n x
      obtain ⟨state, hdr, fail, nak⟩ := nakAsked_counts eq (waits.trans stays) on (fun _ => ⟨rfl, rfl, rfl, rfl⟩)
        (entriesNow s n) rfl
      exact ⟨state, hdr, fail, fun _ => nak⟩
    · obtain ⟨state, hdr, fail, nak⟩ := nakAsked_counts (u := t) (f := fun l => { l with nak := true }) rfl waits on
        (fun _ => ⟨rfl, rfl, rfl, rfl⟩) (entriesNow s n) rfl
      exact ⟨state, hdr, fail, fun _ => nak⟩

theorem headerFailed_spec {s : State} {n : Nat} (on : (link s n).state ≠ .empty) :
    (link (headerFailed s n) n).state = (link s n).state ∧
    (link (headerFailed s n) n).consecHdr = (link s n).consecHdr + 1 ∧
    (link (headerFailed s n) n).hdrFail = satAdd 16 (link s n).hdrFail 1 ∧
    (nakSent s (link s n) = false → (link (headerFailed s n) n).nak = true) := by
  obtain ⟨u, failed, state, hdr, fail, nak⟩ := headerFailed_answered s n on
  have missed : link (updLink u n headerMissed) n = headerMissed (link u n) :=
    link_updLink_here (by rw [headerMissed, state]; exact on)
  have checked : link (headerFailed s n) n =
      { headerMissed (link u n) with fails := ((updLink u n headerMissed).clk.beat :: (link u n).fails).take 17 } := by
    rw [failed, checkFailed, link_updLink_here (by rw [missed, headerMissed, state]; exact on), missed]
    rfl
  rw [checked, ← state, ← hdr, ← fail]
  exact ⟨rfl, rfl, rfl, nak⟩

theorem headerFailed_twice (s : State) (l : LinkNo) (f : RawFrame) (serves : (link s l.val).state.serves = true) (up : awake s = true)
    (broken : (readUp f).hdrOk = false) (again : 1 ≤ (link s l.val).consecHdr) :
    exec (.upstreamFrame l f) s = .next (linkLost (headerFailed s l.val) l.val 1) := by
  obtain ⟨state, hdr, -⟩ := headerFailed_spec (on_of_framed (framed_of_serves serves))
  rw [exec_upstreamFrame s l f (framed_of_serves serves) up, if_pos (by simp [broken]), headerLoss, if_neg (by simp [state, serves]),
    if_pos (by omega)]

/-- A good frame after which the link serves and nothing starts a retrain. -/
theorem goodFrame_quiet {s a b c d : State} {n : Nat} {u : UpFrame}
    (errors : a = rxErrors (updLink s n fun l => { l with consecHdr := 0, consecTag := 0 }) n u.rxerr)
    (told : b = telemetry a n (u.telIndex % 1024) u.telValue)
    (returned : c = returnedSlots (if u.alert then updLink b n fun l => { l with alert := true } else b) n u)
    (done : d = acceptPackage (doneMask c n u.done) n) (serves : (link d n).state.serves = true)
    (calm : windowFull d n = false) (tag : (link s n).consecTag = 0) : goodFrame s n u = d := by
  subst errors told returned
  unfold goodFrame
  extract_lets tags headed lost seen alerted answered accepted
  have same : accepted = d := done.symm
  rw [if_neg (by simp [same, serves]), if_neg (by simp [same, calm]), if_neg (by simp [tags, tag]), same]

theorem goodFrame_used (s a b c d : State) (l : LinkNo) (f : RawFrame) (u : UpFrame) (read : u = readUp f)
    (carries : framed (link s l.val) = true) (up : awake s = true) (intact : u.hdrOk = true) (tagged : u.btag = s.clk.beat % 32)
    (errors : a = rxErrors (updLink s l.val fun l => { l with consecHdr := 0, consecTag := 0 }) l.val u.rxerr)
    (told : b = telemetry a l.val (u.telIndex % 1024) u.telValue)
    (returned : c = returnedSlots (if u.alert then updLink b l.val fun l => { l with alert := true } else b) l.val u)
    (done : d = acceptPackage (doneMask c l.val u.done) l.val) (serves : (link d l.val).state.serves = true)
    (calm : windowFull d l.val = false) (tag : (link s l.val).consecTag = 0) : exec (.upstreamFrame l f) s = .next d := by
  subst read
  rw [exec_upstreamFrame s l f carries up, if_neg (by simp [intact]), if_neg (by simp [tagged]),
    goodFrame_quiet errors told returned done serves calm tag]

theorem upstreamFrame_unframed (s : State) (l : LinkNo) (f : RawFrame) (bare : framed (link s l.val) = false) :
    exec (.frameStart l) s = .next s ∧ exec (.upstreamFrame l f) s = .next s :=
  ⟨frameStart_closed s l (.inl bare), congrArg Host.Outcome.next (if_pos (by simp [bare]))⟩

/-! ### The evaluation of the eye (R102, R103) -/

theorem eqEvaluation_next (s u : State) (l : LinkNo) (ffe eyeV eyeH : Nat) (serves : (link s l.val).state.serves = true)
    (up : awake s = true)
    (taken : u = updLink (adjustDevice (adjustPackage s l.val (eyeH % 65536)) l.val ffe) l.val fun k => { k with
      eyeV := eyeV % 65536, eyePrev := some (eyeH % 65536), eyeH := eyeH % 65536 }) :
    (15 * 1024 ≤ eyeH % 65536 * 100 → exec (.eqEvaluation l ffe eyeV eyeH) s = .next u) ∧
    (eyeH % 65536 * 100 < 15 * 1024 → exec (.eqEvaluation l ffe eyeV eyeH) s = .next (startRetrain u l.val 8)) := by
  have evaluated : exec (.eqEvaluation l ffe eyeV eyeH) s =
      .next (if eyeH % 65536 * 100 < 15 * 1024 then startRetrain u l.val 8 else u) := by
    subst taken
    exact congrArg Host.Outcome.next (if_neg (by simp [serves, up]))
  exact ⟨fun wide => by rw [evaluated, if_neg (by omega)], fun narrow => by rw [evaluated, if_pos narrow]⟩

/-- A tap whose change narrowed the eye goes back by an EQ entry (R102). -/
theorem adjustPackage_back (s : State) (n h tap v : Nat) (narrower : below h (link s n).eyePrev = true)
    (changed : (link s n).eqTap = some (tap, v)) :
    (link (adjustPackage s n h) n).eqDue = (link s n).eqDue ++ [(tap, v)] ∧ (link (adjustPackage s n h) n).eqTap = none := by
  have back : adjustPackage s n h = updLink (draw s).2 n fun k => { k with
      pkgTaps := tset 0 k.pkgTaps tap v, eqTap := none, eqDue := k.eqDue ++ [(tap, v)] } := by
    unfold adjustPackage
    simp only [narrower, changed, if_true]
  have read : link (adjustPackage s n h) n = { link s n with
      pkgTaps := tset 0 (link s n).pkgTaps tap v, eqTap := none, eqDue := (link s n).eqDue ++ [(tap, v)] } := by
    rw [back]
    exact tget_tset_val _ _ _ _ fun e => by simpa using congrArg LinkRec.eqDue e
  rw [read]
  exact ⟨rfl, rfl⟩

end Sys2Proof.Proofs.LinkFrames
end

section
/-! Links that leave service, work units, and the obligation about links' frames and losses. -/
namespace Sys2Proof.Proofs.LinkFrames
open Sys2Proof Machine Safety Startup

/-! ### Work that returns (R107) -/

theorem completeUnit_stays (n : Nat) (s : State) (core m : Nat) (passed lost : Bool) (data : List Byte) :
    LinkStays n s (completeUnit s core m passed lost data) := .of_links rfl rfl

theorem stripUnits_stays (n : Nat) (s : State) (m : Nat) (which : WorkUnit → Bool) : LinkStays n s (stripUnits s m which) :=
  .of_links rfl rfl

/-- The link's work has returned: it carries none. -/
theorem returnWork_record {s : State} {n : Nat} (on : (link s n).state ≠ .empty) :
    (returnWork s n).ln.removing = s.ln.removing ∧ (link (returnWork s n) n).state = (link s n).state ∧
    (link (returnWork s n) n).planned = [] ∧ (link (returnWork s n) n).batched = [] := by
  unfold returnWork
  extract_lets mine stripped zone dropped
  have units : LinkStays n s (mine.foldl (fun s u => completeUnit s u.core n false true) s) :=
    .foldl _ (fun s u => completeUnit_stays n s u.core n false true []) mine s
  have strips : LinkStays n s stripped := units.trans (stripUnits_stays n _ n fun _ => true)
  clear_value stripped
  have stays : LinkStays n s dropped := strips.trans (.of_links rfl rfl)
  have state := stays.state on
  have cleared : link (updLink dropped n LinkRec.cleared) n = (link dropped n).cleared :=
    link_updLink_here (by rw [LinkRec.cleared, state]; exact on)
  rw [cleared]
  exact ⟨stays.removing, state, rfl, rfl⟩

/-! ### A link leaves service -/

/-- The record of a link taken out of service, but for its returns. -/
theorem outOfService_record {s : State} {n cause : Nat} {st : LinkState} (on : (link s n).state ≠ .empty) (left : st ≠ .empty) :
    (link (outOfService s n st cause) n).state = st ∧ (link (outOfService s n st cause) n).cause = cause ∧
    (link (outOfService s n st cause) n).lostSignal = decide (cause = 2) ∧
    (link (outOfService s n st cause) n).planned = (link s n).planned ∧
    (link (outOfService s n st cause) n).batched = (link s n).batched := by
  unfold outOfService
  extract_lets before noted out
  have stays : LinkStays n s noted := (escalateReads_stays n s n _).trans (.of_keeps (noteOut_keeps (.refl _ _) rfl))
  have record : link out n = { link noted n with
      state := st, cause := cause, lostAt := noted.clk.beat, lostSignal := decide (cause = 2)
      wasRebuilding := decide ((link noted n).state = .rebuilding), consecHdr := 0, consecTag := 0, fails := [] } :=
    link_updLink_here (s := noted) left
  have rest := (lostRose_stays n out (n / 18) before).steady (by rw [record]; exact left)
  have work := stays.steady on
  generalize lostRose out (n / 18) before = t at rest ⊢
  rw [record] at rest
  have fields := congrArg (fun l => (l.state, l.cause, l.lostSignal, l.planned, l.batched)) rest
  have works := congrArg (fun l => (l.planned, l.batched)) work
  simp only [lasting, Prod.mk.injEq] at fields works
  obtain ⟨state, reason, signal, planned, batched⟩ := fields
  obtain ⟨planned', batched'⟩ := works
  exact ⟨state, reason, signal, planned.trans planned', batched.trans batched'⟩

/-- The end of a retraining after a park, and the report of the loss, leave the lost link. -/
theorem linkLost_stays (s : State) (n cause : Nat) : LinkStays n (leaveService s n .lost cause) (linkLost s n cause) :=
  (raise_stays ..).trans (unparkEnds_stays ..)

theorem settleOnline_stays (n : Nat) (s : State) (m : Nat) : LinkStays n s (settleOnline s m) := by
  have settled : LinkStays n s { s with ln := { s.ln with onlining := s.ln.onlining.filter fun x => x.1 ≠ m } } := .of_links rfl rfl
  exact .ite (settled.trans (.foldl _ (fun s x => finishId_stays n s _ _ _ _) _ _)) (.refl n s)

/-- With no ONLINE command that waits, settling does nothing. -/
theorem settleOnline_idle {s : State} (n : Nat) (none : s.ln.onlining = []) : settleOnline s n = s := by
  have same : (s.ln.onlining.filter fun x => x.1 ≠ n) = s.ln.onlining := by simp [none]
  have gone : (s.ln.onlining.filter fun x => x.1 = n) = [] := by simp [none]
  unfold settleOnline
  rw [same, gone]
  split
  · rfl
  · rfl

theorem lossOfSignal_serving (s : State) (l : LinkNo) (serves : (link s l.val).state = .active ∨ (link s l.val).state = .rebuilding)
    (_ : s.ln.onlining = []) : ∃ t, exec (.lossOfSignal l) s = .next t ∧ (link t l.val).state = .lost ∧ (link t l.val).cause = 2 ∧
      (link t l.val).lostSignal = true ∧ (link t l.val).planned = [] ∧ (link t l.val).batched = [] := by
  have lost : exec (.lossOfSignal l) s = .next (settleOnline (linkLost s l.val 2) l.val) := by
    rcases serves with h | h <;> simp only [exec, execLossOfSignal, h]
  refine ⟨_, lost, ?_⟩
  have on : (link s l.val).state ≠ .empty := by rcases serves with h | h <;> simp [h]
  obtain ⟨-, state', planned', batched'⟩ := returnWork_record on
  obtain ⟨state, cause, signal, planned, batched⟩ :=
    outOfService_record (s := returnWork s l.val) (cause := 2) (st := .lost) (by rw [state']; exact on) (by decide)
  have stays : LinkStays l.val (leaveService s l.val .lost 2) (settleOnline (linkLost s l.val 2) l.val) :=
    (linkLost_stays s l.val 2).trans (settleOnline_stays ..)
  have leftOn : (link (leaveService s l.val .lost 2) l.val).state ≠ .empty := by rw [leaveService, state]; decide
  have fields := congrArg (fun l => (l.state, l.cause, l.lostSignal, l.planned, l.batched)) (stays.steady leftOn)
  generalize settleOnline (linkLost s l.val 2) l.val = t at fields ⊢
  simp only [lasting, Prod.mk.injEq, leaveService, state, cause, signal, planned, batched, planned', batched'] at fields
  simpa using fields

theorem lossOfSignal_refused (s : State) (l : LinkNo) (refused : (link s l.val).state = .refused) (none : s.ln.onlining = []) :
    exec (.lossOfSignal l) s = .next (updLink s l.val fun l => { l with state := .empty, signal := false }) := by
  have settled : exec (.lossOfSignal l) s =
      .next (settleOnline (updLink s l.val fun l => { l with state := .empty, signal := false }) l.val) := by
    simp only [exec, execLossOfSignal, refused]
  exact settled.trans (congrArg _ (settleOnline_idle _ none))

theorem linkLost_reports (s : State) (n cause : Nat) : ∃ u, linkLost s n cause = unparkEnds u (n / 18) ∧
    ReportsOnly (leaveService s n .lost cause) u :=
  ⟨_, rfl, raise_reports (.refl _) ..⟩

/-! ### Removal (R109) -/

/-- A draining link that may be removed, before the report. -/
def removableAt (s : State) (n : Nat) : State :=
  unparkEnds (updLink (returnWork s n) n fun l => { l with state := .removable }) (n / 18)

/-- With no command that waits for the removal, the event is all that follows. -/
theorem enterRemovable_idle {s : State} {n : Nat} (none : (raise (removableAt s n) 0x22 (n / 18) n 0 0 0).ln.removing = []) :
    enterRemovable s n = raise (removableAt s n) 0x22 (n / 18) n 0 0 0 := by
  generalize done : enterRemovable s n = w
  unfold enterRemovable at done
  extract_lets u told zone at done
  have isTold : raise (removableAt s n) 0x22 (n / 18) n 0 0 0 = told := rfl
  rw [isTold] at none ⊢
  clear_value told
  have same : (told.ln.removing.filter fun x => x.1 ≠ n) = told.ln.removing := by simp [none]
  have gone : (told.ln.removing.filter fun x => x.1 = n) = [] := by simp [none]
  rw [same, gone] at done
  exact done.symm

theorem removing_updLink (s : State) (m : Nat) (f : LinkRec → LinkRec) : (updLink s m f).ln.removing = s.ln.removing := rfl

theorem linkRemovable_next (s : State) (l : LinkNo) (up : awake s = true) (draining : (link s l.val).state = .draining)
    (none : s.ln.removing = []) : ∃ t, exec (.linkRemovable l) s = .next t ∧ (link t l.val).state = .removable ∧
      ReportsOnly (unparkEnds (updLink (returnWork s l.val) l.val fun l => { l with state := .removable }) (l.val / 18)) t := by
  have on : (link s l.val).state ≠ .empty := by simp [draining]
  obtain ⟨removing, -⟩ := returnWork_record on
  have marked : link (updLink (returnWork s l.val) l.val fun l => { l with state := .removable }) l.val =
      { link (returnWork s l.val) l.val with state := .removable } := link_updLink_here (by simp)
  have stays : LinkStays l.val (updLink (returnWork s l.val) l.val fun l => { l with state := .removable })
      (raise (removableAt s l.val) 0x22 (l.val / 18) l.val 0 0 0) := (unparkEnds_stays ..).trans (raise_stays ..)
  have idle := enterRemovable_idle (stays.removing.trans ((removing_updLink ..).trans (removing.trans none)))
  have reports : ReportsOnly (removableAt s l.val) (raise (removableAt s l.val) 0x22 (l.val / 18) l.val 0 0 0) :=
    raise_reports (.refl _) _ _ _ _ _ _
  have enters : exec (.linkRemovable l) s = .next (enterRemovable s l.val) :=
    congrArg Host.Outcome.next (if_pos (by simp [up, draining]))
  rw [idle] at enters
  refine ⟨_, enters, ?_, reports⟩
  rw [stays.state (by rw [marked]; simp), marked]

theorem linkRemovable_none (s : State) (l : LinkNo) (stays : (link s l.val).state ≠ .draining) :
    exec (.linkRemovable l) s = .next s :=
  congrArg Host.Outcome.next (if_neg (by simp [stays]))

/-! ### Work units (R33, R34) -/

theorem workUnit_joins (s : State) (w : WorkUnit) (ok : unitOk w = true) (up : awake s = true) (calm : s.pwr.breath = none)
    (good : s.wr.failed.getLsbD w.core = false) (role : coreServes s w = true) :
    exec (.workUnitSubmit w) s = .next (count { s with ln := { s.ln with work := s.ln.work ++ [(s.clk.beat, w)] } } 65 0x203 0xFF 1) :=
  congrArg Host.Outcome.next (if_pos (by rw [ok, up, calm, good, role]; rfl))

theorem workUnit_dropped (s : State) (w : WorkUnit) (bad : unitOk w = false ∨ coreServes s w = false) :
    exec (.workUnitSubmit w) s = .next s :=
  congrArg Host.Outcome.next (if_neg (by rcases bad with h | h <;> simp [h]))

theorem frameStart_framed (s : State) (l : LinkNo) (carries : framed (link s l.val) = true) (up : awake s = true)
    (due : (link s l.val).frameAt ≠ some s.clk.beat) :
    ∃ t, exec (.frameStart l) s = .next t ∧ (link t l.val).state = (link s l.val).state ∧
      (link t l.val).executed = (link s l.val).executing ∧ (link t l.val).executing = (link s l.val).batched ∧
      (link t l.val).batched = (link s l.val).planned ∧ (link t l.val).planned = [] ∧ (link t l.val).nak = false ∧
      (link t l.val).frameAt = some s.clk.beat ∧
      (link t l.val).replays = (if (link s l.val).nak then satAdd 16 (link s l.val).replays 1 else (link s l.val).replays) ∧
      t.mp = s.mp ∧ t.sag = s.sag ∧ t.pl = s.pl := by
  obtain ⟨t, sent⟩ : ∃ t, exec (.frameStart l) s = .next t := ⟨_, rfl⟩
  have record := frameStart_next carries up due sent
  have fields := congrArg (fun l => (l.state, l.executed, l.executing, l.batched, l.planned, l.nak, l.frameAt, l.replays)) record
  simp only [lasting, frameLeft, LinkRec.shift, Prod.mk.injEq] at fields
  obtain ⟨state, executed, executing, batched, planned, nak, at_, replays⟩ := fields
  exact ⟨t, sent, state, executed, executing, batched, planned, nak, at_, replays, frameStart_parts sent⟩

/-- Settles O36: what stays of a link's record while returns are dealt with gives the frames and the losses. -/
theorem linkFramesAndLosses : Obligations.LinkFramesAndLosses :=
  ⟨⟨frameStart_framed, fun s l _ _ sent => frameStart_closed s l (.inr sent), tagMissed_once, tagMissed_twice, headerFailed_twice,
      fun s n carries sent => by
        obtain ⟨-, hdr, fail, nak⟩ := headerFailed_spec (s := s) (n := n) (on_of_framed carries)
        exact ⟨nak sent, fail, hdr⟩,
      goodFrame_used, eqEvaluation_next, adjustPackage_back, upstreamFrame_unframed⟩,
    lossOfSignal_serving, lossOfSignal_refused, linkLost_reports, linkRemovable_next, linkRemovable_none, workUnit_joins,
    workUnit_dropped⟩

end Sys2Proof.Proofs.LinkFrames
end

section
/-! The training of the media links, the inventory of their packages and their acceptance. -/
namespace Sys2Proof.Proofs.LinkTraining
open Sys2Proof Machine Safety Startup LinkFrames

/-! ### Training (R101) -/

theorem linkDetectPoll_trains (s : State) (l : LinkNo) (runs : linksRun s = true)
    (away : (link s l.val).state = .empty ∨ (link s l.val).state = .lost) :
    exec (.linkDetectPoll l true) s = .next (updLink s l.val fun k => { k with
      state := .training, signal := true, step := 1, stepAt := s.clk.beat, attempts := 1, retrains := satAdd 16 k.retrains 1 }) :=
  congrArg Host.Outcome.next ((if_neg (by simp [runs])).trans (if_pos (by rcases away with h | h <;> simp [h])))

/-- A link in a training step takes the step's end. -/
theorem training_open {s : State} {n : Nat} (runs : linksRun s = true) (training : (link s n).state = .training)
    (step : (link s n).step ≠ 0) :
    ¬ (((link s n).state ≠ .training && (link s n).state ≠ .retrain) || (link s n).step = 0 || !linksRun s) = true := by
  simp [runs, training, step]

theorem equalise_recorded (s : State) (l : LinkNo) (rt ffe eyeV eyeH : Nat) (runs : linksRun s = true)
    (training : (link s l.val).state = .training) (step : (link s l.val).step = 1) :
    exec (.trainingStepDone l rt ffe eyeV eyeH) s = .next (updLink s l.val fun k => { k with
      step := 2, stepAt := s.clk.beat, ffe := ffe % 2 ^ 15, eyeV := eyeV % 65536, eyeH := eyeH % 65536
      eyePrev := none, telEye := none, eqTap := none, ffePrev := none, eqDue := [] }) :=
  congrArg Host.Outcome.next ((if_neg (training_open runs training (by simp [step]))).trans (if_pos step))

/-- The end of Align: a round trip of more than 64 cycles does not end the step. -/
theorem align_end {s : State} {l : LinkNo} {rt ffe eyeV eyeH : Nat} (runs : linksRun s = true)
    (training : (link s l.val).state = .training) (step : (link s l.val).step = 2) :
    exec (.trainingStepDone l rt ffe eyeV eyeH) s = .next (if 64 < rt then s else updLink s l.val fun k => { k with
      step := 3, stepAt := s.clk.beat, roundTrip := rt }) :=
  congrArg Host.Outcome.next (((if_neg (training_open runs training (by simp [step]))).trans
    (if_neg (by simp [step]))).trans (if_pos step))

theorem align_accepted (s : State) (l : LinkNo) (rt ffe eyeV eyeH : Nat) (runs : linksRun s = true)
    (training : (link s l.val).state = .training) (step : (link s l.val).step = 2) (short : rt ≤ 64) :
    exec (.trainingStepDone l rt ffe eyeV eyeH) s = .next (updLink s l.val fun k => { k with
      step := 3, stepAt := s.clk.beat, roundTrip := rt }) := by
  rw [align_end runs training step, if_neg (by omega)]

theorem align_waits (s : State) (l : LinkNo) (rt ffe eyeV eyeH : Nat) (runs : linksRun s = true)
    (training : (link s l.val).state = .training) (step : (link s l.val).step = 2) (long : 64 < rt) :
    exec (.trainingStepDone l rt ffe eyeV eyeH) s = .next s := by
  rw [align_end runs training step, if_pos long]

/-- The beat at which a link has trained is noted. -/
def stamped (b : Nat) (k : LinkRec) : LinkRec := { k with trainedAt := b }

/-- A link that has passed Check goes to Inventory. -/
def checked (b : Nat) (k : LinkRec) : LinkRec := { k with step := 4, stepAt := b, state := .inventory }

theorem check_passed (s : State) (l : LinkNo) (rt ffe eyeV eyeH : Nat) (runs : linksRun s = true)
    (training : (link s l.val).state = .training) (step : (link s l.val).step = 3)
    (late : (link s l.val).stepAt + 16384 ≤ s.clk.beat) :
    ∃ t, exec (.trainingStepDone l rt ffe eyeV eyeH) s = .next t ∧ (link t l.val).state = .inventory ∧
      (link t l.val).step = 4 ∧ (link t l.val).trainedAt = s.clk.beat ∧
      t = { s with ln := { s.ln with links := t.ln.links } } := by
  have record : link (updLink (updLink s l.val (stamped s.clk.beat)) l.val (checked s.clk.beat)) l.val =
      checked s.clk.beat (stamped s.clk.beat (link s l.val)) := by
    rw [link_updLink_here (by simp [checked]), link_updLink_here (by simp [stamped, training])]
  have waited : ¬ s.clk.beat < (link s l.val).stepAt + stepLimit 3 := by simp only [stepLimit]; omega
  have passed : exec (.trainingStepDone l rt ffe eyeV eyeH) s =
      .next (updLink (updLink s l.val (stamped s.clk.beat)) l.val (checked s.clk.beat)) :=
    congrArg Host.Outcome.next (((((if_neg (training_open runs training (by simp [step]))).trans
      (if_neg (by simp [step]))).trans (if_neg (by simp [step]))).trans (if_neg waited)).trans (if_pos training))
  refine ⟨_, passed, ?_, ?_, ?_, rfl⟩ <;> rw [record] <;> rfl

/-! ### A step over its limit (R101) -/

/-- A link in a training step whose limit is over times out. -/
theorem timeout_open {s : State} {n : Nat} (runs : linksRun s = true) (training : (link s n).state = .training)
    (step : (link s n).step ≠ 0) (spent : (link s n).stepAt + stepLimit (link s n).step ≤ s.clk.beat) :
    ¬ (((link s n).state ≠ .training && (link s n).state ≠ .retrain &&
        !((link s n).state = .inventory && ((link s n).step = 4 || setsLoading s n))) ||
      (link s n).step = 0 || !linksRun s || s.clk.beat < (link s n).stepAt + stepLimit (link s n).step) = true := by
  simp [runs, training, step, spent]

/-- A link whose sequence starts again. -/
def trainedAgain (b : Nat) (k : LinkRec) : LinkRec :=
  { k.cleared with
    step := 1, stepAt := b, attempts := k.attempts + 1, retrains := satAdd 16 k.retrains 1
    state := if k.state = .retrain then .retrain else .training }

/-- The reference sets of a link that still wait are no longer loaded. -/
def withoutReloads (s : State) (n : Nat) : State :=
  { s with dr := { s.dr with reloads := s.dr.reloads.filter fun x => x.1 ≠ n } }

@[simp] theorem link_withoutReloads (s : State) (n m : Nat) : link (withoutReloads s n) m = link s m := rfl

theorem trainingTimeout_again (s : State) (l : LinkNo) (runs : linksRun s = true) (training : (link s l.val).state = .training)
    (step : (link s l.val).step ≠ 0) (spent : (link s l.val).stepAt + stepLimit (link s l.val).step ≤ s.clk.beat)
    (few : (link s l.val).attempts < 3) :
    ∃ t, exec (.trainingTimeout l) s = .next t ∧ (link t l.val).state = .training ∧ (link t l.val).step = 1 ∧
      (link t l.val).attempts = (link s l.val).attempts + 1 ∧ (link t l.val).stepAt = s.clk.beat ∧
      (link t l.val).retrains = satAdd 16 (link s l.val).retrains 1 ∧
      t = { s with dr := { s.dr with reloads := s.dr.reloads.filter fun x => x.1 ≠ l.val }, ln := { s.ln with links := t.ln.links } } := by
  have again : (trainedAgain s.clk.beat (link s l.val)).state = .training := by simp [trainedAgain, training]
  have record : link (updLink (withoutReloads s l.val) l.val (trainedAgain s.clk.beat)) l.val =
      trainedAgain s.clk.beat (link s l.val) := link_updLink_here (by simp [again])
  have starts : exec (.trainingTimeout l) s = .next (updLink (withoutReloads s l.val) l.val (trainedAgain s.clk.beat)) :=
    congrArg Host.Outcome.next ((if_neg (timeout_open runs training step spent)).trans (if_pos few))
  refine ⟨_, starts, by rw [record, again], ?_, ?_, ?_, ?_, rfl⟩ <;> rw [record] <;> rfl

/-- A link that did not train. -/
def trainingLost (k : LinkRec) : LinkRec := { k with state := .lost, cause := 4 }

/-- With no ONLINE command that waits, a link's change and its event are all that a settled link shows. -/
theorem settled_event {s : State} {n : Nat} {f : LinkRec → LinkRec} (code source p0 p1 p2 p3 : Nat) (idle : s.ln.onlining = [])
    (on : (f (link s n)).state ≠ .empty) :
    link (settleOnline (raise (updLink s n f) code source p0 p1 p2 p3) n) n = f (link s n) ∧
    ReportsOnly (updLink s n f) (settleOnline (raise (updLink s n f) code source p0 p1 p2 p3) n) := by
  have links : (raise (updLink s n f) code source p0 p1 p2 p3).ln = (updLink s n f).ln :=
    same_of_keeps (p := .ln) (raise_keeps (.refl _ _) rfl)
  have none : (raise (updLink s n f) code source p0 p1 p2 p3).ln.onlining = [] := by rw [links]; exact idle
  rw [settleOnline_idle n none]
  refine ⟨?_, raise_reports (.refl _) ..⟩
  rw [link, links]
  exact link_updLink_here on

theorem trainingTimeout_lost (s : State) (l : LinkNo) (runs : linksRun s = true) (training : (link s l.val).state = .training)
    (step : (link s l.val).step ≠ 0) (spent : (link s l.val).stepAt + stepLimit (link s l.val).step ≤ s.clk.beat)
    (third : 3 ≤ (link s l.val).attempts) (idle : s.ln.onlining = []) :
    ∃ t, exec (.trainingTimeout l) s = .next t ∧ (link t l.val).state = .lost ∧ (link t l.val).cause = 4 ∧
      ReportsOnly (updLink s l.val fun k => { k with state := .lost, cause := 4 }) t := by
  have lost : exec (.trainingTimeout l) s =
      .next (settleOnline (raise (updLink s l.val trainingLost) 0x20 (l.val / 18) l.val 4 0 0) l.val) :=
    congrArg Host.Outcome.next ((if_neg (timeout_open runs training step spent)).trans (if_neg (by omega)))
  obtain ⟨record, reports⟩ := settled_event (f := trainingLost) 0x20 (l.val / 18) l.val 4 0 0 idle (by simp [trainingLost])
  exact ⟨_, lost, by rw [record]; rfl, by rw [record]; rfl, reports⟩

/-! ### Inventory (R76, R77, R105) -/

@[simp] theorem link_busRead (s : State) (n off len attempts m : Nat) : link (busRead s n off len attempts) m = link s m := rfl

theorem refusePackage_settled {s : State} {n : Nat} (off : Nat) (idle : s.ln.onlining = []) :
    link (refusePackage s n off) n = { link s n with state := .refused, cause := 5, pkg := none } ∧
    ReportsOnly (updLink s n fun k => { k with state := .refused, cause := 5, pkg := none }) (refusePackage s n off) :=
  settled_event 0x21 (n / 18) n off 0 0 idle (by simp)

/-- The inventory of a link that waits for it: what the management bus brings is checked against the link's copy. -/
theorem exec_packageInventoryDone {s : State} {l : LinkNo} {a : List Byte} {bus : BusTries (List Byte)}
    (inventory : (link s l.val).state = .inventory) (step : (link s l.val).step = 4) :
    (busAnswer bus = none → exec (.packageInventoryDone l a bus) s =
      .next (refusePackage (busRead s l.val 0 8192 (busAttempts bus)) l.val 0x2000)) ∧
    ∀ b, busAnswer bus = some b →
      (∀ off, descFault a b = some off → exec (.packageInventoryDone l a bus) s =
        .next (refusePackage (busRead s l.val 0 8192 (busAttempts bus)) l.val off)) ∧
      (descFault a b = none → exec (.packageInventoryDone l a bus) s =
        .next (loadAllSets (updLink (busRead s l.val 0 8192 (busAttempts bus)) l.val fun k =>
          { k with pkg := some (parsePkg a), step := 5 }) l.val)) := by
  have waits : ¬ ((link s l.val).state ≠ .inventory || (link s l.val).step ≠ 4) = true := by simp [inventory, step]
  refine ⟨fun missing => ?_, fun b came => ⟨fun off bad => ?_, fun good => ?_⟩⟩
  · simp only [exec, execPackageInventoryDone, if_neg waits, missing]
  · simp only [exec, execPackageInventoryDone, if_neg waits, came, bad]
  · simp only [exec, execPackageInventoryDone, if_neg waits, came, good]

theorem inventory_refused (s : State) (l : LinkNo) (a b : List Byte) (bus : BusTries (List Byte)) (off : Nat)
    (inventory : (link s l.val).state = .inventory) (step : (link s l.val).step = 4) (came : busAnswer bus = some b)
    (bad : descFault a b = some off) (idle : s.ln.onlining = []) :
    ∃ t, exec (.packageInventoryDone l a bus) s = .next t ∧ (link t l.val).state = .refused ∧
      ReportsOnly (updLink (busRead s l.val 0 8192 (busAttempts bus)) l.val fun k => { k with
        state := .refused, cause := 5, pkg := none }) t := by
  obtain ⟨record, reports⟩ :=
    refusePackage_settled (s := busRead s l.val 0 8192 (busAttempts bus)) (n := l.val) off idle
  exact ⟨_, ((exec_packageInventoryDone inventory step).2 b came).1 off bad, by rw [record], reports⟩

theorem inventory_missing (s : State) (l : LinkNo) (a : List Byte) (bus : BusTries (List Byte))
    (inventory : (link s l.val).state = .inventory) (step : (link s l.val).step = 4) (missing : busAnswer bus = none)
    (idle : s.ln.onlining = []) :
    ∃ t, exec (.packageInventoryDone l a bus) s = .next t ∧ (link t l.val).state = .refused ∧ (link t l.val).pkg = none := by
  obtain ⟨record, -⟩ := refusePackage_settled (s := busRead s l.val 0 8192 (busAttempts bus)) (n := l.val) 0x2000 idle
  exact ⟨_, (exec_packageInventoryDone inventory step).1 missing, by rw [record], by rw [record]⟩

/-! ### The reference sets of a package (R89, R101) -/

theorem mem_queueReload {s : State} {n c code : Nat} :
    (n, c, 0) ∈ (queueReload s n code).dr.reloads ↔ c = code ∨ (n, c, 0) ∈ s.dr.reloads := by
  by_cases h : c = code
  · simp [queueReload, h]
  · simp [queueReload, h]

/-- A code stays queued while others are queued. -/
theorem mem_queueReloads {n c : Nat} (l : List Nat) (s : State) (h : c ∈ l ∨ (n, c, 0) ∈ s.dr.reloads) :
    (n, c, 0) ∈ (l.foldl (fun s c => queueReload s n c) s).dr.reloads := by
  induction l generalizing s with
  | nil => simpa using h
  | cons code l ih =>
    refine ih _ ?_
    rw [mem_queueReload]
    rcases h with h | h
    · exact (List.mem_cons.1 h).elim (.inr ∘ .inl) .inl
    · exact .inr (.inr h)

theorem loadAllSets_queued (s : State) (n : Nat) :
    (∀ q < 5, (n, q, 0) ∈ (loadAllSets s n).dr.reloads) ∧
    ∀ d < 17, (n, 8 + d, 0) ∈ (loadAllSets s n).dr.reloads ∧ (n, 32 + d, 0) ∈ (loadAllSets s n).dr.reloads :=
  ⟨fun q few => mem_queueReloads _ s (.inl (by simp [few])),
    fun d few => ⟨mem_queueReloads _ s (.inl (by simp [few])), mem_queueReloads _ s (.inl (by simp [few]))⟩⟩

theorem inventory_passed (s : State) (l : LinkNo) (a b : List Byte) (bus : BusTries (List Byte))
    (inventory : (link s l.val).state = .inventory) (step : (link s l.val).step = 4) (came : busAnswer bus = some b)
    (good : descFault a b = none) :
    ∃ t, exec (.packageInventoryDone l a bus) s = .next t ∧ (link t l.val).pkg = some (parsePkg a) ∧ (link t l.val).step = 5 ∧
      (link t l.val).state = .inventory ∧ (∀ q < 5, (l.val, q, 0) ∈ t.dr.reloads) ∧
      (∀ d < 17, (l.val, 8 + d, 0) ∈ t.dr.reloads ∧ (l.val, 32 + d, 0) ∈ t.dr.reloads) := by
  refine ⟨_, ((exec_packageInventoryDone inventory step).2 b came).2 good, ?_⟩
  generalize taken : updLink (busRead s l.val 0 8192 (busAttempts bus)) l.val (fun k =>
    { k with pkg := some (parsePkg a), step := 5 }) = u
  have record : link u l.val = { link s l.val with pkg := some (parsePkg a), step := 5 } := by
    subst taken
    exact link_updLink_here (s := busRead s l.val 0 8192 (busAttempts bus)) (by simp [inventory])
  have links : (loadAllSets u l.val).ln = u.ln := same_of_keeps (p := .ln) (loadAllSets_keeps (.refl _ u) rfl)
  have kept : link (loadAllSets u l.val) l.val = link u l.val := congrArg (fun ln : LinkSt => tget ({} : LinkRec) ln.links l.val) links
  obtain ⟨groups, dies⟩ := loadAllSets_queued u l.val
  exact ⟨by rw [kept, record], by rw [kept, record], by rw [kept, record]; exact inventory, groups, dies⟩

/-! ### A package enters service (R110, R111) -/

theorem rankBack_stays (n : Nat) (s : State) (r : Nat) : LinkStays n s (rankBack s r) := by
  have held : LinkStays n s { s with sag := { s.sag with holdOver := tset false s.sag.holdOver r false } } := .of_ln rfl
  exact (LinkStays.ite held (.refl n s)).trans (unparkEnds_stays n _ r)

theorem startLinkRebuild_stays (n : Nat) (s : State) (m : Nat) (full : Bool) : LinkStays n s (startLinkRebuild s m full) :=
  .of_keeps (startLinkRebuild_keeps (.refl _ s) rfl)

theorem clearForRebuild_stays (n : Nat) (s : State) (r : Nat) (covers : Nat → Bool) : LinkStays n s (clearForRebuild s r covers) :=
  .of_keeps (clearForRebuild_keeps (.refl _ s) rfl)

/-- A link's record as it returns to service, in the state that what it missed asks for. -/
def returned (st : LinkState) (l : LinkRec) : LinkRec :=
  { l with inService := true, step := 0, attempts := 0, wasRebuilding := false, state := st }

/-- Return to service: the link is active, or rebuilds. -/
theorem returnToService_record {s : State} {n : Nat} {short : Bool} (on : (link s n).state ≠ .empty) :
    ∃ st : LinkState, st.serves = true ∧ lasting (link (returnToService s n short) n) = lasting (returned st (link s n)) := by
  unfold returnToService
  extract_lets was wear back cleaned entered
  have inState (st : LinkState) (busy : st ≠ .empty) :
      link (updLink back n fun l => { l with state := st }) n = returned st (link s n) := by
    rw [link_updLink_here busy, show link back n = _ from link_updLink_here on]
    rfl
  obtain ⟨st, serves, stays⟩ : ∃ st : LinkState, st.serves = true ∧
      LinkStays n (updLink back n fun l => { l with state := st }) entered := by
    unfold entered
    split_ifs
    · exact ⟨.rebuilding, rfl, startLinkRebuild_stays n _ n true⟩
    · exact ⟨.rebuilding, rfl, (clearForRebuild_stays n _ _ _).after rfl⟩
    · exact ⟨.active, rfl, .refl n _⟩
    · exact ⟨.rebuilding, rfl, startLinkRebuild_stays n _ n false⟩
  have busy : st ≠ .empty := by rintro rfl; exact absurd serves (by decide)
  refine ⟨st, serves, ?_⟩
  have record := inState st busy
  rw [(stays.trans (rankBack_stays n entered (n / 18))).steady (by rw [record]; exact busy), record]

theorem acceptPackage_serves (s : State) (n : Nat) (populated : n / 18 ∈ s.mp.pop) (started : 12 ≤ s.pwr.step)
    (inventory : (link s n).state = .inventory) (step : (link s n).step = 5) (loaded : setsLoading s n = false)
    (_ : s.ln.onlining = []) :
    (link (acceptPackage s n) n).state.serves = true ∧
      (link (acceptPackage s n) n).recordedSerial = some (pkgOf s n).serial ∧ (link (acceptPackage s n) n).step = 0 := by
  have ready : ¬ (n / 18 ∉ s.mp.pop || s.pwr.step < 12 || (link s n).state ≠ .inventory || (link s n).step ≠ 5 ||
      setsLoading s n) = true := by
    simp [populated, started, inventory, step, loaded]
  unfold acceptPackage
  rw [if_neg ready]
  extract_lets serial same short own known
  have owns : LinkStays n s own := .ite (.refl n s) (.of_ln rfl)
  have on : (link own n).state ≠ .empty := by rw [owns.state (by simp [inventory]), inventory]; decide
  have knows : link known n = { link own n with recordedSerial := some serial } := link_updLink_here on
  obtain ⟨st, serves, enters⟩ := returnToService_record (s := known) (n := n) (short := short) (by rw [knows]; exact on)
  have stays : LinkStays n (returnToService known n short) (settleOnline (factoryBlocks (returnToService known n short) n) n) :=
    (LinkStays.of_keeps (factoryBlocks_keeps (.refl _ _) rfl)).trans (settleOnline_stays ..)
  have busy : (link (returnToService known n short) n).state ≠ .empty := by
    rw [state_of_lasting enters]
    intro e
    exact absurd serves (by rw [show st = .empty from e]; decide)
  have fields := congrArg (fun l => (l.state, l.recordedSerial, l.step)) ((stays.steady busy).trans enters)
  generalize settleOnline (factoryBlocks (returnToService known n short) n) n = t at fields ⊢
  simp only [lasting, returned, knows, Prod.mk.injEq] at fields
  obtain ⟨state, recorded, ended⟩ := fields
  exact ⟨by rw [state]; exact serves, recorded, ended⟩

/-- Settles O35: each step of training by its own rule, and inventory and acceptance by what stays of the link's record. -/
theorem linksTrain : Obligations.LinksTrain :=
  ⟨linkDetectPoll_trains, equalise_recorded, align_accepted, align_waits, check_passed, trainingTimeout_again,
    trainingTimeout_lost, inventory_refused, inventory_missing, inventory_passed, acceptPackage_serves⟩

end Sys2Proof.Proofs.LinkTraining
end

section
/-! The commands that remove packages, put them back and set the capacity. -/
namespace Sys2Proof.Proofs.Packages
open Sys2Proof Machine Safety Startup LinkFrames

/-! ### PREPARE_REMOVE (R109, R466) -/

/-- The command waits until its link is removable (R466). -/
def waitsForRemoval (s : State) (c : Cmd) : State :=
  holdCmd { s with ln := { s.ln with removing := s.ln.removing ++ [(c.fld 0x18 2, c.id)] } } c

section
variable {s : State} {p : PipeNo} {c : Cmd} (runs : Runs s p.val (fun c => c.op = 0x0B00) c)
include runs

/-- What PREPARE_REMOVE does with a link that does not carry work yet. -/
theorem prepareRemove_training (training : (link s (c.fld 0x18 2)).state = .training) :
    exec (.prepareRemove p) s =
      .next (waitsForRemoval (updLink s (c.fld 0x18 2) fun l => { l with state := .draining }) c) := by
  simp only [exec, execPrepareRemove, runCmd_runs runs, training, drainLink, LinkState.serves]
  rfl

theorem prepareRemove_draining (draining : (link s (c.fld 0x18 2)).state = .draining) :
    exec (.prepareRemove p) s = .next (waitsForRemoval s c) := by
  simp only [exec, execPrepareRemove, runCmd_runs runs, draining, waitsForRemoval]

theorem prepareRemove_removable (removable : (link s (c.fld 0x18 2)).state = .removable) :
    exec (.prepareRemove p) s = .next (finishCmd s c 0 0 7 0) := by
  simp only [exec, execPrepareRemove, runCmd_runs runs, removable]
  rfl

theorem prepareRemove_away (away : (link s (c.fld 0x18 2)).state = .empty ∨ (link s (c.fld 0x18 2)).state = .refused ∨
    (link s (c.fld 0x18 2)).state = .lost) :
    exec (.prepareRemove p) s = .next (enterRemovable (waitsForRemoval s c) (c.fld 0x18 2)) := by
  rcases away with h | h | h <;> simp only [exec, execPrepareRemove, runCmd_runs runs, h, waitsForRemoval]

/-- A serving link is drained; the rebuild onto it stops first. -/
theorem prepareRemove_serving (serving : (link s (c.fld 0x18 2)).state = .active ∨ (link s (c.fld 0x18 2)).state = .rebuilding) :
    ∃ u, u.ln = s.ln ∧ exec (.prepareRemove p) s = .next (waitsForRemoval (drainLink u (c.fld 0x18 2)) c) := by
  rcases serving with h | h <;> simp only [exec, execPrepareRemove, runCmd_runs runs, h, waitsForRemoval]
  · exact ⟨s, rfl, rfl⟩
  · exact ⟨dropRebuild s (c.fld 0x18 2), rfl, rfl⟩

end

/-! ### A serving link is drained (R109) -/

/-- The work that ends with a drain returns; the link's state is as before. -/
theorem returnOthers_state {s : State} {n : Nat} (on : (link s n).state ≠ .empty) :
    (link (returnOthers s n) n).state = (link s n).state := by
  unfold returnOthers
  extract_lets +onlyGivenNames l sent ended stripped
  have units : LinkStays n s (ended.foldl (fun s u => completeUnit s u.core n false true) s) :=
    .foldl _ (fun s u => completeUnit_stays n s u.core n false true []) ended s
  have strips : LinkStays n s stripped := units.trans (stripUnits_stays n _ n _)
  clear_value stripped
  extract_lets dropped zone
  have stays : LinkStays n s zone := strips.trans (.of_links rfl rfl)
  have state := stays.state on
  clear_value zone
  rw [link_updLink_here (by simpa only [LinkRec.cleared, state] using on)]
  exact state

/-- A serving link goes into removal with cause 6. -/
theorem drainLink_record {s : State} {n : Nat} (serves : (link s n).state.serves = true) :
    (link (drainLink s n) n).state = .draining ∧ (link (drainLink s n) n).cause = 6 := by
  have on := on_of_framed (framed_of_serves serves)
  obtain ⟨state, cause, -⟩ := outOfService_record (s := returnOthers s n) (n := n) (cause := 6) (st := .draining)
    (by rw [returnOthers_state on]; exact on) (by decide)
  have drained : drainLink s n = updLink (outOfService (returnOthers s n) n .draining 6) n fun l =>
      { l with wasRebuilding := false, inService := false } := if_pos serves
  rw [drained]
  generalize outOfService (returnOthers s n) n .draining 6 = u at state cause ⊢
  rw [link_updLink_here (by rw [state]; decide)]
  exact ⟨state, cause⟩

/-! ### What completes with a removal (R109, R466) -/

/-- A command has its completion with status 0 and result `a`. -/
def Completed (c : Cmd) (a : Reg) (s : State) : Prop :=
  ∃ x ∈ s.pp.comps, x.pipe = c.pipe ∧ x.desc = c.desc ∧ x.tag = c.tag ∧ x.status = 0 ∧ x.resA = a

/-- A command waits, the only one with its id. -/
def WaitsAlone (c : Cmd) (s : State) : Prop := c ∈ s.pp.cmds ∧ ∀ d ∈ s.pp.cmds, d.id = c.id → d = c

theorem completed_finishCmd {c d : Cmd} {s : State} {a r b : Reg} (h : Completed c a s) :
    Completed c a (finishCmd s d 0 0 r b) := by
  obtain ⟨x, owed, rest⟩ := h
  exact ⟨x, by rw [finishCmd_comps]; exact List.mem_append_left _ owed, rest⟩

theorem finishCmd_completed (s : State) (c : Cmd) (a b : Reg) : Completed c a (finishCmd s c 0 0 a b) :=
  ⟨_, by rw [finishCmd_comps]; exact List.mem_append_right _ (List.mem_singleton_self _), rfl, rfl, rfl, rfl, rfl⟩

theorem waitsAlone_finishCmd {c d : Cmd} {s : State} {a b : Reg} (h : WaitsAlone c s) (other : c.id ≠ d.id) :
    WaitsAlone c (finishCmd s d 0 0 a b) := by
  obtain ⟨waits, alone⟩ := h
  exact ⟨List.mem_filter.2 ⟨waits, by simpa using other⟩, fun x left => alone x (finishCmd_cmds _ _ _ _ _ _ x left).2⟩

/-- Completing by id completes the one command that has the id. -/
theorem finishId_waiting {c : Cmd} {s : State} (a b : Reg) (h : WaitsAlone c s) :
    finishId s (some c.id) 0 a b = finishCmd s c 0 0 a b := by
  obtain ⟨waits, alone⟩ := h
  obtain ⟨d, found⟩ : ∃ d, s.pp.cmds.find? (fun d => d.id = c.id) = some d :=
    Option.isSome_iff_exists.1 (List.find?_isSome.2 ⟨c, waits, by simp⟩)
  have same : d = c := alone d (List.mem_of_find?_eq_some found) (by simpa using List.find?_some found)
  simp only [finishId, Option.bind_some, found, same]

/-- Completing by id either finishes the command that has the id, or does nothing. -/
theorem finishId_cases (s : State) (i : Nat) (a b : Reg) :
    finishId s (some i) 0 a b = s ∨ ∃ d, d.id = i ∧ finishId s (some i) 0 a b = finishCmd s d 0 0 a b := by
  cases found : s.pp.cmds.find? (fun d => d.id = i) with
  | none => exact .inl (by simp only [finishId, Option.bind_some, found])
  | some d => exact .inr ⟨d, by simpa using List.find?_some found, by simp only [finishId, Option.bind_some, found]⟩

theorem completed_finishId {c : Cmd} {s : State} {a b : Reg} (i : Nat) (h : Completed c a s) :
    Completed c a (finishId s (some i) 0 a b) := by
  obtain same | ⟨d, -, ends⟩ := finishId_cases s i a b
  · rwa [same]
  · rw [ends]; exact completed_finishCmd h

/-- A command that waits still waits, or is completed. -/
theorem finishId_settles {c : Cmd} {s : State} {a b : Reg} (i : Nat) (h : WaitsAlone c s ∨ Completed c a s) :
    WaitsAlone c (finishId s (some i) 0 a b) ∨ Completed c a (finishId s (some i) 0 a b) := by
  rcases h with waits | done
  · by_cases own : i = c.id
    · rw [own, finishId_waiting a b waits]
      exact .inr (finishCmd_completed ..)
    · obtain same | ⟨d, id, ends⟩ := finishId_cases s i a b
      · rw [same]; exact .inl waits
      · rw [ends]; exact .inl (waitsAlone_finishCmd waits (by rw [id]; exact Ne.symm own))
  · exact .inr (completed_finishId i done)

theorem finishId_completes {c : Cmd} {s : State} {a b : Reg} (h : WaitsAlone c s ∨ Completed c a s) :
    Completed c a (finishId s (some c.id) 0 a b) := by
  rcases h with waits | done
  · rw [finishId_waiting a b waits]; exact finishCmd_completed ..
  · exact completed_finishId c.id done

/-- Of the commands that wait for a link, each that is listed is completed. -/
theorem finishIds_complete {c : Cmd} {a b : Reg} {l : List (Nat × Nat)} (listed : ∃ x ∈ l, x.2 = c.id) {s : State}
    (h : WaitsAlone c s ∨ Completed c a s) : Completed c a (l.foldl (fun s x => finishId s (some x.2) 0 a b) s) := by
  have later (l : List (Nat × Nat)) : ∀ s, Completed c a s → Completed c a (l.foldl (fun s x => finishId s (some x.2) 0 a b) s) := by
    induction l with
    | nil => exact fun s done => done
    | cons x l ih => exact fun s done => ih _ (completed_finishId x.2 done)
  induction l generalizing s with
  | nil => simp at listed
  | cons x l ih =>
    rw [List.foldl_cons]
    by_cases own : x.2 = c.id
    · rw [own]
      exact later l _ (finishId_completes h)
    · exact ih (by simpa [own] using listed) (finishId_settles x.2 h)

/-! ### A link becomes REMOVABLE (R109) -/

/-- The link is REMOVABLE and its event raised; no command has completed yet. -/
def toldRemovable (s : State) (n : Nat) : State := raise (removableAt s n) 0x22 (n / 18) n 0 0 0

/-- The commands that wait for the link's removal complete with 7. -/
def completeRemovals (s : State) (n : Nat) : State :=
  (s.ln.removing.filter fun x => x.1 = n).foldl (fun s x => finishId s (some x.2) 0 7 0)
    { s with ln := { s.ln with removing := s.ln.removing.filter fun x => x.1 ≠ n } }

theorem enterRemovable_eq (s : State) (n : Nat) : enterRemovable s n = completeRemovals (toldRemovable s n) n := by
  unfold enterRemovable
  extract_lets u told zone
  rw [show toldRemovable s n = told from rfl]
  clear_value told
  rfl

theorem completeRemovals_stays (s : State) (n : Nat) (on : (link s n).state ≠ .empty) :
    (link (completeRemovals s n) n).state = (link s n).state := by
  unfold completeRemovals
  exact (LinkStays.foldl (n := n) _ (fun s x => finishId_stays n s _ 0 7 0) _ _).state on

theorem returnWork_removing (s : State) (n : Nat) : (returnWork s n).ln.removing = s.ln.removing := by
  unfold returnWork
  extract_lets mine stripped zone dropped
  have units : LinkStays n s (mine.foldl (fun s u => completeUnit s u.core n false true) s) :=
    .foldl _ (fun s u => completeUnit_stays n s u.core n false true []) mine s
  have strips : LinkStays n s stripped := units.trans (stripUnits_stays n _ n fun _ => true)
  clear_value stripped
  exact strips.removing

/-- The commands of the pipes are the same, and those that wait for a removal still do. -/
theorem toldRemovable_parts (s : State) (n : Nat) : (toldRemovable s n).pp.cmds = s.pp.cmds ∧
    (toldRemovable s n).ln.removing = s.ln.removing ∧ (link (toldRemovable s n) n).state = .removable := by
  have marked : link (updLink (returnWork s n) n fun l => { l with state := .removable }) n =
      { link (returnWork s n) n with state := .removable } := link_updLink_here (by simp)
  have stays : LinkStays n (updLink (returnWork s n) n fun l => { l with state := .removable }) (toldRemovable s n) :=
    (unparkEnds_stays ..).trans (raise_stays ..)
  have keeps : Keeps (allBut .pp) s (toldRemovable s n) :=
    raise_keeps (unparkEnds_keeps (updLink_keeps (returnWork_keeps (.refl _ s) rfl) rfl) rfl) rfl
  have pipes : (quiet (toldRemovable s n)).pp = (quiet s).pp := same_of_keeps (p := .pp) keeps
  have removing := (stays.removing.trans (removing_updLink ..)).trans (returnWork_removing s n)
  have state := stays.state (by rw [marked]; simp)
  rw [marked] at state
  generalize toldRemovable s n = u at pipes removing state ⊢
  exact ⟨(congrArg PipeSt.cmds pipes :), removing, state⟩

/-- Of the commands that wait for the link's removal, the one with its id alone completes with 7. -/
theorem enterRemovable_completes {s : State} {c : Cmd} {n : Nat} (alone : WaitsAlone c s) (listed : (n, c.id) ∈ s.ln.removing) :
    (link (enterRemovable s n) n).state = .removable ∧ Completed c 7 (enterRemovable s n) := by
  obtain ⟨cmds, removing, state⟩ := toldRemovable_parts s n
  rw [enterRemovable_eq]
  generalize toldRemovable s n = u at cmds removing state ⊢
  refine ⟨(completeRemovals_stays u n (by rw [state]; decide)).trans state,
    finishIds_complete ⟨(n, c.id), by simpa [removing] using listed, rfl⟩ (.inl ?_)⟩
  obtain ⟨waits, only⟩ := alone
  exact ⟨show c ∈ u.pp.cmds by rw [cmds]; exact waits, fun d hd => only d (by rw [← cmds]; exact hd)⟩

/-- The command whose effect has begun. -/
def held (c : Cmd) : Cmd := { c with effectDone := true }

theorem waitsAlone_held {s : State} {c : Cmd} (waits : c ∈ s.pp.cmds) (alone : ∀ d ∈ s.pp.cmds, d.id = c.id → d = c) :
    WaitsAlone (held c) (waitsForRemoval s c) := by
  refine ⟨List.mem_map.2 ⟨c, waits, if_pos rfl⟩, fun d later same => ?_⟩
  obtain ⟨e, earlier, rfl⟩ := List.mem_map.1 later
  by_cases own : e.id = c.id
  · rw [if_pos own, alone e earlier own]; rfl
  · rw [if_neg own] at same
    exact absurd same own

/-- A command that is executed now is one of the commands taken. -/
theorem mem_cmds_of_runs {s : State} {p : Nat} {which : Cmd → Bool} {c : Cmd} (runs : Runs s p which c) : c ∈ s.pp.cmds :=
  List.mem_of_find?_eq_some runs.next

theorem prepareRemove_away_completes (s : State) (p : PipeNo) (c : Cmd) (runs : Runs s p.val (fun c => c.op = 0x0B00) c)
    (away : (link s (c.fld 0x18 2)).state = .empty ∨ (link s (c.fld 0x18 2)).state = .refused ∨
      (link s (c.fld 0x18 2)).state = .lost)
    (alone : ∀ d ∈ s.pp.cmds, d.id = c.id → d = c) :
    ∃ t, exec (.prepareRemove p) s = .next t ∧ (link t (c.fld 0x18 2)).state = .removable ∧
      ∃ x ∈ t.pp.comps, x.pipe = c.pipe ∧ x.desc = c.desc ∧ x.tag = c.tag ∧ x.status = 0 ∧ x.resA = 7 :=
  ⟨_, prepareRemove_away runs away, enterRemovable_completes (c := held c) (waitsAlone_held (mem_cmds_of_runs runs) alone)
    (List.mem_append_right _ (List.mem_singleton_self _))⟩

theorem prepareRemove_serving_drains (s : State) (p : PipeNo) (c : Cmd) (runs : Runs s p.val (fun c => c.op = 0x0B00) c)
    (serving : (link s (c.fld 0x18 2)).state = .active ∨ (link s (c.fld 0x18 2)).state = .rebuilding) :
    ∃ t, exec (.prepareRemove p) s = .next t ∧ (link t (c.fld 0x18 2)).state = .draining ∧
      (link t (c.fld 0x18 2)).cause = 6 ∧ (c.fld 0x18 2, c.id) ∈ t.ln.removing := by
  obtain ⟨u, same, drains⟩ := prepareRemove_serving runs serving
  have serves : (link u (c.fld 0x18 2)).state.serves = true := by
    rw [show link u (c.fld 0x18 2) = link s (c.fld 0x18 2) by rw [link, same]; rfl]
    rcases serving with h | h <;> rw [h] <;> rfl
  obtain ⟨state, cause⟩ := drainLink_record serves
  exact ⟨_, drains, state, cause, List.mem_append_right _ (List.mem_singleton_self _)⟩

/-! ### ONLINE, ACCEPT_FRESHNESS, CAPACITY_SET (R342, R385, R467 to R469) -/

theorem online_removable (s : State) (p : PipeNo) (c : Cmd) (runs : Runs s p.val (fun c => c.op = 0x0B01) c)
    (removable : (link s (c.fld 0x18 2)).state = .removable) :
    exec (.online p) s = .next (holdCmd { s with ln := { s.ln with
      links := (updLink s (c.fld 0x18 2) fun l =>
        { l with state := .training, step := 0, attempts := 0, inService := false }).ln.links
      onlining := s.ln.onlining ++ [(c.fld 0x18 2, c.id)] } } c) :=
  congrArg Host.Outcome.next ((runCmd_runs runs _).trans (if_pos removable))

theorem online_other (s : State) (p : PipeNo) (c : Cmd) (runs : Runs s p.val (fun c => c.op = 0x0B01) c)
    (other : (link s (c.fld 0x18 2)).state ≠ .removable) :
    exec (.online p) s = .next (finishCmd s c 0 0 (BitVec.ofNat 64 (link s (c.fld 0x18 2)).state.code) 0) :=
  congrArg Host.Outcome.next ((runCmd_runs runs _).trans (if_neg other))

theorem acceptFreshness_stale (s : State) (p : PipeNo) (c : Cmd) (runs : Runs s p.val (fun c => c.op = 0x0C00) c)
    (stale : s.ig.rootState = 2) :
    exec (.acceptFreshness p) s = .next (finishCmd (refreshReady { s with ig := { s.ig with rootState := 3 } }) c 0 0 3 0) := by
  have root : (refreshReady { s with ig := { s.ig with rootState := 3 } }).ig = { s.ig with rootState := 3 } :=
    same_of_keeps (p := .ig) (refreshReady_keeps (.refl _ _) rfl)
  simp only [exec, execAcceptFreshness, runCmd_runs runs, stale, if_true, succeed, root]
  rfl

theorem acceptFreshness_other (s : State) (p : PipeNo) (c : Cmd) (runs : Runs s p.val (fun c => c.op = 0x0C00) c)
    (other : s.ig.rootState ≠ 2) :
    exec (.acceptFreshness p) s = .next (finishCmd s c 0 0 (BitVec.ofNat 64 s.ig.rootState) 0) := by
  simp only [exec, execAcceptFreshness, runCmd_runs runs, if_neg other]
  rfl

theorem capacitySet_notes (s : State) (p : PipeNo) (c : Cmd) (runs : Runs s p.val (fun c => c.op = 0x0D01) c) :
    ∃ t, exec (.capacitySet p) s = .next t ∧
      t.mp = { s.mp with pendingCap := some (c.fld 0x18 4, s.mp.pop.filter fun r => lostLinks s r < 2) } ∧
      t.wr = { s.wr with spareBs0 := (spareWith s (c.fld 0x18 4)).toNat } ∧
      ∃ x ∈ t.pp.comps, x.pipe = c.pipe ∧ x.tag = c.tag ∧ x.status = 0 ∧
        x.resA = BitVec.ofNat 64 (spareWith s (c.fld 0x18 4)).toNat :=
  ⟨_, congrArg Host.Outcome.next (runCmd_runs runs _), rfl, rfl, _, List.mem_append_right _ (List.mem_singleton_self _),
    rfl, rfl, rfl, rfl⟩

/-- Settles O50: what PREPARE_REMOVE does in each state of the link, with the removal that completes the commands that
wait for it; then the other three commands by their own rules. -/
theorem packageCommands : Obligations.PackageCommands :=
  ⟨fun _ _ _ => prepareRemove_training, fun _ _ _ => prepareRemove_draining, fun _ _ _ => prepareRemove_removable,
    prepareRemove_serving_drains, prepareRemove_away_completes, online_removable, online_other, acceptFreshness_stale,
    acceptFreshness_other, capacitySet_notes⟩

end Sys2Proof.Proofs.Packages
end

section
/-! The passes of the scrubber: their starts, visits and overruns. -/
namespace Sys2Proof.Proofs.Scrubs
open Sys2Proof Machine Safety Startup

/-! ### A scrub pass -/

/-- A pass that has begun, or visited a slot, reads back. -/
theorem scrubPass_updPass {s : State} {r : Nat} {bisque : Bool} {f : Pass → Pass} (moved : f (scrubPass s r bisque) ≠ {}) :
    scrubPass (updPass s r bisque f) r bisque = f (scrubPass s r bisque) :=
  tget_tset_val _ _ _ _ moved

/-- The rank owes the bisque pass after a dirty shutdown (R304). -/
def passDue (s : State) (r : Nat) (bisque : Bool) : Bool := bisque && decide (r ∈ s.ecc.dirtyDue)

/-- The slots that a pass counts as it begins (R302). -/
def passTotal (s : State) (r : Nat) (bisque : Bool) : Nat :=
  ((scrubStripes s r bisque).map fun x => x.2 * slotsPerLine bisque + (scrubStamps s bisque x.1).length).sum

/-- A pass at its start (R302, R304). -/
def begun (s : State) (r : Nat) (bisque due : Bool) : Pass :=
  { running := true, total := passTotal s r bisque
    step := if due then 4
      else max ((if bisque then scrubBisqueDays s else scrubGlazeDays s) * 86400 * 16000000 / max (passTotal s r bisque) 1) 4
    start := s.clk.beat, dirty := due }

/-- A rank's debt of a bisque pass is paid. -/
def paid (s : State) (r : Nat) : State := { s with ecc := { s.ecc with dirtyDue := s.ecc.dirtyDue.filter (· ≠ r) } }

/-- What a pass that may start does. -/
theorem scrubPassStart_open {s : State} {r : Rank} {bisque : Bool} (up : mediaRuns s = true) (populated : r.val ∈ s.mp.pop)
    (idle : (scrubPass s r.val bisque).running = false) (on : scrubEn s = true ∨ passDue s r.val bisque = true) :
    exec (.scrubPassStart r bisque) s = .next (
      updPass { s with ecc := { s.ecc with
        dirtyDue := if passDue s r.val bisque then s.ecc.dirtyDue.filter (· ≠ r.val) else s.ecc.dirtyDue } } r.val bisque
        fun _ => begun s r.val bisque (passDue s r.val bisque)) :=
  congrArg Host.Outcome.next (if_neg (by rw [passDue] at on; rcases on with h | h <;> simp [up, populated, idle, h]))

theorem scrubPassStart_begins (s : State) (r : Rank) (bisque : Bool) (up : mediaRuns s = true) (populated : r.val ∈ s.mp.pop)
    (idle : (scrubPass s r.val bisque).running = false) (on : scrubEn s = true) (clean : bisque = true → r.val ∉ s.ecc.dirtyDue) :
    exec (.scrubPassStart r bisque) s = .next (updPass s r.val bisque fun _ => {
      running := true
      total := ((scrubStripes s r.val bisque).map fun x => x.2 * slotsPerLine bisque + (scrubStamps s bisque x.1).length).sum
      step := max ((if bisque then scrubBisqueDays s else scrubGlazeDays s) * 86400 * 16000000 /
        max ((scrubStripes s r.val bisque).map fun x => x.2 * slotsPerLine bisque + (scrubStamps s bisque x.1).length).sum 1) 4
      start := s.clk.beat }) := by
  have due : passDue s r.val bisque = false := by simpa [passDue] using clean
  rw [scrubPassStart_open up populated idle (.inl on), due]
  simp only [begun, passTotal, Bool.false_eq_true, if_false]

theorem scrubPassStart_dirty (s : State) (r : Rank) (up : mediaRuns s = true) (populated : r.val ∈ s.mp.pop)
    (idle : (scrubPass s r.val true).running = false) (owed : r.val ∈ s.ecc.dirtyDue) :
    ∃ t, exec (.scrubPassStart r true) s = .next t ∧ (scrubPass t r.val true).step = 4 ∧ (scrubPass t r.val true).dirty = true ∧
      (scrubPass t r.val true).running = true ∧ r.val ∉ t.ecc.dirtyDue := by
  have due : passDue s r.val true = true := by simpa [passDue] using owed
  have begins : exec (.scrubPassStart r true) s =
      .next (updPass (paid s r.val) r.val true fun _ => begun s r.val true true) := by
    rw [scrubPassStart_open up populated idle (.inr due), due]
    rfl
  refine ⟨_, begins, ?_⟩
  rw [scrubPass_updPass (by simp [begun])]
  exact ⟨rfl, rfl, rfl, by simp [updPass, paid]⟩

/-! ### Visits (R302, R303) -/

/-- A pass after a visit of a slot. -/
def visited (slot : Nat) (ends : Bool) (p : Pass) : Pass :=
  { p with visited := p.visited + 1, next := slot + 1, running := !ends, dirty := p.dirty && !ends }

theorem visited_ne {slot : Nat} {ends : Bool} {p : Pass} : visited slot ends p ≠ {} := by simp [visited]

/-- A slot outside the system stripes and the stamp word lines holds a page. -/
theorem visit_data {s : State} {bisque : Bool} {slot : Nat} (outside : bsState s (slotBs slot) ≠ .system)
    (data : slotWl slot ∉ scrubStamps s bisque (slotBs slot)) :
    ¬ (bsState s (slotBs slot) = .system || slotWl slot ∈ scrubStamps s bisque (slotBs slot)) = true := by
  simp [outside, data]

section
variable {s : State} {r : Rank} {bisque : Bool} {slot : Nat} (up : mediaRuns s = true)
  (runs : (scrubPass s r.val bisque).running = true) (has : passHas s r.val bisque slot = true)
  (outside : bsState s (slotBs slot) ≠ .system) (data : slotWl slot ∉ scrubStamps s bisque (slotBs slot))
include up runs has

/-- The pass visits this slot now. -/
theorem visit_open : ¬ (!mediaRuns s || !(scrubPass s r.val bisque).running || !passHas s r.val bisque slot) = true := by
  simp [up, runs, has]

include outside data

/-- A slot of a page that cannot be told is passed over. -/
theorem scrubVisit_gone {found : List (Nat × Nat × Sensed)} (gone : ∀ skip, identFrom s slot skip = none) :
    exec (.scrubVisit r bisque slot found) s = .next (updPass (count s (1 + r.val) 0x10B 0xFF 1) r.val bisque
      (visited slot (passEnds s r.val bisque slot))) := by
  simp only [exec, execScrubVisit, if_neg (visit_open up runs has), if_neg (visit_data outside data), gone]
  rfl

/-- A slot that its page's entry names is scrubbed group by group. -/
theorem scrubVisit_valid {u : State} {page : Nat} (ident : slotIdent s slot = some page)
    (touched : u = touchSeg (fetchSeg s page) (segNo page)) (named : namesSlot u slot bisque page = true) :
    exec (.scrubVisit r bisque slot []) s = .next (updPass (count
      ((List.range 4).foldl (fun s k => scrubGroup s slot page bisque [] k) u) (1 + r.val) 0x10B 0xFF 1) r.val bisque
      (visited slot (passEnds s r.val bisque slot))) := by
  subst touched
  simp only [exec, execScrubVisit, if_neg (visit_open up runs has), if_neg (visit_data outside data), List.any_nil]
  simp only [show identFrom s slot (fun _ => false) = _ from ident, if_pos named]
  rfl

end

/-- Skipping more positions finds no identity where all of them give none. -/
theorem identFrom_none {s : State} {slot : Nat} (unknown : slotIdent s slot = none) (skip : Nat → Bool) :
    identFrom s slot skip = none := by
  simp only [slotIdent, identFrom, List.findSome?_eq_none_iff] at unknown ⊢
  intro p listed
  have here := unknown p listed
  split
  · rfl
  · next skipped => rwa [if_neg (by simp_all)] at here

theorem count_ecc (s : State) (m code qual k : Nat) : (count s m code qual k).ecc = s.ecc :=
  same_of_keeps (p := .ecc) (count_keeps (.refl _ s) rfl)

theorem count_mons (s : State) (m code qual k : Nat) :
    count s m code qual k = { s with ev := { s.ev with mons := (count s m code qual k).ev.mons } } := by
  unfold count
  split
  · rfl
  · rfl

/-! ### What a scrub of a slot leaves of the passes -/

theorem passes_of_keeps {s t : State} (h : Keeps (allBut .ecc) s t) : t.ecc.passes = s.ecc.passes :=
  congrArg EccSt.passes (same_of_keeps (p := .ecc) h)

theorem passes_foldl {α : Type} {f : State → α → State} (step : ∀ s a, (f s a).ecc.passes = s.ecc.passes) (l : List α) (s : State) :
    (l.foldl f s).ecc.passes = s.ecc.passes := by
  induction l generalizing s with
  | nil => rfl
  | cons a l ih => exact (ih _).trans (step s a)

theorem poisonEnter_passes (s : State) (dpa : Nat) (src : PoisonSource) : (poisonEnter s dpa src).ecc.passes = s.ecc.passes := by
  unfold poisonEnter
  extract_lets
  split_ifs <;> rfl

theorem poisonWhole_passes (s : State) (page : Nat) : (poisonWhole s page).ecc.passes = s.ecc.passes := by
  unfold poisonWhole
  extract_lets unmapped
  have unmaps : unmapped.ecc.passes = s.ecc.passes := passes_of_keeps (unmapPage_keeps (fetchSeg_keeps (.refl _ s) rfl) rfl)
  clear_value unmapped
  rw [passes_foldl fun s i => poisonEnter_passes s (dpaOf page i) .internal, unmaps]

theorem poisonFromMedia_passes (s : State) (page line slot tx : Nat) :
    (poisonFromMedia s page line slot tx).ecc.passes = s.ecc.passes := by
  unfold poisonFromMedia
  extract_lets r entered counted told
  have tells : told.ecc.passes = s.ecc.passes :=
    (passes_of_keeps (s := counted) (raiseAddr_keeps (.refl _ _) rfl)).trans (poisonEnter_passes s _ _)
  split_ifs
  · rfl
  · exact (poisonWhole_passes told page).trans tells
  · exact (passes_of_keeps (placeMarker_keeps (.refl _ told) rfl)).trans tells

theorem bucketEvent_passes (s : State) (r : Nat) : (bucketEvent s r).ecc.passes = s.ecc.passes := by
  unfold bucketEvent
  extract_lets corrected counted overflowed
  have counts : counted.ecc.passes = s.ecc.passes := (congrArg EccSt.passes (count_ecc corrected _ _ _ _) :)
  split_ifs
  · exact counts
  · exact counts
  · exact (passes_of_keeps (raise_keeps (.refl _ _) rfl)).trans counts

theorem correctionEvent_passes (s : State) (rank page : Nat) : (correctionEvent s rank page).ecc.passes = s.ecc.passes := by
  unfold correctionEvent
  extract_lets fetched
  have fetches : fetched.ecc.passes = s.ecc.passes :=
    (passes_of_keeps (fetchSeg_keeps (.refl _ _) rfl)).trans (bucketEvent_passes s rank)
  split
  · exact fetches
  · next e _ =>
    extract_lets t queue tallied
    have tallies : tallied.ecc.passes = s.ecc.passes := (passes_of_keeps (setEntry_keeps (.refl _ fetched) rfl)).trans fetches
    split
    · exact tallies
    · exact tallies

theorem scrubGroup_passes (s : State) (slot page : Nat) (bisque : Bool) (found : List (Nat × Nat × Sensed)) (u : Nat) :
    (scrubGroup s slot page bisque found u).ecc.passes = s.ecc.passes := by
  unfold scrubGroup
  extract_lets e g out erased events gone lost bad marked corrected rewritten medium settled
  have marks : marked.ecc.passes = s.ecc.passes := passes_foldl (fun s _ => poisonFromMedia_passes s _ _ _ _) bad s
  have corrects : corrected.ecc.passes = marked.ecc.passes := passes_foldl (fun s _ => correctionEvent_passes s _ _) events marked
  have rewrites : rewritten.ecc.passes = corrected.ecc.passes :=
    passes_of_keeps (.ite (rewriteGroup_keeps (.refl _ corrected) rfl) (.refl _ corrected))
  have settles : settled.ecc.passes = rewritten.ecc.passes := by
    unfold settled
    split_ifs <;> rfl
  have all := ((settles.trans rewrites).trans corrects).trans marks
  split_ifs
  · exact passes_foldl (fun s _ => poisonFromMedia_passes s _ _ _ _) lost s
  · exact (passes_of_keeps (queueRefresh_keeps (.refl _ settled) rfl)).trans all
  · exact all

/-! ### The obligation's clauses about passes -/

/-- Where a visit left the passes, the pass counts it. -/
theorem scrubPass_visited {s u : State} {r : Nat} {bisque : Bool} {slot : Nat} {ends : Bool} (same : u.ecc.passes = s.ecc.passes) :
    scrubPass (updPass u r bisque (visited slot ends)) r bisque = visited slot ends (scrubPass s r bisque) := by
  rw [scrubPass_updPass visited_ne, scrubPass, same]
  rfl

/-- A change of a pass sets it to the value that it then has. -/
theorem updPass_const {s : State} {r : Nat} {bisque : Bool} {f : Pass → Pass} (moved : f (scrubPass s r bisque) ≠ {}) :
    updPass s r bisque f = updPass s r bisque fun _ => scrubPass (updPass s r bisque f) r bisque := by
  rw [scrubPass_updPass moved]
  rfl

theorem scrubVisit_passesOver (s : State) (r : Rank) (bisque : Bool) (slot : Nat) (found : List (Nat × Nat × Sensed))
    (up : mediaRuns s = true) (runs : (scrubPass s r.val bisque).running = true) (has : passHas s r.val bisque slot = true)
    (outside : bsState s (slotBs slot) ≠ .system) (data : slotWl slot ∉ scrubStamps s bisque (slotBs slot))
    (unknown : slotIdent s slot = none) :
    ∃ t, exec (.scrubVisit r bisque slot found) s = .next t ∧
      (scrubPass t r.val bisque).visited = (scrubPass s r.val bisque).visited + 1 ∧
      (scrubPass t r.val bisque).next = slot + 1 ∧
      (scrubPass t r.val bisque).running = !passEnds s r.val bisque slot ∧
      t = { s with ecc := { s.ecc with passes := t.ecc.passes }, ev := { s.ev with mons := t.ev.mons } } := by
  refine ⟨_, scrubVisit_gone up runs has outside data (identFrom_none unknown), ?_⟩
  rw [scrubPass_visited (congrArg EccSt.passes (count_ecc s _ _ _ _) :)]
  refine ⟨rfl, rfl, rfl, ?_⟩
  rw [count_mons]
  rfl

theorem scrubVisit_scrubs (s u : State) (r : Rank) (bisque : Bool) (slot page : Nat) (up : mediaRuns s = true)
    (runs : (scrubPass s r.val bisque).running = true) (has : passHas s r.val bisque slot = true)
    (outside : bsState s (slotBs slot) ≠ .system) (data : slotWl slot ∉ scrubStamps s bisque (slotBs slot))
    (ident : slotIdent s slot = some page) (touched : u = touchSeg (fetchSeg s page) (segNo page))
    (named : namesSlot u slot bisque page = true) :
    ∃ t, exec (.scrubVisit r bisque slot []) s = .next t ∧
      (scrubPass t r.val bisque).visited = (scrubPass s r.val bisque).visited + 1 ∧ (scrubPass t r.val bisque).next = slot + 1 ∧
      t = updPass (count ((List.range 4).foldl (fun s k => scrubGroup s slot page bisque [] k) u) (1 + r.val) 0x10B 0xFF 1)
        r.val bisque fun _ => scrubPass t r.val bisque := by
  refine ⟨_, scrubVisit_valid up runs has outside data ident touched named, ?_⟩
  have fetched : u.ecc.passes = s.ecc.passes := by
    rw [touched]
    exact passes_of_keeps (touchSeg_keeps (fetchSeg_keeps (.refl _ s) rfl) rfl)
  have scrubbed : ((List.range 4).foldl (fun s k => scrubGroup s slot page bisque [] k) u).ecc.passes = s.ecc.passes := by
    rw [passes_foldl fun s k => scrubGroup_passes s slot page bisque [] k, fetched]
  generalize (List.range 4).foldl (fun s k => scrubGroup s slot page bisque [] k) u = w at scrubbed ⊢
  have counted : (count w (1 + r.val) 0x10B 0xFF 1).ecc.passes = s.ecc.passes := by rw [count_ecc, scrubbed]
  generalize count w (1 + r.val) 0x10B 0xFF 1 = x at counted ⊢
  have pass := scrubPass_visited (r := r.val) (bisque := bisque) (slot := slot) (ends := passEnds s r.val bisque slot) counted
  exact ⟨congrArg Pass.visited pass, congrArg Pass.next pass, updPass_const visited_ne⟩

/-! ### Overruns (R302) -/

theorem startPass_overruns (s : State) (r : Nat) (bisque : Bool) : (startPass s r bisque).ecc.overruns = s.ecc.overruns := by
  unfold startPass
  extract_lets due n days step owed
  split_ifs <;> rfl

theorem scrubOverrun_counts (s : State) (r : Rank) (bisque : Bool) (runs : (scrubPass s r.val bisque).running = true)
    (plain : (scrubPass s r.val bisque).dirty = false)
    (late : (scrubPass s r.val bisque).start + (if bisque then scrubBisqueDays s else scrubGlazeDays s) * 86400 * 16000000 <
      s.clk.beat) :
    ∃ t, exec (.scrubOverrun r bisque) s = .next t ∧ t.ecc.overruns = satAdd 16 s.ecc.overruns 1 := by
  have overrun : ((scrubPass s r.val bisque).running && !(scrubPass s r.val bisque).dirty && decide
      ((scrubPass s r.val bisque).start + (if bisque then scrubBisqueDays s else scrubGlazeDays s) * 86400 * 16000000 <
        s.clk.beat)) = true := by
    simp only [runs, plain, late, Bool.not_false, Bool.and_self, decide_true]
  refine ⟨_, congrArg Host.Outcome.next (if_pos overrun), ?_⟩
  rw [startPass_overruns]
  exact congrArg EccSt.overruns (same_of_keeps (p := .ecc) (raise_keeps (.refl _ _) rfl))

theorem scrubOverrun_idle (s : State) (r : Rank) (bisque : Bool) (idle : (scrubPass s r.val bisque).running = false) :
    exec (.scrubOverrun r bisque) s = .next s :=
  congrArg Host.Outcome.next (if_neg (by simp [idle]))

end Sys2Proof.Proofs.Scrubs
end

section
/-! Package alerts, dies that fail and rebuilds; the obligation about scrubs, alerts and rebuilds. -/
namespace Sys2Proof.Proofs.Rebuilds
open Sys2Proof Machine Safety Startup Scrubs

/-! ### Package alerts (R105, R323) -/

theorem alert_answered (s u : State) (l : LinkNo) (details : BusTries (Option DieNo)) (alert : (link s l.val).alert = true)
    (serves : (link s l.val).state.serves = true)
    (asked : u = busRead { s with freeCtr := s.freeCtr + 2 } l.val (Config.freeWord s.freeCtr).toNat
      (Config.freeWord (s.freeCtr + 1)).toNat (busAttempts details)) :
    (busAnswer details = some none →
      exec (.packageAlertDetails l details) s = .next (updLink u l.val fun l => { l with alert := false })) ∧
    (∀ d : DieNo, busAnswer details = some (some d) →
      exec (.packageAlertDetails l details) s = .next (failDie (updLink u l.val fun l => { l with alert := false }) l.val d.val)) ∧
    (busAnswer details = none → exec (.packageAlertDetails l details) s = .next u) := by
  have open_ : ¬ (!(link s l.val).alert || !(link s l.val).state.serves) = true := by simp [alert, serves]
  subst asked
  refine ⟨fun came => ?_, fun d came => ?_, fun came => ?_⟩ <;>
    simp only [exec, execPackageAlertDetails, if_neg open_, came] <;> rfl

theorem alert_none (s : State) (l : LinkNo) (details : BusTries (Option DieNo)) (calm : (link s l.val).alert = false) :
    exec (.packageAlertDetails l details) s = .next s :=
  congrArg Host.Outcome.next (if_pos (by simp [calm]))

/-! ### A die fails (R72, R323, R324) -/

theorem checkSpareStripes_wearLinks (s : State) : (checkSpareStripes s).wr.links = s.wr.links := by
  have exhausts : (exhaust s 0).wr.links = s.wr.links := by
    unfold exhaust
    split
    · rfl
    · exact (congrArg WearSt.links (raise_same _ 0x36 srcDevice 0 0 0 0).2.2).trans rfl
  unfold checkSpareStripes
  split
  · exact exhausts
  · rfl

theorem degradeStripe_wearLinks (s : State) (bs : Nat) : (degradeStripe s bs).wr.links = s.wr.links := by
  unfold degradeStripe
  extract_lets +onlyGivenNames st r marked
  have marks : marked.wr = s.wr := rfl
  clear_value st marked
  refine (checkSpareStripes_wearLinks _).trans (congrArg WearSt.links (Eq.trans ?_ marks))
  split
  case h_1 =>
    split
    · rfl
    · exact same_of_keeps (p := .wr) (failProgram_keeps (.refl _ marked) rfl)
  all_goals rfl

/-- What clears a rank for a rebuild leaves the wear. -/
theorem clearForRebuild_wear (s : State) (r : Nat) (covers : Nat → Bool) : (clearForRebuild s r covers).wr = s.wr :=
  same_of_keeps (p := .wr) (clearForRebuild_keeps (.refl _ s) rfl)

theorem linkWear_updLinkWear_here {s : State} {n : Nat} {f : LinkWear → LinkWear} (marked : f (linkWear s n) ≠ {}) :
    linkWear (updLinkWear s n f) n = f (linkWear s n) :=
  tget_tset_val _ _ _ _ marked

/-- Blocks that are retired for a substitute leave every link's wear. -/
theorem degraded_wearLinks (l : List Nat) (f : Nat → Nat) (s : State) :
    (l.foldl (fun s b => degradeStripe s (f b)) s).wr.links = s.wr.links := by
  induction l generalizing s with
  | nil => rfl
  | cons b l ih => exact (ih _).trans (degradeStripe_wearLinks s (f b))

/-- The failure of a die is told. -/
def diedAt (s : State) (n d : Nat) : State := raise s 0x31 (n / 18) n d 0 0

theorem linkWear_diedAt (s : State) (n d : Nat) : linkWear (diedAt s n d) n = linkWear s n := by
  rw [linkWear, show (diedAt s n d).wr = s.wr from (raise_same s 0x31 (n / 18) n d 0 0).2.2]
  rfl

theorem pkgOf_diedAt (s : State) (n d : Nat) : pkgOf (diedAt s n d) n = pkgOf s n := by
  rw [pkgOf, link, show (diedAt s n d).ln = s.ln from same_of_keeps (p := .ln) (raise_keeps (.refl _ s) rfl)]
  rfl

/-- Die 16 takes the place of a die that fails (R324). -/
def substituted (d at_ : Nat) (w : LinkWear) : LinkWear :=
  { w with subst := true, substDie := d, substAt := at_, dieBits := [], dieActive := true }

/-- A die that fails and has no substitute is an erasure (R323). -/
def erasedDie (d : Nat) (w : LinkWear) : LinkWear := { w with erased := addNew w.erased d }

section
variable {s : State} {n d : Nat} (data : d < 16) (fresh : d ∉ (linkWear s n).erased)
include data fresh

/-- A data die fails that had not failed; what follows is decided after the event. -/
theorem failDie_fails : failDie s n d =
    if !(linkWear s n).subst && (pkgOf s n).dieGood.getLsbD 16 then
      clearForRebuild ((((pkgOf s n).bbl.filter fun x => x.1 = 16).map (·.2)).foldl (fun s b => degradeStripe s (bsNo (n / 18) d b))
        (updLinkWear (diedAt s n d) n (substituted d (diedAt s n d).clk.seconds))) (n / 18) fun bs => bsDie bs = d
    else updLinkWear (diedAt s n d) n (erasedDie d) := by
  have other : d ≠ 16 := by omega
  unfold failDie
  simp only [other, fresh, if_false, ne_eq, not_false_eq_true, decide_false, decide_true, Bool.false_and, Bool.or_false,
    Bool.false_eq_true, Bool.true_and]
  rw [show raise s 0x31 (n / 18) n d 0 0 = diedAt s n d from rfl, pkgOf_diedAt]
  rfl

/-- Die 16 is good and unused: it takes the die's place, and its rebuild starts (R324). -/
theorem failDie_substituted (unused : (linkWear s n).subst = false) (good : (pkgOf s n).dieGood.getLsbD 16 = true) :
    (linkWear (failDie s n d) n).subst = true ∧ (linkWear (failDie s n d) n).substDie = d ∧
      (linkWear (failDie s n d) n).dieActive = true ∧ (linkWear (failDie s n d) n).dieBits = [] := by
  have record : linkWear (failDie s n d) n = substituted d (diedAt s n d).clk.seconds (linkWear (diedAt s n d) n) := by
    rw [failDie_fails data fresh, if_pos (by rw [unused, good]; rfl), linkWear, clearForRebuild_wear, degraded_wearLinks]
    exact linkWear_updLinkWear_here fun e => by simpa [substituted] using congrArg LinkWear.subst e
  rw [record]
  exact ⟨rfl, rfl, rfl, rfl⟩

end

theorem mem_addNew (l : List Nat) (x : Nat) : x ∈ addNew l x := by
  unfold addNew
  split
  · assumption
  · simp

/-- Without a substitute the die is an erasure from now on, if it was not already (R323). -/
theorem failDie_erased (s : State) (n d : Nat) (data : d < 16)
    (unserved : (linkWear s n).subst = true ∨ (pkgOf s n).dieGood.getLsbD 16 = false) : d ∈ (linkWear (failDie s n d) n).erased := by
  by_cases fresh : d ∈ (linkWear s n).erased
  · have other : d ≠ 16 := by omega
    have same : failDie s n d = s := if_pos (by simp [other, fresh])
    rw [same]
    exact fresh
  · have erased := mem_addNew (linkWear (diedAt s n d) n).erased d
    rw [failDie_fails data fresh, if_neg (by rcases unserved with h | h <;> rw [h] <;> simp), linkWear_updLinkWear_here]
    · exact erased
    · exact fun e => List.ne_nil_of_mem erased (congrArg LinkWear.erased e)

/-! ### Rebuilds (R327, R328, R330) -/

section
variable {s : State} {l : LinkNo} {bs : StripeNo} (up : mediaRuns s = true) (rebuilds : (linkWear s l.val).rebuilding = true)
  (serves : (link s l.val).state.serves = true) (rank : bsRank bs.val = l.val / 18)
  (turn : nextRebuild s (targetLeft s l.val false) = some bs.val)
include up rebuilds serves rank turn

/-- The rebuild of a link has come to this stripe. -/
theorem rebuild_open : ¬ (!mediaRuns s || !((linkWear s l.val).rebuilding && (link s l.val).state.serves) ||
    bsRank bs.val ≠ l.val / 18 || nextRebuild s (targetLeft s l.val false) ≠ some bs.val) = true := by
  simp [up, rebuilds, serves, rank, turn]

theorem rebuildStripe_bisque (bisque : (stripe s bs.val).bisque = true)
    (more : targetLeft (updLinkWear s l.val fun w => { w with linkBits := addNew w.linkBits bs.val }) l.val false ≠ []) :
    exec (.rebuildStripeDone l none bs) s = .next (updLinkWear s l.val fun w => { w with linkBits := addNew w.linkBits bs.val }) := by
  refine congrArg Host.Outcome.next ((if_neg (rebuild_open up rebuilds serves rank turn)).trans ?_)
  simp only [bisque, Bool.not_true, Bool.and_false, Bool.false_and, Bool.false_eq_true, if_false]
  exact if_neg (by simpa using more)

theorem rebuildStripe_worn (glaze : (stripe s bs.val).bisque = false) (full : (stripe s bs.val).state = .full)
    (worn : 20000 ≤ (stripe s bs.val).cycles) (free : (rankPl s (l.val / 18)).victim = none) :
    exec (.rebuildStripeDone l none bs) s = .next (makeVictim s (l.val / 18) bs.val) :=
  congrArg Host.Outcome.next ((if_neg (rebuild_open up rebuilds serves rank turn)).trans
    ((if_pos (by simp [glaze, full, worn])).trans (if_pos (by simp [free]))))

end

theorem rebuildStripe_stopped (s : State) (l : LinkNo) (die : Option (Fin 16)) (bs : StripeNo) (down : mediaRuns s = false) :
    exec (.rebuildStripeDone l die bs) s = .next s :=
  congrArg Host.Outcome.next (if_pos (by simp [down]))

/-- Settles O34: a pass's start, visits and overrun by the rule of each, and alerts, failed dies and rebuilt stripes by
what stays of the links' wear. -/
theorem scrubsAlertsAndRebuilds : Obligations.ScrubsAlertsAndRebuilds :=
  ⟨⟨scrubPassStart_begins, scrubPassStart_dirty, scrubVisit_passesOver, scrubVisit_scrubs, scrubOverrun_counts,
      scrubOverrun_idle⟩,
    alert_answered, alert_none, fun _ _ _ => failDie_substituted, failDie_erased,
    fun _ _ _ => rebuildStripe_bisque, fun _ _ _ => rebuildStripe_worn, rebuildStripe_stopped⟩

end Sys2Proof.Proofs.Rebuilds
end

section
/-! Map entries as words, and the full stamp of a line. -/
namespace Sys2Proof.Proofs.MapWords
open Sys2Proof Machine

/-! ### The stamp window (R124) -/

/-- The rebuilt stamp keeps the low bits and lies in the window around the page's stamp. -/
theorem fullStamp_inWindow (S lo : Nat) (low : lo < 2 ^ 40) (room : 2 ^ 39 ≤ S) :
    fullStamp lo S % 2 ^ 40 = lo ∧ S ≤ fullStamp lo S + 2 ^ 39 ∧ fullStamp lo S < S + 2 ^ 39 := by
  simp only [fullStamp]
  split_ifs <;> omega

/-- A stamp of the window is rebuilt from its low bits. -/
theorem fullStamp_of_inWindow (S T : Nat) (above : S ≤ T + 2 ^ 39) (below : T < S + 2 ^ 39) :
    fullStamp (T % 2 ^ 40) S = T := by
  simp only [fullStamp]
  split_ifs <;> omega

/-- Settles O25: a window of 2^40 values holds each residue once. -/
theorem fullStampIsTheOne : Obligations.FullStampIsTheOne := ⟨fullStamp_inWindow, fullStamp_of_inWindow⟩

/-! ### The fields of a map entry (R127, R128) -/

/-- The places of an entry's fields: each is read back from the number that lays them side by side. -/
theorem fields_read {n glaze bisque stamp mask state domain flags count epoch tally : Nat}
    (layout : n = glaze + bisque * 2 ^ 40 + stamp * 2 ^ 80 + mask * 2 ^ 144 + state * 2 ^ 208 + domain * 2 ^ 212 +
      flags * 2 ^ 216 + (count + epoch * 2 ^ 12) * 2 ^ 224 + tally * 2 ^ 240)
    (hg : glaze < 2 ^ 40) (hb : bisque < 2 ^ 40) (hs : stamp < 2 ^ 64) (hm : mask < 2 ^ 64) (hst : state < 2 ^ 4)
    (hd : domain < 2 ^ 4) (hf : flags < 2 ^ 8) (hc : count < 2 ^ 12) (he : epoch < 2 ^ 4) (ht : tally < 2 ^ 8) :
    n / 2 ^ 0 % 2 ^ 40 = glaze ∧ n / 2 ^ 40 % 2 ^ 40 = bisque ∧ n / 2 ^ 80 % 2 ^ 64 = stamp ∧ n / 2 ^ 144 % 2 ^ 64 = mask ∧
      n / 2 ^ 208 % 2 ^ 4 = state ∧ n / 2 ^ 212 % 2 ^ 4 = domain ∧ n / 2 ^ 216 % 2 ^ 8 = flags ∧
      n / 2 ^ 224 % 2 ^ 12 = count ∧ n / 2 ^ 236 % 2 ^ 4 = epoch ∧ n / 2 ^ 240 % 2 ^ 8 = tally := by
  refine ⟨?_, ?_, ?_, ?_, ?_, ?_, ?_, ?_, ?_, ?_⟩ <;> omega

/-- FLAGS lie in one byte, each at its bit. -/
theorem entryFlags_bits (e : MapEntry) : entryFlags e < 2 ^ 8 ∧ (entryFlags e).testBit 0 = e.poisonRest ∧
    (entryFlags e).testBit 1 = e.pin ∧ (entryFlags e).testBit 2 = e.regime ∧ (entryFlags e).testBit 3 = e.secure ∧
    (entryFlags e).testBit 4 = e.refresh := by
  simp only [entryFlags]
  generalize e.poisonRest = a, e.pin = b, e.regime = c, e.secure = d, e.refresh = f
  revert a b c d f
  decide

theorem pageStateOf_code (st : PageState) : pageStateOf st.code = some st := by cases st <;> rfl

theorem code_lt (st : PageState) : st.code < 6 := by cases st <;> decide

/-- A reserved STATE is no page state. -/
theorem pageStateOf_reserved {n : Nat} (reserved : 6 ≤ n) : pageStateOf n = none := by
  obtain ⟨k, rfl⟩ := Nat.exists_eq_add_of_le' reserved
  rfl

/-- An entry's word is the sum of its fields at their places. -/
theorem word_toNat (e : MapEntry) (hg : e.glazeHome < 2 ^ 40) (hb : e.bisqueHome < 2 ^ 40) (hs : e.stamp < 2 ^ 64)
    (hd : e.domain < 16) (ht : e.tally < 256) (hep : e.heatEpoch < 16) (hc : e.heatCount < 4096) :
    e.word.toNat = e.glazeHome + e.bisqueHome * 2 ^ 40 + e.stamp * 2 ^ 80 + e.mask.toNat * 2 ^ 144 + e.state.code * 2 ^ 208 +
      e.domain * 2 ^ 212 + entryFlags e * 2 ^ 216 + (e.heatCount + e.heatEpoch * 2 ^ 12) * 2 ^ 224 + e.tally * 2 ^ 240 := by
  have hm := e.mask.isLt
  have hst := code_lt e.state
  have hf := (entryFlags_bits e).1
  simp only [MapEntry.word, BitVec.toNat_ofNat]
  omega

/-- Bit `k` of FLAGS is bit 216 + k of the word. -/
theorem flag_read (w : BitVec 256) (k : Nat) (byte : k < 8) : w.getLsbD (216 + k) = (w.toNat / 2 ^ 216 % 2 ^ 8).testBit k := by
  rw [Nat.testBit_mod_two_pow, decide_eq_true byte, Bool.true_and, Nat.testBit_div_two_pow, Nat.add_comm]
  rfl

/-- An entry within its widths is read back whole. -/
theorem entryOfWord_word (e : MapEntry) (hg : e.glazeHome < 2 ^ 40) (hb : e.bisqueHome < 2 ^ 40) (hs : e.stamp < 2 ^ 64)
    (hd : e.domain < 16) (ht : e.tally < 256) (hep : e.heatEpoch < 16) (hc : e.heatCount < 4096) :
    entryOfWord e.word = some e := by
  obtain ⟨byte, poisonRest, pin, regime, secure, refresh⟩ := entryFlags_bits e
  obtain ⟨glaze, bisque, stamp, mask, state, domain, flags, count, epoch, tally⟩ :=
    fields_read (word_toNat e hg hb hs hd ht hep hc) hg hb hs e.mask.isLt (Nat.lt_trans (code_lt e.state) (by decide)) hd
      byte hc hep ht
  have bit (i k : Nat) (place : i = 216 + k) (inside : k < 8) : e.word.getLsbD i = (entryFlags e).testBit k := by
    rw [place, flag_read _ k inside, flags]
  simp only [entryOfWord, glaze, bisque, stamp, mask, state, domain, count, epoch, tally, pageStateOf_code,
    bit 216 0 rfl (by decide), bit 217 1 rfl (by decide), bit 218 2 rfl (by decide), bit 219 3 rfl (by decide),
    bit 220 4 rfl (by decide), poisonRest, pin, regime, secure, refresh, BitVec.ofNat_toNat, BitVec.setWidth_eq, Option.map_some]

/-- Settles O6: the fields lie side by side, so each is read back, and a reserved STATE is read as none. -/
theorem mapEntriesRoundTrip : Obligations.MapEntriesRoundTrip :=
  ⟨entryOfWord_word, fun _ reserved => congrArg (Option.map _) (pageStateOf_reserved reserved)⟩

end Sys2Proof.Proofs.MapWords
end

section
/-! The entries that the map cache holds: what a look, a fill and a write of one do. -/
namespace Sys2Proof.Proofs.MapEntries
open Sys2Proof Machine

/-! ### What the map cache decides -/

theorem cacheSeg_of_cache {s t : State} (same : t.mp.cache = s.mp.cache) (g : Nat) : cacheSeg t g = cacheSeg s g := by
  simp only [cacheSeg, same]

theorem entry?_of_cache {s t : State} (same : t.mp.cache = s.mp.cache) (page : Nat) : entry? t page = entry? s page := by
  simp only [entry?, cacheSeg_of_cache same]

/-- A segment just put into the cache is there. -/
theorem cacheSeg_setSeg (s : State) (g : Nat) (c : CacheSeg) : cacheSeg (setSeg s g (some c)) g = some c :=
  tget_tset_val _ _ _ _ (by simp)

/-! ### Writing an entry (R148, R149) -/

/-- A write of an entry changes the map cache alone. -/
theorem setEntry_frame (s : State) (page : Nat) (e : MapEntry) :
    setEntry s page e = { s with mp := { s.mp with cache := (setEntry s page e).mp.cache } } := by
  unfold setEntry
  split <;> rfl

/-- A written entry reads back: the page's segment is cached. -/
theorem entry?_setEntry {s : State} {page : Nat} {old : MapEntry} (cached : entry? s page = some old) (e : MapEntry) :
    entry? (setEntry s page e) page = some e := by
  obtain ⟨c, seg, listed⟩ := Option.bind_eq_some_iff.1 cached
  have inside : page % 8 < c.entries.length := (List.getElem?_eq_some_iff.1 listed).1
  have written : (c.entries.set (page % 8) e)[page % 8]? = some e := List.getElem?_set_self inside
  have ofSeg (c' : CacheSeg) (h : c'.entries = c.entries.set (page % 8) e) :
      entry? (setSeg s (segNo page) (some c')) page = some e := by
    simp only [entry?, cacheSeg_setSeg, Option.bind_some, h, written]
  simp only [setEntry, seg]
  refine ofSeg _ ?_
  split_ifs <;> rfl

/-! ### Fills of the cache (R147, R148) -/

/-- Putting a segment into the cache changes the cache and what waits for its ways. -/
theorem putSeg_frame (s : State) (g : Nat) (es : List MapEntry) : putSeg s g es = { s with mp := { s.mp with
    cache := (putSeg s g es).mp.cache, lruClock := (putSeg s g es).mp.lruClock, fills := (putSeg s g es).mp.fills
    wayWaits := (putSeg s g es).mp.wayWaits } } := by
  have chooses (u : State) : chooseWay u g = { u with mp := { u.mp with cache := (chooseWay u g).mp.cache } } := by
    simp only [chooseWay]
    split
    · rfl
    · split <;> rfl
  simp only [putSeg]
  split
  · rfl
  · split
    · rfl
    · rw [chooses]
      rfl

theorem fetchSeg_frame (s : State) (page : Nat) : fetchSeg s page = { s with mp := { s.mp with
    cache := (fetchSeg s page).mp.cache, lruClock := (fetchSeg s page).mp.lruClock, fills := (fetchSeg s page).mp.fills
    wayWaits := (fetchSeg s page).mp.wayWaits } } := by
  unfold fetchSeg
  split
  · rfl
  · exact putSeg_frame ..

end Sys2Proof.Proofs.MapEntries
end

section
/-! What a range command does to one page. -/
namespace Sys2Proof.Proofs.RangePages
open Sys2Proof Machine MapEntries Rebuilds

/-- A seal that stands is cancelled, which changes the power state alone (R541). -/
theorem cancelSeal_standing (s : State) :
    cancelSeal s = { s with pwr := (cancelSeal s).pwr } ∧ (cancelSeal s).pwr.standing = false := by
  unfold cancelSeal
  split
  · exact ⟨rfl, rfl⟩
  · next down => exact ⟨rfl, by simpa using down⟩

/-! ### Discards and ZERO (R130, R260, R443, R456) -/

section
variable {s : State} {page cmd : Nat} {e : MapEntry} (found : entry? (fetchSeg s page) page = some e)
include found

theorem discardPage_mapped (free : pageWaits (fetchSeg s page) page = false) (mapped : e.state ≠ .unmapped)
    (fresh : e.state ≠ .discardPending) :
    discardPage s page = some (let t := setEntry (dropLines (fetchSeg s page) page) page { e with state := .discardPending }
      { t with pl := { t.pl with dropsDue := addNew t.pl.dropsDue page } }) := by
  simp only [discardPage, found, free, Bool.false_eq_true, if_false]

theorem pages_wait (held : pageWaits (fetchSeg s page) page = true) : discardPage s page = none ∧ zeroPage s page = none := by
  simp only [discardPage, zeroPage, found, held, if_true, and_self]

theorem zeroPage_unmaps (free : pageWaits (fetchSeg s page) page = false) :
    ∃ t, zeroPage s page = some t ∧ page ∉ t.pl.dropsDue ∧
      t = { unmapPage (poisonLeavePage (dropLines (fetchSeg s page) page) page) page .unmapped with
        pl := { (unmapPage (poisonLeavePage (dropLines (fetchSeg s page) page) page) page .unmapped).pl with
          dropsDue := t.pl.dropsDue } } := by
  simp only [zeroPage, found, free, Bool.false_eq_true, if_false]
  exact ⟨_, rfl, by simp, rfl⟩

/-- A secure discard starts on a page that no drain, firing, secure discard or relocation holds. -/
theorem securePage_starts (still : inDrain (fetchSeg s page) page = false)
    (unfired : inFiring (fetchSeg s page) page = false) (plain : inSecure (fetchSeg s page) page = false)
    (stays : page ∉ (fetchSeg s page).pl.relocating) :
    ∃ t, securePage s page cmd = some t ∧ t.pwr.standing = false ∧ entry? t page = some { e with secure := true } ∧
      t.pl.secure = (fetchSeg s page).pl.secure ++ [{ page := page, step := 1, admittedBefore := s.clk.beat, cmd := cmd }] := by
  have beat : (fetchSeg s page).clk = s.clk := by rw [fetchSeg_frame]
  simp only [securePage, found, still, unfired, plain, stays, decide_false, Bool.or_false, Bool.false_eq_true, if_false]
  generalize fetchSeg s page = u at found beat ⊢
  obtain ⟨same, down⟩ := cancelSeal_standing u
  have written := setEntry_frame (cancelSeal u) page { e with secure := true }
  refine ⟨_, rfl, ?_, ?_, ?_⟩
  · rw [written]
    exact down
  · exact entry?_setEntry ((entry?_of_cache (congrArg (fun t => t.mp.cache) same) page).trans found) _
  · rw [written, same, ← beat]

/-! ### Hints (R229) -/

theorem hintPage_kinds (kind : Nat) :
    (kind = 0 → hintPage s page kind = some (setEntry (fetchSeg s page) page (setHeat s.pl.heatEpoch 4095 e))) ∧
    (kind = 1 → hintPage s page kind = some (setEntry (fetchSeg s page) page { e with heatCount := 0 })) ∧
    (kind = 3 → hintPage s page kind = some (setEntry (fetchSeg s page) page { e with pin := false })) ∧
    (kind = 2 → ∃ t, hintPage s page kind = some t ∧ entry? t page = some { e with pin := true } ∧
      ((e.state = .glaze ∨ e.state = .split) → page ∈ t.pl.refreshes)) := by
  have epoch : (fetchSeg s page).pl = s.pl := by rw [fetchSeg_frame]
  have pinned := entry?_setEntry found { e with pin := true }
  refine ⟨?hot, ?cold, ?unpin, ?pin⟩ <;> rintro rfl <;> simp only [hintPage, found]
  case hot => rw [epoch]; rfl
  case cold => rfl
  case unpin => rfl
  case pin =>
    rw [if_neg (by decide), if_neg (by decide), if_neg (by decide)]
    by_cases glazed : e.state = .glaze ∨ e.state = .split
    · exact ⟨_, if_pos (by simpa using glazed), (entry?_of_cache rfl page).trans pinned, fun _ => mem_addNew _ _⟩
    · exact ⟨_, if_neg (by simpa using glazed), pinned, fun h => absurd h glazed⟩
end

/-! ### A page of a running command (R443, R456, R457, R459) -/

section
variable {s t : State} {c : Cmd} {page : Nat} (due : page ∈ c.todo)
include due

theorem actOn_discard (op : c.op = 0x0200) (plain : c.fld 0x28 1 ≠ 1) (acts : discardPage s page = some t) :
    actOn s c page = pageDone t c page false [] := by
  simp only [actOn, due, op, plain, acts, not_true, if_false, if_true]

theorem actOn_zero (op : c.op = 0x0210) (acts : zeroPage s page = some t) :
    actOn s c page = pageDone t c page true [] := by
  simp [actOn, due, op, acts]

theorem actOn_copy (op : c.op = 0x0211)
    (acts : copyPages s page (page - c.fld 0x18 8 / 4096 + c.fld 0x20 8 / 4096) = some t) :
    actOn s c page = pageDone t c page false [] := by
  simp [actOn, due, op, acts]

theorem actOn_scan (op : c.op = 0x0400) :
    actOn s c page = pageDone (scanPage s page).1 c page false (scanPage s page).2 := by
  simp [actOn, due, op]

end

theorem actOn_other {s : State} {c : Cmd} {page : Nat} (other : page ∉ c.todo) : actOn s c page = s := if_pos other

/-- A PIN at a page of a rank without room ends with PIN_LIMIT and the pages that it has done. -/
theorem actOn_pinLimit {s : State} {c : Cmd} {page : Nat} (first : c.todo.head? = some page) (op : c.op = 0x0300)
    (pin : c.fld 0x28 1 = 2) (unpinned : (entryNow s page).pin = false) (full : pinRoom s (pinRank s page) = false) :
    actOn s c page = finishCmd s c 9 0 (BitVec.ofNat 64 c.donePages) 0 := by
  have due : page ∈ c.todo := List.mem_of_head? first
  have limit : pinFull s c page = true := by simp [pinFull, op, pin, unpinned, full]
  simp [actOn, due, op, pin, first, limit]

/-- Settles O54: each action point by what it does to the page, and a command's page by its action point. -/
theorem actionPointsOfPages : Obligations.ActionPointsOfPages :=
  ⟨fun _ _ _ => discardPage_mapped, fun _ _ _ => pages_wait, fun _ _ _ => zeroPage_unmaps,
    fun _ _ _ _ => securePage_starts, fun _ _ kind _ found => hintPage_kinds found kind, fun _ _ _ => actOn_other,
    fun _ _ _ _ => actOn_discard, fun _ _ _ _ => actOn_zero, fun _ _ _ _ => actOn_copy, fun _ _ _ => actOn_scan,
    fun _ _ _ => actOn_pinLimit⟩

end Sys2Proof.Proofs.RangePages
end

section
/-! The lines of the map on media: their write-backs, the gap moves and the swaps of their stripes. -/
namespace Sys2Proof.Proofs.MapLines
open Sys2Proof Machine Safety Startup MapEntries

/-! ### Starting write-backs (R132, R150, R369) -/

/-- No write-back of a line is in flight, whatever else a write-back is asked for. -/
theorem any_writeBack_free {l : List (Nat × List Nat × LeafLine)} {ll : Nat} (free : ∀ w ∈ l, w.1 ≠ ll)
    {p : Nat × List Nat × LeafLine → Bool} (ofLine : ∀ w, p w = true → w.1 = ll) : l.any p = false :=
  List.any_eq_false.2 fun w listed asked => free w listed (ofLine w asked)

/-- A line without a write-back in flight gets one, to the replicas that serve. -/
theorem queueWriteBack_free {s : State} {ll : Nat} (free : ∀ w ∈ s.mp.writeBacks, w.1 ≠ ll) (S : Nat) :
    queueWriteBack s ll S = { s with mp := { s.mp with writeBacks := s.mp.writeBacks ++
      [(ll, upReplicas s ll, { e0 := entryNow s (2 * ll), e1 := entryNow s (2 * ll + 1), stamp := S })] } } :=
  if_neg (by rw [any_writeBack_free free fun w same => by simpa using same]; decide)

/-- Of a tag-mode leaf a dirty line is written back alone, under the leaf's next stamp. -/
theorem startWriteBack_tag {s : State} {ll : Nat} (still : gapHolds s (leafOfLine ll) = false)
    (tag : leafTree s (leafOfLine ll) = false) (free : ∀ w ∈ s.mp.writeBacks, w.1 ≠ ll) (room : internalUsed s < 16384) :
    startWriteBack s ll = queueWriteBack (setLeafStamp s (leafOfLine ll) (leafStamp s (leafOfLine ll) + 1)) ll
      (leafStamp s (leafOfLine ll) + 1) := by
  have unheld : (s.mp.writeBacks.any fun w => leafOfLine w.1 = leafOfLine ll && (leafTree s (leafOfLine ll) || w.1 = ll)) = false :=
    any_writeBack_free free fun w asked => by simpa [tag] using (Bool.and_eq_true_iff.1 asked).2
  have small : ¬ 16384 < internalUsed s + 1 := by omega
  have tag' : leafTree (setLeafStamp s (leafOfLine ll) (leafStamp s (leafOfLine ll) + 1)) (leafOfLine ll) = false := tag
  unfold startWriteBack
  dsimp only
  rw [unheld, still, tag, tag', if_neg (by simpa using small), if_neg (by decide)]

theorem mapCleaning_clean (s : State) (set : Fin 131072) (clean : dirtyOfSet s set.val = []) :
    exec (.mapCleaningVisit set) s = .next s := by
  simp only [exec, execMapCleaningVisit, clean, List.foldl_nil, ite_self]

theorem mapCleaning_one (s : State) (set : Fin 131072) (ll : Nat) (up : mediaRuns s = true) (core : (roleCore s 10).isSome = true)
    (dirty : dirtyOfSet s set.val = [ll]) (still : gapHolds s (leafOfLine ll) = false) (tag : leafTree s (leafOfLine ll) = false)
    (free : ∀ w ∈ s.mp.writeBacks, w.1 ≠ ll) (room : internalUsed s < 16384) :
    ∃ (t : State) (img : LeafLine), exec (.mapCleaningVisit set) s = .next t ∧
      t.mp.writeBacks = s.mp.writeBacks ++ [(ll, upReplicas s ll, img)] ∧ img.stamp = leafStamp s (leafOfLine ll) + 1 ∧
      img.e0 = entryNow s (2 * ll) ∧ img.e1 = entryNow s (2 * ll + 1) ∧ t.mp.cache = s.mp.cache := by
  have starts : exec (.mapCleaningVisit set) s = .next (startWriteBack s ll) := by
    simp only [exec, execMapCleaningVisit, up, core, dirty, Bool.and_self, if_true, List.foldl_cons, List.foldl_nil]
  rw [startWriteBack_tag still tag free room, queueWriteBack_free (s := setLeafStamp s (leafOfLine ll) _) free] at starts
  exact ⟨_, _, starts, rfl, rfl, rfl, rfl, rfl⟩

/-! ### What a verified write-back leaves of the lines (R141, R148, R151) -/

/-- The map lines on media, and those on their way there, are the same. -/
structure LinesStay (s t : State) : Prop where
  leaves : t.mp.leaves = s.mp.leaves
  writeBacks : t.mp.writeBacks = s.mp.writeBacks

theorem LinesStay.refl (s : State) : LinesStay s s := ⟨rfl, rfl⟩

theorem LinesStay.trans {s t u : State} (h : LinesStay s t) (k : LinesStay t u) : LinesStay s u :=
  ⟨k.leaves.trans h.leaves, k.writeBacks.trans h.writeBacks⟩

theorem LinesStay.of_keeps {s t : State} (h : Keeps (allBut .mp) s t) : LinesStay s t :=
  have same : t.mp = s.mp := same_of_keeps (p := .mp) h
  ⟨congrArg MapSt.leaves same, congrArg MapSt.writeBacks same⟩

theorem LinesStay.foldl {α : Type} {f : State → α → State} (step : ∀ s a, LinesStay s (f s a)) (l : List α) (s : State) :
    LinesStay s (l.foldl f s) := by
  induction l generalizing s with
  | nil => exact .refl s
  | cons a l ih => exact (step s a).trans (ih _)

theorem touchSeg_lines (s : State) (g : Nat) : LinesStay s (touchSeg s g) := by
  unfold touchSeg
  split <;> exact ⟨rfl, rfl⟩

theorem lookupEntry_lines (s : State) (page line : Nat) (e : MapEntry) (tree : Bool) :
    LinesStay s (lookupEntry s page line e tree).2 := by
  have touched := touchSeg_lines s (segNo page)
  simp only [lookupEntry]
  generalize touchSeg s (segNo page) = u at touched ⊢
  split
  · exact touched
  · split <;> split <;> exact ⟨touched.leaves, touched.writeBacks⟩

theorem resumeRead_lines (s : State) (r : Rd) (e : MapEntry) : LinesStay s (resumeRead s r e) := by
  have looked := lookupEntry_lines s r.page r.line e r.tree
  unfold resumeRead
  generalize lookupEntry s r.page r.line e r.tree = x at looked ⊢
  obtain ⟨l, u⟩ := x
  have counted : LinesStay u (countLookup u l) := .of_keeps (countLookup_keeps (.refl _ u) rfl)
  dsimp only
  refine LinesStay.trans ?_ (.of_keeps (commandRead_keeps (.refl _ _) rfl))
  exact (looked.trans counted).trans ⟨rfl, rfl⟩

theorem resumeSeg_lines (s : State) (g : Nat) (es : List MapEntry) : LinesStay s (resumeSeg s g es) := by
  unfold resumeSeg
  refine LinesStay.trans (.foldl (fun s p => ?_) _ s) (.foldl (fun s r => resumeRead_lines s r _) _ _)
  exact LinesStay.trans (.of_keeps (rechargePage_keeps (.refl _ s) rfl))
    (.foldl (fun s i => .of_keeps (senseFill_keeps (fillFromEntry_keeps (.refl _ s) rfl) rfl)) _ _)

theorem putSeg_lines (s : State) (g : Nat) (es : List MapEntry) : LinesStay s (putSeg s g es) := by
  rw [putSeg_frame]
  exact ⟨rfl, rfl⟩

theorem giveWay_lines (s : State) (g : Nat) : LinesStay s (giveWay s g) := by
  unfold giveWay
  extract_lets freed
  split
  · exact ⟨rfl, rfl⟩
  · refine LinesStay.trans ?_ (resumeSeg_lines _ _ _)
    refine LinesStay.trans ?_ (putSeg_lines _ _ _)
    exact ⟨rfl, rfl⟩

theorem durableLine_lines (s : State) (ll : Nat) (img : LeafLine) : LinesStay s (durableLine s ll img) := by
  unfold durableLine
  extract_lets
  split
  · exact .refl s
  · split
    · extract_lets
      split
      · exact giveWay_lines s _
      · exact ⟨rfl, rfl⟩
    · exact .refl s

theorem lineDone_lines (s : State) (ll : Nat) (img : LeafLine) : LinesStay s (lineDone s ll img) := by
  unfold lineDone
  extract_lets L durable
  have stays : LinesStay s durable := durableLine_lines s ll img
  split
  · exact stays.trans ⟨rfl, rfl⟩
  · exact stays

theorem swapWrite_lines (s : State) (slot : Nat) : LinesStay s (swapWrite s slot) := by
  unfold swapWrite
  extract_lets r
  split
  · exact .refl s
  · split
    · exact .refl s
    · dsimp only
      split <;> exact ⟨rfl, rfl⟩

/-- A replica's image stands on its copy, and the write is counted for its rank and its stripe. -/
def replicaWritten (s : State) (ll k : Nat) (img : LeafLine) : State :=
  let given := setLeafLine s ll k (some img)
  let home := leafHome given (leafOfLine ll) k
  swapWrite (noteProgram (systemWrite (updRot given (slotRank home) fun t => { t with writes := t.writes + 1 }) home 1)
    (slotBs home)) home

theorem replicaWritten_lines (s : State) (ll k : Nat) (img : LeafLine) :
    LinesStay (setLeafLine s ll k (some img)) (replicaWritten s ll k img) := by
  unfold replicaWritten
  extract_lets given home
  refine LinesStay.trans ?_ (swapWrite_lines _ home)
  exact LinesStay.trans (t := updRot given (slotRank home) fun t => { t with writes := t.writes + 1 }) ⟨rfl, rfl⟩
    (.of_keeps (noteProgram_keeps (systemWrite_keeps (.refl _ _) rfl) rfl))

/-- The write-backs after replica `k` of one of them has its image. -/
def withoutReplica (l : List (Nat × List Nat × LeafLine)) (ll k : Nat) (ks : List Nat) (img : LeafLine) :
    List (Nat × List Nat × LeafLine) :=
  (l.map fun w => if w = (ll, ks, img) then (ll, ks.filter (· ≠ k), img) else w).filter fun w => !w.2.1.isEmpty

/-- A replica leaves a write-back. -/
def takeReplica (s : State) (ll k : Nat) (ks : List Nat) (img : LeafLine) : State :=
  { s with mp := { s.mp with writeBacks := withoutReplica s.mp.writeBacks ll k ks img } }

section
variable {s : State} {ll k : Nat} {ks : List Nat} {img : LeafLine}
  (found : s.mp.writeBacks.find? (fun w => w.1 = ll && k ∈ w.2.1) = some (ll, ks, img))
include found

theorem writeBackDone_eq : writeBackDone s ll k =
    if (ks.filter (· ≠ k)).isEmpty then lineDone (takeReplica (replicaWritten s ll k img) ll k ks img) ll img
    else takeReplica (replicaWritten s ll k img) ll k ks img := by
  unfold writeBackDone
  rw [found]
  rfl

/-- A verified replica has its image, and its write-back waits for the others alone. -/
theorem writeBackDone_lines : (writeBackDone s ll k).mp.leaves = (setLeafLine s ll k (some img)).mp.leaves ∧
    (writeBackDone s ll k).mp.writeBacks = withoutReplica s.mp.writeBacks ll k ks img := by
  obtain ⟨leaves, writeBacks⟩ := replicaWritten_lines s ll k img
  have taken : (takeReplica (replicaWritten s ll k img) ll k ks img).mp.writeBacks = withoutReplica s.mp.writeBacks ll k ks img :=
    congrArg (withoutReplica · ll k ks img) writeBacks
  rw [writeBackDone_eq found]
  split
  · have done := lineDone_lines (takeReplica (replicaWritten s ll k img) ll k ks img) ll img
    exact ⟨done.leaves.trans leaves, done.writeBacks.trans taken⟩
  · exact ⟨leaves, taken⟩

end

theorem mapWriteBack_verified (s : State) (ll : Nat) (k : Fin 2) (ks : List Nat) (img : LeafLine)
    (found : s.mp.writeBacks.find? (fun w => w.1 = ll && k.val ∈ w.2.1) = some (ll, ks, img)) :
    ∃ t, exec (.mapWriteBackVerified ll k) s = .next t ∧ t.mp.leaves = (setLeafLine s ll k.val (some img)).mp.leaves ∧
      t.mp.writeBacks = (s.mp.writeBacks.map fun w => if w = (ll, ks, img) then (ll, ks.filter (· ≠ k.val), img) else w).filter
        fun w => !w.2.1.isEmpty :=
  ⟨_, rfl, writeBackDone_lines found⟩

theorem mapWriteBack_none (s : State) (ll : Nat) (k : Fin 2) (none : ∀ w ∈ s.mp.writeBacks, w.1 = ll → k.val ∉ w.2.1) :
    exec (.mapWriteBackVerified ll k) s = .next s := by
  have absent : s.mp.writeBacks.find? (fun w => w.1 = ll && k.val ∈ w.2.1) = .none := by
    simpa [List.find?_eq_none] using none
  simp only [exec, execMapWriteBackVerified, writeBackDone, absent]

/-! ### Gap moves (R137 to R139) -/

/-- The rotation of a rank reads back after a change that leaves no reset record. -/
theorem rot_updRot {s : State} {r : Nat} {f : Rot → Rot} (moved : f (rot s r) ≠ {}) : rot (updRot s r f) r = f (rot s r) :=
  tget_tset_val _ _ _ _ moved

section
variable {s v : State} {r : Rank} (up : mediaRuns s = true) (holds : r.val ∈ s.mp.mapRanks)
include up holds

/-- The map of the rank may rotate now. -/
theorem rotation_open : ¬ (!mediaRuns s || r.val ∉ s.mp.mapRanks) = true := by simp [up, holds]

theorem gapMove_leaves (due : 64 ≤ (rot s r.val).writes) (idle : (rot s r.val).copying = false)
    (copies : v = updRot s r.val (fun t => { t with copying := true, writes := t.writes - 64 }))
    (free : ∀ w ∈ s.mp.writeBacks, gapHolds v (leafOfLine w.1) = false) :
    exec (.gapMove r false) s = .next v ∧ (rot v r.val).copying = true := by
  subst copies
  refine ⟨congrArg Host.Outcome.next ((if_neg (rotation_open up holds)).trans ?_), ?_⟩
  · have waited : ¬ ((rot s r.val).writes < 64 || (rot s r.val).copying) = true := by simp [idle, due]
    refine (if_neg waited).trans (if_neg ?_)
    rw [List.any_eq_false.2 fun w listed => by rw [free w listed]; decide]
    decide
  · rw [rot_updRot fun e => by simpa using congrArg Rot.copying e]

theorem gapMove_nodes (due : 64 ≤ (rot s r.val).twrites) (idle : (rot s r.val).tcopying = false)
    (copies : v = updRot s r.val (fun t => { t with tcopying := true, twrites := t.twrites - 64 }))
    (free : ∀ n ∈ s.ig.heldNodes, nodeGapHolds v n = false) :
    exec (.gapMove r true) s = .next v ∧ (rot v r.val).tcopying = true := by
  subst copies
  refine ⟨congrArg Host.Outcome.next ((if_neg (rotation_open up holds)).trans ?_), ?_⟩
  · have waited : ¬ ((rot s r.val).twrites < 64 || (rot s r.val).tcopying) = true := by simp [idle, due]
    refine (if_neg waited).trans (if_neg ?_)
    rw [List.any_eq_false.2 fun n held => by rw [free n held]; decide]
    decide
  · rw [rot_updRot fun e => by simpa using congrArg Rot.tcopying e]

end

/-- The count of gap moves rises by one, and no save of the rotation is due before the 4,096th. -/
theorem satAdd_moves {m : Nat} (few : m + 1 < 4096) : satAdd 32 m 1 = m + 1 ∧ ¬ satAdd 32 m 1 % 4096 = 0 := by
  have exact_ : satAdd 32 m 1 = m + 1 := by simp only [satAdd]; omega
  rw [exact_]
  omega

/-- A change of a rotation is what it makes of the one that stands. -/
theorem updRot_congr {s : State} {r : Nat} {f g : Rot → Rot} (same : f (rot s r) = g (rot s r)) : updRot s r f = updRot s r g :=
  congrArg (fun v => { s with mp := { s.mp with rot := tset {} s.mp.rot r v } }) same

/-- The gap goes down by one position. -/
def gapDown (t : Rot) : Rot := { t with copying := false, gap := t.gap - 1, moves := satAdd 32 t.moves 1 }

theorem gapMove_verified_leaves (s : State) (r : Rank) (runs : (rot s r.val).copying = true) (above : 0 < (rot s r.val).gap)
    (few : (rot s r.val).moves + 1 < 4096) :
    ∃ t, exec (.gapMoveVerified r false) s = .next t ∧ t = updRot s r.val fun t => { t with
      copying := false, start := t.start, gap := t.gap - 1, moves := satAdd 32 t.moves 1 } := by
  obtain ⟨counts, unsaved⟩ := satAdd_moves few
  have step : gapStep s.mp.mapN (rot s r.val).start (rot s r.val).gap = ((rot s r.val).start, (rot s r.val).gap - 1) :=
    if_neg (by omega)
  have moved : updRot s r.val (fun t => { t with
      copying := false, start := (gapStep s.mp.mapN (rot s r.val).start (rot s r.val).gap).1
      gap := (gapStep s.mp.mapN (rot s r.val).start (rot s r.val).gap).2, moves := satAdd 32 t.moves 1 }) =
      updRot s r.val gapDown := updRot_congr (by rw [step]; rfl)
  have counted : (rot (updRot s r.val gapDown) r.val).moves = satAdd 32 (rot s r.val).moves 1 := by
    rw [rot_updRot fun e => by simpa [gapDown, counts] using congrArg Rot.moves e]
    rfl
  refine ⟨_, congrArg Host.Outcome.next ((if_neg Bool.false_ne_true).trans ((if_pos runs).trans ?_)), rfl⟩
  dsimp only
  rw [moved, counted, if_neg unsaved]
  rfl

/-- The gap of the node area wraps. -/
def nodeGapWraps (n : Nat) (t : Rot) : Rot :=
  { t with tcopying := false, tstart := (t.tstart + 1) % n, tgap := n, tmoves := satAdd 32 t.tmoves 1 }

theorem gapMove_verified_nodes (s : State) (r : Rank) (runs : (rot s r.val).tcopying = true) (bottom : (rot s r.val).tgap = 0)
    (few : (rot s r.val).tmoves + 1 < 4096) :
    exec (.gapMoveVerified r true) s = .next (updRot s r.val fun t => { t with
      tcopying := false, tstart := (t.tstart + 1) % s.mp.treeN, tgap := s.mp.treeN, tmoves := satAdd 32 t.tmoves 1 }) := by
  obtain ⟨counts, unsaved⟩ := satAdd_moves few
  have step : gapStep s.mp.treeN (rot s r.val).tstart (rot s r.val).tgap = (((rot s r.val).tstart + 1) % s.mp.treeN, s.mp.treeN) :=
    if_pos bottom
  have moved : updRot s r.val (fun t => { t with
      tcopying := false, tstart := (gapStep s.mp.treeN (rot s r.val).tstart (rot s r.val).tgap).1
      tgap := (gapStep s.mp.treeN (rot s r.val).tstart (rot s r.val).tgap).2, tmoves := satAdd 32 t.tmoves 1 }) =
      updRot s r.val (nodeGapWraps s.mp.treeN) := updRot_congr (by rw [step]; rfl)
  have counted : (rot (updRot s r.val (nodeGapWraps s.mp.treeN)) r.val).tmoves = satAdd 32 (rot s r.val).tmoves 1 := by
    rw [rot_updRot fun e => by simpa [nodeGapWraps, counts] using congrArg Rot.tmoves e]
    rfl
  refine congrArg Host.Outcome.next ((if_pos rfl).trans ((if_pos runs).trans ?_))
  dsimp only
  rw [moved, counted, if_neg unsaved]
  rfl

/-! ### Swaps of map stripes (R140) -/

theorem mapSwap_verified (s : State) (r : Rank) (src dst : Nat) (runs : (rot s r.val).swapping = some (src, dst)) :
    exec (.mapStripeSwap r src dst true) s = .next (updStripe (updRot s r.val fun t =>
      { t with swapping := none, swaps := t.swaps ++ [(src, dst)] }) (r.val * 81920 + src) fun b => { b with state := .retired }) :=
  congrArg Host.Outcome.next ((if_pos rfl).trans (if_pos runs))

section
variable {s : State} {r : Rank} {src dst : Nat} (source : src < 81920) (target : dst < 81920)
  (due : swapDue s (r.val * 81920 + src) = true) (idle : (rot s r.val).swapping = none)
include source target due idle

/-- A swap of the stripe may begin. -/
theorem swap_open : (src < 81920 && dst < 81920 && swapDue s (r.val * 81920 + src) && (rot s r.val).swapping.isNone) = true := by
  simp [source, target, due, idle]

theorem mapSwap_begins (few : (rot s r.val).swaps.length < 8) (takes : swapTarget s (r.val * 81920 + dst) = true) :
    exec (.mapStripeSwap r src dst false) s = .next (recordStripe
      (updStripe (updRot s r.val fun t => { t with swapping := some (src, dst), swapWls := 0 })
        (r.val * 81920 + dst) fun b => { b with state := .system, bisque := true, buses := b.buses + 1 })
      (r.val * 81920 + dst)) :=
  congrArg Host.Outcome.next ((if_neg Bool.false_ne_true).trans ((if_pos (swap_open source target due idle)).trans
    ((if_neg (by omega)).trans (if_pos takes))))

theorem mapSwap_ninth (many : 8 ≤ (rot s r.val).swaps.length) :
    exec (.mapStripeSwap r src dst false) s = .next (raise s 0x3B r.val src 0 0 0) :=
  congrArg Host.Outcome.next ((if_neg Bool.false_ne_true).trans ((if_pos (swap_open source target due idle)).trans (if_pos many)))

end

theorem swapTarget_iff (s : State) (bs : Nat) : swapTarget s bs = true ↔
    (stripe s bs).state = .blank ∧ bsState s bs ≠ .system ∧ (stripe s bs).degraded = false ∧ allocEligible s (stripe s bs) = true := by
  simp [swapTarget, and_assoc]

/-- Settles O24: write-backs by what they leave of the map's lines, moves and swaps by their one open branch. -/
theorem mapLinesAndRotation : Obligations.MapLinesAndRotation :=
  ⟨⟨mapCleaning_clean, mapCleaning_one, mapWriteBack_verified, mapWriteBack_none⟩,
    fun _ _ _ => rfl, fun _ _ _ => gapMove_leaves, fun _ _ _ => gapMove_nodes, mapSwap_verified,
    fun _ _ _ _ => mapSwap_begins, swapTarget_iff, fun _ _ _ _ => mapSwap_ninth, gapMove_verified_leaves,
    gapMove_verified_nodes⟩

end Sys2Proof.Proofs.MapLines
end

section
/-! Reclaim: the choice of a victim, its release and the levelling check. -/
namespace Sys2Proof.Proofs.Reclaim
open Sys2Proof Machine Safety Startup

/-! ### Records that are changed read back -/

/-- A changed stripe record is marked for its media write, so it reads back whatever the change. -/
theorem stripe_updStripe_here (s : State) (bs : Nat) (f : BsRec → BsRec) :
    stripe (updStripe s bs f) bs = { f (stripe s bs) with changed := true } :=
  tget_tset_val _ _ _ _ fun e => by simpa using congrArg BsRec.changed e

theorem rankPl_updRank_here {s : State} {r : Nat} {f : RankPl → RankPl} (moved : f (rankPl s r) ≠ {}) :
    rankPl (updRank s r f) r = f (rankPl s r) :=
  tget_tset_val _ _ _ _ moved

/-! ### The rank's victim (R254) -/

/-- The stripe is the rank's victim, or released where no slot of it is valid; reclaim has not settled yet. -/
def named (s : State) (r bs : Nat) : State :=
  updRank (updStripe s bs fun b => { b with state := if b.valid = 0 then .released else .victim }) r
    fun x => { x with victim := some bs }

theorem makeVictim_eq (s : State) (r bs : Nat) : makeVictim s r bs = settleVictim (named s r bs) r := rfl

theorem rankPl_named (s : State) (r bs : Nat) : rankPl (named s r bs) r = { rankPl s r with victim := some bs } :=
  rankPl_updRank_here (s := updStripe s bs _) fun e => by simpa using congrArg RankPl.victim e

theorem stripe_named (s : State) (r bs : Nat) : stripe (named s r bs) bs =
    { stripe s bs with state := if (stripe s bs).valid = 0 then .released else .victim, changed := true } :=
  stripe_updStripe_here s bs fun b => { b with state := if b.valid = 0 then .released else .victim }

theorem makeVictim_valid (s : State) (r bs : Nat) (valid : (stripe s bs).valid ≠ 0) :
    (stripe (makeVictim s r bs) bs).state = .victim ∧ (rankPl (makeVictim s r bs) r).victim = some bs := by
  have state : (stripe (named s r bs) bs).state = .victim := by rw [stripe_named, if_neg valid]
  have victim : (rankPl (named s r bs) r).victim = some bs := by rw [rankPl_named]
  have settled : settleVictim (named s r bs) r = named s r bs := by simp only [settleVictim, victim, state, if_true]
  rw [makeVictim_eq, settled]
  exact ⟨state, victim⟩

/-- A stripe without a valid slot is released, and reclaim of it has ended. -/
theorem makeVictim_void (s : State) (r bs : Nat) (void : (stripe s bs).valid = 0) :
    (stripe (makeVictim s r bs) bs).state = .released ∧ (rankPl (makeVictim s r bs) r).victim = none ∧
      (rankPl (makeVictim s r bs) r).reclaimed = satAdd 32 (rankPl s r).reclaimed 1 := by
  have state : (stripe (named s r bs) bs).state = .released := by rw [stripe_named, if_pos void]
  have rank := rankPl_named s r bs
  have settled : settleVictim (named s r bs) r = updRank (named s r bs) r fun x =>
      { x with victim := none, reclaimed := satAdd 32 x.reclaimed 1, evacs := x.evacs.filter (· ≠ bs) } := by
    simp only [settleVictim, rank, state, reduceCtorEq, if_false]
  have counts : satAdd 32 (rankPl s r).reclaimed 1 ≠ 0 := by simp only [satAdd]; omega
  rw [makeVictim_eq, settled, rankPl_updRank_here, rank]
  · exact ⟨state, rfl, rfl⟩
  · rw [rank]
    exact fun e => counts (congrArg RankPl.reclaimed e)

/-! ### The choice of a victim (R252, R253) -/

/-- The better of the best stripe so far and another one: a higher score, or the lower number on a tie. -/
def better (s : State) (r : Nat) (b : Option (Nat × BsRec)) (x : Nat × BsRec) : Option (Nat × BsRec) :=
  match b with
  | none => some x
  | some y =>
    if reclaimScore s r y.2 < reclaimScore s r x.2 || (reclaimScore s r y.2 = reclaimScore s r x.2 && x.1 < y.1) then some x
    else some y

theorem bestVictim_eq (s : State) (r : Nat) (l : List (Nat × BsRec)) : bestVictim s r l = l.foldl (better s r) none := rfl

/-- `y` is no better a victim than `x`. -/
def NoBetter (s : State) (r : Nat) (x y : Nat × BsRec) : Prop :=
  reclaimScore s r y.2 < reclaimScore s r x.2 ∨ reclaimScore s r y.2 = reclaimScore s r x.2 ∧ x.1 ≤ y.1

theorem NoBetter.refl (s : State) (r : Nat) (x : Nat × BsRec) : NoBetter s r x x := .inr ⟨rfl, le_rfl⟩

theorem NoBetter.trans {s : State} {r : Nat} {x y z : Nat × BsRec} (h : NoBetter s r x y) (k : NoBetter s r y z) :
    NoBetter s r x z := by
  unfold NoBetter at *
  omega

/-- One of two is chosen, and neither is better. -/
theorem better_some (s : State) (r : Nat) (y x : Nat × BsRec) :
    ∃ z, better s r (some y) x = some z ∧ (z = y ∨ z = x) ∧ NoBetter s r z y ∧ NoBetter s r z x := by
  unfold better NoBetter
  by_cases wins : reclaimScore s r y.2 < reclaimScore s r x.2 ∨ reclaimScore s r y.2 = reclaimScore s r x.2 ∧ x.1 < y.1
  · exact ⟨x, if_pos (by simpa using wins), .inr rfl, by omega, by omega⟩
  · exact ⟨y, if_neg (by simpa using wins), .inl rfl, by omega, by omega⟩

theorem foldl_better (s : State) (r : Nat) (l : List (Nat × BsRec)) (y : Nat × BsRec) :
    ∃ z, l.foldl (better s r) (some y) = some z ∧ (z = y ∨ z ∈ l) ∧ NoBetter s r z y ∧ ∀ x ∈ l, NoBetter s r z x := by
  induction l generalizing y with
  | nil => exact ⟨y, rfl, .inl rfl, .refl .., by simp⟩
  | cons x l ih =>
    obtain ⟨m, chosen, one, overY, overX⟩ := better_some s r y x
    obtain ⟨z, best, listed, overM, overL⟩ := ih m
    refine ⟨z, by rw [List.foldl_cons, chosen, best], ?_, overM.trans overY, ?_⟩
    · rcases listed with rfl | listed
      · exact one.imp id fun e => by simp [e]
      · exact .inr (List.mem_cons_of_mem _ listed)
    · exact List.forall_mem_cons.2 ⟨overM.trans overX, overL⟩

/-- The best victim is a listed stripe, and no listed one is better. -/
theorem bestVictim_best (s : State) (r : Nat) (l : List (Nat × BsRec)) (x : Nat × BsRec) (best : bestVictim s r l = some x) :
    x ∈ l ∧ ∀ y ∈ l, NoBetter s r x y := by
  rw [bestVictim_eq] at best
  cases l with
  | nil => simp at best
  | cons y l =>
    obtain ⟨z, chosen, listed, overY, overL⟩ := foldl_better s r l y
    obtain rfl : z = x := Option.some.inj (chosen.symm.trans best)
    exact ⟨List.mem_cons.2 listed, List.forall_mem_cons.2 ⟨overY, overL⟩⟩

section
variable {s : State} {r : Rank} {x y : Nat × BsRec} (up : mediaRuns s = true) (on : parked s r.val = false)
  (free : (rankPl s r.val).victim = none)
include up on free

/-- Reclaim may choose a victim on the rank. -/
theorem reclaim_open : ¬ (!mediaRuns s || parked s r.val || (rankPl s r.val).victim.isSome) = true := by simp [up, on, free]

theorem reclaimStart_chooses (low : reclaimOn s r.val = true) (links : lostLinks s r.val < 2)
    (best : bestVictim (updRank s r.val fun x => { x with reclaiming := true }) r.val
      (victimChoices (updRank s r.val fun x => { x with reclaiming := true }) r.val) = some x) :
    exec (.reclaimStart r) s = .next (makeVictim (updRank s r.val fun x => { x with reclaiming := true }) r.val x.1) := by
  refine congrArg Host.Outcome.next ((if_neg (reclaim_open up on free)).trans ?_)
  have all : (true && decide (lostLinks (updRank s r.val fun x => { x with reclaiming := true }) r.val < 2)) = true :=
    decide_eq_true links
  simp only [low, all, if_true, best]

/-! ### The levelling check (R320) -/

section
variable (least : leastBy (fun x => [x.2.cycles, x.1])
  ((rankStripes s r.val).filter fun x => !x.2.bisque && x.2.state = .full) = some x)
include least

theorem levelling_even (even : ((rankStripes s r.val).filter fun x => !x.2.bisque &&
      (x.2.state = .blank || x.2.state = .dirty || x.2.state = .blanking || x.2.state = .open)).foldl
        (fun m x => max m x.2.cycles) 0 ≤ x.2.cycles + wearSpread s) :
    exec (.levellingCheck r) s = .next s := by
  refine congrArg Host.Outcome.next ((if_neg (reclaim_open up on free)).trans ?_)
  simp only [least]
  exact if_neg (Nat.not_lt.2 even)

theorem levelling_spread (spread : x.2.cycles + wearSpread s < ((rankStripes s r.val).filter fun x =>
      !x.2.bisque && (x.2.state = .blank || x.2.state = .dirty || x.2.state = .blanking || x.2.state = .open)).foldl
        (fun m x => max m x.2.cycles) 0)
    (choice : leastBy (fun x => [x.2.cycles, x.1]) (((rankStripes s r.val).filter fun x => !x.2.bisque && x.2.state = .full).filter
      fun x => !x.2.unswept && !x.2.noVictim) = some y) :
    exec (.levellingCheck r) s = .next (makeVictim s r.val y.1) := by
  refine congrArg Host.Outcome.next ((if_neg (reclaim_open up on free)).trans ?_)
  simp only [least, choice]
  exact if_pos spread

end

end

/-! ### The release of a victim (R257, R322) -/

/-- The record of a stripe that nothing names any longer. -/
def letGo (b : BsRec) : BsRec :=
  { b with state := if b.degraded || 20000 ≤ b.cycles then .retired else .dirty, valid := 0, wls := 0 }

/-- The check of the spare stripes leaves every stripe, the map and the saggar. -/
theorem checkSpareStripes_same (s : State) :
    (checkSpareStripes s).pl = s.pl ∧ (checkSpareStripes s).mp = s.mp ∧ (checkSpareStripes s).sag = s.sag :=
  ⟨same_of_keeps (p := .pl) (checkSpareStripes_keeps (.refl _ s) rfl),
    same_of_keeps (p := .mp) (checkSpareStripes_keeps (.refl _ s) rfl),
    same_of_keeps (p := .sag) (checkSpareStripes_keeps (.refl _ s) rfl)⟩

section
variable {s : State} {bs : StripeNo} (up : mediaRuns s = true) (released : (stripe s bs.val).state = .released)
include up released

theorem release_open : ¬ (!mediaRuns s || (stripe s bs.val).state ≠ .released) = true := by simp [up, released]

theorem victimRelease_letGo (unnamed : stripeLetGo s bs.val = true) :
    ∃ t, exec (.victimRelease bs) s = .next t ∧
      (stripe t bs.val).state = (if (stripe s bs.val).degraded || 20000 ≤ (stripe s bs.val).cycles then .retired else .dirty) ∧
      (stripe t bs.val).valid = 0 ∧ (stripe t bs.val).wls = 0 ∧ t.mp = s.mp ∧ t.sag = s.sag := by
  refine ⟨_, congrArg Host.Outcome.next ((if_neg (release_open up released)).trans (if_pos unnamed)), ?_⟩
  obtain ⟨pl, mp, sag⟩ := checkSpareStripes_same (updStripe s bs.val letGo)
  have record : stripe (checkSpareStripes (updStripe s bs.val letGo)) bs.val =
      { letGo (stripe s bs.val) with changed := true } := by
    rw [← stripe_updStripe_here s bs.val letGo, stripe, pl]
    rfl
  exact ⟨congrArg BsRec.state record, congrArg BsRec.valid record, congrArg BsRec.wls record, mp, sag⟩

theorem victimRelease_held (held : stripeLetGo s bs.val = false) :
    exec (.victimRelease bs) s = .next ((linesNaming s bs.val).foldl startWriteBack s) :=
  congrArg Host.Outcome.next ((if_neg (release_open up released)).trans (if_neg (by simp [held])))

end

end Sys2Proof.Proofs.Reclaim
end

section
/-! The moves of one page: relocation, restamp and refresh. -/
namespace Sys2Proof.Proofs.PageMoves
open Sys2Proof Machine Safety Startup Resets MapEntries Reclaim

/-! ### Relocation (R315, R316) -/

/-- The map cache is the same. -/
def CacheStays (s t : State) : Prop := t.mp.cache = s.mp.cache

theorem CacheStays.trans {s t u : State} (h : CacheStays s t) (k : CacheStays t u) : CacheStays s u := Eq.trans k h

theorem CacheStays.of_keeps {s t : State} (h : Keeps (allBut .mp) s t) : CacheStays s t :=
  congrArg MapSt.cache (same_of_keeps (p := .mp) h)

theorem CacheStays.foldl {α : Type} {f : State → α → State} (step : ∀ s a, CacheStays s (f s a)) (l : List α) (s : State) :
    CacheStays s (l.foldl f s) := by
  induction l generalizing s with
  | nil => rfl
  | cons a l ih => exact (step s a).trans (ih _)

/-- The slot that a relocation takes is taken from a stripe; the map stays. -/
theorem relocSlot_cache {s v : State} {page slot : Nat} {e : MapEntry} (taken : relocSlot s page e = some (slot, v)) :
    CacheStays s v := by
  have keeps : KeepsOR (allBut .mp) s (relocSlot s page e) := relocSlot_keeps (.refl _ s) rfl
  exact .of_keeps (keeps _ taken)

theorem putStamps_cache (s : State) (home page : Nat) (stamps : List Nat) : CacheStays s (putStamps s home page stamps) := by
  unfold putStamps
  rw [slotRoom_frame]
  rfl

theorem dropStamps_cache (s : State) (home : Nat) : CacheStays s (dropStamps s home) := rfl

/-- The live lines of a page's bisque home stand in its new slot. -/
def linesMoved (s : State) (page slot : Nat) (e : MapEntry) : State :=
  (List.range 64).foldl (fun s i =>
    if !e.mask.getLsbD i then s
    else setMedia s slot i (match mediaLine s e.bisqueHome i with
      | some r => .line r
      | none => .line (newRec s page i e.stamp e.domain 0 true true e.regime))) s

theorem linesMoved_cache (s : State) (page slot : Nat) (e : MapEntry) : CacheStays s (linesMoved s page slot e) :=
  .foldl (fun s i => by split <;> rfl) _ s

/-- The stamps of the page's lines follow them (R376). -/
def stampsMoved (s : State) (page slot : Nat) (e : MapEntry) : State :=
  if (stampSlot s e.bisqueHome).isSome || (tget none s.ig.mediaSlots e.bisqueHome).isSome then
    dropStamps (putStamps s slot page (slotStamps s e.bisqueHome)) e.bisqueHome
  else s

theorem stampsMoved_cache (s : State) (page slot : Nat) (e : MapEntry) : CacheStays s (stampsMoved s page slot e) := by
  unfold stampsMoved
  split
  · exact (putStamps_cache s slot page _).trans (dropStamps_cache _ _)
  · rfl

/-- A page with its lines in the new slot: its entry, the slots and the queue follow. -/
def relocated (s : State) (page slot : Nat) (e : MapEntry) : State :=
  let s := setEntry s page { e with bisqueHome := slot, tally := 0 }
  let s := releaseSlot (noteProgram (claimSlot s slot) (slotBs slot)) e.bisqueHome
  { s with pl := { s.pl with relocating := s.pl.relocating.filter (· ≠ page) } }

theorem relocated_page {s : State} {page slot : Nat} {e : MapEntry} (cached : entry? s page = some e) :
    page ∉ (relocated s page slot e).pl.relocating ∧
      entry? (relocated s page slot e) page = some { e with bisqueHome := slot, tally := 0 } := by
  refine ⟨by simp [relocated], ?_⟩
  have settles (u : State) : CacheStays u (releaseSlot (noteProgram (claimSlot u slot) (slotBs slot)) e.bisqueHome) :=
    .of_keeps (releaseSlot_keeps (noteProgram_keeps (claimSlot_keeps (.refl _ u) rfl) rfl) rfl)
  exact (entry?_of_cache (settles _) page).trans (entry?_setEntry cached _)

/-- A relocation of the page is due. -/
theorem relocation_open {s : State} {page : Nat} (e : MapEntry) (up : mediaRuns s = true) (due : page ∈ s.pl.relocating) :
    ¬ (!mediaRuns s || !(page ∈ s.pl.relocating ||
      (e.bisqueHome ≠ none40 && (stripe s (slotBs e.bisqueHome)).state = .victim))) = true := by simp [up, due]

section
variable {s v : State} {page slot : Nat} {e : MapEntry} (found : entry? (fetchSeg s page) page = some e)
  (up : mediaRuns s = true) (due : page ∈ s.pl.relocating)
include found up due

theorem bisqueRelocation_homeless (homeless : e.bisqueHome = none40) :
    exec (.bisqueRelocation page) s = .next { s with pl := { s.pl with relocating := s.pl.relocating.filter (· ≠ page) } } := by
  simp only [exec, execBisqueRelocation, found]
  exact congrArg Host.Outcome.next ((if_neg (relocation_open e up due)).trans (if_pos homeless))

variable (housed : e.bisqueHome ≠ none40) (undrained : inDrain s page = false) (unfired : inFiring s page = false)
  (plain : inSecure s page = false) (unswitched : inSwitch s page = false) (open_ : e.secure = false)
  (taken : relocSlot (fetchSeg s page) page e = some (slot, v))
include housed undrained unfired plain unswitched open_ taken

/-- A page that nothing else holds moves to the slot that it was given. -/
theorem bisqueRelocation_moves :
    exec (.bisqueRelocation page) s = .next (relocated (stampsMoved (linesMoved v page slot e) page slot e) page slot e) := by
  have free : ¬ (inDrain s page || inFiring s page || inSecure s page || inSwitch s page || e.secure) = true := by
    simp [undrained, unfired, plain, unswitched, open_]
  simp only [exec, execBisqueRelocation, found]
  refine congrArg Host.Outcome.next ((if_neg (relocation_open e up due)).trans ((if_neg housed).trans ((if_neg free).trans ?_)))
  rw [taken]
  rfl

theorem bisqueRelocation_page : ∃ t, exec (.bisqueRelocation page) s = .next t ∧ page ∉ t.pl.relocating ∧
    entry? t page = some { e with bisqueHome := slot, tally := 0 } := by
  have cache := ((relocSlot_cache taken).trans (linesMoved_cache v page slot e)).trans (stampsMoved_cache _ page slot e)
  exact ⟨_, bisqueRelocation_moves found up due housed undrained unfired plain unswitched open_ taken,
    relocated_page ((entry?_of_cache cache page).trans found)⟩

end

/-! ### Lines that the saggar takes for the device (R125, R193, R229, R299) -/

/-- The internal saggar line that holds line `i` of a page. -/
def internalLine (s : State) (page : Nat) (e : MapEntry) (i : Nat) : SagLine :=
  { page := page, line := i, mask := BitVec.allOnes 64, data := (currentLine s e page i).1, poison := (currentLine s e page i).2
    domain := e.domain, filled := true, internal := true, norank := false, pooled := false
    rank := slotRank (if e.bisqueHome ≠ none40 then e.bisqueHome else e.glazeHome), last := s.clk.beat, idx := newIdx s }

/-- Take one line, where it is asked for, not there yet, and the reserve has room. -/
def takeLine (page : Nat) (e : MapEntry) (which : Nat → Bool) (s : State) (i : Nat) : State :=
  if !which i || (sagLine s page i).isSome || 16384 ≤ internalUsed s then s
  else setSagLine s page i (some (internalLine s page e i))

theorem takeInternal_eq (s : State) (page : Nat) (e : MapEntry) (which : Nat → Bool) :
    takeInternal s page e which = (List.range 64).foldl (takeLine page e which) s := rfl

/-- Where nothing is asked for, nothing is taken. -/
theorem takeInternal_none {s : State} {page : Nat} {e : MapEntry} {which : Nat → Bool} (unasked : ∀ i, which i = false) :
    takeInternal s page e which = s := by
  have idle (l : List Nat) : l.foldl (takeLine page e which) s = s := by
    induction l with
    | nil => rfl
    | cons i l ih => rw [List.foldl_cons, takeLine, if_pos (by simp [unasked i]), ih]
  rw [takeInternal_eq, idle]

theorem allTaken_none (s : State) (page : Nat) {which : Nat → Bool} (unasked : ∀ i, which i = false) :
    allTaken s page which = true := by
  simp [allTaken, unasked]

/-- Taking a line changes the saggar alone. -/
theorem takeLine_frame (page : Nat) (e : MapEntry) (which : Nat → Bool) (s : State) (i : Nat) :
    takeLine page e which s i = { s with sag := (takeLine page e which s i).sag } := by
  unfold takeLine
  split <;> rfl

theorem sagLine_setSagLine (s : State) (page i : Nat) (x : SagLine) : sagLine (setSagLine s page i (some x)) page i = some x :=
  tget_tset_val _ _ _ _ (by simp)

/-- Another line of the page is not touched. -/
theorem sagLine_setSagLine_other (s : State) (page : Nat) {i j : Nat} (x : SagLine) (other : j ≠ i) :
    sagLine (setSagLine s page i (some x)) page j = sagLine s page j :=
  tget_tset_val_other _ _ _ _ _ (by simp) (by omega)

/-- A key that is set adds at most one entry that meets a test. -/
theorem filter_tset_length {α : Type} [DecidableEq α] (d : α) (p : Nat × α → Bool) (t : Tab α) (k : Nat) (v : α) :
    ((tset d t k v).filter p).length ≤ (t.filter p).length + 1 := by
  induction t with
  | nil =>
    unfold tset
    split
    · simp
    · exact List.length_filter_le _ _
  | cons y t ih =>
    obtain ⟨j, w⟩ := y
    have more (x : Nat × α) (l : Tab α) : (l.filter p).length ≤ ((x :: l).filter p).length ∧
        ((x :: l).filter p).length ≤ (l.filter p).length + 1 := by
      rw [List.filter_cons]
      split <;> simp
    have kept := more (j, w) t
    unfold tset
    split
    · split
      · omega
      · exact (more _ _).2
    · split
      · split
        · omega
        · have := more (k, v) t
          omega
      · rw [List.filter_cons, List.filter_cons]
        split <;> simp <;> omega

theorem internalUsed_setSagLine (s : State) (page i : Nat) (v : Option SagLine) :
    internalUsed (setSagLine s page i v) ≤ internalUsed s + 1 :=
  (Nat.add_le_add_right (filter_tset_length none _ s.sag.lines (page * 64 + i) v) (engineLines s)).trans_eq
    (Nat.add_right_comm _ _ _)

theorem internalUsed_takeLine (page : Nat) (e : MapEntry) (which : Nat → Bool) (s : State) (i : Nat) :
    internalUsed (takeLine page e which s i) ≤ internalUsed s + 1 := by
  unfold takeLine
  split
  · exact Nat.le_succ _
  · exact internalUsed_setSagLine ..

/-- A line that is there stays as it is. -/
theorem sagLine_takeLine_there {page : Nat} {e : MapEntry} {which : Nat → Bool} {s : State} {i j : Nat} {x : SagLine}
    (there : sagLine s page i = some x) : sagLine (takeLine page e which s j) page i = some x := by
  unfold takeLine
  split
  · exact there
  · next takes =>
    have other : i ≠ j := by
      rintro rfl
      simp [there] at takes
    rw [sagLine_setSagLine_other _ _ _ other, there]

theorem sagLine_foldl_there {page : Nat} {e : MapEntry} {which : Nat → Bool} {s : State} {i : Nat} {x : SagLine} (l : List Nat)
    (there : sagLine s page i = some x) : sagLine (l.foldl (takeLine page e which) s) page i = some x := by
  induction l generalizing s with
  | nil => exact there
  | cons j l ih => exact ih (sagLine_takeLine_there there)

/-- A saggar line holds the current value of a page's line, whole and for the device. -/
structure TakenFrom (s : State) (page : Nat) (e : MapEntry) (i : Nat) (x : SagLine) : Prop where
  internal : x.internal = true
  data : x.data = (currentLine s e page i).1
  poison : x.poison = (currentLine s e page i).2
  whole : x.mask = BitVec.allOnes 64

/-- With room for every line listed, a line that is asked for is there in the end, and one that was not there before
holds its current value. -/
theorem foldl_takeLine_takes {page : Nat} {e : MapEntry} {which : Nat → Bool} {i : Nat} (asked : which i = true) (l : List Nat)
    (listed : i ∈ l) (s : State) (room : internalUsed s + l.length ≤ 16384) :
    ∃ x, sagLine (l.foldl (takeLine page e which) s) page i = some x ∧ (sagLine s page i = none → TakenFrom s page e i x) := by
  induction l generalizing s with
  | nil => simp at listed
  | cons j l ih =>
    rw [List.foldl_cons]
    rw [List.length_cons] at room
    by_cases here : i = j
    · subst here
      cases before : sagLine s page i with
      | some x => exact ⟨x, sagLine_foldl_there l (sagLine_takeLine_there before), by simp⟩
      | none =>
        have taken : takeLine page e which s i = setSagLine s page i (some (internalLine s page e i)) :=
          if_neg (by simp [asked, before]; omega)
        rw [taken]
        exact ⟨_, sagLine_foldl_there l (sagLine_setSagLine ..), fun _ => ⟨rfl, rfl, rfl, rfl⟩⟩
    · have used := internalUsed_takeLine page e which s j
      obtain ⟨x, there, fresh⟩ := ih ((List.mem_cons.1 listed).resolve_left here) (takeLine page e which s j) (by omega)
      refine ⟨x, there, fun absent => ?_⟩
      have absent' : sagLine (takeLine page e which s j) page i = none := by
        unfold takeLine
        split
        · exact absent
        · rw [sagLine_setSagLine_other _ _ _ here, absent]
      have same : currentLine (takeLine page e which s j) e page i = currentLine s e page i := by
        rw [takeLine_frame]
        rfl
      obtain ⟨internal, data, poison, whole⟩ := fresh absent'
      exact ⟨internal, by rw [data, same], by rw [poison, same], whole⟩

section
variable {s : State} {page : Nat} {e : MapEntry} {which : Nat → Bool} (room : internalUsed s + 64 ≤ 16384)
include room

theorem takeInternal_takes {i : Nat} (asked : which i = true) (line : i < 64) :
    ∃ x, sagLine (takeInternal s page e which) page i = some x ∧ (sagLine s page i = none → TakenFrom s page e i x) := by
  rw [takeInternal_eq]
  exact foldl_takeLine_takes asked _ (List.mem_range.2 line) s (by rwa [List.length_range])

theorem allTaken_takeInternal : allTaken (takeInternal s page e which) page which = true := by
  refine List.all_eq_true.2 fun i listed => ?_
  cases asked : which i with
  | false => rfl
  | true =>
    obtain ⟨x, there, -⟩ := takeInternal_takes (page := page) (e := e) room asked (List.mem_range.1 listed)
    rw [there]
    rfl

end

/-! ### Restamp (R125) -/

/-- The lowest stamp that a page's lines may keep: the multiple of 2^38 before the last one. -/
def stampFloor (e : MapEntry) : Nat := (e.stamp / 2 ^ 38 - 1) * 2 ^ 38

/-- A live line of a home has a stamp below the floor. -/
def staleIn (s : State) (e : MapEntry) (home i : Nat) : Bool :=
  liveIn e home i && match mediaLine s home i with | some r => r.stamp < stampFloor e | none => false

theorem staleIn_of_line {s : State} {e : MapEntry} {home i : Nat} {x : LineRec} (live : liveIn e home i = true)
    (line : mediaLine s home i = some x) (low : x.stamp < stampFloor e) : staleIn s e home i = true := by
  simp only [staleIn, live, line, low, decide_true, Bool.and_self]

/-- The lines of a page that a restamp takes into the saggar. -/
def staleBisque (s : State) (e : MapEntry) (i : Nat) : Bool := e.bisqueHome ≠ none40 && staleIn s e e.bisqueHome i

/-- A page's restamp is done. -/
def restamped (s : State) (page : Nat) : State := { s with pl := { s.pl with restamps := s.pl.restamps.filter (· ≠ page) } }

theorem restamped_left (s : State) (page : Nat) : page ∉ (restamped s page).pl.restamps := by simp [restamped]

/-- What the map cache holds is no part of a line's current value. -/
theorem currentLine_fetchSeg (s : State) (e : MapEntry) (page i : Nat) :
    currentLine (fetchSeg s page) e page i = currentLine s e page i := by
  rw [fetchSeg_frame]
  rfl

section
variable {s : State} {page i : Nat} {e : MapEntry} {x : LineRec} (found : entry? (fetchSeg s page) page = some e)
  (up : mediaRuns s = true) (due : page ∈ s.pl.restamps) (free : pageFree s page = true) (open_ : e.secure = false)
include found up due free open_

/-- A restamp that is due: where all stale bisque lines are taken, stale glaze lines go to the refresh stripe. -/
theorem restamp_due (taken : allTaken (takeInternal (fetchSeg s page) page e (staleBisque s e)) page (staleBisque s e) = true) :
    exec (.restamp page) s = .next (
      if e.glazeHome ≠ none40 && (List.range 64).any (staleIn s e e.glazeHome) then
        queueRefreshStripe (restamped (takeInternal (fetchSeg s page) page e (staleBisque s e)) page) (slotRank e.glazeHome) [page]
      else restamped (takeInternal (fetchSeg s page) page e (staleBisque s e)) page) := by
  have opened : ¬ (!mediaRuns s || page ∉ s.pl.restamps || !pageFree s page || e.secure) = true := by simp [up, due, free, open_]
  simp only [exec, execRestamp, found]
  refine congrArg Host.Outcome.next ((if_neg opened).trans ?_)
  exact if_neg (by rw [Bool.not_eq_true', Bool.not_eq_false]; exact taken)

theorem restamp_glaze (homeless : e.bisqueHome = none40) (glazed : e.glazeHome ≠ none40) (inside : i < 64)
    (live : liveIn e e.glazeHome i = true) (line : mediaLine s e.glazeHome i = some x)
    (low : x.stamp < (e.stamp / 2 ^ 38 - 1) * 2 ^ 38) :
    ∃ t, exec (.restamp page) s = .next t ∧ page ∉ t.pl.restamps ∧
      t = queueRefreshStripe { fetchSeg s page with pl := { (fetchSeg s page).pl with
        restamps := (fetchSeg s page).pl.restamps.filter (· ≠ page) } } (slotRank e.glazeHome) [page] := by
  have unasked (i : Nat) : staleBisque s e i = false := by simp [staleBisque, homeless]
  have stale : (e.glazeHome ≠ none40 && (List.range 64).any (staleIn s e e.glazeHome)) = true := by
    rw [Bool.and_eq_true, List.any_eq_true]
    exact ⟨decide_eq_true glazed, i, List.mem_range.2 inside, staleIn_of_line live line low⟩
  have done := restamp_due found up due free open_ (allTaken_none _ page unasked)
  rw [takeInternal_none unasked, if_pos stale] at done
  exact ⟨_, done, restamped_left (fetchSeg s page) page, rfl⟩

/-- Stale bisque lines are taken into the saggar with their current values. -/
theorem restamp_bisque (housed : e.bisqueHome ≠ none40) (room : internalUsed (fetchSeg s page) + 64 ≤ 16384) (inside : i < 64)
    (live : liveIn e e.bisqueHome i = true) (line : mediaLine s e.bisqueHome i = some x)
    (low : x.stamp < (e.stamp / 2 ^ 38 - 1) * 2 ^ 38) (absent : sagLine (fetchSeg s page) page i = none) :
    ∃ t l, exec (.restamp page) s = .next t ∧ page ∉ t.pl.restamps ∧ sagLine t page i = some l ∧ l.internal = true ∧
      l.data = (currentLine s e page i).1 ∧ l.poison = (currentLine s e page i).2 ∧ l.mask = BitVec.allOnes 64 := by
  have asked : staleBisque s e i = true := by
    rw [staleBisque, staleIn_of_line live line low]
    simpa using housed
  obtain ⟨l, there, fresh⟩ := takeInternal_takes (page := page) (e := e) room asked inside
  obtain ⟨internal, data, poison, whole⟩ := fresh absent
  rw [currentLine_fetchSeg] at data poison
  have done := restamp_due found up due free open_ (allTaken_takeInternal room)
  refine ⟨_, l, done, ?_, ?_, internal, data, poison, whole⟩
  · split
    · exact restamped_left _ page
    · exact restamped_left _ page
  · split
    · exact there
    · exact there

end

/-! ### Refresh (R299) -/

/-- A page has left the refresh queue. -/
def refreshLeft (s : State) (page : Nat) : State := { s with pl := { s.pl with refreshes := s.pl.refreshes.filter (· ≠ page) } }

theorem refresh_glaze (s : State) (page : Nat) (e : MapEntry) (found : entry? (fetchSeg s page) page = some e)
    (up : mediaRuns s = true) (due : page ∈ s.pl.refreshes) (free : pageFree s page = true) (open_ : e.secure = false)
    (unpinned : e.pin = false) (glazed : e.state = .glaze ∨ e.state = .split) :
    ∃ t, exec (.refresh page) s = .next t ∧ page ∉ t.pl.refreshes ∧
      t = queueRefreshStripe { fetchSeg s page with pl := { (fetchSeg s page).pl with
        refreshes := (fetchSeg s page).pl.refreshes.filter (· ≠ page) } } (slotRank e.glazeHome) [page] := by
  have opened : ¬ (!mediaRuns s || page ∉ s.pl.refreshes || !pageFree s page) = true := by simp [up, due, free]
  have stays : ¬ promotes e = true := by simp [promotes, unpinned]
  have other : e.state ≠ .bisqueWhole := by intro whole; simp [whole] at glazed
  have queued : (e.state = .glaze || e.state = .split) = true := by simpa using glazed
  have leaves : exec (.refresh page) s =
      .next (queueRefreshStripe (refreshLeft (fetchSeg s page) page) (slotRank e.glazeHome) [page]) := by
    simp only [exec, execRefresh, found]
    exact congrArg Host.Outcome.next ((if_neg opened).trans ((if_neg (by rw [open_]; decide)).trans ((if_neg stays).trans
      ((if_neg other).trans (if_pos queued)))))
  exact ⟨_, leaves, by simp [queueRefreshStripe, refreshLeft], rfl⟩

/-- A page in neither queue is left alone. -/
theorem refresh_restamp_idle (s : State) (page : Nat) (unqueued : page ∉ s.pl.refreshes) (plain : page ∉ s.pl.restamps) :
    exec (.refresh page) s = .next s ∧ exec (.restamp page) s = .next s := by
  simp only [exec, execRefresh, execRestamp]
  cases entry? (fetchSeg s page) page with
  | none => exact ⟨rfl, rfl⟩
  | some e =>
    exact ⟨congrArg Host.Outcome.next (if_pos (by simp [unqueued])), congrArg Host.Outcome.next (if_pos (by simp [plain]))⟩

/-- Settles O32: reclaim by the victim that is named, moves by what each leaves of the page's lines and queues. -/
theorem reclaimAndMoves : Obligations.ReclaimAndMoves :=
  ⟨⟨fun _ _ _ => reclaimStart_chooses, makeVictim_valid, makeVictim_void, bestVictim_best, fun _ _ _ => levelling_even,
      fun _ _ _ _ => levelling_spread, fun _ _ => victimRelease_letGo, fun _ _ => victimRelease_held⟩,
    fun _ _ _ => bisqueRelocation_homeless, fun _ _ _ _ _ => bisqueRelocation_page, fun _ _ _ _ _ => restamp_glaze,
    by rintro s _ page i e x rfl; exact restamp_bisque, refresh_glaze, refresh_restamp_idle⟩

end Sys2Proof.Proofs.PageMoves
end

section
/-! The host link: host resets, retrains, the loss of the link, lane repairs. -/
namespace Sys2Proof.Proofs.HostLink
open Sys2Proof Machine Safety

/-- What reports leave of a state: every field outside them. -/
theorem unreported {s t : State} (h : ReportsOnly s t) {α : Type} (f : State → α) : f (quiet t) = f (quiet s) := congrArg f h.1

/-! ### Host resets (R432, R632) -/

/-- A host reset discards the completions that waited for a bell (R432). -/
theorem hostResetCore_unheld (s : State) : ∀ c ∈ (hostResetCore s).pp.comps, c.held = false := by
  intro c kept
  simpa using (List.mem_filter.1 kept).2

theorem hostReset_resets (s : State) (k : HostResetKind) (opened : hostOpen s = true) :
    ∃ t, exec (.hostReset k) s = .next t ∧ t.hl.memEnable = false ∧ t.hq.creditsOn = false ∧ t.hq.queue = [] ∧ t.hq.holds = [] ∧
      t.hq.rdCredits = 0 ∧ t.hq.wrCredits = 0 ∧ t.hq.reads = s.hq.reads ∧ t.ig.ideActive = 0#2 ∧ t.hl.msix = [] ∧
      t.hl.hdm = (if k = .flr then s.hl.hdm else []) ∧ (∀ c ∈ t.pp.comps, c.held = false) :=
  ⟨_, congrArg Host.Outcome.next (if_pos opened), rfl, rfl, rfl, rfl, rfl, rfl, rfl, rfl, rfl, rfl, hostResetCore_unheld s⟩

theorem hostReset_closed (s : State) (k : HostResetKind) (closed : hostOpen s = false) : exec (.hostReset k) s = .next s :=
  congrArg Host.Outcome.next (if_neg (by simp [closed]))

/-! ### Retrains (R181, R396) -/

/-- An active link leaves active at this beat, and the retrain is counted. -/
def retraining (s : State) : State :=
  { s with hl := { s.hl with state := .retraining, leftActive := some s.clk.beat, retrains := satAdd 16 s.hl.retrains 1 } }

theorem startHostRetrain_active (s : State) (up : s.hl.state = .active) : ReportsOnly (retraining s) (startHostRetrain s) := by
  have leaves : startHostRetrain s = raise (retraining s) 0x11 srcHost 0 0 0 0 := if_neg (by simp [up])
  rw [leaves]
  exact raise_reports (.refl _) ..

/-- A retrain for another cause than a lane repair only starts the retrain. -/
theorem ucieRetrain_plain (s : State) (c : RetrainCause) (plain : ∀ m tx lane, c ≠ .laneRepair m tx lane) :
    exec (.ucieRetrain c) s = .next (if !ioOpen s then s else startHostRetrain s) := by
  cases c with
  | retryExhausted => rfl
  | hostRequest => rfl
  | laneRepair m tx lane => exact absurd rfl (plain m tx lane)

theorem ucieRetrain_active (s : State) (c : RetrainCause) (opened : ioOpen s = true) (up : s.hl.state = .active)
    (plain : ∀ m tx lane, c ≠ .laneRepair m tx lane) :
    ∃ t, exec (.ucieRetrain c) s = .next t ∧ t.hl.state = .retraining ∧ t.hl.leftActive = some s.clk.beat ∧
      ReportsOnly (retraining s) t := by
  have starts := startHostRetrain_active s up
  refine ⟨startHostRetrain s, ?_, unreported starts (·.hl.state), unreported starts (·.hl.leftActive), starts⟩
  rw [ucieRetrain_plain s c plain, if_neg (by simp [opened])]

theorem ucieRetrain_inactive (s : State) (c : RetrainCause) (other : s.hl.state ≠ .active)
    (plain : ∀ m tx lane, c ≠ .laneRepair m tx lane) : exec (.ucieRetrain c) s = .next s := by
  rw [ucieRetrain_plain s c plain, if_pos (by simp [ioOpen, other])]

theorem ucieRetrainDone_sends (s : State) (retrains : s.hl.state = .retraining) :
    exec .ucieRetrainDone s = .next { s with
      hl := { s.hl with state := .active, leftActive := none }
      hq := { s.hq with sent := s.hq.sent ++ s.hq.egress, egress := [] } } :=
  congrArg Host.Outcome.next (if_pos retrains)

/-! ### The link goes down and comes up (R182, R393, R395, R397) -/

/-- The host side reset and the link down, before the event of the loss. -/
def linkDropped (s : State) : State :=
  let r := hostResetRegs (hostResetCore s) .hot
  { r with
    hl := { r.hl with state := .down, modUp := 0, leftActive := none, linkDowns := satAdd 16 r.hl.linkDowns 1 }
    hq := { r.hq with reads := [], egress := [] } }

/-- Declaring the link down leaves what `linkDropped` says, and reports it. -/
theorem declareDown_reports (s : State) : ReportsOnly (linkDropped s) (declareDown s) :=
  raise_reports (.refl (linkDropped s)) 0x12 srcHost 0 0 0 0

theorem linkDown_due (s : State) (b : Nat) (left : s.hl.leftActive = some b) (retrains : s.hl.state = .retraining)
    (due : b + 16000 ≤ s.clk.beat) :
    ∃ t, exec .linkDown s = .next t ∧ t.hl.state = .down ∧ t.hl.modUp = 0 ∧ t.hl.memEnable = false ∧ t.hl.hdm = [] ∧
      t.hl.linkDowns = satAdd 16 s.hl.linkDowns 1 ∧ t.hq.reads = [] ∧ t.hq.egress = [] ∧ t.hq.queue = [] ∧ t.mp = s.mp ∧
      t.sag = s.sag := by
  have drops := declareDown_reports s
  have queues : (declareDown s).hq = (linkDropped s).hq := unreported drops (·.hq)
  refine ⟨declareDown s, ?_, unreported drops (·.hl.state), unreported drops (·.hl.modUp), unreported drops (·.hl.memEnable),
    unreported drops (·.hl.hdm), unreported drops (·.hl.linkDowns), ?_, ?_, ?_, unreported drops (·.mp), unreported drops (·.sag)⟩
  · simp only [exec, execLinkDown, left]
    exact congrArg Host.Outcome.next (if_pos (by simp [retrains, due]))
  all_goals rw [queues]; rfl

theorem linkDown_early (s : State) (b : Nat) (left : s.hl.leftActive = some b) (early : s.clk.beat < b + 16000) :
    exec .linkDown s = .next s := by
  simp only [exec, execLinkDown, left]
  exact congrArg Host.Outcome.next (if_neg (by simp [early]))

/-- A training attempt comes up just where it may and every module can train (R393, R395). -/
theorem linkTrainRetry_tries (s : State) (comesUp : Bool) (runs : awake s = true) (started : 10 ≤ s.pwr.step)
    (waits : s.hl.state = .down ∨ s.hl.state = .training) :
    exec (.linkTrainRetry comesUp) s =
      .next (if comesUp && (List.range 4).all (fun m => !(tget ({} : ModRec) s.hl.mods m).failed) then
        { s with hl := { s.hl with state := .active, modUp := 0xF, leftActive := none } }
      else { s with hl := { s.hl with state := .training } }) := by
  refine congrArg Host.Outcome.next (if_neg ?_)
  rcases waits with waits | waits <;> simp [runs, started, waits]

theorem linkTrainRetry_up (s : State) (runs : awake s = true) (started : 10 ≤ s.pwr.step)
    (waits : s.hl.state = .down ∨ s.hl.state = .training) (sound : ∀ m < 4, (tget ({} : ModRec) s.hl.mods m).failed = false) :
    exec (.linkTrainRetry true) s = .next { s with hl := { s.hl with state := .active, modUp := 0xF, leftActive := none } } := by
  rw [linkTrainRetry_tries s true runs started waits, if_pos]
  simpa using sound

theorem linkTrainRetry_fails (s : State) (runs : awake s = true) (started : 10 ≤ s.pwr.step)
    (waits : s.hl.state = .down ∨ s.hl.state = .training) :
    exec (.linkTrainRetry false) s = .next { s with hl := { s.hl with state := .training } } := by
  rw [linkTrainRetry_tries s false runs started waits, if_neg (by simp)]

theorem ucieFlitCrcFail_counts (s : State) (up : s.hl.state = .active) :
    exec .ucieFlitCrcFail s = .next { s with hl := { s.hl with
      replays := satAdd 32 s.hl.replays 1, rasCorrectable := s.hl.rasCorrectable + 1 } } :=
  congrArg Host.Outcome.next (if_pos up)

/-! ### Lane repairs (R394, R395, R415) -/

/-- The repairs of a module's direction so far. -/
def lanesUsed (s : State) (m : Nat) (tx : Bool) : Nat :=
  if tx then (tget ({} : ModRec) s.hl.mods m).txUsed else (tget ({} : ModRec) s.hl.mods m).rxUsed

/-- A module's record after one more repair of a lane of a direction. -/
def laneMended (r : ModRec) (tx : Bool) (lane : Nat) : ModRec :=
  if tx then { r with txUsed := r.txUsed + 1, lastTx := lane } else { r with rxUsed := r.rxUsed + 1, lastRx := lane }

theorem laneMended_ne_default (r : ModRec) (tx : Bool) (lane : Nat) : laneMended r tx lane ≠ {} := by
  cases tx with
  | false => exact fun e => absurd (congrArg ModRec.rxUsed e) (Nat.succ_ne_zero _)
  | true => exact fun e => absurd (congrArg ModRec.txUsed e) (Nat.succ_ne_zero _)

/-- A lane is repaired, before the record and the event of the repair. -/
def laneRepaired (s : State) (m : Nat) (tx : Bool) (lane : Nat) : State :=
  { s with hl := { s.hl with
    mods := tset {} s.hl.mods m (laneMended (tget {} s.hl.mods m) tx lane), aerCorrected := s.hl.aerCorrected ||| 0x4000 } }

/-- A module has failed, before the events of it. -/
def moduleFailed (s : State) (m : Nat) : State :=
  { s with hl := { s.hl with mods := tset {} s.hl.mods m { tget ({} : ModRec) s.hl.mods m with failed := true } } }

/-- With a redundant lane left the repair is recorded in the module, and the link's state stays. -/
theorem repairLane_spare (s : State) (m : Nat) (tx : Bool) (lane : Nat) (spare : lanesUsed s m tx < 4) :
    ∃ t, repairLane s m tx lane = (t, true) ∧ t.hl.state = s.hl.state ∧
      tget {} t.hl.mods m = laneMended (tget {} s.hl.mods m) tx lane := by
  have mends : ∃ p, repairLane s m tx lane = (raise (keepPut (laneRepaired s m tx lane) 0x22 p) 0x10 srcHost m lane 0 0, true) := by
    refine ⟨laneRecord (laneRepaired s m tx lane), (if_neg (Nat.not_le.2 spare)).trans ?_⟩
    cases tx <;> rfl
  obtain ⟨p, mends⟩ := mends
  have told := raise_reports (keepPut_reports (.refl (laneRepaired s m tx lane)) 0x22 p) 0x10 srcHost m lane 0 0
  refine ⟨_, mends, unreported told (·.hl.state), (congrArg (tget {} · m) (unreported told (·.hl.mods))).trans ?_⟩
  exact tget_tset_val _ _ _ _ (laneMended_ne_default _ _ _)

/-- With four repairs made the module fails. -/
theorem repairLane_spent (s : State) (m : Nat) (tx : Bool) (lane : Nat) (spent : 4 ≤ lanesUsed s m tx) :
    ∃ t, repairLane s m tx lane = (t, false) ∧ (tget {} t.hl.mods m).failed = true := by
  have fails : repairLane s m tx lane = (exhaust (raise (moduleFailed s m) 0x13 srcHost m 0 0 0) 5, false) := if_pos spent
  have kept : Keeps (Startup.allBut .hl) (moduleFailed s m) (exhaust (raise (moduleFailed s m) 0x13 srcHost m 0 0 0) 5) :=
    exhaust_keeps (raise_keeps (.refl _ _) rfl) rfl
  have mods : (exhaust (raise (moduleFailed s m) 0x13 srcHost m 0 0 0) 5).hl.mods = (moduleFailed s m).hl.mods :=
    Startup.hl_field (Startup.same_of_keeps kept) HostLinkSt.mods
  have record : tget {} (moduleFailed s m).hl.mods m = { tget ({} : ModRec) s.hl.mods m with failed := true } :=
    tget_tset_val _ _ _ _ fun e => Bool.false_ne_true (congrArg ModRec.failed e).symm
  refine ⟨_, fails, ?_⟩
  rw [mods, record]

/-- A lane repair retrains the link, or takes it down. -/
theorem ucieRetrain_laneRepair (s t : State) (m : Fin 4) (tx ok : Bool) (lane : Fin 64) (opened : ioOpen s = true)
    (repairs : repairLane s m.val tx lane.val = (t, ok)) :
    exec (.ucieRetrain (.laneRepair m tx lane)) s = .next (if ok then startHostRetrain t else declareDown t) := by
  refine congrArg Host.Outcome.next ((if_neg (by simp [opened])).trans ?_)
  dsimp only
  rw [repairs]

theorem laneRepair_mends (s : State) (m : Fin 4) (tx : Bool) (lane : Fin 64) (opened : ioOpen s = true) (up : s.hl.state = .active)
    (spare : lanesUsed s m.val tx < 4) :
    ∃ t, exec (.ucieRetrain (.laneRepair m tx lane)) s = .next t ∧ t.hl.state = .retraining ∧
      (tx = true → (tget {} t.hl.mods m.val).txUsed = (tget {} s.hl.mods m.val).txUsed + 1 ∧
        (tget {} t.hl.mods m.val).lastTx = lane.val) ∧
      (tx = false → (tget {} t.hl.mods m.val).rxUsed = (tget {} s.hl.mods m.val).rxUsed + 1 ∧
        (tget {} t.hl.mods m.val).lastRx = lane.val) := by
  obtain ⟨u, mends, state, record⟩ := repairLane_spare s m.val tx lane.val spare
  have starts := startHostRetrain_active u (state.trans up)
  have mods : (startHostRetrain u).hl.mods = u.hl.mods := unreported starts (·.hl.mods)
  refine ⟨startHostRetrain u, ucieRetrain_laneRepair s u m tx true lane opened mends, unreported starts (·.hl.state), ?_, ?_⟩
  · rintro rfl
    rw [mods, record]
    exact ⟨rfl, rfl⟩
  · rintro rfl
    rw [mods, record]
    exact ⟨rfl, rfl⟩

theorem laneRepair_fifth (s : State) (m : Fin 4) (tx : Bool) (lane : Fin 64) (opened : ioOpen s = true)
    (spent : 4 ≤ lanesUsed s m.val tx) :
    ∃ t, exec (.ucieRetrain (.laneRepair m tx lane)) s = .next t ∧ t.hl.state = .down ∧
      (tget {} t.hl.mods m.val).failed = true := by
  obtain ⟨u, fails, failed⟩ := repairLane_spent s m.val tx lane.val spent
  have drops := declareDown_reports u
  have mods : (declareDown u).hl.mods = u.hl.mods := unreported drops (·.hl.mods)
  refine ⟨declareDown u, ucieRetrain_laneRepair s u m tx false lane opened fails, unreported drops (·.hl.state), ?_⟩
  rw [mods]
  exact failed

/-- Settles O37: each command of the host link by what it leaves before its event, which changes reports alone. -/
theorem hostLinkAndLanes : Obligations.HostLinkAndLanes :=
  ⟨⟨hostReset_resets, hostReset_closed, ucieRetrain_active, ucieRetrain_inactive, ucieRetrainDone_sends, linkDown_due,
      linkDown_early, linkTrainRetry_up, linkTrainRetry_fails, ucieFlitCrcFail_counts⟩,
    laneRepair_mends, laneRepair_fifth⟩

end Sys2Proof.Proofs.HostLink
end

section
/-! Requests of the host on CXL.mem, the decode of a read in flight and its response. -/
namespace Sys2Proof.Proofs.HostReads
open Sys2Proof Machine Safety Startup

/-! ### Requests (R158, R162, R187, R204, R399, R415) -/

theorem link_of_memOpen {s : State} (opened : memOpen s = true) : s.hl.state = .active := by
  simp only [memOpen, Bool.and_eq_true, decide_eq_true_eq] at opened
  exact opened.1.1

/-- On an active link a response is sent at once. -/
theorem sendResp_active {s : State} (up : s.hl.state = .active) (r : Resp) :
    sendResp s r = { s with hq := { s.hq with sent := s.hq.sent ++ [r] } } := if_pos up

theorem memRd_queues (s : State) (hpa : BitVec 64) (tag cycle : Nat) (opened : memOpen s = true) (credit : 0 < s.hq.rdCredits) :
    exec (.memRd hpa tag cycle) s = .next { s with hq := { s.hq with
      rdCredits := s.hq.rdCredits - 1
      queue := s.hq.queue ++ [{ hpa := hpa, tag := tag % 65536, arrival := s.clk.beat * 64 + cycle % 64, kind := .read }] } } :=
  congrArg Host.Outcome.next (if_pos (by simp [opened, credit]))

theorem memWr_queues (s : State) (hpa : BitVec 64) (tag cycle : Nat) (be : BitVec 64) (data : LineData) (poison : Bool)
    (opened : memOpen s = true) (credit : 0 < s.hq.wrCredits) :
    exec (.memWr hpa tag cycle be data poison) s = .next { s with hq := { s.hq with
      wrCredits := s.hq.wrCredits - 1
      queue := s.hq.queue ++ [{ hpa := hpa, tag := tag % 65536, arrival := s.clk.beat * 64 + cycle % 64
                                kind := .write be data poison }] } } ∧
    exec (.memWrPtl hpa tag cycle be data poison) s = exec (.memWr hpa tag cycle be data poison) s :=
  ⟨congrArg Host.Outcome.next (if_pos (by simp [opened, credit])), rfl⟩

theorem memInv_completes (s : State) (tag : Nat) (opened : memOpen s = true) :
    exec (.memInv tag) s = .next { s with hq := { s.hq with sent := s.hq.sent ++ [.cmp (tag % 65536)] } } :=
  congrArg Host.Outcome.next ((if_pos opened).trans (sendResp_active (link_of_memOpen opened) _))

theorem unsupported_completes (s : State) (isRead : Bool) (tag opcode : Nat) (opened : memOpen s = true) :
    exec (.cxlMemUnsupported isRead tag opcode) s = .next { s with
      hl := { s.hl with rasUncorrectable := s.hl.rasUncorrectable ||| 1, rasHead := some (isRead, tag % 65536, opcode) }
      hq := { s.hq with sent := s.hq.sent ++ [if isRead then .memData (tag % 65536) 0 true else .cmp (tag % 65536)] } } :=
  congrArg Host.Outcome.next ((if_pos opened).trans (if_pos (link_of_memOpen opened)))

theorem channel_closed (s : State) (hpa : BitVec 64) (tag cycle : Nat) (be : BitVec 64) (data : LineData) (poison : Bool)
    (closed : memOpen s = false) :
    exec (.memRd hpa tag cycle) s = .next s ∧ exec (.memWr hpa tag cycle be data poison) s = .next s ∧
    exec (.memWrPtl hpa tag cycle be data poison) s = .next s ∧ exec (.memInv tag) s = .next s := by
  have write : queueWrite s hpa tag cycle be data poison = s := if_neg (by simp [closed])
  exact ⟨congrArg Host.Outcome.next (if_neg (by simp [closed])), congrArg Host.Outcome.next write,
    congrArg Host.Outcome.next write, congrArg Host.Outcome.next (if_neg (by simp [closed]))⟩

/-! ### The decode of a read (R169, R175, R380, R381) -/

/-- A shared sense that adds nothing to the reads' paths. -/
theorem setShared_zero (s : State) (r : Rd) (st : RdStage) : setShared s r st 0 =
    { s with hq := { s.hq with reads := s.hq.reads.map fun x => if r.shares x then { x with stage := st } else x } } := by
  have pathKept (p : BitVec 8) : p ||| 0 = p := BitVec.or_zero
  simp only [setShared, pathKept]

section
variable {s : State} {tag slot : Nat} {r : Rd} {b : Bool}

/-- The report of a read that waits for its sense: none before the sense, poison without the stamp slot, else its first
attempt. -/
theorem exec_decode (o : Sensed) (others : List (Nat × Sensed)) (found : s.hq.reads.find? (fun r => r.tag = tag) = some r)
    (stage : r.stage = .sense slot b) :
    exec (.lineDecodeDone (.read tag) o others) s = .next (if notSensed s r slot b then s
      else if slotLost s r.taken r.tree others then setShared s r (.done 0 true) 0 else decodeFirst s r slot b o) := by
  simp only [exec, execLineDecodeDone, decodeRead, found, stage]

/-- A line that passes its checks gives its data; below the correction threshold no event is raised (R175). -/
theorem decodeFirst_good {o : Sensed} {x : LineRec} {n : Nat} (good : checkLine s r.aim r.page r.line o = .good x n)
    (few : n < corrBits s) : decodeFirst s r slot b o =
      useSlot (setShared s r (.done (if x.poison then 0 else x.data) x.poison) 0) r.page r.taken r.tree := by
  simp only [decodeFirst, good, if_neg (Nat.not_le.2 few)]

end

/-- Using a slot changes the map's and the integrity parts at most. -/
theorem useSlot_frame (s : State) (page : Nat) (e : MapEntry) (tree : Bool) :
    useSlot s page e tree = { s with mp := (useSlot s page e tree).mp, ig := (useSlot s page e tree).ig } := by
  have cases := useSlot_cases s page e tree
  split at cases
  · rw [cases]
  · exact cases.1

/-- Without a slot to use nothing changes (R374). -/
theorem useSlot_none {s : State} {page : Nat} {e : MapEntry} {tree : Bool} (unneeded : (tree && needsSlot e) = false) :
    useSlot s page e tree = s := if_pos (by cases tree <;> simp_all)

/-- A slot that is used is cached with the stamps it had (R375, R380). -/
theorem useSlot_cached {s : State} {page : Nat} {e : MapEntry} {tree : Bool} (needed : (tree && needsSlot e) = true)
    (good : slotGood s e = true) : slotStamps (useSlot s page e tree) e.bisqueHome = slotStamps s e.bisqueHome ∧
      (stampSlot (useSlot s page e tree) e.bisqueHome).isSome = true := by
  have cases := useSlot_cases s page e tree
  have uses : ¬ (!tree || !needsSlot e || !slotGood s e) = true := by
    rw [Bool.and_eq_true] at needed
    simp [needed, good]
  rw [if_neg uses] at cases
  exact cases.2

theorem decode_good (s : State) (tag : Nat) (r : Rd) (slot : Nat) (b : Bool) (o : Sensed) (others : List (Nat × Sensed))
    (x : LineRec) (n : Nat) (found : s.hq.reads.find? (fun r => r.tag = tag) = some r) (stage : r.stage = .sense slot b)
    (sensed : notSensed s r slot b = false) (had : slotLost s r.taken r.tree others = false)
    (good : checkLine s r.aim r.page r.line o = .good x n) (few : n < corrBits s) :
    ∃ t, exec (.lineDecodeDone (.read tag) o others) s = .next t ∧
      t.hq = { s.hq with reads := s.hq.reads.map fun y => if r.shares y then
        { y with stage := .done (if x.poison then 0 else x.data) x.poison } else y } ∧
      t = { s with hq := t.hq, mp := t.mp, ig := t.ig } ∧
      ((r.tree && needsSlot r.taken) = false → t.mp = s.mp ∧ t.ig = s.ig) ∧
      ((r.tree && needsSlot r.taken) = true → slotGood s r.taken = true →
        slotStamps t r.taken.bisqueHome = slotStamps s r.taken.bisqueHome ∧
        (stampSlot t r.taken.bisqueHome).isSome = true) := by
  have decodes := exec_decode o others found stage
  rw [if_neg (by simp [sensed]), if_neg (by simp [had]), decodeFirst_good good few, setShared_zero] at decodes
  refine ⟨_, decodes, ?_, ?_, fun unneeded => ?_, fun needed slots => useSlot_cached needed slots⟩
  · rw [useSlot_frame]
  · rw [useSlot_frame]
  · rw [useSlot_none unneeded]
    exact ⟨rfl, rfl⟩

theorem decode_early (s : State) (tag : Nat) (r : Rd) (slot : Nat) (b : Bool) (o : Sensed) (others : List (Nat × Sensed))
    (found : s.hq.reads.find? (fun r => r.tag = tag) = some r) (stage : r.stage = .sense slot b)
    (waits : notSensed s r slot b = true) : exec (.lineDecodeDone (.read tag) o others) s = .next s := by
  rw [exec_decode o others found stage, if_pos waits]

theorem decode_slotLost (s : State) (tag : Nat) (r : Rd) (slot : Nat) (b : Bool) (o : Sensed) (others : List (Nat × Sensed))
    (found : s.hq.reads.find? (fun r => r.tag = tag) = some r) (stage : r.stage = .sense slot b)
    (sensed : notSensed s r slot b = false) (lost : slotLost s r.taken r.tree others = true) :
    exec (.lineDecodeDone (.read tag) o others) s = .next { s with hq := { s.hq with
      reads := s.hq.reads.map fun y => if r.shares y then { y with stage := .done 0 true } else y } } := by
  rw [exec_decode o others found stage, if_neg (by simp [sensed]), if_pos lost, setShared_zero]

/-! ### The response of a read (R158, R181, R557, R613) -/

/-- A read of a tag leaves, and the credit that waited for its response may go back (R557). -/
def readAnswered (s : State) (tag : Nat) : State :=
  { s with hq := { s.hq with
    reads := s.hq.reads.filter fun x => x.tag ≠ tag
    holds := s.hq.holds.map fun h => match h with
      | .readDone g z _ => if g = tag then .readDone g z true else h
      | _ => h } }

/-- The parts that the counts and the sample of a response may change: monitors and reports. -/
def countsMask : BitVec 21 := 0x108000#21

/-- A response leaves on an active link between its counts and its sample. -/
theorem exec_dataResponse {s : State} {tag cycle : Nat} {r : Rd} {d : LineData} {p : Bool}
    (found : s.hq.reads.find? (fun r => r.tag = tag) = some r) (stage : r.stage = .done d p) (up : s.hl.state = .active) :
    ∃ u t, Keeps countsMask (readAnswered s tag) u ∧ Keeps countsMask (sendResp u (.memData tag (if p then 0 else d) p)) t ∧
      exec (.dataResponse tag cycle) s = .next t := by
  simp only [exec, execDataResponse, found, stage, if_neg (not_not.2 up)]
  have counted (n : Nat) : Keeps countsMask (readAnswered s tag)
      (portBytes (count (count (readAnswered s tag) 0 0xE 0xFF n) 0 0xF 0xFF 1) 0 0 64) :=
    portBytes_keeps (count_keeps (count_keeps (.refl _ _) rfl) rfl) rfl
  exact ⟨_, _, .ite (portBytes_keeps (counted _) rfl) (counted _), samplePut_keeps (.refl _ _) rfl, rfl⟩

theorem dataResponse_sends (s : State) (tag cycle : Nat) (r : Rd) (d : LineData) (p : Bool)
    (found : s.hq.reads.find? (fun r => r.tag = tag) = some r) (stage : r.stage = .done d p) (up : s.hl.state = .active) :
    ∃ t, exec (.dataResponse tag cycle) s = .next t ∧
      t.hq.sent = s.hq.sent ++ [.memData tag (if p then 0 else d) p] ∧
      t.hq.reads = s.hq.reads.filter (fun x => x.tag ≠ tag) ∧
      t.hq.queue = s.hq.queue ∧ t.hq.rdCredits = s.hq.rdCredits ∧ t.hq.wrCredits = s.hq.wrCredits ∧
      t.mp = s.mp ∧ t.sag = s.sag ∧ t.pl = s.pl ∧ t.hl.state = s.hl.state ∧ t.clk = s.clk := by
  obtain ⟨u, t, counted, sampled, answers⟩ := exec_dataResponse (cycle := cycle) found stage up
  have linkBefore : u.hl.state = s.hl.state := hl_field (counted.same.part .hl (by decide)) HostLinkSt.state
  rw [sendResp_active (linkBefore.trans up)] at sampled
  have queuesBefore : u.hq = (readAnswered s tag).hq := counted.same.part .hq (by decide)
  have queues : t.hq = { u.hq with sent := u.hq.sent ++ [.memData tag (if p then 0 else d) p] } := sampled.same.part .hq (by decide)
  rw [queuesBefore] at queues
  have map : t.mp = s.mp := Eq.trans (sampled.same.part .mp (by decide)) (counted.same.part .mp (by decide))
  have saggar : t.sag = s.sag := Eq.trans (sampled.same.part .sag (by decide)) (counted.same.part .sag (by decide))
  have placed : t.pl = s.pl := Eq.trans (sampled.same.part .pl (by decide)) (counted.same.part .pl (by decide))
  have clocks : t.clk = s.clk := Eq.trans (sampled.same.part .clk (by decide)) (counted.same.part .clk (by decide))
  have link : t.hl.state = s.hl.state := (hl_field (sampled.same.part .hl (by decide)) HostLinkSt.state).trans linkBefore
  refine ⟨t, answers, ?_, ?_, ?_, ?_, ?_, map, saggar, placed, link, clocks⟩
  all_goals rw [queues]; rfl

theorem dataResponse_undone (s : State) (tag cycle : Nat) (undone : ∀ r ∈ s.hq.reads, r.tag = tag → ∀ d p, r.stage ≠ .done d p) :
    exec (.dataResponse tag cycle) s = .next s := by
  refine congrArg Host.Outcome.next ?_
  cases found : s.hq.reads.find? (fun r => r.tag = tag) with
  | none => rfl
  | some r =>
    have named : r.tag = tag := by simpa using List.find?_some found
    have notDone := undone r (List.mem_of_find?_eq_some found) named
    dsimp only
    split
    · next d p done => exact absurd done (notDone d p)
    · rfl

/-- Settles O20: requests by their guards, a decode by its branches, a response by what its counts leave. -/
theorem hostRequestsAndResponses : Obligations.HostRequestsAndResponses :=
  ⟨⟨memRd_queues, memWr_queues, fun _ _ _ => rfl, memInv_completes, unsupported_completes, channel_closed⟩,
    decode_good, decode_early, decode_slotLost, dataResponse_sends, dataResponse_undone⟩

end Sys2Proof.Proofs.HostReads
end

section
/-! Partial writes and the background fills of the saggar. -/
namespace Sys2Proof.Proofs.Fills
open Sys2Proof Machine Safety

/-! ### Bytes under a mask (R204, R205) -/

/-- The bits of the first `n` enabled bytes. -/
def bytesBelow (be : BitVec 64) (n : Nat) : BitVec 512 :=
  (List.range n).foldl (fun acc i => if be.getLsbD i then acc ||| (0xFF#512 <<< (8 * i)) else acc) 0

theorem byteMask_eq (be : BitVec 64) : byteMask be = bytesBelow be 64 := rfl

theorem bytesBelow_succ (be : BitVec 64) (n : Nat) : bytesBelow be (n + 1) =
    if be.getLsbD n then bytesBelow be n ||| (0xFF#512 <<< (8 * n)) else bytesBelow be n := by
  rw [bytesBelow, List.range_succ, List.foldl_append]
  rfl

/-- The bits of one byte. -/
theorem byte_bits {n j : Nat} (inside : j < 512) : (0xFF#512 <<< (8 * n)).getLsbD j = decide (j / 8 = n) := by
  have ones (k : Nat) : (0xFF : Nat).testBit k = decide (k < 8) := Nat.testBit_two_pow_sub_one 8 k
  rw [BitVec.getLsbD_shiftLeft, BitVec.getLsbD_ofNat, ones]
  simp only [← decide_not, ← Bool.decide_and, decide_eq_decide]
  omega

theorem bytesBelow_bits (be : BitVec 64) (n : Nat) {j : Nat} (inside : j < 512) :
    (bytesBelow be n).getLsbD j = (decide (j / 8 < n) && be.getLsbD (j / 8)) := by
  induction n with
  | zero => exact BitVec.getLsbD_zero
  | succ n ih =>
    have bits : (bytesBelow be (n + 1)).getLsbD j = ((bytesBelow be n).getLsbD j || (be.getLsbD n && decide (j / 8 = n))) := by
      rw [bytesBelow_succ]
      cases be.getLsbD n <;> simp [byte_bits inside]
    rw [bits, ih]
    by_cases last : j / 8 = n
    · simp [last]
    · have grows : j / 8 < n + 1 ↔ j / 8 < n := by omega
      simp [last, grows]

/-- A merged bit is that of the side its byte's enable names. -/
theorem mergeBytes_bits (old new : LineData) (be : BitVec 64) {j : Nat} (inside : j < 512) :
    (mergeBytes old new be).getLsbD j = if be.getLsbD (j / 8) then new.getLsbD j else old.getLsbD j := by
  have mask : (byteMask be).getLsbD j = be.getLsbD (j / 8) := by
    rw [byteMask_eq, bytesBelow_bits be 64 inside, decide_eq_true (by omega), Bool.true_and]
  rw [mergeBytes, BitVec.getLsbD_or, BitVec.getLsbD_and, BitVec.getLsbD_and, BitVec.getLsbD_not, mask, decide_eq_true inside]
  cases be.getLsbD (j / 8) <;> simp

theorem mergeBytes_byte (old new : LineData) (be : BitVec 64) (i : Fin 64) :
    (mergeBytes old new be).extractLsb' (8 * i.val) 8 =
      if be.getLsbD i.val then new.extractLsb' (8 * i.val) 8 else old.extractLsb' (8 * i.val) 8 := by
  refine BitVec.eq_of_getLsbD_eq fun j inside => ?_
  have byte : (8 * i.val + j) / 8 = i.val := by omega
  rw [BitVec.getLsbD_extractLsb', mergeBytes_bits old new be (by omega), byte]
  cases be.getLsbD i.val <;> simp [BitVec.getLsbD_extractLsb']

/-! ### The end of a fill (R205 to R207) -/

/-- A line after its fill: whole already, or with the bytes read around the written ones, or poisoned. -/
def filledLine (l : SagLine) (v : Option LineData) : SagLine :=
  if l.mask = BitVec.allOnes 64 then { l with fill := false, retry := false }
  else match v with
    | some d => { l with fill := false, filled := true, retry := false, data := mergeBytes d l.data l.mask }
    | none => { l with fill := false, filled := true, retry := false, poison := true }

theorem filledLine_whole {l : SagLine} (whole : l.mask = BitVec.allOnes 64) (v : Option LineData) :
    filledLine l v = { l with fill := false, retry := false } := if_pos whole

theorem filledLine_data {l : SagLine} (part : l.mask ≠ BitVec.allOnes 64) (d : LineData) :
    filledLine l (some d) = { l with fill := false, filled := true, retry := false, data := mergeBytes d l.data l.mask } :=
  if_neg part

theorem filledLine_lost {l : SagLine} (part : l.mask ≠ BitVec.allOnes 64) :
    filledLine l none = { l with fill := false, filled := true, retry := false, poison := true } := if_neg part

/-- What the end of a fill leaves of its line, whichever way it ends. -/
theorem filledLine_keeps (l : SagLine) (v : Option LineData) : (filledLine l v).fill = false ∧ (filledLine l v).mask = l.mask ∧
    (filledLine l v).gen = l.gen ∧ (filledLine l v).held = l.held := by
  by_cases whole : l.mask = BitVec.allOnes 64
  · rw [filledLine_whole whole]
    exact ⟨rfl, rfl, rfl, rfl⟩
  · cases v with
    | some d => rw [filledLine_data whole]; exact ⟨rfl, rfl, rfl, rfl⟩
    | none => rw [filledLine_lost whole]; exact ⟨rfl, rfl, rfl, rfl⟩

theorem finishFill_line {s : State} {page line : Nat} {l : SagLine} (there : sagLine s page line = some l) (v : Option LineData) :
    finishFill s page line v = wakeReads (setSagLine s page line (some (filledLine l v))) page line v := by
  simp only [finishFill, there]
  rfl

theorem finishFill_ends (s : State) (page line : Nat) (l : SagLine) (v : Option LineData) (there : sagLine s page line = some l) :
    ∃ l' : SagLine, finishFill s page line v = wakeReads (setSagLine s page line (some l')) page line v ∧
      l'.fill = false ∧ l'.mask = l.mask ∧ l'.gen = l.gen ∧ l'.held = l.held ∧
      (l.mask ≠ BitVec.allOnes 64 → ∀ d, v = some d →
        l'.data = mergeBytes d l.data l.mask ∧ l'.poison = l.poison ∧ l'.filled = true) ∧
      (l.mask ≠ BitVec.allOnes 64 → v = none → l'.poison = true ∧ l'.data = l.data) ∧
      (l.mask = BitVec.allOnes 64 → l'.data = l.data ∧ l'.poison = l.poison) := by
  obtain ⟨ended, mask, gen, held⟩ := filledLine_keeps l v
  refine ⟨filledLine l v, finishFill_line there v, ended, mask, gen, held, ?_, ?_, fun whole => ?_⟩
  · rintro part d rfl
    rw [filledLine_data part]
    exact ⟨rfl, rfl, rfl⟩
  · rintro part rfl
    rw [filledLine_lost part]
    exact ⟨rfl, rfl⟩
  · rw [filledLine_whole whole]
    exact ⟨rfl, rfl⟩

theorem wakeReads_answers (s : State) (page line : Nat) (m : BitVec 64) (d x : LineData) (v : Option LineData) (r : Rd)
    (waits : r ∈ s.hq.reads) (ofPage : r.page = page) (ofLine : r.line = line) (stage : r.stage = .waitFill m d false)
    (value : v = some x) : { r with stage := .done (mergeBytes x d m) false } ∈ (wakeReads s page line v).hq.reads := by
  refine List.mem_map.2 ⟨r, waits, ?_⟩
  simp [stage, ofPage, ofLine, value]

/-! ### FILL_COMPLETE (R205, R206) -/

section
variable {s : State} {page line : Nat} {l : SagLine} {e : MapEntry} (o : Sensed) (others : List (Nat × Sensed))
  (there : sagLine s page line = some l) (fills : l.fill = true) (first : l.retry = false)
  (found : entry? (fetchSeg s page) page = some e) (plain : e.secure = false)
include there fills first found plain

theorem completeFill_zeros (source : lineSource e line false = .zeros) :
    completeFill s page line o others = finishFill (fetchSeg s page) page line (some 0) := by
  simp only [completeFill, there, fills, first, found, plain, source, Bool.not_true, Bool.or_self, Bool.false_eq_true, if_false]

theorem completeFill_media {v : State} {slot : Nat} {b p : Bool} {d : LineData} (source : lineSource e line false = .media slot b)
    (serves : parked (fetchSeg s page) (slotRank slot) = false) (links : lostLinks (fetchSeg s page) (slotRank slot) < 3)
    (read : accessLine (fetchSeg s page) page line slot txFill o others = (v, .data d p)) :
    completeFill s page line o others =
      useSlot (finishFill v page line (if p then none else some d)) page e (pageTree v page) := by
  have reached : ¬ (parked (fetchSeg s page) (slotRank slot) || decide (3 ≤ lostLinks (fetchSeg s page) (slotRank slot))) = true := by
    simp [serves, links]
  simp only [completeFill, there, fills, first, found, plain, source, Bool.not_true, Bool.or_self, Bool.false_eq_true, if_false,
    if_neg reached, read]

end

/-! ### FILL_RETRY (R206) -/

/-- Only the media links differ. -/
def LinksOnly (s t : State) : Prop := t = { s with ln := t.ln }

theorem LinksOnly.refl (s : State) : LinksOnly s s := rfl

theorem LinksOnly.trans {s t u : State} (h : LinksOnly s t) (k : LinksOnly t u) : LinksOnly s u := by
  unfold LinksOnly at *
  rw [k, h]

theorem LinksOnly.foldl {α : Type} {f : State → α → State} (step : ∀ s a, LinksOnly s (f s a)) (l : List α) (s : State) :
    LinksOnly s (l.foldl f s) := by
  induction l generalizing s with
  | nil => exact .refl s
  | cons a l ih => exact (step s a).trans (ih _)

theorem addSense_links (s : State) (n : Nat) (x : Sense) : LinksOnly s (addSense s n x) := by
  unfold addSense
  split <;> rfl

theorem senseMap_links (s : State) (page : Nat) : LinksOnly s (senseMap s page) := by
  unfold senseMap
  extract_lets L j x sensed
  have leaves : LinksOnly s sensed := .foldl (fun u _ => addSense_links u _ _) _ s
  split
  · exact leaves
  · exact leaves.trans (.foldl (fun u _ => addSense_links u _ _) _ sensed)

/-- The senses of a fill change the links alone. -/
theorem senseFill_links (s : State) (page line : Nat) : LinksOnly s (senseFill s page line) := by
  unfold senseFill
  split
  · split
    · exact addSense_links ..
    · exact .refl s
  · split
    · exact senseMap_links s page
    · exact .refl s
  · exact .refl s

theorem fillRetry_issues (s : State) (page line : Nat) (l : SagLine) (there : sagLine s page line = some l) (fills : l.fill = true)
    (again : l.retry = true) :
    exec (.fillRetry page line) s = .next (senseFill (setSagLine s page line (some { l with retry := false })) page line) ∧
    ∃ k, senseFill (setSagLine s page line (some { l with retry := false })) page line =
      { setSagLine s page line (some { l with retry := false }) with ln := k } := by
  refine ⟨?_, _, senseFill_links _ page line⟩
  simp only [exec, execFillRetry, there, fills, again, Bool.and_self, if_true]

theorem fills_none (s : State) (page line : Nat) (none : sagLine s page line = none) :
    exec (.fillRetry page line) s = .next s ∧ ∀ o others, exec (.fillComplete page line o others) s = .next s := by
  simp only [exec, execFillRetry, execFillComplete, completeFill, none, implies_true, and_self]

/-- Settles O21: a merged byte is that of the side its enable names, and a fill ends by its source. -/
theorem fillsMergeByByte : Obligations.FillsMergeByByte :=
  ⟨mergeBytes_byte,
    fun _ _ _ _ o others _ there fills first found plain source =>
      congrArg Host.Outcome.next (completeFill_zeros o others there fills first found plain source),
    fun _ _ _ _ _ _ _ _ _ o others _ there fills first found plain source serves links read =>
      congrArg Host.Outcome.next (completeFill_media o others there fills first found plain source serves links read),
    finishFill_ends, wakeReads_answers, fillRetry_issues, fills_none⟩

end Sys2Proof.Proofs.Fills
end

section
/-! The start of drains, and the end of the hold on a failed rank's writes. -/
namespace Sys2Proof.Proofs.DrainStarts
open Sys2Proof Machine Safety Startup MapEntries

/-! ### The stamps of a drain's lines (R211 step 3) -/

theorem stampLines_length (s : State) (page base : Nat) (regime : Bool) (lines : List (Nat × SagLine)) (k : Nat) :
    (stampLines s page base regime lines k).length = lines.length := by
  induction lines generalizing k with
  | nil => rfl
  | cons x lines ih => exact congrArg (· + 1) (ih (k + 1))

theorem stampLines_stamps (s : State) (page base : Nat) (regime : Bool) (lines : List (Nat × SagLine)) (k j : Nat)
    (h : j < lines.length) :
    ∃ x, (stampLines s page base regime lines k)[j]? = some x ∧ x.1 = lines[j].1 ∧ x.2.1 = lines[j].2.gen ∧
      x.2.2.1 = base + (k + j) ∧ x.2.2.2.stamp = base + (k + j) ∧ x.2.2.2.ident = page ∧ x.2.2.2.line = lines[j].1 ∧
      x.2.2.2.poison = lines[j].2.poison ∧ (lines[j].2.poison = false → x.2.2.2.data = lines[j].2.data) := by
  induction lines generalizing k j with
  | nil => exact absurd h (Nat.not_lt_zero j)
  | cons y lines ih =>
    cases j with
    | zero => exact ⟨_, rfl, rfl, rfl, rfl, rfl, rfl, rfl, rfl, fun clean => if_neg (by simp [show y.2.poison = false from clean])⟩
    | succ j =>
      have later := ih (k + 1) j (Nat.lt_of_succ_lt_succ h)
      rwa [show k + 1 + j = k + (j + 1) by omega] at later

/-! ### What holds a drain back (R203, R213) -/

theorem drainHeld_free (s : State) (page group : Nat) : drainHeld s page group = false ↔
    (∀ d ∈ s.sag.drains, ¬ (d.page = page ∧ d.group = group)) ∧ inFiring s page = false ∧ page ∉ s.pl.relocating ∧
      inSecure s page = false ∧ (inSwitch s page = true → onSagRoute s page = true) := by
  have switched (a b : Bool) : (a && !b) = false ↔ (a = true → b = true) := by cases a <;> cases b <;> simp
  simp only [drainHeld, Bool.or_eq_false_iff, List.any_eq_false, Bool.and_eq_true, decide_eq_true_eq, decide_eq_false_iff_not,
    switched, and_assoc]

/-! ### DRAIN_START (R211) -/

/-- Holding the lines of a drain changes the lines of the saggar alone. -/
theorem holdLines_frame (s : State) (page slot : Nat) (lines : List (Nat × SagLine)) :
    holdLines s page slot lines = { s with sag := { s.sag with lines := (holdLines s page slot lines).sag.lines } } := by
  unfold holdLines
  induction lines generalizing s with
  | nil => rfl
  | cons x lines ih => rw [List.foldl_cons, ih]; rfl

theorem drainStart_idle (s : State) (page : Nat) (group : Fin 4) (none : groupLines s page group.val = []) :
    exec (.drainStart page group) s = .next s := by
  simp only [exec, execDrainStart, startDrain, none, List.isEmpty_nil, if_true, ite_self]

/-- The drain that a page's entry gives to some lines of a column group. -/
def newDrain (u v : State) (page group slot : Nat) (new : Bool) (e : MapEntry) (lines : List (Nat × SagLine)) : Drain :=
  { page := page, group := group, slot := slot, newSlot := new, fromEntry := e
    lines := stampLines v page (stampTop u page e + 1) (drainRegime v page e) lines 0 }

/-- The lines of a group held by their drain, and the heat of the page that it brings (R200, R228). -/
def linesHeld (v : State) (page slot : Nat) (e : MapEntry) (lines : List (Nat × SagLine)) : State :=
  setEntry (holdLines v page slot lines) page (drainHeat (holdLines v page slot lines).pl.heatEpoch lines.length e)

/-- The lines held, and their drain added. -/
def drainAdded (u v : State) (page group slot : Nat) (new : Bool) (e : MapEntry) (lines : List (Nat × SagLine)) : State :=
  let h := linesHeld v page slot e lines
  { h with sag := { h.sag with drains := h.sag.drains ++ [newDrain u h page group slot new e lines] } }

theorem linesHeld_sag (v : State) (page slot : Nat) (e : MapEntry) (lines : List (Nat × SagLine)) :
    (linesHeld v page slot e lines).sag.drains = v.sag.drains ∧ (linesHeld v page slot e lines).sag.slotOf = v.sag.slotOf := by
  unfold linesHeld
  rw [setEntry_frame, holdLines_frame]
  exact ⟨rfl, rfl⟩

/-- The device with the page's entry in the cache and a discard of the page carried out. -/
def pageReady (s : State) (page : Nat) : State := dropPage (fetchSeg s page) page

section
variable (s : State) (page : Nat) (group : Fin 4) (e : MapEntry) (slot : Nat) (new : Bool) (v : State)
  (free : drainHeld s page group.val = false) (clean : mapDirty s < s.mp.dirtyMax + 65536) (up : mediaUp s = true)
  (first : yieldsToDead s (groupLines s page group.val) = false) (eligible : groupLines s page group.val ≠ [])
  (cached : entry? (pageReady s page) page = some e) (plain : e.secure = false)
  (runs : parked (pageReady s page) (targetRank (pageReady s page) page e) = false)
  (stays : e.bisqueHome = none40 ∨ (stripe (pageReady s page) (slotBs e.bisqueHome)).state ≠ .victim ∨
    (stripe (pageReady s page) (slotBs e.bisqueHome)).degraded = false)
  (serves : lostLinks (pageReady s page) (targetRank (pageReady s page) page e) < 3)
  (whole : groupLost (pageReady s page) e page group.val (groupLines s page group.val) = [])
  (room : stampRoom (pageReady s page)
    (stampTop (pageReady s page) page e + 1 + (groupLines s page group.val).length) = true)
  (given : drainSlot (pageReady s page) page e = some (slot, new, v))
include free clean up first eligible cached plain runs stays serves whole room given

theorem startDrain_adds : startDrain s page group.val =
    count (drainAdded (pageReady s page) v page group.val slot new e (sortBy (fun a b => a.1 ≤ b.1) (groupLines s page group.val)))
      (1 + targetRank (pageReady s page) page e) 0x106 0xFF
      (sortBy (fun a b => a.1 ≤ b.1) (groupLines s page group.val)).length := by
  have opened : ¬ (drainHeld s page group.val || decide (s.mp.dirtyMax + 65536 ≤ mapDirty s) || !mediaUp s ||
      yieldsToDead s (groupLines s page group.val)) = true := by
    simp [free, up, first, clean]
  unfold startDrain
  rw [if_neg opened]
  dsimp only
  rw [List.isEmpty_eq_false_iff.2 eligible, if_neg Bool.false_ne_true, ← pageReady]
  generalize pageReady s page = u at *
  have homed : ¬ (e.secure || parked u (targetRank u page e) || (decide (e.bisqueHome ≠ none40) &&
      decide ((stripe u (slotBs e.bisqueHome)).state = .victim) && (stripe u (slotBs e.bisqueHome)).degraded)) = true := by
    rcases stays with h | h | h <;> simp [plain, runs, h]
  rw [cached]
  dsimp only
  rw [if_neg homed, if_neg (Nat.not_le.2 serves), whole, List.length_nil, Nat.add_zero, room, if_neg (by decide), given]
  simp only [List.foldl_nil, List.filterMap_nil, List.append_nil]
  rfl

theorem drainStart_adds :
    ∃ (t : State) (d : Drain), exec (.drainStart page group) s = .next t ∧ t.sag.drains = v.sag.drains ++ [d] ∧
      d.page = page ∧ d.group = group.val ∧ d.slot = slot ∧ d.newSlot = new ∧ d.fromEntry = e ∧
      d.lines.length = (groupLines s page group.val).length ∧ t.sag.slotOf = v.sag.slotOf := by
  have adds := startDrain_adds s page group e slot new v free clean up first eligible cached plain runs stays serves whole room given
  have counted (u : State) (m code qual n : Nat) : (count u m code qual n).sag = u.sag :=
    same_of_keeps (p := .sag) (count_keeps (.refl _ u) rfl)
  have lines : (sortBy (fun a b => a.1 ≤ b.1) (groupLines s page group.val)).length = (groupLines s page group.val).length :=
    sortBy_length ..
  generalize sortBy (fun a b => decide (a.1 ≤ b.1)) (groupLines s page group.val) = sorted at adds lines
  obtain ⟨drains, slots⟩ := linesHeld_sag v page slot e sorted
  refine ⟨_, newDrain (pageReady s page) (linesHeld v page slot e sorted) page group.val slot new e sorted,
    congrArg Host.Outcome.next adds, ?_, rfl, rfl, rfl, rfl, rfl, (stampLines_length ..).trans lines, ?_⟩
  · rw [counted]
    exact congrArg (· ++ _) drains
  · rw [counted]
    exact slots

end

/-! ### The end of a hold (R215) -/

/-- The rank's hold is taken off. -/
def holdEnded (s : State) (r : Nat) : State :=
  { s with sag := { s.sag with holdStart := tset none s.sag.holdStart r none } }

/-- Lines that leave the saggar change its table of lines alone. -/
theorem dropLines_frame (l : List (Nat × Nat)) (s : State) : l.foldl (fun s x => setSagLine s x.1 x.2 none) s =
    { s with sag := { s.sag with lines := l.foldl (fun t x => tset none t (x.1 * 64 + x.2) none) s.sag.lines } } := by
  induction l generalizing s with
  | nil => rfl
  | cons x l ih => rw [List.foldl_cons, ih]; rfl

/-- The lines of a failed rank have left the saggar, and its drains with them. -/
def writesDiscarded (s : State) (r : Nat) : State :=
  let u := (linesFor s r).foldl (fun s x => setSagLine s x.1 x.2 none) (holdEnded s r)
  { u with sag := { u.sag with
    holdOver := tset false u.sag.holdOver r true
    discarded := tset 0 u.sag.discarded r 0
    lastDiscardEvent := tset 0 u.sag.lastDiscardEvent r u.clk.beat
    drains := u.sag.drains.filter fun d => slotRank d.slot ≠ r } }

section
variable (s : State) (r : Rank) (b : Nat) (holds : tget none s.sag.holdStart r.val = some b)
include holds

theorem holdEnd_waits (early : s.clk.beat < b + 65536) : exec (.writeDiscardHoldEnd r) s = .next s := by
  simp only [exec, execWriteDiscardHoldEnd, holds, if_pos early]

theorem holdEnd_back (due : b + 65536 ≤ s.clk.beat) (back : lostLinks s r.val < 3) :
    exec (.writeDiscardHoldEnd r) s = .next (holdEnded s r.val) := by
  have back' : lostLinks (holdEnded s r.val) r.val < 3 := back
  simp only [exec, execWriteDiscardHoldEnd, holds, if_neg (Nat.not_lt.2 due)]
  exact congrArg Host.Outcome.next (if_pos back')

theorem holdEnd_lost (due : b + 65536 ≤ s.clk.beat) (lost : 3 ≤ lostLinks s r.val) : exec (.writeDiscardHoldEnd r) s =
    .next (raise (writesDiscarded s r.val) 0x35 r.val (linesFor s r.val).length 0 0 0) := by
  have lost' : ¬ lostLinks (holdEnded s r.val) r.val < 3 := Nat.not_lt.2 lost
  simp only [exec, execWriteDiscardHoldEnd, holds, if_neg (Nat.not_lt.2 due)]
  exact congrArg Host.Outcome.next (if_neg lost')

theorem holdEnd_discards (due : b + 65536 ≤ s.clk.beat) (lost : 3 ≤ lostLinks s r.val) :
    ∃ t, exec (.writeDiscardHoldEnd r) s = .next t ∧ tget false t.sag.holdOver r.val = true ∧
      (∀ d ∈ t.sag.drains, slotRank d.slot ≠ r.val) ∧
      t.sag.lines = (linesFor s r.val).foldl (fun l x => tset none l (x.1 * 64 + x.2) none) s.sag.lines := by
  have told (u : State) (code source p0 p1 p2 p3 : Nat) : (raise u code source p0 p1 p2 p3).sag = u.sag :=
    same_of_keeps (p := .sag) (raise_keeps (.refl _ u) rfl)
  refine ⟨_, holdEnd_lost s r b holds due lost, ?_⟩
  rw [told]
  refine ⟨tget_tset_val _ _ _ _ (by decide), fun d kept => ?_, ?_⟩
  · simpa using (List.mem_filter.1 kept).2
  · rw [writesDiscarded, dropLines_frame]
    rfl

end

/-- Settles O22: a drain's start by what it adds to the saggar, a hold's end by the links that are back. -/
theorem drainsAndHoldsStart : Obligations.DrainsAndHoldsStart :=
  ⟨⟨drainStart_adds, drainHeld_free, drainStart_idle, stampLines_stamps⟩,
    holdEnd_back, holdEnd_waits, holdEnd_discards⟩

end Sys2Proof.Proofs.DrainStarts
end

section
/-! The map change of a verified drain, and what it leaves of the medium. -/
namespace Sys2Proof.Proofs.DrainEnds
open Sys2Proof Machine Safety Startup Resets MapEntries PageMoves

/-! ### The entry after a drain (R212) -/

section
variable (e : MapEntry) (slot stamp domain : Nat) (bits : BitVec 64)

/-- A drain that leaves some glaze lines live, and one that leaves none. -/
theorem drainedEntry_split (split : e.state = .split) : drainedEntry e slot bits stamp domain =
    if e.mask ||| bits = BitVec.allOnes 64 then
      { e with stamp := max e.stamp stamp, state := .bisqueWhole, mask := e.mask ||| bits, glazeHome := none40 }
    else { e with stamp := max e.stamp stamp, mask := e.mask ||| bits } := by
  simp only [drainedEntry, split]

theorem drainedEntry_stamp : (drainedEntry e slot bits stamp domain).stamp = max e.stamp stamp ∧
    (drainedEntry e slot bits stamp domain).pin = e.pin := by
  cases state : e.state
  case split => rw [drainedEntry_split e slot stamp domain bits state]; split <;> exact ⟨rfl, rfl⟩
  all_goals simp only [drainedEntry, state, and_self]

theorem drainedEntry_table : e.stamp ≤ (drainedEntry e slot bits stamp domain).stamp ∧
    stamp ≤ (drainedEntry e slot bits stamp domain).stamp ∧ (drainedEntry e slot bits stamp domain).pin = e.pin ∧
    (e.state = .glaze → (drainedEntry e slot bits stamp domain).state = .split ∧
      (drainedEntry e slot bits stamp domain).mask = bits ∧ (drainedEntry e slot bits stamp domain).bisqueHome = slot ∧
      (drainedEntry e slot bits stamp domain).glazeHome = e.glazeHome) ∧
    (e.state = .split → e.mask ||| bits ≠ BitVec.allOnes 64 →
      (drainedEntry e slot bits stamp domain).state = .split ∧ (drainedEntry e slot bits stamp domain).mask = e.mask ||| bits ∧
      (drainedEntry e slot bits stamp domain).glazeHome = e.glazeHome) ∧
    (e.state = .split → e.mask ||| bits = BitVec.allOnes 64 →
      (drainedEntry e slot bits stamp domain).state = .bisqueWhole ∧ (drainedEntry e slot bits stamp domain).glazeHome = none40) ∧
    (e.state = .bisqueWhole → (drainedEntry e slot bits stamp domain).state = .bisqueWhole ∧
      (drainedEntry e slot bits stamp domain).mask = e.mask ||| bits ∧
      (drainedEntry e slot bits stamp domain).bisqueHome = e.bisqueHome) ∧
    (e.state = .poisonedWhole → (drainedEntry e slot bits stamp domain).state = .bisqueWhole ∧
      (drainedEntry e slot bits stamp domain).poisonRest = true ∧ (drainedEntry e slot bits stamp domain).mask = bits) ∧
    (e.state = .unmapped → (drainedEntry e slot bits stamp domain).state = .bisqueWhole ∧
      (drainedEntry e slot bits stamp domain).poisonRest = false ∧ (drainedEntry e slot bits stamp domain).mask = bits ∧
      (drainedEntry e slot bits stamp domain).bisqueHome = slot ∧ (drainedEntry e slot bits stamp domain).domain = domain) := by
  obtain ⟨top, pin⟩ := drainedEntry_stamp e slot stamp domain bits
  rw [top]
  refine ⟨le_max_left .., le_max_right .., pin, fun glaze => ?_, fun split part => ?_, fun split full => ?_, fun whole => ?_,
    fun poisoned => ?_, fun unmapped => ?_⟩
  · simp only [drainedEntry, glaze, and_self]
  · rw [drainedEntry_split e slot stamp domain bits split, if_neg part]
    exact ⟨split, rfl, rfl⟩
  · rw [drainedEntry_split e slot stamp domain bits split, if_pos full]
    exact ⟨rfl, rfl⟩
  · simp only [drainedEntry, whole, and_self]
  · simp only [drainedEntry, poisoned, and_self]
  · simp only [drainedEntry, unmapped, and_self]

end

/-! ### Lines on media -/

theorem mediaImg_of_media {s t : State} (same : t.mp.media = s.mp.media) (slot line : Nat) :
    mediaImg t slot line = mediaImg s slot line := by
  rw [mediaImg, same, mediaImg]

theorem mediaImg_setMedia (s : State) (slot i : Nat) (r : LineRec) : mediaImg (setMedia s slot i (.line r)) slot i = .line r :=
  tget_tset_val _ _ _ _ (by simp)

theorem mediaImg_setMedia_other (s : State) {slot i slot' j : Nat} (r : LineRec) (other : slot' * 64 + j ≠ slot * 64 + i) :
    mediaImg (setMedia s slot i (.line r)) slot' j = mediaImg s slot' j :=
  tget_tset_val_other _ _ _ _ _ (by simp) other

/-- The images of a drain's lines stand in its slot. -/
def linesWritten (slot : Nat) (lines : List (Nat × Nat × Nat × LineRec)) (s : State) : State :=
  lines.foldl (fun s x => setMedia s slot x.1 (.line x.2.2.2)) s

theorem linesWritten_frame (slot : Nat) (lines : List (Nat × Nat × Nat × LineRec)) (s : State) :
    linesWritten slot lines s = { s with mp := { s.mp with media := (linesWritten slot lines s).mp.media } } := by
  unfold linesWritten
  induction lines generalizing s with
  | nil => rfl
  | cons x lines ih => rw [List.foldl_cons, ih]; rfl

theorem linesWritten_other {slot slot' j : Nat} {lines : List (Nat × Nat × Nat × LineRec)}
    (other : ∀ x ∈ lines, slot' * 64 + j ≠ slot * 64 + x.1) (s : State) :
    mediaImg (linesWritten slot lines s) slot' j = mediaImg s slot' j := by
  unfold linesWritten
  induction lines generalizing s with
  | nil => rfl
  | cons x lines ih =>
    obtain ⟨head, tail⟩ := List.forall_mem_cons.1 other
    rw [List.foldl_cons, ih tail, mediaImg_setMedia_other _ _ head]

theorem linesWritten_here {slot : Nat} {lines : List (Nat × Nat × Nat × LineRec)} (distinct : (lines.map (·.1)).Nodup) (s : State) :
    ∀ y ∈ lines, mediaImg (linesWritten slot lines s) slot y.1 = .line y.2.2.2 := by
  induction lines generalizing s with
  | nil => simp
  | cons x lines ih =>
    obtain ⟨fresh, rest⟩ := List.nodup_cons.1 distinct
    rintro y listed
    rcases List.mem_cons.1 listed with rfl | listed
    · have later : ∀ z ∈ lines, slot * 64 + y.1 ≠ slot * 64 + z.1 := fun z there same =>
        fresh (List.mem_map.2 ⟨z, there, (Nat.add_left_cancel same).symm⟩)
      exact (linesWritten_other later _).trans (mediaImg_setMedia ..)
    · exact ih rest _ y listed

/-! ### What a drain's end leaves (R211 step 6, R212) -/

/-- The map cache and the lines on media are the same. -/
structure MapStays (s t : State) : Prop where
  cache : t.mp.cache = s.mp.cache
  media : t.mp.media = s.mp.media

theorem MapStays.refl (s : State) : MapStays s s := ⟨rfl, rfl⟩

theorem MapStays.trans {s t u : State} (h : MapStays s t) (k : MapStays t u) : MapStays s u :=
  ⟨k.cache.trans h.cache, k.media.trans h.media⟩

theorem MapStays.of_keeps {s t : State} (h : Keeps (allBut .mp) s t) : MapStays s t :=
  have same : t.mp = s.mp := same_of_keeps (p := .mp) h
  ⟨congrArg MapSt.cache same, congrArg MapSt.media same⟩

theorem putStamps_map (s : State) (home page : Nat) (stamps : List Nat) : MapStays s (putStamps s home page stamps) := by
  unfold putStamps
  rw [slotRoom_frame]
  exact ⟨rfl, rfl⟩

/-- The stamp slot of a page in tree mode follows its drain (R376). -/
def stampsSettled (s : State) (page : Nat) (d : Drain) (e : MapEntry) : State :=
  if pageTree s page then drainStamps s page e d.slot (d.lines.map fun x => (x.1, x.2.2.1)) else s

theorem stampsSettled_map (s : State) (page : Nat) (d : Drain) (e : MapEntry) : MapStays s (stampsSettled s page d e) := by
  unfold stampsSettled
  split
  · exact putStamps_map ..
  · exact .refl s

/-- A new bisque home is claimed, and a glaze home given up is released (R155, R233). -/
def homesSettled (s : State) (slot : Nat) (e e' : MapEntry) : State :=
  let s := if e.bisqueHome = none40 then claimSlot s slot else s
  if e'.glazeHome ≠ e.glazeHome then releaseSlot s e.glazeHome else s

theorem homesSettled_map (s : State) (slot : Nat) (e e' : MapEntry) : MapStays s (homesSettled s slot e e') := by
  have claimed : Keeps (allBut .mp) s (if e.bisqueHome = none40 then claimSlot s slot else s) :=
    .ite (claimSlot_keeps (.refl _ s) rfl) (.refl _ s)
  exact .of_keeps (.ite (releaseSlot_keeps claimed rfl) claimed)

/-- A drain's lines are in its slot, and the page's stamps and homes follow; its entry does not yet. -/
def drainWritten (s : State) (page : Nat) (d : Drain) (e e' : MapEntry) : State :=
  homesSettled (stampsSettled (linesWritten d.slot d.lines s) page d e) d.slot e e'

theorem drainWritten_map (s : State) (page : Nat) (d : Drain) (e e' : MapEntry) :
    MapStays (linesWritten d.slot d.lines s) (drainWritten s page d e e') :=
  (stampsSettled_map _ page d e).trans (homesSettled_map _ d.slot e e')

theorem settleDrain_map (s : State) (page : Nat) (d : Drain) (e e' : MapEntry) :
    MapStays (setEntry (drainWritten s page d e e') page e') (settleDrain s page d e e') :=
  .of_keeps (noteProgram_keeps (updStripe_keeps (.refl _ _) rfl) rfl)

theorem settleDrain_entry {s : State} {page : Nat} {old : MapEntry} (cached : entry? s page = some old) (d : Drain) (e e' : MapEntry) :
    entry? (settleDrain s page d e e') page = some e' := by
  have lines : (linesWritten d.slot d.lines s).mp.cache = s.mp.cache := by rw [linesWritten_frame]
  have cached' : entry? (drainWritten s page d e e') page = some old :=
    (entry?_of_cache ((drainWritten_map s page d e e').cache.trans lines) page).trans cached
  exact (entry?_of_cache (settleDrain_map s page d e e').cache page).trans (entry?_setEntry cached' e')

theorem settleDrain_media (s : State) (page : Nat) (d : Drain) (e e' : MapEntry) :
    (settleDrain s page d e e').mp.media = (linesWritten d.slot d.lines s).mp.media := by
  have entry : (setEntry (drainWritten s page d e e') page e').mp.media = (drainWritten s page d e e').mp.media := by
    rw [setEntry_frame]
  exact ((settleDrain_map s page d e e').media.trans entry).trans (drainWritten_map s page d e e').media

theorem settleDrain_sag (s : State) (page : Nat) (d : Drain) (e e' : MapEntry) : (settleDrain s page d e e').sag = s.sag :=
  same_of_keeps (p := .sag) (settleDrain_keeps (.refl _ s) rfl)

/-- An entry but for what the end of a refresh clears. -/
def beforeRefresh (e : MapEntry) : MapEntry := { e with refresh := false, tally := 0 }

theorem refreshDone_media (s : State) (page : Nat) : (refreshDone s page).mp.media = s.mp.media := by
  unfold refreshDone
  split
  · rfl
  · dsimp only
    split
    · rw [setEntry_frame]
    · rfl

theorem refreshDone_entry {s : State} {page : Nat} {e : MapEntry} (cached : entry? s page = some e) :
    ∃ x, entry? (refreshDone s page) page = some x ∧ beforeRefresh x = beforeRefresh e := by
  simp only [refreshDone, cached]
  split
  · exact ⟨_, entry?_setEntry cached _, rfl⟩
  · exact ⟨e, cached, rfl⟩

theorem releaseLine_drains (s : State) (page line gen : Nat) : (releaseLine s page line gen).sag.drains = s.sag.drains := by
  unfold releaseLine
  split
  · rfl
  · split
    · rfl
    · split <;> rfl

theorem releaseDrained_drains (s : State) (page : Nat) (d : Drain) : (releaseDrained s page d).sag.drains = s.sag.drains :=
  foldl_keeps (·.sag.drains) _ (fun s x => by rw [releaseLine_drains]; split <;> rfl) d.lines s

/-- The lines of a settled drain leave the saggar, and what its page is due is noted. -/
def drainReleased (s : State) (page : Nat) (d : Drain) (old new : Nat) : State :=
  let s := releaseDrained { s with sag := { s.sag with slotOf := tset none40 s.sag.slotOf page none40 } } page d
  stampCrossings (refreshDone s page) page old new true

theorem drainReleased_spec {s : State} {page : Nat} {e : MapEntry} (cached : entry? s page = some e) (d : Drain) (old new : Nat) :
    (drainReleased s page d old new).sag.drains = s.sag.drains ∧ (drainReleased s page d old new).mp.media = s.mp.media ∧
      ∃ x, entry? (drainReleased s page d old new) page = some x ∧ beforeRefresh x = beforeRefresh e := by
  unfold drainReleased
  have lines := releaseDrained_drains { s with sag := { s.sag with slotOf := tset none40 s.sag.slotOf page none40 } } page d
  have map : MapStays { s with sag := { s.sag with slotOf := tset none40 s.sag.slotOf page none40 } } (releaseDrained _ page d) :=
    .of_keeps (releaseDrained_keeps (.refl _ _) rfl)
  generalize releaseDrained { s with sag := { s.sag with slotOf := tset none40 s.sag.slotOf page none40 } } page d = u at lines map ⊢
  have refreshed : (refreshDone u page).sag = u.sag := same_of_keeps (p := .sag) (refreshDone_keeps (.refl _ u) rfl)
  have crossed : Keeps (maskOf [.pl]) (refreshDone u page) (stampCrossings (refreshDone u page) page old new true) :=
    stampCrossings_keeps (.refl _ _) rfl
  have crossedSag : (stampCrossings (refreshDone u page) page old new true).sag = (refreshDone u page).sag :=
    crossed.same.part .sag (by decide)
  have crossedMap : (stampCrossings (refreshDone u page) page old new true).mp = (refreshDone u page).mp :=
    crossed.same.part .mp (by decide)
  obtain ⟨x, there, same⟩ := refreshDone_entry ((entry?_of_cache map.cache page).trans cached)
  refine ⟨?_, ?_, x, (entry?_of_cache (congrArg MapSt.cache crossedMap) page).trans there, same⟩
  · rw [crossedSag, refreshed, lines]
  · rw [crossedMap, refreshDone_media, map.media]

/-! ### DRAIN_VERIFIED -/

/-- A drain has ended. -/
def drainOff (s : State) (d : Drain) : State := { s with sag := { s.sag with drains := s.sag.drains.filter (· ≠ d) } }

/-- The key domain that a page takes from its drain. -/
def drainDomain (d : Drain) (e : MapEntry) : Nat := match d.lines with | x :: _ => x.2.2.2.domain | [] => e.domain

/-- The entry from which a drain maps its page: one that was unmapped takes its regime here (R501). -/
def mappedFrom (v : State) (page : Nat) (e : MapEntry) : MapEntry :=
  if e.state = .unmapped then { e with regime := newFlag v page } else e

/-- The entry that the drain gives its page. -/
def mappedTo (v : State) (page : Nat) (d : Drain) (e : MapEntry) : MapEntry :=
  drainedEntry (mappedFrom v page e) d.slot (lineMask (d.lines.map (·.1))) (d.lines.foldl (fun m x => max m x.2.2.1) 0)
    (drainDomain d e)

section
variable {s : State} {page group : Nat} {d : Drain} {e : MapEntry}
  (drain : s.sag.drains.find? (fun d => d.page = page && d.group = group) = some d)
  (cached : entry? (fetchSeg (drainOff s d) page) page = some e)
include drain cached

theorem finishDrain_settles : finishDrain s page group =
    drainReleased (settleDrain (fetchSeg (drainOff s d) page) page d (mappedFrom (fetchSeg (drainOff s d) page) page e)
        (mappedTo (fetchSeg (drainOff s d) page) page d e)) page d
      (mappedFrom (fetchSeg (drainOff s d) page) page e).stamp (mappedTo (fetchSeg (drainOff s d) page) page d e).stamp := by
  unfold drainOff at *
  simp only [finishDrain, drain, cached]
  rfl

theorem drainVerified_ends (below : ∀ x ∈ d.lines, x.1 < 64) :
    (finishDrain s page group).sag.drains = s.sag.drains.filter (· ≠ d) ∧
    (∃ x, entry? (finishDrain s page group) page = some x ∧
      beforeRefresh x = beforeRefresh (mappedTo (fetchSeg (drainOff s d) page) page d e)) ∧
    ((d.lines.map (·.1)).Nodup → ∀ y ∈ d.lines, mediaImg (finishDrain s page group) d.slot y.1 = .line y.2.2.2) ∧
    (∀ slot line, (slot ≠ d.slot ∨ line ∉ d.lines.map (·.1)) → line < 64 →
      mediaImg (finishDrain s page group) slot line = mediaImg s slot line) := by
  rw [finishDrain_settles drain cached]
  have fetched : (fetchSeg (drainOff s d) page).sag = (drainOff s d).sag := by rw [fetchSeg_frame]
  have onMedia (slot line : Nat) : mediaImg (fetchSeg (drainOff s d) page) slot line = mediaImg s slot line := by
    rw [fetchSeg_frame]
    rfl
  generalize fetchSeg (drainOff s d) page = v at *
  have settled := settleDrain_entry cached d (mappedFrom v page e) (mappedTo v page d e)
  obtain ⟨drains, media, entry⟩ := drainReleased_spec settled d (mappedFrom v page e).stamp (mappedTo v page d e).stamp
  have written := mediaImg_of_media (media.trans (settleDrain_media v page d _ _))
  refine ⟨?_, entry, fun distinct y listed => ?_, fun slot line elsewhere low => ?_⟩
  · rw [drains, settleDrain_sag, fetched]
    rfl
  · rw [written]
    exact linesWritten_here distinct v y listed
  · rw [written, linesWritten_other, onMedia]
    intro x listed same
    have small := below x listed
    obtain ⟨sameSlot, sameLine⟩ : slot = d.slot ∧ line = x.1 := by omega
    exact elsewhere.elim (· sameSlot) (· (sameLine ▸ List.mem_map_of_mem listed))

end

theorem drainVerified_maps (s v : State) (page : Nat) (group : Fin 4) (d : Drain) (e e0 : MapEntry)
    (drain : s.sag.drains.find? (fun d => d.page = page && d.group = group.val) = some d)
    (fetched : v = fetchSeg { s with sag := { s.sag with drains := s.sag.drains.filter (· ≠ d) } } page)
    (cached : entry? v page = some e) (base : e0 = (if e.state = .unmapped then { e with regime := newFlag v page } else e))
    (below : ∀ x ∈ d.lines, x.1 < 64) :
    ∃ t x, exec (.drainVerified page group) s = .next t ∧ t.sag.drains = s.sag.drains.filter (· ≠ d) ∧
      entry? t page = some x ∧ { x with refresh := false, tally := 0 } =
        { drainedEntry e0 d.slot (lineMask (d.lines.map (·.1))) (d.lines.foldl (fun m x => max m x.2.2.1) 0) (drainDomain d e) with
          refresh := false, tally := 0 } ∧
      ((d.lines.map (·.1)).Nodup → ∀ y ∈ d.lines, mediaImg t d.slot y.1 = .line y.2.2.2) ∧
      (∀ slot line, (slot ≠ d.slot ∨ line ∉ d.lines.map (·.1)) → line < 64 → mediaImg t slot line = mediaImg s slot line) := by
  subst fetched base
  obtain ⟨drains, ⟨x, there, mapped⟩, here, elsewhere⟩ := drainVerified_ends drain cached below
  exact ⟨returnCredits (finishDrain s page group.val), x, rfl, drains, there, mapped, here, elsewhere⟩

theorem drainVerified_none (s : State) (page : Nat) (group : Fin 4)
    (none : ∀ d ∈ s.sag.drains, ¬ (d.page = page ∧ d.group = group.val)) :
    exec (.drainVerified page group) s = .next (returnCredits s) := by
  have absent : s.sag.drains.find? (fun d => d.page = page && d.group = group.val) = Option.none :=
    List.find?_eq_none.2 fun d listed => by simpa using none d listed
  simp only [exec, execDrainVerified, finishDrain, absent]

/-- Settles O23: the table of drained entries state by state, and a drain's end by what follows its lines on media. -/
theorem drainsMapTheirLines : Obligations.DrainsMapTheirLines :=
  ⟨drainedEntry_table, drainVerified_maps, drainVerified_none⟩

end Sys2Proof.Proofs.DrainEnds
end

section
/-! PWRFAIL_N, the start of a last breath and its seal. -/
namespace Sys2Proof.Proofs.LastBreath
open Sys2Proof Machine Safety Startup

/-! ### PWRFAIL_N (R217, R638, R655) -/

/-- Startup runs and has not yet written CONSUMED (R638). -/
def beforeConsumed (s : State) : Bool :=
  !s.pwr.inReset && 1 ≤ s.pwr.step && s.pwr.step < 12 && !s.pwr.consumedWritten && !s.pwr.limited

theorem pwrfailAssert_noted {s : State} (supplied : s.pwr.supplies = true) : exec .pwrfailNAssert s =
    .next { s with pwr := { s.pwr with pwrfail := true, stopped := s.pwr.stopped || beforeConsumed s } } :=
  congrArg Host.Outcome.next (if_neg (by simp [supplied]))

theorem pwrfailAssert_started (s : State) (supplied : s.pwr.supplies = true) (started : s.pwr.step = 12) :
    exec .pwrfailNAssert s = .next { s with pwr := { s.pwr with pwrfail := true } } := by
  have late : beforeConsumed s = false := by simp [beforeConsumed, started]
  rw [pwrfailAssert_noted supplied, late, Bool.or_false]

theorem pwrfailAssert_stops (s : State) (supplied : s.pwr.supplies = true) (out : s.pwr.inReset = false) (begun : 1 ≤ s.pwr.step)
    (starting : s.pwr.step < 12) (early : s.pwr.consumedWritten = false) (full : s.pwr.limited = false) :
    exec .pwrfailNAssert s = .next { s with pwr := { s.pwr with pwrfail := true, stopped := true } } := by
  have before : beforeConsumed s = true := by simp [beforeConsumed, out, begun, starting, early, full]
  rw [pwrfailAssert_noted supplied, before, Bool.or_true]

theorem pwrfailAssert_dark (s : State) (dark : s.pwr.supplies = false) : exec .pwrfailNAssert s = .next s :=
  congrArg Host.Outcome.next (if_pos (by simp [dark]))

/-! ### The start of a breath (R535, R671) -/

/-- The zones that a trigger names. -/
def triggerZones : BreathTrigger → BitVec 16
  | .mute5 z => z
  | _ => 0

theorem lastBreathStart_starts {s : State} {x : BreathTrigger} (up : awake s = true) (started : s.pwr.step = 12)
    (full : s.pwr.limited = false) (holds : triggered s x = true) :
    exec (.lastBreathStart x) s = .next (startBreath s (BreathTrigger.code x) (triggerZones x)) :=
  congrArg Host.Outcome.next (if_pos (by simp [up, started, full, holds]))

theorem lastBreathStart_idle (s : State) (x : BreathTrigger) (idle : triggered s x = false) :
    exec (.lastBreathStart x) s = .next s :=
  congrArg Host.Outcome.next (if_neg (by simp [idle]))

/-- Giving up a pending commit changes the pipes and the consort, and leaves none (R451). -/
theorem abandonCommit_frame (s : State) :
    abandonCommit s = { s with pp := (abandonCommit s).pp, cn := (abandonCommit s).cn } ∧ (abandonCommit s).pp.commit = none := by
  unfold abandonCommit
  split
  · next none => exact ⟨rfl, none⟩
  · unfold finishId
    split <;> exact ⟨rfl, rfl⟩

/-- The breath that a trigger starts. -/
def newBreath (s : State) (code : Nat) (zones : BitVec 16) : Breath :=
  { trigger := code, zones := zones, start := s.clk.beat, lines := s.sag.lines.filterMap (·.2)
    oneRank := oneRankOnly (breathList s), pwrfail := code = 0, merged := [code] }

/-- A breath runs. -/
def breathRuns (s : State) (b : Breath) : State :=
  { s with
    dr := { s.dr with inFlight := [] }
    pwr := { s.pwr with breath := some b, standing := false, mediaIdle := false, others := max s.pwr.others s.pwr.nextBseq } }

/-- With links in LIST, PWRFAIL_N gives up the commit and starts a breath. -/
theorem startBreath_pwrfail {s : State} (calm : s.pwr.breath = none) (links : breathList s ≠ []) :
    startBreath s 0 0 = breathRuns (abandonCommit s) (newBreath (abandonCommit s) 0 0) := by
  obtain ⟨frame, -⟩ := abandonCommit_frame s
  have calm' : (abandonCommit s).pwr.breath = none := by rw [frame]; exact calm
  have links' : (breathList (abandonCommit s)).isEmpty = false := by rw [frame]; exact List.isEmpty_eq_false_iff.2 links
  simp only [startBreath, if_true, calm', links', Bool.false_eq_true, if_false]
  rfl

theorem lastBreath_pwrfail (s : State) (up : awake s = true) (started : s.pwr.step = 12) (full : s.pwr.limited = false)
    (low : s.pwr.pwrfail = true) (busy : s.pwr.mediaIdle = false) (calm : s.pwr.breath = none) (links : breathList s ≠ []) :
    ∃ t b, exec (.lastBreathStart .pwrfail) s = .next t ∧ t.pwr.breath = some b ∧ b.lines = s.sag.lines.filterMap (·.2) ∧
      b.start = s.clk.beat ∧ b.trigger = 0 ∧ b.pwrfail = true ∧ t.pp.commit = none ∧ t.pwr.standing = false ∧
      t.dr.inFlight = [] ∧ t.sag = s.sag := by
  have holds : triggered s .pwrfail = true := by simp [triggered, low, busy, calm]
  have starts := lastBreathStart_starts up started full holds
  obtain ⟨frame, dropped⟩ := abandonCommit_frame s
  have saggar : (abandonCommit s).sag = s.sag := by rw [frame]
  have clock : (abandonCommit s).clk = s.clk := by rw [frame]
  refine ⟨_, newBreath (abandonCommit s) 0 0, starts.trans (congrArg _ (startBreath_pwrfail calm links)), rfl, ?_, ?_, rfl, rfl,
    dropped, rfl, rfl, saggar⟩
  · rw [← saggar]
    rfl
  · rw [← clock]
    rfl

theorem lastBreath_merges (s : State) (b : Breath) (up : awake s = true) (started : s.pwr.step = 12) (full : s.pwr.limited = false)
    (waits : s.hl.gpfWaiting = true) (runs : s.pwr.breath = some b) (new : 1 ∉ b.merged) :
    exec (.lastBreathStart .gpf) s = .next { s with pwr := { s.pwr with
      breath := some { b with merged := b.merged ++ [1] } } } := by
  have holds : triggered s .gpf = true := by simp [triggered, waits, runs, new]
  have merged : addNew b.merged 1 = b.merged ++ [1] := if_neg new
  have zones : b.zones ||| 0 = b.zones := BitVec.or_zero
  have pin : (b.pwrfail || decide (1 = 0)) = b.pwrfail := Bool.or_false _
  have joins : startBreath s 1 0 = { s with pwr := { s.pwr with breath := some { b with merged := b.merged ++ [1] } } } := by
    simp only [startBreath, if_neg Nat.one_ne_zero, runs, merged, zones, pin]
  exact (lastBreathStart_starts up started full holds).trans (congrArg _ joins)

theorem lastBreath_unwritten (s : State) (up : awake s = true) (started : s.pwr.step = 12) (full : s.pwr.limited = false)
    (waits : s.hl.gpfWaiting = true) (calm : s.pwr.breath = none) (bare : breathList s = []) :
    ∃ t, exec (.lastBreathStart .gpf) s = .next t ∧ t.pwr.breath = none ∧ t.hl.gpfDone = true ∧ t.hl.gpfWaiting = false := by
  have holds : triggered s .gpf = true := by simp [triggered, waits, calm]
  have ends : startBreath s 1 0 =
      afterBreath (raise s 0x6A srcDevice (s.pwr.nextBseq % 2 ^ 32) (s.pwr.nextBseq / 2 ^ 32) 0 0) 0 1 := by
    simp only [startBreath, if_neg Nat.one_ne_zero, calm, bare, List.isEmpty_nil, if_true]
  refine ⟨_, (lastBreathStart_starts up started full holds).trans (congrArg _ ends), ?_, rfl, rfl⟩
  exact (pwr_field (raise_same s _ _ _ _ _ _).1 PwrSt.breath).trans calm

/-! ### The seal (R539 to R541, R601) -/

/-- The power state but for what follows a seal changes: the pause of the medium, the trip and ALERT_N. -/
def sealView (s : State) : PwrSt := { s.pwr with mediaIdle := false, tripLevel5 := false, alertUntil := none }

theorem sealView_of_same {s t : State} (h : StatePart.pwr.same s t) : sealView t = sealView s :=
  pwr_field h fun p => { p with mediaIdle := false, tripLevel5 := false }

theorem parkZones_sealView (s : State) (zones : BitVec 16) : sealView (parkZones s zones) = sealView s := by
  have told (l : List Nat) (u : State) : sealView (l.foldl (fun s z => raise s 0x68 (srcZone z) 0 0 0 0) u) = sealView u :=
    foldl_keeps sealView _ (fun u z => sealView_of_same (raise_same u 0x68 (srcZone z) 0 0 0 0).1) l u
  exact (told _ _).trans rfl

theorem afterBreath_sealView (s : State) (zones : BitVec 16) (code : Nat) : sealView (afterBreath s zones code) = sealView s := by
  unfold afterBreath
  split_ifs
  · rfl
  · rfl
  · exact parkZones_sealView s zones
  · rfl

theorem critAppend_critWait (s : State) (r : EvRec) : (critAppend s r).ev.critWait = s.ev.critWait := rfl

theorem critAppend_sealView (s : State) (r : EvRec) : sealView (critAppend s r) = sealView s :=
  sealView_of_same (same_of_keeps (critAppend_keeps (.refl _ s) rfl))

/-- The breath of one of the four triggers is sealed, and what its triggers asked for has not yet followed. -/
def breathSealed (s : State) (b : Breath) (beats : Nat) : State :=
  { s with pwr := { s.pwr with
    breath := none, bseq := s.pwr.nextBseq, sealed := s.pwr.nextBseq, nextBseq := s.pwr.nextBseq + 1
    image := { breathImage s b with cause := b.trigger }, cause := b.trigger, standing := true, beats := min beats 65535 } }

/-- The critical events that waited for the seal are appended (R601). -/
def critsAppended (s : State) : State := s.ev.critWait.foldl critAppend { s with ev := { s.ev with critWait := [] } }

theorem critsAppended_none (s : State) : (critsAppended s).ev.critWait = [] :=
  foldl_keeps (·.ev.critWait) critAppend critAppend_critWait s.ev.critWait { s with ev := { s.ev with critWait := [] } }

theorem critsAppended_sealView (s : State) : sealView (critsAppended s) = sealView s :=
  foldl_keeps sealView critAppend critAppend_sealView s.ev.critWait { s with ev := { s.ev with critWait := [] } }

theorem sealBreath_eq {s : State} {b : Breath} (known : b.trigger < 4) (beats : Nat) : sealBreath s b beats =
    critsAppended (b.merged.foldl (fun s c => afterBreath s b.zones c) (breathSealed s b beats)) := by
  simp only [sealBreath, if_pos known]
  rfl

theorem breathSeal_seals (s : State) (b : Breath) (beats : Nat) (up : awake s = true) (runs : s.pwr.breath = some b)
    (known : b.trigger < 4) :
    ∃ t, exec (.breathSeal beats) s = .next t ∧ t.pwr.breath = none ∧ t.pwr.sealed = s.pwr.nextBseq ∧
      t.pwr.nextBseq = s.pwr.nextBseq + 1 ∧ t.pwr.cause = b.trigger ∧ t.pwr.standing = true ∧ t.pwr.image.lines = b.lines ∧
      t.pwr.beats = min beats 65535 ∧ t.ev.critWait = [] := by
  have seals : exec (.breathSeal beats) s = .next (sealBreath s b beats) := by
    simp only [exec, execBreathSeal, runs, up, if_true]
  rw [sealBreath_eq known] at seals
  have followed : sealView (b.merged.foldl (fun s c => afterBreath s b.zones c) (breathSealed s b beats)) =
      sealView (breathSealed s b beats) :=
    foldl_keeps sealView _ (fun s c => afterBreath_sealView s b.zones c) b.merged _
  have view := (critsAppended_sealView _).trans followed
  exact ⟨_, seals, congrArg PwrSt.breath view, congrArg PwrSt.sealed view, congrArg PwrSt.nextBseq view, congrArg PwrSt.cause view,
    congrArg PwrSt.standing view, congrArg (·.image.lines) view, congrArg PwrSt.beats view, critsAppended_none _⟩

theorem breathSeal_none (s : State) (beats : Nat) (calm : s.pwr.breath = none) : exec (.breathSeal beats) s = .next s := by
  simp only [exec, execBreathSeal, calm]

/-- Settles O15: the pin by what it notes, a trigger by whether a breath runs and LIST has links, a seal by what its
followers leave of the power state. -/
theorem lastBreathRuns : Obligations.LastBreathRuns :=
  ⟨pwrfailAssert_started, pwrfailAssert_stops, pwrfailAssert_dark, fun _ => rfl, lastBreath_pwrfail, lastBreath_merges,
    lastBreathStart_idle, lastBreath_unwritten, breathSeal_seals, breathSeal_none⟩

end Sys2Proof.Proofs.LastBreath
end

section
/-! The mailbox's commands on poison and media scans. -/
namespace Sys2Proof.Proofs.MailboxPoison
open Sys2Proof Machine Safety Startup

/-- A free mailbox runs any command. -/
theorem mbox_free {s : State} (free : mailboxFree s) (op : Nat) (act : State → State) : mbox s op act = act s := by
  obtain ⟨core, opened, ready, idle, full, started⟩ := free
  simp [mbox, opened, ready, idle, Option.isSome_iff_ne_none.1 core, full, started]

/-- A line of a region may be injected and cleared. -/
theorem line_accepted {s : State} {dpa : Nat} (line : lineDpa s dpa = true) (covered : (regionOf s dpa).isSome = true) :
    ¬ (!lineDpa s dpa || (regionOf s dpa).isNone) = true := by
  simp [line, Option.isSome_iff_ne_none.1 covered]

section
variable (s : State) (dpa length : Nat) (data : LineData) (free : mailboxFree s)
include free

/-! ### The poison list (R306, R307, R310) -/

theorem getPoisonList_answers (inside : lineRange s dpa length = true) :
    ∃ p, exec (.cxlGetPoisonList dpa length) s = .next (mboxReply s 0x4300 0 p) :=
  ⟨_, congrArg Host.Outcome.next ((mbox_free free _ _).trans (if_neg (by simp [inside])))⟩

theorem poison_outside (outside : lineDpa s dpa = false) :
    exec (.cxlInjectPoison dpa) s = .next (mboxReply s 0x4301 0xF []) ∧
      exec (.cxlClearPoison dpa data) s = .next (mboxReply s 0x4302 0xF []) :=
  ⟨congrArg Host.Outcome.next ((mbox_free free _ _).trans (if_pos (by simp [outside]))),
    congrArg Host.Outcome.next ((mbox_free free _ _).trans (if_pos (by simp [outside])))⟩

section
variable (line : lineDpa s dpa = true) (covered : (regionOf s dpa).isSome = true)
include line covered

theorem injectPoison_full (clean : poisonHas s dpa = false) (full : 64 ≤ injectedLines s) :
    exec (.cxlInjectPoison dpa) s = .next (mboxReply s 0x4301 0x10 []) :=
  congrArg Host.Outcome.next ((mbox_free free _ _).trans ((if_neg (line_accepted line covered)).trans
    ((if_neg (by simp [clean])).trans (if_pos full))))

theorem injectPoison_enters (clean : poisonHas s dpa = false) (room : injectedLines s < 64) :
    exec (.cxlInjectPoison dpa) s = .next (mboxReply (placeMarker (poisonEnter s dpa .injected) (pageOf dpa) (lineOf dpa)
      (pageAttrs s (pageOf dpa) (entryNow s (pageOf dpa))).2) 0x4301 0 []) :=
  congrArg Host.Outcome.next ((mbox_free free _ _).trans ((if_neg (line_accepted line covered)).trans
    ((if_neg (by simp [clean])).trans (if_neg (Nat.not_le.2 room)))))

theorem clearPoison_writes : exec (.cxlClearPoison dpa data) s =
    .next (mboxReply (fullLineWrite s (pageOf dpa) (lineOf dpa) data) 0x4302 0 []) :=
  congrArg Host.Outcome.next ((mbox_free free _ _).trans (if_neg (line_accepted line covered)))

end

/-! ### Scans (R305, R312) -/

theorem getScanMediaCaps_draws (inside : lineRange s dpa length = true) :
    ∃ p, exec (.cxlGetScanMediaCaps dpa length) s = .next (mboxReply { s with freeCtr := s.freeCtr + 1 } 0x4303 0 p) :=
  ⟨_, congrArg Host.Outcome.next ((mbox_free free _ _).trans (if_neg (by simp [inside])))⟩

theorem getScanMediaResults_answers (ended : s.hl.mboxBusy ≠ some 0x4304) :
    ∃ p, exec .cxlGetScanMediaResults s = .next (mboxReply s 0x4305 0 p) :=
  ⟨_, congrArg Host.Outcome.next ((mbox_free free _ _).trans (if_neg ended))⟩

theorem getScanMediaResults_busy (scans : s.hl.mboxBusy = some 0x4304) :
    exec .cxlGetScanMediaResults s = .next (mboxReply s 0x4305 6 []) :=
  congrArg Host.Outcome.next ((mbox_free free _ _).trans (if_pos scans))

end

/-- The pages that a range of lines meets: the first and their number. -/
def pageSpan (dpa length : Nat) : Nat × Nat := (pageOf dpa, pageOf (dpa + 64 * length - 1) - pageOf dpa + 1)

/-- A scan of some pages is under way. -/
def scanBegun (s : State) (range : Nat × Nat) : State :=
  mboxReply { s with hl := { s.hl with
    mboxBusy := some 0x4304, scanRange := some range, scanPages := contentPages s range, scanFound := [], scanDone := false } }
    0x4304 1 []

theorem scanMedia_begins {s : State} {dpa length : Nat} (free : mailboxFree s) (inside : lineRange s dpa length = true)
    (idle : s.hl.mboxBusy = none) : exec (.cxlScanMedia dpa length) s =
      .next (if (contentPages s (pageSpan dpa length)).isEmpty then endScan (scanBegun s (pageSpan dpa length))
        else scanBegun s (pageSpan dpa length)) :=
  congrArg Host.Outcome.next ((mbox_free free _ _).trans ((if_neg (by simp [idle])).trans (if_neg (by simp [inside]))))

/-- The end of a scan keeps its range: its results may be read. -/
theorem endScan_range (s : State) : (endScan s).hl.scanRange = s.hl.scanRange := by
  have rebuilt : (rebuildPoison s).hl.scanRange = s.hl.scanRange :=
    hl_field (same_of_keeps (p := .hl) (rebuildPoison_keeps (.refl _ s) rfl)) HostLinkSt.scanRange
  unfold endScan
  split
  · exact rebuilt
  · rfl

theorem scanMedia_runs (s : State) (dpa length : Nat) (free : mailboxFree s) (inside : lineRange s dpa length = true)
    (idle : s.hl.mboxBusy = none) :
    ∃ t, exec (.cxlScanMedia dpa length) s = .next t ∧ t.hl.scanRange = some (pageSpan dpa length) ∧
      (contentPages s (pageSpan dpa length) ≠ [] →
        t.hl.reply.code = 1 ∧ t.hl.mboxBusy = some 0x4304 ∧ t.hl.scanPages = contentPages s (pageSpan dpa length)) := by
  refine ⟨_, scanMedia_begins free inside idle, ?_, fun content => ?_⟩
  · split
    · exact endScan_range _
    · rfl
  · rw [List.isEmpty_eq_false_iff.2 content]
    exact ⟨rfl, rfl, rfl⟩

/-- Settles O41: a free mailbox runs each command, which answers by its first guard that holds. -/
theorem mailboxPoison : Obligations.MailboxPoison :=
  ⟨getPoisonList_answers, injectPoison_enters, injectPoison_full, clearPoison_writes, poison_outside, getScanMediaCaps_draws,
    scanMedia_runs, getScanMediaResults_answers, getScanMediaResults_busy⟩

end Sys2Proof.Proofs.MailboxPoison
end

section
/-! The range commands: how one runs, acts on its pages and completes, and the action points of single pages. -/
namespace Sys2Proof.Proofs.RangeCommands
open Sys2Proof Machine Safety Startup RangePages Packages

/-! ### The table of commands -/

/-- A change that keeps the ids changes the command as it stands now. -/
theorem cmdNow_updCmd {f : Cmd → Cmd} (keeps : ∀ c, (f c).id = c.id) (s : State) (id : Nat) :
    cmdNow (updCmd s id f) id = (cmdNow s id).map f := by
  simp only [cmdNow, updCmd, List.find?_map]
  have ids : (fun c : Cmd => decide (c.id = id)) ∘ (fun c => if c.id = id then f c else c) = fun c => decide (c.id = id) := by
    funext c
    by_cases own : c.id = id <;> simp [own, keeps]
  rw [ids]
  cases found : s.pp.cmds.find? fun c => decide (c.id = id) with
  | none => rfl
  | some c => simp [show c.id = id by simpa using List.find?_some found]

/-- An operation that reports alone leave in the pipes leaves the commands. -/
theorem cmdNow_of_keeps {s t : State} (h : Keeps (allBut .pp) s t) (id : Nat) : cmdNow t id = cmdNow s id := by
  have same : (quiet t).pp = (quiet s).pp := same_of_keeps (p := .pp) h
  have cmds : t.pp.cmds = s.pp.cmds := (congrArg PipeSt.cmds same :)
  simp only [cmdNow, cmds]

/-- The command after the action point of one of its pages. -/
def pagePassed (c : Cmd) (page : Nat) (wait : Bool) (found : List Nat) : Cmd :=
  { c with
    todo := c.todo.filter (· ≠ page), donePages := c.donePages + 1
    waiting := if wait then addNew c.waiting page else c.waiting, found := c.found ++ found }

theorem cmdNow_pageDone {s : State} {c : Cmd} (now : cmdNow s c.id = some c) (page : Nat) (wait : Bool) (found : List Nat) :
    cmdNow (pageDone s c page wait found) c.id = some (pagePassed c page wait found) := by
  refine (cmdNow_updCmd (f := (pagePassed · page wait found)) (fun _ => rfl) s c.id).trans ?_
  rw [now]
  rfl

/-! ### Action points of one page (R443) -/

section
variable {s u : State} {c : Cmd} {page : Nat} (due : page ∈ c.todo)
include due

theorem actOn_secure (op : c.op = 0x0200) (secure : c.fld 0x28 1 = 1) (acts : securePage s page c.id = some u) :
    actOn s c page = pageDone u c page true [] := by
  simp only [actOn, due, op, secure, acts, not_true, if_false, if_true]

/-- A hint other than PIN takes its pages in any order. -/
theorem actOn_hint {kind : Nat} (op : c.op = 0x0300) (hint : c.fld 0x28 1 = kind) (other : kind ≠ 2)
    (acts : hintPage s page kind = some u) : actOn s c page = pageDone u c page false [] := by
  simp [actOn, due, op, hint, other, acts, pinFull]

end

/-- A PIN takes its first page where the rank has room. -/
theorem actOn_pin {s u : State} {c : Cmd} {page : Nat} (first : c.todo.head? = some page) (op : c.op = 0x0300)
    (pin : c.fld 0x28 1 = 2) (room : pinFull s c page = false) (acts : hintPage s page 2 = some u) :
    actOn s c page = pageDone u c page false [] := by
  have due : page ∈ c.todo := List.mem_of_head? first
  simp [actOn, due, op, pin, first, room, acts]

/-! ### The end of a range command (R456) -/

/-- How a range command ends: a SCAN with what it found, hints with nothing, a secure discard with the links out of
service, all others with their number of pages. -/
def endRange (s : State) (c : Cmd) : State :=
  if c.op = 0x0400 then finishScan s c
  else if c.op = 0x0300 then succeed s c 0 0
  else if c.op = 0x0200 && c.fld 0x28 1 = 1 then succeed s c c.range.2 c.found.length
  else succeed s c c.range.2 0

theorem endRange_completed (s : State) (c : Cmd) : ∃ a, Completed c a (endRange s c) := by
  unfold endRange
  split_ifs <;> exact ⟨_, finishCmd_completed ..⟩

section
variable {s : State} {c : Cmd} (now : cmdNow s c.id = some c)
include now

theorem settleRange_unsettled (left : c.todo ≠ [] ∨ c.waiting.filter (stillWaits s c) ≠ []) :
    settleRange s c.id = updCmd s c.id fun d => { d with waiting := c.waiting.filter (stillWaits s c) } := by
  simp only [settleRange, now]
  exact if_pos (by simpa [← List.filter_eq_nil_iff] using left)

variable (done : c.todo = []) (settled : c.waiting.filter (stillWaits s c) = [])
include done settled

theorem settleRange_ends : settleRange s c.id = endRange s c := by
  simp only [settleRange, now, done, settled]
  rfl

theorem settleRange_counted (op : c.op = 0x0210 ∨ c.op = 0x0211 ∨ (c.op = 0x0200 ∧ c.fld 0x28 1 = 0)) :
    settleRange s c.id = finishCmd s c 0 0 (BitVec.ofNat 64 c.range.2) 0 := by
  rw [settleRange_ends now done settled, endRange]
  rcases op with op | op | ⟨op, plain⟩
  · simp [op, succeed]
  · simp [op, succeed]
  · simp [op, plain, succeed]

theorem settleRange_secure (op : c.op = 0x0200) (secure : c.fld 0x28 1 = 1) :
    settleRange s c.id = finishCmd s c 0 0 (BitVec.ofNat 64 c.range.2) (BitVec.ofNat 64 c.found.length) := by
  rw [settleRange_ends now done settled, endRange]
  simp [op, secure, succeed]

theorem settleRange_hint (op : c.op = 0x0300) : settleRange s c.id = finishCmd s c 0 0 0 0 := by
  rw [settleRange_ends now done settled, endRange]
  simp [op, succeed]

end

/-! ### A range command runs (R443, R455) -/

/-- The command's pages are acted on, and it completes when that was all. -/
def actAll (s : State) (c : Cmd) : State :=
  settleRange (c.todo.foldl (fun s page => match cmdNow s c.id with | some c => actOn s c page | none => s) s) c.id

/-- Map, saggar, placement and codes are those of `u`. -/
def ActedAs (u t : State) : Prop := t.mp = u.mp ∧ t.sag = u.sag ∧ t.pl = u.pl ∧ t.ecc = u.ecc

/-- They are, and the command has its completion with SUCCESS. -/
def EndedAs (u : State) (c : Cmd) (t : State) : Prop :=
  t.mp = u.mp ∧ t.sag = u.sag ∧ t.pl = u.pl ∧ t.ecc = u.ecc ∧
    ∃ x ∈ t.pp.comps, x.pipe = c.pipe ∧ x.desc = c.desc ∧ x.tag = c.tag ∧ x.status = 0

/-- Acting on a page is noted, and a command ended, in the pipes and reports alone. -/
theorem settleRange_pageDone (u : State) (c : Cmd) (page : Nat) (wait : Bool) (found : List Nat) (id : Nat) :
    ActedAs u (settleRange (pageDone u c page wait found) id) :=
  have keeps {k} (hm : Within 0x101000#21 k) (hd : Within 0x1000#21 k) :
      Keeps k u (settleRange (pageDone u c page wait found) id) := settleRange_keeps (pageDone_keeps (.refl _ u) hd) hm
  ⟨same_of_keeps (p := .mp) (keeps rfl rfl), same_of_keeps (p := .sag) (keeps rfl rfl), same_of_keeps (p := .pl) (keeps rfl rfl),
    same_of_keeps (p := .ecc) (keeps rfl rfl)⟩

section
variable {s u : State} {p page : Nat} {which : Cmd → Bool} {c : Cmd} {found : List Nat}

theorem runRange_all (runs : Ranging s p which c) : runRange s p which = actAll s c := runCmd_ranging runs _

theorem actAll_single (now : cmdNow s c.id = some c) (single : c.todo = [page]) :
    actAll s c = settleRange (actOn s c page) c.id := by
  simp only [actAll, single, List.foldl_cons, List.foldl_nil, now]

variable (now : cmdNow s c.id = some c) (single : c.todo = [page]) (runs : Ranging s p which c)
include now single runs

theorem runRange_acts {wait : Bool} (acts : actOn s c page = pageDone u c page wait found) : ActedAs u (runRange s p which) := by
  rw [runRange_all runs, actAll_single now single, acts]
  exact settleRange_pageDone ..

/-- A command whose last page is acted on, and that waits for nothing, completes. -/
theorem runRange_completes (idle : c.waiting = []) (keeps : Keeps (allBut .pp) s u)
    (acts : actOn s c page = pageDone u c page false found) : EndedAs u c (runRange s p which) := by
  obtain ⟨mp, sag, pl, ecc⟩ := runRange_acts now single runs acts
  refine ⟨mp, sag, pl, ecc, ?_⟩
  have later : cmdNow (pageDone u c page false found) c.id = some (pagePassed c page false found) :=
    cmdNow_pageDone ((cmdNow_of_keeps keeps _).trans now) page false found
  have ends : runRange s p which = endRange (pageDone u c page false found) (pagePassed c page false found) := by
    rw [runRange_all runs, actAll_single now single, acts]
    exact settleRange_ends (c := pagePassed c page false found) later (by simp [pagePassed, single]) (by simp [pagePassed, idle])
  obtain ⟨a, x, owed, pipe, desc, tag, status, -⟩ :=
    endRange_completed (pageDone u c page false found) (pagePassed c page false found)
  exact ⟨x, by rwa [ends], pipe, desc, tag, status⟩

end

/-- The fields that a command's descriptor spells agree with the command that its row looks for. -/
theorem which_of_ranging {s : State} {p : Nat} {which : Cmd → Bool} {c : Cmd} (runs : Ranging s p which c) : which c = true := by
  have fits := List.find?_some runs.next
  simp only [Bool.and_eq_true] at fits
  exact fits.1.2

/-! ### RANGE_ACTION_POINT (R443) -/

theorem rangeActionPoint_acts {s : State} {p : PipeNo} {page : Nat} {c : Cmd} (up : awake s = true)
    (next : nextCmd s p.val (fun c => page ∈ c.todo) = some c) : exec (.rangeActionPoint p page) s = .next (actOn s c page) := by
  simp [exec, execRangeActionPoint, up, next]

theorem rangeActionPoint_discards (s u : State) (p : PipeNo) (page : Nat) (c : Cmd) (up : awake s = true)
    (next : nextCmd s p.val (fun c => page ∈ c.todo) = some c) (due : page ∈ c.todo) (op : c.op = 0x0200)
    (plain : c.fld 0x28 1 = 0) (acts : discardPage s page = some u) (now : cmdNow u c.id = some c) :
    ∃ t d, exec (.rangeActionPoint p page) s = .next t ∧ t.mp = u.mp ∧ t.sag = u.sag ∧ cmdNow t c.id = some d ∧
      d.todo = c.todo.filter (· ≠ page) ∧ d.donePages = c.donePages + 1 := by
  refine ⟨pageDone u c page false [], pagePassed c page false [], ?_, rfl, rfl, cmdNow_pageDone now page false [], rfl, rfl⟩
  rw [rangeActionPoint_acts up next, actOn_discard due op (by rw [plain]; decide) acts]

/-- The mailbox's scan is no report. -/
theorem scan_of_same {s t : State} (same : StatePart.hl.same s t) :
    t.hl.scanPages = s.hl.scanPages ∧ t.hl.scanFound = s.hl.scanFound :=
  ⟨hl_field same HostLinkSt.scanPages, hl_field same HostLinkSt.scanFound⟩

/-- A page of the mailbox's scan that is not its last: what it finds joins what was found. -/
theorem rangeActionPoint_scans (s : State) (p : PipeNo) (page : Nat) (up : awake s = true)
    (none : nextCmd s p.val (fun c => page ∈ c.todo) = none) (due : page ∈ s.hl.scanPages)
    (more : s.hl.scanPages.filter (· ≠ page) ≠ []) :
    ∃ t, exec (.rangeActionPoint p page) s = .next t ∧ t.hl.scanPages = s.hl.scanPages.filter (· ≠ page) ∧
      t.hl.scanFound = s.hl.scanFound ++ (scanPage s page).2 := by
  have same : StatePart.hl.same s (scanPage s page).1 := same_of_keeps (scanPage_keeps (.refl _ s) rfl)
  obtain ⟨pages, found⟩ := scan_of_same same
  refine ⟨mailboxScanPage s page, by simp [exec, execRangeActionPoint, up, none, due], ?_⟩
  simp only [mailboxScanPage, pages, found, List.isEmpty_eq_false_iff.2 more, Bool.false_eq_true, if_false, and_self]

/-! ### The obligation's clauses about commands of one page -/

section
variable {s : State} {p op kind page : Nat} {c : Cmd}

theorem op_of_ranging (runs : Ranging s p (fun c => c.op = op) c) : c.op = op := by simpa using which_of_ranging runs

theorem kind_of_ranging (runs : Ranging s p (fun c => c.op = op && c.fld 0x28 1 = kind) c) : c.op = op ∧ c.fld 0x28 1 = kind := by
  simpa using which_of_ranging runs

variable {u : State} (now : cmdNow s c.id = some c) (single : c.todo = [page])
include now single

theorem discardSecure_acts (runs : Ranging s p (fun c => c.op = 0x0200 && c.fld 0x28 1 = 1) c)
    (acts : securePage s page c.id = some u) : ActedAs u (runRange s p fun c => c.op = 0x0200 && c.fld 0x28 1 = 1) :=
  runRange_acts now single runs (actOn_secure (by simp [single]) (kind_of_ranging runs).1 (kind_of_ranging runs).2 acts)

theorem zero_acts (runs : Ranging s p (fun c => c.op = 0x0210) c) (acts : zeroPage s page = some u) :
    ActedAs u (runRange s p fun c => c.op = 0x0210) :=
  runRange_acts now single runs (actOn_zero (by simp [single]) (op_of_ranging runs) acts)

variable (idle : c.waiting = [])
include idle

theorem discard_ends (runs : Ranging s p (fun c => c.op = 0x0200 && c.fld 0x28 1 = 0) c) (acts : discardPage s page = some u) :
    EndedAs u c (runRange s p fun c => c.op = 0x0200 && c.fld 0x28 1 = 0) := by
  obtain ⟨op, plain⟩ := kind_of_ranging runs
  exact runRange_completes now single runs idle (KeepsOS.elim (discardPage_keeps (.refl _ s) rfl) acts)
    (actOn_discard (by simp [single]) op (by rw [plain]; decide) acts)

theorem copy_ends (runs : Ranging s p (fun c => c.op = 0x0211) c)
    (acts : copyPages s page (page - c.fld 0x18 8 / 4096 + c.fld 0x20 8 / 4096) = some u) :
    EndedAs u c (runRange s p fun c => c.op = 0x0211) :=
  runRange_completes now single runs idle (KeepsOS.elim (copyPages_keeps (.refl _ s) rfl) acts)
    (actOn_copy (by simp [single]) (op_of_ranging runs) acts)

theorem hint_ends (other : kind ≠ 2) (runs : Ranging s p (fun c => c.op = 0x0300 && c.fld 0x28 1 = kind) c)
    (acts : hintPage s page kind = some u) : EndedAs u c (runHint s p kind) :=
  runRange_completes now single runs idle (KeepsOS.elim (hintPage_keeps (.refl _ s) rfl) acts)
    (actOn_hint (by simp [single]) (kind_of_ranging runs).1 (kind_of_ranging runs).2 other acts)

theorem pin_ends (runs : Ranging s p (fun c => c.op = 0x0300 && c.fld 0x28 1 = 2) c) (room : pinFull s c page = false)
    (acts : hintPage s page 2 = some u) : EndedAs u c (runHint s p 2) :=
  runRange_completes now single runs idle (KeepsOS.elim (hintPage_keeps (.refl _ s) rfl) acts)
    (actOn_pin (by simp [single]) (kind_of_ranging runs).1 (kind_of_ranging runs).2 room acts)

theorem scan_ends (runs : Ranging s p (fun c => c.op = 0x0400) c) :
    EndedAs (scanPage s page).1 c (runRange s p fun c => c.op = 0x0400) :=
  runRange_completes now single runs idle (scanPage_keeps (.refl _ s) rfl) (actOn_scan (by simp [single]) (op_of_ranging runs))

end

/-- Settles O53: a command that runs acts on all its pages, and its end is `endRange` once nothing is waited for. -/
theorem rangeCommandsRun : Obligations.RangeCommandsRun := by
  refine ⟨fun s p c => ?all, fun s u p page c now single idle => ?single, fun _ _ _ _ => rangeActionPoint_acts,
    rangeActionPoint_discards, rangeActionPoint_scans, fun _ _ => settleRange_counted, fun _ _ => settleRange_secure,
    fun _ _ => settleRange_hint, fun s c now left => ?left⟩
  case all =>
    have acts {which : Cmd → Bool} (runs : Ranging s p.val which c) :
        (.next (runRange s p.val which) : Host.Outcome State Fault Refusal) = .next (actAll s c) :=
      congrArg Host.Outcome.next (runRange_all runs)
    exact ⟨acts, acts, acts, acts, acts, acts, acts, acts, acts⟩
  case single =>
    exact ⟨fun runs acts => ⟨_, rfl, discard_ends now single idle runs acts⟩,
      fun runs acts => ⟨_, rfl, discardSecure_acts now single runs acts⟩,
      fun runs acts => ⟨_, rfl, zero_acts now single runs acts⟩,
      fun runs acts => ⟨_, rfl, copy_ends now single idle runs acts⟩,
      fun runs acts => ⟨_, rfl, hint_ends now single idle (by decide) runs acts⟩,
      fun runs acts => ⟨_, rfl, hint_ends now single idle (by decide) runs acts⟩,
      fun runs room acts => ⟨_, rfl, pin_ends now single idle runs room acts⟩,
      fun runs acts => ⟨_, rfl, hint_ends now single idle (by decide) runs acts⟩,
      fun runs acts => ⟨_, rfl, acts ▸ scan_ends now single idle runs⟩⟩
  case left =>
    rw [settleRange_unsettled now left]
    rfl

end Sys2Proof.Proofs.RangeCommands
end

section
/-! The blanking of stripes and the records of the block-stripe table. -/
namespace Sys2Proof.Proofs.Blanking
open Sys2Proof Machine Safety Startup Reclaim

/-! ### What a blanked stripe leaves -/

/-- Nothing of a stripe is left on media. -/
def emptied (s : State) (bs : Nat) : State :=
  { s with
    mp := { s.mp with
      media := s.mp.media.filter fun x => slotBs (x.1 / 64) ≠ bs
      cones := s.mp.cones.filter fun x => x / 64 ≠ bs
      parityStale := s.mp.parityStale.filter fun x => slotBs (x / 4) ≠ bs }
    ig := { s.ig with
      mediaSlots := s.ig.mediaSlots.filter fun x => slotBs x.1 ≠ bs
      slotTags := s.ig.slotTags.filter fun x => slotBs x.1 ≠ bs } }

/-- Beside emptying the stripe, blanking notes it for the rebuilds alone. -/
theorem blanked_emptied {k : BitVec 21} (s : State) (bs : Nat) (hm : Within 0x100#21 k) : Keeps k (emptied s bs) (blanked s bs) := by
  unfold blanked
  refine .foldl _ _ (fun u n h => ?_) _ (.refl _ _)
  have bits : Keeps k (emptied s bs) (if (linkWear u n).rebuilding && (link u n).state.serves then
      updLinkWear u n fun w => { w with linkBits := addNew w.linkBits bs } else u) := .ite (updLinkWear_keeps h hm) h
  exact .ite (updLinkWear_keeps bits hm) bits

/-- A blanked stripe whose record, changed as given, is on media. -/
def blankedAs (s : State) (bs : Nat) (f : BsRec → BsRec) : State :=
  recordStripe (updStripe (noteProgram (blanked s bs) bs) bs f) bs

theorem noteProgram_blanked {k : BitVec 21} (s : State) (bs : Nat) (hm : Within 0x100#21 k) :
    Keeps k (emptied s bs) (noteProgram (blanked s bs) bs) := noteProgram_keeps (blanked_emptied s bs hm) hm

/-- The record leaves the map and the keys as blanking leaves them. -/
theorem blankedAs_emptied (s : State) (bs : Nat) (f : BsRec → BsRec) :
    (blankedAs s bs f).mp = (emptied s bs).mp ∧ (blankedAs s bs f).ig = (emptied s bs).ig :=
  ⟨same_of_keeps (p := .mp) (recordStripe_keeps (updStripe_keeps (noteProgram_blanked s bs rfl) rfl) rfl),
    same_of_keeps (p := .ig) (recordStripe_keeps (updStripe_keeps (noteProgram_blanked s bs rfl) rfl) rfl)⟩

/-- A recorded stripe reads back, in the table and on media, as its record without the mark of a change. -/
theorem recordStripe_reads {s : State} {bs : Nat} (marked : { stripe s bs with changed := false } ≠ {}) :
    stripe (recordStripe s bs) bs = { stripe s bs with changed := false } ∧
      tget {} (recordStripe s bs).pl.copy bs = { stripe s bs with changed := false } :=
  ⟨tget_tset_val _ _ _ _ marked, tget_tset_val _ _ _ _ marked⟩

/-- The end of the cone sweep is told in the reports; the table's records stay when placement of a rank changes. -/
theorem endSweep_updRank (s : State) (r : Nat) (f : RankPl → RankPl) :
    (endSweep (updRank s r f)).mp = s.mp ∧ (endSweep (updRank s r f)).ig = s.ig ∧
      (endSweep (updRank s r f)).pl.stripes = s.pl.stripes ∧ (endSweep (updRank s r f)).pl.copy = s.pl.copy := by
  have pl : (endSweep (updRank s r f)).pl = (updRank s r f).pl := same_of_keeps (p := .pl) (endSweep_keeps (.refl _ _) rfl)
  exact ⟨same_of_keeps (p := .mp) (endSweep_keeps (updRank_keeps (.refl _ s) rfl) rfl),
    same_of_keeps (p := .ig) (endSweep_keeps (updRank_keeps (.refl _ s) rfl) rfl),
    (congrArg PlaceSt.stripes pl :), (congrArg PlaceSt.copy pl :)⟩

/-- The record of a blank stripe. -/
def blankRec (b : BsRec) : BsRec := { b with state := .blank, bisque := false, wls := 0, valid := 0, lag := 0, unswept := false }

/-! ### BLANKING_START (R245) -/

section
variable {s : State} {r : Rank} {x : Nat × BsRec} (up : mediaRuns s = true) (on : parked s r.val = false)
  (populated : r.val ∈ s.mp.pop) (idle : (rankPl s r.val).blankingBs = none) (few : (blankGlaze s r.val).length < blankAhead s)
include up on populated idle few

theorem blankingStart_open : ¬ (!mediaRuns s || parked s r.val || decide (r.val ∉ s.mp.pop) ||
    (rankPl s r.val).blankingBs.isSome ||
    (decide (blankAhead s ≤ (blankGlaze s r.val).length) && !sweepWaits s)) = true := by
  simp [up, on, populated, idle, few]

variable (dirty : nextDirty s r.val = some x)
include dirty

theorem blankingStart_begins (lives : x.2.cycles < 20000) :
    exec (.blankingStart r) s = .next (updRank (recordStripe
      (updStripe s x.1 fun b => { b with state := .blanking, cycles := b.cycles + 1 }) x.1) r.val
      fun y => { y with blankingBs := some x.1 }) := by
  refine congrArg Host.Outcome.next ((if_neg (blankingStart_open up on populated idle few)).trans ?_)
  simp only [dirty]
  exact if_neg (Nat.not_le.2 lives)

theorem blankingStart_retires (worn : 20000 ≤ x.2.cycles) :
    exec (.blankingStart r) s = .next (retireStripe s x.1) := by
  refine congrArg Host.Outcome.next ((if_neg (blankingStart_open up on populated idle few)).trans ?_)
  simp only [dirty]
  exact if_pos worn

end

theorem retireStripe_state (s : State) (bs : Nat) : (stripe (retireStripe s bs) bs).state = .retired := by
  obtain ⟨pl, -, -⟩ := checkSpareStripes_same (updStripe s bs fun b => { b with state := .retired })
  have record := stripe_updStripe_here s bs fun b => { b with state := .retired }
  rw [retireStripe, stripe, pl]
  exact congrArg BsRec.state record

/-! ### BLANKING_COMPLETE (R245, R264) -/

theorem blankingComplete_eq {s : State} {bs : StripeNo} (blanks : (stripe s bs.val).state = .blanking) (up : mediaRuns s = true) :
    exec (.blankingComplete bs) s = .next (endSweep (updRank (blankedAs s bs.val blankRec) (bsRank bs.val)
      fun x => if x.blankingBs = some bs.val then { x with blankingBs := none } else x)) :=
  congrArg Host.Outcome.next (if_neg (by simp [blanks, up]))

/-- The stripe's record after blanking stands in the table and on media. -/
theorem blankedAs_record (s : State) (bs : Nat) {f : BsRec → BsRec} (blank : (f (stripe s bs)).state = .blank) :
    stripe (blankedAs s bs f) bs = { f (stripe s bs) with changed := false } ∧
      tget {} (blankedAs s bs f).pl.copy bs = { f (stripe s bs) with changed := false } := by
  have before : stripe (noteProgram (blanked s bs) bs) bs = stripe s bs := by
    have pl : (noteProgram (blanked s bs) bs).pl = (emptied s bs).pl := same_of_keeps (p := .pl) (noteProgram_blanked s bs rfl)
    rw [stripe, pl]
    rfl
  have changed := stripe_updStripe_here (noteProgram (blanked s bs) bs) bs f
  rw [before] at changed
  have reads := recordStripe_reads (s := updStripe (noteProgram (blanked s bs) bs) bs f) (bs := bs) (by
    rw [changed]
    exact fun e => by simpa [blank] using congrArg BsRec.state e)
  rwa [changed] at reads

theorem blankingComplete_blanks (s : State) (bs : StripeNo) (blanks : (stripe s bs.val).state = .blanking)
    (up : mediaRuns s = true) :
    ∃ t, exec (.blankingComplete bs) s = .next t ∧ (∀ x ∈ t.mp.media, slotBs (x.1 / 64) ≠ bs.val) ∧
      (∀ x ∈ t.ig.mediaSlots, slotBs x.1 ≠ bs.val) ∧ (∀ x ∈ t.mp.cones, x / 64 ≠ bs.val) ∧
      t.mp = { s.mp with media := t.mp.media, parityStale := t.mp.parityStale, cones := t.mp.cones } ∧
      tget {} t.pl.copy bs.val = stripe t bs.val ∧
      (stripe t bs.val).state = .blank ∧ (stripe t bs.val).bisque = false ∧ (stripe t bs.val).wls = 0 ∧
      (stripe t bs.val).valid = 0 ∧ (stripe t bs.val).lag = 0 ∧ (stripe t bs.val).unswept = false := by
  refine ⟨_, blankingComplete_eq blanks up, ?_⟩
  obtain ⟨map, keys⟩ := blankedAs_emptied s bs.val blankRec
  obtain ⟨record, onMedia⟩ := blankedAs_record s bs.val (f := blankRec) rfl
  generalize blankedAs s bs.val blankRec = u at map keys record onMedia ⊢
  obtain ⟨mp, ig, stripes, copy⟩ := endSweep_updRank u (bsRank bs.val)
    fun x => if x.blankingBs = some bs.val then { x with blankingBs := none } else x
  generalize endSweep _ = t at mp ig stripes copy ⊢
  have here : stripe t bs.val = { blankRec (stripe s bs.val) with changed := false } := by rw [← record, stripe, stripes, stripe]
  rw [here, copy, onMedia, mp, map, ig, keys]
  refine ⟨?_, ?_, ?_, rfl, rfl, rfl, rfl, rfl, rfl, rfl, rfl⟩ <;> intro x listed <;>
    simpa using (List.mem_filter.1 listed).2

/-! ### BLOCK_STRIPE_RECORD_WRITE (R226) -/

theorem recordWrite_changed (s : State) (bs : StripeNo) (up : mediaUp s = true) (changed : (stripe s bs.val).changed = true) :
    exec (.blockStripeRecordWrite bs) s = .next (recordStripe s bs.val) :=
  congrArg Host.Outcome.next (if_pos (by simp [up, changed]))

theorem recordWrite_idle (s : State) (bs : StripeNo) (same : (stripe s bs.val).changed = false) :
    exec (.blockStripeRecordWrite bs) s = .next s :=
  congrArg Host.Outcome.next (if_neg (by simp [same]))

end Sys2Proof.Proofs.Blanking
end

section
/-! The guard sets of an open stripe and their verify passes. -/
namespace Sys2Proof.Proofs.GuardPasses
open Sys2Proof Machine Safety Startup Reclaim Rebuilds Blanking

/-! ### Guard sets (R247, R248) -/

theorem guard_setGuard (o : OpenSt) (k : Nat) (g : GuardSet) : (o.setGuard k g).guard k = g := by
  unfold OpenSt.setGuard OpenSt.guard
  split_ifs <;> rfl

theorem guardAdd_first (o : OpenSt) (w : Nat) (first : w % 1024 = 0) :
    (guardAdd o w).guard (w / 1024 % 2) = { group := w / 1024, added := [w] } := by
  rw [guardAdd, if_pos first, guard_setGuard]

theorem guardAdd_later (o : OpenSt) (w : Nat) (later : w % 1024 ≠ 0) :
    ((guardAdd o w).guard (w / 1024 % 2)).added = (o.guard (w / 1024 % 2)).added ++ [w] := by
  rw [guardAdd, if_neg later, guard_setGuard]

/-! ### Open stripes -/

/-- The open stripes of a rank with one of them set. -/
def opensWith (l : List (Nat × OpenSt)) (p : Nat) (o : OpenSt) : List (Nat × OpenSt) :=
  l.filter (·.1 < p) ++ [(p, o)] ++ l.filter (p < ·.1)

theorem find?_opensWith (l : List (Nat × OpenSt)) (p : Nat) (o : OpenSt) :
    (opensWith l p o).find? (fun x => decide (x.1 = p)) = some (p, o) := by
  have below : (l.filter (·.1 < p)).find? (fun x => decide (x.1 = p)) = none := by
    simp only [List.find?_eq_none, List.mem_filter, decide_eq_true_eq]
    rintro x ⟨-, less⟩
    omega
  simp [opensWith, below]

/-- A set open stripe is the rank's, and the rank's other placement stays. -/
theorem rankPl_setOpen (s : State) (r p : Nat) (o : OpenSt) :
    rankPl (setOpen s r p (some o)) r = { rankPl s r with opens := opensWith (rankPl s r).opens p o } :=
  rankPl_updRank_here fun e => by simpa [opensWith] using congrArg RankPl.opens e

theorem openOf_setOpen (s : State) (r p : Nat) (o : OpenSt) : openOf (setOpen s r p (some o)) r p = some o := by
  rw [openOf, rankPl_setOpen, find?_opensWith]
  rfl

theorem updOpen_open {s : State} {r p : Nat} {o : OpenSt} (opened : openOf s r p = some o) (f : OpenSt → OpenSt) :
    updOpen s r p f = setOpen s r p (some (f o)) := by
  simp only [updOpen, opened]

/-- Of the members that join a list without doubles, each is there at the end. -/
theorem foldl_addNew_mem {l : List Nat} {x : Nat} (m : List Nat) (listed : x ∈ m ∨ x ∈ l) : x ∈ l.foldl addNew m := by
  induction l generalizing m with
  | nil => simpa using listed
  | cons y l ih =>
    refine ih _ ?_
    rcases listed with there | listed
    · exact .inl (by unfold addNew; split <;> simp [there])
    · rcases List.mem_cons.1 listed with rfl | listed
      · exact .inl (mem_addNew m x)
      · exact .inr listed

/-! ### What passes note (R249) -/

/-- Rebuilt word lines are noted in the set, and pages wait for the refresh stripe. -/
def rebuiltFrom (u : State) (r : Rank) (p : Fin 4) (g : Fin 64) (w : Nat) (pages : List Nat) : State :=
  updOpen (queueRefreshStripe u r.val pages) r.val p.val fun o =>
    o.setGuard (g.val % 2) { o.guard (g.val % 2) with rebuilt := [w] }

/-- The group's pass is noted, and its set released. -/
def passNoted (s : State) (r : Rank) (p : Fin 4) (g : Fin 64) (o : OpenSt) : State :=
  updOpen s r.val p.val fun x =>
    if (o.guard (g.val % 2)).group = g.val then
      { x with passed := addNew x.passed g.val }.setGuard (g.val % 2) { group := g.val }
    else { x with passed := addNew x.passed g.val }

theorem passNoted_eq (s : State) (r : Rank) (p : Fin 4) (g : Fin 64) (o : OpenSt) : passNoted s r p g o =
    updOpen s r.val p.val fun x =>
      if (o.guard (g.val % 2)).group = g.val then
        { x with passed := addNew x.passed g.val }.setGuard (g.val % 2) { group := (o.guard (g.val % 2)).group }
      else { x with passed := addNew x.passed g.val } := by
  unfold passNoted
  by_cases own : (o.guard (g.val % 2)).group = g.val <;> simp [own]

/-! ### GUARD_VERIFY_PASS (R249) -/

section
variable {s : State} {r : Rank} {p : Fin 4} {g : Fin 64} {o : OpenSt} (opened : openOf s r.val p.val = some o)
include opened

section
variable (up : mediaUp s = true) (due : passDue s o g.val = true)
include up due

theorem guardVerifyPass_clean : exec (.guardVerifyPass r p g []) s = .next (updOpen s r.val p.val fun o =>
    o.setGuard (g.val % 2) { o.guard (g.val % 2) with rebuilt := [] }) := by
  simp only [exec, execGuardVerifyPass, opened]
  exact congrArg Host.Outcome.next (if_neg (by simp [up, due]))

/-- One failing word line, alone at its position in a group whose set is good, is rebuilt. -/
theorem guardVerifyPass_one {pos w : Nat} (data : pos < 16) (group : w / 1024 = g.val) (written : w < (stripe s o.bs).wls)
    (ofGroup : (o.guard (g.val % 2)).group = g.val) (there : (o.guard (g.val % 2)).lost = false)
    (added : (o.guard (g.val % 2)).added ≠ []) :
    exec (.guardVerifyPass r p g [(pos, w)]) s = .next (rebuiltFrom
      (fetchSlots s [slotNo o.bs w 0, slotNo o.bs w 1, slotNo o.bs w 2]) r p g w
      (wordLinePages (fetchSlots s [slotNo o.bs w 0, slotNo o.bs w 1, slotNo o.bs w 2]) o.bs w)) := by
  simp only [exec, execGuardVerifyPass, opened]
  refine congrArg Host.Outcome.next ((if_neg (by simp [up, due])).trans ?_)
  simp [data, group, written, ofGroup, there, added, rebuiltFrom, List.range_succ]

end

/-- Rebuilding keeps the other parts, queues the pages for refresh and notes the word line in the set. -/
theorem rebuiltFrom_parts {u : State} (same : u.pl = s.pl) (w page : Nat) {pages : List Nat} (listed : page ∈ pages) :
    page ∈ (rankPl (rebuiltFrom u r p g w pages) r.val).refreshQueue ∧ (rebuiltFrom u r p g w pages).mp = u.mp ∧
      (rebuiltFrom u r p g w pages).sag = u.sag ∧
      (openOf (rebuiltFrom u r p g w pages) r.val p.val).map (fun o => (o.guard (g.val % 2)).rebuilt) = some [w] := by
  have queued : page ∈ pages.foldl addNew (rankPl u r.val).refreshQueue := foldl_addNew_mem _ (.inr listed)
  have rank : rankPl (queueRefreshStripe u r.val pages) r.val =
      { rankPl u r.val with refreshQueue := pages.foldl addNew (rankPl u r.val).refreshQueue } :=
    rankPl_updRank_here fun e => List.ne_nil_of_mem queued (congrArg RankPl.refreshQueue e)
  have still : openOf (queueRefreshStripe u r.val pages) r.val p.val = some o := by
    rw [openOf, rank, ← opened, openOf, rankPl, same, rankPl]
  rw [rebuiltFrom, updOpen_open still]
  refine ⟨?_, rfl, rfl, ?_⟩
  · rw [rankPl_setOpen, rank]
    exact queued
  · rw [openOf_setOpen, Option.map_some, guard_setGuard]

theorem guardVerifyPass_rebuilds (u : State) (pos w page : Nat) (up : mediaUp s = true) (due : passDue s o g.val = true)
    (data : pos < 16) (group : w / 1024 = g.val) (written : w < (stripe s o.bs).wls)
    (ofGroup : (o.guard (g.val % 2)).group = g.val) (there : (o.guard (g.val % 2)).lost = false)
    (added : (o.guard (g.val % 2)).added ≠ []) (fetched : u = fetchSlots s [slotNo o.bs w 0, slotNo o.bs w 1, slotNo o.bs w 2])
    (listed : page ∈ wordLinePages u o.bs w) :
    ∃ t, exec (.guardVerifyPass r p g [(pos, w)]) s = .next t ∧ page ∈ (rankPl t r.val).refreshQueue ∧ t.mp = u.mp ∧
      t.sag = s.sag ∧ (openOf t r.val p.val).map (fun o => (o.guard (g.val % 2)).rebuilt) = some [w] := by
  have pl : u.pl = s.pl := fetched ▸ same_of_keeps (p := .pl) (fetchSlots_keeps (.refl _ s) rfl)
  have sag : u.sag = s.sag := fetched ▸ same_of_keeps (p := .sag) (fetchSlots_keeps (.refl _ s) rfl)
  obtain ⟨refresh, mp, saggar, rebuilt⟩ := rebuiltFrom_parts (g := g) opened pl w page listed
  refine ⟨_, ?_, refresh, mp, saggar.trans sag, rebuilt⟩
  rw [guardVerifyPass_one opened up due data group written ofGroup there added, ← fetched]

/-! ### GUARD_PASS_COMPLETE (R249, R278) -/

theorem guardPassComplete_releases (due : passDue s o g.val = true) (none : (o.guard (g.val % 2)).rebuilt = [])
    (stays : o.closing = false) (unfilled : (stripe s o.bs).wls ≠ 65536) :
    ∃ t, exec (.guardPassComplete r p g) s = .next t ∧ t.pl = (passNoted s r p g o).pl := by
  have captured : (targetCapture (passNoted s r p g o) o.bs g.val).pl = (passNoted s r p g o).pl :=
    same_of_keeps (p := .pl) (targetCapture_keeps (.refl _ _) rfl)
  refine ⟨targetCapture (passNoted s r p g o) o.bs g.val, ?_, captured⟩
  have wls : (stripe (targetCapture (passNoted s r p g o) o.bs g.val) o.bs).wls ≠ 65536 := by
    rw [stripe, captured, passNoted, updOpen_open opened]
    exact unfilled
  simp only [exec, execGuardPassComplete, opened]
  refine congrArg Host.Outcome.next ((if_neg (by simp [due, none])).trans ?_)
  rw [← passNoted_eq]
  exact if_neg (by simp [stays, wls])

end

theorem passes_closed (s : State) (r : Rank) (p : Fin 4) (g : Fin 64) (failing : List (Nat × Nat))
    (none : openOf s r.val p.val = none) :
    exec (.guardVerifyPass r p g failing) s = .next s ∧ exec (.guardPassComplete r p g) s = .next s := by
  simp only [exec, execGuardVerifyPass, execGuardPassComplete, none, and_self]

/-- Settles O31: passes by what they note in the guard sets, blanking by what it leaves of the stripe, its record and media. -/
theorem stripesAreBlankedAndGuarded : Obligations.StripesAreBlankedAndGuarded :=
  ⟨⟨fun _ _ _ _ _ => guardVerifyPass_clean,
      fun _ u _ _ _ _ pos w page opened up due data group written ofGroup =>
        guardVerifyPass_rebuilds opened u pos w page up due data group written ofGroup,
      fun _ _ _ _ _ => guardPassComplete_releases, passes_closed, guardAdd_first, guardAdd_later⟩,
    fun _ _ _ => blankingStart_begins,
    fun _ _ _ up on populated idle few dirty worn =>
      ⟨_, blankingStart_retires up on populated idle few dirty worn, rfl, retireStripe_state _ _⟩,
    blankingComplete_blanks, recordWrite_changed, recordWrite_idle⟩

end Sys2Proof.Proofs.GuardPasses
end

section
/-! The heat epoch, the bisque budget and the fire queue. -/
namespace Sys2Proof.Proofs.FireQueue
open Sys2Proof Machine

/-! ### The heat epoch and the budget (R228, R231, R232) -/

theorem heatEpochAdvance_next (s : State) (up : awake s = true) : exec .heatEpochAdvance s =
    .next { s with pl := { s.pl with heatEpoch := (s.pl.heatEpoch + 1) % 2 ^ 64 } } :=
  congrArg Host.Outcome.next (if_pos up)

/-- What a rank's budget becomes, by its use, its cold pages and its free glaze. -/
def nextBudget (s : State) (r : Nat) : Nat :=
  if decide (15 * budgetStripes s r ≤ 16 * bisqueUse s r) && decide ((rankPl s r).coldPassed < 1024) &&
      decide (2 * reclaimLow s ≤ freeGlaze s r) then min ((rankPl s r).budget + 1) (budgetMax s)
  else if decide (2 * bisqueUse s r < budgetStripes s r) then max ((rankPl s r).budget - 1) (budgetMin s)
  else (rankPl s r).budget

section
variable {s : State} {r : Nat}

theorem nextBudget_stays (below : 16 * bisqueUse s r < 15 * budgetStripes s r) (half : budgetStripes s r ≤ 2 * bisqueUse s r) :
    nextBudget s r = (rankPl s r).budget := by
  simp [nextBudget, Nat.not_le.2 below, Nat.not_lt.2 half]

theorem nextBudget_falls (below : 16 * bisqueUse s r < 15 * budgetStripes s r) (few : 2 * bisqueUse s r < budgetStripes s r) :
    nextBudget s r = max ((rankPl s r).budget - 1) (budgetMin s) := by
  simp [nextBudget, Nat.not_le.2 below, few]

theorem nextBudget_rises (used : 15 * budgetStripes s r ≤ 16 * bisqueUse s r) (cold : (rankPl s r).coldPassed < 1024)
    (free : 2 * reclaimLow s ≤ freeGlaze s r) : nextBudget s r = min ((rankPl s r).budget + 1) (budgetMax s) := by
  simp [nextBudget, used, cold, free]

end

/-- A change of a rank counts by the record that it makes of the rank's. -/
theorem updRank_congr {s : State} {r : Nat} {f g : RankPl → RankPl} (same : f (rankPl s r) = g (rankPl s r)) :
    updRank s r f = updRank s r g := by
  simp only [updRank, tupd]
  exact congrArg (fun v => { s with pl := { s.pl with ranks := tset {} s.pl.ranks r v } }) same

theorem budgetAdjust_sets {s : State} {r : Rank} (up : awake s = true) (populated : r.val ∈ s.mp.pop) :
    exec (.budgetAdjust r) s = .next (updRank (recount s r.val) r.val fun x =>
      { x with budget := nextBudget (recount s r.val) r.val, coldPassed := 0, meanCycles := meanWear (recount s r.val) r.val }) :=
  congrArg Host.Outcome.next ((if_neg (by simp [up, populated])).trans (updRank_congr rfl))

/-! ### The walk of the fire queue (R237) -/

/-- The rank's walk has come to a slot, and its page is looked up. -/
def walkedTo (s : State) (r : Nat) (x : Nat × Nat × Nat) : State :=
  fetchSlots (updRank s r fun y => { y with walkAt := some x }) [slotNo x.2.1 x.2.2 0]

/-- One more page passed the cold test. -/
def coldCounted (s : State) (r : Nat) : State := updRank s r fun y => { y with coldPassed := y.coldPassed + 1 }

section
variable {s : State} {r : Rank} {x : Nat × Nat × Nat} {page : Nat} {e : MapEntry} (up : mediaRuns s = true)
  (next : nextWalk s r.val = some x) (room : (rankPl s r.val).fireQueue.length < 3072)
  (valid : slotValid (walkedTo s r.val x) (slotNo x.2.1 x.2.2 0) true = some page)
  (cached : entry? (walkedTo s r.val x) page = some e)
include up next room valid cached

/-- A page that passes the cold test with little heat is counted and joins the queue. -/
theorem fireQueueWalk_adds (passes : coldTest (walkedTo s r.val x) page e = true)
    (cool : decayedHeat (walkedTo s r.val x).pl.heatEpoch e ≤ fireCold (walkedTo s r.val x))
    (fresh : page ∉ (rankPl (coldCounted (walkedTo s r.val x) r.val) r.val).fireQueue) :
    exec (.fireQueueWalk r (slotNo x.2.1 x.2.2 0)) s = .next (setQueue (coldCounted (walkedTo s r.val x) r.val) r.val
      ((rankPl (coldCounted (walkedTo s r.val x) r.val) r.val).fireQueue ++ [page])) := by
  simp only [exec, execFireQueueWalk, next]
  refine congrArg Host.Outcome.next ((if_neg (by simp [up, room])).trans ?_)
  simp only [← walkedTo.eq_def, ← coldCounted.eq_def, valid, cached, Option.bind_some, Option.map_some, passes, cool, decide_true,
    Bool.and_self, if_true, Bool.true_or, fresh, not_false_eq_true]

theorem fireQueueWalk_passesOver (fails : coldTest (walkedTo s r.val x) page e = false) :
    exec (.fireQueueWalk r (slotNo x.2.1 x.2.2 0)) s = .next (walkedTo s r.val x) := by
  simp only [exec, execFireQueueWalk, next]
  refine congrArg Host.Outcome.next ((if_neg (by simp [up, room])).trans ?_)
  simp only [← walkedTo.eq_def, valid, cached, Option.bind_some, Option.map_some, fails, Bool.false_and, Bool.and_false,
    Bool.false_eq_true, if_false, Bool.or_false]

end

theorem mem_walkStripes {s : State} {r : Nat} {y : Nat × BsRec} (walks : y ∈ walkStripes s r) :
    y ∈ rankStripes s r ∧ bsState s y.1 = .bisque ∧ 0 < y.2.wls := by
  simpa [walkStripes] using walks

/-- A slot lies on a programmed word line of a BISQUE stripe of the rank. -/
def OnBisque (s : State) (r : Nat) (x : Nat × Nat × Nat) : Prop :=
  bsState s x.2.1 = .bisque ∧ ∃ b : BsRec, (x.2.1, b) ∈ rankStripes s r ∧ x.2.2 < b.wls

theorem onBisque_of_walks {s : State} {r : Nat} {y : Nat × BsRec} (walks : y ∈ walkStripes s r) (f : Nat) {w : Nat}
    (written : w < y.2.wls) : OnBisque s r (f, y.1, w) := by
  obtain ⟨listed, bisque, -⟩ := mem_walkStripes walks
  exact ⟨bisque, y.2, listed, written⟩

/-- The first word line of a stripe of the walk is programmed. -/
theorem onBisque_first {s : State} {r : Nat} {y : Nat × BsRec} (walks : y ∈ walkStripes s r) :
    OnBisque s r (y.2.fired, y.1, 0) := onBisque_of_walks walks _ (mem_walkStripes walks).2.2

theorem onBisque_head {s : State} {r : Nat} {x : Nat × Nat × Nat}
    (head : (walkStripes s r).head?.map (fun y => (y.2.fired, y.1, 0)) = some x) : OnBisque s r x := by
  obtain ⟨y, first, rfl⟩ := Option.map_eq_some_iff.1 head
  exact onBisque_first (List.mem_of_head? first)

/-- The walk goes to the next word line of its stripe, to the next stripe, or to the first one again. -/
theorem nextWalk_onBisque (s : State) (r : Nat) (x : Nat × Nat × Nat) (next : nextWalk s r = some x) : OnBisque s r x := by
  simp only [nextWalk] at next
  split at next
  · exact onBisque_head next
  · split at next
    · next bs w _ y found =>
      obtain rfl := Option.some.inj next
      have ofStripe := List.find?_some found
      simp only [Bool.and_eq_true, decide_eq_true_eq] at ofStripe
      obtain ⟨rfl, written⟩ := ofStripe
      exact onBisque_of_walks (List.mem_of_find?_eq_some found) _ written
    · split at next
      · next y found =>
        obtain rfl := Option.some.inj next
        exact onBisque_first (List.mem_of_find?_eq_some found)
      · exact onBisque_head next

/-! ### The order of the queue (R237) -/

/-- One page is fired no later than another: it has less heat, or as much and no higher number. -/
def firesBefore (s : State) (a b : Nat) : Bool :=
  decayedHeat s.pl.heatEpoch (entryNow s a) < decayedHeat s.pl.heatEpoch (entryNow s b) ||
    (decayedHeat s.pl.heatEpoch (entryNow s a) = decayedHeat s.pl.heatEpoch (entryNow s b) && a ≤ b)

theorem fireOrder_eq (s : State) (q : List Nat) : fireOrder s q = sortBy (firesBefore s) q := rfl

theorem firesBefore_iff (s : State) (a b : Nat) : firesBefore s a b = true ↔
    decayedHeat s.pl.heatEpoch (entryNow s a) < decayedHeat s.pl.heatEpoch (entryNow s b) ∨
      decayedHeat s.pl.heatEpoch (entryNow s a) = decayedHeat s.pl.heatEpoch (entryNow s b) ∧ a ≤ b := by
  simp [firesBefore]

theorem fireOrder_sorted (s : State) (q : List Nat) : (fireOrder s q).Pairwise fun a b => firesBefore s a b = true := by
  refine fireOrder_eq s q ▸ sortBy_sorted (fun a b => ?_) (fun a b c => ?_) q
  · simp only [firesBefore_iff]
    omega
  · simp only [firesBefore_iff]
    omega

theorem fireOrder_ascends (s : State) (q : List Nat) (i j : Nat) (hi : i < (fireOrder s q).length)
    (hj : j < (fireOrder s q).length) (before : i < j) :
    decayedHeat s.pl.heatEpoch (entryNow s (fireOrder s q)[i]) ≤ decayedHeat s.pl.heatEpoch (entryNow s (fireOrder s q)[j]) := by
  have ordered := (firesBefore_iff s _ _).1 (List.pairwise_iff_getElem.1 (fireOrder_sorted s q) i j hi hj before)
  omega

/-- Settles O29: the budget by what use makes of it, the walk by the page it comes to, the queue by how it is sorted. -/
theorem heatAndTheFireQueue : Obligations.HeatAndTheFireQueue := by
  refine ⟨⟨heatEpochAdvance_next, fun s r up populated => ?_⟩, ?_, ?_, nextWalk_onBisque, fireOrder_ascends,
    fun _ _ => sortBy_perm _ _⟩
  · exact ⟨_, _, budgetAdjust_sets up populated, rfl, nextBudget_stays, nextBudget_falls, nextBudget_rises⟩
  · rintro s _ r x page e up next room rfl valid cached passes cool - fresh
    exact fireQueueWalk_adds up next room valid cached passes cool fresh
  · rintro s _ r x page e up next room rfl valid cached fails
    exact fireQueueWalk_passesOver up next room valid cached fails

end Sys2Proof.Proofs.FireQueue
end

section
/-! The starts and ends of erases. -/
namespace Sys2Proof.Proofs.Erases
open Sys2Proof Machine Safety Startup Reclaim Commits Blanking

/-! ### What the first steps of an erase leave (R386) -/

/-- The erase that runs with its command, the erases that wait, the generation, the root and the lines on media. -/
abbrev EraseView := Option EraseScope × Option Nat × List (Nat × Option Nat) × Nat × Nat × Tab Img

def eraseView (s : State) : EraseView :=
  (s.ig.erasing, s.ig.eraseCmd, s.ig.erasesQueued, s.ig.sysGen, s.ig.rootVer, s.mp.media)

/-- The mask of every part but the map and the keys. -/
def allButMapKeys : BitVec 21 := ~~~ 0x204#21

theorem eraseView_of_keeps {s t : State} (h : Keeps allButMapKeys s t) : eraseView t = eraseView s := by
  have mp : t.mp = s.mp := h.same.part .mp (by decide)
  have ig : t.ig = s.ig := h.same.part .ig (by decide)
  rw [eraseView, mp, ig, eraseView]

theorem eraseView_releaseHomes (s : State) (page : Nat) : eraseView (releaseHomes s page) = eraseView s := by
  have released (u : State) (a b : Nat) : eraseView (releaseSlot (releaseSlot u a) b) = eraseView u :=
    eraseView_of_keeps (releaseSlot_keeps (releaseSlot_keeps (.refl _ u) rfl) rfl)
  refine (released _ _ _).trans ?_
  split <;> rfl

theorem eraseView_eraseLeaf (blank : Bool) (s : State) (L : Nat) : eraseView (eraseLeaf blank s L) = eraseView s := by
  unfold eraseLeaf
  extract_lets known lines S img maps evicted written
  have line (u : State) (ll : Nat) : eraseView (setLeafLine (setLeafLine u ll 0 img) ll 1 img) = eraseView u := rfl
  have all : eraseView written = eraseView evicted :=
    foldl_keeps eraseView (fun u ll => setLeafLine (setLeafLine u ll 0 img) ll 1 img) line lines evicted
  exact all

/-- The same, with the cached stamps and nodes and the root kept in the backup domain, which new keys leave too. -/
def keyedView (s : State) : EraseView × Tab Nat × List Nat × Nat := (eraseView s, s.ig.levelB, s.ig.heldNodes, s.clk.root)

theorem keyedView_saveDomain (s : State) (d : Nat) : keyedView (saveDomain s d) = keyedView s := by
  have ig : (saveDomain s d).ig = s.ig := same_of_keeps (p := .ig) (saveDomain_keeps (.refl _ s) rfl)
  have clk : (saveDomain s d).clk = s.clk := same_of_keeps (p := .clk) (saveDomain_keeps (.refl _ s) rfl)
  have mp : (saveDomain s d).mp = s.mp := same_of_keeps (p := .mp) (saveDomain_keeps (.refl _ s) rfl)
  rw [keyedView, eraseView, ig, clk, mp, keyedView, eraseView]

theorem keyedView_rekey (s : State) (d : Nat) : keyedView (rekey s d) = keyedView s := by
  unfold rekey
  extract_lets staged updated
  have stages : keyedView staged = keyedView s := by
    unfold staged
    split
    · rfl
    · exact keyedView_saveDomain _ d
  exact (keyedView_saveDomain updated d).trans stages

theorem keyedView_refreshReady (s : State) : keyedView (refreshReady s) = keyedView s := by
  rw [refreshReady_eq, keyedView, eraseView, keyedView, eraseView]

/-- The generation and the root advance, and no cached stamp or node is left. -/
def wholeErased (s : State) : State :=
  { s with
    clk := { s.clk with root := s.ig.rootVer + 1 }
    ig := { s.ig with
      sysGen := (s.ig.sysGen + 1) % 2 ^ 32, levelB := [], leafStamps := [], dirtyB := [], nodesDue := [], heldNodes := []
      rootVer := s.ig.rootVer + 1 } }

/-- An erase forgets the covered pages, ends the stamps where it covers every domain, and takes new keys. -/
theorem startErase_cases (s : State) (code : Nat) : ∃ u, eraseView u = eraseView s ∧
    keyedView (startErase s code) = keyedView (if wholeErase code then wholeErased u else u) := by
  unfold startErase
  extract_lets pages hit superseded read tree released forgotten leaves roots keys generation keyed
  have start : eraseView read = eraseView s :=
    eraseView_of_keeps (eraseReads_keeps (supersede_keeps (cancelSeal_keeps (.refl _ s) rfl) rfl) rfl)
  have homes : eraseView released = eraseView read := foldl_keeps eraseView _ eraseView_releaseHomes pages read
  have forgets : eraseView forgotten = eraseView released := eraseView_of_keeps (forgetPages_keeps (.refl _ released) rfl)
  have written : eraseView leaves = eraseView forgotten := foldl_keeps eraseView _ (fun _ _ => eraseView_eraseLeaf ..) _ forgotten
  have rekeyed : keyedView keyed = keyedView generation := foldl_keeps keyedView _ keyedView_rekey _ generation
  exact ⟨leaves, written.trans (forgets.trans (homes.trans start)), (keyedView_refreshReady keyed).trans rekeyed⟩

/-- The first steps leave which erase runs and which wait, and the lines on media. -/
theorem startErase_keeps_media (s : State) (code : Nat) :
    (startErase s code).ig.erasing = s.ig.erasing ∧ (startErase s code).ig.eraseCmd = s.ig.eraseCmd ∧
      (startErase s code).ig.erasesQueued = s.ig.erasesQueued ∧ (startErase s code).mp.media = s.mp.media := by
  obtain ⟨u, before, after⟩ := startErase_cases s code
  generalize startErase s code = t at after ⊢
  simp only [eraseView, Prod.mk.injEq] at before
  obtain ⟨erasing, cmd, queued, -, -, media⟩ := before
  rw [← erasing, ← cmd, ← queued, ← media]
  split at after <;> simp only [keyedView, eraseView, Prod.mk.injEq] at after
  · obtain ⟨⟨erasing, cmd, queued, -, -, media⟩, -⟩ := after
    exact ⟨erasing, cmd, queued, media⟩
  · obtain ⟨⟨erasing, cmd, queued, -, -, media⟩, -⟩ := after
    exact ⟨erasing, cmd, queued, media⟩

/-- An erase of every domain advances the generation and the root and ends every cached stamp and node. -/
theorem startErase_whole (s : State) {code : Nat} (whole : wholeErase code = true) :
    (startErase s code).ig.sysGen = (s.ig.sysGen + 1) % 2 ^ 32 ∧ (startErase s code).ig.rootVer = s.ig.rootVer + 1 ∧
      (startErase s code).clk.root = s.ig.rootVer + 1 ∧ (startErase s code).ig.levelB = [] ∧
      (startErase s code).ig.heldNodes = [] := by
  obtain ⟨u, before, after⟩ := startErase_cases s code
  generalize startErase s code = t at after ⊢
  simp only [eraseView, Prod.mk.injEq] at before
  obtain ⟨-, -, -, gen, root, -⟩ := before
  rw [if_pos whole] at after
  simp only [keyedView, eraseView, Prod.mk.injEq] at after
  obtain ⟨⟨-, -, -, genNext, rootNext, -⟩, stamps, nodes, backup⟩ := after
  rw [← gen, ← root]
  exact ⟨genNext, rootNext, backup, stamps, nodes⟩

/-! ### ERASE_START (R386, R639) -/

/-- The erase has left the queue and runs. -/
def eraseBegun (s : State) (code : Nat) (x : Nat × Option Nat) : State :=
  { s with ig := { s.ig with
    erasing := some (scopeOf code), eraseCmd := x.2, eraseMailbox := x.2.isNone, erasesQueued := s.ig.erasesQueued.erase x } }

theorem eraseStart_runs (s : State) (k : EraseKind) (x : Nat × Option Nat)
    (waits : (s.ig.erasesQueued.find? fun x => x.1 = EraseKind.code k) = some x) (up : mediaUp s = true)
    (idle : s.ig.erasing = none) :
    ∃ t, exec (.eraseStart k) s = .next t ∧ t.ig.erasing = some (scopeOf (EraseKind.code k)) ∧ t.ig.eraseCmd = x.2 ∧
      t.ig.erasesQueued = s.ig.erasesQueued.erase x ∧ t.mp.media = s.mp.media ∧
      (EraseKind.code k < 2 → t.ig.sysGen = (s.ig.sysGen + 1) % 2 ^ 32 ∧ t.ig.rootVer = s.ig.rootVer + 1 ∧
        t.clk.root = s.ig.rootVer + 1 ∧ t.ig.levelB = [] ∧ t.ig.heldNodes = []) := by
  refine ⟨startErase (eraseBegun s (EraseKind.code k) x) (EraseKind.code k), ?_, ?_⟩
  · simp only [exec, execEraseStart, waits]
    exact congrArg Host.Outcome.next (if_neg (by simp [up, idle]))
  obtain ⟨erasing, cmd, queued, media⟩ := startErase_keeps_media (eraseBegun s (EraseKind.code k) x) (EraseKind.code k)
  exact ⟨erasing, cmd, queued, media, fun whole => startErase_whole _ (by simpa [wholeErase] using whole)⟩

theorem eraseStart_idle (s : State) (k : EraseKind) (idle : s.ig.erasing.isSome = true ∨ mediaUp s = false ∨
    (s.ig.erasesQueued.find? fun x => x.1 = EraseKind.code k) = none) : exec (.eraseStart k) s = .next s := by
  simp only [exec, execEraseStart]
  cases waits : s.ig.erasesQueued.find? fun x => x.1 = EraseKind.code k with
  | none => rfl
  | some x => exact congrArg Host.Outcome.next (if_pos (by simpa [waits, or_comm] using idle))

/-! ### The stripes of a sanitize (R226, R386 step 4) -/

/-- The record of a stripe that a sanitize has blanked. -/
def sanitizedRec (b : BsRec) : BsRec := { blankRec b with cycles := b.cycles + 1 }

section
variable {s : State} {bs : Nat}

theorem sanitizeStripe_worn (worn : 20000 ≤ (stripe s bs).cycles) : sanitizeStripe s bs = retireStripe s bs := if_pos worn

theorem sanitizeStripe_blanks (lives : (stripe s bs).cycles < 20000) :
    sanitizeStripe s bs = endSweep (blankedAs s bs sanitizedRec) := if_neg (Nat.not_le.2 lives)

end

theorem sanitize_retires (s : State) (bs : Nat) (worn : 20000 ≤ (stripe s bs).cycles) :
    (stripe (sanitizeStripe s bs) bs).state = .retired ∧ (sanitizeStripe s bs).mp = s.mp := by
  rw [sanitizeStripe_worn worn]
  exact ⟨retireStripe_state s bs, (checkSpareStripes_same _).2.1⟩

theorem sanitize_empties (s : State) (bs : Nat) (lives : (stripe s bs).cycles < 20000) :
    ∀ x ∈ (sanitizeStripe s bs).mp.media, slotBs (x.1 / 64) ≠ bs := by
  have ended : (endSweep (blankedAs s bs sanitizedRec)).mp = (blankedAs s bs sanitizedRec).mp :=
    same_of_keeps (p := .mp) (endSweep_keeps (.refl _ _) rfl)
  rw [sanitizeStripe_blanks lives, ended, (blankedAs_emptied ..).1]
  exact fun x listed => by simpa using (List.mem_filter.1 listed).2

/-- The breath zone's image, and whether the mailbox waits for the erase. -/
def imageView (s : State) : BreathImage × Bool := (s.pwr.image, s.ig.eraseMailbox)

theorem image_of_same {s t : State} (h : StatePart.pwr.same s t) : t.pwr.image = s.pwr.image := pwr_field h PwrSt.image

theorem imageView_sanitizeStripe (s : State) (bs : Nat) : imageView (sanitizeStripe s bs) = imageView s := by
  have image : (sanitizeStripe s bs).pwr.image = s.pwr.image :=
    image_of_same (same_of_keeps (sanitizeStripe_keeps (.refl _ s) rfl))
  have mailbox : (sanitizeStripe s bs).ig.eraseMailbox = s.ig.eraseMailbox := by
    by_cases worn : 20000 ≤ (stripe s bs).cycles
    · have keys : (retireStripe s bs).ig = s.ig := same_of_keeps (p := .ig) (retireStripe_keeps (.refl _ s) rfl)
      rw [sanitizeStripe_worn worn, keys]
    · have keys : (endSweep (blankedAs s bs sanitizedRec)).ig = (blankedAs s bs sanitizedRec).ig :=
        same_of_keeps (p := .ig) (endSweep_keeps (.refl _ _) rfl)
      rw [sanitizeStripe_blanks (Nat.not_le.1 worn), keys, (blankedAs_emptied ..).2]
      rfl
  rw [imageView, image, mailbox, imageView]

/-! ### ERASE_COMPLETE (R386, R547, R639) -/

/-- Step 4: a sanitize blanks every host stripe and clears the placement; other erases leave media. -/
def erasedMedia (s : State) (scope : EraseScope) : State :=
  if scope = .all true then clearPlacement ((hostStripes s).foldl sanitizeStripe s) else s

theorem imageView_erasedMedia (s : State) (scope : EraseScope) : imageView (erasedMedia s scope) = imageView s := by
  unfold erasedMedia
  split
  · exact foldl_keeps imageView _ imageView_sanitizeStripe (hostStripes s) s
  · rfl

theorem eraseComplete_runs {s : State} {scope : EraseScope} (runs : s.ig.erasing = some scope) (up : mediaUp s = true) :
    exec .eraseComplete s = .next (endErase
      (eraseBreath (erasedMedia s scope) fun l => coversDomain scope.code l.domain) scope.code) := by
  simp only [exec, execEraseComplete, runs, up, Bool.not_true, Bool.false_eq_true, if_false, erasedMedia]
  cases scope with
  | domain d => rfl
  | all z => cases z <;> rfl

/-- The keys, the power state and the lines on media. -/
def restView (s : State) : IntegSt × PwrSt × Tab Img := (s.ig, s.pwr, s.mp.media)

/-- An erase has ended; READY and the waiting commands are still to follow. -/
def eraseLeft (s : State) (code : Nat) : State :=
  { s with ig := { s.ig with
    erasing := none, eraseCmd := none, eraseMailbox := false, erasesQueued := s.ig.erasesQueued.filter fun x => x.1 ≠ code } }

theorem endErase_rest (s : State) (code : Nat) : restView (endErase s code) = restView (eraseLeft s code) ∧
    (s.ig.eraseMailbox = true → (endErase s code).hl.doorbell = false ∧ (endErase s code).hl.reply.code = 0) := by
  unfold endErase
  extract_lets ids mail keys left done reply busy
  have readied : restView (refreshReady left) = restView left := by rw [refreshReady_eq, restView, restView]
  have finished (u : State) (i : Nat) : restView (finishId u (some i) 0 0 0) = restView u := by
    rw [finishId_frame, restView, restView]
  have told : restView done = restView left := (foldl_keeps restView _ finished ids _).trans readied
  clear_value done
  by_cases mailbox : mail = true
  · rw [if_pos mailbox]
    exact ⟨told, fun _ => ⟨rfl, rfl⟩⟩
  · rw [if_neg mailbox]
    exact ⟨told, fun waits => absurd waits mailbox⟩

theorem eraseComplete_ends (s : State) (scope : EraseScope) (runs : s.ig.erasing = some scope) (up : mediaUp s = true) :
    ∃ t, exec .eraseComplete s = .next t ∧ t.ig.erasing = none ∧ t.ig.eraseCmd = none ∧ t.ig.eraseMailbox = false ∧
      (∀ x ∈ t.ig.erasesQueued, x.1 ≠ scope.code) ∧
      (∀ l ∈ t.pwr.image.lines, l ∈ s.pwr.image.lines ∧ coversDomain scope.code l.domain = false) ∧
      (s.ig.eraseMailbox = true → t.hl.doorbell = false ∧ t.hl.reply.code = 0) ∧
      (scope ≠ .all true → t.mp.media = s.mp.media) := by
  refine ⟨_, eraseComplete_runs runs up, ?_⟩
  have view := imageView_erasedMedia s scope
  have plain : scope ≠ .all true → (erasedMedia s scope).mp.media = s.mp.media := fun other => by rw [erasedMedia, if_neg other]
  generalize erasedMedia s scope = u at view plain ⊢
  simp only [imageView, Prod.mk.injEq] at view
  obtain ⟨image, mailbox⟩ := view
  obtain ⟨rest, told⟩ := endErase_rest (eraseBreath u fun l => coversDomain scope.code l.domain) scope.code
  generalize endErase _ _ = t at rest told ⊢
  simp only [restView, Prod.mk.injEq] at rest
  obtain ⟨ig, pwr, media⟩ := rest
  rw [ig, pwr, media, ← image, ← mailbox]
  refine ⟨rfl, rfl, rfl, fun x listed => ?_, fun l listed => ?_, told, plain⟩
  · simpa using (List.mem_filter.1 listed).2
  · obtain ⟨kept, uncovered⟩ := List.mem_filter.1 listed
    exact ⟨kept, by simpa using uncovered⟩

theorem eraseComplete_none (s : State) (none : s.ig.erasing = none) : exec .eraseComplete s = .next s := by
  simp only [exec, execEraseComplete, none]

end Sys2Proof.Proofs.Erases
end

section
/-! The sweep of secure discards; the obligation about erases and sweeps. -/
namespace Sys2Proof.Proofs.SecureSweeps
open Sys2Proof Machine Safety Startup Resets Erases

/-! ### Slots that are destroyed (R260 step 3) -/

theorem mediaImg_destroyed (s : State) (slot i j : Nat) (there : j = i ∨ mediaImg s slot i = .destroyed) :
    mediaImg (setMedia s slot j .destroyed) slot i = .destroyed := by
  by_cases own : j = i
  · rw [own]
    exact tget_tset_val _ _ _ _ (by simp)
  · exact (tget_tset_val_other _ _ _ _ _ (by simp) (by omega)).trans (there.resolve_left own)

theorem foldl_setMedia_destroyed (slot i : Nat) (l : List Nat) (s : State) (there : i ∈ l ∨ mediaImg s slot i = .destroyed) :
    mediaImg (l.foldl (fun s j => setMedia s slot j .destroyed) s) slot i = .destroyed := by
  induction l generalizing s with
  | nil => simpa using there
  | cons j l ih =>
    refine ih _ ?_
    rcases there with listed | there
    · rcases List.mem_cons.1 listed with rfl | listed
      · exact .inr (mediaImg_destroyed s slot i i (.inl rfl))
      · exact .inl listed
    · exact .inr (mediaImg_destroyed s slot i j (.inr there))

/-- Every line of a destroyed slot is destroyed. -/
theorem destroySlot_lines (s : State) {slot i : Nat} (named : slot ≠ none40) (inside : i < 64) :
    mediaImg (destroySlot s slot) slot i = .destroyed := by
  rw [destroySlot, if_neg named]
  exact foldl_setMedia_destroyed slot i _ _ (.inl (List.mem_range.2 inside))

/-! ### The steps of a secure discard (R260) -/

/-- The list of secure discards with one of them changed, or done. -/
def putSecure (s : State) (x : Secure) (y : Option Secure) : State :=
  { s with pl := { s.pl with secure := (s.pl.secure.map fun z => if z = x then y else some z).filterMap id } }

theorem putSecure_single {s : State} {x : Secure} (single : s.pl.secure = [x]) (y : Option Secure) :
    putSecure s x y = { s with pl := { s.pl with secure := y.toList } } := by
  cases y <;> simp [putSecure, single]

section
variable {s : State} {x : Secure} {ends : Bool}

theorem secureStep_done (step : x.step = 6) (durable : lineDurable s (mapLineOf x.page) = true) :
    secureStep ends s x = putSecure s x none := by
  simp only [secureStep, step, durable]
  rfl

theorem secureStep_waits (step : x.step = 4) : secureStep false s x = s := by
  simp only [secureStep, step]
  rfl

theorem secureStep_destroys (step : x.step = 1) (durable : lineDurable s (mapLineOf x.page) = true)
    (reach : homesReach s x.page = true) : secureStep ends s x = putSecure (secureHomes s x) x (some { x with step := 4 }) := by
  simp only [secureStep, step, durable, reach]
  rfl

end

/-! ### SECURE_SWEEP (R260, R261) -/

theorem secureSweep_runs (s : State) (up : mediaRuns s = true) :
    exec .secureSweep s = .next (s.pl.secure.foldl (secureStep (sweepEnds s)) s) := congrArg Host.Outcome.next (if_pos up)

theorem secureSweep_stopped (s : State) (down : mediaRuns s = false) : exec .secureSweep s = .next s :=
  congrArg Host.Outcome.next (if_neg (by simp [down]))

section
variable (s : State) (x : Secure) (up : mediaRuns s = true) (single : s.pl.secure = [x])
include up single

theorem secureSweep_single : exec .secureSweep s = .next (secureStep (sweepEnds s) s x) := by
  rw [secureSweep_runs s up, single]
  rfl

theorem secureSweep_done (step : x.step = 6) (durable : lineDurable s (mapLineOf x.page) = true) :
    exec .secureSweep s = .next { s with pl := { s.pl with secure := [] } } := by
  rw [secureSweep_single s x up single, secureStep_done step durable, putSecure_single single]
  rfl

theorem secureSweep_waits (step : x.step = 4) (early : sweepEnds s = false) : exec .secureSweep s = .next s := by
  rw [secureSweep_single s x up single, early, secureStep_waits step]

theorem secureSweep_destroys (step : x.step = 1) (durable : lineDurable s (mapLineOf x.page) = true)
    (reach : homesReach s x.page = true) :
    ∃ t, exec .secureSweep s = .next t ∧ t.pl.secure = [{ x with step := 4 }] ∧
      ∀ i, i < 64 → (entryNow s x.page).bisqueHome ≠ none40 → mediaImg t (entryNow s x.page).bisqueHome i = .destroyed := by
  have placement : (secureHomes s x).pl = s.pl := same_of_keeps (p := .pl) (secureHomes_keeps (.refl _ s) rfl)
  refine ⟨putSecure (secureHomes s x) x (some { x with step := 4 }), ?_, ?_, fun i inside housed => ?_⟩
  · rw [secureSweep_single s x up single, secureStep_destroys step durable reach]
  · rw [putSecure_single (by rw [placement, single])]
    rfl
  · exact destroySlot_lines _ housed inside

end

/-- Settles O52: an erase by what its start and its end leave of the keys, a sweep by the steps that its discards take. -/
theorem erasesAndSweepsRun : Obligations.ErasesAndSweepsRun :=
  ⟨⟨eraseStart_runs, eraseStart_idle, eraseComplete_ends, eraseComplete_none, sanitize_retires, sanitize_empties⟩,
    secureSweep_runs, secureSweep_stopped, secureSweep_done, secureSweep_waits, secureSweep_destroys⟩

end Sys2Proof.Proofs.SecureSweeps
end

section
/-! The thresholds of the age bins, and the bin of an age. -/
namespace Sys2Proof.Proofs.AgeBins
open Sys2Proof Machine

/-- In an ascending list the elements up to a bound are the first ones. -/
theorem lt_length_filter_le_iff {l : List Nat} (ascends : l.Pairwise (· < ·)) (a : Nat) {k : Nat} (inside : k < l.length) :
    k < (l.filter fun t => t ≤ a).length ↔ nth l k ≤ a := by
  induction l generalizing k with
  | nil => cases inside
  | cons x l ih =>
    obtain ⟨least, rest⟩ := List.pairwise_cons.1 ascends
    by_cases reached : x ≤ a
    · cases k with
      | zero => simp [nth, reached]
      | succ k => simpa [nth, reached] using ih rest (Nat.lt_of_succ_lt_succ inside)
    · have beyond : ∀ t ∈ x :: l, ¬ t ≤ a := by
        intro t listed
        rcases List.mem_cons.1 listed with rfl | listed
        · exact reached
        · exact fun below => reached ((least t listed).le.trans below)
      have none : (x :: l).filter (fun t => t ≤ a) = [] := List.filter_eq_nil_iff.2 (by simpa using beyond)
      have there : nth (x :: l) k ∈ x :: l := by
        rw [nth, List.getD_eq_getElem _ _ inside]
        exact List.getElem_mem inside
      simpa [none] using beyond _ there

theorem binStart_length : binStart.length = 39 := rfl

theorem binStart_ascends : binStart.Pairwise (· < ·) := by decide

/-- The table against the powers of ten: each threshold's fourth power reaches its power, that of the number before does not. -/
theorem binStart_exact : ∀ k < 39, 10 ^ k ≤ th k ^ 4 ∧ (th k - 1) ^ 4 < 10 ^ k := by decide

/-- TH[k] is the least number whose fourth power reaches 10^k (R265). -/
theorem th_le_iff {k : Nat} (bin : k ≤ 38) (t : Nat) : th k ≤ t ↔ 10 ^ k ≤ t ^ 4 := by
  obtain ⟨reaches, short⟩ := binStart_exact k (by omega)
  refine ⟨fun above => reaches.trans (Nat.pow_le_pow_left above 4), fun power => ?_⟩
  by_contra below
  have shorter : t ^ 4 ≤ (th k - 1) ^ 4 := Nat.pow_le_pow_left (by omega) 4
  omega

theorem ageBin_le (a : Nat) : ageBin a ≤ 38 := by
  have counted := List.length_filter_le (fun t => decide (t ≤ a)) binStart
  rw [binStart_length] at counted
  exact Nat.sub_le_sub_right counted 1

/-- An age is of a bin or of a later one just when it reaches the bin's threshold. -/
theorem le_ageBin_iff {a k : Nat} (aged : 1 ≤ a) (bin : k ≤ 38) : k ≤ ageBin a ↔ th k ≤ a := by
  have first : 0 < (binStart.filter fun t => t ≤ a).length := (lt_length_filter_le_iff binStart_ascends a (by decide)).2 aged
  rw [th, ← lt_length_filter_le_iff binStart_ascends a (binStart_length ▸ Nat.lt_succ_of_le bin), ageBin]
  omega

/-- Settles O26: the thresholds by the table against the powers of ten, the bin by how many of them an age reaches. -/
theorem ageBins : Obligations.AgeBins := by
  refine ⟨fun k bin => ⟨(th_le_iff bin _).1 le_rfl, fun t => (th_le_iff bin t).2⟩, fun a aged => ?_⟩
  have reached : th (ageBin a) ≤ a := (le_ageBin_iff aged (ageBin_le a)).1 le_rfl
  refine ⟨ageBin_le a, reached, fun k bin => (le_ageBin_iff aged bin).2, (th_le_iff (ageBin_le a) a).1 reached, fun inner => ?_⟩
  have next : ¬ th (ageBin a + 1) ≤ a := fun h => absurd ((le_ageBin_iff aged inner).2 h) (Nat.not_succ_le_self _)
  exact Nat.lt_of_not_le fun power => next ((th_le_iff inner a).2 power)

end Sys2Proof.Proofs.AgeBins
end

section
/-! The ticks of drift, its captures and the sweep of the stripes. -/
namespace Sys2Proof.Proofs.Drift
open Sys2Proof Machine Safety Startup Resets Reclaim

/-! ### Ticks (R267) -/

/-- A die group's slopes are listed, the descriptor's where none are learned yet. -/
theorem dieGroup_nut (s : State) (n q : Nat) : (dieGroup s n q).nut ≠ [] := by
  unfold dieGroup
  extract_lets g
  split
  · exact List.ne_nil_of_length_pos (by simp)
  · next listed => simpa using listed

theorem dieGroup_of_nut {s : State} {n q : Nat} (listed : (tget {} s.dr.groups (n * 5 + q)).nut ≠ []) :
    dieGroup s n q = tget {} s.dr.groups (n * 5 + q) :=
  if_neg (by simpa using listed)

/-- Setting one group of the five of a link is read back, and no other group reads otherwise. -/
theorem dieGroup_setGroup (s : State) {n m p q : Nat} {g : DieGroup} (listed : g.nut ≠ []) (hp : p < 5) (hq : q < 5) :
    dieGroup (setGroup s m p g) n q = if (n, q) = (m, p) then g else dieGroup s n q := by
  have moved : g ≠ {} := fun e => listed (congrArg DieGroup.nut e)
  split
  · next same =>
    obtain ⟨rfl, rfl⟩ := Prod.mk.inj same
    have read : tget {} (setGroup s n q g).dr.groups (n * 5 + q) = g := tget_tset_val _ _ _ _ moved
    rw [dieGroup_of_nut (read.symm ▸ listed), read]
  · next other =>
    have key : n * 5 + q ≠ m * 5 + p := fun e => other (Prod.ext (by omega) (by omega))
    have read : tget {} (setGroup s m p g).dr.groups (n * 5 + q) = tget {} s.dr.groups (n * 5 + q) :=
      tget_tset_val_other _ _ _ _ _ moved key
    simp only [dieGroup, read]
    rfl

/-- Set listed groups, each to its value. -/
def setGroups (F : Nat → Nat → DieGroup) (l : List (Nat × Nat)) (s : State) : State :=
  l.foldl (fun t x => setGroup t x.1 x.2 (F x.1 x.2)) s

theorem dieGroup_setGroups {F : Nat → Nat → DieGroup} (listed : ∀ n q, (F n q).nut ≠ []) {l : List (Nat × Nat)}
    (five : ∀ x ∈ l, x.2 < 5) (s : State) (n : Nat) {q : Nat} (hq : q < 5) :
    dieGroup (setGroups F l s) n q = if (n, q) ∈ l then F n q else dieGroup s n q := by
  induction l generalizing s with
  | nil => rfl
  | cons x l ih =>
    obtain ⟨hx, five⟩ := List.forall_mem_cons.1 five
    refine (ih five (setGroup s x.1 x.2 (F x.1 x.2))).trans ?_
    rw [dieGroup_setGroup s (listed _ _) hx hq]
    by_cases later : (n, q) ∈ l
    · simp [later]
    · by_cases here : (n, q) = x
      · subst here; simp
      · simp [later, here]

theorem setGroups_frame (F : Nat → Nat → DieGroup) (l : List (Nat × Nat)) (s : State) :
    setGroups F l s = { s with dr := { s.dr with groups := (setGroups F l s).dr.groups } } := by
  induction l generalizing s with
  | nil => rfl
  | cons x l ih => exact ih (setGroup s x.1 x.2 (F x.1 x.2))

/-- The die groups of every accepted package. -/
def groupsHeld (s : State) : List (Nat × Nat) := (pkgLinks s).flatMap fun n => (List.range 5).map fun q => (n, q)

theorem mem_groupsHeld {s : State} {x : Nat × Nat} : x ∈ groupsHeld s ↔ x.1 ∈ pkgLinks s ∧ x.2 < 5 := by
  obtain ⟨n, q⟩ := x
  simp [groupsHeld]

theorem eachGroup_eq (s : State) (f : State → Nat → Nat → DieGroup → DieGroup) :
    eachGroup s f = setGroups (fun n q => f s n q (dieGroup s n q)) (groupsHeld s) s := by
  simp only [eachGroup, setGroups, groupsHeld, List.foldl_flatMap, List.foldl_map]

/-- The state after every group's tick. -/
def ticked (s : State) : State := eachGroup s fun s n q g => tickGroup (groupFactor s n q) g

theorem driftTick_next {s : State} (up : awake s = true) : exec .driftTick s =
    .next { s with dr := { s.dr with groups := (ticked s).dr.groups, lastUpdate := s.clk.beat } } := by
  have frame : ticked s = { s with dr := { s.dr with groups := (ticked s).dr.groups } } := by
    rw [ticked, eachGroup_eq]
    exact setGroups_frame _ _ s
  refine congrArg Host.Outcome.next ((if_pos up).trans ?_)
  change { ticked s with dr := { (ticked s).dr with lastUpdate := (ticked s).clk.beat } } = _
  rw [frame]

theorem dieGroup_ticked {s : State} {n q : Nat} (held : n ∈ pkgLinks s) (hq : q < 5) :
    dieGroup (ticked s) n q = tickGroup (groupFactor s n q) (dieGroup s n q) := by
  have slopes (n q : Nat) : (tickGroup (groupFactor s n q) (dieGroup s n q)).nut ≠ [] := dieGroup_nut s n q
  rw [ticked, eachGroup_eq, dieGroup_setGroups slopes (fun x listed => (mem_groupsHeld.1 listed).2) s n hq,
    if_pos (mem_groupsHeld.2 ⟨held, hq⟩)]

theorem driftTick_ticks (s : State) (up : awake s = true) : ∃ t, exec .driftTick s = .next t ∧
    t = { s with dr := { s.dr with groups := t.dr.groups, lastUpdate := s.clk.beat } } ∧
    ∀ n ∈ pkgLinks s, ∀ q < 5, dieGroup t n q = tickGroup (groupFactor s n q) (dieGroup s n q) := by
  refine ⟨_, driftTick_next up, rfl, fun n held q hq => ?_⟩
  rw [← dieGroup_ticked held hq, ticked, eachGroup_eq, setGroups_frame]
  rfl

/-! ### Captures (R276, R277) -/

theorem coneCapture_next (s : State) (r : Rank) (p : Nat × Nat) (loop : driftLoopEn s = true) (up : awake s = true)
    (next : (((capturePoints s r.val).filter fun x => (tget (0, 0) s.dr.walk r.val).1 < x.1 ||
      ((tget (0, 0) s.dr.walk r.val).1 = x.1 && (tget (0, 0) s.dr.walk r.val).2 < x.2)) ++ capturePoints s r.val).head? = some p) :
    exec (.coneCapture r) s = .next { s with dr := { s.dr with
      walk := tset (0, 0) s.dr.walk r.val p, inFlight := s.dr.inFlight ++ [{ rank := r.val, bs := p.1, group := p.2 }] } } := by
  simp only [exec, execConeCapture, loop, up, Bool.and_self, if_true, next]

theorem coneCapture_off (s : State) (r : Rank) (loop : driftLoopEn s = false) : exec (.coneCapture r) s = .next s := by
  simp only [exec, execConeCapture, loop, Bool.false_and, Bool.false_eq_true, if_false]

theorem raise_dr (s : State) (code source p0 p1 p2 p3 : Nat) : (raise s code source p0 p1 p2 p3).dr = s.dr :=
  same_of_keeps (p := .dr) (raise_keeps (.refl _ s) rfl)

/-- A link's masks stand in the plane's cone register, and its capture has seen the link (R275). -/
def masksTaken (s : State) (n d : Nat) (c : Capture) (up down : BitVec 64) : State :=
  let c' := { c with seen := c.seen ++ [n] }
  { s with
    ln := { s.ln with coneRegs := tset (0, 0) s.ln.coneRegs ((n * 17 + d) * 4 + bsPlane c.bs) (up, down) }
    dr := { s.dr with
      inFlight := if (inServiceLinks s c.bs).all fun m => m ∈ c'.seen then s.dr.inFlight.erase c
        else s.dr.inFlight.map fun x => if x = c then c' else x
      captures := if c.seen.isEmpty then satAdd 32 s.dr.captures 1 else s.dr.captures } }

theorem targetMasks_captures (s : State) (n d : Nat) (down : BitVec 64) :
    (targetMasks s n d down).dr.captures = s.dr.captures := by
  unfold targetMasks
  extract_lets +onlyGivenNames t dl u
  split
  · rfl
  · extract_lets
    split <;> rfl

theorem driftMasks_captures (s : State) (n bs group : Nat) (up down : BitVec 64) :
    (driftMasks s n bs group up down).dr.captures = s.dr.captures := by
  unfold driftMasks
  extract_lets q k x tuned _ queued
  clear_value x
  have counted : queued.dr.captures = s.dr.captures := (apply_ite (fun t : State => t.dr.captures) _ _ _).trans (ite_self _)
  exact (foldl_keeps (fun t : State => t.dr.captures) _ (fun _ _ => congrArg DriftSt.captures (raise_dr ..)) x.2.2 queued).trans
    counted

section
variable {s : State} {l : LinkNo} {die : DieNo} {c : Capture} (up down : BitVec 64)
  (found : s.dr.inFlight.find? (fun c => c.rank = l.val / 18 && dieFor s l.val (bsDie c.bs) = die.val && l.val ∉ c.seen) = some c)
include found

/-- Masks of a stripe that has left FULL, OPEN and VICTIM. -/
theorem coneMasks_drops (full : bsState s c.bs ≠ .full) (isOpen : bsState s c.bs ≠ .open) (victim : bsState s c.bs ≠ .victim) :
    exec (.coneMasks l die up down) s = .next { s with dr := { s.dr with inFlight := s.dr.inFlight.erase c } } := by
  simp only [exec, execConeMasks, found]
  exact congrArg Host.Outcome.next (if_pos (by simp [full, isOpen, victim]))

/-- The masks stand in the plane's cone register, and then go to the loop that the capture feeds. -/
theorem coneMasks_uses (used : bsState s c.bs = .full ∨ bsState s c.bs = .open ∨ bsState s c.bs = .victim)
    (serves : l.val ∈ inServiceLinks s c.bs) : exec (.coneMasks l die up down) s = .next (
      if c.target then targetMasks (masksTaken s l.val die.val c up down) l.val die.val down
      else driftMasks (masksTaken s l.val die.val c up down) l.val c.bs c.group up down) := by
  have kept : ¬ (bsState s c.bs ≠ .full && bsState s c.bs ≠ .open && bsState s c.bs ≠ .victim) = true := by
    rcases used with h | h | h <;> simp [h]
  simp only [exec, execConeMasks, found]
  exact congrArg Host.Outcome.next ((if_neg kept).trans (if_neg (not_not.2 serves)))

theorem coneMasks_stand (used : bsState s c.bs = .full ∨ bsState s c.bs = .open ∨ bsState s c.bs = .victim)
    (serves : l.val ∈ inServiceLinks s c.bs) : ∃ t, exec (.coneMasks l die up down) s = .next t ∧
      t.ln = { s.ln with coneRegs := tset (0, 0) s.ln.coneRegs ((l.val * 17 + die.val) * 4 + bsPlane c.bs) (up, down) } ∧
      t.dr.captures = if c.seen = [] then satAdd 32 s.dr.captures 1 else s.dr.captures := by
  refine ⟨_, coneMasks_uses up down found used serves, ?_, ?_⟩
  · split
    · exact same_of_keeps (p := .ln) (targetMasks_keeps (.refl _ (masksTaken s l.val die.val c up down)) rfl)
    · exact same_of_keeps (p := .ln) (driftMasks_keeps (.refl _ (masksTaken s l.val die.val c up down)) rfl)
  · rw [apply_ite (fun t : State => t.dr.captures), targetMasks_captures, driftMasks_captures, ite_self]
    simp [masksTaken]

end

/-! ### The sweep's order (R282) -/

/-- The lowest stripe seen so far, as the sweep's search keeps it. -/
def leastSeen (m : Option Nat) (b : Nat) : Option Nat :=
  match m with
  | none => some b
  | some x => some (min x b)

theorem foldl_leastSeen_some (l : List Nat) (a : Nat) : l.foldl leastSeen (some a) = some (l.foldl min a) := by
  induction l generalizing a with
  | nil => rfl
  | cons b l ih => exact ih (min a b)

theorem foldl_leastSeen_eq_min? (l : List Nat) : l.foldl leastSeen none = l.min? := by
  cases l with
  | nil => rfl
  | cons a l => exact foldl_leastSeen_some l a

theorem nextSweep_front {s : State} {r bs : Nat} (front : (tget [] s.dr.sweepFront r).find? (fun b => b ∈ unswept s r) = some bs) :
    nextSweep s r = some bs := by
  simp only [nextSweep, front]

/-- Where no read waits for a stripe's cones, the lowest one is next. -/
theorem nextSweep_lowest {s : State} {r : Nat} (front : ∀ b ∈ tget [] s.dr.sweepFront r, b ∉ unswept s r) :
    nextSweep s r = (unswept s r).min? := by
  have none : (tget [] s.dr.sweepFront r).find? (fun b => b ∈ unswept s r) = none :=
    List.find?_eq_none.2 (by simpa using front)
  simp only [nextSweep, none]
  exact foldl_leastSeen_eq_min? _

/-! ### The reads that wait for a stripe (R185, R282) -/

/-- Only an unswept stripe makes a read of the media wait. -/
theorem unswept_of_mediaLookup {s : State} {slot line bs : Nat} {bisque : Bool}
    (waits : (mediaLookup s slot line bisque).stage = .cones bs) : (stripe s bs).unswept = true := by
  unfold mediaLookup at waits
  extract_lets r at waits
  split at waits
  · cases waits
  · split at waits
    · cases waits
    · split at waits
      · next swept =>
        obtain rfl := RdStage.cones.inj waits
        simp only [Bool.and_eq_true] at swept
        exact swept.2
      · split at waits <;> cases waits

/-- Where a read that waited for cones stands now, by the entry that it took. -/
def conesLookup (s : State) (r : Rd) : Lookup :=
  match lineSource r.taken r.line true with
  | .media slot b => mediaLookup s slot r.line b
  | _ => {}

theorem conesLookup_stage {s : State} {bs : Nat} (r : Rd) (swept : (stripe s bs).unswept = false) :
    (conesLookup s r).stage ≠ .cones bs := by
  intro waits
  unfold conesLookup at waits
  split at waits
  · rw [unswept_of_mediaLookup waits] at swept
    cases swept
  · cases waits

/-- A read that waited for cones, as it goes on. -/
def resumedRead (s : State) (r : Rd) : Rd :=
  { r with stage := (conesLookup s r).stage, path := r.path ||| (conesLookup s r).path }

/-- The read stands where it goes on. -/
def resumedAt (s : State) (r : Rd) : State :=
  { s with hq := { s.hq with reads := s.hq.reads.map fun x => if x = r then resumedRead s r else x } }

/-- One read that waited for cones goes on. -/
def resumeOne (s : State) (r : Rd) : State := commandRead (resumedAt s r) (resumedRead s r) (s.clk.beat + 1)

theorem resumeCones_eq (s : State) (bs : Nat) :
    resumeCones s bs = (s.hq.reads.filter fun r => r.stage = .cones bs).foldl resumeOne s := rfl

/-- What the sweep has found, and how far it has come, is the same. -/
structure SweepStays (s t : State) : Prop where
  pl : t.pl = s.pl
  swept : t.dr.swept = s.dr.swept
  active : t.dr.sweepActive = s.dr.sweepActive

theorem SweepStays.trans {s t u : State} (h : SweepStays s t) (g : SweepStays t u) : SweepStays s u :=
  ⟨g.pl.trans h.pl, g.swept.trans h.swept, g.active.trans h.active⟩

theorem SweepStays.refl (s : State) : SweepStays s s := ⟨rfl, rfl, rfl⟩

theorem SweepStays.of_keeps {s t : State} (h : Keeps 0x400#21 s t) : SweepStays s t := by
  have dr : t.dr = s.dr := h.same.part .dr rfl
  exact ⟨h.same.part .pl rfl, congrArg DriftSt.swept dr, congrArg DriftSt.sweepActive dr⟩

theorem commandRead_sweep (s : State) (r : Rd) (due : Nat) : SweepStays s (commandRead s r due) := by
  unfold commandRead
  extract_lets x
  split
  · exact .of_keeps (senseMap_keeps (.refl _ s) rfl)
  · exact .of_keeps (senseStamp_keeps (senseLine_keeps (.refl _ s) rfl) rfl)
  · exact .of_keeps (senseStamp_keeps (senseStripe_keeps (.refl _ s) rfl) rfl)
  · exact ⟨rfl, rfl, rfl⟩
  · exact .refl s

theorem resumeOne_sweep (s : State) (r : Rd) : SweepStays s (resumeOne s r) :=
  SweepStays.trans (t := resumedAt s r) ⟨rfl, rfl, rfl⟩ (commandRead_sweep ..)

theorem resumeOne_reads (s : State) (r : Rd) :
    (resumeOne s r).hq.reads = s.hq.reads.map fun x => if x = r then resumedRead s r else x :=
  congrArg HostMemSt.reads (same_of_keeps (p := .hq) (commandRead_keeps (.refl _ _) rfl))

theorem foldl_resumeOne_sweep {l : List Rd} (s : State) : SweepStays s (l.foldl resumeOne s) := by
  induction l generalizing s with
  | nil => exact .refl s
  | cons r l ih => exact (resumeOne_sweep s r).trans (ih _)

theorem resumeCones_sweep (s : State) (bs : Nat) : SweepStays s (resumeCones s bs) := foldl_resumeOne_sweep s

/-- The reads listed go on; once every read that waits for a swept stripe was listed, none waits for it. -/
theorem foldl_resumeOne_frees {bs : Nat} {l : List Rd} {s : State} (swept : (stripe s bs).unswept = false)
    (listed : ∀ x ∈ s.hq.reads, x.stage = .cones bs → x ∈ l) : ∀ x ∈ (l.foldl resumeOne s).hq.reads, x.stage ≠ .cones bs := by
  induction l generalizing s with
  | nil => exact fun x read waits => absurd (listed x read waits) List.not_mem_nil
  | cons r l ih =>
    refine ih (by rw [stripe, (resumeOne_sweep s r).pl]; exact swept) fun x read waits => ?_
    rw [resumeOne_reads] at read
    obtain ⟨y, old, rfl⟩ := List.mem_map.1 read
    split at waits
    · exact absurd waits (conesLookup_stage r swept)
    · next other =>
      rw [if_neg other]
      exact (List.mem_cons.1 (listed y old waits)).resolve_left other

theorem resumeCones_frees {s : State} {bs : Nat} (swept : (stripe s bs).unswept = false) :
    ∀ x ∈ (resumeCones s bs).hq.reads, x.stage ≠ .cones bs := by
  rw [resumeCones_eq]
  exact foldl_resumeOne_frees swept fun x read waits => by simp [read, waits]

/-! ### The sweep of a stripe (R281, R282) -/

/-- The sweep's end ends it just when no stripe is unswept; else it changes neither the placement nor the reads. -/
theorem endSweep_spec (s : State) : (endSweep s).pl = s.pl ∧ (endSweep s).hq = s.hq ∧ (endSweep s).dr.swept = s.dr.swept ∧
    ((endSweep s).dr.sweepActive = true ↔ s.dr.sweepActive = true ∧ ∃ x ∈ s.pl.stripes, x.2.unswept = true) := by
  refine ⟨same_of_keeps (p := .pl) (endSweep_keeps (.refl _ s) rfl), same_of_keeps (p := .hq) (endSweep_keeps (.refl _ s) rfl), ?_⟩
  unfold endSweep
  split
  · next goes =>
    refine ⟨rfl, fun active => ⟨active, ?_⟩, And.left⟩
    simpa [active] using goes
  · next ends =>
    rw [raise_dr]
    simp only [Bool.or_eq_true, Bool.not_eq_true', List.any_eq_true, not_or] at ends
    exact ⟨rfl, iff_of_false Bool.false_ne_true fun going => ends.2 going.2⟩

/-- What the probes of a stripe find stands in its record, and the sweep has passed it (R281). -/
def sweptStripe (s : State) (bs : Nat) (sums : List (Nat × Nat × Int)) : State :=
  let gt := ((stripe s bs).wls - 1) / 1024
  let s := updStripe s bs fun r => { r with
    fired := s.clk.seconds - th (probe sums 0)
    lag := if gt = 0 then 0 else ageBin (max (th (probe sums 0) - th (probe sums gt)) 1)
    unswept := false }
  { s with dr := { s.dr with
    swept := s.dr.swept + 1
    sweepFront := tset [] s.dr.sweepFront (bsRank bs) ((tget [] s.dr.sweepFront (bsRank bs)).filter (· ≠ bs)) } }

theorem stripe_sweptStripe (s : State) (bs : Nat) (sums : List (Nat × Nat × Int)) :
    stripe (sweptStripe s bs sums) bs = { stripe s bs with
      fired := s.clk.seconds - th (probe sums 0)
      lag := if ((stripe s bs).wls - 1) / 1024 = 0 then 0
        else ageBin (max (th (probe sums 0) - th (probe sums (((stripe s bs).wls - 1) / 1024))) 1)
      unswept := false, changed := true } :=
  stripe_updStripe_here s bs _

theorem stripeSweep_next {s : State} {bs : StripeNo} (sums : List (Nat × Nat × Int)) (active : s.dr.sweepActive = true)
    (due : (stripe s bs.val).unswept = true) (reach : lostLinks s (bsRank bs.val) < 3)
    (next : nextSweep s (bsRank bs.val) = some bs.val) :
    exec (.stripeSweep bs sums) s = .next (endSweep (resumeCones (sweptStripe s bs.val sums) bs.val)) :=
  congrArg Host.Outcome.next (if_neg (by simp [active, due, next, Nat.not_le.2 reach]))

theorem stripeSweep_sweeps (s : State) (bs : StripeNo) (sums : List (Nat × Nat × Int)) (active : s.dr.sweepActive = true)
    (due : (stripe s bs.val).unswept = true) (reach : lostLinks s (bsRank bs.val) < 3)
    (next : nextSweep s (bsRank bs.val) = some bs.val) :
    ∃ t, exec (.stripeSweep bs sums) s = .next t ∧ (stripe t bs.val).unswept = false ∧
      (stripe t bs.val).state = (stripe s bs.val).state ∧ (stripe t bs.val).wls = (stripe s bs.val).wls ∧
      (stripe t bs.val).lag = (if ((stripe s bs.val).wls - 1) / 1024 = 0 then 0
        else ageBin (max (th (probe sums 0) - th (probe sums (((stripe s bs.val).wls - 1) / 1024))) 1)) ∧
      t.dr.swept = s.dr.swept + 1 ∧ (∀ r ∈ t.hq.reads, r.stage ≠ .cones bs.val) ∧
      (t.dr.sweepActive = true ↔ ∃ x ∈ t.pl.stripes, x.2.unswept = true) := by
  have record := stripe_sweptStripe s bs.val sums
  have resumed := resumeCones_sweep (sweptStripe s bs.val sums) bs.val
  obtain ⟨pl, hq, swept, goes⟩ := endSweep_spec (resumeCones (sweptStripe s bs.val sums) bs.val)
  have free := resumeCones_frees (s := sweptStripe s bs.val sums) (bs := bs.val) (by rw [record])
  refine ⟨_, stripeSweep_next sums active due reach next, ?_⟩
  rw [stripe, hq, swept, goes, pl, resumed.pl, resumed.swept, resumed.active, ← stripe, record]
  exact ⟨rfl, rfl, rfl, rfl, rfl, free, and_iff_right active⟩

theorem stripeSweep_idle (s : State) (bs : StripeNo) (sums : List (Nat × Nat × Int)) (idle : s.dr.sweepActive = false) :
    exec (.stripeSweep bs sums) s = .next s :=
  congrArg Host.Outcome.next (if_pos (by simp [idle]))

/-- Settles O33: the ticks group by group, the captures by their walk and their masks, the sweep by its order, its record and
the reads that it lets go on. -/
theorem driftAndSweeps : Obligations.DriftAndSweeps := by
  refine ⟨⟨driftTick_ticks, fun s up => congrArg Host.Outcome.next (if_pos up), coneCapture_next, coneCapture_off, ?_, ?_⟩,
    stripeSweep_sweeps, fun s r bs => nextSweep_front, fun s r bs front next => ?_, stripeSweep_idle⟩
  · exact fun s l die up down c => coneMasks_drops up down
  · exact fun s l die up down c => coneMasks_stand up down
  · exact List.min?_eq_some_iff.1 ((nextSweep_lowest front).symm.trans next)

end Sys2Proof.Proofs.Drift
end

section
/-! SRAM words, rows and channels, control cores, and what their spares take over. -/
namespace Sys2Proof.Proofs.SramCores
open Sys2Proof Machine Safety Startup

/-! ### Words and rows (R314, R331) -/

theorem sramCh_updSram {s : State} {c : Nat} {f : SramCh → SramCh} (moved : f (sramCh s c) ≠ {}) :
    sramCh (updSram s c f) c = f (sramCh s c) :=
  tget_tset_val _ _ _ _ moved

/-- A corrected word counts one more at its channel. -/
theorem sramError_corrected (s : State) (c row : Nat) :
    (sramCh (sramError s c row false) c).ce = satAdd 16 (sramCh s c).ce 1 := by
  have counted : satAdd 16 (sramCh s c).ce 1 ≠ 0 := by unfold satAdd; omega
  unfold sramError
  extract_lets old due
  rw [sramCh_updSram]
  · rfl
  · exact fun fresh => counted (congrArg SramCh.ce fresh)

theorem sramEccError_corrected (s : State) (ch : Fin 128) (row : Nat) (p : SramPlace) (up : awake s = true) :
    ∃ t, exec (.sramEccError ch row false p) s = .next t ∧ (sramCh t ch.val).ce = satAdd 16 (sramCh s ch.val).ce 1 ∧
      t = { s with ecc := { s.ecc with sram := t.ecc.sram }, ev := { s.ev with mons := t.ev.mons } } := by
  have ecc := Scrubs.count_ecc (sramError s ch.val row false) 66 0x303 0xFF 1
  refine ⟨count (sramError s ch.val row false) 66 0x303 0xFF 1, congrArg Host.Outcome.next (if_neg (by simp [up])), ?_, ?_⟩
  · rw [sramCh, ecc]
    exact sramError_corrected s ch.val row
  · rw [ecc]
    exact Scrubs.count_mons ..

theorem sramRowRepair_remaps (s : State) (ch : Fin 128) (row : Nat) (due : row ∈ (sramCh s ch.val).due)
    (spare : (sramCh s ch.val).rowsUsed < 64) (good : (sramCh s ch.val).failed = false) (left : s.wr.rowsUsed + 1 < 8192) :
    ∃ t, exec (.sramRowRepair ch row) s = .next t ∧ t.wr = { s.wr with rowsUsed := s.wr.rowsUsed + 1 } ∧
      t = { s with wr := t.wr, ecc := { s.ecc with sram := t.ecc.sram } } :=
  ⟨_, congrArg Host.Outcome.next ((if_neg (by simp [due, good, spare])).trans (if_neg (Nat.not_le.2 left))), rfl, rfl⟩

/-! ### Channels (R332, R333) -/

/-- The die's spare serves for a failed channel, and POOL is cut while it is filled. -/
def channelSpared (s : State) (c : Nat) : State :=
  { updSram s c fun x => { x with failed := true, copying := true } with
    wr := { s.wr with chUsed := s.wr.chUsed ||| (1#8 <<< sramDie c) }
    sag := { s.sag with poolCut := s.sag.poolCut + sagLinesOn (sramLogical c) } }

theorem useSpareChannel_eq (s : State) (c : Nat) : useSpareChannel s c =
    if (channelSpared s c).wr.chUsed = 0xFF#8 then exhaust (channelSpared s c) 2 else channelSpared s c := rfl

theorem useSpareChannel_parts (s : State) (c : Nat) : StatePart.pwr.same (channelSpared s c) (useSpareChannel s c) ∧
    (useSpareChannel s c).wr.chUsed = (channelSpared s c).wr.chUsed ∧ (useSpareChannel s c).sag = (channelSpared s c).sag := by
  rw [useSpareChannel_eq]
  split
  · obtain ⟨pwr, -, used⟩ := exhaust_same (channelSpared s c) 2
    exact ⟨pwr, used, same_of_keeps (p := .sag) (exhaust_keeps (.refl _ _) rfl)⟩
  · exact ⟨rfl, rfl, rfl⟩

theorem sramChannelFail_spared (s : State) (ch : Fin 128) (why : SramFault) (up : awake s = true)
    (fails : channelFails s ch.val why = true) (free : s.wr.chUsed.getLsbD (sramDie ch.val) = false)
    (good : (sramCh s (16 * sramDie ch.val + 15)).failed = false) :
    ∃ t, exec (.sramChannelFail ch why) s = .next t ∧ t.wr.chUsed = s.wr.chUsed ||| (1#8 <<< sramDie ch.val) ∧
      t.sag.poolCut = s.sag.poolCut + sagLinesOn (sramLogical ch.val) ∧ t.pwr.disabled = s.pwr.disabled := by
  obtain ⟨pwr, used, sag⟩ := useSpareChannel_parts s ch.val
  exact ⟨_, congrArg Host.Outcome.next ((if_neg (by simp [up, fails])).trans (if_neg (by simp [free, good]))), used,
    congrArg SagSt.poolCut sag, pwr_field pwr PwrSt.disabled⟩

theorem disableMedia_disabled (s : State) : (disableMedia s).pwr.disabled = true :=
  pwr_field (raise_same ..).1 PwrSt.disabled

theorem sramChannelFail_unspared (s : State) (ch : Fin 128) (why : SramFault) (up : awake s = true)
    (fails : channelFails s ch.val why = true) (used : s.wr.chUsed.getLsbD (sramDie ch.val) = true) :
    ∃ t, exec (.sramChannelFail ch why) s = .next t ∧ t.pwr.disabled = true :=
  ⟨_, congrArg Host.Outcome.next ((if_neg (by simp [up, fails])).trans (if_pos (by simp [used]))), disableMedia_disabled _⟩

/-! ### The end of a channel's copy (R332) -/

/-- The copy of one of a die's channels ends, and the lines that it serves count in POOL again. -/
def copyEnds (die : Nat) (s : State) (k : Nat) : State :=
  updSram { s with sag := { s.sag with poolCut := s.sag.poolCut - sagLinesOn (sramLogical (16 * die + k)) } } (16 * die + k)
    fun x => { x with copying := false }

/-- A die's channels whose copy runs. -/
def copies (s : State) (die : Nat) : List Nat := (List.range 16).filter fun k => (sramCh s (16 * die + k)).copying

/-- Everything but what the end of a copy changes. -/
def copyView (s : State) : State := { s with sag := { s.sag with poolCut := 0 }, ecc := { s.ecc with sram := [] } }

theorem foldl_copyEnds_frame (die : Nat) (l : List Nat) (s : State) : l.foldl (copyEnds die) s =
    { s with
      sag := { s.sag with poolCut := (l.foldl (copyEnds die) s).sag.poolCut }
      ecc := { s.ecc with sram := (l.foldl (copyEnds die) s).ecc.sram } } :=
  congrArg (fun u : State => { u with
    sag := { u.sag with poolCut := (l.foldl (copyEnds die) s).sag.poolCut }
    ecc := { u.ecc with sram := (l.foldl (copyEnds die) s).ecc.sram } })
    (foldl_keeps copyView (copyEnds die) (fun _ _ => rfl) l s)

theorem foldl_copyEnds_poolCut (die : Nat) (l : List Nat) (s : State) : (l.foldl (copyEnds die) s).sag.poolCut =
    s.sag.poolCut - (l.map fun k => sagLinesOn (sramLogical (16 * die + k))).sum := by
  induction l generalizing s with
  | nil => rfl
  | cons k l ih =>
    rw [List.foldl_cons, ih, List.map_cons, List.sum_cons, ← Nat.sub_sub]
    rfl

theorem sramCh_copyEnds {s : State} (rising : Rising s.ecc.sram) (die j k : Nat) : sramCh (copyEnds die s j) (16 * die + k) =
    if k = j then { sramCh s (16 * die + k) with copying := false } else sramCh s (16 * die + k) := by
  refine (tget_tupd {} s.ecc.sram (16 * die + j) (16 * die + k) (fun x => { x with copying := false }) rising).trans ?_
  by_cases same : k = j
  · rw [if_pos same, if_pos (by rw [same]), same]
    rfl
  · rw [if_neg same, if_neg (by omega)]
    rfl

/-- Once every copying channel of the list has ended its copy, none copies. -/
theorem foldl_copyEnds_copying {die k : Nat} {l : List Nat} {s : State} (rising : Rising s.ecc.sram)
    (listed : k ∈ l ∨ (sramCh s (16 * die + k)).copying = false) :
    (sramCh (l.foldl (copyEnds die) s) (16 * die + k)).copying = false := by
  induction l generalizing s with
  | nil => exact listed.resolve_left List.not_mem_nil
  | cons j l ih =>
    refine ih (Commits.rising_tset _ _ _ _ rising) ?_
    rw [sramCh_copyEnds rising]
    by_cases same : k = j
    · rw [if_pos same]
      exact .inr rfl
    · rw [if_neg same]
      exact listed.imp_left fun mem => (List.mem_cons.1 mem).resolve_left same

theorem sramChannelCopyDone_ends (s : State) (die : Fin 8) : ∃ t, exec (.sramChannelCopyDone die) s = .next t ∧
    t = { s with sag := { s.sag with poolCut := t.sag.poolCut }, ecc := { s.ecc with sram := t.ecc.sram } } ∧
    t.sag.poolCut = s.sag.poolCut - (((List.range 16).filter fun k => (sramCh s (16 * die.val + k)).copying).map
      fun k => sagLinesOn (sramLogical (16 * die.val + k))).sum ∧
    (Tab.wf {} s.ecc.sram = true → ∀ k, k < 16 → (sramCh t (16 * die.val + k)).copying = false) := by
  refine ⟨(copies s die.val).foldl (copyEnds die.val) s, rfl, foldl_copyEnds_frame .., foldl_copyEnds_poolCut .., fun wf k inDie => ?_⟩
  refine foldl_copyEnds_copying (rising_of_wf _ _ wf) ?_
  cases copying : (sramCh s (16 * die.val + k)).copying with
  | true => exact .inl (List.mem_filter.2 ⟨List.mem_range.2 inDie, copying⟩)
  | false => exact .inr rfl

/-! ### A core that fails (R334, R431, R492) -/

/-- No read of a table answers a value that was taken out of it. -/
theorem tget_filter_ne {α : Type} [DecidableEq α] {d v : α} (other : d ≠ v) (t : Tab α) (n : Nat) :
    tget d (t.filter fun x => x.2 ≠ v) n ≠ v :=
  tget_all (· ≠ v) d _ other (fun _ kept => by simpa using (List.mem_filter.1 kept).2) n

/-- The failed cores and the semaphores. -/
def coreView (s : State) : BitVec 18 × Tab (Option Byte) := (s.wr.failed, s.pp.sema)

theorem coreView_raise (s : State) (code source p0 p1 p2 p3 : Nat) :
    coreView (raise s code source p0 p1 p2 p3) = coreView s := by
  rw [coreView, Layout.raise_sema, (raise_same ..).2.2]
  rfl

theorem coreView_exhaust (s : State) (kind : Nat) : coreView (exhaust s kind) = coreView s := by
  unfold exhaust
  split
  · rfl
  · exact coreView_raise ..

/-- A spare core fewer. -/
def spareLost (s : State) : State :=
  let s := { s with wr := { s.wr with sparesLeft := s.wr.sparesLeft - 1 } }
  if s.wr.sparesLeft = 0 then exhaust s 1 else s

theorem coreView_spareLost (s : State) : coreView (spareLost s) = coreView s := by
  unfold spareLost
  extract_lets wear u
  split
  · exact coreView_exhaust u 1
  · rfl

theorem coreView_abortMouths (s : State) (role : Nat) : coreView (abortMouths s role) = coreView s := by
  refine foldl_keeps coreView _ (fun u n => ?_) (listedPipes s) s
  dsimp only
  split
  · split <;> rfl
  · rfl

theorem coreView_moveRole (s : State) (lost role : Nat) : coreView (moveRole s lost role) = coreView s := by
  unfold moveRole
  split
  · next spare _ =>
    exact coreView_spareLost { s with wr := { s.wr with failing := s.wr.failing ++ [(role, spare)] } }
  · have told := coreView_raise s 0x41 (srcCore lost) 0 0 0 0
    extract_lets u
    split
    · exact told
    · exact told

/-- A role of a failed core moves, the mouthpieces of a command role emptied first. -/
def roleLost (c : Nat) (s : State) (role : Nat) : State := moveRole (if role ≤ 1 then abortMouths s role else s) c role

theorem coreView_roleLost (c : Nat) (s : State) (role : Nat) : coreView (roleLost c s role) = coreView s := by
  refine (coreView_moveRole ..).trans ?_
  split
  · exact coreView_abortMouths s role
  · rfl

/-- A failed core is held in reset without its roles, and its semaphores are free. -/
def coreHeld (s : State) (c : Nat) : State :=
  releaseSemas { s with wr := { s.wr with
    failed := s.wr.failed ||| (1#18 <<< c)
    roles := s.wr.roles.filter fun x => x.2 ≠ c
    failing := s.wr.failing.filter fun x => x.2 ≠ c } } (BitVec.ofNat 8 (0x10 + c))

/-- The failure of a core is told, and one that was idle is a spare fewer. -/
def coreTold (s : State) (c : Nat) : State :=
  let told := raise (coreHeld s c) 0x40 (srcCore c) 0 0 0 0
  if (c = 16 || c = 17) && !coreBusy s c then spareLost told else told

theorem coreFail_live {s : State} {c : Nat} (live : coreLive s c = true) : coreFail s c =
    (((s.wr.roles ++ s.wr.failing).filter fun x => x.2 = c).map (·.1)).foldl (roleLost c) (coreTold s c) :=
  if_neg (by simp [live])

theorem coreView_coreTold (s : State) (c : Nat) : coreView (coreTold s c) = coreView (coreHeld s c) := by
  unfold coreTold
  extract_lets told
  have kept : coreView told = coreView (coreHeld s c) := coreView_raise ..
  split
  · exact (coreView_spareLost told).trans kept
  · exact kept

theorem coreView_coreFail {s : State} {c : Nat} (live : coreLive s c = true) :
    coreView (coreFail s c) = coreView (coreHeld s c) := by
  rw [coreFail_live live, foldl_keeps coreView (roleLost c) (coreView_roleLost c), coreView_coreTold]

theorem coreFail_frame (s : State) (c : Nat) : coreFail s c = { s with
    pwr := { s.pwr with alertUntil := (coreFail s c).pwr.alertUntil }, wr := (coreFail s c).wr, hl := (coreFail s c).hl
    pp := (coreFail s c).pp, kp := (coreFail s c).kp, ev := (coreFail s c).ev } := by
  have keeps : Keeps 0x101100#21 s (coreFail s c) := coreFail_keeps (.refl _ s) rfl
  have part (p : StatePart) (out : (0x101100#21).getLsbD (bitOf p) = false) := keeps.same.part p out
  generalize coreFail s c = t at keeps part
  have pwr : t.pwr = { s.pwr with alertUntil := t.pwr.alertUntil } :=
    pwr_field (part .pwr rfl) fun p => { p with alertUntil := t.pwr.alertUntil }
  rw [← pwr, ← part .clk rfl, ← part .mp rfl, ← part .sag rfl, ← part .hq rfl, ← part .pl rfl, ← part .dr rfl, ← part .ecc rfl,
    ← part .ig rfl, ← part .ln rfl, ← part .th rfl, ← part .cn rfl, ← part .live rfl, ← part .shadow rfl, ← part .freeCtr rfl,
    ← keeps.queue]

theorem coreHeartbeatTimeout_fails (s : State) (c : CoreNo) (up : awake s = true) (live : coreLive s c.val = true) :
    ∃ t, exec (.coreHeartbeatTimeout c) s = .next t ∧ t.wr.failed = s.wr.failed ||| (1#18 <<< c.val) ∧
      (∀ n, tget none t.pp.sema n ≠ some (BitVec.ofNat 8 (0x10 + c.val))) ∧
      t = { s with pwr := { s.pwr with alertUntil := t.pwr.alertUntil }, wr := t.wr, hl := t.hl, pp := t.pp, kp := t.kp, ev := t.ev } := by
  have view := coreView_coreFail live
  refine ⟨_, congrArg Host.Outcome.next (if_pos up), congrArg Prod.fst view, fun n => ?_, coreFail_frame s c.val⟩
  rw [show (coreFail s c.val).pp.sema = _ from congrArg Prod.snd view]
  exact tget_filter_ne (by simp) s.pp.sema n

/-! ### A core that takes roles over (R335 to R337) -/

/-- Everything but the commands and the free values read. -/
def cmdView (s : State) : State := { s with pp := { s.pp with cmds := [] }, freeCtr := 0 }

theorem cmdView_readAgain (s : State) (role : Nat) : cmdView (readAgain s role) = cmdView s := by
  refine foldl_keeps cmdView _ (fun u c => ?_) s.pp.cmds s
  split <;> rfl

theorem frame_of_cmdView {s t : State} (view : cmdView t = cmdView s) : t.wr = s.wr ∧
    t = { s with pp := { s.pp with cmds := t.pp.cmds }, freeCtr := t.freeCtr } :=
  ⟨(congrArg State.wr view : (cmdView t).wr = (cmdView s).wr),
    congrArg (fun u : State => { u with pp := { u.pp with cmds := t.pp.cmds }, freeCtr := t.freeCtr }) view⟩

/-- The failed roles that wait for a core. -/
def rolesWaiting (s : State) (c : Nat) : List (Nat × Nat) := s.wr.failing.filter fun x => x.2 = c

/-- A core runs the roles that waited for it, and their failovers are counted. -/
def rolesTaken (s : State) (c : Nat) : State :=
  { s with wr := { s.wr with
    roles := s.wr.roles ++ rolesWaiting s c
    failing := s.wr.failing.filter fun x => x.2 ≠ c
    failovers := satAdd 16 s.wr.failovers (rolesWaiting s c).length } }

theorem coreFailoverDone_next {s : State} {c : CoreNo} (waits : rolesWaiting s c.val ≠ []) (live : coreLive s c.val = true) :
    exec (.coreFailoverDone c) s =
      .next ((rolesWaiting s c.val).foldl (fun s x => readAgain s x.1) (rolesTaken s c.val)) := by
  have taken : ¬ ((rolesWaiting s c.val).isEmpty || !coreLive s c.val) = true := by simp [live, waits]
  exact congrArg Host.Outcome.next (if_neg taken)

theorem coreFailoverDone_takes (s : State) (c : CoreNo) (waits : (s.wr.failing.filter fun x => x.2 = c.val) ≠ [])
    (live : coreLive s c.val = true) : ∃ t, exec (.coreFailoverDone c) s = .next t ∧ t.wr = { s.wr with
        roles := s.wr.roles ++ s.wr.failing.filter fun x => x.2 = c.val
        failing := s.wr.failing.filter fun x => x.2 ≠ c.val
        failovers := satAdd 16 s.wr.failovers (s.wr.failing.filter fun x => x.2 = c.val).length } ∧
      t = { s with wr := t.wr, pp := { s.pp with cmds := t.pp.cmds }, freeCtr := t.freeCtr } := by
  obtain ⟨wr, frame⟩ := frame_of_cmdView (foldl_keeps cmdView (fun s (x : Nat × Nat) => readAgain s x.1)
    (fun u x => cmdView_readAgain u x.1) (rolesWaiting s c.val) (rolesTaken s c.val))
  refine ⟨_, coreFailoverDone_next waits live, wr, ?_⟩
  rw [wr]
  exact frame

end Sys2Proof.Proofs.SramCores
end

section
/-! Housekeeping rounds, mute levels and the thermal trip, and the obligation about SRAM, cores and heat. -/
namespace Sys2Proof.Proofs.HeatRounds
open Sys2Proof Machine Safety Startup SramCores

/-! ### Zones changed one after another -/

theorem zone_foldl_updZone (f : Nat → Zone → Zone) {l : List Nat} (once : l.Nodup) {s : State} (rising : Rising s.th.zones)
    (j : Nat) : zone (l.foldl (fun s z => updZone s z (f z)) s) j = if j ∈ l then f j (zone s j) else zone s j := by
  induction l generalizing s with
  | nil => rfl
  | cons z l ih =>
    obtain ⟨new, once⟩ := List.nodup_cons.1 once
    rw [List.foldl_cons, ih once (Commits.rising_tset _ _ _ _ rising), zone_updZone_self s z (f z) j rising]
    by_cases here : j = z
    · subst here
      simp [new]
    · simp [here]

/-! ### What a round samples (R532, R534, R549, R561) -/

/-- The zones and the count of rounds. -/
def roundView (s : State) : Tab Zone × Nat := (s.th.zones, s.th.rounds)

theorem raise_th (s : State) (code source p0 p1 p2 p3 : Nat) : (raise s code source p0 p1 p2 p3).th = s.th :=
  same_of_keeps (p := .th) (raise_keeps (.refl _ s) rfl)

theorem roundView_of_th {s t : State} (same : t.th = s.th) : roundView t = roundView s :=
  congrArg (fun h : ThermSt => (h.zones, h.rounds)) same

theorem roundView_raise (s : State) (code source p0 p1 p2 p3 : Nat) :
    roundView (raise s code source p0 p1 p2 p3) = roundView s :=
  roundView_of_th (raise_th ..)

theorem roundView_railRound (x : Readings) (s : State) : roundView (railRound x s) = roundView s := by
  refine foldl_keeps roundView _ (fun u i => ?_) _ s
  exact (roundView_raise ..).trans rfl

theorem roundView_batteryRound (x : Readings) (s : State) : roundView (batteryRound x s) = roundView s := by
  unfold batteryRound
  extract_lets u
  split
  · exact (roundView_raise ..).trans rfl
  · rfl

theorem roundView_holdupRound (x : Readings) (s : State) : roundView (holdupRound x s) = roundView s := by
  unfold holdupRound
  extract_lets v near u
  split
  · split <;> rfl
  · split
    · exact (roundView_raise ..).trans rfl
    · rfl

/-- The rails, the battery and the hold-up of a round. -/
def suppliesSampled (x : Readings) (s : State) : State := holdupRetry x (holdupRound x (batteryRound x (railRound x s)))

theorem roundView_suppliesSampled (x : Readings) (s : State) : roundView (suppliesSampled x s) = roundView s := by
  have retried := roundView_of_th (same_of_keeps (p := .th)
    (holdupRetry_keeps (a0 := x) (.refl _ (holdupRound x (batteryRound x (railRound x s)))) rfl))
  rw [suppliesSampled, retried, roundView_holdupRound, roundView_batteryRound, roundView_railRound]

/-- The floor that commands set becomes the zone's floor. -/
def floorSet (z : Zone) : Zone := { z with floor := z.floorNext }

/-- The floors set since the last round apply from this one (R464). -/
def floorsSet (s : State) : State := (List.range 16).foldl (fun s z => updZone s z floorSet) s

theorem floorsSet_rounds (s : State) : (floorsSet s).th.rounds = s.th.rounds :=
  foldl_keeps (·.th.rounds) (fun s z => updZone s z floorSet) (fun _ _ => rfl) (List.range 16) s

theorem zone_floorsSet {s : State} (rising : Rising s.th.zones) {z : Nat} (isZone : z < 16) :
    zone (floorsSet s) z = floorSet (zone s z) :=
  (zone_foldl_updZone (fun _ => floorSet) List.nodup_range rising z).trans (if_pos (List.mem_range.2 isZone))

/-- What a round samples is held until its levels are due; it is counted, and the links' peaks start anew. -/
def roundHeld (x : Readings) (s : State) : State :=
  { s with
    th := { s.th with rounds := s.th.rounds + 1, sampled := some x }
    ln := { s.ln with links := s.ln.links.map fun l => (l.1, { l.2 with peak := [] }) } }

theorem roundHeld_rounds (x : Readings) (s : State) : (roundHeld x s).th.rounds = s.th.rounds + 1 := rfl
theorem roundHeld_sampled (x : Readings) (s : State) : (roundHeld x s).th.sampled = some x := rfl
theorem zone_roundHeld (x : Readings) (s : State) (z : Nat) : zone (roundHeld x s) z = zone s z := rfl

theorem roundHeld_peaks (x : Readings) (s : State) (n : Nat) : (link (roundHeld x s) n).peak = [] := by
  refine tget_all (fun l : LinkRec => l.peak = []) {} _ rfl (fun l listed => ?_) n
  obtain ⟨old, -, rfl⟩ := List.mem_map.1 listed
  rfl

/-- A housekeeping round. -/
def houseKept (x : Readings) (s : State) : State := roundHeld x (floorsSet (suppliesSampled x s))

theorem housekeepingRound_next {s : State} (x : Readings) (runs : keepsHouse s = true) :
    exec (.housekeepingRound x) s = .next (houseKept x s) :=
  congrArg Host.Outcome.next (if_neg (by simp [runs]))

theorem houseKept_rounds (x : Readings) (s : State) : (houseKept x s).th.rounds = s.th.rounds + 1 := by
  rw [houseKept, roundHeld_rounds, floorsSet_rounds]
  exact congrArg (·.2 + 1) (roundView_suppliesSampled x s)

theorem zone_houseKept (x : Readings) {s : State} (inv : Inv s) {z : Nat} (isZone : z < 16) :
    zone (houseKept x s) z = floorSet (zone s z) := by
  have zones : (suppliesSampled x s).th.zones = s.th.zones := congrArg Prod.fst (roundView_suppliesSampled x s)
  rw [houseKept, zone_roundHeld, zone_floorsSet (by rw [zones]; exact rising_of_wf _ _ inv.zones) isZone, zone, zone, zones]

theorem houseKept_frame (x : Readings) (s : State) (runs : keepsHouse s = true) : houseKept x s = { s with
    pwr := (houseKept x s).pwr, mp := (houseKept x s).mp, sag := (houseKept x s).sag, ln := (houseKept x s).ln
    hl := (houseKept x s).hl, pp := (houseKept x s).pp, th := (houseKept x s).th, kp := (houseKept x s).kp
    ev := (houseKept x s).ev } := by
  have keeps : Keeps 0x10240e#21 s (houseKept x s) :=
    execHousekeepingRound_keeps (k := 0x10240e#21) (a0 := x) (.refl _ s) rfl _ (housekeepingRound_next x runs)
  have part (p : StatePart) (out : (0x10240e#21).getLsbD (bitOf p) = false) := keeps.same.part p out
  generalize houseKept x s = t at keeps part
  rw [← part .clk rfl, ← part .hq rfl, ← part .pl rfl, ← part .dr rfl, ← part .ecc rfl, ← part .wr rfl, ← part .ig rfl,
    ← part .cn rfl, ← part .live rfl, ← part .shadow rfl, ← part .freeCtr rfl, ← keeps.queue]

theorem housekeepingRound_samples (s : State) (x : Readings) (runs : keepsHouse s = true) :
    ∃ t, exec (.housekeepingRound x) s = .next t ∧ t.th.rounds = s.th.rounds + 1 ∧ t.th.sampled = some x ∧
      (∀ n, (link t n).peak = []) ∧
      (Inv s → ∀ z, z < 16 → (zone t z).level = (zone s z).level ∧ (zone t z).floor = (zone s z).floorNext) ∧
      t = { s with pwr := t.pwr, mp := t.mp, sag := t.sag, ln := t.ln, hl := t.hl, pp := t.pp, th := t.th, kp := t.kp, ev := t.ev } := by
  refine ⟨houseKept x s, housekeepingRound_next x runs, houseKept_rounds x s, roundHeld_sampled .., roundHeld_peaks x _,
    fun inv z isZone => ?_, houseKept_frame x s runs⟩
  rw [zone_houseKept x inv isZone]
  exact ⟨rfl, rfl⟩

/-! ### Levels become live (R549, R555, R559) -/

/-- The zones and the sample whose levels are due. -/
def levelView (s : State) : Tab Zone × Option Readings := (s.th.zones, s.th.sampled)

theorem levelView_of_th {s t : State} (same : t.th = s.th) : levelView t = levelView s :=
  congrArg (fun h : ThermSt => (h.zones, h.sampled)) same

theorem zone_of_levelView {s t : State} (view : levelView t = levelView s) (z : Nat) : zone t z = zone s z :=
  congrArg (fun v : Tab Zone × Option Readings => tget ({} : Zone) v.1 z) view

theorem levelView_unparkEnds (s : State) (r : Nat) : levelView (unparkEnds s r) = levelView s := by
  unfold unparkEnds
  extract_lets busy heat u
  split
  · split
    · exact (levelView_of_th (same_of_keeps (p := .th) (rankFails_keeps (.refl _ u) rfl))).trans rfl
    · rfl
  · rfl

theorem levelView_unparkRanks (s : State) (zones : List Nat) : levelView (unparkRanks s zones) = levelView s := by
  unfold unparkRanks
  extract_lets back heat u
  split
  · rfl
  · have resumed : levelView (resumeLinks u fun n => n / 18 ∈ back) = levelView u :=
      levelView_of_th (same_of_keeps (p := .th) (resumeLinks_keeps (.refl _ u) rfl))
    exact (foldl_keeps levelView unparkEnds levelView_unparkEnds back _).trans (resumed.trans rfl)

/-- A zone takes the level computed for it; one that rises to level 5 counts a trip. -/
def levelTaken (up : List Nat) (n : Nat) (z : Zone) : Zone :=
  { z with level := z.next, trips := if n ∈ up then satAdd 16 z.trips 1 else z.trips }

/-- Every zone takes its level. -/
def levelsTaken (up : List Nat) (s : State) : State := (List.range 16).foldl (fun s z => updZone s z (levelTaken up z)) s

theorem levelView_parkPending (s : State) (zones : List Nat) :
    levelView { s with th := { s.th with parkPending := zones } } = levelView s := rfl

theorem levelView_setLevels (s : State) : ∃ up, levelView (setLevels s) = levelView (levelsTaken up s) := by
  unfold setLevels
  extract_lets up down taken heat pending unparked hot
  have all : taken = levelsTaken up s := by
    unfold levelsTaken
    rfl
  refine ⟨up, ?_⟩
  calc levelView { unparked with pwr := _ } = levelView unparked := levelView_of_th rfl
    _ = levelView pending := levelView_unparkRanks pending down
    _ = levelView taken := levelView_parkPending taken _
    _ = levelView (levelsTaken up s) := congrArg levelView all

theorem setLevels_sampled (s : State) : (setLevels s).th.sampled = s.th.sampled := by
  obtain ⟨up, view⟩ := levelView_setLevels s
  exact (congrArg Prod.snd view).trans
    (foldl_keeps (·.th.sampled) (fun s z => updZone s z (levelTaken up z)) (fun _ _ => rfl) (List.range 16) s)

theorem zone_setLevels {s : State} (rising : Rising s.th.zones) {z : Nat} (isZone : z < 16) :
    (zone (setLevels s) z).level = (zone s z).next := by
  obtain ⟨up, view⟩ := levelView_setLevels s
  rw [zone_of_levelView view, levelsTaken, zone_foldl_updZone (levelTaken up) List.nodup_range rising,
    if_pos (List.mem_range.2 isZone)]
  rfl

theorem muteLevelLive_sampled (s : State) (x : Readings) (runs : keepsHouse s = true) (due : s.th.sampled = some x) :
    ∃ t, exec .muteLevelLive s = .next t ∧ t.th.sampled = none ∧
      (Inv s → ∀ z, z < 16 → (zone t z).level = (zone (computeLevels s x) z).next) := by
  have live : levelsLive s = setLevels (computeLevels s x) := by simp only [levelsLive, due]
  refine ⟨_, congrArg Host.Outcome.next ((if_pos runs).trans live), setLevels_sampled _, fun inv z isZone => ?_⟩
  have computed : Inv (computeLevels s x) := (computeLevels_keeps (k := BitVec.allOnes 21) (.refl _ s) rfl).inv inv
  exact zone_setLevels (rising_of_wf _ _ computed.zones) isZone

theorem muteLevelLive_none (s : State) (runs : keepsHouse s = true) (empty : s.th.sampled = none) :
    exec .muteLevelLive s = .next s :=
  congrArg Host.Outcome.next ((if_pos runs).trans (by simp only [levelsLive, empty]))

/-! ### The thermal trip (R560, R658) -/

theorem ondieThermtrip_trips (s : State) (sensor : Fin 16) (temp16 : Int) (supplied : s.pwr.supplies = true)
    (out : s.pwr.inReset = false) (hot : 2000 ≤ temp16) :
    exec (.ondieThermtrip sensor temp16) s = .next { s with pwr := { s.pwr with tripOnDie := true } } :=
  congrArg Host.Outcome.next (if_pos (by simp [supplied, out, hot]))

theorem thermtripN_of_trip (s : State) (trip : s.pwr.tripOnDie = true) : thermtripN s = true := by
  simp [thermtripN, trip]

/-- Settles O19: words, rows and channels by the one record that they change, cores by what the moves of their roles leave,
rounds and levels by what every other part of the step leaves of the zones. -/
theorem sramCoresAndHeat : Obligations.SramCoresAndHeat :=
  ⟨⟨sramEccError_corrected, sramRowRepair_remaps, sramChannelFail_spared, sramChannelFail_unspared, sramChannelCopyDone_ends,
    coreHeartbeatTimeout_fails, coreFailoverDone_takes⟩,
    housekeepingRound_samples, muteLevelLive_sampled, muteLevelLive_none, ondieThermtrip_trips, thermtripN_of_trip⟩

end Sys2Proof.Proofs.HeatRounds
end

section
/-! The mailbox's commands that only answer, and the obligation about them. -/
namespace Sys2Proof.Proofs.MailboxAnswers
open Sys2Proof Machine Safety

/-! ### A reply (R408, R414) -/

/-- A reply clears the doorbell and leaves its answer; beside these it changes no more than the vectors' table. -/
theorem mboxReply_changes (s : State) (op code : Nat) (p : List Byte) : (mboxReply s op code p).hl.doorbell = false ∧
    (mboxReply s op code p).hl.reply = { opcode := op, code := code, payload := p } ∧
    mboxReply s op code p = { s with hl := { s.hl with
      doorbell := false, reply := { opcode := op, code := code, payload := p }, msix := (mboxReply s op code p).hl.msix } } :=
  ⟨rfl, rfl, rfl⟩

section
variable (s : State) (free : mailboxFree s)
include free

/-- A command whose row runs `act` in the mailbox ends where `act` does. -/
theorem runs_free (op : Nat) (act : State → State) :
    (Host.Outcome.next (mbox s op act) : Host.Outcome State Fault Refusal) = .next (act s) :=
  congrArg Host.Outcome.next (MailboxPoison.mbox_free free op act)

/-! ### Events, firmware and time (R409, R411, R569) -/

theorem getEventRecords_answers (log : Fin 4) (count : Nat) :
    ∃ p, exec (.cxlGetEventRecords log count) s = .next (mboxReply s 0x0100 0 p) :=
  ⟨_, runs_free s free _ _⟩

theorem getEventInterruptPolicy_answers :
    exec .cxlGetEventInterruptPolicy s = .next (mboxReply s 0x0102 0 (s.hl.evPolicy.map (BitVec.ofNat 8))) :=
  runs_free s free _ _

theorem getFwInfo_answers : ∃ p, exec .cxlGetFwInfo s = .next (mboxReply s 0x0200 0 p) := ⟨_, runs_free s free _ _⟩

theorem getTimestamp_answers :
    exec .cxlGetTimestamp s = .next (mboxReply s 0x0300 0 (leBytes 8 (BitVec.ofInt 64 (hostTime s)).toNat)) :=
  runs_free s free _ _

theorem getSupportedLogs_answers : ∃ p, exec .cxlGetSupportedLogs s = .next (mboxReply s 0x0400 0 p) :=
  ⟨_, runs_free s free _ _⟩

/-! ### Identity, health, alerts and shutdown (R344, R409, R410) -/

theorem identifyMemoryDevice_answers : ∃ p, exec .cxlIdentifyMemoryDevice s = .next (mboxReply s 0x4000 0 p) ∧
    p = identityBytes ++ leBytes 8 0 ++ leBytes 8 (4 * s.mp.capGib) ++ leBytes 8 0 ++ leBytes 8 (4 * s.mp.capGib) ++
      leBytes 8 0 ++ leBytes 3 16384 ++ leBytes 2 64 :=
  ⟨_, runs_free s free _ _, rfl⟩

/-- The first byte of the health payload is the status. -/
theorem getHealthInfo_answers : ∃ p, exec .cxlGetHealthInfo s = .next (mboxReply s 0x4200 0 p) ∧
    p.head? = some (BitVec.ofNat 8 (healthStatus s)) :=
  ⟨_, runs_free s free _ _, by simp [leBytes]⟩

theorem getAlertConfig_answers : exec .cxlGetAlertConfig s =
    .next (mboxReply s 0x4201 0 (leBytes 1 s.hl.alertLife ++ leBytes 2 s.hl.alertTemp ++ leBytes 4 s.hl.alertCorr)) :=
  runs_free s free _ _

theorem getShutdownState_answers :
    exec .cxlGetShutdownState s = .next (mboxReply s 0x4203 0 (((keepGet s 4).getD [0]).take 1)) :=
  runs_free s free _ _

/-- An opcode outside the table (R409). -/
theorem mailboxUnsupported_answers (op : Nat) (outside : op ∉ mboxOpcodes) :
    exec (.cxlMailboxUnsupported op) s = .next (mboxReply s op 3 []) := by
  obtain ⟨core, opened, ready, idle, full, _⟩ := free
  have runs : ¬ (!hostOpen s || !s.hl.mboxReady || s.hl.doorbell || (roleCore s 0).isNone) = true := by
    simp [opened, ready, idle, Option.isSome_iff_ne_none.1 core]
  exact congrArg Host.Outcome.next ((if_neg outside).trans ((if_neg runs).trans (if_neg (by simp [full]))))

end

/-! ### Logs by their UUID (R409, R450) -/

/-- The four logs have four UUIDs: looking one up finds its number. -/
theorem find?_logUuid : ∀ n < 4, ((List.range 4).find? fun m => logUuid m = logUuid n) = some n := by decide

theorem cxlLogBytes_effects (s : State) : cxlLogBytes s (logUuid 0) = some ((mboxOpcodes.map (leBytes 2)).flatten) := by
  simp only [cxlLogBytes, find?_logUuid 0 (by decide)]

theorem cxlLogBytes_vendor (s : State) {n : Nat} (isLog : n < 4) (vendor : n ≠ 0) :
    cxlLogBytes s (logUuid n) = some (vendorLog s n) := by
  obtain ⟨k, rfl⟩ := Nat.exists_eq_succ_of_ne_zero vendor
  simp only [cxlLogBytes, find?_logUuid _ isLog]

theorem cxlLogBytes_unknown (s : State) {uuid : Nat} (unknown : ∀ n < 4, logUuid n ≠ uuid) : cxlLogBytes s uuid = none := by
  have absent : ((List.range 4).find? fun n => logUuid n = uuid) = none := by simpa using unknown
  simp only [cxlLogBytes, absent]

/-- The log of each UUID: for a number above 0 the vendor log. -/
theorem cxlLogBytes_known (s : State) {n : Nat} (isLog : n < 4) :
    ∃ l, cxlLogBytes s (logUuid n) = some l ∧ (n ≠ 0 → l = vendorLog s n) := by
  by_cases effects : n = 0
  · subst effects
    exact ⟨_, cxlLogBytes_effects s, fun vendor => absurd rfl vendor⟩
  · exact ⟨_, cxlLogBytes_vendor s isLog effects, fun _ => rfl⟩

theorem getLog_piece (s : State) (n offset length : Nat) (free : mailboxFree s) (isLog : n < 4) (fits : length ≤ 65536) :
    ∃ l, cxlLogBytes s (logUuid n) = some l ∧ (n ≠ 0 → l = vendorLog s n) ∧
      exec (.cxlGetLog (logUuid n) offset length) s = .next (mboxReply s 0x0401 0 (logPiece l offset length)) := by
  obtain ⟨l, found, vendor⟩ := cxlLogBytes_known s isLog
  refine ⟨l, found, vendor, (runs_free s free _ _).trans ?_⟩
  simp only [found, if_neg (Nat.not_lt.2 fits)]

theorem getLog_unknown (s : State) (uuid offset length : Nat) (free : mailboxFree s) (unknown : ∀ n < 4, logUuid n ≠ uuid) :
    exec (.cxlGetLog uuid offset length) s = .next (mboxReply s 0x0401 2 []) := by
  refine (runs_free s free _ _).trans ?_
  simp only [cxlLogBytes_unknown s unknown]

/-- Settles O39: a free mailbox runs each command, which replies; a log is found by its UUID. -/
theorem mailboxAnswers : Obligations.MailboxAnswers :=
  ⟨getEventRecords_answers, getEventInterruptPolicy_answers, getFwInfo_answers, getTimestamp_answers,
    getSupportedLogs_answers, getLog_piece, getLog_unknown, identifyMemoryDevice_answers, getHealthInfo_answers,
    getAlertConfig_answers, getShutdownState_answers, fun s op free => mailboxUnsupported_answers s free op,
    mboxReply_changes⟩

end Sys2Proof.Proofs.MailboxAnswers
end

section
/-! Domain keys: what staging and rekeying leave, the commands on them, the close of the key window, erases that wait. -/
namespace Sys2Proof.Proofs.DomainKeys
open Sys2Proof Machine Safety Startup

/-! ### Staged keys and keys in use (R349, R350, R354) -/

/-- Keeping a domain's record changes no key. -/
@[simp] theorem domainKey_saveDomain (s : State) (d e : Nat) : domainKey (saveDomain s d) e = domainKey s e := rfl

theorem stageKeys_stages (s : State) (d source : Nat) (rising : s.ig.domains.Pairwise fun a b => a.1 < b.1) :
    domainKey (stageKeys s d source) d = { domainKey s d with staged := some s.ig.keyDraws, stagedSource := source } ∧
      (stageKeys s d source).ig.keyDraws = s.ig.keyDraws + 1 ∧
      ∀ e, e ≠ d → domainKey (stageKeys s d source) e = domainKey s e := by
  have reads (e : Nat) : domainKey (stageKeys s d source) e =
      if e = d then { domainKey s d with staged := some s.ig.keyDraws, stagedSource := source } else domainKey s e :=
    domainKey_updDomain_self { s with ig := { s.ig with keyDraws := s.ig.keyDraws + 1 } } d _ e rising
  exact ⟨(reads d).trans (if_pos rfl), rfl, fun e other => (reads e).trans (if_neg other)⟩

theorem rekey_installs (s : State) (d : Nat) (rising : s.ig.domains.Pairwise fun a b => a.1 < b.1)
    (staged : (domainKey s d).staged.isSome = true) : domainKey (rekey s d) d = {
      keyVer := (domainKey s d).staged.getD 0, source := (domainKey s d).stagedSource, staged := none, stagedSource := 0
      present := true, generation := ((domainKey s d).generation + 1) % 2 ^ 32 } := by
  rw [rekey, if_pos staged, domainKey_saveDomain]
  exact (domainKey_updDomain_self s d _ d rising).trans (if_pos rfl)

/-! ### Key commands (R353, R354, R461) -/

section
variable {s : State} {c : Cmd} {d source : Nat}

/-- A domain that has keys is erased first (R354). -/
theorem installKeys_present (present : (domainKey (stageKeys s d source) d).present = true) :
    installKeys s c d source = holdCmd { stageKeys s d source with ig := { (stageKeys s d source).ig with
      erasesQueued := (stageKeys s d source).ig.erasesQueued ++ [(2 + d, some c.id)] } } c := if_pos present

/-- A domain without keys takes the staged ones at once. -/
theorem installKeys_absent (absent : (domainKey (stageKeys s d source) d).present = false) :
    installKeys s c d source = finishCmd (refreshReady (rekey (stageKeys s d source) d)) c 0 0 0 0 :=
  if_neg (by simp [absent])

end

section
variable (s : State) (p : PipeNo) (c : Cmd)

theorem keyGenerate_stages (runs : Runs s p.val (fun c => c.op = 0x0600) c) (stage : c.fld 0x19 1 = 1) :
    exec (.keyGenerate p) s = .next (finishCmd (stageKeys s (c.fld 0x18 1) 1) c 0 0 0 0) :=
  congrArg Host.Outcome.next ((runCmd_runs runs _).trans (if_pos stage))

theorem keyGenerate_installs (runs : Runs s p.val (fun c => c.op = 0x0600) c) (install : c.fld 0x19 1 ≠ 1)
    (absent : (domainKey (stageKeys s (c.fld 0x18 1) 1) (c.fld 0x18 1)).present = false) :
    exec (.keyGenerate p) s =
      .next (finishCmd (refreshReady (rekey (stageKeys s (c.fld 0x18 1) 1) (c.fld 0x18 1))) c 0 0 0 0) :=
  congrArg Host.Outcome.next ((runCmd_runs runs _).trans ((if_neg install).trans (installKeys_absent absent)))

section
variable (runs : Runs s p.val (fun c => c.op = 0x0601) c)
include runs

/-- A blob that unwraps is installed. -/
theorem keyInstall_unwraps : exec (.keyInstall p true) s = .next (installKeys s c (c.fld 0x18 1) 2) :=
  congrArg Host.Outcome.next (runCmd_runs runs _)

theorem keyInstall_fails : exec (.keyInstall p false) s = .next (finishCmd s c 4 0 0 0) :=
  congrArg Host.Outcome.next (runCmd_runs runs _)

end

theorem keyInstall_present (t : State) (runs : Runs s p.val (fun c => c.op = 0x0601) c)
    (staged : t = stageKeys s (c.fld 0x18 1) 2) (present : (domainKey t (c.fld 0x18 1)).present = true) :
    exec (.keyInstall p true) s = .next (holdCmd { t with ig := { t.ig with
      erasesQueued := t.ig.erasesQueued ++ [(2 + c.fld 0x18 1, some c.id)] } } c) := by
  subst staged
  rw [keyInstall_unwraps s p c runs, installKeys_present present]

theorem keyInstall_absent (t : State) (runs : Runs s p.val (fun c => c.op = 0x0601) c)
    (staged : t = stageKeys s (c.fld 0x18 1) 2) (absent : (domainKey t (c.fld 0x18 1)).present = false) :
    exec (.keyInstall p true) s = .next (finishCmd (refreshReady (rekey t (c.fld 0x18 1))) c 0 0 0 0) := by
  subst staged
  rw [keyInstall_unwraps s p c runs, installKeys_absent absent]

theorem keyStage_answers (runs : Runs s p.val (fun c => c.op = 0x0602) c) :
    exec (.keyStage p true) s = .next (finishCmd (stageKeys s (c.fld 0x18 1) 2) c 0 0 0 0) ∧
      exec (.keyStage p false) s = .next (finishCmd s c 4 0 0 0) :=
  ⟨congrArg Host.Outcome.next (runCmd_runs runs _), congrArg Host.Outcome.next (runCmd_runs runs _)⟩

end

/-! ### The key window (R351, R430) -/

/-- Saving the binding table leaves LOCK. -/
theorem saveBinding_lock (s : State) : (saveBinding s).pp.lock = s.pp.lock := by
  unfold saveBinding
  refine foldl_keeps (·.pp.lock) _ (fun _ _ => ?_) _ s
  rfl

/-- LOCK is set, whether it was or not. -/
theorem setLock_locks (s : State) : (setLock s).pp.lock = true := by
  unfold setLock
  split
  · assumption
  · exact saveBinding_lock _

/-- The window is closed, whether it was open or not; no other key state changes. -/
theorem closeWindow_ig (s : State) : (closeWindow s).ig = { s.ig with keyWindow := false } := by
  unfold closeWindow
  split
  · exact same_of_keeps (p := .ig) (setLock_keeps (.refl _ _) rfl)
  · next shut => rw [← Bool.eq_false_iff.2 shut]

section
variable (s : State) (p : PipeNo) (c : Cmd) (runs : Runs s p.val (fun c => c.op = 0x0603) c)
include runs

theorem keyWindowClose_runs : exec (.keyWindowClose p) s = .next (finishCmd (closeWindow s) c 0 0 0 0) :=
  congrArg Host.Outcome.next (runCmd_runs runs _)

theorem keyWindowClose_open (opened : s.ig.keyWindow = true) :
    ∃ t, exec (.keyWindowClose p) s = .next t ∧ t.ig = { s.ig with keyWindow := false } ∧ t.pp.lock = true := by
  refine ⟨_, keyWindowClose_runs s p c runs, closeWindow_ig s, ?_⟩
  show (closeWindow s).pp.lock = true
  rw [closeWindow, if_pos opened]
  exact setLock_locks _

theorem keyWindowClose_shut (shut : s.ig.keyWindow = false) :
    exec (.keyWindowClose p) s = .next (finishCmd s c 0 0 0 0) := by
  rw [keyWindowClose_runs s p c runs, closeWindow, if_neg (by simp [shut])]

end

/-! ### Erases that wait (R386, R462) -/

theorem secureErase_waits (s : State) (p : PipeNo) (c : Cmd) (runs : Runs s p.val (fun c => c.op = 0x0610) c) :
    exec (.secureErase p) s = .next (holdCmd
      { s with ig := { s.ig with erasesQueued := s.ig.erasesQueued ++ [(0, some c.id)] } } c) :=
  congrArg Host.Outcome.next (runCmd_runs runs _)

theorem sanitize_waits (s : State) (p : PipeNo) (c : Cmd) (runs : Runs s p.val (fun c => c.op = 0x0611) c) :
    exec (.sanitize p) s = .next (holdCmd
      { s with ig := { s.ig with erasesQueued := s.ig.erasesQueued ++ [(1, some c.id)] } } c) :=
  congrArg Host.Outcome.next (runCmd_runs runs _)

/-- Settles O51: staging and rekeying by the one record that they set, each command by the branch that it takes. -/
theorem keyCommands : Obligations.KeyCommands :=
  ⟨stageKeys_stages, keyGenerate_stages, keyGenerate_installs, keyInstall_present, keyInstall_absent, keyInstall_fails,
    keyStage_answers, rekey_installs, keyWindowClose_open, keyWindowClose_shut, secureErase_waits, sanitize_waits⟩

end Sys2Proof.Proofs.DomainKeys
end

section
/-! The integrity tree's nodes and B images, stamp slots and the stamp ceiling. -/
namespace Sys2Proof.Proofs.TreeWrites
open Sys2Proof Machine Safety

/-! ### Nodes and B images (R367, R370 to R372) -/

/-- A write of tree lines changes the map and the placement alone. -/
theorem nodeWritten_parts (s : State) (n lines : Nat) :
    ∃ maps places, nodeWritten s n lines = { s with mp := maps, pl := places } := by
  unfold nodeWritten
  split
  · exact ⟨s.mp, s.pl, rfl⟩
  · refine List.foldlRecOn (motive := fun t => ∃ maps places, t = { s with mp := maps, pl := places }) _ _
      ⟨s.mp, s.pl, rfl⟩ ?_
    rintro t ⟨maps, places, rfl⟩ k -
    exact ⟨_, _, rfl⟩

theorem treeNodeWrite_holds (s : State) (n : Nat) (runs : awake s = true) (due : n ∈ s.ig.nodesDue)
    (free : n ∉ s.ig.heldNodes) (room : s.ig.heldNodes.length < 64) :
    exec (.treeNodeWrite n) s = .next { s with ig := { s.ig with
      heldNodes := s.ig.heldNodes ++ [n], nodesDue := s.ig.nodesDue.filter (· ≠ n) } } :=
  congrArg Host.Outcome.next (if_pos (by simp [runs, due, free, room]))

/-- A node's image is no longer held (R371). -/
def nodeFreed (s : State) (n : Nat) : State :=
  { s with ig := { s.ig with heldNodes := s.ig.heldNodes.filter (· ≠ n) } }

/-- A node that has verified is freed, and its version, the root and its B image follow. -/
theorem finishNode_parts (s : State) (n : Nat) : ∃ maps places, finishNode s n =
    setNode { nodeFreed s n with mp := maps, pl := places } n (tget 0 s.ig.levelB n + 1) := by
  obtain ⟨maps, places, written⟩ := nodeWritten_parts (nodeFreed s n) n 64
  exact ⟨maps, places, congrArg (fun u => setNode u n (tget 0 u.ig.levelB n + 1)) written⟩

theorem nodeWriteVerified_ends (s : State) (n : Nat) (held : n ∈ s.ig.heldNodes) :
    ∃ t, exec (.nodeWriteVerified n) s = .next t ∧ t.ig.heldNodes = s.ig.heldNodes.filter (· ≠ n) ∧
      t.ig.rootVer = s.ig.rootVer + 1 ∧ t.clk.root = s.ig.rootVer + 1 ∧
      t.ig.levelB = tset 0 s.ig.levelB n (tget 0 s.ig.levelB n + 1) ∧ n / 512 ∈ t.ig.dirtyB ∧
      t = { s with clk := { s.clk with root := t.clk.root }, mp := t.mp, pl := t.pl, ig := t.ig } := by
  obtain ⟨maps, places, ends⟩ := finishNode_parts s n
  refine ⟨liftExempt (finishNode s n) n, congrArg Host.Outcome.next (if_neg (not_not.2 held)), ?_⟩
  rw [ends]
  exact ⟨rfl, rfl, rfl, rfl, Rebuilds.mem_addNew _ _, rfl⟩

theorem bImageWrite_cleans (s : State) (b : Nat) (runs : awake s = true) (dirty : b ∈ s.ig.dirtyB) :
    ∃ t, exec (.bImageWrite b) s = .next t ∧ t.ig = { s.ig with dirtyB := s.ig.dirtyB.filter (· ≠ b) } ∧
      t = { s with mp := t.mp, pl := t.pl, ig := t.ig } := by
  obtain ⟨maps, places, written⟩ :=
    nodeWritten_parts { s with ig := { s.ig with dirtyB := s.ig.dirtyB.filter (· ≠ b) } } (nodesA s + b) 64
  exact ⟨_, congrArg Host.Outcome.next ((if_pos (by simp [runs, dirty])).trans written), rfl, rfl⟩

/-! ### Stamp slots and the stamp ceiling (R361, R377) -/

theorem stampSlotWriteBack_cleans (s : State) (home : Nat) (x : StampSlot) (runs : awake s = true)
    (cached : stampSlot s home = some x) (dirty : x.dirty = true) :
    ∃ t, exec (.stampSlotWriteBack home) s = .next t ∧
      t.ig.mediaSlots = tset none s.ig.mediaSlots home (some x.stamps) ∧
      t.ig.slotTags = tset 0 s.ig.slotTags home (entryNow s x.page).stamp ∧ t = { s with ig := t.ig } ∧
      stampSlot t home = some { x with dirty := false } := by
  have writes : exec (.stampSlotWriteBack home) s =
      .next (setStampSlot (slotToMedia s home x) home (some { x with dirty := false })) := by
    simp [exec, execStampSlotWriteBack, runs, cached, dirty]
  exact ⟨_, writes, rfl, rfl, rfl, tget_tset_some _ _ _ _ (by simp)⟩

theorem stampCeilDurable_raises (s : State) (pending : s.ig.ceilPending = true) (up : keepUp s = true) :
    exec .stampCeilDurable s = .next (keepPut
      { s with ig := { s.ig with stampCeil := s.ig.stampCeil + 2 ^ 40, ceilPending := false } } 9
      (leBytes 8 (s.ig.stampCeil + 2 ^ 40))) :=
  congrArg Host.Outcome.next (if_pos (by simp [pending, up]))

/-- Settles O18: a tree write by what it leaves beside the map and the placement, slots and ceiling by their one branch. -/
theorem treeAndStampWrites : Obligations.TreeAndStampWrites :=
  ⟨treeNodeWrite_holds, nodeWriteVerified_ends, bImageWrite_cleans, stampSlotWriteBack_cleans, stampCeilDurable_raises⟩

end Sys2Proof.Proofs.TreeWrites
end

section
/-! The host link's enables: Mem_Enable, HDM decoders, vectors, Global Persistent Flush; and DOE, SPDM and IDE. -/
namespace Sys2Proof.Proofs.HostEnables
open Sys2Proof Machine Safety Startup

section
variable {s : State} {n : Fin 4} {x : HdmSetup} {v : Fin 2048} {h code nonce : Nat} {k : Fin 2} (opened : hostOpen s = true)
include opened

/-! ### Mem_Enable (R351, R407) -/

theorem memEnableSet_closesWindow :
    ∃ t, exec .memEnableSet s = .next t ∧ t.hl.memEnable = true ∧ t.ig.keyWindow = false :=
  ⟨_, congrArg Host.Outcome.next (if_pos opened),
    hl_field (same_of_keeps (p := .hl) (closeWindow_keeps (.refl _ _) rfl)) HostLinkSt.memEnable,
    congrArg IntegSt.keyWindow (DomainKeys.closeWindow_ig _)⟩

/-! ### HDM decoders (R405, R407) -/

section
variable (unlocked : (tget ({} : Hdm) s.hl.hdm n.val).locked = false)
include unlocked

/-- An unlocked decoder of an open host takes the checked setting, at once or at a boundary. -/
theorem hdmDecoderCommit_unlocked : exec (.hdmDecoderCommit n x) s =
    .next (if s.hl.memEnable then { s with hl := { s.hl with hdmPending := s.hl.hdmPending ++ [(n.val, commitDecoder s n.val x)] } }
      else { s with hl := { s.hl with hdm := tset {} s.hl.hdm n.val (commitDecoder s n.val x) } }) :=
  congrArg Host.Outcome.next (if_neg (by simp [opened, unlocked]))

theorem hdmDecoderCommit_atOnce (disabled : s.hl.memEnable = false) : exec (.hdmDecoderCommit n x) s =
    .next { s with hl := { s.hl with hdm := tset {} s.hl.hdm n.val (commitDecoder s n.val x) } } := by
  rw [hdmDecoderCommit_unlocked opened unlocked, if_neg (by simp [disabled])]

theorem hdmDecoderCommit_waits (enabled : s.hl.memEnable = true) : exec (.hdmDecoderCommit n x) s =
    .next { s with hl := { s.hl with hdmPending := s.hl.hdmPending ++ [(n.val, commitDecoder s n.val x)] } } := by
  rw [hdmDecoderCommit_unlocked opened unlocked, if_pos enabled]

end

/-! ### Vectors (R414) -/

theorem msixUnmask_sends : ∃ t, exec (.msixUnmask v) s = .next t ∧
    t = { s with hl := { s.hl with msix := t.hl.msix } } ∧
    (tget {} t.hl.msix v.val).masked = false ∧ (tget {} t.hl.msix v.val).pending = false ∧
    (tget {} t.hl.msix v.val).sent =
      (tget {} s.hl.msix v.val).sent + if (tget {} s.hl.msix v.val).pending then 1 else 0 := by
  refine ⟨unmaskVector s v.val, congrArg Host.Outcome.next (if_pos opened), rfl, ?_⟩
  have record : tget {} (unmaskVector s v.val).hl.msix v.val =
      { tget ({} : Msix) s.hl.msix v.val with
        masked := false, pending := false
        sent := if (tget {} s.hl.msix v.val).pending then (tget {} s.hl.msix v.val).sent + 1
          else (tget {} s.hl.msix v.val).sent } :=
    tget_tset_val _ _ _ _ fun reset => Bool.false_ne_true (congrArg Msix.masked reset)
  rw [record]
  exact ⟨rfl, rfl, by split <;> rfl⟩

/-! ### Global Persistent Flush (R413) -/

theorem gpfPhase1_ends : exec .gpfPhase1 s = .next { s with hl := { s.hl with gpf1Done := true } } :=
  congrArg Host.Outcome.next (if_pos opened)

theorem gpfPhase2_waits (up : ready s = true) (full : s.pwr.limited = false) :
    exec .gpfPhase2 s = .next { s with hl := { s.hl with gpfWaiting := true, gpfDone := false } } :=
  congrArg Host.Outcome.next ((if_neg (by simp [opened])).trans (if_pos (by simp [up, full])))

theorem gpfPhase2_ends (down : ready s = false) :
    exec .gpfPhase2 s = .next { s with hl := { s.hl with gpfDone := true } } :=
  congrArg Host.Outcome.next ((if_neg (by simp [opened])).trans (if_neg (by simp [down])))

/-! ### DOE and SPDM (R390, R412) -/

theorem doeCdat_answers : exec (.doeCdat h) s = .next { s with hl := { s.hl with doeReply := cdatEntry s h } } :=
  congrArg Host.Outcome.next (if_pos opened)

theorem spdmRequest_measures : exec (.spdmRequest code nonce) s = .next { s with hl := { s.hl with
    spdm := some (code, Config.spdmReply code (nonce + 2 ^ 256 * (Config.measurement 4 (measured s)).toNat)) } } :=
  congrArg Host.Outcome.next (if_pos opened)

/-! ### IDE (R352, R389) -/

theorem ideKmKeyProg_window (window : s.ig.keyWindow = true) : exec (.ideKmKeyProg k) s =
    .next { s with ig := { s.ig with ideProgrammed := s.ig.ideProgrammed ||| (1#2 <<< k.val) } } :=
  congrArg Host.Outcome.next (if_pos (by simp [opened, window]))

theorem ideKmKSetGo_window (window : s.ig.keyWindow = true)
    (programmed : s.ig.ideProgrammed.getLsbD k.val = true) : exec (.ideKmKSetGo k) s =
    .next { s with ig := { s.ig with ideActive := s.ig.ideActive ||| (1#2 <<< k.val) } } :=
  congrArg Host.Outcome.next (if_pos (by simp only [opened, window, programmed, Bool.and_self]))

theorem ideKmKSetStop_stops : exec (.ideKmKSetStop k) s =
    .next { s with ig := { s.ig with ideActive := s.ig.ideActive &&& (~~~ (1#2 <<< k.val) : BitVec 2) } } :=
  congrArg Host.Outcome.next (if_pos opened)

end

theorem hdmDecoderCommit_locked (s : State) (n : Fin 4) (x : HdmSetup)
    (locked : (tget ({} : Hdm) s.hl.hdm n.val).locked = true) : exec (.hdmDecoderCommit n x) s = .next s :=
  congrArg Host.Outcome.next (if_pos (by simp [locked]))

/-- A committed decoder has passed the checks of its setting: position, alignment and capacity among them (R405). -/
theorem commitDecoder_checked (s : State) (n : Nat) (x : HdmSetup) (committed : (commitDecoder s n x).committed = true) :
    x.pos < x.ways ∧ x.hpaBase.toNat % (2 ^ 28 * x.ways) = 0 ∧ x.size.toNat % (2 ^ 28 * x.ways) = 0 ∧
      (commitDecoder s n x).dpaBase + x.size.toNat / x.ways ≤ s.mp.capGib * 2 ^ 30 := by
  simp only [commitDecoder, Bool.and_eq_true, decide_eq_true_eq] at committed
  obtain ⟨⟨⟨⟨-, pos⟩, base⟩, size⟩, fits⟩ := committed
  exact ⟨pos, base, size, fits⟩

theorem ideKm_shut (s : State) (k : Fin 2) (shut : s.ig.keyWindow = false) :
    exec (.ideKmKeyProg k) s = .next s ∧ exec (.ideKmKSetGo k) s = .next s :=
  ⟨congrArg Host.Outcome.next (if_neg (by simp [shut])), congrArg Host.Outcome.next (if_neg (by simp [shut]))⟩

/-- CXL.mem takes no request once IDE has stopped it (R389). -/
theorem memOpen_ideStop {s : State} (stopped : s.ig.ideStop = true) : memOpen s = false := by simp [memOpen, stopped]

/-- CXL.mem stops until a reset and the failed stream's status bits are set, before the event (R389, log 44). -/
def ideStopped (s : State) (k : Fin 2) : State :=
  { s with
    ig := { s.ig with ideStop := true }
    hl := { s.hl with
      rasUncorrectable := if k.val = 0 then s.hl.rasUncorrectable ||| 0x10000 else s.hl.rasUncorrectable
      aerUncorrectable := if k.val = 0 then s.hl.aerUncorrectable else s.hl.aerUncorrectable ||| 0x10000000 } }

theorem ideIntegrityFailure_stops (s : State) (k : Fin 2) (active : s.ig.ideActive.getLsbD k.val = true)
    (runs : awake s = true) :
    ∃ t, exec (.ideIntegrityFailure k) s = .next t ∧ t.ig = { s.ig with ideStop := true } ∧ memOpen t = false := by
  have told := raise_reports (.refl (ideStopped s k)) 0x14 srcHost 0 0 0 0
  have keys : (raise (ideStopped s k) 0x14 srcHost 0 0 0 0).ig = { s.ig with ideStop := true } := HostLink.unreported told (·.ig)
  exact ⟨_, congrArg Host.Outcome.next (if_pos (by simp only [active, runs, Bool.and_self])), keys,
    memOpen_ideStop (congrArg IntegSt.ideStop keys)⟩

theorem ideIntegrityFailure_inactive (s : State) (k : Fin 2) (inactive : s.ig.ideActive.getLsbD k.val = false) :
    exec (.ideIntegrityFailure k) s = .next s :=
  congrArg Host.Outcome.next (if_neg (by simp [inactive]))

/-- Settles O38: each command by the guard that it passes or fails, a decoder by the checks that it has passed. -/
theorem enablesDecodersAndIde : Obligations.EnablesDecodersAndIde :=
  ⟨⟨fun _ => memEnableSet_closesWindow, fun _ _ _ => hdmDecoderCommit_atOnce, fun _ _ _ => hdmDecoderCommit_waits,
      hdmDecoderCommit_locked, commitDecoder_checked, fun _ _ => msixUnmask_sends, fun _ => gpfPhase1_ends,
      fun _ => gpfPhase2_waits, fun _ => gpfPhase2_ends⟩,
    fun _ _ => doeCdat_answers, fun _ _ _ => spdmRequest_measures, fun _ _ => ideKmKeyProg_window,
    fun _ _ => ideKmKSetGo_window, ideKm_shut, fun _ _ => ideKmKSetStop_stops, ideIntegrityFailure_stops,
    ideIntegrityFailure_inactive⟩

end Sys2Proof.Proofs.HostEnables
end

section
/-! The mailbox's commands that set state, and its erases. -/
namespace Sys2Proof.Proofs.MailboxSets
open Sys2Proof Machine Safety MailboxAnswers

section
variable {s : State} {log : Fin 4} {all : Bool} {count : Nat} {l : List Nat} {ts : BitVec 64} {life temp corr : Nat} {v : Byte}
  (free : mailboxFree s)
include free

/-! ### Events, policy, time, alerts and the shutdown state (R409 to R411, R569) -/

theorem clearEventRecords_clears (held : all = true ∨ count ≤ (cxlLog s log.val).recs.length) :
    exec (.cxlClearEventRecords log all count) s = .next (mboxReply { s with hl := { s.hl with
      logs := tset {} s.hl.logs log.val { recs := if all then [] else (cxlLog s log.val).recs.drop count } } } 0x0101 0 []) := by
  refine (runs_free s free _ _).trans (congrArg Host.Outcome.next (if_neg ?_))
  rcases held with held | held <;> simp [held]

theorem clearEventRecords_invalid (many : (cxlLog s log.val).recs.length < count) :
    exec (.cxlClearEventRecords log false count) s = .next (mboxReply s 0x0101 2 []) :=
  (runs_free s free _ _).trans (congrArg Host.Outcome.next (if_pos (by simp [many])))

theorem setEventInterruptPolicy_takes (four : l.length = 4) (msix : ∀ x ∈ l, x ≤ 1) :
    exec (.cxlSetEventInterruptPolicy l) s = .next (mboxReply { s with hl := { s.hl with evPolicy := l } } 0x0103 0 []) :=
  (runs_free s free _ _).trans (congrArg Host.Outcome.next (if_pos (by simpa [four] using msix)))

theorem setTimestamp_sets :
    exec (.cxlSetTimestamp ts) s = .next (mboxReply (setHostTime s ts.toNat) 0x0301 0 []) := runs_free s free _ _

theorem setAlertConfig_takes :
    exec (.cxlSetAlertConfig life temp corr) s = .next (mboxReply { s with hl := { s.hl with
      alertLife := life, alertTemp := temp, alertCorr := corr } } 0x4202 0 []) := runs_free s free _ _

theorem setShutdownState_keeps :
    exec (.cxlSetShutdownState v) s = .next (mboxReply (keepPut s 4 [v]) 0x4204 0 []) := runs_free s free _ _

/-! ### Erases (R386, R410) -/

theorem cxlSanitize_queues (idle : s.hl.mboxBusy = none) (noErase : eraseRuns s = false) :
    exec .cxlSanitize s = .next (mboxReply { s with
      hl := { s.hl with mboxBusy := some 0x4400 }
      ig := { s.ig with erasesQueued := s.ig.erasesQueued ++ [(1, none)] } } 0x4400 1 []) :=
  (runs_free s free _ _).trans (congrArg Host.Outcome.next (if_neg (by simp [idle, noErase])))

theorem cxlSecureErase_queues (noErase : eraseRuns s = false) :
    exec .cxlSecureErase s = .next { s with
      hl := { s.hl with doorbell := true, reply := { opcode := 0x4401, code := 1 } }
      ig := { s.ig with erasesQueued := s.ig.erasesQueued ++ [(0, none)] } } :=
  (runs_free s free _ _).trans (congrArg Host.Outcome.next (if_neg (by simp [noErase])))

theorem cxlErases_busy (runs : eraseRuns s = true) :
    exec .cxlSanitize s = .next (mboxReply s 0x4400 6 []) ∧ exec .cxlSecureErase s = .next (mboxReply s 0x4401 6 []) :=
  ⟨(runs_free s free _ _).trans (congrArg Host.Outcome.next (if_pos (by simp [runs]))),
    (runs_free s free _ _).trans (congrArg Host.Outcome.next (if_pos runs))⟩

end

/-- Settles O40: a free mailbox runs each command, which takes its input or replies by the guard that refuses it. -/
theorem mailboxSetsAndErases : Obligations.MailboxSetsAndErases :=
  ⟨⟨fun _ _ _ _ => clearEventRecords_clears, fun _ _ _ => clearEventRecords_invalid,
      fun _ _ => setEventInterruptPolicy_takes, fun _ _ => setTimestamp_sets, fun _ _ _ _ => setAlertConfig_takes,
      fun _ _ => setShutdownState_keeps⟩,
    fun _ => cxlSanitize_queues, fun _ => cxlSecureErase_queues, fun _ => cxlErases_busy⟩

end Sys2Proof.Proofs.MailboxSets
end

section
/-! A step, the queue that it leaves, the invariant that it keeps, and the state at reset. -/
namespace Sys2Proof.Proofs.Steps
open Sys2Proof Machine Safety Proofs.Frame

/-- No arm of `exec` ends in a fault or a refusal. -/
theorem exec_answers (c : Instr) (s : State) : ∃ t, exec c s = .next t := by
  cases c <;> exact ⟨_, rfl⟩

/-- Settles O3: every arm answers a next state, which holds the queue as `Keeps` says. -/
theorem everyCommandRuns : Obligations.EveryCommandRuns := by
  intro c s
  obtain ⟨t, ht⟩ := exec_answers c s
  exact ⟨t, ht, (exec_keeps_touched c s t ht).queue⟩

/-- Settles O2, by the two ends of the queue. -/
theorem stepRunsFrontCommand : Obligations.StepRunsFrontCommand :=
  ⟨fun _ _ _ => rfl, fun s h => by simp [step, h]⟩

/-- Taking a command from the queue leaves the invariant. -/
theorem inv_pending {s : State} (h : Inv s) (rest : List Instr) : Inv { s with pending := rest } :=
  ⟨h.sram, h.packets, h.zones⟩

/-- Settles O4: an empty queue idles, and the front command keeps the invariant as `Keeps` says. -/
theorem invariantKeptByEveryStep : Obligations.InvariantKeptByEveryStep := by
  intro s t inv e
  cases queue : s.pending with
  | nil =>
    simp only [step, queue] at e
    cases e; exact inv
  | cons c rest =>
    simp only [step, queue] at e
    exact (exec_keeps_touched c _ t e).inv (inv_pending inv rest)

/-- The empty tables of a reset are in canonical form. -/
theorem inv_reset : Inv State.reset := ⟨rfl, fun _ h => by simp [State.reset] at h, rfl⟩

/-- Settles O5, table by table: each is empty at reset, so it reads as its reset column. -/
theorem resetStateHolds : Obligations.ResetStateHolds := by
  refine ⟨inv_reset, rfl, rfl, rfl, rfl, fun p hp => ?_, fun _ => ⟨rfl, rfl⟩, fun _ => rfl, rfl, rfl, rfl⟩
  show (pipeReset p).valid = false
  simp [pipeReset, hp]
end Sys2Proof.Proofs.Steps
end

section
/-! Registers: the copies of a configuration register, accesses that the rules refuse, and registers that act. -/
namespace Sys2Proof.Proofs.Registers
open Sys2Proof Machine Safety Proofs.Layout

/-! ### Where the configuration registers lie (R489) -/

/-- The blocks that hold configuration registers. -/
def cfgBlocks : List Nat := [0x12, 0x13, 0x14, 0x15, 0x16, 0x40, 0x41, 0x60]

/-- Offsets of these blocks whose read clears a statistic. -/
def clearing (t o : Nat) : Bool :=
  (t = 0x12 && o = 0x20) || (t = 0x14 && o = 0x18) || (t = 0x15 && (o = 0x18 || (0x100 ≤ o && o < 0x900) || (0x1000 ≤ o && o < 0x1400))) ||
    (t = 0x16 && o = 0x10)

/-- Both copies of every configuration register lie in a block of its kind, at an offset that clears nothing. -/
theorem cfgPlace_plain : ∀ id ∈ cfgIds, (cfgPlace id).1 ∈ cfgBlocks ∧ clearing (cfgPlace id).1 (cfgPlace id).2 = false ∧
    clearing (cfgPlace id).1 ((cfgPlace id).2 + shadowOff (cfgPlace id).1) = false := by decide

/-- Each copy is found at its own offset. -/
theorem cfgAt_cfgPlace : ∀ id ∈ cfgIds, cfgAt (cfgPlace id).1 (cfgPlace id).2 = some (id, false) ∧
    cfgAt (cfgPlace id).1 ((cfgPlace id).2 + shadowOff (cfgPlace id).1) = some (id, true) := by decide

/-- What an offset that names a configuration register says. -/
theorem cfgAt_some {t o id : Nat} {sh : Bool} (h : cfgAt t o = some (id, sh)) :
    id ∈ cfgIds ∧ (cfgPlace id).1 = t ∧ o = (cfgPlace id).2 + if sh then shadowOff t else 0 := by
  unfold cfgAt at h
  split at h
  case h_1 j found =>
    cases h
    have place := List.find?_some found
    simp only [decide_eq_true_eq] at place
    simp [List.mem_of_find?_eq_some found, place]
  case h_2 =>
    obtain ⟨j, found, e⟩ := Option.map_eq_some_iff.1 h
    cases e
    have place := List.find?_some found
    simp only [Bool.and_eq_true, decide_eq_true_eq] at place
    obtain ⟨above, place⟩ := place
    refine ⟨List.mem_of_find?_eq_some found, by simp [place], ?_⟩
    simp only [place, if_true]; omega

theorem cfgAt_plain {t o id : Nat} {sh : Bool} (h : cfgAt t o = some (id, sh)) : t ∈ cfgBlocks ∧ clearing t o = false := by
  obtain ⟨listed, rfl, rfl⟩ := cfgAt_some h
  obtain ⟨block, live, shadow⟩ := cfgPlace_plain id listed
  cases sh
  · exact ⟨block, live⟩
  · exact ⟨block, shadow⟩

/-- What the blocks with configuration registers are not. -/
theorem cfgBlocks_spec : ∀ t ∈ cfgBlocks, t < 0x70 ∧ openBlock t = false ∧ t ≠ 0 ∧ t ≠ 0x01 ∧ t ≠ 0x02 ∧ t ≠ 0x20 ∧ t ≠ 0x30 ∧
    t ≠ 0x31 ∧ t ≠ 0x32 ∧ t ≠ 0x50 ∧ t ≠ 0x51 ∧ t ≠ 0x17 := by decide

/-- A read at an offset that clears nothing clears nothing. -/
theorem clear_plain (s : State) {t o : Nat} (k : Nat) (lo hi : Bool) (block : t ∈ cfgBlocks) (plain : clearing t o = false) :
    clearLinks (clearStats s t o lo hi) t k o lo hi = s := by
  obtain ⟨-, -, -, -, -, h20, h30, -, h32, h50, h51, h17⟩ := cfgBlocks_spec t block
  have stats : clearStats s t o lo hi = s := by
    unfold clearStats
    simp only [clearing, Bool.or_eq_false_iff, Bool.and_eq_false_iff, decide_eq_false_iff_not] at plain
    simp only [Bool.and_eq_true, decide_eq_true_eq]
    repeat rw [if_neg (by omega)]
  simp [stats, clearLinks, h20, h30, h32, h50, h51]

/-! ### Reads and writes of configuration registers -/

/-- The value that an offset of a configuration register names. -/
theorem regValue_cfg (s : State) {t o id : Nat} {sh : Bool} (k : Nat) (h : cfgAt t o = some (id, sh)) :
    regValue s t k o = if sh then cfgShadow s id else cfg s id := by
  unfold regValue; rw [h]; cases sh <;> rfl

/-- A whole register is the part that an aligned access of 8 bytes reads. -/
theorem partOf_whole (v : Reg) {o : Nat} (low : o % 8 = 0) : partOf v o 8 = v.toNat := by
  have := v.isLt
  simp only [partOf, low]; omega

/-- An answered register, as the 512 bits that the host sees. -/
theorem answer_reg (s : State) (v : Reg) : (answer s v.toNat).hl.rdData = v.setWidth 512 := by
  simp [answer, BitVec.setWidth_eq_append]


/-- The register that a whole write leaves is what was written. -/
theorem merged_whole (old v : Reg) : merged old v (BitVec.allOnes 64) = v := by
  rw [merged, BitVec.and_allOnes]; simp

theorem covers_whole {o : Nat} (low : o % 8 = 0) : covers o 8 = BitVec.allOnes 64 := by
  simp only [covers, low]; decide

theorem placed_whole {o : Nat} (v : LineData) (low : o % 8 = 0) : placed o 8 v = v.setWidth 64 := by
  simp only [placed, low]
  apply BitVec.eq_of_toNat_eq
  simp

theorem barAccessOk_whole {off : Nat} (low : off % 8 = 0) : barAccessOk 0 off 8 = true := by simp [barAccessOk, low]

/-- An aligned read of 8 bytes answers the copy that the offset names. -/
theorem readAt_cfg (s : State) (m : Byte) {off t k o id : Nat} {sh : Bool} (past : 65536 ≤ off) (found : locate 0 off = some (t, k, o))
    (low : o % 8 = 0) (reg : cfgAt t o = some (id, sh)) :
    readAt s m 0 off 8 = answer s (if sh then cfgShadow s id else cfg s id).toNat := by
  obtain ⟨block, plain⟩ := cfgAt_plain reg
  obtain ⟨window, closed, -, h1, h2, -, -, -, h32, -⟩ := cfgBlocks_spec t block
  have whole : o / 8 * 8 = o := by omega
  rw [readAt_of_locate s m 8 past found window closed, whole, clear_plain s k _ _ block plain, regValue_cfg s k reg]
  simp [h1, h2, h32, partOf_whole _ low]

/-- An aligned write of 8 bytes at either copy changes the writable bits of the shadow. -/
theorem writeAt_cfg (s : State) (m : Byte) (v : LineData) {off t k o id : Nat} {sh : Bool} (past : 65536 ≤ off)
    (found : locate 0 off = some (t, k, o)) (low : o % 8 = 0) (reg : cfgAt t o = some (id, sh)) :
    writeAt s m 0 off 8 v = setShadow s id
      ((cfgShadow s id &&& ~~~(cfgMask id)) ||| (v.setWidth 64 &&& cfgMask id)) := by
  obtain ⟨block, -⟩ := cfgAt_plain reg
  obtain ⟨window, closed, -, -, h2, -, -, h31, h32, -⟩ := cfgBlocks_spec t block
  have chart : ¬ off < 65536 := by omega
  have above : ¬ 0x70 ≤ t := by omega
  have arena : t ≠ 0x70 := by omega
  have whole : o / 8 * 8 = o := by omega
  simp only [writeAt, chart, found, above, arena, closed, h2, h31, h32, whole, reg, shadowPut, placed_whole v low, covers_whole low,
    BitVec.allOnes_and, merged, decide_false, Bool.and_false, Bool.or_false, Bool.false_eq_true, if_false]

/-- Settles O58: a copy is found by its place, a read clears nothing there, a write is one of the shadow. -/
theorem configurationRegisters : Obligations.ConfigurationRegisters := by
  refine ⟨?read, ?write, ?shadow, ?nowhere, ?other, cfgAt_cfgPlace⟩
  case read =>
    intro s m off t k o id sh reach past low found low' reg
    refine ⟨_, congrArg Host.Outcome.next ((readReg_of_reaches reach (barAccessOk_whole low)).trans (by rw [readAt_cfg s m past found low' reg])), ?_, ?_⟩
    · rw [ioPayload_hl, answer_reg]
    · rw [ioPayload_hl]; rfl
  case write =>
    intro s m off t k o id sh v reach past low found low' reg
    exact congrArg Host.Outcome.next ((writeReg_of_reaches reach (barAccessOk_whole low)).trans (by rw [writeAt_cfg s m v past found low' reg]; rfl))
  case shadow =>
    intro s off t k o id sh v reach past low found low' reg
    have whole : o / 8 * 8 = o := by omega
    have narrow : ((v.setWidth 512 : LineData).setWidth 64 : Reg) = v := by simp
    have e : writeReg s 0 0 off 8 (v.setWidth 512) = _ := writeReg_of_reaches reach (barAccessOk_whole low)
    rw [writeAt_cfg s 0 _ past found low' reg, narrow] at e
    simp only [exec, execShadowWrite, found, whole, reg, Option.isSome_some, if_true, e]
    rfl
  case nowhere =>
    intro s off size v none
    simp [exec, execShadowWrite, none]
  case other =>
    intro s off size t k o v found none
    simp [exec, execShadowWrite, found, none]


/-! ### Registers with actions on access (R403, R486, R495, R554, R598, R610, R616) -/

/-- No block of the chart's type holds a configuration register. -/
theorem cfgAt_chart (o : Nat) : cfgAt 0 o = none := by
  cases e : cfgAt 0 o with
  | none => rfl
  | some x => exact absurd rfl (cfgBlocks_spec 0 (cfgAt_plain (sh := x.2) e).1).2.2.1

/-- The offsets of the telemetry-side registers. -/
theorem locate_rdsel : locate 0 0x1D018 = some (0x50, 0, 0x18) := by decide
theorem locate_senseB : locate 0 0x1B010 = some (0x41, 0, 0x10) := by decide
theorem locate_monSel : ∀ (m : Fin 67) (n : Fin 8),
    locate 0 (0x24008 + 0x100 * m.val + 8 * n.val) = some (0x52, m.val, 8 + 8 * n.val) := by decide

/-- A bad read ends as Completer Abort, logged with its request; a bad write is dropped and logged. -/
theorem badRead (s : State) (m : Byte) {bar off size : Nat} (reach : masterReaches s m = true) (bad : barAccessOk bar off size = false) :
    readReg s m bar off size = badAccess s bar off size true := by
  simp [readReg, accessWakes_of_reaches reach, reach, bad]

theorem badWrite (s : State) (m : Byte) {bar off size : Nat} (v : LineData) (reach : masterReaches s m = true)
    (bad : barAccessOk bar off size = false) :
    writeReg s m bar off size v = ioPayload (badAccess s bar off size false) m 2 size := by
  simp [writeReg, accessWakes_of_reaches reach, reach, bad]

/-- An access of another master that does not reach the registers changes nothing. -/
theorem unreached {s : State} {m : Byte} (other : m ≠ 0) (reach : masterReaches s m = false) (bar off size : Nat) (v : LineData) :
    readReg s m bar off size = s ∧ writeReg s m bar off size v = s := by
  have wakes : accessWakes s m = s := if_pos other
  simp [readReg, writeReg, wakes, reach]

/-- A write of the host of 8 bytes past the chart. -/
theorem hostWrite {s : State} {off : Nat} (v : LineData) (reach : hostOpen s = true) (low : off % 8 = 0) :
    writeReg s 0 0 off 8 v = ioPayload (writeAt s 0 0 off 8 v) 0 2 8 :=
  writeReg_of_reaches reach (barAccessOk_whole low)

/-- A write of 8 bytes to a register of no configuration block. -/
theorem writeAt_other (s : State) (m : Byte) (v : LineData) {off t k o : Nat} (past : 65536 ≤ off) (found : locate 0 off = some (t, k, o))
    (low : o % 8 = 0) (block : t ∈ [0x41, 0x50, 0x52]) (reg : cfgAt t o = none) :
    writeAt s m 0 off 8 v = writeOther s t k o (v.setWidth 64) (BitVec.allOnes 64) := by
  have chart : ¬ off < 65536 := by omega
  have whole : o / 8 * 8 = o := by omega
  have kinds : ∀ t ∈ [0x41, 0x50, 0x52], ¬ 0x70 ≤ t ∧ t ≠ 0x70 ∧ openBlock t = false ∧ t ≠ 0x02 ∧ t ≠ 0x31 ∧ t ≠ 0x32 := by decide
  obtain ⟨above, arena, closed, h2, h31, h32⟩ := kinds t block
  simp only [writeAt, chart, found, above, arena, closed, h2, h31, h32, whole, reg, placed_whole v low, covers_whole low,
    decide_false, Bool.and_false, Bool.or_false, Bool.false_eq_true, if_false]

theorem widened (v : Reg) : ((v.setWidth 512 : LineData).setWidth 64 : Reg) = v := by simp

/-- EVNT_RDSEL takes SEQ from bits [62:0]. -/
theorem fld_seq (seq : BitVec 63) : fld (((seq.setWidth 512 : LineData).setWidth 64 : Reg)) 0 63 = seq.toNat := by
  have := seq.isLt
  simp [fld]; omega

theorem fld_bits (bits : BitVec 48) : fld (((bits.setWidth 512 : LineData).setWidth 64 : Reg)) 0 48 = bits.toNat := by
  have := bits.isLt
  simp [fld]; omega

theorem exec_rdsel {s : State} (seq : BitVec 63) (reach : hostOpen s = true) :
    exec (.evntRdselWrite seq) s = .next (ioPayload (selectRecord s seq.toNat) 0 2 8) := by
  have e : writeReg s 0 0 0x1D018 8 (seq.setWidth 512) = _ := hostWrite _ reach (by decide)
  rw [writeAt_other s 0 _ (by decide) locate_rdsel (by decide) (by decide) (by decide)] at e
  simp only [writeOther, merged_whole, fld_seq] at e
  exact congrArg Host.Outcome.next e

theorem exec_monSel {s : State} (m : Fin 67) (n : Fin 8) (v : Reg) (reach : hostOpen s = true) :
    exec (.monSelWrite m n v) s = .next (ioPayload (writeSelect s m.val n.val v (BitVec.allOnes 64)) 0 2 8) := by
  have places : ∀ n : Fin 8, cfgAt 0x52 (8 + 8 * n.val) = none := by decide
  have index : (8 + 8 * n.val - 8) / 8 = n.val := by omega
  have inside : 8 ≤ 8 + 8 * n.val ∧ 8 + 8 * n.val < 0x48 := by omega
  have e : writeReg s 0 0 (0x24008 + 0x100 * m.val + 8 * n.val) 8 (v.setWidth 512) = _ := hostWrite _ reach (by omega)
  rw [writeAt_other s 0 _ (by omega) (locate_monSel m n) (by omega) (by decide) (places n), widened] at e
  simp only [writeOther, index, inside] at e
  exact congrArg Host.Outcome.next e

theorem exec_senseB {s : State} (bits : BitVec 48) (reach : hostOpen s = true) :
    exec (.hkepSenseBClear bits) s = .next (ioPayload (returnChannels s bits.toNat) 0 2 8) := by
  have e : writeReg s 0 0 0x1B010 8 (bits.setWidth 512) = _ := hostWrite _ reach (by decide)
  rw [writeAt_other s 0 _ (by decide) locate_senseB (by decide) (by decide) (by decide)] at e
  simp only [writeOther, BitVec.and_allOnes, fld_bits] at e
  exact congrArg Host.Outcome.next e

/-- A select that the monitor takes waits for the boundary; one that it does not take is ignored. -/
theorem writeSelect_taken (s : State) (m n : Nat) (v : Reg) (ok : selectOk m (fld v 0 16) (fld v 16 8) = true) :
    writeSelect s m n v (BitVec.allOnes 64) =
      updMon s m fun y => { y with next := y.next ++ [(n, some (fld v 0 16, fld v 16 8), v.getLsbD 32)] } := by
  simp only [writeSelect, merged_whole, ok, if_true, BitVec.and_allOnes]

theorem writeSelect_ignored (s : State) (m n : Nat) (v : Reg) (bad : selectOk m (fld v 0 16) (fld v 16 8) = false) :
    writeSelect s m n v (BitVec.allOnes 64) = s := by
  simp only [writeSelect, merged_whole, bad, Bool.false_eq_true, if_false]

/-- The record of a SEQ that the ring holds is selected; one outside the ring selects none. -/
theorem selectRecord_held {s : State} {seq : Nat} {r : EvRec} (low : s.ev.floor ≤ seq) (high : seq < s.ev.head)
    (near : s.ev.head ≤ seq + 65536) (ring : tget none s.ev.ring (seq % 65536) = some r) (small : seq < 2 ^ 63) :
    selectRecord s seq = { s with ev := { s.ev with rdsel := seq, held := true, words := (selectRecord s seq).ev.words } } ∧
      (selectRecord s seq).ev.words = (List.range 4).map fun i => BitVec.ofNat 64 (leNat ((r.bytes.drop (8 * i)).take 8)) := by
  simpa [selectRecord, low, high, near, ring] using small

theorem selectRecord_none {s : State} {seq : Nat} (out : seq < s.ev.floor ∨ s.ev.head ≤ seq ∨ seq + 65536 < s.ev.head) (small : seq < 2 ^ 63) :
    selectRecord s seq = { s with ev := { s.ev with rdsel := seq, held := false, words := [0, 0, 0, 0] } } := by
  have gone : (decide (s.ev.floor ≤ seq) && decide (seq < s.ev.head) && decide (s.ev.head ≤ seq + 65536)) = false := by
    simp only [Bool.and_eq_false_iff, decide_eq_false_iff_not]; omega
  simpa [selectRecord, gone] using small

/-- A chart read answers the chart's word. -/
theorem readAt_chart (s : State) (m : Byte) {off : Nat} (chart : off < 65536) (low : off % 8 = 0) :
    readAt s m 0 off 8 = answer s (BitVec.ofNat 64 (chartValue s off)).toNat := by
  have whole : off / 8 * 8 = off := by omega
  simp [readAt, chart, whole, regValue, cfgAt_chart, partOf_whole _ low]

/-- Settles O59: accesses by the checks that they pass or fail, registers by what lies at their offset. -/
theorem registerAccesses : Obligations.RegisterAccesses := by
  refine ⟨?bad, ?nowhere, ?unreached, ?asleep, ?chart, ?held, ?notHeld, ?select, ?ignored, ?channels, ?arena⟩
  case bad =>
    intro s m bar off size v reach bad
    exact ⟨congrArg Host.Outcome.next (badRead s m reach bad), congrArg Host.Outcome.next (badWrite s m v reach bad)⟩
  case nowhere =>
    intro s m off size v reach ok past none
    have chart : ¬ off < 65536 := by omega
    refine ⟨congrArg Host.Outcome.next ((readReg_of_reaches reach ok).trans ?_),
      congrArg Host.Outcome.next ((writeReg_of_reaches reach ok).trans ?_)⟩
    · simp [readAt, chart, none]
    · simp [writeAt, chart, none]
  case unreached =>
    intro s m bar off size v other reach
    obtain ⟨read, write⟩ := unreached other reach bar off size v
    exact ⟨congrArg Host.Outcome.next read, congrArg Host.Outcome.next write⟩
  case asleep =>
    intro s bar off size deep
    have wakes : accessWakes s 0 = { s with ev := { s.ev with wakePending := some 1 } } := by simp [accessWakes, deep]
    have dark : masterReaches (accessWakes s 0) 0 = false := by
      rw [wakes]; simp [masterReaches, hostOpen, ioOpen, awake, deep]
    refine congrArg Host.Outcome.next (Eq.trans ?_ wakes)
    simp only [readReg, dark, Bool.not_false, if_true]
  case chart =>
    intro s m off reach chart low
    refine ⟨_, congrArg Host.Outcome.next ((readReg_of_reaches reach (barAccessOk_whole low)).trans
      (by rw [readAt_chart s m chart low])), ?_, ?_⟩
    · rw [ioPayload_hl, answer_reg]
    · rw [ioPayload_hl]; rfl
  case held =>
    intro s seq r reach low high near ring
    obtain ⟨frame, words⟩ := selectRecord_held low high near ring seq.isLt
    exact ⟨_, exec_rdsel seq reach, congrArg State.ev frame, words⟩
  case notHeld =>
    intro s seq reach out
    rw [exec_rdsel seq reach, selectRecord_none out seq.isLt]
  case select =>
    intro s m n v reach ok
    rw [exec_monSel m n v reach, writeSelect_taken s m.val n.val v ok]
  case ignored =>
    intro s m n v reach bad
    rw [exec_monSel m n v reach, writeSelect_ignored s m.val n.val v bad]
  case channels =>
    intro s bits reach
    exact exec_senseB bits reach
  case arena =>
    intro s off size v o reach ok found
    refine congrArg Host.Outcome.next ((writeReg_of_reaches (m := 0) reach ok).trans ?_)
    simp [writeAt, found, arenaBase]

/-- Settles O28: EVNT_USER is a constant, and no other bit of it is set. -/
theorem userPages : Obligations.UserPages := by
  intro s p
  have value : regValue s 0x50 0 0x48 = 0xFF00#64 := rfl
  rw [value]
  by_cases high : p < 64
  · interval_cases p <;> rfl
  · have out : ¬ (8 ≤ p ∧ p ≤ 15) := by omega
    rw [BitVec.getLsbD_of_ge _ _ (by omega)]; simp [out]

end Sys2Proof.Proofs.Registers
end

section
/-! Pipes: mouthpieces, bells, the binding table, and the completions that are rung. -/
namespace Sys2Proof.Proofs.Pipes
open Sys2Proof Machine Safety Proofs.Commits

/-! ### The table of pipes, whose entries have defaults of their own (R428) -/

theorem rising_updPipe {s : State} (p : Nat) (f : Pipe → Pipe) (h : Rising s.pp.pipes) : Rising (updPipe s p f).pp.pipes :=
  rising_tset _ _ _ _ h

/-- What a pipe reads after a change of one. -/
theorem pipe_updPipe {s : State} (p n : Nat) (f : Pipe → Pipe) (h : Rising s.pp.pipes) :
    pipe (updPipe s p f) n = if n = p then f (pipe s p) else pipe s n := by
  by_cases hn : n = p
  · subst hn
    exact (tget_tset _ _ _ _ _ h)
  · rw [if_neg hn]
    exact tget_tset_other _ _ _ _ _ _ h hn

/-- A bound pipe is listed. -/
theorem mem_listedPipes {s : State} {n : Nat} (bound : (pipe s n).valid = true) : n ∈ listedPipes s := by
  have listed {v : Pipe} (m : (n, v) ∈ s.pp.pipes) : n ∈ listedPipes s :=
    List.mem_append_right _ (List.mem_map.2 ⟨_, m, rfl⟩)
  rcases tget_mem (pipeReset n) s.pp.pipes n with e | m
  · have zero : n = 0 := by
      by_contra other
      unfold pipe at bound
      rw [e] at bound
      simp [pipeReset, other] at bound
    subst zero
    by_cases kept : s.pp.pipes.any (·.1 = 0) = true
    · obtain ⟨⟨k, v⟩, m, key⟩ := List.any_eq_true.1 kept
      obtain rfl : k = 0 := by simpa using key
      exact listed m
    · exact List.mem_append_left _ (by simp [kept])
  · exact listed m

/-! ### Mouthpieces and bells (R417, R418, R425, R426) -/

/-- A write to an empty mouthpiece of a bound pipe, with its key and 8 bytes, is taken. -/
theorem mouthCause_none {p : Pipe} {word : Reg} (bound : p.valid = true) (key : fld word 32 32 = p.key) (empty : p.mouth = none) :
    mouthCause p word 8 = none := by simp [mouthCause, bound, key, empty]

/-- The causes of a rejection, the first in the order 3, 2, 1, 0. -/
theorem mouthCause_some {p : Pipe} {word : Reg} {size cause : Nat}
    (h : (size ≠ 8 ∧ cause = 3) ∨ (size = 8 ∧ p.valid = false ∧ cause = 2) ∨
      (size = 8 ∧ p.valid = true ∧ fld word 32 32 ≠ p.key ∧ cause = 1) ∨
      (size = 8 ∧ p.valid = true ∧ fld word 32 32 = p.key ∧ p.mouth.isSome = true ∧ cause = 0)) :
    mouthCause p word size = some cause := by
  rcases h with ⟨h, rfl⟩ | ⟨rfl, h, rfl⟩ | ⟨rfl, bound, h, rfl⟩ | ⟨rfl, bound, key, h, rfl⟩
  · simp [mouthCause, h]
  · simp [mouthCause, h]
  · simp [mouthCause, bound, h]
  · simp [mouthCause, bound, key, h]

/-! ### Setting LOCK (R429, R430) -/

/-- Every pipe of a list loses VALID. -/
def unbind (l : List Nat) (s : State) : State := l.foldl (fun s n => updPipe s n fun p => { p with valid := false }) s

theorem pipe_unbind (l : List Nat) (s : State) (h : Rising s.pp.pipes) (n : Nat) :
    pipe (unbind l s) n = if n ∈ l then { pipe s n with valid := false } else pipe s n := by
  induction l generalizing s with
  | nil => rfl
  | cons p l ih =>
    rw [show unbind (p :: l) s = unbind l (updPipe s p fun x => { x with valid := false }) from rfl,
      ih _ (rising_updPipe p _ h), pipe_updPipe p n _ h]
    by_cases hp : n = p
    · subst hp; simp
    · simp [hp]

/-- Saving the table changes the keep store alone. -/
theorem saveBinding_pp (s : State) : (saveBinding s).pp = s.pp := by
  unfold saveBinding
  dsimp only
  refine foldl_keeps State.pp (fun s k => keepPut s (0x100 + k) _) (fun b k => ?_) _ s
  rfl

/-- The pipes that break a window rule of R429. -/
def badWindows (s : State) : List Nat := (listedPipes s).filter fun n => (pipe s n).valid && !windowOk (pipe s n)

theorem mem_badWindows (s : State) (n : Nat) : n ∈ badWindows s ↔
    (pipe s n).valid = true ∧ ¬ (2 ≤ (pipe s n).pages ∧ (pipe s n).base + (pipe s n).pages ≤ 16384) := by
  simp only [badWindows, List.mem_filter, windowOk, Bool.and_eq_true, Bool.not_eq_true', Bool.and_eq_false_iff,
    decide_eq_false_iff_not]
  constructor
  · rintro ⟨-, bound, bad⟩; exact ⟨bound, by tauto⟩
  · rintro ⟨bound, bad⟩; exact ⟨mem_listedPipes bound, bound, by tauto⟩

theorem setLock_pp {s : State} (unlocked : s.pp.lock = false) :
    (setLock s).pp = { (unbind (badWindows s) s).pp with lock := true, badPipe := (badWindows s).headD 0 } := by
  unfold setLock
  rw [if_neg (by simp [unlocked]), saveBinding_pp]
  rfl

theorem setLock_spec {s : State} (unlocked : s.pp.lock = false) (h : Rising s.pp.pipes) :
    (setLock s).pp.lock = true ∧ ∀ n, pipe (setLock s) n =
      if (pipe s n).valid = true ∧ ¬ (2 ≤ (pipe s n).pages ∧ (pipe s n).base + (pipe s n).pages ≤ 16384)
      then { pipe s n with valid := false } else pipe s n := by
  refine ⟨by rw [setLock_pp unlocked], fun n => ?_⟩
  have same : pipe (setLock s) n = pipe (unbind (badWindows s) s) n := by unfold pipe; rw [setLock_pp unlocked]
  rw [same, pipe_unbind _ _ h]
  exact if_congr (mem_badWindows s n) rfl rfl

/-- Settles O42: writes by their cause, reads by their size, the table by what a change of one pipe leaves of the others. -/
theorem pipesAndTheirBinding : Obligations.PipesAndTheirBinding := by
  refine ⟨⟨?taken, ?rejected, ?read, ?short, ?closed⟩, ?entry, ?locked, ?lock, ?word⟩
  case taken =>
    intro s p word up bound key empty
    simp [exec, execPipeMouthWrite, up, mouthCause_none bound key empty]
  case rejected =>
    intro s p word size cause up why
    simp [exec, execPipeMouthWrite, up, mouthCause_some why]
  case read =>
    intro s p up
    simp [exec, execPipeBellRead, up]
  case short =>
    intro s p size up odd
    simp [exec, execPipeBellRead, up, odd]
  case closed =>
    intro s p word size down
    simp [exec, execPipeMouthWrite, execPipeBellRead, down]
  case entry =>
    intro s p b v up unlocked
    simp [exec, execPbndEntryWrite, up, unlocked]
  case locked =>
    intro s p b v locked
    simp [exec, execPbndEntryWrite, execPbndLockSet, setLock, locked]
  case lock =>
    intro s up unlocked h
    obtain ⟨lock, pipes⟩ := setLock_spec unlocked h
    exact ⟨setLock s, congrArg Host.Outcome.next (if_pos up), lock, pipes⟩
  case word =>
    intro v p
    refine ⟨rfl, rfl, fun low => if_pos low, fun high => if_neg (by omega), fun bad => if_pos bad, fun good => if_neg good, rfl, rfl⟩

/-! ### Completions (R423, R424, R427, R438, R447) -/

theorem compBytes_length (x : Completion) : (compBytes x).length = 32 := by simp [compBytes, leBytes]

/-- A ring of a completion that is not aborted, for a pipe that sends no interrupt. -/
theorem ringBell_quiet {s : State} {x : Completion} (done : x.aborted = false) (silent : (pipe s x.pipe).en = false) :
    ringBell s x = updPipe (writeBytes { s with pp := { s.pp with comps := s.pp.comps.erase x } }
        (ringAddr (pipe s x.pipe) ((pipe s x.pipe).seq % 128)) (compBytes x)) x.pipe fun p => { p with
      bell := some (0, x.status % 256, (pipe s x.pipe).seq % 128, x.desc, x.tag), seq := (p.seq + 1) % 128
      tokens := if x.token ≠ 0 ∧ (x.status = 0 ∨ x.status = 9 ∨ x.status = 15) then
        (x.token, x.resA, x.resB) :: p.tokens.take 63 else p.tokens } := by
  have records : recordsToken x = decide (x.token ≠ 0 ∧ (x.status = 0 ∨ x.status = 9 ∨ x.status = 15)) := by
    simp [recordsToken, done, Bool.or_assoc]
  simp only [ringBell, done, silent, records, Bool.false_eq_true, if_false, decide_eq_true_eq]

/-- Settles O43: a ring by the guards of its row, and what it writes by `ringBell`. -/
theorem completionsRing : Obligations.CompletionsRing := by
  refine ⟨?rung, ?full, ?refused, ?held, ?writes, fun x => ⟨compBytes_length x, rfl⟩⟩
  case rung =>
    intro s p c x up next bound serves alive empty none
    have unheld : (s.pp.comps.any fun y => y.pipe = p.val && y.held) = false := by
      simp only [List.any_eq_false, Bool.and_eq_true, decide_eq_true_eq, not_and, Bool.not_eq_true]
      exact none
    have core : ((servedAs s (pipe s p.val).group c.val).isSome && !s.wr.failed.getLsbD c.val) = true := by rw [serves, alive]; rfl
    simp only [exec, execPipeBellRing, next, up, bound, core, empty, unheld, Bool.not_true, Bool.or_false, Option.isSome_none,
      Bool.false_eq_true, if_false]
  case full =>
    intro s p c x up next bound serves alive full
    have core : ((servedAs s (pipe s p.val).group c.val).isSome && !s.wr.failed.getLsbD c.val) = true := by rw [serves, alive]; rfl
    simp only [exec, execPipeBellRing, next, up, bound, core, full, Bool.not_true, Bool.or_false, Bool.true_or,
      Bool.false_eq_true, if_false, if_true]
  case refused =>
    intro s p c x up next why
    have refuse : (!(pipe s p.val).valid ||
        !((servedAs s (pipe s p.val).group c.val).isSome && !s.wr.failed.getLsbD c.val)) = true := by
      rcases why with h | h | h <;> simp [h]
    simp only [exec, execPipeBellRing, next, up, refuse, Bool.not_true, Bool.false_eq_true, if_false, if_true]
  case held =>
    intro s p x up next bound empty serves
    simp [exec, execHeldCompletionRing, next, up, bound, empty, serves]
  case writes =>
    intro s x done silent
    exact ringBell_quiet done silent

end Sys2Proof.Proofs.Pipes
end

section
/-! Commands: a start of a background command among commands that share an id. -/
namespace Sys2Proof.Proofs.Commands
open Sys2Proof Machine Safety

/-- A queued TRIM of one page: OPCODE 0x0210 and VERSION 1, with 1 page at offset 0x20. -/
def queuedTrim : Cmd := { phase := .queued, d := BitVec.ofNat 1024 (0x0210 + 2 ^ 16 + 2 ^ (8 * 0x20)) }

/-- A command of the same id and pipe with an empty descriptor. -/
def namesake : Cmd := {}

/-- A running device that holds the two. -/
def twoOfOneId : State :=
  { State.reset with
    pwr := { State.reset.pwr with inReset := false, state := .run }
    pp := { State.reset.pp with cmds := [queuedTrim, namesake] } }

/-- A fresh device is awake, lists no valid region, and starts the first command queued. -/
theorem twoOfOneId_starts :
    startable 0 twoOfOneId.pp.cmds [] = some queuedTrim ∧ awake twoOfOneId = true ∧ rangeFail twoOfOneId queuedTrim = none ∧
      eraseMeets twoOfOneId queuedTrim = false ∧ ¬ (queuedTrim.op = 0x0200 ∧ queuedTrim.fld 0x28 1 = 1) ∧
      queuedTrim.ranges = [(0, 1)] ∧ namesake.ranges = [] ∧ namesake.id = queuedTrim.id := by
  decide +kernel

/-- The range that a start writes into each command with the id is that command's own. -/
theorem start_ranges {s : State} {p : PipeNo} {c : Cmd} (next : startable p.val s.pp.cmds [] = some c) (up : awake s = true)
    (ready : rangeFail s c = none) (clear : eraseMeets s c = false) :
    ∃ t, exec (.backgroundCommandStart p) s = .next t ∧ t.pp.cmds.map (·.range) =
      s.pp.cmds.map fun k => if k.id = c.id then k.ranges.headD (0, 0) else k.range := by
  refine ⟨_, rfl, ?_⟩
  simp only [next, up, ready, clear, Bool.not_true, Bool.false_eq_true, if_false, updCmd, List.map_map]
  refine List.map_congr_left fun k _ => ?_
  by_cases same : k.id = c.id <;> simp [same]

/-- Refutes O44: with two commands of one id held (which the clause on BACKGROUND_COMMAND_START does not shut out), a start
gives each the range of its own descriptor, and not both the range of the command that starts. -/
theorem not_commandsAreTakenAndChecked : ¬ Obligations.CommandsAreTakenAndChecked := by
  rintro ⟨⟨-, start, -⟩, -⟩
  obtain ⟨next, up, ready, clear, plain, range, none, same⟩ := twoOfOneId_starts
  obtain ⟨t, runs, ranges⟩ := start_ranges (p := 0) next up ready clear
  have claimed := start _ 0 _ next up ready clear plain
  rw [runs] at claimed
  obtain rfl := Host.Outcome.next.inj claimed
  have differ : [queuedTrim.ranges.headD (0, 0), queuedTrim.ranges.headD (0, 0)] =
      [queuedTrim.ranges.headD (0, 0), namesake.ranges.headD (0, 0)] := by
    simpa only [updCmd, twoOfOneId, List.map_cons, List.map_nil, same, if_true] using ranges
  rw [range, none] at differ
  simp at differ
end Sys2Proof.Proofs.Commands
end

section
/-! Commands of a pipe that answer at once: the keep store's, the time's, and those that answer with data. -/
namespace Sys2Proof.Proofs.Answers
open Sys2Proof Machine Safety Proofs.Frame

/-! ### Appends, and the time that is set and read (R565, R569, R585, R587) -/

/-- An append changes the keep store's records and log alone, so its mode and password stay. -/
theorem keepFrame_keepPut (s : State) (key : Nat) (payload : List Byte) :
    keepFrame (keepPut s key payload).kp = keepFrame s.kp := by
  rcases keepPut_cases s key payload with ⟨-, -, e⟩ | ⟨-, e⟩
  · rw [e]; exact keepFrame_append { s.kp with port := [] } _ _
  · rw [e]; rfl

theorem keepPut_mode (s : State) (key : Nat) (payload : List Byte) : (keepPut s key payload).kp.mode = s.kp.mode :=
  (congrArg KeepSt.mode (keepFrame_keepPut s key payload) : (keepFrame (keepPut s key payload).kp).mode = (keepFrame s.kp).mode)
theorem keepPut_pwSet (s : State) (key : Nat) (payload : List Byte) : (keepPut s key payload).kp.pwSet = s.kp.pwSet :=
  (congrArg KeepSt.pwSet (keepFrame_keepPut s key payload) : (keepFrame (keepPut s key payload).kp).pwSet = (keepFrame s.kp).pwSet)
theorem keepPut_pwMac (s : State) (key : Nat) (payload : List Byte) : (keepPut s key payload).kp.pwMac = s.kp.pwMac :=
  (congrArg KeepSt.pwMac (keepFrame_keepPut s key payload) : (keepFrame (keepPut s key payload).kp).pwMac = (keepFrame s.kp).pwMac)

/-- A signed value of 64 bits is kept as it is. -/
theorem wrap64_of_fits {x : Int} (low : -2 ^ 63 ≤ x) (high : x < 2 ^ 63) : wrap64 x = x := by
  unfold wrap64
  rw [BitVec.toInt_ofInt]
  exact Int.bmod_eq_of_le (by omega) (by omega)

/-- Outside a consort the time that is set is the own one. -/
theorem setHostTime_alone {s : State} (ts : Nat) (alone : s.cn.joined = false) :
    setHostTime s ts = { s with clk := { s.clk with
      offset := wrap64 ((ts : Int) - ((s.clk.seconds : Int) * 10 ^ 9 + ((s.clk.subsec * 1953125 / 64 : Nat) : Int)))
      tvalid := true } } := by
  simp only [setHostTime, followsTime, alone, Bool.false_and, Bool.false_eq_true, if_false]

/-- Nanoseconds that the calendar counts. -/
def calendarNs (s : State) : Int := (s.clk.seconds : Int) * 10 ^ 9 + ((s.clk.subsec * 1953125 / 64 : Nat) : Int)

/-- The host's time is read as the calendar's and an offset. -/
theorem hostTime_offset (s : State) (o : Int) :
    hostTime { s with clk := { s.clk with offset := o, tvalid := true } } = calendarNs s + o := if_pos rfl

theorem hostTime_setHostTime {s : State} {ts : Nat} (alone : s.cn.joined = false)
    (low : -2 ^ 63 ≤ (ts : Int) - calendarNs s) (high : (ts : Int) - calendarNs s < 2 ^ 63) :
    hostTime (setHostTime s ts) = ts := by
  have set : setHostTime s ts = { s with clk := { s.clk with offset := wrap64 ((ts : Int) - calendarNs s), tvalid := true } } :=
    setHostTime_alone ts alone
  rw [set, hostTime_offset, wrap64_of_fits low high]
  exact add_sub_cancel _ _

/-- Settles O17: each command by its effect on a state that passes its checks. -/
theorem keepAndTimeCommands : Obligations.KeepAndTimeCommands := by
  refine ⟨⟨?write, ?trim, ?clear, ?set, ?time, fun s ts => setHostTime_alone ts⟩, fun s ts => hostTime_setHostTime⟩
  case write =>
    intro s p c runs other room
    refine congrArg Host.Outcome.next ((runCmd_runs runs _).trans ?_)
    simp only [if_neg other, room, Bool.false_eq_true, if_false]
    rfl
  case trim =>
    intro s p c runs trim
    refine ⟨_, congrArg Host.Outcome.next (runCmd_runs runs _), ?_⟩
    simp only [if_pos trim]
    split <;> rfl
  case clear =>
    intro s p c runs none
    refine congrArg Host.Outcome.next ((runCmd_runs runs _).trans ?_)
    simp only [none]
    rfl
  case set =>
    intro s p c runs some
    refine ⟨_, congrArg Host.Outcome.next (runCmd_runs runs _), ?_⟩
    exact ⟨keepPut_mode _ _ _, (keepPut_pwSet _ _ _).trans (decide_eq_true some),
      (keepPut_pwMac _ _ _).trans (if_pos some)⟩
  case time =>
    intro s p c runs
    exact congrArg Host.Outcome.next (runCmd_runs runs _)

/-! ### Commands that answer with data (R449, R450, R460, R461, R468, R570) -/

theorem length_leBytes (n v : Nat) : (leBytes n v).length = n := by simp [leBytes]

theorem length_identifyData (s : State) : (identifyData s).length = 64 := by
  simp [identifyData, length_leBytes]

/-- Settles O45: each command by its effect on a state that passes its checks. -/
theorem dataCommandsAnswer : Obligations.DataCommandsAnswer := by
  refine ⟨?identify, fun s => ⟨length_identifyData s, rfl⟩, ?log, ?found, ?absent, ?key, ?time, ?spare, fun _ _ _ => rfl⟩
  case identify | log | key | time =>
    intro s p c runs
    exact congrArg Host.Outcome.next (runCmd_runs runs _)
  case found =>
    intro s p c r runs steady found
    refine congrArg Host.Outcome.next ((runCmd_runs runs _).trans ?_)
    simp only [steady, found, Bool.false_eq_true, if_false]
    rfl
  case absent =>
    intro s p c runs steady absent
    refine congrArg Host.Outcome.next ((runCmd_runs runs _).trans ?_)
    simp only [steady, absent, Bool.false_eq_true, if_false]
    rfl
  case spare =>
    intro s p c runs
    refine ⟨_, congrArg Host.Outcome.next ((runCmd_runs runs _).trans ?_), rfl⟩
    have cut {n room : Nat} : (room < n) = (min n room < n) := by rw [eq_iff_iff]; omega
    simp only [succeed, ← cut]
end Sys2Proof.Proofs.Answers
end

section
/-! The consort's link and agreements: what sending, following, dropping and opening leave. -/
namespace Sys2Proof.Proofs.Consort
open Sys2Proof Machine Safety Proofs.Commits

/-! ### Frames (R618, R619) -/

/-- A device in Run or Idle sends every frame. -/
theorem carries_of_awake {s : State} (up : awake s = true) (f : BriterFrame) : briterCarries s f = true := by
  have state : s.pwr.state = .run ∨ s.pwr.state = .idle := by
    simp only [awake, Bool.and_eq_true, Bool.or_eq_true, decide_eq_true_eq] at up
    exact up.2
  rcases state with h | h <;> cases f <;> simp [briterCarries, h]

/-- The frames that only a device outside Sleep and Deep sleep carries. -/
def Ordinary : BriterFrame → Prop
  | .status _ => False
  | .wake => False
  | _ => True

theorem briterCarries_ordinary (s : State) {f : BriterFrame} (h : Ordinary f) :
    briterCarries s f = (decide (s.pwr.state ≠ .sleep) && decide (s.pwr.state ≠ .deepSleep)) := by
  cases f with
  | status _ | wake => exact h.elim
  | _ => rfl

/-- The link carries every ordinary frame when it carries one. -/
theorem carries_of_ordinary {s : State} {f g : BriterFrame} (takes : briterCarries s f = true) (hf : Ordinary f) (hg : Ordinary g) :
    briterCarries s g = true := by
  rw [briterCarries_ordinary s hg, ← briterCarries_ordinary s hf, takes]

theorem takes_iff (s : State) (f : BriterFrame) : briterTakes s f = true ↔ briterUp s = true ∧ briterCarries s f = true := by
  simp [briterTakes]

theorem sendFrame_carried {s : State} {f : BriterFrame} (h : briterCarries s f = true) :
    sendFrame s f = { s with cn := { s.cn with sent := f :: s.cn.sent } } := if_pos h

/-- A frame sent or not changes the list of frames alone. -/
theorem sendFrame_frame (s : State) (f : BriterFrame) :
    sendFrame s f = { s with cn := { s.cn with sent := (sendFrame s f).cn.sent } } := by
  unfold sendFrame; split <;> rfl

/-- Raising an event leaves what the consort holds. -/
theorem raise_cn (s : State) (code source p0 p1 p2 p3 : Nat) : (raise s code source p0 p1 p2 p3).cn = s.cn :=
  (congrArg State.cn (raise_reports (.refl s) code source p0 p1 p2 p3).1 :
    (quiet (raise s code source p0 p1 p2 p3)).cn = (quiet s).cn)

/-- Following the leader's time moves the own offset alone. -/
theorem followTime_frame (s : State) :
    followTime s = { s with clk := { s.clk with offset := (followTime s).clk.offset, tvalid := (followTime s).clk.tvalid } } := by
  unfold followTime
  split
  · split <;> rfl
  · rfl

theorem followTime_cn (s : State) : (followTime s).cn = s.cn := by rw [followTime_frame]

/-! ### Agreements (R624, R625) -/

/-- Dropping an agreement ends it, and may tell the others, give up the commit that waited for it and complete its
command; the rest stays. -/
theorem dropAgreement_frame (s : State) (status : Nat) :
    dropAgreement s status = { s with
      cn := { s.cn with agreement := none, sent := (dropAgreement s status).cn.sent }
      pp := { s.pp with
        cmds := (dropAgreement s status).pp.cmds, comps := (dropAgreement s status).pp.comps
        commit := (dropAgreement s status).pp.commit }
      pwr := { s.pwr with asked := (dropAgreement s status).pwr.asked, askedCmd := (dropAgreement s status).pwr.askedCmd } } := by
  unfold dropAgreement
  cases held : s.cn.agreement with
  | none => simp only [← held]
  | some a =>
    dsimp only
    have told : ∃ sent, (if a.origin = s.cn.pos then sendFrame { s with cn := { s.cn with agreement := none } } (.abort a.n)
        else { s with cn := { s.cn with agreement := none } }) = { s with cn := { s.cn with agreement := none, sent := sent } } := by
      split
      · exact ⟨_, sendFrame_frame _ _⟩
      · exact ⟨_, rfl⟩
    obtain ⟨sent, told⟩ := told
    rw [told]
    split
    · split
      · split
        · rw [finishId_frame]
        · rfl
      · rfl
    · split
      · rw [finishId_frame]
      · rfl

theorem dropAgreement_agreement (s : State) (status : Nat) : (dropAgreement s status).cn.agreement = none := by
  rw [dropAgreement_frame]

/-- GO for an own agreement that every other member has acknowledged. -/
theorem goIfAcked_acked {s : State} {a : Agreement} (held : s.cn.agreement = some a) (own : a.origin = s.cn.pos) (fresh : a.go = false)
    (config : a.kind = .configuration) (all : ∀ p ∈ others s, p ∈ a.acks) (carried : briterCarries s (.go a.n) = true) :
    goIfAcked s = { s with
      cn := { s.cn with sent := .go a.n :: .go a.n :: s.cn.sent, agreement := some { a with go := true } }
      pp := { s.pp with commit := s.pp.commit.map fun c => { c with go := true } } } := by
  have acked : (decide (a.origin = s.cn.pos) && !a.go && (others s).all fun p => decide (p ∈ a.acks)) = true := by
    simp only [own, fresh, decide_true, Bool.not_false, Bool.and_self, Bool.true_and, List.all_eq_true, decide_eq_true_eq]
    exact all
  simp only [goIfAcked, held, acked, if_true, if_pos config, sendFrame_carried carried]
  rw [sendFrame_carried (by exact carried)]

/-- Whether or not GO goes out, the agreement stays but for its GO, every frame sent stays sent, and a pending commit stays
but for its GO. -/
theorem goIfAcked_cases (s : State) :
    goIfAcked s = s ∨ ∃ a, s.cn.agreement = some a ∧ (goIfAcked s).cn.agreement = some { a with go := true } ∧
      (∀ f ∈ s.cn.sent, f ∈ (goIfAcked s).cn.sent) ∧
      ((goIfAcked s).pp.commit = s.pp.commit ∨ (goIfAcked s).pp.commit = s.pp.commit.map fun c => { c with go := true }) := by
  have kept (s : State) (f : BriterFrame) : ∀ x ∈ s.cn.sent, x ∈ (sendFrame s f).cn.sent := by
    unfold sendFrame
    split
    · exact fun x hx => List.mem_cons_of_mem _ hx
    · exact fun x hx => hx
  have commit (s : State) (f : BriterFrame) : (sendFrame s f).pp.commit = s.pp.commit := by rw [sendFrame_frame]
  unfold goIfAcked
  cases held : s.cn.agreement with
  | none => exact .inl rfl
  | some a =>
    dsimp only
    split
    · refine .inr ⟨a, rfl, ?_⟩
      split
      · exact ⟨rfl, fun f hf => kept _ _ f (kept _ _ f hf), .inr (by rw [commit, commit])⟩
      · rw [finishId_frame]
        exact ⟨rfl, fun f hf => kept _ _ f (kept _ _ f hf), .inl (by simp only [commit])⟩
    · exact .inl rfl

/-- What opening an agreement holds: the agreement, its PREPARE among the frames sent, and the commit as it was but for GO. -/
theorem openAgreement_spec {s : State} (n : Nat) (k : ConsortKind) (cmd : Option Nat) :
    (∃ a, (openAgreement s n k cmd).cn.agreement = some a ∧ a.origin = s.cn.pos ∧ a.n = n ∧ a.kind = k ∧ a.cmd = cmd) ∧
    (briterCarries s (.prepare n k) = true → .prepare n k ∈ (openAgreement s n k cmd).cn.sent) ∧
    ((openAgreement s n k cmd).pp.commit = s.pp.commit ∨
      (openAgreement s n k cmd).pp.commit = s.pp.commit.map fun c => { c with go := true }) := by
  let a : Agreement := { origin := s.cn.pos, n := n, kind := k, preparedAt := s.clk.beat, cmd := cmd }
  let u : State := sendFrame { s with cn := { s.cn with agreement := some a } } (.prepare n k)
  have held : u.cn.agreement = some a := by
    show (sendFrame _ _).cn.agreement = _
    rw [sendFrame_frame]
  have commit : u.pp.commit = s.pp.commit := by
    show (sendFrame _ _).pp.commit = _
    rw [sendFrame_frame]
  have sent : briterCarries s (.prepare n k) = true → .prepare n k ∈ u.cn.sent := fun carried => by
    show _ ∈ (sendFrame _ _).cn.sent
    rw [sendFrame_carried (by exact carried)]
    exact List.mem_cons_self
  show (∃ b, (goIfAcked u).cn.agreement = some b ∧ _) ∧ (_ → _ ∈ (goIfAcked u).cn.sent) ∧
    ((goIfAcked u).pp.commit = _ ∨ (goIfAcked u).pp.commit = _)
  rcases goIfAcked_cases u with same | ⟨b, given, gone, more, change⟩
  · rw [same]
    exact ⟨⟨a, held, rfl, rfl, rfl, rfl⟩, sent, .inl commit⟩
  · obtain rfl : a = b := Option.some.inj (held.symm.trans given)
    rw [← commit]
    exact ⟨⟨_, gone, rfl, rfl, rfl, rfl⟩, fun h => more _ (sent h), change⟩
end Sys2Proof.Proofs.Consort
end

section
/-! Commands that hold the pending commit, and those of power and the consort. -/
namespace Sys2Proof.Proofs.Holds
open Sys2Proof Machine Safety Proofs.Commits Proofs.Consort

/-! ### The pending commit (R448, R451, R464) -/

theorem namedBeat_alone {s : State} {c : Cmd} {b : Nat} (alone : s.cn.joined = false)
    (beat : b = if c.beat = 0 then c.takenAt + 256 else c.beat) : namedBeat s c = b := by
  simp [namedBeat, leadMin, alone, beat]

theorem namedBeat_joined {s : State} {c : Cmd} {b : Nat} (joined : s.cn.joined = true)
    (beat : b = if c.beat = 0 then c.takenAt + 1024 else c.beat) : namedBeat s c = b := by
  simp [namedBeat, leadMin, joined, beat]

/-- Outside a consort the commit is held for its beat and needs no GO. -/
theorem takeCommit_alone {s : State} {c : Cmd} {b : Nat} (x : Change) (alone : s.cn.joined = false)
    (beat : b = if c.beat = 0 then c.takenAt + 256 else c.beat) :
    takeCommit (holdCmd s c) c x = { holdCmd s c with pp := { (holdCmd s c).pp with
      commit := some { beat := b, change := x, cmd := some c.id, needsGo := false } } } := by
  have same : (holdCmd s c).cn.joined = false := alone
  unfold takeCommit
  rw [namedBeat_alone same beat, same]
  exact if_neg (Bool.eq_false_iff.1 same)

/-- In a consort it is held for its beat, waits for a GO, and a PREPARE goes out for the consort's beat. -/
theorem takeCommit_joined {s : State} {c : Cmd} {b : Nat} (x : Change) (joined : s.cn.joined = true) (up : awake s = true)
    (beat : b = if c.beat = 0 then c.takenAt + 1024 else c.beat) :
    (∃ a, (takeCommit (holdCmd s c) c x).cn.agreement = some a ∧ a.origin = s.cn.pos ∧ a.n = toConsort s b) ∧
      .prepare (toConsort s b) .configuration ∈ (takeCommit (holdCmd s c) c x).cn.sent ∧
      ∃ m, (takeCommit (holdCmd s c) c x).pp.commit = some m ∧ m.beat = b ∧ m.change = x ∧ m.needsGo = true := by
  let m : Commit := { beat := b, change := x, cmd := some c.id, needsGo := true }
  let u : State := { holdCmd s c with pp := { (holdCmd s c).pp with commit := some m } }
  have same : (holdCmd s c).cn.joined = true := joined
  have opens : takeCommit (holdCmd s c) c x = openAgreement u (toConsort s b) .configuration (some c.id) := by
    unfold takeCommit
    rw [namedBeat_joined same beat, same]
    exact if_pos same
  rw [opens]
  obtain ⟨⟨a, held, origin, n, -, -⟩, sent, commit⟩ := openAgreement_spec (s := u) (toConsort s b) .configuration (some c.id)
  refine ⟨⟨a, held, origin, n⟩, sent (carries_of_awake (s := u) up _), ?_⟩
  rcases commit with same | go
  · exact ⟨m, same, rfl, rfl, rfl⟩
  · exact ⟨{ m with go := true }, go, rfl, rfl, rfl⟩

/-- Putting live values back into the shadows of a list of registers changes the shadow copy alone, and each of them reads
its live value. -/
theorem shadowsBack_spec (l : List Nat) (s : State) (h : Rising s.shadow) :
    (∃ sh, l.foldl (fun s id => setShadow s id (cfg s id)) s = { s with shadow := sh }) ∧
    ∀ j, (j ∈ l ∨ cfgShadow s j = cfg s j) → cfgShadow (l.foldl (fun s id => setShadow s id (cfg s id)) s) j = cfg s j := by
  induction l generalizing s with
  | nil => exact ⟨⟨_, rfl⟩, fun j hj => hj.resolve_left (List.not_mem_nil)⟩
  | cons id l ih =>
    obtain ⟨⟨sh, frame⟩, values⟩ := ih (setShadow s id (cfg s id)) (rising_tset _ _ _ _ h)
    refine ⟨⟨sh, frame⟩, fun j hj => values j ?_⟩
    by_cases own : j = id
    · exact .inr (own ▸ cfgShadow_setShadow_self s j _ h)
    · refine hj.imp (fun m => (List.mem_cons.1 m).resolve_left own) fun same => ?_
      exact (cfgShadow_setShadow_other s id j _ h own).trans same

/-- A command that is held has begun its effect. -/
theorem holdCmd_done (s : State) (c : Cmd) : ∀ x ∈ (holdCmd s c).pp.cmds, x.id = c.id → x.effectDone = true := by
  intro x hx id
  obtain ⟨y, -, rfl⟩ := List.mem_map.1 hx
  split at id
  · next own => rw [if_pos own]
  · next other => exact absurd id other

/-- Settles O46: the commands by the commit that they hold, the discard register by register. -/
theorem commitsAreHeld : Obligations.CommitsAreHeld := by
  refine ⟨?alone, ?joined, ?discard, fun s c => ⟨by rw [holdCmd_frame], holdCmd_done s c⟩⟩
  case alone =>
    intro s p c b alone beat
    have runs {which : Cmd → Bool} (x : State → Cmd → Change) (h : Runs s p.val which c) :
        runCmd s p.val which (fun s c => takeCommit (holdCmd s c) c (x s c)) = { holdCmd s c with pp := { (holdCmd s c).pp with
          commit := some { beat := b, change := x s c, cmd := some c.id, needsGo := false } } } :=
      (runCmd_runs h _).trans (takeCommit_alone _ alone beat)
    exact ⟨fun h => congrArg Host.Outcome.next (runs (fun _ _ => .config) h),
      fun h => congrArg Host.Outcome.next (runs (fun _ c => regionChange c) h),
      fun h => congrArg Host.Outcome.next (runs (fun _ c => regionChange c) h),
      fun h => congrArg Host.Outcome.next (runs (fun _ c => regionChange c) h),
      fun h => congrArg Host.Outcome.next (runs (fun _ c => regionChange c) h),
      fun h => congrArg Host.Outcome.next (runs (fun _ c => .budget (BitVec.ofNat 64 (c.fld 0x18 8)) (c.fld 0x20 1)) h),
      fun h => congrArg Host.Outcome.next (runs (fun _ c => .policy (BitVec.ofNat 64 (c.fld 0x1C 4 * 2 ^ 32 + c.fld 0x18 4))
        (BitVec.ofNat 64 (c.fld 0x24 1 * 2 ^ 32 + c.fld 0x20 4))) h)⟩
  case joined =>
    intro s p c b joined beat runs
    exact ⟨_, congrArg Host.Outcome.next (runCmd_runs runs _), takeCommit_joined _ joined runs.awake beat⟩
  case discard =>
    intro s p c runs rising
    obtain ⟨⟨sh, frame⟩, values⟩ := shadowsBack_spec cfgIds s rising
    rw [frame] at values
    have runs := runCmd_runs runs fun s c => succeed (cfgIds.foldl (fun s id => setShadow s id (cfg s id)) s) c s.pp.epoch 0
    rw [frame] at runs
    exact ⟨_, congrArg Host.Outcome.next runs, fun id hid => values id (.inl hid), rfl⟩

/-! ### THROTTLE, POWER_ENTER, CONSORT_JOIN and CONSORT_LEAVE (R464, R465, R518, R620, R621) -/

/-- Setting the floor of a list of zones changes the zones alone, and each of them has it from the next round. -/
theorem floors_spec (l : List Nat) (v : Nat) (s : State) (h : Rising s.th.zones) :
    (∃ zs, l.foldl (fun s z => updZone s z fun z => { z with floorNext := v }) s = { s with th := { s.th with zones := zs } }) ∧
    ∀ z, zone (l.foldl (fun s z => updZone s z fun z => { z with floorNext := v }) s) z =
      if z ∈ l then { zone s z with floorNext := v } else zone s z := by
  induction l generalizing s with
  | nil => exact ⟨⟨_, rfl⟩, fun z => rfl⟩
  | cons a l ih =>
    obtain ⟨⟨zs, frame⟩, values⟩ := ih (updZone s a fun z => { z with floorNext := v }) (rising_tset _ _ _ _ h)
    refine ⟨⟨zs, frame⟩, fun z => ?_⟩
    rw [List.foldl_cons, values, zone_updZone_self _ _ _ _ h]
    by_cases own : z = a
    · subst own; simp
    · simp [own]

/-- The zones that a THROTTLE names. -/
theorem mem_named (m z : Nat) (h : z < 16) : z ∈ (List.range 16).filter (BitVec.ofNat 16 m).getLsbD ↔ m.testBit z = true := by
  simp only [List.mem_filter, List.mem_range, BitVec.getLsbD_ofNat, h, decide_true, Bool.true_and, true_and]

/-- A mask to which positions are added keeps the positions it has. -/
theorem getLsbD_addAll (l : List Nat) (m : BitVec 4) (p : Nat) (h : m.getLsbD p = true) :
    (l.foldl (fun m p => m ||| (1#4 <<< p)) m).getLsbD p = true := by
  induction l generalizing m with
  | nil => exact h
  | cons a l ih => exact ih _ (by rw [BitVec.getLsbD_or, h, Bool.true_or])

/-- A join that nothing speaks against. -/
theorem joinConsort_joins {s : State} (free : joinReason s = 0) (up : awake s = true) :
    (joinConsort s).cn.joined = true ∧ (joinConsort s).cn.refused = 0 ∧ .join s.cn.pos Config.dieSerial ∈ (joinConsort s).cn.sent ∧
      (s.cn.pos < 4 → (joinConsort s).cn.members.getLsbD s.cn.pos = true) ∧ (joinConsort s).live = s.live ∧
      (joinConsort s).mp = s.mp := by
  unfold joinConsort
  simp only [free, ne_eq, not_true_eq_false, if_false, draw_eq]
  rw [sendFrame_carried (by exact carries_of_awake up (.join s.cn.pos Config.dieSerial)), followTime_frame]
  exact ⟨rfl, rfl, List.mem_cons_self, fun low => getLsbD_addAll _ _ _ (by simp [low]), rfl, rfl⟩

theorem joinConsort_refused {s : State} (reason : joinReason s ≠ 0) :
    (joinConsort s).cn = { s.cn with refused := joinReason s } := by
  unfold joinConsort
  rw [if_pos reason, raise_cn]

/-- Settles O49: THROTTLE zone by zone, the consort's commands by what joining and leaving do. -/
theorem powerAndConsortCommands : Obligations.PowerAndConsortCommands := by
  refine ⟨⟨?throttle, ?enter, ?wait⟩, ?member, ?join, ?refused, ?leave, ?apart⟩
  case throttle =>
    intro s p c runs wf
    obtain ⟨⟨zs, frame⟩, values⟩ := floors_spec ((List.range 16).filter (BitVec.ofNat 16 (c.fld 0x18 2)).getLsbD) (c.fld 0x1A 1) s
      (rising_of_wf _ _ wf)
    refine ⟨_, congrArg Host.Outcome.next (runCmd_runs runs _), fun z hz => ?_, ?_⟩
    · exact (values z).trans (if_congr (mem_named _ z hz) rfl rfl)
    · dsimp only
      rw [frame]
      rfl
  case enter =>
    intro s p c runs alone
    refine congrArg Host.Outcome.next ((runCmd_runs runs _).trans ?_)
    simp only [alone, Bool.false_eq_true, if_false]
    rfl
  case wait =>
    intro s p c runs joined
    refine congrArg Host.Outcome.next ((runCmd_runs runs _).trans ?_)
    simp only [joined, if_true]
  case member =>
    intro s p c runs joined
    refine congrArg Host.Outcome.next ((runCmd_runs runs _).trans ?_)
    simp only [joined, if_true]
    rfl
  case join =>
    intro s p c runs alone free
    refine ⟨_, congrArg Host.Outcome.next ((runCmd_runs runs _).trans (if_neg (by simp [alone]))), ?_⟩
    exact joinConsort_joins free runs.awake
  case refused =>
    intro s p c runs alone reason
    refine ⟨_, congrArg Host.Outcome.next ((runCmd_runs runs _).trans (if_neg (by simp [alone]))), joinConsort_refused reason, _,
      List.mem_append_right _ (List.mem_singleton_self _), rfl, rfl, rfl, rfl⟩
  case leave =>
    intro s p c runs
    refine ⟨_, congrArg Host.Outcome.next (runCmd_runs runs _), ?_, rfl, fun joined => ?_⟩
    · cases joined : s.cn.joined
      · exact joined
      · rfl
    · simp only [joined, if_true]
      exact ⟨rfl, rfl, rfl⟩
  case apart =>
    intro s down
    simp only [joinReason, down, Bool.not_false, if_true]
end Sys2Proof.Proofs.Holds
end

section
/-! Agreements of a consort, step by step, and its wakes. -/
namespace Sys2Proof.Proofs.Agreements
open Sys2Proof Machine Safety Proofs.Commits Proofs.Consort Proofs.Startup

/-! ### Wakes from Sleep (R523, R526) -/

/-- The device in Run again, before its links resume. -/
def woken (s : State) (src : Nat) : State :=
  { s with
    pwr := { s.pwr with
      state := .run, wakes := satAdd 32 s.pwr.wakes 1, wakeSrc := src, asked := none, quietSince := s.clk.beat }
    hl := { s.hl with state := if s.hl.state = .lowPower then .active else s.hl.state, leftActive := none }
    cn := { s.cn with agreed := none }
    ev := { s.ev with wakePending := none } }

/-- The links that resume, the hours that are caught up and the frame that is sent leave clocks, power and host link. -/
theorem wakeFromSleep_same (s : State) (src : Nat) {p : StatePart} (hp : p = .clk ∨ p = .pwr ∨ p = .hl) :
    p.same (woken s src) (wakeFromSleep s src) := by
  have kept : Keeps (allBut p) (woken s src)
      (catchUp (resumeLinks (woken s src) fun _ => true) ((s.clk.beat - s.pwr.sleepSince) / 2 ^ 24) groupFactor) := by
    rcases hp with rfl | rfl | rfl <;> exact catchUp_keeps (resumeLinks_keeps (.refl _ _) rfl) rfl
  refine same_of_keeps (show Keeps (allBut p) (woken s src) (ite _ _ _) from .ite ?_ kept)
  rcases hp with rfl | rfl | rfl <;> exact sendFrame_keeps kept rfl

theorem wakeFromSleep_state (s : State) (src : Nat) : (wakeFromSleep s src).pwr.state = .run :=
  pwr_field (wakeFromSleep_same s src (.inr (.inl rfl))) (·.state)
theorem wakeFromSleep_source (s : State) (src : Nat) : (wakeFromSleep s src).pwr.wakeSrc = src :=
  pwr_field (wakeFromSleep_same s src (.inr (.inl rfl))) (·.wakeSrc)
theorem wakeFromSleep_wakes (s : State) (src : Nat) : (wakeFromSleep s src).pwr.wakes = satAdd 32 s.pwr.wakes 1 :=
  pwr_field (wakeFromSleep_same s src (.inr (.inl rfl))) (·.wakes)
theorem wakeFromSleep_clk (s : State) (src : Nat) : (wakeFromSleep s src).clk = s.clk :=
  wakeFromSleep_same s src (.inl rfl)

/-- A sleeping device with its supplies wakes. -/
theorem wakeNow_asleep {s : State} (src : Nat) (on : s.pwr.supplies = true) (out : s.pwr.inReset = false)
    (asleep : s.pwr.state = .sleep) : wakeNow s src = wakeFromSleep s src := by
  simp only [wakeNow, on, out, asleep, Bool.not_true, Bool.or_self, Bool.false_eq_true, if_false, if_true]

/-! ### Frames of an agreement (R624) -/

section Frames
variable {s : State} {o : Fin 4} {n : BitVec 64}

/-- A PREPARE from a member that finds no agreement. -/
theorem briterPrepare_free {k : ConsortKind} (takes : briterTakes s (.prepare n.toNat k) = true) (joined : s.cn.joined = true)
    (other : o.val ≠ s.cn.pos) (member : s.cn.members.getLsbD o.val = true) (free : s.cn.agreement = none) :
    exec (.briterPrepare o n k) s = .next (if s.pp.commit.isSome then
      sendFrame (heardFrom s o.val (.prepare n.toNat k)) (.nack n.toNat 2)
      else answerPrepare (heardFrom s o.val (.prepare n.toNat k)) o.val n.toNat k) := by
  have here : (heardFrom s o.val (.prepare n.toNat k)).cn.agreement = none := free
  have guard : (!briterTakes s (.prepare n.toNat k) || !s.cn.joined || decide (o.val = s.cn.pos) ||
      !s.cn.members.getLsbD o.val) = false := by rw [takes, joined, member]; simp [other]
  simp only [exec, execBriterPrepare, guard, here, Bool.false_eq_true, if_false]
  rfl

theorem answerPrepare_holds {p m : Nat} (carried : briterCarries s (.ack m 0) = true) (fit : badShadow s = none) :
    answerPrepare s p m .configuration = { s with
      cn := { s.cn with
        agreement := some { origin := p, n := m, kind := .configuration, preparedAt := s.clk.beat }
        sent := .ack m (Config.digest (cfgShadow s 58) (cfgShadow s 59) (cfgShadow s 60)) :: s.cn.sent }
      pp := { s.pp with commit := some { beat := toOwn s m, needsGo := true } } } := by
  simp only [answerPrepare, fit, Option.isSome_none, Bool.false_eq_true, if_false]
  rw [sendFrame_carried (by exact carried)]
  rfl

theorem ownAgreement_found {a : Agreement} {m : Nat} (held : s.cn.agreement = some a) (own : a.origin = s.cn.pos) (slot : a.n = m)
    (fresh : a.go = false) : ownAgreement s m = some a := by
  simp [ownAgreement, held, own, slot, fresh]

theorem peerAgreement_found {a : Agreement} {p m : Nat} (held : s.cn.agreement = some a) (own : a.origin = p) (slot : a.n = m)
    (other : p ≠ s.cn.pos) (fresh : a.go = false) : peerAgreement s p m = some a := by
  simp [peerAgreement, held, own, slot, fresh, other]

/-- The guard of a frame from another position. -/
theorem guard_open {f : BriterFrame} (takes : briterTakes s f = true) (joined : s.cn.joined = true) (other : o.val ≠ s.cn.pos) :
    (!briterTakes s f || !s.cn.joined || decide (o.val = s.cn.pos)) = false := by rw [takes, joined]; simp [other]

/-- Whoever acknowledges is counted. -/
theorem mem_addNew (l : List Nat) (x p : Nat) : p ∈ addNew l x ↔ p = x ∨ p ∈ l := by
  unfold addNew
  split
  · next old => exact ⟨.inr, fun h => h.elim (fun e => e ▸ old) id⟩
  · simp [or_comm]
end Frames

/-- Settles O57: each frame by what its agreement then holds. -/
theorem agreementsRun : Obligations.AgreementsRun := by
  refine ⟨⟨?prepare, ?unfit, ?busy, ?acked, ?differs, ?nack, ?abort, ?late, ?early, ?missed, ?dropped⟩,
    ?command, ?lowest, ?nothing, ?wake, ?deep, ?alone⟩
  case prepare =>
    intro s o n takes joined other member free idle fit
    obtain ⟨-, carried⟩ := (takes_iff _ _).1 takes
    refine ⟨_, (briterPrepare_free takes joined other member free).trans (congrArg Host.Outcome.next
      ((if_neg (by simp [idle])).trans (answerPrepare_holds (carries_of_ordinary (g := .ack n.toNat 0) carried trivial trivial :) fit))), rfl, rfl, rfl⟩
  case unfit =>
    intro s o n takes joined other member free idle unfit
    refine (briterPrepare_free takes joined other member free).trans (congrArg Host.Outcome.next ((if_neg (by simp [idle])).trans ?_))
    exact if_pos unfit
  case busy =>
    intro s o n k takes joined other member free busy
    exact (briterPrepare_free takes joined other member free).trans (congrArg Host.Outcome.next (if_pos busy))
  case acked =>
    intro s o n d a takes joined other held own slot fresh config right all
    obtain ⟨-, carried⟩ := (takes_iff _ _).1 takes
    let u := heardFrom s o.val (.ack n.toNat d)
    have found : ownAgreement (heardFrom s o.val (.ack n.toNat d)) n.toNat = some a := ownAgreement_found held own slot fresh
    have same : d = proposedDigest u := right
    have gone := goIfAcked_acked (s := { u with cn := { u.cn with agreement := some { a with acks := addNew a.acks o.val } } })
      rfl own fresh config (fun p hp => (mem_addNew _ _ _).2 (all p hp)) (carries_of_ordinary (g := .go a.n) carried trivial trivial :)
    refine ⟨_, congrArg Host.Outcome.next (Eq.trans ?_ gone), rfl, rfl, rfl⟩
    rw [if_neg (Bool.eq_false_iff.1 (guard_open takes joined other))]
    simp only [found]
    exact if_neg fun h => absurd same (of_decide_eq_true (Bool.and_eq_true_iff.1 h).2)
  case differs =>
    intro s o n d a takes joined other held own slot fresh config wrong
    have found : ownAgreement (heardFrom s o.val (.ack n.toNat d)) n.toNat = some a := ownAgreement_found held own slot fresh
    have differ : d ≠ proposedDigest (heardFrom s o.val (.ack n.toNat d)) := wrong
    simp only [exec, execBriterAck, guard_open takes joined other, found, config, differ, ne_eq, not_false_eq_true, decide_true,
      Bool.and_self, Bool.false_eq_true, if_false, if_true]
  case nack =>
    intro s o n r a takes joined other held own slot fresh
    have found : ownAgreement (heardFrom s o.val (.nack n.toNat r)) n.toNat = some a := ownAgreement_found held own slot fresh
    simp only [exec, execBriterNack, guard_open takes joined other, found, Option.isSome_some, Bool.false_eq_true, if_false, if_true]
  case abort =>
    intro s o n a takes joined other held own slot fresh
    obtain ⟨up, carried⟩ := (takes_iff _ _).1 takes
    have goes : briterTakes s (.go n.toNat) = true := (takes_iff _ _).2 ⟨up, carries_of_ordinary carried trivial trivial⟩
    have found (f : BriterFrame) : peerAgreement (heardFrom s o.val f) o.val n.toNat = some a :=
      peerAgreement_found held own slot other fresh
    refine ⟨?_, ?_⟩
    · simp only [exec, execBriterAbort, takes, joined, other, found, Option.isSome_some, Bool.not_true, Bool.or_self,
        Bool.false_eq_true, if_false, if_true]
    · refine ⟨_, rfl, ?_⟩
      simp only [goes, joined, other, found, Bool.not_true, Bool.or_self, Bool.false_eq_true, if_false]
      split
      · exact ⟨rfl, fun _ => rfl⟩
      · next power => exact ⟨rfl, fun config => absurd config power⟩
  case late =>
    intro s a up held own fresh late
    simp only [exec, execAgreementAckTimeout, held, up, own, fresh, late, decide_true, Bool.not_false, Bool.and_self, if_true]
  case early =>
    intro s a held early
    have soon : decide (a.preparedAt + 40 ≤ s.clk.beat) = false := decide_eq_false (by omega)
    simp only [exec, execAgreementAckTimeout, held, soon, Bool.and_false, Bool.false_eq_true, if_false]
  case missed =>
    intro s a up held other fresh late
    refine ⟨_, rfl, ?_⟩
    simp only [up, if_true, goMissed, held, ne_eq, other, not_false_eq_true, decide_true, fresh, Bool.not_false, late, Bool.and_self]
    rw [dropAgreement_frame]
    exact ⟨rfl, rfl, rfl⟩
  case dropped =>
    intro s status
    rw [dropAgreement_frame]
    exact ⟨rfl, rfl, rfl⟩
  case command =>
    intro s c st up joined idle asking asked
    obtain ⟨⟨a, held, origin, slot, kind, cmd⟩, -, -⟩ :=
      openAgreement_spec (s := s) (toConsort s s.clk.beat + 128) (.power st) (some c)
    refine ⟨_, a, ?_, held, origin, kind, slot, cmd⟩
    simp only [exec, execPowerPropose, up, joined, idle, asking, asked, Bool.not_true, Bool.or_self, Bool.false_eq_true, if_false]
  case lowest =>
    intro s up joined idle asking low wanted
    obtain ⟨⟨a, held, -, -, kind, cmd⟩, -, -⟩ :=
      openAgreement_spec (s := s) (toConsort s s.clk.beat + 128) (.power (wantedByAll s)) none
    refine ⟨_, a, ?_, held, kind, cmd⟩
    simp only [exec, execPowerPropose, up, joined, idle, asking, low, wanted, decide_true, Bool.and_self, Bool.not_true, Bool.or_self,
      Bool.false_eq_true, if_false, if_true]
  case nothing =>
    intro s why
    refine congrArg Host.Outcome.next (if_pos ?_)
    rcases why with h | h | h <;> simp [h]
  case wake =>
    intro s o joined other on out asleep
    have here : wakeNow (heardFrom s o.val .wake) 5 = wakeFromSleep (heardFrom s o.val .wake) 5 := wakeNow_asleep 5 on out asleep
    have runs : exec (.briterWake o) s = .next (wakeFromSleep (heardFrom s o.val .wake) 5) := by
      rw [← here]
      have shallow : (heardFrom s o.val .wake).pwr.state ≠ .deepSleep := by show s.pwr.state ≠ _; rw [asleep]; decide
      simp only [exec, execBriterWake, joined, other, on, out, shallow, decide_false, Bool.not_true, Bool.or_self, Bool.false_eq_true,
        if_false]
    exact ⟨_, runs, wakeFromSleep_state _ _, wakeFromSleep_source _ _, wakeFromSleep_wakes _ _⟩
  case deep =>
    intro s o joined other on out deep
    refine ⟨_, congrArg Host.Outcome.next ((if_neg (by simp [joined, other, on, out])).trans (if_pos deep)), rfl, rfl⟩
  case alone =>
    intro s o alone
    exact congrArg Host.Outcome.next (if_pos (by simp [alone]))
end Sys2Proof.Proofs.Agreements
end

section
/-! Members of a consort: what a status, a join, an access, a loss and a slew leave. -/
namespace Sys2Proof.Proofs.Members
open Sys2Proof Machine Safety Proofs.Commits Proofs.Consort Proofs.Agreements Proofs.Layout

/-- A status needs no state of its own: the link up takes it. -/
theorem takes_status (s : State) (st : PeerStatus) : briterTakes s (.status st) = briterUp s := by
  simp [briterTakes, briterCarries]

theorem exec_briterStatus {s : State} {o : Fin 4} {st : PeerStatus} (up : briterUp s = true) (other : o.val ≠ s.cn.pos) :
    exec (.briterStatus o st) s = .next (
      let t := { heardFrom s o.val (.status st) with
        cn := { (heardFrom s o.val (.status st)).cn with peers := tset none s.cn.peers o.val (some st) } }
      if s.cn.joined then (if o.val = (pickLeaders t).cn.timeLeader then followTime (pickLeaders t) else pickLeaders t) else t) :=
  congrArg Host.Outcome.next (if_neg (by rw [takes_status, up]; simp [other]))

/-- The serial by which a device holds a position of the consort, or 0. -/
def heldSerial (s : State) (p : Nat) : BitVec 64 :=
  if p = s.cn.pos then (if s.cn.joined then Config.dieSerial else 0) else if s.cn.members.getLsbD p then tget 0 s.cn.serials p else 0

/-- Why a device may not join, or 0 (R620). -/
def refusal (s : State) (p : Nat) (serial : BitVec 64) (st : PeerStatus) : Nat :=
  if st.compat ≠ 1#32 then 1 else if heldSerial s p ≠ 0 && (heldSerial s p).toNat < serial.toNat then 2
  else if st.digest ≠ liveDigest s then 3 else 0

section
variable {s : State} {o : Fin 4} {serial : BitVec 64} {st : PeerStatus}

/-- A member names the device that it refuses. -/
theorem exec_briterJoin_refused (takes : briterTakes s (.join o.val serial) = true) (joined : s.cn.joined = true)
    (refused : refusal s o.val serial st ≠ 0) :
    exec (.briterJoin o serial st) s =
      .next (raise (heardFrom s o.val (.join o.val serial)) 0x82 srcConsort (refusal s o.val serial st) o.val 0 0) :=
  congrArg Host.Outcome.next ((if_neg (by simp [takes])).trans (if_pos (Bool.and_eq_true_iff.2 ⟨joined, decide_eq_true refused⟩)))

/-- A member admits the device that it does not refuse. -/
theorem exec_briterJoin_admitted (takes : briterTakes s (.join o.val serial) = true) (joined : s.cn.joined = true)
    (other : o.val ≠ s.cn.pos) (agrees : refusal s o.val serial st = 0) :
    exec (.briterJoin o serial st) s = .next (pickLeaders { s with cn := { (heardFrom s o.val (.join o.val serial)).cn with
        serials := tset 0 s.cn.serials o.val serial, peers := tset none s.cn.peers o.val (some st)
        members := s.cn.members ||| (1#4 <<< o.val) } }) := by
  have open_ : ¬ (s.cn.joined && decide (refusal s o.val serial st ≠ 0)) = true := by simp [agrees]
  exact congrArg Host.Outcome.next ((if_neg (by simp [takes])).trans ((if_neg open_).trans ((if_neg other).trans (if_pos joined))))

theorem refusal_of_agrees (other : o.val ≠ s.cn.pos) (compat : st.compat = 1#32)
    (higher : s.cn.members.getLsbD o.val = false ∨ tget 0 s.cn.serials o.val = 0#64 ∨
      serial.toNat ≤ (tget 0 s.cn.serials o.val).toNat) (digest : st.digest = liveDigest s) : refusal s o.val serial st = 0 := by
  have free : ¬ (decide (heldSerial s o.val ≠ 0) && decide ((heldSerial s o.val).toNat < serial.toNat)) = true := by
    rw [heldSerial, if_neg other, Bool.and_eq_true_iff, decide_eq_true_eq, decide_eq_true_eq]
    rintro ⟨held, lower⟩
    split at held
    · next member =>
      rw [if_pos member] at lower
      rcases higher with h | h | h
      · rw [h] at member; cases member
      · exact held h
      · omega
    · exact held rfl
  rw [refusal, if_neg (not_not.2 compat), if_neg free, if_neg (not_not.2 digest)]

theorem refusal_of_differs (h : st.compat ≠ 1#32 ∨ st.digest ≠ liveDigest s) : refusal s o.val serial st ≠ 0 := by
  unfold refusal
  split
  · decide
  split
  · decide
  · next agrees _ => rw [if_pos (h.resolve_left agrees)]; decide

/-- The access of a member's peer to a semaphore. -/
theorem exec_briterReg {n : Fin 64} {write : Bool} (takes : briterTakes s (.reg n.val 0) = true) (joined : s.cn.joined = true)
    (member : s.cn.members.getLsbD o.val = true) (other : o.val ≠ s.cn.pos) :
    exec (.briterReg o n write) s = .next (
      let t := heardFrom s o.val (.reg n.val 0)
      let m := BitVec.ofNat 8 (0x30 + o.val)
      if write then sendFrame (semaRelease t m n.val) (.reg n.val ((tget none (semaRelease t m n.val).pp.sema n.val).getD 0).toNat)
      else sendFrame (semaTake t m n.val).1 (.reg n.val (semaTake t m n.val).2.toNat)) :=
  congrArg Host.Outcome.next (if_neg (by rw [takes, joined, member]; simp [other]))
end

theorem semaTake_free {s : State} {m : Byte} {n : Nat} (free : tget none s.pp.sema n = none) :
    semaTake s m n = ({ s with pp := { s.pp with sema := tset none s.pp.sema n (some m) } }, m) := by
  unfold semaTake; rw [free]

theorem semaTake_held {s : State} {m h : Byte} {n : Nat} (held : tget none s.pp.sema n = some h) : semaTake s m n = (s, h) := by
  unfold semaTake; rw [held]

/-- A frame sent leaves the semaphores. -/
theorem sendFrame_sema (s : State) (f : BriterFrame) : (sendFrame s f).pp.sema = s.pp.sema := by rw [sendFrame_frame]

/-- A lost member leaves the mask, and holds no semaphore. -/
theorem loseMember_spec (s : State) (p : Nat) :
    (loseMember s p).cn.members = s.cn.members &&& ~~~(1#4 <<< p) ∧
      ∀ x ∈ (loseMember s p).pp.sema, x.2 ≠ some (BitVec.ofNat 8 (0x30 + p)) := by
  let t := releaseSemas (raise { s with cn := { s.cn with members := s.cn.members &&& (~~~ (1#4 <<< p) : BitVec 4) } }
    0x80 srcConsort p 0 0 0) (BitVec.ofNat 8 (0x30 + p))
  have members : t.cn.members = s.cn.members &&& ~~~(1#4 <<< p) :=
    congrArg (·.members) (raise_cn { s with cn := { s.cn with members := s.cn.members &&& (~~~ (1#4 <<< p) : BitVec 4) } }
      0x80 srcConsort p 0 0 0)
  have free : ∀ x ∈ t.pp.sema, x.2 ≠ some (BitVec.ofNat 8 (0x30 + p)) := fun x hx => by
    simpa using (List.mem_filter.1 hx).2
  have dropped : (dropAgreement t 8).cn.members = t.cn.members ∧ (dropAgreement t 8).pp.sema = t.pp.sema := by
    rw [dropAgreement_frame]; exact ⟨rfl, rfl⟩
  have unfolded : ∃ u, loseMember s p = pickLeaders u ∧ u.cn.members = t.cn.members ∧ u.pp.sema = t.pp.sema := by
    refine ⟨_, rfl, ?_⟩
    split
    · split
      · exact dropped
      · exact ⟨rfl, rfl⟩
    · exact ⟨rfl, rfl⟩
  obtain ⟨u, lost, sameMembers, sameSema⟩ := unfolded
  rw [lost]
  exact ⟨sameMembers.trans members, fun x hx => free x (sameSema ▸ hx)⟩

/-- Frames whose CRC is wrong, within 1,024 beats, this one included. -/
theorem exec_briterCrcFail {s : State} {f : BitVec 64} (up : briterUp s = true) (wrong : crc8 f ≠ f.toNat % 256) :
    exec (.briterCrcFail f) s = .next (
      let recent := s.clk.beat :: s.cn.crcAt.filter fun b => s.clk.beat < b + 1024
      if 8 ≤ recent.length then briterFault { s with cn := { s.cn with crcAt := recent } }
      else { s with cn := { s.cn with crcAt := recent } }) :=
  congrArg Host.Outcome.next (if_neg (by rw [up]; simpa [fld] using wrong))

/-- Settles O56: joining by what a member refuses, semaphores and losses by what they leave, the slew by its gap. -/
theorem membersAndTheirTime : Obligations.MembersAndTheirTime := by
  refine ⟨⟨?status, ?memberStatus, ?noStatus, ?send, ?noSend, ?agrees, ?refuse, ?noJoin⟩,
    ?take, ?held, ?release, ?misuse, ?align, ?aligned, ?slew, ?jump, ?lost, ?heard, ?intact, ?wrong, ?fault⟩
  case status =>
    intro s o st up other alone
    exact (exec_briterStatus up other).trans (congrArg Host.Outcome.next ((if_neg (by simp [alone])).trans (by
      simp only [heardFrom, alone, Bool.false_and, Bool.false_eq_true, if_false])))
  case memberStatus =>
    intro s o st up other joined
    have relayed : (heardFrom s o.val (.status st)).cn.relayed = (o.val, .status st) :: s.cn.relayed :=
      if_pos (by simp [joined, other])
    refine ⟨_, (exec_briterStatus up other).trans (congrArg Host.Outcome.next (if_pos joined)), ?_⟩
    dsimp only
    split
    · rw [followTime_frame]
      exact ⟨rfl, rfl, relayed, rfl, rfl, rfl⟩
    · exact ⟨rfl, rfl, relayed, rfl, rfl, rfl⟩
  case noStatus =>
    intro s o st why
    refine congrArg Host.Outcome.next (if_pos ?_)
    rw [takes_status]
    rcases why with h | h <;> simp [h]
  case send =>
    intro s up joined
    refine congrArg Host.Outcome.next ((if_pos (by simp [up, joined])).trans ?_)
    exact sendFrame_carried rfl
  case noSend =>
    intro s why
    refine congrArg Host.Outcome.next (if_neg ?_)
    rcases why with h | h <;> simp [h]
  case agrees =>
    intro s o serial st takes joined other compat higher digest
    exact ⟨_, exec_briterJoin_admitted takes joined other (refusal_of_agrees other compat higher digest), rfl, rfl, rfl, rfl⟩
  case refuse =>
    intro s o serial st takes joined why
    have refused : refusal s o.val serial st ≠ 0 := refusal_of_differs (why.imp_right (·.2))
    have cn := raise_cn (heardFrom s o.val (.join o.val serial)) 0x82 srcConsort (refusal s o.val serial st) o.val 0 0
    refine ⟨_, exec_briterJoin_refused takes joined refused, by rw [cn]; rfl, by rw [cn]; rfl, ?_⟩
    rw [cn]
    exact raise_reports (.refl _) _ _ _ _ _ _
  case noJoin =>
    intro s o serial st down
    exact congrArg Host.Outcome.next (if_pos (by simp [briterTakes, down]))
  case take =>
    intro s o n takes joined member other free
    obtain ⟨-, carried⟩ := (takes_iff _ _).1 takes
    refine ⟨_, (exec_briterReg takes joined member other).trans (congrArg Host.Outcome.next (if_neg (by decide))), ?_⟩
    have sends : briterCarries s (.reg n.val (BitVec.ofNat 8 (0x30 + o.val)).toNat) = true :=
      carries_of_ordinary carried trivial trivial
    rw [semaTake_free (by exact free), sendFrame_carried (by exact sends)]
    refine ⟨tget_tset_val _ _ _ _ (by simp), ?_⟩
    have small : (BitVec.ofNat 8 (0x30 + o.val)).toNat = 0x30 + o.val := by
      rw [BitVec.toNat_ofNat]; have := o.isLt; omega
    rw [small]
    rfl
  case held =>
    intro s o n h takes joined member other held
    obtain ⟨-, carried⟩ := (takes_iff _ _).1 takes
    refine ⟨_, (exec_briterReg takes joined member other).trans (congrArg Host.Outcome.next (if_neg (by decide))), ?_⟩
    have sends : briterCarries s (.reg n.val h.toNat) = true := carries_of_ordinary carried trivial trivial
    rw [semaTake_held (by exact held), sendFrame_carried (by exact sends)]
    exact ⟨rfl, rfl⟩
  case release =>
    intro s o n takes joined member other own
    refine ⟨_, (exec_briterReg takes joined member other).trans (congrArg Host.Outcome.next (if_pos rfl)), ?_⟩
    rw [sendFrame_sema, semaRelease, if_pos (by exact own)]
    rfl
  case misuse =>
    intro s o n takes joined member other foreign
    refine ⟨_, (exec_briterReg takes joined member other).trans (congrArg Host.Outcome.next (if_pos rfl)), ?_⟩
    rw [sendFrame_sema, semaRelease, if_neg (by exact foreign), raise_sema]
    rfl
  case align =>
    intro s ahead up joined follows late
    exact congrArg Host.Outcome.next (if_pos (by simp [up, joined, follows, late]))
  case aligned =>
    intro s ahead soon
    have early : decide (s.clk.lastAdjust + 1024 ≤ s.clk.beat) = false := decide_eq_false (by omega)
    exact congrArg Host.Outcome.next (if_neg (by simp only [early, Bool.and_false, Bool.false_eq_true, not_false_eq_true]))
  case slew =>
    intro s up follows known near late apart
    have gap : leaderDiff s - s.cn.slew ≠ 0 := sub_ne_zero.2 apart
    refine ⟨_, congrArg Host.Outcome.next ((if_neg (by simp [up, follows, Option.isNone_iff_eq_none, Option.isSome_iff_ne_none.1 known])).trans
      ((if_neg (not_lt.2 near)).trans (if_pos (by simp [late, gap])))), ?_⟩
    rw [followTime_cn]
    simp only [sub_pos]
  case jump =>
    intro s up follows known far
    refine ⟨_, congrArg Host.Outcome.next ((if_neg (by simp [up, follows, Option.isNone_iff_eq_none, Option.isSome_iff_ne_none.1 known])).trans
      (if_pos far)), ?_⟩
    rw [followTime_cn, raise_cn]
  case lost =>
    intro s p up joined member other silent
    obtain ⟨members, free⟩ := loseMember_spec s p.val
    refine ⟨_, congrArg Host.Outcome.next (if_pos ?_), members, free⟩
    rw [up, joined, member]
    simp [other, silent]
  case heard =>
    intro s p recent
    have heard : decide (tget 0 s.cn.heard p.val + 64 ≤ s.clk.beat) = false := decide_eq_false (by omega)
    exact congrArg Host.Outcome.next (if_neg (by simp only [heard, Bool.and_false, Bool.false_eq_true, not_false_eq_true]))
  case intact =>
    intro s f right
    exact congrArg Host.Outcome.next (if_pos (by simp [fld, right]))
  case wrong =>
    intro s f up wrong few
    exact (exec_briterCrcFail up wrong).trans (congrArg Host.Outcome.next (if_neg (by rw [List.length_cons]; omega)))
  case fault =>
    intro s f up wrong many
    exact (exec_briterCrcFail up wrong).trans (congrArg Host.Outcome.next (if_pos (by rw [List.length_cons]; omega)))
end Sys2Proof.Proofs.Members
end

section
/-! The recorder: what a raised event writes, the recorder's timers, and the capture packets. -/
namespace Sys2Proof.Proofs.Recorder
open Sys2Proof Machine Safety

/-! ### What writing a record leaves: all but the ring, and the destinations of its class (R594, R597, R602) -/

/-- A state without the destinations of a record besides the ring. -/
def unrecorded (s : State) : State :=
  { s with hl := {}, pp := {}, kp := {}, ev := { s.ev with queues := [], crits := 0, critWait := [], thisBeat := 0 } }

theorem unrecorded_writeBytes (s : State) (a : Nat) (bs : List Byte) : unrecorded (writeBytes s a bs) = unrecorded s := rfl
theorem unrecorded_updCapQ (s : State) (q : Nat) (f : CapQ → CapQ) : unrecorded (updCapQ s q f) = unrecorded s := rfl
theorem unrecorded_signalVector (s : State) (v : Nat) : unrecorded (signalVector s v) = unrecorded s := rfl
theorem unrecorded_critAppend (s : State) (r : EvRec) : unrecorded (critAppend s r) = unrecorded s := rfl

theorem unrecorded_packetClose (s : State) (q reason : Nat) : unrecorded (packetClose s q reason) = unrecorded s := by
  unfold packetClose
  dsimp only
  split
  · rfl
  · rw [unrecorded_updCapQ, unrecorded_signalVector, unrecorded_writeBytes]
    split
    · rw [unrecorded_writeBytes]
    · rfl

theorem unrecorded_capPut (s : State) (q : Nat) (bs : List Byte) : unrecorded (capPut s q bs) = unrecorded s := by
  unfold capPut
  dsimp only
  split
  · rfl
  split
  · rw [unrecorded_packetClose]; rfl
  · rfl

theorem unrecorded_cxlLogPut (s : State) (log : Nat) (k : CxlKind) (r : EvRec) : unrecorded (cxlLogPut s log k r) = unrecorded s := by
  unfold cxlLogPut
  dsimp only
  split <;> rfl

theorem unrecorded_routeClass (s : State) (r : EvRec) : unrecorded (routeClass s r) = unrecorded s := by
  unfold routeClass
  split
  · have signalled : unrecorded (signalVector (cxlLogPut s 3 .vendor r) 3) = unrecorded s := by
      rw [unrecorded_signalVector, unrecorded_cxlLogPut]
    dsimp only
    split
    · exact signalled
    · rw [unrecorded_critAppend, signalled]
  split
  · rw [unrecorded_signalVector, unrecorded_cxlLogPut]
  split
  · exact unrecorded_cxlLogPut _ _ _ _
  split
  · exact unrecorded_cxlLogPut _ _ _ _
  · exact unrecorded_cxlLogPut _ _ _ _

/-- The record as it is written: with GAP when one was missed and the ring is not frozen. -/
def gapped (s : State) (r : EvRec) : EvRec := { r with gap := s.ev.gap && !s.ev.frozen }

theorem unrecorded_thisBeat (s : State) (n : Nat) : unrecorded { s with ev := { s.ev with thisBeat := n } } = unrecorded s := rfl

theorem unrecorded_capPuts (s : State) (r : EvRec) : unrecorded ((List.range 8).foldl
    (fun s q => if (capQ s q).classes.getLsbD r.cls then capPut s q r.bytes else s) s) = unrecorded s := by
  refine foldl_keeps unrecorded _ (fun t q => ?_) _ _
  split
  · exact unrecorded_capPut _ _ _
  · rfl

theorem unrecorded_writeRecord (s : State) (r : EvRec) : unrecorded (writeRecord s r) = unrecorded (ringPut s (gapped s r)) :=
  (unrecorded_routeClass _ _).trans ((unrecorded_thisBeat _ _).trans (unrecorded_capPuts _ _))

/-- What writing a record leaves, beside the ring. -/
theorem writeRecord_frame (s : State) (r : EvRec) : writeRecord s r =
    { ringPut s (gapped s r) with
      hl := (writeRecord s r).hl, pp := (writeRecord s r).pp, kp := (writeRecord s r).kp
      ev := { (ringPut s (gapped s r)).ev with
        queues := (writeRecord s r).ev.queues, crits := (writeRecord s r).ev.crits
        critWait := (writeRecord s r).ev.critWait, thisBeat := (writeRecord s r).ev.thisBeat } } :=
  congrArg (fun u : State => { u with
    hl := (writeRecord s r).hl, pp := (writeRecord s r).pp, kp := (writeRecord s r).kp
    ev := { u.ev with
      queues := (writeRecord s r).ev.queues, crits := (writeRecord s r).ev.crits
      critWait := (writeRecord s r).ev.critWait, thisBeat := (writeRecord s r).ev.thisBeat } }) (unrecorded_writeRecord s r)

/-- A ring that is not frozen takes the record at HEAD. -/
theorem writeRecord_thawed {s : State} (r : EvRec) (thawed : s.ev.frozen = false) :
    (writeRecord s r).ev.head = s.ev.head + 1 ∧
      (writeRecord s r).ev.ring = tset none s.ev.ring (s.ev.head % 65536) (some (gapped s r)) := by
  have ring : ringPut s (gapped s r) = { s with ev := { s.ev with
    ring := tset none s.ev.ring (s.ev.head % 65536) (some (gapped s r)), head := s.ev.head + 1, gap := false } } :=
    if_neg (by simp [thawed])
  rw [writeRecord_frame, ring]
  exact ⟨rfl, rfl⟩

/-- A frozen ring counts it. -/
theorem writeRecord_frozen {s : State} (r : EvRec) (frozen : s.ev.frozen = true) :
    (writeRecord s r).ev.head = s.ev.head ∧ (writeRecord s r).ev.ring = s.ev.ring ∧
      (writeRecord s r).ev.frozenCount = satAdd 32 s.ev.frozenCount 1 := by
  have ring : ringPut s (gapped s r) = { s with ev := { s.ev with frozenCount := satAdd 32 s.ev.frozenCount 1 } } :=
    if_pos frozen
  rw [writeRecord_frame, ring]
  exact ⟨rfl, rfl, rfl⟩

/-! ### What raising an event makes of it (R590, R591, R595, R596) -/

/-- The record of an event, and the recorder as it reaches it: its token spent, ALERT_N's interval begun. -/
theorem raise_arrives {s : State} {code cls : Nat} (source p0 p1 p2 p3 : Nat) (known : evClass code = some cls)
    (token : cls = 4 ∨ code = 0x32 ∨ 0 < (bucket s code).tokens) :
    ∃ (t : State) (r : EvRec), raise s code source p0 p1 p2 p3 = arrive t r ∧
      (∃ b, t.ev = { s.ev with buckets := b }) ∧
      r.code = code ∧ r.cls = cls ∧ r.source = source % 256 ∧ r.p0 = p0 % 2 ^ 32 ∧ r.p1 = p1 % 2 ^ 32 ∧
      r.p2 = p2 % 2 ^ 32 ∧ r.p3 = p3 % 2 ^ 32 := by
  have passes : ¬ ((decide (cls ≠ 4) && decide (code ≠ 0x32)) && decide ((bucket s code).tokens = 0)) = true := by
    simp only [Bool.and_eq_true, decide_eq_true_eq]
    rintro ⟨⟨other, plain⟩, empty⟩
    rcases token with h | h | h
    · exact other h
    · exact plain h
    · omega
  unfold raise
  rw [known]
  dsimp only
  rw [if_neg passes]
  refine ⟨_, _, rfl, ?_, rfl, rfl, rfl, rfl, rfl, rfl, rfl⟩
  split
  · split <;> exact ⟨_, rfl⟩
  · split <;> exact ⟨_, rfl⟩

/-- Without a token the event is suppressed. -/
theorem raise_suppressed {s : State} {code cls : Nat} (source p0 p1 p2 p3 : Nat) (known : evClass code = some cls) (other : cls ≠ 4)
    (plain : code ≠ 0x32) (empty : (bucket s code).tokens = 0) :
    ∃ b, raise s code source p0 p1 p2 p3 =
      { s with ev := { s.ev with buckets := b, suppressed := satAdd 32 s.ev.suppressed 1 } } := by
  unfold raise
  rw [known]
  dsimp only
  rw [if_pos (by simp [other, plain, empty])]
  exact ⟨_, rfl⟩

/-- An idle recorder writes the record at once. -/
theorem arrive_idle {s : State} (r : EvRec) (between : s.ev.inCycle = none) (idle : s.ev.intake = []) (room : s.ev.thisBeat < 16) :
    arrive s r = writeRecord s r := by
  unfold arrive
  rw [between]
  exact if_pos (by simp [idle, room])

/-- While a boundary's cycle runs the record waits in its place. -/
theorem arrive_cycle {s : State} {l : List EvRec} (r : EvRec) (within : s.ev.inCycle = some l) :
    arrive s r = { s with ev := { s.ev with inCycle := some (cycleOrder r l) } } := by
  unfold arrive
  rw [within]

/-- Settles O7: an event by its token, and a record by the state of the ring that it reaches. -/
theorem eventsReachTheRing : Obligations.EventsReachTheRing := by
  refine ⟨fun s => raise_reports (.refl s), ?awake, ?suppressed, ?written, ?frozen, ?cycle⟩
  case awake =>
    intro s code source p0 p1 p2 p3 up
    exact congrArg Host.Outcome.next (if_pos up)
  case suppressed =>
    intro s code source p0 p1 p2 p3 cls known other plain empty
    obtain ⟨b, e⟩ := raise_suppressed source p0 p1 p2 p3 known other plain empty
    rw [e]
    exact ⟨rfl, rfl, rfl⟩
  case written =>
    intro s code source p0 p1 p2 p3 cls known token between idle room thawed
    obtain ⟨t, r, e, ⟨b, ev⟩, fields⟩ := raise_arrives source p0 p1 p2 p3 known token
    rw [e, arrive_idle r (by rw [ev]; exact between) (by rw [ev]; exact idle) (by rw [ev]; exact room)]
    obtain ⟨head, ring⟩ := writeRecord_thawed r (s := t) (by rw [ev]; exact thawed)
    exact ⟨by rw [head, ev], gapped t r, by rw [ring, ev], fields⟩
  case frozen =>
    intro s code source p0 p1 p2 p3 cls known token between idle room frozen
    obtain ⟨t, r, e, ⟨b, ev⟩, -⟩ := raise_arrives source p0 p1 p2 p3 known token
    rw [e, arrive_idle r (by rw [ev]; exact between) (by rw [ev]; exact idle) (by rw [ev]; exact room)]
    obtain ⟨head, ring, count⟩ := writeRecord_frozen r (s := t) (by rw [ev]; exact frozen)
    exact ⟨by rw [head, ev], by rw [ring, ev], by rw [count, ev]⟩
  case cycle =>
    intro s code source p0 p1 p2 p3 cls l known token within
    obtain ⟨t, r, e, ⟨b, ev⟩, code, -, source, -⟩ := raise_arrives source p0 p1 p2 p3 known token
    rw [e, arrive_cycle r (l := l) (by rw [ev]; exact within)]
    exact ⟨r, rfl, code, source, by rw [ev], by rw [ev]⟩

/-! ### Timers and packets (R595, R599, R604, R605, R612, R614, R657) -/

/-- Closing a packet that holds a record. -/
theorem capQ_packetClose {s : State} {q : Nat} (reason : Nat) (holds : (capQ s q).count ≠ 0) :
    (capQ (packetClose s q reason) q).prod = 4096 * ((capQ s q).prod / 4096 + 1) ∧ (capQ (packetClose s q reason) q).count = 0 := by
  have closed : ∃ t : State, packetClose s q reason = updCapQ t q fun c => { c with
      prod := 4096 * ((capQ s q).prod / 4096 + 1), count := 0, lostBefore := 0
      opened := decide (4096 * ((capQ s q).prod / 4096) ≤ c.rel) } := by
    unfold packetClose
    dsimp only
    rw [if_neg holds]
    exact ⟨_, rfl⟩
  obtain ⟨t, e⟩ := closed
  have changed : capQ (packetClose s q reason) q = { capQ t q with
      prod := 4096 * ((capQ s q).prod / 4096 + 1), count := 0, lostBefore := 0
      opened := decide (4096 * ((capQ s q).prod / 4096) ≤ (capQ t q).rel) } := by
    rw [e]
    exact tget_tset_val _ _ _ _ fun same => by
      have prod := congrArg CapQ.prod same
      dsimp only at prod
      omega
  rw [changed]
  exact ⟨rfl, rfl⟩

/-- Two stores to SRAM and a snapshot's number. -/
theorem twoWrites_frame (s : State) (a b : Nat) (x y : List Byte) (n : Nat) : ∃ sram bad,
    { writeBytes (writeBytes s a x) b y with ev := { (writeBytes (writeBytes s a x) b y).ev with dumps := n } } =
      { s with pp := { s.pp with sram := sram, badBytes := bad }, ev := { s.ev with dumps := n } } := ⟨_, _, rfl⟩

/-- Snapshot `n` of beat `b` at one place, with its user copy at another. -/
def dumped (s : State) (place user n b : Nat) : State :=
  let t := writeBytes s place (snapshotBytes s n b false)
  let u := writeBytes t user (snapshotBytes t n b true)
  { u with ev := { u.ev with dumps := n } }

theorem dumped_frame (s : State) (place user n b : Nat) : ∃ sram bad, dumped s place user n b = { s with
    pp := { s.pp with sram := sram, badBytes := bad }, ev := { s.ev with dumps := n } } :=
  twoWrites_frame s place user (snapshotBytes s n b false) (snapshotBytes (writeBytes s place (snapshotBytes s n b false)) n b true) n

/-- A dump boundary: the settings in force from it, and the snapshot that they ask for. -/
theorem snapshot_eq (s : State) (b : Nat) : snapshot s b =
    let set := s.ev.dumpNext.getD (s.ev.dumpK, s.ev.dumpOn)
    let t := { s with ev := { s.ev with dumpK := set.1, dumpOn := set.2, dumpNext := none, lastDump := some b } }
    if set.2 && (s.ev.dumpOn || b % 2 ^ set.1 = 0) then
      dumped t (telBase + (s.ev.dumps + 1) % 2 * 0x4000) (telBase + 0x8000 + (s.ev.dumps + 1) % 2 * 0x4000) (s.ev.dumps + 1) b
    else t := rfl

/-- The snapshot at a dump boundary with no new setting. -/
theorem snapshot_on {s : State} {b : Nat} (on : s.ev.dumpOn = true) (same : s.ev.dumpNext = none) :
    ∃ place user, snapshot s b = dumped { s with ev := { s.ev with lastDump := some b } } place user (s.ev.dumps + 1) b := by
  have settings : { s.ev with dumpK := s.ev.dumpK, dumpOn := true, dumpNext := none, lastDump := some b } =
      { s.ev with lastDump := some b } := by rw [← on, ← same]
  refine ⟨telBase + (s.ev.dumps + 1) % 2 * 0x4000, telBase + 0x8000 + (s.ev.dumps + 1) % 2 * 0x4000, ?_⟩
  rw [snapshot_eq]
  simp only [same, on, Option.getD_none, Bool.true_or, Bool.and_self, if_true]

/-- Settles O8: the timers by their guards, a freeze that ends by the record that it writes, a packet by how it closes. -/
theorem recorderTimersAndPackets : Obligations.RecorderTimersAndPackets := by
  refine ⟨⟨?refill, ?freeze, ?alert, ?window, ?snapshot⟩, ?close, ?opens⟩
  case refill =>
    intro s code cls known other plain rate due
    have open_ : ¬ (decide (cls = 4) || decide (code = 0x32)) = true := by simp [other, plain]
    have refills : refill s.clk.beat (bucket s code) = { bucket s code with
        last := (bucket s code).last + 2 ^ 24 / (bucket s code).rate
        tokens := min (bucket s code).burst ((bucket s code).tokens + 1) } :=
      if_neg (by simp only [Bool.or_eq_true, decide_eq_true_eq]; omega)
    have changed : updBucket s code (refill s.clk.beat) = updBucket s code fun b =>
        { b with last := b.last + 2 ^ 24 / b.rate, tokens := min b.burst (b.tokens + 1) } :=
      congrArg (fun b => { s with ev := { s.ev with buckets := tset {} s.ev.buckets code b } }) refills
    simp only [exec, execTokenRefill, known, if_neg open_, changed]
  case freeze =>
    intro s frozen due
    have ends : (s.ev.frozen && decide (s.ev.freezeAt + 2 ^ 28 ≤ s.clk.beat)) = true := by rw [frozen, decide_eq_true due]; rfl
    refine ⟨_, congrArg Host.Outcome.next (if_pos ends), ?_⟩
    obtain ⟨head, ring⟩ := writeRecord_thawed (s := thaw s)
      { code := 0xF0, source := srcDevice, time := BitVec.ofNat 64 (eventTime s), p0 := s.ev.frozenCount % 2 ^ 32 } rfl
    refine ⟨?_, head, ⟨_, ring, rfl, rfl, by simp [gapped, thaw, frozen]⟩, ?_⟩
    · rw [writeRecord_frame, ringPut, if_neg (by simp [thaw])]
      rfl
    · rw [writeRecord_frame, ringPut, if_neg (by simp [thaw])]
      rfl
  case alert =>
    intro s b held due
    simp only [exec, execAlertNExpire, held, if_pos due]
  case window =>
    intro s m up windowed due
    exact congrArg Host.Outcome.next (if_pos (by simp [up, windowDue, windowed, due]))
  case snapshot =>
    intro s up on same at' fresh
    refine ⟨_, congrArg Host.Outcome.next (if_pos (by simp [up, dumpDue, at', fresh])), ?_⟩
    obtain ⟨place, user, takes⟩ := snapshot_on (b := s.clk.beat + 1) on same
    obtain ⟨sram, bad, e⟩ := dumped_frame { s with ev := { s.ev with lastDump := some (s.clk.beat + 1) } } place user
      (s.ev.dumps + 1) (s.clk.beat + 1)
    rw [takes, e]
    exact ⟨rfl, rfl, rfl⟩
  case close =>
    intro s q reason holds
    obtain ⟨prod, count⟩ := capQ_packetClose reason holds
    refine ⟨fun timed due => ?_, fun up => ?_, prod, count, packetClose_reports (.refl s) _ _ q.isLt⟩
    · exact congrArg Host.Outcome.next (if_pos (by simp [holds, timed, due]))
    · exact congrArg Host.Outcome.next (if_pos up)
  case opens =>
    intro s q free
    exact congrArg (fun c => Host.Outcome.next { s with ev := { s.ev with queues := tset {} s.ev.queues q.val c } })
      (if_pos (.inr free) : (if (capQ s q.val).prod / 4096 ≤ 1 ∨ _ then _ else _) = _)
end Sys2Proof.Proofs.Recorder
end

section
/-! Telemetry commands of a pipe. -/
namespace Sys2Proof.Proofs.Telemetry
open Sys2Proof Machine Safety

/-- What a release up to a line leaves of a queue: no further than PROD and the mark, never backwards (R606). -/
def released (upTo : Nat) (x : CapQ) : CapQ :=
  { x with rel := max x.rel (match x.mark with | some m => min (min upTo (capProd x)) m | none => min upTo (capProd x)) }

theorem released_bounds (upTo : Nat) (x : CapQ) :
    x.rel ≤ (released upTo x).rel ∧ (released upTo x).rel ≤ max x.rel (min upTo (capProd x)) ∧
      (x.mark = none → (released upTo x).rel = max x.rel (min upTo (capProd x))) ∧
      ∀ m, x.mark = some m → (released upTo x).rel ≤ max x.rel m := by
  unfold released
  cases x.mark with
  | none => exact ⟨le_max_left _ _, le_refl _, fun _ => rfl, fun _ h => (by cases h)⟩
  | some m =>
    refine ⟨le_max_left _ _, max_le_max_left _ (min_le_left _ _), fun h => (by cases h), fun n h => ?_⟩
    cases h
    exact max_le_max_left _ (min_le_right _ _)

/-- Settles O9: each command by its effect on a state that passes its checks, a release by its bounds. -/
theorem telemetryCommands : Obligations.TelemetryCommands := by
  refine ⟨?program, ?dump, ?sample, ?sources, ?closing, ?mark, ?rewind, ?release, ?freeze, ?frozen, ?thaw, ?rate⟩
  case program | dump | sample | mark | rate =>
    intro s p c runs
    exact congrArg Host.Outcome.next (runCmd_runs runs _)
  case sources =>
    intro s p c runs stays
    refine congrArg Host.Outcome.next ((runCmd_runs runs _).trans ?_)
    dsimp only
    rw [if_neg (Nat.not_le.2 stays)]
    rfl
  case closing =>
    intro s p c runs closes
    refine congrArg Host.Outcome.next ((runCmd_runs runs _).trans ?_)
    dsimp only
    rw [if_pos closes]
    rfl
  case rewind =>
    intro s p c to' runs place
    subst place
    exact congrArg Host.Outcome.next (runCmd_runs runs _)
  case release =>
    intro s p c runs rising
    have change : capQ (updCapQ s (c.fld 0x18 1) (released (c.fld 0x20 8))) (c.fld 0x18 1) =
        released (c.fld 0x20 8) (capQ s (c.fld 0x18 1)) :=
      (capQ_updCapQ_self s _ _ _ rising).trans (if_pos rfl)
    obtain ⟨forward, bound, unmarked, marked⟩ := released_bounds (c.fld 0x20 8) (capQ s (c.fld 0x18 1))
    refine ⟨_, congrArg Host.Outcome.next (runCmd_runs runs _), _, change, forward, ?_, bound, unmarked, marked⟩
    rfl
  case freeze =>
    intro s p c runs running
    refine congrArg Host.Outcome.next ((runCmd_runs runs _).trans ?_)
    rw [running]
    rfl
  case frozen =>
    intro s p c runs frozen
    refine congrArg Host.Outcome.next ((runCmd_runs runs _).trans ?_)
    rw [frozen]
    rfl
  case thaw =>
    intro s p c runs frozen
    refine congrArg Host.Outcome.next ((runCmd_runs runs _).trans ?_)
    rw [thaw, frozen, Bool.or_true]
    rfl
end Sys2Proof.Proofs.Telemetry
end

section
/-! The keep store: what placing records and opening sectors leave, appends, compaction, and parts that fail. -/
namespace Sys2Proof.Proofs.Keep
open Sys2Proof Machine Safety

/-! ### Sectors and places (R577, R578, R581, R582) -/

/-- The keep store without its records' places and the ring that holds them. -/
def unplaced (k : KeepSt) : KeepSt :=
  { k with recs := [], head := 0, units := 0, opens := 0, erases := [], indexSeq := 0, opensSince := 0, port := [] }

theorem unplaced_erase (k : KeepSt) (x : Nat) : unplaced (k.erase x) = unplaced k := rfl
theorem unplaced_program (k : KeepSt) (x u n : Nat) : unplaced (k.program x u n) = unplaced k := rfl

theorem unplaced_place (k : KeepSt) (key : Nat) (r : KeepRec) : unplaced (k.place key r) = unplaced k :=
  unplaced_program k k.head k.units (recUnits r.payload.length)

theorem unplaced_carry (k : KeepSt) (x : Nat) : unplaced (k.carry x) = unplaced k :=
  foldl_keeps unplaced (fun k (e : Nat × KeepRec) => k.place e.1 { e.2 with carried := true }) (fun _ _ => unplaced_place _ _ _) _ _

theorem unplaced_header (k : KeepSt) (x o : Nat) : unplaced (k.header x o) = unplaced k := unplaced_program k x 0 1

theorem unplaced_writeIndex (k : KeepSt) : unplaced k.writeIndex = unplaced k :=
  unplaced_program (k.erase (k.indexSeq % 2)) (k.indexSeq % 2) 0 (2 + (k.recs.length + 1) / 2)

theorem unplaced_openNext (k : KeepSt) : unplaced k.openNext = unplaced k := by
  unfold KeepSt.openNext
  extract_lets a b
  have opened : unplaced b = unplaced k := (unplaced_erase _ _).trans ((unplaced_carry _ _).trans (unplaced_header _ _ _))
  split
  · exact (unplaced_writeIndex _).trans opened
  · exact opened

theorem unplaced_room (fuel n : Nat) (k : KeepSt) : unplaced (KeepSt.room fuel n k) = unplaced k := by
  induction fuel generalizing k with
  | zero => rfl
  | succ fuel ih =>
    unfold KeepSt.room
    split
    · rfl
    · rw [ih, unplaced_openNext]

theorem unplaced_carryMore (fuel x : Nat) (k : KeepSt) : unplaced (KeepSt.carryMore fuel x k) = unplaced k := by
  induction fuel generalizing x k with
  | zero => rfl
  | succ fuel ih =>
    unfold KeepSt.carryMore
    dsimp only
    split
    · rfl
    · rw [ih, unplaced_erase, unplaced_carry]

theorem unplaced_pack (fuel need : Nat) (k : KeepSt) : unplaced (KeepSt.pack fuel need k) = unplaced k := by
  induction fuel generalizing k with
  | zero => rfl
  | succ fuel ih =>
    unfold KeepSt.pack
    split
    · rfl
    · dsimp only
      rw [ih, unplaced_carryMore, unplaced_openNext]

/-- Records appended in turn count SEQ up, and leave the rest. -/
theorem unplaced_refill (rs : List (Nat × KeepRec)) (fs : List Nat) (k : KeepSt) :
    unplaced (KeepSt.refill rs fs k) = { unplaced k with seq := (KeepSt.refill rs fs k).seq } := by
  induction rs generalizing fs k with
  | nil => rfl
  | cons x rs ih =>
    have after {t : KeepSt} (fs : List Nat) (same : unplaced t = unplaced { k with seq := k.seq + 1 }) :
        unplaced (KeepSt.refill rs fs t) = { unplaced k with seq := (KeepSt.refill rs fs t).seq } := by
      rw [ih, same]
      rfl
    unfold KeepSt.refill
    dsimp only
    split
    · exact after fs (unplaced_place _ _ _)
    · split
      · rfl
      · exact after _ ((unplaced_place _ _ _).trans ((unplaced_header _ _ _).trans (unplaced_erase _ _)))

theorem room_seq (fuel n : Nat) (k : KeepSt) : (KeepSt.room fuel n k).seq = k.seq :=
  (congrArg KeepSt.seq (unplaced_room fuel n k) : (unplaced (KeepSt.room fuel n k)).seq = (unplaced k).seq)

/-- An append takes the next SEQ. -/
theorem append_seq (k : KeepSt) (key : Nat) (payload : List Byte) : (k.append key payload).seq = k.seq + 1 := by
  unfold KeepSt.append
  extract_lets a b
  have counted : b.seq = a.seq := room_seq a.sectors (recUnits payload.length) a
  split
  · exact counted
  · exact counted

/-- The record of an append counts for its key. -/
theorem append_record (k : KeepSt) (key : Nat) (payload : List Byte) : ∃ r : KeepRec,
    tget none (k.append key payload).recs key = some r ∧ r.payload = payload ∧ r.seq = k.seq + 1 ∧ r.carried = false := by
  unfold KeepSt.append
  dsimp only
  split
  · exact ⟨_, tget_tset_val _ _ _ _ (by simp), rfl, rfl, rfl⟩
  · exact ⟨_, tget_tset_val _ _ _ _ (by simp), rfl, rfl, rfl⟩

/-- With nothing waiting there is nothing to append. -/
theorem keepFlush_empty {s : State} (none : s.kp.pendingAppends = []) : keepFlush s = s := by
  unfold keepFlush
  split
  · rw [none, List.foldl_nil, ← none]
  · rfl

/-- Compaction goes over to the next generation; the appends that wait stay. -/
theorem compact_spec {k : KeepSt} (room : k.packed.fresh ≠ []) :
    k.compact.gen = k.gen + 1 ∧ k.compact.compacting = false ∧ k.compact.pendingAppends = k.pendingAppends := by
  have packed : unplaced k.packed = unplaced k := unplaced_pack _ _ _
  unfold KeepSt.compact
  cases fresh : k.packed.fresh with
  | nil => exact absurd fresh room
  | cons f fs =>
    dsimp only
    have refilled := unplaced_refill k.compactSet fs (({ k.packed with gen := k.packed.gen + 1, seq := 0 }.erase f).header f 0)
    rw [unplaced_header, unplaced_erase] at refilled
    have indexed := (unplaced_writeIndex _).trans refilled
    refine ⟨?_, rfl, ?_⟩
    · exact (congrArg KeepSt.gen indexed).trans (congrArg (·.gen + 1) packed)
    · exact (congrArg KeepSt.pendingAppends indexed).trans (congrArg (·.pendingAppends) packed)

/-! ### Parts (R584) -/

/-- What a part's failure leaves, beside the events that name it. -/
def partGone (s : State) (mirror : Bool) : State :=
  let old := if mirror then s.kp.mir else s.kp.pri
  let left := if old = .serving then some (s.kp.gen, s.kp.seq) else if mirror then s.kp.mirLeft else s.kp.priLeft
  { s with kp := if mirror then { s.kp with mir := .failed, mirLeft := left } else { s.kp with pri := .failed, priLeft := left } }

theorem exhaust_reports (s : State) (kind : Nat) : ∃ wr, ReportsOnly { s with wr := wr } (exhaust s kind) := by
  unfold exhaust
  split
  · exact ⟨_, .refl s⟩
  · exact ⟨_, raise_reports (.refl _) _ _ _ _ _ _⟩

theorem partFail_held {s : State} {mirror : Bool} (held : (if mirror then s.kp.mir else s.kp.pri).holds = true) :
    partFail s mirror = let t := exhaust (raise (partGone s mirror) 0x72 srcKeep 0 0 0 0) 4
      if keepDead t then raise t 0x73 srcKeep 0 0 0 0 else t := if_neg (by simp [held])

theorem partFail_reports {s : State} {mirror : Bool} (held : (if mirror then s.kp.mir else s.kp.pri).holds = true) :
    ∃ wr, quiet (partFail s mirror) = quiet { partGone s mirror with wr := wr } := by
  rw [partFail_held held]
  obtain ⟨wr, exhausted⟩ := exhaust_reports (raise (partGone s mirror) 0x72 srcKeep 0 0 0 0) 4
  have named : quiet (exhaust (raise (partGone s mirror) 0x72 srcKeep 0 0 0 0) 4) = quiet { partGone s mirror with wr := wr } :=
    exhausted.1.trans (congrArg (fun t : State => { t with wr := wr }) (raise_reports (.refl (partGone s mirror)) 0x72 srcKeep 0 0 0 0).1)
  refine ⟨wr, ?_⟩
  dsimp only
  split
  · exact (raise_reports (.refl _) 0x73 srcKeep 0 0 0 0).1.trans named
  · exact named

/-- What is the same but for reports is the same but for the blocks that reports reach. -/
theorem eq_of_quiet {s t : State} {wr : WearSt} (h : quiet t = quiet { s with wr := wr }) : t = { s with
    pwr := { s.pwr with alertUntil := t.pwr.alertUntil }, wr := t.wr, hl := t.hl, pp := t.pp, kp := t.kp, ev := t.ev } :=
  congrArg (fun u : State => { u with
    pwr := { u.pwr with alertUntil := t.pwr.alertUntil }, wr := t.wr, hl := t.hl, pp := t.pp, kp := t.kp, ev := t.ev }) h

/-- A part that fails: it is out of service, and the other stays as it was. -/
theorem partFail_spec {s : State} {mirror : Bool} (held : (if mirror then s.kp.mir else s.kp.pri).holds = true) :
    (partFail s mirror).kp.pri = (partGone s mirror).kp.pri ∧ (partFail s mirror).kp.mir = (partGone s mirror).kp.mir ∧
      partFail s mirror = { s with
        pwr := { s.pwr with alertUntil := (partFail s mirror).pwr.alertUntil }, wr := (partFail s mirror).wr
        hl := (partFail s mirror).hl, pp := (partFail s mirror).pp, kp := (partFail s mirror).kp, ev := (partFail s mirror).ev } := by
  obtain ⟨wr, same⟩ := partFail_reports held
  have frame := eq_of_quiet same
  exact ⟨(congrArg (·.kp.pri) same : (quiet (partFail s mirror)).kp.pri = (quiet { partGone s mirror with wr := wr }).kp.pri),
    (congrArg (·.kp.mir) same : (quiet (partFail s mirror)).kp.mir = (quiet { partGone s mirror with wr := wr }).kp.mir), frame⟩

/-- Completing writes that waited changes commands and completions alone. -/
theorem finishKeepWrites_frame (s : State) : ∃ cmds comps, finishKeepWrites s = { s with pp := { s.pp with cmds := cmds, comps := comps } } := by
  have rest : (fun t : State => { t with pp := { t.pp with cmds := [], comps := [] } }) (finishKeepWrites s) =
      (fun t : State => { t with pp := { t.pp with cmds := [], comps := [] } }) s :=
    foldl_keeps (fun t : State => { t with pp := { t.pp with cmds := [], comps := [] } })
      (fun s c => finishCmd s c 0 0 0 0) (fun _ _ => rfl) _ _
  exact ⟨(finishKeepWrites s).pp.cmds, (finishKeepWrites s).pp.comps, congrArg (fun t : State => { t with
    pp := { t.pp with cmds := (finishKeepWrites s).pp.cmds, comps := (finishKeepWrites s).pp.comps } }) rest⟩

/-- Settles O16: appends by the state of the store, compaction by the generation, parts by what their failure leaves. -/
theorem keepStoreAppends : Obligations.KeepStoreAppends := by
  refine ⟨⟨?verified, ?serving, ?waiting, ?mirror, ?primary, ?compact, ?mirrorBack, ?primaryBack, ?history⟩,
    fun k key payload => ⟨append_seq k key payload, append_record k key payload⟩⟩
  case verified =>
    intro s key payload on out formatted known some short
    have held : payload.isEmpty = false := List.isEmpty_eq_false_iff.2 some
    simp only [exec, execKeepAppend, on, out, formatted, known, held, Nat.not_lt.2 short, decide_false, Bool.not_true, Bool.or_self,
      Bool.true_or, Bool.false_eq_true, if_false, if_true]
  case serving =>
    intro s key payload up steady
    simp only [keepPut, up, steady, Bool.not_false, Bool.and_self, if_true]
  case waiting =>
    intro s key payload down
    simp only [keepPut, down, Bool.false_and, Bool.false_eq_true, if_false]
  case mirror =>
    intro s held
    obtain ⟨pri, mir, frame⟩ := partFail_spec (mirror := true) held
    exact ⟨_, rfl, mir, pri, frame⟩
  case primary =>
    intro s held
    obtain ⟨pri, mir, frame⟩ := partFail_spec (mirror := false) held
    exact ⟨_, rfl, pri, mir, frame⟩
  case compact =>
    intro s compacting up none room
    obtain ⟨gen, done, waiting⟩ := compact_spec room
    obtain ⟨cmds, comps, finished⟩ := finishKeepWrites_frame { s with kp := { s.kp with port := [] }.compact }
    refine ⟨_, congrArg Host.Outcome.next (if_pos (by rw [compacting, up]; rfl)), ?_⟩
    rw [keepFlush_empty (waiting.trans none), finished]
    exact ⟨gen, done, rfl, rfl⟩
  case mirrorBack =>
    intro s lagging
    exact congrArg Host.Outcome.next ((if_pos rfl).trans (if_pos lagging))
  case primaryBack =>
    intro s lagging
    exact congrArg Host.Outcome.next ((if_neg (by decide)).trans (if_pos lagging))
  case history =>
    intro s up
    exact congrArg Host.Outcome.next (if_pos up)
end Sys2Proof.Proofs.Keep
end

section
/-! Migrations: the slots through a leaf's preparation, switch and end, and the stripes of a budget migration. -/
namespace Sys2Proof.Proofs.Migrations
open Sys2Proof Machine Safety Proofs.Startup Proofs.MapEntries Proofs.Reclaim Proofs.Blanking

/-! ### What leaves the migration slots (R503) -/

theorem migSlot_of_mig {s t : State} (h : t.mp.mig = s.mp.mig) (m : Nat) : migSlot t m = migSlot s m := by rw [migSlot, h, migSlot]

/-- An operation that leaves the map leaves the slots. -/
theorem mig_of_keeps {s t : State} (h : Keeps (allBut .mp) s t) : t.mp.mig = s.mp.mig :=
  congrArg MapSt.mig (same_of_keeps (p := .mp) h)

theorem setEntry_mig (s : State) (page : Nat) (e : MapEntry) : (setEntry s page e).mp.mig = s.mp.mig := by
  unfold setEntry; split <;> rfl

theorem fetchSeg_mig (s : State) (page : Nat) : (fetchSeg s page).mp.mig = s.mp.mig := by rw [fetchSeg_frame]

theorem foldl_mig {α : Type} {f : State → α → State} (h : ∀ s a, (f s a).mp.mig = s.mp.mig) (l : List α) (s : State) :
    (l.foldl f s).mp.mig = s.mp.mig := foldl_keeps (fun s => s.mp.mig) f h l s

theorem holdLeaf_mig (s : State) (L : Nat) : (holdLeaf s L).mp.mig = s.mp.mig := by
  unfold holdLeaf
  dsimp only
  refine (foldl_mig (fun t g => ?_) _ _).trans (foldl_mig (fun _ _ => fetchSeg_mig _ _) _ _)
  split <;> rfl

theorem unmapPage_mig (s : State) (page : Nat) (st : PageState) : (unmapPage s page st).mp.mig = s.mp.mig := by
  unfold unmapPage
  split
  · rfl
  · dsimp only
    split
    · exact (mig_of_keeps (releaseSlot_keeps (releaseSlot_keeps (.refl _ _) rfl) rfl)).trans (setEntry_mig _ _ _)
    · exact (mig_of_keeps (releaseSlot_keeps (releaseSlot_keeps (dropStamps_keeps (.refl _ _) rfl) rfl) rfl)).trans (setEntry_mig _ _ _)

theorem poisonLeave_mig (s : State) (dpa : Nat) : (poisonLeave s dpa).mp.mig = s.mp.mig := rfl

theorem dropPage_mig (s : State) (page : Nat) : (dropPage s page).mp.mig = s.mp.mig := by
  unfold dropPage
  split
  · split
    · dsimp only
      refine (foldl_mig (fun t i => ?_) _ _).trans (unmapPage_mig s page .unmapped)
      split
      · rfl
      · exact poisonLeave_mig _ _
    · rfl
  · rfl

theorem queueWriteBack_mig (s : State) (ll S : Nat) : (queueWriteBack s ll S).mp.mig = s.mp.mig := by
  unfold queueWriteBack; split <;> rfl

theorem ite_mig {c : Prop} [Decidable c] {a b s : State} (yes : a.mp.mig = s.mp.mig) (no : b.mp.mig = s.mp.mig) :
    (if c then a else b).mp.mig = s.mp.mig := by split <;> assumption

theorem startWriteBack_mig (s : State) (ll : Nat) : (startWriteBack s ll).mp.mig = s.mp.mig := by
  have stamped (v : Nat) : (setLeafStamp s (leafOfLine ll) v).mp.mig = s.mp.mig := rfl
  unfold startWriteBack
  dsimp only
  refine ite_mig rfl (ite_mig ?_ ?_)
  · refine (foldl_mig (fun _ _ => queueWriteBack_mig _ _ _) _ _).trans ((foldl_mig (fun t g => ?_) _ _).trans
      ((foldl_mig (fun _ _ => fetchSeg_mig _ _) _ _).trans (stamped _)))
    split <;> rfl
  · exact (queueWriteBack_mig _ _ _).trans (stamped _)

/-! ### A leaf in progress (R504) -/

/-- A slot that stands for a migration reads back what is written to it. -/
theorem migSlot_updMig_here {s : State} {m : Nat} {f : MigSlot → MigSlot} (some : f (migSlot s m) ≠ {}) :
    migSlot (updMig s m f) m = f (migSlot s m) := tget_tset_val _ _ _ _ some

/-- A change that leaves the leaves in progress. -/
theorem active_updMig {s : State} {m : Nat} {f : MigSlot → MigSlot} (runs : (migSlot s m).active ≠ [])
    (keeps : ∀ x, (f x).active = x.active) : (migSlot (updMig s m f) m).active = (migSlot s m).active := by
  rw [migSlot_updMig_here fun e => runs ((keeps _).symm.trans (congrArg MigSlot.active e)), keeps]

theorem routePage_active {s : State} {m : Nat} (page : Nat) (e : MapEntry) (domain : Nat) (runs : (migSlot s m).active ≠ []) :
    (migSlot (routePage s m page e domain) m).active = (migSlot s m).active := by
  unfold routePage
  dsimp only
  split
  · rfl
  · have taken (t : State) (w : Nat → Bool) : (takeInternal t page e w).mp.mig = t.mp.mig :=
      mig_of_keeps (takeInternal_keeps (.refl _ t) rfl)
    have marked (t : State) (l : List (Nat × SagLine)) :
        (l.foldl (fun s x => setSagLine s page x.1 (some { x.2 with domain := domain })) t).mp.mig = t.mp.mig := by
      refine foldl_mig (fun u x => ?_) l t
      rfl
    refine Eq.trans (congrArg MigSlot.active (migSlot_of_mig ((marked _ _).trans (taken _ _)) m)) ?_
    exact active_updMig runs fun _ => rfl

theorem preparePage_active {s : State} {m : Nat} (page : Nat) (runs : (migSlot s m).active ≠ []) :
    (migSlot (preparePage m s page) m).active = (migSlot s m).active := by
  have dropped : migSlot (dropPage s page) m = migSlot s m := migSlot_of_mig (dropPage_mig s page) m
  have here : (migSlot (dropPage s page) m).active ≠ [] := by rw [dropped]; exact runs
  have trimmed : (migSlot (updMig (dropPage s page) m fun x => { x with held := x.held.filter fun h => h.1 ≠ page }) m).active =
      (migSlot (dropPage s page) m).active := active_updMig here fun _ => rfl
  rw [← dropped]
  unfold preparePage
  dsimp only
  split
  · rfl
  split
  · rfl
  split
  · split
    · exact (routePage_active page _ _ (trimmed ▸ here)).trans trimmed
    split
    · rfl
    · exact trimmed
  · rfl

theorem prepareLeaf_active {s : State} {m : Nat} (L : Nat) (runs : (migSlot s m).active ≠ []) :
    (migSlot (prepareLeaf s m L) m).active = (migSlot s m).active := by
  unfold prepareLeaf
  induction leafPages L generalizing s with
  | nil => rfl
  | cons page pages ih =>
    have prepared := preparePage_active page runs
    exact (ih (by rw [prepared]; exact runs)).trans prepared

/-! ### The slot's own commands (R503, R504, R508) -/

theorem recordDurable_spec {s : State} {m : Fin 4} (valid : (migSlot s m.val).valid = true) (fresh : (migSlot s m.val).durable = false)
    (keeps : keepUp s = true) (up : awake s = true) :
    ∃ t, exec (.migrationRecordDurable m) s = .next t ∧ migSlot t m.val = { migSlot s m.val with durable := true } ∧
      t = { s with mp := t.mp, kp := t.kp } := by
  refine ⟨_, congrArg Host.Outcome.next (if_pos (by simp [valid, fresh, keeps, up])), ?_, rfl⟩
  refine (migSlot_of_mig (s := updMig s m.val fun x => { x with durable := true }) rfl m.val).trans (migSlot_updMig_here fun e => ?_)
  have unused : (migSlot s m.val).valid = false := congrArg MigSlot.valid e
  rw [valid] at unused
  cases unused

section
variable {s : State} {m : Fin 4} (up : mediaRuns s = true) (valid : (migSlot s m.val).valid = true) (kind : (migSlot s m.val).kind ≠ 4)
  (durable : (migSlot s m.val).durable = true) (few : (migSlot s m.val).active.length < 16)
  (inside : nextLeaf (migSlot s m.val) < ((migSlot s m.val).base + (migSlot s m.val).size) * 2048)
  (serves : ∀ r ∈ leafRanks s (nextLeaf (migSlot s m.val)), lostLinks s r < 3)
include up valid kind durable few inside serves

theorem leafConvertStart_takes : exec (.leafConvertStart m) s = .next (
    if leafHeld (holdLeaf s (nextLeaf (migSlot s m.val))) (nextLeaf (migSlot s m.val)) then
      prepareLeaf (updMig (holdLeaf s (nextLeaf (migSlot s m.val))) m.val fun x =>
        { x with active := x.active ++ [nextLeaf (migSlot s m.val)] }) m.val (nextLeaf (migSlot s m.val))
    else holdLeaf s (nextLeaf (migSlot s m.val))) := by
  have found : ((leafRanks s (nextLeaf (migSlot s m.val))).any fun r => decide (3 ≤ lostLinks s r)) = false :=
    List.any_eq_false.2 fun r hr => by simpa using serves r hr
  refine congrArg Host.Outcome.next (if_neg ?_)
  rw [found]
  simp only [up, valid, kind, durable, Nat.not_le.2 few, Nat.not_le.2 inside, decide_false, Bool.not_true, Bool.or_self,
    Bool.false_eq_true, not_false_eq_true]

theorem leafConvertStart_active (held : leafHeld (holdLeaf s (nextLeaf (migSlot s m.val))) (nextLeaf (migSlot s m.val)) = true) :
    ∃ t, exec (.leafConvertStart m) s = .next t ∧
      (migSlot t m.val).active = (migSlot s m.val).active ++ [nextLeaf (migSlot s m.val)] := by
  refine ⟨_, (leafConvertStart_takes up valid kind durable few inside serves).trans (congrArg Host.Outcome.next (if_pos held)), ?_⟩
  have same : migSlot (holdLeaf s (nextLeaf (migSlot s m.val))) m.val = migSlot s m.val := migSlot_of_mig (holdLeaf_mig _ _) _
  have joined : (migSlot (updMig (holdLeaf s (nextLeaf (migSlot s m.val))) m.val fun x =>
      { x with active := x.active ++ [nextLeaf (migSlot s m.val)] }) m.val).active =
      (migSlot s m.val).active ++ [nextLeaf (migSlot s m.val)] := by
    rw [migSlot_updMig_here fun e => by simpa using congrArg MigSlot.active e, same]
  rw [prepareLeaf_active _ (by rw [joined]; simp), joined]

end

theorem leafSwitch_switches {s : State} {m : Fin 4} {leaf : Nat} (up : mediaRuns s = true) (inProgress : leaf ∈ (migSlot s m.val).active)
    (before : leaf ∉ (migSlot s m.val).switched) (prepared : (leafPages leaf).all (pageReady s (migSlot s m.val)) = true)
    (held : leafHeld s leaf = true) : ∃ t, exec (.leafSwitchBeat m leaf) s = .next t ∧ leaf ∈ (migSlot t m.val).switched := by
  refine ⟨_, congrArg Host.Outcome.next ((if_neg (by simp [up, inProgress, before])).trans (if_pos (by rw [prepared, held]; rfl))), ?_⟩
  dsimp only
  rw [migSlot_of_mig (foldl_mig (fun t i => ite_mig rfl (startWriteBack_mig t _)) _ _),
    migSlot_updMig_here fun e => by simpa using congrArg MigSlot.switched e]
  exact List.mem_append_right _ (List.mem_singleton_self _)

theorem leafConvertDone_counts {s : State} {m : Fin 4} {leaf : Nat} (up : awake s = true) (switched : leaf ∈ (migSlot s m.val).switched)
    (first : (migSlot s m.val).active.head? = some leaf) (durable : ∀ i, i < 64 → lineDurable s (leaf * 64 + i) = true)
    (more : ((migSlot s m.val).doneLeaves + 1) - (migSlot s m.val).passBase ≠ (migSlot s m.val).size * 2048)
    (valid : (migSlot s m.val).valid = true) :
    ∃ t, exec (.leafConvertDone m leaf) s = .next t ∧ migSlot t m.val = { migSlot s m.val with
      active := (migSlot s m.val).active.drop 1, switched := (migSlot s m.val).switched.filter (· ≠ leaf)
      doneLeaves := (migSlot s m.val).doneLeaves + 1 } := by
  have written : ((List.range 64).all fun i => lineDurable s (leaf * 64 + i)) = true :=
    List.all_eq_true.2 fun i hi => durable i (List.mem_range.1 hi)
  refine ⟨_, congrArg Host.Outcome.next (if_neg (by rw [written]; simp [up, switched, first])), ?_⟩
  dsimp only
  generalize freed : List.foldl _ (updMig s m.val _) (List.range 16) = u
  have counted : migSlot u m.val = { migSlot s m.val with
      active := (migSlot s m.val).active.drop 1, switched := (migSlot s m.val).switched.filter (· ≠ leaf)
      doneLeaves := (migSlot s m.val).doneLeaves + 1 } := by
    rw [← freed, migSlot_of_mig (foldl_mig (fun t g => ?_) _ _), migSlot_updMig_here fun e => ?_]
    · have unused : (migSlot s m.val).valid = false := congrArg MigSlot.valid e
      rw [valid] at unused
      cases unused
    · split <;> rfl
  have saved : (if (migSlot u m.val).doneLeaves % 64 = 0 then saveMigration u m.val else u).mp.mig = u.mp.mig := ite_mig rfl rfl
  rw [if_neg (by rw [counted]; exact more), migSlot_of_mig saved, counted]
/-! ### The budget migration (R511) -/

/-- The end of a migration leaves the block stripes and their slots on media. -/
theorem endMigration_leaves (s : State) (m : Nat) : (endMigration s m).pl = s.pl ∧ (endMigration s m).mp.media = s.mp.media := by
  refine ⟨same_of_keeps (p := .pl) (endMigration_keeps (.refl _ s) rfl), ?_⟩
  unfold endMigration
  dsimp only
  have told (t : State) (code a b c d e : Nat) (id : Option Nat) :
      (finishId (raise (saveRegions (saveMigration t m)) code a b c d e) id 0 0 0).mp = t.mp :=
    same_of_keeps (p := .mp) (finishId_keeps (raise_keeps (saveRegions_keeps (saveMigration_keeps (.refl _ t) rfl) rfl) rfl) rfl)
  rw [told]
  split <;> rfl

/-- A stripe as a budget migration leaves it: blank, with MODE 1. -/
def budgetRec (b : BsRec) : BsRec := { b with state := .blank, bisque := true, wls := 0, valid := 0, lag := 0, unswept := false }

/-- Erasing a stripe counts the cycle, records it, and blanks it. -/
theorem prepareStripe_spec {s : State} {r : Nat} (m : Nat) {y : Nat × BsRec} (dirty : nextDirty s r = some y) (lives : y.2.cycles < 20000) :
    stripe (prepareStripe s m r) y.1 =
      { budgetRec { stripe s y.1 with cycles := (stripe s y.1).cycles + 1 } with changed := true } ∧
    ∀ z ∈ (prepareStripe s m r).mp.media, slotBs (z.1 / 64) ≠ y.1 := by
  have erased : prepareStripe s m r =
      let u := recordStripe (updStripe s y.1 fun b => { b with cycles := b.cycles + 1 }) y.1
      updMig (endSweep (updStripe (noteProgram (blanked u y.1) y.1) y.1 budgetRec)) m fun x => { x with doneLeaves := x.doneLeaves + 1 } := by
    simp only [prepareStripe, dirty, if_neg (Nat.not_le.2 lives)]
    rfl
  have counted := stripe_updStripe_here s y.1 fun b => { b with cycles := b.cycles + 1 }
  have recorded := (recordStripe_reads (s := updStripe s y.1 fun b => { b with cycles := b.cycles + 1 }) (bs := y.1) (by
    rw [counted]
    exact fun e => by simpa using congrArg BsRec.cycles e)).1
  rw [counted] at recorded
  rw [erased]
  dsimp only
  generalize recordStripe (updStripe s y.1 fun b => { b with cycles := b.cycles + 1 }) y.1 = u at recorded ⊢
  have blank : (noteProgram (blanked u y.1) y.1).pl = (emptied u y.1).pl := (same_of_keeps (p := .pl) (noteProgram_blanked u y.1 rfl) :)
  have gone : (noteProgram (blanked u y.1) y.1).mp = (emptied u y.1).mp := same_of_keeps (p := .mp) (noteProgram_blanked (k := allBut .mp) u y.1 rfl)
  generalize noteProgram (blanked u y.1) y.1 = v at blank gone ⊢
  have pl : (endSweep (updStripe v y.1 budgetRec)).pl = (updStripe v y.1 budgetRec).pl :=
    same_of_keeps (p := .pl) (endSweep_keeps (.refl _ _) rfl)
  have mp : (endSweep (updStripe v y.1 budgetRec)).mp = v.mp := same_of_keeps (p := .mp) (endSweep_keeps (updStripe_keeps (.refl _ v) rfl) rfl)
  have before : stripe v y.1 = stripe u y.1 := by rw [stripe, blank]; rfl
  constructor
  · calc stripe (endSweep (updStripe v y.1 budgetRec)) y.1 = stripe (updStripe v y.1 budgetRec) y.1 := by rw [stripe, pl, stripe]
      _ = { budgetRec (stripe v y.1) with changed := true } := stripe_updStripe_here _ _ _
      _ = _ := by rw [before, recorded]; rfl
  · intro z listed
    have left : z ∈ (endSweep (updStripe v y.1 budgetRec)).mp.media := listed
    rw [mp, gone] at left
    simpa using (List.mem_filter.1 left).2

section
variable {s : State} {r : Rank} {m : Nat} {x : MigSlot}
  (found : (s.mp.mig.find? fun x => x.2.valid && x.2.kind = 4 && x.2.durable) = some (m, x)) (up : mediaRuns s = true)
  (named : r.val ∈ x.ranks) (on : parked s r.val = false)
include found up named on

theorem budgetMigrationStripe_eq : exec (.budgetMigrationStripe r) s = .next (
    let t := if budgetLack s r.val = 0 then s else prepareStripe s m r.val
    if x.ranks.all fun r => budgetLack t r = 0 then endMigration t m else t) := by
  simp only [exec, execBudgetMigrationStripe, found, up, named, on, not_true_eq_false, decide_false, Bool.not_true, Bool.or_self,
    Bool.false_eq_true, if_false]

theorem budgetMigrationStripe_ends (enough : ∀ q ∈ x.ranks, budgetLack s q = 0) :
    exec (.budgetMigrationStripe r) s = .next (endMigration s m) := by
  rw [budgetMigrationStripe_eq found up named on]
  dsimp only
  rw [if_pos (enough _ named), if_pos (List.all_eq_true.2 fun q hq => decide_eq_true (enough q hq))]

theorem budgetMigrationStripe_prepares {y : Nat × BsRec} (lacks : budgetLack s r.val ≠ 0) (dirty : nextDirty s r.val = some y)
    (lives : y.2.cycles < 20000) :
    ∃ t, exec (.budgetMigrationStripe r) s = .next t ∧ (stripe t y.1).state = .blank ∧ (stripe t y.1).bisque = true ∧
      (stripe t y.1).cycles = (stripe s y.1).cycles + 1 ∧ ∀ z ∈ t.mp.media, slotBs (z.1 / 64) ≠ y.1 := by
  refine ⟨_, budgetMigrationStripe_eq found up named on, ?_⟩
  dsimp only
  rw [if_neg lacks]
  obtain ⟨record, gone⟩ := prepareStripe_spec m dirty lives
  generalize prepareStripe s m r.val = t at record gone ⊢
  have last : ∀ u : State, u.pl = t.pl → u.mp.media = t.mp.media → (stripe u y.1).state = .blank ∧ (stripe u y.1).bisque = true ∧
      (stripe u y.1).cycles = (stripe s y.1).cycles + 1 ∧ ∀ z ∈ u.mp.media, slotBs (z.1 / 64) ≠ y.1 := by
    intro u pl media
    have here : stripe u y.1 = stripe t y.1 := by rw [stripe, pl, stripe]
    rw [here, record, media]
    exact ⟨rfl, rfl, rfl, gone⟩
  split
  · exact last _ (endMigration_leaves t m).1 (endMigration_leaves t m).2
  · exact last _ rfl rfl

end

/-- Settles O55: leaves by what their preparation, switch and end leave of the slot, stripes by their records. -/
theorem migrationsRun : Obligations.MigrationsRun := by
  refine ⟨fun s m => recordDurable_spec, ?durable, ?idle, fun s m => leafConvertStart_takes, ?active, fun s m leaf => leafSwitch_switches,
    ?notIn, fun s m leaf => leafConvertDone_counts, ?unswitched, fun s r m x found up named on => budgetMigrationStripe_ends found up named on,
    fun s r m x y found up named on => budgetMigrationStripe_prepares found up named on, ?none⟩
  case durable =>
    intro s m durable
    exact congrArg Host.Outcome.next (if_neg (by simp [durable]))
  case idle =>
    intro s m why
    refine congrArg Host.Outcome.next (if_pos ?_)
    rcases why with h | h | h | h <;> simp [h]
  case active =>
    rintro s m L up valid kind durable few rfl inside serves held
    exact leafConvertStart_active up valid kind durable few inside serves held
  case notIn =>
    intro s m leaf why
    refine congrArg Host.Outcome.next (if_pos ?_)
    rcases why with h | h <;> simp [h]
  case unswitched =>
    intro s m leaf other
    exact congrArg Host.Outcome.next (if_pos (by simp [other]))
  case none =>
    intro s r none
    simp only [exec, execBudgetMigrationStripe, none]
end Sys2Proof.Proofs.Migrations
end

section
/-! Power states: their entries, and the wakes from Sleep and Deep sleep. -/
namespace Sys2Proof.Proofs.Power
open Sys2Proof Machine Safety Proofs.Startup Proofs.Consort Proofs.Agreements

/-! ### What the steps of a wake leave (R529) -/

/-- The power state, the entry to Deep sleep in progress and the beat. -/
def standing (s : State) : PowerState × Bool × Nat := (s.pwr.state, s.pwr.entering, s.clk.beat)

/-- What leaves clocks and power leaves where the device stands. -/
theorem standing_of_same {s t : State} (clk : StatePart.clk.same s t) (pwr : StatePart.pwr.same s t) : standing t = standing s :=
  Prod.ext (pwr_field pwr (·.state)) (Prod.ext (pwr_field pwr (·.entering)) (congrArg ClkSt.beat clk))

theorem standing_of_keeps {s t : State} (clk : Keeps (allBut .clk) s t) (pwr : Keeps (allBut .pwr) s t) : standing t = standing s :=
  standing_of_same (same_of_keeps clk) (same_of_keeps pwr)

theorem raise_standing (s : State) (code source p0 p1 p2 p3 : Nat) : standing (raise s code source p0 p1 p2 p3) = standing s :=
  standing_of_keeps (raise_keeps (.refl _ s) rfl) (raise_keeps (.refl _ s) rfl)

theorem leaveConsort_standing (s : State) : standing (leaveConsort s) = standing s := by
  unfold leaveConsort
  rw [dropAgreement_frame]
  rfl

theorem followTime_standing (s : State) : standing (followTime s) = standing s := by rw [followTime_frame]; rfl

theorem joinConsort_standing (s : State) : standing (joinConsort s) = standing s := by
  unfold joinConsort
  dsimp only
  split
  · exact raise_standing _ _ _ _ _ _ _
  · refine (followTime_standing _).trans ((standing_of_keeps (pickLeaders_keeps (.refl _ _) rfl) (pickLeaders_keeps (.refl _ _) rfl)).trans ?_)
    rw [sendFrame_frame]
    rfl

theorem rebuildConfig_standing (s : State) (ids : List Nat) : standing (rebuildConfig s ids) = standing s :=
  standing_of_keeps (rebuildConfig_keeps (.refl _ s) rfl) (rebuildConfig_keeps (.refl _ s) rfl)

/-- No bank holds what says where the device stands. -/
theorem loseBank_standing (s : State) (k : Nat) : standing (loseBank s k) = standing s := by
  unfold loseBank
  split
  · exact standing_of_keeps (loseBank0_keeps (.refl _ s) rfl) (loseBank0_keeps (.refl _ s) rfl)
  · exact standing_of_keeps (loseBank1_keeps (.refl _ s) rfl) (loseBank1_keeps (.refl _ s) rfl)
  · exact standing_of_keeps (loseBank2_keeps (.refl _ s) rfl) (loseBank2_keeps (.refl _ s) rfl)
  · exact standing_of_keeps (loseBank3_keeps (.refl _ s) rfl) (loseBank3_keeps (.refl _ s) rfl)
  · unfold loseBank4
    dsimp only
    split
    · exact (joinConsort_standing _).trans ((rebuildConfig_standing _ _).trans (leaveConsort_standing s))
    · exact (rebuildConfig_standing _ _).trans (leaveConsort_standing s)
  · exact standing_of_keeps (loseBank5_keeps (.refl _ s) rfl) (loseBank5_keeps (.refl _ s) rfl)
  · exact standing_of_keeps (loseBank6_keeps (.refl _ s) rfl) (loseBank6_keeps (.refl _ s) rfl)
  · exact standing_of_keeps (loseBank7_keeps (.refl _ s) rfl) (loseBank7_keeps (.refl _ s) rfl)

theorem reportBanks_standing (s : State) (banks : List Nat) : standing (reportBanks s banks) = standing s :=
  foldl_keeps standing _ (fun t k =>
    raise_standing { t with pwr := { t.pwr with bankFail := t.pwr.bankFail ||| (1#8 <<< k) } } 0x60 srcDevice k 0 0 0) banks s

theorem resetRungs_standing (s : State) : standing (resetRungs s) = standing s :=
  standing_of_keeps (resetRungs_keeps (.refl _ s) rfl) (resetRungs_keeps (.refl _ s) rfl)

theorem continuityLoss_standing (s : State) : standing (continuityLoss s) = standing s := by
  unfold continuityLoss
  dsimp only
  refine (foldl_keeps standing _ (fun _ _ => standing_of_keeps (updStripe_keeps (.refl _ _) rfl) (updStripe_keeps (.refl _ _) rfl)) _ _).trans ?_
  exact resetRungs_standing _

theorem clockStep_standing (s : State) (ticks : Nat) (fc : State → Nat → Nat → Nat) : standing (clockStep s ticks fc) = standing s := by
  unfold clockStep
  split
  · exact standing_of_keeps (catchUp_keeps (.refl _ s) rfl) (catchUp_keeps (.refl _ s) rfl)
  · refine (raise_standing _ _ _ _ _ _ _).trans ((standing_of_keeps (keepPut_keeps (.refl _ _) rfl) (keepPut_keeps (.refl _ _) rfl)).trans ?_)
    exact continuityLoss_standing s

theorem rootWoken_standing (s : State) : standing (rootWoken s) = standing s := by
  unfold rootWoken
  split
  · rfl
  · refine (raise_standing _ _ _ _ _ _ _).trans (show standing (storeRoot (ite _ _ _) 2) = _ from ?_)
    split
    · exact raise_standing s _ _ _ _ _ _
    · rfl

/-- The ring that starts empty, and bank 3 where it failed. -/
theorem ringWoken_standing (s : State) (held : Nat) : standing (ringWoken s held) = standing s :=
  standing_of_keeps (ringWoken_keeps (.refl _ s) rfl) (ringWoken_keeps (.refl _ s) rfl)

/-- A wake from Deep sleep leaves the device in Run at the beat that the calendar tells. -/
theorem deepWake_standing (s : State) (code : Nat) (bad : BitVec 8) :
    standing (deepWake s code bad) = (.run, false, s.clk.savedBeat + sleptBeats s.clk) := by
  unfold deepWake
  generalize sleptBeats s.clk = slept
  generalize ringHeld s = held
  generalize failedBanks s bad = banks
  dsimp only
  generalize e1 : State.mk _ _ _ _ _ _ _ _ _ _ _ _ _ _ _ _ _ _ _ _ _ = s1
  have h1 : standing s1 = (.run, false, s.clk.savedBeat + slept) := by rw [← e1]; rfl
  clear e1
  have h3 : standing (ringWoken (if 3 ∈ banks then loseBank3 (fillBuckets (unretained s1)) else fillBuckets (unretained s1)) held) =
      standing s1 := by
    have filled : standing (fillBuckets (unretained s1)) = standing s1 := standing_of_keeps
      (fillBuckets_keeps (unretained_keeps (.refl _ s1) rfl) rfl) (fillBuckets_keeps (unretained_keeps (.refl _ s1) rfl) rfl)
    refine (ringWoken_standing _ _).trans ?_
    split
    · exact (loseBank_standing _ 3).trans filled
    · exact filled
  generalize ringWoken _ held = s3 at h3 ⊢
  have h4 : standing (reportBanks (List.foldl loseBank s3 (banks.filter (· ≠ 3))) banks) = standing s3 :=
    (reportBanks_standing _ _).trans (foldl_keeps standing _ loseBank_standing _ _)
  generalize reportBanks _ banks = s4 at h4 ⊢
  have h6 : standing (clockStep (resumeLinks s4 fun _ => true) (slept / 2 ^ 24) groupFactor) = standing s4 :=
    (clockStep_standing _ _ _).trans (standing_of_keeps (resumeLinks_keeps (.refl _ s4) rfl) (resumeLinks_keeps (.refl _ s4) rfl))
  generalize clockStep _ _ groupFactor = s6 at h6 ⊢
  have h7 : standing (if (!s4.clk.cont) = true then startSweep s6 else s6) = standing s6 := by
    split
    · exact standing_of_keeps (startSweep_keeps (.refl _ s6) rfl) (startSweep_keeps (.refl _ s6) rfl)
    · rfl
  generalize (if (!s4.clk.cont) = true then startSweep s6 else s6) = s7 at h7 ⊢
  have h8 : standing (refreshReady (rootWoken s7)) = standing s7 :=
    (standing_of_keeps (refreshReady_keeps (.refl _ _) rfl) (refreshReady_keeps (.refl _ _) rfl)).trans (rootWoken_standing s7)
  generalize refreshReady (rootWoken s7) = s8 at h8 ⊢
  have whole : standing s8 = (.run, false, s.clk.savedBeat + slept) := by rw [h8, h7, h6, h4, h3, h1]
  split
  · rw [sendFrame_frame]
    exact whole
  · exact whole

/-- A sleeping device with its supplies wakes to Run by the source that it names. -/
theorem wakeNow_spec {s : State} (src : Nat) (on : s.pwr.supplies = true) (out : s.pwr.inReset = false) (asleep : s.pwr.state = .sleep) :
    (wakeNow s src).pwr.state = .run ∧ (wakeNow s src).pwr.wakeSrc = src ∧
      (wakeNow s src).pwr.wakes = satAdd 32 s.pwr.wakes 1 ∧ (wakeNow s src).clk = s.clk := by
  rw [wakeNow_asleep src on out asleep]
  exact ⟨wakeFromSleep_state s src, wakeFromSleep_source s src, wakeFromSleep_wakes s src, wakeFromSleep_clk s src⟩

/-- Settles O12: an entry is the record that its row names; a wake is what its steps leave. -/
theorem powerStatesAreEnteredAndLeft : Obligations.PowerStatesAreEnteredAndLeft := by
  refine ⟨⟨?idle, ?sleep, ?off, ?cut, ?dip, ?latch⟩, ?sleepWake, ?pin, ?deep⟩
  case idle =>
    intro s up run last out idle due
    exact congrArg Host.Outcome.next (if_pos (by simp [up, run, last, out, idle, due]))
  case sleep =>
    intro s up out fits agreed
    exact congrArg Host.Outcome.next (if_pos (by simp [up, out, fits, agreed]))
  case off =>
    intro s on none
    simp [exec, execOffEntry, on, cutBreath, none]
  case cut =>
    intro s b on some
    simp [exec, execOffEntry, on, cutBreath, some]
  case dip =>
    intro s mv asleep low
    exact congrArg Host.Outcome.next (if_pos (by simp [asleep, low]))
  case latch =>
    intro s us off long
    exact congrArg Host.Outcome.next ((if_pos off).trans (if_pos long))
  case sleepWake =>
    intro s src on out asleep thermal pwrfail
    refine ⟨_, congrArg Host.Outcome.next (if_pos ?_), wakeNow_spec (WakeSource.code src) on out asleep⟩
    cases src
    case thermal => exact thermal rfl
    case pwrfail => exact pwrfail rfl
    case hostLink => rfl
    case wakePin => rfl
    case consort => rfl
  case pin =>
    intro s us on out asleep long
    obtain ⟨run, src, -⟩ := wakeNow_spec 2 on out asleep
    refine ⟨_, congrArg Host.Outcome.next ((if_neg ?_).trans ((if_neg (by omega)).trans (if_neg ?_))), run, src⟩
    · rw [asleep]; decide
    · rw [asleep]; decide
  case deep =>
    intro s src bad on out asleep wakes
    have stands := deepWake_standing s (WakeSource.code src) bad
    exact ⟨_, congrArg Host.Outcome.next (if_pos (by simp [on, out, asleep, wakes])), congrArg (·.1) stands,
      congrArg (·.2.1) stands, congrArg (·.2.2) stands⟩

end Sys2Proof.Proofs.Power
end

section
/-! The beats counted: what a boundary does between two of them leaves the recorder's count of run beats. -/
namespace Sys2Proof.Proofs.RunBeats
open Sys2Proof Machine Safety Proofs.Startup

/-! ### The shape of the lemmas -/

/-- What leaves the recorder leaves its count of beats. -/
theorem runBeats_of_keeps {s t : State} (h : Keeps (allBut .ev) s t) : t.ev.runBeats = s.ev.runBeats :=
  show (quiet t).ev.runBeats = (quiet s).ev.runBeats from congrArg EvSt.runBeats (same_of_keeps (p := .ev) h)

theorem foldl_runBeats {α : Type} {f : State → α → State} (h : ∀ s a, (f s a).ev.runBeats = s.ev.runBeats) (l : List α) (s : State) :
    (l.foldl f s).ev.runBeats = s.ev.runBeats := foldl_keeps (fun s => s.ev.runBeats) f h l s

theorem ite_runBeats {c : Prop} [Decidable c] {a b s : State} (yes : a.ev.runBeats = s.ev.runBeats) (no : b.ev.runBeats = s.ev.runBeats) :
    (if c then a else b).ev.runBeats = s.ev.runBeats := by split <;> assumption

/-! ### Counts of the monitors (R608, R611) -/

@[simp] theorem count_runBeats (s : State) (m code qual n : Nat) : (count s m code qual n).ev.runBeats = s.ev.runBeats :=
  ite_runBeats rfl rfl

@[simp] theorem portBytes_runBeats (s : State) (m port n : Nat) : (portBytes s m port n).ev.runBeats = s.ev.runBeats := rfl

@[simp] theorem cycleCounts_runBeats (s : State) : (cycleCounts s).ev.runBeats = s.ev.runBeats := by
  have counted (t : State) (x : Nat × Nat × Nat) : (cycleCount t x).ev.runBeats = t.ev.runBeats := by simp [cycleCount, draw_eq]
  have ports (t : State) (p : Nat) : (sramPort t p).ev.runBeats = t.ev.runBeats := by simp [sramPort, draw_eq]
  have all : ((cycleSelects s 65 ++ cycleSelects s 66).foldl cycleCount s).ev.runBeats = s.ev.runBeats := foldl_runBeats counted _ s
  unfold cycleCounts
  dsimp only
  split
  · exact all
  · rw [ports, ports, all]

theorem countSlots_runBeats (s : State) (reads wasted : Nat) : (countSlots s reads wasted).ev.runBeats = s.ev.runBeats := by
  simp [countSlots]

theorem countWithheld_runBeats (s : State) : (countWithheld s).ev.runBeats = s.ev.runBeats :=
  ite_runBeats (count_runBeats _ _ _ _ _) rfl

@[simp] theorem countLookup_runBeats (s : State) (l : Lookup) : (countLookup s l).ev.runBeats = s.ev.runBeats := by
  unfold countLookup
  split
  · simp
  · simp [updEcc]
  · exact ite_runBeats (count_runBeats _ _ _ _ _) (count_runBeats _ _ _ _ _)

theorem stepOne_runBeats (s : State) (b : Nat) : (stepOne s b).ev.runBeats = s.ev.runBeats := by
  have taken (t : State) : (snapshot t b).ev.runBeats = t.ev.runBeats := by
    unfold snapshot
    dsimp only
    split
    · dsimp only
      exact (runBeats_of_keeps (writeBytes_keeps (writeBytes_keeps (.refl _ _) rfl) rfl)).trans rfl
    · rfl
  have latched (t : State) (m : Nat) : (if windowDue t m b then latchWindow t m b else t).ev.runBeats = t.ev.runBeats :=
    ite_runBeats rfl rfl
  unfold stepOne
  dsimp only
  split
  · exact (taken _).trans (foldl_runBeats latched _ s)
  · exact foldl_runBeats latched _ s

theorem counterStep_runBeats (s : State) : (counterStep s).ev.runBeats = s.ev.runBeats := by
  unfold counterStep
  dsimp only
  split
  · rfl
  · rfl

/-! ### Links that leave service (R94 to R103) -/

theorem escalateReads_runBeats (s : State) (n : Nat) (which : Rd → Bool) : (escalateReads s n which).ev.runBeats = s.ev.runBeats := by
  have each (l : List Rd) : (l.foldl escalateRead s).ev.runBeats = s.ev.runBeats :=
    foldl_runBeats (fun t r => runBeats_of_keeps (escalateRead_keeps (.refl _ t) rfl)) l s
  unfold escalateReads
  dsimp only
  refine ite_runBeats (each _) ?_
  simp only [count_runBeats]
  exact each _

theorem leaveService_runBeats (s : State) (n : Nat) (st : LinkState) (cause : Nat) :
    (leaveService s n st cause).ev.runBeats = s.ev.runBeats := by
  unfold leaveService outOfService
  dsimp only
  refine (runBeats_of_keeps (lostRose_keeps (updLink_keeps (noteOut_keeps (.refl _ _) rfl) rfl) rfl)).trans ?_
  exact (escalateReads_runBeats _ _ _).trans (runBeats_of_keeps (returnWork_keeps (.refl _ s) rfl))

theorem startRetrain_runBeats (s : State) (n cause : Nat) : (startRetrain s n cause).ev.runBeats = s.ev.runBeats := by
  unfold startRetrain
  exact (runBeats_of_keeps (updLink_keeps (.refl _ _) rfl)).trans (leaveService_runBeats s n .retrain cause)

theorem resumeLinks_runBeats (s : State) (which : Nat → Bool) : (resumeLinks s which).ev.runBeats = s.ev.runBeats := by
  unfold resumeLinks
  rw [draw_eq]
  dsimp only
  exact foldl_runBeats (fun t n => startRetrain_runBeats t n 7) _ { s with freeCtr := s.freeCtr + 1 }

/-! ### Mute levels (R548, R549) -/

theorem computeLevels_runBeats (s : State) (x : Readings) : (computeLevels s x).ev.runBeats = s.ev.runBeats := by
  have rounds : Keeps (allBut .ev) s (alertCheck ((List.range 16).foldl (zoneRound x) ((List.range 48).foldl (chanRound x) s))) :=
    alertCheck_keeps (Keeps.foldl _ _ (fun t a h => zoneRound_keeps (a0 := x) (s := t) (a2 := a) h (rfl : Within 0x102000#21 (allBut .ev))) _
      (Keeps.foldl _ _ (fun t a h => chanRound_keeps (a0 := x) (s := t) (a2 := a) h (rfl : Within 0x102000#21 (allBut .ev))) _ (.refl _ s))) rfl
  unfold computeLevels
  exact runBeats_of_keeps (t := alertCheck _) rounds

theorem unparkRanks_runBeats (s : State) (zones : List Nat) : (unparkRanks s zones).ev.runBeats = s.ev.runBeats := by
  unfold unparkRanks
  exact ite_runBeats rfl ((foldl_runBeats (fun t r => runBeats_of_keeps (unparkEnds_keeps (.refl _ t) rfl)) _ _).trans
    (resumeLinks_runBeats _ _))

theorem setLevels_runBeats (s : State) : (setLevels s).ev.runBeats = s.ev.runBeats := by
  unfold setLevels
  extract_lets up down s1 s2 s3
  have zones : s1.ev.runBeats = s.ev.runBeats := foldl_runBeats (fun t z => (rfl : (updZone t z _).ev.runBeats = _)) _ s
  exact (unparkRanks_runBeats _ down).trans zones

theorem levelsLive_runBeats (s : State) : (levelsLive s).ev.runBeats = s.ev.runBeats := by
  unfold levelsLive
  split
  · rfl
  · exact (setLevels_runBeats _).trans (computeLevels_runBeats s _)

theorem stepTwo_runBeats (s : State) (b : Nat) : (stepTwo s b).ev.runBeats = s.ev.runBeats := by
  have live : (commitAt (decodersLive s) b).ev.runBeats = s.ev.runBeats :=
    runBeats_of_keeps (commitAt_keeps (decodersLive_keeps (.refl _ s) rfl) rfl)
  unfold stepTwo
  dsimp only
  split
  · exact (levelsLive_runBeats _).trans live
  · exact live

/-! ### Admission (R163, R217, R389) -/

theorem resumeRead_runBeats (s : State) (r : Rd) (e : MapEntry) : (resumeRead s r e).ev.runBeats = s.ev.runBeats := by
  unfold resumeRead
  dsimp only
  refine (runBeats_of_keeps (commandRead_keeps (.refl _ _) rfl)).trans ((countLookup_runBeats _ _).trans ?_)
  exact runBeats_of_keeps (lookupEntry_keeps (.refl _ s) rfl)

theorem sampleTake_runBeats (s : State) (type : Nat) : (sampleTake s type).2.ev.runBeats = s.ev.runBeats :=
  runBeats_of_keeps (sampleTake_keeps (.refl _ s) rfl)

theorem raiseAddr_runBeats (s : State) (code source addr p2 : Nat) : (raiseAddr s code source addr p2).ev.runBeats = s.ev.runBeats :=
  runBeats_of_keeps (raiseAddr_keeps (.refl _ s) rfl)

theorem readCredit_runBeats (s : State) (tag : Nat) (l : Lookup) : (readCredit s tag l).ev.runBeats = s.ev.runBeats :=
  runBeats_of_keeps (readCredit_keeps (.refl _ s) rfl)

theorem lookup_runBeats (s : State) (page line : Nat) : (lookup s page line).2.ev.runBeats = s.ev.runBeats :=
  runBeats_of_keeps (lookup_keeps (.refl _ s) rfl)

theorem commandRead_runBeats (s : State) (r : Rd) (due : Nat) : (commandRead s r due).ev.runBeats = s.ev.runBeats :=
  runBeats_of_keeps (commandRead_keeps (.refl _ s) rfl)

theorem admitRead_runBeats (s : State) (q : HostReq) : (admitRead s q).1.ev.runBeats = s.ev.runBeats := by
  unfold admitRead
  extract_lets s1
  have counted : s1.ev.runBeats = s.ev.runBeats := count_runBeats _ _ _ _ _
  have sampled : (sampleTake s1 0).2.ev.runBeats = s.ev.runBeats := (sampleTake_runBeats _ _).trans counted
  clear_value s1
  generalize sampleTake s1 0 = x at sampled ⊢
  obtain ⟨smp, t⟩ := x
  rw [← sampled]
  dsimp only
  split
  · exact (readCredit_runBeats _ _ _).trans (raiseAddr_runBeats t _ _ _ _)
  · split
    · exact (readCredit_runBeats _ _ _).trans (raiseAddr_runBeats t _ _ _ _)
    · split
      · exact (readCredit_runBeats _ _ _).trans (raiseAddr_runBeats t _ _ _ _)
      · refine (readCredit_runBeats _ _ _).trans ((commandRead_runBeats _ _ _).trans ?_)
        exact (countLookup_runBeats _ _).trans (lookup_runBeats t _ _)

theorem sendResp_runBeats (s : State) (r : Resp) : (sendResp s r).ev.runBeats = s.ev.runBeats :=
  runBeats_of_keeps (sendResp_keeps (.refl _ s) rfl)

theorem samplePut_runBeats (s : State) (q : Option Nat) (type path tag rank status dpa arrival completion : Nat) :
    (samplePut s q type path tag rank status dpa arrival completion).ev.runBeats = s.ev.runBeats :=
  runBeats_of_keeps (samplePut_keeps (.refl _ s) rfl)

/-- The completion of a write that is admitted. -/
theorem writeResponse_runBeats (s : State) (smp : Option Nat) (type path tag rank status dpa arrival completion : Nat) :
    (sendResp (samplePut (draw s).2 smp type path tag rank status dpa arrival completion) (.cmp tag)).ev.runBeats = s.ev.runBeats :=
  (sendResp_runBeats _ _).trans (samplePut_runBeats (draw s).2 _ _ _ _ _ _ _ _ _)

theorem admitWrite_runBeats (s : State) (q : HostReq) (be : BitVec 64) (data : LineData) (poison : Bool) :
    (admitWrite s q be data poison).ev.runBeats = s.ev.runBeats := by
  unfold admitWrite
  extract_lets type s1
  have counted : s1.ev.runBeats = s.ev.runBeats := (portBytes_runBeats _ _ _ _).trans (count_runBeats _ _ _ _ _)
  have sampled : (sampleTake s1 type).2.ev.runBeats = s.ev.runBeats := (sampleTake_runBeats _ _).trans counted
  clear_value s1
  generalize sampleTake s1 type = x at sampled ⊢
  obtain ⟨smp, t⟩ := x
  rw [← sampled]
  dsimp only
  split
  · exact (writeResponse_runBeats _ _ _ _ _ _ _ _ _ _).trans (raiseAddr_runBeats t _ _ _ _)
  · split
    · exact (writeResponse_runBeats _ _ _ _ _ _ _ _ _ _).trans (raiseAddr_runBeats t _ _ _ _)
    · split
      · exact (writeResponse_runBeats _ _ _ _ _ _ _ _ _ _).trans (raiseAddr_runBeats t _ _ _ _)
      · refine (writeResponse_runBeats _ _ _ _ _ _ _ _ _ _).trans ?_
        refine (runBeats_of_keeps (writeCredit_keeps (saggarWrite_keeps (.refl _ _) rfl) rfl)).trans ?_
        refine (count_runBeats _ _ _ _ _).trans ?_
        have unsealed : (cancelSeal t).ev.runBeats = t.ev.runBeats := runBeats_of_keeps (cancelSeal_keeps (.refl _ t) rfl)
        exact ite_runBeats unsealed unsealed

/-- One request, beside the counts of reads and of wasted slots. -/
theorem admitAll_runBeats (s : State) : (admitAll s).1.ev.runBeats = s.ev.runBeats := by
  unfold admitAll
  dsimp only
  refine foldl_keeps (fun a : State × Nat × Nat => a.1.ev.runBeats) _ (fun a r => ?_) _ _
  split
  · exact admitRead_runBeats _ _
  · exact admitWrite_runBeats _ _ _ _ _

theorem dropWrites_runBeats (s : State) : (dropWrites s).ev.runBeats = s.ev.runBeats := ite_runBeats rfl rfl

theorem admission_runBeats (s : State) : (admission s).ev.runBeats = s.ev.runBeats := by
  unfold admission
  dsimp only
  refine (countSlots_runBeats _ _ _).trans ((admitAll_runBeats _).trans ?_)
  exact dropWrites_runBeats s

theorem stepFour_runBeats (s : State) : (stepFour s).ev.runBeats = s.ev.runBeats := by
  unfold stepFour
  extract_lets s1 s2
  have admitted : s1.ev.runBeats = s.ev.runBeats := ite_runBeats (admission_runBeats s) rfl
  have granted : s2.ev.runBeats = s.ev.runBeats :=
    ite_runBeats ((runBeats_of_keeps (grantCredits_keeps (returnCredits_keeps (.refl _ s1) rfl) rfl)).trans admitted) admitted
  exact ite_runBeats ((countWithheld_runBeats s2).trans granted) granted

/-! ### The map's upkeep (R129, R148, R150) -/

/-- The lines of one page whose entry has come. -/
def pageFilled (s : State) (p : Nat) : State :=
  (List.range 64).foldl (fun s i => senseFill (fillFromEntry s p i) p i) (rechargePage s p)

/-- The reads that waited for a segment. -/
def readsResumed (s : State) (g : Nat) (es : List MapEntry) : State :=
  (s.hq.reads.filter fun r => r.stage = .miss g).foldl (fun s r => resumeRead s r (es.getD (r.page % 8) {})) s

theorem resumeSeg_eq (s : State) (g : Nat) (es : List MapEntry) :
    resumeSeg s g es = readsResumed (((List.range 8).map (g * 8 + ·)).foldl pageFilled s) g es := by
  unfold resumeSeg
  extract_lets pages filled
  have same : filled = pages.foldl pageFilled s := by unfold pageFilled; with_reducible rfl
  clear_value filled
  rw [← same]
  unfold readsResumed
  with_reducible rfl

theorem pageFilled_runBeats (s : State) (p : Nat) : (pageFilled s p).ev.runBeats = s.ev.runBeats := by
  have line (t : State) (i : Nat) : (senseFill (fillFromEntry t p i) p i).ev.runBeats = t.ev.runBeats :=
    runBeats_of_keeps (senseFill_keeps (fillFromEntry_keeps (.refl _ t) rfl) rfl)
  unfold pageFilled
  exact (foldl_runBeats line _ _).trans (runBeats_of_keeps (rechargePage_keeps (.refl _ s) rfl))

theorem readsResumed_runBeats (s : State) (g : Nat) (es : List MapEntry) : (readsResumed s g es).ev.runBeats = s.ev.runBeats := by
  unfold readsResumed
  exact foldl_runBeats (fun t r => resumeRead_runBeats t r _) _ s

theorem resumeSeg_runBeats (s : State) (g : Nat) (es : List MapEntry) : (resumeSeg s g es).ev.runBeats = s.ev.runBeats := by
  rw [resumeSeg_eq, readsResumed_runBeats]
  exact foldl_runBeats pageFilled_runBeats _ s

theorem giveWay_runBeats (s : State) (g : Nat) : (giveWay s g).ev.runBeats = s.ev.runBeats := by
  have freed : (setSeg s g none).ev.runBeats = s.ev.runBeats := runBeats_of_keeps (setSeg_keeps (.refl _ s) rfl)
  unfold giveWay
  dsimp only
  split
  · exact freed
  · refine (resumeSeg_runBeats _ _ _).trans ((runBeats_of_keeps (putSeg_keeps (.refl _ _) rfl)).trans ?_)
    exact freed

theorem durableLine_runBeats (s : State) (ll : Nat) (img : LeafLine) : (durableLine s ll img).ev.runBeats = s.ev.runBeats := by
  unfold durableLine
  dsimp only
  split
  · rfl
  · exact ite_runBeats (ite_runBeats (giveWay_runBeats s _) (runBeats_of_keeps (setSeg_keeps (.refl _ s) rfl))) rfl

theorem lineDone_runBeats (s : State) (ll : Nat) (img : LeafLine) : (lineDone s ll img).ev.runBeats = s.ev.runBeats := by
  unfold lineDone
  exact ite_runBeats (durableLine_runBeats s ll img) (durableLine_runBeats s ll img)

theorem dropAbsent_runBeats (s : State) (w : Nat × List Nat × LeafLine) : (dropAbsent s w).ev.runBeats = s.ev.runBeats := by
  unfold dropAbsent
  dsimp only
  split
  · rfl
  · split
    · exact lineDone_runBeats _ _ _
    · rfl

theorem forceWay_runBeats (s : State) (x : Nat × CacheSeg) : (forceWay s x).ev.runBeats = s.ev.runBeats := by
  unfold forceWay
  refine ite_runBeats rfl (ite_runBeats (ite_runBeats rfl (giveWay_runBeats s _)) ?_)
  exact foldl_runBeats (fun t _ => runBeats_of_keeps (startWriteBack_keeps (.refl _ t) rfl)) _ s

theorem mapUpkeep_runBeats (s : State) : (mapUpkeep s).ev.runBeats = s.ev.runBeats := by
  unfold mapUpkeep
  dsimp only
  split
  · rfl
  · refine (runBeats_of_keeps (placeWaiting_keeps (cleanAll_keeps (startRewrites_keeps (.refl _ _) rfl) rfl) rfl)).trans ?_
    refine (foldl_runBeats forceWay_runBeats _ _).trans ?_
    exact (foldl_runBeats (fun t _ => runBeats_of_keeps (chooseWay_keeps (.refl _ t) rfl)) _ _).trans (foldl_runBeats dropAbsent_runBeats _ s)

theorem upkeep_runBeats (s : State) : (upkeep s).ev.runBeats = s.ev.runBeats := by
  have taken : (takeDrops (discardReports s)).ev.runBeats = s.ev.runBeats :=
    runBeats_of_keeps (takeDrops_keeps (discardReports_keeps (.refl _ s) rfl) rfl)
  unfold upkeep
  exact ite_runBeats taken ((mapUpkeep_runBeats _).trans taken)

/-! ### The plans of a frame (R83 to R90) -/

theorem updLink_runBeats (s : State) (n : Nat) (f : LinkRec → LinkRec) : (updLink s n f).ev.runBeats = s.ev.runBeats := rfl

theorem planEntry_runBeats (s : State) (n : Nat) (e : Entry) : (planEntry s n e).ev.runBeats = s.ev.runBeats := by
  unfold planEntry
  dsimp only
  split
  · exact count_runBeats _ _ _ _ _
  · rfl

theorem planUnitOn_runBeats (s : State) (u : WorkUnit) (n : Nat) : (planUnitOn s u n).ev.runBeats = s.ev.runBeats := by
  unfold planUnitOn
  refine ite_runBeats (updLink_runBeats _ _ _) ((planEntry_runBeats _ _ _).trans ?_)
  exact foldl_runBeats (fun t e => planEntry_runBeats t n e) _ s

theorem planUnit_runBeats (s : State) (x : Nat × WorkUnit) : (planUnit s x).ev.runBeats = s.ev.runBeats := by
  unfold planUnit
  extract_lets u links live done
  refine ite_runBeats rfl (ite_runBeats ?_ (ite_runBeats ?_ rfl))
  · exact foldl_runBeats (fun t _ => runBeats_of_keeps (completeUnit_keeps (.refl _ t) rfl)) _ _
  · exact foldl_runBeats (fun t n => planUnitOn_runBeats t u n) _ _

theorem planSense_runBeats (s : State) (n : Nat) (x : Sense) : (planSense s n x).ev.runBeats = s.ev.runBeats := by
  unfold planSense
  exact ite_runBeats ((planEntry_runBeats _ _ _).trans (updLink_runBeats _ _ _)) rfl

theorem planSenses_runBeats (s : State) (n : Nat) : (planSenses s n).ev.runBeats = s.ev.runBeats :=
  foldl_runBeats (fun t x => planSense_runBeats t n x) _ s

theorem planMasks_runBeats (s : State) (n : Nat) : (planMasks s n).ev.runBeats = s.ev.runBeats := by
  unfold planMasks
  exact ite_runBeats rfl ((updLink_runBeats _ _ _).trans (planEntry_runBeats s n _))

theorem planReloads_runBeats (s : State) (n : Nat) : (planReloads s n).ev.runBeats = s.ev.runBeats := by
  unfold planReloads
  dsimp only
  split
  · rfl
  · exact updLink_runBeats _ _ _

theorem planEq_runBeats (s : State) (n : Nat) : (planEq s n).ev.runBeats = s.ev.runBeats := by
  unfold planEq
  split
  · rfl
  · exact ite_runBeats ((updLink_runBeats _ _ _).trans (planEntry_runBeats s n _)) rfl

theorem freezePlans_runBeats (s : State) : (freezePlans s).ev.runBeats = s.ev.runBeats := by
  unfold freezePlans
  dsimp only
  refine (foldl_runBeats (fun t _ => planReloads_runBeats t _) _ _).trans ((foldl_runBeats (fun t _ => planEq_runBeats t _) _ _).trans ?_)
  refine (foldl_runBeats planUnit_runBeats _ _).trans ?_
  exact (foldl_runBeats (fun t _ => planMasks_runBeats t _) _ _).trans (foldl_runBeats (fun t _ => planSenses_runBeats t _) _ s)

/-! ### The boundary (R27) -/

theorem intakeDrain_runBeats (s : State) : (intakeDrain s).ev.runBeats = s.ev.runBeats :=
  runBeats_of_keeps (intakeDrain_keeps (.refl _ s) rfl)

theorem freshBeat_runBeats (s : State) : (freshBeat s).ev.runBeats = s.ev.runBeats := by
  unfold freshBeat
  exact intakeDrain_runBeats _

theorem advance_runBeats (s : State) : (advance s).ev.runBeats = s.ev.runBeats :=
  runBeats_of_keeps (advance_keeps (.refl _ s) rfl)

/-- A boundary in Run or Idle counts one beat. -/
theorem runBoundary_runBeats (s : State) : (runBoundary s).ev.runBeats = s.ev.runBeats + 1 := by
  unfold runBoundary
  extract_lets b s1 s2 s3 ev s4 s5
  have acted : s1.ev.runBeats = s.ev.runBeats := (stepTwo_runBeats _ b).trans ((stepOne_runBeats _ b).trans (cycleCounts_runBeats s))
  have agreed : s2.ev.runBeats = s.ev.runBeats :=
    (runBeats_of_keeps (retrainEnds_keeps (powerAgreedAt_keeps (goMissed_keeps (.refl _ s1) rfl) rfl) rfl)).trans acted
  have advanced : s3.ev.runBeats = s.ev.runBeats := (advance_runBeats _).trans ((counterStep_runBeats s2).trans agreed)
  have counted : s4.ev.runBeats = s.ev.runBeats + 1 := congrArg (· + 1) advanced
  have noted : s5.ev.runBeats = s4.ev.runBeats := ite_runBeats (runBeats_of_keeps (noteActivity_keeps (.refl _ s4) rfl)) rfl
  exact (freezePlans_runBeats _).trans ((upkeep_runBeats _).trans ((stepFour_runBeats _).trans ((freshBeat_runBeats s5).trans (noted.trans counted))))

end Sys2Proof.Proofs.RunBeats
end

section
/-! The entry to Deep sleep, and the beat boundary. -/
namespace Sys2Proof.Proofs.Beats
open Sys2Proof Machine Safety Proofs.Startup Proofs.Agreements Proofs.Power Proofs.RunBeats

/-! ### The counters of a boundary (R22 to R24) -/

theorem addTicks_beat (c : ClkSt) (n : Nat) : (addTicks c n).beat = c.beat := by
  unfold addTicks
  dsimp only
  split <;> rfl

theorem tick_beat (c : ClkSt) : (tick c).beat = c.beat := by
  unfold tick
  dsimp only
  split
  · rfl
  · exact addTicks_beat _ 1

theorem trimTick_beat (c : ClkSt) : (trimTick c).beat = c.beat := by
  unfold trimTick
  dsimp only
  split
  · rfl
  · split
    · rfl
    · exact addTicks_beat _ _

theorem beatClock_beat (c : ClkSt) : (beatClock c).beat = c.beat + 1 := by
  unfold beatClock
  extract_lets acc counted
  have next : counted.beat = c.beat + 1 := rfl
  clear_value counted
  rw [← next]
  split
  · exact (trimTick_beat _).trans (tick_beat _)
  · rfl

theorem advance_beat (s : State) : (advance s).clk.beat = s.clk.beat + 1 := by
  have kept (t : State) : (alertEnds (bucketLeak t)).clk = t.clk :=
    same_of_keeps (p := .clk) (alertEnds_keeps (bucketLeak_keeps (.refl _ t) rfl) rfl)
  unfold advance
  rw [kept]
  exact beatClock_beat s.clk

theorem advance_pwr (s : State) : StatePart.pwr.same s (advance s) := same_of_keeps (p := .pwr) (advance_keeps (.refl _ s) rfl)

theorem advance_wakePending (s : State) : (advance s).ev.wakePending = s.ev.wakePending :=
  show (quiet (advance s)).ev.wakePending = (quiet s).ev.wakePending from
    congrArg EvSt.wakePending (same_of_keeps (p := .ev) (advance_keeps (.refl _ s) rfl))

/-! ### Mute levels (R549) -/

theorem levelsLive_clk (s : State) : (levelsLive s).clk = s.clk := same_of_keeps (p := .clk) (levelsLive_keeps (.refl _ s) rfl)

theorem setLevels_pwrfail (s : State) : (setLevels s).pwr.pwrfail = s.pwr.pwrfail := by
  have kept (t : State) (down : List Nat) : (unparkRanks t down).pwr.pwrfail = t.pwr.pwrfail :=
    pwr_field (same_of_keeps (p := .pwr) (unparkRanks_keeps (.refl _ t) rfl)) (·.pwrfail)
  unfold setLevels
  extract_lets up down s1 th s2 s3
  have zones : s1.pwr.pwrfail = s.pwr.pwrfail :=
    foldl_keeps (fun s => s.pwr.pwrfail) _ (fun t z => (rfl : (updZone t z _).pwr.pwrfail = _)) _ s
  exact (kept _ down).trans zones

theorem levelsLive_pwrfail (s : State) : (levelsLive s).pwr.pwrfail = s.pwr.pwrfail := by
  unfold levelsLive
  split
  · rfl
  · exact (setLevels_pwrfail _).trans (pwr_field (same_of_keeps (p := .pwr) (computeLevels_keeps (.refl _ s) rfl)) (·.pwrfail))

/-! ### A boundary in Run or Idle (R27) -/

theorem runBoundary_beat (s : State) : (runBoundary s).clk.beat = s.clk.beat + 1 := by
  unfold runBoundary
  extract_lets b s1 s2 s3 ev s4 s5
  have before : (counterStep s2).clk = s.clk := same_of_keeps (p := .clk) (counterStep_keeps (retrainEnds_keeps (powerAgreedAt_keeps
    (goMissed_keeps (stepTwo_keeps (stepOne_keeps (cycleCounts_keeps (.refl _ s) rfl) rfl) rfl) rfl) rfl) rfl) rfl)
  have advanced : s3.clk.beat = s.clk.beat + 1 := (advance_beat _).trans (by rw [before])
  have noted : s5.clk = s4.clk := same_of_keeps (p := .clk) (.ite (noteActivity_keeps (.refl _ s4) rfl) (.refl _ s4))
  have after (t : State) : (freezePlans (upkeep (stepFour (freshBeat t)))).clk = t.clk := same_of_keeps (p := .clk)
    (freezePlans_keeps (upkeep_keeps (stepFour_keeps (freshBeat_keeps (.refl _ t) rfl) rfl) rfl) rfl)
  rw [after, noted]
  exact advanced

/-- The records of the cycle leave clocks, power and the count of beats. -/
theorem cycleEnd_clk (s : State) : (cycleEnd s).clk = s.clk := same_of_keeps (p := .clk) (cycleEnd_keeps (.refl _ s) rfl)
theorem cycleEnd_pwr (s : State) : StatePart.pwr.same s (cycleEnd s) := same_of_keeps (p := .pwr) (cycleEnd_keeps (.refl _ s) rfl)
theorem cycleEnd_runBeats (s : State) : (cycleEnd s).ev.runBeats = s.ev.runBeats := runBeats_of_keeps (cycleEnd_keeps (.refl _ s) rfl)

/-- A boundary in Run or Idle with its cycle: the beat advances by one and is counted. -/
theorem cycle_counts (s : State) : (cycleEnd (runBoundary (cycleStart s))).clk.beat = s.clk.beat + 1 ∧
    (cycleEnd (runBoundary (cycleStart s))).ev.runBeats = s.ev.runBeats + 1 := by
  have started : (cycleStart s).clk.beat = s.clk.beat ∧ (cycleStart s).ev.runBeats = s.ev.runBeats := ⟨rfl, rfl⟩
  rw [cycleEnd_clk, cycleEnd_runBeats, runBoundary_beat, runBoundary_runBeats, started.1, started.2]
  exact ⟨rfl, rfl⟩

/-! ### A boundary in Sleep (R518 to R520) -/

/-- The levels that the number of the beat makes live. -/
def sleepLevels (s : State) : State := if (s.clk.beat + 1) % 131072 = 65536 then levelsLive s else s

theorem sleepLevels_pwrfail (s : State) : (sleepLevels s).pwr.pwrfail = s.pwr.pwrfail := by
  unfold sleepLevels
  split
  · exact levelsLive_pwrfail s
  · rfl

theorem sleepLevels_beat (s : State) : (sleepLevels s).clk.beat = s.clk.beat := by
  unfold sleepLevels
  split
  · rw [levelsLive_clk]
  · rfl

theorem sleepLevels_none {s : State} (none : s.th.sampled = none ∨ (s.clk.beat + 1) % 131072 ≠ 65536) : sleepLevels s = s := by
  unfold sleepLevels
  rcases none with none | other
  · simp [levelsLive, none]
  · exact if_neg other

/-- PWRFAIL_N that has fallen wakes the device at the boundary. -/
theorem sleepBoundary_pwrfail {s : State} (fallen : s.pwr.pwrfail = true) :
    sleepBoundary s = wakeFromSleep (advance (sleepLevels s)) 3 :=
  if_pos ((pwr_field (advance_pwr _) (·.pwrfail)).trans ((sleepLevels_pwrfail s).trans fallen))

/-- Without a source the device sleeps on. -/
theorem sleepBoundary_quiet {s : State} (up : s.pwr.pwrfail = false) (none : s.ev.wakePending = none)
    (level : s.th.sampled = Option.none ∨ (s.clk.beat + 1) % 131072 ≠ 65536) : sleepBoundary s = advance s := by
  have stays : (advance s).pwr.pwrfail = false := (pwr_field (advance_pwr s) (·.pwrfail)).trans up
  have unasked : (advance s).ev.wakePending = Option.none := (advance_wakePending s).trans none
  have levels : (if (s.clk.beat + 1) % 131072 = 65536 then levelsLive s else s) = s := sleepLevels_none level
  unfold sleepBoundary
  dsimp only
  rw [levels, if_neg (by simp [stays]), unasked]

/-- The command in Sleep. -/
theorem beatBoundary_asleep {s : State} (clocked : clocked s = true) (asleep : s.pwr.state = .sleep) :
    exec .beatBoundary s = .next (cycleEnd (sleepBoundary (cycleStart s))) :=
  congrArg Host.Outcome.next ((if_neg (by simp [clocked])).trans (if_pos asleep))

theorem state_of_same {s t : State} (h : StatePart.pwr.same s t) : t.pwr.state = s.pwr.state := pwr_field h (·.state)
theorem entering_of_same {s t : State} (h : StatePart.pwr.same s t) : t.pwr.entering = s.pwr.entering := pwr_field h (·.entering)

/-- The device in Run internally, its entry to Deep sleep begun. -/
def entryBegun (s : State) : State :=
  { s with
    pwr := { s.pwr with state := .run, entering := true }
    hl := { s.hl with state := if s.hl.state = .lowPower then .active else s.hl.state } }

theorem deepSleepEntry_begins {s : State} (on : s.pwr.supplies = true) (out : s.pwr.inReset = false) (asleep : s.pwr.state = .sleep)
    (fits : deepFits s = true) (agreed : agreedFor s 3 (deepTimed s || askedFor s 3) = true) :
    exec .deepSleepEntry s = .next (resumeLinks (entryBegun s) fun _ => true) := by
  unfold exec execDeepSleepEntry entryBegun
  dsimp only
  rw [if_neg (by simp [on, out]), if_pos asleep, if_pos (by simp [fits, agreed])]

/-! ### Conditions (R21, R514) and what the gate keeps (R522) -/

theorem clocked_of_awake {s : State} (up : awake s = true) (step : 2 ≤ s.pwr.step) : clocked s = true ∧ s.pwr.state ≠ .sleep := by
  simp only [awake, Bool.and_eq_true, Bool.or_eq_true, decide_eq_true_eq, Bool.not_eq_true'] at up
  obtain ⟨⟨on, out⟩, state⟩ := up
  refine ⟨by simp [clocked, on, out, step], ?_⟩
  rcases state with state | state <;> simp [state]

/-- The entry image, the temperature history and the drift tables go to the keep store and leave the rest. -/
theorem saved_same {p : StatePart} (s : State) (hp : Within 0x100040#21 (allBut p)) :
    p.same s (keepPut (keepPut (saveDrift s) 0x60 (entryImage s)) 0x200 (tempHistory s)) :=
  same_of_keeps (keepPut_keeps (keepPut_keeps (saveDrift_keeps (.refl _ s))))

/-- Settles O13: the entry by its guards and what the gate loses; a boundary by the order of its steps. -/
theorem deepSleepAndBeats : Obligations.DeepSleepAndBeats := by
  refine ⟨⟨?enter, ?unfit, ?idle, ?given, ?gated⟩, ?still, ?runs, ?pwrfail, ?sleeps, ?stands, ?clock⟩
  case enter =>
    intro s on out asleep fits agreed
    have kept : StatePart.pwr.same (entryBegun s) (resumeLinks (entryBegun s) fun _ => true) :=
      same_of_keeps (p := .pwr) (resumeLinks_keeps (.refl _ _) rfl)
    exact ⟨_, deepSleepEntry_begins on out asleep fits agreed, state_of_same kept, entering_of_same kept⟩
  case unfit =>
    intro s on out asleep unfit
    refine congrArg Host.Outcome.next ((if_neg (by simp [on, out])).trans ((if_pos asleep).trans (if_neg ?_)))
    rcases unfit with unfit | unfit <;> simp [unfit]
  case idle =>
    intro s on out awake none
    exact congrArg Host.Outcome.next ((if_neg (by simp [on, out])).trans ((if_neg awake).trans (if_pos (by simp [none]))))
  case given =>
    intro s on out awake entering unfit
    exact congrArg Host.Outcome.next ((if_neg (by simp [on, out])).trans ((if_neg awake).trans ((if_neg (by simp [entering])).trans
      (if_pos (by simp [unfit])))))
  case gated =>
    intro s on out awake entering fits written standing cause
    have clk := saved_same (p := .clk) s rfl
    have mp := saved_same (p := .mp) s rfl
    have live := saved_same (p := .live) s rfl
    have shadow := saved_same (p := .shadow) s rfl
    refine ⟨_, congrArg Host.Outcome.next ((if_neg (by simp [on, out])).trans ((if_neg awake).trans ((if_neg (by simp [entering])).trans
      ((if_neg (by simp [fits])).trans (if_pos (by simp [written, standing, cause])))))), rfl, rfl, (congrArg ClkSt.beat clk :),
      (congrArg (fun c => c.seconds * 32768 + c.subsec) clk :), (congrArg ClkSt.seconds clk :), rfl, rfl, (congrArg MapSt.media mp :), rfl, live, shadow⟩
  case still =>
    intro s still
    exact congrArg Host.Outcome.next (if_pos (by simp [still]))
  case runs =>
    intro s up step
    obtain ⟨clocked, asleep⟩ := clocked_of_awake up step
    obtain ⟨beat, counted⟩ := cycle_counts s
    refine ⟨_, congrArg Host.Outcome.next ((if_neg (by simp [clocked])).trans ((if_neg asleep).trans (if_pos up))), ?_⟩
    generalize cycleEnd (runBoundary (cycleStart s)) = t at beat counted ⊢
    dsimp only
    split
    · exact ⟨beat, counted⟩
    · exact ⟨beat, counted⟩
  case pwrfail =>
    intro s clocked asleep fallen
    have slept := sleepBoundary_pwrfail (s := cycleStart s) fallen
    refine ⟨_, beatBoundary_asleep clocked asleep, ?_, ?_, ?_⟩
    · rw [cycleEnd_clk, slept, wakeFromSleep_clk, advance_beat, sleepLevels_beat]
      rfl
    · exact (pwr_field (cycleEnd_pwr _) (·.state)).trans (by rw [slept]; exact wakeFromSleep_state _ 3)
    · exact (pwr_field (cycleEnd_pwr _) (·.wakeSrc)).trans (by rw [slept]; exact wakeFromSleep_source _ 3)
  case sleeps =>
    intro s clocked asleep up none level
    have slept := sleepBoundary_quiet (s := cycleStart s) up none level
    refine ⟨_, beatBoundary_asleep clocked asleep, ?_, ?_⟩
    · rw [cycleEnd_clk, slept, advance_beat]
      rfl
    · refine (pwr_field (cycleEnd_pwr _) (·.state)).trans ?_
      rw [slept]
      exact (pwr_field (advance_pwr _) (·.state)).trans asleep
  case stands =>
    intro s off
    refine congrArg Host.Outcome.next ?_
    rcases off with off | off <;> simp [off, awake]
  case clock =>
    intro c xtal acc
    simp [beatClock, xtal, Nat.not_le.2 acc]

end Sys2Proof.Proofs.Beats
end
